-- ==== Sys2Proof/Word.lean ====
section
/-! DEFINITION. Plain arithmetic on numbers, bit fields, sparse maps in one canonical form, and CRC-32C.

Field values are natural numbers with a stated width (R8: bit 0 is the least significant bit). A sparse map is a list of
key and value pairs with strictly rising keys and no entry equal to the default, so equal contents are equal lists. -/

namespace Sys2Proof

/-- A number cut to `w` bits. -/
def trunc (w v : Nat) : Nat := v % 2 ^ w

/-- Bits `hi` down to `lo` of `v` (R8). -/
def bits (v hi lo : Nat) : Nat := (v >>> lo) % 2 ^ (hi + 1 - lo)

/-- One bit of `v`. -/
def bit (v i : Nat) : Bool := (v >>> i) % 2 == 1

/-- A Boolean as a bit. -/
def ofBool (b : Bool) : Nat := if b then 1 else 0

/-- `v` with bits `hi` down to `lo` replaced by `x`. -/
def setBits (v hi lo x : Nat) : Nat :=
  (v >>> (hi + 1)) <<< (hi + 1) + (x % 2 ^ (hi + 1 - lo)) <<< lo + v % 2 ^ lo

/-- `v` with one bit set or cleared. -/
def setBit (v i : Nat) (b : Bool) : Nat := setBits v i i (ofBool b)

/-- The bitwise complement in `w` bits. -/
def compl (w v : Nat) : Nat := 2 ^ w - 1 - v % 2 ^ w

/-- The bits of `v` that are clear in `m`. -/
def bitClear (w v m : Nat) : Nat := v &&& compl w m

/-- The quotient rounded up. -/
def ceilDiv (a b : Nat) : Nat := (a + b - 1) / b

/-- The positions below `n` of the bits set in `v`, rising. -/
def setBitsOf (n v : Nat) : List Nat := (List.range n).filter (bit v)

/-- How many of the low `n` bits of `v` are set. -/
def popcount (n v : Nat) : Nat := (setBitsOf n v).length

/-- A signed number as a field of `w` bits, two's complement. -/
def toField (w : Nat) (i : Int) : Nat := (i % (2 ^ w : Int)).toNat

/-- A field of `w` bits read as a two's-complement number. -/
def ofField (w v : Nat) : Int :=
  let x := v % 2 ^ w
  if x < 2 ^ (w - 1) then (x : Int) else (x : Int) - (2 ^ w : Int)

/-- `v` kept within `lo` and `hi`. -/
def clampTo (lo hi v : Nat) : Nat := if v < lo then lo else if hi < v then hi else v

/-- Serial order of 16-bit epochs: `a` is newer than `b` (R77). -/
def epochNewer (a b : Nat) : Bool :=
  let d := (a + 65536 - b % 65536) % 65536
  1 ≤ d && d ≤ 32767

/-- The little-endian bytes of `v`, `n` of them (R7). -/
def bytesOf : Nat → Nat → List Nat
  | 0, _ => []
  | n + 1, v => v % 256 :: bytesOf n (v / 256)

/-- The number whose little-endian bytes are given (R7). -/
def ofBytes : List Nat → Nat
  | [] => 0
  | b :: r => b % 256 + 256 * ofBytes r

/-- The first element that passes, with its place. -/
def findIdxOf {α : Type} (p : α → Bool) : List α → Nat → Option (Nat × α)
  | [], _ => none
  | x :: r, i => if p x then some (i, x) else findIdxOf p r (i + 1)

/-- The list with element `i` replaced. -/
def listSet {α : Type} : List α → Nat → α → List α
  | [], _, _ => []
  | _ :: r, 0, v => v :: r
  | x :: r, i + 1, v => x :: listSet r i v

/-- The elements that pass are changed by `f`. -/
def mapIf {α : Type} (p : α → Bool) (f : α → α) (l : List α) : List α :=
  l.map fun x => if p x then f x else x

/-- `l` with `x` put at its end unless it is there. -/
def addOnce {α : Type} [DecidableEq α] (l : List α) (x : α) : List α := if x ∈ l then l else l ++ [x]

/-- The last `n` elements of a list. -/
def lastN {α : Type} (n : Nat) (l : List α) : List α := l.drop (l.length - n)

/-- Pieces of a list of at most `k`; `n` bounds how many. -/
def pieces {α : Type} (k : Nat) : Nat → List α → List (List α)
  | 0, _ => []
  | n + 1, l => if l.length ≤ k then [l] else l.take k :: pieces k n (l.drop k)

/-- A stable insertion sort; `le` is the order. -/
def sortBy {α : Type} (le : α → α → Bool) : List α → List α
  | [] => []
  | x :: r => insertFirst le x (sortBy le r)
where
  /-- Puts `x` before every element that it does not exceed. -/
  insertFirst (le : α → α → Bool) (x : α) : List α → List α
    | [] => [x]
    | y :: r => if le x y then x :: y :: r else y :: insertFirst le x r

/-- A sparse map: pairs of key and value, keys strictly rising. -/
abbrev SMap (α : Type) := List (Nat × α)

namespace SMap

/-- The value listed for a key. -/
def find? {α : Type} : SMap α → Nat → Option α
  | [], _ => none
  | (a, v) :: r, k => if a = k then some v else find? r k

/-- The value for a key, `d` where none is listed. -/
def get {α : Type} (d : α) (m : SMap α) (k : Nat) : α := (find? m k).getD d

/-- The map with an entry put in key order. -/
def insert {α : Type} : SMap α → Nat → α → SMap α
  | [], k, v => [(k, v)]
  | (a, b) :: r, k, v =>
    if k < a then (k, v) :: (a, b) :: r else if k = a then (k, v) :: r else (a, b) :: insert r k v

/-- The map without a key. -/
def erase {α : Type} : SMap α → Nat → SMap α
  | [], _ => []
  | (a, b) :: r, k => if a = k then erase r k else (a, b) :: erase r k

/-- A write that keeps the canonical form: writing the default removes the entry. -/
def set {α : Type} [DecidableEq α] (d : α) (m : SMap α) (k : Nat) (v : α) : SMap α :=
  if v = d then erase m k else insert m k v

/-- Keys strictly rise. -/
def sorted {α : Type} : SMap α → Bool
  | [] => true
  | [_] => true
  | (a, _) :: (b, v) :: r => decide (a < b) && sorted ((b, v) :: r)

/-- The canonical form: keys strictly rise and no entry is the default. -/
def wf {α : Type} [DecidableEq α] (d : α) (m : SMap α) : Bool :=
  sorted m && m.all fun e => decide (e.2 ≠ d)

/-- The entries whose keys lie in a range. -/
def range {α : Type} (m : SMap α) (lo hi : Nat) : SMap α := m.filter fun e => lo ≤ e.1 && e.1 < hi

/-- The map without the keys of a range. -/
def eraseRange {α : Type} (m : SMap α) (lo hi : Nat) : SMap α := m.filter fun e => !(lo ≤ e.1 && e.1 < hi)

end SMap

/-- One bit of the reflected CRC-32C division. -/
def crcBit (c : Nat) : Nat := Nat.xor (Nat.div c 2) (Nat.mul (Nat.mod c 2) 0x82F63B78)

/-- One byte taken into a CRC-32C. -/
def crcByte (c b : Nat) : Nat :=
  crcBit (crcBit (crcBit (crcBit (crcBit (crcBit (crcBit (crcBit ((c ^^^ b) % 2 ^ 32))))))))

/-- CRC-32C of a byte list. -/
def crc32c (l : List Nat) : Nat := (l.foldl crcByte 0xFFFFFFFF) ^^^ 0xFFFFFFFF

/-- A function of a number that is worked out first. -/
def forced {α : Type} (n : Nat) (f : Nat → α) : α := match n with | 0 => f 0 | k + 1 => f (k + 1)

/-- CRC-32C of the `n` bytes `f 0` to `f (n - 1)`; `i` counts those already taken. -/
def crcOver (f : Nat → Nat) : Nat → Nat → Nat → Nat
  | 0, _, c => c ^^^ 0xFFFFFFFF
  | n + 1, i, c => forced (crcByte c (f i)) fun k => crcOver f n (i + 1) k

/-- CRC-32C of the `n` bytes `f 0` to `f (n - 1)`. -/
def crcFun (f : Nat → Nat) (n : Nat) : Nat := crcOver f n 0 0xFFFFFFFF

end Sys2Proof
end

