-- ==== Sys2Proof/Machine/Operands.lean ====
section
/-! DEFINITION. What the commands carry: units, packets, link frames, messages, blocks, slot-list segments and descriptors.

A field is a natural number whose width the spec's layout gives; WellFormed checks the widths. -/

namespace Sys2Proof

/-- The units of the zones that one G9 governs, and its partitions (R35, R97, R98). Pod indexes are zones 0 to 15 of this G9;
an OCS unit is named by its number. -/
inductive UnitId where
  | endpoint (zone n : Nat)
  | leaf (zone l : Nat)
  | spine (zone s : Nat)
  | ocs (n : Nat)
  | part (p : Nat)
  deriving DecidableEq, Repr

/-- A number for each unit: 1,024 numbers a zone for its endpoints, leaves and spines, then the OCS units, then the partitions. -/
def UnitId.code : UnitId → Nat
  | .endpoint z n => z * 1024 + n
  | .leaf z l => z * 1024 + 512 + l
  | .spine z s => z * 1024 + 544 + s
  | .ocs n => 16384 + n
  | .part p => 81920 + p

/-- The zone of a unit; an OCS unit belongs to the zone its management attachment is in, which the state holds. -/
def UnitId.zone : UnitId → Nat
  | .endpoint z _ => z
  | .leaf z _ => z
  | .spine z _ => z
  | .ocs _ => 0
  | .part p => p

/-- Agent profiles of R68, and the G9 partition (R99). -/
inductive Profile where
  | endpoint | switch | circuit | partition
  deriving DecidableEq, Repr

/-- The profile of a unit. -/
def UnitId.profile : UnitId → Profile
  | .endpoint _ _ => .endpoint
  | .leaf _ _ => .switch
  | .spine _ _ => .switch
  | .ocs _ => .circuit
  | .part _ => .partition

/-- The PROFILE code (R68, R99). -/
def Profile.code : Profile → Nat
  | .endpoint => 0
  | .switch => 1
  | .circuit => 2
  | .partition => 3

/-- The null FID (R38). -/
def nullFid : Nat := 0xFFFFF

/-- Traffic classes (R48): 0 SCHED, 1 LOOSE, 2 MGMT; 3 is reserved. -/
abbrev clsSched : Nat := 0
/-- LOOSE. -/
abbrev clsLoose : Nat := 1
/-- MGMT. -/
abbrev clsMgmt : Nat := 2

/-- A message of the envelope of R95; `body` holds the fields of its layout in table order, lists spread out at the end. -/
structure Msg where
  type : Nat
  status : Nat := 0
  tag : Nat := 0
  body : List Nat := []
  deriving DecidableEq, Repr

/-- A packet: the header of R48, and the message that a MGMT packet carries. -/
structure Packet where
  dst : Nat
  src : Nat
  cls : Nat
  hops : Nat := 0
  last : Bool := false
  defl : Bool := false
  viol : Bool := false
  mark : Bool := false
  mcast : Bool := false
  len : Nat := 0
  fenceEpoch : Nat := 0
  flow : Nat := 0
  seq : Nat := 0
  total : Nat := 1
  step : Nat := 0
  ctx : Nat := 0
  job : Nat := 0
  group : Nat := 0
  axis : Nat := 0
  remPos : Nat := 0
  remNeg : Nat := 0
  sendTime : Nat := 0
  msg : Option Msg := none
  deriving DecidableEq, Repr

/-- A link frame (R325) as it arrives: whether FEC left a codeword uncorrectable, how many codewords it corrected, KEY_SLOT's
index and parity, COUNTER, and whether the GCM tag verifies. -/
structure Frame where
  fecBad : Bool := false
  corrected : Nat := 0
  key : Nat := 0
  parity : Nat := 0
  counter : Nat := 0
  tagOk : Bool := true
  pkt : Packet
  deriving DecidableEq, Repr

/-- Who sent a message and where it arrived: the unit, the port, the source FID, TAG, and whether CRC, BODY_LEN and TYPE are
good (R95). `ctx` is CTX of the packet header and `status` the STATUS field of a response. -/
structure Env where
  unit : UnitId
  port : Nat := 0
  src : Nat
  tag : Nat := 0
  good : Bool := true
  ctx : Nat := 0
  status : Nat := 0
  sendTime : Nat := 0
  deriving DecidableEq, Repr

/-- An identity block (R99), or the body of an IDENT notice (R95), which lacks the board fields. -/
structure IdBlock where
  maker : Nat := 0
  profile : Nat := 0
  port : Nat := 0
  partNo : Nat := 0
  serial : Nat := 0
  pageVer : Nat := 0x00020000
  cableTag : Nat := 0
  fid : Nat := nullFid
  partitionFid : Nat := nullFid
  boardId : Nat := 0
  boardSlot : Nat := 0
  deriving DecidableEq, Repr

/-- A directed block (R100). `payload` holds the payload's 4-byte words, and `block` an identity block returned in it. -/
structure DirBlock where
  op : Nat
  count : Nat
  index : Nat
  response : Bool := false
  origin : Nat
  tag : Nat
  status : Nat := 0
  stoppedAt : Nat := 0
  path : List Nat := []
  ret : List Nat := []
  payload : List Nat := []
  block : Option IdBlock := none
  deriving DecidableEq, Repr

/-- A slot-list entry (R86). -/
structure SlotEntry where
  first : Nat
  frame : Nat
  run : Nat
  nextStep : Bool := false
  mcast : Bool := false
  dst : Nat
  group : Nat := 0
  flow : Nat
  deriving DecidableEq, Repr

/-- One segment of a SLOT_LIST or TEMPLATE_LIST (R86). -/
structure Segment where
  windowFrame : Nat
  frames : Nat
  template : Nat
  segment : Nat
  segments : Nat
  totalEntries : Nat
  step : Nat
  job : Nat
  listCrc : Nat
  entries : List SlotEntry
  deriving DecidableEq, Repr

/-- A chunk that the runtime queues (R90): for a destination FID, an address of the board window (R43) or a multicast group
with its line counts (R66, R67). `sched` is true for a chunk meant for listed slots, false for LOOSE traffic. `dynamic` is true
for a chunk of dynamic demand, which a window without a list spills (R88). -/
structure Chunk where
  dst : Nat := nullFid
  addr : Option Nat := none
  mcast : Bool := false
  group : Nat := 0
  flow : Nat
  seq : Nat
  total : Nat
  step : Nat
  ctx : Nat := 0
  job : Nat
  len : Nat
  sched : Bool
  dynamic : Bool := false
  deriving DecidableEq, Repr

/-- The fields of a DEMAND body (R95): `n` is ENTRIES as sent, `entries` the pairs of DST and COUNT that came. -/
structure DemandBody where
  job : Nat
  layer : Nat := 0
  op : Nat := 0
  n : Nat
  step : Nat
  window : Nat
  ctx : Nat
  bodyLen : Nat
  entries : List (Nat × Nat)
  deriving DecidableEq, Repr

/-- The fields of an XDEMAND or XPLACE body (R196, R197): `words` holds SRC and the DST word of each cross item, or SRC, first word
and DST of each run. -/
structure CrossBody where
  job : Nat
  slice : Nat
  window : Nat
  step : Nat := 0
  pod : Nat := 0
  spec : Bool := false
  final : Bool := false
  carry : Bool := false
  words : List (List Nat)
  deriving DecidableEq, Repr

/-- The body of a FAIL_NOTE but its KIND (R288): `fids` are the FIDs, `epochs` the F of each and `lifted` whether it is lifted, both
used by FENCE_SYNC only. -/
structure FailNote where
  reason : Nat := 0
  job : Nat
  slice : Nat := 0
  f : Nat := 0
  step : Nat := 0
  detect : Nat := 0
  fids : List Nat := []
  epochs : List Nat := []
  lifted : List Bool := []
  deriving DecidableEq, Repr

/-- A unit of another zone, as a peer report gives it (R481): its FID and position, and the SERIAL and BOARD_ID that R107 and R109 compare. -/
structure PeerUnit where
  fid : Nat
  unit : UnitId
  pod : Nat
  retired : Bool := false
  serial : Option Nat := none
  boardId : Option Nat := none
  deriving DecidableEq, Repr

/-- What the spines saw through one circuit port in one test map (R110): no light, or the far spine's pod, number and port. -/
structure CircuitObs where
  ocsPort : Nat
  map : Nat
  seen : Option (Nat × Nat × Nat)
  deriving DecidableEq, Repr

/-- What a domain's lead reports of one circuit port in one test map (R110): the OCS unit, its port, the spine end that the plan gives for the port,
and what that spine saw. -/
structure CircuitReport where
  ocs : Nat
  ocsPort : Nat
  map : Nat
  near : Nat × Nat × Nat
  seen : Option (Nat × Nat × Nat)
  deriving DecidableEq, Repr

/-- An ADMIT that a lead partition forwards to the manager (R156): its TAG, RESULT_LENGTH and request block. -/
structure AdmitNews where
  tag : Nat
  rlen : Nat
  request : List Nat
  deriving DecidableEq, Repr

/-- A stage that the coordinator of a slice orders at another G9 (R157 to R160): the slice's number and lead, with RESERVE all that it asks for. `stage`
counts as a slice's, 7 ends the admission, 8 to 10 undo it, 16 moves the lead. A circuit is plane, axis, pod and port of each end, OCS unit and its two
ports. -/
structure SliceOrder where
  num : Nat
  stage : Nat
  leadPod : Nat := 0
  hopLimit : Nat := 0
  first : Nat := 0
  kinds : List Nat := []
  circuits : List (List Nat) := []
  groups : List Nat := []
  request : List Nat := []
  deriving DecidableEq, Repr

/-- How a stage ended at a G9 of the slice. -/
structure SliceEnd where
  num : Nat
  stage : Nat
  status : Nat
  reason : Nat := 0
  detail : Nat := 0
  deriving DecidableEq, Repr

/-- What the manager says of a forwarded ADMIT: the completion, and the result block. -/
structure AdmitOutcome where
  tag : Nat
  status : Nat
  detail : Nat := 0
  result : List Nat := []
  deriving DecidableEq, Repr

/-- The part of a peer message that is about slices (R156 to R160): forwarded ADMITs at the manager; slice numbers asked for, by a number of the asker's
and JOB, given (0: none), and given back; stages ordered and ended; outcomes of forwarded ADMITs; TEARDOWNs forwarded to the coordinator, by TAG, number and
FORCE; partitions in or out of service. -/
structure SliceNews where
  admits : List AdmitNews := []
  numbersAsked : List (Nat × Nat) := []
  numbers : List (Nat × Nat) := []
  numbersFreed : List Nat := []
  orders : List SliceOrder := []
  ends : List SliceEnd := []
  outcomes : List AdmitOutcome := []
  teardowns : List (Nat × Nat × Bool) := []
  services : List (Nat × Bool) := []
  deriving DecidableEq, Repr

/-- The manager's tables as the standby mirrors them (R427): leases given beyond R111's, by kind, first FID, count and the FID of the zone's partition; the
slices, by number, JOB and the FID of the coordinator. -/
structure ClusterTables where
  leases : List (Nat × Nat × Nat × Nat) := []
  slices : List (Nat × Nat × Nat) := []
  deriving DecidableEq, Repr

/-- What comes in one message over the peer channel (R42, R107, R110, R111, R115, R120, R143, R145, R481): units assigned or retired; usable state
of pairs and circuits of other pods (the codes that `peerDown` holds); delays of their links by pod × 2,304 + λ; management ring circuits by pod
and port; a G9 heard; at a zone, FIDs lent by kind, first FID and count, what RECYCLE returned to the pool by KIND and VALUE, and the manager's
answers to forwarded commands by TAG; at the manager's lead, requests for FIDs by kind, forwarded RECYCLEs by TAG, KIND and VALUE, and reports of
circuit verification, whose outcome a lead hears by OCS unit, port and class; the grid extents; at the standby manager, the manager's tables. -/
structure PeerNews where
  units : List PeerUnit := []
  links : List (Nat × Nat × Bool) := []
  delays : List (Nat × Nat) := []
  mgmt : List (Nat × Nat × Bool) := []
  g9 : Option (Nat × Bool) := none
  grants : List (Nat × Nat × Nat) := []
  recycled : List (Nat × Nat) := []
  answers : List (Nat × Nat) := []
  wants : List Nat := []
  recycles : List (Nat × Nat × Nat) := []
  circuits : List CircuitReport := []
  verdicts : List (Nat × Nat × Nat) := []
  extents : Option (Nat × Nat × Nat) := none
  slices : SliceNews := {}
  mirror : Option ClusterTables := none
  deriving DecidableEq, Repr

/-- The exchanges of a MEASURE at a port (R101): for each, when the echo block was sent, when its echo came, and the far end's turnaround. -/
structure PortEchoes where
  port : Nat
  samples : List (Nat × Nat × Nat)
  deriving DecidableEq, Repr

/-- What meets the claims of a unit: words that the claim ports find with bad parity, by frame, link and word, where a link of the lead's map is 2,304 and its
index over all pods; and slots of links, likewise over all pods, that another engine's reservation holds as this one's compare-and-set comes (R171, R182). -/
structure ClaimFaults where
  bad : List (Nat × Nat × Nat) := []
  races : List (Nat × Nat) := []
  deriving DecidableEq, Repr

/-- An address that a host port reaches (R341): BAR0 of its PF, or BAR2 of the function of a context, with whether the TLP came in the IDE stream
of that function. -/
inductive HostAddr where
  | bar0 (a : Nat)
  | bar2 (fn a : Nat) (ide : Bool)
  deriving DecidableEq, Repr

/-- A command descriptor (R350). `ops` is bytes 0x10 to 0x3F as one little-endian number. -/
structure Desc where
  opcode : Nat
  flags : Nat := 0
  ctx : Nat := 0
  tag : Nat := 0
  job : Nat := 0xFFFF
  layer : Nat := 0
  operator : Nat := 0
  timeout : Nat := 0
  ops : Nat := 0
  deriving DecidableEq, Repr

/-- The operand of `size` bytes at descriptor offset `off`. -/
def Desc.at (d : Desc) (off size : Nat) : Nat := (d.ops >>> (8 * (off - 0x10))) % 2 ^ (8 * size)

/-- What an SPDM request asks for (R312, R318): the measurement of an index with the digest of the transcript to sign, an IDE stream for
a VF set up by IDE_KM, the TDISP requests that lock a VF's TDI and start it, or anything else. -/
inductive SpdmReq where
  | measure (index transcript : Nat)
  | ideStream (x : Nat)
  | tdiLock (x : Nat)
  | tdiStart (x : Nat)
  | other
  deriving DecidableEq, Repr

/-- A trace record that a unit produces (R393, R394): bytes of the native stream, or the BEGIN or END of a command. -/
inductive TraceItem where
  | native (bytes : List Nat)
  | command (isEnd : Bool) (unit opcode second job layer op : Nat)
  deriving DecidableEq, Repr

/-- A unit of a partition that fails after start-up (R428): a physical slot engine, a control core, the cluster, a Mule, an SRAM bank, an
LPDDR6 channel. -/
inductive Defect where
  | engine (physical : Nat)
  | core (k : Nat)
  | miobor
  | mule (m : Nat)
  | bank (b : Nat)
  | channel (ch : Nat)
  deriving DecidableEq, Repr

/-- The command queues of R349, the streams of a context's programs (R371), and the forecaster commands that firmware issues for a
job (R242). -/
inductive QId where
  | route (p : Nat)
  | sched (p : Nat)
  | context (port : Nat)
  | compute (ctx p : Nat)
  | mule (ctx p : Nat)
  | core (ctx p k : Nat) (mule : Bool)
  | fw (ctx p job : Nat)
  deriving DecidableEq, Repr

end Sys2Proof
end

