-- ==== Sys2Proof/Syntax.lean ====
section
/-! DEFINITION. The commands of the block: one constructor for each row of the table. The first operand of each is the Bellwether
time at which it arrives or happens; the others are what the command carries. -/

namespace Sys2Proof

/-- A command. -/
inductive Instr where
  /-- LINK_FRAME_RECEIVE (R325): A link frame arrives at a port and is checked for FEC, revoked index, slot, replay and tag before its packet is passed on. -/
  | linkFrameReceive (t : Nat) (u : UnitId) (k : Nat) (f : Frame)
  /-- SLOT_START (R54): At each slot start an output chooses SCHED, MGMT or LOOSE traffic to send. -/
  | slotStart (t : Nat) (u : UnitId) (k : Nat)
  /-- MARK_ECHO (R65): An endpoint receives a MARK_ECHO and halves its LOOSE rate L at most once per 8,192 ticks. -/
  | markEcho (t : Nat) (e : Env) (marks job : Nat)
  /-- LOOSE_RECOVERY_STEP (R75): Each 16,384 ticks without a halving, L rises by STEP up to CEILING. -/
  | looseRecoveryStep (t : Nat) (u : UnitId)
  /-- FLOW_TIMEOUT (R61): A waited flow without progress for FLOW_TIMEOUT frames ends with TIMEOUT. -/
  | flowTimeout (t : Nat) (u : UnitId) (src flow : Nat)
  /-- POST_WAIT (R90): The runtime posts a wait on a flow, creating an entry or receiving CAPACITY. -/
  | postWait (t : Nat) (u : UnitId) (src flow : Nat)
  /-- QUEUE_CHUNK (R90): The runtime queues a chunk for a flow with its STEP. -/
  | queueChunk (t : Nat) (u : UnitId) (chunk : Chunk)
  /-- LOWER_TOTAL (R90): The runtime lowers a flow's expected total and completion is re-evaluated at once. -/
  | lowerTotal (t : Nat) (u : UnitId) (src flow total : Nat)
  /-- READ_NOTICE (R90): The runtime reads a FENCED_NOTICE or PEER_RESET notice from the agent. -/
  | readNotice (t : Nat) (u : UnitId)
  /-- READ (R95): An agent answers a READ request with READ_RESP. -/
  | read (t : Nat) (e : Env) (addr n : Nat)
  /-- WRITE (R72): An agent carries out a WRITE message, including the opening or completing of an RWP pair. -/
  | write (t : Nat) (e : Env) (addr : Nat) (words : List Nat)
  /-- AGENT_PAIR_EXPIRY (R72): An unpaired first RWP write is discarded after 100 µs and counted in PAIR_FAILS. -/
  | agentPairExpiry (t : Nat) (u : UnitId) (src page : Nat)
  /-- AGENT_FRAME_BOUNDARY (R70): At a frame boundary an agent applies pending values whose boundary is frame. -/
  | agentFrameBoundary (t : Nat) (u : UnitId)
  /-- IDENT (R99): An agent receives an IDENT notice from a link partner and updates PARTNER fields. -/
  | ident (t : Nat) (e : Env) (blk : IdBlock)
  /-- IDENT_PERIOD (R95): Every 1 ms per link an agent sends IDENT to its link partner. -/
  | identPeriod (t : Nat) (u : UnitId) (k : Nat)
  /-- PREPARE (R78): An agent receives PREPARE for a new epoch and opens the shadow bank. -/
  | prepare (t : Nat) (e : Env) (ep : Nat) (copy : Bool) (chunks crc : Nat)
  /-- PREPARE_STATIC (R79): An agent receives PREPARE with STATIC and opens a static load. -/
  | prepareStatic (t : Nat) (e : Env) (ep chunks crc : Nat)
  /-- TABLE_WRITE (R126): An agent writes a table chunk into the shadow or static bank and checks the CRC after the last chunk. -/
  | tableWrite (t : Nat) (e : Env) (ep region off : Nat) (data : List Nat)
  /-- STATIC_LOAD_TIMEOUT (R79): A static load without TABLE_WRITE for CONTROL_TIMEOUT ends with STATIC_VALID clear. -/
  | staticLoadTimeout (t : Nat) (u : UnitId)
  /-- DRAIN (R78): An agent stops injecting the named classes and starts the commit-wait timer. -/
  | drain (t : Nat) (e : Env) (ep classes : Nat)
  /-- DRAIN_QUIET (R78): The drained classes stay at zero in flight for MAX_D + 1 slots and the agent answers DRAIN_ACK OK. -/
  | drainQuiet (t : Nat) (u : UnitId)
  /-- DRAIN_TIMEOUT (R78): DRAIN_TIMEOUT passes since DRAIN and the agent answers DRAIN_ACK TIMEOUT. -/
  | drainTimeout (t : Nat) (u : UnitId)
  /-- COMMIT (R80): An agent receives COMMIT and swaps active and shadow banks at the next slot, or refuses it. -/
  | commit (t : Nat) (e : Env) (ep : Nat)
  /-- COMMIT_WAIT_EXPIRY (R78): The commit-wait timer reaches COMMIT_WAIT and the agent rolls back and resumes on the active bank. -/
  | commitWaitExpiry (t : Nat) (u : UnitId)
  /-- RESUME (R78): An agent in COMMITTED resumes injection on RESUME. -/
  | resume (t : Nat) (e : Env) (ep : Nat)
  /-- RESUME_WAIT_EXPIRY (R78): RESUME_WAIT passes since COMMIT and the agent resumes by itself. -/
  | resumeWaitExpiry (t : Nat) (u : UnitId)
  /-- ABANDON (R78): An agent clears SHADOW_VALID and resumes injection on ABANDON. -/
  | abandon (t : Nat) (e : Env) (ep : Nat)
  /-- EPOCH_QUERY (R82): An agent answers EPOCH_QUERY with its epochs, state and flags. -/
  | epochQuery (t : Nat) (e : Env)
  /-- FENCE (R83): An agent installs, refreshes or refuses a fence entry for a FID. -/
  | fence (t : Nat) (e : Env) (fid job f : Nat)
  /-- UNFENCE (R83): An agent turns a FENCED entry with the exact epoch into LIFTED. -/
  | unfence (t : Nat) (e : Env) (fid job f : Nat)
  /-- FENCED_NOTICE (R85): An endpoint updates its per-job fence epoch and passes the notice to its runtime. -/
  | fencedNotice (t : Nat) (e : Env) (job f : Nat) (fids : List Nat)
  /-- PEER_RESET (R285): An endpoint receives a PEER_RESET notice and passes it to its runtime unless it names its own FID. -/
  | peerReset (t : Nat) (e : Env) (fid job reason step time : Nat)
  /-- SLOT_LIST (R86): An endpoint receives a SLOT_LIST segment and judges the list when its last segment arrives. -/
  | slotList (t : Nat) (e : Env) (seg : Segment)
  /-- TEMPLATE_LIST (R86): An endpoint receives a TEMPLATE_LIST segment and installs or rejects the template. -/
  | templateList (t : Nat) (e : Env) (seg : Segment)
  /-- LIST_GUARD_DEADLINE (R87): A list not arrived whole LIST_GUARD before its window is discarded as late. -/
  | listGuardDeadline (t : Nat) (u : UnitId) (w : Nat)
  /-- WINDOW_START (R89): At a window's first frame an endpoint selects the window's template and list and begins execution. -/
  | windowStart (t : Nat) (u : UnitId)
  /-- HOLD (R93): An agent receives HOLD and enters outage. -/
  | hold (t : Nat) (e : Env)
  /-- BEAT (R93): An agent receives BEAT from its partition, ending outage if in MODE 1. -/
  | beat (t : Nat) (e : Env)
  /-- CONTROL_TIMEOUT (R93): No message from PARTITION_FID for CONTROL_TIMEOUT puts the agent in outage. -/
  | controlTimeout (t : Nat) (u : UnitId)
  /-- PORT_DOWN (R96): An agent port goes down and the agent raises event 0x2001. -/
  | portDown (t : Nat) (u : UnitId) (k : Nat)
  /-- PORT_UP (R96): An agent port comes up and the agent raises event 0x2002. -/
  | portUp (t : Nat) (u : UnitId) (k : Nat)
  /-- INTERNAL_ERROR (R94): The maker's logic reports an internal error and the agent raises event 0x200C. -/
  | internalError (t : Nat) (u : UnitId) (code : Nat)
  /-- TIME_EXCHANGE (R91): Every 1 ms an agent sends TIME_REQ to its time parent. -/
  | timeExchange (t : Nat) (u : UnitId)
  /-- TIME_REQ (R91): A time parent answers TIME_REQ from a link partner with TIME_RESP. -/
  | timeReq (t : Nat) (e : Env) (t1 : Nat)
  /-- TIME_RESP (R91): An agent computes offset and delay from TIME_RESP and slews or steps its clock. -/
  | timeResp (t : Nat) (e : Env) (t1 t2 t3 : Nat)
  /-- TIME_RESP_TIMEOUT (R91): A missing TIME_RESP after MSG_TIMEOUT is counted and retried in the next management slot. -/
  | timeRespTimeout (t : Nat) (u : UnitId)
  /-- HOLDOVER_ENTRY (R92): After 3 ms without a successful exchange an agent enters HOLDOVER. -/
  | holdoverEntry (t : Nat) (u : UnitId)
  /-- MSG_RETRANSMIT (R95): A request unanswered after MSG_TIMEOUT is retransmitted or ended with TIMEOUT. -/
  | msgRetransmit (t : Nat) (u : UnitId) (tag : Nat)
  /-- RESPONSE_STORE_EXPIRY (R95): A stored response is dropped after its keeping time. -/
  | responseStoreExpiry (t : Nat) (u : UnitId) (src tag : Nat)
  /-- TELEMETRY_PERIOD (R95): Every TELEM_PERIOD an agent sends TELEMETRY port records. -/
  | telemetryPeriod (t : Nat) (u : UnitId)
  /-- AGENT_RESET (R102): An agent reset clears FID and PARTITION_FID and enables disabled ports. -/
  | agentReset (t : Nat) (u : UnitId)
  /-- LINK_HANDSHAKE (R324): After training both link ends run HELLO and KEYX to derive link keys. -/
  | linkHandshake (t : Nat) (u : UnitId) (k : Nat) (ok : Bool)
  /-- IDENTITY_BLOCK (R99): An end receives a link identity block and fills PARTNER fields. -/
  | identityBlock (t : Nat) (u : UnitId) (k : Nat) (blk : IdBlock) (crcOk : Bool)
  /-- DIRECTED_BLOCK (R100): An agent forwards, returns or executes a directed block by its path. -/
  | directedBlock (t : Nat) (u : UnitId) (k : Nat) (blk : DirBlock) (crcOk : Bool)
  /-- MEASURE_COMPLETE (R101): The echo exchanges end and DELAY_NS and D are written and returned. -/
  | measureComplete (t : Nat) (u : UnitId) (samples : PortEchoes)
  /-- DIRECTED_RESPONSE (R100): The origin partition receives the response of a directed block. -/
  | directedResponse (t p : Nat) (blk : DirBlock)
  /-- DIRECTED_TIMEOUT (R103): The origin resends an unanswered directed block, or treats the unit as not found after 4 attempts. -/
  | directedTimeout (t p tag : Nat)
  /-- DISCOVERY_COMPARE (R106): At tc the partition compares links with the plan, fixes positions and findings and assigns FIDs. -/
  | discoveryCompare (t p : Nat)
  /-- LATE_LINK (R106): A link that comes up after tc is identified, measured and classed within 10 ms. -/
  | lateLink (t p : Nat) (u : UnitId) (k : Nat) (blk : IdBlock) (delay : Nat)
  /-- CIRCUIT_VERIFY (R110): The lead partition sets a test map on an OCS unit and compares the spines' observations. -/
  | circuitVerify (t n : Nat) (obs : List CircuitObs)
  /-- DISCOVER (R115): The DISCOVER command starts discovery on the named zones. -/
  | discover (t p : Nat) (d : Desc)
  /-- LOAD_PLAN (R104): The LOAD_PLAN command loads and checks a cabling plan. -/
  | loadPlan (t p : Nat) (d : Desc)
  /-- READ_TOPOLOGY (R114): The READ_TOPOLOGY command writes a section of the topology database to host memory. -/
  | readTopology (t p : Nat) (d : Desc)
  /-- RECYCLE (R115): The RECYCLE command returns a retired FID or board number to the pool. -/
  | recycle (t p : Nat) (d : Desc)
  /-- PEER_REPORT (R481): A partition receives a peer report of assignments, retirements or link changes and updates its view. -/
  | peerReport (t p src : Nat) (news : PeerNews)
  /-- RECOMMIT (R140): The RECOMMIT command opens a route transaction over the named zones. -/
  | recommit (t p : Nat) (d : Desc)
  /-- RELOAD_STATIC (R127): The RELOAD_STATIC command loads the static bank of every agent of the zones. -/
  | reloadStatic (t p : Nat) (d : Desc)
  /-- QUERY_EPOCHS (R140): The QUERY_EPOCHS command writes each agent's epoch report to host memory. -/
  | queryEpochs (t p : Nat) (d : Desc)
  /-- SET_LINK (R140): The SET_LINK command sends PORT_STATE and starts the automatic delay. -/
  | setLink (t p : Nat) (d : Desc)
  /-- CLEAR_FALLBACK (R140): The CLEAR_FALLBACK command clears static fallback and recommits with FULL for those agents. -/
  | clearFallback (t p : Nat) (d : Desc)
  /-- READ_BANK (R140): The READ_BANK command reads an agent's bank and writes the bytes to host memory. -/
  | readBank (t p : Nat) (d : Desc)
  /-- GENERATE_DONE (R130): Route mode finishes computing the tables and template re-placement, ending GENERATE. -/
  | generateDone (t p : Nat)
  /-- PREPARE_ACK (R134): The partition receives PREPARE_ACK and advances, resends or abandons. -/
  | prepareAck (t p src tag st : Nat)
  /-- DRAIN_ACK (R134): The partition receives DRAIN_ACK and proceeds to COMMIT when all have arrived. -/
  | drainAck (t p src tag st : Nat)
  /-- COMMIT_ACK (R130): The partition receives COMMIT_ACK and proceeds in commit order. -/
  | commitAck (t p src tag st : Nat)
  /-- RESUME_ACK (R130): The partition receives RESUME_ACK and completes the transaction when all have arrived. -/
  | resumeAck (t p src tag st : Nat)
  /-- EPOCH_REPORT (R137): The partition receives an EPOCH_REPORT and brings the agent to the decided outcome. -/
  | epochReport (t p src tag st : Nat) (rep : List Nat)
  /-- ROLLBACK (R134): The partition receives a ROLLBACK notice and drives the agent forward to E. -/
  | rollback (t p src : Nat) (rep : List Nat)
  /-- STAGE_REPORT (R130): The lead partition receives a zone's end-of-stage report in a domain transaction. -/
  | stageReport (t p stage : Nat)
  /-- COMMIT_DEADLINE (R132): The commit deadline passes before any COMMIT and E is abandoned everywhere. -/
  | commitDeadline (t p : Nat)
  /-- COMMIT_POLL (R134): After a COMMIT timeout the partition sends EPOCH_QUERY every 1 ms. -/
  | commitPoll (t p : Nat)
  /-- AUTO_DELAY_EXPIRY (R139): AUTO_DELAY passes after link events and an automatic zone transaction opens. -/
  | autoDelayExpiry (t p : Nat)
  /-- ADMIT (R157): The ADMIT command starts admission of a slice. -/
  | admitSlice (t p : Nat) (d : Desc)
  /-- ADMIT_STAGE_DONE (R157): An admission stage ends at every partition and the next stage begins. -/
  | admitStageDone (t n : Nat) (delays : List Nat)
  /-- RESERVE_EXPIRY (R157): A reservation not confirmed within 1 s is released. -/
  | reserveExpiry (t n : Nat)
  /-- TRAIN_TIMEOUT (R159): A circuit not trained within the TRAIN bound fails the admission. -/
  | trainTimeout (t n i : Nat)
  /-- OUTCOME_POLL (R159): A restarted partition of an admission asks the coordinator every 100 ms for the outcome. -/
  | outcomePoll (t p n : Nat)
  /-- TEARDOWN (R160): The TEARDOWN command starts the teardown of a slice. -/
  | teardown (t p : Nat) (d : Desc)
  /-- TEARDOWN_STAGE_DONE (R160): A teardown stage ends and the next begins. -/
  | teardownStageDone (t n : Nat)
  /-- QUIET_EXPIRY (R160): The QUIET wait of FLOW_TIMEOUT frames ends. -/
  | quietExpiry (t n : Nat)
  /-- QUERY_SLICE (R161): The QUERY_SLICE command writes the request, result and state of a slice. -/
  | querySlice (t p : Nat) (d : Desc)
  /-- MOVE_LEAD (R154): The MOVE_LEAD command moves the slice lead role to a pod. -/
  | moveLead (t p : Nat) (d : Desc)
  /-- DEMAND (R174): The partition checks a demand vector, answers DEMAND_ACK and deals its items. -/
  | demand (t p src tag : Nat) (body : DemandBody)
  /-- FRAME_ENTERS_RING (R170): A frame becomes the 39th ahead and its occupancy words are set to the base. -/
  | frameEntersRing (t p : Nat)
  /-- PLACEMENT_CUT (R179): At PC in free mode the window's missing sources are fixed and history written. -/
  | placementCut (t p job w : Nat)
  /-- GATHER_POINT (R187): At GP in ordered mode releases take effect and ordered rounds place the items. -/
  | gatherPoint (t p job w : Nat)
  /-- PLACE_UNIT (R181): An engine places a unit of items run by run by all-or-nothing claims. -/
  | placeUnit (t p en : Nat) (bad : ClaimFaults)
  /-- ENGINE_IDLE (R185): An engine with an empty deque takes units from overflow or steals from a victim. -/
  | engineIdle (t p en : Nat)
  /-- SEAL_SOURCE (R191): When a source's items have ended, its words are sealed and its slot list generated and sent. -/
  | sealSource (t p job w src fails : Nat)
  /-- SEND_DEADLINE (R192): At SD lists not fully sent are withheld and logged. -/
  | sendDeadline (t p job w : Nat)
  /-- CROSS_CUT (R197): At XC a source zone generates its lists with the cross placements it holds. -/
  | crossCut (t p job w : Nat)
  /-- SLOT_LIST_ACK (R193): The partition receives SLOT_LIST_ACK and regenerates and resends a rejected list if possible. -/
  | slotListAck (t p src tag st : Nat)
  /-- XDEMAND (R196): The slice lead receives cross items from a source zone. -/
  | xdemand (t p src tag : Nat) (body : CrossBody)
  /-- XPLACE (R197): A source zone receives cross placements and merges them, or answers TIMEOUT after XC. -/
  | xplace (t p src tag : Nat) (body : CrossBody)
  /-- XPLACE_ACK (R197): The lead receives XPLACE_ACK and releases runs answered TIMEOUT. -/
  | xplaceAck (t p src tag st : Nat)
  /-- TEMPLATE_SEQ_DEADLINE (R89): An agent that has not acknowledged sequence writes 1 ms before the window is treated as silent. -/
  | templateSeqDeadline (t p job : Nat)
  /-- ENGINE_QUANTUM_EXPIRY (R200): QUANTUM frames pass while another context waits and the engines pass to the next context. -/
  | engineQuantumExpiry (t p : Nat)
  /-- SET_SCHED (R202): The SET_SCHED command sets a job's schedule mode, spill policy and tolerances. -/
  | setSched (t p : Nat) (d : Desc)
  /-- SET_TEMPLATE_SEQ (R202): The SET_TEMPLATE_SEQ command replaces a job's template sequence from FROM_FRAME. -/
  | setTemplateSeq (t p : Nat) (d : Desc)
  /-- READ_WINDOWS (R202): The READ_WINDOWS command writes held window records to host memory. -/
  | readWindows (t p : Nat) (d : Desc)
  /-- VIOLATION (R299): The partition counts a VIOLATION message and blocks a link at VIOL_THRESH. -/
  | violation (t p src slot k : Nat)
  /-- EVENT (R96): The partition receives an agent EVENT, records it in Hen and acts on it. -/
  | event (t p src code : Nat) (params : List Nat)
  /-- TELEMETRY (R254): The partition stores a TELEMETRY message for link-health evaluation. -/
  | telemetry (t p src : Nat) (recs : List (List Nat))
  /-- GEMM (R225): The cluster executes GEMM with grouped accumulation and epilogue. -/
  | gemm (t : Nat) (i : QId) (d : Desc)
  /-- SPGEMM (R222): The cluster executes GEMM with a 2:4 sparse B operand. -/
  | spgemm (t : Nat) (i : QId) (d : Desc)
  /-- BSGEMM (R222): The cluster executes GEMM skipping masked blocks. -/
  | bsgemm (t : Nat) (i : QId) (d : Desc)
  /-- GATE (R228): The cluster chooses and assigns experts against capacity. -/
  | gate (t : Nat) (i : QId) (d : Desc)
  /-- TOPK (R225): The cluster selects the PARAM largest or smallest elements of each row. -/
  | topk (t : Nat) (i : QId) (d : Desc)
  /-- SOFTMAX (R230): The cluster computes softmax or log-softmax of each row. -/
  | softmax (t : Nat) (i : QId) (d : Desc)
  /-- SCAN (R225): The cluster computes prefix sums along each row. -/
  | scan (t : Nat) (i : QId) (d : Desc)
  /-- HIST (R225): The cluster counts or weights values into bins. -/
  | hist (t : Nat) (i : QId) (d : Desc)
  /-- SPMV (R225): The cluster multiplies a CSR matrix by a dense vector. -/
  | spmv (t : Nat) (i : QId) (d : Desc)
  /-- GATHER (R229): The cluster gathers rows by index. -/
  | gather (t : Nat) (i : QId) (d : Desc)
  /-- SCATTER (R229): The cluster scatters rows by index, plain or adding. -/
  | scatter (t : Nat) (i : QId) (d : Desc)
  /-- ELTWISE (R230): The cluster applies an elementwise vector operation. -/
  | eltwise (t : Nat) (i : QId) (d : Desc)
  /-- REDUCE (R225): The cluster reduces along rows or columns. -/
  | reduce (t : Nat) (i : QId) (d : Desc)
  /-- MIOBOR_TIMEOUT (R233): A Miobor command reaches its timeout limit and ends with TIMEOUT. -/
  | mioborTimeout (t : Nat) (i : QId) (tag : Nat)
  /-- MIOBOR_CTX_SWITCH (R232): QUANTUM frames pass while another context waits and the cluster switches context at a command boundary. -/
  | mioborCtxSwitch (t p : Nat)
  /-- FORECAST_START (R242): At S0 − FC_LEAD firmware starts the forecaster invocation for a window. -/
  | forecastStart (t p job w : Nat)
  /-- FORECAST_DEADLINE (R243): At the forecast deadline an unpublished invocation is stopped and the window has no forecast. -/
  | forecastDeadline (t p job w : Nat)
  /-- FORECAST_PUBLISH (R244): The last forecaster command completes and the forecast is read and used for speculation. -/
  | forecastPublish (t p job w : Nat)
  /-- ANALYSE_REQ (R249): A write of ANALYSE_REQ requests an analysis for ANALYSE_JOB. -/
  | analyseReq (t hp p job : Nat)
  /-- ANALYSIS_DONE (R250): An analysis ends and advice is issued or nothing is written. -/
  | analysisDone (t p job : Nat)
  /-- HIST_RESET (R251): A partition receives HIST_RESET and empties the job's history. -/
  | histReset (t p src tag job : Nat)
  /-- LINK_HEALTH_EVAL (R254): Every LH_PERIOD the partition scores ports and sets or clears flags. -/
  | linkHealthEval (t p : Nat)
  /-- LOAD_IMAGE (R277): The LOAD_IMAGE command fetches, streams, checks, measures and installs an image. -/
  | loadImage (t x p : Nat) (d : Desc)
  /-- SIGNATURE_VERIFIED (R262): The S-die completes the signer and signature checks of an image. -/
  | signatureVerified (t x p tag : Nat)
  /-- STREAM_DONE (R277): The last section has been streamed and the load proceeds to CHECK, MEASURE and INSTALL. -/
  | streamDone (t x p tag : Nat)
  /-- UNLOAD_IMAGE (R279): The UNLOAD_IMAGE command frees every section of the context in the partition. -/
  | unloadImage (t x p : Nat) (d : Desc)
  /-- QUERY_IMAGE (R276): The QUERY_IMAGE command writes records of installed sections. -/
  | queryImage (t x p : Nat) (d : Desc)
  /-- READ_LOG (R276): The READ_LOG command writes measurement log entries and L. -/
  | readLog (t x p : Nat) (d : Desc)
  /-- SILENT_TIMEOUT (R283): An endpoint silent for SILENT_PERIODS telemetry periods and READ retries is lost with REASON 3. -/
  | silentTimeout (t p fid : Nat)
  /-- FAIL_NOTE_PEER_RESET (R285): A partition receives FAIL_NOTE kind 1 and sends PEER_RESET to its notice group. -/
  | failNotePeerReset (t p src tag : Nat) (body : FailNote)
  /-- FENCE_REQ (R289): The slice lead receives FENCE_REQ and adds the FID to the open batch. -/
  | fenceReq (t p src tag : Nat) (body : FailNote)
  /-- FENCE_BATCH_CLOSE (R289): FENCE_BATCH passes, the lead assigns F and sends FENCE_ORDER. -/
  | fenceBatchClose (t p job : Nat)
  /-- FENCE_ORDER (R290): A partition receives FENCE_ORDER and starts the fence stages. -/
  | fenceOrder (t p src tag : Nat) (body : FailNote)
  /-- FENCE_STAGE_DONE (R290): A fence stage's acknowledgements are collected and the next stage starts. -/
  | fenceStageDone (t p job f : Nat)
  /-- FENCE_ACK (R291): The partition treats a FENCE_ACK or refusal as installed or to be retried. -/
  | fenceAck (t p src tag st : Nat)
  /-- FENCE_RETRY (R291): Every 16 frames a fence refused with CAPACITY is retried. -/
  | fenceRetry (t p : Nat)
  /-- UNFENCE_ORDER (R297): A partition receives UNFENCE_ORDER and sends UNFENCE to its agents. -/
  | unfenceOrder (t p src tag : Nat) (body : FailNote)
  /-- FENCE_SYNC (R301): A lead answers a FENCE_SYNC request with the job's fences, or a restarted partition installs them. -/
  | fenceSync (t p src tag : Nat) (body : FailNote)
  /-- FENCE_EP (R304): The FENCE_EP command fences an endpoint, optionally retiring it. -/
  | fenceEp (t p : Nat) (d : Desc)
  /-- UNFENCE_EP (R297): The UNFENCE_EP command lifts a fence on a returned endpoint. -/
  | unfenceEp (t p : Nat) (d : Desc)
  /-- QUERY_FENCES (R304): The QUERY_FENCES command writes a job's fence records. -/
  | queryFences (t p : Nat) (d : Desc)
  /-- CREATE_CTX (R308): The CREATE_CTX command binds a context number and registers its signer. -/
  | createCtx (t hp : Nat) (d : Desc)
  /-- SET_RESIDENT (R311): The SET_RESIDENT command adds or removes a context's residency in partitions. -/
  | setResident (t hp : Nat) (d : Desc)
  /-- IMPORT_KEY (R323): The IMPORT_KEY command unwraps and stores a context image key. -/
  | importKey (t hp : Nat) (d : Desc)
  /-- TEARDOWN_CTX (R329): The TEARDOWN_CTX command starts the teardown stages of a context. -/
  | teardownCtx (t hp : Nat) (d : Desc)
  /-- CTX_STAGE_DONE (R329): A context teardown stage ends at all partitions and the next begins. -/
  | ctxStageDone (t x : Nat)
  /-- QUIESCE_EXPIRY (R375): 2 ms after QUIESCE begins, the context's Mule commands still running end REVOKED. -/
  | quiesceExpiry (t x : Nat)
  /-- QUERY_CTX (R322): The QUERY_CTX command writes the context record. -/
  | queryCtx (t hp : Nat) (d : Desc)
  /-- TDI_STOP (R312): A TDISP STOP_INTERFACE or TDI error starts a forced teardown. -/
  | tdiStop (t x : Nat)
  /-- REKEY (R327): A COUNTER reaching 2^REKEY_LOG2 starts a new key exchange generation. -/
  | rekey (t : Nat) (u : UnitId) (k : Nat) (far : Bool)
  /-- REKEY_GRACE_END (R327): 1 ms after the first frame under g + 1, frames under g are no longer accepted. -/
  | rekeyGraceEnd (t : Nat) (u : UnitId) (k : Nat)
  /-- SPDM_REQUEST (R318): The S-die answers an SPDM request over DOE or MCTP. -/
  | spdmRequest (t hp fn : Nat) (r : SpdmReq)
  /-- COUNTER_BANK_READ (R314): A read of a confidential context's counter bank returns the coarsened sampled value. -/
  | counterBankRead (t hp x p page off : Nat)
  /-- HOST_READ_TIMEOUT (R336): A BAR read unanswered for 20 µs is completed with 0xFFFF_FFFF. -/
  | hostReadTimeout (t hp size : Nat)
  /-- PERST (R337): PERST_A_N or PERST_B_N resets one port and stops its queues. -/
  | perst (t hp : Nat)
  /-- FLR_PF (R337): An FLR of the PF resets the port as PERST without link retraining. -/
  | flrPf (t hp : Nat)
  /-- FLR_VF (R337): An FLR of VF c stops context c's queues. -/
  | flrVf (t hp x : Nat)
  /-- PAGE_COMMIT (R346): A write of COMMIT applies every pending value of the page and stores BOUNDARY and STEP_JOB. -/
  | pageCommit (t hp : Nat) (a : HostAddr) (v : Nat)
  /-- FRAME_BOUNDARY_APPLY (R346): At a frame boundary pending values whose boundary is frame are applied. -/
  | frameBoundaryApply (t : Nat)
  /-- PAIR_COMPLETE (R347): A complement write at X+0x800 completes or breaks a paired write. -/
  | pairComplete (t hp : Nat) (a : HostAddr) (size v : Nat)
  /-- PAIR_EXPIRY (R347): A write at X with no complement within 1,000 ticks is discarded. -/
  | pairExpiry (t hp : Nat) (a : HostAddr)
  /-- SNAPSHOT (R348): A write of SNAPSHOT copies the page's counters at one instant. -/
  | snapshot (t hp : Nat) (a : HostAddr)
  /-- INT_STATUS_CLEAR (R356): A W1C write of INT_STATUS clears causes and resends the vector if an enabled bit stays set. -/
  | intStatusClear (t hp : Nat) (a : HostAddr) (v : Nat)
  /-- DOORBELL (R352): A write of Q_TAIL lets the queue fetch descriptors up to the tail. -/
  | doorbell (t hp : Nat) (i : QId) (ide : Bool) (v : Nat)
  /-- Q_BASE_WRITE (R352): A write of Q_BASE resets Q_HEAD and Q_TAIL. -/
  | qBaseWrite (t hp : Nat) (i : QId) (ide : Bool) (v : Nat)
  /-- CQ_BASE_WRITE (R352): A write of CQ_BASE resets the completion ring pointers and phase. -/
  | cqBaseWrite (t hp : Nat) (i : QId) (ide : Bool) (v : Nat)
  /-- Q_ENABLE_WRITE (R352): A write of Q_ENABLE starts or stops fetching. -/
  | qEnableWrite (t hp : Nat) (i : QId) (ide : Bool) (v : Nat)
  /-- CQ_HEAD_WRITE (R352): A write of CQ_HEAD frees completion ring room and fetching resumes. -/
  | cqHeadWrite (t hp : Nat) (i : QId) (ide : Bool) (v : Nat)
  /-- COMMAND_COMPLETE (R353): A command finishes and its completion record is written at CQ_TAIL. -/
  | commandComplete (t : Nat) (i : QId) (tag : Nat) (conds : List Nat) (detail : Nat)
  /-- COMMAND_TIMEOUT (R351): A command reaches the limit of its timeout code and ends with TIMEOUT. -/
  | commandTimeout (t : Nat) (i : QId) (tag : Nat)
  /-- REGISTER_WRITE (R480): A write to a G9 register without behaviour of its own sets or clamps its value. -/
  | registerWrite (t hp : Nat) (a : HostAddr) (size v : Nat)
  /-- HEARTBEAT (R357): The active port writes HEARTBEAT and restarts the heartbeat timeout. -/
  | heartbeat (t hp v : Nat)
  /-- TAKEOVER (R358): The standby port's TAKEOVER pair starts a failover. -/
  | takeover (t hp : Nat)
  /-- HB_TIMEOUT (R357): No HEARTBEAT for HB_TIMEOUT starts a failover or sets FAILOVER_DUE. -/
  | hbTimeout (t : Nat)
  /-- BAR4_ACCESS (R366): A host access through BAR4 reads or writes partition memory, dropping protected writes. -/
  | bar4Access (t hp addr : Nat) (wr : Bool) (size v : Nat)
  /-- G9_ISSUE (R372): A core submits a descriptor to its context's compute or Mule stream or has it refused. -/
  | g9Issue (t p core addr stream : Nat)
  /-- G9_WAIT (R371): A core waits for an unread completion record or a tick count. -/
  | g9Wait (t p core a0 : Nat)
  /-- G9_WAIT_WAKE (R371): A waiting program resumes when a record arrives or its time passes. -/
  | g9WaitWake (t p x core : Nat)
  /-- G9_YIELD (R371): A program ends its quantum. -/
  | g9Yield (t p core : Nat)
  /-- PROGRAM_EXIT (R369): An ecall with a7 equal to 0 ends the program normally. -/
  | programExit (t p core a0 : Nat)
  /-- PROGRAM_FAULT (R369): Any other trap makes the program FAULTED and is recorded. -/
  | programFault (t p core cause pc tval : Nat)
  /-- USER_QUANTUM_EXPIRY (R368): A program's USER_QUANTUM ends and the core switches context with clearing. -/
  | userQuantumExpiry (t p core : Nat)
  /-- G9CQ_WRITE (R370): A program writes the g9cq CSR to set its completion ring. -/
  | g9cqWrite (t p core csr v : Nat)
  /-- CORE_START (R378): CTL_OP START starts a context's programs on the named cores. -/
  | coreStart (t p x cores : Nat)
  /-- CORE_STOP (R378): CTL_OP STOP stops a context's programs on the named cores. -/
  | coreStop (t p x cores : Nat)
  /-- COPY (R373): A Mule copies tiles with source checks and resealing. -/
  | copy (t : Nat) (i : QId) (d : Desc)
  /-- HOST_TO_TILE (R373): A Mule moves host bytes into tiles and seals them. -/
  | hostToTile (t : Nat) (i : QId) (d : Desc)
  /-- TILE_TO_HOST (R373): A Mule checks tiles and writes them to host memory. -/
  | tileToHost (t : Nat) (i : QId) (d : Desc)
  /-- SEAL (R373): A Mule reseals tiles in place over their current payload. -/
  | seal (t : Nat) (i : QId) (d : Desc)
  /-- FILL (R373): A Mule fills tiles with a pattern and seals them. -/
  | fill (t : Nat) (i : QId) (d : Desc)
  /-- VERIFY (R373): A Mule checks tiles against the descriptor and reports the first failure. -/
  | verify (t : Nat) (i : QId) (d : Desc)
  /-- TILE_LOCK_RELEASE (R374): A tile writer releases the frame lock and a waiting consumer checks the tile. -/
  | tileLockRelease (t p tile : Nat)
  /-- TILE_REPAIR (R377): After a TILE_CHECK report firmware repairs the tile by its owner class. -/
  | tileRepair (t p tile : Nat)
  /-- CORE_WATCHDOG (R417): 10 ms without a firmware heartbeat resets the control core. -/
  | coreWatchdog (t p core : Nat)
  /-- TIME_SET (R384): Every 1 ms a G9 takes a set of three time legs and corrects toward its parent. -/
  | timeSet (t rc sp rp sc : Nat)
  /-- TIME_LEG (R384): The child partition receives the parent's leg 3 sample. -/
  | timeLeg (t p src delay t1 t2 : Nat)
  /-- G9_HOLDOVER (R386): After 3 ms without a complete set the G9 enters HOLDOVER. -/
  | g9Holdover (t : Nat)
  /-- SET_TIME (R388): The master loads SET_TIME at commit or at the next PPS edge. -/
  | setTime (t hp : Nat)
  /-- PPS_IN_EDGE (R388): An accepted PPS_IN edge steers the master or is measured into PPS_ERR. -/
  | ppsInEdge (t : Nat)
  /-- PPS_MISSING (R388): 1.5 s without a PPS edge stops steering and counts PPS_MISSED. -/
  | ppsMissing (t : Nat)
  /-- PPS_OUT_PULSE (R388): At each Bellwether multiple of 1,000,000,000 PPS_OUT is driven high. -/
  | ppsOutPulse (t : Nat)
  /-- CLOCK_REGION_RESTART (R389): A stopped clock region restarts and emits its gap record. -/
  | clockRegionRestart (t p region : Nat)
  /-- ARM (R398): A write of ARM clears the ring and begins a new capture. -/
  | arm (t hp p : Nat)
  /-- TRACE_STOP (R406): A write of STOP stops capture with MARKER cause 7. -/
  | traceStop (t hp p : Nat)
  /-- TRIG_NOW (R396): A write of TRIG_NOW triggers capture. -/
  | trigNow (t hp p : Nat)
  /-- TRIG_TIME_REACHED (R396): Bellwether reaches TRIG_TIME and capture triggers. -/
  | trigTimeReached (t p : Nat)
  /-- CORE_TRIGGER (R396): An E-Trace trigger of a core triggers capture. -/
  | coreTrigger (t p core : Nat)
  /-- DEVICE_CROSS_TRIGGER (R396): A cross-trigger from another partition reaches this partition. -/
  | deviceCrossTrigger (t p : Nat)
  /-- TRACE_RECORD (R394): A unit produces a trace record that is staged, written or dropped. -/
  | traceRecord (t p : Nat) (item : TraceItem)
  /-- DROP_RUN_END (R397): Staging drains to seven eighths and a DROP record ends the drop run. -/
  | dropRunEnd (t p : Nat)
  /-- CAPTURE_DONE (R395): Every stopped stream's staging is flushed and STATE reads done. -/
  | captureDone (t p : Nat)
  /-- TRACE_RD_DATA (R406): A read of RD_DATA returns trace SRAM bytes and advances RD_ADDR. -/
  | traceRdData (t hp p : Nat)
  /-- SNAP_NOW (R403): A write of SNAP_NOW takes a device snapshot at once. -/
  | snapNow (t hp : Nat)
  /-- SNAP_TIME_REACHED (R403): Bellwether reaches SNAP_TIME and the armed device snapshot is taken. -/
  | snapTimeReached (t : Nat)
  /-- DEBUG_HALT (R400): A debug halt or breakpoint halts a core and drains its context's engines. -/
  | debugHalt (t p core : Nat)
  /-- DEBUG_RESUME (R400): A halted core resumes and its context's queues fetch again. -/
  | debugResume (t p core : Nat)
  /-- GOOSE_SCAN (R413): Every 1 ms the Goose scans nodes for stuck edges, cycles and stalls. -/
  | gooseScan (t p : Nat)
  /-- WAITFOR (R415): A partition receives a WAITFOR probe and forwards, ends or closes it. -/
  | waitfor (t p src tag initiator target : Nat) (victim : Bool) (entries : List (Nat × Nat × Nat))
  /-- OVERRUN_RESET (R409): A unit that has not ended a timed-out command within 1 ms is reset. -/
  | overrunReset (t : Nat) (i : QId) (tag : Nat)
  /-- CORE_RESET (R417): The CORE_RESET mask resets the named control cores. -/
  | coreReset (t p mask : Nat)
  /-- GROUP_RESET (R186): An engine group reset clears unconfirmed reservations and redeals its work. -/
  | groupReset (t p mask : Nat) (fault : Bool)
  /-- MIOBOR_RESET (R235): A Miobor cluster reset ends running and queued commands with ABORT_RESET. -/
  | mioborReset (t p : Nat) (fault : Bool)
  /-- PART_RESET (R419): A partition reset captures a dossier, absorbs commands and restarts the partition. -/
  | partReset (t p cause : Nat)
  /-- PARTITION_READY (R419): A reset partition finishes restore and reports ready, starting resynchronisation. -/
  | partitionReady (t p : Nat)
  /-- PARTITION_NOT_READY (R419): A partition not ready by t0 + 3,000 ms is reset again with cause 5. -/
  | partitionNotReady (t p : Nat)
  /-- PART_REINSTATE (R424): PART_REINSTATE resets an out-of-service partition with BIST. -/
  | partReinstate (t hp p : Nat)
  /-- DEVICE_RESET (R420): A device reset captures a dossier, flushes Hen and restarts the device. -/
  | deviceReset (t kind cause cfg bootSrc : Nat)
  /-- DEVICE_REINSTATE (R425): DEVICE_REINSTATE releases an out-of-service G9 after a power-on. -/
  | deviceReinstate (t hp : Nat)
  /-- CLUSTER_BEAT_SEND (R426): Every 10 ms a worker lead or the manager sends CLUSTER_BEAT. -/
  | clusterBeatSend (t : Nat)
  /-- CLUSTER_BEAT (R426): The manager or standby receives CLUSTER_BEAT. -/
  | clusterBeat (t p src : Nat)
  /-- CLUSTER_BEAT_TIMEOUT (R426): 50 ms without a beat marks a worker down and sends G9_STATE. -/
  | clusterBeatTimeout (t worker : Nat)
  /-- G9_STATE (R426): A lead partition receives G9_STATE and treats that G9's partitions as in reset or back. -/
  | g9State (t p src tag worker news cause : Nat)
  /-- STANDBY_TAKEOVER (R427): The standby manager takes the cluster role after 50 ms without a beat. -/
  | standbyTakeover (t : Nat)
  /-- LATE_DEFECT (R428): A unit that fails after start-up is remapped to a spare or made vacant. -/
  | lateDefect (t p : Nat) (unit : Defect)
  /-- HEN_RECORD (R429): A record arrives at Hen and is stored, merged or dropped. -/
  | henRecord (t src code : Nat) (hidden isVar : Bool) (body : List Nat)
  /-- FLUSH_NOW (R433): A write of FLUSH_NOW starts a Hen flush with reason 3. -/
  | flushNow (t hp : Nat)
  /-- FLUSH_DONE (R435): A Hen flush writes its last block and rewrites the header with DONE. -/
  | flushDone (t : Nat)
  /-- MRAM_COPY (R435): A write of MRAM_COPY copies both MRAM slots to the host buffer. -/
  | mramCopy (t hp : Nat)
  /-- CLEAR (R440): The CLEAR pair empties both Hen areas. -/
  | clear (t hp : Nat)
  /-- NOTE (R440): A write of NOTE writes a host note record to Hen. -/
  | note (t hp v : Nat)
  /-- HEN_RD_DATA (R440): A read of RD_DATA returns Hen bytes and advances RD_ADDR. -/
  | henRdData (t hp : Nat)
  /-- DVFS_TICK (R453): Every 1 ms the DVFS loop raises or lowers CORE_CLK against POWER_LIMIT. -/
  | dvfsTick (t watts : Nat)
  /-- RAIL_GOOD (R451): A rail reaches tolerance and its sequence is checked. -/
  | railGood (t rail mv : Nat)
  /-- RAIL_UNDERVOLTAGE (R458): A rail below 92 % takes every die to stage 6. -/
  | railUndervoltage (t rail : Nat)
  /-- VAUX_LOSS (R458): VAUX below 1.65 V resets the G9 as at power-on. -/
  | vauxLoss (t : Nat)
  /-- PF_WARN (R463): PF_WARN_N asserts, flushing Hen and holding the device as at stage 5. -/
  | pfWarn (t : Nat)
  /-- PF_WARN_RELEASE (R463): PF_WARN_N deasserted for 10 ms ends the hold. -/
  | pfWarnRelease (t : Nat)
  /-- SAG_STAGE_ENTER (R454): A die's sag exceeds a stage threshold for its filter time and the stage is entered. -/
  | sagStageEnter (t die stage peak : Nat)
  /-- SAG_STAGE_CLEAR (R455): Sag below threshold less 10 mV for 100 µs clears stages and held work resumes. -/
  | sagStageClear (t die mask peak : Nat)
  /-- THERMAL_SAMPLE (R459): Every 100 µs sensors are sampled, judged good or bad and Tj formed. -/
  | thermalSample (t die : Nat) (temps : List Int)
  /-- THROTTLE_RELEASE (R460): Tj below THROTTLE_C − 5 °C for 10 ms releases the throttle. -/
  | throttleRelease (t die : Nat)
  /-- TIME_REF_LOSS (R462): TIME_REF without an edge for 100 ns switches to the internal oscillator. -/
  | timeRefLoss (t : Nat)
  /-- TIME_REF_RESTORE (R462): 10 ms of valid edges restore TIME_REF. -/
  | timeRefRestore (t : Nat)
  /-- AVS_ACK (R452): A VCORE regulator acknowledges a set point. -/
  | avsAck (t die : Nat)
  /-- AVS_TIMEOUT (R452): A set point command unacknowledged after 3 attempts caps CORE_CLK. -/
  | avsTimeout (t die : Nat)
  /-- BLOB_WRITE (R468): The BLOB_WRITE pair reads, checks and writes a configuration blob to MRAM. -/
  | blobWrite (t hp : Nat)
  /-- FW_GO (R477): A write of FW_GO lets the waiting ROM fetch and verify a pushed firmware image. -/
  | fwGo (t hp : Nat)
  /-- FW_VERIFIED (R317): The ROM completes verification of a firmware image and accepts or rejects it. -/
  | fwVerified (t : Nat) (ok : Bool) (mramImage : List Nat)
  /-- COLD_BOOT (R469): A cold boot runs from VAUX good through training, BIST and ready. -/
  | coldBoot (t : Nat) (fresh : Bool) (cfg bootSrc : Nat) (identity : Bool)
  /-- BIST_DONE (R470): BIST ends and builds the logical-to-physical map and vacancies. -/
  | bistDone (t p : Nat) (phys : List Nat) (cores : Nat) (miobor : Bool) (mules banks : Nat)
  /-- BEAT_SEND (R93): Every 250 µs a partition sends BEAT to the agents of its zone. -/
  | beatSend (t p : Nat)
  /-- ECHO_BLOCK (R101): The partner on a measured port receives an echo block of MEASURE and returns it with its turnaround time. -/
  | echoBlock (t : Nat) (u : UnitId) (k turnaround : Nat)
  /-- WRITE_ACK (R130): The partition receives WRITE_ACK for a CONTROL or SLOTS write it sent to an agent. -/
  | writeAck (t p src tag st : Nat)
  /-- READ_RESP (R283): The partition receives READ_RESP from an agent, ending a silence check or carrying bank bytes for READ_BANK. -/
  | readResp (t p src tag st : Nat) (words : List Nat)
  /-- TEMPLATE_ACK (R280): The partition receives TEMPLATE_ACK for a TEMPLATE_LIST segment it sent. -/
  | templateAck (t p src tag st : Nat)
  /-- UNFENCE_ACK (R297): The partition receives UNFENCE_ACK and, after the last, lets the endpoint rejoin placement. -/
  | unfenceAck (t p src tag st : Nat)
  /-- ABANDON_ACK (R134): The partition receives ABANDON_ACK while abandoning an epoch everywhere before a fresh start. -/
  | abandonAck (t p src tag st : Nat)
  /-- DEMAND_SEND (R173): The endpoint's runtime sends its DEMAND for a window through its agent to the zone partition. -/
  | demandSend (t : Nat) (u : UnitId) (body : List Nat)
  /-- DEMAND_ACK (R175): An endpoint receives DEMAND_ACK and its runtime learns whether to send the demand as LOOSE. -/
  | demandAck (t : Nat) (e : Env) (body : List Nat)
  /-- PCIE_LINK_UP (R358): A PCIe port's link trains up, and after a failover the old port becomes standby. -/
  | pcieLinkUp (t hp speed width vfs : Nat) (master : Bool) (masked : List Nat)
  /-- PCIE_LINK_DOWN (R462): A PCIe port's link goes down, as on loss of its reference clock, leaving the other port unaffected. -/
  | pcieLinkDown (t hp : Nat)
  /-- PERST_RELEASE (R469): PERST_A_N or PERST_B_N is deasserted and the port begins link training and answers configuration requests. -/
  | perstRelease (t hp : Nat)
  /-- CONTROL_PORT_DOWN (R23): All eight lanes of a partition's control port go down and it leaves domain-wide functions until a lane returns. -/
  | controlPortDown (t p : Nat)
  /-- CACHE_PARITY_ERROR (R369): A parity error in a control core's cache or M-mode state is corrected by refetch or resets the core. -/
  | cacheParityError (t p core kind : Nat)
  /-- SMBUS_CLOCK_TIMEOUT (R463): The SMBus clock is held low for 25 ms and the G9 releases the bus and counts SMB_ERRORS. -/
  | smbusClockTimeout (t : Nat)
  /-- COARSE_WINDOW_END (R315): The first 100 ms window end at least 100 ms after the last confidential RELEASE clears COARSE and fine readings return. -/
  | coarseWindowEnd (t : Nat)
  /-- MISROUTED_REQUEST (R25): A die ring receives a request from a partition stop addressed to another partition stop, discards and counts it. -/
  | misroutedRequest (t p : Nat)
  deriving DecidableEq, Repr

end Sys2Proof
end

