-- ==== Sys2Proof/Config.lean ====
section
/-! DEFINITION. What a maker, an integrator or the cryptography fixes, and the free values: constants without a body, so that
no proof can see what they are. -/

namespace Sys2Proof.Config

/-- The free values: the k-th value that the spec leaves open (R5), drawn with the counter that the state holds. -/
opaque freeValue : Nat → Nat

/-- MAKER, PART_NO and SERIAL of the unit with a given code (R69, R99): constants of the maker. -/
opaque makerOf : Nat → Nat
/-- PART_NO of a unit. -/
opaque partNoOf : Nat → Nat
/-- SERIAL of a unit. -/
opaque serialOf : Nat → Nat
/-- The board serial number that an endpoint's board carries (R99). -/
opaque boardIdOf : Nat → Nat
/-- The position that the board straps for an endpoint (R99), before it is cut to three bits. -/
opaque boardSlotOf : Nat → Nat
/-- The cable identification read at a unit's port (R99). -/
opaque cableTagOf : Nat → Nat → Nat
/-- How far FLOW_LOG2 lies above 16, before it is cut to 0 to 4 (R90). -/
opaque flowLog2Of : Nat → Nat
/-- The rate in ppm at which a maker's agent slews its clock, less 1, before it is cut to 0 to 199 (R91). -/
opaque slewPpmOf : Nat → Nat
/-- How far the number of circuit ports of an OCS unit lies above 16, before it is cut to 0 to 496 (R68). -/
opaque circuitPortsOf : Nat → Nat
/-- Which of several records of a plan that name one port applies (R105): by PLAN_ID and the port. -/
opaque planPick : Nat → Nat → Nat
/-- What a slice holds whose request R164 leaves unchecked, by the number of the free value and what is asked for. -/
opaque wildPick : Nat → Nat → Nat
/-- The POS with which the topology database enters an identified unit that has no position (R114), by its SERIAL. -/
opaque strayPos : Nat → Nat
/-- The G9 from whose lease the manager lends FIDs to a zone that asks (R111), by the zone and the number of the grant. -/
opaque leaseFrom : Nat → Nat → Nat
/-- What a Miobor command leaves open and its inputs fix (R207): by the descriptor, the tensor table entries, the contents of the input
tiles, and what the value is for. -/
opaque mioValue : List Nat → Nat
/-- The die address of the message log, the firmware's choice (R390). -/
opaque msgLogAddr : Nat
/-- The ROM's version (R332). -/
opaque romVer : Nat
/-- LH_MODEL_VER (R257). -/
opaque lhModelVer : Nat

/-- The score of the built-in link-health network for a port's features (R254), before it is cut to 255: the seven sums, the
largest depth, the mean of the mean depths, the delay events, the up and down events, and the score before. -/
opaque lhScore : List Nat → Nat

/-- The set point in mV of a die's frequency in MHz, from the table fused at manufacture (R453), before it is cut to 650 to 850. -/
opaque setPoint : Nat → Nat → Nat

/-- SHA-512 of a byte string, as 512 bits. -/
opaque sha512 : List Nat → Nat
/-- ECDSA P-521 verification: public key, digest, signature. -/
opaque ecdsaVerify : Nat → Nat → Nat → Bool
/-- ECDSA P-521 signing with a named device key of a digest. -/
opaque ecdsaSign : Nat → Nat → Nat
/-- AES-256-GCM opening: key, nonce, ciphertext bytes; none where the tag fails. -/
opaque gcmOpen : Nat → List Nat → List Nat → Option (List Nat)
/-- HKDF-Expand of a key under a label. -/
opaque hkdf : Nat → List Nat → Nat
/-- Elliptic-curve key agreement of KEK c of a firmware digest, a context and its generation with a public key (R316, R323). -/
opaque ecdh : List Nat → Nat → Nat
/-- A public key lies on P-521. -/
opaque onCurve : Nat → Bool
/-- KEK public key of a firmware digest, a context and its generation, as an uncompressed point (R316, R322). -/
opaque kekPublic : List Nat → Nat
/-- The measurement of the defect maps (R319): of every partition's engine map and vacancies, in a layout that the spec leaves open. -/
opaque defectDigest : List Nat → Nat
/-- How expected and found CTX and FORMAT lie in the word of event 0x1401 (R216), before it is cut to 32 bits. -/
opaque packHeads : List Nat → Nat

end Sys2Proof.Config
end

