-- ==== Sys2Proof/Machine/Regs.lean ====
section
/-! DEFINITION. Every register field of the agent pages and of the G9 pages, one row each, from the field tables of the spec:
its page, byte offset, bits, access code (R10), reset value, boundary (R11), range, and place in an array of like fields. -/

namespace Sys2Proof

/-- The register pages: those of an agent (R69), then those of the G9 (R342, R354). `ACOMMON` and `COMMON` are the fields that
open every page of an agent (R70) and of the G9 (R344). -/
inductive Page where
  | ACOMMON
  | AIDENT
  | ACONTROL
  | ABANKS
  | AFENCE
  | ASLOTS
  | AFLOWS
  | ATIME
  | ALOOSE
  | APORT
  | ALOG
  | ROUTE
  | SCHED
  | MIOBOR
  | LEARN
  | IMAGE
  | FAIL
  | CONTEXT
  | LINKSEC
  | COMMON
  | CTXQ
  | DEVICE
  | HOSTPORT
  | RING
  | CORES
  | MEMORY
  | MULE
  | TIME
  | COUNTERS
  | TRACE
  | PCOUNTERS
  | PARTITION
  | GOOSE
  | RESET
  | HEN
  | LOOPS
  | POWER
  | THERMAL
  | BOOT
  | ENGINES
  deriving DecidableEq, Repr

/-- Access codes of R10. A holding register (HLD) has no row of its own: it mirrors a counter. -/
inductive Acc where
  | ro | rw | rwb | rwp | w1c | wo
  deriving DecidableEq, Repr

/-- Boundary entries of R11. `selected` is the entry COMMIT: the boundary held in BOUNDARY when the write completes. -/
inductive Bnd where
  | write | frame | step | commit | selected
  deriving DecidableEq, Repr

/-- The register fields, each named by its page and its name there. -/
inductive Reg where
  | ACOMMON_BLOCK
  | ACOMMON_INSTANCE
  | ACOMMON_PAGE_VER
  | ACOMMON_PROFILE
  | ACOMMON_PORTS
  | ACOMMON_FLOW_LOG2
  | ACOMMON_STATUS
  | ACOMMON_INT_STATUS
  | ACOMMON_INT_ENABLE
  | ACOMMON_BOUNDARY
  | ACOMMON_COMMIT
  | ACOMMON_SNAPSHOT
  | ACOMMON_SNAPSHOT_ALL
  | AIDENT_MAKER
  | AIDENT_PART_NO
  | AIDENT_SERIAL
  | AIDENT_FID
  | AIDENT_PARTITION_FID
  | AIDENT_ALT_FID0
  | AIDENT_ALT_FID1
  | AIDENT_ALT_FID2
  | AIDENT_BOARD_POS
  | AIDENT_BOARD_NO
  | ACONTROL_HOP_LIMIT
  | ACONTROL_LOOSE_DEPTH
  | ACONTROL_MARK_THRESH
  | ACONTROL_FLOW_TIMEOUT
  | ACONTROL_DRAIN_TIMEOUT
  | ACONTROL_COMMIT_WAIT
  | ACONTROL_RESUME_WAIT
  | ACONTROL_CONTROL_TIMEOUT
  | ACONTROL_MSG_TIMEOUT
  | ACONTROL_MSG_RETRIES
  | ACONTROL_TELEM_PERIOD
  | ACONTROL_MODE
  | ACONTROL_CAUSE
  | ACONTROL_FALLBACK_CLEAR
  | ACONTROL_BAD_ADDR
  | ACONTROL_MALFORMED_PKT
  | ACONTROL_HOP_LIMIT_DROPS
  | ACONTROL_NO_EXIT
  | ACONTROL_NO_ROUTE
  | ACONTROL_MALFORMED_MSG
  | ACONTROL_FOREIGN_CONTROL
  | ACONTROL_MSG_FAILED
  | ACONTROL_RESERVED_STATUS
  | ACONTROL_DUP_REQUESTS
  | ACONTROL_CLAMPS
  | ACONTROL_PAIR_FAILS
  | ABANKS_ACTIVE_EPOCH
  | ABANKS_SHADOW_EPOCH
  | ABANKS_SHADOW_VALID
  | ABANKS_SHADOW_COMPLETE
  | ABANKS_STATE
  | ABANKS_ACTIVE_BANK
  | ABANKS_STATIC_IN_USE
  | ABANKS_STATIC_LOADING
  | ABANKS_STATIC_VALID
  | ABANKS_DRAIN_CLASSES
  | ABANKS_INFLIGHT
  | ABANKS_STATIC_EPOCH
  | ABANKS_LAST_DRAIN
  | ABANKS_COMMITS
  | ABANKS_ROLLBACKS
  | ABANKS_ABANDONS
  | ABANKS_REFUSALS
  | AFENCE_FENCE_USED
  | AFENCE_VIEW_INDEX
  | AFENCE_VIEW_FID
  | AFENCE_VIEW_STATE
  | AFENCE_VIEW_F
  | AFENCE_VIEW_JOB
  | AFENCE_FENCED_DROPS
  | AFENCE_STALE_DROPS
  | AFENCE_MCAST_FENCED_DROPS
  | AFENCE_FENCE_REFUSED
  | AFENCE_FENCE_STALE
  | AFENCE_ADDR_REFUSED
  | ASLOTS_WINDOW_FRAME
  | ASLOTS_WINDOW_FRAMES
  | ASLOTS_CURRENT_VALID
  | ASLOTS_NEXT_VALID
  | ASLOTS_TEMPLATE_IN_USE
  | ASLOTS_TEMPLATE_VALID
  | ASLOTS_LIST_GUARD
  | ASLOTS_SEQ_LEN
  | ASLOTS_SEQ_BASE_FRAME
  | ASLOTS_SEQ
  | ASLOTS_NEXT_FROM_FRAME
  | ASLOTS_NEXT_SEQ_LEN
  | ASLOTS_NEXT_SEQ
  | ASLOTS_SLOTS_SENT
  | ASLOTS_SLOTS_IDLE
  | ASLOTS_LISTS_ACCEPTED
  | ASLOTS_LISTS_LATE
  | ASLOTS_LISTS_REJECTED
  | ASLOTS_TEMPLATE_ONLY
  | AFLOWS_FLOW_USED
  | AFLOWS_DONE_OK
  | AFLOWS_DONE_VIOL
  | AFLOWS_DONE_TIMEOUT
  | AFLOWS_MALFORMED_FLOW
  | AFLOWS_LATE_CHUNK
  | AFLOWS_FLOW_FULL
  | ATIME_NOW
  | ATIME_OFFSET
  | ATIME_STATE
  | ATIME_PARENT_PORT
  | ATIME_PATH_DELAY
  | ATIME_EXCHANGES
  | ATIME_EXCHANGE_FAILS
  | ATIME_OUT_OF_BOUND
  | ATIME_TIME_STEPS
  | ALOOSE_RATE
  | ALOOSE_CEILING
  | ALOOSE_STEP
  | ALOOSE_FLOOR
  | ALOOSE_PIN
  | ALOOSE_ECHOES_RX
  | ALOOSE_ECHOES_TX
  | ALOOSE_MARKS_UNECHOED
  | ALOOSE_HALVINGS
  | APORT_UP
  | APORT_PARTNER_FID
  | APORT_PARTNER_PORT
  | APORT_DELAY_NS
  | APORT_DELAY_SLOTS
  | APORT_IN_FLIGHT
  | APORT_TX_POWER
  | APORT_RX_POWER
  | APORT_TX_PACKETS
  | APORT_TX_BYTES
  | APORT_RX_PACKETS
  | APORT_RX_BYTES
  | APORT_DEFLECTIONS
  | APORT_DISCARD_FEC
  | APORT_DISCARD_AUTH
  | APORT_FEC_CORRECTED
  | APORT_MARKS
  | APORT_VIOLATIONS
  | APORT_STALL_SLOTS
  | APORT_QDEPTH_MAX
  | APORT_QDEPTH_SUM
  | APORT_QDEPTH_SLOTS
  | ALOG_NEXT
  | ROUTE_ZONE_EPOCH
  | ROUTE_TXN_EPOCH
  | ROUTE_TXN_STAGE
  | ROUTE_COORDINATED
  | ROUTE_AUTO_OPEN
  | ROUTE_STATIC_EPOCH
  | ROUTE_DRAIN_TIMEOUT
  | ROUTE_COMMIT_WAIT
  | ROUTE_RESUME_WAIT
  | ROUTE_DRAIN_CLASSES
  | ROUTE_AUTO
  | ROUTE_STATIC_AUTO
  | ROUTE_AUTO_DELAY
  | ROUTE_ROUTE_GROUPS
  | ROUTE_Q_BASE
  | ROUTE_Q_LOG2
  | ROUTE_Q_HEAD
  | ROUTE_Q_TAIL
  | ROUTE_CQ_BASE
  | ROUTE_CQ_LOG2
  | ROUTE_CQ_TAIL
  | ROUTE_CQ_HEAD
  | ROUTE_Q_ENABLE
  | ROUTE_Q_IDLE
  | ROUTE_LAST_TXN_TICKS
  | ROUTE_LAST_GEN_TICKS
  | ROUTE_LAST_STALL_TICKS
  | ROUTE_LAST_CHUNKS
  | ROUTE_TXN_COMPLETED
  | ROUTE_TXN_ABANDONED
  | ROUTE_TXN_FORWARD
  | ROUTE_AGENT_ROLLBACKS
  | ROUTE_DRAIN_TIMEOUTS
  | ROUTE_PREPARE_RESENDS
  | ROUTE_GEN_RESTARTS
  | ROUTE_AGENTS_UNRESOLVED
  | ROUTE_AUTO_TXNS
  | SCHED_ENGINES_WORKING
  | SCHED_SPEC_DEFAULT
  | SCHED_ORDERED_DEFAULT
  | SCHED_SPILL_DEFAULT
  | SCHED_LIST_LEAD
  | SCHED_DELIVERY_ALLOW
  | SCHED_ORDERED_ALLOW
  | SCHED_XPLACE_MARGIN
  | SCHED_XMAP_LIMIT
  | SCHED_QUANTUM
  | SCHED_Q_BASE
  | SCHED_Q_LOG2
  | SCHED_Q_HEAD
  | SCHED_Q_TAIL
  | SCHED_CQ_BASE
  | SCHED_CQ_LOG2
  | SCHED_CQ_TAIL
  | SCHED_CQ_HEAD
  | SCHED_Q_ENABLE
  | SCHED_Q_IDLE
  | SCHED_LAST_PLACE_TICKS
  | SCHED_LAST_ENGINE_TICKS
  | SCHED_LAST_WINDOW
  | SCHED_VECTORS_RX
  | SCHED_VECTORS_BAD
  | SCHED_VECTORS_LATE
  | SCHED_VECTORS_MISSING
  | SCHED_ENTRIES_FENCED
  | SCHED_ITEMS_KEPT
  | SCHED_ITEMS_REPLACED
  | SCHED_ITEMS_NEW
  | SCHED_ITEMS_RELEASED
  | SCHED_CLAIM_ATTEMPTS
  | SCHED_CLAIMS
  | SCHED_CLAIM_FAILS
  | SCHED_RUNS
  | SCHED_CHUNKS_PLACED
  | SCHED_SPILL_NEXT
  | SCHED_SPILL_LOOSE
  | SCHED_STEAL_ATTEMPTS
  | SCHED_STEALS
  | SCHED_OVERFLOW_UNITS
  | SCHED_PARITY_ERRORS
  | SCHED_SEAL_FAILS
  | SCHED_LISTS_SENT
  | SCHED_LISTS_WITHHELD
  | SCHED_LISTS_RESENT
  | SCHED_XITEMS_SENT
  | SCHED_XITEMS_PLACED
  | SCHED_XITEMS_LATE
  | SCHED_STATIC_DISPLACED
  | SCHED_DEGRADED_ITEMS
  | SCHED_WINDOWS
  | MIOBOR_STATE
  | MIOBOR_CURRENT_CTX
  | MIOBOR_QUEUED
  | MIOBOR_QUANTUM
  | MIOBOR_STOCH_ALLOW
  | MIOBOR_LAST_FAIL_TILE
  | MIOBOR_LAST_FAIL_TAG
  | MIOBOR_LAST_CMD_CYCLES
  | MIOBOR_TTAB_FIRST_TILE
  | MIOBOR_TTAB_TILES
  | MIOBOR_TTAB_VALID
  | MIOBOR_TTAB_GEN
  | MIOBOR_COMMANDS
  | MIOBOR_CMD_FAILED
  | MIOBOR_MAC_INT4
  | MIOBOR_MAC_INT8
  | MIOBOR_MAC_E4M3
  | MIOBOR_MAC_E5M2
  | MIOBOR_MAC_BF16
  | MIOBOR_MAC24_INT4
  | MIOBOR_MAC24_INT8
  | MIOBOR_MAC24_E4M3
  | MIOBOR_MAC24_E5M2
  | MIOBOR_MAC24_BF16
  | MIOBOR_BLOCKS_SKIPPED
  | MIOBOR_VEC_OPS
  | MIOBOR_ROWS_SKIPPED
  | MIOBOR_TILES_READ
  | MIOBOR_TILES_WRITTEN
  | MIOBOR_TILE_FAILS
  | MIOBOR_SAT_EVENTS
  | MIOBOR_NAN_TO_INT
  | MIOBOR_INDEX_OOR
  | MIOBOR_GATE_ASSIGNED
  | MIOBOR_GATE_DROPPED
  | MIOBOR_BUSY_CYCLES
  | MIOBOR_HELD_CYCLES
  | MIOBOR_CTX_SWITCHES
  | LEARN_FC_LEAD
  | LEARN_SPEC_MARGIN
  | LEARN_HIT_LOW
  | LEARN_HIT_HIGH
  | LEARN_CONF_STEP_UP
  | LEARN_CONF_STEP_DOWN
  | LEARN_LH_PERIOD
  | LEARN_LH_THRESH
  | LEARN_LH_CLEAR
  | LEARN_LH_PERSIST
  | LEARN_LH_ACTION
  | LEARN_LH_MAX_DISABLED
  | LEARN_LH_MODEL_VER
  | LEARN_ANALYSE_JOB
  | LEARN_ANALYSE_REQ
  | LEARN_ANALYSING
  | LEARN_JOB
  | LEARN_CONF_NOW
  | LEARN_PIN
  | LEARN_CONF_FLOOR
  | LEARN_CONF_CEIL
  | LEARN_LAST_HIT
  | LEARN_HIST_FILLED
  | LEARN_FC_STARTED
  | LEARN_FC_PUBLISHED
  | LEARN_FC_LATE
  | LEARN_FC_FAILED
  | LEARN_FC_ENTRIES_DROPPED
  | LEARN_FC_SOURCES_BELOW
  | LEARN_FC_SOURCES_PREEMPTED
  | LEARN_HIST_TRUNCATED
  | LEARN_CONF_CHANGES
  | LEARN_ANALYSES
  | LEARN_ANALYSES_FAILED
  | LEARN_ANALYSES_REFUSED
  | LEARN_ADVICE_ISSUED
  | LEARN_ADVICE_APPLIED
  | LEARN_ADVICE_WITHDRAWN
  | LEARN_LH_EVALS
  | LEARN_LH_FLAGS_SET
  | LEARN_LH_FLAGS_CLEARED
  | LEARN_LH_DISABLES
  | LEARN_CLAMPS
  | IMAGE_LAST_IMAGE_ID
  | IMAGE_LAST_IMAGE_VER
  | IMAGE_LAST_STATUS
  | IMAGE_LAST_CTX
  | IMAGE_LAST_FAIL_SECTION
  | IMAGE_LAST_FAIL_CHECK
  | IMAGE_LOAD_BW
  | IMAGE_LAST_LOAD_TICKS
  | IMAGE_LOADS
  | IMAGE_LOAD_FAILED
  | IMAGE_AUTH_FAILS
  | IMAGE_SECTIONS_INSTALLED
  | IMAGE_SECTIONS_REPLACED
  | IMAGE_TEMPLATES_REFUSED
  | IMAGE_UNLISTED_IDS
  | IMAGE_BYTES_FETCHED
  | FAIL_FENCE_AUTO
  | FAIL_PEER_NOTICE
  | FAIL_DEGRADE_CEILING
  | FAIL_SILENT_PERIODS
  | FAIL_VIOL_THRESH
  | FAIL_FENCE_BATCH
  | FAIL_FENCES_HELD
  | FAIL_LAST_NOTICE_TICKS
  | FAIL_LAST_FENCE_TICKS
  | FAIL_DETECTIONS
  | FAIL_PEER_RESETS
  | FAIL_NOTICE_UNICASTS
  | FAIL_FENCES_ISSUED
  | FAIL_FENCE_BATCHES
  | FAIL_FENCE_RETRIES
  | FAIL_FENCE_REFUSED
  | FAIL_UNFENCES
  | FAIL_VIOLATIONS_RX
  | FAIL_VIOL_BLOCKS
  | FAIL_CEILING_CHANGES
  | FAIL_RESYNCS
  | FAIL_CLAMPS
  | CONTEXT_VIEW_CTX
  | CONTEXT_VIEW_STATE
  | CONTEXT_VIEW_STAGE
  | CONTEXT_VIEW_CONF
  | CONTEXT_VIEW_RESIDENT
  | CONTEXT_VIEW_GEN
  | CONTEXT_VIEW_KEY_GEN
  | CONTEXT_CONF_RESIDENT
  | CONTEXT_COARSE
  | CONTEXT_DEBUG_LOCK
  | CONTEXT_FW_VER
  | CONTEXT_ROM_VER
  | CONTEXT_IDENTITY_OK
  | CONTEXT_Q_BASE
  | CONTEXT_Q_LOG2
  | CONTEXT_Q_HEAD
  | CONTEXT_Q_TAIL
  | CONTEXT_CQ_BASE
  | CONTEXT_CQ_LOG2
  | CONTEXT_CQ_TAIL
  | CONTEXT_CQ_HEAD
  | CONTEXT_Q_ENABLE
  | CONTEXT_Q_IDLE
  | CONTEXT_CREATES
  | CONTEXT_TEARDOWNS
  | CONTEXT_KEY_IMPORTS
  | CONTEXT_KEY_FAILS
  | CONTEXT_APERTURE_DENIED
  | CONTEXT_IDE_REJECTS
  | CONTEXT_SCRUB_BYTES
  | CONTEXT_SPDM_REQUESTS
  | LINKSEC_KEYED
  | LINKSEC_GEN_PARITY
  | LINKSEC_REKEY_LOG2
  | LINKSEC_TX_COUNTER
  | LINKSEC_RX_COUNTER
  | LINKSEC_REVOKED_MASK
  | LINKSEC_HANDSHAKES
  | LINKSEC_HANDSHAKE_FAILS
  | LINKSEC_REKEYS
  | LINKSEC_AUTH_DROPS
  | LINKSEC_REPLAY_DROPS
  | LINKSEC_SLOT_MISMATCH
  | LINKSEC_REVOKED_FRAMES
  | COMMON_BLOCK
  | COMMON_INSTANCE
  | COMMON_PAGE_VER
  | COMMON_CAP
  | COMMON_CTRL
  | COMMON_VIEW_PENDING
  | COMMON_STATUS
  | COMMON_INT_STATUS
  | COMMON_CQ_WRITTEN
  | COMMON_INT_ENABLE
  | COMMON_BOUNDARY
  | COMMON_STEP_JOB
  | COMMON_PENDING
  | COMMON_COMMIT
  | COMMON_SNAPSHOT
  | CTXQ_RESIDENT
  | CTXQ_CONFIDENTIAL
  | CTXQ_STAGE
  | CTXQ_Q_BASE
  | CTXQ_Q_LOG2
  | CTXQ_Q_HEAD
  | CTXQ_Q_TAIL
  | CTXQ_CQ_BASE
  | CTXQ_CQ_LOG2
  | CTXQ_CQ_TAIL
  | CTXQ_CQ_HEAD
  | CTXQ_Q_ENABLE
  | CTXQ_Q_IDLE
  | CTXQ_Q_WINDOW
  | CTXQ_DEFAULT_TIMEOUT
  | CTXQ_M_Q_BASE
  | CTXQ_M_Q_LOG2
  | CTXQ_M_Q_HEAD
  | CTXQ_M_Q_TAIL
  | CTXQ_M_CQ_BASE
  | CTXQ_M_CQ_LOG2
  | CTXQ_M_CQ_TAIL
  | CTXQ_M_CQ_HEAD
  | CTXQ_M_Q_ENABLE
  | CTXQ_M_Q_IDLE
  | CTXQ_M_Q_WINDOW
  | CTXQ_M_DEFAULT_TIMEOUT
  | CTXQ_CTX_INT_STATUS
  | CTXQ_CTX_INT_ENABLE
  | CTXQ_COMPUTE_DONE
  | CTXQ_MULE_DONE
  | CTXQ_CMD_TIMEOUTS
  | DEVICE_HOST_CFG
  | DEVICE_BOOT_SRC
  | DEVICE_OWNER
  | DEVICE_DEVICE_PORT
  | DEVICE_ACTIVE_PORT
  | DEVICE_ROLE
  | DEVICE_CLUSTER_INDEX
  | DEVICE_LEAD
  | DEVICE_IN_SERVICE
  | DEVICE_STEPPING
  | DEVICE_HB_TIMEOUT
  | DEVICE_TAKEOVER_AUTO
  | DEVICE_OWNER_REFUSED
  | DEVICE_FAILOVERS
  | HOSTPORT_LINK_UP
  | HOSTPORT_LINK_SPEED
  | HOSTPORT_LINK_WIDTH
  | HOSTPORT_PORT_ROLE
  | HOSTPORT_HEARTBEAT
  | HOSTPORT_TAKEOVER
  | HOSTPORT_PAIR_FAILS
  | HOSTPORT_UNOWNED_ACCESS
  | HOSTPORT_READ_TIMEOUTS
  | HOSTPORT_CQ_LOST
  | HOSTPORT_PERST_EVENTS
  | HOSTPORT_MSIX_SENT
  | RING_BYPASS
  | RING_MISROUTED
  | RING_BYPASS_READS
  | RING_BYPASS_WRITES
  | CORES_STATE
  | CORES_RUN_CTX
  | CORES_USER_QUANTUM
  | CORES_CTL_CTX
  | CORES_CTL_CORES
  | CORES_CTL_OP
  | CORES_PROG_STATE
  | CORES_LAST_FAULT_CTX
  | CORES_LAST_FAULT_CORE
  | CORES_LAST_FAULT_CAUSE
  | CORES_LAST_FAULT_PC
  | CORES_LAST_FAULT_TVAL
  | CORES_PROG_STARTS
  | CORES_PROG_FAULTS
  | CORES_CTX_SWITCHES
  | CORES_ISSUES
  | CORES_ISSUE_REFUSED
  | CORES_CACHE_PARITY
  | MEMORY_SRAM_FREE
  | MEMORY_LPDDR_FREE
  | MEMORY_DEVICE_SRAM
  | MEMORY_APERTURE_BASE
  | MEMORY_VIEW_CTX
  | MEMORY_SRAM_FIRST
  | MEMORY_SRAM_TILES
  | MEMORY_LPDDR_FIRST
  | MEMORY_LPDDR_TILES
  | MEMORY_TILE_RELOADS
  | MEMORY_TILE_UNREPAIRED
  | MEMORY_LPDDR_CORRECTED
  | MEMORY_LPDDR_UNCORRECTED
  | MEMORY_HEADER_PARITY
  | MEMORY_APERTURE_WRITES_DROPPED
  | MULE_BUSY
  | MULE_HOST_LIMIT
  | MULE_COMMANDS
  | MULE_CMD_FAILED
  | MULE_TILES_MOVED
  | MULE_HOST_BYTES_READ
  | MULE_HOST_BYTES_WRITTEN
  | MULE_CHECK_FAILS
  | MULE_REVOKED_ABORTS
  | TIME_NOW
  | TIME_STATE
  | TIME_MASTER
  | TIME_PARENT
  | TIME_NO_PARENT
  | TIME_LEG_PARTITION
  | TIME_OFFSET
  | TIME_RATE_ADJ
  | TIME_LAST_STEP
  | TIME_SET_TIME_LO
  | TIME_SET_TIME_HI
  | TIME_SET_AT_PPS
  | TIME_PPS_IN_EN
  | TIME_PPS_OUT_EN
  | TIME_PPS_ERR
  | TIME_LEG_SETS
  | TIME_LEG_FAILS
  | TIME_OUT_OF_BOUND
  | TIME_TIME_STEPS
  | TIME_PPS_EDGES
  | TIME_PPS_MISSED
  | COUNTERS_SNAP_TIME_LO
  | COUNTERS_SNAP_TIME_HI
  | COUNTERS_SNAP_ARM
  | COUNTERS_SNAP_NOW
  | COUNTERS_SNAP_STATE
  | COUNTERS_SNAP_MISSED
  | COUNTERS_SNAP_SEQ
  | COUNTERS_SNAP_AT
  | COUNTERS_SNAPSHOTS
  | COUNTERS_SNAPSHOTS_MISSED
  | TRACE_TRACE_MODE
  | TRACE_CAPTURE
  | TRACE_TRIG_POS
  | TRACE_FW_TRACE
  | TRACE_NATIVE_SHARE
  | TRACE_SPILL_MIB
  | TRACE_TRACE_BW
  | TRACE_ARM
  | TRACE_STOP
  | TRACE_TRIG_NOW
  | TRACE_TRIG_SRC
  | TRACE_TRIG_CODE
  | TRACE_TRIG_JOB
  | TRACE_TRIG_LAYER
  | TRACE_TRIG_OPERATOR
  | TRACE_TRIG_TIME_LO
  | TRACE_TRIG_TIME_HI
  | TRACE_STATE
  | TRACE_TRIG_AT
  | TRACE_NAT_FIRST
  | TRACE_NAT_NEXT
  | TRACE_CMP_FIRST
  | TRACE_CMP_NEXT
  | TRACE_SPILL_BASE
  | TRACE_RD_ADDR
  | TRACE_RD_DATA
  | TRACE_MSGLOG_ADDR
  | TRACE_MSGLOG_NEXT
  | TRACE_RECORDS
  | TRACE_NATIVE_BYTES
  | TRACE_DROPPED_RECORDS
  | TRACE_DROP_MARKERS
  | TRACE_TRIGGERS
  | TRACE_TRIGGERS_IGNORED
  | TRACE_GAP_RECORDS
  | TRACE_SPILL_BYTES
  | TRACE_CLAMPS
  | PCOUNTERS_F_JOB
  | PCOUNTERS_M_JOB
  | PCOUNTERS_F_LAYER
  | PCOUNTERS_M_LAYER
  | PCOUNTERS_F_OPERATOR
  | PCOUNTERS_M_OPERATOR
  | PCOUNTERS_F_CTX
  | PCOUNTERS_EN
  | PCOUNTERS_EV
  | PCOUNTERS_COUNT
  | PARTITION_DEGRADED
  | PARTITION_ENGINES_VACANT
  | PARTITION_SPARES
  | PARTITION_CORES_VACANT
  | PARTITION_MIOBOR_VACANT
  | PARTITION_MULES_VACANT
  | PARTITION_BANKS_VACANT
  | PARTITION_GROUP_RESET
  | PARTITION_CORE_RESET
  | PARTITION_MIOBOR_RESET
  | PARTITION_LAST_CAUSE
  | PARTITION_LAST_RESET_AT
  | PARTITION_LAST_RESET_TICKS
  | PARTITION_GROUP_RESETS
  | PARTITION_CORE_RESETS
  | PARTITION_MIOBOR_RESETS
  | PARTITION_ABSORBED
  | PARTITION_REMAPS
  | PARTITION_VACANCIES
  | PARTITION_WATCHDOGS
  | GOOSE_CONFIRM
  | GOOSE_STALL
  | GOOSE_AUTO_BREAK
  | GOOSE_VIEW_NODE
  | GOOSE_VIEW_WAIT
  | GOOSE_VIEW_TARGET
  | GOOSE_VIEW_TAG
  | GOOSE_VIEW_STUCK
  | GOOSE_LAST_CYCLE_AT
  | GOOSE_LAST_VICTIM
  | GOOSE_LAST_VICTIM_TAG
  | GOOSE_SCANS
  | GOOSE_LOCAL_CYCLES
  | GOOSE_PROBES
  | GOOSE_DIST_CYCLES
  | GOOSE_VICTIMS
  | GOOSE_STALLS
  | GOOSE_GOOSE_RESETS
  | RESET_PART_STATE
  | RESET_STAGE
  | RESET_FAULTS_10MIN
  | RESET_DEVICE_STATE
  | RESET_FAULT
  | RESET_FAULTS_60MIN
  | RESET_LAST_DEVICE_CAUSE
  | RESET_LAST_DEVICE_RESET_AT
  | RESET_PART_RESET
  | RESET_PART_REINSTATE
  | RESET_DEVICE_RESET
  | RESET_DEVICE_REINSTATE
  | RESET_PART_RESETS_FAULT
  | RESET_PART_RESETS_HOST
  | RESET_DEVICE_RESETS_FAULT
  | RESET_DEVICE_RESETS_HOST
  | RESET_PART_OOS
  | RESET_REINSTATE_REFUSED
  | RESET_G9_STATE_RX
  | HEN_NEXT
  | HEN_OLDEST
  | HEN_KEPT_USED
  | HEN_FLUSHING
  | HEN_LAST_REASON
  | HEN_LAST_DEST
  | HEN_LAST_DONE
  | HEN_HOST_BUF_ADDR
  | HEN_HOST_BUF_LEN
  | HEN_FLUSH_NOW
  | HEN_MRAM_COPY
  | HEN_CLEAR
  | HEN_FLOOD_WINDOW
  | HEN_FLUSH_ON_PARTITION
  | HEN_LAST_FLUSH_TICKS
  | HEN_FLUSH_SEQ
  | HEN_NOTE_P
  | HEN_NOTE
  | HEN_RD_ADDR
  | HEN_RD_DATA
  | HEN_RECORDS_FIXED
  | HEN_RECORDS_VAR
  | HEN_REPEATS
  | HEN_LOST
  | HEN_LOST_FLUSH
  | HEN_FLUSHES
  | HEN_FLUSH_BYTES
  | HEN_MRAM_TRUNCATED
  | HEN_DOSSIERS
  | HEN_DOSSIERS_TRUNCATED
  | LOOPS_DVFS_FLOOR
  | LOOPS_DVFS_CEIL
  | LOOPS_DVFS_PIN
  | LOOPS_APPLIED_MHZ
  | LOOPS_LIMIT_CAUSE
  | LOOPS_SPAN_FLOOR
  | LOOPS_SPAN_CEIL
  | LOOPS_SPAN_PIN
  | LOOPS_LEND_FLOOR
  | LOOPS_LEND_PIN
  | LOOPS_OVERRIDDEN
  | LOOPS_SPAN_NOW
  | LOOPS_LENT_NOW
  | LOOPS_CLAMPS
  | LOOPS_PROTECT_OVERRIDES
  | LOOPS_DVFS_CHANGES
  | LOOPS_SPAN_CHANGES
  | LOOPS_LEND_CHANGES
  | POWER_STAGE
  | POWER_SAG_MV
  | POWER_SETPOINT_MV
  | POWER_RAIL_MV
  | POWER_RAIL_CURRENT
  | POWER_POWER_W
  | POWER_POWER_LIMIT
  | POWER_PF_WARN
  | POWER_PF_HOLD
  | POWER_STAGE_ENTRIES
  | POWER_PF_WARNS
  | POWER_SEQ_FAULTS
  | POWER_AVS_FAILS
  | POWER_RAIL_UV
  | THERMAL_TJ
  | THERMAL_SENSORS_GOOD
  | THERMAL_THROTTLED
  | THERMAL_TRIPPED
  | THERMAL_THROTTLE_C
  | THERMAL_THROTTLES
  | THERMAL_TRIPS
  | THERMAL_SENSOR_BAD
  | BOOT_PATH
  | BOOT_BOOT_STAGE
  | BOOT_BLOB_VALID
  | BOOT_BLOB_DEFAULTED
  | BOOT_STATE_VALID
  | BOOT_FW_FROM_MRAM
  | BOOT_FW_WAITING
  | BOOT_SRIS_A
  | BOOT_SRIS_B
  | BOOT_LAST_BOOT_TICKS
  | BOOT_FW_ADDR
  | BOOT_FW_LEN
  | BOOT_FW_GO
  | BOOT_BLOB_ADDR
  | BOOT_BLOB_LEN
  | BOOT_BLOB_WRITE
  | BOOT_BLOB_STATUS
  | BOOT_FW_REJECTS
  | BOOT_XSPI_RETRIES
  | BOOT_XSPI_FAILS
  | BOOT_SMB_ERRORS
  | BOOT_STRAP_CHANGES
  | BOOT_PPS_REJECTED
  | BOOT_TIME_REF_LOSSES
  | ENGINES_PHYS_OK
  | ENGINES_VIEW_LOGICAL
  | ENGINES_VIEW_PHYSICAL
  | ENGINES_LAST_BIST_AT
  | ENGINES_BIST_RUNS
  | ENGINES_BIST_ENGINE_FAILS
  | ENGINES_BIST_ABANDONED
  deriving DecidableEq, Repr

/-- One row of a field table: bits `hi` to `lo` of the word at `off`, element `i` of an array `i * stride` bytes further on
(or `i * bstride` bits further up). `lo ≤ hi` may pass 31: the field then runs over the following words. -/
structure RegDesc where
  page : Page
  off : Nat
  hi : Nat
  lo : Nat
  acc : Acc
  bnd : Bnd
  reset : Nat
  min : Nat
  max : Nat
  stride : Nat
  count : Nat
  bstride : Nat
  counter : Bool
  deriving DecidableEq, Repr

/-- The fields of page ACOMMON (03_ozell_agent.md, R70), in table order. -/
def regsOfACOMMON : List Reg :=
  [.ACOMMON_BLOCK, .ACOMMON_INSTANCE, .ACOMMON_PAGE_VER, .ACOMMON_PROFILE, .ACOMMON_PORTS, .ACOMMON_FLOW_LOG2, .ACOMMON_STATUS, .ACOMMON_INT_STATUS, .ACOMMON_INT_ENABLE, .ACOMMON_BOUNDARY, .ACOMMON_COMMIT, .ACOMMON_SNAPSHOT, .ACOMMON_SNAPSHOT_ALL]

/-- The fields of page AIDENT (03_ozell_agent.md, R72), in table order. -/
def regsOfAIDENT : List Reg :=
  [.AIDENT_MAKER, .AIDENT_PART_NO, .AIDENT_SERIAL, .AIDENT_FID, .AIDENT_PARTITION_FID, .AIDENT_ALT_FID0, .AIDENT_ALT_FID1, .AIDENT_ALT_FID2, .AIDENT_BOARD_POS, .AIDENT_BOARD_NO]

/-- The fields of page ACONTROL (03_ozell_agent.md, R73), in table order. -/
def regsOfACONTROL : List Reg :=
  [.ACONTROL_HOP_LIMIT, .ACONTROL_LOOSE_DEPTH, .ACONTROL_MARK_THRESH, .ACONTROL_FLOW_TIMEOUT, .ACONTROL_DRAIN_TIMEOUT, .ACONTROL_COMMIT_WAIT, .ACONTROL_RESUME_WAIT, .ACONTROL_CONTROL_TIMEOUT, .ACONTROL_MSG_TIMEOUT, .ACONTROL_MSG_RETRIES, .ACONTROL_TELEM_PERIOD, .ACONTROL_MODE, .ACONTROL_CAUSE, .ACONTROL_FALLBACK_CLEAR, .ACONTROL_BAD_ADDR, .ACONTROL_MALFORMED_PKT, .ACONTROL_HOP_LIMIT_DROPS, .ACONTROL_NO_EXIT, .ACONTROL_NO_ROUTE, .ACONTROL_MALFORMED_MSG, .ACONTROL_FOREIGN_CONTROL, .ACONTROL_MSG_FAILED, .ACONTROL_RESERVED_STATUS, .ACONTROL_DUP_REQUESTS, .ACONTROL_CLAMPS, .ACONTROL_PAIR_FAILS]

/-- The fields of page ABANKS (03_ozell_agent.md, R73), in table order. -/
def regsOfABANKS : List Reg :=
  [.ABANKS_ACTIVE_EPOCH, .ABANKS_SHADOW_EPOCH, .ABANKS_SHADOW_VALID, .ABANKS_SHADOW_COMPLETE, .ABANKS_STATE, .ABANKS_ACTIVE_BANK, .ABANKS_STATIC_IN_USE, .ABANKS_STATIC_LOADING, .ABANKS_STATIC_VALID, .ABANKS_DRAIN_CLASSES, .ABANKS_INFLIGHT, .ABANKS_STATIC_EPOCH, .ABANKS_LAST_DRAIN, .ABANKS_COMMITS, .ABANKS_ROLLBACKS, .ABANKS_ABANDONS, .ABANKS_REFUSALS]

/-- The fields of page AFENCE (03_ozell_agent.md, R74), in table order. -/
def regsOfAFENCE : List Reg :=
  [.AFENCE_FENCE_USED, .AFENCE_VIEW_INDEX, .AFENCE_VIEW_FID, .AFENCE_VIEW_STATE, .AFENCE_VIEW_F, .AFENCE_VIEW_JOB, .AFENCE_FENCED_DROPS, .AFENCE_STALE_DROPS, .AFENCE_MCAST_FENCED_DROPS, .AFENCE_FENCE_REFUSED, .AFENCE_FENCE_STALE, .AFENCE_ADDR_REFUSED]

/-- The fields of page ASLOTS (03_ozell_agent.md, R74), in table order. -/
def regsOfASLOTS : List Reg :=
  [.ASLOTS_WINDOW_FRAME, .ASLOTS_WINDOW_FRAMES, .ASLOTS_CURRENT_VALID, .ASLOTS_NEXT_VALID, .ASLOTS_TEMPLATE_IN_USE, .ASLOTS_TEMPLATE_VALID, .ASLOTS_LIST_GUARD, .ASLOTS_SEQ_LEN, .ASLOTS_SEQ_BASE_FRAME, .ASLOTS_SEQ, .ASLOTS_NEXT_FROM_FRAME, .ASLOTS_NEXT_SEQ_LEN, .ASLOTS_NEXT_SEQ, .ASLOTS_SLOTS_SENT, .ASLOTS_SLOTS_IDLE, .ASLOTS_LISTS_ACCEPTED, .ASLOTS_LISTS_LATE, .ASLOTS_LISTS_REJECTED, .ASLOTS_TEMPLATE_ONLY]

/-- The fields of page AFLOWS (03_ozell_agent.md, R74), in table order. -/
def regsOfAFLOWS : List Reg :=
  [.AFLOWS_FLOW_USED, .AFLOWS_DONE_OK, .AFLOWS_DONE_VIOL, .AFLOWS_DONE_TIMEOUT, .AFLOWS_MALFORMED_FLOW, .AFLOWS_LATE_CHUNK, .AFLOWS_FLOW_FULL]

/-- The fields of page ATIME (03_ozell_agent.md, R74), in table order. -/
def regsOfATIME : List Reg :=
  [.ATIME_NOW, .ATIME_OFFSET, .ATIME_STATE, .ATIME_PARENT_PORT, .ATIME_PATH_DELAY, .ATIME_EXCHANGES, .ATIME_EXCHANGE_FAILS, .ATIME_OUT_OF_BOUND, .ATIME_TIME_STEPS]

/-- The fields of page ALOOSE (03_ozell_agent.md, R74), in table order. -/
def regsOfALOOSE : List Reg :=
  [.ALOOSE_RATE, .ALOOSE_CEILING, .ALOOSE_STEP, .ALOOSE_FLOOR, .ALOOSE_PIN, .ALOOSE_ECHOES_RX, .ALOOSE_ECHOES_TX, .ALOOSE_MARKS_UNECHOED, .ALOOSE_HALVINGS]

/-- The fields of page APORT (03_ozell_agent.md, R75), in table order. -/
def regsOfAPORT : List Reg :=
  [.APORT_UP, .APORT_PARTNER_FID, .APORT_PARTNER_PORT, .APORT_DELAY_NS, .APORT_DELAY_SLOTS, .APORT_IN_FLIGHT, .APORT_TX_POWER, .APORT_RX_POWER, .APORT_TX_PACKETS, .APORT_TX_BYTES, .APORT_RX_PACKETS, .APORT_RX_BYTES, .APORT_DEFLECTIONS, .APORT_DISCARD_FEC, .APORT_DISCARD_AUTH, .APORT_FEC_CORRECTED, .APORT_MARKS, .APORT_VIOLATIONS, .APORT_STALL_SLOTS, .APORT_QDEPTH_MAX, .APORT_QDEPTH_SUM, .APORT_QDEPTH_SLOTS]

/-- The fields of page ALOG (03_ozell_agent.md, R75), in table order. -/
def regsOfALOG : List Reg :=
  [.ALOG_NEXT]

/-- The fields of page ROUTE (05_routes.md, R141), in table order. -/
def regsOfROUTE : List Reg :=
  [.ROUTE_ZONE_EPOCH, .ROUTE_TXN_EPOCH, .ROUTE_TXN_STAGE, .ROUTE_COORDINATED, .ROUTE_AUTO_OPEN, .ROUTE_STATIC_EPOCH, .ROUTE_DRAIN_TIMEOUT, .ROUTE_COMMIT_WAIT, .ROUTE_RESUME_WAIT, .ROUTE_DRAIN_CLASSES, .ROUTE_AUTO, .ROUTE_STATIC_AUTO, .ROUTE_AUTO_DELAY, .ROUTE_ROUTE_GROUPS, .ROUTE_Q_BASE, .ROUTE_Q_LOG2, .ROUTE_Q_HEAD, .ROUTE_Q_TAIL, .ROUTE_CQ_BASE, .ROUTE_CQ_LOG2, .ROUTE_CQ_TAIL, .ROUTE_CQ_HEAD, .ROUTE_Q_ENABLE, .ROUTE_Q_IDLE, .ROUTE_LAST_TXN_TICKS, .ROUTE_LAST_GEN_TICKS, .ROUTE_LAST_STALL_TICKS, .ROUTE_LAST_CHUNKS, .ROUTE_TXN_COMPLETED, .ROUTE_TXN_ABANDONED, .ROUTE_TXN_FORWARD, .ROUTE_AGENT_ROLLBACKS, .ROUTE_DRAIN_TIMEOUTS, .ROUTE_PREPARE_RESENDS, .ROUTE_GEN_RESTARTS, .ROUTE_AGENTS_UNRESOLVED, .ROUTE_AUTO_TXNS]

/-- The fields of page SCHED (07_slot_scheduling.md, R204), in table order. -/
def regsOfSCHED : List Reg :=
  [.SCHED_ENGINES_WORKING, .SCHED_SPEC_DEFAULT, .SCHED_ORDERED_DEFAULT, .SCHED_SPILL_DEFAULT, .SCHED_LIST_LEAD, .SCHED_DELIVERY_ALLOW, .SCHED_ORDERED_ALLOW, .SCHED_XPLACE_MARGIN, .SCHED_XMAP_LIMIT, .SCHED_QUANTUM, .SCHED_Q_BASE, .SCHED_Q_LOG2, .SCHED_Q_HEAD, .SCHED_Q_TAIL, .SCHED_CQ_BASE, .SCHED_CQ_LOG2, .SCHED_CQ_TAIL, .SCHED_CQ_HEAD, .SCHED_Q_ENABLE, .SCHED_Q_IDLE, .SCHED_LAST_PLACE_TICKS, .SCHED_LAST_ENGINE_TICKS, .SCHED_LAST_WINDOW, .SCHED_VECTORS_RX, .SCHED_VECTORS_BAD, .SCHED_VECTORS_LATE, .SCHED_VECTORS_MISSING, .SCHED_ENTRIES_FENCED, .SCHED_ITEMS_KEPT, .SCHED_ITEMS_REPLACED, .SCHED_ITEMS_NEW, .SCHED_ITEMS_RELEASED, .SCHED_CLAIM_ATTEMPTS, .SCHED_CLAIMS, .SCHED_CLAIM_FAILS, .SCHED_RUNS, .SCHED_CHUNKS_PLACED, .SCHED_SPILL_NEXT, .SCHED_SPILL_LOOSE, .SCHED_STEAL_ATTEMPTS, .SCHED_STEALS, .SCHED_OVERFLOW_UNITS, .SCHED_PARITY_ERRORS, .SCHED_SEAL_FAILS, .SCHED_LISTS_SENT, .SCHED_LISTS_WITHHELD, .SCHED_LISTS_RESENT, .SCHED_XITEMS_SENT, .SCHED_XITEMS_PLACED, .SCHED_XITEMS_LATE, .SCHED_STATIC_DISPLACED, .SCHED_DEGRADED_ITEMS, .SCHED_WINDOWS]

/-- The fields of page MIOBOR (08_miobor_arithmetic.md, R236), in table order. -/
def regsOfMIOBOR : List Reg :=
  [.MIOBOR_STATE, .MIOBOR_CURRENT_CTX, .MIOBOR_QUEUED, .MIOBOR_QUANTUM, .MIOBOR_STOCH_ALLOW, .MIOBOR_LAST_FAIL_TILE, .MIOBOR_LAST_FAIL_TAG, .MIOBOR_LAST_CMD_CYCLES, .MIOBOR_TTAB_FIRST_TILE, .MIOBOR_TTAB_TILES, .MIOBOR_TTAB_VALID, .MIOBOR_TTAB_GEN, .MIOBOR_COMMANDS, .MIOBOR_CMD_FAILED, .MIOBOR_MAC_INT4, .MIOBOR_MAC_INT8, .MIOBOR_MAC_E4M3, .MIOBOR_MAC_E5M2, .MIOBOR_MAC_BF16, .MIOBOR_MAC24_INT4, .MIOBOR_MAC24_INT8, .MIOBOR_MAC24_E4M3, .MIOBOR_MAC24_E5M2, .MIOBOR_MAC24_BF16, .MIOBOR_BLOCKS_SKIPPED, .MIOBOR_VEC_OPS, .MIOBOR_ROWS_SKIPPED, .MIOBOR_TILES_READ, .MIOBOR_TILES_WRITTEN, .MIOBOR_TILE_FAILS, .MIOBOR_SAT_EVENTS, .MIOBOR_NAN_TO_INT, .MIOBOR_INDEX_OOR, .MIOBOR_GATE_ASSIGNED, .MIOBOR_GATE_DROPPED, .MIOBOR_BUSY_CYCLES, .MIOBOR_HELD_CYCLES, .MIOBOR_CTX_SWITCHES]

/-- The fields of page LEARN (09_learned_policies.md, R257), in table order. -/
def regsOfLEARN : List Reg :=
  [.LEARN_FC_LEAD, .LEARN_SPEC_MARGIN, .LEARN_HIT_LOW, .LEARN_HIT_HIGH, .LEARN_CONF_STEP_UP, .LEARN_CONF_STEP_DOWN, .LEARN_LH_PERIOD, .LEARN_LH_THRESH, .LEARN_LH_CLEAR, .LEARN_LH_PERSIST, .LEARN_LH_ACTION, .LEARN_LH_MAX_DISABLED, .LEARN_LH_MODEL_VER, .LEARN_ANALYSE_JOB, .LEARN_ANALYSE_REQ, .LEARN_ANALYSING, .LEARN_JOB, .LEARN_CONF_NOW, .LEARN_PIN, .LEARN_CONF_FLOOR, .LEARN_CONF_CEIL, .LEARN_LAST_HIT, .LEARN_HIST_FILLED, .LEARN_FC_STARTED, .LEARN_FC_PUBLISHED, .LEARN_FC_LATE, .LEARN_FC_FAILED, .LEARN_FC_ENTRIES_DROPPED, .LEARN_FC_SOURCES_BELOW, .LEARN_FC_SOURCES_PREEMPTED, .LEARN_HIST_TRUNCATED, .LEARN_CONF_CHANGES, .LEARN_ANALYSES, .LEARN_ANALYSES_FAILED, .LEARN_ANALYSES_REFUSED, .LEARN_ADVICE_ISSUED, .LEARN_ADVICE_APPLIED, .LEARN_ADVICE_WITHDRAWN, .LEARN_LH_EVALS, .LEARN_LH_FLAGS_SET, .LEARN_LH_FLAGS_CLEARED, .LEARN_LH_DISABLES, .LEARN_CLAMPS]

/-- The fields of page IMAGE (10_tiroil_images.md, R281), in table order. -/
def regsOfIMAGE : List Reg :=
  [.IMAGE_LAST_IMAGE_ID, .IMAGE_LAST_IMAGE_VER, .IMAGE_LAST_STATUS, .IMAGE_LAST_CTX, .IMAGE_LAST_FAIL_SECTION, .IMAGE_LAST_FAIL_CHECK, .IMAGE_LOAD_BW, .IMAGE_LAST_LOAD_TICKS, .IMAGE_LOADS, .IMAGE_LOAD_FAILED, .IMAGE_AUTH_FAILS, .IMAGE_SECTIONS_INSTALLED, .IMAGE_SECTIONS_REPLACED, .IMAGE_TEMPLATES_REFUSED, .IMAGE_UNLISTED_IDS, .IMAGE_BYTES_FETCHED]

/-- The fields of page FAIL (11_failure_response.md, R305), in table order. -/
def regsOfFAIL : List Reg :=
  [.FAIL_FENCE_AUTO, .FAIL_PEER_NOTICE, .FAIL_DEGRADE_CEILING, .FAIL_SILENT_PERIODS, .FAIL_VIOL_THRESH, .FAIL_FENCE_BATCH, .FAIL_FENCES_HELD, .FAIL_LAST_NOTICE_TICKS, .FAIL_LAST_FENCE_TICKS, .FAIL_DETECTIONS, .FAIL_PEER_RESETS, .FAIL_NOTICE_UNICASTS, .FAIL_FENCES_ISSUED, .FAIL_FENCE_BATCHES, .FAIL_FENCE_RETRIES, .FAIL_FENCE_REFUSED, .FAIL_UNFENCES, .FAIL_VIOLATIONS_RX, .FAIL_VIOL_BLOCKS, .FAIL_CEILING_CHANGES, .FAIL_RESYNCS, .FAIL_CLAMPS]

/-- The fields of page CONTEXT (12_contexts_security.md, R332), in table order. -/
def regsOfCONTEXT : List Reg :=
  [.CONTEXT_VIEW_CTX, .CONTEXT_VIEW_STATE, .CONTEXT_VIEW_STAGE, .CONTEXT_VIEW_CONF, .CONTEXT_VIEW_RESIDENT, .CONTEXT_VIEW_GEN, .CONTEXT_VIEW_KEY_GEN, .CONTEXT_CONF_RESIDENT, .CONTEXT_COARSE, .CONTEXT_DEBUG_LOCK, .CONTEXT_FW_VER, .CONTEXT_ROM_VER, .CONTEXT_IDENTITY_OK, .CONTEXT_Q_BASE, .CONTEXT_Q_LOG2, .CONTEXT_Q_HEAD, .CONTEXT_Q_TAIL, .CONTEXT_CQ_BASE, .CONTEXT_CQ_LOG2, .CONTEXT_CQ_TAIL, .CONTEXT_CQ_HEAD, .CONTEXT_Q_ENABLE, .CONTEXT_Q_IDLE, .CONTEXT_CREATES, .CONTEXT_TEARDOWNS, .CONTEXT_KEY_IMPORTS, .CONTEXT_KEY_FAILS, .CONTEXT_APERTURE_DENIED, .CONTEXT_IDE_REJECTS, .CONTEXT_SCRUB_BYTES, .CONTEXT_SPDM_REQUESTS]

/-- The fields of page LINKSEC (12_contexts_security.md, R333), in table order. -/
def regsOfLINKSEC : List Reg :=
  [.LINKSEC_KEYED, .LINKSEC_GEN_PARITY, .LINKSEC_REKEY_LOG2, .LINKSEC_TX_COUNTER, .LINKSEC_RX_COUNTER, .LINKSEC_REVOKED_MASK, .LINKSEC_HANDSHAKES, .LINKSEC_HANDSHAKE_FAILS, .LINKSEC_REKEYS, .LINKSEC_AUTH_DROPS, .LINKSEC_REPLAY_DROPS, .LINKSEC_SLOT_MISMATCH, .LINKSEC_REVOKED_FRAMES]

/-- The fields of page COMMON (13_host_registers_queues.md, R344), in table order. -/
def regsOfCOMMON : List Reg :=
  [.COMMON_BLOCK, .COMMON_INSTANCE, .COMMON_PAGE_VER, .COMMON_CAP, .COMMON_CTRL, .COMMON_VIEW_PENDING, .COMMON_STATUS, .COMMON_INT_STATUS, .COMMON_CQ_WRITTEN, .COMMON_INT_ENABLE, .COMMON_BOUNDARY, .COMMON_STEP_JOB, .COMMON_PENDING, .COMMON_COMMIT, .COMMON_SNAPSHOT]

/-- The fields of page CTXQ (13_host_registers_queues.md, R354), in table order. -/
def regsOfCTXQ : List Reg :=
  [.CTXQ_RESIDENT, .CTXQ_CONFIDENTIAL, .CTXQ_STAGE, .CTXQ_Q_BASE, .CTXQ_Q_LOG2, .CTXQ_Q_HEAD, .CTXQ_Q_TAIL, .CTXQ_CQ_BASE, .CTXQ_CQ_LOG2, .CTXQ_CQ_TAIL, .CTXQ_CQ_HEAD, .CTXQ_Q_ENABLE, .CTXQ_Q_IDLE, .CTXQ_Q_WINDOW, .CTXQ_DEFAULT_TIMEOUT, .CTXQ_M_Q_BASE, .CTXQ_M_Q_LOG2, .CTXQ_M_Q_HEAD, .CTXQ_M_Q_TAIL, .CTXQ_M_CQ_BASE, .CTXQ_M_CQ_LOG2, .CTXQ_M_CQ_TAIL, .CTXQ_M_CQ_HEAD, .CTXQ_M_Q_ENABLE, .CTXQ_M_Q_IDLE, .CTXQ_M_Q_WINDOW, .CTXQ_M_DEFAULT_TIMEOUT, .CTXQ_CTX_INT_STATUS, .CTXQ_CTX_INT_ENABLE, .CTXQ_COMPUTE_DONE, .CTXQ_MULE_DONE, .CTXQ_CMD_TIMEOUTS]

/-- The fields of page DEVICE (13_host_registers_queues.md, R359), in table order. -/
def regsOfDEVICE : List Reg :=
  [.DEVICE_HOST_CFG, .DEVICE_BOOT_SRC, .DEVICE_OWNER, .DEVICE_DEVICE_PORT, .DEVICE_ACTIVE_PORT, .DEVICE_ROLE, .DEVICE_CLUSTER_INDEX, .DEVICE_LEAD, .DEVICE_IN_SERVICE, .DEVICE_STEPPING, .DEVICE_HB_TIMEOUT, .DEVICE_TAKEOVER_AUTO, .DEVICE_OWNER_REFUSED, .DEVICE_FAILOVERS]

/-- The fields of page HOSTPORT (13_host_registers_queues.md, R360), in table order. -/
def regsOfHOSTPORT : List Reg :=
  [.HOSTPORT_LINK_UP, .HOSTPORT_LINK_SPEED, .HOSTPORT_LINK_WIDTH, .HOSTPORT_PORT_ROLE, .HOSTPORT_HEARTBEAT, .HOSTPORT_TAKEOVER, .HOSTPORT_PAIR_FAILS, .HOSTPORT_UNOWNED_ACCESS, .HOSTPORT_READ_TIMEOUTS, .HOSTPORT_CQ_LOST, .HOSTPORT_PERST_EVENTS, .HOSTPORT_MSIX_SENT]

/-- The fields of page RING (13_host_registers_queues.md, R361), in table order. -/
def regsOfRING : List Reg :=
  [.RING_BYPASS, .RING_MISROUTED, .RING_BYPASS_READS, .RING_BYPASS_WRITES]

/-- The fields of page CORES (14_cores_memory_movers.md, R378), in table order. -/
def regsOfCORES : List Reg :=
  [.CORES_STATE, .CORES_RUN_CTX, .CORES_USER_QUANTUM, .CORES_CTL_CTX, .CORES_CTL_CORES, .CORES_CTL_OP, .CORES_PROG_STATE, .CORES_LAST_FAULT_CTX, .CORES_LAST_FAULT_CORE, .CORES_LAST_FAULT_CAUSE, .CORES_LAST_FAULT_PC, .CORES_LAST_FAULT_TVAL, .CORES_PROG_STARTS, .CORES_PROG_FAULTS, .CORES_CTX_SWITCHES, .CORES_ISSUES, .CORES_ISSUE_REFUSED, .CORES_CACHE_PARITY]

/-- The fields of page MEMORY (14_cores_memory_movers.md, R379), in table order. -/
def regsOfMEMORY : List Reg :=
  [.MEMORY_SRAM_FREE, .MEMORY_LPDDR_FREE, .MEMORY_DEVICE_SRAM, .MEMORY_APERTURE_BASE, .MEMORY_VIEW_CTX, .MEMORY_SRAM_FIRST, .MEMORY_SRAM_TILES, .MEMORY_LPDDR_FIRST, .MEMORY_LPDDR_TILES, .MEMORY_TILE_RELOADS, .MEMORY_TILE_UNREPAIRED, .MEMORY_LPDDR_CORRECTED, .MEMORY_LPDDR_UNCORRECTED, .MEMORY_HEADER_PARITY, .MEMORY_APERTURE_WRITES_DROPPED]

/-- The fields of page MULE (14_cores_memory_movers.md, R380), in table order. -/
def regsOfMULE : List Reg :=
  [.MULE_BUSY, .MULE_HOST_LIMIT, .MULE_COMMANDS, .MULE_CMD_FAILED, .MULE_TILES_MOVED, .MULE_HOST_BYTES_READ, .MULE_HOST_BYTES_WRITTEN, .MULE_CHECK_FAILS, .MULE_REVOKED_ABORTS]

/-- The fields of page TIME (15_time_trace_counters.md, R404), in table order. -/
def regsOfTIME : List Reg :=
  [.TIME_NOW, .TIME_STATE, .TIME_MASTER, .TIME_PARENT, .TIME_NO_PARENT, .TIME_LEG_PARTITION, .TIME_OFFSET, .TIME_RATE_ADJ, .TIME_LAST_STEP, .TIME_SET_TIME_LO, .TIME_SET_TIME_HI, .TIME_SET_AT_PPS, .TIME_PPS_IN_EN, .TIME_PPS_OUT_EN, .TIME_PPS_ERR, .TIME_LEG_SETS, .TIME_LEG_FAILS, .TIME_OUT_OF_BOUND, .TIME_TIME_STEPS, .TIME_PPS_EDGES, .TIME_PPS_MISSED]

/-- The fields of page COUNTERS (15_time_trace_counters.md, R405), in table order. -/
def regsOfCOUNTERS : List Reg :=
  [.COUNTERS_SNAP_TIME_LO, .COUNTERS_SNAP_TIME_HI, .COUNTERS_SNAP_ARM, .COUNTERS_SNAP_NOW, .COUNTERS_SNAP_STATE, .COUNTERS_SNAP_MISSED, .COUNTERS_SNAP_SEQ, .COUNTERS_SNAP_AT, .COUNTERS_SNAPSHOTS, .COUNTERS_SNAPSHOTS_MISSED]

/-- The fields of page TRACE (15_time_trace_counters.md, R406), in table order. -/
def regsOfTRACE : List Reg :=
  [.TRACE_TRACE_MODE, .TRACE_CAPTURE, .TRACE_TRIG_POS, .TRACE_FW_TRACE, .TRACE_NATIVE_SHARE, .TRACE_SPILL_MIB, .TRACE_TRACE_BW, .TRACE_ARM, .TRACE_STOP, .TRACE_TRIG_NOW, .TRACE_TRIG_SRC, .TRACE_TRIG_CODE, .TRACE_TRIG_JOB, .TRACE_TRIG_LAYER, .TRACE_TRIG_OPERATOR, .TRACE_TRIG_TIME_LO, .TRACE_TRIG_TIME_HI, .TRACE_STATE, .TRACE_TRIG_AT, .TRACE_NAT_FIRST, .TRACE_NAT_NEXT, .TRACE_CMP_FIRST, .TRACE_CMP_NEXT, .TRACE_SPILL_BASE, .TRACE_RD_ADDR, .TRACE_RD_DATA, .TRACE_MSGLOG_ADDR, .TRACE_MSGLOG_NEXT, .TRACE_RECORDS, .TRACE_NATIVE_BYTES, .TRACE_DROPPED_RECORDS, .TRACE_DROP_MARKERS, .TRACE_TRIGGERS, .TRACE_TRIGGERS_IGNORED, .TRACE_GAP_RECORDS, .TRACE_SPILL_BYTES, .TRACE_CLAMPS]

/-- The fields of page PCOUNTERS (15_time_trace_counters.md, R407), in table order. -/
def regsOfPCOUNTERS : List Reg :=
  [.PCOUNTERS_F_JOB, .PCOUNTERS_M_JOB, .PCOUNTERS_F_LAYER, .PCOUNTERS_M_LAYER, .PCOUNTERS_F_OPERATOR, .PCOUNTERS_M_OPERATOR, .PCOUNTERS_F_CTX, .PCOUNTERS_EN, .PCOUNTERS_EV, .PCOUNTERS_COUNT]

/-- The fields of page PARTITION (16_hangs_resets_recorder.md, R437), in table order. -/
def regsOfPARTITION : List Reg :=
  [.PARTITION_DEGRADED, .PARTITION_ENGINES_VACANT, .PARTITION_SPARES, .PARTITION_CORES_VACANT, .PARTITION_MIOBOR_VACANT, .PARTITION_MULES_VACANT, .PARTITION_BANKS_VACANT, .PARTITION_GROUP_RESET, .PARTITION_CORE_RESET, .PARTITION_MIOBOR_RESET, .PARTITION_LAST_CAUSE, .PARTITION_LAST_RESET_AT, .PARTITION_LAST_RESET_TICKS, .PARTITION_GROUP_RESETS, .PARTITION_CORE_RESETS, .PARTITION_MIOBOR_RESETS, .PARTITION_ABSORBED, .PARTITION_REMAPS, .PARTITION_VACANCIES, .PARTITION_WATCHDOGS]

/-- The fields of page GOOSE (16_hangs_resets_recorder.md, R438), in table order. -/
def regsOfGOOSE : List Reg :=
  [.GOOSE_CONFIRM, .GOOSE_STALL, .GOOSE_AUTO_BREAK, .GOOSE_VIEW_NODE, .GOOSE_VIEW_WAIT, .GOOSE_VIEW_TARGET, .GOOSE_VIEW_TAG, .GOOSE_VIEW_STUCK, .GOOSE_LAST_CYCLE_AT, .GOOSE_LAST_VICTIM, .GOOSE_LAST_VICTIM_TAG, .GOOSE_SCANS, .GOOSE_LOCAL_CYCLES, .GOOSE_PROBES, .GOOSE_DIST_CYCLES, .GOOSE_VICTIMS, .GOOSE_STALLS, .GOOSE_GOOSE_RESETS]

/-- The fields of page RESET (16_hangs_resets_recorder.md, R439), in table order. -/
def regsOfRESET : List Reg :=
  [.RESET_PART_STATE, .RESET_STAGE, .RESET_FAULTS_10MIN, .RESET_DEVICE_STATE, .RESET_FAULT, .RESET_FAULTS_60MIN, .RESET_LAST_DEVICE_CAUSE, .RESET_LAST_DEVICE_RESET_AT, .RESET_PART_RESET, .RESET_PART_REINSTATE, .RESET_DEVICE_RESET, .RESET_DEVICE_REINSTATE, .RESET_PART_RESETS_FAULT, .RESET_PART_RESETS_HOST, .RESET_DEVICE_RESETS_FAULT, .RESET_DEVICE_RESETS_HOST, .RESET_PART_OOS, .RESET_REINSTATE_REFUSED, .RESET_G9_STATE_RX]

/-- The fields of page HEN (16_hangs_resets_recorder.md, R440), in table order. -/
def regsOfHEN : List Reg :=
  [.HEN_NEXT, .HEN_OLDEST, .HEN_KEPT_USED, .HEN_FLUSHING, .HEN_LAST_REASON, .HEN_LAST_DEST, .HEN_LAST_DONE, .HEN_HOST_BUF_ADDR, .HEN_HOST_BUF_LEN, .HEN_FLUSH_NOW, .HEN_MRAM_COPY, .HEN_CLEAR, .HEN_FLOOD_WINDOW, .HEN_FLUSH_ON_PARTITION, .HEN_LAST_FLUSH_TICKS, .HEN_FLUSH_SEQ, .HEN_NOTE_P, .HEN_NOTE, .HEN_RD_ADDR, .HEN_RD_DATA, .HEN_RECORDS_FIXED, .HEN_RECORDS_VAR, .HEN_REPEATS, .HEN_LOST, .HEN_LOST_FLUSH, .HEN_FLUSHES, .HEN_FLUSH_BYTES, .HEN_MRAM_TRUNCATED, .HEN_DOSSIERS, .HEN_DOSSIERS_TRUNCATED]

/-- The fields of page LOOPS (17_mode_combinations.md, R449), in table order. -/
def regsOfLOOPS : List Reg :=
  [.LOOPS_DVFS_FLOOR, .LOOPS_DVFS_CEIL, .LOOPS_DVFS_PIN, .LOOPS_APPLIED_MHZ, .LOOPS_LIMIT_CAUSE, .LOOPS_SPAN_FLOOR, .LOOPS_SPAN_CEIL, .LOOPS_SPAN_PIN, .LOOPS_LEND_FLOOR, .LOOPS_LEND_PIN, .LOOPS_OVERRIDDEN, .LOOPS_SPAN_NOW, .LOOPS_LENT_NOW, .LOOPS_CLAMPS, .LOOPS_PROTECT_OVERRIDES, .LOOPS_DVFS_CHANGES, .LOOPS_SPAN_CHANGES, .LOOPS_LEND_CHANGES]

/-- The fields of page POWER (18_bringup_power_pins.md, R475), in table order. -/
def regsOfPOWER : List Reg :=
  [.POWER_STAGE, .POWER_SAG_MV, .POWER_SETPOINT_MV, .POWER_RAIL_MV, .POWER_RAIL_CURRENT, .POWER_POWER_W, .POWER_POWER_LIMIT, .POWER_PF_WARN, .POWER_PF_HOLD, .POWER_STAGE_ENTRIES, .POWER_PF_WARNS, .POWER_SEQ_FAULTS, .POWER_AVS_FAILS, .POWER_RAIL_UV]

/-- The fields of page THERMAL (18_bringup_power_pins.md, R476), in table order. -/
def regsOfTHERMAL : List Reg :=
  [.THERMAL_TJ, .THERMAL_SENSORS_GOOD, .THERMAL_THROTTLED, .THERMAL_TRIPPED, .THERMAL_THROTTLE_C, .THERMAL_THROTTLES, .THERMAL_TRIPS, .THERMAL_SENSOR_BAD]

/-- The fields of page BOOT (18_bringup_power_pins.md, R477), in table order. -/
def regsOfBOOT : List Reg :=
  [.BOOT_PATH, .BOOT_BOOT_STAGE, .BOOT_BLOB_VALID, .BOOT_BLOB_DEFAULTED, .BOOT_STATE_VALID, .BOOT_FW_FROM_MRAM, .BOOT_FW_WAITING, .BOOT_SRIS_A, .BOOT_SRIS_B, .BOOT_LAST_BOOT_TICKS, .BOOT_FW_ADDR, .BOOT_FW_LEN, .BOOT_FW_GO, .BOOT_BLOB_ADDR, .BOOT_BLOB_LEN, .BOOT_BLOB_WRITE, .BOOT_BLOB_STATUS, .BOOT_FW_REJECTS, .BOOT_XSPI_RETRIES, .BOOT_XSPI_FAILS, .BOOT_SMB_ERRORS, .BOOT_STRAP_CHANGES, .BOOT_PPS_REJECTED, .BOOT_TIME_REF_LOSSES]

/-- The fields of page ENGINES (18_bringup_power_pins.md, R478), in table order. -/
def regsOfENGINES : List Reg :=
  [.ENGINES_PHYS_OK, .ENGINES_VIEW_LOGICAL, .ENGINES_VIEW_PHYSICAL, .ENGINES_LAST_BIST_AT, .ENGINES_BIST_RUNS, .ENGINES_BIST_ENGINE_FAILS, .ENGINES_BIST_ABANDONED]

/-- The fields of a page. -/
def Page.regs : Page → List Reg
  | .ACOMMON => regsOfACOMMON
  | .AIDENT => regsOfAIDENT
  | .ACONTROL => regsOfACONTROL
  | .ABANKS => regsOfABANKS
  | .AFENCE => regsOfAFENCE
  | .ASLOTS => regsOfASLOTS
  | .AFLOWS => regsOfAFLOWS
  | .ATIME => regsOfATIME
  | .ALOOSE => regsOfALOOSE
  | .APORT => regsOfAPORT
  | .ALOG => regsOfALOG
  | .ROUTE => regsOfROUTE
  | .SCHED => regsOfSCHED
  | .MIOBOR => regsOfMIOBOR
  | .LEARN => regsOfLEARN
  | .IMAGE => regsOfIMAGE
  | .FAIL => regsOfFAIL
  | .CONTEXT => regsOfCONTEXT
  | .LINKSEC => regsOfLINKSEC
  | .COMMON => regsOfCOMMON
  | .CTXQ => regsOfCTXQ
  | .DEVICE => regsOfDEVICE
  | .HOSTPORT => regsOfHOSTPORT
  | .RING => regsOfRING
  | .CORES => regsOfCORES
  | .MEMORY => regsOfMEMORY
  | .MULE => regsOfMULE
  | .TIME => regsOfTIME
  | .COUNTERS => regsOfCOUNTERS
  | .TRACE => regsOfTRACE
  | .PCOUNTERS => regsOfPCOUNTERS
  | .PARTITION => regsOfPARTITION
  | .GOOSE => regsOfGOOSE
  | .RESET => regsOfRESET
  | .HEN => regsOfHEN
  | .LOOPS => regsOfLOOPS
  | .POWER => regsOfPOWER
  | .THERMAL => regsOfTHERMAL
  | .BOOT => regsOfBOOT
  | .ENGINES => regsOfENGINES

/-- The row of each field. -/
def Reg.desc : Reg → RegDesc
  | .ACOMMON_BLOCK => ⟨.ACOMMON, 0x0, 15, 0, .ro, .write, 0, 0, 65535, 0, 1, 0, false⟩
  | .ACOMMON_INSTANCE => ⟨.ACOMMON, 0x0, 31, 16, .ro, .write, 0, 0, 65535, 0, 1, 0, false⟩
  | .ACOMMON_PAGE_VER => ⟨.ACOMMON, 0x4, 31, 0, .ro, .write, 131072, 0, 4294967295, 0, 1, 0, false⟩
  | .ACOMMON_PROFILE => ⟨.ACOMMON, 0x8, 1, 0, .ro, .write, 0, 0, 3, 0, 1, 0, false⟩
  | .ACOMMON_PORTS => ⟨.ACOMMON, 0x8, 11, 2, .ro, .write, 0, 0, 1023, 0, 1, 0, false⟩
  | .ACOMMON_FLOW_LOG2 => ⟨.ACOMMON, 0x8, 16, 12, .ro, .write, 0, 0, 31, 0, 1, 0, false⟩
  | .ACOMMON_STATUS => ⟨.ACOMMON, 0x14, 31, 0, .ro, .write, 0, 0, 4294967295, 0, 1, 0, false⟩
  | .ACOMMON_INT_STATUS => ⟨.ACOMMON, 0x18, 15, 0, .w1c, .write, 0, 0, 65535, 0, 1, 0, false⟩
  | .ACOMMON_INT_ENABLE => ⟨.ACOMMON, 0x1C, 15, 0, .rw, .write, 4095, 0, 65535, 0, 1, 0, false⟩
  | .ACOMMON_BOUNDARY => ⟨.ACOMMON, 0x20, 1, 0, .rw, .write, 0, 0, 3, 0, 1, 0, false⟩
  | .ACOMMON_COMMIT => ⟨.ACOMMON, 0x20, 31, 31, .wo, .write, 0, 0, 1, 0, 1, 0, false⟩
  | .ACOMMON_SNAPSHOT => ⟨.ACOMMON, 0x24, 0, 0, .wo, .write, 0, 0, 1, 0, 1, 0, false⟩
  | .ACOMMON_SNAPSHOT_ALL => ⟨.ACOMMON, 0x24, 1, 1, .wo, .write, 0, 0, 1, 0, 1, 0, false⟩
  | .AIDENT_MAKER => ⟨.AIDENT, 0x100, 15, 0, .ro, .write, 0, 0, 65535, 0, 1, 0, false⟩
  | .AIDENT_PART_NO => ⟨.AIDENT, 0x104, 31, 0, .ro, .write, 0, 0, 4294967295, 0, 1, 0, false⟩
  | .AIDENT_SERIAL => ⟨.AIDENT, 0x108, 63, 0, .ro, .write, 0, 0, 18446744073709551615, 0, 1, 0, false⟩
  | .AIDENT_FID => ⟨.AIDENT, 0x110, 19, 0, .rwp, .commit, 1048575, 0, 1048575, 0, 1, 0, false⟩
  | .AIDENT_PARTITION_FID => ⟨.AIDENT, 0x114, 19, 0, .rwp, .commit, 1048575, 0, 1048575, 0, 1, 0, false⟩
  | .AIDENT_ALT_FID0 => ⟨.AIDENT, 0x118, 19, 0, .rwp, .commit, 1048575, 0, 1048575, 0, 1, 0, false⟩
  | .AIDENT_ALT_FID1 => ⟨.AIDENT, 0x11C, 19, 0, .rwp, .commit, 1048575, 0, 1048575, 0, 1, 0, false⟩
  | .AIDENT_ALT_FID2 => ⟨.AIDENT, 0x120, 19, 0, .rwp, .commit, 1048575, 0, 1048575, 0, 1, 0, false⟩
  | .AIDENT_BOARD_POS => ⟨.AIDENT, 0x124, 2, 0, .rwp, .commit, 0, 0, 7, 0, 1, 0, false⟩
  | .AIDENT_BOARD_NO => ⟨.AIDENT, 0x124, 17, 3, .rwp, .commit, 0, 0, 32767, 0, 1, 0, false⟩
  | .ACONTROL_HOP_LIMIT => ⟨.ACONTROL, 0x100, 5, 0, .rwb, .selected, 16, 4, 63, 0, 1, 0, false⟩
  | .ACONTROL_LOOSE_DEPTH => ⟨.ACONTROL, 0x104, 6, 0, .rwb, .selected, 32, 8, 64, 0, 1, 0, false⟩
  | .ACONTROL_MARK_THRESH => ⟨.ACONTROL, 0x104, 14, 8, .rwb, .selected, 8, 1, 64, 0, 1, 0, false⟩
  | .ACONTROL_FLOW_TIMEOUT => ⟨.ACONTROL, 0x108, 7, 0, .rwb, .selected, 4, 1, 255, 0, 1, 0, false⟩
  | .ACONTROL_DRAIN_TIMEOUT => ⟨.ACONTROL, 0x10C, 15, 0, .rwb, .selected, 1000, 10, 65535, 0, 1, 0, false⟩
  | .ACONTROL_COMMIT_WAIT => ⟨.ACONTROL, 0x110, 15, 0, .rwb, .selected, 50, 1, 1000, 0, 1, 0, false⟩
  | .ACONTROL_RESUME_WAIT => ⟨.ACONTROL, 0x114, 15, 0, .rwb, .selected, 50, 1, 1000, 0, 1, 0, false⟩
  | .ACONTROL_CONTROL_TIMEOUT => ⟨.ACONTROL, 0x118, 15, 0, .rwb, .selected, 1000, 500, 65535, 0, 1, 0, false⟩
  | .ACONTROL_MSG_TIMEOUT => ⟨.ACONTROL, 0x11C, 15, 0, .rwb, .selected, 20, 5, 1000, 0, 1, 0, false⟩
  | .ACONTROL_MSG_RETRIES => ⟨.ACONTROL, 0x11C, 19, 16, .rwb, .selected, 3, 0, 15, 0, 1, 0, false⟩
  | .ACONTROL_TELEM_PERIOD => ⟨.ACONTROL, 0x120, 15, 0, .rwb, .selected, 1000, 100, 65535, 0, 1, 0, false⟩
  | .ACONTROL_MODE => ⟨.ACONTROL, 0x124, 1, 0, .ro, .write, 0, 0, 3, 0, 1, 0, false⟩
  | .ACONTROL_CAUSE => ⟨.ACONTROL, 0x124, 7, 4, .ro, .write, 0, 0, 15, 0, 1, 0, false⟩
  | .ACONTROL_FALLBACK_CLEAR => ⟨.ACONTROL, 0x128, 0, 0, .wo, .write, 0, 0, 1, 0, 1, 0, false⟩
  | .ACONTROL_BAD_ADDR => ⟨.ACONTROL, 0x200, 63, 0, .rw, .write, 0, 0, 18446744073709551615, 0, 1, 0, true⟩
  | .ACONTROL_MALFORMED_PKT => ⟨.ACONTROL, 0x208, 63, 0, .rw, .write, 0, 0, 18446744073709551615, 0, 1, 0, true⟩
  | .ACONTROL_HOP_LIMIT_DROPS => ⟨.ACONTROL, 0x210, 63, 0, .rw, .write, 0, 0, 18446744073709551615, 0, 1, 0, true⟩
  | .ACONTROL_NO_EXIT => ⟨.ACONTROL, 0x218, 63, 0, .rw, .write, 0, 0, 18446744073709551615, 0, 1, 0, true⟩
  | .ACONTROL_NO_ROUTE => ⟨.ACONTROL, 0x220, 63, 0, .rw, .write, 0, 0, 18446744073709551615, 0, 1, 0, true⟩
  | .ACONTROL_MALFORMED_MSG => ⟨.ACONTROL, 0x228, 63, 0, .rw, .write, 0, 0, 18446744073709551615, 0, 1, 0, true⟩
  | .ACONTROL_FOREIGN_CONTROL => ⟨.ACONTROL, 0x230, 63, 0, .rw, .write, 0, 0, 18446744073709551615, 0, 1, 0, true⟩
  | .ACONTROL_MSG_FAILED => ⟨.ACONTROL, 0x238, 63, 0, .rw, .write, 0, 0, 18446744073709551615, 0, 1, 0, true⟩
  | .ACONTROL_RESERVED_STATUS => ⟨.ACONTROL, 0x240, 63, 0, .rw, .write, 0, 0, 18446744073709551615, 0, 1, 0, true⟩
  | .ACONTROL_DUP_REQUESTS => ⟨.ACONTROL, 0x248, 63, 0, .rw, .write, 0, 0, 18446744073709551615, 0, 1, 0, true⟩
  | .ACONTROL_CLAMPS => ⟨.ACONTROL, 0x250, 63, 0, .rw, .write, 0, 0, 18446744073709551615, 0, 1, 0, true⟩
  | .ACONTROL_PAIR_FAILS => ⟨.ACONTROL, 0x258, 63, 0, .rw, .write, 0, 0, 18446744073709551615, 0, 1, 0, true⟩
  | .ABANKS_ACTIVE_EPOCH => ⟨.ABANKS, 0x100, 15, 0, .ro, .write, 0, 0, 65535, 0, 1, 0, false⟩
  | .ABANKS_SHADOW_EPOCH => ⟨.ABANKS, 0x104, 15, 0, .ro, .write, 0, 0, 65535, 0, 1, 0, false⟩
  | .ABANKS_SHADOW_VALID => ⟨.ABANKS, 0x104, 16, 16, .ro, .write, 0, 0, 1, 0, 1, 0, false⟩
  | .ABANKS_SHADOW_COMPLETE => ⟨.ABANKS, 0x104, 17, 17, .ro, .write, 0, 0, 1, 0, 1, 0, false⟩
  | .ABANKS_STATE => ⟨.ABANKS, 0x108, 3, 0, .ro, .write, 0, 0, 15, 0, 1, 0, false⟩
  | .ABANKS_ACTIVE_BANK => ⟨.ABANKS, 0x108, 4, 4, .ro, .write, 0, 0, 1, 0, 1, 0, false⟩
  | .ABANKS_STATIC_IN_USE => ⟨.ABANKS, 0x108, 5, 5, .ro, .write, 0, 0, 1, 0, 1, 0, false⟩
  | .ABANKS_STATIC_LOADING => ⟨.ABANKS, 0x108, 6, 6, .ro, .write, 0, 0, 1, 0, 1, 0, false⟩
  | .ABANKS_STATIC_VALID => ⟨.ABANKS, 0x108, 7, 7, .ro, .write, 0, 0, 1, 0, 1, 0, false⟩
  | .ABANKS_DRAIN_CLASSES => ⟨.ABANKS, 0x10C, 1, 0, .ro, .write, 0, 0, 3, 0, 1, 0, false⟩
  | .ABANKS_INFLIGHT => ⟨.ABANKS, 0x110, 31, 0, .ro, .write, 0, 0, 4294967295, 0, 1, 0, false⟩
  | .ABANKS_STATIC_EPOCH => ⟨.ABANKS, 0x114, 15, 0, .ro, .write, 0, 0, 65535, 0, 1, 0, false⟩
  | .ABANKS_LAST_DRAIN => ⟨.ABANKS, 0x118, 31, 0, .ro, .write, 0, 0, 4294967295, 0, 1, 0, false⟩
  | .ABANKS_COMMITS => ⟨.ABANKS, 0x200, 63, 0, .rw, .write, 0, 0, 18446744073709551615, 0, 1, 0, true⟩
  | .ABANKS_ROLLBACKS => ⟨.ABANKS, 0x208, 63, 0, .rw, .write, 0, 0, 18446744073709551615, 0, 1, 0, true⟩
  | .ABANKS_ABANDONS => ⟨.ABANKS, 0x210, 63, 0, .rw, .write, 0, 0, 18446744073709551615, 0, 1, 0, true⟩
  | .ABANKS_REFUSALS => ⟨.ABANKS, 0x218, 63, 0, .rw, .write, 0, 0, 18446744073709551615, 0, 1, 0, true⟩
  | .AFENCE_FENCE_USED => ⟨.AFENCE, 0x100, 12, 0, .ro, .write, 0, 0, 8191, 0, 1, 0, false⟩
  | .AFENCE_VIEW_INDEX => ⟨.AFENCE, 0x104, 11, 0, .rw, .write, 0, 0, 4095, 0, 1, 0, false⟩
  | .AFENCE_VIEW_FID => ⟨.AFENCE, 0x108, 19, 0, .ro, .write, 1048575, 0, 1048575, 0, 1, 0, false⟩
  | .AFENCE_VIEW_STATE => ⟨.AFENCE, 0x108, 21, 20, .ro, .write, 0, 0, 3, 0, 1, 0, false⟩
  | .AFENCE_VIEW_F => ⟨.AFENCE, 0x10C, 15, 0, .ro, .write, 0, 0, 65535, 0, 1, 0, false⟩
  | .AFENCE_VIEW_JOB => ⟨.AFENCE, 0x10C, 31, 16, .ro, .write, 0, 0, 65535, 0, 1, 0, false⟩
  | .AFENCE_FENCED_DROPS => ⟨.AFENCE, 0x200, 63, 0, .rw, .write, 0, 0, 18446744073709551615, 0, 1, 0, true⟩
  | .AFENCE_STALE_DROPS => ⟨.AFENCE, 0x208, 63, 0, .rw, .write, 0, 0, 18446744073709551615, 0, 1, 0, true⟩
  | .AFENCE_MCAST_FENCED_DROPS => ⟨.AFENCE, 0x210, 63, 0, .rw, .write, 0, 0, 18446744073709551615, 0, 1, 0, true⟩
  | .AFENCE_FENCE_REFUSED => ⟨.AFENCE, 0x218, 63, 0, .rw, .write, 0, 0, 18446744073709551615, 0, 1, 0, true⟩
  | .AFENCE_FENCE_STALE => ⟨.AFENCE, 0x220, 63, 0, .rw, .write, 0, 0, 18446744073709551615, 0, 1, 0, true⟩
  | .AFENCE_ADDR_REFUSED => ⟨.AFENCE, 0x228, 63, 0, .rw, .write, 0, 0, 18446744073709551615, 0, 1, 0, true⟩
  | .ASLOTS_WINDOW_FRAME => ⟨.ASLOTS, 0x100, 31, 0, .ro, .write, 0, 0, 4294967295, 0, 1, 0, false⟩
  | .ASLOTS_WINDOW_FRAMES => ⟨.ASLOTS, 0x104, 4, 0, .rwb, .commit, 1, 1, 16, 0, 1, 0, false⟩
  | .ASLOTS_CURRENT_VALID => ⟨.ASLOTS, 0x108, 0, 0, .ro, .write, 0, 0, 1, 0, 1, 0, false⟩
  | .ASLOTS_NEXT_VALID => ⟨.ASLOTS, 0x108, 1, 1, .ro, .write, 0, 0, 1, 0, 1, 0, false⟩
  | .ASLOTS_TEMPLATE_IN_USE => ⟨.ASLOTS, 0x108, 10, 8, .ro, .write, 0, 0, 7, 0, 1, 0, false⟩
  | .ASLOTS_TEMPLATE_VALID => ⟨.ASLOTS, 0x108, 11, 11, .ro, .write, 0, 0, 1, 0, 1, 0, false⟩
  | .ASLOTS_LIST_GUARD => ⟨.ASLOTS, 0x10C, 11, 0, .rwb, .selected, 2000, 500, 4000, 0, 1, 0, false⟩
  | .ASLOTS_SEQ_LEN => ⟨.ASLOTS, 0x110, 5, 0, .rwb, .commit, 1, 1, 32, 0, 1, 0, false⟩
  | .ASLOTS_SEQ_BASE_FRAME => ⟨.ASLOTS, 0x114, 31, 0, .rwb, .commit, 0, 0, 4294967295, 0, 1, 0, false⟩
  | .ASLOTS_SEQ => ⟨.ASLOTS, 0x118, 127, 0, .rwb, .commit, 0, 0, 340282366920938463463374607431768211455, 0, 1, 0, false⟩
  | .ASLOTS_NEXT_FROM_FRAME => ⟨.ASLOTS, 0x128, 31, 0, .rwb, .commit, 0, 0, 4294967295, 0, 1, 0, false⟩
  | .ASLOTS_NEXT_SEQ_LEN => ⟨.ASLOTS, 0x12C, 5, 0, .rwb, .commit, 0, 0, 32, 0, 1, 0, false⟩
  | .ASLOTS_NEXT_SEQ => ⟨.ASLOTS, 0x130, 127, 0, .rwb, .commit, 0, 0, 340282366920938463463374607431768211455, 0, 1, 0, false⟩
  | .ASLOTS_SLOTS_SENT => ⟨.ASLOTS, 0x200, 63, 0, .rw, .write, 0, 0, 18446744073709551615, 0, 1, 0, true⟩
  | .ASLOTS_SLOTS_IDLE => ⟨.ASLOTS, 0x208, 63, 0, .rw, .write, 0, 0, 18446744073709551615, 0, 1, 0, true⟩
  | .ASLOTS_LISTS_ACCEPTED => ⟨.ASLOTS, 0x210, 63, 0, .rw, .write, 0, 0, 18446744073709551615, 0, 1, 0, true⟩
  | .ASLOTS_LISTS_LATE => ⟨.ASLOTS, 0x218, 63, 0, .rw, .write, 0, 0, 18446744073709551615, 0, 1, 0, true⟩
  | .ASLOTS_LISTS_REJECTED => ⟨.ASLOTS, 0x220, 63, 0, .rw, .write, 0, 0, 18446744073709551615, 0, 1, 0, true⟩
  | .ASLOTS_TEMPLATE_ONLY => ⟨.ASLOTS, 0x228, 63, 0, .rw, .write, 0, 0, 18446744073709551615, 0, 1, 0, true⟩
  | .AFLOWS_FLOW_USED => ⟨.AFLOWS, 0x100, 20, 0, .ro, .write, 0, 0, 2097151, 0, 1, 0, false⟩
  | .AFLOWS_DONE_OK => ⟨.AFLOWS, 0x200, 63, 0, .rw, .write, 0, 0, 18446744073709551615, 0, 1, 0, true⟩
  | .AFLOWS_DONE_VIOL => ⟨.AFLOWS, 0x208, 63, 0, .rw, .write, 0, 0, 18446744073709551615, 0, 1, 0, true⟩
  | .AFLOWS_DONE_TIMEOUT => ⟨.AFLOWS, 0x210, 63, 0, .rw, .write, 0, 0, 18446744073709551615, 0, 1, 0, true⟩
  | .AFLOWS_MALFORMED_FLOW => ⟨.AFLOWS, 0x218, 63, 0, .rw, .write, 0, 0, 18446744073709551615, 0, 1, 0, true⟩
  | .AFLOWS_LATE_CHUNK => ⟨.AFLOWS, 0x220, 63, 0, .rw, .write, 0, 0, 18446744073709551615, 0, 1, 0, true⟩
  | .AFLOWS_FLOW_FULL => ⟨.AFLOWS, 0x228, 63, 0, .rw, .write, 0, 0, 18446744073709551615, 0, 1, 0, true⟩
  | .ATIME_NOW => ⟨.ATIME, 0x100, 63, 0, .ro, .write, 0, 0, 18446744073709551615, 0, 1, 0, false⟩
  | .ATIME_OFFSET => ⟨.ATIME, 0x108, 31, 0, .ro, .write, 0, 0, 4294967295, 0, 1, 0, false⟩
  | .ATIME_STATE => ⟨.ATIME, 0x10C, 2, 0, .ro, .write, 4, 0, 7, 0, 1, 0, false⟩
  | .ATIME_PARENT_PORT => ⟨.ATIME, 0x110, 8, 0, .rwp, .commit, 0, 0, 511, 0, 1, 0, false⟩
  | .ATIME_PATH_DELAY => ⟨.ATIME, 0x114, 15, 0, .ro, .write, 0, 0, 65535, 0, 1, 0, false⟩
  | .ATIME_EXCHANGES => ⟨.ATIME, 0x200, 63, 0, .rw, .write, 0, 0, 18446744073709551615, 0, 1, 0, true⟩
  | .ATIME_EXCHANGE_FAILS => ⟨.ATIME, 0x208, 63, 0, .rw, .write, 0, 0, 18446744073709551615, 0, 1, 0, true⟩
  | .ATIME_OUT_OF_BOUND => ⟨.ATIME, 0x210, 63, 0, .rw, .write, 0, 0, 18446744073709551615, 0, 1, 0, true⟩
  | .ATIME_TIME_STEPS => ⟨.ATIME, 0x218, 63, 0, .rw, .write, 0, 0, 18446744073709551615, 0, 1, 0, true⟩
  | .ALOOSE_RATE => ⟨.ALOOSE, 0x100, 19, 0, .ro, .write, 800000, 0, 1048575, 0, 1, 0, false⟩
  | .ALOOSE_CEILING => ⟨.ALOOSE, 0x104, 19, 0, .rwb, .selected, 800000, 6250, 800000, 0, 1, 0, false⟩
  | .ALOOSE_STEP => ⟨.ALOOSE, 0x108, 15, 0, .rwb, .selected, 12500, 1, 50000, 0, 1, 0, false⟩
  | .ALOOSE_FLOOR => ⟨.ALOOSE, 0x10C, 19, 0, .rwb, .selected, 6250, 6250, 800000, 0, 1, 0, false⟩
  | .ALOOSE_PIN => ⟨.ALOOSE, 0x110, 0, 0, .rwb, .selected, 0, 0, 1, 0, 1, 0, false⟩
  | .ALOOSE_ECHOES_RX => ⟨.ALOOSE, 0x200, 63, 0, .rw, .write, 0, 0, 18446744073709551615, 0, 1, 0, true⟩
  | .ALOOSE_ECHOES_TX => ⟨.ALOOSE, 0x208, 63, 0, .rw, .write, 0, 0, 18446744073709551615, 0, 1, 0, true⟩
  | .ALOOSE_MARKS_UNECHOED => ⟨.ALOOSE, 0x210, 63, 0, .rw, .write, 0, 0, 18446744073709551615, 0, 1, 0, true⟩
  | .ALOOSE_HALVINGS => ⟨.ALOOSE, 0x218, 63, 0, .rw, .write, 0, 0, 18446744073709551615, 0, 1, 0, true⟩
  | .APORT_UP => ⟨.APORT, 0x100, 0, 0, .ro, .write, 0, 0, 1, 0, 1, 0, false⟩
  | .APORT_PARTNER_FID => ⟨.APORT, 0x104, 19, 0, .ro, .write, 1048575, 0, 1048575, 0, 1, 0, false⟩
  | .APORT_PARTNER_PORT => ⟨.APORT, 0x104, 28, 20, .ro, .write, 0, 0, 511, 0, 1, 0, false⟩
  | .APORT_DELAY_NS => ⟨.APORT, 0x108, 15, 0, .ro, .write, 0, 0, 65535, 0, 1, 0, false⟩
  | .APORT_DELAY_SLOTS => ⟨.APORT, 0x108, 23, 16, .ro, .write, 0, 0, 255, 0, 1, 0, false⟩
  | .APORT_IN_FLIGHT => ⟨.APORT, 0x10C, 15, 0, .ro, .write, 0, 0, 65535, 0, 1, 0, false⟩
  | .APORT_TX_POWER => ⟨.APORT, 0x110, 15, 0, .ro, .write, 0, 0, 65535, 0, 1, 0, false⟩
  | .APORT_RX_POWER => ⟨.APORT, 0x110, 31, 16, .ro, .write, 0, 0, 65535, 0, 1, 0, false⟩
  | .APORT_TX_PACKETS => ⟨.APORT, 0x200, 63, 0, .rw, .write, 0, 0, 18446744073709551615, 0, 1, 0, true⟩
  | .APORT_TX_BYTES => ⟨.APORT, 0x208, 63, 0, .rw, .write, 0, 0, 18446744073709551615, 0, 1, 0, true⟩
  | .APORT_RX_PACKETS => ⟨.APORT, 0x210, 63, 0, .rw, .write, 0, 0, 18446744073709551615, 0, 1, 0, true⟩
  | .APORT_RX_BYTES => ⟨.APORT, 0x218, 63, 0, .rw, .write, 0, 0, 18446744073709551615, 0, 1, 0, true⟩
  | .APORT_DEFLECTIONS => ⟨.APORT, 0x220, 63, 0, .rw, .write, 0, 0, 18446744073709551615, 0, 1, 0, true⟩
  | .APORT_DISCARD_FEC => ⟨.APORT, 0x228, 63, 0, .rw, .write, 0, 0, 18446744073709551615, 0, 1, 0, true⟩
  | .APORT_DISCARD_AUTH => ⟨.APORT, 0x230, 63, 0, .rw, .write, 0, 0, 18446744073709551615, 0, 1, 0, true⟩
  | .APORT_FEC_CORRECTED => ⟨.APORT, 0x238, 63, 0, .rw, .write, 0, 0, 18446744073709551615, 0, 1, 0, true⟩
  | .APORT_MARKS => ⟨.APORT, 0x240, 63, 0, .rw, .write, 0, 0, 18446744073709551615, 0, 1, 0, true⟩
  | .APORT_VIOLATIONS => ⟨.APORT, 0x248, 63, 0, .rw, .write, 0, 0, 18446744073709551615, 0, 1, 0, true⟩
  | .APORT_STALL_SLOTS => ⟨.APORT, 0x250, 63, 0, .rw, .write, 0, 0, 18446744073709551615, 0, 1, 0, true⟩
  | .APORT_QDEPTH_MAX => ⟨.APORT, 0x258, 7, 0, .rw, .write, 0, 0, 255, 0, 1, 0, true⟩
  | .APORT_QDEPTH_SUM => ⟨.APORT, 0x260, 63, 0, .rw, .write, 0, 0, 18446744073709551615, 0, 1, 0, true⟩
  | .APORT_QDEPTH_SLOTS => ⟨.APORT, 0x268, 63, 0, .rw, .write, 0, 0, 18446744073709551615, 0, 1, 0, true⟩
  | .ALOG_NEXT => ⟨.ALOG, 0x100, 11, 0, .ro, .write, 0, 0, 4095, 0, 1, 0, false⟩
  | .ROUTE_ZONE_EPOCH => ⟨.ROUTE, 0x100, 15, 0, .ro, .write, 0, 0, 65535, 0, 1, 0, false⟩
  | .ROUTE_TXN_EPOCH => ⟨.ROUTE, 0x100, 31, 16, .ro, .write, 0, 0, 65535, 0, 1, 0, false⟩
  | .ROUTE_TXN_STAGE => ⟨.ROUTE, 0x104, 2, 0, .ro, .write, 0, 0, 7, 0, 1, 0, false⟩
  | .ROUTE_COORDINATED => ⟨.ROUTE, 0x104, 3, 3, .ro, .write, 0, 0, 1, 0, 1, 0, false⟩
  | .ROUTE_AUTO_OPEN => ⟨.ROUTE, 0x104, 4, 4, .ro, .write, 0, 0, 1, 0, 1, 0, false⟩
  | .ROUTE_STATIC_EPOCH => ⟨.ROUTE, 0x108, 15, 0, .ro, .write, 0, 0, 65535, 0, 1, 0, false⟩
  | .ROUTE_DRAIN_TIMEOUT => ⟨.ROUTE, 0x10C, 15, 0, .rwb, .selected, 1000, 10, 65535, 0, 1, 0, false⟩
  | .ROUTE_COMMIT_WAIT => ⟨.ROUTE, 0x110, 9, 0, .rwp, .commit, 50, 1, 1000, 0, 1, 0, false⟩
  | .ROUTE_RESUME_WAIT => ⟨.ROUTE, 0x114, 9, 0, .rwb, .selected, 50, 1, 1000, 0, 1, 0, false⟩
  | .ROUTE_DRAIN_CLASSES => ⟨.ROUTE, 0x118, 1, 0, .rwb, .selected, 3, 0, 3, 0, 1, 0, false⟩
  | .ROUTE_AUTO => ⟨.ROUTE, 0x11C, 0, 0, .rwb, .selected, 1, 0, 1, 0, 1, 0, false⟩
  | .ROUTE_STATIC_AUTO => ⟨.ROUTE, 0x11C, 1, 1, .rwb, .selected, 1, 0, 1, 0, 1, 0, false⟩
  | .ROUTE_AUTO_DELAY => ⟨.ROUTE, 0x120, 15, 0, .rwb, .selected, 2000, 100, 65535, 0, 1, 0, false⟩
  | .ROUTE_ROUTE_GROUPS => ⟨.ROUTE, 0x124, 3, 0, .rwb, .selected, 2, 1, 8, 0, 1, 0, false⟩
  | .ROUTE_Q_BASE => ⟨.ROUTE, 0x140, 63, 0, .rw, .write, 0, 0, 18446744073709551615, 0, 1, 0, false⟩
  | .ROUTE_Q_LOG2 => ⟨.ROUTE, 0x148, 4, 0, .rw, .write, 6, 6, 16, 0, 1, 0, false⟩
  | .ROUTE_Q_HEAD => ⟨.ROUTE, 0x14C, 15, 0, .ro, .write, 0, 0, 65535, 0, 1, 0, false⟩
  | .ROUTE_Q_TAIL => ⟨.ROUTE, 0x150, 15, 0, .rw, .write, 0, 0, 65535, 0, 1, 0, false⟩
  | .ROUTE_CQ_BASE => ⟨.ROUTE, 0x158, 63, 0, .rw, .write, 0, 0, 18446744073709551615, 0, 1, 0, false⟩
  | .ROUTE_CQ_LOG2 => ⟨.ROUTE, 0x160, 4, 0, .rw, .write, 6, 6, 16, 0, 1, 0, false⟩
  | .ROUTE_CQ_TAIL => ⟨.ROUTE, 0x164, 15, 0, .ro, .write, 0, 0, 65535, 0, 1, 0, false⟩
  | .ROUTE_CQ_HEAD => ⟨.ROUTE, 0x168, 15, 0, .rw, .write, 0, 0, 65535, 0, 1, 0, false⟩
  | .ROUTE_Q_ENABLE => ⟨.ROUTE, 0x16C, 0, 0, .rw, .write, 0, 0, 1, 0, 1, 0, false⟩
  | .ROUTE_Q_IDLE => ⟨.ROUTE, 0x16C, 1, 1, .ro, .write, 1, 0, 1, 0, 1, 0, false⟩
  | .ROUTE_LAST_TXN_TICKS => ⟨.ROUTE, 0x180, 31, 0, .ro, .write, 0, 0, 4294967295, 0, 1, 0, false⟩
  | .ROUTE_LAST_GEN_TICKS => ⟨.ROUTE, 0x184, 31, 0, .ro, .write, 0, 0, 4294967295, 0, 1, 0, false⟩
  | .ROUTE_LAST_STALL_TICKS => ⟨.ROUTE, 0x188, 31, 0, .ro, .write, 0, 0, 4294967295, 0, 1, 0, false⟩
  | .ROUTE_LAST_CHUNKS => ⟨.ROUTE, 0x18C, 31, 0, .ro, .write, 0, 0, 4294967295, 0, 1, 0, false⟩
  | .ROUTE_TXN_COMPLETED => ⟨.ROUTE, 0x200, 63, 0, .rw, .write, 0, 0, 18446744073709551615, 0, 1, 0, true⟩
  | .ROUTE_TXN_ABANDONED => ⟨.ROUTE, 0x208, 63, 0, .rw, .write, 0, 0, 18446744073709551615, 0, 1, 0, true⟩
  | .ROUTE_TXN_FORWARD => ⟨.ROUTE, 0x210, 63, 0, .rw, .write, 0, 0, 18446744073709551615, 0, 1, 0, true⟩
  | .ROUTE_AGENT_ROLLBACKS => ⟨.ROUTE, 0x218, 63, 0, .rw, .write, 0, 0, 18446744073709551615, 0, 1, 0, true⟩
  | .ROUTE_DRAIN_TIMEOUTS => ⟨.ROUTE, 0x220, 63, 0, .rw, .write, 0, 0, 18446744073709551615, 0, 1, 0, true⟩
  | .ROUTE_PREPARE_RESENDS => ⟨.ROUTE, 0x228, 63, 0, .rw, .write, 0, 0, 18446744073709551615, 0, 1, 0, true⟩
  | .ROUTE_GEN_RESTARTS => ⟨.ROUTE, 0x230, 63, 0, .rw, .write, 0, 0, 18446744073709551615, 0, 1, 0, true⟩
  | .ROUTE_AGENTS_UNRESOLVED => ⟨.ROUTE, 0x238, 63, 0, .rw, .write, 0, 0, 18446744073709551615, 0, 1, 0, true⟩
  | .ROUTE_AUTO_TXNS => ⟨.ROUTE, 0x240, 63, 0, .rw, .write, 0, 0, 18446744073709551615, 0, 1, 0, true⟩
  | .SCHED_ENGINES_WORKING => ⟨.SCHED, 0x100, 8, 0, .ro, .write, 256, 0, 511, 0, 1, 0, false⟩
  | .SCHED_SPEC_DEFAULT => ⟨.SCHED, 0x104, 0, 0, .rwb, .selected, 1, 0, 1, 0, 1, 0, false⟩
  | .SCHED_ORDERED_DEFAULT => ⟨.SCHED, 0x104, 1, 1, .rwb, .selected, 0, 0, 1, 0, 1, 0, false⟩
  | .SCHED_SPILL_DEFAULT => ⟨.SCHED, 0x104, 3, 2, .rwb, .selected, 0, 0, 1, 0, 1, 0, false⟩
  | .SCHED_LIST_LEAD => ⟨.SCHED, 0x108, 6, 0, .rwb, .selected, 10, 10, 100, 0, 1, 0, false⟩
  | .SCHED_DELIVERY_ALLOW => ⟨.SCHED, 0x10C, 14, 0, .rwb, .selected, 3000, 1000, 20000, 0, 1, 0, false⟩
  | .SCHED_ORDERED_ALLOW => ⟨.SCHED, 0x110, 7, 0, .rwb, .selected, 30, 5, 200, 0, 1, 0, false⟩
  | .SCHED_XPLACE_MARGIN => ⟨.SCHED, 0x114, 7, 0, .rwb, .selected, 2, 1, 50, 0, 1, 0, false⟩
  | .SCHED_XMAP_LIMIT => ⟨.SCHED, 0x118, 6, 0, .rwb, .selected, 32, 0, 64, 0, 1, 0, false⟩
  | .SCHED_QUANTUM => ⟨.SCHED, 0x11C, 4, 0, .rwb, .frame, 1, 1, 16, 0, 1, 0, false⟩
  | .SCHED_Q_BASE => ⟨.SCHED, 0x140, 63, 0, .rw, .write, 0, 0, 18446744073709551615, 0, 1, 0, false⟩
  | .SCHED_Q_LOG2 => ⟨.SCHED, 0x148, 4, 0, .rw, .write, 6, 0, 31, 0, 1, 0, false⟩
  | .SCHED_Q_HEAD => ⟨.SCHED, 0x14C, 15, 0, .ro, .write, 0, 0, 65535, 0, 1, 0, false⟩
  | .SCHED_Q_TAIL => ⟨.SCHED, 0x150, 15, 0, .rw, .write, 0, 0, 65535, 0, 1, 0, false⟩
  | .SCHED_CQ_BASE => ⟨.SCHED, 0x158, 63, 0, .rw, .write, 0, 0, 18446744073709551615, 0, 1, 0, false⟩
  | .SCHED_CQ_LOG2 => ⟨.SCHED, 0x160, 4, 0, .rw, .write, 6, 0, 31, 0, 1, 0, false⟩
  | .SCHED_CQ_TAIL => ⟨.SCHED, 0x164, 15, 0, .ro, .write, 0, 0, 65535, 0, 1, 0, false⟩
  | .SCHED_CQ_HEAD => ⟨.SCHED, 0x168, 15, 0, .rw, .write, 0, 0, 65535, 0, 1, 0, false⟩
  | .SCHED_Q_ENABLE => ⟨.SCHED, 0x16C, 0, 0, .rw, .write, 0, 0, 1, 0, 1, 0, false⟩
  | .SCHED_Q_IDLE => ⟨.SCHED, 0x16C, 1, 1, .ro, .write, 1, 0, 1, 0, 1, 0, false⟩
  | .SCHED_LAST_PLACE_TICKS => ⟨.SCHED, 0x180, 31, 0, .ro, .write, 0, 0, 4294967295, 0, 1, 0, false⟩
  | .SCHED_LAST_ENGINE_TICKS => ⟨.SCHED, 0x184, 31, 0, .ro, .write, 0, 0, 4294967295, 0, 1, 0, false⟩
  | .SCHED_LAST_WINDOW => ⟨.SCHED, 0x188, 31, 0, .ro, .write, 0, 0, 4294967295, 0, 1, 0, false⟩
  | .SCHED_VECTORS_RX => ⟨.SCHED, 0x200, 63, 0, .rw, .write, 0, 0, 18446744073709551615, 0, 1, 0, true⟩
  | .SCHED_VECTORS_BAD => ⟨.SCHED, 0x208, 63, 0, .rw, .write, 0, 0, 18446744073709551615, 0, 1, 0, true⟩
  | .SCHED_VECTORS_LATE => ⟨.SCHED, 0x210, 63, 0, .rw, .write, 0, 0, 18446744073709551615, 0, 1, 0, true⟩
  | .SCHED_VECTORS_MISSING => ⟨.SCHED, 0x218, 63, 0, .rw, .write, 0, 0, 18446744073709551615, 0, 1, 0, true⟩
  | .SCHED_ENTRIES_FENCED => ⟨.SCHED, 0x220, 63, 0, .rw, .write, 0, 0, 18446744073709551615, 0, 1, 0, true⟩
  | .SCHED_ITEMS_KEPT => ⟨.SCHED, 0x228, 63, 0, .rw, .write, 0, 0, 18446744073709551615, 0, 1, 0, true⟩
  | .SCHED_ITEMS_REPLACED => ⟨.SCHED, 0x230, 63, 0, .rw, .write, 0, 0, 18446744073709551615, 0, 1, 0, true⟩
  | .SCHED_ITEMS_NEW => ⟨.SCHED, 0x238, 63, 0, .rw, .write, 0, 0, 18446744073709551615, 0, 1, 0, true⟩
  | .SCHED_ITEMS_RELEASED => ⟨.SCHED, 0x240, 63, 0, .rw, .write, 0, 0, 18446744073709551615, 0, 1, 0, true⟩
  | .SCHED_CLAIM_ATTEMPTS => ⟨.SCHED, 0x248, 63, 0, .rw, .write, 0, 0, 18446744073709551615, 0, 1, 0, true⟩
  | .SCHED_CLAIMS => ⟨.SCHED, 0x250, 63, 0, .rw, .write, 0, 0, 18446744073709551615, 0, 1, 0, true⟩
  | .SCHED_CLAIM_FAILS => ⟨.SCHED, 0x258, 63, 0, .rw, .write, 0, 0, 18446744073709551615, 0, 1, 0, true⟩
  | .SCHED_RUNS => ⟨.SCHED, 0x260, 63, 0, .rw, .write, 0, 0, 18446744073709551615, 0, 1, 0, true⟩
  | .SCHED_CHUNKS_PLACED => ⟨.SCHED, 0x268, 63, 0, .rw, .write, 0, 0, 18446744073709551615, 0, 1, 0, true⟩
  | .SCHED_SPILL_NEXT => ⟨.SCHED, 0x270, 63, 0, .rw, .write, 0, 0, 18446744073709551615, 0, 1, 0, true⟩
  | .SCHED_SPILL_LOOSE => ⟨.SCHED, 0x278, 63, 0, .rw, .write, 0, 0, 18446744073709551615, 0, 1, 0, true⟩
  | .SCHED_STEAL_ATTEMPTS => ⟨.SCHED, 0x280, 63, 0, .rw, .write, 0, 0, 18446744073709551615, 0, 1, 0, true⟩
  | .SCHED_STEALS => ⟨.SCHED, 0x288, 63, 0, .rw, .write, 0, 0, 18446744073709551615, 0, 1, 0, true⟩
  | .SCHED_OVERFLOW_UNITS => ⟨.SCHED, 0x290, 63, 0, .rw, .write, 0, 0, 18446744073709551615, 0, 1, 0, true⟩
  | .SCHED_PARITY_ERRORS => ⟨.SCHED, 0x298, 63, 0, .rw, .write, 0, 0, 18446744073709551615, 0, 1, 0, true⟩
  | .SCHED_SEAL_FAILS => ⟨.SCHED, 0x2A0, 63, 0, .rw, .write, 0, 0, 18446744073709551615, 0, 1, 0, true⟩
  | .SCHED_LISTS_SENT => ⟨.SCHED, 0x2A8, 63, 0, .rw, .write, 0, 0, 18446744073709551615, 0, 1, 0, true⟩
  | .SCHED_LISTS_WITHHELD => ⟨.SCHED, 0x2B0, 63, 0, .rw, .write, 0, 0, 18446744073709551615, 0, 1, 0, true⟩
  | .SCHED_LISTS_RESENT => ⟨.SCHED, 0x2B8, 63, 0, .rw, .write, 0, 0, 18446744073709551615, 0, 1, 0, true⟩
  | .SCHED_XITEMS_SENT => ⟨.SCHED, 0x2C0, 63, 0, .rw, .write, 0, 0, 18446744073709551615, 0, 1, 0, true⟩
  | .SCHED_XITEMS_PLACED => ⟨.SCHED, 0x2C8, 63, 0, .rw, .write, 0, 0, 18446744073709551615, 0, 1, 0, true⟩
  | .SCHED_XITEMS_LATE => ⟨.SCHED, 0x2D0, 63, 0, .rw, .write, 0, 0, 18446744073709551615, 0, 1, 0, true⟩
  | .SCHED_STATIC_DISPLACED => ⟨.SCHED, 0x2D8, 63, 0, .rw, .write, 0, 0, 18446744073709551615, 0, 1, 0, true⟩
  | .SCHED_DEGRADED_ITEMS => ⟨.SCHED, 0x2E0, 63, 0, .rw, .write, 0, 0, 18446744073709551615, 0, 1, 0, true⟩
  | .SCHED_WINDOWS => ⟨.SCHED, 0x2E8, 63, 0, .rw, .write, 0, 0, 18446744073709551615, 0, 1, 0, true⟩
  | .MIOBOR_STATE => ⟨.MIOBOR, 0x100, 2, 0, .ro, .write, 0, 0, 7, 0, 1, 0, false⟩
  | .MIOBOR_CURRENT_CTX => ⟨.MIOBOR, 0x100, 15, 8, .ro, .write, 255, 0, 255, 0, 1, 0, false⟩
  | .MIOBOR_QUEUED => ⟨.MIOBOR, 0x100, 23, 16, .ro, .write, 0, 0, 255, 0, 1, 0, false⟩
  | .MIOBOR_QUANTUM => ⟨.MIOBOR, 0x104, 4, 0, .rwb, .selected, 1, 1, 16, 0, 1, 0, false⟩
  | .MIOBOR_STOCH_ALLOW => ⟨.MIOBOR, 0x108, 0, 0, .rwb, .selected, 1, 0, 1, 0, 1, 0, false⟩
  | .MIOBOR_LAST_FAIL_TILE => ⟨.MIOBOR, 0x10C, 31, 0, .ro, .write, 0, 0, 4294967295, 0, 1, 0, false⟩
  | .MIOBOR_LAST_FAIL_TAG => ⟨.MIOBOR, 0x110, 31, 0, .ro, .write, 0, 0, 4294967295, 0, 1, 0, false⟩
  | .MIOBOR_LAST_CMD_CYCLES => ⟨.MIOBOR, 0x114, 31, 0, .ro, .write, 0, 0, 4294967295, 0, 1, 0, false⟩
  | .MIOBOR_TTAB_FIRST_TILE => ⟨.MIOBOR, 0x400, 15, 0, .rwp, .commit, 0, 0, 65535, 4, 64, 0, false⟩
  | .MIOBOR_TTAB_TILES => ⟨.MIOBOR, 0x400, 22, 16, .rwp, .commit, 0, 1, 64, 4, 64, 0, false⟩
  | .MIOBOR_TTAB_VALID => ⟨.MIOBOR, 0x400, 31, 31, .rwp, .commit, 0, 0, 1, 4, 64, 0, false⟩
  | .MIOBOR_TTAB_GEN => ⟨.MIOBOR, 0x500, 31, 0, .rwp, .commit, 0, 0, 4294967295, 4, 64, 0, false⟩
  | .MIOBOR_COMMANDS => ⟨.MIOBOR, 0x200, 63, 0, .rw, .write, 0, 0, 18446744073709551615, 0, 1, 0, true⟩
  | .MIOBOR_CMD_FAILED => ⟨.MIOBOR, 0x208, 63, 0, .rw, .write, 0, 0, 18446744073709551615, 0, 1, 0, true⟩
  | .MIOBOR_MAC_INT4 => ⟨.MIOBOR, 0x210, 63, 0, .rw, .write, 0, 0, 18446744073709551615, 0, 1, 0, true⟩
  | .MIOBOR_MAC_INT8 => ⟨.MIOBOR, 0x218, 63, 0, .rw, .write, 0, 0, 18446744073709551615, 0, 1, 0, true⟩
  | .MIOBOR_MAC_E4M3 => ⟨.MIOBOR, 0x220, 63, 0, .rw, .write, 0, 0, 18446744073709551615, 0, 1, 0, true⟩
  | .MIOBOR_MAC_E5M2 => ⟨.MIOBOR, 0x228, 63, 0, .rw, .write, 0, 0, 18446744073709551615, 0, 1, 0, true⟩
  | .MIOBOR_MAC_BF16 => ⟨.MIOBOR, 0x230, 63, 0, .rw, .write, 0, 0, 18446744073709551615, 0, 1, 0, true⟩
  | .MIOBOR_MAC24_INT4 => ⟨.MIOBOR, 0x238, 63, 0, .rw, .write, 0, 0, 18446744073709551615, 0, 1, 0, true⟩
  | .MIOBOR_MAC24_INT8 => ⟨.MIOBOR, 0x240, 63, 0, .rw, .write, 0, 0, 18446744073709551615, 0, 1, 0, true⟩
  | .MIOBOR_MAC24_E4M3 => ⟨.MIOBOR, 0x248, 63, 0, .rw, .write, 0, 0, 18446744073709551615, 0, 1, 0, true⟩
  | .MIOBOR_MAC24_E5M2 => ⟨.MIOBOR, 0x250, 63, 0, .rw, .write, 0, 0, 18446744073709551615, 0, 1, 0, true⟩
  | .MIOBOR_MAC24_BF16 => ⟨.MIOBOR, 0x258, 63, 0, .rw, .write, 0, 0, 18446744073709551615, 0, 1, 0, true⟩
  | .MIOBOR_BLOCKS_SKIPPED => ⟨.MIOBOR, 0x260, 63, 0, .rw, .write, 0, 0, 18446744073709551615, 0, 1, 0, true⟩
  | .MIOBOR_VEC_OPS => ⟨.MIOBOR, 0x268, 63, 0, .rw, .write, 0, 0, 18446744073709551615, 0, 1, 0, true⟩
  | .MIOBOR_ROWS_SKIPPED => ⟨.MIOBOR, 0x270, 63, 0, .rw, .write, 0, 0, 18446744073709551615, 0, 1, 0, true⟩
  | .MIOBOR_TILES_READ => ⟨.MIOBOR, 0x278, 63, 0, .rw, .write, 0, 0, 18446744073709551615, 0, 1, 0, true⟩
  | .MIOBOR_TILES_WRITTEN => ⟨.MIOBOR, 0x280, 63, 0, .rw, .write, 0, 0, 18446744073709551615, 0, 1, 0, true⟩
  | .MIOBOR_TILE_FAILS => ⟨.MIOBOR, 0x288, 63, 0, .rw, .write, 0, 0, 18446744073709551615, 0, 1, 0, true⟩
  | .MIOBOR_SAT_EVENTS => ⟨.MIOBOR, 0x290, 63, 0, .rw, .write, 0, 0, 18446744073709551615, 0, 1, 0, true⟩
  | .MIOBOR_NAN_TO_INT => ⟨.MIOBOR, 0x298, 63, 0, .rw, .write, 0, 0, 18446744073709551615, 0, 1, 0, true⟩
  | .MIOBOR_INDEX_OOR => ⟨.MIOBOR, 0x2A0, 63, 0, .rw, .write, 0, 0, 18446744073709551615, 0, 1, 0, true⟩
  | .MIOBOR_GATE_ASSIGNED => ⟨.MIOBOR, 0x2A8, 63, 0, .rw, .write, 0, 0, 18446744073709551615, 0, 1, 0, true⟩
  | .MIOBOR_GATE_DROPPED => ⟨.MIOBOR, 0x2B0, 63, 0, .rw, .write, 0, 0, 18446744073709551615, 0, 1, 0, true⟩
  | .MIOBOR_BUSY_CYCLES => ⟨.MIOBOR, 0x2B8, 63, 0, .rw, .write, 0, 0, 18446744073709551615, 0, 1, 0, true⟩
  | .MIOBOR_HELD_CYCLES => ⟨.MIOBOR, 0x2C0, 63, 0, .rw, .write, 0, 0, 18446744073709551615, 0, 1, 0, true⟩
  | .MIOBOR_CTX_SWITCHES => ⟨.MIOBOR, 0x2C8, 63, 0, .rw, .write, 0, 0, 18446744073709551615, 0, 1, 0, true⟩
  | .LEARN_FC_LEAD => ⟨.LEARN, 0x100, 10, 0, .rwb, .selected, 400, 50, 2000, 0, 1, 0, false⟩
  | .LEARN_SPEC_MARGIN => ⟨.LEARN, 0x104, 7, 0, .rwb, .selected, 50, 10, 200, 0, 1, 0, false⟩
  | .LEARN_HIT_LOW => ⟨.LEARN, 0x108, 8, 0, .rwb, .selected, 128, 0, 256, 0, 1, 0, false⟩
  | .LEARN_HIT_HIGH => ⟨.LEARN, 0x108, 24, 16, .rwb, .selected, 208, 0, 256, 0, 1, 0, false⟩
  | .LEARN_CONF_STEP_UP => ⟨.LEARN, 0x10C, 4, 0, .rwb, .selected, 8, 1, 32, 0, 1, 0, false⟩
  | .LEARN_CONF_STEP_DOWN => ⟨.LEARN, 0x10C, 12, 8, .rwb, .selected, 4, 1, 32, 0, 1, 0, false⟩
  | .LEARN_LH_PERIOD => ⟨.LEARN, 0x110, 13, 0, .rwb, .selected, 100, 10, 10000, 0, 1, 0, false⟩
  | .LEARN_LH_THRESH => ⟨.LEARN, 0x114, 7, 0, .rwb, .selected, 192, 1, 255, 0, 1, 0, false⟩
  | .LEARN_LH_CLEAR => ⟨.LEARN, 0x114, 15, 8, .rwb, .selected, 128, 0, 255, 0, 1, 0, false⟩
  | .LEARN_LH_PERSIST => ⟨.LEARN, 0x114, 19, 16, .rwb, .selected, 3, 1, 15, 0, 1, 0, false⟩
  | .LEARN_LH_ACTION => ⟨.LEARN, 0x114, 21, 20, .rwb, .selected, 1, 0, 2, 0, 1, 0, false⟩
  | .LEARN_LH_MAX_DISABLED => ⟨.LEARN, 0x118, 3, 0, .rwb, .selected, 4, 0, 15, 0, 1, 0, false⟩
  | .LEARN_LH_MODEL_VER => ⟨.LEARN, 0x11C, 31, 0, .ro, .write, 0, 0, 4294967295, 0, 1, 0, false⟩
  | .LEARN_ANALYSE_JOB => ⟨.LEARN, 0x120, 15, 0, .wo, .write, 0, 0, 65535, 0, 1, 0, false⟩
  | .LEARN_ANALYSE_REQ => ⟨.LEARN, 0x120, 31, 31, .wo, .write, 0, 0, 1, 0, 1, 0, false⟩
  | .LEARN_ANALYSING => ⟨.LEARN, 0x124, 15, 0, .ro, .write, 65535, 0, 65535, 0, 1, 0, false⟩
  | .LEARN_JOB => ⟨.LEARN, 0x180, 15, 0, .ro, .write, 65535, 0, 65535, 16, 8, 0, false⟩
  | .LEARN_CONF_NOW => ⟨.LEARN, 0x180, 24, 16, .ro, .write, 0, 0, 511, 16, 8, 0, false⟩
  | .LEARN_PIN => ⟨.LEARN, 0x180, 31, 31, .rwb, .selected, 0, 0, 1, 16, 8, 0, false⟩
  | .LEARN_CONF_FLOOR => ⟨.LEARN, 0x184, 8, 0, .ro, .write, 0, 0, 511, 16, 8, 0, false⟩
  | .LEARN_CONF_CEIL => ⟨.LEARN, 0x184, 24, 16, .ro, .write, 0, 0, 511, 16, 8, 0, false⟩
  | .LEARN_LAST_HIT => ⟨.LEARN, 0x188, 8, 0, .ro, .write, 0, 0, 511, 16, 8, 0, false⟩
  | .LEARN_HIST_FILLED => ⟨.LEARN, 0x18C, 5, 0, .ro, .write, 0, 0, 63, 16, 8, 0, false⟩
  | .LEARN_FC_STARTED => ⟨.LEARN, 0x200, 63, 0, .rw, .write, 0, 0, 18446744073709551615, 0, 1, 0, true⟩
  | .LEARN_FC_PUBLISHED => ⟨.LEARN, 0x208, 63, 0, .rw, .write, 0, 0, 18446744073709551615, 0, 1, 0, true⟩
  | .LEARN_FC_LATE => ⟨.LEARN, 0x210, 63, 0, .rw, .write, 0, 0, 18446744073709551615, 0, 1, 0, true⟩
  | .LEARN_FC_FAILED => ⟨.LEARN, 0x218, 63, 0, .rw, .write, 0, 0, 18446744073709551615, 0, 1, 0, true⟩
  | .LEARN_FC_ENTRIES_DROPPED => ⟨.LEARN, 0x220, 63, 0, .rw, .write, 0, 0, 18446744073709551615, 0, 1, 0, true⟩
  | .LEARN_FC_SOURCES_BELOW => ⟨.LEARN, 0x228, 63, 0, .rw, .write, 0, 0, 18446744073709551615, 0, 1, 0, true⟩
  | .LEARN_FC_SOURCES_PREEMPTED => ⟨.LEARN, 0x230, 63, 0, .rw, .write, 0, 0, 18446744073709551615, 0, 1, 0, true⟩
  | .LEARN_HIST_TRUNCATED => ⟨.LEARN, 0x238, 63, 0, .rw, .write, 0, 0, 18446744073709551615, 0, 1, 0, true⟩
  | .LEARN_CONF_CHANGES => ⟨.LEARN, 0x240, 63, 0, .rw, .write, 0, 0, 18446744073709551615, 0, 1, 0, true⟩
  | .LEARN_ANALYSES => ⟨.LEARN, 0x248, 63, 0, .rw, .write, 0, 0, 18446744073709551615, 0, 1, 0, true⟩
  | .LEARN_ANALYSES_FAILED => ⟨.LEARN, 0x250, 63, 0, .rw, .write, 0, 0, 18446744073709551615, 0, 1, 0, true⟩
  | .LEARN_ANALYSES_REFUSED => ⟨.LEARN, 0x258, 63, 0, .rw, .write, 0, 0, 18446744073709551615, 0, 1, 0, true⟩
  | .LEARN_ADVICE_ISSUED => ⟨.LEARN, 0x260, 63, 0, .rw, .write, 0, 0, 18446744073709551615, 0, 1, 0, true⟩
  | .LEARN_ADVICE_APPLIED => ⟨.LEARN, 0x268, 63, 0, .rw, .write, 0, 0, 18446744073709551615, 0, 1, 0, true⟩
  | .LEARN_ADVICE_WITHDRAWN => ⟨.LEARN, 0x270, 63, 0, .rw, .write, 0, 0, 18446744073709551615, 0, 1, 0, true⟩
  | .LEARN_LH_EVALS => ⟨.LEARN, 0x278, 63, 0, .rw, .write, 0, 0, 18446744073709551615, 0, 1, 0, true⟩
  | .LEARN_LH_FLAGS_SET => ⟨.LEARN, 0x280, 63, 0, .rw, .write, 0, 0, 18446744073709551615, 0, 1, 0, true⟩
  | .LEARN_LH_FLAGS_CLEARED => ⟨.LEARN, 0x288, 63, 0, .rw, .write, 0, 0, 18446744073709551615, 0, 1, 0, true⟩
  | .LEARN_LH_DISABLES => ⟨.LEARN, 0x290, 63, 0, .rw, .write, 0, 0, 18446744073709551615, 0, 1, 0, true⟩
  | .LEARN_CLAMPS => ⟨.LEARN, 0x298, 63, 0, .rw, .write, 0, 0, 18446744073709551615, 0, 1, 0, true⟩
  | .IMAGE_LAST_IMAGE_ID => ⟨.IMAGE, 0x100, 31, 0, .ro, .write, 0, 0, 4294967295, 0, 1, 0, false⟩
  | .IMAGE_LAST_IMAGE_VER => ⟨.IMAGE, 0x104, 31, 0, .ro, .write, 0, 0, 4294967295, 0, 1, 0, false⟩
  | .IMAGE_LAST_STATUS => ⟨.IMAGE, 0x108, 7, 0, .ro, .write, 0, 0, 255, 0, 1, 0, false⟩
  | .IMAGE_LAST_CTX => ⟨.IMAGE, 0x108, 15, 8, .ro, .write, 255, 0, 255, 0, 1, 0, false⟩
  | .IMAGE_LAST_FAIL_SECTION => ⟨.IMAGE, 0x108, 23, 16, .ro, .write, 255, 0, 255, 0, 1, 0, false⟩
  | .IMAGE_LAST_FAIL_CHECK => ⟨.IMAGE, 0x108, 27, 24, .ro, .write, 0, 0, 15, 0, 1, 0, false⟩
  | .IMAGE_LOAD_BW => ⟨.IMAGE, 0x10C, 4, 0, .rwb, .selected, 16, 1, 16, 0, 1, 0, false⟩
  | .IMAGE_LAST_LOAD_TICKS => ⟨.IMAGE, 0x110, 31, 0, .ro, .write, 0, 0, 4294967295, 0, 1, 0, false⟩
  | .IMAGE_LOADS => ⟨.IMAGE, 0x200, 63, 0, .rw, .write, 0, 0, 18446744073709551615, 0, 1, 0, true⟩
  | .IMAGE_LOAD_FAILED => ⟨.IMAGE, 0x208, 63, 0, .rw, .write, 0, 0, 18446744073709551615, 0, 1, 0, true⟩
  | .IMAGE_AUTH_FAILS => ⟨.IMAGE, 0x210, 63, 0, .rw, .write, 0, 0, 18446744073709551615, 0, 1, 0, true⟩
  | .IMAGE_SECTIONS_INSTALLED => ⟨.IMAGE, 0x218, 63, 0, .rw, .write, 0, 0, 18446744073709551615, 0, 1, 0, true⟩
  | .IMAGE_SECTIONS_REPLACED => ⟨.IMAGE, 0x220, 63, 0, .rw, .write, 0, 0, 18446744073709551615, 0, 1, 0, true⟩
  | .IMAGE_TEMPLATES_REFUSED => ⟨.IMAGE, 0x228, 63, 0, .rw, .write, 0, 0, 18446744073709551615, 0, 1, 0, true⟩
  | .IMAGE_UNLISTED_IDS => ⟨.IMAGE, 0x230, 63, 0, .rw, .write, 0, 0, 18446744073709551615, 0, 1, 0, true⟩
  | .IMAGE_BYTES_FETCHED => ⟨.IMAGE, 0x238, 63, 0, .rw, .write, 0, 0, 18446744073709551615, 0, 1, 0, true⟩
  | .FAIL_FENCE_AUTO => ⟨.FAIL, 0x100, 0, 0, .rwb, .selected, 1, 0, 1, 0, 1, 0, false⟩
  | .FAIL_PEER_NOTICE => ⟨.FAIL, 0x100, 1, 1, .rwb, .selected, 1, 0, 1, 0, 1, 0, false⟩
  | .FAIL_DEGRADE_CEILING => ⟨.FAIL, 0x100, 2, 2, .rwb, .selected, 1, 0, 1, 0, 1, 0, false⟩
  | .FAIL_SILENT_PERIODS => ⟨.FAIL, 0x104, 3, 0, .rwb, .selected, 3, 2, 15, 0, 1, 0, false⟩
  | .FAIL_VIOL_THRESH => ⟨.FAIL, 0x108, 15, 0, .rwb, .selected, 64, 1, 65535, 0, 1, 0, false⟩
  | .FAIL_FENCE_BATCH => ⟨.FAIL, 0x10C, 6, 0, .rwb, .selected, 4, 0, 100, 0, 1, 0, false⟩
  | .FAIL_FENCES_HELD => ⟨.FAIL, 0x110, 12, 0, .ro, .write, 0, 0, 8191, 0, 1, 0, false⟩
  | .FAIL_LAST_NOTICE_TICKS => ⟨.FAIL, 0x114, 31, 0, .ro, .write, 0, 0, 4294967295, 0, 1, 0, false⟩
  | .FAIL_LAST_FENCE_TICKS => ⟨.FAIL, 0x118, 31, 0, .ro, .write, 0, 0, 4294967295, 0, 1, 0, false⟩
  | .FAIL_DETECTIONS => ⟨.FAIL, 0x200, 63, 0, .rw, .write, 0, 0, 18446744073709551615, 0, 1, 0, true⟩
  | .FAIL_PEER_RESETS => ⟨.FAIL, 0x208, 63, 0, .rw, .write, 0, 0, 18446744073709551615, 0, 1, 0, true⟩
  | .FAIL_NOTICE_UNICASTS => ⟨.FAIL, 0x210, 63, 0, .rw, .write, 0, 0, 18446744073709551615, 0, 1, 0, true⟩
  | .FAIL_FENCES_ISSUED => ⟨.FAIL, 0x218, 63, 0, .rw, .write, 0, 0, 18446744073709551615, 0, 1, 0, true⟩
  | .FAIL_FENCE_BATCHES => ⟨.FAIL, 0x220, 63, 0, .rw, .write, 0, 0, 18446744073709551615, 0, 1, 0, true⟩
  | .FAIL_FENCE_RETRIES => ⟨.FAIL, 0x228, 63, 0, .rw, .write, 0, 0, 18446744073709551615, 0, 1, 0, true⟩
  | .FAIL_FENCE_REFUSED => ⟨.FAIL, 0x230, 63, 0, .rw, .write, 0, 0, 18446744073709551615, 0, 1, 0, true⟩
  | .FAIL_UNFENCES => ⟨.FAIL, 0x238, 63, 0, .rw, .write, 0, 0, 18446744073709551615, 0, 1, 0, true⟩
  | .FAIL_VIOLATIONS_RX => ⟨.FAIL, 0x240, 63, 0, .rw, .write, 0, 0, 18446744073709551615, 0, 1, 0, true⟩
  | .FAIL_VIOL_BLOCKS => ⟨.FAIL, 0x248, 63, 0, .rw, .write, 0, 0, 18446744073709551615, 0, 1, 0, true⟩
  | .FAIL_CEILING_CHANGES => ⟨.FAIL, 0x250, 63, 0, .rw, .write, 0, 0, 18446744073709551615, 0, 1, 0, true⟩
  | .FAIL_RESYNCS => ⟨.FAIL, 0x258, 63, 0, .rw, .write, 0, 0, 18446744073709551615, 0, 1, 0, true⟩
  | .FAIL_CLAMPS => ⟨.FAIL, 0x260, 63, 0, .rw, .write, 0, 0, 18446744073709551615, 0, 1, 0, true⟩
  | .CONTEXT_VIEW_CTX => ⟨.CONTEXT, 0x100, 5, 0, .rw, .write, 0, 0, 63, 0, 1, 0, false⟩
  | .CONTEXT_VIEW_STATE => ⟨.CONTEXT, 0x104, 1, 0, .ro, .write, 0, 0, 3, 0, 1, 0, false⟩
  | .CONTEXT_VIEW_STAGE => ⟨.CONTEXT, 0x104, 6, 4, .ro, .write, 0, 0, 7, 0, 1, 0, false⟩
  | .CONTEXT_VIEW_CONF => ⟨.CONTEXT, 0x104, 8, 8, .ro, .write, 0, 0, 1, 0, 1, 0, false⟩
  | .CONTEXT_VIEW_RESIDENT => ⟨.CONTEXT, 0x104, 31, 16, .ro, .write, 0, 0, 65535, 0, 1, 0, false⟩
  | .CONTEXT_VIEW_GEN => ⟨.CONTEXT, 0x108, 31, 0, .ro, .write, 0, 0, 4294967295, 0, 1, 0, false⟩
  | .CONTEXT_VIEW_KEY_GEN => ⟨.CONTEXT, 0x10C, 31, 0, .ro, .write, 0, 0, 4294967295, 0, 1, 0, false⟩
  | .CONTEXT_CONF_RESIDENT => ⟨.CONTEXT, 0x110, 6, 0, .ro, .write, 0, 0, 127, 0, 1, 0, false⟩
  | .CONTEXT_COARSE => ⟨.CONTEXT, 0x110, 8, 8, .ro, .write, 0, 0, 1, 0, 1, 0, false⟩
  | .CONTEXT_DEBUG_LOCK => ⟨.CONTEXT, 0x114, 15, 0, .ro, .write, 0, 0, 65535, 0, 1, 0, false⟩
  | .CONTEXT_FW_VER => ⟨.CONTEXT, 0x118, 31, 0, .ro, .write, 0, 0, 4294967295, 0, 1, 0, false⟩
  | .CONTEXT_ROM_VER => ⟨.CONTEXT, 0x11C, 31, 0, .ro, .write, 0, 0, 4294967295, 0, 1, 0, false⟩
  | .CONTEXT_IDENTITY_OK => ⟨.CONTEXT, 0x120, 0, 0, .ro, .write, 0, 0, 1, 0, 1, 0, false⟩
  | .CONTEXT_Q_BASE => ⟨.CONTEXT, 0x140, 63, 0, .rw, .write, 0, 0, 18446744073709551615, 0, 1, 0, false⟩
  | .CONTEXT_Q_LOG2 => ⟨.CONTEXT, 0x148, 4, 0, .rw, .write, 6, 0, 31, 0, 1, 0, false⟩
  | .CONTEXT_Q_HEAD => ⟨.CONTEXT, 0x14C, 15, 0, .ro, .write, 0, 0, 65535, 0, 1, 0, false⟩
  | .CONTEXT_Q_TAIL => ⟨.CONTEXT, 0x150, 15, 0, .rw, .write, 0, 0, 65535, 0, 1, 0, false⟩
  | .CONTEXT_CQ_BASE => ⟨.CONTEXT, 0x158, 63, 0, .rw, .write, 0, 0, 18446744073709551615, 0, 1, 0, false⟩
  | .CONTEXT_CQ_LOG2 => ⟨.CONTEXT, 0x160, 4, 0, .rw, .write, 6, 0, 31, 0, 1, 0, false⟩
  | .CONTEXT_CQ_TAIL => ⟨.CONTEXT, 0x164, 15, 0, .ro, .write, 0, 0, 65535, 0, 1, 0, false⟩
  | .CONTEXT_CQ_HEAD => ⟨.CONTEXT, 0x168, 15, 0, .rw, .write, 0, 0, 65535, 0, 1, 0, false⟩
  | .CONTEXT_Q_ENABLE => ⟨.CONTEXT, 0x16C, 0, 0, .rw, .write, 0, 0, 1, 0, 1, 0, false⟩
  | .CONTEXT_Q_IDLE => ⟨.CONTEXT, 0x16C, 1, 1, .ro, .write, 1, 0, 1, 0, 1, 0, false⟩
  | .CONTEXT_CREATES => ⟨.CONTEXT, 0x200, 63, 0, .rw, .write, 0, 0, 18446744073709551615, 0, 1, 0, true⟩
  | .CONTEXT_TEARDOWNS => ⟨.CONTEXT, 0x208, 63, 0, .rw, .write, 0, 0, 18446744073709551615, 0, 1, 0, true⟩
  | .CONTEXT_KEY_IMPORTS => ⟨.CONTEXT, 0x210, 63, 0, .rw, .write, 0, 0, 18446744073709551615, 0, 1, 0, true⟩
  | .CONTEXT_KEY_FAILS => ⟨.CONTEXT, 0x218, 63, 0, .rw, .write, 0, 0, 18446744073709551615, 0, 1, 0, true⟩
  | .CONTEXT_APERTURE_DENIED => ⟨.CONTEXT, 0x220, 63, 0, .rw, .write, 0, 0, 18446744073709551615, 0, 1, 0, true⟩
  | .CONTEXT_IDE_REJECTS => ⟨.CONTEXT, 0x228, 63, 0, .rw, .write, 0, 0, 18446744073709551615, 0, 1, 0, true⟩
  | .CONTEXT_SCRUB_BYTES => ⟨.CONTEXT, 0x230, 63, 0, .rw, .write, 0, 0, 18446744073709551615, 0, 1, 0, true⟩
  | .CONTEXT_SPDM_REQUESTS => ⟨.CONTEXT, 0x238, 63, 0, .rw, .write, 0, 0, 18446744073709551615, 0, 1, 0, true⟩
  | .LINKSEC_KEYED => ⟨.LINKSEC, 0x100, 0, 0, .ro, .write, 0, 0, 1, 0, 1, 0, false⟩
  | .LINKSEC_GEN_PARITY => ⟨.LINKSEC, 0x100, 1, 1, .ro, .write, 0, 0, 1, 0, 1, 0, false⟩
  | .LINKSEC_REKEY_LOG2 => ⟨.LINKSEC, 0x104, 5, 0, .rwb, .selected, 39, 24, 39, 0, 1, 0, false⟩
  | .LINKSEC_TX_COUNTER => ⟨.LINKSEC, 0x108, 63, 0, .ro, .write, 0, 0, 18446744073709551615, 0, 1, 0, false⟩
  | .LINKSEC_RX_COUNTER => ⟨.LINKSEC, 0x110, 63, 0, .ro, .write, 0, 0, 18446744073709551615, 0, 1, 0, false⟩
  | .LINKSEC_REVOKED_MASK => ⟨.LINKSEC, 0x118, 63, 0, .ro, .write, 0, 0, 18446744073709551615, 0, 1, 0, false⟩
  | .LINKSEC_HANDSHAKES => ⟨.LINKSEC, 0x200, 63, 0, .rw, .write, 0, 0, 18446744073709551615, 0, 1, 0, true⟩
  | .LINKSEC_HANDSHAKE_FAILS => ⟨.LINKSEC, 0x208, 63, 0, .rw, .write, 0, 0, 18446744073709551615, 0, 1, 0, true⟩
  | .LINKSEC_REKEYS => ⟨.LINKSEC, 0x210, 63, 0, .rw, .write, 0, 0, 18446744073709551615, 0, 1, 0, true⟩
  | .LINKSEC_AUTH_DROPS => ⟨.LINKSEC, 0x218, 63, 0, .rw, .write, 0, 0, 18446744073709551615, 0, 1, 0, true⟩
  | .LINKSEC_REPLAY_DROPS => ⟨.LINKSEC, 0x220, 63, 0, .rw, .write, 0, 0, 18446744073709551615, 0, 1, 0, true⟩
  | .LINKSEC_SLOT_MISMATCH => ⟨.LINKSEC, 0x228, 63, 0, .rw, .write, 0, 0, 18446744073709551615, 0, 1, 0, true⟩
  | .LINKSEC_REVOKED_FRAMES => ⟨.LINKSEC, 0x230, 63, 0, .rw, .write, 0, 0, 18446744073709551615, 0, 1, 0, true⟩
  | .COMMON_BLOCK => ⟨.COMMON, 0x0, 15, 0, .ro, .write, 0, 0, 65535, 0, 1, 0, false⟩
  | .COMMON_INSTANCE => ⟨.COMMON, 0x0, 31, 16, .ro, .write, 0, 0, 65535, 0, 1, 0, false⟩
  | .COMMON_PAGE_VER => ⟨.COMMON, 0x4, 31, 0, .ro, .write, 65536, 0, 4294967295, 0, 1, 0, false⟩
  | .COMMON_CAP => ⟨.COMMON, 0x8, 31, 0, .ro, .write, 0, 0, 4294967295, 0, 1, 0, false⟩
  | .COMMON_CTRL => ⟨.COMMON, 0x10, 30, 0, .ro, .write, 0, 0, 2147483647, 0, 1, 0, false⟩
  | .COMMON_VIEW_PENDING => ⟨.COMMON, 0x10, 31, 31, .rw, .write, 0, 0, 1, 0, 1, 0, false⟩
  | .COMMON_STATUS => ⟨.COMMON, 0x14, 31, 0, .ro, .write, 0, 0, 4294967295, 0, 1, 0, false⟩
  | .COMMON_INT_STATUS => ⟨.COMMON, 0x18, 30, 0, .w1c, .write, 0, 0, 2147483647, 0, 1, 0, false⟩
  | .COMMON_CQ_WRITTEN => ⟨.COMMON, 0x18, 31, 31, .w1c, .write, 0, 0, 1, 0, 1, 0, false⟩
  | .COMMON_INT_ENABLE => ⟨.COMMON, 0x1C, 31, 0, .rw, .write, 0, 0, 4294967295, 0, 1, 0, false⟩
  | .COMMON_BOUNDARY => ⟨.COMMON, 0x20, 1, 0, .rw, .write, 0, 0, 3, 0, 1, 0, false⟩
  | .COMMON_STEP_JOB => ⟨.COMMON, 0x20, 17, 2, .rw, .write, 0, 0, 65535, 0, 1, 0, false⟩
  | .COMMON_PENDING => ⟨.COMMON, 0x20, 30, 30, .ro, .write, 0, 0, 1, 0, 1, 0, false⟩
  | .COMMON_COMMIT => ⟨.COMMON, 0x20, 31, 31, .wo, .write, 0, 0, 1, 0, 1, 0, false⟩
  | .COMMON_SNAPSHOT => ⟨.COMMON, 0x24, 0, 0, .wo, .write, 0, 0, 1, 0, 1, 0, false⟩
  | .CTXQ_RESIDENT => ⟨.CTXQ, 0x100, 0, 0, .ro, .write, 0, 0, 1, 0, 1, 0, false⟩
  | .CTXQ_CONFIDENTIAL => ⟨.CTXQ, 0x100, 1, 1, .ro, .write, 0, 0, 1, 0, 1, 0, false⟩
  | .CTXQ_STAGE => ⟨.CTXQ, 0x100, 6, 4, .ro, .write, 0, 0, 7, 0, 1, 0, false⟩
  | .CTXQ_Q_BASE => ⟨.CTXQ, 0x140, 63, 0, .rw, .write, 0, 0, 18446744073709551615, 0, 1, 0, false⟩
  | .CTXQ_Q_LOG2 => ⟨.CTXQ, 0x148, 4, 0, .rw, .write, 6, 0, 31, 0, 1, 0, false⟩
  | .CTXQ_Q_HEAD => ⟨.CTXQ, 0x14C, 15, 0, .ro, .write, 0, 0, 65535, 0, 1, 0, false⟩
  | .CTXQ_Q_TAIL => ⟨.CTXQ, 0x150, 15, 0, .rw, .write, 0, 0, 65535, 0, 1, 0, false⟩
  | .CTXQ_CQ_BASE => ⟨.CTXQ, 0x158, 63, 0, .rw, .write, 0, 0, 18446744073709551615, 0, 1, 0, false⟩
  | .CTXQ_CQ_LOG2 => ⟨.CTXQ, 0x160, 4, 0, .rw, .write, 6, 0, 31, 0, 1, 0, false⟩
  | .CTXQ_CQ_TAIL => ⟨.CTXQ, 0x164, 15, 0, .ro, .write, 0, 0, 65535, 0, 1, 0, false⟩
  | .CTXQ_CQ_HEAD => ⟨.CTXQ, 0x168, 15, 0, .rw, .write, 0, 0, 65535, 0, 1, 0, false⟩
  | .CTXQ_Q_ENABLE => ⟨.CTXQ, 0x16C, 0, 0, .rw, .write, 0, 0, 1, 0, 1, 0, false⟩
  | .CTXQ_Q_IDLE => ⟨.CTXQ, 0x16C, 1, 1, .ro, .write, 1, 0, 1, 0, 1, 0, false⟩
  | .CTXQ_Q_WINDOW => ⟨.CTXQ, 0x16C, 2, 2, .rw, .write, 0, 0, 1, 0, 1, 0, false⟩
  | .CTXQ_DEFAULT_TIMEOUT => ⟨.CTXQ, 0x170, 7, 0, .rw, .write, 147, 0, 255, 0, 1, 0, false⟩
  | .CTXQ_M_Q_BASE => ⟨.CTXQ, 0x180, 63, 0, .rw, .write, 0, 0, 18446744073709551615, 0, 1, 0, false⟩
  | .CTXQ_M_Q_LOG2 => ⟨.CTXQ, 0x188, 4, 0, .rw, .write, 6, 0, 31, 0, 1, 0, false⟩
  | .CTXQ_M_Q_HEAD => ⟨.CTXQ, 0x18C, 15, 0, .ro, .write, 0, 0, 65535, 0, 1, 0, false⟩
  | .CTXQ_M_Q_TAIL => ⟨.CTXQ, 0x190, 15, 0, .rw, .write, 0, 0, 65535, 0, 1, 0, false⟩
  | .CTXQ_M_CQ_BASE => ⟨.CTXQ, 0x198, 63, 0, .rw, .write, 0, 0, 18446744073709551615, 0, 1, 0, false⟩
  | .CTXQ_M_CQ_LOG2 => ⟨.CTXQ, 0x1A0, 4, 0, .rw, .write, 6, 0, 31, 0, 1, 0, false⟩
  | .CTXQ_M_CQ_TAIL => ⟨.CTXQ, 0x1A4, 15, 0, .ro, .write, 0, 0, 65535, 0, 1, 0, false⟩
  | .CTXQ_M_CQ_HEAD => ⟨.CTXQ, 0x1A8, 15, 0, .rw, .write, 0, 0, 65535, 0, 1, 0, false⟩
  | .CTXQ_M_Q_ENABLE => ⟨.CTXQ, 0x1AC, 0, 0, .rw, .write, 0, 0, 1, 0, 1, 0, false⟩
  | .CTXQ_M_Q_IDLE => ⟨.CTXQ, 0x1AC, 1, 1, .ro, .write, 1, 0, 1, 0, 1, 0, false⟩
  | .CTXQ_M_Q_WINDOW => ⟨.CTXQ, 0x1AC, 2, 2, .rw, .write, 0, 0, 1, 0, 1, 0, false⟩
  | .CTXQ_M_DEFAULT_TIMEOUT => ⟨.CTXQ, 0x1B0, 7, 0, .rw, .write, 147, 0, 255, 0, 1, 0, false⟩
  | .CTXQ_CTX_INT_STATUS => ⟨.CTXQ, 0x1C0, 4, 0, .w1c, .write, 0, 0, 31, 0, 1, 0, false⟩
  | .CTXQ_CTX_INT_ENABLE => ⟨.CTXQ, 0x1C4, 4, 0, .rw, .write, 0, 0, 31, 0, 1, 0, false⟩
  | .CTXQ_COMPUTE_DONE => ⟨.CTXQ, 0x200, 63, 0, .rw, .write, 0, 0, 18446744073709551615, 0, 1, 0, true⟩
  | .CTXQ_MULE_DONE => ⟨.CTXQ, 0x208, 63, 0, .rw, .write, 0, 0, 18446744073709551615, 0, 1, 0, true⟩
  | .CTXQ_CMD_TIMEOUTS => ⟨.CTXQ, 0x210, 63, 0, .rw, .write, 0, 0, 18446744073709551615, 0, 1, 0, true⟩
  | .DEVICE_HOST_CFG => ⟨.DEVICE, 0x100, 1, 0, .ro, .write, 0, 0, 3, 0, 1, 0, false⟩
  | .DEVICE_BOOT_SRC => ⟨.DEVICE, 0x100, 2, 2, .ro, .write, 0, 0, 1, 0, 1, 0, false⟩
  | .DEVICE_OWNER => ⟨.DEVICE, 0x104, 15, 0, .rwp, .commit, 65280, 0, 65535, 0, 1, 0, false⟩
  | .DEVICE_DEVICE_PORT => ⟨.DEVICE, 0x108, 0, 0, .ro, .write, 0, 0, 1, 0, 1, 0, false⟩
  | .DEVICE_ACTIVE_PORT => ⟨.DEVICE, 0x10C, 0, 0, .ro, .write, 0, 0, 1, 0, 1, 0, false⟩
  | .DEVICE_ROLE => ⟨.DEVICE, 0x110, 1, 0, .ro, .write, 0, 0, 3, 0, 1, 0, false⟩
  | .DEVICE_CLUSTER_INDEX => ⟨.DEVICE, 0x110, 12, 8, .ro, .write, 0, 0, 31, 0, 1, 0, false⟩
  | .DEVICE_LEAD => ⟨.DEVICE, 0x110, 19, 16, .ro, .write, 0, 0, 15, 0, 1, 0, false⟩
  | .DEVICE_IN_SERVICE => ⟨.DEVICE, 0x114, 15, 0, .ro, .write, 65535, 0, 65535, 0, 1, 0, false⟩
  | .DEVICE_STEPPING => ⟨.DEVICE, 0x118, 7, 0, .ro, .write, 17, 0, 255, 0, 1, 0, false⟩
  | .DEVICE_HB_TIMEOUT => ⟨.DEVICE, 0x120, 13, 0, .rwb, .selected, 1000, 10, 10000, 0, 1, 0, false⟩
  | .DEVICE_TAKEOVER_AUTO => ⟨.DEVICE, 0x120, 31, 31, .rwb, .selected, 0, 0, 1, 0, 1, 0, false⟩
  | .DEVICE_OWNER_REFUSED => ⟨.DEVICE, 0x200, 63, 0, .rw, .write, 0, 0, 18446744073709551615, 0, 1, 0, true⟩
  | .DEVICE_FAILOVERS => ⟨.DEVICE, 0x208, 63, 0, .rw, .write, 0, 0, 18446744073709551615, 0, 1, 0, true⟩
  | .HOSTPORT_LINK_UP => ⟨.HOSTPORT, 0x100, 0, 0, .ro, .write, 0, 0, 1, 0, 1, 0, false⟩
  | .HOSTPORT_LINK_SPEED => ⟨.HOSTPORT, 0x100, 3, 1, .ro, .write, 0, 0, 7, 0, 1, 0, false⟩
  | .HOSTPORT_LINK_WIDTH => ⟨.HOSTPORT, 0x100, 8, 4, .ro, .write, 0, 0, 31, 0, 1, 0, false⟩
  | .HOSTPORT_PORT_ROLE => ⟨.HOSTPORT, 0x104, 1, 0, .ro, .write, 0, 0, 3, 0, 1, 0, false⟩
  | .HOSTPORT_HEARTBEAT => ⟨.HOSTPORT, 0x108, 0, 0, .wo, .write, 0, 0, 1, 0, 1, 0, false⟩
  | .HOSTPORT_TAKEOVER => ⟨.HOSTPORT, 0x10C, 0, 0, .rwp, .commit, 0, 0, 1, 0, 1, 0, false⟩
  | .HOSTPORT_PAIR_FAILS => ⟨.HOSTPORT, 0x200, 63, 0, .rw, .write, 0, 0, 18446744073709551615, 0, 1, 0, true⟩
  | .HOSTPORT_UNOWNED_ACCESS => ⟨.HOSTPORT, 0x208, 63, 0, .rw, .write, 0, 0, 18446744073709551615, 0, 1, 0, true⟩
  | .HOSTPORT_READ_TIMEOUTS => ⟨.HOSTPORT, 0x210, 63, 0, .rw, .write, 0, 0, 18446744073709551615, 0, 1, 0, true⟩
  | .HOSTPORT_CQ_LOST => ⟨.HOSTPORT, 0x218, 63, 0, .rw, .write, 0, 0, 18446744073709551615, 0, 1, 0, true⟩
  | .HOSTPORT_PERST_EVENTS => ⟨.HOSTPORT, 0x220, 63, 0, .rw, .write, 0, 0, 18446744073709551615, 0, 1, 0, true⟩
  | .HOSTPORT_MSIX_SENT => ⟨.HOSTPORT, 0x228, 63, 0, .rw, .write, 0, 0, 18446744073709551615, 0, 1, 0, true⟩
  | .RING_BYPASS => ⟨.RING, 0x100, 3, 0, .ro, .write, 0, 0, 15, 0, 1, 0, false⟩
  | .RING_MISROUTED => ⟨.RING, 0x200, 63, 0, .rw, .write, 0, 0, 18446744073709551615, 0, 1, 0, true⟩
  | .RING_BYPASS_READS => ⟨.RING, 0x208, 63, 0, .rw, .write, 0, 0, 18446744073709551615, 0, 1, 0, true⟩
  | .RING_BYPASS_WRITES => ⟨.RING, 0x210, 63, 0, .rw, .write, 0, 0, 18446744073709551615, 0, 1, 0, true⟩
  | .CORES_STATE => ⟨.CORES, 0x100, 2, 0, .ro, .write, 0, 0, 7, 4, 4, 0, false⟩
  | .CORES_RUN_CTX => ⟨.CORES, 0x100, 15, 8, .ro, .write, 255, 0, 255, 4, 4, 0, false⟩
  | .CORES_USER_QUANTUM => ⟨.CORES, 0x110, 9, 0, .rwb, .selected, 100, 10, 1000, 0, 1, 0, false⟩
  | .CORES_CTL_CTX => ⟨.CORES, 0x114, 5, 0, .rw, .write, 0, 0, 63, 0, 1, 0, false⟩
  | .CORES_CTL_CORES => ⟨.CORES, 0x114, 11, 8, .rw, .write, 0, 0, 15, 0, 1, 0, false⟩
  | .CORES_CTL_OP => ⟨.CORES, 0x114, 17, 16, .wo, .write, 0, 0, 3, 0, 1, 0, false⟩
  | .CORES_PROG_STATE => ⟨.CORES, 0x118, 1, 0, .ro, .write, 0, 0, 3, 0, 4, 2, false⟩
  | .CORES_LAST_FAULT_CTX => ⟨.CORES, 0x120, 5, 0, .ro, .write, 0, 0, 63, 0, 1, 0, false⟩
  | .CORES_LAST_FAULT_CORE => ⟨.CORES, 0x120, 9, 8, .ro, .write, 0, 0, 3, 0, 1, 0, false⟩
  | .CORES_LAST_FAULT_CAUSE => ⟨.CORES, 0x128, 63, 0, .ro, .write, 0, 0, 18446744073709551615, 0, 1, 0, false⟩
  | .CORES_LAST_FAULT_PC => ⟨.CORES, 0x130, 63, 0, .ro, .write, 0, 0, 18446744073709551615, 0, 1, 0, false⟩
  | .CORES_LAST_FAULT_TVAL => ⟨.CORES, 0x138, 63, 0, .ro, .write, 0, 0, 18446744073709551615, 0, 1, 0, false⟩
  | .CORES_PROG_STARTS => ⟨.CORES, 0x200, 63, 0, .rw, .write, 0, 0, 18446744073709551615, 0, 1, 0, true⟩
  | .CORES_PROG_FAULTS => ⟨.CORES, 0x208, 63, 0, .rw, .write, 0, 0, 18446744073709551615, 0, 1, 0, true⟩
  | .CORES_CTX_SWITCHES => ⟨.CORES, 0x210, 63, 0, .rw, .write, 0, 0, 18446744073709551615, 0, 1, 0, true⟩
  | .CORES_ISSUES => ⟨.CORES, 0x218, 63, 0, .rw, .write, 0, 0, 18446744073709551615, 0, 1, 0, true⟩
  | .CORES_ISSUE_REFUSED => ⟨.CORES, 0x220, 63, 0, .rw, .write, 0, 0, 18446744073709551615, 0, 1, 0, true⟩
  | .CORES_CACHE_PARITY => ⟨.CORES, 0x228, 63, 0, .rw, .write, 0, 0, 18446744073709551615, 0, 1, 0, true⟩
  | .MEMORY_SRAM_FREE => ⟨.MEMORY, 0x100, 16, 0, .ro, .write, 0, 0, 131071, 0, 1, 0, false⟩
  | .MEMORY_LPDDR_FREE => ⟨.MEMORY, 0x104, 21, 0, .ro, .write, 0, 0, 4194303, 0, 1, 0, false⟩
  | .MEMORY_DEVICE_SRAM => ⟨.MEMORY, 0x108, 7, 0, .ro, .write, 24, 0, 255, 0, 1, 0, false⟩
  | .MEMORY_APERTURE_BASE => ⟨.MEMORY, 0x10C, 4, 0, .rw, .write, 0, 0, 31, 0, 1, 0, false⟩
  | .MEMORY_VIEW_CTX => ⟨.MEMORY, 0x110, 5, 0, .rw, .write, 0, 0, 63, 0, 1, 0, false⟩
  | .MEMORY_SRAM_FIRST => ⟨.MEMORY, 0x114, 31, 0, .ro, .write, 0, 0, 4294967295, 0, 1, 0, false⟩
  | .MEMORY_SRAM_TILES => ⟨.MEMORY, 0x118, 31, 0, .ro, .write, 0, 0, 4294967295, 0, 1, 0, false⟩
  | .MEMORY_LPDDR_FIRST => ⟨.MEMORY, 0x11C, 31, 0, .ro, .write, 0, 0, 4294967295, 0, 1, 0, false⟩
  | .MEMORY_LPDDR_TILES => ⟨.MEMORY, 0x120, 31, 0, .ro, .write, 0, 0, 4294967295, 0, 1, 0, false⟩
  | .MEMORY_TILE_RELOADS => ⟨.MEMORY, 0x200, 63, 0, .rw, .write, 0, 0, 18446744073709551615, 0, 1, 0, true⟩
  | .MEMORY_TILE_UNREPAIRED => ⟨.MEMORY, 0x208, 63, 0, .rw, .write, 0, 0, 18446744073709551615, 0, 1, 0, true⟩
  | .MEMORY_LPDDR_CORRECTED => ⟨.MEMORY, 0x210, 63, 0, .rw, .write, 0, 0, 18446744073709551615, 0, 1, 0, true⟩
  | .MEMORY_LPDDR_UNCORRECTED => ⟨.MEMORY, 0x218, 63, 0, .rw, .write, 0, 0, 18446744073709551615, 0, 1, 0, true⟩
  | .MEMORY_HEADER_PARITY => ⟨.MEMORY, 0x220, 63, 0, .rw, .write, 0, 0, 18446744073709551615, 0, 1, 0, true⟩
  | .MEMORY_APERTURE_WRITES_DROPPED => ⟨.MEMORY, 0x228, 63, 0, .rw, .write, 0, 0, 18446744073709551615, 0, 1, 0, true⟩
  | .MULE_BUSY => ⟨.MULE, 0x100, 3, 0, .ro, .write, 0, 0, 15, 0, 1, 0, false⟩
  | .MULE_HOST_LIMIT => ⟨.MULE, 0x104, 6, 0, .rwb, .selected, 64, 1, 64, 0, 1, 0, false⟩
  | .MULE_COMMANDS => ⟨.MULE, 0x200, 63, 0, .rw, .write, 0, 0, 18446744073709551615, 0, 1, 0, true⟩
  | .MULE_CMD_FAILED => ⟨.MULE, 0x208, 63, 0, .rw, .write, 0, 0, 18446744073709551615, 0, 1, 0, true⟩
  | .MULE_TILES_MOVED => ⟨.MULE, 0x210, 63, 0, .rw, .write, 0, 0, 18446744073709551615, 0, 1, 0, true⟩
  | .MULE_HOST_BYTES_READ => ⟨.MULE, 0x218, 63, 0, .rw, .write, 0, 0, 18446744073709551615, 0, 1, 0, true⟩
  | .MULE_HOST_BYTES_WRITTEN => ⟨.MULE, 0x220, 63, 0, .rw, .write, 0, 0, 18446744073709551615, 0, 1, 0, true⟩
  | .MULE_CHECK_FAILS => ⟨.MULE, 0x228, 63, 0, .rw, .write, 0, 0, 18446744073709551615, 0, 1, 0, true⟩
  | .MULE_REVOKED_ABORTS => ⟨.MULE, 0x230, 63, 0, .rw, .write, 0, 0, 18446744073709551615, 0, 1, 0, true⟩
  | .TIME_NOW => ⟨.TIME, 0x100, 63, 0, .ro, .write, 0, 0, 18446744073709551615, 0, 1, 0, false⟩
  | .TIME_STATE => ⟨.TIME, 0x108, 2, 0, .ro, .write, 4, 0, 7, 0, 1, 0, false⟩
  | .TIME_MASTER => ⟨.TIME, 0x108, 3, 3, .ro, .write, 0, 0, 1, 0, 1, 0, false⟩
  | .TIME_PARENT => ⟨.TIME, 0x108, 12, 8, .ro, .write, 0, 0, 31, 0, 1, 0, false⟩
  | .TIME_NO_PARENT => ⟨.TIME, 0x108, 13, 13, .ro, .write, 1, 0, 1, 0, 1, 0, false⟩
  | .TIME_LEG_PARTITION => ⟨.TIME, 0x108, 19, 16, .ro, .write, 0, 0, 15, 0, 1, 0, false⟩
  | .TIME_OFFSET => ⟨.TIME, 0x10C, 31, 0, .ro, .write, 0, 0, 4294967295, 0, 1, 0, false⟩
  | .TIME_RATE_ADJ => ⟨.TIME, 0x110, 31, 0, .ro, .write, 0, 0, 4294967295, 0, 1, 0, false⟩
  | .TIME_LAST_STEP => ⟨.TIME, 0x114, 31, 0, .ro, .write, 0, 0, 4294967295, 0, 1, 0, false⟩
  | .TIME_SET_TIME_LO => ⟨.TIME, 0x118, 31, 0, .rwp, .commit, 0, 0, 4294967295, 0, 1, 0, false⟩
  | .TIME_SET_TIME_HI => ⟨.TIME, 0x11C, 31, 0, .rwp, .commit, 0, 0, 4294967295, 0, 1, 0, false⟩
  | .TIME_SET_AT_PPS => ⟨.TIME, 0x120, 0, 0, .rwb, .selected, 0, 0, 1, 0, 1, 0, false⟩
  | .TIME_PPS_IN_EN => ⟨.TIME, 0x120, 1, 1, .rwb, .selected, 0, 0, 1, 0, 1, 0, false⟩
  | .TIME_PPS_OUT_EN => ⟨.TIME, 0x120, 2, 2, .rwb, .selected, 1, 0, 1, 0, 1, 0, false⟩
  | .TIME_PPS_ERR => ⟨.TIME, 0x124, 31, 0, .ro, .write, 0, 0, 4294967295, 0, 1, 0, false⟩
  | .TIME_LEG_SETS => ⟨.TIME, 0x200, 63, 0, .rw, .write, 0, 0, 18446744073709551615, 0, 1, 0, true⟩
  | .TIME_LEG_FAILS => ⟨.TIME, 0x208, 63, 0, .rw, .write, 0, 0, 18446744073709551615, 0, 1, 0, true⟩
  | .TIME_OUT_OF_BOUND => ⟨.TIME, 0x210, 63, 0, .rw, .write, 0, 0, 18446744073709551615, 0, 1, 0, true⟩
  | .TIME_TIME_STEPS => ⟨.TIME, 0x218, 63, 0, .rw, .write, 0, 0, 18446744073709551615, 0, 1, 0, true⟩
  | .TIME_PPS_EDGES => ⟨.TIME, 0x220, 63, 0, .rw, .write, 0, 0, 18446744073709551615, 0, 1, 0, true⟩
  | .TIME_PPS_MISSED => ⟨.TIME, 0x228, 63, 0, .rw, .write, 0, 0, 18446744073709551615, 0, 1, 0, true⟩
  | .COUNTERS_SNAP_TIME_LO => ⟨.COUNTERS, 0x100, 31, 0, .rwp, .commit, 0, 0, 4294967295, 0, 1, 0, false⟩
  | .COUNTERS_SNAP_TIME_HI => ⟨.COUNTERS, 0x104, 31, 0, .rwp, .commit, 0, 0, 4294967295, 0, 1, 0, false⟩
  | .COUNTERS_SNAP_ARM => ⟨.COUNTERS, 0x108, 0, 0, .rwb, .commit, 0, 0, 1, 0, 1, 0, false⟩
  | .COUNTERS_SNAP_NOW => ⟨.COUNTERS, 0x108, 1, 1, .wo, .write, 0, 0, 1, 0, 1, 0, false⟩
  | .COUNTERS_SNAP_STATE => ⟨.COUNTERS, 0x10C, 1, 0, .ro, .write, 0, 0, 3, 0, 1, 0, false⟩
  | .COUNTERS_SNAP_MISSED => ⟨.COUNTERS, 0x110, 15, 0, .ro, .write, 0, 0, 65535, 0, 1, 0, false⟩
  | .COUNTERS_SNAP_SEQ => ⟨.COUNTERS, 0x114, 31, 0, .ro, .write, 0, 0, 4294967295, 0, 1, 0, false⟩
  | .COUNTERS_SNAP_AT => ⟨.COUNTERS, 0x118, 63, 0, .ro, .write, 0, 0, 18446744073709551615, 0, 1, 0, false⟩
  | .COUNTERS_SNAPSHOTS => ⟨.COUNTERS, 0x200, 63, 0, .rw, .write, 0, 0, 18446744073709551615, 0, 1, 0, true⟩
  | .COUNTERS_SNAPSHOTS_MISSED => ⟨.COUNTERS, 0x208, 63, 0, .rw, .write, 0, 0, 18446744073709551615, 0, 1, 0, true⟩
  | .TRACE_TRACE_MODE => ⟨.TRACE, 0x100, 1, 0, .rwb, .selected, 0, 0, 3, 0, 1, 0, false⟩
  | .TRACE_CAPTURE => ⟨.TRACE, 0x100, 3, 2, .rwb, .selected, 0, 0, 2, 0, 1, 0, false⟩
  | .TRACE_TRIG_POS => ⟨.TRACE, 0x100, 10, 4, .rwb, .selected, 50, 0, 100, 0, 1, 0, false⟩
  | .TRACE_FW_TRACE => ⟨.TRACE, 0x100, 11, 11, .rwb, .selected, 0, 0, 1, 0, 1, 0, false⟩
  | .TRACE_NATIVE_SHARE => ⟨.TRACE, 0x104, 4, 0, .rwb, .selected, 8, 0, 16, 0, 1, 0, false⟩
  | .TRACE_SPILL_MIB => ⟨.TRACE, 0x108, 10, 0, .rwb, .selected, 0, 0, 1024, 0, 1, 0, false⟩
  | .TRACE_TRACE_BW => ⟨.TRACE, 0x10C, 4, 0, .rwb, .selected, 8, 1, 16, 0, 1, 0, false⟩
  | .TRACE_ARM => ⟨.TRACE, 0x110, 0, 0, .wo, .write, 0, 0, 1, 0, 1, 0, false⟩
  | .TRACE_STOP => ⟨.TRACE, 0x110, 1, 1, .wo, .write, 0, 0, 1, 0, 1, 0, false⟩
  | .TRACE_TRIG_NOW => ⟨.TRACE, 0x110, 2, 2, .wo, .write, 0, 0, 1, 0, 1, 0, false⟩
  | .TRACE_TRIG_SRC => ⟨.TRACE, 0x114, 8, 0, .rwb, .selected, 1, 0, 511, 0, 1, 0, false⟩
  | .TRACE_TRIG_CODE => ⟨.TRACE, 0x118, 15, 0, .rwb, .selected, 0, 0, 65535, 0, 1, 0, false⟩
  | .TRACE_TRIG_JOB => ⟨.TRACE, 0x118, 31, 16, .rwb, .selected, 65535, 0, 65535, 0, 1, 0, false⟩
  | .TRACE_TRIG_LAYER => ⟨.TRACE, 0x11C, 15, 0, .rwb, .selected, 65535, 0, 65535, 0, 1, 0, false⟩
  | .TRACE_TRIG_OPERATOR => ⟨.TRACE, 0x11C, 31, 16, .rwb, .selected, 65535, 0, 65535, 0, 1, 0, false⟩
  | .TRACE_TRIG_TIME_LO => ⟨.TRACE, 0x120, 31, 0, .rwb, .selected, 0, 0, 4294967295, 0, 1, 0, false⟩
  | .TRACE_TRIG_TIME_HI => ⟨.TRACE, 0x124, 31, 0, .rwb, .selected, 0, 0, 4294967295, 0, 1, 0, false⟩
  | .TRACE_STATE => ⟨.TRACE, 0x128, 2, 0, .ro, .write, 0, 0, 7, 0, 1, 0, false⟩
  | .TRACE_TRIG_AT => ⟨.TRACE, 0x130, 63, 0, .ro, .write, 0, 0, 18446744073709551615, 0, 1, 0, false⟩
  | .TRACE_NAT_FIRST => ⟨.TRACE, 0x138, 31, 0, .ro, .write, 0, 0, 4294967295, 0, 1, 0, false⟩
  | .TRACE_NAT_NEXT => ⟨.TRACE, 0x13C, 31, 0, .ro, .write, 0, 0, 4294967295, 0, 1, 0, false⟩
  | .TRACE_CMP_FIRST => ⟨.TRACE, 0x140, 31, 0, .ro, .write, 0, 0, 4294967295, 0, 1, 0, false⟩
  | .TRACE_CMP_NEXT => ⟨.TRACE, 0x144, 31, 0, .ro, .write, 0, 0, 4294967295, 0, 1, 0, false⟩
  | .TRACE_SPILL_BASE => ⟨.TRACE, 0x148, 31, 0, .ro, .write, 0, 0, 4294967295, 0, 1, 0, false⟩
  | .TRACE_RD_ADDR => ⟨.TRACE, 0x150, 21, 0, .rw, .write, 0, 0, 4194303, 0, 1, 0, false⟩
  | .TRACE_RD_DATA => ⟨.TRACE, 0x158, 63, 0, .ro, .write, 0, 0, 18446744073709551615, 0, 1, 0, false⟩
  | .TRACE_MSGLOG_ADDR => ⟨.TRACE, 0x160, 31, 0, .ro, .write, 0, 0, 4294967295, 0, 1, 0, false⟩
  | .TRACE_MSGLOG_NEXT => ⟨.TRACE, 0x164, 15, 0, .ro, .write, 0, 0, 65535, 0, 1, 0, false⟩
  | .TRACE_RECORDS => ⟨.TRACE, 0x200, 63, 0, .rw, .write, 0, 0, 18446744073709551615, 0, 1, 0, true⟩
  | .TRACE_NATIVE_BYTES => ⟨.TRACE, 0x208, 63, 0, .rw, .write, 0, 0, 18446744073709551615, 0, 1, 0, true⟩
  | .TRACE_DROPPED_RECORDS => ⟨.TRACE, 0x210, 63, 0, .rw, .write, 0, 0, 18446744073709551615, 0, 1, 0, true⟩
  | .TRACE_DROP_MARKERS => ⟨.TRACE, 0x218, 63, 0, .rw, .write, 0, 0, 18446744073709551615, 0, 1, 0, true⟩
  | .TRACE_TRIGGERS => ⟨.TRACE, 0x220, 63, 0, .rw, .write, 0, 0, 18446744073709551615, 0, 1, 0, true⟩
  | .TRACE_TRIGGERS_IGNORED => ⟨.TRACE, 0x228, 63, 0, .rw, .write, 0, 0, 18446744073709551615, 0, 1, 0, true⟩
  | .TRACE_GAP_RECORDS => ⟨.TRACE, 0x230, 63, 0, .rw, .write, 0, 0, 18446744073709551615, 0, 1, 0, true⟩
  | .TRACE_SPILL_BYTES => ⟨.TRACE, 0x238, 63, 0, .rw, .write, 0, 0, 18446744073709551615, 0, 1, 0, true⟩
  | .TRACE_CLAMPS => ⟨.TRACE, 0x240, 63, 0, .rw, .write, 0, 0, 18446744073709551615, 0, 1, 0, true⟩
  | .PCOUNTERS_F_JOB => ⟨.PCOUNTERS, 0x100, 15, 0, .rwb, .selected, 0, 0, 65535, 16, 8, 0, false⟩
  | .PCOUNTERS_M_JOB => ⟨.PCOUNTERS, 0x100, 31, 16, .rwb, .selected, 0, 0, 65535, 16, 8, 0, false⟩
  | .PCOUNTERS_F_LAYER => ⟨.PCOUNTERS, 0x104, 15, 0, .rwb, .selected, 0, 0, 65535, 16, 8, 0, false⟩
  | .PCOUNTERS_M_LAYER => ⟨.PCOUNTERS, 0x104, 31, 16, .rwb, .selected, 0, 0, 65535, 16, 8, 0, false⟩
  | .PCOUNTERS_F_OPERATOR => ⟨.PCOUNTERS, 0x108, 15, 0, .rwb, .selected, 0, 0, 65535, 16, 8, 0, false⟩
  | .PCOUNTERS_M_OPERATOR => ⟨.PCOUNTERS, 0x108, 31, 16, .rwb, .selected, 0, 0, 65535, 16, 8, 0, false⟩
  | .PCOUNTERS_F_CTX => ⟨.PCOUNTERS, 0x10C, 6, 0, .rwb, .selected, 127, 0, 127, 16, 8, 0, false⟩
  | .PCOUNTERS_EN => ⟨.PCOUNTERS, 0x10C, 7, 7, .rwb, .selected, 0, 0, 1, 16, 8, 0, false⟩
  | .PCOUNTERS_EV => ⟨.PCOUNTERS, 0x180, 31, 0, .rwb, .selected, 0, 0, 4294967295, 4, 8, 0, false⟩
  | .PCOUNTERS_COUNT => ⟨.PCOUNTERS, 0x200, 63, 0, .rw, .write, 0, 0, 18446744073709551615, 8, 32, 0, true⟩
  | .PARTITION_DEGRADED => ⟨.PARTITION, 0x100, 0, 0, .ro, .write, 0, 0, 1, 0, 1, 0, false⟩
  | .PARTITION_ENGINES_VACANT => ⟨.PARTITION, 0x104, 8, 0, .ro, .write, 0, 0, 511, 0, 1, 0, false⟩
  | .PARTITION_SPARES => ⟨.PARTITION, 0x108, 15, 0, .ro, .write, 0xAAAA, 0, 65535, 0, 1, 0, false⟩
  | .PARTITION_CORES_VACANT => ⟨.PARTITION, 0x10C, 3, 0, .ro, .write, 0, 0, 15, 0, 1, 0, false⟩
  | .PARTITION_MIOBOR_VACANT => ⟨.PARTITION, 0x10C, 4, 4, .ro, .write, 0, 0, 1, 0, 1, 0, false⟩
  | .PARTITION_MULES_VACANT => ⟨.PARTITION, 0x10C, 11, 8, .ro, .write, 0, 0, 15, 0, 1, 0, false⟩
  | .PARTITION_BANKS_VACANT => ⟨.PARTITION, 0x110, 31, 0, .ro, .write, 0, 0, 4294967295, 0, 1, 0, false⟩
  | .PARTITION_GROUP_RESET => ⟨.PARTITION, 0x114, 7, 0, .rwp, .commit, 0, 0, 255, 0, 1, 0, false⟩
  | .PARTITION_CORE_RESET => ⟨.PARTITION, 0x114, 11, 8, .rwp, .commit, 0, 0, 15, 0, 1, 0, false⟩
  | .PARTITION_MIOBOR_RESET => ⟨.PARTITION, 0x114, 12, 12, .rwp, .commit, 0, 0, 1, 0, 1, 0, false⟩
  | .PARTITION_LAST_CAUSE => ⟨.PARTITION, 0x118, 7, 0, .ro, .write, 0, 0, 255, 0, 1, 0, false⟩
  | .PARTITION_LAST_RESET_AT => ⟨.PARTITION, 0x120, 63, 0, .ro, .write, 0, 0, 18446744073709551615, 0, 1, 0, false⟩
  | .PARTITION_LAST_RESET_TICKS => ⟨.PARTITION, 0x128, 31, 0, .ro, .write, 0, 0, 4294967295, 0, 1, 0, false⟩
  | .PARTITION_GROUP_RESETS => ⟨.PARTITION, 0x200, 63, 0, .rw, .write, 0, 0, 18446744073709551615, 0, 1, 0, true⟩
  | .PARTITION_CORE_RESETS => ⟨.PARTITION, 0x208, 63, 0, .rw, .write, 0, 0, 18446744073709551615, 0, 1, 0, true⟩
  | .PARTITION_MIOBOR_RESETS => ⟨.PARTITION, 0x210, 63, 0, .rw, .write, 0, 0, 18446744073709551615, 0, 1, 0, true⟩
  | .PARTITION_ABSORBED => ⟨.PARTITION, 0x218, 63, 0, .rw, .write, 0, 0, 18446744073709551615, 0, 1, 0, true⟩
  | .PARTITION_REMAPS => ⟨.PARTITION, 0x220, 63, 0, .rw, .write, 0, 0, 18446744073709551615, 0, 1, 0, true⟩
  | .PARTITION_VACANCIES => ⟨.PARTITION, 0x228, 63, 0, .rw, .write, 0, 0, 18446744073709551615, 0, 1, 0, true⟩
  | .PARTITION_WATCHDOGS => ⟨.PARTITION, 0x230, 63, 0, .rw, .write, 0, 0, 18446744073709551615, 0, 1, 0, true⟩
  | .GOOSE_CONFIRM => ⟨.GOOSE, 0x100, 3, 0, .rwb, .selected, 8, 2, 9, 0, 1, 0, false⟩
  | .GOOSE_STALL => ⟨.GOOSE, 0x104, 15, 0, .rwb, .selected, 2000, 100, 60000, 0, 1, 0, false⟩
  | .GOOSE_AUTO_BREAK => ⟨.GOOSE, 0x108, 0, 0, .rwb, .selected, 1, 0, 1, 0, 1, 0, false⟩
  | .GOOSE_VIEW_NODE => ⟨.GOOSE, 0x110, 6, 0, .rw, .write, 0, 0, 127, 0, 1, 0, false⟩
  | .GOOSE_VIEW_WAIT => ⟨.GOOSE, 0x114, 2, 0, .ro, .write, 1, 0, 7, 0, 1, 0, false⟩
  | .GOOSE_VIEW_TARGET => ⟨.GOOSE, 0x114, 31, 16, .ro, .write, 0, 0, 65535, 0, 1, 0, false⟩
  | .GOOSE_VIEW_TAG => ⟨.GOOSE, 0x118, 31, 0, .ro, .write, 0, 0, 4294967295, 0, 1, 0, false⟩
  | .GOOSE_VIEW_STUCK => ⟨.GOOSE, 0x11C, 7, 0, .ro, .write, 0, 0, 255, 0, 1, 0, false⟩
  | .GOOSE_LAST_CYCLE_AT => ⟨.GOOSE, 0x120, 63, 0, .ro, .write, 0, 0, 18446744073709551615, 0, 1, 0, false⟩
  | .GOOSE_LAST_VICTIM => ⟨.GOOSE, 0x128, 15, 0, .ro, .write, 0, 0, 65535, 0, 1, 0, false⟩
  | .GOOSE_LAST_VICTIM_TAG => ⟨.GOOSE, 0x12C, 31, 0, .ro, .write, 0, 0, 4294967295, 0, 1, 0, false⟩
  | .GOOSE_SCANS => ⟨.GOOSE, 0x200, 63, 0, .rw, .write, 0, 0, 18446744073709551615, 0, 1, 0, true⟩
  | .GOOSE_LOCAL_CYCLES => ⟨.GOOSE, 0x208, 63, 0, .rw, .write, 0, 0, 18446744073709551615, 0, 1, 0, true⟩
  | .GOOSE_PROBES => ⟨.GOOSE, 0x210, 63, 0, .rw, .write, 0, 0, 18446744073709551615, 0, 1, 0, true⟩
  | .GOOSE_DIST_CYCLES => ⟨.GOOSE, 0x218, 63, 0, .rw, .write, 0, 0, 18446744073709551615, 0, 1, 0, true⟩
  | .GOOSE_VICTIMS => ⟨.GOOSE, 0x220, 63, 0, .rw, .write, 0, 0, 18446744073709551615, 0, 1, 0, true⟩
  | .GOOSE_STALLS => ⟨.GOOSE, 0x228, 63, 0, .rw, .write, 0, 0, 18446744073709551615, 0, 1, 0, true⟩
  | .GOOSE_GOOSE_RESETS => ⟨.GOOSE, 0x230, 63, 0, .rw, .write, 0, 0, 18446744073709551615, 0, 1, 0, true⟩
  | .RESET_PART_STATE => ⟨.RESET, 0x100, 2, 0, .ro, .write, 0, 0, 7, 4, 16, 0, false⟩
  | .RESET_STAGE => ⟨.RESET, 0x100, 7, 4, .ro, .write, 0, 0, 15, 4, 16, 0, false⟩
  | .RESET_FAULTS_10MIN => ⟨.RESET, 0x100, 11, 8, .ro, .write, 0, 0, 15, 4, 16, 0, false⟩
  | .RESET_DEVICE_STATE => ⟨.RESET, 0x140, 1, 0, .ro, .write, 0, 0, 3, 0, 1, 0, false⟩
  | .RESET_FAULT => ⟨.RESET, 0x140, 4, 4, .ro, .write, 0, 0, 1, 0, 1, 0, false⟩
  | .RESET_FAULTS_60MIN => ⟨.RESET, 0x140, 11, 8, .ro, .write, 0, 0, 15, 0, 1, 0, false⟩
  | .RESET_LAST_DEVICE_CAUSE => ⟨.RESET, 0x144, 7, 0, .ro, .write, 0, 0, 255, 0, 1, 0, false⟩
  | .RESET_LAST_DEVICE_RESET_AT => ⟨.RESET, 0x148, 63, 0, .ro, .write, 0, 0, 18446744073709551615, 0, 1, 0, false⟩
  | .RESET_PART_RESET => ⟨.RESET, 0x150, 15, 0, .rwp, .commit, 0, 0, 65535, 0, 1, 0, false⟩
  | .RESET_PART_REINSTATE => ⟨.RESET, 0x154, 15, 0, .rwp, .commit, 0, 0, 65535, 0, 1, 0, false⟩
  | .RESET_DEVICE_RESET => ⟨.RESET, 0x158, 1, 0, .rwp, .commit, 0, 0, 3, 0, 1, 0, false⟩
  | .RESET_DEVICE_REINSTATE => ⟨.RESET, 0x15C, 0, 0, .rwp, .commit, 0, 0, 1, 0, 1, 0, false⟩
  | .RESET_PART_RESETS_FAULT => ⟨.RESET, 0x200, 63, 0, .rw, .write, 0, 0, 18446744073709551615, 0, 1, 0, true⟩
  | .RESET_PART_RESETS_HOST => ⟨.RESET, 0x208, 63, 0, .rw, .write, 0, 0, 18446744073709551615, 0, 1, 0, true⟩
  | .RESET_DEVICE_RESETS_FAULT => ⟨.RESET, 0x210, 63, 0, .rw, .write, 0, 0, 18446744073709551615, 0, 1, 0, true⟩
  | .RESET_DEVICE_RESETS_HOST => ⟨.RESET, 0x218, 63, 0, .rw, .write, 0, 0, 18446744073709551615, 0, 1, 0, true⟩
  | .RESET_PART_OOS => ⟨.RESET, 0x220, 63, 0, .rw, .write, 0, 0, 18446744073709551615, 0, 1, 0, true⟩
  | .RESET_REINSTATE_REFUSED => ⟨.RESET, 0x228, 63, 0, .rw, .write, 0, 0, 18446744073709551615, 0, 1, 0, true⟩
  | .RESET_G9_STATE_RX => ⟨.RESET, 0x230, 63, 0, .rw, .write, 0, 0, 18446744073709551615, 0, 1, 0, true⟩
  | .HEN_NEXT => ⟨.HEN, 0x100, 17, 0, .ro, .write, 0, 0, 262143, 0, 1, 0, false⟩
  | .HEN_OLDEST => ⟨.HEN, 0x104, 17, 0, .ro, .write, 0, 0, 262143, 0, 1, 0, false⟩
  | .HEN_KEPT_USED => ⟨.HEN, 0x108, 12, 0, .ro, .write, 0, 0, 8191, 0, 1, 0, false⟩
  | .HEN_FLUSHING => ⟨.HEN, 0x10C, 0, 0, .ro, .write, 0, 0, 1, 0, 1, 0, false⟩
  | .HEN_LAST_REASON => ⟨.HEN, 0x10C, 3, 1, .ro, .write, 0, 0, 7, 0, 1, 0, false⟩
  | .HEN_LAST_DEST => ⟨.HEN, 0x10C, 4, 4, .ro, .write, 0, 0, 1, 0, 1, 0, false⟩
  | .HEN_LAST_DONE => ⟨.HEN, 0x10C, 5, 5, .ro, .write, 0, 0, 1, 0, 1, 0, false⟩
  | .HEN_HOST_BUF_ADDR => ⟨.HEN, 0x110, 63, 0, .rw, .write, 0, 0, 18446744073709551615, 0, 1, 0, false⟩
  | .HEN_HOST_BUF_LEN => ⟨.HEN, 0x118, 31, 0, .rw, .write, 0, 0, 4294967295, 0, 1, 0, false⟩
  | .HEN_FLUSH_NOW => ⟨.HEN, 0x11C, 0, 0, .wo, .write, 0, 0, 1, 0, 1, 0, false⟩
  | .HEN_MRAM_COPY => ⟨.HEN, 0x11C, 1, 1, .wo, .write, 0, 0, 1, 0, 1, 0, false⟩
  | .HEN_CLEAR => ⟨.HEN, 0x120, 0, 0, .rwp, .commit, 0, 0, 1, 0, 1, 0, false⟩
  | .HEN_FLOOD_WINDOW => ⟨.HEN, 0x124, 15, 0, .rwb, .selected, 1000, 1, 65535, 0, 1, 0, false⟩
  | .HEN_FLUSH_ON_PARTITION => ⟨.HEN, 0x124, 16, 16, .rwb, .selected, 1, 0, 1, 0, 1, 0, false⟩
  | .HEN_LAST_FLUSH_TICKS => ⟨.HEN, 0x128, 31, 0, .ro, .write, 0, 0, 4294967295, 0, 1, 0, false⟩
  | .HEN_FLUSH_SEQ => ⟨.HEN, 0x12C, 31, 0, .ro, .write, 0, 0, 4294967295, 0, 1, 0, false⟩
  | .HEN_NOTE_P => ⟨.HEN, 0x140, 31, 0, .rw, .write, 0, 0, 4294967295, 4, 4, 0, false⟩
  | .HEN_NOTE => ⟨.HEN, 0x150, 0, 0, .wo, .write, 0, 0, 1, 0, 1, 0, false⟩
  | .HEN_RD_ADDR => ⟨.HEN, 0x160, 22, 0, .rw, .write, 0, 0, 8388607, 0, 1, 0, false⟩
  | .HEN_RD_DATA => ⟨.HEN, 0x168, 63, 0, .ro, .write, 0, 0, 18446744073709551615, 0, 1, 0, false⟩
  | .HEN_RECORDS_FIXED => ⟨.HEN, 0x200, 63, 0, .rw, .write, 0, 0, 18446744073709551615, 0, 1, 0, true⟩
  | .HEN_RECORDS_VAR => ⟨.HEN, 0x208, 63, 0, .rw, .write, 0, 0, 18446744073709551615, 0, 1, 0, true⟩
  | .HEN_REPEATS => ⟨.HEN, 0x210, 63, 0, .rw, .write, 0, 0, 18446744073709551615, 0, 1, 0, true⟩
  | .HEN_LOST => ⟨.HEN, 0x218, 63, 0, .rw, .write, 0, 0, 18446744073709551615, 0, 1, 0, true⟩
  | .HEN_LOST_FLUSH => ⟨.HEN, 0x220, 63, 0, .rw, .write, 0, 0, 18446744073709551615, 0, 1, 0, true⟩
  | .HEN_FLUSHES => ⟨.HEN, 0x228, 63, 0, .rw, .write, 0, 0, 18446744073709551615, 0, 1, 0, true⟩
  | .HEN_FLUSH_BYTES => ⟨.HEN, 0x230, 63, 0, .rw, .write, 0, 0, 18446744073709551615, 0, 1, 0, true⟩
  | .HEN_MRAM_TRUNCATED => ⟨.HEN, 0x238, 63, 0, .rw, .write, 0, 0, 18446744073709551615, 0, 1, 0, true⟩
  | .HEN_DOSSIERS => ⟨.HEN, 0x240, 63, 0, .rw, .write, 0, 0, 18446744073709551615, 0, 1, 0, true⟩
  | .HEN_DOSSIERS_TRUNCATED => ⟨.HEN, 0x248, 63, 0, .rw, .write, 0, 0, 18446744073709551615, 0, 1, 0, true⟩
  | .LOOPS_DVFS_FLOOR => ⟨.LOOPS, 0x100, 10, 0, .rwb, .selected, 1000, 1000, 1800, 8, 4, 0, false⟩
  | .LOOPS_DVFS_CEIL => ⟨.LOOPS, 0x100, 26, 16, .rwb, .selected, 1800, 1000, 1800, 8, 4, 0, false⟩
  | .LOOPS_DVFS_PIN => ⟨.LOOPS, 0x100, 31, 31, .rwb, .selected, 0, 0, 1, 8, 4, 0, false⟩
  | .LOOPS_APPLIED_MHZ => ⟨.LOOPS, 0x104, 10, 0, .ro, .write, 1600, 0, 2047, 8, 4, 0, false⟩
  | .LOOPS_LIMIT_CAUSE => ⟨.LOOPS, 0x104, 17, 16, .ro, .write, 0, 0, 3, 8, 4, 0, false⟩
  | .LOOPS_SPAN_FLOOR => ⟨.LOOPS, 0x120, 4, 0, .rwb, .selected, 1, 1, 16, 0, 1, 0, false⟩
  | .LOOPS_SPAN_CEIL => ⟨.LOOPS, 0x120, 12, 8, .rwb, .selected, 16, 1, 16, 0, 1, 0, false⟩
  | .LOOPS_SPAN_PIN => ⟨.LOOPS, 0x120, 31, 31, .rwb, .selected, 1, 0, 1, 0, 1, 0, false⟩
  | .LOOPS_LEND_FLOOR => ⟨.LOOPS, 0x124, 3, 0, .rwb, .selected, 1, 1, 8, 0, 1, 0, false⟩
  | .LOOPS_LEND_PIN => ⟨.LOOPS, 0x124, 31, 31, .rwb, .selected, 1, 0, 1, 0, 1, 0, false⟩
  | .LOOPS_OVERRIDDEN => ⟨.LOOPS, 0x128, 4, 0, .ro, .write, 0, 0, 31, 0, 1, 0, false⟩
  | .LOOPS_SPAN_NOW => ⟨.LOOPS, 0x180, 4, 0, .ro, .write, 0, 0, 31, 4, 16, 0, false⟩
  | .LOOPS_LENT_NOW => ⟨.LOOPS, 0x180, 11, 8, .ro, .write, 0, 0, 15, 4, 16, 0, false⟩
  | .LOOPS_CLAMPS => ⟨.LOOPS, 0x200, 63, 0, .rw, .write, 0, 0, 18446744073709551615, 0, 1, 0, true⟩
  | .LOOPS_PROTECT_OVERRIDES => ⟨.LOOPS, 0x208, 63, 0, .rw, .write, 0, 0, 18446744073709551615, 0, 1, 0, true⟩
  | .LOOPS_DVFS_CHANGES => ⟨.LOOPS, 0x210, 63, 0, .rw, .write, 0, 0, 18446744073709551615, 0, 1, 0, true⟩
  | .LOOPS_SPAN_CHANGES => ⟨.LOOPS, 0x218, 63, 0, .rw, .write, 0, 0, 18446744073709551615, 0, 1, 0, true⟩
  | .LOOPS_LEND_CHANGES => ⟨.LOOPS, 0x220, 63, 0, .rw, .write, 0, 0, 18446744073709551615, 0, 1, 0, true⟩
  | .POWER_STAGE => ⟨.POWER, 0x100, 2, 0, .ro, .write, 0, 0, 7, 4, 4, 0, false⟩
  | .POWER_SAG_MV => ⟨.POWER, 0x100, 15, 8, .ro, .write, 0, 0, 255, 4, 4, 0, false⟩
  | .POWER_SETPOINT_MV => ⟨.POWER, 0x100, 25, 16, .ro, .write, 750, 0, 1023, 4, 4, 0, false⟩
  | .POWER_RAIL_MV => ⟨.POWER, 0x110, 15, 0, .ro, .write, 0, 0, 65535, 4, 10, 0, false⟩
  | .POWER_RAIL_CURRENT => ⟨.POWER, 0x110, 31, 16, .ro, .write, 0, 0, 65535, 4, 10, 0, false⟩
  | .POWER_POWER_W => ⟨.POWER, 0x140, 15, 0, .ro, .write, 0, 0, 65535, 0, 1, 0, false⟩
  | .POWER_POWER_LIMIT => ⟨.POWER, 0x144, 9, 0, .rwb, .selected, 650, 400, 650, 0, 1, 0, false⟩
  | .POWER_PF_WARN => ⟨.POWER, 0x148, 0, 0, .ro, .write, 0, 0, 1, 0, 1, 0, false⟩
  | .POWER_PF_HOLD => ⟨.POWER, 0x148, 1, 1, .ro, .write, 0, 0, 1, 0, 1, 0, false⟩
  | .POWER_STAGE_ENTRIES => ⟨.POWER, 0x200, 63, 0, .rw, .write, 0, 0, 18446744073709551615, 8, 6, 0, true⟩
  | .POWER_PF_WARNS => ⟨.POWER, 0x230, 63, 0, .rw, .write, 0, 0, 18446744073709551615, 0, 1, 0, true⟩
  | .POWER_SEQ_FAULTS => ⟨.POWER, 0x238, 63, 0, .rw, .write, 0, 0, 18446744073709551615, 0, 1, 0, true⟩
  | .POWER_AVS_FAILS => ⟨.POWER, 0x240, 63, 0, .rw, .write, 0, 0, 18446744073709551615, 0, 1, 0, true⟩
  | .POWER_RAIL_UV => ⟨.POWER, 0x248, 63, 0, .rw, .write, 0, 0, 18446744073709551615, 0, 1, 0, true⟩
  | .THERMAL_TJ => ⟨.THERMAL, 0x100, 9, 0, .ro, .write, 0, 0, 1023, 4, 32, 0, false⟩
  | .THERMAL_SENSORS_GOOD => ⟨.THERMAL, 0x100, 16, 12, .ro, .write, 0, 0, 31, 4, 32, 0, false⟩
  | .THERMAL_THROTTLED => ⟨.THERMAL, 0x180, 3, 0, .ro, .write, 0, 0, 15, 0, 1, 0, false⟩
  | .THERMAL_TRIPPED => ⟨.THERMAL, 0x180, 4, 4, .ro, .write, 0, 0, 1, 0, 1, 0, false⟩
  | .THERMAL_THROTTLE_C => ⟨.THERMAL, 0x184, 6, 0, .rwb, .selected, 105, 85, 105, 0, 1, 0, false⟩
  | .THERMAL_THROTTLES => ⟨.THERMAL, 0x200, 63, 0, .rw, .write, 0, 0, 18446744073709551615, 0, 1, 0, true⟩
  | .THERMAL_TRIPS => ⟨.THERMAL, 0x208, 63, 0, .rw, .write, 0, 0, 18446744073709551615, 0, 1, 0, true⟩
  | .THERMAL_SENSOR_BAD => ⟨.THERMAL, 0x210, 63, 0, .rw, .write, 0, 0, 18446744073709551615, 0, 1, 0, true⟩
  | .BOOT_PATH => ⟨.BOOT, 0x100, 1, 0, .ro, .write, 0, 0, 3, 0, 1, 0, false⟩
  | .BOOT_BOOT_STAGE => ⟨.BOOT, 0x100, 6, 4, .ro, .write, 0, 0, 7, 0, 1, 0, false⟩
  | .BOOT_BLOB_VALID => ⟨.BOOT, 0x104, 0, 0, .ro, .write, 0, 0, 1, 0, 1, 0, false⟩
  | .BOOT_BLOB_DEFAULTED => ⟨.BOOT, 0x104, 1, 1, .ro, .write, 0, 0, 1, 0, 1, 0, false⟩
  | .BOOT_STATE_VALID => ⟨.BOOT, 0x104, 2, 2, .ro, .write, 0, 0, 1, 0, 1, 0, false⟩
  | .BOOT_FW_FROM_MRAM => ⟨.BOOT, 0x104, 3, 3, .ro, .write, 0, 0, 1, 0, 1, 0, false⟩
  | .BOOT_FW_WAITING => ⟨.BOOT, 0x104, 4, 4, .ro, .write, 0, 0, 1, 0, 1, 0, false⟩
  | .BOOT_SRIS_A => ⟨.BOOT, 0x104, 5, 5, .ro, .write, 0, 0, 1, 0, 1, 0, false⟩
  | .BOOT_SRIS_B => ⟨.BOOT, 0x104, 6, 6, .ro, .write, 0, 0, 1, 0, 1, 0, false⟩
  | .BOOT_LAST_BOOT_TICKS => ⟨.BOOT, 0x108, 31, 0, .ro, .write, 0, 0, 4294967295, 0, 1, 0, false⟩
  | .BOOT_FW_ADDR => ⟨.BOOT, 0x110, 63, 0, .rw, .write, 0, 0, 18446744073709551615, 0, 1, 0, false⟩
  | .BOOT_FW_LEN => ⟨.BOOT, 0x118, 31, 0, .rw, .write, 0, 0, 4294967295, 0, 1, 0, false⟩
  | .BOOT_FW_GO => ⟨.BOOT, 0x11C, 0, 0, .wo, .write, 0, 0, 1, 0, 1, 0, false⟩
  | .BOOT_BLOB_ADDR => ⟨.BOOT, 0x128, 63, 0, .rw, .write, 0, 0, 18446744073709551615, 0, 1, 0, false⟩
  | .BOOT_BLOB_LEN => ⟨.BOOT, 0x130, 31, 0, .rw, .write, 0, 0, 4294967295, 0, 1, 0, false⟩
  | .BOOT_BLOB_WRITE => ⟨.BOOT, 0x134, 0, 0, .rwp, .commit, 0, 0, 1, 0, 1, 0, false⟩
  | .BOOT_BLOB_STATUS => ⟨.BOOT, 0x138, 7, 0, .ro, .write, 0, 0, 255, 0, 1, 0, false⟩
  | .BOOT_FW_REJECTS => ⟨.BOOT, 0x200, 63, 0, .rw, .write, 0, 0, 18446744073709551615, 0, 1, 0, true⟩
  | .BOOT_XSPI_RETRIES => ⟨.BOOT, 0x208, 63, 0, .rw, .write, 0, 0, 18446744073709551615, 0, 1, 0, true⟩
  | .BOOT_XSPI_FAILS => ⟨.BOOT, 0x210, 63, 0, .rw, .write, 0, 0, 18446744073709551615, 0, 1, 0, true⟩
  | .BOOT_SMB_ERRORS => ⟨.BOOT, 0x218, 63, 0, .rw, .write, 0, 0, 18446744073709551615, 0, 1, 0, true⟩
  | .BOOT_STRAP_CHANGES => ⟨.BOOT, 0x220, 63, 0, .rw, .write, 0, 0, 18446744073709551615, 0, 1, 0, true⟩
  | .BOOT_PPS_REJECTED => ⟨.BOOT, 0x228, 63, 0, .rw, .write, 0, 0, 18446744073709551615, 0, 1, 0, true⟩
  | .BOOT_TIME_REF_LOSSES => ⟨.BOOT, 0x230, 63, 0, .rw, .write, 0, 0, 18446744073709551615, 0, 1, 0, true⟩
  | .ENGINES_PHYS_OK => ⟨.ENGINES, 0x100, 33, 0, .ro, .write, 0x3FFFFFFFF, 0, 17179869183, 8, 8, 0, false⟩
  | .ENGINES_VIEW_LOGICAL => ⟨.ENGINES, 0x140, 7, 0, .rw, .write, 0, 0, 255, 0, 1, 0, false⟩
  | .ENGINES_VIEW_PHYSICAL => ⟨.ENGINES, 0x144, 8, 0, .ro, .write, 0, 0, 511, 0, 1, 0, false⟩
  | .ENGINES_LAST_BIST_AT => ⟨.ENGINES, 0x148, 63, 0, .ro, .write, 0, 0, 18446744073709551615, 0, 1, 0, false⟩
  | .ENGINES_BIST_RUNS => ⟨.ENGINES, 0x200, 63, 0, .rw, .write, 0, 0, 18446744073709551615, 0, 1, 0, true⟩
  | .ENGINES_BIST_ENGINE_FAILS => ⟨.ENGINES, 0x208, 63, 0, .rw, .write, 0, 0, 18446744073709551615, 0, 1, 0, true⟩
  | .ENGINES_BIST_ABANDONED => ⟨.ENGINES, 0x210, 63, 0, .rw, .write, 0, 0, 18446744073709551615, 0, 1, 0, true⟩

/-- The width of a field in bits. -/
def Reg.width (r : Reg) : Nat := r.desc.hi + 1 - r.desc.lo

/-- The key under which element `idx` of a field of page instance `inst` is stored. -/
def Reg.key (r : Reg) (inst idx : Nat) : Nat := (r.ctorIdx * 4096 + inst) * 64 + idx

end Sys2Proof
end

