-- ==== Sys2Proof/Machine/RegFile.lean ====
section
/-! DEFINITION. A register file: applied values, pending values and holding values, each sparse, and the writes and reads
that every page of an agent (R70 to R72) and of the G9 (R344 to R348, R480) shares. -/

namespace Sys2Proof.Machine

open Sys2Proof

/-- A pending value of an RWB or RWP field (R346), the boundary it waits for and, for "frame", the earliest tick. `cut` says that the
written value was clamped (R71, R480). -/
structure Pend where
  v : Nat
  bnd : Bnd
  due : Nat
  cut : Bool := false
  deriving DecidableEq, Repr

/-- Applied, pending and holding values. A field that is not listed holds its reset value; a holding register that is not
listed reads zero (R344). -/
structure RegFile where
  vals : SMap Nat := []
  pend : SMap Pend := []
  hold : SMap Nat := []
  deriving DecidableEq, Repr

namespace RegFile

/-- The applied value of a field. -/
def get (f : RegFile) (r : Reg) (inst idx : Nat) : Nat := SMap.get r.desc.reset f.vals (r.key inst idx)

/-- Sets the applied value of a field, cut to its width. -/
def set (f : RegFile) (r : Reg) (inst idx v : Nat) : RegFile :=
  { f with vals := SMap.set r.desc.reset f.vals (r.key inst idx) (trunc r.width v) }

/-- Counts `n` events in a counter, saturating (R13). -/
def count (f : RegFile) (r : Reg) (inst idx n : Nat) : RegFile :=
  f.set r inst idx (min (f.get r inst idx + n) (2 ^ r.width - 1))

/-- The pending value of a field, or the applied value where none is pending (R344). -/
def getPending (f : RegFile) (r : Reg) (inst idx : Nat) : Nat :=
  match SMap.find? f.pend (r.key inst idx) with
  | some p => p.v
  | none => f.get r inst idx

/-- Sets the pending value of a field; a later write before application replaces it (R346). -/
def setPend (f : RegFile) (r : Reg) (inst idx : Nat) (p : Pend) : RegFile :=
  { f with pend := SMap.insert f.pend (r.key inst idx) p }

/-- Makes a pending value the applied value. -/
def applyOne (f : RegFile) (r : Reg) (inst idx : Nat) : RegFile :=
  match SMap.find? f.pend (r.key inst idx) with
  | some p => { (f.set r inst idx p.v) with pend := SMap.erase f.pend (r.key inst idx) }
  | none => f

/-- Every element of every field of a list. -/
def elems (rs : List Reg) : List (Reg × Nat) := rs.flatMap fun r => (List.range r.desc.count).map fun i => (r, i)

/-- Applies the pending values of the named field elements that pass `ok`. -/
def applyAll (f : RegFile) (es : List (Reg × Nat)) (inst : Nat) (ok : Pend → Bool) : RegFile :=
  es.foldl (fun f e =>
    match SMap.find? f.pend (e.1.key inst e.2) with
    | some p => if ok p then f.applyOne e.1 inst e.2 else f
    | none => f) f

/-- Every element of a list returns to its reset value, with nothing pending and nothing held. -/
def clear (f : RegFile) (es : List (Reg × Nat)) (inst : Nat) : RegFile :=
  es.foldl (fun f e =>
    let k := e.1.key inst e.2
    { vals := SMap.erase f.vals k, pend := SMap.erase f.pend k, hold := SMap.erase f.hold k }) f

/-- A reset: fields that are kept hold their applied values, the others return to their reset values; nothing stays pending or held. -/
def resetAll (f : RegFile) (es : List (Reg × Nat)) (inst : Nat) (keep : Reg → Bool) : RegFile :=
  es.foldl (fun f e =>
    let k := e.1.key inst e.2
    { vals := if keep e.1 then f.vals else SMap.erase f.vals k, pend := SMap.erase f.pend k, hold := SMap.erase f.hold k }) f

/-- A field of the list has a pending value. -/
def anyPending (f : RegFile) (es : List (Reg × Nat)) (inst : Nat) : Bool :=
  es.any fun e => (SMap.find? f.pend (e.1.key inst e.2)).isSome

/-- Copies every counter of the list into its holding register (R348). -/
def snapshot (f : RegFile) (es : List (Reg × Nat)) (inst : Nat) : RegFile :=
  (es.filter fun e => e.1.desc.counter).foldl (fun f e =>
    { f with hold := SMap.set 0 f.hold (e.1.key inst e.2) (f.get e.1 inst e.2) }) f

/-- The bits of a field element that a span of `n` bits from byte `off` of its page covers: the lowest bit within the field,
the lowest bit within the span, and how many; none where they do not meet. -/
def overlap (r : Reg) (idx off n : Nat) : Option (Nat × Nat × Nat) :=
  let d := r.desc
  let base := (d.off + d.stride * idx) * 8 + d.bstride * idx
  let flo := base + d.lo
  let fhi := base + d.hi + 1
  let slo := off * 8
  let shi := slo + n
  let lo := max flo slo
  let hi := min fhi shi
  if lo < hi then some (lo - flo, lo - slo, hi - lo) else none

/-- The field elements of a list that a span covers. -/
def covered (es : List (Reg × Nat)) (off n : Nat) : List (Reg × Nat) :=
  es.filter fun e => (overlap e.1 e.2 off n).isSome

/-- `old` with the covered bits replaced by those of the written span `v`. -/
def merge (r : Reg) (idx off n v old : Nat) : Nat :=
  match overlap r idx off n with
  | some (f, s, w) => setBits old (f + w - 1) f (v >>> s)
  | none => old

/-- The span with the covered bits of one field element put in. -/
def place (r : Reg) (idx off n x span : Nat) : Nat :=
  match overlap r idx off n with
  | some (f, s, w) => setBits span (s + w - 1) s (x >>> f)
  | none => span

/-- The value of a span read through `val`. -/
def readSpan (es : List (Reg × Nat)) (off n : Nat) (val : Reg → Nat → Nat) : Nat :=
  (covered es off n).foldl (fun acc e => place e.1 e.2 off n (val e.1 e.2) acc) 0

/-- Clamps a value to the field's fixed range; true where it was clamped (R71, R480). F_CTX takes 0 to 64 and 0x7F (R407). -/
def clampReg (r : Reg) (v : Nat) : Nat × Bool :=
  let c := if r = .PCOUNTERS_F_CTX ∧ 64 < v ∧ v < 0x7F then (if v < 96 then 64 else 0x7F) else clampTo r.desc.min r.desc.max v
  (c, c != v)

/-- One field's part of a write that is not part of a pair: the new file and how many clamps were made.
`bnd` is the boundary held on the page and `due` the earliest frame boundary (R346). A write to an RWP field does nothing
here: it opens a pair. WO fields act where their page says. -/
def writeField (f : RegFile) (inst off n v : Nat) (bnd : Bnd) (due : Nat) (e : Reg × Nat) : RegFile × Nat :=
  let r := e.1
  let i := e.2
  match r.desc.acc with
  | .ro | .wo | .rwp => (f, 0)
  | .w1c => (f.set r inst i (bitClear r.width (f.get r inst i) (merge r i off n v 0)), 0)
  | .rw =>
    if r.desc.counter then
      match overlap r i off n with
      | some (_, s, w) => if (v >>> s) % 2 ^ w = 0 then (f.set r inst i 0, 0) else (f, 0)
      | none => (f, 0)
    else
      let c := clampReg r (merge r i off n v (f.get r inst i))
      (f.set r inst i c.1, ofBool c.2)
  | .rwb =>
    let c := clampReg r (merge r i off n v (f.getPending r inst i))
    let b := if r.desc.bnd = .selected then bnd else r.desc.bnd
    (f.setPend r inst i ⟨c.1, b, due, c.2⟩, ofBool c.2)

/-- A completed pair's effect on an RWP field: the value is pending for the field's boundary (R12). -/
def pairField (f : RegFile) (inst off n v due : Nat) (e : Reg × Nat) : RegFile × Nat :=
  let r := e.1
  let i := e.2
  match r.desc.acc with
  | .rwp =>
    let c := clampReg r (merge r i off n v (f.getPending r inst i))
    (f.setPend r inst i ⟨c.1, r.desc.bnd, due, c.2⟩, ofBool c.2)
  | _ => (f, 0)

/-- Every field that a span covers takes its part of the write, in table order; the clamps are added up. -/
def writeSpan (f : RegFile) (es : List (Reg × Nat)) (inst off n v : Nat) (bnd : Bnd) (due : Nat) : RegFile × Nat :=
  (covered es off n).foldl (fun a e => let w := writeField a.1 inst off n v bnd due e; (w.1, a.2 + w.2)) (f, 0)

/-- Every RWP field that a span covers takes its part of a completed pair. -/
def pairSpan (f : RegFile) (es : List (Reg × Nat)) (inst off n v due : Nat) : RegFile × Nat :=
  (covered es off n).foldl (fun a e => let w := pairField a.1 inst off n v due e; (w.1, a.2 + w.2)) (f, 0)

/-- The span touches an RWP field. -/
def touchesPair (es : List (Reg × Nat)) (off n : Nat) : Bool := (covered es off n).any fun e => e.1.desc.acc = .rwp

/-- The boundary that a BOUNDARY value names; 0b11 is taken as 0b10 (R70, R480). -/
def bndOf (b : Nat) : Bnd := if b = 0 then .frame else if b = 1 then .step else .commit

/-- A field whose upper bound is the applied value of another (R71): the dependent field, the bounding field. -/
def clampBelow (f : RegFile) (dep bound : Reg) (inst : Nat) : RegFile × Nat :=
  let hi := f.get bound inst 0
  if hi < f.get dep inst 0 then (f.set dep inst 0 hi, 1) else (f, 0)

/-- A field whose lower bound is the applied value of another. -/
def clampAbove (f : RegFile) (dep bound : Reg) (inst : Nat) : RegFile × Nat :=
  let lo := f.get bound inst 0
  if f.get dep inst 0 < lo then (f.set dep inst 0 lo, 1) else (f, 0)

end RegFile

end Sys2Proof.Machine
end

