-- ==== Sys2Proof/Machine/AgentState.lean ====
section
/-! DEFINITION. The state of one Ozell agent ("The Ozell agent", R68 to R96) and of one end of a link (R324 to R328). -/

namespace Sys2Proof.Machine

open Sys2Proof

/-- What leaves a unit of the model: packets and blocks on links, what a runtime or a host is told, and pins driven. The
newest is first. -/
inductive Emission where
  /-- A packet leaves an agent's port in a slot. -/
  | packet (unit : UnitId) (port slot : Nat) (p : Packet)
  /-- A partition sends a message on its control port. -/
  | sent (part dst : Nat) (m : Msg)
  /-- A partition sends a multicast message to a group of its pod. -/
  | sentGroup (part group : Nat) (m : Msg)
  /-- A partition sends a peer-channel message to another partition, by FID. -/
  | peer (part dst : Nat) (kind : String) (args : List Nat)
  /-- A chunk's payload is delivered to an endpoint's runtime. -/
  | deliver (unit : UnitId) (p : Packet)
  /-- A flow's completion record (R90). -/
  | flowDone (unit : UnitId) (src flow count status : Nat)
  /-- A runtime operation is answered at once with a status (R85, R90, R175). -/
  | runtime (unit : UnitId) (what : String) (args : List Nat)
  /-- A notice is handed to the runtime that reads it. -/
  | notice (unit : UnitId) (m : Msg)
  /-- An identity block leaves a port (R99). -/
  | identity (unit : UnitId) (port : Nat) (b : IdBlock)
  /-- A directed block leaves a port (R100). -/
  | directed (unit : UnitId) (port : Nat) (b : DirBlock)
  /-- Echo blocks leave a port (R101). -/
  | echo (unit : UnitId) (port turnaround : Nat)
  /-- A handshake message leaves a port (R324). -/
  | handshake (unit : UnitId) (port gen : Nat)
  /-- An MSI-X message leaves a host port (R356). -/
  | msix (port vector : Nat)
  /-- A value is returned to a host read. -/
  | readReturn (port value : Nat)
  /-- rd of a command-issue instruction (R371). -/
  | core (part core rd : Nat)
  /-- A pin is driven. -/
  | pin (name : String) (value : Nat)
  /-- A set point or another message goes to a part of the board. -/
  | board (name : String) (args : List Nat)
  /-- An SPDM or management response (R318). -/
  | response (name : String) (args : List Nat)
  deriving DecidableEq, Repr

/-- One end of a link: keys by generation and index, counters, revoked indexes (R324 to R328). `tx` maps an index to the next
COUNTER to send, `rx` maps 128 × parity + index to one more than the last COUNTER accepted. `prevOpen` says that frames of the
generation before are still accepted, `prevUntil` until when once the first frame of this generation has arrived (R327).
`partner` is the PROFILE code of the partner's identity. -/
structure LinkEnd where
  keyed : Bool := false
  gen : Nat := 0
  tx : SMap Nat := []
  rx : SMap Nat := []
  revoked : List Nat := []
  prevOpen : Bool := false
  prevUntil : Option Nat := none
  rekeying : Bool := false
  partner : Nat := 0
  deriving DecidableEq, Repr

/-- A packet assigned to an output for one slot, with the output its route named and the port it arrived on (R53, R55). -/
structure Assigned where
  slot : Nat
  pkt : Packet
  named : Nat
  inPort : Option Nat := none
  deriving DecidableEq, Repr

/-- The queues and link of one port (R53, R99, R102). `periodMax`, `periodSum` and `periodSlots` are the telemetry period's
LOOSE depth figures, and `base` the counter values at its start (R95). `lastStart` is the slot whose start the output has
already served (R49) and `identAt` when it last sent IDENT (R95). -/
structure AgentPort where
  link : LinkEnd := {}
  disabled : Bool := false
  mgmtQ : List Packet := []
  looseQ : List Packet := []
  next : Option Assigned := none
  lastStart : Option Nat := none
  identAt : Option Nat := none
  lastBlock : Option IdBlock := none
  periodMax : Nat := 0
  periodSum : Nat := 0
  periodSlots : Nat := 0
  base : List Nat := []
  deriving DecidableEq, Repr

/-- Entry states of R73's VIEW_STATE: 1 fenced, 2 lifted. `effSlot` is the first slot in which the fence acts (R83). -/
structure FenceEntry where
  fid : Nat
  job : Nat
  f : Nat
  lifted : Bool := false
  liftTime : Nat := 0
  effSlot : Nat := 0
  deriving DecidableEq, Repr

/-- An accepted dynamic list (R86). -/
structure DynList where
  window : Nat
  template : Nat
  step : Nat
  job : Nat
  entries : List SlotEntry
  deriving DecidableEq, Repr

/-- Segments of a list received so far; `isTemplate` separates TEMPLATE_LIST from SLOT_LIST. -/
structure Gather where
  isTemplate : Bool
  key : Nat
  segs : List Segment
  deriving DecidableEq, Repr

/-- A flow entry (R90): `decl` is TOTAL of the flow's first chunk (R60), `lowered` the total that the runtime has set. -/
structure Flow where
  src : Nat
  flow : Nat
  decl : Option Nat := none
  lowered : Option Nat := none
  count : Nat := 0
  viol : Bool := false
  progress : Nat
  waited : Bool := false
  deriving DecidableEq, Repr

/-- An open shadow load (R78, R126) or static load (R79): the PREPARE's source and TAG and the chunks seen. -/
structure Load where
  src : Nat
  tag : Nat
  epoch : Nat
  chunks : Nat
  crc : Nat
  seen : List (Nat × Nat) := []
  lastWrite : Nat := 0
  deriving DecidableEq, Repr

/-- An open RWP pair (R72). -/
structure AgentPair where
  src : Nat
  page : Nat
  off : Nat
  words : List Nat
  at_ : Nat
  deriving DecidableEq, Repr

/-- A stored response (R95). -/
structure Stored where
  src : Nat
  tag : Nat
  resp : Msg
  till : Nat
  deriving DecidableEq, Repr

/-- A request that awaits its answer (R95): the destination, the message, when it was last sent and how often again. `ref` is
what the sender asked it for. -/
structure Request where
  dst : Nat
  msg : Msg
  sentAt : Nat
  retries : Nat := 0
  ref : Nat := 0
  deriving DecidableEq, Repr

/-- A receive-log entry (R75 text, LOG_RING). -/
structure LogEntry where
  src : Nat
  type : Nat
  tag : Nat
  sendTime : Nat
  recvTime : Nat
  sent : Bool := false
  deriving DecidableEq, Repr

/-- Echo bookkeeping for one source (R64): when the last echo was sent, and the marks since. -/
structure EchoState where
  lastEcho : Option Nat := none
  marks : Nat := 0
  deriving DecidableEq, Repr

/-- An echo measurement in flight (R101): the directed block that asked for it, its input port, and the measured port. -/
structure Measuring where
  block : DirBlock
  inPort : Nat
  port : Nat
  deriving DecidableEq, Repr

/-- A time exchange that awaits its response (R91): T1 and TAG of the request, when it was made, and whether it is the retry. -/
structure TimeReq where
  t1 : Nat
  tag : Nat
  at_ : Nat
  retry : Bool := false
  deriving DecidableEq, Repr

/-- One agent. Its Bellwether reads `skew` above the ticks gone, and a correction of `slewLeft` under way since tick
`slewFrom` joins it at the maker's rate (R91). `quietFrom` is when a drained packet last left an output (R78), `clearedSubs` the
sub-windows of the board whose entry a fence cleared (R43), and `listsFrom` when lists are honoured again after static
fallback (R94). Register values live in `regs`; bank contents are bytes keyed by bank × 0x20_0000 + offset. -/
structure Agent where
  skew : Int := 0
  slewLeft : Int := 0
  slewFrom : Int := 0
  regs : RegFile := {}
  banks : SMap Nat := []
  ports : SMap AgentPort := []
  /- the bank state machine -/
  shadowLoad : Option Load := none
  staticLoad : Option Load := none
  drainReq : Option (Nat × Nat) := none
  drainAt : Nat := 0
  quietFrom : Nat := 0
  commitAt : Nat := 0
  resumed : Option Nat := none
  flipAt : Nat := 0
  staticUntil : Nat := 0
  listsFrom : Nat := 0
  clearedSubs : List Nat := []
  /- fences -/
  fences : List FenceEntry := []
  jobEpochs : SMap Nat := []
  /- slot lists -/
  templates : SMap (List SlotEntry) := []
  cur : Option DynList := none
  nxt : Option DynList := none
  gathers : List Gather := []
  lateWindows : List Nat := []
  lastStep : Option Nat := none
  windowStarted : Bool := false
  chunks : List Chunk := []
  /- flows -/
  flows : List Flow := []
  ended : List (Nat × Nat) := []
  echoes : SMap EchoState := []
  lastHalving : Option Nat := none
  lastRise : Nat := 0
  loosePaceAt : Nat := 0
  notices : List Msg := []
  /- time -/
  timeReq : Option TimeReq := none
  exchangeAt : Option Nat := none
  timeRetry : Bool := false
  lastExchange : Option Nat := none
  schedHeld : Bool := false
  /- messages -/
  lastPartMsg : Nat := 0
  pairs : List AgentPair := []
  requests : List Request := []
  stored : List Stored := []
  nextTag : Nat := 0
  log : SMap LogEntry := []
  viewHigh : SMap Nat := []
  measuring : List Measuring := []
  telemAt : Nat := 0
  deriving DecidableEq, Repr

end Sys2Proof.Machine
end

