-- ==== Sys2Proof/Machine/AgentOps.lean ====
section
/-! DEFINITION. The operations that every command at an agent shares: registers, counters, events, sending, the table lookup and
the choice of an output (R55, R74, R116, R117), and the common handling of a message (R73, R95). -/

namespace Sys2Proof.Machine

open Sys2Proof

/-- The pair rule of R117 over a port state. -/
def pairOf (up : Nat → Bool) (base k : Nat) : Option Nat :=
  if up (base + k) then some (base + k) else if up (base + 1 - k) then some (base + 1 - k) else none

/-- The rotation over spines in `leaf_out` of R117, `n` steps left from step `i`. -/
def leafRotate (up : Nat → Bool) (p s k : Nat) : Nat → Nat → Option Nat
  | 0, _ => none
  | n + 1, i =>
    let t := (s + i) % 16
    if p % 2 = 1 ∧ t = (p - 32) / 2 then leafRotate up p s k n (i + 1)
    else match pairOf up (32 + 2 * t) k with
      | some q => some q
      | none => leafRotate up p s k n (i + 1)

/-- `leaf_out` of R117. -/
def leafOut (up : Nat → Bool) (p src dst : Nat) : Option Nat :=
  if p < 32 then (if up p then some p else none)
  else if dst > 0xBFFFF then pairOf up (p - p % 2) (p % 2)
  else leafRotate up p ((src + dst) % 16) ((src + dst) / 16 % 2) 16 0

/-- `spine_out` of R117. -/
def spineOut (up : Nat → Bool) (p src dst : Nat) : Option Nat :=
  if 32 ≤ p then (if up p then some p else none) else pairOf up (p - p % 2) ((src + dst) / 16 % 2)

/-- One agent at work: which unit, the time as its own Bellwether reads it, the ticks gone since power-on, its state, and what it
has sent (newest first). -/
structure AC where
  u : UnitId
  now : Nat
  ticks : Int := 0
  a : Agent
  out : List Emission := []
  deriving DecidableEq, Repr

/-- The COUNTER of an index has no value below 2^40 left in this generation (R327). -/
def LinkEnd.spent (l : LinkEnd) (i : Nat) : Bool := 2 ^ 40 ≤ SMap.get 0 l.tx i

namespace AC

/-- The applied value of a register of this agent. -/
def reg (c : AC) (r : Reg) : Nat := c.a.regs.get r 0 0
/-- A register of a PORT page. -/
def preg (c : AC) (r : Reg) (port : Nat) : Nat := c.a.regs.get r port 0
/-- Sets a register. -/
def setReg (c : AC) (r : Reg) (v : Nat) : AC := { c with a := { c.a with regs := c.a.regs.set r 0 0 v } }
/-- Sets a register of a PORT page. -/
def setPReg (c : AC) (r : Reg) (port v : Nat) : AC := { c with a := { c.a with regs := c.a.regs.set r port 0 v } }
/-- Counts `n` events (R13). -/
def countN (c : AC) (r : Reg) (n : Nat) : AC := { c with a := { c.a with regs := c.a.regs.count r 0 0 n } }
/-- Counts one event. -/
def count (c : AC) (r : Reg) : AC := c.countN r 1
/-- Counts `n` events of a port; a circuit port's counters read zero. -/
def pcountN (c : AC) (r : Reg) (port n : Nat) : AC :=
  if c.u.profile = .circuit && port != 0 then c
  else { c with a := { c.a with regs := c.a.regs.count r port 0 n } }
/-- Counts one event of a port. -/
def pcount (c : AC) (r : Reg) (port : Nat) : AC := c.pcountN r port 1
/-- A port's state. -/
def port (c : AC) (p : Nat) : AgentPort := SMap.get {} c.a.ports p
/-- Changes a port's state. -/
def modPort (c : AC) (p : Nat) (f : AgentPort → AgentPort) : AC :=
  { c with a := { c.a with ports := SMap.set {} c.a.ports p (f (c.port p)) } }
/-- Changes the agent's own record. -/
def mod (c : AC) (f : Agent → Agent) : AC := { c with a := f c.a }
/-- Lets something leave the unit. -/
def emit (c : AC) (e : Emission) : AC := { c with out := e :: c.out }

/-- The rate in ppm at which the maker's agent slews, at most 200 (R91). -/
def slewRate (u : UnitId) : Nat := 1 + Config.slewPpmOf u.code % 200

/-- The part of a slewed correction that has joined the clock after `gone` ticks (R91). -/
def slewed (u : UnitId) (left : Int) (gone : Nat) : Int :=
  if left = 0 then 0 else left.sign * (min left.natAbs (gone * slewRate u / 1000000) : Nat)

/-- What an agent's Bellwether reads after `ticks` ticks (R49, R91). -/
def clockOf (u : UnitId) (a : Agent) (ticks : Int) : Nat :=
  (ticks + a.skew + slewed u a.slewLeft (ticks - a.slewFrom).toNat).toNat

/-- The slot that the time lies in (R49). -/
def slot (c : AC) : Nat := c.now / 128
/-- UP of a port. -/
def up (c : AC) (p : Nat) : Bool := c.preg .APORT_UP p == 1

/-- FLOW_LOG2, the maker's choice from 16 to 20 (R90). -/
def flowLog2 (c : AC) : Nat := 16 + Config.flowLog2Of c.u.code % 5
/-- How many ports an agent has (R68): circuit agents count their management port. -/
def ports (c : AC) : Nat :=
  match c.u.profile with
  | .endpoint => 1
  | .switch => 64
  | .circuit => 17 + Config.circuitPortsOf c.u.code % 497
  | .partition => 1

/-- BODY_LEN of a message from its layout (R95). -/
def bodyLen (m : Msg) : Nat :=
  match m.type with
  | 0x02 => 6
  | 0x03 => 4 * m.body.length
  | 0x04 => 8 + 4 * (m.body.length - 2)
  | 0x10 => 32
  | 0x20 => 12
  | 0x22 => 12 + (m.body.length - 4)
  | 0x24 => 4
  | 0x25 => 8
  | 0x26 | 0x28 | 0x2A => 2
  | 0x2D | 0x2F => 12
  | 0x30 | 0x32 => 8
  | 0x35 => 8 + 4 * (m.body.length - 3)
  | 0x37 => 20
  | 0x40 => 32 + 4 * (m.body.length - 7)
  | 0x42 | 0x44 => 32 + 16 * ((m.body.length - 10) / 8)
  | 0x51 => 6
  | 0x53 => 26
  | 0x55 => 8 + 32 * ((m.body.length - 3) / 10)
  | 0x57 => 28
  | 0x60 => 8
  | 0x61 => 24
  | _ => 0

/-- Packets of the drained classes queued for an output (PORT IN_FLIGHT, R81). -/
def inFlight (c : AC) (p : Nat) : Nat :=
  let s := c.port p
  let cl := c.reg .ABANKS_DRAIN_CLASSES
  let loose := if bit cl 1 then s.looseQ.length else 0
  let nxt := match s.next with | some a => ofBool (a.pkt.cls < 2 && bit cl a.pkt.cls) | none => 0
  loose + nxt

/-- INFLIGHT: the sum over all ports. -/
def inFlightAll (c : AC) : Nat := ((c.a.ports.map Prod.fst).map c.inFlight).sum

/-- The bank that the agent forwards or connects from: 0, 1 or 2 for the static bank (R78, R94). A swap acts from the slot
after its COMMIT, and the return from static fallback from the slot after FALLBACK_CLEAR. -/
def bank (c : AC) : Nat :=
  let staticNow := c.reg .ABANKS_STATIC_IN_USE == 1 || c.now < c.a.staticUntil
  if staticNow then 2
  else if c.now < c.a.flipAt then 1 - c.reg .ABANKS_ACTIVE_BANK else c.reg .ABANKS_ACTIVE_BANK

/-- A byte of a bank. -/
def bankByte (c : AC) (b off : Nat) : Nat := SMap.get 0 c.a.banks (b * 0x200000 + off)
/-- A little-endian number of `n` bytes of a bank. -/
def bankWord (c : AC) (b off n : Nat) : Nat := ofBytes ((List.range n).map fun i => c.bankByte b (off + i))

/-- A port with no packet assigned for the next slot (R55). -/
def freeNext (c : AC) (p : Nat) : Bool :=
  match (c.port p).next with
  | some a => a.slot != c.slot + 1
  | none => true

/-- The pair rule of R117 over this agent's live ports. -/
def pair (c : AC) (base k : Nat) : Option Nat := pairOf c.up base k

/-- The output that a valid entry with PORT `p` names (R116, R117): the chosen port, and the named port for deflection. -/
def outputOf (c : AC) (p src dst : Nat) : Option Nat × Nat :=
  let h := src + dst
  let s := h % 16
  let k := h / 16 % 2
  match c.u with
  | .leaf _ _ => (leafOut c.up p src dst, if p < 32 || dst > 0xBFFFF then p else 32 + 2 * s + k)
  | _ => (spineOut c.up p src dst, if 32 ≤ p then p else 2 * (p / 2) + k)

/-- The region 0 entry of a destination in the bank in use; none where VALID is clear, or at a spine where the port is a spare
one (R74, R116). -/
def lookup (c : AC) (dst : Nat) : Option Nat :=
  let e := c.bankByte c.bank dst
  let p := e % 64
  if bit e 7 then
    match c.u with
    | .spine _ _ => if 48 ≤ p then none else some p
    | _ => some p
  else none

/-- The ports tried for a deflection, in order: the 63 ports after the named one (R55). -/
def rotation (named : Nat) : List Nat := (List.range 63).map fun i => (named + 1 + i) % 64

/-- A port that may take a deflected packet: a leaf uplink or a spine downlink that is up and has nothing assigned (R55). -/
def mayDeflect (c : AC) (q : Nat) : Bool :=
  let kind := match c.u with
    | .leaf _ _ => 32 ≤ q
    | .spine _ _ => q < 32
    | _ => false
  kind && c.up q && c.freeNext q

/-- The port that takes a deflected packet, the arrival port only where no other qualifies. -/
def deflectTo (c : AC) (named : Nat) (inPort : Option Nat) : Option Nat :=
  let ok := (rotation named).filter c.mayDeflect
  match ok.find? (fun q => some q ≠ inPort) with
  | some q => some q
  | none => ok.head?

/-- Assigns a packet to an output for the next slot. -/
def assign (c : AC) (q : Nat) (p : Packet) (named : Nat) (inPort : Option Nat) : AC :=
  c.modPort q fun s => { s with next := some ⟨c.slot + 1, p, named, inPort⟩ }

/-- LOOSE_DEPTH and MGMT queue room (R53). -/
def hasRoom (c : AC) (q : Nat) (cls : Nat) : Bool :=
  if cls = clsMgmt then (c.port q).mgmtQ.length < 16 else (c.port q).looseQ.length < c.reg .ACONTROL_LOOSE_DEPTH

/-- Queues a MGMT or LOOSE packet at an output, marking a LOOSE one at or above MARK_THRESH (R63). -/
def enqueue (c : AC) (q : Nat) (p : Packet) : AC :=
  if p.cls = clsMgmt then c.modPort q fun s => { s with mgmtQ := s.mgmtQ ++ [p] }
  else
    let depth := (c.port q).looseQ.length
    let mark := c.u.profile = .switch && c.reg .ACONTROL_MARK_THRESH ≤ depth
    let p := if mark then { p with mark := true } else p
    let c := if mark then c.pcount .APORT_MARKS q else c
    let c := c.modPort q fun s =>
      { s with looseQ := s.looseQ ++ [p], periodMax := max s.periodMax (depth + 1) }
    c.setPReg .APORT_QDEPTH_MAX q (max (c.preg .APORT_QDEPTH_MAX q) (min (depth + 1) 255))

/-- A message that the agent originates is queued at its output, or discarded where no table entry leads there (R74). A switch
whose queue is full deflects it (R55); an endpoint or circuit agent has no bound on its one queue. -/
def send (c : AC) (dst : Nat) (m : Msg) : AC :=
  let pkt : Packet := { dst := dst, src := c.reg .AIDENT_FID, cls := clsMgmt, len := 16 + bodyLen m,
                        sendTime := c.now, msg := some m }
  match c.u.profile with
  | .switch =>
    match c.lookup dst with
    | none => c.count .ACONTROL_NO_ROUTE
    | some e =>
      let o := c.outputOf e pkt.src dst
      let direct := match o.1 with
        | some q => if c.hasRoom q clsMgmt then some q else none
        | none => none
      match direct with
      | some q => c.enqueue q pkt
      | none =>
        match c.deflectTo o.2 none with
        | some q => (c.pcount .APORT_DEFLECTIONS o.2).assign q { pkt with defl := true } o.2 none
        | none => c.count .ACONTROL_NO_EXIT
  | _ => c.enqueue 0 pkt

/-- Latches an agent event and, where its bit is enabled, sends EVENT to the partition (R70, R96); while PARTITION_FID is null it sends
none (log 19). -/
def event (c : AC) (code : Nat) (params : List Nat) : AC :=
  let b := code % 256 - 1
  let c := c.setReg .ACOMMON_INT_STATUS (c.reg .ACOMMON_INT_STATUS ||| 2 ^ b)
  if bit (c.reg .ACOMMON_INT_ENABLE) b && c.reg .AIDENT_PARTITION_FID != nullFid then
    c.send (c.reg .AIDENT_PARTITION_FID)
      { type := 0x57, body := [code, 0, c.now] ++ (params ++ [0, 0, 0, 0]).take 4 }
  else c

/-- Reports a violation to the zone's partition (R58). -/
def violation (c : AC) (p : Packet) (named : Nat) : AC :=
  (c.pcount .APORT_VIOLATIONS named).send (c.reg .AIDENT_PARTITION_FID)
    { type := 0x53, body := [p.src, p.dst, p.flow, p.step, c.slot, named] }

/-- A packet that its named output cannot take: it leaves by the first qualifying port, or is discarded (R55, R56, R58). -/
def deflect (c : AC) (p : Packet) (named : Nat) (inPort : Option Nat) : AC :=
  if p.mcast then
    let c := (c.count .ACONTROL_NO_EXIT).pcount .APORT_DEFLECTIONS named
    if p.cls = clsSched then c.violation { p with dst := nullFid } named else c
  else
    match c.deflectTo named inPort with
    | none => c.count .ACONTROL_NO_EXIT
    | some q =>
      let c := c.pcount .APORT_DEFLECTIONS named
      let p := { p with defl := true, viol := p.viol || p.cls = clsSched }
      let c := if p.cls = clsSched then c.violation p named else c
      c.assign q p named inPort

/-- A deflected LOOSE or MGMT packet that a SCHED packet displaces from the output it was assigned to leaves by the first port
that qualifies, or is discarded (R54, R55). -/
def displaced (c : AC) (x : Assigned) : AC :=
  match c.deflectTo x.named x.inPort with
  | some q => c.assign q x.pkt x.named x.inPort
  | none => c.count .ACONTROL_NO_EXIT

/-- A packet goes to an output: a SCHED packet takes the next slot, which only another SCHED packet denies it; others join their
queue; otherwise the packet is deflected (R53, R54, R55). -/
def toOutput (c : AC) (p : Packet) (out : Option Nat) (named : Nat) (inPort : Option Nat) : AC :=
  match out with
  | none => c.deflect p named inPort
  | some q =>
    if p.cls = clsSched then
      match (c.port q).next with
      | some x =>
        if x.slot ≠ c.slot + 1 then c.assign q p named inPort
        else if x.pkt.cls = clsSched then c.deflect p named inPort
        else (c.assign q p named inPort).displaced x
      | none => c.assign q p named inPort
    else if c.hasRoom q p.cls then c.enqueue q p else c.deflect p named inPort

/-- The entry of the fence table for a FID. -/
def fenceOf (c : AC) (fid : Nat) : Option FenceEntry := c.a.fences.find? fun e => e.fid = fid

/-- A FID is fenced here, from the slot after its FENCE arrived (R83). -/
def isFenced (c : AC) (fid : Nat) : Bool :=
  match c.fenceOf fid with
  | some e => !e.lifted && e.effSlot ≤ c.slot
  | none => false

/-- The entry of a FID is lifted with F newer than the packet's fence epoch (R76, R84). -/
def isStale (c : AC) (fid ep : Nat) : Bool :=
  match c.fenceOf fid with
  | some e => e.lifted && epochNewer e.f ep
  | none => false

/-- The address rule of R40. -/
def badAddr (p : Packet) : Bool :=
  let res := fun f => 0xFF200 ≤ f && f ≤ 0xFFFFE
  (!p.mcast && (p.dst = nullFid || res p.dst)) || p.src = nullFid || res p.src

/-- Writes a receive-log entry (LOG_RING, 4,096 entries). -/
def logMsg (c : AC) (e : Env) (type : Nat) : AC :=
  let i := c.reg .ALOG_NEXT
  let ent : LogEntry := { src := e.src, type := type, tag := e.tag, sendTime := e.sendTime, recvTime := c.now }
  (c.mod fun a => { a with log := SMap.insert a.log i ent }).setReg .ALOG_NEXT ((i + 1) % 4096)

/-- A discard under R73: counted, and raised as event 0x200B. -/
def foreign (c : AC) (src type : Nat) : AC := (c.count .ACONTROL_FOREIGN_CONTROL).event 0x200B [src, type]

/-- The source may control this agent (R73). -/
def controls (c : AC) (src : Nat) : Bool :=
  src == c.reg .AIDENT_PARTITION_FID || src == c.reg .AIDENT_ALT_FID0
    || src == c.reg .AIDENT_ALT_FID1 || src == c.reg .AIDENT_ALT_FID2

/-- A partition FID (R38). -/
def isPartFid (f : Nat) : Bool := 0xFF000 ≤ f && f ≤ 0xFF1FF

/-- Who may send a message: a partner's IDENT always, else anyone, a controlling partition, any partition, or the partner on the
port (R73). -/
inductive Right where
  | ident | anyone | control | anyPart | partner
  deriving DecidableEq, Repr

/-- The right holds for a message: while PARTITION_FID is null only IDENT is taken. -/
def allowed (c : AC) (r : Right) (e : Env) : Bool :=
  let named := c.reg .AIDENT_PARTITION_FID != nullFid
  match r with
  | .ident => true
  | .anyone => named
  | .control => named && c.controls e.src
  | .anyPart => named && isPartFid e.src
  | .partner => named && c.preg .APORT_PARTNER_FID e.port == e.src

/-- A message from PARTITION_FID restarts the control timeout and, unless it is HOLD, ends outage (R93). -/
def heard (c : AC) (e : Env) (type : Nat) : AC :=
  if e.src = c.reg .AIDENT_PARTITION_FID ∧ e.src ≠ nullFid then
    let c := c.mod fun a => { a with lastPartMsg := c.now }
    if type ≠ 0x47 ∧ c.reg .ACONTROL_MODE = 1 then c.setReg .ACONTROL_MODE 0 else c
  else c

/-- What every message meets first: the CRC and length check, the log, the outage rule, the right of R73; then `k`. -/
def receive (c : AC) (e : Env) (type : Nat) (r : Right) (k : AC → AC) : AC :=
  if !e.good then c.count .ACONTROL_MALFORMED_MSG
  else
    let c := c.logMsg e type
    let c := if 0x0F ≤ e.status then c.count .ACONTROL_RESERVED_STATUS else c
    let c := c.heard e type
    if c.allowed r e then k c else c.foreign e.src type

/-- A request: as `receive`, and a repeated TAG from the same source is answered from the response store (R95). -/
def request (c : AC) (e : Env) (type : Nat) (r : Right) (k : AC → AC) : AC :=
  c.receive e type r fun c =>
    match c.a.stored.find? (fun x => x.src = e.src && x.tag = e.tag && c.now < x.till) with
    | some x => (c.count .ACONTROL_DUP_REQUESTS).send e.src x.resp
    | none => k c

/-- How long a response is kept: 4 × MSG_TIMEOUT × (MSG_RETRIES + 1) (R95). -/
def keepTime (c : AC) : Nat := 4 * (c.reg .ACONTROL_MSG_TIMEOUT * 1000) * (c.reg .ACONTROL_MSG_RETRIES + 1)

/-- Answers a request and stores the answer. -/
def reply (c : AC) (src tag type status : Nat) (body : List Nat) : AC :=
  let m : Msg := { type := type + 1, status := status, tag := tag, body := body }
  (c.mod fun a => { a with stored := a.stored.filter (fun x => !(x.src = src && x.tag = tag))
                                      ++ [⟨src, tag, m, c.now + c.keepTime⟩] }).send src m

/-- Answers the request of an envelope. -/
def answer (c : AC) (e : Env) (type status : Nat) (body : List Nat := []) : AC := c.reply e.src e.tag type status body

/-- Sends a request of the agent's own, which MSG_RETRANSMIT repeats (R95). -/
def ask (c : AC) (dst type : Nat) (body : List Nat) : AC :=
  let m : Msg := { type := type, tag := c.a.nextTag, body := body }
  (c.mod fun a => { a with nextTag := (a.nextTag + 1) % 2 ^ 32,
                           requests := a.requests ++ [{ dst := dst, msg := m, sentAt := c.now }] }).send dst m

/-- Enters static fallback for a fault during outage (R94). -/
def fault (c : AC) (cause : Nat) : AC :=
  if c.reg .ACONTROL_MODE = 1 then
    let c := (c.setReg .ACONTROL_MODE 2).setReg .ACONTROL_CAUSE cause
    let c := if c.u.profile ≠ .endpoint ∧ c.reg .ABANKS_STATIC_VALID = 1 then c.setReg .ABANKS_STATIC_IN_USE 1 else c
    c.event 0x2005 [cause]
  else c

/-- UP of a port changes: event 0x2001 or 0x2002, and a fault in outage (R94, R96). -/
def setUp (c : AC) (p : Nat) (up : Bool) : AC :=
  if c.up p = up then c
  else ((c.setPReg .APORT_UP p (ofBool up)).event (if up then 0x2002 else 0x2001) [p]).fault 1

end AC

end Sys2Proof.Machine
end

