-- ==== Sys2Proof/Machine/Topo.lean ====
section
/-! DEFINITION. What a partition keeps of its fabric: the topology database and a discovery run (R97 to R115), the cabling plan,
route transactions (R128 to R139), and slices with their circuits and groups (R143 to R164). Plain records only. -/

namespace Sys2Proof.Machine

open Sys2Proof

/-- A LINK record of the cabling plan (R104): the spine port and the OCS port it should reach; OCS port 0 is a management
attachment. -/
structure PlanLink where
  pod : Nat
  spine : Nat
  port : Nat
  ocs : Nat
  ocsPort : Nat
  tag : Nat := 0
  deriving DecidableEq, Repr

/-- A BOARD record: the leaf and port of each of the eight positions, none where the position is empty. -/
structure PlanBoard where
  pod : Nat
  board : Nat
  places : List (Option (Nat × Nat))
  deriving DecidableEq, Repr

/-- A cabling plan (R104); `held` says that there is one at all (R105). -/
structure Plan where
  held : Bool := false
  id : Nat := 0
  wait : Nat := 2000
  links : List PlanLink := []
  boards : List PlanBoard := []
  deriving DecidableEq, Repr

/-- A unit of the topology database (R114): STATE 0 positioned, 1 absent, 2 no position, 3 no FID. -/
structure TopoUnit where
  unit : UnitId
  fid : Nat := nullFid
  state : Nat := 0
  profile : Nat := 0
  serial : Nat := 0
  maker : Nat := 0
  boardId : Nat := 0
  boardNo : Option Nat := none
  boardPos : Nat := 0
  findings : Nat := 0
  seen : Nat := 0
  deriving DecidableEq, Repr

/-- A link of the topology database (R114): CLASS 0 OK, 1 to 8 in the order of R108. `up` follows the port events. `farPos` is the POS of a far
unit positioned in another pod, `held` the class and the disabling that a link of a NO_FID unit returns to (R108), `off` that SET_LINK or the
link-health loop disabled it. -/
structure TopoLink where
  near : UnitId
  port : Nat
  far : Option UnitId := none
  farPort : Nat := 0
  delay : Nat := 0
  d : Nat := 0
  cls : Nat := 0
  disabled : Bool := false
  up : Bool := true
  serial : Nat := 0
  tag : Nat := 0
  farPos : Option Nat := none
  held : Option (Nat × Bool) := none
  off : Bool := false
  deriving DecidableEq, Repr

/-- A finding (R109). `pos` is the near POS, `serial` and `fid` what the far unit reported. -/
structure Finding where
  code : Nat
  near : UnitId
  nearPort : Nat
  farPort : Nat
  far : Nat
  tag : Nat
  time : Nat
  pos : Nat := 0
  serial : Nat := 0
  fid : Nat := nullFid
  deriving DecidableEq, Repr

/-- A directed exchange wanted or outstanding (R100, R103). -/
structure Exchange where
  serial : Nat := 0
  path : List Nat
  op : Nat
  payload : List Nat
  tag : Nat := 0
  sentAt : Nat := 0
  tries : Nat := 0
  cmd : Option (QId × Nat) := none
  deriving DecidableEq, Repr

/-- A discovery run (R106). STAGE 0 spine 15, 1 leaves, 2 spines 0 to 14, 3 MEASURE, 4 done with the walk. Units are known by
SERIAL until tc: `idents` and `paths` by serial, `obs` by serial × 1024 + port. `downs` are the link ends whose port-down event is
handled after tc. -/
structure Run where
  t0 : Nat
  wait : Nat
  plan : Plan
  stage : Nat := 0
  todo : List Exchange := []
  flight : List Exchange := []
  root : Nat := 0
  idents : SMap IdBlock := []
  paths : SMap (List Nat) := []
  obs : SMap IdBlock := []
  delays : SMap (Nat × Nat) := []
  downs : List Nat := []
  deriving DecidableEq, Repr

/-- The topology database of one zone, with the identity map kept in MRAM (R112). `run` is a discovery run in progress, `tc`
when the last comparison was made, `ways` the directed path to each unit by its code, `exchanges` the directed exchanges outside a
run, `retired` the FIDs and `retiredBoards` the board numbers not yet recycled, `strays` identified units without a position and absent units
whose position another holds, `seats` the BOARD_ID by board position, `extra` FIDs lent beyond the share by kind, first FID and count, `asked`
the kinds asked for (R111). -/
structure TopoDb where
  units : SMap TopoUnit := []
  links : SMap TopoLink := []
  findings : List Finding := []
  idMap : SMap Nat := []
  boardMap : SMap Nat := []
  retired : List Nat := []
  retiredBoards : List Nat := []
  run : Option Run := none
  nextTag : Nat := 0
  tc : Option Nat := none
  peers : List PeerUnit := []
  peerDown : List (Nat × Nat) := []
  peerD : SMap Nat := []
  mgmtDown : List (Nat × Nat) := []
  ways : SMap (List Nat) := []
  exchanges : List Exchange := []
  unresolved : List Nat := []
  blocked : List Nat := []
  strays : List TopoUnit := []
  seats : SMap Nat := []
  extra : List (Nat × Nat × Nat) := []
  asked : List Nat := []
  deriving DecidableEq, Repr

/-- What an epoch's paths are computed from (R118): the epoch, the own zone's link map, the pairs and circuits of other pods that were reported
unusable, and the slices in the tables. -/
structure EpochMap where
  epoch : Nat := 0
  links : List Nat := []
  down : List (Nat × Nat) := []
  slices : List Nat := []
  deriving DecidableEq, Repr

/-- What opens a transaction (R128, R140): the zones, FULL, the drained classes where they are set, whether the static banks
follow, the command and the slice that wait for it, and AUTO (R139). `fullFor` names agents (unit codes) that take FULL; `afterRun` says that it is
the first after a discovery run, whose static load follows however it ends (R127). -/
structure TxnReq where
  zones : List Nat
  full : Bool := false
  fullFor : List Nat := []
  classes : Option Nat := none
  thenStatic : Bool := false
  auto : Bool := false
  afterRun : Bool := false
  cmd : Option (QId × Nat) := none
  slice : Option Nat := none
  deriving DecidableEq, Repr

/-- One message of a transaction to one agent (R130, R137): WRITE of CONTROL, WRITE of COMMIT, PREPARE with its chunks, DRAIN,
COMMIT, RESUME, ABANDON, EPOCH_QUERY, FALLBACK_CLEAR. -/
inductive TxnAct where
  | ctl
  | ctlCommit
  | prepare (e : Nat) (full : Bool)
  | drain (e cls : Nat)
  | commit (e : Nat)
  | resume (e : Nat)
  | abandon (e : Nat)
  | query
  | clear
  deriving DecidableEq, Repr

/-- A route transaction of one zone (R128 to R134). `stage` codes as TXN_STAGE. `scripts` holds what each agent (unit code) must
still answer in this step of the stage, the first message being out; `steps` are the steps of the stage to follow. `held` is set
while the zone waits for the lead to start the next stage of a domain transaction. `abandoning` holds the status with which an
abandoned transaction ends, `fresh` that it starts afresh. `polls` says when an agent whose COMMIT or RESUME timed out is asked next, `map` is the
epoch's map as GENERATE fixed it, `oldLinks` the link map of the epoch before. `lent` holds the engine groups lent for this GENERATE and `engines` their
working engines, to which the items are dealt; `redealt` says which items a stop of engine groups dealt again, and to which engines (R122, R123). -/
structure Txn where
  req : TxnReq
  epoch : Nat
  openAt : Nat
  stage : Nat := 1
  domain : Bool := false
  held : Bool := false
  drainTimeout : Nat := 1000
  commitWait : Nat := 50
  resumeWait : Nat := 50
  classes : Nat := 3
  map : EpochMap := {}
  oldLinks : List Nat := []
  lent : List Nat := []
  engines : List Nat := []
  redealt : Option (List Nat × List Nat) := none
  banks : SMap (SMap Nat) := []
  agents : List Nat := []
  scripts : SMap (List TxnAct) := []
  steps : List (SMap (List TxnAct)) := []
  resends : SMap Nat := []
  recov : SMap Nat := []
  polls : SMap Nat := []
  lost : List Nat := []
  restarts : Nat := 0
  refused : Bool := false
  abandoning : Option Nat := none
  fresh : Bool := false
  drainAt : Option Nat := none
  genAt : Nat := 0
  commitSent : Bool := false
  forward : Bool := false
  chunks : Nat := 0
  changed : Bool := false
  degraded : Nat := 0
  statuses : List Nat := []
  deriving DecidableEq, Repr

/-- A domain transaction at the lead partition (R128, R130): the zones that have not yet reported the end of the stage; STAGE 7
stands for abandonment. -/
structure Domain where
  req : TxnReq
  stage : Nat
  wait : List Nat
  statuses : List Nat := []
  deriving DecidableEq, Repr

/-- What waits for the peer channel while all lanes of a control port are down (R23): in a zone the report of a stage with its statuses or of an
abandonment with the agents to be asked, and what the lead has told it: to start a stage, or to abandon. -/
inductive PeerHeld where
  | report (stage : Nat) (statuses : List Nat)
  | abandon (status : Nat) (asked : List Nat)
  | start (stage classes : Nat)
  | stop (status : Nat) (fresh : Bool)
  deriving DecidableEq, Repr

/-- A static load at the agents of a zone (R127). `tries` counts failures by agent, `left` the agents still loading. -/
structure StaticLoad where
  epoch : Nat
  tries : SMap Nat := []
  left : List Nat := []
  statuses : List Nat := []
  deriving DecidableEq, Repr

/-- A multicast group of a slice (R155): axis 0 X, 1 Y; the line's two fixed coordinates; the members. -/
structure Group where
  axis : Nat
  a : Nat
  b : Nat
  members : List Nat
  num : Nat := 0
  deriving DecidableEq, Repr

/-- A circuit of a slice (R152): link end A serves the + direction and end B the − direction of the axis. -/
structure Circuit where
  plane : Nat
  axis : Nat
  podA : Nat
  portA : Nat
  podB : Nat
  portB : Nat
  ocs : Nat
  ocsA : Nat
  ocsB : Nat
  trained : Bool := false
  deriving DecidableEq, Repr

/-- A slice, from RESERVE of its admission to RELEASE (R147, R157, R160). `state` codes as QUERY_SLICE. `stage` is the
admission's stage 1 CHECK to 6 DONE, or the teardown's 11 STOP to 15 RELEASE; `undo` is set while R158 runs. `notice` gives the
notice group of each pod that has one (R286). `cmds` are the commands that wait for its admission or teardown. `failedAt` is the stage that failed, `failure` the status, REASON and DETAIL that
another G9 or its silence gave; `waits` are the G9s that have not yet ended the stage in progress. Where another G9 coordinates the slice, `master` is its
lead's FID; `asker` gives FID and TAG of a forwarded ADMIT. -/
structure Slice where
  num : Nat
  job : Nat
  ctx : Nat
  order : Nat
  origin : List Nat
  kinds : List Nat
  extents : List Nat
  width : Nat
  width15 : Nat
  endpoints : List Nat
  windowFrames : Nat
  firstFrame : Nat
  groups : List Group := []
  notice : List (Nat × Nat) := []
  circuits : List Circuit := []
  wrapDenied : Nat := 0
  leadPod : Nat := 0
  lead : Nat := 0
  hopLimit : Nat := 16
  state : Nat := 0
  stage : Nat := 0
  undo : Bool := false
  reason : Nat := 0
  status : Nat := 0
  detail : Nat := 0
  startAt : Nat
  reservedAt : Nat := 0
  stageAt : Nat := 0
  coordinator : Nat
  cmds : List (QId × Nat) := []
  request : List Nat := []
  result : List Nat := []
  resultAddr : Nat := 0
  force : Bool := false
  admittedAt : Nat := 0
  txnWanted : Bool := false
  txnStatus : Option Nat := none
  ctxResident : List Nat := []
  failedAt : Nat := 0
  failure : Option (Nat × Nat × Nat) := none
  waits : List Nat := []
  master : Option Nat := none
  asker : Option (Nat × Nat) := none
  deriving DecidableEq, Repr

end Sys2Proof.Machine
end

