-- ==== Sys2Proof/Machine/JobState.lean ====
section
/-! DEFINITION. What a partition keeps of jobs: loaded image sections (R259 to R273), templates (R165, R268), policies (R266),
windows, items and runs (R173 to R203), the engines' work (R184, R185), and learned state (R240 to R255). Plain records only. -/

namespace Sys2Proof.Machine

open Sys2Proof

/-- A tile (R214): the header fields and the payload bytes that are not zero. -/
structure Tile where
  crc : Nat := 0
  gen : Nat := 0
  ctx : Nat := 0xFF
  format : Nat := 0
  shape : Nat := 0
  index : Nat := 0
  data : SMap Nat := []
  deriving DecidableEq, Repr

/-- A hole record (R165): KIND 0 LOCAL, 1 XPOD. -/
structure Hole where
  frame : Nat
  kind : Nat
  first : Nat
  last : Nat
  deriving DecidableEq, Repr

/-- A template section (R268); sources and destinations are indexes into the request block's lists. -/
structure Tmpl where
  job : Nat
  num : Nat
  frames : Nat
  holes : List Hole
  sources : List (Nat × List SlotEntry)
  deriving DecidableEq, Repr

/-- A policy section (R266). -/
structure Policy where
  job : Nat := 0xFFFF
  spec : Bool := false
  ordered : Bool := false
  spill : Nat := 0
  analysis : Bool := false
  seqLen : Nat := 1
  seq : Nat := 0
  tolAbs : Nat := 0
  tolRel : Nat := 0
  confFloor : Nat := 0
  confCeil : Nat := 0
  histDepth : Nat := 1
  histMin : Nat := 1
  histWidth : Nat := 32
  fcModel : Nat := 0xFFFF
  hist : Nat := 0xFFFF
  histSteps : Nat := 0xFFFF
  fc : Nat := 0xFFFF
  fcConf : Nat := 0xFFFF
  fcWidth : Nat := 32
  looseFloor : Nat := 6250
  looseCeiling : Nat := 800000
  looseStep : Nat := 1000
  experts : Nat := 16
  bins : Nat := 2
  iter : Nat := 40
  analyseEvery : Nat := 256
  minGain : Nat := 26
  replFactor : Nat := 48
  replPer : Nat := 3
  apply : Nat := 0
  replMax : Nat := 64
  applyLead : Nat := 16
  seed : Nat := 0
  coact : Nat := 0
  current : Nat := 0
  advice : Nat := 0
  scratch : Nat := 0
  deriving DecidableEq, Repr

/-- A manifest triple with its FLAGS (R265). -/
structure Triple where
  job : Nat
  layer : Nat
  op : Nat
  demand : Bool
  static : Bool := false
  label : Nat := 0
  deriving DecidableEq, Repr

/-- The content of an image section (R261). A model keeps its tensor entries as 32-byte numbers, its descriptors, and how many
weight and scratch tiles it takes; its code section the lengths of R273 and the bytes. -/
inductive SecBody where
  | manifest (l : List Triple)
  | policy (p : Policy)
  | template (t : Tmpl)
  | model (base : Nat) (tensors : List (List Nat)) (cmds : List Desc) (weights scratch : Nat) (payload : List Nat)
  | code (entry text data bss stack : Nat) (bytes : List Nat)
  | other
  deriving DecidableEq, Repr

/-- A loaded section: its table fields and STATE (0 held, 1 installed, 2 refused), its tiles in SRAM and its source copy in
LPDDR6 (R264). -/
structure Section where
  ctx : Nat
  typ : Nat
  num : Nat
  job : Nat
  body : SecBody
  imageId : Nat
  imageVer : Nat
  state : Nat := 1
  logSeq : Nat := 0
  digest : Nat := 0
  gen : Nat := 1
  tiles : Nat := 0
  sram : Nat := 0
  copy : Nat := 0
  len : Nat := 0
  deriving DecidableEq, Repr

/-- An entry of the section table (R260). -/
structure SecEntry where
  typ : Nat
  enc : Bool
  num : Nat
  job : Nat
  off : Nat
  len : Nat
  iv : Nat
  aad : List Nat
  tag : Nat
  digest : Nat
  deriving DecidableEq, Repr

/-- A load in progress (R277): whether the signature has been verified, the plaintext of the sections once they have been streamed
with the condition found while streaming (CHECK_CODE and section), the image key and its generation as held when it began (R323), and, after INSTALL, the jobs whose agents have still to
acknowledge templates, whether one did not, and SEQ of the image entry. -/
structure LoadRun where
  q : QId
  tag : Nat
  ctx : Nat
  addr : Nat
  port : Nat
  startAt : Nat
  begin_ : Bool
  fromFrame : Nat
  partial_ : Bool
  imageId : Nat
  imageVer : Nat
  keyGen : Nat
  key : Nat := 0
  heldKey : Option Nat := none
  heldGen : Nat := 0
  sigR : Nat := 0
  sigS : Nat := 0
  digest : Nat
  sections : List SecEntry
  verified : Bool := false
  plain : Option (List (List Nat)) := none
  fail : Option (Nat × Nat) := none
  waits : Option (List Nat) := none
  degraded : Bool := false
  logSeq : Nat := 0
  deriving DecidableEq, Repr

/-- A template installed in the zone: entries with FIDs and group numbers, by source FID; `displaced` names the entries that
R168 removed, by source FID and index. -/
structure ZTmpl where
  num : Nat
  holes : List Hole
  entries : List (Nat × List SlotEntry)
  displaced : List (Nat × Nat) := []
  deriving DecidableEq, Repr

/-- Values that begin to apply to a job at a window (R202, R267, R279): `cmd` is set for a command's. -/
structure Setting where
  start : Nat
  cmd : Bool
  mode : Option (Bool × Bool × Nat) := none
  tol : Option (Nat × Nat) := none
  seq : Option (Nat × Nat) := none
  deriving DecidableEq, Repr

/-- A taken demand vector (R173, R174); `fenced` where the whole vector was removed. -/
structure Vector where
  src : Nat
  pos : Nat
  tag : Nat
  step : Nat
  op : Nat
  layer : Nat := 0
  entries : List (Nat × Nat)
  fenced : Bool := false
  deriving DecidableEq, Repr

/-- A run (R181, R182): the window frame, first source slot and length, and each hop's link with its slot offset. -/
structure Placed where
  frame : Nat
  first : Nat
  len : Nat
  hops : List (Nat × Nat)
  deriving DecidableEq, Repr

/-- An item (R178 to R183): class 2 speculative, 3 standing, 4 carried, 5 new or placed again. `want` is the chunks to place, `owed` those
demanded; `pod` is the source pod of a cross item at the lead; `at_` is where the search of R181 resumes; `xsent` says that a cross item
went to the lead. -/
structure Item where
  id : Nat
  src : Nat
  pos : Nat
  dst : Nat
  flow : Nat
  step : Nat
  idx : Nat
  cls : Nat
  cross : Bool
  want : Nat
  owed : Nat
  layer : Nat := 0
  pod : Nat := 0
  at_ : Nat := 0
  runs : List Placed := []
  ended : Bool := false
  degraded : Bool := false
  xsent : Bool := false
  deriving DecidableEq, Repr

/-- A window that the partition places (R179): everything that its record of R203 reports. `lead` marks the cross-pod window of a
slice's lead, whose items are every zone's cross items (R195, R196); `finals` are the source pods whose actual demand has ended there. `ready` gives the sources whose items
have all ended and since when (R192), `tiles` the sealed tile of each source (R191), `rejects` how often a source's list was rejected, by acknowledgements
and by events (R193). -/
structure Win where
  frame : Nat
  lead : Bool := false
  tmpl : Nat := 0
  step : Option Nat := none
  carriedStep : Option Nat := none
  vectors : List Vector := []
  bad : Nat := 0
  items : List Item := []
  nextId : Nat := 0
  gathered : Bool := false
  missing : List Nat := []
  spec : Bool := false
  used : Bool := false
  kept : Nat := 0
  replaced : Nat := 0
  released : Nat := 0
  fresh : Nat := 0
  xsent : Bool := false
  xfinal : Bool := false
  finals : List Nat := []
  cut : Bool := false
  returned : List Nat := []
  sealed_ : List Nat := []
  sent : List (Nat × Nat) := []
  resent : List Nat := []
  checkFail : Bool := false
  withheld : Nat := 0
  spilled : Nat := 0
  spanCut : Nat := 0
  halfEngines : Bool := false
  span : Nat := 16
  lastVector : Nat := 0
  lastList : Nat := 0
  firstWork : Option Nat := none
  closed : Bool := false
  adapted : Bool := false
  ready : List (Nat × Nat) := []
  tiles : List (Nat × Tile) := []
  rejects : List (Nat × Nat × Nat) := []
  deriving DecidableEq, Repr

/-- A forecast invocation (R242, R243): the window, how many commands it has, how many have completed with OK, and how it ended. -/
structure Invocation where
  window : Nat
  total : Nat
  done : Nat := 0
  failed : Bool := false
  late : Bool := false
  published : Bool := false
  deriving DecidableEq, Repr

/-- An analysis that runs (R249): STEP and Bellwether time at its start, and the tiles of COACT as they stood then. -/
structure Analysis where
  step : Nat
  startAt : Nat
  coact : List Tile
  deriving DecidableEq, Repr

/-- An analysis and the advice of a job at its slice's lead (R249 to R251). -/
structure Advice where
  lastStep : Option Nat := none
  running : Option Analysis := none
  seq : Nat := 0
  state : Nat := 0
  bins : List Nat := []
  repl : List (Nat × Nat) := []
  effective : Nat := 0
  deriving DecidableEq, Repr

/-- The policy that governs a job's windows before `start`, where a replaced policy section takes effect, and whether that empties the
job's history (R279). -/
structure Prior where
  start : Nat
  policy : Policy
  empties : Bool
  deriving DecidableEq, Repr

/-- A job of the zone (R147, R166): its slice, window grid, settings, templates, windows and learned state: the threshold
and h of the last window (R247), how many history slots are filled (R241), forecasts and advice. -/
structure Job where
  job : Nat
  ctx : Nat
  slice : Nat
  order : Nat
  frames : Nat
  first : Nat
  endpoints : List Nat
  settings : List Setting := []
  tmpls : List ZTmpl := []
  wins : List Win := []
  lastStep : Option Nat := none
  stopped : Bool := false
  seqAcks : List (Nat × Nat) := []
  seqAt : Option Nat := none
  thr : Nat := 0
  lastHit : Nat := 0
  filled : Nat := 0
  empty_ : Bool := true
  span : Nat := 16
  priors : List Prior := []
  inv : List Invocation := []
  advice : Advice := {}
  deriving DecidableEq, Repr

/-- A unit of work (R184): up to 32 items of one source of a window. -/
structure WorkUnit where
  job : Nat
  frame : Nat
  lead : Bool
  items : List Nat
  deriving DecidableEq, Repr

/-- The slot engines' work: deques by engine, the overflow queue, the next engine to deal to, the context served and since when
(R184, R185, R200). -/
structure Engines where
  deques : SMap (List WorkUnit) := []
  overflow : List WorkUnit := []
  dealt : Nat := 0
  ctx : Option Nat := none
  since : Nat := 0
  deriving DecidableEq, Repr

end Sys2Proof.Machine
end

