-- ==== Sys2Proof/Machine/Block.lean ====
section
/-! DEFINITION. The state of the block: one G9 with its registers, queues, contexts, Hen recorder and partitions, the host memory
that its ports reach, and the agents of its zones. Plain records only. -/

namespace Sys2Proof.Machine

open Sys2Proof

/-- A fetched command (R352): its queue, descriptor, place in the order of fetching, when it was fetched and started, the host port that it
came through (R358), and when the reset of its core gives it up (R417). -/
structure Cmd where
  q : QId
  d : Desc
  seq : Nat := 0
  fetched : Nat := 0
  started : Option Nat := none
  port : Option Nat := none
  abortAt : Option Nat := none
  deriving DecidableEq, Repr

/-- An open pair at a host port (R347). -/
structure HostPair where
  port : Nat
  page : Page
  inst : Nat
  off : Nat
  size : Nat
  word : Nat
  at_ : Nat
  deriving DecidableEq, Repr

/-- What a function reports in its PCI configuration header (R1, R335): Device ID, Revision ID and class code. -/
structure PciHeader where
  deviceId : Nat
  revision : Nat := 0x11
  classCode : Nat := 0x120000
  deriving DecidableEq, Repr

/-- What a port holds beside its HOSTPORT page: the headers of its PF and of its VFs, enabled VFs, Bus Master Enable, MSI-X masks and Pending Bits (vector numbers of
the PF's table, then 4,096 × VF + vector), reset pin, last heartbeat, and of the VFs' TDIs the TDISP state (0 CONFIG_UNLOCKED,
1 CONFIG_LOCKED, 2 RUN, 3 ERROR) and those with an IDE stream; an old active port is demoted until its link is up (R312, R335, R337, R356 to
R358). -/
structure HostPort where
  pf : PciHeader := { deviceId := 0x0900 }
  vf : PciHeader := { deviceId := 0x0901 }
  vfs : Nat := 0
  busMaster : Bool := false
  masked : List Nat := []
  pendingBits : List Nat := []
  perst : Bool := false
  lastBeat : Nat := 0
  tdi : SMap Nat := []
  ide : List Nat := []
  demoted : Bool := false
  deriving DecidableEq, Repr

/-- A share of a partition's memory (R309): first tile and tiles in SRAM and in the LPDDR6 region. -/
structure Share where
  sramFirst : Nat
  sramTiles : Nat
  lpFirst : Nat
  lpTiles : Nat
  deriving DecidableEq, Repr

/-- An entry of a measurement log (R274): its bytes as a number list. -/
structure MeasureEntry where
  bytes : List Nat
  deriving DecidableEq, Repr

/-- A teardown in progress (R329): of the context, or of its residency in some partitions; the partitions concerned, when the stage
began, and the commands that wait for it. -/
structure Teardown where
  full : Bool
  force : Bool
  mask : List Nat
  stageAt : Nat
  waiters : List (QId × Nat) := []
  deriving DecidableEq, Repr

/-- A context number (R307). STATE 0 FREE, 1 CREATED, 2 RESIDENT, 3 TEARDOWN; STAGE is that of R329. `bank` is the counter bank of R314 as it
stands, `sample` as it stood at the last millisecond `sampleMs`. -/
structure Ctx where
  state : Nat := 0
  stage : Nat := 0
  gen : Nat := 0
  conf : Bool := false
  port : Nat := 0
  signer : Nat := 0
  keyGen : Nat := 0
  key : Option Nat := none
  shares : SMap Share := []
  teardown : Option Teardown := none
  bank : SMap Nat := []
  sample : SMap Nat := []
  sampleMs : Nat := 0
  log : List MeasureEntry := []
  logL : Nat := 0
  deriving DecidableEq, Repr

/-- A fixed record of Hen (R430), with when its last occurrence was merged. -/
structure FixedRec where
  code : Nat
  part : Nat
  kept : Bool := false
  hidden : Bool := false
  lostBefore : Bool := false
  time : Nat
  p : List Nat
  rep : Nat := 0
  last : Nat
  deriving DecidableEq, Repr

/-- A record of the circulating area. -/
inductive HenRec where
  | fixed (r : FixedRec)
  | var (code part time seq : Nat) (hidden lostBefore : Bool) (body : List Nat)
  deriving DecidableEq, Repr

/-- A flush in progress (R433): reason, destination (0 host, 1 MRAM) with its port or slot, the extent, and whether that is the whole ring. -/
structure Flush where
  reason : Nat
  dest : Nat
  port : Nat
  seq : Nat
  start : Nat
  next : Nat
  oldest : Nat
  full : Bool := false
  deriving DecidableEq, Repr

/-- A flush image in an MRAM slot (R434, R435): the header's fields and the bytes after the header. -/
structure FlushImage where
  reason : Nat
  done : Bool
  truncated : Bool
  seq : Nat
  blocks : Nat
  kept : Nat
  start : Nat
  stop : Nat
  next : Nat
  oldest : Nat
  lost : Nat
  truncBytes : Nat
  data : List Nat
  deriving DecidableEq, Repr

/-- The Hen recorder (R429): kept records oldest first, circulating records oldest first with their unit index, the input queue
(sources of records not yet taken, and the microsecond up to which it was drained), and the sources that lost a record. -/
structure Hen where
  kept : List FixedRec := []
  ring : List (Nat × HenRec) := []
  queue : List Nat := []
  queueAt : Nat := 0
  lossy : List Nat := []
  varSeq : Nat := 0
  lostSince : Nat := 0
  flush : Option Flush := none
  again : Option Nat := none
  deriving DecidableEq, Repr

/-- One trace stream (R394 to R397). `cap` is its capacity and `stageCap` the ordinary part of its staging area, 0 where
records go to the ring at once. `ring` holds what lies in the ring, oldest first, with the bytes written before it; `stage` what
is staged, markers flagged. `run` is a drop run: the count and the first drop. `quota` is what is left of Q. -/
structure Stream where
  on : Bool := false
  stopped : Bool := false
  cap : Nat := 0
  stageCap : Nat := 0
  ring : List (Nat × List Nat) := []
  written : Nat := 0
  stage : List (Bool × List Nat) := []
  drainAt : Nat := 0
  credit : Nat := 0
  run : Option (Nat × Nat) := none
  lostMarkers : Nat := 0
  quota : Option Nat := none
  sinceBase : Nat := 0
  high : Nat := 0
  deriving DecidableEq, Repr

/-- The trace of a partition: the native stream, the compatibility stream, why capture is suspended (1 a confidential context, 2 the
45 mV stage, 3 both) and since when, the state that the suspension interrupted, and the spill region's first tile and tiles. -/
structure Trace where
  nat : Stream := {}
  cmp : Stream := {}
  suspended : Nat := 0
  suspendedAt : Option Nat := none
  before : Nat := 0
  spill : Option (Nat × Nat) := none
  deriving DecidableEq, Repr

/-- A fence of a job as its owning partition knows it (R288 to R291). `retire` says that FENCE_EP named it with RETIRE (R298). -/
structure FenceRec where
  job : Nat
  fid : Nat
  f : Nat
  lifted : Bool := false
  reason : Nat := 0
  retire : Bool := false
  deriving DecidableEq, Repr

/-- A fence request: of a batch at a lead, or held while the lead is in reset (R289). -/
structure FenceAsk where
  job : Nat
  slice : Nat
  fid : Nat
  reason : Nat
  detect : Nat
  deriving DecidableEq, Repr

/-- An open batch of a lead (R289). -/
structure FenceBatch where
  job : Nat
  openAt : Nat
  asks : List FenceAsk
  deriving DecidableEq, Repr

/-- A fence order at work in a zone (R290); STAGE 1 to 4. -/
structure FenceOrder where
  job : Nat
  slice : Nat
  f : Nat
  fids : List Nat
  detect : Nat
  stage : Nat := 1
  deriving DecidableEq, Repr

/-- A FENCE that an agent refused with CAPACITY, and when it is sent again (R291). -/
structure FenceRetry where
  agent : Nat
  fid : Nat
  job : Nat
  f : Nat
  tries : Nat
  due : Nat
  deriving DecidableEq, Repr

/-- A lift at work in a zone (R297): STAGE 0 the agent's answer is awaited, 1 FENCE, 2 UNFENCE at the returned endpoint, 3 UNFENCE
at the zone's agents. -/
structure Lift where
  job : Nat
  slice : Nat
  fid : Nat
  f : Nat
  stage : Nat
  cmd : Option (QId × Nat) := none
  deriving DecidableEq, Repr

/-- What a partition keeps of one port for its link-health evaluation (R254, R255): how many telemetry records came in the period,
the seven sums, the largest depth, the mean depths added up, delay and up or down events, the last score, and how many evaluations
in a row were at or above LH_THRESH, or below LH_CLEAR. -/
structure PortHealth where
  recs : Nat := 0
  sums : List Nat := []
  depth : Nat := 0
  means : Nat := 0
  delays : Nat := 0
  ups : Nat := 0
  score : Nat := 0
  high : Nat := 0
  low : Nat := 0
  deriving DecidableEq, Repr

/-- A READ_BANK at work (R140): the command, the agent and address next to be read, and the host bytes still to be filled. -/
structure BankRead where
  q : QId
  tag : Nat
  fid : Nat
  addr : Nat
  host : Nat
  left : Nat
  deriving DecidableEq, Repr

/-- A CLEAR_FALLBACK at work (R140): the command, if any, the zones, the agents found in MODE 2, and whether FALLBACK_CLEAR has gone
out. -/
structure ClearRun where
  cmd : Option (QId × Nat)
  zones : List Nat
  codes : List Nat := []
  cleared : Bool := false
  deriving DecidableEq, Repr

/-- A context's program on a core (R368 to R372): STATE 0 none, 1 STOPPED, 2 RUNNING, 3 FAULTED; its exit code; the ring of g9cq with
the indexes g9cqtail and g9cqhead and the phase of the next record; commands before `stray` were outstanding when g9cq was written;
how long g9.wait waits; and the first tile of DATA. -/
structure Prog where
  state : Nat := 0
  exit : Nat := 0
  base : Nat := 0
  log2 : Nat := 4
  head : Nat := 0
  tail : Nat := 0
  phase : Nat := 1
  stray : Nat := 0
  waitTill : Option Nat := none
  data : Nat := 0
  deriving DecidableEq, Repr

/-- What a Goose keeps of a node (R413 to R416): the head's TAG and progress count at the last scan, how many scans in a row it was stuck,
since when the head has made no progress, whether that was reported as a stall, and when the node was last a victim. -/
structure GooseNode where
  head : Option Nat := none
  progress : Nat := 0
  stuck : Nat := 0
  since : Nat := 0
  stalled : Bool := false
  victim : Option Nat := none
  deriving DecidableEq, Repr

/-- A partition's own state beside its pages. `mirrors`, `shadowMirrors` and `staticMirrors` are the mirrors of R124 by agent, `shadowOf` the epoch whose
tables an agent's shadow mirror holds, `shadowMap` the map of the epoch last prepared; `epochLinks`, `epochDown` and `epochSlices` are the map of the epoch in
force (R118). While it restarts, `queried` says that the agents have been asked and `told` that their reports went to the lead (R136). `queries` are further
QUERY_EPOCHS that end with the one in `queryCmd`. -/
structure Part where
  /- control port and messages -/
  link : LinkEnd := {}
  idBlock : Option IdBlock := none
  requests : List Request := []
  stored : List Stored := []
  nextTag : Nat := 0
  msgLog : List LogEntry := []
  lanesUp : Bool := false
  lastBeat : Nat := 0
  /- discovery and routes -/
  topo : TopoDb := {}
  txn : Option Txn := none
  domain : Option Domain := none
  peerHeld : List PeerHeld := []
  waitTxn : List TxnReq := []
  lastResume : Nat := 0
  staticLoad : Option StaticLoad := none
  mirrors : SMap (SMap Nat) := []
  shadowMirrors : SMap (SMap Nat) := []
  staticMirrors : SMap (SMap Nat) := []
  shadowOf : SMap Nat := []
  shadowMap : EpochMap := {}
  autoAt : Option Nat := none
  autoTries : Nat := 0
  autoAgain : Bool := false
  epochLinks : List Nat := []
  epochDown : List (Nat × Nat) := []
  epochSlices : List Nat := []
  restarting : Bool := false
  reports : SMap (List Nat) := []
  agentEpoch : SMap Nat := []
  resolve : List Nat := []
  queried : Bool := false
  told : Bool := false
  queryCmd : Option (QId × Nat × Nat × Nat) := none
  queries : List (QId × Nat × Nat × Nat) := []
  bankCmd : Option BankRead := none
  clearRun : Option ClearRun := none
  staticCmd : Option (QId × Nat × List Nat × List Nat) := none
  resync : Bool := false
  cutDue : Bool := false
  discCmd : Option (QId × Nat × List Nat) := none
  forwards : List (QId × Nat) := []
  /- what HOP_LIMIT of a switch held before the G9 raised it (R57) -/
  hopHeld : List (UnitId × Nat) := []
  /- trace -/
  trace : Trace := {}
  /- tiles, images and jobs -/
  tiles : SMap Tile := []
  sections : List Section := []
  loads : List LoadRun := []
  jobs : List Job := []
  progs : SMap Prog := []
  coreSince : SMap Nat := []
  /- cores halted by external debug: the context, and the number of the next command at the halt (R400); stopped clock regions: since
  when, and the cause that event 0x1801 carries (R389); cores that a halt request waits for, and the times of core resets; the bytes of the tensor
  tables that firmware placed, 131,072 for each context (R377) -/
  halts : SMap (Nat × Nat) := []
  haltWait : List Nat := []
  coreResets : SMap (List Nat) := []
  stops : SMap (Nat × Option Nat) := []
  ttab : SMap Nat := []
  /- the cluster: the context it serves or served last and since when; triples counted as unlisted, by context (R265) -/
  mioCtx : Option Nat := none
  mioSince : Nat := 0
  unlisted : List (Nat × Nat × Nat × Nat) := []
  /- slot engines and occupancy -/
  engines : Engines := {}
  engMap : SMap Nat := []
  occ : SMap Nat := []
  xocc : SMap Nat := []
  /- the end of the frames whose base is set (R170); occupancy words that stay set until their frame leaves (R171), of the zone and of the lead's map -/
  ringEnd : Nat := 0
  badWords : List Nat := []
  xbadWords : List Nat := []
  records : List (Nat × Nat × List Nat) := []
  violCounts : SMap Nat := []
  violBlocked : List Nat := []
  flagged : List Nat := []
  lhDisabled : List Nat := []
  /- fences, lost endpoints, telemetry -/
  fences : List FenceRec := []
  fenceSeq : SMap Nat := []
  batches : List FenceBatch := []
  heldAsks : List FenceAsk := []
  orders : List FenceOrder := []
  retries : List FenceRetry := []
  lifts : List Lift := []
  fenceCmds : List (QId × Nat × Nat) := []
  noted : List (Nat × Nat) := []
  gone : List Nat := []
  toRetire : List Nat := []
  health : SMap PortHealth := []
  telemAt : SMap Nat := []
  lhAt : Nat := 0
  /- all lanes of the control port are down (R23); node records of the Goose by node number (R411 to R416) -/
  portDown : Bool := false
  goose : SMap GooseNode := []
  /- BIST that a PART_REINSTATE began runs; when the last one ended (R424) -/
  bist : Bool := false
  bistEnd : Nat := 0
  deriving DecidableEq, Repr

/-- Time keeping (R382 to R388), in sixteenths of a tick: by partition the last leg 1 and the last leg 3 with the time each was
taken, the last 16 offsets, when the last complete set was applied, the last accepted PPS edge, whether edges are missing, and
SET_TIME values that wait for an edge. -/
structure TimeKeep where
  leg1 : SMap (Int × Nat) := []
  leg3 : SMap (Int × Nat) := []
  thetas : List Int := []
  tried : Option Nat := none
  lastSet : Nat := 0
  ppsLast : Option Nat := none
  ppsLost : Bool := false
  setAtPps : List Nat := []
  deriving DecidableEq, Repr

/-- A configuration blob as it is in effect (R466, R467): the DEVICE and GRID sections, the LOOPS section's values, SRIS. -/
structure Blob where
  role : Nat := 0
  index : Nat := 0
  lead : Nat := 0
  devicePort : Nat := 0
  owner : Nat := 0xFF00
  standby : Nat := 0xFF
  grid : Nat × Nat × Nat := (8, 8, 8)
  plan : Option (List Nat) := none
  loops : List Nat := []
  sris : Nat := 0
  deriving DecidableEq, Repr

/-- A transaction that a reset or the 90 mV stage interrupted (R134): its first zone and epoch, and what it was asked for. -/
structure CutTxn where
  zone : Nat
  epoch : Nat
  req : TxnReq
  deriving DecidableEq, Repr

/-- A die's supply (R452 to R460): the stages entered with the time of each, the frequency in MHz that its DVFS loop gives, the one that it
takes when the regulator acknowledges, whether a missing acknowledgement caps it, whether it is throttled, and when it last came back to stage 0. -/
structure DiePower where
  stages : SMap Nat := []
  loop : Nat := 1600
  want : Option Nat := none
  capped : Bool := false
  throttled : Bool := false
  calmAt : Option Nat := none
  deriving DecidableEq, Repr

/-- What the MRAM holds (R465): the blob's bytes, the state record's escalation and out-of-service state, the two slots of the Hen region. Identity
maps are in the topology databases, the plan of LOAD_PLAN beside it. -/
structure Mram where
  blob : List Nat := []
  state : Bool := true
  g9Out : Bool := false
  partsOut : List Nat := []
  slot0 : Option FlushImage := none
  slot1 : Option FlushImage := none
  deriving DecidableEq, Repr

/-- Everything of the block but the queue of waiting commands. `now` is the G9's Bellwether and `stepped` what its steps have added to
it, so that `now - stepped` is the ticks gone since power-on. -/
structure Chip where
  now : Nat := 0
  stepped : Int := 0
  out : List Emission := []
  freeCtr : Nat := 0
  regs : RegFile := {}
  latches : SMap Nat := []
  hostMem : SMap (BitVec 8) := []
  hostPorts : SMap HostPort := []
  phase : SMap Nat := []
  cmds : List Cmd := []
  cmdSeq : Nat := 0
  agents : SMap Agent := []
  ctxs : SMap Ctx := []
  confReleased : Nat := 0
  fwDigest : Nat := 0
  fwVersion : Nat := 0
  fwFrom : Option Nat := none
  hen : Hen := {}
  plan : Plan := {}
  planMram : Plan := {}
  slices : List Slice := []
  sliceOrder : Nat := 0
  /- at the manager, the slice numbers given out with JOB and FID (R147); forwarded ADMITs that wait for a zone (R159); partitions of other G9s out of
  service, by pod -/
  sliceNums : List (Nat × Nat × Nat) := []
  heldAdmits : List (Nat × AdmitNews) := []
  farOut : List Nat := []
  clusters : List Nat := []
  mgr : Nat := 0
  standby : Nat := 0xFF
  time : TimeKeep := {}
  grid : Nat × Nat × Nat := (8, 8, 8)
  /- circuit verification (R110): wanted, the OCS units under test with the start of map 1, the reports of other domains at the manager; leases that
  the manager gave beyond R111's, by kind, first FID, count and zone FID -/
  verifyDue : Bool := false
  verify : List (Nat × Nat) := []
  circuitSeen : List CircuitReport := []
  leases : List (Nat × Nat × Nat × Nat) := []
  parts : SMap Part := []
  /- resets (R417 to R427): fault resets by partition and of the device, by time; LPDDR6 channels lost; partitions whose DEBUG_LOCK stays;
  interrupted transactions; whether the G9 was out of service at a power-on, and is being reinstated; when each worker, and the manager, was last heard; G9s that are down -/
  faults : SMap (List Nat) := []
  devFaults : List Nat := []
  channels : SMap Nat := []
  lockKept : List Nat := []
  cutTxns : List CutTxn := []
  outPowered : Bool := false
  reinstating : Bool := false
  beats : SMap Nat := []
  down : List Nat := []
  /- boot and power: junction sensors by die (0 good, 1 high in the last sample, 2 bad), the last ten Tj plus 512, since when the mean is below the
  release limit, samples at the trip limit in a row; when each supply reading took its value; rails in tolerance, and since when all are, where that is known; TIME_REF lost -/
  blob : Blob := {}
  mram : Mram := {}
  dies : SMap DiePower := []
  sensors : SMap (List Nat) := []
  tjs : SMap (List Nat) := []
  cool : SMap Nat := []
  tripped : SMap Nat := []
  readings : SMap (List (Nat × Nat)) := []
  rails : List Nat := List.range 10
  railsAt : Option Nat := none
  refLost : Bool := false
  deriving DecidableEq, Repr

end Sys2Proof.Machine
end

