-- ==== Sys2Proof/Machine/Ops.lean ====
section
/-! DEFINITION. The operations over the block that every command shares: registers and counters, host memory, partitions,
contexts and agents, host ports and interrupts (R338, R339, R355, R356), and partition messages (R95, R390). -/

namespace Sys2Proof.Machine

open Sys2Proof

namespace Chip

/-- The block right after reset: every register at its reset value, every field of the records at its default. -/
def reset : Chip := {}

/-! Time, output, free values -/

/-- One command's work at time `t`: time runs backwards only by a step of Bellwether (R382), the outputs are those of this command
alone. -/
def run (c : Chip) (t : Nat) (f : Chip → Chip) : Chip :=
  f { c with now := max c.now t, out := [] }

/-- Lets something leave the block. -/
def emit (c : Chip) (e : Emission) : Chip := { c with out := e :: c.out }

/-- The next free value, cut to `w` bits: a value that the spec leaves open (R5). -/
def freeVal (c : Chip) (w : Nat) : Nat := trunc w (Config.freeValue c.freeCtr)

/-- The counter that names free values moves on. -/
def drawn (c : Chip) : Chip := { c with freeCtr := c.freeCtr + 1 }

/-! Registers -/

/-- The applied value of a register field. -/
def reg (c : Chip) (r : Reg) (inst : Nat := 0) (idx : Nat := 0) : Nat := c.regs.get r inst idx
/-- Sets a register field. -/
def setReg (c : Chip) (r : Reg) (inst idx v : Nat) : Chip := { c with regs := c.regs.set r inst idx v }
/-- Counts `n` events in a counter. -/
def countN (c : Chip) (r : Reg) (inst n : Nat) (idx : Nat := 0) : Chip := { c with regs := c.regs.count r inst idx n }
/-- Counts one event. -/
def count (c : Chip) (r : Reg) (inst : Nat := 0) : Chip := c.countN r inst 1

/-- A partition. -/
def part (c : Chip) (p : Nat) : Part := SMap.get {} c.parts p
/-- Changes a partition. -/
def modPart (c : Chip) (p : Nat) (f : Part → Part) : Chip := { c with parts := SMap.set {} c.parts p (f (c.part p)) }
/-- A context. -/
def ctx (c : Chip) (n : Nat) : Ctx := SMap.get {} c.ctxs n
/-- Changes a context. -/
def modCtx (c : Chip) (n : Nat) (f : Ctx → Ctx) : Chip := { c with ctxs := SMap.set {} c.ctxs n (f (c.ctx n)) }
/-- An agent. -/
def agent (c : Chip) (u : UnitId) : Agent := SMap.get {} c.agents u.code
/-- Sets an agent. -/
def setAgent (c : Chip) (u : UnitId) (a : Agent) : Chip := { c with agents := SMap.set {} c.agents u.code a }
/-- A host port. -/
def hostPort (c : Chip) (n : Nat) : HostPort := SMap.get {} c.hostPorts n
/-- The TDISP state of the VF that a context is bound to (R312). -/
def tdiOf (c : Chip) (x : Nat) : Nat := SMap.get 0 (c.hostPort (c.ctx x).port).tdi x
/-- Changes a host port. -/
def modHostPort (c : Chip) (n : Nat) (f : HostPort → HostPort) : Chip :=
  { c with hostPorts := SMap.set {} c.hostPorts n (f (c.hostPort n)) }

/-- Ticks gone since power-on, whatever the steps of Bellwether. -/
def ticks (c : Chip) : Int := c.now - c.stepped

/-- An agent at work, under its own Bellwether (R49, R91). -/
def acOf (c : Chip) (u : UnitId) : AC :=
  { u := u, now := AC.clockOf u (c.agent u) c.ticks, ticks := c.ticks, a := c.agent u }

/-- An operation of one agent, done on the block: the agent's record changes and what it sends leaves the block. -/
def onAgent (c : Chip) (u : UnitId) (f : AC → AC) : Chip :=
  let r := f (c.acOf u)
  { (c.setAgent u r.a) with out := r.out ++ c.out }

/-- The 16 partitions. -/
def allParts : List Nat := List.range 16

/-- IN_SERVICE of a partition (R359). -/
def inService (c : Chip) (p : Nat) : Bool := bit (c.reg .DEVICE_IN_SERVICE) p
/-- A partition is out of service, or held with the G9 (R424, R425, R439). -/
def outOfService (c : Chip) (p : Nat) : Bool := 3 ≤ c.reg .RESET_PART_STATE 0 p
/-- The G9 is out of service (R425). -/
def g9Out (c : Chip) : Bool := c.reg .RESET_DEVICE_STATE == 2
/-- A partition's ring stop is in bypass: it is in reset or out of service (R26). -/
def bypassed (c : Chip) (p : Nat) : Bool := bit (c.reg .RING_BYPASS (p / 4)) (p % 4)
/-- The cluster index g (R37). -/
def clusterIndex (c : Chip) : Nat := c.reg .DEVICE_CLUSTER_INDEX
/-- The FID of a partition of this G9 (R39). -/
def partFid (c : Chip) (p : Nat) : Nat := 0xFF000 + 16 * c.clusterIndex + p
/-- The pod index of a partition's zone (R104). -/
def podOf (c : Chip) (p : Nat) : Nat := 16 * c.clusterIndex + p
/-- The lead partition in effect (R24). -/
def leadPart (c : Chip) : Nat := c.reg .DEVICE_LEAD
/-- This G9 holds the cluster role (R37). -/
def isManager (c : Chip) : Bool := c.reg .DEVICE_ROLE == 0
/-- The FID that messages to the manager go to (R37). -/
def mgrFid (c : Chip) : Nat := 0xFF000 + 16 * c.mgr
/-- The partition of this G9 that governs a pod. -/
def partOfPod (c : Chip) (pod : Nat) : Option Nat := if pod / 16 = c.clusterIndex then some (pod % 16) else none
/-- The partition of this G9 that holds a FID (R39). -/
def partOfFid (c : Chip) (f : Nat) : Option Nat :=
  if 0xFF000 + 16 * c.clusterIndex ≤ f ∧ f < 0xFF000 + 16 * c.clusterIndex + 16 then some (f % 16) else none

/-! Confidential contexts: counter banks (R314) -/

/-- The context is confidential and holds something. -/
def isConf (c : Chip) (n : Nat) : Bool := (c.ctx n).conf && (c.ctx n).state != 0
/-- The context is resident in a partition. -/
def residentIn (c : Chip) (x p : Nat) : Bool := (SMap.find? (c.ctx x).shares p).isSome
/-- The next context with work in ascending number after `y`. -/
def mioNext (l : List Nat) (y : Nat) : Option Nat := match l.find? (fun z => y < z) with | some z => some z | none => l.head?

/-- The bank value is sampled at each Bellwether multiple of 1,000,000. -/
def bankAt (now : Nat) (x : Ctx) : Ctx :=
  if x.sampleMs < now / 1000000 then { x with sample := x.bank, sampleMs := now / 1000000 } else x

/-- Counts `n` events of a context's work: in its bank where it is confidential, else in the page's counter. Context 64 stands
for device functions (R401). -/
def countFor (c : Chip) (x : Nat) (r : Reg) (inst n : Nat) (idx : Nat := 0) : Chip :=
  if x < 64 && c.isConf x then
    c.modCtx x fun k =>
      let k := bankAt c.now k
      let key := r.key inst idx
      { k with bank := SMap.set 0 k.bank key (min (SMap.get 0 k.bank key + n) (2 ^ r.width - 1)) }
  else c.countN r inst n idx

/-- Which contexts are resident in a partition, in ascending number. -/
def residents (c : Chip) (p : Nat) : List Nat :=
  (c.ctxs.filter fun e => (SMap.find? e.2.shares p).isSome).map Prod.fst

/-- R313 applies to a partition: a confidential context is resident there, or was when it left service (R444). -/
def locked (c : Chip) (p : Nat) : Bool := (c.residents p).any c.isConf || c.lockKept.contains p

/-- A counter set of the PCOUNTERS page passes an event's triple and context (R402). -/
def setPasses (c : Chip) (p s x job layer op : Nat) : Bool :=
  let ok := fun (f m : Reg) (v : Nat) => v &&& c.reg m p s == c.reg f p s &&& c.reg m p s
  let fc := c.reg .PCOUNTERS_F_CTX p s
  c.reg .PCOUNTERS_EN p s == 1 && ok .PCOUNTERS_F_JOB .PCOUNTERS_M_JOB job && ok .PCOUNTERS_F_LAYER .PCOUNTERS_M_LAYER layer
    && ok .PCOUNTERS_F_OPERATOR .PCOUNTERS_M_OPERATOR op && (fc == x || fc == 0x7F)

/-- Counts an event of R402 in the counters of the sets that select it. -/
def pevent (c : Chip) (p code x job layer op n : Nat) : Chip :=
  if n = 0 then c
  else
    ((List.range 8).filter fun s => c.setPasses p s x job layer op).foldl (fun c s =>
      ((List.range 4).filter fun i => bits (c.reg .PCOUNTERS_EV p s) (8 * i + 7) (8 * i) = code).foldl
        (fun c i => c.countFor x .PCOUNTERS_COUNT p n (4 * s + i)) c) c

/-! Host memory. Each port reaches its own host's memory; an address nothing has written reads 0. -/

/-- The key of a host address of a port. -/
def hostKey (port a : Nat) : Nat := port * 2 ^ 64 + a % 2 ^ 64
/-- Reads one byte of host memory. -/
def hostByte (c : Chip) (port a : Nat) : Nat := (SMap.get 0#8 c.hostMem (hostKey port a)).toNat
/-- Writes one byte of host memory, in canonical form. -/
def setHostByte (c : Chip) (port a v : Nat) : Chip :=
  { c with hostMem := SMap.set 0#8 c.hostMem (hostKey port a) (BitVec.ofNat 8 v) }
/-- Reads `n` bytes. -/
def hostBytes (c : Chip) (port a n : Nat) : List Nat := (List.range n).map fun i => c.hostByte port (a + i)
/-- Writes bytes from an address on. -/
def writeHost (c : Chip) (port : Nat) : Nat → List Nat → Chip
  | _, [] => c
  | a, v :: r => writeHost (c.setHostByte port a v) port (a + 1) r
/-- Makes `n` bytes of host memory read zero. -/
def zeroHost (c : Chip) (port a n : Nat) : Chip :=
  { c with hostMem := SMap.eraseRange c.hostMem (hostKey port a) (hostKey port a + n) }
/-- A little-endian number of `n` bytes of host memory. -/
def hostWord (c : Chip) (port a n : Nat) : Nat := ofBytes (c.hostBytes port a n)

/-! Host ports: ownership and interrupts -/

/-- The port that owns a partition (R338). -/
def ownerPort (c : Chip) (p : Nat) : Nat :=
  match c.reg .DEVICE_HOST_CFG with
  | 0 => 0
  | 1 => 1
  | 2 => c.reg .DEVICE_ACTIVE_PORT
  | _ => ofBool (bit (c.reg .DEVICE_OWNER) p)

/-- The port is used at all in this host mode (R338). -/
def portUsed (c : Chip) (port : Nat) : Bool :=
  match c.reg .DEVICE_HOST_CFG with
  | 0 => port == 0
  | 1 => port == 1
  | _ => port < 2

/-- A page of the partition group, with its page number q (R342). -/
def partPage (g : Page) : Option Nat :=
  match g with
  | .PARTITION => some 0 | .ENGINES => some 1 | .CORES => some 2 | .MEMORY => some 3 | .MULE => some 4
  | .GOOSE => some 5 | .TRACE => some 6 | .PCOUNTERS => some 7 | .ROUTE => some 8 | .SCHED => some 9
  | .MIOBOR => some 10 | .LEARN => some 11 | .IMAGE => some 12 | .FAIL => some 13 | .LINKSEC => some 14
  | _ => none

/-- A device page's number (R342); the RING pages count on from the first. -/
def devicePage (g : Page) (inst : Nat) : Option Nat :=
  match g with
  | .DEVICE => some 0 | .HOSTPORT => some 1 | .RING => some (2 + inst) | .TIME => some 8 | .COUNTERS => some 9
  | .HEN => some 10 | .RESET => some 11 | .POWER => some 12 | .THERMAL => some 13 | .BOOT => some 14
  | .LOOPS => some 15 | .CONTEXT => some 16
  | _ => none

/-- While the G9 is out of service only these pages answer (R425). -/
def pageShut (c : Chip) (g : Page) : Bool :=
  c.g9Out && !([Page.DEVICE, .HOSTPORT, .TIME, .HEN, .RESET, .POWER, .THERMAL, .BOOT].contains g)

/-- A port may read a page (R339). -/
def mayReach (c : Chip) (port : Nat) (g : Page) (inst : Nat) : Bool :=
  c.portUsed port &&
  match g with
  | .HOSTPORT | .CONTEXT => inst == port
  | .CTXQ => (c.ctx (inst / 16)).port == port && c.ownerPort (inst % 16) == port
  | _ =>
    if (partPage g).isSome then c.reg .DEVICE_HOST_CFG == 2 || c.ownerPort inst == port
    else true

/-- A port may write a page (R339, R340). -/
def mayWrite (c : Chip) (port : Nat) (g : Page) (inst : Nat) : Bool :=
  c.mayReach port g inst &&
  match c.reg .DEVICE_HOST_CFG with
  | 2 => g == .HOSTPORT || c.reg .DEVICE_ACTIVE_PORT == port
  | 3 =>
    if (devicePage g inst).isSome then g == .HOSTPORT || g == .CONTEXT || c.reg .DEVICE_DEVICE_PORT == port
    else true
  | _ => true

/-- Nothing that the G9 writes reaches a port's host: the link is down or Bus Master Enable is off (R358). -/
def recordLost (c : Chip) (port : Nat) : Bool :=
  !(c.reg .HOSTPORT_LINK_UP port == 1 && (c.hostPort port).busMaster)

/-- Sends or pends one MSI-X message (R356). -/
def msix (c : Chip) (port fn vector : Nat) : Chip :=
  let k := 4096 * fn + vector
  if k ∈ (c.hostPort port).masked then c.modHostPort port fun h => { h with pendingBits := addOnce h.pendingBits k }
  else if c.recordLost port then c
  else (c.count .HOSTPORT_MSIX_SENT port).emit (.msix port k)

/-- The message of a page's source, on each port that may reach the page (R355, R356). -/
def msixPage (c : Chip) (g : Page) (inst : Nat) : Chip :=
  let send := fun (c : Chip) (v : Nat) =>
    ([0, 1].filter fun port => c.mayReach port g inst).foldl (fun c port => c.msix port 0 v) c
  match partPage g, devicePage g inst with
  | some q, _ => send c (256 + 16 * inst + q)
  | none, some n => send c n
  | none, none => c

/-- INT_STATUS with CQ_WRITTEN as bit 31. -/
def intStatus (c : Chip) (g : Page) (inst : Nat) : Nat :=
  c.reg .COMMON_INT_STATUS inst g.ctorIdx + (c.reg .COMMON_CQ_WRITTEN inst g.ctorIdx) * 2 ^ 31

/-- Enabled causes. -/
def enabled (c : Chip) (g : Page) (inst : Nat) : Nat := c.intStatus g inst &&& c.reg .COMMON_INT_ENABLE inst g.ctorIdx

/-- Latches a cause of a page, and sends its vector where the enabled causes become non-zero (R356). -/
def raise (c : Chip) (g : Page) (inst b : Nat) : Chip :=
  let was := c.enabled g inst
  let c :=
    if b = 31 then c.setReg .COMMON_CQ_WRITTEN inst g.ctorIdx 1
    else c.setReg .COMMON_INT_STATUS inst g.ctorIdx (c.reg .COMMON_INT_STATUS inst g.ctorIdx ||| 2 ^ b)
  if was = 0 ∧ c.enabled g inst ≠ 0 then c.msixPage g inst else c

/-- The vector of CTX_INT_STATUS of a context in a partition (R355). -/
def msixCtx (c : Chip) (x p : Nat) : Chip :=
  let port := (c.ctx x).port
  if c.ownerPort p = port ∧ c.portUsed port then
    if x = 0 then c.msix port 0 (512 + p) else c.msix port x p
  else c

/-- Latches a cause of CTX_INT_STATUS. -/
def raiseCtx (c : Chip) (x p b : Nat) : Chip :=
  let i := 16 * x + p
  let en := fun (c : Chip) => c.reg .CTXQ_CTX_INT_STATUS i &&& c.reg .CTXQ_CTX_INT_ENABLE i
  let was := en c
  let c := c.setReg .CTXQ_CTX_INT_STATUS i 0 (c.reg .CTXQ_CTX_INT_STATUS i ||| 2 ^ b)
  if was = 0 ∧ en c ≠ 0 then c.msixCtx x p else c

/-! Statuses -/

/-- A status that the spec leaves open, of those it defines (R15). -/
def freeStatus (c : Chip) : Nat := Config.freeValue c.freeCtr % 15

/-- The places of the status codes in the order of R16. -/
def statusRank (s : Nat) : Nat :=
  ([0x05, 0x09, 0x08, 0x04, 0x03, 0x0C, 0x02, 0x07, 0x0B, 0x06, 0x0A, 0x01, 0x0E, 0x0D, 0x00].findIdx? (· = s)).getD 15

/-- The one status reported where several conditions apply (R16). -/
def worst (l : List Nat) : Nat := l.foldl (fun a s => if statusRank s < statusRank a then s else a) 0x00

/-! Partition messages -/

/-- Logs a message that a partition sends or receives (R390); FID and TAG are zero for a confidential context. -/
def logMsg (c : Chip) (p far type tag sendTime : Nat) (sent hide : Bool) : Chip :=
  let e : LogEntry := { src := if hide then 0 else far, type := type, tag := if hide then 0 else tag,
                        sendTime := sendTime, recvTime := if sent then 0 else c.now, sent := sent }
  let n := c.reg .TRACE_MSGLOG_NEXT p
  (c.modPart p fun x => { x with msgLog := lastN 65536 (x.msgLog ++ [e]) }).setReg .TRACE_MSGLOG_NEXT p 0 ((n + 1) % 65536)

/-- All eight lanes of a control port are down, or its link stops to train again. -/
def controlPortDown (c : Chip) (p : Nat) : Chip :=
  (c.modPart p fun s => { s with lanesUp := false, portDown := true, link := {} }).setReg .LINKSEC_KEYED p 0 0

/-- A partition sends a message on its control port under the index of its context (R326): none while all its lanes are down (R23), nor for another
G9 under a default blob (R467). Where the index has no COUNTER left the port goes down, to train again (R327). -/
def psend (c : Chip) (p dst : Nat) (m : Msg) (x : Nat := 64) : Chip :=
  if (c.part p).portDown ∨ (c.reg .BOOT_BLOB_DEFAULTED = 1 ∧ 0xFF000 ≤ dst ∧ dst < 0xFF200 ∧ (c.partOfFid dst).isNone) then c
  else
    let i := if (0x40 ≤ m.type ∧ m.type ≤ 0x45) ∨ (0x80 ≤ m.type ∧ m.type ≤ 0x85) then (if x < 64 then 1 + x else 0) else 0
    if (c.part p).link.spent i then c.controlPortDown p
    else
      let c := c.logMsg p dst m.type m.tag c.now true (x < 64 && c.isConf x)
      let c := c.modPart p fun s =>
        { s with link := { s.link with tx := SMap.insert s.link.tx i (SMap.get 0 s.link.tx i + 1) } }
      c.emit (.sent p dst m)

/-- The lead partition runs the domain-wide and cluster-wide functions now: it is in no reset, and a lane of its control port is up (R23, R24). -/
def leadRuns (c : Chip) : Bool := !c.bypassed c.leadPart && !(c.part c.leadPart).portDown

/-- A notice over the peer channel, whose layout the spec does not give: it leaves on the partition's own lanes, so not while all are down (R23), and
for another G9 not under a default blob (R467). -/
def peerOut (c : Chip) (p dst : Nat) (kind : String) (args : List Nat) : Chip :=
  if (c.part p).portDown ∨ (c.reg .BOOT_BLOB_DEFAULTED = 1 ∧ (c.partOfFid dst).isNone) then c else c.emit (.peer p dst kind args)

/-- The partitions that a lead passes a report on to (R481): the others of its G9, in a worker the manager's lead, in the manager the leads of the
other G9s; not back where it came from. -/
def relays (c : Chip) (p src : Nat) : List Nat :=
  let own := (allParts.filter fun q => q ≠ p).map c.partFid
  let far := if c.isManager then (c.clusters.filter fun g => g ≠ c.clusterIndex).map fun g => 0xFF000 + 16 * g else [c.mgrFid]
  (own ++ far).filter fun f => f / 16 ≠ src / 16 ∨ (f ≠ src ∧ src / 16 = c.partFid p / 16)

/-- A lead passes a report on. -/
def passOn (c : Chip) (p src : Nat) (args : List Nat) : Chip :=
  (c.relays p src).foldl (fun c f => c.peerOut p f "PEER_REPORT" args) c

/-- A partition reports to the lead partition of its G9, which passes the report on (R481). -/
def tellLead (c : Chip) (p : Nat) (args : List Nat) : Chip :=
  if p = c.leadPart then c.passOn p (c.partFid p) args else c.peerOut p (c.partFid c.leadPart) "PEER_REPORT" args

/-- A partition sends a request, which MSG_RETRANSMIT repeats (R95). `ref` is what it is asked for. -/
def pask (c : Chip) (p dst type : Nat) (body : List Nat) (ref : Nat := 0) (x : Nat := 64) : Chip :=
  let m : Msg := { type := type, tag := (c.part p).nextTag, body := body }
  (c.modPart p fun s => { s with nextTag := (s.nextTag + 1) % 2 ^ 32,
                                 requests := s.requests ++ [{ dst := dst, msg := m, sentAt := c.now, ref := ref }] }).psend
    p dst m x

/-- A partition sends a notice. -/
def pnotice (c : Chip) (p dst type : Nat) (body : List Nat) (x : Nat := 64) : Chip :=
  c.psend p dst { type := type, body := body } x

/-- The outstanding request that an answer's source and TAG name. -/
def asked (c : Chip) (p src tag type : Nat) : Option Request :=
  (c.part p).requests.find? fun r => r.dst = src && r.msg.tag = tag && r.msg.type = type

/-- Ends an outstanding request. -/
def unask (c : Chip) (p src tag : Nat) : Chip :=
  c.modPart p fun s => { s with requests := s.requests.filter fun r => !(r.dst = src && r.msg.tag = tag) }

/-- An answer arrives at a partition: it is logged, and where it answers an outstanding request that request ends and `k` acts
on it. -/
def answered (c : Chip) (p src tag type : Nat) (k : Request → Chip → Chip) : Chip :=
  let c := c.logMsg p src (type + 1) tag c.now false false
  match c.asked p src tag type with
  | some r => k r (c.unask p src tag)
  | none => c

/-- How long a partition keeps a response: 4 × MSG_TIMEOUT × (MSG_RETRIES + 1), at the agents' defaults (R95). -/
def peerKeep : Nat := 4 * 20000 * 4

/-- A request arrives at a partition: a repeated TAG is answered from the store, any other is done by `k`. -/
def prequest (c : Chip) (p src tag type : Nat) (k : Chip → Chip) (x : Nat := 64) : Chip :=
  let c := c.logMsg p src type tag c.now false (x < 64 && c.isConf x)
  match (c.part p).stored.find? (fun r => r.src = src && r.tag = tag && c.now < r.till) with
  | some r => c.psend p src r.resp x
  | none => k c

/-- A partition answers a request and keeps the answer. -/
def preply (c : Chip) (p src tag type status : Nat) (body : List Nat := []) (x : Nat := 64) : Chip :=
  let m : Msg := { type := type + 1, status := status, tag := tag, body := body }
  (c.modPart p fun s => { s with stored := s.stored.filter (fun r => !(r.src = src && r.tag = tag))
                                            ++ [⟨src, tag, m, c.now + peerKeep⟩] }).psend p src m x

end Chip

/-- The addressed memories are in canonical form: host memory, and in every partition the tiles and the payload of each. -/
def Memory.wf (c : Chip) : Bool :=
  SMap.wf 0#8 c.hostMem && c.parts.all fun e => SMap.wf {} e.2.tiles && e.2.tiles.all fun t => SMap.wf 0 t.2.data

end Sys2Proof.Machine
end

