-- ==== Sys2Proof/Machine/State.lean ====
section
/-! DEFINITION. The state of the block and its reset value: the queue of the commands that wait, first in, first out, and
everything else of the block. -/

namespace Sys2Proof.Machine

open Sys2Proof

/-- The state: the commands that wait, oldest first, the pairs that the host ports hold open (R347), and the block. -/
structure State where
  pending : List Instr := []
  pairs : List HostPair := []
  chip : Chip := {}
  deriving DecidableEq, Repr

/-- Why the block stops with a fault. No command of this block does: the spec gives each an effect. -/
inductive Fault where
  /-- Raised by nothing: every access that the spec calls absent is answered as the spec says. Safe. -/
  | none_
  deriving DecidableEq, Repr

/-- Why a command has no meaning here. -/
inductive Refusal where
  /-- A row of the table whose meaning is not written; raised by its arm of `exec` alone. Safe: the block stops. -/
  | notModelled (mnemonic : String)
  deriving DecidableEq, Repr

/-- The state right after reset (power-on): the queue empty, no time gone, every register at its reset value, memory with nothing
listed. -/
def State.reset : State := { pending := [], pairs := [], chip := Chip.reset }

/-- One command's work on the block at time `t`. -/
def State.run (s : State) (t : Nat) (f : Chip → Chip) : State := { s with chip := s.chip.run t f }

/-- The same of a command that a host port writes: it may open a pair, complete one or break one. -/
def State.runPairs (s : State) (t : Nat) (f : Chip → List HostPair → Chip × List HostPair) : State :=
  let r := f (s.chip.run t fun c => c) s.pairs
  { s with chip := r.1, pairs := r.2 }

end Sys2Proof.Machine
end

