-- ==== Sys2Proof/Machine/AgentRx.lean ====
section
/-! DEFINITION. A frame at a link end (R62, R325 to R327), the receive checks of R76, multicast (R66, R67, R84), flows (R59 to
R61, R90), marks and echoes (R63, R64), and what an output sends in a slot (R54, R88). -/

namespace Sys2Proof.Machine

open Sys2Proof

/-- What the link checks of R325 say of a frame. -/
inductive LinkVerdict where
  | fec | revoked | mismatch | replay | auth
  | ok (l : LinkEnd)
  deriving DecidableEq, Repr

/-- A message of TYPE 0x40 to 0x45 or 0x80 to 0x85 travels under the index of its context next to a partition (R326). -/
def contextBearing (p : Packet) : Bool :=
  match p.msg with
  | some m => (0x40 ≤ m.type && m.type ≤ 0x45) || (0x80 ≤ m.type && m.type ≤ 0x85)
  | none => false

/-- The generation before is still accepted (R327). -/
def prevHeld (l : LinkEnd) (now : Nat) : Bool :=
  l.prevOpen && (match l.prevUntil with | some u => now < u | none => true)

/-- The ordered checks of R325. `strict` is a G9's own port, which also refuses a context-bearing message under another index
than 1 + CTX. The first frame accepted under a new generation starts the 1 ms for the one before (R327). -/
def linkCheck (l : LinkEnd) (now : Nat) (strict : Bool) (f : Frame) : LinkVerdict :=
  if f.fecBad then .fec
  else if f.key ∈ l.revoked then .revoked
  else
    let keyOk := f.key = 0 || ((strict || l.partner = 3) && f.key ≤ 64)
    let ctxOk := !strict || !contextBearing f.pkt || f.key = 1 + f.pkt.ctx
    let cur := f.parity = l.gen % 2
    let held := cur || (prevHeld l now && l.gen ≠ 0)
    if !(keyOk && ctxOk && held) then .mismatch
    else
      let k := 128 * f.parity + f.key
      if f.counter < SMap.get 0 l.rx k then .replay
      else if !f.tagOk then .auth
      else
        let l := { l with rx := SMap.insert l.rx k (f.counter + 1) }
        .ok (if cur && l.prevOpen && l.prevUntil.isNone then { l with prevUntil := some (now + 1000000) } else l)

namespace AC

/-- The echo that a marked LOOSE packet asks for: at most one each 8,192 ticks for a source (R64). -/
def markEcho (c : AC) (p : Packet) : AC :=
  let e := SMap.get {} c.a.echoes p.src
  let due : Bool := match e.lastEcho with | some t => t + 8192 ≤ c.now | none => true
  if due then
    let c := c.mod fun a => { a with echoes := SMap.set {} a.echoes p.src { lastEcho := some c.now, marks := 0 } }
    (c.count .ALOOSE_ECHOES_TX).send p.src { type := 0x51, body := [e.marks + 1, p.job] }
  else
    let c := c.mod fun a => { a with echoes := SMap.set {} a.echoes p.src { e with marks := e.marks + 1 } }
    c.count .ALOOSE_MARKS_UNECHOED

/-- The expected count of a flow: the runtime's lowered total, else TOTAL of its first chunk. -/
def expected (f : Flow) : Option Nat := match f.lowered with | some n => some n | none => f.decl

/-- Ends a flow with a status and writes its completion record (R90). -/
def endFlow (c : AC) (f : Flow) (status : Nat) : AC :=
  let c := c.mod fun a => { a with flows := a.flows.filter fun x => !(x.src = f.src && x.flow = f.flow) }
  let c := c.emit (.flowDone c.u f.src f.flow f.count status)
  match status with
  | 0x00 => c.count .AFLOWS_DONE_OK
  | 0x0E => c.count .AFLOWS_DONE_VIOL
  | _ =>
    (c.mod fun a => { a with ended := addOnce a.ended (f.src, f.flow) }).count .AFLOWS_DONE_TIMEOUT

/-- Completes a flow whose count has reached what is expected: SCHED_VIOLATION where a chunk carried VIOL (R58, R59). -/
def tryComplete (c : AC) (src flow : Nat) : AC :=
  match c.a.flows.find? (fun x => x.src = src && x.flow = flow) with
  | some f =>
    match expected f with
    | some n => if n ≤ f.count then c.endFlow f (if f.viol then 0x0E else 0x00) else c
    | none => c
  | none => c

/-- The flow table has no room for a new entry (R90). -/
def flowFull (c : AC) : Bool := 2 ^ c.flowLog2 ≤ c.a.flows.length

/-- Replaces a flow's entry. -/
def setFlow (c : AC) (f : Flow) : AC :=
  c.mod fun a => { a with flows := mapIf (fun x => x.src = f.src && x.flow = f.flow) (fun _ => f) a.flows }

/-- A data chunk at its endpoint: the echo of a mark, whatever becomes of the chunk (log 19), then the rules of R60, R61, R59 and the full table. -/
def takeChunk (c : AC) (p : Packet) : AC :=
  let c := if p.mark ∧ p.cls = clsLoose then c.markEcho p else c
  if (p.src, p.flow) ∈ c.a.ended then c.count .AFLOWS_LATE_CHUNK
  else
    match c.a.flows.find? (fun x => x.src = p.src && x.flow = p.flow) with
    | some f =>
      let other := match f.decl with | some n => n ≠ p.total | none => false
      if p.total ≤ p.seq || other then c.count .AFLOWS_MALFORMED_FLOW
      else
        let f := { f with decl := some p.total, count := f.count + 1, viol := f.viol || p.viol, progress := c.now }
        ((c.setFlow f).emit (.deliver c.u p)).tryComplete p.src p.flow
    | none =>
      if p.total ≤ p.seq then c.count .AFLOWS_MALFORMED_FLOW
      else if c.flowFull then c.count .AFLOWS_FLOW_FULL
      else
        let f : Flow := { src := p.src, flow := p.flow, decl := some p.total, count := 1, viol := p.viol, progress := c.now }
        ((c.mod fun a => { a with flows := a.flows ++ [f] }).emit (.deliver c.u p)).tryComplete p.src p.flow

/-- A copy that may leave by its named output alone: multicast keeps to link `k` (R66, R67, R74). -/
def fixedOutput (c : AC) (p : Packet) (q : Nat) (inPort : Option Nat) : AC :=
  c.toOutput p (if c.up q then some q else none) q inPort

/-- One leaf copy of a multicast packet to an endpoint port: withheld from the sender, and for SCHED and LOOSE from a fenced or
lifted member (R66, R84). -/
def leafCopy (c : AC) (p : Packet) (inPort e : Nat) : AC :=
  let fid := c.preg .APORT_PARTNER_FID e
  if fid = p.src then c
  else if p.cls ≠ clsMgmt ∧ (c.isFenced fid ∨ c.isStale fid p.fenceEpoch) then c.count .AFENCE_MCAST_FENCED_DROPS
  else c.fixedOutput p e (some inPort)

/-- A multicast packet at a switch (R66, R67). `line` gives the circuit port of a direction on the packet's line. Copies to leaves carry
both counts zero and an onward copy zero for the other direction (log 19). -/
def multicast (c : AC) (p : Packet) (inPort : Nat) (line : Bool → Option Nat) : AC :=
  let h := p.src + nullFid
  let s := h % 16
  let k := h / 16 % 2
  let entry := c.bankWord c.bank (0x100000 + 4 * p.group) 4
  match c.u with
  | .leaf _ _ =>
    if inPort < 32 then c.fixedOutput p (32 + 2 * s + k) (some inPort)
    else (setBitsOf 32 entry).foldl (fun c e => c.leafCopy p inPort e) c
  | _ =>
    let c := (setBitsOf 16 entry).foldl
      (fun c l => c.fixedOutput { p with remPos := 0, remNeg := 0 } (2 * l + k) (some inPort)) c
    let onward := fun (c : AC) (pos : Bool) (p : Packet) =>
      match line pos with
      | some q => c.fixedOutput p q (some inPort)
      | none => c.count .ACONTROL_NO_EXIT
    let c := if 0 < p.remPos then onward c true { p with remPos := p.remPos - 1, remNeg := 0 } else c
    if 0 < p.remNeg then onward c false { p with remNeg := p.remNeg - 1, remPos := 0 } else c

/-- The ordered checks of R76 from check 2 on. -/
def receivePacket (c : AC) (p : Packet) (inPort : Nat) (line : Bool → Option Nat) : AC :=
  if p.cls = 3 ∨ 12288 < p.len then c.count .ACONTROL_MALFORMED_PKT
  else if badAddr p then c.count .ACONTROL_BAD_ADDR
  else
    match c.u.profile with
    | .switch =>
      if p.hops = c.reg .ACONTROL_HOP_LIMIT then c.count .ACONTROL_HOP_LIMIT_DROPS
      else if p.mcast then c.multicast { p with hops := p.hops + 1 } inPort line
      else if p.cls ≠ clsMgmt ∧ c.isFenced p.dst then c.count .AFENCE_FENCED_DROPS
      else if p.cls = clsMgmt ∧ p.dst = c.reg .AIDENT_FID then c
      else
        let ent := c.lookup p.dst
        let endpointPort : Bool := match c.u, ent with | .leaf _ _, some e => e < 32 | _, _ => false
        if p.cls ≠ clsMgmt ∧ endpointPort ∧ c.isStale p.dst p.fenceEpoch then c.count .AFENCE_STALE_DROPS
        else
          match ent with
          | none => c.count .ACONTROL_NO_ROUTE
          | some e =>
            let o := c.outputOf e p.src p.dst
            c.toOutput { p with hops := p.hops + 1 } o.1 o.2 (some inPort)
    | _ =>
      if !p.mcast ∧ p.dst ≠ c.reg .AIDENT_FID then c.count .ACONTROL_NO_ROUTE
      else if p.cls = clsMgmt then c
      else if c.u.profile = .endpoint then c.takeChunk p
      else c

/-- A port takes packets: not while PORT_STATE has disabled it, and not a circuit port, which carries no framing (R68, R102). -/
def takesFrames (c : AC) (port : Nat) : Bool :=
  !(c.port port).disabled && !(c.u.profile = .circuit && port ≠ 0)

/-- A link frame at an agent's port: the checks of R325 with the counters of the PORT page, then the packet. -/
def frame (c : AC) (port : Nat) (f : Frame) (line : Bool → Option Nat) : AC :=
  if !c.takesFrames port then c else
  let c := c.pcountN .APORT_FEC_CORRECTED port f.corrected
  match linkCheck (c.port port).link c.now false f with
  | .fec => c.pcount .APORT_DISCARD_FEC port
  | .revoked => c
  | .mismatch | .replay | .auth => c.pcount .APORT_DISCARD_AUTH port
  | .ok l =>
    let c := c.modPort port fun s => { s with link := l }
    let c := (c.pcount .APORT_RX_PACKETS port).pcountN .APORT_RX_BYTES port (64 + f.pkt.len)
    c.receivePacket f.pkt port line

/-! Sending -/

/-- The index a packet travels under: 1 + CTX for a context-bearing message next to a partition, else 0 (R326). -/
def txIndex (l : LinkEnd) (p : Packet) : Nat := if l.partner = 3 && contextBearing p then 1 + p.ctx else 0

/-- A packet of the agent's own that no switch has forwarded yet (R48, R57). -/
def fresh (c : AC) (p : Packet) : Bool := p.hops = 0 && p.src = c.reg .AIDENT_FID

/-- T1 of TIME_REQ and T3 of TIME_RESP are the time at which the message is sent (R91). -/
def stampMsg (now : Nat) (m : Msg) : Msg :=
  match m.type with
  | 0x60 => { m with body := [now] }
  | 0x61 => { m with body := m.body.take 2 ++ [now] }
  | _ => m

/-- SEND_TIME and the times of an exchange, as the source begins to send (R48, R91). -/
def stamp (c : AC) (p : Packet) : Packet :=
  if c.fresh p then { p with sendTime := c.now, msg := p.msg.map (stampMsg c.now) } else p

/-- The open exchange takes T1 from its request as it leaves (R91). -/
def noteSent (c : AC) (p : Packet) : AC :=
  match p.msg with
  | some m =>
    if m.type = 0x60 && c.fresh p then
      c.mod fun a => { a with timeReq := a.timeReq.map fun (r : TimeReq) =>
        if r.tag = m.tag then { r with t1 := c.now, at_ := c.now } else r }
    else c
  | none => c

/-- Sends one packet on a port in the current slot, under the next COUNTER of its index (R48, R325). Where none is left the packet is not sent and
the port goes down, to train again (R327). -/
def transmit (c : AC) (port : Nat) (p : Packet) : AC :=
  let i := txIndex (c.port port).link p
  if (c.port port).link.spent i then
    (c.modPort port fun s => { s with link := { s.link with keyed := false } }).setUp port false
  else
    let p := c.stamp p
    let c := c.noteSent p
    let c := c.modPort port fun s =>
      { s with link := { s.link with tx := SMap.insert s.link.tx i (SMap.get 0 s.link.tx i + 1) } }
    let c := (c.pcount .APORT_TX_PACKETS port).pcountN .APORT_TX_BYTES port (64 + p.len)
    c.emit (.packet c.u port c.slot p)

/-- A message to the link partner on a port, which a full queue deflects as any other (R53, R55). -/
def sendOnPort (c : AC) (p : Nat) (m : Msg) : AC :=
  let pkt : Packet := { dst := c.preg .APORT_PARTNER_FID p, src := c.reg .AIDENT_FID, cls := clsMgmt, len := 16 + bodyLen m,
                        sendTime := c.now, msg := some m }
  if c.u.profile = .switch then c.toOutput pkt (if c.up p then some p else none) p none else c.enqueue p pkt

/-- TIME_REQ to the parent on PARENT_PORT (R91). -/
def askTime (c : AC) (retry : Bool) : AC :=
  let c := c.sendOnPort (c.reg .ATIME_PARENT_PORT) { type := 0x60, tag := c.a.nextTag, body := [c.now] }
  c.mod fun a => { a with timeReq := some { t1 := c.now, tag := a.nextTag, at_ := c.now, retry := retry },
                          timeRetry := false, nextTag := (a.nextTag + 1) % 2 ^ 32 }

/-- The one retry of a failed exchange, in the next management slot (R91). -/
def retryExchange (c : AC) : AC := if c.a.timeRetry then c.askTime true else c

/-- As many packets from the front of a queue as fit one management slot (R50, R54): those that fit, and the rest. -/
def fitting (room : Nat) : List Packet → List Packet × List Packet
  | [] => ([], [])
  | p :: r =>
    if 64 + p.len ≤ room then
      let x := fitting (room - (64 + p.len)) r
      (p :: x.1, x.2)
    else ([], p :: r)

/-- The class is held by a drain: its bit is in DRAIN_CLASSES from DRAIN until injection resumes (R78, R81). -/
def drained (c : AC) (cls : Nat) : Bool :=
  let st := c.reg .ABANKS_STATE
  (st == 3 || st == 4 || st == 5) && bit (c.reg .ABANKS_DRAIN_CLASSES) cls

/-- SCHED traffic goes as LOOSE: in HOLDOVER and in static fallback (R92, R94). -/
def allLoose (c : AC) : Bool := bit (c.reg .ATIME_STATE) 1 || c.reg .ACONTROL_MODE == 2

/-- The line of a group as its source sends along it: AXIS, REM_POS and REM_NEG (R66, R67). -/
structure LineOut where
  axis : Nat := 0
  remPos : Nat := 0
  remNeg : Nat := 0
  deriving DecidableEq, Repr

/-- The packet that injects a chunk. -/
def chunkPacket (c : AC) (k : Chunk) (l : LineOut) (cls step : Nat) : Packet :=
  { dst := if k.mcast then nullFid else k.dst, src := c.reg .AIDENT_FID, cls := cls, last := k.seq + 1 = k.total,
    mcast := k.mcast, len := k.len, fenceEpoch := SMap.get 0 c.a.jobEpochs k.job, flow := k.flow, seq := k.seq,
    total := k.total, step := step, ctx := k.ctx, job := k.job, group := k.group, axis := if k.mcast then l.axis else 0,
    remPos := if k.mcast then l.remPos else 0, remNeg := if k.mcast then l.remNeg else 0, sendTime := c.now }

/-- Takes a chunk out of the runtime's queue. -/
def dropChunk (c : AC) (k : Chunk) : AC := c.mod fun a => { a with chunks := a.chunks.erase k }

/-- The entry that lists the current slot, and whether a dynamic list covers the window (R86, R88). -/
def listed (c : AC) : Option (SlotEntry × Option DynList) :=
  if !c.a.windowStarted then none
  else
    let f := (c.now / 131072 + 2 ^ 32 - c.reg .ASLOTS_WINDOW_FRAME) % 2 ^ 32
    let s := c.slot % 1024
    let hit := fun (e : SlotEntry) => e.frame = f && e.first ≤ s && s < e.first + e.run
    let st := if c.reg .ASLOTS_TEMPLATE_VALID = 1 then SMap.get [] c.a.templates (c.reg .ASLOTS_TEMPLATE_IN_USE) else []
    match c.a.cur with
    | some l => ((st ++ l.entries).find? hit).map fun e => (e, some l)
    | none => (st.find? hit).map fun e => (e, none)

/-- Tells the runtime that a chunk toward a fenced destination is refused (R85). -/
def refuseFenced (c : AC) (k : Chunk) : AC :=
  (c.dropChunk k).emit (.runtime c.u "chunk" [k.dst, k.flow, k.seq, 0x03])

/-- A listed slot: the next queued chunk of the entry as SCHED, or an idle slot (R81, R88, R91). -/
def listedSlot (c : AC) (line : Nat → LineOut) (e : SlotEntry) (l : Option DynList) : AC :=
  let fits := fun (k : Chunk) => k.sched && k.flow = e.flow && k.mcast = e.mcast
      && (if e.mcast then k.group = e.group else k.dst = e.dst) && (l.isSome || !k.dynamic)
  if c.drained 0 || c.a.schedHeld then c.count .ASLOTS_SLOTS_IDLE
  else
    match c.a.chunks.find? fits with
    | none => c.count .ASLOTS_SLOTS_IDLE
    | some k =>
      if !k.mcast && c.isFenced k.dst then (c.refuseFenced k).count .ASLOTS_SLOTS_IDLE
      else
        let step := match l with
          | some l => (l.step + ofBool e.nextStep) % 2 ^ 32
          | none => k.step
        ((c.dropChunk k).transmit 0 (c.chunkPacket k (line k.group) clsSched step)).count .ASLOTS_SLOTS_SENT

/-- The rate L in force, in Mb/s (R75). -/
def rate (c : AC) : Nat := if c.reg .ALOOSE_PIN = 1 then c.reg .ALOOSE_CEILING else c.reg .ALOOSE_RATE

/-- LOOSE injection at an endpoint, paced at L over header and payload (R65, R75). -/
def looseSlot (c : AC) (line : Nat → LineOut) : AC :=
  if c.drained 1 || c.now < c.a.loosePaceAt then c
  else
    match c.a.chunks.find? (fun k => !k.sched || c.allLoose) with
    | none => c
    | some k =>
      if !k.mcast && c.isFenced k.dst then c.refuseFenced k
      else
        let gap := ceilDiv ((64 + k.len) * 8 * 1000) c.rate
        let c := (c.dropChunk k).transmit 0 (c.chunkPacket k (line k.group) clsLoose k.step)
        c.mod fun a => { a with loosePaceAt := max a.loosePaceAt c.now + gap }

/-- The head of a queue leaves. -/
def sendHead (c : AC) (port : Nat) (mgmt : Bool) : AC :=
  let s := c.port port
  match if mgmt then s.mgmtQ else s.looseQ with
  | [] => c
  | p :: r =>
    (c.modPort port fun s => if mgmt then { s with mgmtQ := r } else { s with looseQ := r }).transmit port p

/-- The LOOSE depth figures of a slot start, and STALL_SLOTS where a packet is left waiting. -/
def slotFigures (c : AC) (port depth : Nat) : AC :=
  let c := (c.pcountN .APORT_QDEPTH_SUM port depth).pcount .APORT_QDEPTH_SLOTS port
  let c := c.modPort port fun s => { s with periodSum := s.periodSum + depth, periodSlots := s.periodSlots + 1 }
  let s := c.port port
  if s.mgmtQ.isEmpty && s.looseQ.isEmpty then c else c.pcount .APORT_STALL_SLOTS port

/-- A packet assigned to the slot that its output cannot send leaves by another, as from the output its route named (R55). -/
def turnAway (c : AC) (x : Assigned) : AC := c.deflect x.pkt x.named x.inPort

/-- What an output sends at a slot start (R54). In a management slot the packet due joins the MGMT packets where the bytes together fit
12,352, and LOOSE goes only where no MGMT packet went (log 19). -/
def serve (c : AC) (line : Nat → LineOut) (port : Nat) (due : Option Assigned) : AC :=
  let s := c.port port
  let rest := fun (c : AC) =>
    if c.u.profile = .endpoint && (c.port port).looseQ.isEmpty then c.looseSlot line else c.sendHead port false
  if !c.up port then (match due with | some x => c.turnAway x | none => c)
  else if c.slot % 64 = 63 then
    let m := fitting 12352 s.mgmtQ
    let used := (m.1.map fun p => 64 + p.len).sum
    let c := m.1.foldl (fun c p => c.transmit port p) (c.modPort port fun s => { s with mgmtQ := m.2 })
    match due with
    | some x => if used + 64 + x.pkt.len ≤ 12352 then c.transmit port x.pkt else c.turnAway x
    | none => if m.1.isEmpty then rest c else c
  else
    match due with
    | some x => c.transmit port x.pkt
    | none =>
      match (if c.u.profile = .endpoint ∧ !c.allLoose then c.listed else none) with
      | some (e, l) => c.listedSlot line e l
      | none => if s.mgmtQ.isEmpty then rest c else c.sendHead port true

/-- The start of a slot that an output has not served yet (R49). -/
def slotDue (c : AC) (port : Nat) : Bool := c.now % 128 = 0 && (c.port port).lastStart != some c.slot

/-- The start of a slot at an output (R49, R54): what was assigned to earlier slots is past, a retry of the time exchange goes in a
management slot (R91), and a drained packet that leaves begins the quiet slots anew (R78). -/
def slotStart (c : AC) (line : Nat → LineOut) (port : Nat) : AC :=
  if !c.slotDue port then c else
  let c := if c.slot % 64 = 63 ∧ port = c.reg .ATIME_PARENT_PORT then c.retryExchange else c
  let s := c.port port
  let depth := s.looseQ.length
  let due := match s.next with | some x => if x.slot = c.slot then some x else none | none => none
  let busy : Bool := c.inFlight port ≠ 0
  let c := c.modPort port fun s => { s with lastStart := some c.slot, next := match s.next with
    | some x => if x.slot ≤ c.slot then none else some x
    | none => none }
  let c := (c.serve line port due).slotFigures port depth
  if busy then c.mod fun a => { a with quietFrom := c.now } else c

/-! The runtime's operations (R90) -/

/-- A wait is posted on a flow: an entry, or CAPACITY where the table is full. A wait posted on a flow that ended TIMEOUT opens it again
(log 19). -/
def postWait (c : AC) (src flow : Nat) : AC :=
  match c.a.flows.find? (fun x => x.src = src && x.flow = flow) with
  | some f => c.setFlow { f with waited := true, progress := c.now }
  | none =>
    if c.flowFull then (c.count .AFLOWS_FLOW_FULL).emit (.runtime c.u "wait" [src, flow, 0x0B])
    else c.mod fun a => { a with flows := a.flows ++ [{ src := src, flow := flow, progress := c.now, waited := true }],
                                 ended := a.ended.filter (· ≠ (src, flow)) }

/-- A flow's expected total is lowered and completion re-evaluated at once. Where the flow has no entry and the table is full it is
refused as a wait is (log 19). -/
def lowerTotal (c : AC) (src flow total : Nat) : AC :=
  match c.a.flows.find? (fun x => x.src = src && x.flow = flow) with
  | some f => (c.setFlow { f with lowered := some total }).tryComplete src flow
  | none =>
    let f : Flow := { src := src, flow := flow, lowered := some total, progress := c.now, waited := true }
    if total = 0 then
      (c.emit (.flowDone c.u src flow 0 0x00)).count .AFLOWS_DONE_OK
    else if c.flowFull then (c.count .AFLOWS_FLOW_FULL).emit (.runtime c.u "wait" [src, flow, 0x0B])
    else c.mod fun a => { a with flows := a.flows ++ [f], ended := a.ended.filter (· ≠ (src, flow)) }

/-- A waited flow without progress for FLOW_TIMEOUT frames ends TIMEOUT (R61). -/
def flowTimeout (c : AC) (src flow : Nat) : AC :=
  match c.a.flows.find? (fun x => x.src = src && x.flow = flow) with
  | some f =>
    if f.waited ∧ f.progress + c.reg .ACONTROL_FLOW_TIMEOUT * 131072 ≤ c.now then c.endFlow f 0x01 else c
  | none => c

/-- The board window entry of a sub-window in a bank (R43). -/
def subWindow (c : AC) (b i : Nat) : Nat := c.bankWord b (0x104000 + 4 * i) 4 % 2 ^ 20

/-- The FID that a board-window address names, or the status of the refusal (R43): FENCED where a fence cleared the sub-window's
entry, and BAD_DEMAND for any other null entry or an address outside the window. -/
def resolve (c : AC) (a : Nat) : Nat ⊕ Nat :=
  let base := c.reg .AIDENT_BOARD_NO * 2 ^ 45
  if a < base ∨ base + 2 ^ 45 ≤ a then .inr 0x07
  else
    let i := (a - base) / 2 ^ 42
    let fid := c.subWindow c.bank i
    if fid ≠ nullFid then .inl fid else if i ∈ c.a.clearedSubs then .inr 0x03 else .inr 0x07

/-- The runtime queues a chunk; a fenced destination or a refused address is answered at once (R43, R85). -/
def queueChunk (c : AC) (k : Chunk) : AC :=
  let put := fun (c : AC) (k : Chunk) =>
    if !k.mcast && c.isFenced k.dst then c.emit (.runtime c.u "chunk" [k.dst, k.flow, k.seq, 0x03])
    else c.mod fun a => { a with chunks := a.chunks ++ [k] }
  match k.addr with
  | none => put c k
  | some addr =>
    match c.resolve addr with
    | .inl fid => put c { k with dst := fid, addr := none }
    | .inr st => (c.count .AFENCE_ADDR_REFUSED).emit (.runtime c.u "chunk" [k.dst, k.flow, k.seq, st])

/-- The runtime reads the oldest notice. -/
def readNotice (c : AC) : AC :=
  match c.a.notices with
  | [] => c
  | m :: r => (c.mod fun a => { a with notices := r }).emit (.notice c.u m)

/-- An echo halves L at most once each 8,192 ticks, never below FLOOR; under PIN it is only counted (R65, R75). -/
def gotEcho (c : AC) : AC :=
  let c := c.count .ALOOSE_ECHOES_RX
  let due : Bool := match c.a.lastHalving with | some t => t + 8192 ≤ c.now | none => true
  if c.reg .ALOOSE_PIN = 0 ∧ due then
    let l := max (c.reg .ALOOSE_FLOOR) (c.reg .ALOOSE_RATE / 2)
    ((c.setReg .ALOOSE_RATE l).count .ALOOSE_HALVINGS).mod fun a =>
      { a with lastHalving := some c.now, lastRise := c.now }
  else c

/-- L rises by STEP after 16,384 ticks without a halving, up to CEILING (R65, R75). -/
def looseRise (c : AC) : AC :=
  if c.a.lastRise + 16384 ≤ c.now then
    (c.setReg .ALOOSE_RATE (min (c.reg .ALOOSE_CEILING) (c.reg .ALOOSE_RATE + c.reg .ALOOSE_STEP))).mod fun a =>
      { a with lastRise := c.now }
  else c

end AC

end Sys2Proof.Machine
end

