-- ==== Sys2Proof/Machine/AgentReg.lean ====
section
/-! DEFINITION. An agent's register space: the pages a profile has (R68, R69), reads, writes, pairs, boundaries and snapshots
(R70 to R72), and the bank windows. -/

namespace Sys2Proof.Machine

open Sys2Proof

/-- The field elements of a page: its own fields, and the common ones under the page's own number. -/
def pageElems (common : Page) (p : Page) : List (Reg × Nat) :=
  common.regs.map (fun r => (r, p.ctorIdx)) ++ RegFile.elems p.regs

namespace AC

/-- The page and instance that an agent page number names at this agent; none where it is absent or reserved (R68, R69). -/
def pageAt (c : AC) (n : Nat) : Option (Page × Nat) :=
  let ep := c.u.profile = .endpoint
  match n with
  | 0 => some (.AIDENT, 0)
  | 1 => some (.ACONTROL, 0)
  | 2 => some (.ABANKS, 0)
  | 3 => if c.u.profile = .circuit then none else some (.AFENCE, 0)
  | 4 => if ep then some (.ASLOTS, 0) else none
  | 5 => if ep then some (.AFLOWS, 0) else none
  | 6 => some (.ATIME, 0)
  | 7 => if ep then some (.ALOOSE, 0) else none
  | 8 => some (.ALOG, 0)
  | n => if 0x100 ≤ n ∧ n < 0x100 + min 513 c.ports then some (.APORT, n - 0x100) else none

/-- Every page of this agent with its instance. -/
def allPages (c : AC) : List (Page × Nat) :=
  (List.range 9).filterMap c.pageAt ++ (List.range (min 513 c.ports)).map fun n => (.APORT, n)

/-- The field elements of an agent page; INT_STATUS, INT_ENABLE and SNAPSHOT_ALL stand on the IDENT page only (R70), under
number 0. -/
def elemsOf (p : Page) : List (Reg × Nat) :=
  (pageElems .ACOMMON p).filterMap fun e =>
    match e.1 with
    | .ACOMMON_INT_STATUS | .ACOMMON_INT_ENABLE | .ACOMMON_SNAPSHOT_ALL => if p = .AIDENT then some (e.1, 0) else none
    | _ => some e

/-- Block type of a page (R69). -/
def blockType (p : Page) : Nat :=
  match p with
  | .AIDENT => 0x0A00 | .ACONTROL => 0x0A01 | .ABANKS => 0x0A02 | .AFENCE => 0x0A03 | .ASLOTS => 0x0A04
  | .AFLOWS => 0x0A05 | .ATIME => 0x0A06 | .ALOOSE => 0x0A07 | .ALOG => 0x0A08 | _ => 0x0A10

/-- The fence entry that VIEW_INDEX selects. -/
def viewFence (c : AC) : Option FenceEntry := c.a.fences[c.reg .AFENCE_VIEW_INDEX]?

/-- The value that a read of a field returns: live values are computed, the rest are held. -/
def value (c : AC) (page : Page) (inst : Nat) (r : Reg) (idx : Nat) : Nat :=
  match r with
  | .ACOMMON_BLOCK => blockType page
  | .ACOMMON_INSTANCE => inst
  | .ACOMMON_PROFILE => c.u.profile.code
  | .ACOMMON_PORTS => c.ports
  | .ACOMMON_FLOW_LOG2 => if c.u.profile = .endpoint then c.flowLog2 else 0
  | .AIDENT_MAKER => trunc 16 (Config.makerOf c.u.code)
  | .AIDENT_PART_NO => trunc 32 (Config.partNoOf c.u.code)
  | .AIDENT_SERIAL => trunc 64 (Config.serialOf c.u.code)
  | .ABANKS_INFLIGHT => trunc 32 c.inFlightAll
  | .APORT_IN_FLIGHT => trunc 16 (c.inFlight inst)
  | .AFENCE_FENCE_USED => c.a.fences.length
  | .AFENCE_VIEW_FID => match c.viewFence with | some e => e.fid | none => nullFid
  | .AFENCE_VIEW_STATE => match c.viewFence with | some e => if e.lifted then 2 else 1 | none => 0
  | .AFENCE_VIEW_F => match c.viewFence with | some e => e.f | none => 0
  | .AFENCE_VIEW_JOB => match c.viewFence with | some e => e.job | none => 0
  | .AFLOWS_FLOW_USED => c.a.flows.length
  | .ATIME_NOW => trunc 64 c.now
  | .ALOOSE_RATE => c.rate
  | r => c.a.regs.get r inst idx

/-- The boundary held on a page. -/
def boundary (c : AC) (p : Page) (inst : Nat) : Bnd := RegFile.bndOf (c.a.regs.get .ACOMMON_BOUNDARY inst p.ctorIdx)

/-- One 32-bit word of a register page. Bits [63:32] of NOW come from the latch that a read of [31:0] set. -/
def readWord (c : AC) (page : Page) (inst off : Nat) : Nat :=
  let es := elemsOf page
  if 0xF00 ≤ off then
    RegFile.readSpan es (off - 0xD00) 32 fun r i =>
      if r.desc.counter then SMap.get 0 c.a.regs.hold (r.key inst i) else 0
  else if 0x800 ≤ off then
    if RegFile.touchesPair es (off - 0x800) 32 then compl 32 (RegFile.readSpan es (off - 0x800) 32 (c.value page inst))
    else 0
  else if page = .ATIME ∧ off = 0x104 then SMap.get (c.now >>> 32 % 2 ^ 32) c.a.viewHigh 0
  else RegFile.readSpan es off 32 fun r i => if r.desc.acc = .wo then 0 else c.value page inst r i

/-- A receive-log entry's bytes as a number (LOG_RING). -/
def logBytes (e : LogEntry) : Nat :=
  e.src + e.type <<< 32 + e.tag <<< 64 + e.sendTime <<< 96 + e.recvTime <<< 160

/-- The 32-bit word at an agent address (R69 and the bank windows). -/
def readAddr (c : AC) (addr : Nat) : Nat :=
  if 0x800000 ≤ addr then
    if addr < 0xE00000 then c.bankWord ((addr - 0x800000) / 0x200000) ((addr - 0x800000) % 0x200000) 4 else 0
  else
    let n := addr / 0x1000
    if 0x10 ≤ n ∧ n < 0x30 then
      match SMap.find? c.a.log ((addr - 0x10000) / 32) with
      | some e => (logBytes e >>> (8 * (addr % 32))) % 2 ^ 32
      | none => 0
    else
      match c.pageAt n with
      | some (p, i) => c.readWord p i (addr % 0x1000)
      | none => 0

/-- READ: the words, and the latch of NOW where its low half is read (R95, TIME page). -/
def doRead (c : AC) (e : Env) (addr n : Nat) : AC :=
  let lo := (List.range n).any fun i => addr + 4 * i = 0x6100
  let c := if lo then c.mod fun a => { a with viewHigh := [(0, trunc 32 (c.now >>> 32))] } else c
  c.answer e 0x02 0x00 ((List.range n).map fun i => c.readAddr (addr + 4 * i))

/-- A pending value of a field was cut to the field's own limits when it was written, and passes `ok`: its clamp is counted. -/
def cutBefore (c : AC) (r : Reg) (ok : Pend → Bool) : Bool :=
  match SMap.find? c.a.regs.pend (r.key 0 0) with
  | some p => p.cut && ok p
  | none => false

/-- After fields were applied: the dependent ranges of R71, bounding fields first, and L within FLOOR and CEILING (R75). `m` and `f`
say that the write of MARK_THRESH or FLOOR has been counted as a clamp already. -/
def settle (c : AC) (m f : Bool) : AC :=
  let x := c.a.regs.clampBelow .ACONTROL_MARK_THRESH .ACONTROL_LOOSE_DEPTH 0
  let y := x.1.clampBelow .ALOOSE_FLOOR .ALOOSE_CEILING 0
  let c := (c.mod fun a => { a with regs := y.1 }).countN .ACONTROL_CLAMPS ((x.2 - ofBool m) + (y.2 - ofBool f))
  let l := if c.reg .ALOOSE_PIN = 1 then c.reg .ALOOSE_CEILING
           else clampTo (c.reg .ALOOSE_FLOOR) (c.reg .ALOOSE_CEILING) (c.reg .ALOOSE_RATE)
  c.setReg .ALOOSE_RATE l

/-- Applies the pending values of a page that pass `ok`. -/
def applyPage (c : AC) (ok : Pend → Bool) (pi : Page × Nat) : AC :=
  let m := pi.1 = .ACONTROL && c.cutBefore .ACONTROL_MARK_THRESH ok
  let f := pi.1 = .ALOOSE && c.cutBefore .ALOOSE_FLOOR ok
  (c.mod fun a => { a with regs := a.regs.applyAll (elemsOf pi.1) pi.2 ok }).settle m f

/-- Applies the pending values of every page that pass `ok`. -/
def applyEvery (c : AC) (ok : Pend → Bool) : AC := c.allPages.foldl (fun c p => c.applyPage ok p) c

/-- Copies a page's counters into its holding registers (R70). -/
def snapshotPage (c : AC) (pi : Page × Nat) : AC :=
  c.mod fun a => { a with regs := a.regs.snapshot (elemsOf pi.1) pi.2 }

/-- FALLBACK_CLEAR: out of outage and static fallback, the bank and the lists from the next slot (R94); the next list counts as a new
step (R70). -/
def fallbackClear (c : AC) : AC :=
  let wasStatic : Bool := c.reg .ABANKS_STATIC_IN_USE = 1
  let wasFallback : Bool := c.reg .ACONTROL_MODE = 2
  let c := (c.setReg .ACONTROL_MODE 0).setReg .ABANKS_STATIC_IN_USE 0
  let next := (c.slot + 1) * 128
  c.mod fun a => { a with staticUntil := if wasStatic then next else a.staticUntil, lastStep := none,
                          listsFrom := if wasFallback then next else a.listsFrom }

/-- One word written to a page: fields first, then the actions of COMMIT, SNAPSHOT, SNAPSHOT_ALL and FALLBACK_CLEAR. A BOUNDARY
of 0b11 is taken as 0b10 and counted (R70, R71). -/
def writeWord (c : AC) (page : Page) (inst off w : Nat) : AC :=
  let bad := off = 0x20 ∧ w % 4 = 3
  let w := if bad then w - 1 else w
  let due := (c.now / 131072 + 1) * 131072
  let r := c.a.regs.writeSpan (elemsOf page) inst off 32 w (c.boundary page inst) due
  let c := (c.mod fun a => { a with regs := r.1 }).countN .ACONTROL_CLAMPS (r.2 + (if bad then 1 else 0))
  let c := if off = 0x20 ∧ bit w 31 then c.applyPage (fun _ => true) (page, inst) else c
  let c := if off = 0x24 ∧ bit w 0 then c.snapshotPage (page, inst) else c
  let c := if page = .AIDENT ∧ off = 0x24 ∧ bit w 1 then c.allPages.foldl snapshotPage c else c
  if page = .ACONTROL ∧ off = 0x128 ∧ bit w 0 then c.fallbackClear else c

/-- The words of a WRITE at rising addresses, across pages; an absent page ignores its words (R68, R95). -/
def writeWords (c : AC) : Nat → List Nat → AC
  | _, [] => c
  | addr, w :: r =>
    let c := match (if addr < 0x800000 then c.pageAt (addr / 0x1000) else none) with
      | some (page, inst) => if addr % 0x1000 < 0x800 then c.writeWord page inst (addr % 0x1000) w else c
      | none => c
    writeWords c (addr + 4) r

/-- A completed pair: its RWP fields are pending for their boundary, its other fields take the write (R12, R72). -/
def pairWords (c : AC) (page : Page) (inst : Nat) : Nat → List Nat → AC
  | _, [] => c
  | off, w :: r =>
    let x := c.a.regs.pairSpan (elemsOf page) inst off 32 w 0
    let c := (c.mod fun a => { a with regs := x.1 }).countN .ACONTROL_CLAMPS x.2
    pairWords (c.writeWord page inst off w) page inst (off + 4) r

/-- The open pair of a source on a page. -/
def openPair (c : AC) (src n : Nat) : Option AgentPair := c.a.pairs.find? fun x => x.src = src && x.page = n

/-- Discards the open pair of a source on a page. -/
def dropPair (c : AC) (src n : Nat) : AC :=
  c.mod fun a => { a with pairs := a.pairs.filter fun x => !(x.src = src && x.page = n) }

/-- Some word of the span names an RWP field. -/
def pairTouched (page : Page) (off n : Nat) : Bool :=
  (List.range n).any fun i => RegFile.touchesPair (elemsOf page) (off + 4 * i) 32

/-- A WRITE message (R71, R72). One that names no RWP field and no complement of one writes its words; what has no field there ignores
them (R6). -/
def doWrite (c : AC) (e : Env) (addr : Nat) (ws : List Nat) : AC :=
  let n := addr / 0x1000
  let off := addr % 0x1000
  match (if addr < 0x800000 then c.pageAt n else none) with
  | none => c.answer e 0x04 0x00
  | some (page, inst) =>
    let op := c.openPair e.src n
    let c := c.dropPair e.src n
    if 0x800 ≤ off ∧ off < 0xF00 ∧ pairTouched page (off - 0x800) ws.length then
      match op with
      | some x =>
        if x.off + 0x800 = off ∧ ws = x.words.map (compl 32) ∧ c.now ≤ x.at_ + 100000 then
          (c.pairWords page inst x.off x.words).answer e 0x04 0x00
        else
          let fails := if x.off + 0x800 = off then 1 else 2
          (c.countN .ACONTROL_PAIR_FAILS fails).answer e 0x04 0x08
      | none => (c.count .ACONTROL_PAIR_FAILS).answer e 0x04 0x08
    else
      let c := if op.isSome then c.count .ACONTROL_PAIR_FAILS else c
      if pairTouched page off ws.length then
        (c.mod fun a => { a with pairs := a.pairs ++ [⟨e.src, n, off, ws, c.now⟩] }).answer e 0x04 0x00
      else (c.writeWords addr ws).answer e 0x04 0x00

/-- A first write whose complement has not come within 100 µs is discarded and counted (R72). -/
def pairExpiry (c : AC) (src n : Nat) : AC :=
  match c.openPair src n with
  | some x => if x.at_ + 100000 < c.now then (c.dropPair src n).count .ACONTROL_PAIR_FAILS else c
  | none => c

/-- A frame boundary: values pending for "frame" are applied (R11). -/
def frameBoundary (c : AC) : AC := c.applyEvery fun p => p.bnd = .frame && p.due ≤ c.now

end AC

end Sys2Proof.Machine
end

