-- ==== Sys2Proof/Machine/AgentBank.lean ====
section
/-! DEFINITION. Table banks and epochs of an agent (R77 to R82, R125, R126) and its fence table (R83, R85). -/

namespace Sys2Proof.Machine

open Sys2Proof

namespace AC

/-- Bank bytes that an agent holds: regions 0 and 1 at a switch, 2 at an endpoint, and at a circuit agent the entries of region 3
that a circuit port uses (R68, R125). -/
def holdsByte (c : AC) (off : Nat) : Bool :=
  match c.u.profile with
  | .switch => off < 0x104000
  | .endpoint => 0x104000 ≤ off && off < 0x104020
  | .circuit => 0x104020 ≤ off && off < 0x104020 + 2 * (c.ports - 1)
  | .partition => false

/-- CRC-32C over `n` bytes from place `i` of a sorted sparse byte list whose other bytes are zero. -/
def crcSparse : Nat → Nat → SMap Nat → Nat → Nat
  | 0, _, _, c => c ^^^ 0xFFFFFFFF
  | n + 1, i, [], c => forced (crcByte c 0) fun x => crcSparse n (i + 1) [] x
  | n + 1, i, (k, v) :: r, c =>
    if k = i then forced (crcByte c v) fun x => crcSparse n (i + 1) r x
    else forced (crcByte c 0) fun x => crcSparse n (i + 1) ((k, v) :: r) x

/-- BANK_CRC over bytes 0 to 0x10_441F of a bank (R125). -/
def bankCrc (c : AC) (b : Nat) : Nat :=
  let base := b * 0x200000
  let held := (SMap.range c.a.banks base (base + 0x104420)).filterMap fun e =>
    if c.holdsByte (e.1 - base) then some (e.1 - base, e.2) else none
  crcSparse 0x104420 0 held 0xFFFFFFFF

/-- Empties a bank. -/
def emptyBank (c : AC) (b : Nat) : AC :=
  c.mod fun a => { a with banks := SMap.eraseRange a.banks (b * 0x200000) ((b + 1) * 0x200000) }

/-- Copies one bank over another. -/
def copyBank (c : AC) (src dst : Nat) : AC :=
  let es := SMap.range c.a.banks (src * 0x200000) ((src + 1) * 0x200000)
  es.foldl (fun c e => c.mod fun a =>
    { a with banks := SMap.set 0 a.banks (e.1 - src * 0x200000 + dst * 0x200000) e.2 }) (c.emptyBank dst)

/-- Where a region begins in a bank. -/
def regionBase (r : Nat) : Nat :=
  match r with | 0 => 0 | 1 => 0x100000 | 2 => 0x104000 | _ => 0x104020

/-- Writes bytes into a bank from an offset on; what the agent does not hold ignores writes and reads as zero (R68). -/
def writeBank (c : AC) (b : Nat) : Nat → List Nat → AC
  | _, [] => c
  | off, v :: r =>
    let c := if c.holdsByte off then
        c.mod fun a => { a with banks := SMap.set 0 a.banks (b * 0x200000 + off) (v % 256) }
      else c
    writeBank c b (off + 1) r

/-- A bank request refused with a status (R78). -/
def refuse (c : AC) (e : Env) (type status : Nat) : AC := (c.count .ABANKS_REFUSALS).answer e type status

/-- STATE of the bank state machine: 0 STEADY, 1 LOADING, 2 PREPARED, 3 DRAINING, 4 DRAINED, 5 COMMITTED, 6 ROLLED_BACK. -/
def state (c : AC) : Nat := c.reg .ABANKS_STATE

/-- STATIC_IN_USE follows MODE 2 and STATIC_VALID at a switch or circuit agent (R79, R94). -/
def syncStatic (c : AC) : AC :=
  if c.u.profile = .endpoint then c
  else c.setReg .ABANKS_STATIC_IN_USE (ofBool (c.reg .ACONTROL_MODE == 2 && c.reg .ABANKS_STATIC_VALID == 1))

/-- The last chunk has arrived: the shadow is judged by its CRC (R78). -/
def judgeShadow (c : AC) (l : Load) : AC :=
  let c := c.mod fun a => { a with shadowLoad := none }
  if c.bankCrc (1 - c.reg .ABANKS_ACTIVE_BANK) = l.crc then
    (((c.setReg .ABANKS_SHADOW_COMPLETE 1).setReg .ABANKS_STATE 2)).reply l.src l.tag 0x20 0x00 []
  else
    ((c.setReg .ABANKS_SHADOW_VALID 0).setReg .ABANKS_STATE 0).reply l.src l.tag 0x20 0x02 []

/-- The last chunk of a static load has arrived (R79). -/
def judgeStatic (c : AC) (l : Load) : AC :=
  let c := (c.mod fun a => { a with staticLoad := none }).setReg .ABANKS_STATIC_LOADING 0
  if c.bankCrc 2 = l.crc then
    ((c.setReg .ABANKS_STATIC_VALID 1).syncStatic).reply l.src l.tag 0x20 0x00 []
  else c.reply l.src l.tag 0x20 0x02 []

/-- PREPARE without STATIC (R78). A retransmission of the open one leaves it untouched. -/
def doPrepare (c : AC) (e : Env) (ep : Nat) (copy : Bool) (chunks crc : Nat) : AC :=
  let again : Bool := match c.a.shadowLoad with | some l => l.src = e.src && l.tag = e.tag | none => false
  if again then c
  else if !epochNewer ep (c.reg .ABANKS_ACTIVE_EPOCH) then c.refuse e 0x20 0x0C
  else if 3 ≤ c.state ∧ c.state ≤ 5 then c.refuse e 0x20 0x0B
  else if (c.state = 1 ∨ c.state = 2) ∧ !epochNewer ep (c.reg .ABANKS_SHADOW_EPOCH) then c.refuse e 0x20 0x0B
  else
    let act := c.reg .ABANKS_ACTIVE_BANK
    let c := if copy then c.copyBank act (1 - act) else c.emptyBank (1 - act)
    let c := (((c.setReg .ABANKS_SHADOW_EPOCH ep).setReg .ABANKS_SHADOW_VALID 1).setReg
      .ABANKS_SHADOW_COMPLETE 0).setReg .ABANKS_STATE 1
    let l : Load := { src := e.src, tag := e.tag, epoch := ep, chunks := chunks, crc := crc, lastWrite := c.now }
    let c := c.mod fun a => { a with shadowLoad := some l, resumed := none }
    if chunks = 0 then c.judgeShadow l else c

/-- PREPARE with STATIC (R79). -/
def doPrepareStatic (c : AC) (e : Env) (ep chunks crc : Nat) : AC :=
  let again : Bool := match c.a.staticLoad with | some l => l.src = e.src && l.tag = e.tag | none => false
  if again then c
  else if ep ≠ c.reg .ABANKS_ACTIVE_EPOCH then c.refuse e 0x20 0x0C
  else
    let c := ((c.setReg .ABANKS_STATIC_EPOCH ep).setReg .ABANKS_STATIC_LOADING 1).setReg .ABANKS_STATIC_VALID 0
    let c := (c.emptyBank 2).syncStatic
    let l : Load := { src := e.src, tag := e.tag, epoch := ep, chunks := chunks, crc := crc, lastWrite := c.now }
    let c := c.mod fun a => { a with staticLoad := some l }
    if chunks = 0 then c.judgeStatic l else c

/-- TABLE_WRITE (R79, R126). -/
def doTableWrite (c : AC) (e : Env) (ep region off : Nat) (data : List Nat) : AC :=
  let hitStatic : Bool := match c.a.staticLoad with | some l => l.epoch = ep | none => false
  let hitShadow : Bool := match c.a.shadowLoad with | some l => l.epoch = ep | none => false
  match (if hitStatic then c.a.staticLoad else none), (if hitShadow then c.a.shadowLoad else none) with
  | some l, _ =>
    let l := { l with seen := addOnce l.seen (region, off), lastWrite := c.now }
    let c := (c.writeBank 2 (regionBase region + off) data).mod fun a => { a with staticLoad := some l }
    let c := c.answer e 0x22 0x00
    if l.chunks ≤ l.seen.length then c.judgeStatic l else c
  | none, some l =>
    let l := { l with seen := addOnce l.seen (region, off), lastWrite := c.now }
    let c := (c.writeBank (1 - c.reg .ABANKS_ACTIVE_BANK) (regionBase region + off) data).mod fun a =>
      { a with shadowLoad := some l }
    let c := c.answer e 0x22 0x00
    if l.chunks ≤ l.seen.length then c.judgeShadow l else c
  | none, none =>
    if ep ≠ c.reg .ABANKS_SHADOW_EPOCH ∨ !epochNewer ep (c.reg .ABANKS_ACTIVE_EPOCH) then c.refuse e 0x22 0x0C
    else c.refuse e 0x22 0x0B

/-- A static load without TABLE_WRITE for CONTROL_TIMEOUT ends with STATIC_VALID clear and no answer (R79). -/
def staticTimeout (c : AC) : AC :=
  match c.a.staticLoad with
  | some l =>
    if l.lastWrite + c.reg .ACONTROL_CONTROL_TIMEOUT * 1000 ≤ c.now then
      ((c.mod fun a => { a with staticLoad := none }).setReg .ABANKS_STATIC_LOADING 0).setReg .ABANKS_STATIC_VALID 0
    else c
  | none => c

/-- DRAIN (R78, R81): only SCHED[0] and LOOSE[1] of the mask count. -/
def doDrain (c : AC) (e : Env) (ep classes : Nat) : AC :=
  if c.a.drainReq = some (e.src, e.tag) then c
  else if !epochNewer ep (c.reg .ABANKS_ACTIVE_EPOCH) ∨ ep ≠ c.reg .ABANKS_SHADOW_EPOCH then c.refuse e 0x24 0x0C
  else if c.state ≠ 2 ∧ c.state ≠ 6 then c.refuse e 0x24 0x0B
  else
    let c := (c.setReg .ABANKS_STATE 3).setReg .ABANKS_DRAIN_CLASSES (classes % 4)
    c.mod fun a => { a with drainReq := some (e.src, e.tag), drainAt := c.now }

/-- MAX_D: the greatest DELAY_SLOTS over the ports that are up (R78). -/
def maxD (c : AC) : Nat :=
  ((List.range c.ports).filter c.up).foldl (fun m p => max m (c.preg .APORT_DELAY_SLOTS p)) 0

/-- DRAINED, with DRAIN_ACK carrying INFLIGHT and LAST_DRAIN (R78). -/
def endDrain (c : AC) (status : Nat) : AC :=
  let last := c.now - c.a.drainAt
  let c := (c.setReg .ABANKS_STATE 4).setReg .ABANKS_LAST_DRAIN last
  let req := c.a.drainReq
  let c := c.mod fun a => { a with drainReq := none }
  match req with
  | some (src, tag) => c.reply src tag 0x24 status [trunc 32 c.inFlightAll, trunc 32 last]
  | none => c

/-- The drained classes have been at zero for MAX_D + 1 consecutive slots: since DRAIN, and since one of their packets last left an
output. -/
def quiet (c : AC) : Bool :=
  c.inFlightAll = 0 && max c.a.drainAt c.a.quietFrom + (c.maxD + 1) * 128 ≤ c.now

/-- The drain has been quiet for long enough (R78). -/
def drainQuiet (c : AC) : AC := if c.state = 3 ∧ c.quiet then c.endDrain 0x00 else c

/-- DRAIN_TIMEOUT has passed since DRAIN. -/
def drainTimeout (c : AC) : AC :=
  if c.state = 3 ∧ c.a.drainAt + c.reg .ACONTROL_DRAIN_TIMEOUT * 1000 ≤ c.now then c.endDrain 0x01 else c

/-- The commit-wait deadline (R80). -/
def commitDeadline (c : AC) : Nat := c.a.drainAt + c.reg .ACONTROL_COMMIT_WAIT * 1000000

/-- D of R51 from a propagation delay in nanoseconds. -/
def delaySlots (p : Nat) : Nat := ceilDiv (p + 164) 128 - 1

/-- A route commit takes a delay change into the D of each link (R51). -/
def recomputeD (c : AC) : AC :=
  (c.a.ports.map Prod.fst).foldl (fun c p =>
    if c.preg .APORT_DELAY_NS p = 0 then c
    else c.setPReg .APORT_DELAY_SLOTS p (delaySlots (c.preg .APORT_DELAY_NS p))) c

/-- Sub-windows whose entry a fence has cleared (R43): the entry named a fenced FID in the bank that a swap leaves and is null in the
bank it turns to. An entry that is not null again is no longer cleared. -/
def noteCleared (c : AC) (old new : Nat) : AC :=
  let cleared := fun (a : Agent) (i : Nat) =>
    if c.subWindow old i = nullFid then a.clearedSubs.contains i else c.isFenced (c.subWindow old i)
  if c.u.profile ≠ .endpoint then c
  else c.mod fun a =>
    { a with clearedSubs := (List.range 8).filter fun i => c.subWindow new i = nullFid && cleared a i }

/-- COMMIT (R78, R80): ignored in static fallback (R94); repeated for the epoch just applied it answers OK. A DRAIN whose answer COMMIT
forestalls is not answered (log 19). -/
def doCommit (c : AC) (e : Env) (ep : Nat) : AC :=
  let act := c.reg .ABANKS_ACTIVE_EPOCH
  if c.reg .ACONTROL_MODE = 2 then c
  else if ep = act ∧ (c.state = 5 ∨ c.a.resumed = some ep) then c.answer e 0x26 0x00
  else if !epochNewer ep act ∨ ep ≠ c.reg .ABANKS_SHADOW_EPOCH then c.refuse e 0x26 0x0C
  else if c.state = 6 then c.refuse e 0x26 0x0A
  else if c.state ≠ 3 ∧ c.state ≠ 4 then c.refuse e 0x26 0x0B
  else if c.commitDeadline ≤ c.now then c.refuse e 0x26 0x0A
  else
    let c := (c.setReg .ABANKS_ACTIVE_EPOCH ep).setReg .ABANKS_SHADOW_EPOCH act
    let c := (c.setReg .ABANKS_ACTIVE_BANK (1 - c.reg .ABANKS_ACTIVE_BANK)).setReg .ABANKS_STATE 5
    let c := c.mod fun a => { a with flipAt := (c.slot + 1) * 128, commitAt := c.now, drainReq := none }
    let new := c.reg .ABANKS_ACTIVE_BANK
    (((c.noteCleared (1 - new) new).count .ABANKS_COMMITS).recomputeD).answer e 0x26 0x00

/-- The fields of EPOCH_REPORT and ROLLBACK (R95). -/
def report (c : AC) : List Nat :=
  [c.reg .ABANKS_ACTIVE_EPOCH, c.reg .ABANKS_SHADOW_EPOCH, c.state,
   c.reg .ABANKS_SHADOW_VALID + 2 * c.reg .ABANKS_SHADOW_COMPLETE + 4 * c.reg .ABANKS_STATIC_IN_USE
     + 8 * c.reg .ACONTROL_MODE,
   c.reg .ABANKS_STATIC_EPOCH, trunc 32 c.inFlightAll]

/-- The commit-wait timer reaches COMMIT_WAIT: ROLLED_BACK, the notice, event 0x2004, and a fault where in outage. -/
def commitWaitExpiry (c : AC) : AC :=
  if (c.state = 3 ∨ c.state = 4) ∧ c.commitDeadline ≤ c.now then
    let c := (c.setReg .ABANKS_STATE 6).count .ABANKS_ROLLBACKS
    let c := c.mod fun a => { a with drainReq := none }
    let c := c.send (c.reg .AIDENT_PARTITION_FID) { type := 0x2F, body := c.report }
    (c.event 0x2004 [c.reg .ABANKS_SHADOW_EPOCH, 0]).fault 3
  else c

/-- RESUME (R78). -/
def doResume (c : AC) (e : Env) (ep : Nat) : AC :=
  if ep ≠ c.reg .ABANKS_ACTIVE_EPOCH then c.refuse e 0x28 0x0C
  else if c.state = 5 then
    ((c.setReg .ABANKS_STATE 0).mod fun a => { a with resumed := some ep }).answer e 0x28 0x00
  else if c.a.resumed = some ep then c.answer e 0x28 0x00
  else c.refuse e 0x28 0x0B

/-- RESUME_WAIT since COMMIT: the agent resumes by itself. -/
def resumeWaitExpiry (c : AC) : AC :=
  if c.state = 5 ∧ c.a.commitAt + c.reg .ACONTROL_RESUME_WAIT * 1000000 ≤ c.now then
    let ep := c.reg .ABANKS_ACTIVE_EPOCH
    ((c.setReg .ABANKS_STATE 0).mod fun a => { a with resumed := some ep }).event 0x2004 [ep, 1]
  else c

/-- ABANDON (R78). -/
def doAbandon (c : AC) (e : Env) (ep : Nat) : AC :=
  if !epochNewer ep (c.reg .ABANKS_ACTIVE_EPOCH) ∨ ep ≠ c.reg .ABANKS_SHADOW_EPOCH then c.refuse e 0x2A 0x0C
  else if c.state = 5 then c.refuse e 0x2A 0x0B
  else
    let c := ((c.setReg .ABANKS_SHADOW_VALID 0).setReg .ABANKS_SHADOW_COMPLETE 0).setReg .ABANKS_STATE 0
    let c := c.mod fun a => { a with shadowLoad := none, drainReq := none }
    (c.count .ABANKS_ABANDONS).answer e 0x2A 0x00

/-! Fences -/

/-- The newest fence epoch of a job is kept for up to 64 jobs (R85); that of a further job is not (log 19). -/
def noteEpoch (c : AC) (job f : Nat) : AC :=
  if c.u.profile ≠ .endpoint then c
  else
    match SMap.find? c.a.jobEpochs job with
    | some o => if epochNewer f o then c.mod fun a => { a with jobEpochs := SMap.insert a.jobEpochs job f } else c
    | none =>
      if c.a.jobEpochs.length < 64 then c.mod fun a => { a with jobEpochs := SMap.insert a.jobEpochs job f } else c

/-- The oldest lifted entry that has been lifted for more than 16 frames (R83). -/
def oldestLifted (c : AC) : Option FenceEntry :=
  (c.a.fences.filter fun x => x.lifted && x.liftTime + 16 * 131072 < c.now).foldl
    (fun b x => match b with | some y => if x.liftTime < y.liftTime then some x else some y | none => some x) none

/-- FENCE (R83). A circuit agent has no fence table (R68): it takes the message for a malformed one (log 19). -/
def doFence (c : AC) (e : Env) (fid job f : Nat) : AC :=
  if c.u.profile = .circuit then c.count .ACONTROL_MALFORMED_MSG
  else
    let new : FenceEntry := { fid := fid, job := job, f := f, effSlot := c.slot + 1 }
    let c := c.noteEpoch job f
    match c.fenceOf fid with
    | some x =>
      if epochNewer f x.f then
        let renew := fun (y : FenceEntry) => { new with effSlot := if y.lifted then c.slot + 1 else y.effSlot }
        (c.mod fun a => { a with fences := mapIf (fun y => y.fid = fid) renew a.fences }).answer e 0x30 0x00
      else (c.count .AFENCE_FENCE_STALE).answer e 0x30 0x0C
    | none =>
      if c.a.fences.length < 4096 then (c.mod fun a => { a with fences := a.fences ++ [new] }).answer e 0x30 0x00
      else
        match c.oldestLifted with
        | some o => (c.mod fun a => { a with fences := a.fences.erase o ++ [new] }).answer e 0x30 0x00
        | none => ((c.count .AFENCE_FENCE_REFUSED).event 0x2008 [fid, f]).answer e 0x30 0x0B

/-- UNFENCE (R83), at a circuit agent as FENCE (log 19). -/
def doUnfence (c : AC) (e : Env) (fid f : Nat) : AC :=
  if c.u.profile = .circuit then c.count .ACONTROL_MALFORMED_MSG
  else
    match c.fenceOf fid with
    | some x =>
      if !x.lifted ∧ x.f = f then
        let lift := fun (y : FenceEntry) => { y with lifted := true, liftTime := c.now }
        (c.mod fun a => { a with fences := mapIf (fun y => y.fid = fid) lift a.fences }).answer e 0x32 0x00
      else (c.count .AFENCE_FENCE_STALE).answer e 0x32 0x0C
    | none => (c.count .AFENCE_FENCE_STALE).answer e 0x32 0x0C

end AC

end Sys2Proof.Machine
end

