-- ==== Sys2Proof/Machine/AgentCtl.lean ====
section
/-! DEFINITION. Slot lists and windows at an endpoint (R86 to R89), the link-level exchanges of discovery (R99 to R102), time
(R91, R92), outage and static fallback (R93, R94), ports, notices and periodic messages (R95, R96). -/

namespace Sys2Proof.Machine

open Sys2Proof

/-- The 16 bytes of a slot-list entry (R86). -/
def entryBytes (e : SlotEntry) : List Nat :=
  bytesOf 4 (e.first + e.frame <<< 10 + e.run <<< 14 + ofBool e.nextStep <<< 20 + ofBool e.mcast <<< 21)
    ++ bytesOf 4 (e.dst + e.group <<< 20) ++ bytesOf 4 e.flow ++ [0, 0, 0, 0]

/-- LIST_CRC over all entries in order. -/
def listCrc (es : List SlotEntry) : Nat := crc32c (es.flatMap entryBytes)

/-- Two entries claim a slot in common. -/
def entriesOverlap (a b : SlotEntry) : Bool :=
  a.frame = b.frame && a.first < b.first + b.run && b.first < a.first + a.run

/-- Sorted by FRAME, then FIRST_SLOT, with no two overlapping (R86, check 4). -/
def entriesSorted : List SlotEntry → Bool
  | [] => true
  | [_] => true
  | a :: b :: r => (a.frame < b.frame || (a.frame = b.frame && a.first + a.run ≤ b.first)) && entriesSorted (b :: r)

/-- Every segment carries the same header fields, and the entries add up (R86, check 1). -/
def segmentsAgree (isTemplate : Bool) (segs : List Segment) (s : Segment) : Bool :=
  segs.all (fun x => x.windowFrame = s.windowFrame && x.frames = s.frames && x.template = s.template
    && x.segments = s.segments && x.totalEntries = s.totalEntries && x.step = s.step && x.job = s.job)
  && (segs.map fun x => x.entries.length).sum = s.totalEntries
  && s.totalEntries ≤ (if isTemplate then 4096 else 16384)

/-- The first failing check of R86 for a whole list; none where it passes. -/
def firstFail (isTemplate : Bool) (segs : List Segment) (s : Segment) (frames template : Nat)
    (static : List SlotEntry) : Option Nat :=
  let es := (sortBy (fun (a b : Segment) => a.segment ≤ b.segment) segs).flatMap fun x => x.entries
  if !segmentsAgree isTemplate segs s then some 1
  else if isTemplate && s.totalEntries = 0 then none
  else if !es.all (fun e => 1 ≤ e.run && e.first % 64 + e.run ≤ 63) then some 2
  else if !es.all (fun e => e.frame < frames) then some 3
  else if !entriesSorted es then some 4
  else if !isTemplate && (s.template ≠ template || es.any fun e => static.any (entriesOverlap e)) then some 5
  else if listCrc es ≠ s.listCrc then some 6
  else none

namespace AC

/-- The full frame number whose low 32 bits are given, nearest to now. -/
def fullFrame (c : AC) (w : Nat) : Int :=
  let f := c.now / 131072
  (f : Int) + ofField 32 (w + 2 ^ 32 - f % 2 ^ 32)

/-- NEXT_SEQ applies at a window (R89). -/
def seqTurns (c : AC) (w : Nat) : Bool :=
  c.reg .ASLOTS_NEXT_SEQ_LEN ≠ 0 && (w + 2 ^ 32 - c.reg .ASLOTS_NEXT_FROM_FRAME) % 2 ^ 32 < 2 ^ 31

/-- The template that R89 gives for the window whose first frame is `w`. -/
def templateFor (c : AC) (w : Nat) : Nat :=
  let k := (w + 2 ^ 32 - c.reg .ASLOTS_SEQ_BASE_FRAME) % 2 ^ 32 / max 1 (c.reg .ASLOTS_WINDOW_FRAMES)
  let len := if c.seqTurns w then c.reg .ASLOTS_NEXT_SEQ_LEN else c.reg .ASLOTS_SEQ_LEN
  let seq := if c.seqTurns w then c.reg .ASLOTS_NEXT_SEQ else c.reg .ASLOTS_SEQ
  bits seq (4 * (k % max 1 len) + 2) (4 * (k % max 1 len))

/-- The entries of an installed template. -/
def template (c : AC) (n : Nat) : List SlotEntry := SMap.get [] c.a.templates n

/-- The moment LIST_GUARD before a window's first slot (R87). -/
def guardTime (c : AC) (w : Nat) : Int := c.fullFrame w * 131072 - (c.reg .ASLOTS_LIST_GUARD : Int)

/-- Adds a segment to its list; a segment number that came before is replaced. -/
def gather (c : AC) (isTemplate : Bool) (key : Nat) (s : Segment) : AC × List Segment :=
  let same := fun (g : Gather) => g.isTemplate = isTemplate && g.key = key
  let old := match c.a.gathers.find? same with | some g => g.segs | none => []
  let segs := old.filter (fun x => x.segment ≠ s.segment) ++ [s]
  (c.mod fun a => { a with gathers := a.gathers.filter (fun g => !same g) ++ [⟨isTemplate, key, segs⟩] }, segs)

/-- Forgets the segments of a list. -/
def dropGather (c : AC) (isTemplate : Bool) (key : Nat) : AC :=
  c.mod fun a => { a with gathers := a.gathers.filter fun g => !(g.isTemplate = isTemplate && g.key = key) }

/-- A list that fails a check is rejected whole (R86). -/
def rejectList (c : AC) (e : Env) (type w n : Nat) : AC :=
  ((c.count .ASLOTS_LISTS_REJECTED).event 0x2009 [w, n]).answer e type 0x02

/-- A list that comes after the guard is discarded (R87). -/
def lateList (c : AC) (w : Nat) : AC :=
  if w ∈ c.a.lateWindows then c
  else
    let late := ((c.now : Int) - c.guardTime w).toNat
    let c := c.mod fun a => { a with lateWindows := lastN 16 (a.lateWindows ++ [w]) }
    (c.count .ASLOTS_LISTS_LATE).event 0x200A [w, late]

/-- One segment of a SLOT_LIST (R86, R87); ignored in static fallback (R94). A list accepted with another STEP than the list
before applies the values that wait for a step (R70). A list for a window beyond the next takes the place of the one held (log 19). -/
def doSlotList (c : AC) (e : Env) (s : Segment) : AC :=
  if c.u.profile ≠ .endpoint then c.count .ACONTROL_MALFORMED_MSG
  else if c.reg .ACONTROL_MODE = 2 ∨ c.now < c.a.listsFrom then c
  else
    let g := c.gather false s.windowFrame s
    let c := g.1
    if g.2.length < s.segments then c.answer e 0x42 0x00
    else
      let c := c.dropGather false s.windowFrame
      if s.windowFrame ∈ c.a.lateWindows ∨ c.guardTime s.windowFrame < (c.now : Int) then
        (c.lateList s.windowFrame).answer e 0x42 0x01
      else
        let t := c.templateFor s.windowFrame
        match firstFail false g.2 (g.2.headD s) (c.reg .ASLOTS_WINDOW_FRAMES) t (c.template t) with
        | some n => c.rejectList e 0x42 s.windowFrame n
        | none =>
          let es := (sortBy (fun (a b : Segment) => a.segment ≤ b.segment) g.2).flatMap fun x => x.entries
          let l : DynList := { window := s.windowFrame, template := t, step := s.step, job := s.job, entries := es }
          let c := ((c.mod fun a => { a with nxt := some l }).setReg .ASLOTS_NEXT_VALID 1).count .ASLOTS_LISTS_ACCEPTED
          let c := if c.a.lastStep = some s.step then c else c.applyEvery fun p => p.bnd = .step
          (c.mod fun a => { a with lastStep := some s.step }).answer e 0x42 0x00

/-- One segment of a TEMPLATE_LIST (R86); it is never late. -/
def doTemplateList (c : AC) (e : Env) (s : Segment) : AC :=
  if c.u.profile ≠ .endpoint then c.count .ACONTROL_MALFORMED_MSG
  else
    let g := c.gather true s.template s
    let c := g.1
    if g.2.length < s.segments then c.answer e 0x44 0x00
    else
      let c := c.dropGather true s.template
      match firstFail true g.2 (g.2.headD s) (c.reg .ASLOTS_WINDOW_FRAMES) s.template [] with
      | some n => c.rejectList e 0x44 s.windowFrame n
      | none =>
        let es := (sortBy (fun (a b : Segment) => a.segment ≤ b.segment) g.2).flatMap fun x => x.entries
        let c := c.mod fun a => { a with templates := SMap.set [] a.templates (s.template % 8) es }
        let inUse := c.reg .ASLOTS_TEMPLATE_IN_USE
        (c.setReg .ASLOTS_TEMPLATE_VALID (ofBool !(c.template inUse).isEmpty)).answer e 0x44 0x00

/-- LIST_GUARD before a window, a list that has begun to arrive and is not whole is late; the segment that completes it later is still
answered TIMEOUT (R87). -/
def listGuard (c : AC) (w : Nat) : AC :=
  if c.a.gathers.any (fun g => !g.isTemplate && g.key = w) ∧ c.guardTime w ≤ (c.now : Int) then
    c.lateList w
  else c

/-- A window begins: its template by R89, its list where one was accepted (R88, R89, R93). -/
def windowStart (c : AC) : AC :=
  let w := c.now / 131072 % 2 ^ 32
  let off := (w + 2 ^ 32 - c.reg .ASLOTS_SEQ_BASE_FRAME) % 2 ^ 32 % max 1 (c.reg .ASLOTS_WINDOW_FRAMES)
  let begun := c.a.windowStarted && c.reg .ASLOTS_WINDOW_FRAME = w
  if c.u.profile ≠ .endpoint ∨ off ≠ 0 ∨ c.now % 131072 ≠ 0 ∨ begun then c
  else
    let c := if c.seqTurns w then
        ((c.setReg .ASLOTS_SEQ_LEN (c.reg .ASLOTS_NEXT_SEQ_LEN)).setReg .ASLOTS_SEQ (c.reg .ASLOTS_NEXT_SEQ)).setReg
          .ASLOTS_NEXT_SEQ_LEN 0
      else c
    let t := c.templateFor w
    let l := match c.a.nxt with
      | some l => if l.window = w ∧ c.reg .ACONTROL_MODE ≠ 2 then some l else none
      | none => none
    let keep := match c.a.nxt with
      | some l => if c.fullFrame w < c.fullFrame l.window then some l else none
      | none => none
    let c := ((c.setReg .ASLOTS_WINDOW_FRAME w).setReg .ASLOTS_TEMPLATE_IN_USE t).setReg .ASLOTS_TEMPLATE_VALID
      (ofBool !(c.template t).isEmpty)
    let c := (c.setReg .ASLOTS_CURRENT_VALID (ofBool l.isSome)).setReg .ASLOTS_NEXT_VALID (ofBool keep.isSome)
    let c := if l.isNone then c.count .ASLOTS_TEMPLATE_ONLY else c
    c.mod fun a => { a with cur := l, nxt := keep, windowStarted := true, schedHeld := false }

/-! Notices -/

/-- FENCED_NOTICE: the job's fence epoch, and the notice to the runtime (R85). -/
def doFencedNotice (c : AC) (job f : Nat) (fids : List Nat) : AC :=
  (c.noteEpoch job f).mod fun a => { a with notices := a.notices ++ [{ type := 0x35, body := [job, f, fids.length] ++ fids }] }

/-- PEER_RESET goes to the runtime unless it names the agent's own FID (R285). -/
def doPeerReset (c : AC) (fid job reason step time : Nat) : AC :=
  if fid = c.reg .AIDENT_FID then c
  else c.mod fun a => { a with notices := a.notices ++ [{ type := 0x37, body := [fid, job, reason, step, time] }] }

/-! Outage, ports, errors -/

/-- HOLD takes the agent into outage (R93). -/
def doHold (c : AC) : AC := if c.reg .ACONTROL_MODE = 0 then c.setReg .ACONTROL_MODE 1 else c

/-- CONTROL_TIMEOUT without a message from PARTITION_FID (R93). -/
def controlTimeout (c : AC) : AC :=
  if c.reg .AIDENT_PARTITION_FID ≠ nullFid ∧ c.a.lastPartMsg + c.reg .ACONTROL_CONTROL_TIMEOUT * 1000 ≤ c.now
  then c.doHold else c

/-- A port goes down (R94, R96). -/
def portDown (c : AC) (p : Nat) : AC :=
  (c.modPort p fun s => { s with link := { s.link with keyed := false } }).setUp p false

/-- A port comes up, trained and keyed, unless PORT_STATE has disabled it (R96, R102). -/
def portUp (c : AC) (p : Nat) : AC :=
  let c := c.modPort p fun s => { s with link := { s.link with keyed := true } }
  if (c.port p).disabled then c else c.setUp p true

/-- The maker's logic reports an internal error (R94, R96). -/
def internalError (c : AC) (code : Nat) : AC := (c.event 0x200C [code]).fault 4

/-! Time (R91, R92) -/

/-- The exchange of each 1 ms with the time parent (R91). -/
def timeExchange (c : AC) : AC :=
  let due : Bool := match c.a.exchangeAt with | some t => t + 1000000 ≤ c.now | none => true
  if due then (c.askTime false).mod fun a => { a with exchangeAt := some c.now } else c

/-- An exchange has failed: counted, and tried once more in the next management slot (R91). -/
def exchangeFailed (c : AC) (r : TimeReq) : AC :=
  (c.count .ATIME_EXCHANGE_FAILS).mod fun a => { a with timeReq := none, timeRetry := !r.retry }

/-- The moments an agent keeps move with a step of its clock, so that the intervals it measures stay; slots to come are the next. -/
def shifted (a : Agent) (old new : Nat) : Agent :=
  let mv := fun (t : Nat) => ((t : Int) + new - old).toNat
  let slot := fun (n : Nat) => if n ≤ old / 128 then 0 else new / 128 + 1
  let load := fun (l : Load) => { l with lastWrite := mv l.lastWrite }
  { a with
    ports := a.ports.map fun e => (e.1, { e.2 with
      next := e.2.next.map fun x => { x with slot := slot x.slot }
      lastStart := e.2.lastStart.map fun _ => new / 128
      identAt := e.2.identAt.map mv })
    shadowLoad := a.shadowLoad.map load
    staticLoad := a.staticLoad.map load
    drainAt := mv a.drainAt
    quietFrom := mv a.quietFrom
    commitAt := mv a.commitAt
    flipAt := mv a.flipAt
    staticUntil := mv a.staticUntil
    listsFrom := mv a.listsFrom
    fences := a.fences.map fun x => { x with liftTime := mv x.liftTime, effSlot := slot x.effSlot }
    flows := a.flows.map fun x => { x with progress := mv x.progress }
    echoes := a.echoes.map fun e => (e.1, { e.2 with lastEcho := e.2.lastEcho.map mv })
    lastHalving := a.lastHalving.map mv
    lastRise := mv a.lastRise
    loosePaceAt := mv a.loosePaceAt
    exchangeAt := a.exchangeAt.map mv
    lastExchange := a.lastExchange.map mv
    lastPartMsg := mv a.lastPartMsg
    pairs := a.pairs.map fun x => { x with at_ := mv x.at_ }
    requests := a.requests.map fun x => { x with sentAt := mv x.sentAt }
    stored := a.stored.map fun x => { x with till := mv x.till }
    telemAt := mv a.telemAt }

/-- The clock takes an offset: stepped at once, or slewed from now on (R91). -/
def correct (c : AC) (offset : Int) (step : Bool) : AC :=
  let skew : Int := c.now - c.ticks
  if step then
    let new := ((c.now : Int) + offset).toNat
    let a := shifted c.a c.now new
    { c with now := new, a := { a with skew := (new : Int) - c.ticks, slewLeft := 0, slewFrom := c.ticks, schedHeld := true } }
  else c.mod fun a => { a with skew := skew, slewLeft := offset, slewFrom := c.ticks }

/-- TIME_RESP: offset and delay, a slew or a step, and LOCKED (R91, R92). The first exchange after reset is always stepped. A status other
than OK fails the exchange (R15). -/
def timeResp (c : AC) (status t1 t2 t3 : Nat) : AC :=
  match c.a.timeReq with
  | none => c
  | some r =>
    if r.t1 ≠ t1 then c
    else if status ≠ 0 then c.exchangeFailed r
    else
      let t4 := c.now
      let offset : Int := (((t2 : Int) - t1) - ((t4 : Int) - t3)) / 2
      let delay : Int := (((t4 : Int) - t1) - ((t3 : Int) - t2)) / 2
      let step : Bool := 1000 < offset.natAbs || c.reg .ATIME_STATE = 4
      let c := (c.mod fun a => { a with timeReq := none, lastExchange := some c.now }).correct offset step
      let c := (c.setReg .ATIME_OFFSET (toField 32 offset)).setReg .ATIME_PATH_DELAY (toField 16 delay)
      let c := (c.setReg .ATIME_STATE 1).count .ATIME_EXCHANGES
      let c := if step then c.count .ATIME_TIME_STEPS else c
      if 20 < offset.natAbs then (c.count .ATIME_OUT_OF_BOUND).event 0x2007 [toField 32 offset] else c

/-- A TIME_RESP that does not come within MSG_TIMEOUT fails the exchange (R91). -/
def timeRespTimeout (c : AC) : AC :=
  match c.a.timeReq with
  | none => c
  | some r => if r.at_ + c.reg .ACONTROL_MSG_TIMEOUT * 1000 ≤ c.now then c.exchangeFailed r else c

/-- 3 ms without a successful exchange: HOLDOVER, event 0x2006, and a fault in outage (R92, R94). -/
def holdoverEntry (c : AC) : AC :=
  match c.a.lastExchange with
  | some t =>
    if c.reg .ATIME_STATE = 1 ∧ t + 3000000 ≤ c.now then
      ((c.setReg .ATIME_STATE 2).event 0x2006 [c.reg .ATIME_OFFSET]).fault 2
    else c
  | none => c

/-! Requests, stored responses, telemetry -/

/-- A request unanswered after MSG_TIMEOUT is sent again with its TAG, or ends TIMEOUT (R95). -/
def retransmit (c : AC) (tag : Nat) : AC :=
  match c.a.requests.find? (fun r => r.msg.tag = tag) with
  | none => c
  | some r =>
    if c.now < r.sentAt + c.reg .ACONTROL_MSG_TIMEOUT * 1000 then c
    else if r.retries < c.reg .ACONTROL_MSG_RETRIES then
      let again := fun (x : Request) => { x with sentAt := c.now, retries := x.retries + 1 }
      (c.mod fun a => { a with requests := mapIf (fun x => x.msg.tag = tag) again a.requests }).send r.dst r.msg
    else
      let c := (c.mod fun a => { a with requests := a.requests.filter fun x => x.msg.tag ≠ tag }).count .ACONTROL_MSG_FAILED
      c.emit (.runtime c.u "request" [r.msg.type, tag, 0x01])

/-- A stored response is dropped when its time is over (R95). -/
def storeExpiry (c : AC) (src tag : Nat) : AC :=
  c.mod fun a => { a with stored := a.stored.filter fun x => !(x.src = src && x.tag = tag && x.till ≤ c.now) }

/-- The counters a telemetry record reports, in its order. -/
def telemetryNow (c : AC) (p : Nat) : List Nat :=
  [c.preg .APORT_TX_PACKETS p, c.preg .APORT_TX_BYTES p, c.preg .APORT_DEFLECTIONS p,
   c.preg .APORT_DISCARD_FEC p + c.preg .APORT_DISCARD_AUTH p, c.preg .APORT_MARKS p, c.preg .APORT_STALL_SLOTS p,
   c.preg .APORT_FEC_CORRECTED p]

/-- One port's telemetry record for the period (R95): PORT, largest and mean LOOSE depth, then seven saturating counts. -/
def telemetryRecord (c : AC) (p : Nat) : List Nat :=
  let s := c.port p
  let d := (c.telemetryNow p).zipIdx.map fun x => x.1 - s.base.getD x.2 0
  let sat := fun v => min v (2 ^ 32 - 1)
  let g := fun i => d.getD i 0
  let mid := if c.u.profile = .circuit then [c.preg .APORT_TX_POWER p, c.preg .APORT_RX_POWER p] else [sat (g 4), sat (g 5)]
  [p, min s.periodMax 255, min (s.periodSum / max 1 s.periodSlots) 255, sat (g 0), sat (g 1 / 1024), sat (g 2), sat (g 3)]
    ++ mid ++ [sat (g 6)]

/-- TELEMETRY every TELEM_PERIOD, in as many messages of up to 382 ports as it takes (R95); none while PARTITION_FID is null (log 19). -/
def telemetry (c : AC) : AC :=
  if c.now < c.a.telemAt + c.reg .ACONTROL_TELEM_PERIOD * 1000 ∨ c.reg .AIDENT_PARTITION_FID = nullFid then c else
  let n := min c.ports 513
  let period := c.now - c.a.telemAt
  let send := fun (c : AC) (first cnt : Nat) =>
    let recs := ((List.range cnt).map fun i => c.telemetryRecord (first + i)).flatten
    c.send (c.reg .AIDENT_PARTITION_FID) { type := 0x55, body := [first, cnt, period] ++ recs }
  let c := if n ≤ 382 then send c 0 n else send (send c 0 382) 382 (n - 382)
  let c := (List.range n).foldl (fun c p =>
    let b := c.telemetryNow p
    c.modPort p fun s =>
      { s with periodMax := s.looseQ.length, periodSum := 0, periodSlots := 0, base := if b.all (· = 0) then [] else b }) c
  c.mod fun a => { a with telemAt := c.now }

/-- Every 1 ms an agent sends IDENT to the partner of each link, a circuit agent on its management port alone (R68, R95). -/
def identPeriod (c : AC) (p : Nat) : AC :=
  let due : Bool := match (c.port p).identAt with | some t => t + 1000000 ≤ c.now | none => true
  if !c.up p || !due || (c.u.profile = .circuit && p ≠ 0) then c
  else (c.modPort p fun s => { s with identAt := some c.now }).sendOnPort p { type := 0x10, body := [trunc 16 (Config.makerOf c.u.code), c.u.profile.code + 4 * p,
    trunc 32 (Config.partNoOf c.u.code), trunc 64 (Config.serialOf c.u.code), c.reg .AIDENT_FID,
    c.reg .AIDENT_PARTITION_FID, 0x00020000, trunc 32 (Config.cableTagOf c.u.code p)] }

/-- IDENT or an identity block names the partner on a port (R99). -/
def gotIdentity (c : AC) (p : Nat) (b : IdBlock) : AC :=
  let c := (c.setPReg .APORT_PARTNER_FID p b.fid).setPReg .APORT_PARTNER_PORT p b.port
  c.modPort p fun s => { s with link := { s.link with partner := b.profile } }

/-- The agent's own identity block on a port (R99). -/
def ownBlock (c : AC) (p : Nat) : IdBlock :=
  { maker := trunc 16 (Config.makerOf c.u.code), profile := c.u.profile.code, port := p,
    partNo := trunc 32 (Config.partNoOf c.u.code), serial := trunc 64 (Config.serialOf c.u.code),
    cableTag := trunc 32 (Config.cableTagOf c.u.code p), fid := c.reg .AIDENT_FID, partitionFid := c.reg .AIDENT_PARTITION_FID,
    boardId := if c.u.profile = .endpoint then trunc 64 (Config.boardIdOf c.u.code) else 0,
    boardSlot := if c.u.profile = .endpoint then Config.boardSlotOf c.u.code % 8 else 0 }

/-- An identity block arrives; one whose CRC fails is counted in MALFORMED_MSG (R99). -/
def identityBlock (c : AC) (p : Nat) (b : IdBlock) (crcOk : Bool) : AC :=
  if !crcOk then c.count .ACONTROL_MALFORMED_MSG
  else (c.gotIdentity p b).modPort p fun s => { s with lastBlock := some b }

/-- The handshake of a link ends: keyed under generation 0, and the identity block goes out; or the port stays down (R99, R324). -/
def handshake (c : AC) (p : Nat) (ok : Bool) : AC :=
  let c := c.emit (.handshake c.u p 0)
  if ok then
    let fresh := fun (s : AgentPort) => { s with link := { keyed := true, partner := s.link.partner } }
    (c.modPort p fresh).emit
      (.identity c.u p (c.ownBlock p))
  else (c.modPort p fun s => { s with link := {} }).setUp p false

/-! Directed blocks (R100 to R102) -/

/-- Turns a block into a response and sends it back out of a port. -/
def turnBack (c : AC) (p : Nat) (b : DirBlock) : AC := c.emit (.directed c.u p { b with response := true })

/-- The target's right to execute ASSIGN and PORT_STATE (R101). -/
def mayAssign (c : AC) (origin : Nat) : Bool := c.reg .AIDENT_PARTITION_FID == nullFid || c.controls origin

/-- The fields that ASSIGN writes at this agent (R101). -/
def assignWrites (c : AC) (p : Nat) (w : List Nat) : List (Reg × Nat) :=
  let g := fun i => w.getD i 0
  [(.AIDENT_FID, g 0), (.AIDENT_PARTITION_FID, g 1), (.AIDENT_ALT_FID0, g 2), (.AIDENT_ALT_FID1, g 3), (.AIDENT_ALT_FID2, g 4)]
    ++ (if c.u.profile = .endpoint then [(.AIDENT_BOARD_POS, bits (g 5) 2 0), (.AIDENT_BOARD_NO, bits (g 5) 17 3)] else [])
    ++ [(.ATIME_PARENT_PORT, p)]

/-- ASSIGN writes its fields as a completed pair and commits the IDENT page; PARENT_PORT follows. What repeats the current values
changes nothing (R101). -/
def assignFields (c : AC) (p : Nat) (w : List Nat) : AC :=
  let ws := (c.assignWrites p w).map fun e => (e.1, trunc e.1.width e.2)
  if ws.all fun e => c.reg e.1 = e.2 then c
  else
    let c := c.mod fun a =>
      { a with lastPartMsg := c.now, regs := ws.foldl (fun f e => f.setPend e.1 0 0 ⟨e.2, .commit, 0, false⟩) a.regs }
    (c.applyPage (fun _ => true) (.AIDENT, 0)).mod fun a => { a with regs := a.regs.applyOne .ATIME_PARENT_PORT 0 0 }

/-- PORT_STATE (R102): UP of a port that is trained and keyed follows it (R94, R96). -/
def portState (c : AC) (p : Nat) (enable : Bool) : AC :=
  (c.modPort p fun s => { s with disabled := !enable }).setUp p (enable && (c.port p).link.keyed)

/-- The target executes OP (R101). -/
def executeBlock (c : AC) (p : Nat) (b : DirBlock) : AC :=
  let w := b.payload.getD 0 0
  let port := bits w 15 0
  let denied := fun (c : AC) => (c.foreign b.origin b.op).turnBack p { b with status := 0x08 }
  match b.op with
  | 1 =>
    if !isPartFid b.origin then denied c
    else if port = 0xFFFF then c.turnBack p { b with block := some (c.ownBlock p) }
    else
      match (c.port port).lastBlock with
      | some x => c.turnBack p { b with block := some x }
      | none => c.turnBack p { b with status := 0x09 }
  | 2 =>
    if !isPartFid b.origin then denied c
    else if c.ports ≤ port || !(c.port port).link.keyed || (c.port port).disabled then c.turnBack p { b with status := 0x09 }
    else
      (List.range 16).foldl (fun c _ => c.emit (.echo c.u port 0))
        (c.mod fun a => { a with measuring := a.measuring ++ [⟨b, p, port⟩] })
  | 3 =>
    if !c.mayAssign b.origin then denied c
    else
      let c := c.assignFields p b.payload
      c.turnBack p { b with block := some (c.ownBlock p) }
  | 4 => if !c.mayAssign b.origin then denied c else (c.portState port (bit w 16)).turnBack p { b with payload := [] }
  | _ => denied c

/-- A port that carries directed blocks: present, trained and keyed, and no circuit port of a circuit agent (R100, R102). -/
def carriesBlocks (c : AC) (q : Nat) : Bool :=
  q < c.ports && (c.port q).link.keyed && !(c.u.profile = .circuit && q ≠ 0)

/-- A directed block arrives (R100). -/
def directedBlock (c : AC) (p : Nat) (b : DirBlock) (crcOk : Bool) : AC :=
  if !crcOk then c.count .ACONTROL_MALFORMED_MSG
  else if b.response then
    let i := b.index - 1
    c.emit (.directed c.u (b.ret.getD i 0) { b with index := i })
  else
    let b := { b with ret := b.ret.take b.index ++ [p] }
    if b.index < b.count then
      let q := b.path.getD b.index 0
      if c.carriesBlocks q then c.emit (.directed c.u q { b with index := b.index + 1 })
      else c.turnBack p { b with status := 0x09, stoppedAt := b.index }
    else c.executeBlock p b

/-- The echo exchanges of the oldest measurement of a port end: p is the mean one-way delay rounded up, written with D and returned
(R51, R101). A change above 20 ns is reported and leaves D as it is until the next route commit. -/
def measureComplete (c : AC) (port : Nat) (samples : List (Nat × Nat × Nat)) : AC :=
  match c.a.measuring.find? fun m => m.port = port with
  | none => c
  | some m =>
    let sum := (samples.map fun s => s.2.1 - s.1 - s.2.2).sum
    let p := ceilDiv sum (2 * max 1 samples.length)
    let old := c.preg .APORT_DELAY_NS m.port
    let changed : Bool := old ≠ 0 && (20 < p - old || 20 < old - p)
    let c := (c.mod fun a => { a with measuring := a.measuring.erase m }).setPReg .APORT_DELAY_NS m.port p
    let c := if changed then c.event 0x2003 [m.port, old, p] else c.setPReg .APORT_DELAY_SLOTS m.port (delaySlots p)
    c.turnBack m.inPort { m.block with payload := [trunc 16 p + (c.preg .APORT_DELAY_SLOTS m.port) <<< 16] }

/-- The partner on a measured port returns an echo block with its turnaround time (R101); a disabled port passes none (R102). -/
def echoBlock (c : AC) (p turnaround : Nat) : AC :=
  if (c.port p).disabled then c else c.emit (.echo c.u p turnaround)

/-! DEMAND at the endpoint (R173, R175) -/

/-- DEMAND goes to the zone's partition as a request. -/
def demandSend (c : AC) (body : List Nat) : AC := c.ask (c.reg .AIDENT_PARTITION_FID) 0x40 body

/-- DEMAND_ACK ends the request, and the runtime learns its status. -/
def demandAck (c : AC) (tag status : Nat) (body : List Nat) : AC :=
  let c := c.mod fun a => { a with requests := a.requests.filter fun x => x.msg.tag ≠ tag }
  c.emit (.runtime c.u "demand" ([tag, status] ++ body))

end AC

end Sys2Proof.Machine
end

