-- ==== Sys2Proof/Machine/TraceOps.lean ====
section
/-! DEFINITION. Trace streams (R392 to R398): the record layout of R394, staging and rings, drop runs, quotas and triggers. -/

namespace Sys2Proof.Machine

open Sys2Proof

/-- A 16-byte record of R394; `rest` is bytes 0x08 to 0x0F as one number. -/
def traceRec (time kind unit part rest : Nat) : List Nat :=
  bytesOf 8 (trunc 44 time + (kind % 16) <<< 44 + (unit % 1024) <<< 48 + (part % 16) <<< 58) ++ bytesOf 8 rest

/-- Bytes 0x08 to 0x0F of BEGIN, END, TRIGGER and MARKER. -/
def traceTail (opcode second job layer op : Nat) : Nat :=
  opcode % 256 + (second % 256) <<< 8 + (job % 65536) <<< 16 + (layer % 65536) <<< 32 + (op % 65536) <<< 48

namespace Stream

/-- Puts bytes into the ring: STOP_FULL stops the stream when the capacity is used, the other modes keep the newest (R395). -/
def toRing (s : Stream) (capture : Nat) (b : List Nat) : Stream :=
  if capture = 0 then
    let w := s.written + b.length
    if w ≤ s.cap then { s with ring := s.ring ++ [(s.written, b)], written := w, stopped := s.stopped || w = s.cap }
    else { s with stopped := true }
  else
    let w := s.written + b.length
    { s with ring := (s.ring ++ [(s.written, b)]).filter fun e => w ≤ e.1 + s.cap, written := w }

/-- Moves staged records to the ring while the credit lasts. -/
def drainList (s : Stream) (capture : Nat) : List (Bool × List Nat) → Stream
  | [] => { s with stage := [], credit := 0 }
  | (m, b) :: r =>
    if b.length ≤ s.credit then drainList ({ s with credit := s.credit - b.length }.toRing capture b) capture r
    else { s with stage := (m, b) :: r }

/-- Drains the staging area up to `now` at `rate` sixteenths of a byte per tick (R397). -/
def drain (s : Stream) (capture rate now : Nat) : Stream :=
  let got := (now - s.drainAt) * rate / 16
  drainList { s with drainAt := now, credit := s.credit + got } capture s.stage

/-- Bytes of ordinary records, or of markers, in the staging area. -/
def staged (s : Stream) (marker : Bool) : Nat := ((s.stage.filter fun e => e.1 = marker).map fun e => e.2.length).sum

/-- Accepts one record: to the ring where there is no staging, else to the staging area or its reserve. The number is 1 where
the record was written, 0 where it was dropped. -/
def accept (s : Stream) (capture now : Nat) (marker : Bool) (b : List Nat) : Stream × Nat :=
  if s.stageCap = 0 then (s.toRing capture b, 1)
  else if marker then
    if s.staged true + b.length ≤ 1024 then ({ s with stage := s.stage ++ [(true, b)] }, 1)
    else ({ s with lostMarkers := s.lostMarkers + 1 }, 0)
  else
    match s.run with
    | some (n, t) => ({ s with run := some (n + 1, t) }, 0)
    | none =>
      if s.staged false + b.length ≤ s.stageCap then ({ s with stage := s.stage ++ [(false, b)] }, 1)
      else ({ s with run := some (1, now) }, 0)

end Stream

namespace Chip

/-- A stream of a partition: true for the native one. -/
def stream (c : Chip) (p : Nat) (nat : Bool) : Stream := if nat then (c.part p).trace.nat else (c.part p).trace.cmp
/-- Sets a stream. -/
def setStream (c : Chip) (p : Nat) (nat : Bool) (s : Stream) : Chip :=
  c.modPart p fun x => { x with trace := if nat then { x.trace with nat := s } else { x.trace with cmp := s } }

/-- The drain rate of a stream in sixteenths of a byte per tick: TRACE_BW shared in proportion to the streams' shares. -/
def drainRate (c : Chip) (p : Nat) (nat : Bool) : Nat :=
  let share := c.reg .TRACE_NATIVE_SHARE p
  let bw := c.reg .TRACE_TRACE_BW p
  match c.reg .TRACE_TRACE_MODE p with
  | 3 => bw * (if nat then share else 16 - share)
  | _ => 16 * bw

/-- CAPTURE, with 3 taken as 2 (R406). -/
def captureMode (c : Chip) (p : Nat) : Nat := min 2 (c.reg .TRACE_CAPTURE p)

/-- Publishes a stream's ring offsets, and counts the bytes that reached the spill region. -/
def publish (c : Chip) (p : Nat) (nat : Bool) (before : Nat) : Chip :=
  let s := c.stream p nat
  let first := match s.ring.head? with | some e => e.1 | none => s.written
  let wrap := fun n => if s.cap = 0 then 0 else n % s.cap
  let c :=
    if nat then (c.setReg .TRACE_NAT_FIRST p 0 (wrap first)).setReg .TRACE_NAT_NEXT p 0 (wrap s.written)
    else (c.setReg .TRACE_CMP_FIRST p 0 (wrap first)).setReg .TRACE_CMP_NEXT p 0 (wrap s.written)
  if s.stageCap = 0 then c else c.countN .TRACE_SPILL_BYTES p (s.written - before)

/-- Drains a stream's staging up to now. -/
def drainStream (c : Chip) (p : Nat) (nat : Bool) : Chip :=
  let s := c.stream p nat
  if s.stageCap = 0 then c
  else (c.setStream p nat (s.drain (c.captureMode p) (c.drainRate p nat) c.now)).publish p nat s.written

/-- Puts one record into a stream and counts it. -/
def putRaw (c : Chip) (p : Nat) (nat marker : Bool) (b : List Nat) : Chip :=
  let s := c.stream p nat
  let r := s.accept (c.captureMode p) c.now marker b
  let kept : Bool := s.stageCap ≠ 0 || s.written < r.1.written
  let c := (c.setStream p nat { r.1 with sinceBase := r.1.sinceBase + r.2, high := c.now >>> 44 }).publish p nat s.written
  if r.2 = 1 ∧ kept then
    if nat then c.countN .TRACE_NATIVE_BYTES p b.length else c.count .TRACE_RECORDS p
  else if r.2 = 0 ∧ !marker then c.count .TRACE_DROPPED_RECORDS p
  else c

/-- A TIMEBASE record. -/
def timebase (c : Chip) (p : Nat) (nat : Bool) : Chip :=
  let c := c.putRaw p nat true (traceRec c.now 2 0 p c.now)
  let s := c.stream p nat
  c.setStream p nat { s with sinceBase := 0, high := c.now >>> 44 }

/-- One record of a running stream, a TIMEBASE before it where R394 asks for one. An ordinary record uses up the quota whether
it was written or dropped, and a CENTRED stream stops when the quota is used (R395). -/
def putRecord (c : Chip) (p : Nat) (nat marker : Bool) (b : List Nat) : Chip :=
  let s := c.stream p nat
  if !s.on || s.stopped || (c.part p).trace.suspended != 0 then c
  else
    let c := c.drainStream p nat
    let s := c.stream p nat
    let c := if s.high ≠ c.now >>> 44 ∨ 65536 ≤ s.sinceBase then c.timebase p nat else c
    let c := c.putRaw p nat marker b
    let s := c.stream p nat
    match s.quota with
    | some q =>
      if marker then c
      else if b.length < q then c.setStream p nat { s with quota := some (q - b.length) }
      else
        let c := c.putRaw p nat true (traceRec c.now 6 0 p (traceTail 7 0 0 0 0))
        let s := c.stream p nat
        c.setStream p nat { s with quota := some 0, stopped := true }
    | none => c

/-- A marker to every enabled stream. -/
def traceMarker (c : Chip) (p kind unit rest : Nat) : Chip :=
  let b := traceRec c.now kind unit p rest
  (c.putRecord p true true b).putRecord p false true b

/-- Ends a drop run of a stream with its DROP record, then a TIMEBASE (R394, R397). -/
def endDrop (c : Chip) (p : Nat) (nat : Bool) : Chip :=
  let s := c.stream p nat
  match s.run with
  | none => c
  | some (n, t) =>
    let rest := min (n + s.lostMarkers) (2 ^ 32 - 1) + (bits t 41 10) <<< 32
    let c := c.setStream p nat { s with run := none, lostMarkers := 0 }
    let c := (c.putRaw p nat true (traceRec c.now 4 0 p rest)).count .TRACE_DROP_MARKERS p
    c.timebase p nat

/-- The trigger's part in one stream: DROP first, then TRIGGER; in CENTRED mode the quota is set (R395, R397). -/
def triggerStream (c : Chip) (p : Nat) (nat : Bool) (tail : Nat) : Chip :=
  let s := c.stream p nat
  if !s.on || s.stopped then c
  else
    let c := (c.drainStream p nat).endDrop p nat
    let c := c.putRecord p nat true (traceRec c.now 5 0 p tail)
    let s := c.stream p nat
    if c.captureMode p = 2 then
      let q := s.cap * (100 - c.reg .TRACE_TRIG_POS p) / 100 / 16 * 16
      let c := if q = 0 then c.putRaw p nat true (traceRec c.now 6 0 p (traceTail 7 0 0 0 0)) else c
      c.setStream p nat { c.stream p nat with quota := some q, stopped := q = 0 }
    else c

/-- Capture is suspended for one more reason (R398): 1 a confidential context, 2 the 45 mV stage. The first reason writes the
MARKER, and STATE reads 4 where a capture runs. -/
def suspend (c : Chip) (p why : Nat) : Chip :=
  let t := (c.part p).trace
  let c := if t.suspended = 0 then c.traceMarker p 6 0 (traceTail (2 * why) 0 0 0 0) else c
  let st := c.reg .TRACE_STATE p
  let c := c.modPart p fun s => { s with trace := { s.trace with
    suspended := s.trace.suspended ||| why,
    suspendedAt := if t.suspended = 0 then some c.now else s.trace.suspendedAt,
    before := if t.suspended = 0 then st else s.trace.before } }
  if t.suspended = 0 ∧ (st = 1 ∨ st = 2) then c.setReg .TRACE_STATE p 0 4 else c

/-- A reason for the suspension ends; with the last, capture goes on with a MARKER that carries the suspension in µs. -/
def unsuspend (c : Chip) (p why : Nat) : Chip :=
  let t := (c.part p).trace
  if t.suspended &&& why = 0 then c
  else
    let left := t.suspended - (t.suspended &&& why)
    let c := c.modPart p fun s => { s with trace := { s.trace with suspended := left } }
    if left ≠ 0 then c
    else
      let us := trunc 48 ((c.now - t.suspendedAt.getD c.now) / 1000)
      let c := if c.reg .TRACE_STATE p = 4 then c.setReg .TRACE_STATE p 0 t.before else c
      c.traceMarker p 6 0 (2 * why + 1 + us <<< 16)

/-- A trigger from a source (R396), without the Hen event that reports it; true where it was taken. -/
def triggerCore (c : Chip) (p src job layer op : Nat) : Chip × Bool :=
  if !bit (c.reg .TRACE_TRIG_SRC p) src then (c, false)
  else
    match c.reg .TRACE_STATE p with
    | 1 =>
      let tail := traceTail src 0 job layer op
      let c := (c.triggerStream p true tail).triggerStream p false tail
      let c := ((c.count .TRACE_TRIGGERS p).setReg .TRACE_TRIG_AT p 0 c.now).setReg .TRACE_STATE p 0 2
      let c := if bit (c.reg .TRACE_TRIG_SRC p) 8 && src != 1 then c.emit (.board "cross-trigger" [p]) else c
      (c, true)
    | 2 | 4 => (c.count .TRACE_TRIGGERS_IGNORED p, false)
    | _ => (c, false)

end Chip

end Sys2Proof.Machine
end

