-- ==== Sys2Proof/Machine/HenOps.lean ====
section
/-! DEFINITION. The Hen recorder (R429 to R436): records, merging, the two areas, flushes, and the capture triggers that a record
sets off (R396). -/

namespace Sys2Proof.Machine

open Sys2Proof

/-- Units of 32 bytes in the circulating area (R429). -/
def henUnits : Nat := 258048
/-- Units that a record takes (R430). -/
def HenRec.units : HenRec → Nat
  | .fixed _ => 1
  | .var _ _ _ _ _ _ body => 1 + ceilDiv body.length 32

/-- A fixed record's 32 bytes (R430). -/
def FixedRec.bytes (r : FixedRec) : List Nat :=
  bytesOf 2 r.code ++ [ofBool r.kept + 2 * ofBool r.hidden + 4 * ofBool r.lostBefore, r.part % 256] ++ bytesOf 8 r.time
    ++ (List.range 4).flatMap (fun i => bytesOf 4 (r.p.getD i 0)) ++ bytesOf 4 r.rep

/-- A record's bytes. -/
def HenRec.bytes : HenRec → List Nat
  | .fixed r => r.bytes
  | .var code part time seq hidden lost body =>
    bytesOf 2 code ++ [2 * ofBool hidden + 4 * ofBool lost + 128, part % 256] ++ bytesOf 8 time ++ bytesOf 4 body.length
      ++ bytesOf 4 seq ++ bytesOf 4 (crc32c body) ++ List.replicate 8 0
      ++ body ++ List.replicate (32 * ceilDiv body.length 32 - body.length) 0

/-- The later of two records of a partition merges into this one (R432): equal code, parameters and flags, within the window. -/
def FixedRec.takes (r : FixedRec) (code now window : Nat) (p : List Nat) (hidden : Bool) : Bool :=
  r.code = code && r.p = p && r.hidden = hidden && now ≤ r.last + window

/-- The record with one more occurrence merged. -/
def FixedRec.merged (r : FixedRec) (now : Nat) : FixedRec := { r with rep := min (r.rep + 1) (2 ^ 32 - 1), last := now }

namespace Chip

/-- Changes the recorder. -/
def modHen (c : Chip) (f : Hen → Hen) : Chip := { c with hen := f c.hen }

/-- Publishes NEXT, OLDEST and KEPT_USED. -/
def henPublish (c : Chip) (next : Nat) : Chip :=
  let oldest := match c.hen.ring.head? with | some e => e.1 | none => next
  ((c.setReg .HEN_NEXT 0 0 next).setReg .HEN_OLDEST 0 0 oldest).setReg .HEN_KEPT_USED 0 0 c.hen.kept.length

/-- The records that must go to make room: the oldest until `n` units are free. -/
def henDrop (free n : Nat) : List (Nat × HenRec) → List (Nat × HenRec)
  | [] => []
  | e :: r => if n ≤ free then e :: r else henDrop (free + e.2.units) n r

/-- Units free in the circulating area. -/
def henFree (c : Chip) : Nat := henUnits - (c.hen.ring.map fun e => e.2.units).sum

/-- Units of the extent of a flush (R433). -/
def extentUnits (f : Flush) : Nat := if f.full then henUnits else (f.next + henUnits - f.oldest % henUnits) % henUnits
/-- A unit of the ring lies in the extent of a flush. -/
def inExtent (f : Flush) (u : Nat) : Bool := decide ((u + henUnits - f.oldest % henUnits) % henUnits < extentUnits f)

/-- The record would overwrite ring bytes that the flush under way has not written yet: its extent, newest first, is written whole when it ends
(R435). -/
def henBlocked (c : Chip) (x : HenRec) : Bool :=
  match c.hen.flush with
  | none => false
  | some f => (c.hen.ring.take (c.hen.ring.length - (henDrop c.henFree x.units c.hen.ring).length)).any fun e => inExtent f e.1

/-- Stores a record in the circulating area. During a flush one that would overwrite bytes not yet flushed is dropped (R435). -/
def henRing (c : Chip) (x : HenRec) : Chip :=
  if c.henBlocked x then c.count .HEN_LOST_FLUSH
  else
    let next := c.reg .HEN_NEXT
    let keep := henDrop c.henFree x.units c.hen.ring
    let c := (c.modHen fun h => { h with ring := keep ++ [(next, x)] }).henPublish ((next + x.units) % henUnits)
    match x with
    | .fixed _ => c.count .HEN_RECORDS_FIXED
    | .var .. => (c.modHen fun h => { h with varSeq := h.varSeq + 1 }).count .HEN_RECORDS_VAR

/-- Takes records off the input queue at 64 a microsecond up to now (R429). -/
def henTake (c : Chip) : Chip :=
  let us := c.now / 1000
  c.modHen fun h => { h with queue := h.queue.drop (64 * (us - h.queueAt)), queueAt := us }

/-- The newest fixed record of a partition field, in either area: its place counted in the ring, or in the kept area. -/
def henNewest (c : Chip) (part : Nat) : Option FixedRec :=
  let inRing := c.hen.ring.reverse.findSome? fun e =>
    match e.2 with | .fixed r => if r.part = part then some r else none | .var .. => none
  match inRing with
  | some r => some r
  | none => c.hen.kept.reverse.find? fun r => r.part = part

/-- Replaces a fixed record in place. -/
def henReplace (c : Chip) (old new : FixedRec) : Chip :=
  c.modHen fun h => { h with
    kept := mapIf (· = old) (fun _ => new) h.kept,
    ring := mapIf (fun e => e.2 = .fixed old) (fun e => (e.1, .fixed new)) h.ring }

/-- A fixed record arrives from a source (R429 to R432). -/
def henFixed (c : Chip) (src code part : Nat) (params : List Nat) (hidden : Bool) : Chip :=
  let c := c.henTake
  let ps := if hidden then [0, 0, 0, 0] else ((params ++ [0, 0, 0, 0]).take 4).map (trunc 32)
  if 256 ≤ (c.hen.queue.filter (· = src)).length then
    (c.count .HEN_LOST).modHen fun h => { h with lossy := addOnce h.lossy src, lostSince := h.lostSince + 1 }
  else
    let c := c.modHen fun h => { h with queue := h.queue ++ [src] }
    let window := c.reg .HEN_FLOOD_WINDOW * 1000
    let fresh : FixedRec := { code := code, part := part, hidden := hidden, lostBefore := src ∈ c.hen.lossy, time := c.now,
                              p := ps, last := c.now }
    match c.henNewest part with
    | some r =>
      if r.takes code c.now window ps hidden then (c.henReplace r (r.merged c.now)).count .HEN_REPEATS
      else store c src fresh
    | none => store c src fresh
where
  /-- A record that is not merged: into the kept area while it has room, else into the circulating area. -/
  store (c : Chip) (src : Nat) (r : FixedRec) : Chip :=
    let c := c.modHen fun h => { h with lossy := h.lossy.erase src }
    if c.hen.kept.length < 4096 then
      ((c.modHen fun h => { h with kept := h.kept ++ [{ r with kept := true }] }).henPublish (c.reg .HEN_NEXT)).count
        .HEN_RECORDS_FIXED
    else c.henRing (.fixed r)

/-- A variable record arrives whole (R429, R430). SEQ counts the records written, itself among them; the first record after a loss of its
source says so. -/
def henVar (c : Chip) (src code part : Nat) (hidden : Bool) (body : List Nat) : Chip :=
  let lost : Bool := decide (src ∈ c.hen.lossy)
  (c.modHen fun h => { h with lossy := h.lossy.erase src }).henRing
    (.var code part c.now (trunc 32 (c.hen.varSeq + 1)) hidden lost (body.take 262144))

/-- A partition's record, hidden or not, and the capture trigger that its code sets off (R396). -/
def henPart (c : Chip) (p code : Nat) (params : List Nat) (hidden : Bool := false) : Chip :=
  let c := c.henFixed p code p params hidden
  if bit (c.reg .TRACE_TRIG_SRC p) 3 && c.reg .TRACE_TRIG_CODE p == code then
    let r := c.triggerCore p 3 0 0 0
    if r.2 then r.1.henFixed p 0x1802 p [3] false else r.1
  else c

/-- A record of the host-side complex: source 16 or 17 an H-die, 18 the S-die, 19 the T-die; PARTITION 0xFF. -/
def henDev (c : Chip) (code : Nat) (params : List Nat) (src : Nat := 19) : Chip := c.henFixed src code 0xFF params false

/-- A partition's record about a context's work: the parameters are zero for a confidential context (R313). -/
def henCtx (c : Chip) (x p code : Nat) (params : List Nat) : Chip := c.henPart p code params (x < 64 && c.isConf x)

/-- A trigger with the Hen event that reports it (R396, R406). -/
def trigger (c : Chip) (p src : Nat) (job layer op : Nat := 0) : Chip :=
  let r := c.triggerCore p src job layer op
  if r.2 then r.1.henPart p 0x1802 [src] else r.1

/-! Flush (R433 to R435) -/

/-- The host port a flush goes to: its link up with Bus Master Enable and the buffer long enough (R433). -/
def flushPort (c : Chip) : Option Nat :=
  let ok := fun port => c.reg .HOSTPORT_LINK_UP port == 1 && (c.hostPort port).busMaster
  let want := match c.reg .DEVICE_HOST_CFG with
    | 0 => [0]
    | 1 => [1]
    | 2 => [c.reg .DEVICE_ACTIVE_PORT]
    | _ => [0, 1]
  if 0x801000 ≤ c.reg .HEN_HOST_BUF_LEN then want.find? ok else none

/-- The flush header of R434, 64 bytes with its CRC. -/
def flushHeader (c : Chip) (f : FlushImage) (dest : Nat) : List Nat :=
  let h := bytesOf 4 0x464E4548 ++ bytesOf 2 1
    ++ [f.reason % 256, ofBool f.done + 2 * dest + 4 * ofBool f.truncated]
    ++ bytesOf 4 f.seq ++ bytesOf 2 f.blocks ++ bytesOf 2 f.kept ++ bytesOf 8 f.start ++ bytesOf 8 f.stop ++ bytesOf 4 f.next
    ++ bytesOf 4 f.oldest ++ bytesOf 4 f.lost ++ bytesOf 4 f.truncBytes ++ [c.clusterIndex % 256] ++ List.replicate 11 0
  h ++ bytesOf 4 (crc32c h)

/-- The MRAM slot that a flush writes (R435): the one whose image has the lower FLUSH_SEQ, or one with no good header. -/
def flushSlot (c : Chip) : Nat :=
  match c.mram.slot0, c.mram.slot1 with
  | none, _ => 0
  | _, none => 1
  | some a, some b => if b.seq < a.seq then 1 else 0

/-- Puts an image into an MRAM slot. -/
def setSlot (c : Chip) (k : Nat) (f : FlushImage) : Chip :=
  { c with mram := if k = 0 then { c.mram with slot0 := some f } else { c.mram with slot1 := some f } }

/-- A flush begins: event 0x0405, the extent, from `from_` on where it follows another, and the header with DONE clear. Reasons 3 and 6 never go
to MRAM. -/
def flushBegin (c : Chip) (reason : Nat) (from_ : Option Nat) : Chip :=
  let dest := c.flushPort
  if dest.isNone && (reason = 3 || reason = 6) then c
  else
    let d := if dest.isSome then 0 else 1
    let seq := trunc 32 (c.reg .HEN_FLUSH_SEQ + 1)
    let c := c.henDev 0x0405 [reason, d, seq]
    let slot := c.flushSlot
    let f : Flush := { reason := reason, dest := d, port := if d = 0 then dest.getD 0 else slot, seq := seq, start := c.now,
                       next := c.reg .HEN_NEXT, oldest := from_.getD (c.reg .HEN_OLDEST)
                       full := from_.isNone && !c.hen.ring.isEmpty && c.reg .HEN_NEXT == c.reg .HEN_OLDEST }
    let c := c.modHen fun h => { h with flush := some f }
    let c := ((c.setReg .HEN_FLUSHING 0 0 1).setReg .HEN_LAST_REASON 0 0 reason).setReg .HEN_LAST_DEST 0 0 d
    let c := ((c.setReg .HEN_LAST_DONE 0 0 0).setReg .HEN_FLUSH_SEQ 0 0 seq).count .HEN_FLUSHES
    let img : FlushImage := { reason := reason, done := false, truncated := false, seq := seq, blocks := 0,
                              kept := c.hen.kept.length, start := c.now, stop := 0, next := f.next, oldest := f.oldest,
                              lost := c.hen.lostSince, truncBytes := 0, data := [] }
    if d = 0 then c.writeHost f.port (c.reg .HEN_HOST_BUF_ADDR) (c.flushHeader img 0) else c.setSlot slot img

/-- A flush trigger (R433): a trigger during a flush sets FLUSH_AGAIN. -/
def flushStart (c : Chip) (reason : Nat) : Chip :=
  if c.hen.flush.isSome then c.modHen fun h => { h with again := some reason } else c.flushBegin reason none

end Chip

end Sys2Proof.Machine
end

