-- ==== Sys2Proof/Machine/Queue.lean ====
section
/-! DEFINITION. Command queues (R349 to R354): the ring registers, fetching, starting and completing commands, timeout codes. -/

namespace Sys2Proof

/-- The ring registers of a queue (R141, R354). -/
inductive QField where
  | base | log2 | head | tail | cqBase | cqLog2 | cqTail | cqHead | enable | idle
  deriving DecidableEq, Repr

/-- The page of a queue. -/
def QId.page : QId → Page
  | .route _ => .ROUTE
  | .sched _ => .SCHED
  | .context _ => .CONTEXT
  | _ => .CTXQ

/-- The page instance of a queue. -/
def QId.inst : QId → Nat
  | .route p => p
  | .sched p => p
  | .context port => port
  | .compute x p => 16 * x + p
  | .mule x p => 16 * x + p
  | .core x p _ _ => 16 * x + p
  | .fw x p _ => 16 * x + p

/-- A number for each queue. -/
def QId.code : QId → Nat
  | .route p => p
  | .sched p => 16 + p
  | .context port => 32 + port
  | .compute x p => 64 + 16 * x + p
  | .mule x p => 2048 + 16 * x + p
  | .core x p k m => 4096 + 8 * (16 * x + p) + 2 * k + ofBool m
  | .fw x p job => (16384 + 16 * x + p) * 65536 + job

/-- The register of a ring field. -/
def QId.reg : QId → QField → Reg
  | .route _, .base => .ROUTE_Q_BASE | .route _, .log2 => .ROUTE_Q_LOG2 | .route _, .head => .ROUTE_Q_HEAD
  | .route _, .tail => .ROUTE_Q_TAIL | .route _, .cqBase => .ROUTE_CQ_BASE | .route _, .cqLog2 => .ROUTE_CQ_LOG2
  | .route _, .cqTail => .ROUTE_CQ_TAIL | .route _, .cqHead => .ROUTE_CQ_HEAD | .route _, .enable => .ROUTE_Q_ENABLE
  | .route _, .idle => .ROUTE_Q_IDLE
  | .sched _, .base => .SCHED_Q_BASE | .sched _, .log2 => .SCHED_Q_LOG2 | .sched _, .head => .SCHED_Q_HEAD
  | .sched _, .tail => .SCHED_Q_TAIL | .sched _, .cqBase => .SCHED_CQ_BASE | .sched _, .cqLog2 => .SCHED_CQ_LOG2
  | .sched _, .cqTail => .SCHED_CQ_TAIL | .sched _, .cqHead => .SCHED_CQ_HEAD | .sched _, .enable => .SCHED_Q_ENABLE
  | .sched _, .idle => .SCHED_Q_IDLE
  | .context _, .base => .CONTEXT_Q_BASE | .context _, .log2 => .CONTEXT_Q_LOG2 | .context _, .head => .CONTEXT_Q_HEAD
  | .context _, .tail => .CONTEXT_Q_TAIL | .context _, .cqBase => .CONTEXT_CQ_BASE
  | .context _, .cqLog2 => .CONTEXT_CQ_LOG2 | .context _, .cqTail => .CONTEXT_CQ_TAIL
  | .context _, .cqHead => .CONTEXT_CQ_HEAD | .context _, .enable => .CONTEXT_Q_ENABLE
  | .context _, .idle => .CONTEXT_Q_IDLE
  | .mule _ _, .base => .CTXQ_M_Q_BASE | .mule _ _, .log2 => .CTXQ_M_Q_LOG2 | .mule _ _, .head => .CTXQ_M_Q_HEAD
  | .mule _ _, .tail => .CTXQ_M_Q_TAIL | .mule _ _, .cqBase => .CTXQ_M_CQ_BASE | .mule _ _, .cqLog2 => .CTXQ_M_CQ_LOG2
  | .mule _ _, .cqTail => .CTXQ_M_CQ_TAIL | .mule _ _, .cqHead => .CTXQ_M_CQ_HEAD
  | .mule _ _, .enable => .CTXQ_M_Q_ENABLE | .mule _ _, .idle => .CTXQ_M_Q_IDLE
  | _, .base => .CTXQ_Q_BASE | _, .log2 => .CTXQ_Q_LOG2 | _, .head => .CTXQ_Q_HEAD
  | _, .tail => .CTXQ_Q_TAIL | _, .cqBase => .CTXQ_CQ_BASE
  | _, .cqLog2 => .CTXQ_CQ_LOG2 | _, .cqTail => .CTXQ_CQ_TAIL
  | _, .cqHead => .CTXQ_CQ_HEAD | _, .enable => .CTXQ_Q_ENABLE
  | _, .idle => .CTXQ_Q_IDLE

/-- The context of a compute or Mule queue; 64 for the others. -/
def QId.ctx : QId → Nat
  | .compute x _ => x
  | .mule x _ => x
  | .core x _ _ _ => x
  | .fw x _ _ => x
  | _ => 64

/-- The partition of a queue; the context queue belongs to none. -/
def QId.part : QId → Option Nat
  | .route p => some p
  | .sched p => some p
  | .context _ => none
  | .compute _ p => some p
  | .mule _ p => some p
  | .core _ p _ _ => some p
  | .fw _ p _ => some p

/-- How many descriptors a queue fetches ahead of execution (R352). -/
def QId.ahead : QId → Nat
  | .compute _ _ => 16
  | .mule _ _ => 8
  | _ => 1

/-- Only compute and Mule queues and streams use timeout codes (R349). -/
def QId.timed : QId → Bool
  | .compute _ _ => true
  | .mule _ _ => true
  | .core .. => true
  | _ => false

/-- The queue has rings of its own in host memory or a window. -/
def QId.ringed : QId → Bool
  | .core .. => false
  | .fw .. => false
  | _ => true

/-- The command goes to the Mules, not to the cluster. -/
def QId.toMule : QId → Bool
  | .mule .. => true
  | .core _ _ _ m => m
  | _ => false

end Sys2Proof

namespace Sys2Proof.Machine

open Sys2Proof

/-- A descriptor from its 64 bytes (R350). -/
def descOf (b : List Nat) : Desc :=
  let g := fun off n => ofBytes ((b.drop off).take n)
  { opcode := g 0 1, flags := g 1 1, ctx := g 2 1, tag := g 4 4, job := g 8 2, layer := g 10 2, operator := g 12 2,
    timeout := g 14 1, ops := g 16 48 }

/-- The limit of a timeout code in ticks (R351). -/
def timeoutTicks (t : Nat) : Nat := (t % 16 + 1) * 2 ^ (10 + 2 * (t / 16))

namespace Chip

/-- A ring register. -/
def q (c : Chip) (i : QId) (f : QField) : Nat := c.reg (i.reg f) i.inst
/-- Sets a ring register. -/
def setQ (c : Chip) (i : QId) (f : QField) (v : Nat) : Chip :=
  if i.ringed then c.setReg (i.reg f) i.inst 0 v else c

/-- The host port whose memory holds a queue's rings. -/
def queuePort (c : Chip) : QId → Nat
  | .route p => c.ownerPort p
  | .sched p => c.ownerPort p
  | .context port => port
  | i => (c.ctx i.ctx).port

/-- The descriptor ring is the queue window (R354). -/
def windowed (c : Chip) : QId → Bool
  | .compute x p => c.reg .CTXQ_Q_WINDOW (16 * x + p) == 1
  | .mule x p => c.reg .CTXQ_M_Q_WINDOW (16 * x + p) == 1
  | _ => false

/-- Ring size: a log outside 6 to 16 gives a free one (R362); in a window at most 512. -/
def ringSize (c : Chip) (i : QId) : Nat :=
  let l := c.q i .log2
  let l := if l < 6 ∨ 16 < l then 6 + c.freeVal 16 % 11 else l
  2 ^ (if c.windowed i then min l 9 else l)

/-- Completion ring size. -/
def cqSize (c : Chip) (i : QId) : Nat :=
  let l := c.q i .cqLog2
  2 ^ (if l < 6 ∨ 16 < l then 6 + c.freeVal 16 % 11 else l)

/-- The phase that the next record carries: 1 until the first wrap (R353). -/
def phaseOf (c : Chip) (i : QId) : Nat := 1 - SMap.get 0 c.phase i.code

/-- A window's slot bytes lie in host memory keys of a third space, 65,536 bytes a window (R354). -/
def windowKey (i : QId) : Nat := i.code * 65536

/-- The 64 bytes of descriptor slot `n`: in the window or in the host's ring. -/
def slotBytes (c : Chip) (i : QId) (n : Nat) : List Nat :=
  if c.windowed i then c.hostBytes 2 (windowKey i + 64 * n) 64
  else c.hostBytes (c.queuePort i) (c.q i .base + 64 * n) 64

/-- Commands of a queue that were fetched and have not completed, in fetch order. -/
def cmdsOf (c : Chip) (i : QId) : List Cmd := c.cmds.filter fun x => x.q = i

/-- The context's teardown has begun in a partition (R329). -/
def leaving (c : Chip) (x p : Nat) : Bool :=
  (c.ctx x).state == 3 || (match (c.ctx x).teardown with | some t => t.mask.contains p | none => false)
/-- From REVOKE on the windows of a context's block in a partition read all ones and take no writes (R329). -/
def windowsShut (c : Chip) (x p : Nat) : Bool := c.leaving x p && 3 ≤ (c.ctx x).stage

/-- The supply stage of a partition's die; PF_HOLD acts as stage 5 on every die (R442, R463). -/
def stageOf (c : Chip) (p : Nat) : Nat :=
  let s := c.reg .POWER_STAGE 0 (p / 4)
  if c.reg .POWER_PF_HOLD = 1 then max 5 s else s

/-- A queue may not work: its partition is in bypass or at stage 5, or the G9 is out of service (R26, R425, R456). -/
def queueHeld (c : Chip) (i : QId) : Bool :=
  match i.part with
  | some p => c.bypassed p || 5 ≤ c.stageOf p
  | none => false

/-- The number of the first command that a debug halt of a context in a partition keeps from starting (R400). -/
def haltSeq (c : Chip) (x p : Nat) : Option Nat :=
  ((c.part p).halts.filter fun e => e.2.1 = x).foldl (fun m e => some (match m with | some k => min k e.2.2 | none => e.2.2)) none

/-- The queue of a context that a debug halt stops (R400). -/
def queueHalted (c : Chip) (i : QId) : Bool :=
  match i.part with
  | some p => i.timed && (c.haltSeq i.ctx p).isSome
  | none => false

/-- The queue is stopped for a reason beside Q_ENABLE: the partition is not in service or is held, or the context is not resident or is
in teardown (R26, R309, R329, R456). -/
def queueBlocked (c : Chip) (i : QId) : Bool :=
  let noCtx := match i with
    | .compute x p | .mule x p | .core x p _ _ | .fw x p _ => (SMap.find? (c.ctx x).shares p).isNone || c.leaving x p
    | _ => false
  c.queueHeld i || noCtx

/-- A completion ring has room for every fetched command's record and one more. -/
def cqRoom (c : Chip) (i : QId) : Bool :=
  let size := c.cqSize i
  let unread := (c.q i .cqTail + size - c.q i .cqHead % size) % size
  unread + (c.cmdsOf i).length + 1 < size

/-- The queue may fetch one descriptor now (R352). -/
def mayFetch (c : Chip) (i : QId) : Bool :=
  i.ringed && c.q i .enable == 1 && !c.queueBlocked i && !c.queueHalted i && c.q i .head != c.q i .tail && c.cqRoom i
    && ((c.cmdsOf i).filter fun x => x.started.isNone).length < i.ahead

/-- Fetches one descriptor: Q_HEAD advances, and on a context's queue CTX is replaced (R350, R352). -/
def fetchOne (c : Chip) (i : QId) : Chip :=
  let n := c.q i .head
  let d := descOf (c.slotBytes i n)
  let d : Desc := match i with | .compute x _ | .mule x _ => { d with ctx := x } | _ => d
  let x : Cmd := { q := i, d := d, seq := c.cmdSeq, fetched := c.now, port := some (c.queuePort i) }
  let c := { c with cmds := c.cmds ++ [x], cmdSeq := c.cmdSeq + 1 }
  (c.setQ i .head ((n + 1) % c.ringSize i)).setQ i .idle 0

/-- Fetches up to `n` descriptors. -/
def fetch (c : Chip) (i : QId) : Nat → Chip
  | 0 => c
  | n + 1 => if c.mayFetch i then fetch (c.fetchOne i) i n else c

/-- A command with a BARRIER must wait: an earlier command of its queue, or of the context's other queue in the partition fetched
before it, has not completed (R350). So must a command behind an image command (R276). -/
def barred (c : Chip) (x : Cmd) : Bool :=
  (bit x.d.flags 1 && c.cmds.any fun y =>
    y.seq < x.seq && (y.q = x.q || (x.q.timed && y.q.timed && y.q.ctx = x.q.ctx && y.q.part = x.q.part)))
    || (x.q.timed && c.cmds.any fun y => y.seq < x.seq && y.q = x.q && 0x80 ≤ y.d.opcode && y.d.opcode ≤ 0x83)

/-- A command may not start: a BARRIER holds it, it came after a debug halt of its context, or a core reset has given it up (R350, R400,
R417). -/
def kept (c : Chip) (x : Cmd) : Bool :=
  let halted : Bool := match x.q.part with
    | some p => x.q.timed && (match c.haltSeq x.q.ctx p with | some k => decide (k ≤ x.seq) | none => false)
    | none => false
  c.barred x || halted || (match x.abortAt with | some t => decide (t ≤ c.now) | none => false)

/-- The command of a queue with a TAG. -/
def cmdOf (c : Chip) (i : QId) (tag : Nat) : Option Cmd := c.cmds.find? fun x => x.q = i && x.d.tag = tag

/-- The OPCODE and the executed CTX of a queue's command, for its record. -/
def recordBytes (c : Chip) (i : QId) (d : Desc) (status detail : Nat) : List Nat :=
  bytesOf 4 d.tag ++ [status % 256, c.phaseOf i, d.opcode % 256, d.ctx % 256] ++ bytesOf 4 detail ++ bytesOf 4 (bits c.now 41 10)

/-- A command starts: the fetched one with its TAG is marked; one that nothing fetched is taken as fetched now. -/
def start (c : Chip) (i : QId) (d : Desc) : Chip :=
  match c.cmdOf i d.tag with
  | some x => { c with cmds := mapIf (fun y => y.seq = x.seq) (fun y => { y with started := some c.now }) c.cmds }
  | none =>
    let x : Cmd := { q := i, d := d, seq := c.cmdSeq, fetched := c.now, started := some c.now, port := some (c.queuePort i) }
    ({ c with cmds := c.cmds ++ [x], cmdSeq := c.cmdSeq + 1 }).setQ i .idle 0

/-- The port that a command's record goes to: the one it was fetched through (R358). -/
def recordPort (c : Chip) (i : QId) (tag : Nat) : Nat :=
  match c.cmdOf i tag with
  | some x => x.port.getD (c.queuePort i)
  | none => c.queuePort i

/-- Counts of a context's completed commands (R354). -/
def countDone (c : Chip) (i : QId) (status : Nat) : Chip :=
  match i with
  | .compute x p =>
    let c := c.countFor x .CTXQ_COMPUTE_DONE (16 * x + p) 1
    if status = 1 then c.countFor x .CTXQ_CMD_TIMEOUTS (16 * x + p) 1 else c
  | .mule x p =>
    let c := c.countFor x .CTXQ_MULE_DONE (16 * x + p) 1
    if status = 1 then c.countFor x .CTXQ_CMD_TIMEOUTS (16 * x + p) 1 else c
  | _ => c

/-- The interrupt of a record with IRQ set (R350). -/
def raiseDone (c : Chip) (i : QId) (d : Desc) : Chip :=
  if bit d.flags 0 then
    match i with
    | .compute x p => c.raiseCtx x p 0
    | .mule x p => c.raiseCtx x p 1
    | _ => c.raise i.page i.inst 31
  else c

/-- Puts bytes at a user address of a program's DATA region; only payloads change (R365, R367). -/
def putData (c : Chip) (p first off : Nat) (b : List Nat) : Chip :=
  (List.range b.length).foldl (fun c j =>
    let n := first + (off + j) / 2048
    c.modPart p fun s =>
      let t : Tile := SMap.get {} s.tiles n
      { s with tiles := SMap.set {} s.tiles n { t with data := SMap.set 0 t.data ((off + j) % 2048) (b.getD j 0 % 256) } }) c

/-- A program's record goes to its ring in DATA (R369, R370, R372); that of a command that was outstanding when g9cq was written goes
anywhere in DATA. -/
def completeCore (c : Chip) (x p k seq : Nat) (bytes : Nat → List Nat) : Chip :=
  let g := SMap.get ({} : Prog) (c.part p).progs (4 * x + k)
  let size := 2 ^ g.log2
  let lost : Bool := decide (seq < g.stray)
  let c := (if lost then c.drawn else c).putData p g.data
    (if lost then c.freeVal 19 * 16 else (g.base + 16 * g.tail) % 0x800000) (bytes g.phase)
  let n := g.tail + 1
  let g := if n = size then { g with tail := 0, phase := 1 - g.phase } else { g with tail := n }
  c.modPart p fun s => { s with progs := SMap.set {} s.progs (4 * x + k) g }

/-- A forecaster command ends (R243): it counts for the job's latest invocation; with any status but OK the invocation has failed,
which is counted and logged, and none of the remaining commands is issued. -/
def completeFw (c : Chip) (x p job tag status : Nat) : Chip :=
  match (c.part p).jobs.find? fun j => j.job = job with
  | none => c
  | some j =>
    match j.inv.getLast? with
    | none => c
    | some v =>
      let bad : Bool := status ≠ 0 && !v.late
      let v' := { v with done := v.done + (if status = 0 then 1 else 0), failed := v.failed || bad }
      let c := c.modPart p fun s =>
        { s with jobs := s.jobs.map fun k => if k.job = job then { k with inv := k.inv.dropLast ++ [v'] } else k }
      if bad then
        let c := { c with cmds := c.cmds.filter fun y => !(y.q = QId.fw x p job && y.started.isNone) }
        (c.countFor x .LEARN_FC_FAILED p 1).henCtx x p 0x3501 [job, trunc 32 v.window, tag, status]
      else c

/-- Writes one completion record at CQ_TAIL, raises its interrupt, takes the command off and fetches on (R352, R353). -/
def completeDesc (c : Chip) (i : QId) (d : Desc) (status detail : Nat) : Chip :=
  let port := c.recordPort i d.tag
  let c :=
    if !i.ringed then
      (match i with
      | .core x p k _ => c.completeCore x p k (match c.cmdOf i d.tag with | some y => y.seq | none => c.cmdSeq) fun ph => listSet (c.recordBytes i d status detail) 5 ph
      | .fw x p job => c.completeFw x p job d.tag status
      | _ => c)
    else if c.recordLost port then c.count .HOSTPORT_CQ_LOST (c.reg .DEVICE_ACTIVE_PORT)
    else
      let n := c.q i .cqTail
      let size := c.cqSize i
      let c := c.writeHost port (c.q i .cqBase + 16 * n) (c.recordBytes i d status detail)
      let c := if n + 1 = size then { c with phase := SMap.set 0 c.phase i.code (1 - SMap.get 0 c.phase i.code) } else c
      (c.setQ i .cqTail ((n + 1) % size)).raiseDone i d
  let c := c.countDone i status
  let c := { c with cmds := match c.cmdOf i d.tag with
    | some x => c.cmds.filter fun y => y.seq ≠ x.seq
    | none => c.cmds }
  let c := if (c.cmdsOf i).isEmpty then c.setQ i .idle 1 else c
  c.fetch i i.ahead

/-- Completes the command of a queue that a TAG names; nothing where it is not there. -/
def complete (c : Chip) (i : QId) (tag status : Nat) (detail : Nat := 0) : Chip :=
  match c.cmdOf i tag with
  | some x => c.completeDesc i x.d status detail
  | none => c

/-- Completes a command that may be absent. -/
def completeOpt (c : Chip) (k : Option (QId × Nat)) (status : Nat) (detail : Nat := 0) : Chip :=
  match k with
  | some (i, tag) => c.complete i tag status detail
  | none => c

/-- The limit that a command's timeout code sets; DEFAULT_TIMEOUT where the code is 0, and 0x93 where that is 0 (R351, R354). -/
def limitOf (c : Chip) (x : Cmd) : Nat :=
  let dflt := match x.q with
    | .compute a p => c.reg .CTXQ_DEFAULT_TIMEOUT (16 * a + p)
    | .mule a p | .core a p _ true => c.reg .CTXQ_M_DEFAULT_TIMEOUT (16 * a + p)
    | .core a p _ false => c.reg .CTXQ_DEFAULT_TIMEOUT (16 * a + p)
    | _ => 0
  let dflt := if dflt = 0 then 0x93 else dflt
  timeoutTicks (if x.d.timeout = 0 then dflt else x.d.timeout)

/-- Stops a queue's fetching for good: Q_ENABLE reads 0. -/
def stopQueue (c : Chip) (i : QId) : Chip := c.setQ i .enable 0

/-- The queues of a context in every partition. -/
def ctxQueues (x : Nat) : List QId := allParts.flatMap fun p => [.compute x p, .mule x p]
/-- The queues of a port: its context queue, those of its contexts, and the route and schedule queues of its partitions. -/
def portQueues (c : Chip) (port : Nat) : List QId :=
  [.context port]
    ++ (c.ctxs.filter fun e => e.2.state ≠ 0 && e.2.port = port).flatMap (fun e => ctxQueues e.1)
    ++ (allParts.filter fun p => c.ownerPort p = port).flatMap fun p => [.route p, .sched p]

end Chip

end Sys2Proof.Machine
end

