-- ==== Sys2Proof/Machine/Shares.lean ====
section
/-! DEFINITION. Shares of a partition's memory (R309, R364, R379): runs of tiles that are taken, and where new ones fit. -/

namespace Sys2Proof.Machine

open Sys2Proof

/-- The lowest place of `n` in the range from `lo` to `hi` that meets none of the runs (start, length). -/
def firstFit (runs : List (Nat × Nat)) (lo hi n : Nat) : Option Nat :=
  let starts := sortBy (fun a b => a ≤ b) (lo :: runs.map fun r => r.1 + r.2)
  starts.find? fun s => lo ≤ s && s + n ≤ hi && runs.all fun r => s + n ≤ r.1 || r.1 + r.2 ≤ s

namespace Chip

/-! Shares (R309, R364) -/

/-- The shares given in a partition. -/
def sharesIn (c : Chip) (p : Nat) : List Share := c.ctxs.filterMap fun e => SMap.find? e.2.shares p
/-- SRAM tiles that device structures leave to contexts: they lie at the low end, as the example of R377 shows. -/
def sramTop (c : Chip) (p : Nat) : Nat := 65536 - 512 * (c.reg .MEMORY_DEVICE_SRAM p + c.reg .SCHED_XMAP_LIMIT p)
/-- The first LPDDR6 tile after the bank mirrors and the topology database. -/
def lpBase : Nat := 0x100000 + 384 * 512
/-- LPDDR6 runs taken by shares and by the trace spill region. -/
def lpRuns (c : Chip) (p : Nat) : List (Nat × Nat) :=
  (c.sharesIn p).map (fun s => (s.lpFirst, s.lpTiles)) ++ (c.part p).trace.spill.toList
/-- SRAM runs taken by shares. -/
def sramRuns (c : Chip) (p : Nat) : List (Nat × Nat) := (c.sharesIn p).map fun s => (s.sramFirst, s.sramTiles)
/-- Where shares of these sizes would lie; none where the free runs cannot hold them. -/
def fitShare (c : Chip) (p sram lp : Nat) : Option Share :=
  match firstFit (c.sramRuns p) 0 (c.sramTop p) (512 * sram), firstFit (c.lpRuns p) lpBase 0x2F8000 (512 * lp) with
  | some a, some b => some { sramFirst := a, sramTiles := 512 * sram, lpFirst := b, lpTiles := 512 * lp }
  | _, _ => none
/-- SRAM_FREE and LPDDR_FREE (R379); the tiles of a vacant bank, one of each 32, are not in the free pool (R428). -/
def publishMemory (c : Chip) (p : Nat) : Chip :=
  let used := fun (l : List (Nat × Nat)) => (l.map Prod.snd).sum
  let banks := 32 - (setBitsOf 32 (c.reg .PARTITION_BANKS_VACANT p)).length
  (c.setReg .MEMORY_SRAM_FREE p 0 ((c.sramTop p - used (c.sramRuns p)) / 32 * banks)).setReg .MEMORY_LPDDR_FREE p 0
    (0x2F8000 - lpBase - used (c.lpRuns p))

end Chip

end Sys2Proof.Machine
end

