-- ==== Sys2Proof/Machine/TraceCmds.lean ====
section
/-! DEFINITION. Capture (R392 to R398, R406): arming, stopping, records of units, drop runs, the end of a capture, settings that change
during one, and reading the trace SRAM. -/

namespace Sys2Proof.Machine

open Sys2Proof

namespace Chip

/-- Bytes of trace SRAM of a stream (R392). -/
def traceSram (c : Chip) (p : Nat) (nat : Bool) : Nat :=
  let s := c.reg .TRACE_NATIVE_SHARE p
  262144 * (if nat then s else 16 - s)

/-- Bytes of the spill region of a stream (R395). -/
def traceSpill (c : Chip) (p : Nat) (nat : Bool) : Nat :=
  match (c.part p).trace.spill with
  | none => 0
  | some (_, n) => 2048 * n * (let s := c.reg .TRACE_NATIVE_SHARE p; if nat then s else 16 - s) / 16

/-- A stream as ARM leaves it: empty, running where TRACE_MODE selects it. -/
def freshStream (c : Chip) (p : Nat) (nat : Bool) : Stream :=
  let spill := (c.part p).trace.spill.isSome
  { on := bit (c.reg .TRACE_TRACE_MODE p) (if nat then 0 else 1)
    cap := if spill then c.traceSpill p nat else c.traceSram p nat
    stageCap := if spill then c.traceSram p nat - 1024 else 0
    drainAt := c.now, high := c.now >>> 44 }

/-- ARM: the ring is cleared and a capture begins with MARKER cause 1 and a TIMEBASE; while capture is suspended it begins so, and
the TIMEBASE comes with its first record. -/
def arm (c : Chip) (p : Nat) : Chip :=
  if c.reg .TRACE_TRACE_MODE p = 0 then c
  else
    let c := (c.setStream p true (c.freshStream p true)).setStream p false (c.freshStream p false)
    let c := (c.publish p true 0).publish p false 0
    if (c.part p).trace.suspended ≠ 0 then
      let c := [true, false].foldl (fun c nat => c.setStream p nat { c.stream p nat with sinceBase := 65536 }) c
      (c.modPart p fun s => { s with trace := { s.trace with before := 1 } }).setReg .TRACE_STATE p 0 4
    else
      let c := (c.setReg .TRACE_STATE p 0 1).traceMarker p 6 0 (traceTail 1 0 0 0 0)
      [true, false].foldl (fun c nat => if (c.stream p nat).on then c.timebase p nat else c) c

/-- STATE reads done once every enabled stream has stopped and its staging is flushed; the end is logged (R395, R406). -/
def captureDone (c : Chip) (p : Nat) : Chip :=
  let c := (c.drainStream p true).drainStream p false
  let st := c.reg .TRACE_STATE p
  let over_ := fun (s : Stream) => !s.on || (s.stopped && s.stage.isEmpty)
  if (st = 1 ∨ st = 2 ∨ st = 4) ∧ over_ (c.stream p true) ∧ over_ (c.stream p false) then
    (c.setReg .TRACE_STATE p 0 3).henPart p 0x1803 [7]
  else c

/-- Capture stops with MARKER cause 7. -/
def traceStop (c : Chip) (p : Nat) : Chip :=
  let st := c.reg .TRACE_STATE p
  if st = 1 ∨ st = 2 ∨ st = 4 then
    let c := c.traceMarker p 6 0 (traceTail 7 0 0 0 0)
    let c := [true, false].foldl (fun c nat => c.setStream p nat { c.stream p nat with stopped := true }) c
    c.captureDone p
  else c

/-- A partition reset ends capture: what is staged is not flushed (R398). -/
def traceReset (c : Chip) (p : Nat) : Chip :=
  let st := c.reg .TRACE_STATE p
  let c := [true, false].foldl (fun c nat =>
    let s := c.stream p nat
    c.setStream p nat { s with on := false, stopped := true, stage := [], run := none }) c
  if st = 1 ∨ st = 2 ∨ st = 4 then ({ c with freeCtr := c.freeCtr + 1 }).henPart p 0x1803 [c.freeVal 32] else c

/-- TRIG_TIME is reached (R396). -/
def trigTime (c : Chip) (p : Nat) : Chip :=
  if c.reg .TRACE_TRIG_TIME_LO p + c.reg .TRACE_TRIG_TIME_HI p * 2 ^ 32 ≤ c.now then c.trigger p 2 else c

/-- The TRIG_ fields match a triple; 0xFFFF matches any value. -/
def trigMatches (c : Chip) (p job layer op : Nat) : Bool :=
  let ok := fun (r : Reg) (v : Nat) => c.reg r p == 0xFFFF || c.reg r p == v
  ok .TRACE_TRIG_JOB job && ok .TRACE_TRIG_LAYER layer && ok .TRACE_TRIG_OPERATOR op

/-- A unit produces a trace record (R393, R394, R396, R397). -/
def traceRecord (c : Chip) (p : Nat) (r : TraceItem) : Chip :=
  match r with
  | .native b => c.putRecord p true false b
  | .command isEnd unit opcode second job layer op =>
    let c := c.putRecord p false false (traceRec c.now (ofBool isEnd) unit p (traceTail opcode second job layer op))
    if !isEnd && (c.part p).trace.suspended == 0 && c.trigMatches p job layer op then c.trigger p 4 job layer op else c

/-- A drop run ends where the staging area has drained to seven eighths (R397). -/
def dropRunEnd (c : Chip) (p : Nat) : Chip :=
  [true, false].foldl (fun c nat =>
    let c := c.drainStream p nat
    let s := c.stream p nat
    if s.run.isSome && decide (s.staged false ≤ s.stageCap / 8 * 7) then c.endDrop p nat else c) c

/-- A byte of the trace SRAM, where a stream's ring lies there: the native stream first. -/
def traceByte (c : Chip) (p a : Nat) : Option Nat :=
  let n := c.traceSram p true
  let s := c.stream p (decide (a < n))
  let o := if a < n then a else a - n
  if s.stageCap ≠ 0 || s.cap = 0 then none
  else s.ring.findSome? fun e =>
    let j := (o + s.cap - e.1 % s.cap) % s.cap
    if j < e.2.length then e.2[j]? else none

/-- A read of RD_DATA: 8 bytes at RD_ADDR, which advances; bytes that nothing wrote, and those at an address that is not a multiple of 8,
are left open (R406, R408). -/
def traceRead (c : Chip) (port p : Nat) : Chip :=
  let a := c.reg .TRACE_RD_ADDR p
  let v := ofBytes ((List.range 8).map fun i =>
    match (if a % 8 = 0 then c.traceByte p (a + i) else none) with
    | some b => b
    | none => trunc 8 (Config.freeValue (c.freeCtr + i)))
  (({ c with freeCtr := c.freeCtr + 8 }).setReg .TRACE_RD_ADDR p 0 (a + 8)).emit (.readReturn port v)

/-! Settings (R392, R398) -/

/-- Fields whose change stops a capture. -/
def traceSettings : List Reg :=
  [.TRACE_TRACE_MODE, .TRACE_CAPTURE, .TRACE_TRIG_POS, .TRACE_NATIVE_SHARE, .TRACE_SPILL_MIB, .TRACE_FW_TRACE]

/-- A capture stops before a value that passes `ok` changes one of those fields. -/
def traceBefore (c : Chip) (p : Nat) (ok : Pend → Bool) : Chip :=
  let changes := traceSettings.any fun r => match SMap.find? c.regs.pend (r.key p 0) with
    | some x => ok x && x.v != c.reg r p
    | none => false
  if changes then c.traceStop p else c

/-- The largest run of LPDDR6 tiles that would take `n`, counted down in MiB. -/
def largestRun (runs : List (Nat × Nat)) : Nat → Option (Nat × Nat)
  | 0 => none
  | n + 1 => match firstFit runs lpBase 0x2F8000 (512 * (n + 1)) with
    | some a => some (a, n + 1)
    | none => largestRun runs n

/-- After the fields were applied: NATIVE_SHARE in mode 3, and the spill region, clamped to the largest free run. -/
def traceAfter (c : Chip) (p spillBefore : Nat) : Chip :=
  let s := c.reg .TRACE_NATIVE_SHARE p
  let t := if c.reg .TRACE_TRACE_MODE p = 3 then clampTo 1 15 s else s
  let c := if t = s then c else (c.setReg .TRACE_NATIVE_SHARE p 0 t).count .TRACE_CLAMPS p
  let want := c.reg .TRACE_SPILL_MIB p
  if want = spillBefore then c
  else
    let c := c.modPart p fun x => { x with trace := { x.trace with spill := none } }
    let got := largestRun (c.lpRuns p) want
    let mib := match got with | some g => g.2 | none => 0
    let c := if mib = want then c else (c.setReg .TRACE_SPILL_MIB p 0 mib).count .TRACE_CLAMPS p
    let c := match got with
      | some g => (c.modPart p fun x => { x with trace := { x.trace with spill := some (g.1, 512 * g.2) } }).setReg .TRACE_SPILL_BASE p 0
          ((g.1 - 0x100000) * 2048)
      | none => c.setReg .TRACE_SPILL_BASE p 0 0
    c.publishMemory p

end Chip

end Sys2Proof.Machine
end

