-- ==== Sys2Proof/Machine/HostRegs.lean ====
section
/-! DEFINITION. The G9's register pages as a host port writes them (R339, R343 to R348, R480): reach, ranges, pairs, boundaries and
snapshots. What a field does beyond holding its value is added where the block it belongs to is defined. -/

namespace Sys2Proof.Machine

open Sys2Proof

/-- The device pages with their instances, and the pages of one partition (R342). -/
def devicePages : List (Page × Nat) :=
  [(.DEVICE, 0), (.HOSTPORT, 0), (.HOSTPORT, 1), (.RING, 0), (.RING, 1), (.RING, 2), (.RING, 3), (.TIME, 0), (.COUNTERS, 0),
   (.HEN, 0), (.RESET, 0), (.POWER, 0), (.THERMAL, 0), (.BOOT, 0), (.LOOPS, 0), (.CONTEXT, 0), (.CONTEXT, 1)]
/-- The pages of partition `p`. -/
def partitionPages (p : Nat) : List (Page × Nat) :=
  [.PARTITION, .ENGINES, .CORES, .MEMORY, .MULE, .GOOSE, .TRACE, .PCOUNTERS, .ROUTE, .SCHED, .MIOBOR, .LEARN, .IMAGE,
   .FAIL, .LINKSEC].map fun g => (g, p)

/-- The page and instance at a BAR0 address as a port sees it; none where it is reserved (R341 to R343). -/
def pageAtBar0 (port a : Nat) : Option (Page × Nat) :=
  let n := a / 0x1000
  if a < 0x1000000 then
    match n with
    | 0 => some (.DEVICE, 0) | 1 => some (.HOSTPORT, port) | 2 => some (.RING, 0) | 3 => some (.RING, 1)
    | 4 => some (.RING, 2) | 5 => some (.RING, 3) | 8 => some (.TIME, 0) | 9 => some (.COUNTERS, 0) | 10 => some (.HEN, 0)
    | 11 => some (.RESET, 0) | 12 => some (.POWER, 0) | 13 => some (.THERMAL, 0) | 14 => some (.BOOT, 0)
    | 15 => some (.LOOPS, 0) | 16 => some (.CONTEXT, port) | _ => none
  else if a < 0x2000000 then
    let p := (n - 0x1000) / 256
    (partitionPages p).find? fun e => Chip.partPage e.1 == some ((n - 0x1000) % 256)
  else none

/-- The partition of a BAR0 address, whether its page is listed or reserved (R342, R343). -/
def partAtBar0 (a : Nat) : Option Nat := if 0x1000000 ≤ a ∧ a < 0x2000000 then some ((a - 0x1000000) / 0x100000) else none

/-- The field elements of a G9 page. -/
def gElems (g : Page) : List (Reg × Nat) := pageElems .COMMON g

/-- Fields whose range another field bounds: the dependent field, the bounding field, and whether the bound is an upper one; by
element (R480). -/
def dependents : Page → List (Reg × Reg × Bool)
  | .LEARN => [(.LEARN_HIT_HIGH, .LEARN_HIT_LOW, false), (.LEARN_LH_CLEAR, .LEARN_LH_THRESH, true)]
  | .LOOPS => [(.LOOPS_DVFS_FLOOR, .LOOPS_DVFS_CEIL, true), (.LOOPS_SPAN_FLOOR, .LOOPS_SPAN_CEIL, true)]
  | _ => []

/-- The CLAMPS counter of a page, where it has one (R480). -/
def clampsOf : Page → Option Reg
  | .LEARN => some .LEARN_CLAMPS
  | .FAIL => some .FAIL_CLAMPS
  | .TRACE => some .TRACE_CLAMPS
  | .LOOPS => some .LOOPS_CLAMPS
  | _ => none

/-- When a value pending for "frame" is applied: the first frame boundary at least 1,000 ticks after the write (R346). -/
def frameDue (now : Nat) : Nat := ceilDiv (now + 1000) 131072 * 131072

namespace Chip

/-- A value was clamped: counted where the page has the counter, and on the LEARN and LOOPS pages logged with the value written and the value
applied (R258, R446, R480). How a record names the field is left open. -/
def clamped (c : Chip) (g : Page) (inst written applied : Nat) : Chip :=
  let c := match clampsOf g with
    | some r => c.count r inst
    | none => c
  match g with
  | .LEARN => c.drawn.henPart inst 0x3506 [c.freeVal 32, written]
  | .LOOPS => c.drawn.drawn.henDev 0x3C01 [c.freeVal 32, c.drawn.freeVal 32, written, applied]
  | _ => c

/-- Clamps one dependent element to its bounding field's applied value. -/
def settleOne (c : Chip) (g : Page) (inst : Nat) (d : Reg × Reg × Bool) (i : Nat) : Chip :=
  let v := c.reg d.1 inst i
  let b := c.reg d.2.1 inst i
  let w := if d.2.2 then min v b else max v b
  if w = v then c else (c.setReg d.1 inst i w).clamped g inst v w

/-- After fields were applied: the dependent ranges of the page. -/
def settlePage (c : Chip) (g : Page) (inst : Nat) : Chip :=
  (dependents g).foldl (fun c d => (List.range d.1.desc.count).foldl (fun c i => c.settleOne g inst d i) c) c

/-- A value of the page is pending (R344). -/
def pagePending (c : Chip) (g : Page) (inst : Nat) : Bool := c.regs.anyPending (gElems g) inst

/-- Publishes PENDING. -/
def publishPending (c : Chip) (g : Page) (inst : Nat) : Chip :=
  c.setReg .COMMON_PENDING inst g.ctorIdx (ofBool (c.pagePending g inst))

/-- Applies the pending values of a page that pass `ok`; trace settings stop a capture first (R398), and the cross-pod
map takes its SRAM (R364). -/
def applyPage (c : Chip) (g : Page) (inst : Nat) (ok : Pend → Bool) : Chip :=
  let c := if g = .TRACE then c.traceBefore inst ok else c
  let spill := c.reg .TRACE_SPILL_MIB inst
  let c := (({ c with regs := c.regs.applyAll (gElems g) inst ok }).settlePage g inst).publishPending g inst
  if g = .TRACE then c.traceAfter inst spill else if g = .SCHED then c.publishMemory inst else c

/-- Copies every counter of a page into its holding register (R348). -/
def snapshotPage (c : Chip) (g : Page) (inst : Nat) : Chip := { c with regs := c.regs.snapshot (gElems g) inst }

/-- The boundary held on a page. -/
def pageBoundary (c : Chip) (g : Page) (inst : Nat) : Bnd := RegFile.bndOf (c.reg .COMMON_BOUNDARY inst g.ctorIdx)

/-- The open pair of a port on a page, among those open at the H-dies (R347). -/
def openPair (ps : List HostPair) (port : Nat) (g : Page) (inst : Nat) : Option HostPair :=
  ps.find? fun x => x.port = port && x.page = g && x.inst = inst
/-- Discards the open pair of a port on a page. -/
def dropPair (ps : List HostPair) (port : Nat) (g : Page) (inst : Nat) : List HostPair :=
  ps.filter fun x => !(x.port = port && x.page = g && x.inst = inst)

/-- The elements that a written span takes to a bound: the element, the value written and the value applied; those of RWP fields where the span
completes a pair, else those of the others. -/
def clampsIn (c : Chip) (g : Page) (inst off n v : Nat) (pair : Bool) : List (Reg × Nat × Nat × Nat) :=
  (RegFile.covered (gElems g) off n).filterMap fun e =>
    let r := e.1
    let takes : Bool := match r.desc.acc with
      | .rw => !pair && !r.desc.counter
      | .rwb => !pair
      | .rwp => pair
      | _ => false
    let old := if r.desc.acc = .rw then c.regs.get r inst e.2 else c.regs.getPending r inst e.2
    let w := RegFile.merge r e.2 off n v old
    let x := RegFile.clampReg r w
    if takes && x.2 then some (r, e.2, w, x.1) else none

/-- Notes clamps; on the SCHED page the value that a field takes outside its range is left open (R205). -/
def noteClamps (c : Chip) (g : Page) (inst : Nat) (l : List (Reg × Nat × Nat × Nat)) : Chip :=
  l.foldl (fun c e =>
    if g = .SCHED then
      let x := { c with regs := match SMap.find? c.regs.pend (e.1.key inst e.2.1) with
        | some k => c.regs.setPend e.1 inst e.2.1 { k with v := e.1.desc.min + Config.freeValue c.freeCtr % (e.1.desc.max + 1 - e.1.desc.min) }
        | none => c.regs }
      x.drawn
    else c.clamped g inst e.2.2.1 e.2.2.2) c

/-- The fields of a written span: ranges, boundaries and clamps. A BOUNDARY of 0b11 is taken as 0b10. -/
def writeFields (c : Chip) (g : Page) (inst off n v : Nat) : Chip :=
  let v := if off = 0x20 ∧ v % 4 = 3 then v - 1 else v
  let l := c.clampsIn g inst off n v false
  let r := c.regs.writeSpan (gElems g) inst off n v (c.pageBoundary g inst) (frameDue c.now)
  (({ c with regs := r.1 }).noteClamps g inst l).publishPending g inst

/-- The fields of a completed pair (R12, R347). -/
def pairFields (c : Chip) (g : Page) (inst off n v : Nat) : Chip :=
  let l := c.clampsIn g inst off n v true
  let r := c.regs.pairSpan (gElems g) inst off n v (frameDue c.now)
  (({ c with regs := r.1 }).noteClamps g inst l).writeFields g inst off n v

/-- The partition that a page belongs to. -/
def pagePart (g : Page) (inst : Nat) : Option Nat :=
  if (partPage g).isSome then some inst else if g = .CTXQ then some (inst % 16) else none

/-- A write of a port to a page: it is dropped and counted where the page's stop is in bypass (R26) or the port may not write it
(R339), and dropped while the G9 is out of service (R425). -/
def onPage (c : Chip) (port : Nat) (g : Page) (inst : Nat) (f : Chip → Chip) : Chip :=
  if c.pageShut g then c else
  match (pagePart g inst).filter c.bypassed with
  | some p => c.count .RING_BYPASS_WRITES (p / 4)
  | none => if c.mayWrite port g inst then f c else c.count .HOSTPORT_UNOWNED_ACCESS port

/-- A read of a port of a page: all ones of its size where the stop is in bypass or the port may not reach it. DESIGN CHOICE (log 16): an
access to a stop in bypass counts as R26 says, whoever owns the partition; R339's count comes after it. -/
def readPage (c : Chip) (port : Nat) (g : Page) (inst size : Nat) (f : Chip → Chip) : Chip :=
  let ones := fun (c : Chip) => c.emit (.readReturn port (2 ^ (8 * size) - 1))
  if c.pageShut g then ones c else
  match (pagePart g inst).filter c.bypassed with
  | some p => ones (c.count .RING_BYPASS_READS (p / 4))
  | none => if c.mayReach port g inst then f c else ones (c.count .HOSTPORT_UNOWNED_ACCESS port)

/-- A host write of `size` bytes, 4 or 8 and aligned, of the value `v` at a page offset, as far as the fields themselves go, with the open pairs
before and after it; true where it took effect. The pages answer as R26, R339 and R425 give. -/
def hostWriteCore (c : Chip) (ps : List HostPair) (port : Nat) (g : Page) (inst off size v : Nat) : Chip × List HostPair × Bool :=
  if c.pageShut g then (c, ps, false) else
  match (pagePart g inst).filter c.bypassed with
  | some p => (c.count .RING_BYPASS_WRITES (p / 4), ps, false)
  | none =>
    if !c.mayWrite port g inst then (c.count .HOSTPORT_UNOWNED_ACCESS port, ps, false)
    else
      let n := 8 * size
      let shadow : Bool := 0x800 ≤ off && off < 0xF00 && RegFile.touchesPair (gElems g) (off - 0x800) n
      match openPair ps port g inst with
      | some x =>
        let ps := dropPair ps port g inst
        if shadow then
          if x.off + 0x800 = off ∧ x.size = size ∧ v = compl n x.word ∧ x.at_ ≤ c.now ∧ c.now ≤ x.at_ + 1000 then
            (c.pairFields g inst x.off n x.word, ps, true)
          else (c.countN .HOSTPORT_PAIR_FAILS port (if x.off + 0x800 = off then 1 else 2), ps, false)
        else plain (c.count .HOSTPORT_PAIR_FAILS port) ps port g inst off size v
      | none =>
        if shadow then (c.count .HOSTPORT_PAIR_FAILS port, ps, false)
        else plain c ps port g inst off size v
where
  /-- A write that completes no pair: it opens one where it names an RWP field. -/
  plain (c : Chip) (ps : List HostPair) (port : Nat) (g : Page) (inst off size v : Nat) : Chip × List HostPair × Bool :=
    if RegFile.touchesPair (gElems g) off (8 * size) then (c, ps ++ [⟨port, g, inst, off, size, v, c.now⟩], false)
    else (c.writeFields g inst off (8 * size) v, ps, true)

/-- A write at X whose complement has not come within 1,000 ticks is discarded and counted (R347). -/
def pairExpiry (c : Chip) (ps : List HostPair) (port : Nat) (g : Page) (inst : Nat) : Chip × List HostPair :=
  match openPair ps port g inst with
  | some x => if x.at_ + 1000 < c.now then (c.count .HOSTPORT_PAIR_FAILS port, dropPair ps port g inst) else (c, ps)
  | none => (c, ps)

/-- A write of a port to a page that has a command of its own: it breaks the open pair of the port on that page. -/
def writePage (c : Chip) (ps : List HostPair) (port : Nat) (g : Page) (inst : Nat) (f : Chip → Chip) : Chip × List HostPair :=
  let reaches : Bool := !c.pageShut g && ((pagePart g inst).filter c.bypassed).isNone && c.mayWrite port g inst
  if reaches && (openPair ps port g inst).isSome then
    ((c.count .HOSTPORT_PAIR_FAILS port).onPage port g inst f, dropPair ps port g inst)
  else (c.onPage port g inst f, ps)

/-- A frame boundary: values pending for "frame" are applied on every page that is not in reset. -/
def framePages (c : Chip) : List (Page × Nat) :=
  devicePages ++ (allParts.filter fun p => !c.bypassed p).flatMap partitionPages

/-- The step boundary of a job in a partition: pages whose STEP_JOB is the job apply what is pending for "step" (R346). -/
def stepBoundary (c : Chip) (p job : Nat) : Chip :=
  ((partitionPages p).filter fun e => c.reg .COMMON_STEP_JOB e.2 e.1.ctorIdx = job).foldl
    (fun c e => c.applyPage e.1 e.2 fun x => x.bnd = .step) c

/-- Writing Q_BASE sets Q_HEAD and Q_TAIL to 0 (R352). -/
def baseWritten (c : Chip) (i : QId) : Chip := (c.setQ i .head 0).setQ i .tail 0
/-- Writing CQ_BASE sets CQ_TAIL and CQ_HEAD to 0 and the phase to 1 (R352). -/
def cqBaseWritten (c : Chip) (i : QId) : Chip :=
  { ((c.setQ i .cqTail 0).setQ i .cqHead 0) with phase := SMap.set 0 c.phase i.code 0 }

end Chip

end Sys2Proof.Machine
end

