-- ==== Sys2Proof/Machine/RouteTables.lean ====
section
/-! DEFINITION. The tables that a partition writes (R119 to R127): usable links, pod routes (R47), entries of region 0 to 3, the
management routes of spine 15 (R144, R145), and the chunks that carry them. -/

namespace Sys2Proof.Machine

open Sys2Proof

/-- A key for one end of a link. -/
def linkKey (u : UnitId) (port : Nat) : Nat := u.code * 1024 + port

/-! Pods of a slice -/

/-- Grid position of a pod index (R143). -/
def gridOf (g : Nat × Nat × Nat) (pod : Nat) : List Nat := [pod % g.1, pod / g.1 % g.2.1, pod / (g.1 * g.2.1)]
/-- Pod index of a grid position. -/
def podAt (g : Nat × Nat × Nat) (x : List Nat) : Nat :=
  x.getD 0 0 + g.1 * (x.getD 1 0) + g.1 * g.2.1 * (x.getD 2 0)
/-- Extent of an axis of the grid. -/
def gridExtent (g : Nat × Nat × Nat) (axis : Nat) : Nat := if axis = 0 then g.1 else if axis = 1 then g.2.1 else g.2.2

namespace Slice

/-- The pod at a slice position (R149). -/
def podOf (s : Slice) (g : Nat × Nat × Nat) (pos : List Nat) : Nat :=
  podAt g ((List.range 3).map fun a => (s.origin.getD a 0 + pos.getD a 0) % gridExtent g a)
/-- Every slice position, the first coordinate varying fastest. -/
def positions (s : Slice) : List (List Nat) :=
  (List.range (s.extents.getD 2 1)).flatMap fun c => (List.range (s.extents.getD 1 1)).flatMap fun b =>
    (List.range (s.extents.getD 0 1)).map fun a => [a, b, c]
/-- The pods of the box, by slice position. -/
def pods (s : Slice) (g : Nat × Nat × Nat) : List Nat := s.positions.map (s.podOf g)
/-- The slice position of a pod. -/
def posOf (s : Slice) (g : Nat × Nat × Nat) (pod : Nat) : Option (List Nat) := s.positions.find? fun x => s.podOf g x = pod
/-- Kind of an axis as admitted: 0 LINE, 1 RING, 2 STAR. -/
def kind (s : Slice) (axis : Nat) : Nat := s.kinds.getD axis 0

/-- The next coordinate toward a target along one axis, and whether the step is in the + direction (R47, R150, R151). -/
def stepAxis (s : Slice) (axis cur dst : Nat) : Nat × Bool :=
  let n := s.extents.getD axis 1
  match s.kind axis with
  | 1 =>
    let f := (dst + n - cur) % n
    if f ≤ n - f then ((cur + 1) % n, true) else ((cur + n - 1) % n, false)
  | 2 => if cur = 0 then (dst, true) else (0, false)
  | _ => if cur < dst then (cur + 1, true) else (cur - 1, false)

/-- The first correction from one slice position to another: the axis, the next position and the direction (R47). -/
def firstStep (s : Slice) (cur dst : List Nat) : Option (Nat × List Nat × Bool) :=
  match [0, 1, 2].find? fun a => cur.getD a 0 ≠ dst.getD a 0 with
  | some a =>
    let r := s.stepAxis a (cur.getD a 0) (dst.getD a 0)
    some (a, listSet cur a r.1, r.2)
  | none => none

/-- The ports of a plane that join a pod to the next one in a direction, in ascending order (R119, R152). -/
def portsTo (s : Slice) (plane axis cur nxt : Nat) (plus : Bool) : List Nat :=
  sortBy (fun a b => a ≤ b) ((s.circuits.filter fun x => x.plane = plane && x.axis = axis &&
    (if plus then x.podA = cur && x.podB = nxt else x.podB = cur && x.podA = nxt)).map
      fun x => if plus then x.portA else x.portB)

/-- Pod hops from one position to another. -/
def hops (s : Slice) : Nat → List Nat → List Nat → Nat
  | 0, _, _ => 0
  | n + 1, cur, dst =>
    match s.firstStep cur dst with
    | some (_, nxt, _) => 1 + hops s n nxt dst
    | none => 0

/-- The slice's entries belong to the tables: from its ROUTE stage until its UNROUTE stage. -/
def inTables (s : Slice) : Bool := !s.undo && (s.stage == 5 || s.stage == 6 || s.stage == 11 || s.stage == 12)
/-- The slice's joins belong to the connection maps: from LIGHT until DARK. -/
def inMaps (s : Slice) : Bool :=
  (3 ≤ s.stage && s.stage ≤ 6 && !(s.undo && s.stage == 3)) || (11 ≤ s.stage && s.stage ≤ 13)

end Slice

namespace Chip

/-! Positions and FIDs -/

/-- The unit of the zone that holds a FID. -/
def unitOf (c : Chip) (p fid : Nat) : Option TopoUnit :=
  ((c.part p).topo.units.map Prod.snd).find? fun x => x.fid = fid && x.state = 0
/-- The topology entry of a unit of the zone. -/
def topoUnit (c : Chip) (p : Nat) (u : UnitId) : Option TopoUnit := SMap.find? (c.part p).topo.units u.code
/-- FID of a unit of the zone; null where it has none. -/
def fidOf (c : Chip) (p : Nat) (u : UnitId) : Nat := match c.topoUnit p u with | some x => x.fid | none => nullFid
/-- The units of the zone that have a FID, in the order of their codes: endpoints, leaves, spines, OCS units. -/
def zoneAgents (c : Chip) (p : Nat) : List TopoUnit :=
  ((c.part p).topo.units.map Prod.snd).filter fun x => x.state = 0 && x.fid ≠ nullFid
/-- The spine and port of an OCS unit's management attachment. -/
def ocsAttach (c : Chip) (n : Nat) : Option PlanLink := c.plan.links.find? fun l => l.ocs = n && l.ocsPort = 0
/-- The pod of a unit: its position's pod, or the pod of its management attachment (R145). -/
def unitPod (c : Chip) (u : UnitId) : Nat :=
  match u with
  | .ocs n => match c.ocsAttach n with | some l => l.pod | none => 0
  | u => c.podOf u.zone
/-- Where a FID outside the zone is: its unit and pod, from the peer reports (R481). -/
def peerOf (c : Chip) (p fid : Nat) : Option PeerUnit := (c.part p).topo.peers.find? fun x => x.fid = fid && !x.retired
/-- A partition FID whose G9 is heard and not reported down (R481), with its pod. -/
def partFidPod (c : Chip) (fid : Nat) : Option Nat :=
  if 0xFF000 ≤ fid ∧ fid ≤ 0xFF1FF then
    let g := (fid - 0xFF000) / 16
    if g = c.clusterIndex ∨ (g ∈ c.clusters ∧ !c.down.contains g) then some (16 * g + (fid - 0xFF000) % 16) else none
  else none

/-! Link maps (R118, R119) -/

/-- A link end of the database is usable: identified, classed as usable, enabled and up. Endpoint links stay in use when they are
SWAPPED or WRONG_PORT (R108). -/
def linkUsable (l : TopoLink) : Bool :=
  let endpoint := match l.far, l.near with | some (.endpoint _ _), _ => true | _, .endpoint _ _ => true | _, _ => false
  l.up && !l.disabled && (l.cls == 0 || (endpoint && (l.cls == 2 || l.cls == 3)))
/-- The epoch's link map: the keys of usable link ends. -/
def liveLinks (c : Chip) (p : Nat) : List Nat :=
  ((c.part p).topo.links.filter fun e => linkUsable e.2).map Prod.fst
/-- The map of R127: every link that discovery classed as usable is up. -/
def staticLinks (c : Chip) (p : Nat) : List Nat :=
  ((c.part p).topo.links.filter fun e => linkUsable { e.2 with up := true }).map Prod.fst
/-- Spine `s` and leaf `l` of the zone have a usable link. -/
def pairOk (m : List Nat) (z s l : Nat) : Bool :=
  [0, 1].any fun k => linkKey (.spine z s) (2 * l + k) ∈ m && linkKey (.leaf z l) (32 + 2 * s + k) ∈ m

/-- Spine `t` and leaf `l` of another pod have a usable link, as far as its reports say (R120). -/
def peerPairOk (c : Chip) (p pod t l : Nat) : Bool := !((pod, t * 16 + l) ∈ (c.part p).topo.peerDown)
/-- A circuit port of a spine is usable: of the own zone by the map, of another by its reports. -/
def circuitOk (c : Chip) (p : Nat) (m : List Nat) (pod plane port : Nat) : Bool :=
  if pod = c.podOf p then linkKey (.spine p plane) port ∈ m
  else !((pod, 1024 + plane * 64 + port) ∈ (c.part p).topo.peerDown)

/-- The slices in the tables, earliest admitted first. -/
def routedSlices (c : Chip) : List Slice := sortBy (fun a b => a.order ≤ b.order) (c.slices.filter Slice.inTables)
/-- The earliest slice that joins two pods in a plane. -/
def joining (c : Chip) (plane i j : Nat) : Option Slice :=
  c.routedSlices.find? fun s => i ∈ s.pods c.grid && j ∈ s.pods c.grid && s.circuits.any fun x => x.plane = plane

/-- The circuit path of a plane from one slice position to another is usable. -/
def pathOk (c : Chip) (p : Nat) (m : List Nat) (s : Slice) (plane : Nat) : Nat → List Nat → List Nat → Bool
  | 0, _, _ => false
  | n + 1, cur, dst =>
    match s.firstStep cur dst with
    | none => true
    | some (axis, nxt, plus) =>
      let a := s.podOf c.grid cur
      let b := s.podOf c.grid nxt
      (s.portsTo plane axis a b plus).any (fun q => c.circuitOk p m a plane q) && pathOk c p m s plane n nxt dst

/-- The circuit port of the first correction toward another pod, for destination `d` (R119). -/
def circuitPort (c : Chip) (plane i j d : Nat) : Option Nat :=
  match c.joining plane i j with
  | none => none
  | some s =>
    match s.posOf c.grid i, s.posOf c.grid j with
    | some a, some b =>
      match s.firstStep a b with
      | some (axis, nxt, plus) =>
        let ports := s.portsTo plane axis i (s.podOf c.grid nxt) plus
        if ports.isEmpty then none else ports[d / 32 % ports.length]?
      | none => none
    | _, _ => none

/-- The unusable set U(λ, d) for a destination on leaf `l` of pod `j` (R119). -/
def unusable (c : Chip) (p : Nat) (m : List Nat) (j l : Nat) : List Nat :=
  (List.range 16).filter fun t =>
    if j = c.podOf p then !pairOk m p t l
    else
      let path := match c.joining t (c.podOf p) j with
        | some s =>
          match s.posOf c.grid (c.podOf p), s.posOf c.grid j with
          | some a, some b => c.pathOk p m s t 1536 a b
          | _, _ => false
        | none => false
      !path || !c.peerPairOk p j t l

/-! Management routes (R144, R145) -/

/-- Steps forward round a ring of present numbers from one to another. -/
def ringSteps (present : List Nat) (i j : Nat) : Nat :=
  let l := sortBy (fun a b => a ≤ b) present
  let a := (l.findIdx? (· = i)).getD 0
  let b := (l.findIdx? (· = j)).getD 0
  (b + l.length - a) % l.length
/-- The pods whose forward circuit a run of `n` steps crosses, forward from `i` or backward to it. -/
def ringCrossed (present : List Nat) (i n : Nat) (forward : Bool) : List Nat :=
  let l := sortBy (fun a b => a ≤ b) present
  let a := (l.findIdx? (· = i)).getD 0
  (List.range n).filterMap fun k => if forward then l[(a + k) % l.length]? else l[(a + l.length - 1 - k) % l.length]?

/-- The port of spine 15 of this pod toward another pod for destination `d`, by R145. Ring circuits are named by the pod at port 45 or 44. -/
def mgmtPort (c : Chip) (p j d : Nat) : Option Nat :=
  let i := c.podOf p
  match c.circuitPort 15 i j d with
  | some q => some q
  | none =>
    let down := (c.part p).topo.mgmtDown
    let choose := fun (present : List Nat) (a b fwd back : Nat) (pod : Nat → Nat) =>
      let f := ringSteps present a b
      let n := present.length
      let okF : Bool := !(ringCrossed present a f true).any fun x => (pod x, fwd) ∈ down
      let okB : Bool := !(ringCrossed present a (n - f) false).any fun x => (pod x, fwd) ∈ down
      if okF && (f ≤ n - f || !okB) then some fwd else if okB then some back else none
    if j / 16 ≠ c.clusterIndex then
      choose (addOnce c.clusters c.clusterIndex) c.clusterIndex (j / 16) 44 43 (fun g => 16 * g + p)
    else choose (allParts.filter fun q => !c.outOfService q) p (j % 16) 45 46 (fun z => 16 * c.clusterIndex + z)

/-! Region 0 (R119) -/

/-- A valid entry. -/
def valid (port : Nat) : Nat := 0x80 + port

/-- The highest-numbered spine with usable links to two leaves. -/
def spineBetween (m : List Nat) (z a b : Nat) : Option Nat :=
  (List.range 16).reverse.find? fun t => pairOk m z t a && pairOk m z t b
/-- The lowest-numbered leaf with usable links to two spines. -/
def leafBetween (m : List Nat) (z a b : Nat) : Option Nat :=
  (List.range 16).find? fun l => pairOk m z a l && pairOk m z b l

/-- What a FID names, as a partition knows it: a unit and its pod, or a partition and its pod. -/
inductive Named where
  | unit (u : UnitId) (pod leafOf : Nat)
  | partition (pod : Nat)
  deriving DecidableEq, Repr

/-- The meaning of a FID in the zone of a partition; none where it is null, reserved, retired or unassigned. -/
def named (c : Chip) (p fid : Nat) : Option Named :=
  match c.partFidPod fid with
  | some j => some (.partition j)
  | none =>
    match c.unitOf p fid with
    | some x => some (.unit x.unit (c.unitPod x.unit) (match x.unit with | .endpoint _ n => n / 32 | _ => 0))
    | none =>
      match c.peerOf p fid with
      | some x => some (.unit x.unit x.pod (match x.unit with | .endpoint _ n => n / 32 | _ => 0))
      | none => none

/-- The leaf's entry for an endpoint elsewhere: the hashed uplink, with the lowest unusable spine avoided. -/
def hashed (u : List Nat) : Nat := match u.head? with | none => valid 32 | some x => valid (32 + 2 * x + 1)

/-- The region 0 entry of a switch of the zone for a FID (R119). -/
def entry (c : Chip) (p : Nat) (m : List Nat) (sw : UnitId) (fid : Nat) : Nat :=
  let i := c.podOf p
  match sw, c.named p fid with
  | _, none => 0
  | .leaf _ lf, some (.unit (.endpoint _ n) j l) =>
    if j = i ∧ l = lf then valid (n % 32)
    else if j ≠ i ∧ !(List.range 16).any (fun t => (c.joining t i j).isSome) then 0
    else hashed (c.unusable p m j l)
  | .leaf z lf, some (.unit (.leaf _ b) j _) =>
    if j = i then
      if b = lf then 0 else match spineBetween m z lf b with | some t => valid (32 + 2 * t) | none => 0
    else valid 62
  | .leaf _ _, some (.unit (.spine _ t) j _) => if j = i then valid (32 + 2 * t) else valid 62
  | .leaf _ _, some (.unit (.ocs n) j _) =>
    if j = i then match c.ocsAttach n with | some a => valid (32 + 2 * a.spine) | none => 0 else valid 62
  | .leaf _ _, some (.partition _) => valid 62
  | .leaf _ _, some (.unit (.part _) _ _) => 0
  | .spine _ s, some (.unit (.endpoint _ _) j l) =>
    if j = i then valid (2 * l)
    else match c.circuitPort s i j fid with | some q => valid q | none => 0
  | .spine z s, some (.unit (.leaf _ b) j _) =>
    if j = i then valid (2 * b) else outside c p m z s j fid
  | .spine z s, some (.unit (.spine _ t) j _) =>
    if j = i then
      if t = s then 0 else match leafBetween m z s t with | some l => valid (2 * l) | none => 0
    else outside c p m z s j fid
  | .spine z s, some (.unit (.ocs n) j _) =>
    if j = i then match c.ocsAttach n with
      | some a => if a.spine = s then valid a.port else 0
      | none => 0
    else outside c p m z s j fid
  | .spine z s, some (.partition j) =>
    if j = i then
      if s = 15 then valid 47 else match leafBetween m z s 15 with | some l => valid (2 * l) | none => 0
    else outside c p m z s j fid
  | .spine _ _, some (.unit (.part _) _ _) => 0
  | _, _ => 0
where
  /-- A spine's entry for a switch, OCS or partition FID outside the pod: spine 15 takes the management path, the others go
  through the lowest-numbered leaf that reaches spine 15. -/
  outside (c : Chip) (p : Nat) (m : List Nat) (z s j d : Nat) : Nat :=
    if s = 15 then match c.mgmtPort p j d with | some q => valid q | none => 0
    else match leafBetween m z s 15 with | some l => valid (2 * l) | none => 0

/-- Every FID that a zone's tables can name, in ascending order. -/
def knownFids (c : Chip) (p : Nat) : List Nat :=
  let units := (c.zoneAgents p).map (·.fid)
  let peers := ((c.part p).topo.peers.filter fun x => !x.retired).map (·.fid)
  let parts := (addOnce c.clusters c.clusterIndex).flatMap fun g => (List.range 16).map fun q => 0xFF000 + 16 * g + q
  sortBy (fun a b => a ≤ b) (units ++ peers ++ parts)

/-! Banks -/

/-- Puts bytes into a sparse bank, zeros left out. -/
def putBytes (m : SMap Nat) (off : Nat) (b : List Nat) : SMap Nat :=
  (b.zipIdx.foldl (fun m e => SMap.set 0 m (off + e.2) e.1) m)

/-- Region 1 of a switch: the groups of the slices in the tables (R155). -/
def groupEntry (c : Chip) (p : Nat) (sw : UnitId) (g : Group) (s : Slice) : Nat :=
  let members := g.members.filterMap (c.unitOf p)
  let onLine := c.podOf p ∈ s.pods c.grid
  if !onLine then 0
  else match sw with
    | .leaf _ l => (members.map fun x => match x.unit with
        | .endpoint _ n => if n / 32 = l then 2 ^ (n % 32) else 0
        | _ => 0).foldl (· ||| ·) 0
    | .spine _ _ => (members.map fun x => match x.unit with | .endpoint _ n => 2 ^ (n / 32) | _ => 0).foldl (· ||| ·) 0
    | _ => 0

/-- The pods of a group's line (R155, R162). -/
def linePods (c : Chip) (s : Slice) (g : Group) : List Nat :=
  (s.positions.filter fun x => if g.axis = 0 then x.getD 1 0 = g.a && x.getD 2 0 = g.b
    else x.getD 0 0 = g.a && x.getD 2 0 = g.b).map (s.podOf c.grid)

/-- The joins of an OCS unit's connection map: the slices' circuits and the standing management joins (R144, R153);
a disabled circuit port stays dark (R110). -/
def joins (c : Chip) (n : Nat) : List (Nat × Nat) :=
  let sl := (c.slices.filter Slice.inMaps).flatMap fun s =>
    (s.circuits.filter fun x => x.ocs = n).map fun x => (x.ocsA, x.ocsB)
  let at15 := fun pod port => c.plan.links.find? fun l => l.pod = pod && l.spine = 15 && l.port = port && l.ocs = n
  let ring := fun (present : List Nat) (pod : Nat → Nat) (a b : Nat) =>
    let l := sortBy (fun a b => a ≤ b) present
    if l.length < 2 then []
    else l.zipIdx.filterMap fun e =>
      match at15 (pod e.1) a, at15 (pod (l.getD ((e.2 + 1) % l.length) 0)) b with
      | some x, some y => some (x.ocsPort, y.ocsPort)
      | _, _ => none
  let own := ring (allParts.filter fun q => !c.outOfService q) (fun z => 16 * c.clusterIndex + z) 45 46
  let far := allParts.flatMap fun z => ring (addOnce c.clusters c.clusterIndex) (fun g => 16 * g + z) 44 43
  let dark := fun q => allParts.any fun z => ((c.part z).topo.links.map Prod.snd).any fun l =>
    l.far == some (.ocs n) && l.farPort == q && l.disabled
  (sl ++ own ++ far).filter fun j => !dark j.1 && !dark j.2

/-- Region 3 of an OCS unit: OUT of each joined port, DARK elsewhere; entries beyond the unit's ports are unused. -/
def mapBytes (c : Chip) (n : Nat) : SMap Nat :=
  let ports := 16 + Config.circuitPortsOf (UnitId.ocs n).code % 497
  let js := c.joins n
  (List.range ports).foldl (fun m i =>
    let q := i + 1
    let out := match js.find? fun j => j.1 = q || j.2 = q with
      | some j => if j.1 = q then j.2 else j.1
      | none => 0x8000
    putBytes m (0x104020 + 2 * i) (bytesOf 2 out)) []

/-- The board window table of an endpoint (R43): the eight FIDs of its board, null where a position is empty; all null where the
board holds no number (R113). -/
def windowBytes (c : Chip) (p : Nat) (u : TopoUnit) : SMap Nat :=
  let mates := (c.zoneAgents p).filter fun x => x.profile = 0 && x.boardId = u.boardId && u.boardNo.isSome
  (List.range 8).foldl (fun m i =>
    let f := match mates.find? fun x => x.boardPos = i with | some x => x.fid | none => nullFid
    putBytes m (0x104000 + 4 * i) (bytesOf 4 f)) []

/-- The bank of a unit over a link map: region 0 and 1 of a switch, 2 of an endpoint, 3 of an OCS unit (R119). -/
def genBank (c : Chip) (p : Nat) (m : List Nat) (u : TopoUnit) : SMap Nat :=
  match u.unit with
  | .endpoint _ _ => c.windowBytes p u
  | .ocs n => c.mapBytes n
  | sw =>
    let r0 := (c.knownFids p).foldl (fun b f => SMap.set 0 b f (c.entry p m sw f)) []
    c.routedSlices.foldl (fun b s =>
      let b := s.groups.foldl (fun b g =>
        if c.podOf p ∈ c.linePods s g then putBytes b (0x100000 + 4 * g.num) (bytesOf 4 (c.groupEntry p sw g s)) else b) b
      s.notice.foldl (fun b e =>
        if e.1 = c.podOf p then
          putBytes b (0x100000 + 4 * e.2) (bytesOf 4 (c.groupEntry p sw { axis := 0, a := 0, b := 0, members := s.endpoints } s))
        else b) b) r0

/-- How many (leaf, destination) pairs are degraded: U holds two or more spines (R120). -/
def degradedPairs (c : Chip) (p : Nat) (m : List Nat) : Nat :=
  let dests := (c.knownFids p).filterMap fun f => match c.named p f with
    | some (.unit (.endpoint _ _) j l) => some (j, l)
    | _ => none
  (List.range 16).foldl (fun n lf =>
    n + (dests.filter fun d => !(d.1 = c.podOf p && d.2 = lf) && 2 ≤ (c.unusable p m d.1 d.2).length
      && (d.1 = c.podOf p || (List.range 16).any fun t => (c.joining t (c.podOf p) d.1).isSome)).length) 0

/-! Chunks (R122, R124, R125) -/

/-- The region and its offset of a bank byte. -/
def regionOf (off : Nat) : Nat × Nat :=
  if off < 0x100000 then (0, off) else if off < 0x104000 then (1, off - 0x100000)
  else if off < 0x104020 then (2, off - 0x104000) else (3, off - 0x104020)

/-- The chunks of the regions that a profile holds: where each begins in the bank and how long it is. -/
def chunksOf (profile : Nat) : List (Nat × Nat) :=
  match profile with
  | 1 => (List.range 128).map (fun i => (i * 8192, 8192)) ++ [(0x100000, 8192), (0x102000, 8192)]
  | 0 => [(0x104000, 32)]
  | _ => [(0x104020, 1024)]

/-- The chunks in which two banks differ; all of them for a FULL load. -/
def diffChunks (profile : Nat) (full : Bool) (old new : SMap Nat) : List (Nat × Nat) :=
  (chunksOf profile).filter fun k =>
    full || SMap.range old k.1 (k.1 + k.2) ≠ SMap.range new k.1 (k.1 + k.2)

/-- The bytes of a chunk of a sparse bank. -/
def chunkBytes (b : SMap Nat) (off n : Nat) : List Nat := (List.range n).map fun i => SMap.get 0 b (off + i)

/-- BANK_CRC of a sparse bank (R125). -/
def sparseCrc (b : SMap Nat) : Nat := AC.crcSparse 0x104420 0 b 0xFFFFFFFF

/-! Circuit verification begins (R110) -/

/-- OCS units of the domain that carry no admitted slice. -/
def idleOcs (c : Chip) (l : List Nat) : List Nat := l.filter fun n => !(c.slices.any fun s => s.circuits.any fun x => x.ocs = n)

/-- Verification of OCS units begins: the lead sets test map 1, and map 2 after 2 ms. -/
def beginVerify (c : Chip) (l : List Nat) : Chip :=
  (c.idleOcs l).foldl (fun c n =>
    (({ c with verify := (c.verify.filter fun (e : Nat × Nat) => e.1 ≠ n) ++ [(n, c.now)] }).emit (.board "TEST_MAP" [n, 1, c.now])).emit
      (.board "TEST_MAP" [n, 2, c.now + 2000000])) c

/-- Verification that a cold boot or DISCOVER called for begins once no zone in service discovers or has a transaction. -/
def verifyNow (c : Chip) : Chip :=
  let busy := allParts.any fun q => !c.bypassed q && ((c.part q).topo.run.isSome || (c.part q).txn.isSome)
  if !c.verifyDue || busy then c
  else ({ c with verifyDue := false }).beginVerify ((c.plan.links.filter fun (l : PlanLink) => l.ocsPort ≠ 0).map fun (l : PlanLink) => l.ocs).eraseDups

end Chip

end Sys2Proof.Machine
end

