-- ==== Sys2Proof/Machine/Tiles.lean ====
section
/-! DEFINITION. Tiles and tensors of a partition (R214 to R219, R363): checks at use, sealing, element access. -/

namespace Sys2Proof.Machine

open Sys2Proof

/-- Header bytes 0x04 to 0x0F (R214). -/
def Tile.head (t : Tile) : List Nat :=
  bytesOf 4 t.gen ++ [t.ctx % 256, t.format % 256] ++ bytesOf 2 t.shape ++ bytesOf 4 t.index
/-- The CRC that a header should carry. -/
def Tile.goodCrc (t : Tile) : Nat := AC.crcSparse 2048 0 t.data (t.head.foldl crcByte 0xFFFFFFFF)
/-- A tile with a fresh CRC. -/
def Tile.sealed (t : Tile) : Tile := { t with crc := t.goodCrc }
/-- A payload byte. -/
def Tile.byte (t : Tile) (i : Nat) : Nat := SMap.get 0 t.data i
/-- Puts bytes into a payload. -/
def putPayload (m : SMap Nat) : Nat → List Nat → SMap Nat
  | _, [] => m
  | off, v :: r => putPayload (SMap.set 0 m off (v % 256)) (off + 1) r
/-- The payload that a byte list gives. -/
def payloadOf (b : List Nat) : SMap Nat := putPayload [] 0 (b.take 2048)

/-- A tensor table entry (R219), or a device's own tensor. -/
structure Tensor where
  first : Nat
  gen : Nat
  format : Nat
  blocked : Bool := false
  sparse : Bool := false
  rows : Nat
  cols : Nat
  meta_ : Nat := 0xFFFFFFFF
  metaGen : Nat := 0
  deriving DecidableEq, Repr

/-- Rows and columns of a tile and bits of an element, by format code (R215). -/
def tileShape (format : Nat) : Nat × Nat × Nat :=
  match format with
  | 1 => (32, 128, 4)
  | 2 => (32, 64, 8)
  | 3 => (32, 64, 8)
  | 4 => (32, 64, 8)
  | 5 => (32, 32, 16)
  | 0x10 => (32, 256, 2)
  | _ => (16, 32, 32)

namespace Tensor

/-- Rows and columns of one of its tiles, and bits of an element; a BLOCKED tensor has one block of 32 × 32 a tile (R221). -/
def dims (t : Tensor) : Nat × Nat × Nat := if t.blocked then (32, 32, (tileShape t.format).2.2) else tileShape t.format
/-- Tiles in a row of tiles. -/
def across (t : Tensor) : Nat := ceilDiv t.cols t.dims.2.1
/-- Rows of tiles. -/
def down (t : Tensor) : Nat := ceilDiv t.rows t.dims.1
/-- How many tiles a tensor takes. -/
def count (t : Tensor) : Nat := t.down * t.across
/-- The SHAPE of the tile with an index. -/
def shapeAt (t : Tensor) (i : Nat) : Nat :=
  let s := t.dims
  let vr := min s.1 (t.rows - i / t.across * s.1)
  let vc := min s.2.1 (t.cols - i % t.across * s.2.1)
  (vr - 1) + (vc - 1) <<< 5 + (ofBool t.blocked) <<< 15
/-- The tile index, and the element's place within the tile. -/
def place (t : Tensor) (i j : Nat) : Nat × Nat :=
  let s := t.dims
  (i / s.1 * t.across + j / s.2.1, i % s.1 * s.2.1 + j % s.2.1)

end Tensor

/-- Element `k` of a payload with elements of `w` bits. -/
def elemAt (w : Nat) (t : Tile) (k : Nat) : Nat :=
  if w < 8 then (t.byte (k * w / 8) >>> (k * w % 8)) % 2 ^ w
  else ofBytes ((List.range (w / 8)).map fun b => t.byte (k * (w / 8) + b))
/-- Puts element `k` of `w` bits into a payload. -/
def putElem (w : Nat) (m : SMap Nat) (k v : Nat) : SMap Nat :=
  if w = 4 then
    let b := SMap.get 0 m (k / 2)
    SMap.set 0 m (k / 2) (setBits b (4 * (k % 2) + 3) (4 * (k % 2)) v)
  else putPayload m (k * (w / 8)) (bytesOf (w / 8) v)

/-- Why a check at use failed (R216): the tile number, and the field. -/
structure TileFail where
  tile : Nat
  field : Nat
  want : Nat := 0
  deriving DecidableEq, Repr

/-- Expected CTX and FORMAT and the found ones, packed into the word of event 0x1401; the places within it are left open. -/
def packHeads (ctx format : Nat) (t : Tile) : Nat := trunc 32 (Config.packHeads [ctx, format, t.ctx, t.format])

namespace Chip

/-- A tile of a partition. -/
def tile (c : Chip) (p n : Nat) : Tile := SMap.get {} (c.part p).tiles n
/-- Sets a tile. -/
def setTile (c : Chip) (p n : Nat) (t : Tile) : Chip :=
  c.modPart p fun s => { s with tiles := SMap.set {} s.tiles n t }
/-- A partition tile number that exists (R363). -/
def tileValid (n : Nat) : Bool := n < 0x10000 || (0x100000 ≤ n && n ≤ 0x2F7FFF)
/-- The tile lies in an SRAM bank that is vacant: it fails every check with field 1 (R428). -/
def tileVacant (c : Chip) (p n : Nat) : Bool := n < 0x10000 && bit (c.reg .PARTITION_BANKS_VACANT p) (n % 32)

/-- The check at use (R216); none where it passes. -/
def checkTile (c : Chip) (p n ctx format shape index gen : Nat) : Option TileFail :=
  let t := c.tile p n
  let want := packHeads ctx format t
  let bad := fun f => some { tile := n, field := f, want := want : TileFail }
  if !tileValid n || c.tileVacant p n || t.crc ≠ t.goodCrc then bad 1
  else if t.ctx ≠ ctx then bad 2
  else if t.format ≠ format || t.format = 0 then bad 3
  else if t.shape ≠ shape then bad 4
  else if t.index ≠ index then bad 5
  else if t.gen ≠ gen then bad 6
  else none

/-- The first failure among the tiles of a tensor, in tile order. -/
def checkTensor (c : Chip) (p ctx : Nat) (t : Tensor) : Option TileFail :=
  (List.range t.count).findSome? fun i => c.checkTile p (t.first + i) ctx t.format (t.shapeAt i) i t.gen

/-- An element of a tensor. -/
def elem (c : Chip) (p : Nat) (t : Tensor) (i j : Nat) : Nat :=
  let x := t.place i j
  elemAt t.dims.2.2 (c.tile p (t.first + x.1)) x.2

/-- A sealed tile of a tensor with a payload. -/
def tensorTile (ctx : Nat) (t : Tensor) (i : Nat) (data : SMap Nat) : Tile :=
  ({ gen := t.gen, ctx := ctx, format := t.format, shape := t.shapeAt i, index := i, data := data } : Tile).sealed

/-- The payload of tile `i` of a tensor whose elements `val` gives; places outside the tensor are zero. -/
def tensorPayload (t : Tensor) (i : Nat) (val : Nat → Nat → Nat) : SMap Nat :=
  let s := t.dims
  (List.range s.1).foldl (fun m a => (List.range s.2.1).foldl (fun m b =>
    let r := i / t.across * s.1 + a
    let k := i % t.across * s.2.1 + b
    if r < t.rows && k < t.cols then putElem s.2.2 m (a * s.2.1 + b) (val r k) else m) m) []

/-- The entry words of a handle: 32 bytes of the context's tensor table, or why there is none (R219, R236). -/
def tableEntry (c : Chip) (p x h : Nat) : List Nat ⊕ TileFail :=
  let first := c.reg .MIOBOR_TTAB_FIRST_TILE p x
  if c.reg .MIOBOR_TTAB_VALID p x = 0 then
    .inr { tile := first, field := 7, want := packHeads x 0x22 { ctx := 0 } }
  else
    let n := first + h / 64
    if c.reg .MIOBOR_TTAB_TILES p x ≤ h / 64 then .inr { tile := n, field := 5, want := packHeads x 0x22 { ctx := 0 } }
    else if 0x10000 ≤ n then .inr { tile := n, field := 1, want := packHeads x 0x22 (c.tile p n) }
    else
      match c.checkTile p n x 0x22 0x7FF (h / 64) (c.reg .MIOBOR_TTAB_GEN p x) with
      | some f => .inr f
      | none => .inl ((List.range 32).map fun i => (c.tile p n).byte (32 * (h % 64) + i))

/-- A tensor table entry from its bytes. -/
def tensorOfBytes (b : List Nat) : Tensor :=
  let g := fun off n => ofBytes ((b.drop off).take n)
  { first := g 0 4, gen := g 4 4, format := g 8 1, blocked := bit (g 9 1) 0, sparse := bit (g 9 1) 1, rows := g 0x0C 4,
    cols := g 0x10 4, meta_ := g 0x14 4, metaGen := g 0x18 4 }

/-- The tensor of a handle of a context. -/
def tensor (c : Chip) (p x h : Nat) : Tensor ⊕ TileFail :=
  match c.tableEntry p x h with
  | .inl b => .inl (tensorOfBytes b)
  | .inr f => .inr f

/-- A failure at use is counted and logged as event 0x1401 (R216). -/
def tileFailed (c : Chip) (p x tag : Nat) (f : TileFail) : Chip :=
  let c := (c.countFor x .MIOBOR_TILE_FAILS p 1).setReg .MIOBOR_LAST_FAIL_TILE p 0 f.tile
  (c.setReg .MIOBOR_LAST_FAIL_TAG p 0 tag).henCtx x p 0x1401 [f.tile, f.want, tag, f.field]

/-- The first tile of the table that firmware places for a context, in the device's own SRAM. -/
def ttabBase (x : Nat) : Nat := 61440 + 64 * x
/-- Tile `j` of a context's tensor table as firmware's record gives it, sealed with TTAB_GEN (R377). -/
def ttabTile (c : Chip) (p x j : Nat) : Tile :=
  let lo := 131072 * x + 2048 * j
  ({ gen := c.reg .MIOBOR_TTAB_GEN p x, ctx := x, format := 0x22, shape := 0x7FF, index := j
     data := (SMap.range (c.part p).ttab lo (lo + 2048)).map fun e => (e.1 - lo, e.2) } : Tile).sealed
/-- Firmware writes an entry of the context's tensor table: into its record and the whole tile where it placed the table, else into the
tile that is there. -/
def setEntry (c : Chip) (p x h : Nat) (b : List Nat) : Chip :=
  let first := c.reg .MIOBOR_TTAB_FIRST_TILE p x
  let n := first + h / 64
  if first = ttabBase x then
    let c := c.modPart p fun s => { s with ttab := putPayload s.ttab (131072 * x + 32 * h) b }
    c.setTile p n (c.ttabTile p x (h / 64))
  else
    let t := c.tile p n
    c.setTile p n { t with data := putPayload t.data (32 * (h % 64)) b }.sealed

/-- A tensor table entry's bytes. -/
def entryOf (t : Tensor) : List Nat :=
  bytesOf 4 t.first ++ bytesOf 4 t.gen ++ [t.format, ofBool t.blocked + 2 * ofBool t.sparse, 0, 0] ++ bytesOf 4 t.rows
    ++ bytesOf 4 t.cols ++ bytesOf 4 t.meta_ ++ bytesOf 4 t.metaGen ++ [0, 0, 0, 0]

end Chip

end Sys2Proof.Machine
end

