-- ==== Sys2Proof/Machine/SlotPath.lean ====
section
/-! DEFINITION. Paths as the slot engines compute them (R118, R180), output links and occupancy words (R169 to R171), base occupancy
(R170, R194), and what a job's settings give for a window (R166, R202, R267). -/

namespace Sys2Proof.Machine

open Sys2Proof

/-- Link index λ of a switch output (R169). -/
def lamOf (isLeaf : Bool) (n q : Nat) : Nat :=
  if isLeaf then (if q < 32 then 512 + 32 * n + q else 1024 + 32 * n + (q - 32))
  else if q < 32 then 1536 + 32 * n + q else 2048 + 16 * n + (q - 32)

/-- The sending end of a link index in a zone: its unit and port. -/
def lamEnd (z l : Nat) : UnitId × Nat :=
  if l < 512 then (.endpoint z l, 0)
  else if l < 1024 then (.leaf z ((l - 512) / 32), (l - 512) % 32)
  else if l < 1536 then (.leaf z ((l - 1024) / 32), 32 + (l - 1024) % 32)
  else if l < 2048 then (.spine z ((l - 1536) / 32), (l - 1536) % 32)
  else (.spine z ((l - 2048) / 16), 32 + (l - 2048) % 16)

/-- A link of any pod: pod × 2,304 + λ. -/
def podLam (pod l : Nat) : Nat := pod * 2304 + l

/-- What a path is computed from (R118): the bank of each switch by zone, and by zone the epoch's map. -/
structure PathView where
  bank : UnitId → SMap Nat
  map : Nat → EpochMap

namespace Chip

/-- The view of the epoch in force: mirrors of active banks, and the epochs' link maps. -/
def epochView (c : Chip) : PathView :=
  { bank := fun u => SMap.get [] (c.part u.zone).mirrors u.code,
    map := fun z => let s := c.part z; { links := s.epochLinks, down := s.epochDown, slices := s.epochSlices } }

/-- The G9 as an epoch's map knew it: other pods' links by the reports of then, and the slices of then. -/
def asOf (c : Chip) (p : Nat) (m : EpochMap) : Chip :=
  let c := c.modPart p fun s => { s with topo := { s.topo with peerDown := m.down } }
  { c with slices := c.slices.filter fun s => s.num ∈ m.slices }

/-- The pod that a circuit port of a plane is joined to, by the admitted slices. -/
def acrossCircuit (c : Chip) (plane pod port : Nat) : Option Nat :=
  (c.routedSlices.flatMap fun s => s.circuits).findSome? fun x =>
    if x.plane ≠ plane then none
    else if x.podA = pod ∧ x.portA = port then some x.podB
    else if x.podB = pod ∧ x.portB = port then some x.podA
    else none

/-- The region 0 entry of a switch of any pod: from the bank of a zone of this G9, by R119 for another pod's spine. -/
def entryAt (c : Chip) (p : Nat) (v : PathView) (pod : Nat) (isLeaf : Bool) (n dst : Nat) : Nat :=
  match c.partOfPod pod with
  | some z => SMap.get 0 (v.bank (if isLeaf then .leaf z n else .spine z n)) dst
  | none =>
    match c.named p dst with
    | some (.unit (.endpoint _ e) j l) =>
      if j = pod then (if isLeaf then valid (e % 32) else valid (2 * l))
      else match (c.asOf p (v.map p)).circuitPort n pod j dst with | some q => valid q | none => 0
    | _ => 0

/-- A port of a switch is up in the view; ports of other G9s' pods by the peer reports that the epoch took in (R120). -/
def upAt (c : Chip) (p : Nat) (v : PathView) (pod : Nat) (isLeaf : Bool) (n q : Nat) : Bool :=
  match c.partOfPod pod with
  | some z => linkKey (if isLeaf then .leaf z n else .spine z n) q ∈ (v.map z).links
  | none =>
    let c := c.asOf p (v.map p)
    if isLeaf || 32 ≤ q then isLeaf || c.circuitOk p [] pod n q else c.peerPairOk p pod n (q / 2)

/-- D of an output link (R51): from the topology database of its zone, or as reported for another G9's pod. -/
def delayOf (c : Chip) (p pod l : Nat) : Option Nat :=
  match c.partOfPod pod with
  | some z =>
    let e := lamEnd z l
    (SMap.find? (c.part z).topo.links (linkKey e.1 e.2)).map fun x => x.d
  | none => SMap.find? (c.part p).topo.peerD (podLam pod l)

/-- The rest of a path from a switch on: each output link with its slot offset, or none where no table leads on (R180). -/
def walk (c : Chip) (p : Nat) (v : PathView) (src dst : Nat) :
    Nat → Nat → Bool → Nat → Nat → List (Nat × Nat) → Option (List (Nat × Nat))
  | 0, _, _, _, _, _ => none
  | f + 1, pod, isLeaf, n, off, acc =>
    let e := c.entryAt p v pod isLeaf n dst
    if e < 0x80 then none
    else
      let out := if isLeaf then leafOut (c.upAt p v pod true n) (e % 64) src dst
                 else spineOut (c.upAt p v pod false n) (e % 64) src dst
      match out with
      | none => none
      | some q =>
        let l := lamOf isLeaf n q
        match c.delayOf p pod l with
        | none => none
        | some d =>
          let acc := acc ++ [(podLam pod l, off)]
          let off := off + d + 1
          if isLeaf then
            if q < 32 then some acc else walk c p v src dst f pod false ((q - 32) / 2) off acc
          else if q < 32 then walk c p v src dst f pod true (q / 2) off acc
          else
            match c.acrossCircuit n pod q with
            | some pod' => walk c p v src dst f pod' false n off acc
            | none => none

/-- The path of R180 from an endpoint at a position of a pod. -/
def pathOf (c : Chip) (p : Nat) (v : PathView) (pod pos src dst : Nat) : Option (List (Nat × Nat)) :=
  match c.delayOf p pod pos with
  | none => none
  | some d => c.walk p v src dst 1600 pod true (pos / 32) (d + 1) [(podLam pod pos, 0)]

/-- The pod and position of an endpoint FID. -/
def placeOf (c : Chip) (p fid : Nat) : Option (Nat × Nat) :=
  match c.named p fid with
  | some (.unit (.endpoint _ n) pod _) => some (pod, n)
  | _ => none

/-- The copies of a multicast packet below a spine (R66): downlinks named by LEAVES, then the members' ports. -/
def fanOut (c : Chip) (p : Nat) (v : PathView) (pod s k group off : Nat) : List (Nat × Nat) :=
  match c.partOfPod pod with
  | none => []
  | some z =>
    let word := fun (u : UnitId) => ofBytes ((List.range 4).map fun i => SMap.get 0 (v.bank u) (0x100000 + 4 * group + i))
    (setBitsOf 16 (word (.spine z s))).flatMap fun l =>
      let q := 2 * l + k
      if !c.upAt p v pod false s q then []
      else
        let a := lamOf false s q
        let d := (c.delayOf p pod a).getD 0
        (podLam pod a, off) :: (setBitsOf 32 (word (.leaf z l))).map fun e => (podLam pod (lamOf true l e), off + d + 1)

/-- A multicast packet's way along its line in one direction, `n` pods left (R66, R67). -/
def alongLine (c : Chip) (p : Nat) (v : PathView) (sl : Slice) (axis : Nat) (plus : Bool) (s k group : Nat) :
    Nat → Nat → Nat → List (Nat × Nat)
  | 0, _, _ => []
  | n + 1, pod, off =>
    match sl.posOf c.grid pod with
    | none => []
    | some pos =>
      let len := sl.extents.getD axis 1
      let i := pos.getD axis 0
      let nxt := sl.podOf c.grid (listSet pos axis (if plus then (i + 1) % len else (i + len - 1) % len))
      match (sl.portsTo s axis pod nxt plus).head? with
      | none => []
      | some q =>
        let a := lamOf false s q
        let d := (c.delayOf p pod a).getD 0
        (podLam pod a, off) :: (c.fanOut p v nxt s k group (off + d + 1)
          ++ alongLine c p v sl axis plus s k group n nxt (off + d + 1))

/-- The tree of a multicast entry from a source (R66, R67): every link with its slot offset. -/
def treeOf (c : Chip) (p : Nat) (v : PathView) (sl : Slice) (pod pos src group : Nat) : List (Nat × Nat) :=
  let h := src + nullFid
  let s := h % 16
  let k := h / 16 % 2
  let d0 := (c.delayOf p pod pos).getD 0
  let first := (podLam pod pos, 0)
  let q := 32 + 2 * s + k
  if !c.upAt p v pod true (pos / 32) q then [first]
  else
    let a := lamOf true (pos / 32) q
    let off := d0 + 1
    let off2 := off + (c.delayOf p pod a).getD 0 + 1
    let axis := match sl.groups.find? fun g => g.num = group with | some g => g.axis | none => 0
    let len := sl.extents.getD axis 1
    let i := match sl.posOf c.grid pod with | some x => x.getD axis 0 | none => 0
    let ring := sl.kind axis = 1
    first :: (podLam pod a, off) :: (c.fanOut p v pod s k group off2
      ++ c.alongLine p v sl axis true s k group (if ring then len - 1 else len - 1 - i) pod off2
      ++ (if ring then [] else c.alongLine p v sl axis false s k group i pod off2))

/-- The links of a static entry of a source, with offsets (R167, R168, R170). -/
def entryLinks (c : Chip) (p : Nat) (v : PathView) (sl : Slice) (src : Nat) (e : SlotEntry) : List (Nat × Nat) :=
  match c.placeOf p src with
  | none => []
  | some (pod, pos) =>
    if e.mcast then c.treeOf p v sl pod pos src e.group
    else match c.pathOf p v pod pos src e.dst with | some l => l | none => [(podLam pod pos, 0)]

/-! Occupancy -/

/-- The key of an occupancy word: absolute frame, λ and word. -/
def occKey (frame l w : Nat) : Nat := (frame * 2304 + l) * 16 + w
/-- A word as it is created: only the management slot is set. -/
def occNew : Nat := 2 ^ 63
/-- The word lies in an SRAM bank that is vacant, and reads as all ones (R170, R428). -/
def occVacant (c : Chip) (p frame l w : Nat) : Bool :=
  bit (c.reg .PARTITION_BANKS_VACANT p) (((frame % 40 * 2304 + l) * 16 + w) % 32)
/-- The frame lies in the ring (R170). -/
def inRing (c : Chip) (frame : Nat) : Bool := c.now / 131072 ≤ frame && frame ≤ c.now / 131072 + 39
/-- A slot of a link of the zone is occupied, or lies outside the ring. -/
def occupied (c : Chip) (p l slot : Nat) : Bool :=
  let f := slot / 1024
  let w := slot % 1024 / 64
  !c.inRing f || c.occVacant p f l w || bit (SMap.get occNew (c.part p).occ (occKey f l w)) (slot % 64)
/-- Sets or clears a slot of a link. A management slot stays set, and so does a word that had bad parity (R171). -/
def mark (c : Chip) (p l slot : Nat) (b : Bool) : Chip :=
  let k := occKey (slot / 1024) l (slot % 1024 / 64)
  if slot % 64 = 63 || k ∈ (c.part p).badWords then c
  else c.modPart p fun s => { s with occ := SMap.set occNew s.occ k (setBit (SMap.get occNew s.occ k) (slot % 64) b) }
/-- Sets slots of links. -/
def markAll (c : Chip) (p : Nat) (l : List (Nat × Nat)) (b : Bool) : Chip := l.foldl (fun c e => c.mark p e.1 e.2 b) c

/-! Jobs -/

/-- A job of a zone. -/
def jobOf (c : Chip) (p job : Nat) : Option Job := (c.part p).jobs.find? fun j => j.job = job
/-- A job of a confidential context, whose records the PF does not see (R313). -/
def confJob (c : Chip) (p job : Nat) : Bool := match c.jobOf p job with | some j => c.isConf j.ctx | none => false
/-- Changes a job of a zone. -/
def modJob (c : Chip) (p job : Nat) (f : Job → Job) : Chip :=
  c.modPart p fun s => { s with jobs := mapIf (fun j => j.job = job) f s.jobs }
/-- Counts `n` events of a job's work: in its context's bank where that is confidential (R314). -/
def jcount (c : Chip) (p job : Nat) (r : Reg) (n : Nat) : Chip :=
  c.countFor (match c.jobOf p job with | some j => j.ctx | none => 64) r p n
/-- A slice by its number. -/
def sliceOf (c : Chip) (n : Nat) : Option Slice := c.slices.find? fun s => s.num = n
/-- The Bellwether time of the G9 is UNLOCKED: nothing dynamic is placed and no list is sent; the master is always LOCKED (R386). -/
def unlocked (c : Chip) : Bool := c.reg .TIME_STATE == 4 && !c.isManager

end Chip

/-- The sources of a window whose items have all ended, with the time since when (R192): those whose vector is taken, and once the gather point has passed
all that have items. -/
def Win.noted (x : Win) (now : Nat) : Win :=
  let taken := x.vectors.map fun v => v.src
  let srcs := (taken ++ x.items.map fun i => i.src).eraseDups
  let done := srcs.filter fun s => (x.gathered || s ∈ taken) && x.items.all fun i => i.src ≠ s || i.ended
  { x with ready := (x.ready.filter fun e => e.1 ∈ done) ++ (done.filter fun s => !(x.ready.any fun e => e.1 = s)).map fun s => (s, now) }

namespace Job

/-- A frame is the first of a window of the grid (R148). -/
def onGrid (j : Job) (w : Nat) : Bool := j.first ≤ w && (w - j.first) % max 1 j.frames == 0
/-- The first frame of the window that covers a frame. -/
def windowAt (j : Job) (f : Nat) : Option Nat := if f < j.first then none else some (f - (f - j.first) % max 1 j.frames)
/-- The setting of a field that applies to a window: the latest to begin, a command's first at a tie (R267). -/
def latest (l : List Setting) (w : Nat) (has : Setting → Bool) : Option Setting :=
  (l.filter fun s => s.start ≤ w && has s).foldl (fun b s => match b with
    | some x => if x.start < s.start ∨ (x.start = s.start ∧ (s.cmd || !x.cmd)) then some s else some x
    | none => some s) none
/-- The template of a window (R89, R166). -/
def tmplOf (j : Job) (w : Nat) : Nat :=
  let k := (w - j.first) / max 1 j.frames
  match latest j.settings w (fun s => s.seq.isSome) with
  | some s => match s.seq with | some (len, seq) => bits seq (4 * (k % max 1 len) + 2) (4 * (k % max 1 len)) | none => 0
  | none => 0
/-- The installed template of a window. -/
def zoneTmpl (j : Job) (w : Nat) : Option ZTmpl := j.tmpls.find? fun t => t.num = j.tmplOf w
/-- The holes of a window's template. -/
def holesOf (j : Job) (w : Nat) : List Hole := match j.zoneTmpl w with | some t => t.holes | none => []
/-- The tolerances of a window. -/
def tolOf (j : Job) (w : Nat) : Nat × Nat :=
  match latest j.settings w (fun s => s.tol.isSome) with | some s => s.tol.getD (0, 0) | none => (0, 0)
/-- A window in progress. -/
def win (j : Job) (w : Nat) (lead : Bool) : Win :=
  (j.wins.find? fun x => x.frame = w && x.lead = lead).getD { frame := w, lead := lead, tmpl := j.tmplOf w, span := j.span }
/-- Puts a window back. -/
def setWin (j : Job) (x : Win) : Job :=
  { j with wins := j.wins.filter (fun y => !(y.frame = x.frame && y.lead = x.lead)) ++ [x] }

end Job

namespace Chip

/-- SPEC, ORDERED and SPILL of a window: by a setting, else the SCHED page's defaults (R202, R204). -/
def modeOf (c : Chip) (p : Nat) (j : Job) (w : Nat) : Bool × Bool × Nat :=
  match Job.latest j.settings w (fun s => s.mode.isSome) with
  | some s => s.mode.getD (false, false, 0)
  | none =>
    (c.reg .SCHED_SPEC_DEFAULT p == 1, c.reg .SCHED_ORDERED_DEFAULT p == 1, c.reg .SCHED_SPILL_DEFAULT p)

/-- A window of a job. -/
def winOf (c : Chip) (p job w : Nat) (lead : Bool) : Win :=
  match c.jobOf p job with | some j => j.win w lead | none => { frame := w, lead := lead }
/-- Changes a window of a job. -/
def modWin (c : Chip) (p job w : Nat) (lead : Bool) (f : Win → Win) : Chip :=
  c.modJob p job fun j => j.setWin ((f (j.win w lead)).noted c.now)

/-- The send deadline of a window (R179). -/
def sdOf (c : Chip) (p w : Nat) : Int :=
  (w * 131072 : Int) - (c.reg .SCHED_LIST_LEAD p * 1000 + c.reg .SCHED_DELIVERY_ALLOW p : Nat)
/-- The placement cut. -/
def pcOf (c : Chip) (p w : Nat) : Int := c.sdOf p w - 1000
/-- The cross cut. -/
def xcOf (c : Chip) (p w : Nat) : Int := c.sdOf p w - (c.reg .SCHED_XPLACE_MARGIN p * 1000 : Nat)
/-- The gather point: PC in free mode, ORDERED_ALLOW before it in ordered mode (R179, R187). -/
def gatherOf (c : Chip) (p : Nat) (j : Job) (w : Nat) : Int :=
  if (c.modeOf p j w).2.1 then c.pcOf p w - (c.reg .SCHED_ORDERED_ALLOW p * 1000 : Nat) else c.pcOf p w

/-- Every link and absolute slot that a template's static entries take in the windows that begin at given frames. -/
def staticSlots (c : Chip) (p : Nat) (v : PathView) (sl : Slice) (t : ZTmpl) (w : Nat) (ok : SlotEntry → Bool) :
    List (Nat × Nat) :=
  t.entries.flatMap fun s => s.2.zipIdx.flatMap fun e =>
    if (s.1, e.2) ∈ t.displaced || !ok e.1 then []
    else
      let links := c.entryLinks p v sl s.1 e.1
      (List.range e.1.run).flatMap fun i =>
        links.map fun h => (h.1, (w + e.1.frame) * 1024 + e.1.first + i + h.2)

/-- The XPOD hole slots of a window's template, as absolute slots. -/
def xpodSlots (t : ZTmpl) (w : Nat) : List Nat :=
  (t.holes.filter fun h => h.kind = 1).flatMap fun h =>
    (List.range (h.last + 1 - h.first)).map fun i => (w + h.frame) * 1024 + h.first + i

/-- Sets the base of a frame (R170, R194): static entries of every window that covers it, tails of earlier frames, and XPOD
holes on every link. Only slots of the frame itself are set. -/
def baseFrame (c : Chip) (p f : Nat) : Chip :=
  let v := c.epochView
  let pod := c.podOf p
  (c.part p).jobs.foldl (fun c j =>
    match c.sliceOf j.slice with
    | none => c
    | some sl =>
      let wins := ((List.range 25).filterMap fun i => if f < i then none else j.windowAt (f - i)).eraseDups
      wins.foldl (fun c w =>
        match j.zoneTmpl w with
        | none => c
        | some t =>
          let st := (c.staticSlots p v sl t w fun _ => true).filter fun e =>
            podLam pod 0 ≤ e.1 && e.1 < podLam (pod + 1) 0 && e.2 / 1024 = f
          let c := c.markAll p (st.map fun e => (e.1 - podLam pod 0, e.2)) true
          ((xpodSlots t w).filter fun s => s / 1024 = f).foldl (fun c s =>
            (List.range 2304).foldl (fun c l => c.mark p l s true) c) c) c) c

/-- Every frame of the ring that has no base yet gets it, up to the 39th after the current one; frames that have passed leave (R170). -/
def fillRing (c : Chip) (p : Nat) : Chip :=
  let cur := c.now / 131072
  let from_ := max cur (c.part p).ringEnd
  let new := (List.range 40).map (cur + ·) |>.filter fun f => from_ ≤ f
  let c := c.modPart p fun s => { s with
    occ := SMap.eraseRange (SMap.eraseRange s.occ 0 (occKey cur 0 0)) (occKey from_ 0 0) (occKey (cur + 40) 0 0)
    badWords := s.badWords.filter fun k => occKey cur 0 0 ≤ k
    xbadWords := s.xbadWords.filter fun k => cur * 16 ≤ k / 2 ^ 21
    ringEnd := max s.ringEnd (cur + 40) }
  new.foldl (fun c f => c.baseFrame p f) c

end Chip

end Sys2Proof.Machine
end

