-- ==== Sys2Proof/Machine/SchedOps.lean ====
section
/-! DEFINITION. Placing items (R178 to R190) and dealing them to the engines (R184 to R187, R200): the operations that the
scheduling commands share. -/

namespace Sys2Proof.Machine

open Sys2Proof

/-- Source chunks that an item's runs carry. -/
def Item.placed (i : Item) : Nat := (i.runs.map fun r => r.len).sum
/-- Chunks of the demand that have no slot. -/
def Item.left (i : Item) : Nat := i.owed - i.placed
/-- p′ of R183 for a window. -/
def Item.turn (i : Item) (w : Nat) : Nat := (i.pos + 512 - w % 512) % 512
/-- Rank of R183, with the source pod between for a lead (R196). -/
def Item.before (w : Nat) (a b : Item) : Bool :=
  if a.idx ≠ b.idx then a.idx < b.idx
  else if a.pod ≠ b.pod then a.pod < b.pod
  else a.turn w ≤ b.turn w

/-- STEP of a window's lists (R190). -/
def Win.listStep (x : Win) (last : Option Nat) : Nat :=
  match x.carriedStep, x.step with
  | some s, _ => s
  | none, some s => s
  | none, none => last.getD 0

/-- The first word of an R86 entry. -/
def firstWord (e : SlotEntry) : Nat := e.first + e.frame <<< 10 + e.run <<< 14 + ofBool e.nextStep <<< 20 + ofBool e.mcast <<< 21

/-- `a` is older than `b` in 32-bit serial order. -/
def stepOlder (a b : Nat) : Bool :=
  let d := (b + 2 ^ 32 - a % 2 ^ 32) % 2 ^ 32
  1 ≤ d && d < 2 ^ 31

/-- How far a run of clear slots extends: `n` bounds it, `last` is the hole's last slot. -/
def extendRun (clear : Nat → Bool) (t last : Nat) : Nat → Nat → Nat
  | 0, k => k
  | n + 1, k => if t + k ≤ last ∧ (t + k) / 64 = t / 64 ∧ clear (t + k) then extendRun clear t last n (k + 1) else k

/-- The next run of an item from a search position on (R181): frame, first slot and length. -/
def proposeRun (clear : Nat → Nat → Bool) (holes : List Hole) (from_ want : Nat) : Option (Nat × Nat × Nat) :=
  (sortBy (fun (a b : Hole) => a.frame * 1024 + a.first ≤ b.frame * 1024 + b.first) holes).findSome? fun h =>
    match ((List.range (h.last + 1 - h.first)).map (h.first + ·)).find? fun t =>
        from_ ≤ h.frame * 1024 + t && clear h.frame t with
    | some t => some (h.frame, t, extendRun (clear h.frame) t h.last (min 63 want) 0)
    | none => none

/-- A run's bits on a hop cover a slot. -/
def hopCovers (w : Nat) (r : Placed) (h : Nat × Nat) (slot : Nat) : Bool :=
  let s := (w + r.frame) * 1024 + r.first + h.2
  s ≤ slot && slot < s + r.len
/-- A run's bits on a hop touch a word. -/
def hopTouches (w : Nat) (r : Placed) (h : Nat × Nat) (frame word : Nat) : Bool :=
  let s := (w + r.frame) * 1024 + r.first + h.2
  s / 64 ≤ frame * 16 + word && frame * 16 + word ≤ (s + r.len - 1) / 64

/-- Words that a shifted run covers on one link. -/
def runWords (slot len : Nat) : Nat := (slot + len - 1) / 64 + 1 - slot / 64

namespace Chip

/-- Four free values, for a record whose parameters the spec does not list. -/
def freeParams (c : Chip) : List Nat := (List.range 4).map fun i => trunc 32 (Config.freeValue (c.freeCtr + i))
/-- A partition's record whose parameters the spec does not list. -/
def henAny (c : Chip) (p code : Nat) (x : Nat := 64) : Chip :=
  ({ c with freeCtr := c.freeCtr + 4 }).henCtx x p code c.freeParams
/-- A record of the T-die whose parameters the spec does not list. -/
def henDevAny (c : Chip) (code : Nat) : Chip := ({ c with freeCtr := c.freeCtr + 4 }).henDev code c.freeParams
/-- A record about a job's work (R313). -/
def henJob (c : Chip) (p job code : Nat) (params : List Nat) : Chip :=
  c.henCtx (match c.jobOf p job with | some j => j.ctx | none => 64) p code params

/-! Engines -/

/-- A logical engine has no physical engine (R22). -/
def vacant (c : Chip) (p e : Nat) : Bool := SMap.get (34 * (e / 32) + e % 32) (c.part p).engMap e == 511
/-- An engine group has a vacant engine. -/
def groupVacant (c : Chip) (p g : Nat) : Bool := (List.range 32).any fun i => c.vacant p (32 * g + i)
/-- Supply stage 3 or more stops engine groups 4 to 7 (R186, R446). -/
def halved (c : Chip) (p : Nat) : Bool := 3 ≤ c.stageOf p
/-- The groups that a GENERATE of `n` groups lends (R121, R123): the highest-numbered without vacant engines, or the highest-numbered where every group
has some; of groups 1 to 3, at most three, while stage 3 holds. -/
def chooseLent (c : Chip) (p n : Nat) : List Nat :=
  if c.halved p then [3, 2, 1].take n
  else
    let all := [7, 6, 5, 4, 3, 2, 1, 0]
    let good := all.filter fun g => !c.groupVacant p g
    (if good.isEmpty then all else good).take n
/-- The groups lent to route mode while GENERATE runs: fixed at its start (R448), and chosen anew only as stage 3 is entered (R123). -/
def lentGroups (c : Chip) (p : Nat) : List Nat :=
  match (c.part p).txn with
  | some x => if x.stage = 1 then x.lent else []
  | none => []
/-- The engines of groups that work, in ascending order: neither vacant nor stopped (R122). -/
def routeEngines (c : Chip) (p : Nat) (groups : List Nat) : List Nat :=
  let stops := (c.part p).stops
  (List.range (if c.halved p then 128 else 256)).filter fun e =>
    !c.vacant p e && e / 32 ∈ groups && (SMap.find? stops (0x10 + e / 32)).isNone
/-- The engine that computes an item of route mode: item i of n engines goes to engine i mod n, those dealt again among the new ones (R122, R123). -/
def itemEngine (x : Txn) (i : Nat) : Option Nat :=
  match x.redealt with
  | some (items, es) =>
    (match items.findIdx? (· = i) with
     | some k => es[k % max 1 es.length]?
     | none => x.engines[i % max 1 x.engines.length]?)
  | none => x.engines[i % max 1 x.engines.length]?
/-- The working engines (R184): neither vacant nor lent, stopped by the supply or in a group that is in reset. -/
def working (c : Chip) (p : Nat) : List Nat :=
  let lent := c.lentGroups p
  let stops := (c.part p).stops
  (List.range (if c.halved p then 128 else 256)).filter fun e =>
    !c.vacant p e && !(e / 32 ∈ lent) && (SMap.find? stops (0x10 + e / 32)).isNone
/-- Publishes ENGINES_WORKING. -/
def publishEngines (c : Chip) (p : Nat) : Chip := c.setReg .SCHED_ENGINES_WORKING p 0 (c.working p).length
/-- Changes the engines' work. -/
def modEngines (c : Chip) (p : Nat) (f : Engines → Engines) : Chip := c.modPart p fun s => { s with engines := f s.engines }
/-- An engine's deque. -/
def deque (c : Chip) (p e : Nat) : List WorkUnit := SMap.get [] (c.part p).engines.deques e
/-- Sets an engine's deque. -/
def setDeque (c : Chip) (p e : Nat) (l : List WorkUnit) : Chip :=
  c.modEngines p fun g => { g with deques := SMap.set [] g.deques e l }

/-- Deals one unit to the next working engine, or to the overflow queue where that deque is full (R184). -/
def dealUnit (c : Chip) (p : Nat) (u : WorkUnit) : Chip :=
  let ws := c.working p
  let j := (c.part p).engines.dealt
  let c := c.modEngines p fun g => { g with dealt := g.dealt + 1 }
  match ws[j % max 1 ws.length]? with
  | some e =>
    if (c.deque p e).length < 64 then c.setDeque p e (c.deque p e ++ [u])
    else (c.modEngines p fun g => { g with overflow := g.overflow ++ [u] }).count .SCHED_OVERFLOW_UNITS p
  | none => (c.modEngines p fun g => { g with overflow := g.overflow ++ [u] }).count .SCHED_OVERFLOW_UNITS p

/-- Cuts a list into pieces of at most 32. -/
def cut32 {α : Type} : Nat → List α → List (List α)
  | 0, _ => []
  | n + 1, l => if l.isEmpty then [] else l.take 32 :: cut32 n (l.drop 32)

/-- Deals items of a window: units of up to 32 items of one source, sources and items in rank order. -/
def dealItems (c : Chip) (p job w : Nat) (lead : Bool) (items : List Item) : Chip :=
  let l := sortBy (Item.before w) items
  let srcs := (l.map fun i => i.src).eraseDups
  srcs.foldl (fun c s =>
    (cut32 (l.length + 1) ((l.filter fun i => i.src = s).map fun i => i.id)).foldl (fun c ids =>
      c.dealUnit p { job := job, frame := w, lead := lead, items := ids }) c) c

/-- The context of a unit's job. -/
def unitCtx (c : Chip) (p : Nat) (u : WorkUnit) : Option Nat := (c.jobOf p u.job).map fun j => j.ctx
/-- Contexts with work waiting in a partition's engines, ascending. -/
def ctxWork (c : Chip) (p : Nat) : List Nat :=
  let g := (c.part p).engines
  let l := ((g.deques.flatMap fun e => e.2) ++ g.overflow).filterMap (c.unitCtx p)
  sortBy (fun a b => a ≤ b) l.eraseDups
/-- The next context with work after `x`, in ascending order and wrapping (R200). -/
def nextCtx (work : List Nat) (x : Nat) : Option Nat :=
  match work.find? (fun y => x < y) with | some y => some y | none => work.head?
/-- The engines pass on where the context served has no work left (R200). -/
def serve (c : Chip) (p : Nat) : Chip :=
  let work := c.ctxWork p
  match (c.part p).engines.ctx with
  | some x =>
    if x ∈ work then c else c.modEngines p fun g => { g with ctx := nextCtx work x, since := c.now }
  | none => c.modEngines p fun g => { g with ctx := work.head?, since := c.now }

/-! Where an item may be placed -/

/-- The pair or circuit that a link belongs to is unusable now: engines place nothing across it from the report on (R120). -/
def nowDown (c : Chip) (z : Nat) (u : UnitId) (q : Nat) : Bool :=
  let ok := fun q => match SMap.find? (c.part z).topo.links (linkKey u q) with | some l => linkUsable l | none => false
  let paired : Bool := match u with | .leaf _ _ => 32 ≤ q | .spine _ _ => q < 32 | _ => false
  if paired then !(ok (q - q % 2) || ok (q - q % 2 + 1)) else !ok q

/-- The pair or circuit of a link, as peer reports name it (R120): spine and leaf, or spine and circuit port. -/
def pairOf (l : Nat) : Option Nat :=
  if l < 1024 then none
  else if l < 1536 then some ((l - 1024) % 32 / 2 * 16 + (l - 1024) / 32)
  else if l < 2048 then some ((l - 1536) / 32 * 16 + (l - 1536) % 32 / 2)
  else some (1024 + (l - 2048) / 16 * 64 + 32 + (l - 2048) % 16)

/-- No dynamic item may cross an output link: VIOL_THRESH (R299), a link-health flag (R255), an unresolved agent (R134), or a
pair that is down, in another G9's pod as the reports say (R120); nor a zone whose partition is in reset or whose G9 is down (R300, R426). -/
def linkBlocked (c : Chip) (p pl : Nat) : Bool :=
  match c.partOfPod (pl / 2304) with
  | none => c.down.contains (pl / 2304 / 16) || (match pairOf (pl % 2304) with
      | some k => (pl / 2304, k) ∈ (c.part p).topo.peerDown | none => false)
  | some z =>
    let e := lamEnd z (pl % 2304)
    let s := c.part z
    let far := match SMap.find? s.topo.links (linkKey e.1 e.2) with
      | some l => (match l.far with | some u => linkKey u l.farPort | none => 0)
      | none => 0
    c.bypassed z || (pl % 2304) ∈ s.violBlocked
      || (c.reg .LEARN_LH_ACTION z != 0 && ((linkKey e.1 e.2) ∈ s.flagged || far ∈ s.flagged))
      || e.1.code ∈ s.topo.unresolved || c.nowDown z e.1 e.2

/-- A zone is in its DRAIN to RESUME interval (R131). -/
def draining (c : Chip) (z : Nat) : Bool := match (c.part z).txn with | some x => 3 ≤ x.stage && x.stage ≤ 6 | none => false

/-- A window lies in the interval of R131: a transaction of the zone is between DRAIN and RESUME as its items are placed, or its first slot is within 10 µs
of the end of RESUME. -/
def inTransaction (c : Chip) (z w : Nat) : Bool :=
  c.draining z || ((c.part z).lastResume ≠ 0 && w * 131072 < (c.part z).lastResume + 10000)

/-- The zones of this G9 in which a unit's items may lie: its own, for a lead every zone of the slice. -/
def unitZones (c : Chip) (p job : Nat) (lead : Bool) : List Nat :=
  if lead then match (c.jobOf p job).bind fun j => c.sliceOf j.slice with
    | some s => p :: (s.pods c.grid).filterMap c.partOfPod
    | none => [p]
  else [p]

/-- Items of a window wait while a zone of theirs is between DRAIN and RESUME and the placement cut has not come: whether the window begins 10 µs after the
end of RESUME is not known before (R131). -/
def txnWait (c : Chip) (p job w : Nat) (lead : Bool) : Bool :=
  (c.now : Int) < c.pcOf p w && (c.unitZones p job lead).any c.draining

/-- The links of an item's path, or none where R180 lets it not be placed. -/
def itemPath (c : Chip) (p w : Nat) (sl : Option Slice) (i : Item) : Option (List (Nat × Nat)) :=
  let pod := if i.cross && i.pod ≠ 0 then i.pod - 1 else c.podOf p
  let path :=
    if i.dst / 2 ^ 20 ≠ 0 then sl.map fun s => c.treeOf p c.epochView s pod i.pos i.src (i.dst / 2 ^ 20)
    else c.pathOf p c.epochView pod i.pos i.src i.dst
  let deg := match c.partOfPod pod, c.named p i.dst with
    | some z, some (.unit (.endpoint _ _) j l) =>
      !(j = pod && l = i.pos / 32) && 2 ≤ (c.unusable z (c.part z).epochLinks j l).length
    | _, _ => false
  match path with
  | none => none
  | some l =>
    let crosses := i.cross && l.any fun h => match c.partOfPod (h.1 / 2304) with | some z => z ≠ p && c.inTransaction z w | none => false
    if deg || c.inTransaction p w || crosses || l.any (fun h => c.linkBlocked p h.1) then none else some l

/-! Claims -/

/-- The holes of a kind below the span (R181, R447). -/
def holesFor (j : Job) (x : Win) (cross : Bool) : List Hole :=
  (j.holesOf x.frame).filter fun h => h.kind = ofBool cross && h.frame < x.span

/-- The windows that a lead's map covers (R195): the two next to be placed, whose send deadlines have not passed. -/
def leadWins (c : Chip) (p : Nat) (j : Job) : List Nat :=
  let n := max 1 j.frames
  let f := c.now / 131072
  let w0 := j.first + (f - j.first) / n * n
  (((List.range 8).map fun i => w0 + i * n).filter fun w => (c.now : Int) ≤ c.sdOf p w).take 2

/-- The slots of a link that a lead's map treats as free (R195): XPOD hole slots of its windows without a static entry or a claim. -/
def crossClear (c : Chip) (p : Nat) (xs : List Nat) (st : List (Nat × Nat)) (pl slot : Nat) : Bool :=
  slot ∈ xs && slot % 64 ≠ 63 && !((pl, slot) ∈ st) && !((slot / 64) * 2 ^ 21 + pl ∈ (c.part p).xbadWords)
    && !bit (SMap.get 0 (c.part p).xocc ((slot / 64) * 2 ^ 21 + pl)) (slot % 64)

/-- Whether a source slot's hops are all clear. A lead's map also holds the tails of the slice's static entries of windows before (R195). -/
def hopsClear (c : Chip) (p : Nat) (j : Job) (x : Win) (path : List (Nat × Nat)) : Nat → Nat → Bool :=
  let base := podLam (c.podOf p) 0
  if x.lead then
    let ws := c.leadWins p j
    let n := max 1 j.frames
    let xs := ws.flatMap fun w => match j.zoneTmpl w with | some t => xpodSlots t w | none => []
    let before := (List.range (ceilDiv 16 n + 1)).map fun i => ws.headD 0 - (i + 1) * n
    let st := match c.sliceOf j.slice with
      | some sl => (before ++ ws).flatMap fun w =>
          if w < j.first then [] else match j.zoneTmpl w with | some t => c.staticSlots p c.epochView sl t w fun _ => true | none => []
      | none => []
    fun f t => path.all fun h => c.crossClear p xs st h.1 ((x.frame + f) * 1024 + t + h.2)
  else fun f t => path.all fun h => !c.occupied p (h.1 - base) ((x.frame + f) * 1024 + t + h.2)

/-- The links and slots of a run. -/
def runSlots (w : Nat) (r : Placed) : List (Nat × Nat) :=
  (List.range r.len).flatMap fun k => r.hops.map fun h => (h.1, (w + r.frame) * 1024 + r.first + k + h.2)

/-- Sets or clears a run's bits, in the zone's map or in the lead's. -/
def markRun (c : Chip) (p w : Nat) (lead : Bool) (r : Placed) (b : Bool) : Chip :=
  if lead then
    (runSlots w r).foldl (fun c e =>
      let k := (e.2 / 64) * 2 ^ 21 + e.1
      c.modPart p fun s => { s with xocc := SMap.set 0 s.xocc k (setBit (SMap.get 0 s.xocc k) (e.2 % 64) b) }) c
  else c.markAll p ((runSlots w r).map fun e => (e.1 - podLam (c.podOf p) 0, e.2)) b

/-- Work of the slot engines on an item counts in the counter sets: with the vector's triple for new demand, else with the job
alone (R401, R402). -/
def itemEvent (c : Chip) (p job code : Nat) (i : Item) (n : Nat) : Chip :=
  let x := match c.jobOf p job with | some j => j.ctx | none => 64
  if i.cls = 5 then c.pevent p code x job i.layer (i.flow / 65536) n else c.pevent p code x job 0 0 n

/-- A claim port has read a word with bad parity: it is set to all ones until its frame leaves the ring (R171). -/
def parityWord (c : Chip) (p : Nat) (b : Nat × Nat × Nat) : Chip :=
  let k := occKey b.1 b.2.1 b.2.2
  let xk := (b.1 * 16 + b.2.2) * 2 ^ 21 + (b.2.1 - 2304)
  let c := c.modPart p fun s =>
    if b.2.1 < 2304 then { s with occ := SMap.set occNew s.occ k (2 ^ 64 - 1), badWords := addOnce s.badWords k }
    else { s with xbadWords := addOnce s.xbadWords xk }
  (c.count .SCHED_PARITY_ERRORS p).henPart p 0x1301 [b.2.1 % 2304, b.1, b.2.2]

/-- The first hop of a run whose compare-and-set fails, with what made it fail (R171, R182). -/
def failingHop (c : Chip) (p w : Nat) (lead : Bool) (r : Placed) (F : ClaimFaults) : Option (Nat × ClaimFaults) :=
  let link := fun (h : Nat × Nat) => if lead then 2304 + h.1 else h.1 - podLam (c.podOf p) 0
  r.hops.zipIdx.findSome? fun e =>
    let bad := F.bad.filter fun b => b.2.1 = link e.1 && hopTouches w r e.1 b.1 b.2.2
    let races := F.races.filter fun s => s.1 = e.1.1 && hopCovers w r e.1 s.2
    if bad.isEmpty && races.isEmpty then none else some (e.2, { bad := bad, races := races })

/-- Word operations that reserve a run on its first `n` hops. -/
def hopWords (w : Nat) (r : Placed) (n : Nat) : Nat :=
  ((r.hops.take n).map fun h => runWords ((w + r.frame) * 1024 + r.first + h.2) r.len).sum

/-- Reserves a run's bits hop by hop and confirms it (R182). -/
def claimRun (c : Chip) (p job w : Nat) (lead : Bool) (i : Item) (r : Placed) : Chip :=
  let words := hopWords w r r.hops.length
  let c := ((c.markRun p w lead r true).jcount p job .SCHED_CLAIM_ATTEMPTS words).jcount p job .SCHED_CLAIMS 1
  ((c.jcount p job .SCHED_RUNS 1).itemEvent p job 0x20 i words).itemEvent p job 0x21 i 1

/-- A reservation fails on a hop: the bits on earlier hops are cleared again, and words of bad parity are set (R171, R182). -/
def claimFails (c : Chip) (p job w : Nat) (i : Item) (r : Placed) (hop : Nat) (F : ClaimFaults) : Chip :=
  let words := hopWords w r (hop + 1)
  let c := F.bad.foldl (fun c b => c.parityWord p b) c
  let c := (c.jcount p job .SCHED_CLAIM_ATTEMPTS words).jcount p job .SCHED_CLAIM_FAILS 1
  (c.itemEvent p job 0x20 i words).itemEvent p job 0x22 i 1

/-- Replaces an item of a window. -/
def putItem (c : Chip) (p job w : Nat) (lead : Bool) (i : Item) : Chip :=
  c.modWin p job w lead fun x => { x with items := mapIf (fun y => y.id = i.id) (fun _ => i) x.items }

/-- How many entries a source's list holds so far. -/
def listLen (x : Win) (src : Nat) : Nat := ((x.items.filter fun i => i.src = src).map fun i => i.runs.length).sum

/-- Places an item run by run from its search position (R181, R182); after a claim that fails the search goes on one slot later. -/
def placeRuns (c : Chip) (p job w : Nat) (lead : Bool) (path : List (Nat × Nat)) : Nat → Item → ClaimFaults → Chip × Item × ClaimFaults
  | 0, i, F => (c, { i with ended := true }, F)
  | n + 1, i, F =>
    match c.jobOf p job with
    | none => (c, { i with ended := true }, F)
    | some j =>
      let x := j.win w lead
      let need := i.want - i.placed
      if need = 0 ∨ 16384 ≤ listLen x i.src then (c, { i with ended := true }, F)
      else
        match proposeRun (c.hopsClear p j x path) (holesFor j x i.cross) i.at_ need with
        | none => (c, { i with ended := true }, F)
        | some (f, t, len) =>
          let r : Placed := { frame := f, first := t, len := len, hops := path }
          match c.failingHop p w lead r F with
          | some (hop, G) =>
            placeRuns (c.claimFails p job w i r hop G) p job w lead path n { i with at_ := f * 1024 + t + 1 }
              { bad := F.bad.filter (fun b => !(b ∈ G.bad)), races := F.races.filter fun e => !(e ∈ G.races) }
          | none =>
            let i := { i with runs := i.runs ++ [r], at_ := f * 1024 + t + len }
            placeRuns ((c.claimRun p job w lead i r).putItem p job w lead i) p job w lead path n i F

/-- Places one item; one that R180 rules out, or of an UNLOCKED G9, spills whole. -/
def placeItem (c : Chip) (p job w : Nat) (lead : Bool) (i : Item) (F : ClaimFaults) : Chip × ClaimFaults :=
  if i.ended then (c, F)
  else
    let sl := match c.jobOf p job with | some j => c.sliceOf j.slice | none => none
    match (if c.unlocked then none else c.itemPath p w sl i) with
    | none => ((c.putItem p job w lead { i with ended := true, degraded := true }).jcount p job .SCHED_DEGRADED_ITEMS 1, F)
    | some path =>
      let r := c.placeRuns p job w lead path (i.want + F.bad.length + F.races.length + 1) i F
      let c := r.1.putItem p job w lead r.2.1
      (if lead ∧ 0 < r.2.1.placed then c.jcount p job .SCHED_XITEMS_PLACED 1 else c, r.2.2)

/-- Gives back every run of an item. -/
def releaseItem (c : Chip) (p job w : Nat) (lead : Bool) (i : Item) : Chip :=
  (i.runs.foldl (fun c r => c.markRun p w lead r false) c).putItem p job w lead { i with runs := [], at_ := 0, ended := true }

/-- What a lead's map holds through a zone's pod, for windows that the zone's interval from DRAIN to 10 µs after RESUME covers, is released (R198). -/
def releaseCross (c : Chip) (z from_ : Nat) : Chip :=
  let pod := c.podOf z
  allParts.foldl (fun c q => (c.part q).jobs.foldl (fun c j =>
    (j.wins.filter fun x => x.lead && x.frame * 131072 < c.now + 10000 && from_ < (x.frame + j.frames) * 131072).foldl (fun c x =>
      (x.items.filter fun i => i.runs.any fun r => r.hops.any fun h => h.1 / 2304 = pod).foldl (fun c i => c.releaseItem q j.job x.frame true i) c) c) c) c

/-! Ordered rounds (R187) -/

/-- One round: the first 64 unfinished items propose against the map as it stood; a proposal is claimed unless it meets a bit
claimed earlier in the round. -/
def orderedRound (c : Chip) (p job w : Nat) (lead : Bool) (l : List Item) : Chip :=
  match c.jobOf p job with
  | none => c
  | some j =>
    let x := j.win w lead
    let sl := c.sliceOf j.slice
    let now := c
    (l.foldl (fun (a : Chip × List (Nat × Nat)) i =>
      match (if now.unlocked then none else now.itemPath p w sl i) with
      | none =>
        ((a.1.putItem p job w lead { i with ended := true, degraded := true }).jcount p job .SCHED_DEGRADED_ITEMS 1, a.2)
      | some path =>
        let need := i.want - i.placed
        if need = 0 ∨ 16384 ≤ listLen x i.src then (a.1.putItem p job w lead { i with ended := true }, a.2)
        else
          match proposeRun (now.hopsClear p j x path) (holesFor j x i.cross) i.at_ need with
          | none => (a.1.putItem p job w lead { i with ended := true }, a.2)
          | some (f, t, len) =>
            let r : Placed := { frame := f, first := t, len := len, hops := path }
            let sl := runSlots w r
            if sl.any (fun e => e ∈ a.2) then a
            else
              let i := { i with runs := i.runs ++ [r], at_ := f * 1024 + t + len, ended := i.want ≤ i.placed + len }
              ((a.1.claimRun p job w lead i r).putItem p job w lead i, a.2 ++ sl)) (c, [])).1

/-- The unfinished items of a class in rank order. -/
def openItems (c : Chip) (p job w : Nat) (lead : Bool) (cls : Nat) : List Item :=
  sortBy (Item.before w) ((c.winOf p job w lead).items.filter fun i => i.cls = cls && !i.ended && (lead || !i.cross))

/-- Rounds until a class is placed; each round ends or extends at least its first item. -/
def orderedClass (c : Chip) (p job w : Nat) (lead : Bool) (cls : Nat) : Nat → Chip
  | 0 => c
  | n + 1 =>
    let l := c.openItems p job w lead cls
    if l.isEmpty then c else orderedClass (c.orderedRound p job w lead (l.take 64)) p job w lead cls n

/-- The rounds of one class. -/
def orderedPlace (c : Chip) (p job w : Nat) (lead : Bool) (cls : Nat) : Chip :=
  let l := c.openItems p job w lead cls
  c.orderedClass p job w lead cls (((l.map fun i => i.want) ).sum + l.length + 1)

/-! Windows and items -/

/-- Adds items to a window under fresh numbers; they come back as numbered. -/
def addItems (c : Chip) (p job w : Nat) (lead : Bool) (l : List Item) : Chip × List Item :=
  let x := c.winOf p job w lead
  let l := l.zipIdx.map fun e => { e.1 with id := x.nextId + e.2 }
  (c.modWin p job w lead fun x => { x with items := x.items ++ l, nextId := x.nextId + l.length }, l)

/-- A destination is in another pod than the partition's. -/
def isCross (c : Chip) (p dst : Nat) : Bool :=
  match c.placeOf p dst with | some (pod, _) => pod ≠ c.podOf p | none => false

/-- A window is opened when the partition first works on it: its template by R89, its span, and its standing demand (R168). -/
def openWin (c : Chip) (p job w : Nat) : Chip :=
  match c.jobOf p job with
  | none => c
  | some j =>
    if j.wins.any fun x => x.frame = w && !x.lead then c
    else
      let c := c.modWin p job w false fun x => { x with halfEngines := c.halved p }
      match j.zoneTmpl w with
      | none => c
      | some t =>
        let items := t.displaced.filterMap fun d =>
          match (t.entries.find? fun s => s.1 = d.1), c.placeOf p d.1 with
          | some s, some (_, pos) => (s.2[d.2]?).map fun e =>
              ({ id := 0, src := d.1, pos := pos, dst := e.dst + e.group * 2 ^ 20, flow := e.flow,
                 step := j.lastStep.getD 0, idx := d.2, cls := 3, cross := !e.mcast && c.isCross p e.dst, want := e.run, owed := e.run } : Item)
          | _, _ => none
        let r := c.addItems p job w false items
        if (c.modeOf p j w).2.1 then r.1 else r.1.dealItems p job w false (r.2.filter fun i => !i.cross)

/-- Chunks spill: to the next window under policy NEXT, else to LOOSE; carried and standing demand never travels again (R189,
R190). -/
def spillChunks (c : Chip) (p job w : Nat) (i : Item) (n : Nat) : Chip :=
  if n = 0 then c
  else
    match c.jobOf p job with
    | none => c
    | some j =>
      let c := c.modWin p job w false fun x =>
        { x with spilled := x.spilled + n, spanCut := x.spanCut + (if x.span < j.frames then n else 0) }
      let next := w + j.frames
      let y := j.win next false
      let fits : Bool := match y.step with | some s => s = i.step || s = (i.step + 1) % 2 ^ 32 | none => true
      if (c.modeOf p j w).2.2 = 0 ∧ (i.cls = 2 ∨ 5 ≤ i.cls) then
        let c := (c.jcount p job .SCHED_SPILL_NEXT n).itemEvent p job 0x26 i n
        if fits ∧ !j.stopped then
          let c := c.openWin p job next
          let it := { i with cls := 4, want := n, owed := n, runs := [], at_ := 0, ended := false, degraded := false }
          let r := c.addItems p job next false [it]
          let c := r.1.modWin p job next false fun y => { y with carriedStep := some i.step }
          if i.cross ∨ (c.modeOf p j next).2.1 then c else c.dealItems p job next false r.2
        else (c.jcount p job .SCHED_SPILL_LOOSE n).itemEvent p job 0x27 i n
      else (c.jcount p job .SCHED_SPILL_LOOSE n).itemEvent p job 0x27 i n

/-- The carried items of a window are given up: the new demand's STEP does not follow theirs (R190). -/
def dropCarried (c : Chip) (p job w step : Nat) : Chip :=
  let x := c.winOf p job w false
  match x.carriedStep with
  | none => c
  | some s =>
    if step = s ∨ step = (s + 1) % 2 ^ 32 then c
    else
      let l := x.items.filter fun i => i.cls = 4
      let c := l.foldl (fun c i => ((c.releaseItem p job w false i).jcount p job .SCHED_SPILL_LOOSE i.owed).itemEvent p job 0x27 i i.owed) c
      c.modWin p job w false fun x =>
        { x with carriedStep := none, items := x.items.filter fun i => i.cls ≠ 4 }

/-- A FID is fenced for a job (R174, check 9). -/
def fencedFor (c : Chip) (p job fid : Nat) : Bool :=
  (c.part p).fences.any fun f => f.job = job && f.fid = fid && !f.lifted

/-- The comparison of R178 for a source whose vector has been taken. The releases come first; the new items are returned. An entry that no forecast has counts
as forecast 0: within the tolerance it is kept without a run, so that its chunks spill. Cross items are compared by the slice's lead (R196). -/
def resolve (c : Chip) (p job w : Nat) (v : Vector) : Chip × List Item :=
  match c.jobOf p job with
  | none => (c, [])
  | some j =>
    let x := j.win w false
    let tol := j.tolOf w
    let flow := v.op % 65536 * 65536 + v.step % 65536
    let specs := x.items.filter fun i => i.cls = 2 && i.src = v.src && !i.cross
    let c := c.modWin p job w false fun x => { x with items := x.items.filter fun y => !(y.cls = 2 && y.src = v.src && y.cross) }
    let near := fun (f a : Nat) => (f - a) + (a - f) ≤ max tol.1 (f * tol.2 / 256)
    let actual := fun (dst : Nat) => match v.entries.find? fun e => e.1 = dst with | some e => e.2 | none => 0
    let keeps := fun (i : Item) => (v.entries.any fun e => e.1 = i.dst) && near i.want (actual i.dst)
    let zeroKept := fun (i : Item) => !(v.entries.any fun e => e.1 = i.dst) && near i.want 0
    let c := specs.foldl (fun c i =>
      if keeps i ∨ zeroKept i then
        (c.putItem p job w false { i with owed := actual i.dst, flow := flow, step := v.step, ended := true }).jcount p job .SCHED_ITEMS_KEPT 1
      else
        let c := c.releaseItem p job w false i
        let c := c.modWin p job w false fun x => { x with items := x.items.filter fun y => y.id ≠ i.id }
        if actual i.dst = 0 then c.jcount p job .SCHED_ITEMS_RELEASED 1
        else (c.jcount p job .SCHED_ITEMS_REPLACED 1).itemEvent p job 0x28 { i with cls := 5, flow := flow, layer := v.layer } 1) c
    let kept := (specs.filter fun i => keeps i || zeroKept i).length
    let repl := (specs.filter fun i => !(keeps i || zeroKept i) && actual i.dst ≠ 0).length
    let c := c.modWin p job w false fun x =>
      { x with kept := x.kept + kept, replaced := x.replaced + repl, released := x.released + (specs.length - kept - repl) }
    let new := v.entries.zipIdx.filterMap fun e =>
      let s := specs.find? fun i => i.dst = e.1.1
      let stays : Bool := match s with | some i => keeps i | none => false
      let cross := c.isCross p e.1.1
      let spills := s.isNone && !cross && near 0 e.1.2
      if stays then none
      else some ((({ id := 0, src := v.src, pos := v.pos, dst := e.1.1, flow := flow, step := v.step, idx := e.2, cls := 5,
                     cross := cross, want := if spills then 0 else e.1.2, owed := e.1.2, layer := v.layer, ended := spills } : Item)), s.isNone)
    let fresh := (new.filter fun e => e.2 && !e.1.cross && !e.1.ended).length
    let c := (c.jcount p job .SCHED_ITEMS_NEW fresh).jcount p job .SCHED_ITEMS_KEPT (new.filter fun e => e.1.ended).length
    (c.modWin p job w false fun x => { x with fresh := x.fresh + fresh }).addItems p job w false (new.map fun e => e.1)

/-- A source's new items go to the engines at once in free mode; cross items wait for the lead. -/
def dealNew (c : Chip) (p job w : Nat) (l : List Item) : Chip := c.dealItems p job w false (l.filter fun i => !i.cross && !i.ended)

end Chip

end Sys2Proof.Machine
end

