-- ==== Sys2Proof/Machine/LearnOps.lean ====
section
/-! DEFINITION. What a window's placement feeds and takes from learned functions: demand history (R240, R241), the confidence
threshold (R247), window sizing (R447), the start of an analysis (R249) and the effect of advice (R251). -/

namespace Sys2Proof.Machine

open Sys2Proof

/-- A policy section `y` that was current is replaced by `x` from a window on (R279). -/
def Job.turnsTo (j : Job) (start : Nat) (y x : Policy) : Job :=
  let y := match j.priors.find? fun z => start ≤ z.start with | some z => z.policy | none => y
  let z : Prior := { start := start, policy := y
                     empties := y.histDepth ≠ x.histDepth || y.histWidth ≠ x.histWidth || y.fcModel ≠ x.fcModel }
  { j with priors := (j.priors.filter fun v => v.start < start) ++ [z] }
/-- HIST_FILLED as a window finds it: nothing where its policy has emptied the history (R279). -/
def Job.filledAt (j : Job) (w : Nat) : Nat :=
  if j.priors.any fun x => x.empties && x.start ≤ w then 0 else j.filled

namespace Chip

/-- The policy section of a job in a partition, or the values of a job without one (R266). -/
def policyOf (c : Chip) (p job : Nat) : Policy :=
  ((c.part p).sections.findSome? fun s => match s.body with
    | .policy x => if x.job = job && s.state = 1 then some x else none
    | _ => none).getD { job := job }

/-- The policy that governs a window of a job: a replaced one governs the windows before its successor's FROM_FRAME (R279). -/
def policyAt (c : Chip) (p : Nat) (j : Job) (w : Nat) : Policy :=
  match j.priors.find? fun x => w < x.start with
  | some x => x.policy
  | none => c.policyOf p j.job
/-- The slot k of the LEARN page that a job has: its place among the zone's jobs in order of admission (R257). -/
def learnSlot (c : Chip) (p job : Nat) : Option Nat :=
  ((sortBy (fun (a b : Job) => a.order ≤ b.order) (c.part p).jobs).findIdx? fun j => j.job = job)

/-- PIN of a job's slot. -/
def pinned (c : Chip) (p job : Nat) : Bool :=
  match c.learnSlot p job with | some k => c.reg .LEARN_PIN p k == 1 | none => false

/-- The threshold in force at a window: CONF_CEIL while pinned (R247), and within the bounds of the policy that governs it (R279). -/
def thresholdOf (c : Chip) (p : Nat) (j : Job) (w : Nat) : Nat :=
  let pol := c.policyAt p j w
  if c.pinned p j.job then pol.confCeil else clampTo pol.confFloor pol.confCeil j.thr

/-- Publishes the slots of the LEARN page. -/
def publishLearn (c : Chip) (p : Nat) : Chip :=
  let js := sortBy (fun (a b : Job) => a.order ≤ b.order) (c.part p).jobs
  (List.range 8).foldl (fun c k =>
    match js[k]? with
    | some j =>
      let pol := c.policyAt p j (c.now / 131072)
      let c := (c.setReg .LEARN_JOB p k j.job).setReg .LEARN_CONF_NOW p k (c.thresholdOf p j (c.now / 131072))
      let c := (c.setReg .LEARN_CONF_FLOOR p k pol.confFloor).setReg .LEARN_CONF_CEIL p k pol.confCeil
      (c.setReg .LEARN_LAST_HIT p k j.lastHit).setReg .LEARN_HIST_FILLED p k j.filled
    | none =>
      let c := (c.setReg .LEARN_JOB p k 0xFFFF).setReg .LEARN_CONF_NOW p k 0
      let c := (c.setReg .LEARN_CONF_FLOOR p k 0).setReg .LEARN_CONF_CEIL p k 0
      (c.setReg .LEARN_LAST_HIT p k 0).setReg .LEARN_HIST_FILLED p k 0) c

/-! Demand history -/

/-- Writes a whole tensor under the next GENERATION and updates its table entry (R241). -/
def rewriteTensor (c : Chip) (p x h : Nat) (val : Nat → Nat → Nat) : Chip :=
  match c.tensor p x h with
  | .inr _ => c
  | .inl t =>
    let t' := { t with gen := trunc 32 (t.gen + 1) }
    let c := (List.range t.count).foldl (fun c i =>
      c.setTile p (t.first + i) (tensorTile x t' i (tensorPayload t' i val))) c
    c.setEntry p x h (entryOf t')

/-- An element of a handle's tensor as it stands; 0 where the handle names none. -/
def elemOf (c : Chip) (p x h i j : Nat) : Nat :=
  match c.tensor p x h with | .inl t => c.elem p t i j | .inr _ => 0

/-- Empties a job's history: every HIST_STEPS row reads −1 (R241, R251). -/
def emptyHistory (c : Chip) (p job : Nat) : Chip :=
  match c.jobOf p job with
  | none => c
  | some j =>
    let pol := c.policyOf p job
    let c := if pol.histSteps = 0xFFFF then c else c.rewriteTensor p j.ctx pol.histSteps fun _ _ => 2 ^ 32 - 1
    (c.modJob p job fun j => { j with filled := 0, empty_ := true }).publishLearn p

/-- The HIST_WIDTH entries that a row takes: those of largest COUNT, ties to the lower DST, sorted by DST. -/
def histRow (width : Nat) (l : List (Nat × Nat)) : List Nat :=
  let big := (sortBy (fun (a b : Nat × Nat) => b.2 < a.2 ∨ (a.2 = b.2 ∧ a.1 ≤ b.1)) l).take width
  (sortBy (fun (a b : Nat × Nat) => a.1 ≤ b.1) big).map fun e => e.1 % 2 ^ 20 + (e.2 % 4096) <<< 20

/-- The first window that a replaced policy governs has come: the policy before it is gone, and the history empty where that asks it. -/
def turnPolicy (c : Chip) (p job w : Nat) : Chip :=
  match c.jobOf p job with
  | none => c
  | some j =>
    let past := j.priors.filter fun x => x.start ≤ w
    if past.isEmpty then c
    else
      let j := { j with priors := j.priors.filter fun x => w < x.start }
      let pol := c.policyAt p j w
      let c := c.modJob p job fun _ => { j with thr := clampTo pol.confFloor pol.confCeil j.thr }
      if past.any fun x => x.empties then c.emptyHistory p job else c.publishLearn p

/-- The history slot of a window is written at its gather point (R241). -/
def writeHistory (c : Chip) (p job w : Nat) : Chip :=
  let c := c.turnPolicy p job w
  match c.jobOf p job with
  | none => c
  | some j =>
    let pol := c.policyAt p j w
    let x := j.win w false
    if !(c.modeOf p j w).1 ∨ (j.holesOf w).isEmpty ∨ pol.hist = 0xFFFF ∨ pol.histSteps = 0xFFFF then c
    else
      let slot := (w - j.first) / max 1 j.frames % max 1 pol.histDepth
      let rows := x.vectors.map fun v => (v.pos, if v.fenced then [] else histRow pol.histWidth v.entries)
      let cut := (x.vectors.filter fun v => pol.histWidth < v.entries.length).length
      let c := c.jcount p job .LEARN_HIST_TRUNCATED cut
      let was := c
      let fresh := j.empty_
      let c := c.rewriteTensor p j.ctx pol.hist fun r k =>
        if r / 512 = slot then
          match rows.find? fun e => e.1 = r % 512 with | some e => e.2.getD k 0 | none => 0
        else if fresh then 0 else was.elemOf p j.ctx pol.hist r k
      let c := c.rewriteTensor p j.ctx pol.histSteps fun r _ =>
        if r = slot then x.listStep j.lastStep
        else if fresh then 2 ^ 32 - 1 else was.elemOf p j.ctx pol.histSteps r 0
      let vacant : Bool := fresh || was.elemOf p j.ctx pol.histSteps slot 0 == 2 ^ 32 - 1
      let filled := if vacant then min (j.filled + 1) pol.histDepth else j.filled
      (c.modJob p job fun j => { j with filled := filled, empty_ := false }).publishLearn p

/-! Confidence and span -/

/-- The threshold after a window that used a forecast (R247). -/
def adaptConf (c : Chip) (p job w : Nat) : Chip :=
  match c.jobOf p job with
  | none => c
  | some j =>
    let x := j.win w false
    let n := x.kept + x.replaced + x.released
    if !x.used ∨ x.adapted then c
    else
      let c := c.modWin p job w false fun x => { x with adapted := true }
      if n = 0 then c
      else
        let h := 256 * x.kept / n
        let pol := c.policyAt p j w
        let t := if h < c.reg .LEARN_HIT_LOW p then j.thr + c.reg .LEARN_CONF_STEP_UP p
                 else if c.reg .LEARN_HIT_HIGH p ≤ h then j.thr - c.reg .LEARN_CONF_STEP_DOWN p else j.thr
        let t := clampTo pol.confFloor pol.confCeil t
        let c := (c.modJob p job fun j => { j with lastHit := h }).publishLearn p
        if c.pinned p job ∨ t = j.thr then c
        else ((c.modJob p job fun j => { j with thr := t }).jcount p job .LEARN_CONF_CHANGES 1).publishLearn p

/-- The pinned span of a job: SPAN_CEIL limited to its windows (R445). -/
def spanPin (c : Chip) (j : Job) : Nat := min (c.reg .LOOPS_SPAN_CEIL) j.frames

/-- Window sizing after each window (R447). -/
def adaptSpan (c : Chip) (p job w : Nat) : Chip :=
  match c.jobOf p job with
  | none => c
  | some j =>
    let x := j.win w false
    let a := c.sdOf p w - c.gatherOf p j w
    let t := (x.lastList : Int) - c.gatherOf p j w
    let s :=
      if 0 < x.withheld ∨ 7 * a < 8 * t then j.span - 1
      else if 0 < x.spanCut ∧ 2 * t < a then j.span + 1 else j.span
    let s := min (min (max s (c.reg .LOOPS_SPAN_FLOOR)) (c.reg .LOOPS_SPAN_CEIL)) j.frames
    let s := if c.reg .LOOPS_SPAN_PIN = 1 ∨ (c.modeOf p j w).2.1 then c.spanPin j else s
    let c := c.setReg .LOOPS_SPAN_NOW 0 p x.span
    if s = j.span then c else (c.modJob p job fun j => { j with span := s }).count .LOOPS_SPAN_CHANGES

/-! Memory of a context's LPDDR6 region -/

/-- A byte of a context's LPDDR6 region in a partition. -/
def regionByte (c : Chip) (p x off : Nat) : Nat :=
  match SMap.find? (c.ctx x).shares p with
  | some s => if off / 2048 < s.lpTiles then (c.tile p (s.lpFirst + off / 2048)).byte (off % 2048) else 0
  | none => 0
/-- A little-endian number of the region. -/
def regionWord (c : Chip) (p x off n : Nat) : Nat := ofBytes ((List.range n).map fun i => c.regionByte p x (off + i))
/-- Writes bytes into raw-byte tiles of the region, each resealed under the next GENERATION (R250). -/
def regionWrite (c : Chip) (p x off : Nat) (b : List Nat) : Chip :=
  match SMap.find? (c.ctx x).shares p with
  | none => c
  | some s =>
    let put := (b.zipIdx.map fun e => (off + e.2, e.1)).filter fun e => e.1 / 2048 < s.lpTiles
    let c := put.foldl (fun c e =>
      let n := s.lpFirst + e.1 / 2048
      let t := c.tile p n
      c.setTile p n { t with data := SMap.set 0 t.data (e.1 % 2048) (e.2 % 256) }) c
    ((put.map fun e => e.1 / 2048).eraseDups).foldl (fun c i =>
      let n := s.lpFirst + i
      let t := c.tile p n
      c.setTile p n { t with ctx := x, format := 0x20, shape := 2047, gen := trunc 32 (t.gen + 1) }.sealed) c

/-! Analysis and advice -/

/-- The lead partition's FID of a slice is this partition's. -/
def leads (c : Chip) (p : Nat) (s : Slice) : Bool := s.lead = c.partFid p

/-- Changes a job's advice. -/
def modAdvice (c : Chip) (p job : Nat) (f : Advice → Advice) : Chip := c.modJob p job fun j => { j with advice := f j.advice }

/-- The tensor that a region offset holds as a matrix of E rows, its tiles in ascending order (R219, R248). -/
def regionTensor (c : Chip) (p x off format rows cols : Nat) : Tensor :=
  let first := match SMap.find? (c.ctx x).shares p with | some s => s.lpFirst | none => 0
  { first := first + off / 2048, gen := 0, format := format, rows := rows, cols := cols }

/-- The tiles of a tensor as they stand. -/
def tilesOf (c : Chip) (p : Nat) (t : Tensor) : List Tile := (List.range t.count).map fun i => c.tile p (t.first + i)

/-- An analysis starts on the lead unless one of the job is running or its advice stands accepted (R249). -/
def startAnalysis (c : Chip) (p job step : Nat) (asked : Bool) : Chip :=
  let no := fun (c : Chip) => if asked then c.jcount p job .LEARN_ANALYSES_REFUSED 1 else c
  match c.jobOf p job with
  | none => no c
  | some j =>
    let lead : Bool := match c.sliceOf j.slice with | some s => c.leads p s | none => false
    let pol := c.policyOf p job
    if !lead || !pol.analysis || j.stopped || j.advice.running.isSome || j.advice.state == 2 then no c
    else
      let run : Analysis :=
        { step := step, startAt := c.now, coact := c.tilesOf p (c.regionTensor p j.ctx pol.coact 7 pol.experts pol.experts) }
      (c.modAdvice p job fun a => { a with running := some run, lastStep := some step }).setReg .LEARN_ANALYSING p 0 job

/-- The trigger of R249 when the lead places a window. -/
def analysisTrigger (c : Chip) (p job step : Nat) : Chip :=
  match c.jobOf p job with
  | none => c
  | some j =>
    let pol := c.policyOf p job
    match j.advice.lastStep with
    | none => c.modAdvice p job fun a => { a with lastStep := some step }
    | some l =>
      if pol.analysis ∧ pol.analyseEvery ≠ 0 ∧ stepOlder ((l + pol.analyseEvery) % 2 ^ 32) step then
        c.startAnalysis p job step false
      else c

/-- The lead reads STATE at each window it places; advice whose EFFECTIVE_STEP has come takes effect (R251). -/
def adviceEffect (c : Chip) (p job step : Nat) : Chip :=
  match c.jobOf p job with
  | none => c
  | some j =>
    let pol := c.policyOf p job
    let accepted := j.advice.state = 1 ∧ c.regionByte p j.ctx (pol.advice + 4) = 2
    let eff := c.regionWord p j.ctx (pol.advice + 0x14) 4
    let c := if accepted then
        (c.modAdvice p job fun a => { a with state := 2, effective := eff }).regionWrite p j.ctx (pol.advice + 0x10) (bytesOf 4 eff)
      else c
    let a := if accepted then { j.advice with state := 2, effective := eff } else j.advice
    if a.state = 2 ∧ !stepOlder step a.effective then
      let c := c.regionWrite p j.ctx pol.current a.bins
      let c := (c.regionWrite p j.ctx (pol.advice + 4) [3]).modAdvice p job fun a => { a with state := 3 }
      let c := (c.jcount p job .LEARN_ADVICE_APPLIED 1).henAny p 0x3504 j.ctx
      let c := match c.sliceOf j.slice with
        | some s => (s.pods c.grid).foldl (fun (c : Chip) pod =>
            let fid := 0xFF000 + pod
            if fid = c.partFid p then c else c.pask p fid 0x84 [job, s.num, step] 0 j.ctx) c
        | none => c
      c.emptyHistory p job
    else c

end Chip

end Sys2Proof.Machine
end

