-- ==== Sys2Proof/Machine/Templates.lean ====
section
/-! DEFINITION. Templates in a zone (R167, R168, R270), and the lists that a partition sends to endpoints (R86, R192). -/

namespace Sys2Proof.Machine

open Sys2Proof

/-- What a partition's request is for, with a number: the `ref` of the request. -/
def refKey (kind n : Nat) : Nat := kind * 2 ^ 48 + n
/-- A fence order, by job and F. -/
abbrev refFence : Nat := 1
/-- A lift, by FID. -/
abbrev refLift : Nat := 2
/-- The open transaction of the zone. -/
abbrev refTxn : Nat := 3
/-- A static load. -/
abbrev refStatic : Nat := 4
/-- Templates of an image. -/
abbrev refTmpl : Nat := 5
/-- A sequence of a job. -/
abbrev refSeq : Nat := 6
/-- A silence check of an endpoint. -/
abbrev refSilence : Nat := 7
/-- A READ_BANK command. -/
abbrev refBank : Nat := 8
/-- A FENCE sent again. -/
abbrev refRetry : Nat := 9
/-- A WRITE of a slice, by slice. -/
abbrev refSlice : Nat := 10
/-- The EPOCH_QUERY of a restart, or of QUERY_EPOCHS. -/
abbrev refReport : Nat := 11
/-- A FALLBACK_CLEAR before a recommit. -/
abbrev refClear : Nat := 12
/-- A request to another G9 about a slice, by slice. -/
abbrev refReserve : Nat := 13

/-- An entry of R86 as the numbers of a message body. -/
def entryNums (e : SlotEntry) : List Nat :=
  [e.first, e.frame, e.run, ofBool e.nextStep, ofBool e.mcast, e.dst, e.group, e.flow]

/-- The segments of a list, up to 765 entries each; one segment where there are none. -/
def segmentsOf (l : List SlotEntry) : List (List SlotEntry) :=
  let n := max 1 (ceilDiv l.length 765)
  (List.range n).map fun i => (l.drop (765 * i)).take 765

/-- The bodies of a SLOT_LIST or TEMPLATE_LIST (R95). -/
def listBodies (w frames template step job : Nat) (l : List SlotEntry) : List (List Nat) :=
  let segs := segmentsOf l
  segs.zipIdx.map fun s =>
    [w % 2 ^ 32, frames, template, s.2, segs.length, s.1.length, l.length, step, job, listCrc l] ++ s.1.flatMap entryNums

/-- A template's entries for one source, those displaced left out, sorted (R168). -/
def ZTmpl.sentTo (t : ZTmpl) (src : Nat) : List SlotEntry :=
  match t.entries.find? fun s => s.1 = src with
  | some s => (s.2.zipIdx.filter fun e => !((src, e.2) ∈ t.displaced)).map Prod.fst
  | none => []

namespace Chip

/-- The job's endpoints in a partition's zone, with their positions. -/
def zoneEps (c : Chip) (p : Nat) (j : Job) : List (Nat × Nat) :=
  j.endpoints.filterMap fun f => match c.placeOf p f with
    | some (pod, n) => if pod = c.podOf p then some (f, n) else none
    | none => none

/-- Sends a template to one endpoint of the job. -/
def sendTemplate (c : Chip) (p : Nat) (j : Job) (t : ZTmpl) (fid : Nat) : Chip :=
  (listBodies 0 j.frames t.num (j.lastStep.getD 0) j.job (t.sentTo fid)).foldl (fun c b => c.pask p fid 0x44 b (refKey refTmpl j.job)) c
/-- Sends every template of a job to every endpoint of the zone. -/
def sendTemplates (c : Chip) (p : Nat) (j : Job) (ts : List ZTmpl) : Chip :=
  ts.foldl (fun c t => (c.zoneEps p j).foldl (fun c e => c.sendTemplate p j t e.1) c) c
/-- TEMPLATE_LIST with no entries for each template of a job (R160). -/
def clearTemplates (c : Chip) (p : Nat) (j : Job) : Chip :=
  c.sendTemplates p j (j.tmpls.map fun t => { t with entries := [] })

/-- A template section with FIDs and group numbers in place of indexes (R268). -/
def resolveTmpl (s : Slice) (t : Tmpl) : ZTmpl :=
  let fid := fun i => s.endpoints.getD i nullFid
  let ent := fun (e : SlotEntry) =>
    if e.mcast then { e with group := match s.groups[e.group]? with | some g => g.num | none => 0 }
    else { e with dst := fid e.dst }
  { num := t.num, holes := t.holes, entries := t.sources.map fun x => (fid x.1, x.2.map ent) }

/-- The slot numbers within the frame that a template's static entries take on the links of the zone (R167). -/
def slotNumbers (c : Chip) (p : Nat) (v : PathView) (s : Slice) (t : ZTmpl) : List (Nat × Nat) :=
  ((c.staticSlots p v s t 0 fun _ => true).filter fun e => e.1 / 2304 = c.podOf p).map fun e => (e.1, e.2 % 1024)
/-- XPOD hole slot numbers. -/
def xpodNumbers (t : ZTmpl) : List Nat := (xpodSlots t 0).map fun s => s % 1024
/-- Slot numbers of every hole. -/
def holeNumbers (t : ZTmpl) : List Nat := t.holes.flatMap fun h => (List.range (h.last + 1 - h.first)).map fun i => h.first + i

/-- The other job whose entries or holes a template meets; none where checks 1 and 2 of R167 hold. -/
def tmplConflict (c : Chip) (p : Nat) (s : Slice) (t : ZTmpl) : Option Nat :=
  let v := c.epochView
  let mine := c.slotNumbers p v s t
  let holes := xpodNumbers t
  ((c.part p).jobs.filter fun j => j.slice ≠ s.num).findSome? fun j =>
    match c.sliceOf j.slice with
    | none => none
    | some s2 =>
      let meets := j.tmpls.any fun t2 =>
        let other := c.slotNumbers p v s2 t2
        let oh := xpodNumbers t2
        mine.any (fun e => e ∈ other || e.2 ∈ oh) || other.any (fun e => e.2 ∈ holes) || holes.any fun n => n ∈ holeNumbers t2
      if meets then some j.job else none

/-- XPOD words of a window (R195). -/
def xpodWords (t : ZTmpl) : Nat := ((xpodSlots t 0).map fun s => s / 64).eraseDups.length
/-- The lead's cross-pod map fits the lead's XMAP_LIMIT (check 3 of R167); where the lead is in another G9, the zone's own. -/
def xmapFits (c : Chip) (p : Nat) (s : Slice) (t : ZTmpl) : Bool :=
  2304 * (s.pods c.grid).length * xpodWords t * 16 ≤ c.reg .SCHED_XMAP_LIMIT ((c.partOfFid s.lead).getD p) * 2 ^ 20

/-- Installs a template in the zone under R167; true where it was installed. Its static entries also enter the base of the frames
already in the ring. -/
def installTmpl (c : Chip) (p job : Nat) (t : Tmpl) : Chip × Bool :=
  match c.jobOf p job with
  | none => (c, false)
  | some j =>
    match c.sliceOf j.slice with
    | none => (c, false)
    | some s =>
      let z := resolveTmpl s t
      let bad := match c.tmplConflict p s z with
        | some k => some k
        | none => if c.xmapFits p s z then none else some job
      match bad with
      | some k => ((c.henJob p job 0x3405 [job, t.num, k]).jcount p job .IMAGE_TEMPLATES_REFUSED 1, false)
      | none =>
        let c := c.modJob p job fun j => { j with tmpls := j.tmpls.filter (fun x => x.num ≠ t.num) ++ [z] }
        let c := (List.range 40).foldl (fun c i => c.baseFrame p (c.now / 131072 + i)) c
        match c.jobOf p job with
        | some j => (c.sendTemplates p j [z], true)
        | none => (c, true)

/-- The entries of a zone in the order of R168: by admission, then by entry index. -/
def allStatic (c : Chip) (p : Nat) : List (Job × ZTmpl × Nat × Nat × SlotEntry) :=
  (sortBy (fun (a b : Job) => a.order ≤ b.order) (c.part p).jobs).flatMap fun j =>
    sortBy (fun (a b : Job × ZTmpl × Nat × Nat × SlotEntry) => a.2.2.2.1 ≤ b.2.2.2.1)
      (j.tmpls.flatMap fun t => t.entries.flatMap fun s => s.2.zipIdx.map fun e => (j, t, s.1, e.2, e.1))

/-- Re-places every static entry onto the paths of a view, and displaces an entry whose new path meets an earlier one (R168).
Templates of one slice are told apart by their frames, those of two slices by slot numbers only. -/
def replaceStatic (c : Chip) (p : Nat) (v : PathView) : Chip :=
  let es := c.allStatic p
  let r := es.foldl (fun (a : List (Nat × Nat × Nat × Nat) × List (Nat × Nat × Nat × Nat)) e =>
    let sl := c.sliceOf e.1.slice
    let links := match sl with | some s => c.entryLinks p v s e.2.2.1 e.2.2.2.2 | none => []
    let en := e.2.2.2.2
    let cells := (List.range en.run).flatMap fun i =>
      (links.filter fun h => h.1 / 2304 = c.podOf p).map fun h =>
        (e.1.job, e.2.1.num, h.1, en.frame * 1024 + en.first + i + h.2)
    let meets := cells.any fun x => a.1.any fun y =>
      x.2.2.1 = y.2.2.1 && (if x.1 = y.1 then x.2.1 = y.2.1 && x.2.2.2 = y.2.2.2 else x.2.2.2 % 1024 = y.2.2.2 % 1024)
    if meets then (a.1, a.2 ++ [(e.1.job, e.2.1.num, e.2.2.1, e.2.2.2.1)]) else (a.1 ++ cells, a.2)) ([], [])
  let moved := r.2
  (c.part p).jobs.foldl (fun c j =>
    j.tmpls.foldl (fun c t =>
      let d := (moved.filter fun m => m.1 = j.job && m.2.1 = t.num).map fun m => m.2.2
      let new := (d.filter fun x => !(x ∈ t.displaced)).length
      let c := c.modJob p j.job fun j =>
        { j with tmpls := mapIf (fun x => x.num = t.num) (fun x => { x with displaced := d }) j.tmpls }
      if new = 0 then c else (c.jcount p j.job .SCHED_STATIC_DISPLACED new).henAny p 0x3403 j.ctx) c) c

end Chip

end Sys2Proof.Machine
end

