-- ==== Sys2Proof/Machine/FailOps.lean ====
section
/-! DEFINITION. Lost endpoints, peer notices and fences as a partition runs them (R283 to R298), automatic transactions being
asked for (R139), and retirement of FIDs (R42). -/

namespace Sys2Proof.Machine

open Sys2Proof

namespace Chip

/-- No request with a `ref` is outstanding. -/
def settled (c : Chip) (p ref : Nat) : Bool := (c.part p).requests.all fun r => r.ref ≠ ref

/-! Automatic transactions -/

/-- An event of R139: the delay starts, or starts again after the open transaction. -/
def kickAuto (c : Chip) (p : Nat) : Chip :=
  if c.reg .ROUTE_AUTO p ≠ 1 then c
  else if (c.part p).txn.isSome then c.modPart p fun s => { s with autoAgain := true }
  else c.modPart p fun s => { s with autoAt := some (c.now + c.reg .ROUTE_AUTO_DELAY p * 1000), autoTries := 0 }

/-- Every link of a unit of the zone is marked down (R283). -/
def unitDown (c : Chip) (p : Nat) (u : UnitId) : Chip :=
  (c.modPart p fun s => { s with topo := { s.topo with
    links := s.topo.links.map fun e =>
      if e.1 / 1024 == u.code || e.2.far == some u then (e.1, { e.2 with up := false }) else e } }).kickAuto p

/-! Slices as a partition sees them -/

/-- The job of the zone that a FID belongs to. -/
def jobWith (c : Chip) (p fid : Nat) : Option Job := (c.part p).jobs.find? fun j => fid ∈ j.endpoints
/-- The other partitions of a slice, by FID. -/
def othersOf (c : Chip) (p : Nat) (s : Slice) : List Nat :=
  ((s.pods c.grid).filter fun g => g ≠ c.podOf p).map fun g => 0xFF000 + g
/-- A partition named by FID is in service: of this G9 not in bypass, of another one heard. -/
def heard (c : Chip) (f : Nat) : Bool :=
  match c.partOfFid f with
  | some q => !c.bypassed q
  | none => (f - 0xFF000) / 16 ∈ c.clusters && !c.down.contains ((f - 0xFF000) / 16)
/-- The body of a FAIL_NOTE (R288). -/
def noteBody (kind : Nat) (n : FailNote) : List Nat :=
  [kind, n.reason, n.job, n.slice, n.f, n.step, n.fids.length, n.detect] ++ n.fids ++ n.epochs ++ n.lifted.map ofBool
/-- Sends a FAIL_NOTE to a partition. -/
def sendNote (c : Chip) (p dst kind : Nat) (n : FailNote) : Chip := c.pask p dst 0x86 (noteBody kind n)
/-- Publishes FENCES_HELD. -/
def publishFences (c : Chip) (p : Nat) : Chip :=
  c.setReg .FAIL_FENCES_HELD p 0 ((c.part p).fences.filter fun f => !f.lifted).length

/-! Retirement (R42, R298) -/

/-- A FID of the zone is retired, which the partition reports (R481). -/
def retireFid (c : Chip) (p fid : Nat) : Chip :=
  (c.tellLead p [0, fid, 1]).modPart p fun s => { s with topo := { s.topo with
    retired := addOnce s.topo.retired fid,
    units := s.topo.units.map fun e => if e.2.fid = fid then (e.1, { e.2 with state := 1 }) else e } }

/-! Peer notices (R285, R286) -/

/-- PEER_RESET to the members of the zone: by the notice group, or to each where no group number was free. -/
def noticeZone (c : Chip) (p : Nat) (n : FailNote) : Chip :=
  let fid := n.fids.getD 0 nullFid
  match c.jobOf p n.job with
  | none => c
  | some j =>
    let body := [fid, n.job, n.reason, n.step, n.detect]
    let m : Msg := { type := 0x37, body := body }
    let group : Option Nat := match c.sliceOf j.slice with
      | some s => (s.notice.find? fun (e : Nat × Nat) => e.1 = c.podOf p).map Prod.snd
      | none => none
    let c := if (c.part p).portDown then c else match group with
      | some g => ((c.logMsg p nullFid 0x37 0 c.now true false).emit (.sentGroup p g m)).count .FAIL_PEER_RESETS p
      | none =>
        ((c.zoneEps p j).filter fun (e : Nat × Nat) => e.1 ≠ fid).foldl (fun (c : Chip) (e : Nat × Nat) =>
          ((c.pnotice p e.1 0x37 body).count .FAIL_PEER_RESETS p).count .FAIL_NOTICE_UNICASTS p) c
    (c.setReg .FAIL_LAST_NOTICE_TICKS p 0 (min (c.now - n.detect) (2 ^ 32 - 1))).henJob p n.job 0x3704 [fid, n.job, n.reason]

/-! Fences (R289 to R291) -/

/-- A FID is fenced or in an open batch of the job. -/
def fenceHeld (c : Chip) (p job fid : Nat) : Bool :=
  ((c.part p).fences.any fun f => f.job = job && f.fid = fid && !f.lifted)
    || (c.part p).batches.any fun b => b.job = job && b.asks.any fun a => a.fid = fid

/-- A lead takes a request into the open batch of the job, or opens one (R289). -/
def batchAdd (c : Chip) (p : Nat) (a : FenceAsk) : Chip :=
  if c.fenceHeld p a.job a.fid then c
  else c.modPart p fun s =>
    if s.batches.any fun b => b.job = a.job then
      { s with batches := mapIf (fun b => b.job = a.job) (fun b => { b with asks := b.asks ++ [a] }) s.batches }
    else { s with batches := s.batches ++ [{ job := a.job, openAt := c.now, asks := [a] }] }

/-- A request for a fence: to the own batch, to the lead, or held while the lead is in reset, which FENCE_RETRIES counts
as it does a request that is dropped (R284, R289, R303). -/
def fenceRequest (c : Chip) (p : Nat) (a : FenceAsk) : Chip :=
  let lead := match c.sliceOf a.slice with | some s => s.lead | none => c.partFid p
  if a.job = 0xFFFF ∨ lead = c.partFid p then c.batchAdd p a
  else if c.heard lead then
    c.sendNote p lead 2 { reason := a.reason, job := a.job, slice := a.slice, detect := a.detect, fids := [a.fid] }
  else
    let c := c.count .FAIL_FENCE_RETRIES p
    if (c.part p).heldAsks.length < 256 then c.modPart p fun s => { s with heldAsks := s.heldAsks ++ [a] } else c

/-- Requests held for leads that are heard again are sent. -/
def sendHeld (c : Chip) (p : Nat) : Chip :=
  let l := (c.part p).heldAsks
  l.foldl (fun c a => c.fenceRequest p a) (c.modPart p fun s => { s with heldAsks := [] })

/-- PEER_RESET in the own zone and FAIL_NOTE kind 1 to the slice's other partitions, once in a window (R285). -/
def noticeLoss (c : Chip) (p fid reason : Nat) (j : Job) : Chip :=
  let w := (j.windowAt (c.now / 131072)).getD j.first
  if c.reg .FAIL_PEER_NOTICE p != 1 || (c.part p).noted.contains (fid, w) then c
  else
    let n : FailNote := { reason := reason, job := j.job, slice := j.slice, step := (j.win w false).listStep j.lastStep,
                          detect := c.now, fids := [fid] }
    let c := c.modPart p fun s => { s with noted := s.noted.filter (fun e => e.1 ≠ fid) ++ [(fid, w)] }
    let c := c.noticeZone p n
    match c.sliceOf j.slice with
    | some s => (c.othersOf p s).foldl (fun c d => c.sendNote p d 1 n) c
    | none => c

/-- An endpoint of the zone is lost (R283, R285, R290). -/
def endpointLost (c : Chip) (p fid reason : Nat) : Chip :=
  let isEp : Bool := match c.unitOf p fid with | some u => u.profile == 0 | none => false
  if !isEp then c
  else
    let j := c.jobWith p fid
    let job := match j with | some j => j.job | none => 0xFFFF
    let slice := match j with | some j => j.slice | none => 0
    if reason == 3 && (c.fenceHeld p job fid || (c.part p).gone.contains fid) then c
    else
      let c := if reason = 3 then c.modPart p fun s => { s with gone := addOnce s.gone fid } else c
      let c := (c.count .FAIL_DETECTIONS p).henJob p job 0x3701 [fid, reason]
      let c := match j with
        | some j => if reason = 3 then c else c.noticeLoss p fid reason j
        | none => c
      if c.reg .FAIL_FENCE_AUTO p = 1 then
        c.fenceRequest p { job := job, slice := slice, fid := fid, reason := reason, detect := c.now }
      else c

/-- An agent that does not answer: an endpoint is lost with REASON 3, any other unit's links are down (R283, R291). -/
def agentSilent (c : Chip) (p fid : Nat) : Chip :=
  match c.unitOf p fid with
  | some u => if u.profile = 0 then c.endpointLost p fid 3 else c.unitDown p u.unit
  | none => c

/-- Sends FENCE or UNFENCE for a list of fences to a list of agents. -/
def sendFences (c : Chip) (p type ref : Nat) (agents : List Nat) (l : List (Nat × Nat × Nat)) : Chip :=
  l.foldl (fun c e => agents.foldl (fun (c : Chip) a => c.pask p a type [e.1, e.2.1, e.2.2] ref) c) c

/-- Switch agents of the zone, by FID. -/
def zoneSwitches (c : Chip) (p : Nat) : List Nat := ((c.zoneAgents p).filter fun u => u.profile = 1).map fun u => u.fid
/-- Endpoint agents of the zone, by FID. -/
def zoneEndpoints (c : Chip) (p : Nat) : List Nat := ((c.zoneAgents p).filter fun u => u.profile = 0).map fun u => u.fid

/-- The agents that take a fence in stage 2: all endpoints of the fenced endpoint's zone, else the slice's (R290). -/
def stage2Agents (c : Chip) (p job fid : Nat) : List Nat :=
  if (c.unitOf p fid).isSome then c.zoneEndpoints p
  else match c.jobOf p job with | some j => (c.zoneEps p j).map Prod.fst | none => []

/-- A fence order begins in a zone (R290, R292): the fences hold from now on. -/
def startOrder (c : Chip) (p : Nat) (o : FenceOrder) (reason : List Nat) : Chip :=
  let c := o.fids.zipIdx.foldl (fun c e =>
    let old := (c.part p).fences.find? fun f => f.job = o.job && f.fid = e.1
    let r : FenceRec := { job := o.job, fid := e.1, f := o.f, reason := reason.getD e.2 0,
                          retire := match old with | some x => x.retire | none => false }
    (c.modPart p fun s => { s with fences := s.fences.filter (fun f => !(f.job = o.job && f.fid = e.1)) ++ [r] }).henJob
      p o.job 0x3702 [e.1, o.job, o.f, o.fids.length]) c
  let c := (c.publishFences p).modPart p fun s => { s with orders := s.orders ++ [o] }
  c.sendFences p 0x30 (refKey refFence (o.job * 65536 + o.f)) (c.zoneSwitches p) (o.fids.map fun f => (f, o.job, o.f))

/-- The lead closes a batch: F, and the order to every partition of the slice (R289). -/
def closeBatch (c : Chip) (p job : Nat) : Chip :=
  match (c.part p).batches.find? fun b => b.job = job with
  | none => c
  | some b =>
    if c.now < b.openAt + c.reg .FAIL_FENCE_BATCH p * 1000 then c
    else
      let last := SMap.get 0 (c.part p).fenceSeq job
      let f := if (last + 1) % 65536 = 0 then 1 else (last + 1) % 65536
      let slice := (b.asks.map fun a => a.slice).headD 0
      let fids := b.asks.map fun a => a.fid
      let detect := b.asks.foldl (fun d a => min d a.detect) c.now
      let c := c.modPart p fun s =>
        { s with batches := s.batches.filter (fun x => x.job ≠ job), fenceSeq := SMap.set 0 s.fenceSeq job f }
      let c := (c.countN .FAIL_FENCES_ISSUED p fids.length).count .FAIL_FENCE_BATCHES p
      let n : FailNote := { reason := (b.asks.map fun a => a.reason).headD 0, job := job, slice := slice, f := f, detect := detect,
                            fids := fids }
      let c := if job = 0xFFFF then c else
        match c.sliceOf slice with
        | some s => (c.othersOf p s).foldl (fun c d => c.sendNote p d 3 n) c
        | none => c
      c.startOrder p { job := job, slice := slice, f := f, fids := fids, detect := detect } (b.asks.map fun a => a.reason)

/-- Ends FENCE_EP commands of the FIDs of an order, and retires what they named so (R298, R304). -/
def endOrder (c : Chip) (p : Nat) (o : FenceOrder) : Chip :=
  let done := (c.part p).fenceCmds.filter fun k => k.2.2 ∈ o.fids
  let c := c.modPart p fun s => { s with orders := s.orders.filter (fun x => !(x.job = o.job && x.f = o.f)),
                                         fenceCmds := s.fenceCmds.filter fun k => !(k.2.2 ∈ o.fids) }
  let c := o.fids.foldl (fun c f =>
    let asked := f ∈ (c.part p).toRetire || (c.part p).fences.any fun x => x.job = o.job && x.fid = f && x.retire
    if asked then (c.modPart p fun s => { s with toRetire := s.toRetire.erase f }).retireFid p f else c) c
  done.foldl (fun c k => c.complete k.1 k.2.1 0x00) c

/-- The acknowledgements of a fence stage are in, and the next begins (R290). -/
def orderNext (c : Chip) (p job f : Nat) : Chip :=
  match (c.part p).orders.find? fun o => o.job = job && o.f = f with
  | none => c
  | some o =>
    let ref := refKey refFence (job * 65536 + f)
    if !c.settled p ref then c
    else
      let c := c.modPart p fun s =>
        { s with orders := mapIf (fun x => x.job = job && x.f = f) (fun x => { x with stage := x.stage + 1 }) s.orders }
      let j := c.jobOf p job
      match o.stage with
      | 1 => o.fids.foldl (fun c x => c.sendFences p 0x30 ref (c.stage2Agents p job x) [(x, job, f)]) c
      | 2 =>
        match j with
        | none => c
        | some j =>
          (o.fids.filter fun x => (c.unitOf p x).isSome).foldl (fun (c : Chip) x =>
            j.tmpls.foldl (fun (c : Chip) t => (listBodies 0 j.frames t.num (j.lastStep.getD 0) job []).foldl
              (fun c b => c.pask p x 0x44 b ref) c) c) c
      | _ =>
        let eps := match j with | some j => (c.zoneEps p j).map Prod.fst | none => []
        let c := eps.foldl (fun (c : Chip) e =>
          (pieces 3066 (o.fids.length + 1) o.fids).foldl (fun c l => c.pnotice p e 0x35 ([job, f, l.length] ++ l)) c) c
        (c.setReg .FAIL_LAST_FENCE_TICKS p 0 (min (c.now - o.detect) (2 ^ 32 - 1))).endOrder p o

/-- FENCE_ACK (R291): a refusal for CAPACITY is tried again after 16 frames, up to 8 times. -/
def fenceAnswered (c : Chip) (p src status : Nat) (r : Request) : Chip :=
  let fid := r.msg.body.getD 0 0
  let job := r.msg.body.getD 1 0
  let f := r.msg.body.getD 2 0
  let old := (c.part p).retries.find? fun x => x.agent = src && x.fid = fid && x.job = job
  let c := c.modPart p fun s =>
    { s with retries := s.retries.filter fun x => !(x.agent = src && x.fid = fid && x.job = job) }
  if status = 0x0B then
    let n := match old with | some x => x.tries | none => 0
    if 8 ≤ n then (c.count .FAIL_FENCE_REFUSED p).henPart p 0x3706 [src, fid, f]
    else c.modPart p fun s => { s with retries := s.retries ++
      [{ agent := src, fid := fid, job := job, f := f, tries := n, due := c.now + 16 * 131072 }] }
  else c

/-- FENCEs refused with CAPACITY are sent again every 16 frames (R291). -/
def fenceRetry (c : Chip) (p : Nat) : Chip :=
  let due := (c.part p).retries.filter fun x => x.due ≤ c.now && (c.settled p (refKey refRetry (x.agent * 2 ^ 20 + x.fid)))
  due.foldl (fun (c : Chip) (x : FenceRetry) =>
    let y := { x with tries := x.tries + 1, due := c.now + 16 * 131072 }
    let c := c.modPart p fun s => { s with retries := mapIf (fun z => z = x) (fun _ => y) s.retries }
    (c.count .FAIL_FENCE_RETRIES p).pask p x.agent 0x30 [x.fid, x.job, x.f] (refKey refRetry (x.agent * 2 ^ 20 + x.fid))) c

/-! Lifting (R297) -/

/-- UNFENCE of a FID to every agent of the zone that took its FENCE. -/
def unfenceZone (c : Chip) (p job fid f : Nat) : Chip :=
  c.sendFences p 0x32 (refKey refLift fid) (c.zoneSwitches p ++ c.stage2Agents p job fid) [(fid, job, f)]

/-- A lift has ended in a zone: the endpoint takes part in placement again, with its templates (R297). -/
def liftDone (c : Chip) (p : Nat) (l : Lift) : Chip :=
  let cmds := ((c.part p).lifts.filter fun x => x.fid = l.fid).map fun x => x.cmd
  let finish := fun (c : Chip) => cmds.foldl (fun c k => c.completeOpt k 0x00) c
  let c := c.modPart p fun s => { s with
    lifts := s.lifts.filter (fun x => x.fid ≠ l.fid),
    gone := s.gone.filter (fun f => f ≠ l.fid),
    fences := mapIf (fun x => x.job = l.job && x.fid = l.fid) (fun x => { x with lifted := true }) s.fences }
  let c := c.publishFences p
  if (c.unitOf p l.fid).isSome then
    let c := match c.jobOf p l.job with
      | some j => j.tmpls.foldl (fun (c : Chip) t => c.sendTemplate p j t l.fid) c
      | none => c
    finish ((c.count .FAIL_UNFENCES p).henJob p l.job 0x3703 [l.fid, l.job, l.f])
  else finish c

/-- The next step of a lift once its acknowledgements are in. -/
def liftNext (c : Chip) (p fid : Nat) : Chip :=
  match (c.part p).lifts.find? fun x => x.fid = fid with
  | none => c
  | some l =>
    let ref := refKey refLift fid
    if !c.settled p ref then c
    else
      let up := fun (c : Chip) (n : Nat) => c.modPart p fun s =>
        { s with lifts := mapIf (fun x => x.fid = fid) (fun x => { x with stage := n }) s.lifts }
      let all := (c.part p).fences.filter fun x => x.job = l.job
      match l.stage with
      | 0 => (up c 1).sendFences p 0x30 ref [fid] (all.map fun x => (x.fid, x.job, x.f))
      | 1 =>
        let lifted := all.filter fun x => x.lifted
        if lifted.isEmpty then spread (up c 3) l else (up c 2).sendFences p 0x32 ref [fid] (lifted.map fun x => (x.fid, x.job, x.f))
      | 2 => spread (up c 3) l
      | _ => c.liftDone p l
where
  /-- UNFENCE in the own zone; UNFENCE_ORDER to the slice's other partitions, or to its lead (R297). -/
  spread (c : Chip) (l : Lift) : Chip :=
    let n : FailNote := { reason := 4, job := l.job, slice := l.slice, f := l.f, detect := c.now, fids := [l.fid] }
    let c := match c.sliceOf l.slice with
      | none => c
      | some s =>
        if l.job = 0xFFFF then c
        else if s.lead = c.partFid p then (c.othersOf p s).foldl (fun c d => c.sendNote p d 4 { n with reason := 0 }) c
        else c.sendNote p s.lead 4 n
    c.unfenceZone p l.job l.fid l.f

end Chip

end Sys2Proof.Machine
end

