-- ==== Sys2Proof/Machine/ImageParse.lean ====
section
/-! DEFINITION. The content of Tiroil image sections (R259 to R273): header, section table, manifest, policy with its clamps (R258,
R267), template with its checks (R165, R269), model and code. Bytes past a section's end read as zero. -/

namespace Sys2Proof.Machine

open Sys2Proof

/-- A field of `n` bytes at an offset. -/
def fieldAt (b : List Nat) (off n : Nat) : Nat := ofBytes ((b.drop off).take n)

/-- An entry of the section table (R260). -/
def secEntryOf (b : List Nat) : SecEntry :=
  { typ := fieldAt b 0 1, enc := bit (fieldAt b 1 1) 0, num := fieldAt b 2 2, job := fieldAt b 4 2, off := fieldAt b 8 8
    len := fieldAt b 0x10 4, iv := fieldAt b 0x14 12, aad := b.take 0x30, tag := fieldAt b 0x30 16, digest := fieldAt b 0x40 64 }

/-- Sections beyond what R261 allows in one image, or with a NUMBER outside its range: the first such section, or 0xFF where the
manifest is missing. -/
def countsBad (l : List SecEntry) (part : Bool) : Option Nat :=
  let key := fun (s : SecEntry) => match s.typ with
    | 1 => some (1, 0, 0) | 2 => some (2, 0, s.job) | 3 => some (3, s.num, s.job) | 4 => some (4, s.num, 0) | 5 => some (5, s.num, 0)
    | _ => none
  let top := fun (s : SecEntry) => match s.typ with | 3 => 7 | 4 => 255 | 5 => 3 | _ => 65535
  let ks := l.map key
  let bad := (List.range l.length).find? fun i =>
    match ks[i]?, l[i]? with
    | some (some k), some s => (ks.take i).any (fun x => x == some k) || top s < s.num
    | _, _ => false
  match bad with
  | some i => some i
  | none => if !part && l.all (fun s => s.typ ≠ 1) then some 0xFF else none

/-- The manifest (R265); repeated triples are merged. -/
def parseManifest (b : List Nat) : List Triple :=
  let n := min (fieldAt b 0 2) ((b.length - 16) / 16)
  (List.range n).foldl (fun l i =>
    let o := 0x10 + 16 * i
    let t : Triple := { job := fieldAt b o 2, layer := fieldAt b (o + 2) 2, op := fieldAt b (o + 4) 2,
                        demand := bit (fieldAt b (o + 6) 2) 0, static := bit (fieldAt b (o + 6) 2) 1, label := fieldAt b (o + 8) 8 }
    let same := fun (x : Triple) => x.job = t.job && x.layer = t.layer && x.op = t.op
    if l.any same then mapIf same (fun x => { x with demand := x.demand || t.demand, static := x.static || t.static }) l
    else l ++ [t]) []

/-- A policy value put into its range: zero outside the range takes the default, another value the nearer bound; the offset and
the value written are noted where it was clamped (R258, R267). -/
def polFix (off v lo hi dflt : Nat) : Nat × List (Nat × Nat) :=
  if v = 0 && 0 < lo then (dflt, []) else if v < lo then (lo, [(off, v)]) else if hi < v then (hi, [(off, v)]) else (v, [])

/-- BINS is a power of two from 2 to 128; another value takes the one below. -/
def polBins (v : Nat) : Nat × List (Nat × Nat) :=
  if v = 0 then (2, [])
  else
    let w := (clampTo 2 128 v).log2
    (2 ^ w, if v = 2 ^ w then [] else [(0x42, v)])

/-- A policy section and its clamps (R266, R267). -/
def parsePolicy (b : List Nat) : Policy × List (Nat × Nat) :=
  let g := fieldAt b
  let fl := g 2 1
  let seqLen := polFix 0x03 (g 0x03 1) 1 32 1
  let ceil := polFix 0x18 (g 0x18 2) 0 256 0
  let floor := polFix 0x16 (g 0x16 2) 0 ceil.1 0
  let depth := polFix 0x1A (g 0x1A 1) 1 32 1
  let hmin := polFix 0x1B (g 0x1B 1) 1 depth.1 (min 4 depth.1)
  let width := polFix 0x1C (g 0x1C 2) 32 512 32
  let odd := if width.1 % 32 = 0 then [] else [(0x1C, g 0x1C 2)]
  let fcw := polFix 0x28 (g 0x28 2) 32 512 32
  let base : Policy :=
    { job := g 0 2, spec := bit fl 0, ordered := bit fl 1, spill := bits fl 3 2, analysis := bit fl 4, seqLen := seqLen.1, seq := g 4 16
      tolAbs := g 0x14 1, tolRel := g 0x15 1, confFloor := floor.1, confCeil := ceil.1, histDepth := depth.1, histMin := hmin.1
      histWidth := width.1 - width.1 % 32, fcModel := g 0x1E 2, hist := g 0x20 2, histSteps := g 0x22 2, fc := g 0x24 2, fcConf := g 0x26 2
      fcWidth := fcw.1, looseFloor := g 0x2C 4, looseCeiling := g 0x30 4, looseStep := g 0x34 4 }
  let cl := seqLen.2 ++ ceil.2 ++ floor.2 ++ depth.2 ++ hmin.2 ++ width.2 ++ odd ++ fcw.2
  if !bit fl 4 then (base, cl)
  else
    let experts := polFix 0x40 (g 0x40 2) 16 8192 16
    let bins := polBins (g 0x42 1)
    let iter := polFix 0x43 (g 0x43 1) 10 200 40
    let factor := polFix 0x47 (g 0x47 1) 16 255 48
    let per := polFix 0x48 (g 0x48 1) 0 3 0
    let app := polFix 0x49 (g 0x49 1) 0 1 0
    let rmax := polFix 0x4A (g 0x4A 2) 0 1024 0
    let lead := polFix 0x4C (g 0x4C 2) 1 65535 16
    ({ base with experts := experts.1, bins := bins.1, iter := iter.1, analyseEvery := g 0x44 2, minGain := g 0x46 1, replFactor := factor.1
                 replPer := per.1, apply := app.1, replMax := rmax.1, applyLead := lead.1, seed := g 0x50 4, coact := g 0x58 8
                 current := g 0x60 8, advice := g 0x68 8, scratch := g 0x70 8 },
     cl ++ experts.2 ++ bins.2 ++ iter.2 ++ factor.2 ++ per.2 ++ app.2 ++ rmax.2 ++ lead.2)

/-- A slot-list entry from its 16 bytes (R86). -/
def slotEntryOf (b : List Nat) : SlotEntry :=
  let w := fieldAt b 0 4
  let d := fieldAt b 4 4
  { first := bits w 9 0, frame := bits w 13 10, run := bits w 19 14, nextStep := bit w 20, mcast := bit w 21, dst := d % 2 ^ 20
    group := d / 2 ^ 20, flow := fieldAt b 8 4 }

/-- Source blocks, at most `n`; none where one does not fit or counts more than 4,096 entries (R268). -/
def parseSources : Nat → List Nat → Option (List (Nat × List SlotEntry))
  | 0, _ => some []
  | n + 1, b =>
    let k := fieldAt b 4 4
    if b.length < 8 + 16 * k || 4096 < k then none
    else
      match parseSources n (b.drop (8 + 16 * k)) with
      | none => none
      | some r => some ((fieldAt b 0 4, (List.range k).map fun i => slotEntryOf ((b.drop (8 + 16 * i)).take 16)) :: r)

/-- A template section (R268). -/
def parseTemplate (b : List Nat) : Option Tmpl :=
  let h := fieldAt b 4 2
  let n := fieldAt b 8 4
  if 64 < h || b.length < n then none
  else
    let holes := (List.range h).map fun i =>
      let o := 0x10 + 16 * i
      { frame := fieldAt b o 1, kind := fieldAt b (o + 1) 1, first := fieldAt b (o + 4) 2, last := fieldAt b (o + 6) 2 : Hole }
    (parseSources n (b.drop (0x10 + 16 * h))).map fun s =>
      { job := fieldAt b 0 2, num := fieldAt b 2 1, frames := fieldAt b 3 1, holes := holes, sources := s }

/-- A template passes R269: `eps` endpoints, the slice's WINDOW_FRAMES once it is admitted, the operators that send demand. -/
def Tmpl.sound (t : Tmpl) (eps : Nat) (frames : Option Nat) (ops : List Nat) : Bool :=
  let holesOk := t.holes.all (fun h => h.frame < t.frames && h.kind < 2 && h.first ≤ h.last && h.last < 1024)
    && t.holes.all fun a => t.holes.all fun b =>
      !(a.kind = 0 && b.kind = 1 && a.frame = b.frame && a.first ≤ b.last && b.first ≤ a.last)
  1 ≤ t.frames && t.frames ≤ 16 && (frames.isNone || frames = some t.frames) && holesOk && t.sources.all fun s =>
    s.1 < eps && entriesSorted s.2 && s.2.all fun e =>
      1 ≤ e.run && e.first % 64 + e.run ≤ 63 && e.frame < t.frames && (e.mcast || (e.dst < eps && e.dst ≠ s.1))
        && !(decide (e.flow / 65536 ∈ ops))
        && !(t.holes.any fun h => h.frame = e.frame && h.first < e.first + e.run && e.first ≤ h.last)

/-- Where the weights of a model section begin. -/
def modelStart (tensors cmds : Nat) : Nat := ceilDiv (0x20 + 32 * tensors + 64 * cmds) 64 * 64

/-- A model section (R271). -/
def parseModel (b : List Nat) : SecBody :=
  let k := fieldAt b 2 2
  let n := fieldAt b 4 2
  .model (fieldAt b 6 2) ((List.range n).map fun i => (List.range 32).map fun o => fieldAt b (0x20 + 32 * i + o) 1)
    ((List.range k).map fun i =>
      let o := 0x20 + 32 * n + 64 * i
      { opcode := fieldAt b o 1, flags := fieldAt b (o + 1) 1, ctx := fieldAt b (o + 2) 1, tag := fieldAt b (o + 4) 4, job := fieldAt b (o + 8) 2
        layer := fieldAt b (o + 10) 2, operator := fieldAt b (o + 12) 2, timeout := fieldAt b (o + 14) 1, ops := fieldAt b (o + 16) 48 : Desc })
    (fieldAt b 8 4) (fieldAt b 12 4) b

/-- A code section (R273). -/
def parseCode (b : List Nat) : SecBody :=
  .code (fieldAt b 0 4) (fieldAt b 4 4) (fieldAt b 8 4) (fieldAt b 12 4) (fieldAt b 16 4) b

namespace SecBody

/-- SRAM tiles of the context's share that a section takes: weights and scratch, or the text with its header and the DATA region
(R271, R273, R367). -/
def sramTiles : SecBody → Nat
  | .model _ _ _ w s _ => w + s
  | .code _ _ d z k b => ceilDiv b.length 2048 + ceilDiv (d + z + k) 2048
  | _ => 0

/-- LPDDR6 tiles of its source copy (R264): a model's header and commands, then its weights. -/
def copyTiles (len : Nat) : SecBody → Nat
  | .model _ t k w _ _ => ceilDiv (modelStart t.length k.length) 2048 + w
  | _ => ceilDiv len 2048

/-- The handles of a model. -/
def handles : SecBody → Option (Nat × Nat)
  | .model b t _ _ _ _ => some (b, b + t.length)
  | _ => none

end SecBody

end Sys2Proof.Machine
end

