-- ==== Sys2Proof/Machine/Regions.lean ====
section
/-! DEFINITION. Clock regions that stop and restart, and their gap records (R389). -/

namespace Sys2Proof.Machine

open Sys2Proof

namespace Chip

/-- A clock region of a partition stops, for a cause that event 0x1801 will carry; none where nothing fixes it. -/
def stopRegion (c : Chip) (p r : Nat) (cause : Option Nat) : Chip :=
  if (SMap.find? (c.part p).stops r).isSome then c
  else c.modPart p fun s => { s with stops := SMap.insert s.stops r (c.now, cause) }

/-- How long a region has been stopped. -/
def stoppedFor (c : Chip) (p r : Nat) : Nat :=
  match SMap.find? (c.part p).stops r with | some e => c.now - e.1 | none => 0

/-- A region restarts: its gap record goes to Hen and to the streams that are capturing. -/
def restartRegion (c : Chip) (p r : Nat) : Chip :=
  match SMap.find? (c.part p).stops r with
  | none => c
  | some (_, cause) =>
    let d := c.stoppedFor p r
    let c := c.modPart p fun s => { s with stops := SMap.erase s.stops r }
    let k := match cause with | some k => k | none => c.freeVal 32
    let c := if cause.isNone then c.drawn else c
    ((c.henPart p 0x1801 [r, trunc 32 d, d / 2 ^ 32, k]).traceMarker p 3 r d).count .TRACE_GAP_RECORDS p

end Chip

end Sys2Proof.Machine
end

