-- ==== Sys2Proof/Machine/Programs.lean ====
section
/-! DEFINITION. The programs of the control cores' user mode: which of them has a core, how one starts and leaves its core (R367,
R369, R378), and sections whose tiles no longer pass (R277). -/

namespace Sys2Proof.Machine

open Sys2Proof

/-- A header rewritten for a new owner: FORMAT 0x00, GENERATION plus 1 (R330, R364). -/
def Tile.freed (x : Nat) (t : Tile) : Tile := ({ t with format := 0, ctx := x, gen := trunc 32 (t.gen + 1) } : Tile).sealed
/-- Puts one tile in front of a map, unless it is the default. -/
def consTile (k : Nat) (t : Tile) (m : SMap Tile) : SMap Tile := if t = {} then m else (k, t) :: m

/-- Changes the `n` tiles from `k` on in a map whose keys are at least `k`. -/
def mapTiles (f : Tile → Tile) : Nat → Nat → SMap Tile → SMap Tile
  | 0, _, m => m
  | n + 1, k, [] => consTile k (f {}) (mapTiles f n (k + 1) [])
  | n + 1, k, (a, v) :: r =>
    if a = k then consTile k (f v) (mapTiles f n (k + 1) r) else consTile k (f {}) (mapTiles f n (k + 1) ((a, v) :: r))

/-- Changes the `n` tiles from `first` on. -/
def tilesOver (f : Tile → Tile) (first n : Nat) (m : SMap Tile) : SMap Tile :=
  (m.filter fun e => e.1 < first) ++ mapTiles f n first (m.filter fun e => first ≤ e.1)

namespace Chip

/-- A context's program on a core. -/
def prog (c : Chip) (p x k : Nat) : Prog := SMap.get {} (c.part p).progs (4 * x + k)
/-- Changes a program. -/
def modProg (c : Chip) (p x k : Nat) (f : Prog → Prog) : Chip :=
  c.modPart p fun s => { s with progs := SMap.set {} s.progs (4 * x + k) (f (SMap.get {} s.progs (4 * x + k))) }
/-- The code section of a core that a context has installed. -/
def codeOf (c : Chip) (p x k : Nat) : Option Section :=
  (c.part p).sections.find? fun s => s.ctx = x && s.typ = 5 && s.num = k && s.state = 1
/-- The context whose program has a core. -/
def coreCtx (c : Chip) (p k : Nat) : Option Nat :=
  let x := c.reg .CORES_RUN_CTX p k
  if x < 64 ∧ (c.prog p x k).state = 2 then some x else none
/-- Unread records of a program's ring. -/
def unread (g : Prog) : Nat := (g.tail + 2 ^ g.log2 - g.head % 2 ^ g.log2) % 2 ^ g.log2
/-- The program can go on: it runs, and does not wait. -/
def runnable (c : Chip) (p x k : Nat) : Bool := (c.prog p x k).state == 2 && (c.prog p x k).waitTill.isNone && c.residentIn x p
/-- A core is halted in a context: it stops, and the context's commands that come from now on do not start (R399, R400). -/
def haltCore (c : Chip) (p k x : Nat) : Chip :=
  let c := c.modPart p fun s => { s with halts := SMap.insert s.halts k (x, c.cmdSeq), haltWait := s.haltWait.erase k }
  ((c.setReg .CORES_STATE p k 3).stopRegion p (0x20 + k) none).henAny p 0x3A01 x
/-- Gives a core to the next runnable program in ascending context number after `y` (R368); a core that is halted, in reset or vacant stays as
it is, and one that a halt request waits for halts (R399). A switch to another context is counted. -/
def coreNext (c : Chip) (p k y : Nat) : Chip :=
  if c.reg .CORES_STATE p k = 3 || bit (c.reg .PARTITION_CORES_VACANT p) k || (SMap.find? (c.part p).stops (0x20 + k)).isSome then c
  else
    match mioNext ((List.range 64).filter fun x => c.runnable p x k) y with
    | some x =>
      let c := if c.reg .CORES_RUN_CTX p k = x then c else c.count .CORES_CTX_SWITCHES p
      let c := (c.setReg .CORES_RUN_CTX p k x).setReg .CORES_STATE p k 1
      let c := c.modPart p fun s => { s with coreSince := SMap.set 0 s.coreSince k c.now }
      if (c.part p).haltWait.contains k then c.haltCore p k x else c
    | none =>
      match (List.range 64).find? fun x => (c.prog p x k).state == 2 && c.residentIn x p with
      | some x => (c.setReg .CORES_RUN_CTX p k x).setReg .CORES_STATE p k 2
      | none => (c.setReg .CORES_RUN_CTX p k 0xFF).setReg .CORES_STATE p k 0
/-- A core with nothing to run takes a program that has become runnable. -/
def coreWake (c : Chip) (p k : Nat) : Chip := if c.reg .CORES_STATE p k = 1 then c else c.coreNext p k (c.reg .CORES_RUN_CTX p k)

/-- Fills the DATA region: the section's data, then zeros (R367, R369). -/
def loadData (c : Chip) (p first : Nat) (data : List Nat) (tiles : Nat) : Chip :=
  (List.range tiles).foldl (fun c i =>
    c.setTile p (first + i) { c.tile p (first + i) with data := payloadOf ((data.drop (2048 * i)).take 2048) }) c

/-- The code section's tiles still hold what its DIGEST measures (R367). -/
def codeMeasured (c : Chip) (p : Nat) (s : Section) : Bool :=
  let b := (List.range (ceilDiv s.len 2048)).flatMap fun i => (List.range 2048).map fun o => (c.tile p (s.sram + i)).byte o
  Config.sha512 (b.take s.len) == s.digest

/-- Removes a section whose tiles no longer pass, with event 0x3603 (R277). -/
def dropSection (c : Chip) (p : Nat) (s : Section) : Chip :=
  let n := s.body.sramTiles
  let k := s.body.copyTiles s.len
  let c := c.modPart p fun q => { q with
    tiles := tilesOver (Tile.freed s.ctx) s.copy k (tilesOver (Tile.freed s.ctx) s.sram n q.tiles)
    sections := q.sections.filter fun y => !(y.ctx = s.ctx && y.typ = s.typ && y.num = s.num && y.job = s.job) }
  c.henCtx s.ctx p 0x3603 [s.ctx, s.typ, s.num, s.job]

/-- START of a context's program on a core (R367, R369, R378): nothing without a code section, where the context is not resident, on
a vacant core or while the program runs. -/
def startProg (c : Chip) (p x k : Nat) : Chip :=
  match c.codeOf p x k with
  | none => c
  | some s =>
    if !c.residentIn x p || bit (c.reg .PARTITION_CORES_VACANT p) k || (c.prog p x k).state = 2 then c
    else if !c.codeMeasured p s then c.dropSection p s
    else
      match s.body with
      | .code _ text data bss stack b =>
        let first := s.sram + ceilDiv s.len 2048
        let c := c.loadData p first ((b.drop (0x20 + text)).take data) (ceilDiv (data + bss + stack) 2048)
        let c := c.modProg p x k fun _ => { state := 2, data := first }
        (c.count .CORES_PROG_STARTS p).coreWake p k
      | _ => c

/-- A program leaves its core for good in a state. -/
def endProg (c : Chip) (p x k state exit : Nat) : Chip :=
  let c := c.modProg p x k fun g => { g with state := state, exit := exit, waitTill := none }
  if c.reg .CORES_RUN_CTX p k = x then c.coreNext p k x else c

/-- STOP of a context's program on a core. -/
def stopProg (c : Chip) (p x k : Nat) : Chip := if (c.prog p x k).state = 2 then c.endProg p x k 1 0 else c

end Chip

end Sys2Proof.Machine
end

