-- ==== Sys2Proof/Machine/LoadEnd.lean ====
section
/-! DEFINITION. How a load ends (R280, R281), also where it waits for agents to acknowledge templates. -/

namespace Sys2Proof.Machine

open Sys2Proof

namespace Chip

/-- A load ends: the LAST fields, the counts, the event, the completion record. -/
def finishLoad (c : Chip) (p : Nat) (l : LoadRun) (status code sec : Nat) : Chip :=
  let at_ := match c.cmdOf l.q l.tag with | some x => x.fetched | none => l.startAt
  let c := (c.setReg .IMAGE_LAST_IMAGE_ID p 0 l.imageId).setReg .IMAGE_LAST_IMAGE_VER p 0 l.imageVer
  let c := (c.setReg .IMAGE_LAST_STATUS p 0 status).setReg .IMAGE_LAST_CTX p 0 l.ctx
  let c := (c.setReg .IMAGE_LAST_FAIL_SECTION p 0 sec).setReg .IMAGE_LAST_FAIL_CHECK p 0 code
  let c := c.setReg .IMAGE_LAST_LOAD_TICKS p 0 (min (c.now - at_) (2 ^ 32 - 1))
  let c :=
    if status = 0x00 then (c.countFor l.ctx .IMAGE_LOADS p 1).henCtx l.ctx p 0x3601 [l.imageId, l.imageVer, l.logSeq]
    else if status = 0x0D then c
    else
      let c := c.countFor l.ctx .IMAGE_LOAD_FAILED p 1
      let c := if code = 3 || code = 5 || code = 6 then c.countFor l.ctx .IMAGE_AUTH_FAILS p 1 else c
      if code = 0 then c else c.henCtx l.ctx p 0x3602 [l.imageId, code, sec]
  let c := c.modPart p fun s => { s with loads := s.loads.filter fun x => !(x.q = l.q && x.tag = l.tag) }
  c.complete l.q l.tag status

/-- The programs of a load's code sections start when it completes with START set (R273). -/
def startLoaded (c : Chip) (p : Nat) (l : LoadRun) : Chip :=
  if l.begin_ then (l.sections.filter fun s => s.typ = 5).foldl (fun c s => c.startProg p l.ctx s.num) c else c

/-- Loads whose agents have all answered complete: OK, or DEGRADED where one did not acknowledge (R280). -/
def loadsOn (c : Chip) (p : Nat) : Chip :=
  (c.part p).loads.foldl (fun c l =>
    match l.waits with
    | none => c
    | some jobs =>
      if (c.part p).requests.any fun r => r.ref / 2 ^ 48 = refTmpl && r.ref % 2 ^ 48 ∈ jobs then c
      else (c.finishLoad p l (if l.degraded then 0x0D else 0x00) 0 0xFF).startLoaded p l) c

/-- An agent has answered a template of a job, or has been given up. -/
def tmplAnswered (c : Chip) (p job src : Nat) (bad : Bool) : Chip :=
  let c := if bad then c.henJob p job 0x3605 [src] else c
  let c := if bad then c.modPart p fun s =>
    { s with loads := mapIf (fun l => job ∈ l.waits.getD []) (fun l => { l with degraded := true }) s.loads } else c
  c.loadsOn p

end Chip

end Sys2Proof.Machine
end

