-- ==== Sys2Proof/Machine/Sched.lean ====
section
/-! DEFINITION. Slot scheduling at run time (R165 to R203): demand vectors, the ring, gather points, units of work, sealing and slot
lists, cross-pod placement, and the schedule commands. -/

namespace Sys2Proof.Machine

open Sys2Proof

/-- Changes the items of a window that pass. -/
def Win.mapItems (x : Win) (ok : Item → Bool) (f : Item → Item) : Win := { x with items := mapIf ok f x.items }

namespace Chip

/-- The full frame number whose low 32 bits are given, nearest to now. -/
def fullFrame (c : Chip) (w : Nat) : Nat :=
  let f := c.now / 131072
  ((f : Int) + ofField 32 (w + 2 ^ 32 - f % 2 ^ 32)).toNat

/-- A frame becomes the 39th after the current one: its words are set to the base, and frames that have passed leave (R170). -/
def frameEntersRing (c : Chip) (p : Nat) : Chip := c.fillRing p

/-! Demand -/

/-- The STEP of the job's window before `w` (R174, check 6). -/
def stepBefore (j : Job) (w : Nat) : Option Nat :=
  match (j.wins.filter fun x => x.frame < w && !x.lead && x.step.isSome).foldl
      (fun (b : Option Win) x => match b with | some y => if y.frame < x.frame then some x else b | none => some x) none with
  | some x => x.step
  | none => j.lastStep

/-- The first failed check of R174, 0 for none, of checks 1 to 8. -/
def demandCheck (c : Chip) (p src tag : Nat) (b : DemandBody) : Nat :=
  let w := c.fullFrame b.window
  if b.bodyLen ≠ 0x20 + 4 * b.n ∨ 512 < b.n ∨ b.entries.length ≠ b.n then 1
  else
    match c.jobOf p b.job with
    | none => 2
    | some j =>
      let here : Bool := match c.unitOf p src with | some u => u.profile == 0 | none => false
      if !here ∨ !(src ∈ j.endpoints) ∨ b.ctx ≠ j.ctx then 2
      else if !j.onGrid w ∨ (j.holesOf w).isEmpty then 3
      else if !c.inRing (w + j.frames - 1) then 4
      else
        let x := j.win w false
        let same : Bool := match x.step with | some s => s = b.step | none => true
        let late : Bool := match stepBefore j w with | some s => stepOlder b.step s | none => false
        if x.vectors.any fun v => v.src = src && v.tag ≠ tag then 5
        else if !same ∨ late then 6
        else if b.entries.any (fun e => e.1 = src || !(e.1 ∈ j.endpoints)) ∨ (b.entries.map Prod.fst).eraseDups.length ≠ b.n
        then 7
        else if b.entries.any fun e => e.2 = 0 || 4095 < e.2 then 8
        else 0

/-- DEMAND_ACK with the body of R173. -/
def demandAck (c : Chip) (p src tag x status taken check fenced : Nat) : Chip :=
  c.preply p src tag 0x40 status [taken, check, fenced] x

/-! Cross-pod demand at a source zone (R196, R198) -/

/-- The lead of a slice serves: its partition is in no reset and has a lane (R23), or belongs to another G9 that is heard. -/
def leadServes (c : Chip) (s : Slice) : Bool :=
  match c.partOfFid s.lead with
  | some q => !c.bypassed q && !(c.part q).portDown
  | none => (s.lead - 0xFF000) / 16 ∈ c.clusters && !c.down.contains ((s.lead - 0xFF000) / 16)

/-- Items of a lead's window from the words of an XDEMAND. A message does not carry an entry's index: its place among its source's words stands for it. -/
def crossItems (c : Chip) (p : Nat) (b : CrossBody) : List Item :=
  (b.words.zipIdx.filterMap fun e =>
    let src := e.1.getD 0 0 % 2 ^ 20
    let dw := e.1.getD 1 0
    let idx := ((b.words.take e.2).filter fun x => x.getD 0 0 % 2 ^ 20 = src).length
    match c.placeOf p src with
    | some (_, pos) =>
      let cls := if b.spec then 2 else if b.carry then 4 else 5
      let n := bits dw 31 20
      some { id := 0, src := src, pos := pos, dst := dw % 2 ^ 20, flow := 0, step := b.step, idx := idx,
             cls := cls, cross := true, want := n, owed := n, pod := b.pod + 1 }
    | none => none)

/-- The lead returns a source zone's placements once its FINAL has come and its items have ended (R197). The zone's own lead
merges them at once. -/
def crossReturn (c : Chip) (p job w pod : Nat) : Chip × List (List Nat) :=
  let x := c.winOf p job w true
  let mine := x.items.filter fun i => i.pod = pod + 1
  if pod ∈ x.returned ∨ !(pod ∈ x.finals) ∨ mine.any (fun i => !i.ended) then (c, [])
  else
    let c := c.modWin p job w true fun x => { x with returned := x.returned ++ [pod] }
    (c, mine.flatMap fun i => i.runs.map fun r =>
      [i.src, firstWord { first := r.first, frame := r.frame, run := r.len, dst := i.dst, flow := 0 }, i.dst, 0])

/-- A returned run joins the first item of its source and destination that still lacks chunks, carried ones before new ones. -/
def takeRun (x : Win) (src dst : Nat) (r : Placed) : Win :=
  let open_ := x.items.filter fun i => i.cross && i.src = src && i.dst = dst && i.cls ≠ 2
  let room := open_.filter fun i => i.placed + r.len ≤ i.want
  let l := sortBy (fun (a b : Item) => a.cls ≤ b.cls) (if room.isEmpty then open_ else room)
  match l.head? with
  | some i => x.mapItems (fun y => y.id = i.id) fun y => { y with runs := y.runs ++ [r] }
  | none => x

/-- Merges the runs that a lead returned into the zone's cross items; with FINAL they have ended (R197). -/
def mergeCross (c : Chip) (p job w : Nat) (words : List (List Nat)) (final : Bool) : Chip :=
  let c := c.modWin p job w false fun x => words.foldl (fun x e =>
    let fw := e.getD 1 0
    takeRun x (e.getD 0 0) (e.getD 2 0) { frame := bits fw 13 10, first := bits fw 9 0, len := bits fw 19 14, hops := [] }) x
  if final then
    c.modWin p job w false fun x =>
      { (x.mapItems (fun i => i.cross) fun i => { i with ended := true }) with xfinal := true }
  else c

/-- Sends the finished placements of a pod to its zone, in XPLACE messages of up to 765 runs. -/
def crossSend (c : Chip) (p job w pod : Nat) : Chip :=
  match c.jobOf p job with
  | none => c
  | some j =>
    let done := pod ∈ (j.win w true).returned
    let r := c.crossReturn p job w pod
    if done ∨ !(pod ∈ (r.1.winOf p job w true).returned) then c
    else if pod = c.podOf p then r.1.mergeCross p job w r.2 true
    else
      let ps := pieces 765 (r.2.length + 1) r.2
      ps.zipIdx.foldl (fun c e =>
        c.pask p (0xFF000 + pod) 0x82
          ([job, j.slice, w % 2 ^ 32, e.1.length, ofBool (e.2 + 1 = ps.length)] ++ e.1.flatten) 0 j.ctx) r.1

/-- In ordered mode the lead places once its gather point has passed and every source zone has sent FINAL (R196). -/
def crossOrdered (c : Chip) (p job w : Nat) : Chip :=
  match c.jobOf p job with
  | none => c
  | some j =>
    let x := j.win w true
    let zones := match c.sliceOf j.slice with
      | some s => (s.pods c.grid).filter fun pod => j.endpoints.any fun f =>
          match c.placeOf p f with | some (q, _) => q = pod | none => false
      | none => []
    if (c.modeOf p j w).2.1 ∧ x.gathered ∧ zones.all (fun z => z ∈ x.finals) then
      let c := [2, 4, 5].foldl (fun c k => c.orderedPlace p job w true k) c
      zones.foldl (fun c z => c.crossSend p job w z) c
    else c

/-- The lead takes a batch of cross items (R196): the comparison of R178 against the forecast batch of the source, then placement. FINAL is each kind's own:
that of the actual demand, which a zone sends last, ends the zone's demand. -/
def crossTake (c : Chip) (p : Nat) (b : CrossBody) : Chip :=
  match c.jobOf p b.job with
  | none => c
  | some j =>
    let w := c.fullFrame b.window
    let items := c.crossItems p b
    let x := j.win w true
    let tol := j.tolOf w
    let near := fun (f a : Nat) => (f - a) + (a - f) ≤ max tol.1 (f * tol.2 / 256)
    let act := fun (i : Item) => items.find? fun k => k.src = i.src && k.dst = i.dst
    let specs := if b.spec ∨ b.carry then [] else
      x.items.filter fun i => i.cls = 2 && items.any fun k => k.src = i.src
    let got := fun (i : Item) => match act i with | some k => k.want | none => 0
    let stays := fun (i : Item) => near i.want (got i)
    let c := specs.foldl (fun c i =>
      if stays i then (c.putItem p b.job w true { i with owed := got i, ended := true }).jcount p b.job .SCHED_ITEMS_KEPT 1
      else
        let c := (c.releaseItem p b.job w true i).modWin p b.job w true fun x =>
          { x with items := x.items.filter fun y => y.id ≠ i.id }
        if got i = 0 then c.jcount p b.job .SCHED_ITEMS_RELEASED 1
        else (c.jcount p b.job .SCHED_ITEMS_REPLACED 1).itemEvent p b.job 0x28 { i with cls := 5 } 1) c
    let spills := fun (k : Item) => !b.spec && !b.carry && !(specs.any fun i => i.src = k.src && i.dst = k.dst) && near 0 k.want
    let new := (items.filter fun k => !(specs.any fun i => i.src = k.src && i.dst = k.dst && stays i)).map fun k =>
      if spills k then { k with want := 0, ended := true } else k
    let fresh := if b.spec ∨ b.carry then 0 else
      (items.filter fun k => !(specs.any fun i => i.src = k.src && i.dst = k.dst) && !spills k).length
    let c := (c.jcount p b.job .SCHED_ITEMS_NEW fresh).jcount p b.job .SCHED_ITEMS_KEPT (items.filter spills).length
    let r := c.addItems p b.job w true new
    let c := if (c.modeOf p j w).2.1 then r.1 else r.1.dealItems p b.job w true (r.2.filter fun i => !i.ended)
    let c := if b.final ∧ !b.spec ∧ !b.carry then
        c.modWin p b.job w true fun x => { x with finals := addOnce x.finals b.pod }
      else c
    (c.crossOrdered p b.job w).crossSend p b.job w b.pod

/-- Cuts cross words into batches of at most 1,530, each source's together (R196). -/
def crossBatches (l : List (List Nat)) : List (List (List Nat)) :=
  let srcs := (l.map fun e => e.getD 0 0).eraseDups
  let groups := srcs.map fun s => l.filter fun e => e.getD 0 0 = s
  let r := groups.foldl (fun (a : List (List (List Nat)) × List (List Nat)) g =>
    if a.2.length + g.length ≤ 1530 then (a.1, a.2 ++ g) else (a.1 ++ [a.2], g)) ([], [])
  r.1 ++ [r.2]

/-- Sends cross items of the zone to the slice's lead; the lead itself takes its own zone's at once (R196). While the lead does not serve (R198), and in
the interval of R131, they spill; before the placement cut they wait for a transaction to end. -/
def sendCross (c : Chip) (p job w : Nat) (items : List Item) (spec final carry : Bool) : Chip :=
  match c.jobOf p job with
  | none => c
  | some j =>
    match c.sliceOf j.slice with
    | none => c
    | some s =>
      let pod := c.podOf p
      let step := (j.win w false).listStep j.lastStep
      let sent := fun (y : Item) => items.any fun i => i.id = y.id
      let words := items.map fun i => [i.src, i.dst % 2 ^ 20 + (i.want % 4096) <<< 20]
      let multi := 1 < (s.pods c.grid).length && (j.holesOf w).any fun h => h.kind = 1
      if !multi then
        c.modWin p job w false fun x => x.mapItems (fun i => i.cross) fun i => { i with ended := true }
      else if !final && c.txnWait p job w false then c
      else if !c.leadServes s ∨ c.inTransaction p w then
        let held := ((j.win w false).items.filter fun i => i.cross && !i.ended).length
        let c := if c.inTransaction p w then c.jcount p job .SCHED_DEGRADED_ITEMS held else c
        c.modWin p job w false fun x =>
          { (x.mapItems (fun i => i.cross) fun i => { i with ended := true, degraded := true }) with cut := true }
      else
        let c := (c.jcount p job .SCHED_XITEMS_SENT items.length).modWin p job w false fun x =>
          { (x.mapItems sent fun i => { i with xsent := true }) with xsent := true }
        if c.leads p s then
          c.crossTake p { job := job, slice := s.num, window := w % 2 ^ 32, step := step, pod := pod, spec := spec,
                          final := final, carry := carry, words := words }
        else
          let ps := crossBatches words
          ps.zipIdx.foldl (fun c e =>
            let fin := final && e.2 + 1 = ps.length
            c.pask p s.lead 0x80 ([job, s.num, w % 2 ^ 32, step, pod, ofBool spec + 2 * ofBool fin + 4 * ofBool carry,
              e.1.length] ++ e.1.flatten) 0 j.ctx) c

/-- A vector taken between the gather point of free mode and SD whose source's list has gone: what the list does not carry spills. -/
def lateVector (c : Chip) (p job w : Nat) (v : Vector) : Chip :=
  let x := c.winOf p job w false
  v.entries.zipIdx.foldl (fun c e =>
    let placed := ((x.items.filter fun i => i.src = v.src && i.dst = e.1.1).map fun i => i.placed).sum
    c.spillChunks p job w { id := 0, src := v.src, pos := v.pos, dst := e.1.1, flow := v.op % 65536 * 65536 + v.step % 65536, step := v.step, idx := e.2,
                            cls := 5, cross := c.isCross p e.1.1, want := e.1.2, owed := e.1.2, layer := v.layer } (e.1.2 - placed)) c

/-- Cross items that come after the zone's FINAL end without a place. -/
def spillCross (c : Chip) (p job w : Nat) (l : List Item) : Chip :=
  c.modWin p job w false fun x => x.mapItems (fun i => l.any fun k => k.id = i.id) fun i => { i with ended := true }

/-- DEMAND arrives at a partition (R173 to R178, R184). In free mode a vector is late after SD; one that comes between the gather point and SD is taken, though
its source stays MISSING, and placed where its list has not gone. -/
def demand (c : Chip) (p src tag : Nat) (b : DemandBody) : Chip :=
  let x := match c.jobOf p b.job with | some j => j.ctx | none => 64
  c.prequest p src tag 0x40 (x := x) fun c =>
    let k := c.demandCheck p src tag b
    if k ≠ 0 then
      let c := (c.jcount p b.job .SCHED_VECTORS_BAD 1).henJob p b.job 0x3402 [src, k]
      let w := c.fullFrame b.window
      let c := if 5 ≤ k then (c.openWin p b.job w).modWin p b.job w false fun y => { y with bad := y.bad + 1 } else c
      c.demandAck p src tag x 0x07 0 k 0
    else
      match c.jobOf p b.job with
      | none => c
      | some j =>
        let w := c.fullFrame b.window
        let c := (c.jcount p b.job .SCHED_VECTORS_RX 1).openWin p b.job w
        let pos := match c.placeOf p src with | some (_, n) => n | none => 0
        let y := c.winOf p b.job w false
        if (c.modeOf p j w).2.1 ∧ (y.gathered ∨ c.gatherOf p j w < (c.now : Int)) ∨ y.closed ∨ c.sdOf p w < (c.now : Int) then
          (c.jcount p b.job .SCHED_VECTORS_LATE 1).demandAck p src tag x 0x06 0 0 0
        else
          let out := c.fencedFor p b.job src
          let keep := if out then [] else b.entries.filter fun e => !c.fencedFor p b.job e.1
          let gone := b.entries.length - keep.length
          let v : Vector := { src := src, pos := pos, tag := tag, step := b.step, op := b.op, layer := b.layer, entries := keep, fenced := out }
          let c := (c.jcount p b.job .SCHED_ENTRIES_FENCED gone).dropCarried p b.job w b.step
          let c := c.modWin p b.job w false fun y =>
            { y with vectors := y.vectors ++ [v], step := some b.step, lastVector := c.now,
                     firstWork := if y.firstWork.isNone then some c.now else y.firstWork }
          let c :=
            if out ∨ (c.modeOf p j w).2.1 then c
            else
              if src ∈ y.sealed_ then c.lateVector p b.job w v
              else
                let r := c.resolve p b.job w v
                let c := r.1.dealNew p b.job w r.2
                let cross := r.2.filter fun i => i.cross
                if y.gathered then c.spillCross p b.job w cross
                else if cross.isEmpty then c else c.sendCross p b.job w cross false false false
          c.demandAck p src tag x (if 0 < gone ∨ out then 0x03 else 0x00) keep.length 0 gone

/-! Gather points (R177, R179, R187) -/

/-- The sources of the window are fixed: MISSING ones are counted, fenced ones' early work is released, cross demand ends, history
is written, and the lead's analysis is looked at. In ordered mode the releases and the rounds follow. -/
def gather (c : Chip) (p job w : Nat) : Chip :=
  match c.jobOf p job with
  | none => c
  | some j =>
    let c := c.openWin p job w
    let x := c.winOf p job w false
    let holes := !(j.holesOf w).isEmpty
    if x.gathered then c
    else
      let early := x.items.filter fun i => (i.cls = 2 || i.cls = 4) && (c.fencedFor p job i.src || c.fencedFor p job i.dst)
      let c := early.foldl (fun c i => c.releaseItem p job w false { i with owed := 0 }) c
      let ordered := (c.modeOf p j w).2.1
      let c := if ordered then
          let a := x.vectors.foldl (fun c v => if v.fenced then c else (c.resolve p job w v).1) c
          ([3, 4, 5].foldl (fun c k => c.orderedPlace p job w false k) a)
        else c
      let miss := if holes then (c.zoneEps p j).filter fun e =>
          !(x.vectors.any fun v => v.src = e.1) && !c.fencedFor p job e.1 else []
      let flow := match x.vectors.head? with
        | some v => v.op % 65536 * 65536 + v.step % 65536
        | none => trunc 32 (Config.freeValue c.freeCtr)
      let c := if x.vectors.isEmpty then c.drawn else c
      let c := (c.jcount p job .SCHED_VECTORS_MISSING miss.length).modWin p job w false fun y =>
        { y with gathered := true, missing := miss.map Prod.fst,
                 items := mapIf (fun i => i.cls = 2 && miss.any fun e => e.1 = i.src)
                   (fun i => { i with flow := flow, step := y.listStep j.lastStep, owed := i.placed }) y.items }
      let y := c.winOf p job w false
      let cross := y.items.filter fun i => i.cross && i.cls = 5 && !i.xsent && !i.ended
      let carry := y.items.filter fun i => i.cross && (i.cls = 3 || i.cls = 4) && !i.ended
      let c := if carry.isEmpty then c else c.sendCross p job w carry false true true
      let c := c.sendCross p job w cross false true false
      let c := c.writeHistory p job w
      let step := (c.winOf p job w false).listStep j.lastStep
      let lead : Bool := match c.sliceOf j.slice with | some s => c.leads p s | none => false
      if lead then
        let c := (c.modWin p job w true fun z => { z with gathered := true }).crossOrdered p job w
        (c.analysisTrigger p job step).adviceEffect p job step
      else c

/-- PC of a window in free mode (R179). -/
def placementCut (c : Chip) (p job w : Nat) : Chip :=
  match c.jobOf p job with
  | some j => if !(c.modeOf p j w).2.1 ∧ j.onGrid w ∧ c.pcOf p w ≤ (c.now : Int) ∧ !j.stopped then c.gather p job w else c
  | none => c

/-- GP of a window in ordered mode (R187). -/
def gatherPoint (c : Chip) (p job w : Nat) : Chip :=
  match c.jobOf p job with
  | some j =>
    if (c.modeOf p j w).2.1 ∧ j.onGrid w ∧ c.gatherOf p j w ≤ (c.now : Int) ∧ !j.stopped then c.gather p job w else c
  | none => c

/-! Engines at work (R181 to R186, R200) -/

/-- A unit may be placed: no item of an earlier class of its window is unfinished (R183). -/
def unitReady (c : Chip) (p : Nat) (u : WorkUnit) : Bool :=
  let x := c.winOf p u.job u.frame u.lead
  let cls := (x.items.filter fun i => i.id ∈ u.items).map fun i => i.cls
  !(x.items.any fun i => 3 ≤ i.cls && !i.ended && (u.lead || !i.cross) && cls.any fun k => i.cls < k)

/-- An engine places the first unit of its deque that belongs to the context served and need not wait for a transaction (R131, R181, R184, R200). Words of bad
parity that none of its claims met were read by its searches. -/
def placeUnit (c : Chip) (p e : Nat) (F : ClaimFaults) : Chip :=
  let c := c.serve p
  let u? := if e ∈ c.working p then (c.deque p e).find? fun u =>
      c.unitCtx p u = (c.part p).engines.ctx && c.unitReady p u && !c.txnWait p u.job u.frame u.lead
    else none
  match u? with
  | none => F.bad.foldl (fun c b => c.parityWord p b) c
  | some u =>
    let c := c.setDeque p e ((c.deque p e).erase u)
    let r := u.items.foldl (fun (a : Chip × ClaimFaults) id =>
      match (a.1.winOf p u.job u.frame u.lead).items.find? fun i => i.id = id with
      | some i => a.1.placeItem p u.job u.frame u.lead i a.2
      | none => a) (c, F)
    let c := r.2.bad.foldl (fun c b => c.parityWord p b) r.1
    let c := match (c.winOf p u.job u.frame u.lead).firstWork with
      | some t => c.setReg .SCHED_LAST_ENGINE_TICKS p 0 (c.now - t)
      | none => c
    if u.lead then
      ((c.winOf p u.job u.frame true).finals).foldl (fun c pod => c.crossSend p u.job u.frame pod) c
    else c

/-- The visits of a stealing engine: victims in rotation until one holds a unit (R185). -/
def stealFrom (c : Chip) (p e : Nat) : List Nat → Chip
  | [] => c
  | v :: r =>
    let c := (c.count .SCHED_STEAL_ATTEMPTS p).pevent p 0x23 64 0xFFFF 0 0 1
    let d := c.deque p v
    if d.isEmpty then stealFrom c p e r
    else
      let n := ceilDiv d.length 2
      ((c.setDeque p v (d.take (d.length - n))).setDeque p e (lastN n d)).count .SCHED_STEALS p |>.pevent p 0x24 64 0xFFFF 0 0 1

/-- An engine with an empty deque looks for work (R185). -/
def engineIdle (c : Chip) (p e : Nat) : Chip :=
  let ws := c.working p
  if !(e ∈ ws) ∨ !(c.deque p e).isEmpty then c
  else
    let spare := (c.part p).engines.overflow
    if spare.isEmpty then
      c.stealFrom p e ((ws.filter fun v => e < v) ++ ws.filter fun v => v < e)
    else (c.setDeque p e (spare.take 32)).modEngines p fun g => { g with overflow := spare.drop 32 }

/-- The work of engines that stop is dealt again, from the first working engine above them (R186). -/
def redeal (c : Chip) (p : Nat) (gone : Nat → Bool) (start : Nat) : Chip :=
  let lost := ((c.part p).engines.deques.filter fun e => gone e.1).flatMap fun e => e.2
  let c := c.modEngines p fun g => { g with deques := g.deques.filter fun e => !gone e.1 }
  let ws := c.working p
  let k := (ws.findIdx? fun e => start ≤ e).getD 0
  let c := c.modEngines p fun g => { g with dealt := k }
  (lost.foldl (fun c u => c.dealUnit p u) c).publishEngines p

/-- QUANTUM frames have passed while another context has work: the engines pass on (R200). -/
def quantumExpiry (c : Chip) (p : Nat) : Chip :=
  let g := (c.part p).engines
  match g.ctx with
  | none => c.serve p
  | some x =>
    let work := c.ctxWork p
    if g.since + c.reg .SCHED_QUANTUM p * 131072 ≤ c.now ∧ work.any (fun y => y ≠ x) then
      c.modEngines p fun g => { g with ctx := nextCtx work x, since := c.now }
    else c.serve p

/-! Sealing and lists (R191 to R193) -/

/-- A source's list may be generated: its vector is taken or the gather point has passed, and all its items have ended. -/
def mayList (c : Chip) (p : Nat) (j : Job) (x : Win) (src : Nat) : Bool :=
  let holes := !(j.holesOf x.frame).isEmpty
  let its := x.items.filter fun i => i.src = src
  let crossOk := x.xfinal || x.cut || !(its.any fun i => i.cross && !i.ended)
  !(src ∈ x.sealed_) && !x.closed && !c.fencedFor p j.job src && !c.unlocked && !j.stopped
    && (!holes || x.gathered || (x.vectors.any fun v => v.src = src)) && crossOk && its.all fun i => i.ended

/-- The entries of a source's list, sorted (R191). NEXT_STEP marks new demand, and what a forecast of it holds, of the step after the list's (R190). -/
def listOf (x : Win) (step : Nat) (src : Nat) : List SlotEntry :=
  let es := (x.items.filter fun i => i.src = src).flatMap fun i => i.runs.map fun r =>
    ({ first := r.first, frame := r.frame, run := r.len, nextStep := (i.cls = 2 || i.cls = 5) && i.step ≠ step, mcast := i.dst / 2 ^ 20 ≠ 0,
       dst := i.dst % 2 ^ 20, group := i.dst / 2 ^ 20, flow := i.flow } : SlotEntry)
  (sortBy (fun (a b : SlotEntry) => a.frame * 1024 + a.first ≤ b.frame * 1024 + b.first) es).take 16384

/-- A source's endpoint link words of each frame of a window, as they stand (R191). -/
def linkWords (c : Chip) (p pos w frames : Nat) : List Nat :=
  (List.range frames).flatMap fun i => (List.range 16).map fun k =>
    if c.occVacant p (w + i) pos k then 2 ^ 64 - 1 else SMap.get occNew (c.part p).occ (occKey (w + i) pos k)

/-- The sealed tile of a source: format 0x31, one word after another, under the context of its job (R172, R191, R215). -/
def sealTile (c : Chip) (p pos ctx w frames : Nat) : Tile :=
  Tile.sealed { ctx := ctx, format := 0x31, shape := frames * 128 - 1, data := payloadOf ((c.linkWords p pos w frames).flatMap fun v => bytesOf 8 v) }

/-- The check of a sealed tile at use (R216): the structure that holds it records the job's context. -/
def tileSound (t : Tile) (ctx frames : Nat) : Bool :=
  t.crc = t.goodCrc && t.ctx = ctx && t.format = 0x31 && t.shape = frames * 128 - 1 && t.index = 0 && t.gen = 0

/-- Every slot of a source's runs is set in its sealed tile. -/
def runsSealed (t : Tile) (x : Win) (src : Nat) : Bool :=
  (x.items.filter fun i => i.src = src).all fun i => i.runs.all fun r =>
    (List.range r.len).all fun k => bit (t.byte ((r.frame * 1024 + r.first + k) / 8)) ((r.first + k) % 8)

/-- A source's list is the next to go: of those that may be generated it has been ready longest, and of those ready at one moment it comes first by position
mod 32 and then leaf (R192). -/
def listTurn (c : Chip) (p : Nat) (j : Job) (x : Win) (src pos : Nat) : Bool :=
  let since := fun s => match x.ready.find? fun e => e.1 = s with | some e => e.2 | none => 0
  let mine := (since src, pos % 32, pos / 32)
  let less := fun (a b : Nat × Nat × Nat) => a.1 < b.1 || (a.1 = b.1 && (a.2.1 < b.2.1 || (a.2.1 = b.2.1 && a.2.2 < b.2.2)))
  !((c.zoneEps p j).any fun e => less (since e.1, e.2 % 32, e.2 / 32) mine && c.mayList p j x e.1)

/-- The "step" boundary of R346 at the first window of a job with a new STEP. -/
def windowStep (c : Chip) (p job step : Nat) : Chip :=
  match c.jobOf p job with
  | some j =>
    if j.lastStep = some step then c
    else (c.modJob p job fun j => { j with lastStep := some step }).stepBoundary p job
  | none => c

/-- Sends a source's list in its segments, or as RESENT. -/
def sendList (c : Chip) (p : Nat) (j : Job) (x : Win) (src : Nat) (es : List SlotEntry) : Chip :=
  (listBodies x.frame j.frames x.tmpl (x.listStep j.lastStep) j.job es).foldl (fun c b => c.pask p src 0x42 b 0) c

/-- All lists of a window are out: the confidence threshold follows (R247), and LAST_PLACE_TICKS is written. -/
def lastList (c : Chip) (p : Nat) (j : Job) (w : Nat) : Chip :=
  let x := c.winOf p j.job w false
  let due := (c.zoneEps p j).filter fun e => !c.fencedFor p j.job e.1
  if due.all fun e => x.sent.any fun s => s.1 = e.1 then
    let g := c.gatherOf p j w
    let from_ : Int := if g ≤ (x.lastList : Int) then g else (x.lastVector : Int)
    (c.setReg .SCHED_LAST_PLACE_TICKS p 0 ((x.lastList : Int) - from_).toNat).adaptConf p j.job w
  else c

/-- A source's words are sealed into a tile, and its slot list is checked against it and sent, in its turn (R191, R192). `fails` counts how often the tile
was found damaged at its check at use. After SD nothing is sent (R29). -/
def sealSource (c : Chip) (p job w src fails : Nat) : Chip :=
  match c.jobOf p job with
  | none => c
  | some j =>
    if !j.onGrid w ∨ !((c.zoneEps p j).any fun e => e.1 = src) then c
    else
      let c := c.openWin p job w
      let x := c.winOf p job w false
      let pos := match c.placeOf p src with | some (_, n) => n | none => 0
      if !c.mayList p j x src ∨ c.sdOf p w < (c.now : Int) ∨ !c.listTurn p j x src pos then c
      else
        let step := x.listStep j.lastStep
        let c := c.windowStep p job step
        let tile := c.sealTile p pos j.ctx w j.frames
        let bad := 2 ≤ fails || !tileSound tile j.ctx j.frames || !runsSealed tile x src
        let c := if 1 ≤ fails then (c.jcount p job .SCHED_SEAL_FAILS (min fails 2)).henAny p 0x1302 j.ctx else c
        let its := x.items.filter fun i => i.src = src
        let c := its.foldl (fun c i => c.spillChunks p job w i (if bad then i.owed else i.left)) c
        let put := if bad then 0 else (its.map fun i => min i.placed i.owed).sum
        let c := if bad then c else its.foldl (fun c i => c.itemEvent p job 0x25 i (min i.placed i.owed)) c
        let c := (c.jcount p job .SCHED_CHUNKS_PLACED put).sendList p j x src (if bad then [] else listOf x step src)
        let c := (c.jcount p job .SCHED_LISTS_SENT 1).modWin p job w false fun y =>
          { y with sealed_ := y.sealed_ ++ [src], sent := y.sent ++ [(src, c.now)], lastList := c.now,
                   tiles := y.tiles ++ [(src, tile)], checkFail := y.checkFail || bad,
                   items := if bad then mapIf (fun i => i.src = src) (fun i => { i with runs := [] }) y.items else y.items }
        c.lastList p j w

/-- The bytes of a window record (R203). -/
def windowRecord (c : Chip) (p : Nat) (j : Job) (x : Win) : List Nat :=
  let mode := c.modeOf p j x.frame
  let holes := !(j.holesOf x.frame).isEmpty
  let noFc := mode.1 && holes && !x.used
  let xpod := (j.holesOf x.frame).any fun h => h.kind = 1
  let half := x.halfEngines || c.halved p
  let st := worst ((if x.checkFail then [0x02] else []) ++ (if 0 < x.bad then [0x07] else [])
    ++ (if x.items.any (fun i => i.runs.isEmpty && 0 < i.owed && !i.degraded) then [0x06] else [])
    ++ (if noFc || half || !x.missing.isEmpty || 0 < x.withheld || x.items.any (fun i => i.degraded) || c.unlocked
        then [0x0D] else []))
  let items := x.items.filter fun i => 0 < i.owed
  bytesOf 8 x.frame ++ bytesOf 4 (x.listStep j.lastStep) ++ bytesOf 2 j.job ++ [x.tmpl, st] ++ bytesOf 4 items.length
    ++ bytesOf 4 (items.map fun i => i.owed).sum ++ bytesOf 4 (items.map fun i => min i.placed i.owed).sum
    ++ bytesOf 4 x.spilled ++ bytesOf 4 x.replaced ++ bytesOf 2 x.missing.length ++ bytesOf 2 x.bad
    ++ bytesOf 2 x.sent.length ++ bytesOf 2 x.withheld
    ++ bytesOf 4 (ofBool mode.1 + 2 * ofBool mode.2.1 + 4 * ofBool noFc + 8 * ofBool half + 16 * ofBool xpod)
    ++ bytesOf 8 x.lastVector ++ bytesOf 8 x.lastList

/-- SD of a window: lists not sent in full are withheld, and the window is recorded (R192, R203, R247, R447). -/
def sendDeadline (c : Chip) (p job w : Nat) : Chip :=
  match c.jobOf p job with
  | none => c
  | some j =>
    if !j.onGrid w ∨ (c.now : Int) < c.sdOf p w ∨ j.stopped then c
    else
      let c := c.openWin p job w
      let x := c.winOf p job w false
      if x.closed then c
      else
        let due := (c.zoneEps p j).filter fun e => !c.fencedFor p job e.1 && !(x.sent.any fun s => s.1 = e.1)
        let n := due.length
        let c := if n = 0 then c
          else (c.jcount p job .SCHED_LISTS_WITHHELD n).henJob p job 0x3401 [trunc 32 w, n]
        let c := (x.items.filter fun i => due.any fun e => e.1 = i.src).foldl (fun c i => c.spillChunks p job w i i.owed) c
        let c := c.modWin p job w false fun y => { y with withheld := n, closed := true }
        let c := (c.windowStep p job (x.listStep j.lastStep)).adaptConf p job w
        let x := c.winOf p job w false
        let rec_ := c.windowRecord p j x
        let c := c.modPart p fun s => { s with records := lastN 4096 (s.records ++ [(w, job, rec_)]) }
        let c := ((c.jcount p job .SCHED_WINDOWS 1).setReg .SCHED_LAST_WINDOW p 0 (trunc 32 w)).adaptSpan p job w
        let past := fun (y : Win) => y.frame + 3 * j.frames ≤ w
        let c := ((j.wins.filter fun y => y.lead && past y)).foldl (fun c y => y.items.foldl (fun c i =>
          i.runs.foldl (fun c r => c.markRun p y.frame true r false) c) c) c
        c.modJob p job fun j => { j with wins := j.wins.filter fun y => !past y }

/-- XC of a window: the zone's lists go out with the cross placements it holds (R197). -/
def crossCut (c : Chip) (p job w : Nat) : Chip :=
  match c.jobOf p job with
  | none => c
  | some j =>
    if j.onGrid w ∧ c.xcOf p w ≤ (c.now : Int) then
      (c.openWin p job w).modWin p job w false fun x =>
        { (x.mapItems (fun i => i.cross) fun i => { i with ended := true }) with cut := true }
    else c

/-- A list that an agent rejected is generated once more where SD allows it, else its items spill (R193). One rejection is told by an acknowledgement and
by event 0x2009, so that only the greater of both counts says how often it happened. -/
def listRejected (c : Chip) (p job w src : Nat) (event : Bool) : Chip :=
  match c.jobOf p job with
  | none => c
  | some j =>
    let x := c.winOf p job w false
    let was := match x.rejects.find? fun e => e.1 = src with | some e => e.2 | none => (0, 0)
    let is := if event then (was.1, was.2 + 1) else (was.1 + 1, was.2)
    if !(x.sent.any fun s => s.1 = src) then c
    else
      let c := c.modWin p job w false fun y => { y with rejects := y.rejects.filter (fun e => e.1 ≠ src) ++ [(src, is)] }
      if max is.1 is.2 = max was.1 was.2 then c
      else if src ∈ x.resent ∨ c.sdOf p w < (c.now : Int) then
        if 2 < max is.1 is.2 then c
        else (x.items.filter fun i => i.src = src).foldl (fun c i => c.spillChunks p job w i (min i.placed i.owed)) c
      else
        let c := (c.jcount p job .SCHED_LISTS_RESENT 1).modWin p job w false fun y =>
          { y with resent := y.resent ++ [src], lastList := c.now }
        c.sendList p j x src (listOf x (x.listStep j.lastStep) src)

/-- SLOT_LIST_ACK (R193). -/
def slotListAck (c : Chip) (p src tag status : Nat) : Chip :=
  c.answered p src tag 0x42 fun r c =>
    if status = 0x00 then c else c.listRejected p (r.msg.body.getD 8 0) (c.fullFrame (r.msg.body.getD 0 0)) src false

/-! Cross-pod messages (R196, R197) -/

/-- XDEMAND arrives at the slice's lead; at another partition its status is a free value. -/
def xdemand (c : Chip) (p src tag : Nat) (b : CrossBody) : Chip :=
  let x := match c.jobOf p b.job with | some j => j.ctx | none => 64
  c.prequest p src tag 0x80 (x := x) fun c =>
    let lead : Bool := match c.sliceOf b.slice with | some s => c.leads p s | none => false
    if lead ∧ (c.jobOf p b.job).isSome then (c.crossTake p b).preply p src tag 0x80 0x00 [] x
    else
      let st := c.freeStatus
      c.drawn.preply p src tag 0x80 st [] x

/-- XPLACE arrives at a source zone: merged, or TIMEOUT after XC. -/
def xplace (c : Chip) (p src tag : Nat) (b : CrossBody) : Chip :=
  let x := match c.jobOf p b.job with | some j => j.ctx | none => 64
  c.prequest p src tag 0x82 (x := x) fun c =>
    let w := c.fullFrame b.window
    if c.xcOf p w < (c.now : Int) then
      ((c.jcount p b.job .SCHED_XITEMS_LATE b.words.length).henAny p 0x3404 x).preply p src tag 0x82 0x01 [] x
    else (c.mergeCross p b.job w b.words b.final).preply p src tag 0x82 0x00 [] x

/-- XPLACE_ACK: the lead releases the runs of a message answered TIMEOUT. -/
def xplaceAck (c : Chip) (p src tag status : Nat) : Chip :=
  c.answered p src tag 0x82 fun r c =>
    if status = 0x00 then c
    else
      let job := r.msg.body.getD 0 0
      let w := c.fullFrame (r.msg.body.getD 2 0)
      let words := pieces 4 (r.msg.body.length + 1) (r.msg.body.drop 5)
      words.foldl (fun c e =>
        let fw := e.getD 1 0
        let hit := fun (r : Placed) => r.frame = bits fw 13 10 && r.first = bits fw 9 0
        ((c.winOf p job w true).items.filter fun i => i.src = e.getD 0 0 && i.dst = e.getD 2 0 && i.runs.any hit).foldl (fun c i =>
          ((i.runs.filter hit).foldl (fun c r => c.markRun p w true r false) c).putItem p job w true { i with runs := i.runs.filter fun r => !hit r }) c) c

/-! Schedule commands (R202) -/

/-- The first window of a job at or after a frame that is not yet placed; frame 0 selects the next. -/
def nextWindow (c : Chip) (p : Nat) (j : Job) (from_ : Nat) : Nat :=
  let f := max from_ (max j.first (c.now / 131072))
  let w := j.first + ceilDiv (f - j.first) (max 1 j.frames) * max 1 j.frames
  let placed := (j.wins.filter fun x => !x.lead && (x.gathered || x.closed)).map fun x => x.frame
  let _ := p
  placed.foldl (fun w x => if w ≤ x then x + max 1 j.frames else w) w

/-- Writes a sequence to the SLOTS page of an endpoint and commits it (R89): NEXT_SEQ_LEN, NEXT_FROM_FRAME, NEXT_SEQ. -/
def sendSeq (c : Chip) (p : Nat) (j : Job) (w len seq : Nat) : Chip :=
  let word := fun i => (seq >>> (32 * i)) % 2 ^ 32
  (c.zoneEps p j).foldl (fun (c : Chip) (e : Nat × Nat) =>
    let a := 0x4000
    let ref := refKey refSeq j.job
    let c := c.pask p e.1 0x04 [a + AIDX_NEXT_FROM, 1, w % 2 ^ 32] ref
    let c := c.pask p e.1 0x04 [a + AIDX_NEXT_LEN, 1, len] ref
    let c := c.pask p e.1 0x04 ([a + AIDX_NEXT_SEQ, 4] ++ (List.range 4).map word) ref
    c.pask p e.1 0x04 [a + 0x20, 1, 0x80000000] ref) c
where
  /-- Offset of NEXT_FROM_FRAME on the SLOTS page. -/
  AIDX_NEXT_FROM : Nat := Reg.desc .ASLOTS_NEXT_FROM_FRAME |>.off
  /-- Offset of NEXT_SEQ_LEN. -/
  AIDX_NEXT_LEN : Nat := Reg.desc .ASLOTS_NEXT_SEQ_LEN |>.off
  /-- Offset of NEXT_SEQ. -/
  AIDX_NEXT_SEQ : Nat := Reg.desc .ASLOTS_NEXT_SEQ |>.off

/-- A new sequence governs windows from the first at or after FROM_FRAME and at least 10 ms ahead, and goes to the agents (R89). -/
def changeSeq (c : Chip) (p job from_ len seq : Nat) (cmd : Bool) : Chip :=
  match c.jobOf p job with
  | none => c
  | some j =>
    let f := max from_ (ceilDiv (c.now + 10000000) 131072)
    let w := c.nextWindow p j f
    let c := c.modJob p job fun j =>
      { j with settings := j.settings ++ [{ start := w, cmd := cmd, seq := some (len, seq) }], seqAt := some w,
               seqAcks := (c.zoneEps p j).map fun e => (e.1, 4) }
    c.sendSeq p j w len seq

/-- An agent has acknowledged one of the four sequence writes. -/
def seqAcked (c : Chip) (p job src : Nat) : Chip :=
  c.modJob p job fun j =>
    { j with seqAcks := (mapIf (fun e => e.1 = src) (fun (e : Nat × Nat) => (e.1, e.2 - 1)) j.seqAcks).filter fun e => 0 < e.2 }

/-- 1 ms before the first window of a sequence, agents that have not acknowledged its writes are silent, and fenced (R89). -/
def templateSeqDeadline (c : Chip) (p job : Nat) : Chip :=
  match c.jobOf p job with
  | none => c
  | some j =>
    match j.seqAt with
    | none => c
    | some w =>
      if c.now + 1000000 < w * 131072 then c
      else
        let c := c.modJob p job fun j => { j with seqAt := none, seqAcks := [] }
        j.seqAcks.foldl (fun c e => c.endpointLost p e.1 3) c

/-- SET_SCHED. A reserved SPILL is taken as a free one of the two policies. -/
def setSched (c : Chip) (p tag : Nat) (d : Desc) : Chip :=
  let job := d.at 0x10 2
  let fl := d.at 0x12 2
  match c.jobOf p job with
  | none => c.complete (.sched p) tag 0x0B
  | some j =>
    let w := c.nextWindow p j (d.at 0x18 8)
    let s : Setting := { start := w, cmd := true, mode := some (bit fl 0, bit fl 1, if bits fl 3 2 < 2 then bits fl 3 2 else c.freeVal 1),
                         tol := if bit fl 4 then some (d.at 0x14 1, d.at 0x15 1) else none }
    let c := if 2 ≤ bits fl 3 2 then c.drawn else c
    (c.modJob p job fun j => { j with settings := j.settings ++ [s] }).complete (.sched p) tag 0x00

/-- SET_TEMPLATE_SEQ. -/
def setTemplateSeq (c : Chip) (p tag : Nat) (d : Desc) : Chip :=
  let job := d.at 0x10 2
  let len := d.at 0x12 1
  let seq := d.at 0x20 16
  match c.jobOf p job with
  | none => c.complete (.sched p) tag 0x0B
  | some j =>
    let named := (List.range len).map fun i => bits seq (4 * i + 2) (4 * i)
    if len = 0 ∨ 32 < len ∨ named.any (fun n => !(j.tmpls.any fun t => t.num = n)) then c.complete (.sched p) tag 0x0B
    else (c.changeSeq p job (d.at 0x18 8) len seq true).complete (.sched p) tag 0x00

/-- READ_WINDOWS. -/
def readWindows (c : Chip) (p tag : Nat) (d : Desc) : Chip :=
  let job := d.at 0x1C 2
  let l := (c.part p).records.filter fun r => (job = 0xFFFF || r.2.1 = job) && d.at 0x20 8 ≤ r.1 && !c.confJob p r.2.1
  let fit := d.at 0x18 4 / 64
  let c := c.writeHost (c.ownerPort p) (d.at 0x10 8) ((l.take fit).flatMap fun r => r.2.2)
  c.complete (.sched p) tag (if fit < l.length then 0x0B else 0x00)

/-! Violations (R299) -/

/-- VIOLATION: counted against its named output and window; at VIOL_THRESH the output is blocked until the next commit. -/
def violation (c : Chip) (p src slot port : Nat) : Chip :=
  let c := (c.logMsg p src 0x53 0 c.now false false).count .FAIL_VIOLATIONS_RX p
  let lam := match c.unitOf p src with
    | some u => (match u.unit with
      | .leaf _ l => some (lamOf true l port)
      | .spine _ s => some (lamOf false s port)
      | _ => none)
    | none => none
  match lam with
  | none => c
  | some l =>
    let f := slot / 1024
    let w := ((c.part p).jobs.findSome? fun j => j.windowAt f).getD f
    let k := w * 2304 + l
    let n := SMap.get 0 (c.part p).violCounts k + 1
    let c := c.modPart p fun s => { s with violCounts := SMap.set 0 s.violCounts k n }
    if n = c.reg .FAIL_VIOL_THRESH p ∧ !(l ∈ (c.part p).violBlocked) then
      ((c.modPart p fun s => { s with violBlocked := s.violBlocked ++ [l] }).count .FAIL_VIOL_BLOCKS p).henPart p 0x3705
        [l, trunc 32 w, n]
    else c

end Chip

end Sys2Proof.Machine
end

