-- ==== Sys2Proof/Machine/RouteTxn.lean ====
section
/-! DEFINITION. Route transactions and static loads (R120 to R139): their stages in one zone and over several, what every answer of
an agent does, abandonment, and the resolution after a reset. -/

namespace Sys2Proof.Machine

open Sys2Proof

/-- The epoch after another, skipping 0 (R129). -/
def nextEpoch (e : Nat) : Nat := if (e + 1) % 65536 = 0 then 1 else (e + 1) % 65536

/-- The request type of an act. -/
def TxnAct.type : TxnAct → Nat
  | .ctl => 0x04
  | .ctlCommit => 0x04
  | .prepare _ _ => 0x20
  | .drain _ _ => 0x24
  | .commit _ => 0x26
  | .resume _ => 0x28
  | .abandon _ => 0x2A
  | .query => 0x2C
  | .clear => 0x04

namespace Chip

/-- Changes the open transaction of a zone. -/
def modTxn (c : Chip) (p : Nat) (f : Txn → Txn) : Chip := c.modPart p fun s => { s with txn := s.txn.map f }
/-- The unit of the zone with a code. -/
def unitAt (c : Chip) (p code : Nat) : Option TopoUnit := SMap.find? (c.part p).topo.units code
/-- Adds a status to the transaction's. -/
def txnStatus (c : Chip) (p st : Nat) : Chip := c.modTxn p fun x => { x with statuses := addOnce x.statuses st }

/-! Mirrors (R124) -/

/-- An agent is known to have an epoch active: where its shadow mirror holds that epoch's tables, they are its active mirror now. -/
def agentAt (c : Chip) (p code e : Nat) : Chip :=
  c.modPart p fun s =>
    let s := { s with agentEpoch := SMap.set 0 s.agentEpoch code e }
    if SMap.find? s.shadowOf code = some e then
      { s with mirrors := SMap.set [] s.mirrors code (SMap.get [] s.shadowMirrors code), shadowOf := SMap.erase s.shadowOf code }
    else s

/-- The map of an epoch comes into force in a zone (R118). -/
def adoptMap (c : Chip) (p : Nat) (m : EpochMap) : Chip :=
  c.modPart p fun s => { s with epochLinks := m.links, epochDown := m.down, epochSlices := m.slices }

/-! Messages to one agent -/

/-- PREPARE and its chunks (R124 to R126); the shadow mirror holds what they make. -/
def sendPrepare (c : Chip) (p code : Nat) (u : TopoUnit) (x : Txn) (e : Nat) (full : Bool) : Chip :=
  let bank := SMap.get [] x.banks code
  let ks := diffChunks u.profile full (SMap.get [] (c.part p).mirrors code) bank
  let c := c.pask p u.fid 0x20 [e, if full then 0 else 1, ks.length, sparseCrc bank] (refKey refTxn 0)
  let c := c.modTxn p fun x => { x with chunks := x.chunks + ks.length, changed := x.changed || !ks.isEmpty }
  let c := c.modPart p fun s => { s with shadowMirrors := SMap.set [] s.shadowMirrors code bank, shadowOf := SMap.insert s.shadowOf code e
                                         shadowMap := { x.map with epoch := x.epoch } }
  ks.foldl (fun c k =>
    let r := regionOf k.1
    c.pask p u.fid 0x22 ([e, r.1, r.2, k.2] ++ chunkBytes bank k.1 k.2) (refKey refTxn 1)) c

/-- Sends one act to an agent. -/
def sendAct (c : Chip) (p code : Nat) (a : TxnAct) : Chip :=
  match c.unitAt p code, (c.part p).txn with
  | some u, some x =>
    let ask := fun (type : Nat) (body : List Nat) => c.pask p u.fid type body (refKey refTxn 0)
    match a with
    | .ctl => ask 0x04 [0x110C, 3, x.drainTimeout, x.commitWait, x.resumeWait]
    | .ctlCommit => ask 0x04 [0x1020, 1, 0x80000000]
    | .prepare e full => c.sendPrepare p code u x e full
    | .drain e cls => ask 0x24 [e, cls]
    | .commit e => ask 0x26 [e]
    | .resume e => ask 0x28 [e]
    | .abandon e => ask 0x2A [e]
    | .query => ask 0x2C []
    | .clear => ask 0x04 [0x1128, 1, 1]
  | _, _ => c

/-- An agent's script is replaced, and its first message sent. -/
def setScript (c : Chip) (p code : Nat) (l : List TxnAct) : Chip :=
  let c := c.modTxn p fun x =>
    { x with scripts := if l.isEmpty then SMap.erase x.scripts code else SMap.insert x.scripts code l }
  match l.head? with
  | some a => c.sendAct p code a
  | none => c

/-- A step of a stage begins at its agents. -/
def startStep (c : Chip) (p : Nat) (b : SMap (List TxnAct)) (rest : List (SMap (List TxnAct))) : Chip :=
  b.foldl (fun c e => c.setScript p e.1 e.2) (c.modTxn p fun x => { x with steps := rest, scripts := [] })

/-- Outstanding messages of the zone's transaction are given up. -/
def dropTxnAsks (c : Chip) (p : Nat) : Chip :=
  c.modPart p fun s => { s with requests := s.requests.filter fun r =>
    !(r.ref = refKey refTxn 0 || r.ref = refKey refTxn 1) }

/-! Opening (R121, R128, R129, R448) -/

/-- A gather point of a job of the zone lies within a distance of now, before or after it. -/
def gatherWithin (c : Chip) (p dist : Nat) : Bool :=
  (c.part p).jobs.any fun j => (List.range 32).any fun i =>
    let w := ((j.windowAt (c.now / 131072)).getD j.first) + i * j.frames
    let g := c.gatherOf p j (w - 16 * j.frames)
    decide (j.first + 16 * j.frames ≤ w) && decide ((c.now : Int) ≤ g + dist) && decide (g ≤ (c.now + dist : Nat))

/-- Engine allocation at the start of GENERATE (R448); a floor above ROUTE_GROUPS is clamped to it (R446). -/
def lendNow (c : Chip) (p : Nat) : Chip :=
  let rg := c.reg .ROUTE_ROUTE_GROUPS p
  let floor := c.reg .LOOPS_LEND_FLOOR
  let c := if rg < floor then c.clamped .LOOPS 0 floor rg else c
  let free := if c.reg .LOOPS_LEND_PIN = 1 then rg
    else if c.gatherWithin p (2 * 4096 * 5120 / (32 * rg)) then min floor rg else rg
  let n := if c.halved p then min free 3 else free
  let c := if c.reg .LOOPS_LENT_NOW 0 p = n then c else c.count .LOOPS_LEND_CHANGES
  c.setReg .LOOPS_LENT_NOW 0 p n

/-- The lent engines' work is dealt to the others. -/
def redealLent (c : Chip) (p : Nat) : Chip :=
  let ws := c.working p
  let lost := ((c.part p).engines.deques.filter fun e => !(e.1 ∈ ws)).flatMap Prod.snd
  let c := c.modEngines p fun g => { g with deques := g.deques.filter fun e => e.1 ∈ ws }
  (lost.foldl (fun c u => c.dealUnit p u) c).publishEngines p

/-- GENERATE begins: the link map is fixed as it is now (R130, R134), the groups are lent, and the items are dealt to their working engines. -/
def startGenerate (c : Chip) (p : Nat) : Chip :=
  let m : EpochMap := { links := c.liveLinks p, down := (c.part p).topo.peerDown, slices := c.routedSlices.map fun s => s.num }
  let c := (c.modTxn p fun x => { x with stage := 1, genAt := c.now, map := m, redealt := none, scripts := [], steps := [], polls := [] }).setReg
    .ROUTE_TXN_STAGE p 0 1
  let c := (c.dropTxnAsks p).lendNow p
  let gs := c.chooseLent p (c.reg .LOOPS_LENT_NOW 0 p)
  let es := c.routeEngines p gs
  (c.modTxn p fun x => { x with lent := gs, engines := es }).redealLent p

/-- A zone's part of a transaction opens at an epoch. -/
def openZone (c : Chip) (p : Nat) (r : TxnReq) (domain refused : Bool) (e : Nat) : Chip :=
  let x : Txn := { req := r, epoch := e, openAt := c.now, domain := domain, refused := refused,
                   drainTimeout := c.reg .ROUTE_DRAIN_TIMEOUT p, commitWait := c.reg .ROUTE_COMMIT_WAIT p,
                   resumeWait := c.reg .ROUTE_RESUME_WAIT p, classes := c.reg .ROUTE_DRAIN_CLASSES p }
  let c := c.modPart p fun s => { s with txn := some x, autoAt := none }
  let c := ((c.setReg .ROUTE_TXN_EPOCH p 0 e).setReg .ROUTE_COORDINATED p 0 (ofBool domain)).setReg .ROUTE_AUTO_OPEN p 0
    (ofBool r.auto)
  let c := if r.auto then c.count .ROUTE_AUTO_TXNS p else c
  (c.henAny p 0x3201).startGenerate p

/-- An automatic transaction that fails is tried again, up to 3 times (R139). -/
def autoEnded (c : Chip) (p st : Nat) : Chip :=
  if st = 0x01 ∨ st = 0x02 ∨ st = 0x0C ∨ st = 0x0B then
    if (c.part p).autoTries < 3 then
      c.modPart p fun s => { s with autoTries := s.autoTries + 1, autoAt := some (c.now + c.reg .ROUTE_AUTO_DELAY p * 1000) }
    else c.henAny p 0x3203
  else c

/-! Static loads (R127) -/

/-- A leaf's entry without its avoid flag. -/
def unavoid (u : UnitId) (v : Nat) : Nat :=
  match u with
  | .leaf _ _ => if 0x80 + 32 ≤ v ∧ v % 2 = 1 then valid 32 else v
  | _ => v

/-- The static bank of a unit: region 0 made anew without avoid flags, regions 1 to 3 exactly as its active bank holds them. -/
def staticBank (c : Chip) (p : Nat) (u : TopoUnit) : SMap Nat :=
  let made := ((c.genBank p (c.staticLinks p) u).filter fun e => e.1 < 0x100000).map fun e => (e.1, unavoid u.unit e.2)
  made ++ (SMap.get [] (c.part p).mirrors u.unit.code).filter fun e => 0x100000 ≤ e.1

/-- Sends PREPARE with STATIC and every chunk. -/
def sendStatic (c : Chip) (p : Nat) (u : TopoUnit) : Chip :=
  let bank := c.staticBank p u
  let ks := chunksOf u.profile
  let e := SMap.get (c.reg .ROUTE_ZONE_EPOCH p) (c.part p).agentEpoch u.unit.code
  let c := c.pask p u.fid 0x20 [e, 2, ks.length, sparseCrc bank] (refKey refStatic 0)
  ks.foldl (fun c k =>
    let r := regionOf k.1
    c.pask p u.fid 0x22 ([e, r.1, r.2, k.2] ++ chunkBytes bank k.1 k.2) (refKey refStatic 1)) c

/-- The static bank of every agent of the zone is loaded; a load that was open begins again. -/
def startStatic (c : Chip) (p : Nat) : Chip :=
  let us := c.zoneAgents p
  let c := c.modPart p fun s => { s with
    requests := s.requests.filter (fun r => !(r.ref = refKey refStatic 0 || r.ref = refKey refStatic 1)),
    staticLoad := some { epoch := c.reg .ROUTE_ZONE_EPOCH p, left := us.map fun u => u.unit.code } }
  us.foldl (fun c u => c.sendStatic p u) c

/-- A zone that RELOAD_STATIC named has ended; the command completes after the last. -/
def staticNotify (c : Chip) (z st : Nat) : Chip :=
  allParts.foldl (fun c q => match (c.part q).staticCmd with
    | some (i, tag, zs, sts) =>
      if !zs.contains z then c
      else
        let zs := zs.filter (· ≠ z)
        let sts := addOnce sts st
        if zs.isEmpty then (c.modPart q fun s => { s with staticCmd := none }).complete i tag (worst sts)
        else c.modPart q fun s => { s with staticCmd := some (i, tag, zs, sts) }
    | none => c) c

/-- A static load has ended at every agent. -/
def staticEnded (c : Chip) (p : Nat) : Chip :=
  match (c.part p).staticLoad with
  | none => c
  | some l =>
    if !l.left.isEmpty then c
    else
      let c := (c.modPart p fun s => { s with staticLoad := none }).setReg .ROUTE_STATIC_EPOCH p 0 l.epoch
      c.staticNotify p (worst l.statuses)

/-- An agent's static load ended with a status; a failure is repeated up to 3 times, then logged as 0x3207. -/
def staticAnswer (c : Chip) (p code st : Nat) : Chip :=
  match (c.part p).staticLoad, c.unitAt p code with
  | some l, some u =>
    let drop := fun (c : Chip) => c.modPart p fun s => { s with requests := s.requests.filter fun r =>
      !(r.dst = u.fid && r.ref = refKey refStatic 1) }
    let c := drop c
    let n := SMap.get 0 l.tries code
    if st = 0x00 then
      (c.modPart p fun s => { s with staticLoad := some { l with left := l.left.erase code }
                                     staticMirrors := SMap.set [] s.staticMirrors code (c.staticBank p u) }).staticEnded p
    else if n < 3 then
      (c.modPart p fun s => { s with staticLoad := some { l with tries := SMap.insert l.tries code (n + 1) } }).sendStatic p u
    else
      let l := { l with left := l.left.erase code, statuses := addOnce l.statuses st }
      ((c.modPart p fun s => { s with staticLoad := some l }).henPart p 0x3207 [u.fid]).staticEnded p
  | _, _ => c

/-- A transaction's outcome reaches the command and the slice that wait for it. After the first one of a discovery run the static bank is loaded, however
the transaction ended (R127). A slice whose next transaction waits already hears of that one. -/
def txnReport (c : Chip) (r : TxnReq) (st : Nat) : Chip :=
  let c := c.completeOpt r.cmd st
  let c := if r.afterRun then r.zones.foldl (fun c z => c.startStatic z) c else c
  match r.slice with
  | none => c
  | some n =>
    if allParts.any fun q => (c.part q).waitTxn.any fun x => x.slice = some n then c
    else { c with slices := mapIf (fun s => s.num = n) (fun s => { s with txnStatus := some st }) c.slices }

/-- A transaction is asked for (R128, R129, R134): it waits while a zone of it has one open or is being resolved. From the 75 mV
stage on none opens. A zone whose partition is out of service takes no part, nor in a transaction of
several zones one whose control port is down on all lanes (R23). -/
def openTxn (c : Chip) (lead : Nat) (r : TxnReq) : Chip :=
  let many : Bool := decide (1 < r.zones.length)
  let absent := fun (z : Nat) => c.outOfService z || (many && (c.part z).portDown)
  let none_ := !r.zones.isEmpty && r.zones.all absent
  let r := { r with zones := r.zones.filter fun z => !absent z }
  if none_ then c.txnReport r 0x09 else
  let busy := r.zones.any fun z => (c.part z).txn.isSome || (c.part z).restarting
  if r.zones.any fun z => 4 ≤ c.stageOf z then (if r.auto then c.autoEnded lead 0x0B else c).txnReport r 0x0B
  else if busy then c.modPart lead fun s => { s with waitTxn := s.waitTxn ++ [r] }
  else
    match r.zones with
    | [z] => c.openZone z r false false (nextEpoch (c.reg .ROUTE_ZONE_EPOCH z))
    | l =>
      let c := c.modPart lead fun s => { s with domain := some { req := r, stage := 1, wait := l } }
      l.foldl (fun c z => c.openZone z { r with cmd := none, slice := none } true false (nextEpoch (c.reg .ROUTE_ZONE_EPOCH z))) c

/-- The transactions that wait are looked at again, first come first served. -/
def openWaiting (c : Chip) : Chip :=
  allParts.foldl (fun c p =>
    match (c.part p).waitTxn with
    | r :: rest =>
      if r.zones.any fun z => !c.outOfService z && ((c.part z).txn.isSome || (c.part z).restarting) then c
      else (c.modPart p fun s => { s with waitTxn := rest }).openTxn p r
    | [] => c) c

/-! Stages -/

/-- The scripts of PREPARE (R129, R130): one-agent transactions of an agent whose active epoch is not older than E, the CONTROL
values where they differ, then PREPARE. -/
def prepareScript (c : Chip) (p : Nat) (x : Txn) (code : Nat) : List TxnAct :=
  let a := SMap.get 0 (c.part p).agentEpoch code
  let e1 := (a + 16384) % 65536
  let e2 := (e1 + 16384) % 65536
  let e3 := (e2 + 16384) % 65536
  let one := fun e => [TxnAct.prepare e true, .drain e x.classes, .commit e, .resume e]
  let pre :=
    if epochNewer x.epoch a then []
    else if epochNewer x.epoch e1 then [e1]
    else if epochNewer x.epoch e2 then [e1, e2] else [e1, e2, e3]
  let regs := match c.unitAt p code with | some u => (c.agent u.unit).regs | none => {}
  let known := [Reg.ACONTROL_DRAIN_TIMEOUT, .ACONTROL_COMMIT_WAIT, .ACONTROL_RESUME_WAIT].map (fun r => regs.get r 0 0)
    == [x.drainTimeout, x.commitWait, x.resumeWait]
  let full := x.req.full || x.req.fullFor.contains code
  pre.flatMap one ++ (if known then [] else [.ctl, .ctlCommit]) ++ [.prepare x.epoch (full && pre.isEmpty)]

/-- The agents of a transaction in commit order: OCS units (R153), endpoints, leaves, spines 0 to 14, spine 15 (R130). -/
def commitGroups (c : Chip) (p : Nat) (l : List Nat) : List (List Nat) :=
  let kind := fun code => match c.unitAt p code with
    | some u => (match u.unit with | .ocs _ => 0 | .leaf _ _ => 2 | .spine _ s => if s = 15 then 4 else 3 | _ => 1)
    | none => 1
  ([0, 1, 2, 3, 4].map fun k => l.filter fun a => kind a = k).filter fun g => !g.isEmpty

/-- A step that gives each agent a script. -/
def stepOf (l : List Nat) (f : Nat → List TxnAct) : SMap (List TxnAct) :=
  l.foldl (fun m a => if (f a).isEmpty then m else SMap.insert m a (f a)) []

/-- The commit deadline (R132). -/
def commitDeadline (x : Txn) : Nat :=
  (x.drainAt.getD 0) + x.commitWait * 1000000 - min 10000000 (x.commitWait * 500000)

/-- A stage begins in a zone; `cls` is what DRAIN names. -/
def startStage (c : Chip) (p n cls : Nat) : Chip :=
  match (c.part p).txn with
  | none => c
  | some x =>
    let steps := match n with
      | 2 => [stepOf x.agents (c.prepareScript p x)]
      | 3 => [stepOf x.agents fun _ => [.drain x.epoch cls]]
      | 4 => (c.commitGroups p x.agents).map fun g => stepOf g fun _ => [.commit x.epoch]
      | _ => [stepOf (x.agents.filter fun a => !(a ∈ x.lost)) fun _ => [.resume x.epoch]]
    (c.modTxn p fun x => { x with stage := n, held := false, scripts := [], steps := steps,
                                  drainAt := if n = 3 then some c.now else x.drainAt,
                                  commitSent := x.commitSent || n == 4 }).setReg .ROUTE_TXN_STAGE p 0 n

/-- An agent still not at E is unresolved (R134). -/
def unresolve (c : Chip) (p code : Nat) : Chip :=
  match c.unitAt p code with
  | none => c
  | some u =>
    let c := c.modPart p fun s => { s with topo := { s.topo with unresolved := addOnce s.topo.unresolved code } }
    let c := c.modTxn p fun x => { x with lost := addOnce x.lost code, polls := SMap.erase x.polls code,
                                          scripts := SMap.erase x.scripts code }
    ((c.count .ROUTE_AGENTS_UNRESOLVED p).henPart p 0x3205 [u.fid]).txnStatus p 0x0D

/-- The end of COMMIT: the zone's engines see E's tables, delays become D (R51), blocks of R299 end, and the re-placed templates go out (R130, R131). -/
def commitsDone (c : Chip) (p : Nat) (x : Txn) : Chip :=
  let old := (c.part p).epochLinks
  let c := ((c.adoptMap p x.map).modPart p fun s => { s with violBlocked := [] }).modTxn p fun x => { x with oldLinks := old }
  let slots := fun (e : Nat × TopoLink) => (e.1, { e.2 with d := if e.2.delay = 0 then e.2.d else AC.delaySlots e.2.delay })
  let c := c.modPart p fun s => { s with topo := { s.topo with links := s.topo.links.map slots } }
  (c.part p).jobs.foldl (fun c j => c.sendTemplates p j j.tmpls) c

/-- Usable uplinks of a leaf in a link map. -/
def uplinks (z l : Nat) (m : List Nat) : Nat :=
  ((List.range 32).filter fun i => linkKey (.leaf z l) (32 + i) ∈ m &&
    linkKey (.spine z (i / 2)) (2 * l + i % 2) ∈ m).length

/-- LOOSE ceilings after a change of the link map (R302). FLOOR and the policy's ceiling bound them. One that begins or ceases to be below the
policy's is a replacement of the loop's ceiling (R446). -/
def writeCeilings (c : Chip) (p : Nat) (old new : List Nat) : Chip :=
  if c.reg .FAIL_DEGRADE_CEILING p ≠ 1 then c
  else
    let ls := (List.range 16).filter fun l => uplinks p l old ≠ uplinks p l new
    ((c.zoneAgents p).filter fun u => match u.unit with | .endpoint _ n => n / 32 ∈ ls | _ => false).foldl (fun c u =>
      let l := match u.unit with | .endpoint _ n => n / 32 | _ => 0
      let pol := match c.jobWith p u.fid with
        | some j => let x := policyOf c p j.job; (x.looseFloor, x.looseCeiling)
        | none => (6250, 800000)
      let ceil := fun (m : List Nat) => max pol.1 (min pol.2 (800000 * uplinks p l m / 32))
      let v := ceil new
      let was : Bool := !old.isEmpty && decide (ceil old < pol.2)
      let c := if was = decide (v < pol.2) then c else (c.count .LOOPS_PROTECT_OVERRIDES).henDevAny 0x3C02
      let c := (c.pask p u.fid 0x04 [0x7104, 1, v]).pask p u.fid 0x04 [0x7020, 1, 0x80000000]
      (c.count .FAIL_CEILING_CHANGES p).henAny p 0x3708) c

/-- The longest DRAIN to RESUME interval at an endpoint of the zone, from the agents' receive logs (R141). -/
def stallOf (c : Chip) (p since : Nat) : Nat :=
  ((c.zoneAgents p).filter fun u => u.profile = 0).foldl (fun m u =>
    let l := ((c.agent u.unit).log.map Prod.snd).filter fun e => e.src = c.partFid p && !e.sent && since ≤ e.recvTime
    let at_ := fun (t : Nat) => (l.filter fun e => e.type = t).foldl (fun b e => max b e.recvTime) 0
    if at_ 0x24 = 0 then m else max m (at_ 0x28 - at_ 0x24)) 0

/-- The transaction leaves the zone. -/
def closeTxn (c : Chip) (p : Nat) (x : Txn) : Chip :=
  let c := c.modPart p fun s => { s with txn := none }
  let c := ((c.setReg .ROUTE_TXN_STAGE p 0 0).setReg .ROUTE_AUTO_OPEN p 0 0).setReg .ROUTE_COORDINATED p 0 0
  let c := c.setReg .ROUTE_LAST_TXN_TICKS p 0 (min (c.now - x.openAt) (2 ^ 32 - 1))
  let c := (c.publishEngines p)
  if (c.part p).autoAgain then (c.modPart p fun s => { s with autoAgain := false }).kickAuto p else c

/-- RESUME has ended in the zone: ZONE_EPOCH becomes E (R130), and agents that this transaction brought to E are resolved (R134, R138). -/
def zoneDone (c : Chip) (p : Nat) (x : Txn) : Chip :=
  let c := (c.setReg .ROUTE_ZONE_EPOCH p 0 x.epoch).count .ROUTE_TXN_COMPLETED p
  let c := c.setReg .ROUTE_LAST_STALL_TICKS p 0 (min (c.stallOf p x.openAt) (2 ^ 32 - 1))
  let c := (c.setReg .ROUTE_LAST_CHUNKS p 0 x.chunks).henAny p 0x3202
  let c := if x.degraded = 0 then c else c.henPart p 0x3206 [x.degraded]
  let c := (c.writeCeilings p x.oldLinks x.map.links).modPart p fun s => { s with
    lastResume := c.now
    topo := { s.topo with unresolved := s.topo.unresolved.filter fun a => SMap.get 0 s.agentEpoch a ≠ x.epoch } }
  (c.releaseCross p (x.drainAt.getD c.now)).closeTxn p x

/-- Statuses of a zone's completed transaction, DEGRADED among them (R120, R134). -/
def doneStatuses (x : Txn) : List Nat := if x.degraded = 0 then x.statuses else addOnce x.statuses 0x0D

/-- A transaction of one zone has completed. -/
def txnDone (c : Chip) (p : Nat) (x : Txn) : Chip :=
  let st := worst (doneStatuses x)
  let c := c.zoneDone p x
  let c := if x.req.thenStatic then c.startStatic p else c
  let c := if x.req.auto then c.autoEnded p st else c
  (c.txnReport x.req st).openWaiting.verifyNow

/-- Holds what waits in a zone for a lane (R23). -/
def holdPeer (c : Chip) (z : Nat) (h : PeerHeld) : Chip := c.modPart z fun s => { s with peerHeld := s.peerHeld ++ [h] }

/-- The zones of a domain transaction go on to a stage together (R130), as the lead tells them over the peer channel; one without a lane starts it
when it has one again (R23). CLASSES 0 is sent when no agent's tables change. -/
def domainStage (c : Chip) (d : Domain) (n : Nat) : Chip :=
  let changed := d.req.zones.any fun z => match (c.part z).txn with | some x => x.changed | none => false
  d.req.zones.foldl (fun c z =>
    let cls := if !changed then 0 else match d.req.classes, (c.part z).txn with
      | some k, _ => k
      | none, some x => x.classes
      | none, none => 3
    if (c.part z).portDown then c.holdPeer z (.start n cls)
    else (if z = c.leadPart then c else c.peerOut c.leadPart (c.partFid z) "STAGE" [n, cls]).startStage z n cls) c

/-- The end of a domain transaction. -/
def domainDone (c : Chip) (lead : Nat) (d : Domain) : Chip :=
  let c := c.modPart lead fun s => { s with domain := none }
  let c := if d.req.thenStatic then d.req.zones.foldl (fun c z => c.startStatic z) c else c
  (c.txnReport d.req (worst d.statuses)).openWaiting.verifyNow

/-! Abandonment (R132, R134) -/

/-- E is abandoned in a zone: everything outstanding is dropped, and ABANDON goes to every agent. A refusing agent is asked for its
epochs first. -/
def abandonZone (c : Chip) (p st : Nat) (fresh : Bool) (asked : List Nat) : Chip :=
  match (c.part p).txn with
  | none => c
  | some x =>
    let e := x.epoch
    let b := stepOf x.agents fun a => if a ∈ asked then [.query, .abandon e] else [.abandon e]
    let c := (c.dropTxnAsks p).modTxn p fun x => { x with abandoning := some st, fresh := fresh, held := false, polls := [] }
    (c.startStep p b []).replaceStatic p c.epochView

/-- E is abandoned everywhere: in the zone, or in every zone of the domain transaction, which its lead tells over the peer channel (R23). -/
def abandon (c : Chip) (p st : Nat) (asked : List Nat) : Chip :=
  match (c.part p).txn with
  | none => c
  | some x =>
    let fresh := (st = 0x0C || st = 0x0B) && !x.refused
    if x.domain then
      let lead := c.leadPart
      match (c.part lead).domain with
      | some d =>
        if (c.part p).portDown || (c.part lead).portDown then (c.holdPeer p (.abandon st asked)).modTxn p fun x => { x with held := true }
        else
          let c := c.modPart lead fun s => { s with domain := some { d with stage := 7, wait := d.req.zones,
                                                                            statuses := addOnce d.statuses st } }
          d.req.zones.foldl (fun c z =>
            if (c.part z).portDown then c.holdPeer z (.stop st fresh)
            else (if z = lead then c else c.peerOut lead (c.partFid z) "ABANDON" [st]).abandonZone z st fresh (if z = p then asked else [])) c
      | none => c.abandonZone p st fresh asked
    else c.abandonZone p st fresh asked

/-- Every agent of a zone has answered ABANDON: one fresh start, or the end (R134). -/
def abandonEnded (c : Chip) (p : Nat) (x : Txn) (st : Nat) : Chip :=
  let c := (c.count .ROUTE_TXN_ABANDONED p).henAny p 0x3203
  if x.fresh then c.openZone p x.req x.domain true (nextEpoch x.epoch)
  else
    let c := c.closeTxn p x
    if x.domain then c
    else
      let c := if x.req.auto then c.autoEnded p st else c
      (c.txnReport x.req st).openWaiting.verifyNow

/-- What waited for interrupted transactions of zones that are all resolved: a slice's transaction that was not driven forward runs again
(R159), an automatic one is asked for again; what a command ends with is left open. -/
def reportCut (c : Chip) : Chip :=
  let done := fun (x : CutTxn) => x.req.zones.all fun z => !(c.part z).restarting
  let l := c.cutTxns.filter done
  l.foldl (fun c x =>
    let forward := c.reg .ROUTE_ZONE_EPOCH x.zone = x.epoch
    let c := match x.req.cmd with
      | some (i, tag) => c.drawn.complete i tag (c.freeStatus)
      | none => c
    let c := if x.req.auto && !forward then c.kickAuto x.zone else c
    if x.req.slice.isNone then c
    else if forward then c.txnReport { x.req with cmd := none } 0x00
    else c.openTxn (match x.req.zones with | [z] => z | _ => c.leadPart) { x.req with cmd := none }) { c with cutTxns := c.cutTxns.filter fun x => !done x }

/-- The resolution has ended in a zone: ZONE_EPOCH, and a follow-up transaction for agents that lacked E (R138). -/
def resolved (c : Chip) (p : Nat) : Chip :=
  match (c.part p).txn with
  | none => c
  | some x =>
    if x.stage ≠ 6 ∨ !x.scripts.isEmpty ∨ !x.steps.isEmpty then c
    else
      let c := if x.forward then c.setReg .ROUTE_ZONE_EPOCH p 0 x.epoch else c
      let c := if x.forward ∧ (c.part p).shadowMap.epoch = x.epoch then c.adoptMap p (c.part p).shadowMap else c
      let c := c.modPart p fun s => { s with txn := none, restarting := false, resolve := [], queried := false, told := false, lastResume := c.now }
      let c := c.setReg .ROUTE_TXN_STAGE p 0 0
      let c := if (c.part p).autoAgain then (c.modPart p fun s => { s with autoAgain := false }).kickAuto p else c
      if x.lost.isEmpty then c.reportCut.openWaiting.verifyNow
      else
        let c := c.reportCut.modPart p fun s => { s with topo := { s.topo with unresolved := (s.topo.unresolved ++ x.lost).eraseDups } }
        c.openTxn p { zones := [p], fullFor := x.lost }

/-! Going on -/

/-- What follows in a zone when nothing is outstanding: the next step, the next stage, the report to the lead, the end. `n` bounds
how far it goes at once. -/
def advance : Nat → Chip → Nat → Chip
  | 0, c, _ => c
  | n + 1, c, p =>
    match (c.part p).txn with
    | none => c
    | some x =>
      if !x.scripts.isEmpty || !x.polls.isEmpty || x.held then c
      else
        match x.steps, x.abandoning with
        | b :: r, _ => advance n (c.startStep p b r) p
        | [], some st =>
          if x.domain then report n (c.modTxn p fun x => { x with held := true }) p 7 []
          else c.abandonEnded p x st
        | [], none =>
          if x.stage = 1 then c
          else if x.stage = 6 then c.resolved p
          else
            let c := if x.stage = 4 then c.commitsDone p x else c
            let c := if x.stage = 5 then x.lost.foldl (fun c a => if a ∈ (c.part p).topo.unresolved then c else c.unresolve p a) c else c
            let x := (c.part p).txn.getD x
            if x.domain then report n (c.modTxn p fun x => { x with held := true }) p x.stage (doneStatuses x)
            else if x.stage = 5 then c.txnDone p x
            else if x.stage = 3 ∧ commitDeadline x < c.now then c.abandon p 0x01 []
            else
              let cls := if !x.changed then 0 else x.req.classes.getD x.classes
              advance n (c.startStage p (x.stage + 1) cls) p
where
  /-- A zone reports the end of a stage; the lead goes on when all have. -/
  report (n : Nat) (c : Chip) (p stage : Nat) (sts : List Nat) : Chip :=
    let lead := c.leadPart
    match (c.part lead).domain with
    | none => c
    | some d =>
      if d.stage ≠ stage then c
      else if (c.part p).portDown || (c.part lead).portDown then c.holdPeer p (.report stage sts)
      else
        let d := { d with wait := d.wait.filter (· ≠ p), statuses := (d.statuses ++ sts).eraseDups }
        let c := c.modPart lead fun s => { s with domain := some d }
        let c := if lead = p then c else c.peerOut p (c.partFid lead) "STAGE_REPORT" [p, stage]
        if !d.wait.isEmpty ∨ lead ≠ p then c else goOn n c lead d
  /-- The lead starts the next stage everywhere, or ends the transaction. -/
  goOn (n : Nat) (c : Chip) (lead : Nat) (d : Domain) : Chip :=
    if d.stage = 7 then
      let fresh := d.req.zones.any fun z => match (c.part z).txn with | some x => x.fresh | none => false
      let c := d.req.zones.foldl (fun c z =>
        match (c.part z).txn with
        | some x => c.abandonEnded z x (x.abandoning.getD 0)
        | none => c) c
      if fresh then c.modPart lead fun s => { s with domain := some { d with stage := 1, wait := d.req.zones, statuses := [] } }
      else c.domainDone lead d
    else if d.stage = 5 then
      let c := d.req.zones.foldl (fun c z => match (c.part z).txn with | some x => c.zoneDone z x | none => c) c
      c.domainDone lead d
    else
      let late := d.stage = 3 && d.req.zones.any fun z => match (c.part z).txn with
        | some x => decide (commitDeadline x < c.now)
        | none => false
      if late then c.abandon (d.req.zones.headD lead) 0x01 []
      else
        let c := c.modPart lead fun s => { s with domain := some { d with stage := d.stage + 1, wait := d.req.zones } }
        d.req.zones.foldl (fun c z => advance n c z) (c.domainStage d (d.stage + 1))

/-- What follows in a zone. -/
def goOn (c : Chip) (p : Nat) : Chip := advance 12 c p

/-- What waits in a zone for a lane goes on (R23). -/
def peerGoesOn (c : Chip) (z : Nat) : Chip :=
  if (c.part z).portDown then c
  else (c.part z).peerHeld.foldl (fun c h => match h with
    | .report stage sts => advance.report 12 c z stage sts
    | .abandon st asked => (c.abandon z st asked).goOn z
    | .start n cls => (c.startStage z n cls).goOn z
    | .stop st fresh => (c.abandonZone z st fresh []).goOn z) (c.modPart z fun s => { s with peerHeld := [] })

/-- A lane of a control port is back: what waited in the zone goes on, and behind the lead's port what waited in every zone. -/
def laneReturns (c : Chip) (u : UnitId) : Chip :=
  match u with
  | .part p => if p = c.leadPart then allParts.foldl (fun c z => c.peerGoesOn z) c else c.peerGoesOn p
  | _ => c

/-- The management circuits that begin at this pod (R144): port, and the pod and port that the circuit should join it to. -/
def standingPairs (c : Chip) (p : Nat) : List (Nat × Nat × Nat) :=
  let next := fun (l : List Nat) (x : Nat) =>
    let l := sortBy (fun a b => a ≤ b) l
    if l.length < 2 then none else l[((l.findIdx? (· = x)).getD 0 + 1) % l.length]?
  ((next (allParts.filter fun q => !c.outOfService q) p).map fun z => (45, 16 * c.clusterIndex + z, 46)).toList
    ++ ((next (addOnce c.clusters c.clusterIndex) c.clusterIndex).map fun g => (44, 16 * g + p, 43)).toList

/-- In the first transaction after discovery a pair that the plan cables to no common OCS unit is logged and treated as down (R144). -/
def checkPairs (c : Chip) (p : Nat) : Chip :=
  (c.standingPairs p).foldl (fun (c : Chip) (e : Nat × Nat × Nat) =>
    let k := (c.podOf p, e.1)
    let at15 := fun (pod port : Nat) => c.plan.links.find? fun l => l.pod = pod && l.spine = 15 && l.port = port && l.ocsPort ≠ 0
    let common : Bool := match at15 k.1 e.1, at15 e.2.1 e.2.2 with | some a, some b => a.ocs == b.ocs | _, _ => false
    let up : Bool := match SMap.find? (c.part p).topo.links (linkKey (.spine p 15) e.1) with | some (l : TopoLink) => l.up | none => false
    let put := fun (c : Chip) (f : List (Nat × Nat) → List (Nat × Nat)) => c.modPart p fun s => { s with topo := { s.topo with mgmtDown := f s.topo.mgmtDown } }
    if !common then ((put c fun l => addOnce l k).henAny p 0x3301).tellLead p [3, k.1, k.2, 0]
    else if up then put c fun l => l.filter (· ≠ k)
    else c) c

/-- Rings of which both directions are cut toward some pod are logged as the tables are made (R145). -/
def checkRings (c : Chip) (p : Nat) : Chip :=
  let own := ((allParts.filter fun q => q ≠ p && !c.outOfService q).map fun q => 16 * c.clusterIndex + q)
  let far := (c.clusters.filter fun g => g ≠ c.clusterIndex && !c.down.contains g).map fun g => 16 * g + p
  [own, far].foldl (fun c l => if l.any fun j => (c.mgmtPort p j 0).isNone then c.henAny p 0x3301 else c) c

/-- GENERATE ends in a zone (R119 to R125, R130): the link map is fixed, the banks computed, the templates placed again. -/
def generateDone (c : Chip) (p : Nat) : Chip :=
  match (c.part p).txn with
  | none => c
  | some x =>
    if x.stage ≠ 1 ∨ x.held then c
    else
      let m := x.map.links
      let us := c.zoneAgents p
      let c := (if x.req.afterRun then c.checkPairs p else c).checkRings p
      let banks := us.foldl (fun b u => SMap.insert b u.unit.code (c.genBank p m u)) ([] : SMap (SMap Nat))
      let c := c.setReg .ROUTE_LAST_GEN_TICKS p 0 (min (c.now - x.genAt) (2 ^ 32 - 1))
      let n := c.degradedPairs p m
      let c := c.modTxn p fun x => { x with banks := banks, degraded := n, chunks := 0, changed := false,
                                            agents := (us.map fun u => u.unit.code).filter fun a => !(a ∈ x.lost) }
      let view := c.epochView
      let view : PathView := { bank := fun u => if u.zone = p then SMap.get [] banks u.code else view.bank u,
                               map := fun z => if z = p then x.map else view.map z }
      let c := c.replaceStatic p view
      let c := c.modTxn p fun x => { x with stage := 1 }
      if x.domain then
        advance.report 12 ((c.modTxn p fun x => { x with held := true }).publishEngines p) p 1 []
      else ((c.startStage p 2 0).publishEngines p).goOn p

/-- GENERATE starts again (R134): for a port event on the same epoch, after PREPARE has begun on the next one. In a domain
transaction every zone begins again. -/
def restartGenerate (c : Chip) (p : Nat) : Chip :=
  match (c.part p).txn with
  | none => c
  | some x =>
    let one := fun (c : Chip) (z : Nat) =>
      let c := c.modTxn z fun y =>
        { y with epoch := if y.stage = 1 then y.epoch else nextEpoch y.epoch, restarts := y.restarts + 1, held := false }
      let e := match (c.part z).txn with | some y => y.epoch | none => 0
      ((c.setReg .ROUTE_TXN_EPOCH z 0 e).count .ROUTE_GEN_RESTARTS z).startGenerate z
    if x.domain then
      let lead := c.leadPart
      match (c.part lead).domain with
      | some d =>
        let c := c.modPart lead fun s => { s with domain := some { d with stage := 1, wait := d.req.zones } }
        d.req.zones.foldl one c
      | none => one c p
    else one c p

/-- A port event of the zone while a transaction is open, or none (R134, R139). -/
def linkEvent (c : Chip) (p : Nat) : Chip :=
  match (c.part p).txn with
  | some x => if x.stage = 1 ∧ x.restarts < 3 then c.restartGenerate p else c.kickAuto p
  | none => c.kickAuto p

/-- STAGE_REPORT arrives at the lead partition: the zone's report was taken as it was sent; the next stage begins when all are
in. -/
def stageReport (c : Chip) (lead stage : Nat) : Chip :=
  match (c.part lead).domain with
  | none => c
  | some d => if d.stage ≠ stage ∨ !d.wait.isEmpty then c else advance.goOn 12 c lead d

/-! Answers -/

/-- An agent's first act is done; the next goes out. -/
def popAct (c : Chip) (p code : Nat) : Chip :=
  match (c.part p).txn with
  | none => c
  | some x => (c.setScript p code ((SMap.get [] x.scripts code).drop 1)).goOn p

/-- After the first COMMIT an agent is brought to E by its report, up to 3 times (R133, R134, R137). -/
def recover (c : Chip) (p code : Nat) : Chip :=
  match (c.part p).txn with
  | none => c
  | some x =>
    let n := SMap.get 0 x.recov code
    if 3 ≤ n then (c.unresolve p code).goOn p
    else
      let c := (c.modTxn p fun x => { x with recov := SMap.insert x.recov code (n + 1), polls := SMap.erase x.polls code }).count
        .ROUTE_AGENT_ROLLBACKS p
      c.setScript p code [.query]

/-- The acts that bring an agent to E by its report (R137); none where it cannot be. -/
def forwardActs (e cls : Nat) (rep : List Nat) : Option (List TxnAct) :=
  let act := rep.getD 0 0
  let sh := rep.getD 1 0
  let st := rep.getD 2 0
  let fl := rep.getD 3 0
  let pre := if bits fl 4 3 = 2 then [TxnAct.clear] else []
  if act = e then some (if st = 5 then pre ++ [.resume e] else pre)
  else if sh = e ∧ bit fl 0 then
    if st = 3 ∨ st = 4 then some (pre ++ [.commit e, .resume e])
    else if bit fl 1 ∧ (st = 2 ∨ st = 6) then some (pre ++ [.drain e cls, .commit e, .resume e])
    else none
  else none

/-- An EPOCH_REPORT in answer to a transaction's query. -/
def actReport (c : Chip) (p code : Nat) (rep : List Nat) : Chip :=
  match (c.part p).txn with
  | none => c
  | some x =>
    if x.abandoning.isSome ∨ !x.commitSent then c.popAct p code
    else if SMap.find? x.polls code ≠ none ∧ rep.getD 0 0 ≠ x.epoch ∧ c.now < (x.drainAt.getD 0) + x.commitWait * 1000000 then
      c.modTxn p fun x => { x with polls := SMap.insert x.polls code (c.now + 1000000), scripts := SMap.erase x.scripts code }
    else
      let c := c.modTxn p fun x => { x with polls := SMap.erase x.polls code }
      match forwardActs x.epoch x.classes rep with
      | none => (c.unresolve p code).goOn p
      | some l =>
        let l := if x.stage = 4 then l.filter fun a => match a with | .resume _ => false | _ => true else l
        (c.setScript p code l).goOn p

/-- An agent's answer to the act that is out. -/
def actAnswer (c : Chip) (p code : Nat) (a : TxnAct) (st : Nat) (body : List Nat) : Chip :=
  match (c.part p).txn, c.unitAt p code with
  | some x, some u =>
    let refused := st = 0x0C || st = 0x0B
    match a with
    | .ctlCommit =>
      c.popAct p code
    | .prepare e _ =>
      let c := c.modPart p fun s => { s with requests := s.requests.filter fun r =>
        !(r.dst = u.fid && r.ref = refKey refTxn 1) }
      if st = 0x00 then c.popAct p code
      else if st = 0x02 then
        let n := SMap.get 0 x.resends code
        if n < 3 then
          let c := (c.modTxn p fun x => { x with resends := SMap.insert x.resends code (n + 1) }).count .ROUTE_PREPARE_RESENDS p
          c.setScript p code (.prepare e true :: (SMap.get [] x.scripts code).drop 1)
        else (c.abandon p 0x02 []).goOn p
      else if refused then (c.abandon p st [code]).goOn p
      else c.popAct p code
    | .drain _ _ =>
      if refused then if x.commitSent then c.recover p code else (c.abandon p st [code]).goOn p
      else if st = 0x01 then (c.count .ROUTE_DRAIN_TIMEOUTS p).popAct p code
      else c.popAct p code
    | .commit e =>
      if st = 0x00 then (c.agentAt p code e).popAct p code
      else if x.commitSent then c.recover p code
      else (c.abandon p st [code]).goOn p
    | .resume _ => if refused && x.stage ≠ 6 then c.recover p code else c.popAct p code
    | .query =>
      (c.agentAt p code (body.getD 0 0)).actReport p code body
    | _ => c.popAct p code
  | _, _ => c

/-- An act that no agent answers after the retries (R134). -/
def actTimeout (c : Chip) (p code : Nat) (a : TxnAct) : Chip :=
  match (c.part p).txn, c.unitAt p code with
  | some x, some u =>
    let gone := fun (c : Chip) =>
      let c := c.modTxn p fun x => { x with lost := addOnce x.lost code }
      c.henPart p 0x3205 [u.fid]
    match a with
    | .prepare _ _ | .ctl | .ctlCommit =>
      let c := c.unitDown p u.unit
      if x.restarts < 3 then ((gone c).restartGenerate p).goOn p else ((gone c).setScript p code []).goOn p
    | .drain _ _ => (c.count .ROUTE_DRAIN_TIMEOUTS p).popAct p code
    | .commit _ =>
      if x.commitSent then
        c.modTxn p fun x => { x with polls := SMap.insert x.polls code c.now, scripts := SMap.erase x.scripts code }
      else c.popAct p code
    | .query =>
      if SMap.find? x.polls code ≠ none ∧ c.now < (x.drainAt.getD 0) + x.commitWait * 1000000 then
        c.modTxn p fun x => { x with polls := SMap.insert x.polls code (c.now + 1000000), scripts := SMap.erase x.scripts code }
      else if x.commitSent ∧ x.abandoning.isNone then
        ((c.modTxn p fun x => { x with polls := SMap.erase x.polls code }).unresolve p code).goOn p
      else c.popAct p code
    | .resume _ =>
      c.modTxn p fun x => { x with polls := SMap.insert x.polls code (c.now + x.resumeWait * 1000000), scripts := SMap.erase x.scripts code }
    | _ => c.popAct p code
  | _, _ => c

/-- EPOCH_QUERY to the agents whose COMMIT timed out, every 1 ms, and to those whose RESUME timed out once they should have resumed by themselves
(R134). -/
def commitPoll (c : Chip) (p : Nat) : Chip :=
  match (c.part p).txn with
  | none => c
  | some x =>
    (x.polls.filter fun e => e.2 ≤ c.now && (SMap.find? x.scripts e.1).isNone).foldl (fun c e => c.setScript p e.1 [.query]) c

/-- The commit deadline passes before any COMMIT (R132). -/
def commitDeadlinePassed (c : Chip) (p : Nat) : Chip :=
  match (c.part p).txn with
  | none => c
  | some x =>
    if x.stage = 3 ∧ !x.commitSent ∧ x.abandoning.isNone ∧ commitDeadline x ≤ c.now then (c.abandon p 0x01 []).goOn p else c

/-- A ROLLBACK notice: after the first COMMIT the agent is driven to E (R133, R134). -/
def rollback (c : Chip) (p src : Nat) (rep : List Nat) : Chip :=
  let c := c.logMsg p src 0x2F 0 c.now false false
  match (c.part p).txn, c.unitOf p src with
  | some x, some u =>
    if x.commitSent ∧ x.abandoning.isNone ∧ rep.getD 1 0 = x.epoch ∧ (SMap.find? x.scripts u.unit.code).isNone then
      c.recover p u.unit.code
    else c
  | _, _ => c

/-! After a reset (R136 to R138) -/

/-- EPOCH_QUERY to every agent of the zone. -/
def queryAll (c : Chip) (p : Nat) : Chip :=
  (c.zoneAgents p).foldl (fun c u => c.pask p u.fid 0x2C [] (refKey refReport 0)) c

/-- A zone can speak to its agents: its partition is not in reset, and the supply does not hold it. -/
def zoneSpeaks (c : Chip) (z : Nat) : Bool := !c.bypassed z && decide (c.stageOf z < 5)

/-- A reset or the 90 mV stage interrupts what is open in a zone, and with it the domain transaction that the zone belongs to: no zone of it
opens another until all are resolved (R134, R136). -/
def interrupt (c : Chip) (p : Nat) : Chip :=
  let mark := fun (c : Chip) (zones : List Nat) => zones.foldl (fun c z =>
    let c := ((c.dropTxnAsks z).modPart z fun s => { s with txn := none, restarting := true, resolve := zones, queried := false, told := false
                                                            reports := [], staticLoad := none }).setReg .ROUTE_TXN_STAGE z 0 6
    (c.setReg .ROUTE_COORDINATED z 0 0).setReg .ROUTE_AUTO_OPEN z 0 0) c
  match (c.part p).txn with
  | none => mark c (if (c.part p).resolve.isEmpty then [p] else (c.part p).resolve)
  | some x =>
    if x.stage = 6 then mark c (if (c.part p).resolve.isEmpty then [p] else (c.part p).resolve)
    else if x.domain then
      let lead := c.leadPart
      match (c.part lead).domain with
      | some d =>
        let c := c.modPart lead fun s => { s with domain := none }
        mark { c with cutTxns := c.cutTxns ++ [{ zone := p, epoch := x.epoch, req := d.req }] } d.req.zones
      | none => mark c [p]
    else mark { c with cutTxns := c.cutTxns ++ [{ zone := p, epoch := x.epoch, req := x.req }] } [p]

/-- A zone that is to be resolved asks every agent, where it can speak. -/
def askZone (c : Chip) (z : Nat) : Chip :=
  let c := (c.dropTxnAsks z).modPart z fun s => { s with reports := [], told := false }
  let c := c.setReg .ROUTE_TXN_STAGE z 0 6
  if c.zoneSpeaks z then (c.modPart z fun s => { s with queried := true }).queryAll z else c

/-- E of R136 for a zone: the newest epoch among the reports. -/
def newestEpoch (c : Chip) (p : Nat) : Nat :=
  (c.part p).reports.foldl (fun b e =>
    let l := e.2.getD 0 0 :: (if bit (e.2.getD 3 0) 0 then [e.2.getD 1 0] else [])
    l.foldl (fun b x => if b = 0 ∨ epochNewer x b then x else b) b) 0

/-- The steps of a zone's resolution (R137). -/
def resolveZone (c : Chip) (p : Nat) (forward : Bool) : Chip :=
  let e := c.newestEpoch p
  let reps := (c.part p).reports
  let at_ := (reps.filter fun r => r.2.getD 0 0 = e).length
  let cls := c.reg .ROUTE_DRAIN_CLASSES p
  let acts := fun (code : Nat) =>
    let r := SMap.get [] (c.part p).reports code
    if forward then (forwardActs e cls r).getD []
    else
      (if bits (r.getD 3 0) 4 3 = 2 then [TxnAct.clear] else [])
        ++ (if r.getD 1 0 = e then [TxnAct.abandon e] else [])
  let pre := fun (a : TxnAct) => match a with | .commit _ | .resume _ => false | _ => true
  let com := fun (a : TxnAct) => match a with | .commit _ => true | _ => false
  let res := fun (a : TxnAct) => match a with | .resume _ => true | _ => false
  let codes := reps.map Prod.fst
  let steps := [stepOf codes fun a => (acts a).filter pre]
    ++ (c.commitGroups p codes).map (fun g => stepOf g fun a => (acts a).filter com) ++ [stepOf codes fun a => (acts a).filter res]
  let lag := if forward then codes.filter fun a => (forwardActs e cls (SMap.get [] (c.part p).reports a)).isNone else []
  let x : Txn := { req := { zones := [p] }, epoch := e, openAt := c.now, stage := 6, agents := codes, steps := steps, lost := lag,
                   forward := forward, commitSent := true, commitWait := c.reg .ROUTE_COMMIT_WAIT p,
                   resumeWait := c.reg .ROUTE_RESUME_WAIT p, classes := cls }
  let c := c.modPart p fun s => { s with txn := some x }
  let c := if forward then c.count .ROUTE_TXN_FORWARD p else c
  (c.henPart p 0x3204 [e, ofBool forward, at_]).goOn p

/-- All reports of the zones to be resolved are in: each zone's go to the lead partition, which applies the one rule of R136 over their union; where it is in
reset they wait. -/
def decide_ (c : Chip) (p : Nat) : Chip :=
  let zones := (c.part p).resolve
  let inOf := fun (z : Nat) => (c.part z).restarting && c.zoneSpeaks z && (c.part z).queried && c.settled z (refKey refReport 0)
  let c := if inOf p && !(c.part p).told && 1 < zones.length then
      (c.modPart p fun s => { s with told := true }).peerOut p (c.partFid c.leadPart) "EPOCH_REPORTS"
        (((c.part p).reports.flatMap fun e => e.1 :: e.2))
    else c
  let ready := zones.all inOf && (zones.length = 1 || !c.bypassed c.leadPart)
  let open_ := zones.any fun z => match (c.part z).txn with | some x => x.stage == 6 | none => false
  if zones.isEmpty || !ready || open_ then c
  else
    let forward := zones.any fun z => (c.part z).reports.any fun r => r.2.getD 0 0 = c.newestEpoch z
    zones.foldl (fun c z => c.resolveZone z forward) c

end Chip

end Sys2Proof.Machine
end

