-- ==== Sys2Proof/Machine/HopLimit.lean ====
section
/-! DEFINITION. HOP_LIMIT of the switches, as slices and management routes need it (R57, R146, R154). -/

namespace Sys2Proof.Machine

open Sys2Proof

/-- The greatest number of pod hops from a pod to another of the slice (R154). -/
def eccentricity (s : Slice) (pos : List Nat) : Nat := s.positions.foldl (fun m x => max m (s.hops 2048 pos x)) 0
/-- What the routes of a slice need of HOP_LIMIT: the longest undeflected route, of d + 3 switches, and 4. -/
def hopsNeeded (s : Slice) : Nat := s.positions.foldl (fun m x => max m (eccentricity s x)) 0 + 7

namespace Chip

/-- The longest management route in switches, M (R146). -/
def mgmtRoute (c : Chip) : Nat :=
  (addOnce c.clusters c.clusterIndex).length / 2 + (allParts.filter fun q => !c.outOfService q).length / 2 + 3

/-- The configured HOP_LIMIT of a switch: what it held before the G9 first raised it. -/
def hopConfigured (c : Chip) (z : Nat) (u : UnitId) : Nat :=
  match (c.part z).hopHeld.find? fun e => e.1 = u with
  | some e => e.2
  | none => (c.agent u).regs.get .ACONTROL_HOP_LIMIT 0 0

/-- HOP_LIMIT of a switch: the greatest of its configured value, M + 4 and what some slices need, at most 63. -/
def hopLimitFor (c : Chip) (z : Nat) (u : UnitId) (l : List Slice) : Nat :=
  min 63 (l.foldl (fun m s => max m (hopsNeeded s)) (max (c.hopConfigured z u) (c.mgmtRoute + 4)))

/-- The slices of some that have a pod in a zone: the switches of their planes there carry them. -/
def ofZone (c : Chip) (z : Nat) (l : List Slice) : List Slice := l.filter fun s => c.podOf z ∈ s.pods c.grid

/-- WRITE and COMMIT of HOP_LIMIT to the switches of a zone that it raises, or lowers where that is wanted (R57). -/
def setHops (c : Chip) (z : Nat) (l : List Slice) (lower : Bool) (ref : Nat) : Chip :=
  ((c.zoneAgents z).filter fun u => u.unit.profile = .switch).foldl (fun c u =>
    let v := c.hopLimitFor z u.unit (c.ofZone z l)
    let cur := (c.agent u.unit).regs.get .ACONTROL_HOP_LIMIT 0 0
    if v = cur ∨ (v < cur ∧ !lower) then c
    else
      let old := c.hopConfigured z u.unit
      let c := c.modPart z fun s => { s with hopHeld := s.hopHeld.filter (fun e => e.1 ≠ u.unit) ++ [(u.unit, old)] }
      (c.pask z u.fid 0x04 [0x1100, 1, v] ref).pask z u.fid 0x04 [0x1020, 1, 0x80000000] ref) c

/-- Every switch of this G9's zones is held at M + 4 or above (R146). -/
def holdHops (c : Chip) : Chip :=
  (allParts.filter fun z => !c.outOfService z).foldl (fun c z => c.setHops z c.routedSlices false 0) c

end Chip

end Sys2Proof.Machine
end

