-- ==== Sys2Proof/Machine/Discovery.lean ====
section
/-! DEFINITION. Discovery (R97 to R115): directed exchanges, the walk of a run, the comparison with the plan, findings, FIDs and board
numbers, late links, circuit verification, peer reports (R481) and the discovery commands. -/

namespace Sys2Proof.Machine

open Sys2Proof

/-- A position as POS encodes it (R104). -/
def posCode (pod : Nat) : UnitId → Nat
  | .endpoint _ n => 0 + pod * 16 + n * 8192
  | .leaf _ l => 1 + pod * 16 + l * 8192
  | .spine _ s => 2 + pod * 16 + s * 8192
  | .ocs n => 3 + n * 8192
  | .part _ => 4 + pod * 16

/-- One of several records that name a port: which is unpredictable (R105). -/
def pickOne {α : Type} (pl : Plan) (key : Nat) (l : List α) : Option α := l[Config.planPick pl.id key % l.length]?

/-- The board and place that the plan gives a leaf port; none where it leaves the port empty (R104). -/
def planPlace (pl : Plan) (pod leaf port : Nat) : Option (Nat × Nat) :=
  let own := (pl.boards.filter fun b => b.pod = pod).filterMap fun b =>
    (findIdxOf (fun x => x == some (leaf, port)) b.places 0).map fun e => (b.board, e.1)
  match own with
  | [x] => some x
  | _ :: _ => pickOne pl (32 * (16 * pod + leaf) + port) own
  | [] =>
    let b := 4 * leaf + port / 8
    if pl.boards.any fun x => x.pod = pod && x.board = b then none else some (b, port % 8)

/-- Major level of an agent (R3). -/
def level (b : IdBlock) : Nat := b.pageVer / 65536

/-- The planned link of a spine's circuit port. -/
def Plan.at (pl : Plan) (pod spine port : Nat) : Option PlanLink :=
  match pl.links.filter fun l => l.pod = pod && l.spine = spine && l.port = port with
  | [] => none
  | [l] => some l
  | l => pickOne pl (64 * (16 * pod + spine) + port) l

namespace Run

/-- What the unit with a serial reported of a port. -/
def seen (r : Run) (serial port : Nat) : Option IdBlock := SMap.find? r.obs (serial * 1024 + port)
/-- The lower-numbered link of a pair that is up; none where neither is (R106). -/
def lower (r : Run) (serial base : Nat) : Option (Nat × IdBlock) :=
  match r.seen serial base with
  | some b => some (base, b)
  | none => (r.seen serial (base + 1)).map fun b => (base + 1, b)

end Run

/-- The most frequent serial of a list of candidates; at a tie the first to come (R107). -/
def vote (l : List Nat) : Option Nat :=
  l.foldl (fun (b : Option Nat) x => match b with
    | some y => if l.count y < l.count x then some x else some y
    | none => some x) none

namespace Chip

/-! Directed exchanges (R100, R103) -/

/-- Changes the topology database of a zone. -/
def modTopo (c : Chip) (p : Nat) (f : TopoDb → TopoDb) : Chip := c.modPart p fun s => { s with topo := f s.topo }
/-- Changes the discovery run of a zone. -/
def modRun (c : Chip) (p : Nat) (f : Run → Run) : Chip := c.modTopo p fun t => { t with run := t.run.map f }

/-- The block of an exchange as the partition sends it. -/
def blockOf (c : Chip) (p : Nat) (x : Exchange) : DirBlock :=
  { op := x.op, count := x.path.length, index := 0, origin := c.partFid p, tag := x.tag, path := x.path, payload := x.payload }

/-- Sends an exchange under a fresh TAG. -/
def launch (c : Chip) (p : Nat) (x : Exchange) : Chip × Exchange :=
  let x := { x with tag := (c.part p).topo.nextTag, sentAt := c.now }
  ((c.modTopo p fun t => { t with nextTag := (t.nextTag + 1) % 2 ^ 32 }).emit (.directed (.part p) 0 (c.blockOf p x)), x)

/-- Exchanges of a run go out while fewer than 64 are in flight. -/
def pump (c : Chip) (p : Nat) : Nat → Chip
  | 0 => c
  | n + 1 =>
    match (c.part p).topo.run with
    | none => c
    | some r =>
      match r.todo with
      | [] => c
      | x :: rest =>
        if 64 ≤ r.flight.length then c
        else
          let y := c.launch p x
          pump (y.1.modRun p fun r => { r with todo := rest, flight := r.flight ++ [y.2] }) p n

/-- An exchange outside a run: ASSIGN, PORT_STATE, or what a late link needs. -/
def direct (c : Chip) (p : Nat) (x : Exchange) : Chip :=
  let y := c.launch p x
  y.1.modTopo p fun t => { t with exchanges := t.exchanges ++ [y.2] }

/-- IDENTIFY of a unit and of the partners on its ports. -/
def identifies (serial : Nat) (path : List Nat) (ports : List Nat) : List Exchange :=
  { serial := serial, path := path, op := 1, payload := [0xFFFF] }
    :: ports.map fun q => { serial := serial, path := path, op := 1, payload := [q] }

/-- A discovery run begins at the control port (R106). -/
def startRun (c : Chip) (p : Nat) : Chip :=
  let r : Run := { t0 := c.now, wait := c.plan.wait, plan := c.plan, todo := identifies 0 [] (List.range 48) }
  (c.modTopo p fun t => { t with run := some r, tc := none }).pump p 64

/-! The walk -/

/-- What the next stage of a run asks: leaves through spine 15, the other spines through the lowest-numbered leaf, MEASURE on every trained port of
the switches and on the ports of the endpoints and OCS units that they reach. -/
def stageTodo (r : Run) (stage : Nat) : List Exchange × SMap (List Nat) :=
  let leaves := (List.range 16).filterMap fun l => (r.lower r.root (2 * l)).map fun e => (l, e.1, e.2)
  match stage with
  | 1 =>
    (leaves.flatMap fun e => identifies e.2.2.serial [e.2.1] (List.range 64),
     leaves.foldl (fun m e => SMap.insert m e.2.2.serial [e.2.1]) r.paths)
  | 2 =>
    let spines := (List.range 15).filterMap fun s =>
      leaves.findSome? fun e => (r.lower e.2.2.serial (32 + 2 * s)).map fun x => (x.2.serial, [e.2.1, x.1])
    (spines.flatMap fun e => identifies e.1 e.2 (List.range 64), spines.foldl (fun m e => SMap.insert m e.1 e.2) r.paths)
  | 3 =>
    (r.obs.flatMap fun e => match SMap.find? r.paths (e.1 / 1024) with
      | none => []
      | some path =>
        let near : Exchange := { serial := e.1 / 1024, path := path, op := 2, payload := [e.1 % 1024] }
        let far : Exchange := { serial := e.2.serial, path := path ++ [e.1 % 1024], op := 2, payload := [e.2.port] }
        if e.2.profile = 0 ∨ e.2.profile = 2 then [near, far] else [near], r.paths)
  | _ => ([], r.paths)

/-- A stage of the walk has ended where nothing is to be sent or awaited; the next begins. -/
def walkOn (c : Chip) (p : Nat) : Nat → Chip
  | 0 => c
  | n + 1 =>
    match (c.part p).topo.run with
    | none => c
    | some r =>
      if !r.todo.isEmpty || !r.flight.isEmpty || 4 ≤ r.stage then c
      else
        let t := stageTodo r (r.stage + 1)
        walkOn ((c.modRun p fun r => { r with stage := r.stage + 1, todo := t.1, paths := t.2 }).pump p 64) p n

/-- What a response of a run tells. -/
def learnOf (r : Run) (x : Exchange) (b : DirBlock) : Run :=
  let port := x.payload.getD 0 0
  if b.status ≠ 0x00 then r
  else
    match x.op, b.block with
    | 1, some i =>
      if port = 0xFFFF then
        let r := { r with idents := SMap.insert r.idents i.serial i }
        if x.path.isEmpty then
          { r with root := i.serial, paths := SMap.insert r.paths i.serial [],
                   obs := (r.obs.filter fun e => 1024 ≤ e.1) ++ ((r.obs.filter fun e => e.1 < 1024).map fun e => (i.serial * 1024 + e.1, e.2)) }
        else r
      else
        let near := if x.path.isEmpty then r.root else x.serial
        { r with obs := SMap.insert r.obs (near * 1024 + port) i, idents := SMap.insert r.idents i.serial i }
    | 2, _ =>
      let near := if x.path.isEmpty then r.root else x.serial
      let w := b.payload.getD 0 0
      { r with delays := SMap.insert r.delays (near * 1024 + port) (bits w 15 0, bits w 23 16) }
    | _, _ => r

/-! Findings (R109) -/

/-- A finding is recorded in Hen and in the topology database. `pos` stands for the near POS where no unit is near: a board. -/
def finding (c : Chip) (p code : Nat) (near : UnitId) (nport fport far tag : Nat) (b : IdBlock := {}) (pos : Option Nat := none) : Chip :=
  let pos := pos.getD (posCode (c.unitPod near) near)
  let f : Finding := { code := code, near := near, nearPort := nport, farPort := fport, far := far, tag := tag, time := c.now, pos := pos,
                       serial := b.serial, fid := b.fid }
  let c := c.modTopo p fun t => { t with
    findings := t.findings ++ [f],
    units := t.units.map fun e => if e.2.unit = near then (e.1, { e.2 with findings := min 255 (e.2.findings + 1) }) else e }
  c.henPart p (0x3100 + code) [pos, nport % 65536 + (fport % 65536) * 65536, far, tag]

/-- The report of another zone that positions a unit (R481): by its SERIAL or its FID. -/
def peerWith (c : Chip) (p : Nat) (b : IdBlock) : Option PeerUnit :=
  (c.part p).topo.peers.find? fun u => !u.retired && u.pod ≠ c.podOf p && (u.serial == some b.serial || (b.fid ≠ nullFid && u.fid = b.fid))
/-- A unit is positioned in another pod, as the peer reports say. -/
def elsewhere (c : Chip) (p : Nat) (b : IdBlock) : Bool := (c.peerWith p b).isSome

/-! Positions (R107) -/

/-- Serials by position. -/
structure Placing where
  at_ : SMap Nat := []
  taken : List Nat := []

/-- The serial at a position. -/
def Placing.serial (x : Placing) (u : UnitId) : Option Nat := SMap.find? x.at_ u.code
/-- Puts a unit at a position unless it is taken. -/
def Placing.put (x : Placing) (u : UnitId) (s : Option Nat) : Placing :=
  match s with
  | some s => if (x.serial u).isSome || x.taken.contains s then x else { at_ := SMap.insert x.at_ u.code s, taken := s :: x.taken }
  | none => x

/-- The position of a serial. -/
def Placing.posOf (x : Placing) (s : Nat) : Option Nat := (List.find? (fun (e : Nat × Nat) => e.2 = s) x.at_).map Prod.fst

/-- A unit may hold a position of a kind: its agent is of major level 2 (R3), its profile is the kind's, and no other pod positions it (R108). -/
def placeable (c : Chip) (p profile : Nat) (b : IdBlock) : Bool := level b = 2 && b.profile = profile && !c.elsewhere p b

/-- Votes of ports for a switch position. -/
def candidates (c : Chip) (p : Nat) (r : Run) (l : List (Nat × Nat)) : List Nat :=
  l.filterMap fun e => (r.seen e.1 e.2).bind fun b => if c.placeable p 1 b then some b.serial else none

/-- The ports of positioned units that may reach a position. -/
def Placing.reach (x : Placing) (l : List (UnitId × Nat)) : List (Nat × Nat) :=
  l.filterMap fun e => (x.serial e.1).map fun f => (f, e.2)

/-- Positions of spines, leaves, endpoints and OCS units. -/
def positions (c : Chip) (r : Run) (z pod : Nat) : Placing :=
  let root : Option Nat := (SMap.find? r.idents r.root).bind fun b => if c.placeable z 1 b then some r.root else none
  let x : Placing := ({} : Placing).put (.spine z 15) root
  let x := (List.range 16).foldl (fun (x : Placing) l =>
    x.put (.leaf z l) (vote (c.candidates z r (x.reach [(.spine z 15, 2 * l), (.spine z 15, 2 * l + 1)])))) x
  let x := (List.range 15).foldl (fun (x : Placing) s =>
    x.put (.spine z s) (vote (c.candidates z r (x.reach ((List.range 16).flatMap fun l =>
      [(UnitId.leaf z l, 32 + 2 * s), (UnitId.leaf z l, 33 + 2 * s)]))))) x
  let x := (List.range 16).foldl (fun (x : Placing) l =>
    if (x.serial (.leaf z l)).isSome then x
    else x.put (.leaf z l) (vote (c.candidates z r (x.reach ((List.range 16).flatMap fun s =>
      [(UnitId.spine z s, 2 * l), (UnitId.spine z s, 2 * l + 1)]))))) x
  let take := fun (x : Placing) (near : UnitId) (port profile : Nat) (u : UnitId) =>
    match (x.serial near).bind fun f => r.seen f port with
    | some b => if c.placeable z profile b then x.put u (some b.serial) else x
    | none => x
  let x := (List.range 512).foldl (fun (x : Placing) n => take x (.leaf z (n / 32)) (n % 32) 0 (.endpoint z n)) x
  (r.plan.links.filter fun l => l.pod = pod && l.ocsPort = 0).foldl (fun (x : Placing) l => take x (.spine z l.spine) l.port 2 (.ocs l.ocs)) x

/-- The BOARD_ID of board `b`: the one that holds the most of its planned ports. -/
def boardAt (r : Run) (x : Placing) (z pod b : Nat) : Option Nat :=
  vote ((List.range 512).filterMap fun n =>
    match planPlace r.plan pod (n / 32) (n % 32), x.serial (.leaf z (n / 32)) with
    | some (k, _), some f => if k = b then (match r.seen f (n % 32) with
        | some i => if level i = 2 ∧ i.profile = 0 then some i.boardId else none
        | none => none) else none
    | _, _ => none)

/-! Comparison (R108) -/

/-- What the plan expects at a near port: a unit and its port, or a board position (which board, which place) as an endpoint. -/
inductive Want where
  | unit (u : UnitId) (port : Nat)
  | place (board slot : Nat)
  | control
  | circuit (l : PlanLink)
  | empty
  deriving DecidableEq, Repr

/-- The link that R35, R97 and the plan give for a port. -/
def wantAt (pl : Plan) (z pod : Nat) (u : UnitId) (q : Nat) : Want :=
  match u with
  | .leaf _ l =>
    if q < 32 then (match planPlace pl pod l q with | some (b, i) => .place b i | none => .empty)
    else .unit (.spine z ((q - 32) / 2)) (2 * l + q % 2)
  | .spine _ s =>
    if q < 32 then .unit (.leaf z (q / 2)) (32 + 2 * s + q % 2)
    else if s = 15 ∧ q = 47 then .control
    else match pl.at pod s q with
      | some l => if l.ocsPort = 0 then .unit (.ocs l.ocs) 0 else .circuit l
      | none => .empty
  | _ => .empty

/-- The class of an identified link (R108): 0 OK, else 2 to 7. `mirror` says whether another link of the near unit carries the
mirror error. Without a plan a circuit port that finds a partner is UNPLANNED (R105), after LEVEL only. -/
def classOf (c : Chip) (p : Nat) (r : Run) (x : Placing) (boards : SMap Nat) (u : UnitId) (q : Nat) (b : IdBlock) : Nat :=
  let z := p
  let pod := c.podOf p
  let near := (x.serial u).getD 0
  let want := fun q => wantAt r.plan z pod u q
  let circuit : Bool := match want q with | .circuit _ => true | _ => false
  let bare : Bool := !r.plan.held && (match u with | .spine _ _ => 32 ≤ q && q < 48 | _ => false) && (match want q with | .empty => true | _ => false)
  if b.profile ≠ 3 ∧ level b ≠ 2 then 7
  else if bare then 6
  else if b.profile ≠ 3 ∧ c.elsewhere p b ∧ !circuit then 4
  else
    match want q with
    | .empty => 6
    | .circuit _ => 0
    | .control => if b.profile = 3 then 0 else 5
    | .unit w wp =>
      if x.serial w ≠ some b.serial then 5
      else if b.port = wp then 0
      else
        let mirror := (List.range 64).any fun k => k ≠ q && (match want k, r.seen near k with
          | .unit w2 wp2, some b2 => w2 = w && wp2 = b.port && b2.serial = b.serial && b2.port = wp
          | _, _ => false)
        if mirror then 2 else 3
    | .place k i =>
      if b.profile ≠ 0 ∨ SMap.find? boards k ≠ some b.boardId then 5
      else if b.boardSlot = i then 0
      else
        let mirror := (List.range 32).any fun k2 => k2 ≠ q && (match want k2, r.seen near k2 with
          | .place b2 i2, some x2 => b2 = k && i2 = b.boardSlot && x2.boardId = b.boardId && x2.boardSlot = i
          | _, _ => false)
        if mirror then 2 else 3

/-- A class disables a link; endpoint links that are SWAPPED or WRONG_PORT stay in use. -/
def disables (cls : Nat) (toEndpoint : Bool) : Bool :=
  if cls = 2 ∨ cls = 3 then !toEndpoint else 4 ≤ cls && cls ≤ 8

/-- The unit at a position, by code. -/
def unitOfCode (n : Nat) : UnitId :=
  if 81920 ≤ n then .part (n - 81920)
  else if 16384 ≤ n then .ocs (n - 16384)
  else
    let z := n / 1024
    let k := n % 1024
    if k < 512 then .endpoint z k else if k < 544 then .leaf z (k - 512) else .spine z (k - 544)

/-- What names the far unit of a link in a finding (R109): its POS here or in another pod, else SERIAL[31:0]. -/
def farCode (c : Chip) (p : Nat) (x : Placing) (b : IdBlock) : Nat :=
  match (x.posOf b.serial).map unitOfCode, c.peerWith p b with
  | some f, _ => posCode (c.unitPod f) f
  | none, some u => posCode u.pod u.unit
  | none, none => b.serial % 2 ^ 32

/-- One port of a positioned unit enters the link table, with its finding; the sending end of an endpoint or OCS unit enters with it, as measured
there. A port that SET_LINK or the link-health loop had disabled stays so. -/
def enterLink (c : Chip) (p : Nat) (r : Run) (x : Placing) (boards : SMap Nat) (old : SMap TopoLink) (u : UnitId) (q : Nat) : Chip :=
  let pod := c.podOf p
  let near := (x.serial u).getD 0
  let want := wantAt r.plan p pod u q
  let spineEnd : Bool := match u, want with
    | .spine _ _, .unit (.leaf z l) _ => (x.serial (.leaf z l)).isSome
    | _, _ => false
  let delayAt := fun (serial port : Nat) => SMap.get (0, 0) r.delays (serial * 1024 + port)
  let d := delayAt near q
  let off : Bool := match SMap.find? old (linkKey u q) with | some l => l.off | none => false
  let put := fun (c : Chip) (l : TopoLink) => c.modTopo p fun t => { t with links := SMap.insert t.links (linkKey l.near l.port) l }
  let tag := match want, u with
    | .circuit l, _ => l.tag
    | .unit (.ocs _) _, .spine _ s => (match r.plan.at pod s q with | some l => l.tag | none => 0)
    | _, _ => 0
  match r.seen near q with
  | some b =>
    let cls := c.classOf p r x boards u q b
    let far : Option UnitId := match want with
      | .circuit l => some (.ocs l.ocs)
      | .control => some (.part p)
      | _ => (x.posOf b.serial).map unitOfCode
    let fport := match want with | .circuit l => l.ocsPort | _ => b.port
    let toEp : Bool := b.profile == 0
    let tag := if b.cableTag = 0 then tag else b.cableTag
    let l : TopoLink := { near := u, port := q, far := far, farPort := fport, delay := d.1, d := d.2, cls := cls, off := off,
                          disabled := disables cls toEp || off, up := true, serial := b.serial, tag := tag,
                          farPos := if far.isSome then none else (c.peerWith p b).map fun y => posCode y.pod y.unit }
    let c := put c l
    let back := delayAt b.serial b.port
    let c := match far with
      | some f =>
        if b.profile == 0 || (b.profile == 2 && (match want with | .circuit _ => false | _ => true)) then
          put c { l with near := f, port := b.port, far := some u, farPort := q, delay := back.1, d := back.2, serial := near, off := false,
                         disabled := disables cls toEp, farPos := none }
        else c
      | none => c
    if cls = 0 ∨ spineEnd then c else c.finding p cls u q b.port (c.farCode p x b) b.cableTag b
  | none =>
    match want with
    | .empty => c
    | .circuit l =>
      put c { near := u, port := q, far := some (.ocs l.ocs), farPort := l.ocsPort, cls := 0, up := false, tag := l.tag, off := off, disabled := off }
    | w =>
      let far : Option UnitId := match w with
        | .unit f _ => some f
        | .place _ _ => (match u with | .leaf z l => some (.endpoint z (32 * l + q)) | _ => none)
        | .control => some (.part p)
        | _ => none
      let fport := match w with | .unit _ k => k | _ => 0
      let c := put c { near := u, port := q, far := far, farPort := fport, cls := 1, up := false, tag := tag, off := off, disabled := off }
      if spineEnd then c else c.finding p 1 u q fport (match far with | some f => posCode pod f | none => 0xFFFFFFFF) tag

/-- The partition's own end of the control attachment where spine 15 holds no position (R97, R108): MISSING where none answered, else the class of
the unit found there. -/
def enterControl (c : Chip) (p : Nat) (r : Run) (x : Placing) : Chip :=
  if (x.serial (.spine p 15)).isSome then c
  else
    let put := fun (c : Chip) (l : TopoLink) => c.modTopo p fun t => { t with links := SMap.insert t.links (linkKey (.part p) 0) l }
    match SMap.find? r.idents r.root with
    | none =>
      (put c { near := .part p, port := 0, far := some (.spine p 15), farPort := 47, cls := 1, up := false }).finding p 1 (.part p) 0 47
        (posCode (c.podOf p) (.spine p 15)) 0
    | some b =>
      let cls := if level b ≠ 2 then 7 else if c.elsewhere p b then 4 else 5
      (put c { near := .part p, port := 0, cls := cls, disabled := true, serial := b.serial, tag := b.cableTag }).finding p cls (.part p) 0 b.port
        (c.farCode p x b) b.cableTag b

/-- WRONG_UNIT findings whose far unit another zone has positioned since become WRONG_POD, once, in a new record (R109). -/
def upgradeFindings (c : Chip) (p : Nat) : Chip :=
  (c.part p).topo.findings.foldl (fun c f =>
    match c.peerWith p { serial := f.serial, fid := f.fid } with
    | some y =>
      if f.code ≠ 5 then c
      else
        let g := { f with code := 4, far := posCode y.pod y.unit, time := c.now }
        let edit := fun (e : Nat × TopoLink) => if e.1 = linkKey f.near f.nearPort ∧ e.2.cls = 5 then (e.1, { e.2 with cls := 4, farPos := some g.far }) else e
        (c.modTopo p fun t => { t with findings := mapIf (fun z => z = f) (fun _ => g) t.findings, links := t.links.map edit }).henPart p 0x3104
          [f.pos, f.nearPort % 65536 + (f.farPort % 65536) * 65536, g.far, f.tag]
    | none => c) c

/-! FIDs and board numbers (R111 to R113) -/

/-- The share that a unit's FID comes from: first FID and how many. -/
def shareOf (c : Chip) (p : Nat) (u : UnitId) : Nat × Nat :=
  let g := c.clusterIndex
  match u with
  | .endpoint _ _ => (0x6000 * g + 0x600 * p, 1536)
  | .ocs _ => (0xF0000 + 0x780 * g, 1920)
  | _ => (0xC0000 + 0x1800 * g + 0x180 * p, 384)

/-- The kind of a FID (R111): 0 endpoint, 1 switch, 2 OCS. -/
def fidKind : UnitId → Nat
  | .endpoint _ _ => 0
  | .ocs _ => 2
  | _ => 1

/-- A FID is neither given to a unit of any zone nor retired. -/
def fidFree (c : Chip) (f : Nat) : Bool :=
  allParts.all fun z => !((c.part z).topo.idMap.any fun e => e.2 = f) && !((c.part z).topo.retired.contains f)

/-- The FIDs that a zone may give to a unit: the share, and what it was lent beyond it (R111). -/
def fidRanges (c : Chip) (p : Nat) (u : UnitId) : List (Nat × Nat) :=
  sortBy (fun a b => a.1 ≤ b.1) (c.shareOf p u :: ((c.part p).topo.extra.filter fun e => e.1 = fidKind u).map Prod.snd)

/-- The lowest free FID of the share. -/
def lowestFree (c : Chip) (p : Nat) (u : UnitId) : Option Nat :=
  (c.fidRanges p u).findSome? fun s => ((List.range s.2).map fun i => s.1 + i).find? c.fidFree

/-- A share that has run out is reported to the manager once, with a request for more FIDs (R111). -/
def askFids (c : Chip) (p kind : Nat) : Chip :=
  if (c.part p).topo.asked.contains kind then c
  else (c.modTopo p fun t => { t with asked := t.asked ++ [kind] }).peerOut p c.mgrFid "FID_REQUEST" [kind]

/-- A partition reports a unit to which it gave a FID, with its position (R481). -/
def tellUnit (c : Chip) (p : Nat) (u : UnitId) (fid serial boardId : Nat) : Chip :=
  c.tellLead p [0, fid, 0, posCode (c.unitPod u) u, serial, boardId]

/-- A positioned unit enters the database, with its FID of the identity map or a new one; without one its links are disabled (R108, R112). -/
def giveFid (c : Chip) (p : Nat) (u : UnitId) (b : IdBlock) : Chip :=
  let t := (c.part p).topo
  let fid := match SMap.find? t.idMap b.serial with | some f => some f | none => c.lowestFree p u
  let x : TopoUnit := { unit := u, fid := fid.getD nullFid, state := if fid.isSome then 0 else 3, profile := b.profile, serial := b.serial,
                        maker := b.maker, boardId := b.boardId, boardPos := b.boardSlot % 8, seen := c.now
                        findings := min 255 (t.findings.filter fun f => f.near = u).length }
  let c := c.modTopo p fun y => { y with
    units := SMap.insert y.units u.code x,
    idMap := match fid with | some f => SMap.insert y.idMap b.serial f | none => y.idMap }
  match fid with
  | some f => c.tellUnit p u f b.serial b.boardId
  | none =>
    let out := fun (l : TopoLink) =>
      if l.near = u ∨ l.far = some u then
        { l with held := some (l.held.getD (l.cls, l.disabled)), disabled := true, cls := 8 }
      else l
    let c := c.modTopo p fun y => { y with links := y.links.map fun e => (e.1, out e.2) }
    (c.finding p 8 u 0 0 (b.serial % 2 ^ 32) 0 b).askFids p (fidKind u)

/-- A board number is retired as its board leaves the position, which the partition reports (R42, R43, R113). -/
def retireBoard (c : Chip) (p id n : Nat) : Chip :=
  (c.modTopo p fun t => { t with boardMap := SMap.erase t.boardMap id, retiredBoards := addOnce t.retiredBoards n,
                                 units := t.units.map fun e => if e.2.boardNo = some n then (e.1, { e.2 with boardNo := none }) else e }).tellLead p
    [1, n, 1]

/-- Board numbers: board `b` of the pod holds 64z + b unless that number is retired or another board's (R113). A board that has moved leaves its
number behind, retired. -/
def giveBoard (c : Chip) (p b : Nat) (id : Nat) : Chip :=
  let n := 64 * c.podOf p + b
  let c := match SMap.find? (c.part p).topo.boardMap id with
    | some k => if k = n then c else c.retireBoard p id k
    | none => c
  let t := (c.part p).topo
  if t.retiredBoards.contains n ∨ t.boardMap.any (fun e => e.2 = n && e.1 ≠ id) then
    c.finding p 8 (.part p) b 0 (id % 2 ^ 32) 0 {} (some (5 + c.podOf p * 16 + b * 8192))
  else (c.modTopo p fun t => { t with
    boardMap := SMap.insert t.boardMap id n,
    units := t.units.map fun e => if e.2.boardId = id && e.2.profile = 0 then (e.1, { e.2 with boardNo := some n }) else e }).tellLead p [1, n, 0, id]

/-- ASSIGN to a unit (R101). -/
def assignUnit (c : Chip) (p : Nat) (u : TopoUnit) : Chip :=
  match SMap.find? (c.part p).topo.ways u.unit.code with
  | none => c
  | some path =>
    c.direct p { serial := u.serial, path := path, op := 3,
                 payload := [u.fid, c.partFid p, nullFid, nullFid, nullFid, u.boardPos + 8 * (u.boardNo.getD 0)] }

/-- PORT_STATE to a unit (R102). -/
def sendPortState (c : Chip) (p : Nat) (u : UnitId) (port : Nat) (enable : Bool) (cmd : Option (QId × Nat)) : Chip :=
  match SMap.find? (c.part p).topo.ways u.code with
  | none => c.completeOpt cmd 0x0B
  | some path => c.direct p { path := path, op := 4, payload := [port % 65536 + 65536 * ofBool enable], cmd := cmd }

/-- A link comes up or goes down in the database, at both its ends; a spine-15 port of a management ring with it (R145). -/
def linkMoved (c : Chip) (p key : Nat) (up : Bool) : Chip :=
  let far := match SMap.find? (c.part p).topo.links key with
    | some l => (match l.far with | some f => some (linkKey f l.farPort) | none => none)
    | none => none
  c.modTopo p fun t => { t with
    links := t.links.map fun e => if e.1 = key || some e.1 = far then (e.1, { e.2 with up := up }) else e,
    run := t.run.map fun r => { r with downs := if up then r.downs.filter (· ≠ key) else addOnce r.downs key } }

/-- The way to each positioned unit: switches as the walk went, endpoints and OCS units from the unit that holds their port. -/
def waysOf (r : Run) (x : Placing) (links : SMap TopoLink) : SMap (List Nat) :=
  x.at_.foldl (fun m e =>
    match SMap.find? r.paths e.2 with
    | some path => SMap.insert m e.1 path
    | none =>
      let via := links.findSome? fun l =>
        if l.2.far == some (unitOfCode e.1) && l.2.up then
          match x.serial l.2.near with
          | some s => (SMap.find? r.paths s).map fun path => path ++ [l.2.port]
          | none => none
        else none
      match via with
      | some path => SMap.insert m e.1 path
      | none => m) []

/-! What becomes free, and boards of two zones (R107, R108, R111 to R113) -/

/-- A FID is free again: units that are NO_FID take theirs in position order, and links come back as they were unless the other end still has
none. -/
def serveNoFid (c : Chip) (p : Nat) : Chip :=
  ((c.part p).topo.units.filter fun e => e.2.state = 3).foldl (fun c e =>
    match c.lowestFree p e.2.unit with
    | none => c
    | some f =>
      let u := e.2.unit
      let x := { e.2 with fid := f, state := 0 }
      let c := c.modTopo p fun t => { t with units := SMap.insert t.units e.1 x, idMap := SMap.insert t.idMap x.serial f }
      let out := fun (v : UnitId) => match c.topoUnit p v with | some y => y.state == 3 | none => false
      let mine := fun (l : TopoLink) => (l.near = u || l.far == some u) && l.held.isSome && !out l.near && !(match l.far with | some v => out v | none => false)
      let freed := ((c.part p).topo.links.map Prod.snd).filter mine
      let back := fun (l : TopoLink) => match l.held with
        | some h => if mine l then { l with cls := h.1, disabled := h.2, held := none } else l
        | none => l
      let c := c.modTopo p fun t => { t with links := t.links.map fun e => (e.1, back e.2) }
      let c := freed.foldl (fun c l => if (back l).disabled ∨ l.near.profile ≠ .switch then c else c.sendPortState p l.near l.port true none) c
      ((c.assignUnit p x).tellUnit p u f x.serial x.boardId).kickAuto p) c

/-- A board number is free again: the board at that position takes it, and its endpoints hear of it (R113). -/
def serveBoard (c : Chip) (p n : Nat) : Chip :=
  match SMap.find? (c.part p).topo.seats (n % 64) with
  | some id =>
    if n / 64 ≠ c.podOf p ∨ (SMap.find? (c.part p).topo.boardMap id).isSome then c
    else
      let c := c.giveBoard p (n % 64) id
      (((c.part p).topo.units.map Prod.snd).filter fun u => u.boardNo = some n && u.fid ≠ nullFid).foldl (fun c u => c.assignUnit p u) (c.kickAuto p)
  | none => c

/-- A zone gives a board up that another zone positions too: its endpoints there are WRONG_POD, without position, FID and board number, and their
links are disabled (R107, R108). -/
def loseBoard (c : Chip) (p id : Nat) : Chip :=
  let us := ((c.part p).topo.units.map Prod.snd).filter fun u => u.boardId = id && u.profile = 0 && u.state = 0
  let c := us.foldl (fun c u =>
    let c := c.assignUnit p { u with fid := nullFid, boardNo := none }
    let links := ((c.part p).topo.links.map Prod.snd).filter fun l => l.far == some u.unit
    let c := c.retireFid p u.fid
    let c := c.modTopo p fun t => { t with
      units := SMap.erase t.units u.unit.code, idMap := SMap.erase t.idMap u.serial,
      strays := t.strays ++ [{ u with state := 2, fid := nullFid, boardNo := none }],
      links := (t.links.filter fun l => l.2.near ≠ u.unit).map fun l =>
        if l.2.far == some u.unit then (l.1, { l.2 with cls := 4, disabled := true, far := none }) else l }
    links.foldl (fun c l =>
      (c.sendPortState p l.near l.port false none).finding p 4 l.near l.port l.farPort (u.serial % 2 ^ 32) l.tag { serial := u.serial }) c) c
  let c := match SMap.find? (c.part p).topo.boardMap id with | some n => c.retireBoard p id n | none => c
  if us.isEmpty then c else c.kickAuto p

/-- The boards of a zone against the domain view (R107): one that another zone positions goes to the zone with more of its endpoints, at a tie to the
lower pod. -/
def mergeBoards (c : Chip) (p : Nat) : Chip :=
  (c.part p).topo.seats.foldl (fun c e =>
    let t := (c.part p).topo
    let own := ((t.units.map Prod.snd).filter fun u => u.boardId = e.2 && u.profile = 0 && u.state = 0).length
    let others := t.peers.filter fun u => u.boardId == some e.2 && !u.retired && u.pod ≠ c.podOf p
    let n := fun (g : Nat) => (others.filter fun u => u.pod = g).length
    if others.any fun u => own < n u.pod || (own = n u.pod && u.pod < c.podOf p) then c.loseBoard p e.2 else c) c

/-- Units that a run knows without a position, and units that are absent (R112, R114): the latter are retired. -/
def absentees (c : Chip) (p : Nat) (r : Run) (x : Placing) (old : TopoDb) : Chip :=
  let gone := old.idMap.filter fun e => (SMap.find? r.idents e.1).isNone
  let c := gone.foldl (fun c e =>
    let u := (old.units.map Prod.snd ++ old.strays).find? fun u => u.serial = e.1
    (c.modTopo p fun t => { t with
      idMap := SMap.erase t.idMap e.1, retired := addOnce t.retired e.2,
      units := match u with
        | some u => if (x.serial u.unit).isNone && u.state ≠ 2 then SMap.insert t.units u.unit.code { u with state := 1 } else t.units
        | none => t.units
      strays := match u with
        | some u => if (x.serial u.unit).isSome || u.state = 2 then t.strays ++ [{ u with state := 1 }] else t.strays
        | none => t.strays }).tellLead p [0, e.2, 1]) c
  let loose := r.idents.filter fun e => e.2.profile ≠ 3 && !x.taken.contains e.1
  c.modTopo p fun t => { t with strays := t.strays ++ loose.map fun e =>
    { unit := .part p, fid := SMap.get nullFid t.idMap e.1, state := 2, profile := e.2.profile, serial := e.1, maker := e.2.maker,
      boardId := e.2.boardId, boardPos := e.2.boardSlot % 8, seen := c.now } }

/-- Boards of the identity map of which no endpoint was found: absent, their numbers retired (R112, R113). -/
def absentBoards (c : Chip) (p : Nat) (r : Run) : Chip :=
  ((c.part p).topo.boardMap.filter fun e => !(r.idents.any fun i => i.2.profile = 0 && i.2.boardId = e.1)).foldl (fun c e => c.retireBoard p e.1 e.2) c

/-- tc: positions, findings, FIDs, ASSIGN and PORT_STATE; then routes and the static bank (R106 to R113). Port-down events that came before tc are
handled now. -/
def compareRun (c : Chip) (p : Nat) (r : Run) : Chip :=
  let pod := c.podOf p
  let x := c.positions r p pod
  let boards := (List.range 64).foldl (fun m b => match boardAt r x p pod b with
    | some id => SMap.insert m b id
    | none => m) ([] : SMap Nat)
  let old := (c.part p).topo
  let c := c.modTopo p fun t => { t with run := none, tc := some c.now, links := [], findings := [], units := [], strays := [], seats := boards }
  let switches := ((List.range 16).map fun l => UnitId.leaf p l) ++ (List.range 16).map fun s => UnitId.spine p s
  let c := switches.foldl (fun c u =>
    if (x.serial u).isSome then (List.range 64).foldl (fun c q => c.enterLink p r x boards old.links u q) c else c) (c.enterControl p r x)
  let block := fun (s : Nat) => match SMap.find? r.idents s with | some b => b | none => { serial := s }
  let c := c.absentees p r x old
  let c := x.at_.foldl (fun c e => c.giveFid p (unitOfCode e.1) (block e.2)) c
  let c := boards.foldl (fun c e => c.giveBoard p e.1 e.2) (c.absentBoards p r)
  let c := c.modTopo p fun t => { t with ways := waysOf r x t.links }
  let c := c.mergeBoards p
  let c := (c.zoneAgents p).foldl (fun c u => c.assignUnit p u) c
  let c : Chip := ((c.part p).topo.links.map Prod.snd).foldl (fun (c : Chip) (l : TopoLink) =>
    let was : Bool := match SMap.find? old.links (linkKey l.near l.port) with | some (o : TopoLink) => o.disabled | none => false
    if l.near.profile ≠ .switch then c
    else if l.disabled then c.sendPortState p l.near l.port false none
    else if was then c.sendPortState p l.near l.port true none
    else c) c
  let c := r.downs.foldl (fun c k => c.linkMoved p k false) c
  let lost := (old.idMap.filter fun e => (SMap.find? r.idents e.1).isNone).map Prod.snd |>.filter fun f => (c.jobWith p f).isSome
  lost.foldl (fun c f =>
    match c.jobWith p f with
    | some j =>
      if c.fenceHeld p j.job f then c.modPart p fun s => { s with
        fences := mapIf (fun x => x.job = j.job && x.fid = f) (fun x => { x with retire := true }) s.fences }
      else
        let c := (c.count .FAIL_DETECTIONS p).henJob p j.job 0x3701 [f, 3]
        if c.reg .FAIL_FENCE_AUTO p = 1 then
          c.fenceRequest p { job := j.job, slice := j.slice, fid := f, reason := 3, detect := c.now }
        else c
    | none => c) c

/-- Every implied and planned link of the zone has been identified. -/
def allSeen (c : Chip) (p : Nat) (r : Run) : Bool :=
  let x := c.positions r p (c.podOf p)
  let switches := ((List.range 16).map fun l => UnitId.leaf p l) ++ (List.range 16).map fun s => UnitId.spine p s
  switches.all fun u => match x.serial u with
    | none => false
    | some s => (List.range 64).all fun q => match wantAt r.plan p (c.podOf p) u q with
      | .empty => true
      | .circuit _ => true
      | _ => (r.seen s q).isSome

/-- tc (R106): all links identified and the walk done, or DISCOVERY_WAIT after t0. -/
def discoveryCompare (c : Chip) (p : Nat) : Chip :=
  match (c.part p).topo.run with
  | none => c
  | some r =>
    if r.t0 + r.wait * 1000000 ≤ c.now ∨ (4 ≤ r.stage ∧ c.allSeen p r) then
      let c := c.compareRun p r
      let c := allParts.foldl (fun c q => match (c.part q).discCmd with
        | some (i, tag, zs) =>
          let zs := zs.filter (· ≠ p)
          if zs.isEmpty then (c.modPart q fun s => { s with discCmd := none }).complete i tag 0x00
          else c.modPart q fun s => { s with discCmd := some (i, tag, zs) }
        | none => c) c
      let c := if (c.part p).restarting && !(c.part p).queried then (c.askZone p).decide_ p else c
      c.holdHops.openTxn p { zones := [p], full := true, afterRun := true }
    else c

/-! Responses and time limits (R100, R103) -/

/-- DIRECTED_RESPONSE at the origin. -/
def directedResponse (c : Chip) (p : Nat) (b : DirBlock) : Chip :=
  match (c.part p).topo.exchanges.find? fun x => x.tag = b.tag with
  | some x => (c.modTopo p fun t => { t with exchanges := t.exchanges.filter fun y => y.tag ≠ b.tag }).completeOpt x.cmd b.status
  | none =>
    match (c.part p).topo.run with
    | none => c
    | some r =>
      match r.flight.find? fun x => x.tag = b.tag with
      | none => c
      | some x =>
        let r := learnOf { r with flight := r.flight.filter fun y => y.tag ≠ b.tag } x b
        ((c.modRun p fun _ => r).pump p 64).walkOn p 5

/-- How long the origin waits for a response. -/
def exchangeWait (x : Exchange) : Nat := 4000 * (x.path.length + 1) + 20000

/-- An unanswered block is sent again up to 3 times; then the unit is not found. -/
def directedTimeout (c : Chip) (p tag : Nat) : Chip :=
  let again := fun (c : Chip) (x : Exchange) => c.emit (.directed (.part p) 0 (c.blockOf p x))
  match (c.part p).topo.exchanges.find? fun x => x.tag = tag with
  | some x =>
    if c.now < x.sentAt + exchangeWait x then c
    else if x.tries < 3 then
      let y := { x with tries := x.tries + 1, sentAt := c.now }
      again (c.modTopo p fun t => { t with exchanges := mapIf (fun z => z.tag = tag) (fun _ => y) t.exchanges }) y
    else (c.modTopo p fun t => { t with exchanges := t.exchanges.filter fun y => y.tag ≠ tag }).completeOpt x.cmd 0x01
  | none =>
    match (c.part p).topo.run with
    | none => c
    | some r =>
      match r.flight.find? fun x => x.tag = tag with
      | none => c
      | some x =>
        if c.now < x.sentAt + exchangeWait x then c
        else if x.tries < 3 then
          let y := { x with tries := x.tries + 1, sentAt := c.now }
          again (c.modRun p fun r => { r with flight := mapIf (fun z => z.tag = tag) (fun _ => y) r.flight }) y
        else ((c.modRun p fun r => { r with flight := r.flight.filter fun y => y.tag ≠ tag }).pump p 64).walkOn p 5

/-! Late links (R106) -/

/-- The block by which a link of the database was identified, as far as the database keeps it. -/
def blockAt (t : TopoDb) (l : TopoLink) : IdBlock :=
  match (t.units.map Prod.snd).find? fun u => u.serial = l.serial with
  | some u => { serial := l.serial, port := l.farPort, profile := u.profile, fid := u.fid, boardId := u.boardId, boardSlot := u.boardPos }
  | none => { serial := l.serial, port := l.farPort }

/-- A port that came up after tc: the unit behind it is identified and the link measured (R106). -/
def askLate (c : Chip) (p : Nat) (u : UnitId) (q : Nat) : Chip :=
  if (c.part p).topo.tc.isNone then c
  else
    match SMap.find? (c.part p).topo.ways u.code with
    | none => c
    | some path => (c.direct p { path := path, op := 1, payload := [q] }).direct p { path := path, op := 2, payload := [q] }

/-- A link that came up after tc has been identified and measured: it is classed, a new unit is positioned and gets its FID, a known one whose agent
was reset its FID again (R112), and the result reaches the tables only through a route commit. -/
def lateLink (c : Chip) (p : Nat) (u : UnitId) (q : Nat) (b : IdBlock) (delay : Nat) : Chip :=
  if (c.part p).topo.tc.isNone then c
  else
    match c.topoUnit p u with
    | none => c
    | some near =>
      let t := (c.part p).topo
      let at0 := t.units.foldl (fun m e => if e.2.state = 0 ∨ e.2.state = 3 then SMap.insert m e.1 e.2.serial else m) ([] : SMap Nat)
      let r : Run := { t0 := c.now, wait := 0, plan := c.plan, stage := 4,
                       obs := SMap.insert (t.links.foldl (fun m e => if e.2.serial = 0 then m else
                         match List.find? (fun (x : Nat × TopoUnit) => x.2.unit = e.2.near) t.units with
                         | some x => SMap.insert m (x.2.serial * 1024 + e.2.port) (blockAt t e.2)
                         | none => m) ([] : SMap IdBlock)) (near.serial * 1024 + q) b,
                       delays := [(near.serial * 1024 + q, (delay, (delay + 164 + 127) / 128 - 1))] }
      let x : Placing := { at_ := at0, taken := at0.map Prod.snd }
      let want := wantAt c.plan p (c.podOf p) u q
      let seat : Option UnitId := match want, u with
        | .unit w _, _ => if b.profile = w.profile.code then some w else none
        | .place _ _, .leaf z l => if b.profile = 0 then some (.endpoint z (32 * l + q)) else none
        | _, _ => none
      let new := match seat with
        | some w => if x.taken.contains b.serial ∨ !c.placeable p b.profile b ∨ (x.serial w).isSome then none else some w
        | none => none
      let x := match new with | some w => x.put w (some b.serial) | none => x
      let boards := match new, want with
        | some _, .place k _ => if (SMap.find? t.seats k).isNone then SMap.insert t.seats k b.boardId else t.seats
        | _, _ => t.seats
      let c := (c.modTopo p fun t => { t with seats := boards }).enterLink p r x boards t.links u q
      let c := match new with
        | some w =>
          let c := (c.modTopo p fun t => { t with strays := t.strays.filter fun y => y.serial ≠ b.serial }).giveFid p w b
          let c := match want with | .place k _ => (if SMap.find? boards k = some b.boardId then c.giveBoard p k b.boardId else c) | _ => c
          let way := (SMap.get [] t.ways u.code) ++ [q]
          let c := c.modTopo p fun t => { t with ways := if (SMap.find? t.ways w.code).isSome then t.ways else SMap.insert t.ways w.code way }
          (match c.topoUnit p w with | some y => if y.state = 0 then c.assignUnit p y else c | none => c)
        | none =>
          match (t.units.map Prod.snd).find? fun (y : TopoUnit) => y.serial = b.serial && y.state = 0 with
          | some y => if b.fid = nullFid then c.assignUnit p y else c
          | none => c
      let c := match SMap.find? (c.part p).topo.links (linkKey u q) with
        | some l => if l.disabled then c.sendPortState p u q false none else c
        | none => c
      c.holdHops.kickAuto p

/-! Circuit verification (R110) -/

/-- The number of circuit ports of an OCS unit (R68). -/
def circuitCount (n : Nat) : Nat := 16 + Config.circuitPortsOf (UnitId.ocs n).code % 497

/-- The circuit port that a test map joins a port to (R110); none where the port is left over. -/
def mateOf (n map q : Nat) : Option Nat :=
  let ports := circuitCount n
  let k := if map = 1 then (if q % 2 = 1 then q + 1 else q - 1)
    else if q % 2 = 0 then (if q = ports then 1 else q + 1) else if q = 1 then ports else q - 1
  if k ≤ ports ∧ k ≠ q then some k else none

/-- The class that verification gives a circuit port reaches the link of the spine that the plan gives for it, with its finding. -/
def circuitClass (c : Chip) (l : PlanLink) (cls : Nat) (saw : Option (Nat × Nat × Nat)) : Chip :=
  match c.partOfPod l.pod with
  | none => c
  | some z =>
    let u := UnitId.spine z l.spine
    let edit := fun (e : Nat × TopoLink) =>
      if e.1 = linkKey u l.port then
        (e.1, { e.2 with cls := cls, disabled := disables cls false || e.2.disabled, up := decide (cls = 0) })
      else e
    let c := c.modTopo z fun t => { t with links := t.links.map edit }
    if cls = 0 then c
    else
      let far := match saw with | some a => 2 + a.1 * 16 + a.2.1 * 8192 | none => posCode l.pod (.ocs l.ocs)
      let fp := match saw with | some a => a.2.2 | none => l.ocsPort
      c.finding z cls u l.port fp far l.tag

/-- The observations through an OCS unit's ports under the two test maps are compared with the plan, once both maps have been held for 2 ms. A pair
whose other port is not in this domain's plan is left to the manager's lead, which has the reports of both domains. -/
def circuitVerify (c : Chip) (n : Nat) (obs : List CircuitObs) : Chip :=
  match c.verify.find? fun e => e.1 = n with
  | none => c
  | some e =>
    if c.now < e.2 + 4000000 then c
    else
      let c := { c with verify := c.verify.filter fun e => e.1 ≠ n }
      let lines := c.plan.links.filter fun l => l.ocs = n && l.ocsPort ≠ 0
      let line := fun (q : Nat) => lines.find? fun x => x.ocsPort = q
      let saw := fun (q m : Nat) => (obs.find? fun o => o.ocsPort = q && o.map = m).bind fun o => o.seen
      lines.foldl (fun c l =>
        let seen := [1, 2].map (saw l.ocsPort)
        let good := [1, 2].any fun m =>
          match (mateOf n m l.ocsPort).bind line, saw l.ocsPort m with
          | some x, some s => s = (x.pod, x.spine, x.port)
          | _, _ => false
        let across := [1, 2].any fun m => match mateOf n m l.ocsPort with | some q => (line q).isNone | none => false
        if good then c.circuitClass l 0 none
        else
          match seen with
          | [none, none] => c.circuitClass l 1 none
          | _ =>
            if across then
              [1, 2].foldl (fun c m =>
                let r : CircuitReport := { ocs := n, ocsPort := l.ocsPort, map := m, near := (l.pod, l.spine, l.port), seen := saw l.ocsPort m }
                let c := if c.isManager then { c with circuitSeen := c.circuitSeen.filter (fun x => !(x.ocs = n && x.ocsPort = l.ocsPort && x.map = m)) ++ [r] } else c
                c.peerOut c.leadPart c.mgrFid "CIRCUIT_REPORT" [n, l.ocsPort, m]) c
            else
              match seen with
              | [some a, some b] =>
                if a.1 = b.1 ∧ a.2.1 = b.2.1 then c.circuitClass l (if a.1 = l.pod then 5 else 4) (some a) else c.circuitClass l 0 none
              | _ => c.circuitClass l 0 none) c

/-- The manager's lead resolves pairs of two domains from their reports (R110): a port is good where in either map it and its mate saw each other as
planned; two observations of one foreign spine class it; what cannot be told stays as it was. -/
def resolveCircuits (c : Chip) (p : Nat) (l : List CircuitReport) : Chip :=
  let same := fun (a b : CircuitReport) => a.ocs = b.ocs && a.ocsPort = b.ocsPort && a.map = b.map
  let all := c.circuitSeen.filter (fun x => !(l.any fun y => same x y)) ++ l
  let c := { c with circuitSeen := all }
  let ports := (l.map fun r => (r.ocs, r.ocsPort)).eraseDups
  let tell := fun (c : Chip) (n q cls : Nat) (r : CircuitReport) =>
    let c := c.peerOut p (0xFF000 + 16 * (r.near.1 / 16)) "CIRCUIT_VERDICT" [n, q, cls]
    match c.plan.links.find? fun x => x.ocs = n && x.ocsPort = q with
    | some x => if c.podOf 0 / 16 = x.pod / 16 then c.circuitClass x cls r.seen else c
    | none => c
  ports.foldl (fun c e =>
    let mine := all.filter fun r => r.ocs = e.1 && r.ocsPort = e.2
    let mate := fun (r : CircuitReport) => (mateOf r.ocs r.map r.ocsPort).bind fun q => all.find? fun y => y.ocs = r.ocs && y.ocsPort = q && y.map = r.map
    let good := mine.any fun r => match mate r with | some y => r.seen == some y.near && y.seen == some r.near | none => false
    match mine, mine.filterMap fun r => r.seen with
    | r :: _, seen =>
      if good then
        mine.foldl (fun c r => match mate r with
          | some y => if r.seen = some y.near ∧ y.seen = some r.near then tell (tell c e.1 e.2 0 r) y.ocs y.ocsPort 0 y else c
          | none => c) c
      else if mine.any fun r => (mate r).isNone then c
      else
        (match seen with
        | [a, b] => if a.1 = b.1 ∧ a.2.1 = b.2.1 then tell c e.1 e.2 (if a.1 = r.near.1 then 5 else 4) r else c
        | _ => c)
    | [], _ => c) c

/-! Peer reports (R42, R107, R110, R111, R115, R120, R145, R481) -/

/-- The switch tables of the zone as they would be computed now. -/
def tablesNow (c : Chip) (p : Nat) : List (SMap Nat) :=
  ((c.zoneAgents p).filter fun u => u.profile = 1).map fun u => c.genBank p (c.liveLinks p) u

/-- A worker takes the grid extents of the manager; other extents of its own blob are logged (R143). -/
def takeExtents (c : Chip) (p : Nat) (g : Nat × Nat × Nat) : Chip :=
  if c.isManager || c.grid == g then c
  else
    let c := if c.blob.grid = g then c else c.henAny p 0x3300
    { c with grid := g }

/-- What returned to the pool is free again in a zone. -/
def takeRecycled (c : Chip) (p : Nat) (l : List (Nat × Nat)) : Chip :=
  l.foldl (fun c e =>
    if e.1 = 0 then (c.modTopo p fun t => { t with retired := t.retired.filter (· ≠ e.2 % 2 ^ 20) }).serveNoFid p
    else (c.modTopo p fun t => { t with retiredBoards := t.retiredBoards.filter (· ≠ e.2 % 2 ^ 15) }).serveBoard p (e.2 % 2 ^ 15)) c

/-- RECYCLE at the manager: the value returns to the pool, and every partition of the cluster hears of it (R42). -/
def recycleAll (c : Chip) (p kind v : Nat) : Chip :=
  let c := (allParts.filter fun q => q ≠ p).foldl (fun c q => c.peerOut p (c.partFid q) "RECYCLED" [kind, v]) c
  let c := (c.clusters.filter fun g => g ≠ c.clusterIndex).foldl (fun c g => c.peerOut p (0xFF000 + 16 * g) "RECYCLED" [kind, v]) c
  allParts.foldl (fun c z => c.takeRecycled z [(kind, v)]) c

/-- The manager lends FIDs of the lease of a G9 that is not heard, one zone's share at a time; where there is none, none (R111). -/
def lendFids (c : Chip) (p src kind : Nat) : Chip :=
  let i := c.leases.length
  let g := Config.leaseFrom src i % 32
  let z := i % 16
  let e : Nat × Nat := if kind = 0 then (0x6000 * g + 0x600 * z, 1536) else if kind = 1 then (0xC0000 + 0x1800 * g + 0x180 * z, 384)
    else (0xF0000 + 0x780 * g + 120 * z, 120)
  if g = c.clusterIndex ∨ g ∈ c.clusters ∨ (c.leases.any fun x => x.1 = kind && x.2.1 = e.1) then c
  else
    let c := { c with leases := c.leases ++ [(kind, e.1, e.2, src)] }
    match c.partOfFid src with
    | some q => ((c.modTopo q fun t => { t with extra := t.extra ++ [(kind, e.1, e.2)], asked := t.asked.erase kind }).serveNoFid q).peerOut p src
        "FID_LEASE" [kind, e.1, e.2]
    | none => c.peerOut p src "FID_LEASE" [kind, e.1, e.2]

/-- What a zone hears of the pool: FIDs lent, values recycled, answers to the commands that it forwarded (R111, R115). -/
def poolNews (c : Chip) (p : Nat) (n : PeerNews) : Chip :=
  let c := if n.grants.isEmpty then c
    else (c.modTopo p fun t => { t with extra := t.extra ++ n.grants, asked := t.asked.filter fun k => !(n.grants.any fun e => e.1 = k) }).serveNoFid p
  let c := c.takeRecycled p n.recycled
  n.answers.foldl (fun c e => match (c.part p).forwards.find? fun f => f.2 = e.1 with
    | some f => (c.modPart p fun s => { s with forwards := s.forwards.filter (· ≠ f) }).complete f.1 f.2 e.2
    | none => c) c

/-- What the manager's lead hears from workers: requests for FIDs, forwarded RECYCLEs, circuit reports. -/
def managerNews (c : Chip) (p src : Nat) (n : PeerNews) : Chip :=
  if !c.isManager || p ≠ c.leadPart then c
  else
    let c := n.wants.foldl (fun c k => c.lendFids p src k) c
    let c := n.recycles.foldl (fun c e => (c.recycleAll p e.2.1 e.2.2).peerOut p src "ANSWER" [e.1, 0]) c
    if n.circuits.isEmpty then c else c.resolveCircuits p n.circuits

/-- The standby manager takes the manager's tables as they are (R427). -/
def mirrorNews (c : Chip) (p src : Nat) (n : PeerNews) : Chip :=
  match n.mirror with
  | some m => if c.reg .DEVICE_ROLE = 2 ∧ p = c.leadPart ∧ src / 16 = c.mgrFid / 16 then { c with leases := m.leases, sliceNums := m.slices } else c
  | none => c

/-- A report as it is passed on: its units, pairs and rings. -/
def newsArgs (n : PeerNews) : List (List Nat) :=
  (n.units.map fun u => [0, u.fid, ofBool u.retired, posCode u.pod u.unit]) ++ (n.links.map fun e => [2, e.1, e.2.1, ofBool e.2.2])
    ++ n.mgmt.map fun e => [3, e.1, e.2.1, ofBool e.2.2]

/-- A partition takes a peer report into its view; a report that changes an entry starts the delay of R139. The lead passes it on (R481), and the
lead of a slice passes on what becomes of pairs to the slice's other partitions (R120). -/
def peerReport (c : Chip) (p src : Nat) (n : PeerNews) : Chip :=
  let before : List (SMap Nat) := c.tablesNow p
  let c : Chip := match n.g9 with
    | some (g, here) => { c with clusters := if here then addOnce c.clusters g else c.clusters.filter (· ≠ g) }
    | none => c
  let toggle := fun (l : List (Nat × Nat)) (e : Nat × Nat × Bool) =>
    if e.2.2 then l.filter (· ≠ (e.1, e.2.1)) else addOnce l (e.1, e.2.1)
  let c : Chip := c.modTopo p fun t => { t with
    peers := n.units.foldl (fun l u => l.filter (fun x => x.fid ≠ u.fid) ++ [u]) t.peers,
    peerDown := n.links.foldl toggle t.peerDown,
    mgmtDown := n.mgmt.foldl toggle t.mgmtDown,
    peerD := n.delays.foldl (fun m e => SMap.insert m e.1 e.2) t.peerD }
  let c : Chip := if n.units.isEmpty then c else (c.upgradeFindings p).mergeBoards p
  let c : Chip := match n.extents with | some g => c.takeExtents p g | none => c
  let c : Chip := if p = c.leadPart then n.verdicts.foldl (fun c e =>
      match c.plan.links.find? fun x => x.ocs = e.1 && x.ocsPort = e.2.1 with
      | some x => c.circuitClass x e.2.2 none
      | none => c) c
    else c
  let c : Chip := ((c.poolNews p n).managerNews p src n).mirrorNews p src n
  let c : Chip := if p = c.leadPart then (newsArgs n).foldl (fun c a => c.passOn p src a) c else c
  let c : Chip := if n.links.isEmpty then c
    else (c.slices.filter fun s => s.lead = c.partFid p).foldl (fun c s =>
      ((c.othersOf p s).filter fun f => f ≠ src).foldl (fun c f => n.links.foldl (fun c e => c.peerOut p f "PEER_REPORT" [2, e.1, e.2.1, ofBool e.2.2]) c) c) c
  let after : List (SMap Nat) := c.tablesNow p
  let c : Chip := if n.g9.isSome then c.holdHops else c
  if after = before then c else c.kickAuto p

/-! Commands (R115) -/

/-- The pods' bytes of a plan (R104): none where it is rejected (R105). -/
def planOf (b : List Nat) : Option Plan :=
  let g := fun off n => ofBytes ((b.drop off).take n)
  let n := g 12 4
  let body := b.take (32 + 32 * n)
  let crc := crc32c ((body.take 16) ++ [0, 0, 0, 0] ++ body.drop 20)
  if g 0 4 ≠ 0x4E414C50 ∨ g 4 2 ≠ 1 ∨ 16384 < n ∨ body.length ≠ 32 + 32 * n ∨ g 16 4 ≠ crc then none
  else
    let recs := (List.range n).map fun i => (b.drop (32 + 32 * i)).take 32
    let at_ := fun (r : List Nat) off k => ofBytes ((r.drop off).take k)
    some {
      held := true, id := g 8 4, wait := if g 6 2 = 0 then 2000 else clampTo 100 10000 (g 6 2),
      links := recs.filterMap fun r => if at_ r 0 1 ≠ 1 then none else
        let pa := at_ r 4 4
        let pb := at_ r 12 4
        some { pod := bits pa 12 4, spine := bits pa 28 13, port := at_ r 8 2, ocs := bits pb 28 13, ocsPort := at_ r 10 2,
               tag := at_ r 16 4 },
      boards := recs.filterMap fun r => if at_ r 0 1 ≠ 2 then none else
        some { pod := at_ r 2 2, board := at_ r 1 1,
               places := (List.range 8).map fun i =>
                 let w := at_ r (4 + 2 * i) 2
                 if w = 0xFFFF then none else some (bits w 3 0, bits w 8 4) } }

/-- DISCOVER. With CIRCUIT set, circuit verification follows once routes are installed (R110). -/
def discover (c : Chip) (p tag : Nat) (d : Desc) : Chip :=
  let w := d.at 0x10 4
  let owned := allParts.filter fun z => c.ownerPort z = c.ownerPort p && !c.bypassed z
  let zones := if bits w 15 0 = 0 then owned else owned.filter fun z => bit w z
  let c := if bit w 16 then { c with verifyDue := true } else c
  if zones.isEmpty then (c.complete (.route p) tag 0x00).verifyNow
  else zones.foldl (fun c z => c.startRun z) (c.modPart p fun s => { s with discCmd := some (.route p, tag, zones) })

/-- LOAD_PLAN. -/
def loadPlan (c : Chip) (p tag : Nat) (d : Desc) : Chip :=
  match planOf (c.hostBytes (c.ownerPort p) (d.at 0x10 8) (d.at 0x18 4)) with
  | none => c.complete (.route p) tag 0x08
  | some pl =>
    let c := { c with plan := pl, planMram := if bit (d.at 0x1C 4) 0 then pl else c.planMram }
    c.complete (.route p) tag 0x00

/-- A unit entry of the topology database (R114). The POS of a unit without a position is open. -/
def unitBytes (c : Chip) (u : TopoUnit) : List Nat :=
  let pos := if u.state = 2 then trunc 32 (Config.strayPos u.serial) else posCode (c.unitPod u.unit) u.unit
  bytesOf 4 pos
    ++ bytesOf 4 (u.fid % 2 ^ 20 + (u.state % 8) * 2 ^ 20 + (u.profile % 4) * 2 ^ 24) ++ bytesOf 8 u.serial ++ bytesOf 2 u.maker
    ++ bytesOf 2 (match u.boardNo with | some n => n % 2 ^ 15 | none => 2 ^ 15) ++ [u.boardPos % 8, u.findings] ++ [0, 0]
    ++ bytesOf 8 u.seen
/-- A board's entry: its POS, its number, its BOARD_ID, and when an endpoint of it was last identified. -/
def boardBytes (c : Chip) (p : Nat) (e : Nat × Nat) : List Nat :=
  let seen := (((c.part p).topo.units.map Prod.snd).filter fun u => u.boardId = e.1 && u.profile = 0).foldl (fun t u => max t u.seen) 0
  let n := ((c.part p).topo.findings.filter fun f => f.pos = 5 + c.podOf p * 16 + (e.2 % 64) * 8192).length
  bytesOf 4 (5 + c.podOf p * 16 + (e.2 % 64) * 8192) ++ bytesOf 4 nullFid ++ bytesOf 8 e.1 ++ [0, 0]
    ++ bytesOf 2 (e.2 % 2 ^ 15) ++ [0, min 255 n, 0, 0] ++ bytesOf 8 seen
/-- A link entry. -/
def linkBytes (c : Chip) (l : TopoLink) : List Nat :=
  bytesOf 4 (posCode (c.unitPod l.near) l.near) ++ bytesOf 2 l.port ++ bytesOf 2 l.farPort
    ++ bytesOf 4 (match l.far with | some f => posCode (c.unitPod f) f | none => l.farPos.getD 0xFFFFFFFF) ++ bytesOf 2 l.delay
    ++ [l.d % 256, l.cls % 16 + 128 * ofBool l.disabled]
/-- A finding's entry: the four parameters of R109. -/
def findingBytes (f : Finding) : List Nat :=
  bytesOf 4 f.pos ++ bytesOf 2 f.nearPort ++ bytesOf 2 f.farPort ++ bytesOf 4 f.far ++ bytesOf 4 f.tag

/-- The entries of a section of a zone's database: units and boards, links, findings (R114). -/
def topoEntries (c : Chip) (p sec : Nat) : List (List Nat) :=
  let t := (c.part p).topo
  match sec with
  | 0 => (t.units.map fun e => c.unitBytes e.2) ++ t.strays.map c.unitBytes ++ t.boardMap.map fun e => c.boardBytes p e
  | 1 => t.links.map fun e => c.linkBytes e.2
  | _ => t.findings.map findingBytes

/-- The leases: of a partition its shares, of the manager's lead also what each G9 holds (R111). -/
def leaseEntries (c : Chip) (p : Nat) : List (List Nat) :=
  let own := [UnitId.endpoint p 0, .leaf p 0, .ocs 0].map fun u => c.shareOf p u
  let lent := (c.part p).topo.extra.map Prod.snd
  let all := if c.isManager ∧ p = c.leadPart then
      ((List.range 32).flatMap fun g => [(0x6000 * g, 0x6000), (0xC0000 + 0x1800 * g, 0x1800), (0xF0000 + 0x780 * g, 0x780)])
        ++ c.leases.map fun e => (e.2.1, e.2.2.1)
    else []
  (own ++ lent ++ all).map fun s => bytesOf 4 s.1 ++ bytesOf 4 s.2

/-- READ_TOPOLOGY: of the zone, and at the lead partition of every zone of the domain, its own first (R114). -/
def readTopology (c : Chip) (p tag : Nat) (d : Desc) : Chip :=
  let zones := if p = c.leadPart then p :: allParts.filter fun z => z ≠ p else [p]
  let sec := d.at 0x1C 1
  let entries := if sec ≤ 2 then zones.flatMap fun z => c.topoEntries z sec else c.leaseEntries p
  let fit := entries.foldl (fun (a : List Nat × Bool) e =>
    if a.2 && a.1.length + e.length ≤ d.at 0x18 4 then (a.1 ++ e, true) else (a.1, false)) ([], true)
  (c.writeHost (c.ownerPort p) (d.at 0x10 8) fit.1).complete (.route p) tag (if fit.2 then 0x00 else 0x0B)

/-- RECYCLE: a retired FID or board number returns to the pool. A worker forwards it to the manager and completes with the manager's status. -/
def recycle (c : Chip) (p tag : Nat) (d : Desc) : Chip :=
  let kind := d.at 0x10 1
  let v := d.at 0x14 4
  if c.isManager then (c.recycleAll p kind v).complete (.route p) tag 0x00
  else (c.modPart p fun s => { s with forwards := s.forwards ++ [(.route p, tag)] }).peerOut p c.mgrFid "RECYCLE" [tag, kind, v]

end Chip

end Sys2Proof.Machine
end

