-- ==== Sys2Proof/Machine/RouteCmds.lean ====
section
/-! DEFINITION. The route commands (R140) and the answers of agents to a partition's route messages (R127, R130, R134, R137). -/

namespace Sys2Proof.Machine

open Sys2Proof

namespace Chip

/-- The zones that a ZONE_MASK names for a queue (R140). -/
def zonesOf (c : Chip) (p mask : Nat) : List Nat :=
  if mask = 0 then [p]
  else (allParts.filter fun z => bit mask z && (z = p || p = c.leadPart)).filter fun z =>
    c.reg .DEVICE_HOST_CFG ≠ 3 || c.ownerPort z = c.ownerPort p

/-- RECOMMIT. -/
def recommit (c : Chip) (p tag : Nat) (d : Desc) : Chip :=
  let fl := d.at 0x12 2
  let zs := c.zonesOf p (d.at 0x10 2)
  if zs.isEmpty then c.complete (.route p) tag 0x00
  else c.openTxn p { zones := zs, full := bit fl 0, classes := if bit fl 1 then some (bits fl 3 2) else none,
                     thenStatic := bit fl 4, cmd := some (.route p, tag) }

/-- Work of a command in the zones named, of which those whose partition is in reset or out of service take no part: with none left it completes with
OUT_OF_SERVICE. -/
def inZones (c : Chip) (p tag : Nat) (zs : List Nat) (f : List Nat → Chip → Chip) : Chip :=
  let l := zs.filter fun z => !c.bypassed z
  if zs.isEmpty then c.complete (.route p) tag 0x00 else if l.isEmpty then c.complete (.route p) tag 0x09 else f l c

/-- RELOAD_STATIC. -/
def reloadStatic (c : Chip) (p tag : Nat) (d : Desc) : Chip :=
  c.inZones p tag (c.zonesOf p (d.at 0x10 2)) fun zs c =>
    let sts := if zs.length < (c.zonesOf p (d.at 0x10 2)).length then [0x09] else []
    let c := c.modPart p fun s => { s with staticCmd := some (.route p, tag, zs, sts) }
    zs.foldl (fun c z => (c.startStatic z).staticEnded z) c

/-- The records of QUERY_EPOCHS once every agent has answered or none will: FID, then the report. Those that other queues sent meanwhile end with it. -/
def queryEnded (c : Chip) (z : Nat) : Chip :=
  match (c.part z).queryCmd with
  | none => c
  | some first =>
    if !c.settled z (refKey refReport 0) then c
    else
      let recs := (c.zoneAgents z).filterMap fun u => (SMap.find? (c.part z).reports u.unit.code).map fun r =>
        bytesOf 4 u.fid ++ bytesOf 2 (r.getD 0 0) ++ bytesOf 2 (r.getD 1 0) ++ [r.getD 2 0 % 256, r.getD 3 0 % 256]
          ++ bytesOf 2 (r.getD 4 0) ++ bytesOf 4 (r.getD 5 0)
      (first :: (c.part z).queries).foldl (fun c q =>
        let fit := q.2.2.2 / 16
        (c.writeHost (c.queuePort q.1) q.2.2.1 (recs.take fit).flatten).complete q.1 q.2.1 (if fit < recs.length then 0x0B else 0x00))
        (c.modPart z fun s => { s with queryCmd := none, queries := [] })

/-- QUERY_EPOCHS. -/
def queryEpochs (c : Chip) (p tag : Nat) (d : Desc) : Chip :=
  let z := d.at 0x1C 1
  let me : QId × Nat × Nat × Nat := (.route p, tag, d.at 0x10 8, d.at 0x18 4)
  if 16 ≤ z ∨ !((c.zonesOf p (2 ^ (z % 16))).contains z) then c.complete (.route p) tag 0x0B
  else if c.bypassed z then c.complete (.route p) tag 0x09
  else if (c.part z).queryCmd.isSome then c.modPart z fun s => { s with queries := s.queries ++ [me] }
  else
    let c := c.modPart z fun s => { s with queryCmd := some me, reports := if s.restarting then s.reports else [] }
    (c.queryAll z).queryEnded z

/-- The unit of the zone that a POS names. -/
def unitOfPos (c : Chip) (p pos : Nat) : Option TopoUnit :=
  let n := bits pos 28 13
  let u : Option UnitId := match pos % 16 with
    | 0 => some (.endpoint p n) | 1 => some (.leaf p n) | 2 => some (.spine p n) | 3 => some (.ocs n) | _ => none
  match u with
  | some (.ocs n) => c.topoUnit p (.ocs n)
  | some u => if bits pos 12 4 = c.podOf p then c.topoUnit p u else none
  | none => none

/-- SET_LINK: PORT_STATE, and the delay of R139. -/
def setLink (c : Chip) (p tag : Nat) (d : Desc) : Chip :=
  match c.unitOfPos p (d.at 0x10 4) with
  | none => c.complete (.route p) tag 0x0B
  | some u =>
    let port := d.at 0x14 2
    let on := bit (d.at 0x16 1) 0
    let edit := fun (e : Nat × TopoLink) => if e.1 = linkKey u.unit port then (e.1, { e.2 with disabled := !on, off := !on }) else e
    let c := c.modTopo p fun t => { t with links := t.links.map edit }
    (c.sendPortState p u.unit port on (some (.route p, tag))).kickAuto p

/-- CLEAR_FALLBACK goes on: FALLBACK_CLEAR to the agents found in MODE 2, then a transaction with FULL for them. -/
def clearOn (c : Chip) (p : Nat) : Chip :=
  match (c.part p).clearRun with
  | none => c
  | some r =>
    if r.zones.any (fun z => !c.settled z (refKey refClear p)) then c
    else if !r.cleared ∧ !r.codes.isEmpty then
      let c := c.modPart p fun s => { s with clearRun := some { r with cleared := true } }
      r.zones.foldl (fun c z => ((c.zoneAgents z).filter fun u => r.codes.contains u.unit.code).foldl
        (fun c u => c.pask z u.fid 0x04 [0x1128, 1, 1] (refKey refClear p)) c) c
    else (c.modPart p fun s => { s with clearRun := none }).openTxn p { zones := r.zones, fullFor := r.codes, cmd := r.cmd }

/-- FALLBACK_CLEAR begins with the agents' reports, which name MODE. -/
def startClear (c : Chip) (p : Nat) (zones : List Nat) (cmd : Option (QId × Nat)) : Chip :=
  let c := c.modPart p fun s => { s with clearRun := some { cmd := cmd, zones := zones } }
  let c := zones.foldl (fun c z => (c.zoneAgents z).foldl (fun c u => c.pask z u.fid 0x2C [] (refKey refClear p)) c) c
  c.clearOn p

/-- CLEAR_FALLBACK. -/
def clearFallback (c : Chip) (p tag : Nat) (d : Desc) : Chip :=
  c.inZones p tag (c.zonesOf p (d.at 0x10 2)) fun zs c => c.startClear p zs (some (.route p, tag))

/-- The next READ of a READ_BANK. -/
def bankOn (c : Chip) (p : Nat) : Chip :=
  match (c.part p).bankCmd with
  | none => c
  | some b =>
    if b.left = 0 then (c.modPart p fun s => { s with bankCmd := none }).complete b.q b.tag 0x00
    else c.pask p b.fid 0x02 [b.addr, min 3068 (ceilDiv b.left 4)] (refKey refBank 0)

/-- READ_BANK: the active, shadow or static bank, at the window of the physical bank that holds it (R68). -/
def readBank (c : Chip) (p tag : Nat) (d : Desc) : Chip :=
  let bank := d.at 0x20 1
  let region := d.at 0x21 1
  let base := if region = 0 then 0 else if region = 1 then 0x100000 else if region = 2 then 0x104000 else 0x104020
  match c.unitOf p (d.at 0x1C 4 % 2 ^ 20) with
  | none => c.complete (.route p) tag 0x0B
  | some u =>
    if 2 < bank ∨ 3 < region then c.complete (.route p) tag 0x0B
    else
      let active := (c.agent u.unit).regs.get .ABANKS_ACTIVE_BANK 0 0
      let phys := if bank = 2 then 2 else if bank = 0 then active else 1 - active
      let b : BankRead := { q := .route p, tag := tag, fid := u.fid, addr := 0x800000 + phys * 0x200000 + base + d.at 0x24 4,
                            host := d.at 0x10 8, left := d.at 0x18 4 }
      (c.modPart p fun s => { s with bankCmd := some b }).bankOn p

/-- Words of a READ_BANK arrive. -/
def bankWords (c : Chip) (p : Nat) (words : List Nat) : Chip :=
  match (c.part p).bankCmd with
  | none => c
  | some b =>
    let bytes := (words.flatMap (bytesOf 4)).take b.left
    let c := c.writeHost (c.queuePort b.q) b.host bytes
    let b := { b with addr := b.addr + bytes.length, host := b.host + bytes.length,
                      left := if bytes.isEmpty then 0 else b.left - bytes.length }
    (c.modPart p fun s => { s with bankCmd := some b }).bankOn p

/-! Answers of agents -/

/-- The act that an agent's answer of a type belongs to. -/
def actOut (c : Chip) (p code type : Nat) : Option TxnAct :=
  match (c.part p).txn with
  | none => none
  | some x => ((SMap.get [] x.scripts code).head?).filter fun a => a.type = type

/-- An answer to a message of the transaction. -/
def txnAnswer (c : Chip) (p src type st : Nat) (body : List Nat) : Chip :=
  match c.unitOf p src with
  | none => c
  | some u =>
    match c.actOut p u.unit.code type with
    | some a => c.actAnswer p u.unit.code a st body
    | none => c

/-- PREPARE_ACK: of a transaction, or of a static load. -/
def prepareAck (c : Chip) (p src tag st : Nat) : Chip :=
  c.answered p src tag 0x20 fun r c =>
    if r.ref = refKey refStatic 0 then
      match c.unitOf p src with | some u => c.staticAnswer p u.unit.code st | none => c
    else c.txnAnswer p src 0x20 st []

/-- DRAIN_ACK, COMMIT_ACK, RESUME_ACK, ABANDON_ACK. -/
def plainAck (c : Chip) (p src tag type st : Nat) : Chip :=
  c.answered p src tag type fun _ c => c.txnAnswer p src type st []

/-- EPOCH_REPORT: to a transaction, a restart, QUERY_EPOCHS or CLEAR_FALLBACK. An unresolved agent that reports the zone's epoch is
resolved (R134). -/
def epochReport (c : Chip) (p src tag st : Nat) (rep : List Nat) : Chip :=
  c.answered p src tag 0x2C fun r c =>
    match c.unitOf p src with
    | none => c
    | some u =>
      let code := u.unit.code
      let c := (c.agentAt p code (rep.getD 0 0)).modPart p fun s => { s with
        topo := { s.topo with unresolved :=
                    if rep.getD 0 0 = c.reg .ROUTE_ZONE_EPOCH p then s.topo.unresolved.filter (· ≠ code) else s.topo.unresolved } }
      if r.ref = refKey refReport 0 then
        ((c.modPart p fun s => { s with reports := SMap.insert s.reports code rep }).decide_ p).queryEnded p
      else if r.ref / 2 ^ 48 = refClear then
        let q := r.ref % 2 ^ 48
        let c := if bits (rep.getD 3 0) 4 3 = 2 then c.modPart q fun s =>
            { s with clearRun := s.clearRun.map fun x => { x with codes := addOnce x.codes code } } else c
        c.clearOn q
      else c.txnAnswer p src 0x2C st rep

/-- AUTO_DELAY has passed since the last event of R139: a transaction opens while AUTO is set. -/
def autoExpiry (c : Chip) (p : Nat) : Chip :=
  match (c.part p).autoAt with
  | none => c
  | some t =>
    if c.now < t then c
    else
      let c := c.modPart p fun s => { s with autoAt := none }
      if c.reg .ROUTE_AUTO p = 1 then c.openTxn p { zones := [p], auto := true } else c

end Chip

end Sys2Proof.Machine
end

