-- ==== Sys2Proof/Machine/Failures.lean ====
section
/-! DEFINITION. What a partition does with the messages and events that tell of failures (R96, R254, R283 to R304), and with the
answers of agents to its requests: acknowledgements, and the silence that follows the retries of R95. -/

namespace Sys2Proof.Machine

open Sys2Proof

namespace Chip

/-! Events (R96, R120, R139, R145, R283) -/

/-- The management circuit at a port 43 to 46 of spine 15, named by the pod at its port 45 or 44 (R144, R145). -/
def mgmtCircuit (c : Chip) (p port : Nat) : Option (Nat × Nat) :=
  let before := fun (l : List Nat) (x : Nat) =>
    let l := sortBy (fun a b => a ≤ b) l
    l.getD (((l.findIdx? (· = x)).getD 0 + l.length - 1) % max 1 l.length) x
  match port with
  | 45 => some (c.podOf p, 45)
  | 46 => some (16 * c.clusterIndex + before (allParts.filter fun q => !c.outOfService q) p, 45)
  | 44 => some (c.podOf p, 44)
  | 43 => some (16 * before (addOnce c.clusters c.clusterIndex) c.clusterIndex + p, 44)
  | _ => none

/-- The pair or circuit that a port of the zone belongs to, as peer reports name it (R120): pod's spine and leaf, or spine and circuit port. -/
def pairCode (u : UnitId) (port : Nat) : Option Nat :=
  match u with
  | .leaf _ l => if 32 ≤ port ∧ port < 64 then some ((port - 32) / 2 * 16 + l) else none
  | .spine _ s => if port < 32 then some (s * 16 + port / 2) else if port < 48 then some (1024 + s * 64 + port) else none
  | _ => none

/-- A pair or circuit of the zone is usable by a link map. -/
def pairUp (m : List Nat) (p code : Nat) : Bool :=
  if code < 1024 then pairOk m p (code / 16) (code % 16) else linkKey (.spine p ((code - 1024) / 64)) ((code - 1024) % 64) ∈ m

/-- A port event marks both ends of the link in the database. A pair or circuit that becomes unusable, or usable again, is reported to the lead of
every slice that includes the pod (R120), a management circuit to the lead partition (R145); R134 or R139 gives what follows. -/
def portReported (c : Chip) (p : Nat) (u : UnitId) (port : Nat) (up : Bool) : Chip :=
  let before := c.liveLinks p
  let c := c.linkMoved p (linkKey u port) up
  let c := match u with
    | .spine _ 15 => (match c.mgmtCircuit p port with
      | some k => (c.modTopo p fun t =>
          { t with mgmtDown := if up then t.mgmtDown.filter (· ≠ k) else addOnce t.mgmtDown k }).tellLead p [3, k.1, k.2, ofBool up]
      | none => c)
    | _ => c
  let c := match pairCode u port with
    | none => c
    | some k =>
      if pairUp before p k = pairUp (c.liveLinks p) p k then c
      else
        let leads := ((c.slices.filter fun (s : Slice) => c.podOf p ∈ s.pods c.grid).map fun (s : Slice) => s.lead).eraseDups.filter fun f => f ≠ c.partFid p
        leads.foldl (fun c f => c.peerOut p f "PEER_REPORT" [2, c.podOf p, k, ofBool up]) c
  c.linkEvent p

/-- The health record of a port changes. -/
def modHealth (c : Chip) (p key : Nat) (f : PortHealth → PortHealth) : Chip :=
  c.modPart p fun s => { s with health := SMap.set {} s.health key (f (SMap.get {} s.health key)) }

/-- EVENT of an agent: recorded by Hen, and acted on. -/
def event (c : Chip) (p src code : Nat) (ps : List Nat) : Chip :=
  let c := (c.logMsg p src 0x57 0 c.now false false).henPart p code ps
  let g := fun i => ps.getD i 0
  match c.unitOf p src with
  | none => c
  | some u =>
    match code with
    | 0x2001 =>
      let end_ := SMap.find? (c.part p).topo.links (linkKey u.unit (g 0))
      let c := (c.modHealth p (linkKey u.unit (g 0)) fun h => { h with ups := h.ups + 1 }).portReported p u.unit (g 0) false
      match u.unit, end_ with
      | .leaf _ _, some l =>
        if g 0 < 32 then
          match l.far with
          | some f => c.endpointLost p (c.fidOf p f) 1
          | none => c
        else c
      | _, _ => c
    | 0x2002 =>
      (c.modHealth p (linkKey u.unit (g 0)) fun h => { h with ups := h.ups + 1 }).portReported p u.unit (g 0) true |>.askLate p u.unit (g 0)
    | 0x2003 =>
      let key := linkKey u.unit (g 0)
      let c := c.modHealth p key fun h => { h with delays := h.delays + 1 }
      (c.modTopo p fun t =>
        { t with links := t.links.map fun e => if e.1 = key then (e.1, { e.2 with delay := g 2 }) else e }).kickAuto p
    | 0x2009 =>
      let w := c.fullFrame (g 0)
      match c.jobWith p src with
      | some j => c.listRejected p j.job w src true
      | none => c
    | 0x200C => c.endpointLost p src 2
    | _ => c

/-! Telemetry and silence (R254, R283) -/

/-- TELEMETRY: each port's record is added to the period's (R254), and the agent is not silent. -/
def telemetry (c : Chip) (p src : Nat) (recs : List (List Nat)) : Chip :=
  let c := c.logMsg p src 0x55 0 c.now false false
  match c.unitOf p src with
  | none => c
  | some u =>
    let c := c.modPart p fun s => { s with telemAt := SMap.set 0 s.telemAt u.unit.code c.now }
    recs.foldl (fun c r =>
      c.modHealth p (linkKey u.unit (r.getD 0 0)) fun h =>
        { h with recs := h.recs + 1, depth := max h.depth (r.getD 1 0), means := h.means + r.getD 2 0,
                 sums := (List.range 7).map fun i => h.sums.getD i 0 + r.getD (3 + i) 0 }) c

/-- An endpoint without TELEMETRY for SILENT_PERIODS periods is asked for its IDENT page; its silence after the retries makes it
lost with REASON 3 (R283). -/
def silentTimeout (c : Chip) (p fid : Nat) : Chip :=
  match c.unitOf p fid with
  | none => c
  | some u =>
    let last := max (SMap.get 0 (c.part p).telemAt u.unit.code) u.seen
    let period := (c.agent u.unit).regs.get .ACONTROL_TELEM_PERIOD 0 0 * 1000
    let ref := refKey refSilence fid
    if u.profile ≠ 0 ∨ !c.settled p ref ∨ c.now < last + c.reg .FAIL_SILENT_PERIODS p * period then c
    else c.pask p fid 0x02 [0x110, 1] ref

/-! FAIL_NOTE (R288) -/

/-- A FAIL_NOTE is answered, and a sender of this G9 has its answer. -/
def noteTaken (c : Chip) (p src tag : Nat) (k : Chip → Chip) : Chip :=
  c.prequest p src tag 0x86 fun c =>
    let c := k (c.preply p src tag 0x86 0x00)
    match c.partOfFid src with
    | some q => c.unask q (c.partFid p) tag
    | none => c

/-- Kind 1: the notice in this zone (R285). -/
def notePeerReset (c : Chip) (p src tag : Nat) (n : FailNote) : Chip := c.noteTaken p src tag fun c => c.noticeZone p n

/-- Kind 2 at the slice's lead (R289, R304). -/
def fenceReq (c : Chip) (p src tag : Nat) (n : FailNote) : Chip :=
  c.noteTaken p src tag fun c => n.fids.foldl (fun c f =>
    c.batchAdd p { job := n.job, slice := n.slice, fid := f, reason := n.reason, detect := n.detect }) c

/-- Kind 3: the fence stages begin (R290). An order already at work is not begun again. -/
def fenceOrder (c : Chip) (p src tag : Nat) (n : FailNote) : Chip :=
  c.noteTaken p src tag fun c =>
    if (c.part p).orders.any fun o => o.job = n.job && o.f = n.f then c
    else (c.startOrder p { job := n.job, slice := n.slice, f := n.f, fids := n.fids, detect := n.detect }
      (n.fids.map fun _ => n.reason)).orderNext p n.job n.f

/-- Kind 4: UNFENCE to the agents of the zone. The lead passes on what a command elsewhere asked for (R297, R304). -/
def unfenceOrder (c : Chip) (p src tag : Nat) (n : FailNote) : Chip :=
  c.noteTaken p src tag fun c =>
    let s := c.sliceOf n.slice
    let lead : Bool := match s with | some s => c.leads p s | none => false
    let c := match s with
      | some s => if lead && n.reason = 4 then
          ((c.othersOf p s).filter fun d => d ≠ src).foldl (fun c d => c.sendNote p d 4 { n with reason := 0 }) c
        else c
      | none => c
    n.fids.foldl (fun c f =>
      let l : Lift := { job := n.job, slice := n.slice, fid := f, f := n.f, stage := 3 }
      (((c.modPart p fun s => { s with lifts := s.lifts ++ [l] }).unfenceZone p n.job f n.f)).liftNext p f) c

/-- The fences of a job are sent to every agent of a zone, and UNFENCE where they are lifted; an agent that does not answer
is silent (R291, R301). -/
def installFences (c : Chip) (p : Nat) (l : List FenceRec) : Chip :=
  let agents := c.zoneSwitches p ++ c.zoneEndpoints p
  agents.foldl (fun (c : Chip) a => l.foldl (fun (c : Chip) x =>
    let ref := refKey refRetry (a * 2 ^ 20 + x.fid)
    let c := c.pask p a 0x30 [x.fid, x.job, x.f] ref
    if x.lifted then c.pask p a 0x32 [x.fid, x.job, x.f] ref else c) c) c

/-- Kind 5: a lead answers a request with the job's fences; a restarted partition installs them (R301). -/
def fenceSync (c : Chip) (p src tag : Nat) (n : FailNote) : Chip :=
  c.noteTaken p src tag fun c =>
    if n.fids.isEmpty then
      let l := (c.part p).fences.filter fun x => x.job = n.job
      if l.isEmpty then c
      else (pieces 1530 (l.length + 1) l).foldl (fun c k => c.sendNote p src 5
        { job := n.job, slice := n.slice, detect := c.now, fids := k.map fun x => x.fid, epochs := k.map fun x => x.f,
          lifted := k.map fun x => x.lifted }) c
    else
      let l : List FenceRec := n.fids.zipIdx.map fun e =>
        { job := n.job, fid := e.1, f := n.epochs.getD e.2 0, lifted := n.lifted.getD e.2 false, reason := n.reason }
      let c := c.modPart p fun s => { s with
        fences := (s.fences.filter fun x => !(l.any fun y => y.job = x.job && y.fid = x.fid)) ++ l }
      (c.publishFences p).installFences p l

/-- The resynchronisation of R301, once the restarted partition's epoch outcome has been carried out: FENCE_SYNC to the leads of the
zone's slices, the own fences, event 0x3707, and CLEAR_FALLBACK. -/
def resyncOn (c : Chip) (p : Nat) : Chip :=
  if !(c.part p).resync || (c.part p).restarting then c
  else
    let mode := fun m => ((c.part p).reports.filter fun e => bits (e.2.getD 3 0) 4 3 = m).length
    let c := c.modPart p fun s => { s with resync := false }
    let c := (c.count .FAIL_RESYNCS p).henPart p 0x3707 [mode 1, mode 2]
    let c := (c.part p).jobs.foldl (fun c j => match c.sliceOf j.slice with
      | some s => if c.leads p s then c.installFences p ((c.part p).fences.filter fun x => x.job = j.job)
          else c.sendNote p s.lead 5 { job := j.job, slice := j.slice, detect := c.now }
      | none => c) c
    c.startClear p [p] none

/-! Acknowledgements (R95) -/

/-- FENCE_ACK: the order, the lift or the retry that asked for it goes on (R291, R297). -/
def fenceAck (c : Chip) (p src tag st : Nat) : Chip :=
  c.answered p src tag 0x30 fun r c =>
    let c := c.fenceAnswered p src st r
    match r.ref / 2 ^ 48 with
    | 1 => c.orderNext p (r.ref / 65536 % 65536) (r.ref % 65536)
    | 2 => c.liftNext p (r.ref % 2 ^ 48)
    | _ => c

/-- UNFENCE_ACK: after the last, the endpoint takes part in placement again (R297). -/
def unfenceAck (c : Chip) (p src tag : Nat) : Chip :=
  c.answered p src tag 0x32 fun r c => if r.ref / 2 ^ 48 = refLift then c.liftNext p (r.ref % 2 ^ 48) else c

/-- TEMPLATE_ACK: a fence order's third stage goes on; an answer other than OK to a template leaves it to be sent again at the next
COMMIT stage, with event 0x3605 (R280, R290). -/
def templateAck (c : Chip) (p src tag st : Nat) : Chip :=
  c.answered p src tag 0x44 fun r c =>
    match r.ref / 2 ^ 48 with
    | 1 => c.orderNext p (r.ref / 65536 % 65536) (r.ref % 65536)
    | 5 => c.tmplAnswered p (r.ref % 2 ^ 48) src (st ≠ 0x00)
    | _ => c

/-- WRITE_ACK: of a transaction's CONTROL writes, a sequence of R89, or FALLBACK_CLEAR. -/
def writeAck (c : Chip) (p src tag st : Nat) : Chip :=
  c.answered p src tag 0x04 fun r c =>
    match r.ref / 2 ^ 48 with
    | 3 => c.txnAnswer p src 0x04 st []
    | 6 => c.seqAcked p (r.ref % 2 ^ 48) src
    | 12 => c.clearOn (r.ref % 2 ^ 48)
    | _ => c

/-- READ_RESP: a silence ends, a lift's endpoint has answered, or words of READ_BANK come. -/
def readResp (c : Chip) (p src tag st : Nat) (words : List Nat) : Chip :=
  c.answered p src tag 0x02 fun r c =>
    match r.ref / 2 ^ 48 with
    | 7 => (match c.unitOf p src with
      | some u => c.modPart p fun s => { s with telemAt := SMap.set 0 s.telemAt u.unit.code c.now }
      | none => c)
    | 2 => c.liftNext p (r.ref % 2 ^ 48)
    | 8 =>
      if st = 0x00 then c.bankWords p words
      else (match (c.part p).bankCmd with
        | some b => (c.modPart p fun s => { s with bankCmd := none }).complete b.q b.tag st
        | none => c)
    | _ => c

/-- A request of a partition that no one answered after the retries (R95): what asked for it goes on without the answer. -/
def gaveUp (c : Chip) (p : Nat) (r : Request) : Chip :=
  let low := r.ref % 2 ^ 48
  match r.ref / 2 ^ 48 with
  | 1 => (c.agentSilent p r.dst).orderNext p (r.ref / 65536 % 65536) (r.ref % 65536)
  | 2 =>
    (match (c.part p).lifts.find? fun l => l.fid = low with
     | some l =>
       if l.stage = 0 then (c.modPart p fun s => { s with lifts := s.lifts.filter fun x => x.fid ≠ low }).completeOpt l.cmd 0x0B
       else (c.agentSilent p r.dst).liftNext p low
     | none => c)
  | 3 =>
    (match c.unitOf p r.dst with
     | some u => (match c.actOut p u.unit.code r.msg.type with
       | some a => c.actTimeout p u.unit.code a
       | none => c)
     | none => c)
  | 4 => (match c.unitOf p r.dst with | some u => if low = 0 then c.staticAnswer p u.unit.code 0x01 else c | none => c)
  | 5 => c.tmplAnswered p low r.dst true
  | 7 => c.endpointLost p r.dst 3
  | 8 =>
    (match (c.part p).bankCmd with
     | some b => (c.modPart p fun s => { s with bankCmd := none }).complete b.q b.tag 0x01
     | none => c)
  | 9 => c.agentSilent p r.dst
  | 11 =>
    (match c.unitOf p r.dst with
     | some u => if u.profile = 0 then c else c.unitDown p u.unit
     | none => c : Chip).decide_ p |>.queryEnded p
  | 12 => c.clearOn low
  | 13 => { c with slices := mapIf (fun s => s.num = low) (fun s => { s with failure := some (0x01, 0, 0) }) c.slices }
  | _ => c

/-- A partition's request is sent again after 20 µs, up to 3 times, and then given up (R95). -/
def partRetransmit (c : Chip) (p tag : Nat) : Chip :=
  match (c.part p).requests.find? fun r => r.msg.tag = tag with
  | none => c
  | some r =>
    if c.now < r.sentAt + 20000 then c
    else if r.retries < 3 then
      let again := fun (x : Request) => { x with sentAt := c.now, retries := x.retries + 1 }
      let c := c.modPart p fun s => { s with requests := mapIf (fun x => x.msg.tag = tag) again s.requests }
      if r.ref / 2 ^ 48 = refReserve then c.peerOut p r.dst "SLICE" r.msg.body else c.psend p r.dst r.msg
    else (c.unask p r.dst tag).gaveUp p r

/-! Fence commands (R298, R304) -/

/-- The partition of this G9 whose zone holds an endpoint with a FID. -/
def zoneOfFid (c : Chip) (fid : Nat) : Option (Nat × TopoUnit) :=
  allParts.findSome? fun z => (c.unitOf z fid).bind fun u => if u.profile = 0 then some (z, u) else none

/-- FENCE_EP. -/
def fenceEp (c : Chip) (p tag : Nat) (d : Desc) : Chip :=
  let fid := d.at 0x10 4 % 2 ^ 20
  let retire := bit (d.at 0x14 2) 0
  match c.zoneOfFid fid with
  | none => c.complete (.route p) tag 0x0B
  | some (z, _) =>
    if c.ownerPort z ≠ c.ownerPort p then c.complete (.route p) tag 0x0B
    else
      let j := c.jobWith z fid
      let job := match j with | some j => j.job | none => 0xFFFF
      let held := (c.part z).fences.any fun f => f.job = job && f.fid = fid && !f.lifted
      if held then (if retire then c.retireFid z fid else c).complete (.route p) tag 0x00
      else
        let c := c.modPart z fun s => { s with
          fenceCmds := s.fenceCmds ++ [(.route p, tag, fid)],
          toRetire := if retire then addOnce s.toRetire fid else s.toRetire }
        c.fenceRequest z { job := job, slice := (match j with | some j => j.slice | none => 0), fid := fid, reason := 4,
                           detect := c.now }

/-- UNFENCE_EP: accepted where the FID is fenced and its endpoint positioned; the agent is asked first (R297). -/
def unfenceEp (c : Chip) (p tag : Nat) (d : Desc) : Chip :=
  let fid := d.at 0x10 4 % 2 ^ 20
  match c.zoneOfFid fid with
  | none => c.complete (.route p) tag 0x0B
  | some (z, _) =>
    match (c.part z).fences.find? fun f => f.fid = fid && !f.lifted with
    | none => c.complete (.route p) tag 0x0B
    | some f =>
      if c.ownerPort z ≠ c.ownerPort p ∨ fid ∈ (c.part z).topo.retired then c.complete (.route p) tag 0x0B
      else
        let slice := match c.jobOf z f.job with | some j => j.slice | none => 0
        let l : Lift := { job := f.job, slice := slice, fid := fid, f := f.f, stage := 0, cmd := some (.route p, tag) }
        let busy := (c.part z).lifts.any fun x => x.fid = fid
        let c := c.modPart z fun s => { s with lifts := s.lifts ++ [l] }
        if busy then c else c.pask z fid 0x02 [0x110, 1] (refKey refLift fid)

/-- QUERY_FENCES: an 8-byte record for each fence of the job, as many as fit. -/
def queryFences (c : Chip) (p tag : Nat) (d : Desc) : Chip :=
  let l := (c.part p).fences.filter fun f => f.job = d.at 0x1C 2 && !c.confJob p f.job
  let recs := l.map fun f => bytesOf 4 f.fid ++ bytesOf 2 f.f ++ [if f.lifted then 2 else 1, f.reason % 256]
  let fit := d.at 0x18 4 / 8
  (c.writeHost (c.ownerPort p) (d.at 0x10 8) (recs.take fit).flatten).complete (.route p) tag
    (if fit < recs.length then 0x0B else 0x00)

end Chip

end Sys2Proof.Machine
end

