-- ==== Sys2Proof/Machine/ContextOps.lean ====
section
/-! DEFINITION. Residency of contexts (R307 to R315, R328 to R330, R363, R364): shares of tiles, what begins and ends with a
confidential residency, and scrubbing. -/

namespace Sys2Proof.Machine

open Sys2Proof

namespace Chip

/-- A core of the partition is halted by external debug. -/
def coreHalted (c : Chip) (p : Nat) : Bool := (List.range 4).any fun k => c.reg .CORES_STATE p k == 3
/-- A residency that is refused with CAPACITY (R309, R311). -/
def residencyRefused (c : Chip) (x p sram lp : Nat) : Bool :=
  8 ≤ (c.residents p).length || c.outOfService p || (c.fitShare p sram lp).isNone || (c.isConf x && c.coreHalted p)

/-! Confidential residencies (R313, R315) -/

/-- CONF_RESIDENT, DEBUG_LOCK and COARSE on both CONTEXT pages. -/
def publishConf (c : Chip) : Chip :=
  let n := (c.ctxs.filter fun e => e.2.conf && !e.2.shares.isEmpty).length
  let lock := (allParts.filter fun p => c.locked p).foldl (fun v p => v + 2 ^ p) 0
  [0, 1].foldl (fun c i =>
    let c := (c.setReg .CONTEXT_CONF_RESIDENT i 0 n).setReg .CONTEXT_DEBUG_LOCK i 0 lock
    if n = 0 then c else c.setReg .CONTEXT_COARSE i 0 1) c

/-- The rules of R313 begin or end in a partition: its trace stops or goes on. -/
def confChanged (c : Chip) (p : Nat) (was : Bool) : Chip :=
  let c := c.publishConf
  if !was && c.locked p then c.suspend p 1 else if was && !c.locked p then c.unsuspend p 1 else c

/-! Links of the control port (R327, R328) -/

/-- The next generation of a link end: new keys, the index counters start again and nothing is revoked. -/
def nextGen (l : LinkEnd) : LinkEnd :=
  let old := l.gen % 2
  { l with gen := l.gen + 1, tx := [], rx := l.rx.filter (fun e => e.1 / 128 = old), revoked := [],
           prevOpen := true, prevUntil := none, rekeying := false }

/-- A rekey of the control port's link. -/
def rekeyPart (c : Chip) (p : Nat) : Chip :=
  let c := c.modPart p fun s => { s with link := nextGen s.link }
  let c := c.setReg .LINKSEC_GEN_PARITY p 0 ((c.part p).link.gen % 2)
  ((c.setReg .LINKSEC_TX_COUNTER p 0 0).setReg .LINKSEC_REVOKED_MASK p 0 0).count .LINKSEC_REKEYS p

/-- The other end of the control port's link follows the generation. -/
def rekeyPeer (c : Chip) (p : Nat) : Chip :=
  c.onAgent (.spine p 15) fun a => a.modPort 47 fun s => { s with link := nextGen s.link }

/-! Residency begins and ends -/

/-- The context takes its place in a partition: the link is keyed anew where its index is revoked, every tile of both runs is
written, and the queues may run (R309, R328, R364). -/
def makeResident (c : Chip) (x p sram lp : Nat) : Chip :=
  match c.fitShare p sram lp with
  | none => c
  | some s =>
    let c := if 1 + x ∈ (c.part p).link.revoked then (c.rekeyPart p).rekeyPeer p else c
    let was := c.locked p
    let c := c.modPart p fun q => { q with
      tiles := tilesOver (Tile.freed x) s.lpFirst s.lpTiles (tilesOver (Tile.freed x) s.sramFirst s.sramTiles q.tiles) }
    let c := c.modCtx x fun k => { k with shares := SMap.insert k.shares p s, state := if k.state = 3 then 3 else 2 }
    (c.confChanged p was).publishMemory p

/-- What a context leaves behind in the engines: its windows' items (R329, R330). -/
def clearCtxWork (c : Chip) (x p : Nat) : Chip :=
  let gone := fun (u : WorkUnit) => c.unitCtx p u = some x
  c.modPart p fun s => { s with engines := { s.engines with
    deques := (s.engines.deques.map fun e => (e.1, e.2.filter fun u => !gone u)).filter fun e => !e.2.isEmpty
    overflow := s.engines.overflow.filter fun u => !gone u
    ctx := if s.engines.ctx = some x then none else s.engines.ctx } }

/-- Scrubbing in one partition (R330): the tiles, the engines' units, the cluster's tensor table registers and the sections. The
bytes are counted on the page of the context's port. -/
def scrub (c : Chip) (x p : Nat) : Chip :=
  match SMap.find? (c.ctx x).shares p with
  | none => c
  | some s =>
    let zero := fun (t : Tile) => Tile.freed 0xFF { t with data := [] }
    let c := (c.clearCtxWork x p).modPart p fun q => { q with
      tiles := tilesOver zero s.lpFirst s.lpTiles (tilesOver zero s.sramFirst s.sramTiles q.tiles)
      sections := q.sections.filter fun y => y.ctx ≠ x
      ttab := SMap.eraseRange q.ttab (131072 * x) (131072 * (x + 1)) }
    let c := (c.setReg .MIOBOR_TTAB_VALID p x 0).modCtx x fun k => { k with bank := k.bank.filter fun e => !ofPart p e.1 }
    c.countFor x .CONTEXT_SCRUB_BYTES (c.ctx x).port (2064 * (s.sramTiles + s.lpTiles))
where
  /-- A counter of a context's bank that belongs to a partition's pages. -/
  ofPart (p key : Nat) : Bool :=
    key / 64 % 4096 % 16 = p && !(regsOfCONTEXT.any fun r => r.ctorIdx = key / (64 * 4096))

/-- The registers of a context's block in a partition are as at reset, and its windows are empty: the next life of the number finds
nothing there. -/
def clearBlock (c : Chip) (x p : Nat) : Chip :=
  let c := { c with regs := c.regs.clear (gElems .CTXQ) (16 * x + p) }
  let c := ((c.zeroHost 2 (windowKey (.compute x p)) 65536).zeroHost 2 (windowKey (.mule x p)) 65536)
  c.modPart p fun s => { s with progs := SMap.eraseRange s.progs (4 * x) (4 * x + 4), unlisted := s.unlisted.filter fun e => e.1 ≠ x }

/-- Residency ends in a partition (RELEASE of R329, R160). -/
def endResidency (c : Chip) (x p : Nat) : Chip :=
  let was := c.locked p
  let conf := c.isConf x
  let c := c.modCtx x fun k =>
    let sh := SMap.erase k.shares p
    { k with shares := sh, state := if k.state = 2 && sh.isEmpty then 1 else k.state }
  let c := if conf then { c with confReleased := c.now } else c
  ((c.confChanged p was).publishMemory p).clearBlock x p

end Chip

end Sys2Proof.Machine
end

