-- ==== Sys2Proof/Machine/Install.lean ====
section
/-! DEFINITION. How policy and template sections come into force in a zone (R267, R270, R279). -/

namespace Sys2Proof.Machine

open Sys2Proof

namespace Chip

/-- Changes the sections of a partition that pass. -/
def modSections (c : Chip) (p : Nat) (ok : Section → Bool) (f : Section → Section) : Chip :=
  c.modPart p fun s => { s with sections := mapIf ok f s.sections }

/-- The LOOSE values of a policy within the envelope of R446, each change counted and logged as a clamp of the LOOPS page, written to the
LOOSE page of the job's endpoints (R267). -/
def writeLoose (c : Chip) (p : Nat) (j : Job) (x : Policy) : Chip :=
  let lo := clampTo 6250 100000 x.looseFloor
  let hi := clampTo lo 800000 x.looseCeiling
  let st := clampTo 1000 25000 x.looseStep
  let c := [(x.looseFloor, lo), (x.looseCeiling, hi), (x.looseStep, st)].foldl (fun (c : Chip) (e : Nat × Nat) =>
    if e.1 = 0 || e.1 = e.2 then c else c.clamped .LOOPS 0 e.1 e.2) c
  (c.zoneEps p j).foldl (fun (c : Chip) (e : Nat × Nat) =>
    let c := (c.pask p e.1 0x04 [0x710C, 1, lo]).pask p e.1 0x04 [0x7104, 1, hi]
    (c.pask p e.1 0x04 [0x7108, 1, st]).pask p e.1 0x04 [0x7020, 1, 0x80000000]) c

/-- The sequence of a job's first window, written to its endpoints with the base frame (R89). -/
def writeFirstSeq (c : Chip) (p : Nat) (j : Job) : Chip :=
  let x := (Job.latest j.settings j.first fun s => s.seq.isSome).bind fun s => s.seq
  let len := match x with | some e => e.1 | none => 1
  let seq := match x with | some e => e.2 | none => 0
  (c.zoneEps p j).foldl (fun (c : Chip) (e : Nat × Nat) =>
    let c := (c.pask p e.1 0x04 [0x4114, 1, trunc 32 j.first]).pask p e.1 0x04 [0x4110, 1, len]
    (c.pask p e.1 0x04 ([0x4118, 4] ++ (List.range 4).map fun i => bits seq (32 * i + 31) (32 * i))).pask p e.1 0x04
      [0x4020, 1, 0x80000000]) c

/-- A policy governs its job from a window on; the confidence threshold is kept within the new bounds, and the LOOSE values go to
the agents (R247, R267, R279). -/
def installPolicy (c : Chip) (p : Nat) (x : Policy) (start : Nat) (fresh : Bool) : Chip :=
  match c.jobOf p x.job with
  | none => c
  | some j =>
    let s : Setting := { start := start, cmd := false, mode := some (x.spec, x.ordered, x.spill),
                         tol := some (x.tolAbs, x.tolRel), seq := if fresh then some (x.seqLen, x.seq) else none }
    let c := c.modJob p x.job fun j =>
      { j with settings := j.settings ++ [s],
               thr := if fresh then x.confCeil else j.thr }
    (if fresh then c else c.changeSeq p x.job start x.seqLen x.seq false).writeLoose p j x

/-- Held sections of a job come into force when its slice is admitted: templates first, then the policy (R270, R279). -/
def installHeld (c : Chip) (p job : Nat) : Chip :=
  match c.jobOf p job with
  | none => c
  | some j =>
    let mine := (c.part p).sections.filter fun s => s.ctx = j.ctx && s.job = job
    let c := mine.foldl (fun c s => match s.body with
      | .template t =>
        let r := c.installTmpl p job t
        r.1.modSections p (fun x => x.ctx = s.ctx && x.typ = 3 && x.num = s.num && x.job = job) fun x =>
          { x with state := if r.2 then 1 else 2 }
      | _ => c) c
    mine.foldl (fun c s => match s.body with
      | .policy x => c.installPolicy p x j.first true
      | _ => c) c

end Chip

end Sys2Proof.Machine
end

