-- ==== Sys2Proof/Machine/Slices.lean ====
section
/-! DEFINITION. Slices: admission, its undoing, teardown, queries and the lead role (R143 to R164). -/

namespace Sys2Proof.Machine

open Sys2Proof

/-! The request block (R162) -/

/-- A group record: AXIS, LINE_A, LINE_B, COUNT, members. -/
def groupsOf : Nat → List Nat → List Group
  | 0, _ => []
  | n + 1, b =>
    let count := ofBytes ((b.drop 8).take 4)
    let members := (List.range count).map fun i => ofBytes ((b.drop (12 + 4 * i)).take 4) % 2 ^ 20
    { axis := ofBytes (b.take 4) % 2, a := ofBytes ((b.drop 4).take 2), b := ofBytes ((b.drop 6).take 2), members := members }
      :: groupsOf n (b.drop (12 + 4 * count))

/-- The fields of a request block before the endpoint list. -/
structure SliceReq where
  magic : Nat
  version : Nat
  job : Nat
  ctx : Nat
  leadPod : Nat
  endpoints : Nat
  origin : List Nat
  kinds : List Nat
  extents : List Nat
  groups : Nat
  width : Nat
  width15 : Nat
  frames : Nat
  first : Nat
  deriving DecidableEq, Repr

/-- The fixed part of a request block. -/
def sliceReqOf (b : List Nat) : SliceReq :=
  let g := fun off n => ofBytes ((b.drop off).take n)
  { magic := g 0 4, version := g 4 2, job := g 6 2, ctx := g 8 1, leadPod := g 0x0A 2, endpoints := g 0x0C 4,
    origin := [g 0x10 2, g 0x12 2, g 0x14 2], kinds := [bits (g 0x16 2) 1 0, bits (g 0x16 2) 3 2, bits (g 0x16 2) 5 4],
    extents := [g 0x18 2, g 0x1A 2, g 0x1C 2], groups := g 0x1E 2, width := g 0x20 2, width15 := g 0x22 2, frames := g 0x24 1,
    first := g 0x28 8 }

/-- Ports per direction of an axis in a plane (R152). -/
def widthOf (s : Slice) (plane axis : Nat) : Nat :=
  bits (if plane = 15 then s.width15 else s.width) (4 * axis + 3) (4 * axis)

/-- The links of an axis in the order of R152: end A, end B. -/
def axisLinks (s : Slice) (axis : Nat) : List (List Nat × List Nat) :=
  let n := s.extents.getD axis 1
  if n ≤ 1 then []
  else
    let at_ := fun (x : List Nat) (i : Nat) => listSet x axis i
    if s.kind axis = 2 then
      (s.positions.filter fun x => x.getD axis 0 = 0).flatMap fun x => (List.range (n - 1)).map fun i => (x, at_ x (i + 1))
    else
      let open_ := (s.positions.filter fun x => x.getD axis 0 + 1 < n).map fun x => (x, at_ x (x.getD axis 0 + 1))
      let closing := if s.kind axis = 1 then
          (s.positions.filter fun x => x.getD axis 0 + 1 = n).map fun x => (x, at_ x 0)
        else []
      open_ ++ closing

/-- The endpoints repeat a FID. -/
def repeats (l : List Nat) : Bool := l.eraseDups.length != l.length

namespace Chip

/-- Changes a slice. -/
def modSlice (c : Chip) (n : Nat) (f : Slice → Slice) : Chip := { c with slices := mapIf (fun s => s.num = n) f c.slices }

/-- The partitions of this G9 that govern pods of the box. -/
def sliceZones (c : Chip) (s : Slice) : List Nat :=
  sortBy (fun a b => a ≤ b) ((s.pods c.grid).filterMap c.partOfPod).eraseDups

/-- The zones that govern the OCS units of a slice's circuits (R153). -/
def ocsZones (c : Chip) (s : Slice) : List Nat :=
  sortBy (fun a b => a ≤ b) ((s.circuits.map fun x => x.ocs).eraseDups.filterMap fun n =>
    match c.ocsAttach n with | some l => c.partOfPod l.pod | none => none).eraseDups

/-- The pod is governed by a G9 of the cluster (R143). -/
def podHere (c : Chip) (pod : Nat) : Bool := pod / 16 = c.clusterIndex || pod / 16 ∈ c.clusters

/-- The pod of a positioned endpoint: of an own zone by its database, of another G9 by the peer reports. -/
def endpointPod (c : Chip) (fid : Nat) : Option Nat :=
  match allParts.findSome? fun z => (c.unitOf z fid).map fun u => (z, u) with
  | some (z, u) => (match u.unit with
    | .endpoint _ _ => if fid ∈ (c.part z).topo.retired then none else some (c.podOf z)
    | _ => none)
  | none => match c.peerOf c.leadPart fid with
    | some x => (match x.unit with | .endpoint _ _ => some x.pod | _ => none)
    | none => none

/-! Circuits (R152) -/

/-- A circuit port of a spine is free: no management or control attachment, no slice's, not disabled. -/
def portFree (c : Chip) (held : List Circuit) (plane pod port : Nat) : Bool :=
  let special := (plane = 15 && 43 ≤ port) || c.plan.links.any fun l => l.pod = pod && l.spine = plane && l.port = port && l.ocsPort = 0
  let taken := held.any fun x => x.plane = plane && ((x.podA = pod && x.portA = port) || (x.podB = pod && x.portB = port))
  let disabled : Bool := match c.partOfPod pod with
    | some z => (match SMap.find? (c.part z).topo.links (linkKey (.spine z plane) port) with | some l => l.disabled | none => false)
    | none => false
  !special && !taken && !disabled

/-- The free circuit ports of a spine, ascending, with the OCS port that the plan joins each to. -/
def freePorts (c : Chip) (held : List Circuit) (plane pod : Nat) : List PlanLink :=
  (List.range 16).filterMap fun i =>
    match c.plan.links.find? fun l => l.pod = pod && l.spine = plane && l.port = 32 + i && l.ocsPort ≠ 0 with
    | some l =>
      let busy := held.any fun x => x.ocs = l.ocs && (x.ocsA = l.ocsPort || x.ocsB = l.ocsPort)
      if c.portFree held plane pod (32 + i) && !busy then some l else none
    | none => none

/-- The first pair of free ports that reach one OCS unit. -/
def portPair (a b : List PlanLink) : Option (PlanLink × PlanLink) :=
  a.findSome? fun x => (b.find? fun y => x.ocs = y.ocs && x.ocsPort ≠ y.ocsPort).map fun y => (x, y)

/-- `w` circuits of one link. -/
def linkCircuits (c : Chip) (plane axis podA podB : Nat) : Nat → List Circuit → Option (List Circuit)
  | 0, held => some held
  | n + 1, held =>
    match portPair (c.freePorts held plane podA) (c.freePorts held plane podB) with
    | none => none
    | some (x, y) =>
      let k : Circuit := { plane := plane, axis := axis, podA := podA, portA := x.port, podB := podB, portB := y.port,
                           ocs := x.ocs, ocsA := x.ocsPort, ocsB := y.ocsPort }
      linkCircuits c plane axis podA podB n (held ++ [k])

/-- The circuits of a slice in the order of R152; none where a pair is missing. -/
def pickCircuits (c : Chip) (s : Slice) : Option (List Circuit) :=
  let held := c.slices.flatMap fun x => x.circuits
  let all := (List.range 16).foldl (fun (a : Option (List Circuit)) plane =>
    [0, 1, 2].foldl (fun a axis => (axisLinks s axis).foldl (fun a l =>
      match a with
      | none => none
      | some h => c.linkCircuits plane axis (s.podOf c.grid l.1) (s.podOf c.grid l.2) (widthOf s plane axis) h) a) a) (some held)
  all.map fun l => l.drop held.length

/-! Groups (R155, R286) -/

/-- Group numbers in use at the switches of some pods. -/
def groupNums (c : Chip) (pods : List Nat) : List Nat :=
  c.slices.flatMap fun s =>
    ((s.groups.filter fun g => (c.linePods s g).any (· ∈ pods)).map fun g => g.num)
      ++ (s.notice.filter fun e => e.1 ∈ pods).map Prod.snd

/-- The lowest number that is in none of the lists. -/
def lowestNum (used : List Nat) : Option Nat := ((List.range 4095).map (· + 1)).find? fun n => !(n ∈ used)

/-- Numbers for the groups of a slice, in request order; none where one cannot be had. -/
def numberGroups (c : Chip) (s : Slice) : Option (List Group) :=
  s.groups.foldl (fun (a : Option (List Group)) g =>
    match a with
    | none => none
    | some done =>
      let pods := c.linePods s g
      let mine := (done.filter fun x => (c.linePods s x).any (· ∈ pods)).map fun x => x.num
      if s.kind g.axis = 2 then none
      else (lowestNum (c.groupNums pods ++ mine)).map fun n => done ++ [{ g with num := n }]) (some [])

/-- The notice groups of the pods of this G9 where the slice has endpoints (R286). -/
def noticeGroups (c : Chip) (s : Slice) : List (Nat × Nat) :=
  ((s.pods c.grid).filter fun pod => s.endpoints.any fun f => c.endpointPod f = some pod).filterMap fun pod =>
    (lowestNum (c.groupNums [pod])).map fun n => (pod, n)

/-! The lead (R154) -/

/-- The lead pod that the rule selects among some pods: least eccentricity, most endpoints, lowest index. -/
def ruleLead (c : Chip) (s : Slice) (ok : Nat → Bool) : Nat :=
  let cand := (s.positions.map fun x => (eccentricity s x, s.podOf c.grid x)).filter fun e => ok e.2
  let eps := fun pod => (s.endpoints.filter fun f => c.endpointPod f = some pod).length
  let better := fun (a b : Nat × Nat) =>
    a.1 < b.1 || (a.1 = b.1 && (eps b.2 < eps a.2 || (eps a.2 = eps b.2 && a.2 < b.2)))
  match cand with
  | [] => (s.pods c.grid).getD 0 0
  | x :: r => (r.foldl (fun b e => if better e b then e else b) x).2

/-- A pod's partition in another G9 is reported out of service, or its G9 down. -/
def farGone (c : Chip) (pod : Nat) : Bool := c.down.contains (pod / 16) || c.farOut.contains pod

/-- A pod's partition is in service, as far as this G9 knows. -/
def podInService (c : Chip) (pod : Nat) : Bool :=
  match c.partOfPod pod with | some z => c.inService z && !(c.part z).portDown | none => c.podHere pod && !c.farGone pod

/-- A pod's partition is out of service, as far as this G9 knows. -/
def podOut (c : Chip) (pod : Nat) : Bool :=
  match c.partOfPod pod with | some z => c.outOfService z | none => c.podHere pod && c.farGone pod

/-- The lead pod of an admission: LEAD_POD where it lies in the box and is in service, else the rule's. -/
def chooseLead (c : Chip) (s : Slice) (want : Nat) : Nat :=
  if want ∈ s.pods c.grid ∧ c.podInService want then want else c.ruleLead s c.podInService

/-- HOP_LIMIT as a slice's admission leaves it: the greatest at the switches of its zones here; with none here, over the default. -/
def hopApplied (c : Chip) (s : Slice) : Nat :=
  (c.sliceZones s).foldl (fun m z =>
    ((c.zoneAgents z).filter fun u => u.unit.profile = .switch).foldl (fun m u =>
      max m (c.hopLimitFor z u.unit (c.ofZone z (s :: c.routedSlices)))) m) (min 63 (max 16 (max (hopsNeeded s) (c.mgmtRoute + 4))))

/-! Other G9s of a slice (R157 to R160). What crosses the peer channel has no layout in the spec. -/

/-- The G9s, but this one, that hold a pod of a slice or govern an OCS unit of its circuits. -/
def farG9s (c : Chip) (s : Slice) : List Nat :=
  ((s.pods c.grid ++ s.circuits.filterMap fun x => (c.ocsAttach x.ocs).map fun l => l.pod).map (· / 16)).eraseDups.filter
    fun g => g ≠ c.clusterIndex && !c.down.contains g

/-- The lead partition of another G9, as its messages name it. -/
def leadOf (g : Nat) : Nat := 0xFF000 + 16 * g

/-- A circuit as the numbers of a message. -/
def circuitNums (x : Circuit) : List Nat := [x.plane, x.axis, x.podA, x.portA, x.podB, x.portB, x.ocs, x.ocsA, x.ocsB]
/-- A circuit from the numbers of a message. -/
def circuitOf (l : List Nat) : Circuit :=
  let g := fun i => l.getD i 0
  { plane := g 0, axis := g 1, podA := g 2, portA := g 3, podB := g 4, portB := g 5, ocs := g 6, ocsA := g 7, ocsB := g 8 }

/-- What RESERVE tells another G9. -/
def reserveArgs (s : Slice) : List Nat :=
  [2, s.num, s.leadPod, s.hopLimit] ++ s.kinds ++ [s.circuits.length] ++ s.circuits.flatMap circuitNums
    ++ [s.groups.length] ++ s.groups.map (fun g => g.num) ++ s.request

/-- A request to another G9 about a slice, which is sent again up to three times (R159). -/
def sliceAsk (c : Chip) (p dst num : Nat) (args : List Nat) : Chip :=
  let m : Msg := { type := 0, tag := (c.part p).nextTag, body := args }
  (c.modPart p fun s => { s with nextTag := (s.nextTag + 1) % 2 ^ 32
                                 requests := s.requests ++ [{ dst := dst, msg := m, sentAt := c.now, ref := refKey refReserve num }] }).peerOut
    p dst "SLICE" args

/-- RESERVE goes to the other G9s of a slice, and is awaited. -/
def reserveFar (c : Chip) (n : Nat) : Chip :=
  match c.sliceOf n with
  | none => c
  | some s => (c.farG9s s).foldl (fun c g => c.sliceAsk s.coordinator (leadOf g) n (reserveArgs s)) (c.modSlice n fun s => { s with waits := c.farG9s s })

/-- The coordinator begins a stage at the other G9s of a slice, and awaits its end there. -/
def stageFar (c : Chip) (n stage : Nat) (wait : Bool := true) : Chip :=
  match c.sliceOf n with
  | none => c
  | some s =>
    if s.master.isSome then c
    else (c.farG9s s).foldl (fun c g => c.peerOut s.coordinator (leadOf g) "SLICE" [stage, n, s.leadPod, s.hopLimit, s.firstFrame])
      (if wait then c.modSlice n fun s => { s with waits := c.farG9s s } else c)

/-- A G9 tells the coordinator in another one how a stage ended. -/
def sliceEnded (c : Chip) (p dst : Nat) (e : SliceEnd) : Chip := c.peerOut p dst "SLICE_END" [e.num, e.stage, e.status, e.reason, e.detail]

/-- Every G9 of the slice has ended the stage in progress; one that is down takes no part. -/
def farEnded (c : Chip) (s : Slice) : Bool := s.waits.all fun g => c.down.contains g

/-- A slice number is given back to the manager's pool (R147). -/
def freeNumber (c : Chip) (p n : Nat) : Chip :=
  if c.isManager then { c with sliceNums := c.sliceNums.filter fun e => e.1 ≠ n } else c.peerOut p c.mgrFid "SLICE_FREE" [n]

/-! Outcomes -/

/-- The result block of R163. -/
def resultBlock (c : Chip) (s : Slice) (status : Nat) : List Nat :=
  bytesOf 2 s.num ++ [status % 256, s.reason % 256] ++ bytesOf 4 s.detail ++ bytesOf 4 s.lead
    ++ [s.wrapDenied, s.hopLimit % 256, 0, 0] ++ bytesOf 8 s.firstFrame ++ bytesOf 4 (c.now - s.startAt)
    ++ bytesOf 4 s.circuits.length ++ List.replicate 32 0 ++ s.groups.flatMap fun g => bytesOf 2 g.num

/-- Every command that waits for a slice is done again or completes: here it completes. -/
def completeAll (c : Chip) (l : List (QId × Nat)) (status detail : Nat) : Chip :=
  l.foldl (fun c k => c.complete k.1 k.2 status detail) c

/-- The port whose host memory an admission's result goes to: that of the command (R358). -/
def slicePort (c : Chip) (s : Slice) : Nat :=
  match s.cmds.head? with
  | some k => c.recordPort k.1 k.2
  | none => c.queuePort (.route s.coordinator)

/-- The static banks of the zones whose OCS plan a slice changes are loaded anew, where STATIC_AUTO is set (R127): those of its circuits' OCS units and of
its spines; a slice without circuits changes none. -/
def autoStatic (c : Chip) (s : Slice) : Chip :=
  if s.circuits.isEmpty then c
  else ((c.ocsZones s ++ c.sliceZones s).eraseDups.filter fun z => !c.outOfService z && c.reg .ROUTE_STATIC_AUTO z = 1).foldl
    (fun c z => c.startStatic z) c

/-- An admission's outcome reaches the host of the command; of one that was forwarded, the lead that forwarded it (R156). -/
def tellOutcome (c : Chip) (s : Slice) (status : Nat) (block : List Nat) : Chip :=
  match s.asker with
  | some a => c.peerOut s.coordinator a.1 "ADMIT_END" ([a.2, status, s.detail] ++ block)
  | none => (c.writeHost (c.slicePort s) s.resultAddr block).completeAll s.cmds status (if status = 0x00 then 0 else s.detail)

/-- A failed admission ends: event 0x3303 with the stage that failed, the result block, the completion. -/
def admitFailed (c : Chip) (s : Slice) (stage status : Nat) : Chip :=
  let b := c.resultBlock { s with num := if 4095 < s.num then 0 else s.num } status
  (c.henCtx s.ctx s.coordinator 0x3303 [stage, s.reason]).tellOutcome s status b

/-- The links that a slice's circuits put into the database leave it. -/
def dropCircuits (c : Chip) (s : Slice) : Chip :=
  let side := fun (c : Chip) (plane pod port : Nat) => match c.partOfPod pod with
    | none => c
    | some z => c.modTopo z fun t => { t with links := SMap.erase t.links (linkKey (.spine z plane) port) }
  s.circuits.foldl (fun c x => side (side c x.plane x.podA x.portA) x.plane x.podB x.portB) c

/-- What an admission held is given back (R158, R160): residency that slices made and none of the context's is left to use, the number, the slice. -/
def releaseSlice (c : Chip) (s : Slice) : Chip :=
  let heir := fun p => c.slices.find? fun x => x.num ≠ s.num && x.ctx = s.ctx && (c.sliceZones x).contains p
  let c := s.ctxResident.foldl (fun c p => match heir p with
    | some x => c.modSlice x.num fun x => { x with ctxResident := addOnce x.ctxResident p }
    | none => (c.scrub s.ctx p).endResidency s.ctx p) c
  let c := if s.master.isSome || 4095 < s.num then c else c.freeNumber s.coordinator s.num
  { c with slices := c.slices.filter fun x => x.num ≠ s.num }

/-- A transaction for a slice over some zones: one per G9, CLASSES 0 (R157). With no zone there is nothing to wait for. -/
def sliceTxn (c : Chip) (n : Nat) (zones : List Nat) : Chip :=
  let c := c.modSlice n fun s => { s with txnWanted := true, txnStatus := none }
  if zones.isEmpty then c.modSlice n fun s => { s with txnStatus := some 0x00 }
  else c.openTxn (match zones with | [z] => z | _ => c.leadPart) { zones := zones, classes := some 0, slice := some n }

/-- The slice's entries and groups leave the tables (R158). -/
def undoRoutes (c : Chip) (n : Nat) : Chip :=
  match c.sliceOf n with
  | none => c
  | some s => (c.modSlice n fun s => { s with undo := true, stage := 5 }).sliceTxn n (c.sliceZones s)

/-- The slice's joins go dark (R158). -/
def undoJoins (c : Chip) (n : Nat) : Chip :=
  match c.sliceOf n with
  | none => c
  | some s => (c.modSlice n fun s => { s with undo := true, stage := 3 }).sliceTxn n (c.ocsZones s)

/-- The last of R158: every reservation is released and the command completes. -/
def undoEnd (c : Chip) (s : Slice) : Chip :=
  (((c.stageFar s.num 10 false).dropCircuits s).admitFailed s s.failedAt s.status).releaseSlice s

/-- A stage ended without success: the completed stages are undone in reverse order (R158). -/
def undo (c : Chip) (n status reason detail : Nat) : Chip :=
  match c.sliceOf n with
  | none => c
  | some s =>
    if s.undo || s.master.isSome then c
    else
      let s := { s with undo := true, failedAt := s.stage, status := status, reason := reason, detail := detail, failure := none, waits := [] }
      let c := c.modSlice n fun _ => s
      if 5 ≤ s.stage then (c.stageFar n 8).undoRoutes n
      else if 3 ≤ s.stage then (c.stageFar n 9).undoJoins n
      else c.undoEnd s

/-- The undoing goes on: joins dark after the routes, then the release. -/
def undoOn (c : Chip) (s : Slice) : Chip :=
  if (s.txnWanted && s.txnStatus.isNone) || !c.farEnded s then c
  else if 5 ≤ s.stage && !s.circuits.isEmpty then (c.stageFar s.num 9).undoJoins s.num
  else c.undoEnd s

/-! CHECK and RESERVE (R157, R159, R164) -/

/-- A request that R164 leaves unchecked, or whose fields no rule admits (log 22). -/
def badRequest (c : Chip) (r : SliceReq) (len rlen : Nat) (s : Slice) : Bool :=
  let axes := [0, 1, 2]
  let ext := axes.any fun a => s.extents.getD a 0 = 0 || gridExtent c.grid a < s.extents.getD a 0
    || gridExtent c.grid a ≤ s.origin.getD a 0
  let width := axes.any fun a => 1 < s.extents.getD a 1 &&
    (List.range 16).any fun q => widthOf s q a = 0 || 8 < widthOf s q a
  let member := s.groups.any fun g => g.members.any fun f =>
    !(f ∈ s.endpoints) || !(match c.endpointPod f with | some pod => (c.linePods s g).contains pod | none => false)
  let content := 0x40 + 4 * r.endpoints + (s.groups.map fun g => 12 + 4 * g.members.length).sum
  r.magic ≠ 0x45434C53 || r.version ≠ 1 || len < content || repeats s.endpoints || member || ext || width
    || rlen < 0x40 + 2 * r.groups || r.endpoints = 0 || 262144 < r.endpoints || 4095 < r.groups
    || r.frames = 0 || 16 < r.frames || 63 < r.ctx

/-- The slice that a request block asks for, before its circuits and groups are chosen. A reserved KIND is taken as a free one of the three; an axis of
extent 1 has none, coded 0 (R149), and a RING that the extent does not close is a LINE (R150). -/
def sliceAsked (c : Chip) (p : Nat) (b : List Nat) : Slice :=
  let r := sliceReqOf b
  let eps := (List.range r.endpoints).map fun i => ofBytes ((b.drop (0x40 + 4 * i)).take 4) % 2 ^ 20
  let kind := fun a =>
    let k := r.kinds.getD a 0
    let k := if k = 3 then c.freeVal 16 % 3 else k
    if r.extents.getD a 1 ≤ 1 then 0 else if k = 1 && r.extents.getD a 1 ≠ gridExtent c.grid a then 0 else k
  let denied := fun a => r.kinds.getD a 0 = 1 && 1 < r.extents.getD a 1 && r.extents.getD a 1 ≠ gridExtent c.grid a
  { num := 0, job := r.job, ctx := r.ctx, order := c.sliceOrder, origin := r.origin, kinds := [0, 1, 2].map kind,
    extents := r.extents, width := r.width, width15 := r.width15, endpoints := eps, windowFrames := r.frames,
    firstFrame := r.first, groups := groupsOf r.groups (b.drop (0x40 + 4 * r.endpoints)),
    wrapDenied := ([0, 1, 2].filter denied).foldl (fun v a => v + 2 ^ a) 0, leadPod := r.leadPod, startAt := c.now,
    reservedAt := c.now, stageAt := c.now, coordinator := p, request := b }

/-- What a request that R164 leaves unchecked may come to hold: any box, kinds and widths, any endpoints there, any members of its groups. -/
def wildSlice (c : Chip) (s : Slice) : Slice :=
  let w := fun i => Config.wildPick c.freeCtr i
  let axes := [0, 1, 2]
  let s := { s with origin := axes.map fun a => w a % gridExtent c.grid a, extents := axes.map fun a => 1 + w (3 + a) % gridExtent c.grid a
                    kinds := axes.map fun a => w (6 + a) % 3, width := w 9 % 4096, width15 := w 10 % 4096, windowFrames := clampTo 1 16 s.windowFrames }
  let pods := s.pods c.grid
  let known := ((c.knownFids c.leadPart ++ allParts.flatMap fun z => (c.zoneAgents z).map fun u => u.fid).eraseDups).filter fun f =>
    (match c.endpointPod f with | some pod => pods.contains pod | none => false) && !(c.slices.any fun x => f ∈ x.endpoints)
  let eps := known.filter fun f => w (16 + f) % 2 = 1
  { s with endpoints := eps, groups := s.groups.zipIdx.map fun e =>
      { e.1 with members := eps.filter fun f => w (2 ^ 21 + 2 ^ 20 * e.2 + f) % 2 = 1 } }

/-- The context cannot be resident in a partition (reason 6), or the issuing port's contexts may not (R310, R311). Other G9s answer for their own. -/
def ctxRefused (c : Chip) (s : Slice) : Bool :=
  let k := c.ctx s.ctx
  !(c.sliceZones s).isEmpty && (k.state = 0 || k.state = 3 || (k.conf && c.tdiOf s.ctx ≠ 2)
    || (c.sliceZones s).any fun z => !c.residentIn s.ctx z && c.residencyRefused s.ctx z 1 64)

/-- In dual split host mode a pod of the box lies with a partition of this G9 that the issuing port, or the context's, does not own (R156). -/
def unowned (c : Chip) (s : Slice) (port : Nat) : Bool :=
  c.reg .DEVICE_HOST_CFG = 3 && (c.sliceZones s).any fun z => c.ownerPort z ≠ port || c.ownerPort z ≠ (c.ctx s.ctx).port

/-- The failures of CHECK and RESERVE: status, reason, detail. A forwarded command's host ports are not checked here. -/
def admitFails (c : Chip) (s : Slice) (port : Option Nat) : List (Nat × Nat × Nat) :=
  let pods := s.pods c.grid
  let bad := s.endpoints.find? fun f =>
    !(match c.endpointPod f with | some pod => pods.contains pod | none => false) || c.slices.any fun x => f ∈ x.endpoints
  let full := pods.any fun pod => 8 ≤ (c.slices.filter fun x => pod ∈ x.pods c.grid).length
  let numbers := c.slices.map (fun x => x.num) ++ c.sliceNums.map fun e => e.1
  let used := (c.slices.any fun x => x.job = s.job) || c.sliceNums.any fun e => e.2.1 = s.job
  let opt := fun (b : Bool) (x : Nat × Nat × Nat) => if b then [x] else []
  opt (match port with | some q => c.unowned s q | none => false) (0x08, 0, 0)
    ++ (match pods.find? c.podOut with | some pod => [(0x09, 0, pod)] | none => [])
    ++ opt (s.job = 0xFFFF || used || full || (c.isManager && (lowestNum numbers).isNone)) (0x0B, 5, 0)
    ++ (match bad with | some f => [(0x0B, 1, f)] | none => [])
    ++ (match pods.find? fun pod => !c.podHere pod with | some pod => [(0x0B, 2, pod)] | none => [])
    ++ opt (c.ctxRefused s) (0x0B, 6, 0)
    ++ opt ((c.numberGroups s).isNone) (0x0B, 7, 0)
    ++ opt ((c.sliceZones s).any fun z => 4 ≤ c.stageOf z) (0x0B, 8, 0)
    ++ opt ((c.pickCircuits s).isNone) (0x0B, 3, 0)

/-- What a slice holds in this G9 from RESERVE on: residency where the context has none yet, its circuits, groups and endpoints. -/
def hold (c : Chip) (s : Slice) : Chip :=
  let zones := (c.sliceZones s).filter fun z => !c.residentIn s.ctx z
  let c := zones.foldl (fun c z => c.makeResident s.ctx z 1 64) c
  { c with slices := c.slices ++ [{ s with ctxResident := zones, stage := 2, reservedAt := c.now, stageAt := c.now }], sliceOrder := c.sliceOrder + 1 }

/-- RESERVE: number, circuits, groups, residency and lead are held together. A worker asks the manager for the number and has one of its own above 4,095
until then; the other G9s are asked once the number is known. -/
def reserve (c : Chip) (s : Slice) (want : Nat) : Chip :=
  let n := if c.isManager then (lowestNum (c.slices.map (fun x => x.num) ++ c.sliceNums.map fun e => e.1)).getD 1 else 4096 + c.sliceOrder
  let pod := c.chooseLead s want
  let s := { s with num := n, circuits := (c.pickCircuits s).getD [], groups := (c.numberGroups s).getD [], leadPod := pod, lead := 0xFF000 + pod }
  let c := c.hold { s with hopLimit := c.hopApplied s }
  if c.isManager then c.reserveFar n
  else (c.modSlice n fun s => { s with waits := [c.mgr] }).sliceAsk s.coordinator c.mgrFid n [0, n, s.job]

/-- CHECK and RESERVE of an admission that this G9 coordinates; false where it must wait for a discovery run or transaction of a zone of the box. -/
def admitRun (c : Chip) (s : Slice) (port : Option Nat) (want : Nat) : Chip × Bool :=
  let busy := (c.sliceZones s).any fun z => (c.part z).txn.isSome || (c.part z).topo.run.isSome || (c.part z).restarting
  if busy then (c, false)
  else
    let fails := c.admitFails s port
    let st := worst (fails.map fun f => f.1)
    match fails.find? fun f => f.1 = st with
    | some f => (c.admitFailed { s with reason := f.2.1, detail := f.2.2 } 1 st, true)
    | none => (c.reserve s want, true)

/-- ADMIT (R156, R157). The command holds its queue while a zone of the box has a discovery run or a transaction open. What R164 leaves unchecked ends with
any status, or holds whatever can be had. -/
def admitSlice (c : Chip) (p tag : Nat) (d : Desc) : Chip :=
  let i := QId.route p
  if p ≠ c.leadPart then c.drawn.complete i tag c.freeStatus
  else
    let port := c.queuePort i
    let b := c.hostBytes port (d.at 0x10 8) (d.at 0x18 4)
    let r := sliceReqOf b
    let fetched := match c.cmdOf i tag with | some x => x.fetched | none => c.now
    let s := { c.sliceAsked p b with cmds := [(i, tag)], resultAddr := d.at 0x20 8, startAt := fetched }
    let c := if r.kinds.any (· = 3) then c.drawn else c
    if (c.part p).forwards.contains (i, tag) then c
    else if c.badRequest r (d.at 0x18 4) (d.at 0x28 4) s then
      let st := c.freeStatus
      let s := c.wildSlice s
      let ends := Config.wildPick c.freeCtr 15 % 2 = 0 || !(c.admitFails s none).isEmpty
      let c := c.drawn
      if ends then c.complete i tag st else c.reserve s s.leadPod
    else if !c.isManager && (s.pods c.grid).any fun pod => pod / 16 ≠ c.clusterIndex then
      if c.unowned s port then c.admitFailed s 1 0x08
      else (c.modPart p fun x => { x with forwards := x.forwards ++ [(i, tag)] }).peerOut p c.mgrFid "ADMIT" ([tag, d.at 0x28 4] ++ b)
    else (c.admitRun s (some port) r.leadPod).1

/-- A forwarded ADMIT at the manager's lead: admitted from here, or held while a zone of the box here is busy. -/
def admitFrom (c : Chip) (src : Nat) (a : AdmitNews) : Chip :=
  let s := { c.sliceAsked c.leadPart a.request with asker := some (src, a.tag) }
  let c := if (sliceReqOf a.request).kinds.any (· = 3) then c.drawn else c
  if c.slices.any fun x => x.asker = some (src, a.tag) then c
  else if c.badRequest (sliceReqOf a.request) a.request.length a.rlen s then c.drawn.tellOutcome s c.freeStatus []
  else match c.admitRun s none (sliceReqOf a.request).leadPod with
    | (c, true) => c
    | (c, false) => { c with heldAdmits := c.heldAdmits ++ [(src, a)] }

/-- Forwarded admissions that waited go on. -/
def heldOn (c : Chip) : Chip :=
  c.heldAdmits.foldl (fun c e => c.admitFrom e.1 e.2) { c with heldAdmits := [] }

/-! LIGHT to DONE -/

/-- A trained circuit is a link of the spines at its ends in this G9; each end writes the D of its own direction (R51, R157). -/
def lightCircuit (c : Chip) (x : Circuit) (delayA delayB : Nat) : Chip :=
  let side := fun (c : Chip) (pod port far farPort delay : Nat) =>
    match c.partOfPod pod with
    | none => c
    | some z =>
      let u := UnitId.spine z x.plane
      let fu : Option UnitId := (c.partOfPod far).map fun y => UnitId.spine y x.plane
      let l : TopoLink := { near := u, port := port, far := fu, farPort := farPort, delay := delay, d := AC.delaySlots delay }
      let c := c.modTopo z fun t => { t with links := SMap.insert t.links (linkKey u port) l }
      c.onAgent u fun a => (a.setPReg .APORT_DELAY_NS port delay).setPReg .APORT_DELAY_SLOTS port (AC.delaySlots delay)
  side (side c x.podA x.portA x.podB x.portB delayA) x.podB x.portB x.podA x.portA delayB

/-- Circuits in the order of R152, with the delays measured from end A and from end B of each. -/
def lightAll (c : Chip) (n : Nat) (l : List Circuit) (delays : List Nat) : Chip :=
  let c := l.zipIdx.foldl (fun c e => c.lightCircuit e.1 (delays.getD (2 * e.2) 0) (delays.getD (2 * e.2 + 1) 0)) c
  c.modSlice n fun s => { s with circuits := s.circuits.map fun x => { x with trained := true } }

/-- The transaction that a stage waits for ended well; OK or DEGRADED. -/
def txnGood (s : Slice) : Bool := s.txnStatus = some 0x00 || s.txnStatus = some 0x0D

/-- LIGHT begins: the joins are written (R157). -/
def beginLight (c : Chip) (n : Nat) : Chip :=
  match c.sliceOf n with
  | none => c
  | some s => (c.modSlice n fun s => { s with stage := 3, stageAt := c.now }).sliceTxn n (c.ocsZones s)

/-- TRAIN begins: the circuits are lit. -/
def beginTrain (c : Chip) (n : Nat) : Chip := c.modSlice n fun s => { s with stage := 4, state := 1, txnWanted := false, stageAt := c.now }

/-- ROUTE begins: notice groups, and HOP_LIMIT at the switches. A slice of one pod without groups has nothing to do. -/
def beginRoute (c : Chip) (n : Nat) : Chip :=
  match c.sliceOf n with
  | none => c
  | some s =>
    let one := s.positions.length = 1
    let skip := one && s.groups.isEmpty
    let notice := if skip then [] else c.noticeGroups s
    let c := c.modSlice n fun s => { s with stage := 5, notice := notice, txnWanted := false, txnStatus := none, stageAt := c.now }
    if skip then c.modSlice n fun s => { s with txnWanted := true, txnStatus := some 0x00 }
    else if one then c
    else (c.sliceZones s).foldl (fun c z => c.setHops z (s :: c.routedSlices) false (refKey refSlice n)) c

/-- The job of an admitted slice in a zone. -/
def enterJob (c : Chip) (s : Slice) (first z : Nat) : Chip :=
  let j : Job := { job := s.job, ctx := s.ctx, slice := s.num, order := s.order, frames := s.windowFrames, first := first,
                   endpoints := s.endpoints }
  let j := { j with span := c.spanPin j }
  let c := c.modPart z fun q => { q with jobs := q.jobs.filter (fun x => x.job ≠ s.job) ++ [j] }
  let c := c.installHeld z s.job
  let c := match c.jobOf z s.job with | some j => c.writeFirstSeq z j | none => c
  c.publishLearn z

/-- A slice is admitted here: the job enters its zones, and the static banks of changed OCS plans are loaded (R148, R157). -/
def enterSlice (c : Chip) (s : Slice) (first : Nat) : Chip :=
  let s := { s with firstFrame := first, admittedAt := c.now, state := 2, stage := 6, txnWanted := false, waits := [], asker := none }
  let c := c.modSlice s.num fun _ => s
  ((c.sliceZones s).foldl (fun c z => c.enterJob s first z) c).autoStatic s

/-- DONE: the grid is fixed, the job enters its zones, the result and the completion are written, event 0x3302 (R148, R157). -/
def admitDone (c : Chip) (s : Slice) : Chip :=
  let soon := ceilDiv (c.now + 1000000) 131072
  let first := if s.firstFrame = 0 then soon
    else if soon ≤ s.firstFrame then s.firstFrame
    else s.firstFrame + ceilDiv (soon - s.firstFrame) s.windowFrames * s.windowFrames
  let s := { s with firstFrame := first }
  let r := c.resultBlock s 0x00
  let c := (c.modSlice s.num fun _ => { s with result := r }).stageFar s.num 7 false
  let c := c.enterSlice { s with result := r, cmds := [] } first
  (c.henAny s.coordinator 0x3302 s.ctx).tellOutcome s 0x00 r

/-- WINDOW_FRAMES goes to every endpoint of the slice (R148). -/
def writeFrames (c : Chip) (s : Slice) : Chip :=
  (c.sliceZones s).foldl (fun c z =>
    (s.endpoints.filter fun f => c.endpointPod f = some (c.podOf z)).foldl (fun c f =>
      (c.pask z f 0x04 [0x4104, 1, s.windowFrames] (refKey refSlice s.num)).pask z f 0x04 [0x4020, 1, 0x80000000]
        (refKey refSlice s.num)) c) c

/-- No request of the slice is outstanding in its zones. -/
def sliceSettled (c : Chip) (s : Slice) : Bool := (c.sliceZones s).all fun z => c.settled z (refKey refSlice s.num)

/-- WINDOW_FRAMES is written: the last step of ROUTE. -/
def beginFrames (c : Chip) (n : Nat) : Chip :=
  match c.sliceOf n with
  | none => c
  | some s => (c.modSlice n fun s => { s with stage := 6, txnWanted := false, stageAt := c.now }).writeFrames s

/-- The stage in progress at a G9 that another one coordinates, as its messages number it: 8 and 9 undo it. -/
def stageCode (s : Slice) : Nat := if s.undo then (if s.stage = 5 then 8 else 9) else s.stage

/-- The stage in progress has ended at this G9, whose slice another one coordinates: the circuits' D is written at the end of TRAIN, HOP_LIMIT goes before
the transaction of ROUTE, and the coordinator hears of the end. -/
def sliceReport (c : Chip) (s : Slice) (dst : Nat) (delays : List Nat) : Chip :=
  let st := if s.txnWanted && !txnGood s then s.txnStatus.getD 0x01 else 0x00
  let e : SliceEnd := { num := s.num, stage := stageCode s, status := st, reason := if st = 0x0B then 8 else 0 }
  if (s.txnWanted && s.txnStatus.isNone) || !c.sliceSettled s then c
  else if s.stage = 5 && !s.undo && !s.txnWanted then c.sliceTxn s.num (c.sliceZones s)
  else (if s.stage = 4 then c.lightAll s.num s.circuits delays else c).sliceEnded s.coordinator dst e

/-- A partition of the slice that is out of service: its pod. -/
def sliceOut (c : Chip) (s : Slice) : Option Nat := (s.pods c.grid).find? c.podOut

/-- The next stage of an admission, once the stage in progress has ended everywhere (R157). A supply stage before LIGHT refuses it, as one that lets no
transaction open does later (R159). -/
def admitNext (c : Chip) (n : Nat) (delays : List Nat) : Chip :=
  match c.sliceOf n with
  | none => c
  | some s =>
    if s.state = 2 || 11 ≤ s.stage then c
    else match s.master, c.sliceOut s, s.failure with
      | some f, _, _ => c.sliceReport s f delays
      | none, out, failure =>
        if s.undo then c.undoOn s
        else match out, failure with
          | some pod, _ => c.undo n 0x09 0 pod
          | none, some f => c.undo n f.1 f.2.1 f.2.2
          | none, none =>
            let waiting := s.txnWanted && s.txnStatus.isNone
            let failed := s.txnWanted && !waiting && !txnGood s
            let st := s.txnStatus.getD 0x01
            if waiting then c
            else if failed then c.undo n st (if st = 0x0B then 8 else 0) 0
            else if s.stage = 5 && (!c.sliceSettled s || !s.txnWanted) then
              if c.sliceSettled s then c.sliceTxn n (c.sliceZones s) else c
            else if !c.farEnded s then c
            else match s.stage with
              | 2 =>
                if (c.sliceZones s).any fun z => 4 ≤ c.stageOf z then c.undo n 0x0B 8 0
                else if s.positions.length = 1 then (c.stageFar n 5).beginRoute n
                else (c.stageFar n 3).beginLight n
              | 3 => (c.stageFar n 4).beginTrain n
              | 4 => ((c.lightAll n s.circuits delays).stageFar n 5).beginRoute n
              | 5 => (c.stageFar n 6).beginFrames n
              | 6 => if c.sliceSettled s then c.admitDone s else c
              | _ => c

/-- A reservation not confirmed within 1 s is released (R157). -/
def reserveExpiry (c : Chip) (n : Nat) : Chip :=
  match c.sliceOf n with
  | none => c
  | some s =>
    if s.stage = 2 && !s.undo && s.reservedAt + 1000000000 ≤ c.now then
      if s.master.isSome then c.releaseSlice s else c.undo n 0x01 0 0
    else c

/-- A circuit that has not trained within the TRAIN bound fails the admission: reason 4, DETAIL the spine port (R157, R159). -/
def trainTimeout (c : Chip) (n i : Nat) : Chip :=
  match c.sliceOf n with
  | none => c
  | some s =>
    let bound := if (s.pods c.grid).all fun pod => pod / 16 = c.clusterIndex then 237000000 else 252000000
    match s.circuits[i]? with
    | none => c
    | some x => if s.stage ≠ 4 || s.undo || c.now < s.startAt + bound then c
      else match s.master with
        | some f => c.sliceEnded s.coordinator f { num := n, stage := 4, status := 0x0B, reason := 4, detail := x.portA }
        | none => c.undo n 0x0B 4 x.portA

/-- A partition that was reset during an admission asks the coordinator for the outcome (R159). -/
def outcomePoll (c : Chip) (p n : Nat) : Chip :=
  match c.sliceOf n with
  | none => c
  | some s =>
    match s.master with
    | some f => if s.state = 2 then c else c.peerOut p f "OUTCOME" [n]
    | none => if s.state = 2 || p = s.coordinator then c else c.peerOut p (c.partFid s.coordinator) "OUTCOME" [n]

/-! Teardown (R160) -/

/-- STOP: no further window of the job is placed, the templates are cleared at the endpoints, a running analysis is abandoned. -/
def beginStop (c : Chip) (n : Nat) : Chip :=
  match c.sliceOf n with
  | none => c
  | some s =>
    let c := c.modSlice n fun s => { s with state := 3, stage := 11, stageAt := c.now, txnWanted := false, txnStatus := none, undo := false }
    ((c.sliceZones s).filter fun q => !c.outOfService q).foldl (fun c z =>
      let c := c.modJob z s.job fun j => { j with stopped := true }
      match c.jobOf z s.job with
      | some j =>
        let c := c.clearTemplates z j
        if j.advice.running.isSome then
          ((c.modAdvice z s.job fun a => { a with running := none }).jcount z s.job .LEARN_ANALYSES_FAILED 1).setReg
            .LEARN_ANALYSING z 0 0xFFFF
        else c
      | none => c) c

/-- A teardown begins here, and at the slice's other G9s; where another G9 coordinates the slice, that one is asked for it. -/
def beginTeardown (c : Chip) (n : Nat) (force : Bool) (cmds : List (QId × Nat)) : Chip :=
  match c.sliceOf n with
  | none => c
  | some s =>
    match s.master with
    | some f => (cmds.foldl (fun c k => c.modPart s.coordinator fun x => { x with forwards := x.forwards ++ [k] }) c).peerOut s.coordinator f "TEARDOWN"
        [(match cmds with | k :: _ => k.2 | [] => 0), n, ofBool force]
    | none => ((c.modSlice n fun s => { s with force := force, cmds := cmds }).stageFar n 11).beginStop n

/-- TEARDOWN: of a slice that is not admitted it changes nothing; of one being admitted it waits (R159, R160). -/
def teardown (c : Chip) (p tag : Nat) (d : Desc) : Chip :=
  let n := d.at 0x10 2
  let i := QId.route p
  match c.sliceOf n with
  | none => c.complete i tag 0x00
  | some s =>
    if s.state = 3 && s.master.isNone then c.modSlice n fun s => { s with cmds := addOnce s.cmds (i, tag) }
    else if s.state = 2 && !(c.part s.coordinator).forwards.contains (i, tag) then c.beginTeardown n (bit (d.at 0x12 2) 0) [(i, tag)]
    else c

/-- The end of the last window of a slice that has a slot list. -/
def lastListEnd (c : Chip) (s : Slice) : Nat :=
  (c.sliceZones s).foldl (fun m z => match c.jobOf z s.job with
    | some j => ((j.wins.filter fun x => !x.lead && !x.sent.isEmpty).map fun x => (x.frame + j.frames) * 131072).foldl max m
    | none => m) 0

/-- FLOW_TIMEOUT frames, the longest that an endpoint of the slice has set. -/
def quietFrames (c : Chip) (s : Slice) : Nat :=
  (c.sliceZones s).foldl (fun m z => (c.zoneAgents z).foldl (fun m u =>
    if u.fid ∈ s.endpoints then max m ((c.agent u.unit).regs.get .ACONTROL_FLOW_TIMEOUT 0 0) else m) m) 0

/-- QUIET begins. -/
def beginQuiet (c : Chip) (n : Nat) : Chip := c.modSlice n fun s => { s with stage := 12, stageAt := c.now }

/-- UNROUTE begins: HOP_LIMIT lowered, then the tables without the slice. -/
def beginUnroute (c : Chip) (n : Nat) : Chip :=
  match c.sliceOf n with
  | none => c
  | some s =>
    let c := c.modSlice n fun s => { s with stage := 13, stageAt := c.now }
    let zones := (c.sliceZones s).filter fun q => !c.outOfService q
    (zones.foldl (fun c z => c.setHops z (c.routedSlices.filter fun x => x.num ≠ n) true 0) c).sliceTxn n zones

/-- DARK begins: the joins leave the maps. -/
def beginDark (c : Chip) (n : Nat) : Chip :=
  match c.sliceOf n with
  | none => c
  | some s => (c.modSlice n fun s => { s with stage := 14, stageAt := c.now }).sliceTxn n (if s.circuits.isEmpty then [] else c.ocsZones s)

/-- RELEASE: fences of the job lifted at the agents, retirements done, the job leaves, everything is given back, event 0x3304. -/
def endTeardown (c : Chip) (s : Slice) : Chip :=
  let zones := (c.sliceZones s).filter fun q => !c.outOfService q
  let c := zones.foldl (fun c z =>
    let fs := (c.part z).fences.filter fun f => f.job = s.job
    let c := (fs.filter fun f => !f.lifted).foldl (fun c f => c.unfenceZone z s.job f.fid f.f) c
    let c := (fs.filter fun f => f.retire).foldl (fun c f => c.retireFid z f.fid) c
    let c := c.modPart z fun q => { q with fences := q.fences.filter (fun f => f.job ≠ s.job),
                                           jobs := q.jobs.filter (fun j => j.job ≠ s.job),
                                           records := q.records.filter fun r => r.2.1 ≠ s.job }
    (c.publishFences z).publishLearn z) c
  let ocs := (s.circuits.map fun x => x.ocs).eraseDups
  let cmds := s.cmds
  let c := (((c.stageFar s.num 15 false).dropCircuits s).autoStatic s).releaseSlice s
  let empty := ocs.filter fun n => !(c.slices.any fun x => x.circuits.any fun y => y.ocs = n)
  let c := ((c.beginVerify empty).henAny s.coordinator 0x3304 s.ctx).completeAll cmds 0x00 0
  match s.asker with
  | some a => c.peerOut s.coordinator a.1 "ANSWER" [a.2, 0]
  | none => c

/-- A stage of a teardown that another G9 coordinates has ended here: that one hears of it. -/
def tearReport (c : Chip) (s : Slice) (dst : Nat) : Chip := c.sliceEnded s.coordinator dst { num := s.num, stage := s.stage, status := 0x00 }

/-- The next stage of a teardown, once the stage in progress has ended everywhere (R160). A transaction that fails does not hold it. -/
def teardownNext (c : Chip) (n : Nat) : Chip :=
  match c.sliceOf n with
  | none => c
  | some s =>
    let waiting := s.txnWanted && s.txnStatus.isNone
    let stopping := s.stage = 11 && c.now < c.lastListEnd s
    if s.state ≠ 3 || waiting || stopping then c
    else match s.master with
      | some f => if s.stage = 12 then c else c.tearReport s f
      | none =>
        if !c.farEnded s then c
        else match s.stage with
          | 11 => if s.force then (c.stageFar n 13).beginUnroute n else (c.stageFar n 12).beginQuiet n
          | 13 => (c.stageFar n 14).beginDark n
          | 14 => c.endTeardown s
          | _ => c

/-- QUIET ends after FLOW_TIMEOUT frames (R160). -/
def quietExpiry (c : Chip) (n : Nat) : Chip :=
  match c.sliceOf n with
  | none => c
  | some s =>
    if s.state = 3 ∧ s.stage = 12 ∧ s.stageAt + c.quietFrames s * 131072 ≤ c.now then
      match s.master with
      | some f => c.tearReport s f
      | none => if c.farEnded s then (c.stageFar n 13).beginUnroute n else c
    else c

/-! QUERY_SLICE and MOVE_LEAD -/

/-- QUERY_SLICE: the request, the result and STATE; CAPACITY where they do not fit or the slice is unknown. -/
def querySlice (c : Chip) (p tag : Nat) (d : Desc) : Chip :=
  let i := QId.route p
  match c.sliceOf (d.at 0x10 2) with
  | none => c.complete i tag 0x0B
  | some s =>
    let b := s.request ++ (if s.result.isEmpty then c.resultBlock s 0x00 else s.result) ++ bytesOf 4 s.state
    if d.at 0x20 4 < b.length then c.complete i tag 0x0B
    else (c.writeHost (c.queuePort i) (d.at 0x18 8) b).complete i tag 0x00

/-- The lead role of a slice moves; a running analysis is abandoned at the old lead (R154, R253). -/
def moveRole (c : Chip) (n pod : Nat) : Chip :=
  match c.sliceOf n with
  | none => c
  | some s =>
    let c := match c.partOfPod s.leadPod with
      | some z => (match c.jobOf z s.job with
        | some j => if j.advice.running.isSome then
            ((c.modAdvice z s.job fun a => { a with running := none }).jcount z s.job .LEARN_ANALYSES_FAILED 1).setReg
              .LEARN_ANALYSING z 0 0xFFFF
          else c
        | none => c)
      | none => c
    let c := (c.modSlice n fun s => { s with leadPod := pod, lead := 0xFF000 + pod }).stageFar n 16 false
    c.henAny (match c.partOfPod pod with | some z => z | none => c.leadPart) 0x3305 s.ctx

/-- MOVE_LEAD: to a pod of the box whose partition is in service. -/
def moveLead (c : Chip) (p tag : Nat) (d : Desc) : Chip :=
  let i := QId.route p
  let pod := d.at 0x12 2
  match c.sliceOf (d.at 0x10 2) with
  | none => c.complete i tag 0x0B
  | some s =>
    if (s.pods c.grid).contains pod && c.podInService pod then (c.moveRole s.num pod).complete i tag 0x00
    else c.complete i tag 0x0B

/-- The lead role moves off a partition that goes out of service (R154). -/
def leadsLeave (c : Chip) (p : Nat) : Chip :=
  (c.slices.filter fun s => s.lead = c.partFid p).foldl (fun c s => c.moveRole s.num (c.ruleLead s c.podInService)) c

/-- Slices that the partition coordinates and that were not yet admitted are undone with ABORT_RESET (R159); an undoing goes on from the step it was at. -/
def undoCut (c : Chip) (p : Nat) : Chip :=
  (c.slices.filter fun s => s.coordinator = p && s.state < 2 && s.master.isNone).foldl (fun c s =>
    if !s.undo then c.undo s.num 0x05 s.reason s.detail
    else if 5 ≤ s.stage then (c.stageFar s.num 8).undoRoutes s.num
    else if 3 ≤ s.stage then (c.stageFar s.num 9).undoJoins s.num
    else c.undoEnd s) c

/-! What a peer message says of slices (R156 to R160) -/

/-- RESERVE ordered by the coordinator: what this G9's partitions refuse, as at CHECK. -/
def holdFails (c : Chip) (s : Slice) : List (Nat × Nat × Nat) :=
  let zones := c.sliceZones s
  let mine := s.endpoints.filter fun f => match c.endpointPod f with | some pod => pod / 16 = c.clusterIndex | none => false
  let opt := fun (b : Bool) (x : Nat × Nat × Nat) => if b then [x] else []
  let held := c.slices.flatMap fun x => x.circuits
  let near := fun (x : Circuit) => (x.podA / 16 = c.clusterIndex && !c.portFree held x.plane x.podA x.portA)
    || (x.podB / 16 = c.clusterIndex && !c.portFree held x.plane x.podB x.portB)
  let taken := s.groups.any fun g => ((c.linePods s g).filter fun pod => pod / 16 = c.clusterIndex).any fun pod => g.num ∈ c.groupNums [pod]
  (match zones.find? c.outOfService with | some z => [(0x09, 0, c.podOf z)] | none => [])
    ++ opt ((c.slices.any fun x => x.job = s.job) || (zones.any fun z => 8 ≤ (c.ofZone z c.slices).length)) (0x0B, 5, 0)
    ++ (match mine.find? fun f => c.slices.any fun x => f ∈ x.endpoints with | some f => [(0x0B, 1, f)] | none => [])
    ++ opt (c.ctxRefused s) (0x0B, 6, 0)
    ++ opt taken (0x0B, 7, 0)
    ++ opt (zones.any fun z => 4 ≤ c.stageOf z) (0x0B, 8, 0)
    ++ opt (s.circuits.any near) (0x0B, 3, 0)

/-- RESERVE at another G9 of the slice: all or nothing. -/
def orderReserve (c : Chip) (p src : Nat) (o : SliceOrder) : Chip :=
  if (c.sliceOf o.num).isSome then c.sliceEnded p src { num := o.num, stage := 2, status := 0x00 }
  else
    let s := c.sliceAsked p o.request
    let s := { s with num := o.num, kinds := o.kinds, circuits := o.circuits.map circuitOf, leadPod := o.leadPod, lead := 0xFF000 + o.leadPod,
                      groups := s.groups.zipIdx.map fun g => { g.1 with num := o.groups.getD g.2 0 }, hopLimit := o.hopLimit, master := some src }
    let fails := c.holdFails s
    let st := worst (fails.map fun f => f.1)
    match fails.find? fun f => f.1 = st with
    | some f => c.sliceEnded p src { num := o.num, stage := 2, status := st, reason := f.2.1, detail := f.2.2 }
    | none => (c.hold s).sliceEnded p src { num := o.num, stage := 2, status := 0x00 }

/-- A stage that the coordinator orders. A slice that is not held here any more has nothing left to undo or tear down, and no admission to go on with. -/
def takeOrder (c : Chip) (p src : Nat) (o : SliceOrder) : Chip :=
  if o.stage = 2 then c.orderReserve p src o
  else match c.sliceOf o.num with
    | none => c.sliceEnded p src { num := o.num, stage := o.stage, status := if o.stage < 8 then 0x05 else 0x00 }
    | some s =>
      if s.master.isNone then c
      else match o.stage with
        | 3 => c.beginLight o.num
        | 4 => c.beginTrain o.num
        | 5 => c.beginRoute o.num
        | 6 => c.beginFrames o.num
        | 7 => c.enterSlice s o.first
        | 8 => c.undoRoutes o.num
        | 9 => c.undoJoins o.num
        | 10 => (c.dropCircuits s).releaseSlice s
        | 11 => c.beginStop o.num
        | 12 => c.beginQuiet o.num
        | 13 => c.beginUnroute o.num
        | 14 => c.beginDark o.num
        | 15 => c.endTeardown s
        | 16 => c.modSlice o.num fun s => { s with leadPod := o.leadPod, lead := 0xFF000 + o.leadPod }
        | _ => c

/-- A G9 of a slice has ended the stage in progress, or failed it. -/
def takeEnd (c : Chip) (p src : Nat) (e : SliceEnd) : Chip :=
  match c.sliceOf e.num with
  | none => c
  | some s =>
    if s.master.isSome || stageCode s ≠ e.stage then c
    else
      let c := c.modPart p fun x => { x with requests := x.requests.filter fun r => !(r.ref = refKey refReserve e.num && r.dst / 16 = src / 16) }
      c.modSlice e.num fun s => { s with waits := s.waits.filter (fun g => leadOf g / 16 ≠ src / 16)
                                         failure := if e.status = 0x00 || e.status = 0x0D || s.undo || s.state = 3 then s.failure
                                           else some (e.status, e.reason, e.detail) }

/-- The manager's lead gives a slice number: none where JOB is admitted already or no number is free (R147). -/
def giveNumber (c : Chip) (p src : Nat) (e : Nat × Nat) : Chip :=
  let used := (c.slices.map fun x => x.num) ++ c.sliceNums.map fun x => x.1
  let taken := (c.slices.any fun x => x.job = e.2) || c.sliceNums.any fun x => x.2.1 = e.2 && x.2.2 ≠ src
  match c.sliceNums.find? fun x => x.2.1 = e.2 && x.2.2 = src, lowestNum used with
  | some x, _ => c.peerOut p src "SLICE_NUM" [e.1, x.1]
  | none, some n =>
    if taken then c.peerOut p src "SLICE_NUM" [e.1, 0]
    else ({ c with sliceNums := c.sliceNums ++ [(n, e.2, src)] }).peerOut p src "SLICE_NUM" [e.1, n]
  | none, none => c.peerOut p src "SLICE_NUM" [e.1, 0]

/-- The manager's number arrives: the slice takes it, and its other G9s are asked; a slice that has gone gives it back. -/
def takeNumber (c : Chip) (p : Nat) (e : Nat × Nat) : Chip :=
  let c := c.modPart p fun x => { x with requests := x.requests.filter fun r => r.ref ≠ refKey refReserve e.1 }
  match c.sliceOf e.1 with
  | none => if e.2 = 0 || (c.sliceOf e.2).isSome then c else c.freeNumber p e.2
  | some _ =>
    if e.2 = 0 then c.modSlice e.1 fun s => { s with waits := [], failure := some (0x0B, 5, 0) }
    else (c.modSlice e.1 fun s => { s with num := e.2, waits := [] }).reserveFar e.2

/-- The manager's answer to a forwarded ADMIT: the result block and the completion. -/
def takeOutcome (c : Chip) (p : Nat) (o : AdmitOutcome) : Chip :=
  let i := QId.route p
  if !(c.part p).forwards.contains (i, o.tag) then c
  else
    let c := c.modPart p fun s => { s with forwards := s.forwards.filter (· ≠ (i, o.tag)) }
    match c.cmdOf i o.tag with
    | some x => (c.writeHost (c.recordPort i o.tag) (x.d.at 0x20 8) o.result).complete i o.tag o.status o.detail
    | none => c

/-- A TEARDOWN that another G9 of the slice forwards to its coordinator: begun here, it is answered at once where nothing is left to tear down. -/
def takeTeardown (c : Chip) (p src : Nat) (e : Nat × Nat × Bool) : Chip :=
  match c.sliceOf e.2.1 with
  | none => c.peerOut p src "ANSWER" [e.1, 0]
  | some s =>
    let c := c.modSlice e.2.1 fun s => { s with asker := some (src, e.1) }
    if s.state = 2 then c.beginTeardown e.2.1 e.2.2 s.cmds else c

/-- What a partition hears of slices over the peer channel. -/
def sliceNews (c : Chip) (p src : Nat) (n : SliceNews) : Chip :=
  let c := n.services.foldl (fun (c : Chip) e => { c with farOut := if e.2 then c.farOut.filter (· ≠ e.1) else addOnce c.farOut e.1 }) c
  let c := n.ends.foldl (fun c e => c.takeEnd p src e) c
  let c := n.numbers.foldl (fun c e => c.takeNumber p e) c
  let c := n.outcomes.foldl (fun c o => c.takeOutcome p o) c
  let c := n.orders.foldl (fun c o => c.takeOrder p src o) c
  let c := n.teardowns.foldl (fun c e => c.takeTeardown p src e) c
  if !c.isManager || p ≠ c.leadPart then c
  else
    let c := n.numbersAsked.foldl (fun c e => c.giveNumber p src e) c
    let c : Chip := { c with sliceNums := c.sliceNums.filter fun e => !(n.numbersFreed.contains e.1 && e.2.2 / 16 = src / 16) }
    n.admits.foldl (fun c a => c.admitFrom src a) c

/-- What a partition sends once its agents have been asked (R136): it undoes the admissions that its reset cut, and resynchronises (R301). Forwarded
admissions that waited for a zone are looked at again. -/
def restartOn (c : Chip) (p : Nat) : Chip :=
  let s := c.part p
  let c := if s.cutDue && (!s.restarting || s.queried) then (c.modPart p fun s => { s with cutDue := false }).undoCut p else c
  (c.heldOn).resyncOn p

end Chip

end Sys2Proof.Machine
end

