-- ==== Sys2Proof/Machine/Time.lean ====
section
/-! DEFINITION. Bellwether across a cluster (R382 to R388): time parents and legs, sets, HOLDOVER, steps, SET_TIME and PPS. Offsets are
signed, in sixteenths of a tick. -/

namespace Sys2Proof.Machine

open Sys2Proof

/-- An integer divided by 16, to the nearest, halves up. -/
def sixteenth (i : Int) : Int := (i + 8) / 16

/-- A signed number as a field of `w` bits, saturating. -/
def satField (w : Nat) (i : Int) : Nat :=
  let m : Int := 2 ^ (w - 1)
  toField w (if i < -m then -m else if m - 1 < i then m - 1 else i)

namespace Chip

/-- Changes the time keeping. -/
def modTime (c : Chip) (f : TimeKeep → TimeKeep) : Chip := { c with time := f c.time }

/-! The tree (R383) -/

/-- The cluster indexes of the G9s on the ring of port 44. -/
def ringG9s (c : Chip) : List Nat := sortBy (fun a b => a ≤ b) (addOnce c.clusters c.clusterIndex)

/-- The time parent of a G9 of the ring with its port: the neighbour one step nearer the master, port 43 where both are. None for the
master, and where the master is not on the ring. -/
def parentOf (c : Chip) (g : Nat) : Option (Nat × Nat) :=
  let l := c.ringG9s
  let m := c.mgr
  if g = m ∨ !(l.contains m) then none
  else
    let n := l.length
    let f := ringSteps l g m
    let i := (l.findIdx? (· = g)).getD 0
    if f < n - f then some (l.getD ((i + 1) % n) 0, 44) else some (l.getD ((i + n - 1) % n) 0, 43)

/-- The circuit of partition `z` toward the parent is up. -/
def parentCircuit (c : Chip) (z parent port : Nat) : Bool :=
  let name := if port = 44 then (c.podOf z, 44) else (16 * parent + z, 44)
  !((c.part z).topo.mgmtDown.contains name)

/-- The partition that takes the measurements: the lead, else the lowest for which it, its circuit and the parent's
partition are in service. -/
def legPart (c : Chip) : Option Nat :=
  match c.parentOf c.clusterIndex with
  | none => none
  | some (g, port) =>
    let far := fun z => !c.down.contains g && !c.farOut.contains (16 * g + z)
    let ok := fun z => c.inService z && !c.bypassed z && c.parentCircuit z g port && far z
    if ok c.leadPart then some c.leadPart else allParts.find? ok

/-- Publishes STATE of the master, MASTER, PARENT, NO_PARENT and LEG_PARTITION (R404). -/
def publishTime (c : Chip) : Chip :=
  let c := c.setReg .TIME_MASTER 0 0 (ofBool c.isManager)
  let c := if c.isManager then c.setReg .TIME_STATE 0 0 1 else c
  match (if c.isManager then none else c.parentOf c.clusterIndex) with
  | none => c.setReg .TIME_NO_PARENT 0 0 1
  | some (g, _) =>
    ((c.setReg .TIME_NO_PARENT 0 0 0).setReg .TIME_PARENT 0 0 g).setReg .TIME_LEG_PARTITION 0 0 (c.legPart.getD c.leadPart)

/-! Legs (R384) -/

/-- TIME_REQ of spine 15 reaches its partition at T2 with T1 of the spine: a sample of leg 1, and of leg 3 for each child, which is sent
it in TIME_LEG. -/
def legSample (c : Chip) (p src t1 : Nat) : Chip :=
  if src ≠ c.fidOf p (.spine p 15) then c
  else
    let delay := 16 * (c.agent (.spine p 15)).regs.get .APORT_DELAY_NS 47 0
    let v : Int := 16 * ((c.now : Int) - t1) - delay
    let c := c.modTime fun k => { k with leg1 := SMap.insert k.leg1 p (v, c.now) }
    (c.ringG9s.filter fun g => (c.parentOf g).map Prod.fst = some c.clusterIndex).foldl (fun c g =>
      c.pnotice p (0xFF000 + 16 * g + p) 0x89 ([src, delay] ++ [t1 % 2 ^ 32, t1 / 2 ^ 32, c.now % 2 ^ 32, c.now / 2 ^ 32])) c

/-- TIME_LEG arrives: the parent's sample. -/
def timeLeg (c : Chip) (p src delay t1 t2 : Nat) : Chip :=
  let c := c.logMsg p src 0x89 0 c.now false false
  match c.parentOf c.clusterIndex with
  | none => c
  | some (g, _) =>
    if src ≠ 0xFF000 + 16 * g + p then c
    else c.modTime fun k => { k with leg3 := SMap.insert k.leg3 p (16 * ((t2 : Int) - t1) - delay, t2) }

/-! Corrections -/

/-- Bellwether steps by a signed number of ticks: counted, shown and logged (R386). The samples taken with it move with it: those of leg 1, the
time of the last set and of the last PPS edge. -/
def timeStep (c : Chip) (d : Int) : Chip :=
  let c := (c.count .TIME_TIME_STEPS).setReg .TIME_LAST_STEP 0 0 (satField 32 d)
  let c := c.henDev 0x0301 [satField 32 d]
  let moved := fun (v : Nat) => ((v : Int) + d).toNat
  { c.modTime fun k => { k with
      thetas := [], ppsLast := k.ppsLast.map moved, tried := k.tried.map moved, lastSet := moved k.lastSet
      leg1 := k.leg1.map fun e => (e.1, e.2.1 + 16 * d, moved e.2.2) } with
    now := moved c.now, stepped := c.stepped + ((moved c.now : Int) - c.now) }

/-- The rate correction takes a value that the spec leaves open, within 200 ppm. -/
def slew (c : Chip) : Chip :=
  let v : Int := (c.freeVal 32 % 400000001 : Nat) - 200000000
  (c.drawn).setReg .TIME_RATE_ADJ 0 0 (toField 32 v)

/-- The mean of a list of offsets. -/
def meanOf (l : List Int) : Int := l.sum / max 1 l.length

/-- A set of three legs, not before a millisecond after the set before it: `rc` and `rp` are the times at which the child's and the parent's spine received an IDENT,
`sp` and `sc` those at which it was sent. The offset is taken where the legs lie within 500,000 ticks. -/
def timeSet (c : Chip) (rc sp rp sc : Nat) : Chip :=
  let c := c.publishTime
  if c.isManager || c.time.tried.any (fun a => c.now < a + 1000000) then c
  else
    let c := c.modTime fun k => { k with tried := some c.now }
    let legs := c.legPart.bind fun p =>
      match SMap.find? c.time.leg1 p, SMap.find? c.time.leg3 p with
      | some a, some b =>
        let times := [a.2, b.2, rc]
        if times.foldl max 0 ≤ times.foldl min a.2 + 500000 then some (a.1, b.1) else none
      | _, _ => none
    match legs with
    | none => c.count .TIME_LEG_FAILS
    | some (a, b) =>
      let leg2 : Int := 8 * (((rc : Int) - sp) - ((rp : Int) - sc))
      let theta := a + leg2 - b
      let first := c.reg .TIME_STATE == 4
      let c := c.count .TIME_LEG_SETS
      let c := c.modTime fun k => { k with thetas := lastN 16 (k.thetas ++ [theta]) }
      let mean := meanOf c.time.thetas
      let c := c.setReg .TIME_OFFSET 0 0 (satField 32 mean)
      let locked := c.reg .TIME_STATE == 1
      let c := if locked && decide (32 < mean.natAbs) then c.count .TIME_OUT_OF_BOUND else c
      let c := if first || decide (16000 < mean.natAbs) then c.timeStep (-sixteenth mean) else c.slew
      (c.setReg .TIME_STATE 0 0 1).modTime fun k => { k with lastSet := c.now }

/-- 3 ms without a complete set. -/
def holdover (c : Chip) : Chip :=
  if c.isManager || c.reg .TIME_STATE ≠ 1 || c.now < c.time.lastSet + 3000000 then c
  else (c.setReg .TIME_STATE 0 0 2).henDevAny 0x0302

/-- Another G9 has become the root: no step, the tree forms anew (R387). -/
def newRoot (c : Chip) (g : Nat) : Chip := (({ c with mgr := g }).henDevAny 0x0303).publishTime

/-! SET_TIME and PPS (R388) -/

/-- A committed SET_TIME: loaded at once, or kept for the next edge; ignored where this G9 is not master. -/
def setTimeApplied (c : Chip) : Chip :=
  let v := c.reg .TIME_SET_TIME_LO + c.reg .TIME_SET_TIME_HI * 2 ^ 32
  if !c.isManager then c
  else if c.reg .TIME_SET_AT_PPS = 1 then c.modTime fun k => { k with setAtPps := k.setAtPps ++ [v] }
  else c.timeStep ((v : Int) - c.now)

/-- An edge of PPS_IN after deglitching (R388, R462). -/
def ppsEdge (c : Chip) : Chip :=
  let good := match c.time.ppsLast with
    | none => true
    | some l => (999000000 ≤ c.now - l && c.now - l ≤ 1001000000) || 1500000000 ≤ c.now - l
  if !good then c.count .BOOT_PPS_REJECTED
  else
    let c := c.count .TIME_PPS_EDGES
    let r := c.now % 1000000000
    let err : Int := if r < 500000000 then r else (r : Int) - 1000000000
    let c := c.setReg .TIME_PPS_ERR 0 0 (satField 32 err)
    let c := if c.isManager && c.reg .TIME_PPS_IN_EN == 1 then c.slew else c
    let c := match c.time.setAtPps with
      | [] => c
      | [v] => c.timeStep ((v : Int) - c.now)
      | l => (c.drawn).timeStep ((l.getD (c.freeVal 32 % l.length) 0 : Int) - c.now)
    c.modTime fun k => { k with ppsLast := some c.now, ppsLost := false, setAtPps := [] }

/-- 1.5 s without an edge on the master: steering stops. -/
def ppsMissing (c : Chip) : Chip :=
  if !c.isManager || c.reg .TIME_PPS_IN_EN = 0 || c.time.ppsLost || c.now < c.time.ppsLast.getD 0 + 1500000000 then c
  else ((c.count .TIME_PPS_MISSED).henDevAny 0x0304).modTime fun k => { k with ppsLost := true }

/-- PPS_OUT goes high at each multiple of 1,000,000,000 for 1,000,000 ticks. -/
def ppsOut (c : Chip) : Chip :=
  if c.reg .TIME_PPS_OUT_EN = 1 ∧ c.now % 1000000000 = 0 then c.emit (.board "PPS_OUT" [c.now, 1000000]) else c

end Chip

end Sys2Proof.Machine
end

