-- ==== Sys2Proof/Machine/Wire.lean ====
section
/-! DEFINITION. How a command reaches what it acts on: an agent's message, a partition that is not in bypass, a queue's command;
and the link ends of agents and of control ports (R23, R93, R99, R102, R324 to R327). -/

namespace Sys2Proof.Machine

open Sys2Proof

namespace Chip

/-- Work of an agent; a partition is none. -/
def atAgent (c : Chip) (u : UnitId) (f : AC → AC) : Chip := if u.profile = .partition then c else c.onAgent u f

/-- Work of a partition whose stop is not in bypass (R26). -/
def atPart (c : Chip) (p : Nat) (f : Chip → Chip) : Chip := if c.bypassed p then c else f c

/-- A notice or an answer arrives at an agent. -/
def onMsg (c : Chip) (e : Env) (type : Nat) (r : AC.Right) (f : AC → AC) : Chip :=
  c.atAgent e.unit fun a => a.receive e type r f

/-- A request arrives at an agent. -/
def onReq (c : Chip) (e : Env) (type : Nat) (r : AC.Right) (f : AC → AC) : Chip :=
  c.atAgent e.unit fun a => a.request e type r f

/-- A queue's command runs: not while its queue is stopped, and not while something keeps it from starting (R349, R350). While the
G9 is out of service context commands complete with OUT_OF_SERVICE (R425). -/
def runCmd (c : Chip) (i : QId) (d : Desc) (f : Chip → Chip) : Chip :=
  let held : Bool := match c.cmdOf i d.tag with | some x => c.kept x | none => c.queueHalted i
  let context : Bool := match i with | .context _ => true | _ => false
  if c.queueBlocked i || held then c
  else if context && c.g9Out then (c.start i d).completeDesc i d 0x09 0
  else f (c.start i d)

/-! Frames and ports -/

/-- The slice and the group that a group number means in a pod: the group whose line the pod lies on (R155). -/
def groupAt (c : Chip) (pod num : Nat) : Option (Slice × Group) :=
  c.routedSlices.findSome? fun sl =>
    (sl.groups.find? fun g => g.num = num && (c.linePods sl g).contains pod).map fun g => (sl, g)

/-- The circuit port of a spine on a group's line in one direction (R66, R67): the first toward the next pod. -/
def linePort (c : Chip) (u : UnitId) (group axis : Nat) (plus : Bool) : Option Nat :=
  match u with
  | .spine z s =>
    let pod := c.podOf z
    match c.groupAt pod group with
    | none => none
    | some (sl, _) =>
      match sl.posOf c.grid pod with
      | none => none
      | some pos =>
        let len := sl.extents.getD axis 1
        let i := pos.getD axis 0
        let nxt := sl.podOf c.grid (listSet pos axis (if plus then (i + 1) % len else (i + len - 1) % len))
        (sl.portsTo s axis pod nxt plus).head?
  | _ => none

/-- How an endpoint sends to a group (R66, R67): on a ring the positive way round, else both ways to the ends of the line. Toward a
group that no slice has on its pod's line it counts no pods. -/
def lineOut (c : Chip) (u : UnitId) (group : Nat) : AC.LineOut :=
  match u with
  | .endpoint z _ =>
    match c.groupAt (c.podOf z) group with
    | none => {}
    | some (sl, g) =>
      let len := sl.extents.getD g.axis 1
      let i := ((sl.posOf c.grid (c.podOf z)).getD []).getD g.axis 0
      if sl.kind g.axis = 1 then { axis := g.axis, remPos := len - 1 } else { axis := g.axis, remPos := len - 1 - i, remNeg := i }
  | _ => {}

/-- A frame at a partition's control port: the checks of R325 and R326, counted on the LINKSEC page (R333). -/
def controlFrame (c : Chip) (p : Nat) (f : Frame) : Chip :=
  match linkCheck (c.part p).link c.now true f with
  | .fec => c
  | .revoked => c.count .LINKSEC_REVOKED_FRAMES p
  | .mismatch => c.count .LINKSEC_SLOT_MISMATCH p
  | .replay => c.count .LINKSEC_REPLAY_DROPS p
  | .auth => c.count .LINKSEC_AUTH_DROPS p
  | .ok l =>
    let c := c.modPart p fun s => { s with link := l }
    c.setReg .LINKSEC_RX_COUNTER p 0 (max (c.reg .LINKSEC_RX_COUNTER p) f.counter)

/-- A link frame arrives at a port of an agent or at a control port. -/
def frameArrives (c : Chip) (u : UnitId) (k : Nat) (f : Frame) : Chip :=
  match u with
  | .part p => c.atPart p fun c => c.controlFrame p f
  | _ => c.atAgent u fun a => a.frame k f (c.linePort u f.pkt.group f.pkt.axis)

/-- The start of a slot at an agent's output (R54). -/
def slotBegins (c : Chip) (u : UnitId) (k : Nat) : Chip := c.atAgent u fun a => a.slotStart (c.lineOut u) k

/-- A port goes up or down at an agent (R96). -/
def portEvent (c : Chip) (u : UnitId) (k : Nat) (up : Bool) : Chip :=
  c.atAgent u fun a => if up then a.portUp k else a.portDown k

/-- The identity block of a partition (R99): MAKER 0x0001 and profile 0b11. -/
def partBlock (p fid : Nat) : IdBlock :=
  let u := (UnitId.part p).code
  { maker := 1, profile := 3, partNo := trunc 32 (Config.partNoOf u), serial := trunc 64 (Config.serialOf u),
    cableTag := trunc 32 (Config.cableTagOf u 0), fid := fid, partitionFid := fid }

/-- The handshake at a control port: keyed under generation 0, the partition's identity block goes out, and the run of R106 begins
where none has been made since reset; or the port stays down (R99, R324). -/
def controlHandshake (c : Chip) (p : Nat) (ok : Bool) : Chip :=
  if ok then
    let c := c.modPart p fun s => { s with link := { keyed := true, partner := 1 }, lanesUp := true, portDown := false }
    let c := ((c.count .LINKSEC_HANDSHAKES p).setReg .LINKSEC_KEYED p 0 1).setReg .LINKSEC_GEN_PARITY p 0 0
    let c := (c.setReg .LINKSEC_TX_COUNTER p 0 0).setReg .LINKSEC_RX_COUNTER p 0 0
    let c := (c.setReg .LINKSEC_REVOKED_MASK p 0 0).emit (.identity (.part p) 0 (partBlock p (c.partFid p)))
    if (c.part p).topo.run.isNone && (c.part p).topo.tc.isNone && !c.bypassed p then c.startRun p else c
  else
    let c := c.modPart p fun s => { s with link := {} }
    ((c.setReg .LINKSEC_KEYED p 0 0).count .LINKSEC_HANDSHAKE_FAILS p).henAny p 0x0203

/-- A handshake ends at one end of a link; the lanes of a control port train and are keyed while the partition restarts (R419). -/
def linkHandshake (c : Chip) (u : UnitId) (k : Nat) (ok : Bool) : Chip :=
  match u with
  | .part p => if c.bypassed p && c.reg .RESET_PART_STATE 0 p ≠ 2 then c else c.controlHandshake p ok
  | _ => c.atAgent u fun a => a.handshake k ok

/-- An identity block arrives at one end of a link (R99); a control port keeps it, and one whose CRC fails is dropped: no page of the
G9 has a counter for it. -/
def identityArrives (c : Chip) (u : UnitId) (k : Nat) (b : IdBlock) (crcOk : Bool) : Chip :=
  match u with
  | .part p =>
    if !crcOk then c
    else c.atPart p fun c => c.modPart p fun s => { s with link := { s.link with partner := b.profile }, idBlock := some b }
  | _ => c.atAgent u fun a => a.identityBlock k b crcOk

/-! Time requests, retransmission, stored responses, reset, beats -/

/-- TIME_REQ at a time parent: an agent, or the partition that is the parent of spine 15 (R91). -/
def timeAsked (c : Chip) (e : Env) (t1 : Nat) : Chip :=
  match e.unit with
  | .part p => c.atPart p fun c => c.prequest p e.src e.tag 0x60 fun c =>
      (c.legSample p e.src t1).preply p e.src e.tag 0x60 0x00 [t1, c.now, c.now]
  | _ => c.onReq e 0x60 .partner fun a => a.answer e 0x60 0x00 [t1, a.now, a.now]

/-- A request without an answer is sent again or given up (R95). -/
def retransmit (c : Chip) (u : UnitId) (tag : Nat) : Chip :=
  match u with
  | .part p => c.atPart p fun c => (c.partRetransmit p tag).restartOn p
  | _ => c.atAgent u fun a => a.retransmit tag

/-- A stored response is dropped when its time is over (R95). -/
def storeExpiry (c : Chip) (u : UnitId) (src tag : Nat) : Chip :=
  match u with
  | .part p => c.modPart p fun s =>
      { s with stored := s.stored.filter fun x => !(x.src = src && x.tag = tag && x.till ≤ c.now) }
  | _ => c.atAgent u fun a => a.storeExpiry src tag

/-- An agent reset (R92, R102): the agent is as after power-on, FID and PARTITION_FID null, its ports enabled and not yet keyed, its
Bellwether at 0. -/
def agentReset (c : Chip) (u : UnitId) : Chip :=
  if u.profile = .partition then c else c.setAgent u { skew := -c.ticks, slewFrom := c.ticks }

/-- BEAT every 250 µs to every agent of the zone (R93), not at supply stage 5 (R456). -/
def beatSend (c : Chip) (p : Nat) : Chip :=
  if (c.now < (c.part p).lastBeat + 250000 ∧ (c.part p).lastBeat ≠ 0) ∨ 5 ≤ c.stageOf p then c
  else
    (c.zoneAgents p).foldl (fun c u => c.pnotice p u.fid 0x49 []) (c.modPart p fun s => { s with lastBeat := c.now })

end Chip

end Sys2Proof.Machine
end

