-- ==== Sys2Proof/Machine/ExecAgent.lean ====
section
/-! DEFINITION. What each command of the agents' data path means (R54 to R95). -/

namespace Sys2Proof.Machine

open Sys2Proof

/-- LINK_FRAME_RECEIVE (R325). -/
def execLinkFrameReceive (t : Nat) (u : UnitId) (k : Nat) (f : Frame) (s : State) : Host.Outcome State Fault Refusal :=
  .next (s.run t fun c => c.frameArrives u k f)
/-- SLOT_START (R54). -/
def execSlotStart (t : Nat) (u : UnitId) (k : Nat) (s : State) : Host.Outcome State Fault Refusal :=
  .next (s.run t fun c => c.slotBegins u k)
/-- MARK_ECHO (R65). -/
def execMarkEcho (t : Nat) (e : Env) (_marks _job : Nat) (s : State) : Host.Outcome State Fault Refusal :=
  .next (s.run t fun c => c.onMsg e 0x51 .anyone fun a => a.gotEcho)
/-- LOOSE_RECOVERY_STEP (R75). -/
def execLooseRecoveryStep (t : Nat) (u : UnitId) (s : State) : Host.Outcome State Fault Refusal :=
  .next (s.run t fun c => c.atAgent u AC.looseRise)
/-- FLOW_TIMEOUT (R61). -/
def execFlowTimeout (t : Nat) (u : UnitId) (src flow : Nat) (s : State) : Host.Outcome State Fault Refusal :=
  .next (s.run t fun c => c.atAgent u fun a => a.flowTimeout src flow)
/-- POST_WAIT (R90). -/
def execPostWait (t : Nat) (u : UnitId) (src flow : Nat) (s : State) : Host.Outcome State Fault Refusal :=
  .next (s.run t fun c => c.atAgent u fun a => a.postWait src flow)
/-- QUEUE_CHUNK (R90). -/
def execQueueChunk (t : Nat) (u : UnitId) (chunk : Chunk) (s : State) : Host.Outcome State Fault Refusal :=
  .next (s.run t fun c => c.atAgent u fun a => a.queueChunk chunk)
/-- LOWER_TOTAL (R90). -/
def execLowerTotal (t : Nat) (u : UnitId) (src flow total : Nat) (s : State) : Host.Outcome State Fault Refusal :=
  .next (s.run t fun c => c.atAgent u fun a => a.lowerTotal src flow total)
/-- READ_NOTICE (R90). -/
def execReadNotice (t : Nat) (u : UnitId) (s : State) : Host.Outcome State Fault Refusal :=
  .next (s.run t fun c => c.atAgent u AC.readNotice)
/-- READ (R95). -/
def execRead (t : Nat) (e : Env) (addr n : Nat) (s : State) : Host.Outcome State Fault Refusal :=
  .next (s.run t fun c => c.onReq e 0x02 .anyPart fun a => a.doRead e addr n)
/-- WRITE (R72). -/
def execWrite (t : Nat) (e : Env) (addr : Nat) (words : List Nat) (s : State) : Host.Outcome State Fault Refusal :=
  .next (s.run t fun c => c.onReq e 0x04 .control fun a => a.doWrite e addr words)
/-- AGENT_PAIR_EXPIRY (R72). -/
def execAgentPairExpiry (t : Nat) (u : UnitId) (src page : Nat) (s : State) : Host.Outcome State Fault Refusal :=
  .next (s.run t fun c => c.atAgent u fun a => a.pairExpiry src page)
/-- AGENT_FRAME_BOUNDARY (R70). -/
def execAgentFrameBoundary (t : Nat) (u : UnitId) (s : State) : Host.Outcome State Fault Refusal :=
  .next (s.run t fun c => c.atAgent u AC.frameBoundary)
/-- IDENT (R99). -/
def execIdent (t : Nat) (e : Env) (blk : IdBlock) (s : State) : Host.Outcome State Fault Refusal :=
  .next (s.run t fun c => c.onMsg e 0x10 .ident fun a => a.gotIdentity e.port blk)
/-- IDENT_PERIOD (R95). -/
def execIdentPeriod (t : Nat) (u : UnitId) (k : Nat) (s : State) : Host.Outcome State Fault Refusal :=
  .next (s.run t fun c => c.atAgent u fun a => a.identPeriod k)

end Sys2Proof.Machine
end

