-- ==== Sys2Proof/Machine/ExecBank.lean ====
section
/-! DEFINITION. What each command of the agents' banks and fences means (R77 to R85, R124 to R126). -/

namespace Sys2Proof.Machine

open Sys2Proof

/-- PREPARE (R78). -/
def execPrepare (t : Nat) (e : Env) (ep : Nat) (copy : Bool) (chunks crc : Nat) (s : State) :
    Host.Outcome State Fault Refusal :=
  .next (s.run t fun c => c.onReq e 0x20 .control fun a => a.doPrepare e ep copy chunks crc)
/-- PREPARE_STATIC (R79). -/
def execPrepareStatic (t : Nat) (e : Env) (ep chunks crc : Nat) (s : State) : Host.Outcome State Fault Refusal :=
  .next (s.run t fun c => c.onReq e 0x20 .control fun a => a.doPrepareStatic e ep chunks crc)
/-- TABLE_WRITE (R126). -/
def execTableWrite (t : Nat) (e : Env) (ep region off : Nat) (data : List Nat) (s : State) :
    Host.Outcome State Fault Refusal :=
  .next (s.run t fun c => c.onReq e 0x22 .control fun a => a.doTableWrite e ep region off data)
/-- STATIC_LOAD_TIMEOUT (R79). -/
def execStaticLoadTimeout (t : Nat) (u : UnitId) (s : State) : Host.Outcome State Fault Refusal :=
  .next (s.run t fun c => c.atAgent u AC.staticTimeout)
/-- DRAIN (R78). -/
def execDrain (t : Nat) (e : Env) (ep classes : Nat) (s : State) : Host.Outcome State Fault Refusal :=
  .next (s.run t fun c => c.onReq e 0x24 .control fun a => a.doDrain e ep classes)
/-- DRAIN_QUIET (R78). -/
def execDrainQuiet (t : Nat) (u : UnitId) (s : State) : Host.Outcome State Fault Refusal :=
  .next (s.run t fun c => c.atAgent u AC.drainQuiet)
/-- DRAIN_TIMEOUT (R78). -/
def execDrainTimeout (t : Nat) (u : UnitId) (s : State) : Host.Outcome State Fault Refusal :=
  .next (s.run t fun c => c.atAgent u AC.drainTimeout)
/-- COMMIT (R80). -/
def execCommit (t : Nat) (e : Env) (ep : Nat) (s : State) : Host.Outcome State Fault Refusal :=
  .next (s.run t fun c => c.onReq e 0x26 .control fun a => a.doCommit e ep)
/-- COMMIT_WAIT_EXPIRY (R78). -/
def execCommitWaitExpiry (t : Nat) (u : UnitId) (s : State) : Host.Outcome State Fault Refusal :=
  .next (s.run t fun c => c.atAgent u AC.commitWaitExpiry)
/-- RESUME (R78). -/
def execResume (t : Nat) (e : Env) (ep : Nat) (s : State) : Host.Outcome State Fault Refusal :=
  .next (s.run t fun c => c.onReq e 0x28 .control fun a => a.doResume e ep)
/-- RESUME_WAIT_EXPIRY (R78). -/
def execResumeWaitExpiry (t : Nat) (u : UnitId) (s : State) : Host.Outcome State Fault Refusal :=
  .next (s.run t fun c => c.atAgent u AC.resumeWaitExpiry)
/-- ABANDON (R78). -/
def execAbandon (t : Nat) (e : Env) (ep : Nat) (s : State) : Host.Outcome State Fault Refusal :=
  .next (s.run t fun c => c.onReq e 0x2A .control fun a => a.doAbandon e ep)
/-- EPOCH_QUERY (R82). -/
def execEpochQuery (t : Nat) (e : Env) (s : State) : Host.Outcome State Fault Refusal :=
  .next (s.run t fun c => c.onReq e 0x2C .anyPart fun a => a.answer e 0x2C 0x00 a.report)
/-- FENCE (R83). -/
def execFence (t : Nat) (e : Env) (fid job f : Nat) (s : State) : Host.Outcome State Fault Refusal :=
  .next (s.run t fun c => c.onReq e 0x30 .control fun a => a.doFence e fid job f)
/-- UNFENCE (R83). -/
def execUnfence (t : Nat) (e : Env) (fid _job f : Nat) (s : State) : Host.Outcome State Fault Refusal :=
  .next (s.run t fun c => c.onReq e 0x32 .control fun a => a.doUnfence e fid f)
/-- FENCED_NOTICE (R85). -/
def execFencedNotice (t : Nat) (e : Env) (job f : Nat) (fids : List Nat) (s : State) : Host.Outcome State Fault Refusal :=
  .next (s.run t fun c => c.onMsg e 0x35 .control fun a => a.doFencedNotice job f fids)
/-- PEER_RESET (R285). -/
def execPeerReset (t : Nat) (e : Env) (fid job reason step time : Nat) (s : State) : Host.Outcome State Fault Refusal :=
  .next (s.run t fun c => c.onMsg e 0x37 .anyone fun a => a.doPeerReset fid job reason step time)

end Sys2Proof.Machine
end

