-- ==== Sys2Proof/Machine/Numbers.lean ====
section
/-! DEFINITION. The number formats of the Miobor cluster (R208 to R211), FP32 operations rounded to the nearest even (R212, R230)
and the order of R227. A finite value is exact: a sign, a magnitude and a power of two. -/

namespace Sys2Proof

/-- A value of the cluster: not a number, an infinity with its sign, or (−1)^neg × m × 2^e; zero keeps its sign. -/
inductive FV where
  | nan
  | inf (neg : Bool)
  | fin (neg : Bool) (m : Nat) (e : Int)
  deriving DecidableEq, Repr

/-- Formats of R208: the exponent width, the mantissa width and the bias of a float format. -/
def floatShape (fmt : Nat) : Nat × Nat × Int :=
  match fmt with
  | 3 => (4, 3, 7)
  | 4 => (5, 2, 15)
  | 5 => (8, 7, 127)
  | _ => (8, 23, 127)

/-- The format holds integers. -/
def intFormat (fmt : Nat) : Bool := fmt == 1 || fmt == 2 || fmt == 7

/-- Bits of an element of a format. -/
def formatBits (fmt : Nat) : Nat := match fmt with | 1 => 4 | 2 => 8 | 3 => 8 | 4 => 8 | 5 => 16 | _ => 32

/-- The canonical NaN of a float format (R209). -/
def nanBits (fmt : Nat) : Nat := match fmt with | 3 => 0x7F | 4 => 0x7E | 5 => 0x7FC0 | _ => 0x7FC00000
/-- The largest finite number of a float format, without sign (R208). -/
def maxBits (fmt : Nat) : Nat := match fmt with | 3 => 0x7E | 4 => 0x7B | 5 => 0x7F7F | _ => 0x7F7FFFFF
/-- Plus infinity of a float format that has one. -/
def infBits (fmt : Nat) : Option Nat := match fmt with | 3 => none | 4 => some 0x7C | 5 => some 0x7F80 | _ => some 0x7F800000

namespace FV

/-- Plus zero. -/
def zero : FV := .fin false 0 0
/-- One. -/
def one : FV := .fin false 1 0
/-- Two. -/
def two : FV := .fin false 1 1
/-- An integer. -/
def ofInt (i : Int) : FV := .fin (decide (i < 0)) i.natAbs 0
/-- The value is a NaN. -/
def isNan : FV → Bool | .nan => true | _ => false
/-- The sign. -/
def neg? : FV → Bool | .nan => false | .inf s => s | .fin s _ _ => s
/-- The value is a zero. -/
def isZero : FV → Bool | .fin _ m _ => m == 0 | _ => false
/-- The value with the other sign; exact. -/
def negate : FV → FV | .nan => .nan | .inf s => .inf !s | .fin s m e => .fin (!s) m e

/-- The value of an element of a format (R208). -/
def decode (fmt v : Nat) : FV :=
  let w := formatBits fmt
  let v := trunc w v
  if intFormat fmt then ofInt (ofField w v)
  else
    let (ew, mw, bias) := floatShape fmt
    let s := bit v (w - 1)
    let ex := bits v (w - 2) mw
    let m := v % 2 ^ mw
    let top := 2 ^ ew - 1
    if fmt = 3 then
      if ex = top ∧ m = 7 then .nan
      else if ex = 0 then .fin s m (1 - bias - mw) else .fin s (2 ^ mw + m) (ex - bias - mw)
    else if ex = top then (if m = 0 then .inf s else .nan)
    else if ex = 0 then .fin s m (1 - bias - mw) else .fin s (2 ^ mw + m) (ex - bias - mw)

/-- floor(log2 m) for m above 0. -/
def log2 (m : Nat) : Nat := m.log2

/-- The magnitude m × 2^e on a grid of 2^g: the lower multiple, and what is left as a fraction r ÷ d of a step. -/
def onGrid (m : Nat) (e g : Int) : Nat × Nat × Nat :=
  if g ≤ e then (m * 2 ^ (e - g).toNat, 0, 1)
  else
    let d := 2 ^ (g - e).toNat
    (m / d, m % d, d)

/-- To the nearest even. -/
def nearest (k r d : Nat) : Nat := if 2 * r < d then k else if d < 2 * r then k + 1 else k + k % 2

/-- Rounds a finite magnitude to a float format's grid with an unbounded exponent, to the nearest even (R210): the multiple and
the grid. -/
def roundGrid (mw : Nat) (bias : Int) (m : Nat) (e : Int) : Nat × Int :=
  let g := max ((log2 m : Int) + e) (1 - bias) - mw
  let x := onGrid m e g
  (nearest x.1 x.2.1 x.2.2, g)

/-- A value rounded to FP32, past its range to infinity (R210, R211). -/
def f32 (v : FV) : FV :=
  match v with
  | .fin s m e =>
    if m = 0 then .fin s 0 0
    else
      let r := roundGrid 23 127 m e
      if r.1 = 0 then .fin s 0 0
      else if 127 < (log2 r.1 : Int) + r.2 then .inf s
      else .fin s r.1 r.2
  | v => v

/-- The signed magnitudes of two finite values on their common grid. -/
def aligned (s : Bool) (m : Nat) (e : Int) (t : Bool) (n : Nat) (f : Int) : Int × Int × Int :=
  let g := min e f
  let a : Int := m * 2 ^ (e - g).toNat
  let b : Int := n * 2 ^ (f - g).toNat
  (if s then -a else a, if t then -b else b, g)

/-- The exact sum of two finite values; an exact zero is +0 unless both are −0. Infinities and NaNs as IEEE 754 has them. -/
def exactAdd (a b : FV) : FV :=
  match a, b with
  | .nan, _ => .nan
  | _, .nan => .nan
  | .inf s, .inf t => if s = t then .inf s else .nan
  | .inf s, _ => .inf s
  | _, .inf t => .inf t
  | .fin s m e, .fin t n f =>
    let x := aligned s m e t n f
    let v := x.1 + x.2.1
    if v = 0 then .fin (s && t) 0 0 else .fin (decide (v < 0)) v.natAbs x.2.2

/-- The exact product. -/
def exactMul (a b : FV) : FV :=
  match a, b with
  | .nan, _ => .nan
  | _, .nan => .nan
  | .inf s, .inf t => .inf (s != t)
  | .inf s, .fin t n _ => if n = 0 then .nan else .inf (s != t)
  | .fin s m _, .inf t => if m = 0 then .nan else .inf (s != t)
  | .fin s m e, .fin t n f => .fin (s != t) (m * n) (if m * n = 0 then 0 else e + f)

/-- FP32 addition. -/
def add (a b : FV) : FV := f32 (exactAdd a b)
/-- FP32 subtraction. -/
def sub (a b : FV) : FV := add a b.negate
/-- FP32 multiplication. -/
def mul (a b : FV) : FV := f32 (exactMul a b)
/-- a × b + c with one rounding. -/
def fma (a b c : FV) : FV := f32 (exactAdd (exactMul a b) c)

/-- n ÷ d × 2^e as a value with a sticky last bit, exact enough for one rounding to FP32. -/
def ratio (s : Bool) (n d : Nat) (e : Int) : FV :=
  let k := 40 + log2 d - log2 n
  let q := n * 2 ^ k / d
  let odd := if q * d = n * 2 ^ k then 0 else 1
  .fin s (2 * q + odd) (e - k - 1)

/-- 1 ÷ a, correctly rounded (R230). -/
def recip (a : FV) : FV :=
  match a with
  | .nan => .nan
  | .inf s => .fin s 0 0
  | .fin s m e => if m = 0 then .inf s else f32 (ratio s 1 m (-e))

/-- A value divided by a count, with one rounding. -/
def divNat (a : FV) (n : Nat) : FV :=
  match a with
  | .fin s m e => if m = 0 ∨ n = 0 then .fin s 0 0 else f32 (ratio s m n e)
  | v => v

/-- The integer square root, by bits from the one given down. -/
def isqrt (x : Nat) : Nat → Nat → Nat
  | 0, r => r
  | b + 1, r => isqrt x b (if (r + 2 ^ b) * (r + 2 ^ b) ≤ x then r + 2 ^ b else r)

/-- The square root, correctly rounded: −0 keeps its sign, a negative number gives NaN. -/
def sqrt (a : FV) : FV :=
  match a with
  | .nan => .nan
  | .inf s => if s then .nan else .inf false
  | .fin s m e =>
    if m = 0 then .fin s 0 0
    else if s then .nan
    else
      let odd : Bool := e % 2 == 1
      let m := if odd then 2 * m else m
      let e := if odd then e - 1 else e
      let k : Nat := 60
      let x := m * 2 ^ (2 * k)
      let r := isqrt x (log2 x / 2 + 1) 0
      f32 (.fin false (2 * r + (if r * r = x then 0 else 1)) (e / 2 - k - 1))

/-! Order (R227) -/

/-- `a` ranks below `b` among numbers: −0 below +0. A NaN is not ranked here. -/
def lt (a b : FV) : Bool :=
  match a, b with
  | .nan, _ => false
  | _, .nan => false
  | .inf s, .inf t => s && !t
  | .inf s, _ => s
  | _, .inf t => !t
  | .fin s m e, .fin t n f =>
    if m = 0 ∧ n = 0 then s && !t
    else
      let x := aligned s m e t n f
      x.1 < x.2.1

/-- MAX: a NaN ranks below every number. -/
def vmax (a b : FV) : FV := if a.isNan then b else if b.isNan then a else if lt a b then b else a
/-- MIN: a NaN is passed over. -/
def vmin (a b : FV) : FV := if a.isNan then b else if b.isNan then a else if lt b a then b else a
/-- `a` is chosen before `b`, by value alone: a NaN comes last either way. -/
def before (largest : Bool) (a b : FV) : Bool :=
  if a.isNan then false else if b.isNan then true else if largest then lt b a else lt a b

/-! Functions of R230 -/

/-- An FP32 constant. -/
def c32 (v : Nat) : FV := decode 6 v

/-- The nearest integer of a finite value, ties to even. -/
def toInt (v : FV) : Int :=
  match v with
  | .fin s m e =>
    let x := onGrid m e 0
    let k := nearest x.1 x.2.1 x.2.2
    if s then -(k : Int) else k
  | _ => 0

/-- p × 2^n, exact. -/
def scale (v : FV) (n : Int) : FV := match v with | .fin s m e => .fin s m (e + n) | v => v

/-- EXP (R230). Past 2^200 either way the result is an infinity or a zero whatever the polynomial gives. -/
def exp (x : FV) : FV :=
  match x with
  | .nan => .nan
  | .inf s => if s then zero else .inf false
  | .fin .. =>
    match mul x (c32 0x3FB8AA3B) with
    | .fin s m e =>
      let y := FV.fin s m e
      let n := if 64 ≤ (log2 m : Int) + e then (if s then -1000 else 1000) else toInt y
      if 200 < n then .inf false
      else if n < -200 then zero
      else
        let f := exactAdd y (ofInt (-n))
        let p := [0x3AAEC3FF, 0x3C1D955B, 0x3D635847, 0x3E75FDF0, 0x3F317218, 0x3F800000].foldl
          (fun p k => fma p f (c32 k)) (c32 0x39218489)
        f32 (scale p n)
    | .inf s => if s then zero else .inf false
    | .nan => .nan

/-- LN of a positive number (R230). -/
def ln (x : FV) : FV :=
  match x with
  | .fin false m e =>
    if m = 0 then .nan
    else
      let n := (log2 m : Int) + e
      let l : Nat := log2 m
      let up : Bool := decide (3 * 2 ^ l ≤ 2 * m)
      let n := if up then n + 1 else n
      let t := exactAdd (.fin false m (e - n)) (ofInt (-1))
      let p := [0x3E124925, 0xBE2AAAAB, 0x3E4CCCCD, 0xBE800000, 0x3EAAAAAB, 0xBF000000, 0x3F800000].foldl
        (fun p k => fma p t (c32 k)) (c32 0xBE000000)
      fma (ofInt n) (c32 0x3F317218) (mul t p)
  | .inf false => .inf false
  | _ => .nan

/-- SIGMOID (R230). -/
def sigmoid (a : FV) : FV := recip (add one (exp a.negate))
/-- TANH (R230). -/
def tanh (a : FV) : FV := sub (mul two (sigmoid (mul two a))) one
/-- GELU (R230). -/
def gelu (a : FV) : FV :=
  let w := add a (mul (c32 0x3D372713) (mul (mul a a) a))
  mul (mul (.fin false 1 (-1)) a) (add one (tanh (mul (c32 0x3F4C422A) w)))

/-! Conversion (R210, R211) -/

/-- The random bits of stochastic rounding (R210). -/
def rnd16 (seed idx : Nat) : Nat :=
  let x := trunc 32 (seed ^^^ trunc 32 (idx * 0x9E3779B9))
  let x := x ^^^ (x >>> 16)
  let x := trunc 32 (x * 0x85EBCA6B)
  let x := x ^^^ (x >>> 13)
  let x := trunc 32 (x * 0xC2B2AE35)
  let x := x ^^^ (x >>> 16)
  x % 65536

/-- An element written: its bits, whether it counts in SAT_EVENTS, and in NAN_TO_INT. -/
structure Elem where
  bits : Nat
  sat : Bool := false
  nanInt : Bool := false
  deriving DecidableEq, Repr

/-- How a conversion rounds and saturates: stochastic, SAT, SEED. -/
structure Conv where
  stoch : Bool := false
  sat : Bool := false
  seed : Nat := 0
  deriving DecidableEq, Repr

/-- The lower multiple or the next one: to the nearest even, or by the random bits of the element. -/
def choose (o : Conv) (idx k r d : Nat) : Nat :=
  if r = 0 then k
  else if o.stoch then (if 65536 ≤ r * 65536 / d + rnd16 o.seed idx then k + 1 else k)
  else nearest k r d

/-- The least and the greatest integer of a format. -/
def intRange (fmt : Nat) : Int × Int := match fmt with | 1 => (-8, 7) | 2 => (-128, 127) | _ => (-2147483648, 2147483647)

/-- An integer within a format's range, and whether it was clamped. -/
def clampInt (fmt : Nat) (i : Int) : Int × Bool :=
  let r := intRange fmt
  if i < r.1 then (r.1, true) else if r.2 < i then (r.2, true) else (i, false)

/-- A value converted to a format. -/
def encode (o : Conv) (fmt idx : Nat) (v : FV) : Elem :=
  let o := if fmt = 6 ∨ fmt = 7 then { o with stoch := false } else o
  let w := formatBits fmt
  if intFormat fmt then
    match v with
    | .nan => { bits := 0, nanInt := true }
    | .inf s => { bits := toField w (if s then (intRange fmt).1 else (intRange fmt).2), sat := true }
    | .fin s m e =>
      let x := onGrid m e 0
      let k : Int := choose o idx x.1 x.2.1 x.2.2
      let c := clampInt fmt (if s then -k else k)
      { bits := toField w c.1, sat := c.2 }
  else
    let (_, mw, bias) := floatShape fmt
    let sign := fun (s : Bool) (b : Nat) => b + (if s then 2 ^ (w - 1) else 0)
    match v with
    | .nan => { bits := nanBits fmt }
    | .inf s => (match infBits fmt with
      | some b => { bits := sign s b }
      | none => { bits := sign s (maxBits fmt), sat := true })
    | .fin s m e =>
      if m = 0 then { bits := sign s 0 }
      else
        let g := max ((log2 m : Int) + e) (1 - bias) - mw
        let x := onGrid m e g
        let k := choose o idx x.1 x.2.1 x.2.2
        let high := if fmt = 3 then (448 : Int) * 2 ^ 20 else 0
        let past : Bool := if fmt = 3 then high < (k : Int) * 2 ^ (g + 20).toNat
          else (k ≠ 0 && bias < (log2 k : Int) + g)
        if past then
          if o.sat then { bits := sign s (maxBits fmt), sat := true }
          else (match infBits fmt with
            | some b => { bits := sign s b, sat := true }
            | none => { bits := nanBits fmt, sat := true })
        else if k < 2 ^ mw then { bits := sign s k }
        else
          let ex := (log2 k : Int) + g + bias
          let frac := k / 2 ^ (log2 k - mw) - 2 ^ mw
          { bits := sign s (ex.toNat * 2 ^ mw + frac) }

end FV

end Sys2Proof
end

