-- ==== Sys2Proof/Machine/MioLoad.lean ====
section
/-! DEFINITION. What a Miobor command reads and writes: its operands (R219, R224), the tiles that it checks at use (R216, R222, R223),
and the rows that it computes for its output tensors (R217). -/

namespace Sys2Proof.Machine

open Sys2Proof

/-- The operands of a Miobor descriptor (R224); the tensors of its handles, none for the handle 0xFFFF; `same` says that A and C are
one handle. -/
structure MOps where
  op : Nat
  mode : Nat
  m : Nat
  n : Nat
  k : Nat
  param : Nat
  alpha : FV
  beta : FV
  zero : Bool
  conv : FV.Conv
  a : Option Tensor := none
  b : Option Tensor := none
  c : Option Tensor := none
  d : Option Tensor := none
  aux : Option Tensor := none
  pred : Option Tensor := none
  same : Bool := false
  deriving DecidableEq, Repr

/-- The operands that are numbers; `stoch` says that STOCH_ALLOW is set (R210). -/
def MOps.ofDesc (d : Desc) (stoch : Bool) : MOps :=
  let o := d.at 0x3C 2
  { op := d.opcode, mode := d.at 0x1C 4, m := d.at 0x20 4, n := d.at 0x24 4, k := d.at 0x28 4, param := d.at 0x2C 4
    alpha := FV.c32 (d.at 0x30 4), beta := FV.c32 (d.at 0x34 4), zero := bit o 2
    conv := { stoch := bit o 0 && stoch, sat := bit o 1, seed := d.at 0x38 4 } }

/-- The handles that a command uses (R225): which of A, B, C, D, AUX it names beside PRED. ELTWISE uses B and D as its operation
does. -/
def usedHandles (op mode : Nat) : List Nat :=
  match op with
  | 0x10 => [0, 1, 2, 3]
  | 0x11 => [0, 1, 2, 3]
  | 0x12 => [0, 1, 2, 3]
  | 0x13 => [0, 2, 3, 4]
  | 0x14 => [0, 2, 3]
  | 0x15 => [0, 2, 3]
  | 0x16 => [0, 2]
  | 0x17 => [0, 2, 3]
  | 0x18 => [0, 1, 2, 3, 4]
  | 0x19 => [0, 1, 2]
  | 0x1A => [0, 1, 2]
  | 0x1B =>
    let e := mode % 256
    if e = 4 then [0, 1, 2, 3] else if e = 1 || e = 2 || e = 3 || e = 5 || e = 6 || e = 7 then [0, 1, 2] else [0, 2]
  | _ => [0, 2]

/-- One tile checked at use: what its header must hold, how many times it is read, and the bytes of a read. -/
structure TileUse where
  tile : Nat
  format : Nat
  shape : Nat
  index : Nat
  gen : Nat
  uses : Nat := 1
  bytes : Nat := 2048
  deriving DecidableEq, Repr

namespace Tensor

/-- Bytes of one of its tiles that are read or written (R221). -/
def tileBytes (t : Tensor) : Nat := if t.blocked then 128 * t.dims.2.2 else 2048
/-- The check of one of its tiles. -/
def use (t : Tensor) (n i : Nat) : TileUse :=
  { tile := t.first + i, format := t.format, shape := t.shapeAt i, index := i, gen := t.gen, uses := n, bytes := t.tileBytes }
/-- Its tiles that hold a row which is needed. -/
def tilesFor (t : Tensor) (need : Nat → Bool) : List Nat :=
  (List.range t.down).flatMap fun a =>
    if (List.range t.dims.1).any fun r => t.dims.1 * a + r < t.rows && need (t.dims.1 * a + r)
    then (List.range t.across).map fun b => a * t.across + b else []
/-- The checks of the tiles that hold needed rows. -/
def usesFor (t : Tensor) (need : Nat → Bool) (n : Nat := 1) : List TileUse := (t.tilesFor need).map (t.use n)
/-- The checks of all its tiles. -/
def usesAll (t : Tensor) (n : Nat := 1) : List TileUse := (List.range t.count).map (t.use n)
/-- A tensor of bits: block mask or predicate; `total` bits from the tile `first`. -/
def bitUses (first gen format total : Nat) : List TileUse :=
  (List.range (ceilDiv total 16384)).map fun i =>
    { tile := first + i, format := format, shape := min 16384 (total - 16384 * i) - 1, index := i, gen := gen }
/-- Rows and columns as the command gives them. -/
def is (t : Tensor) (m n : Nat) : Bool := t.rows == m && t.cols == n
/-- The shape broadcasts to m × n (R213). -/
def casts (t : Tensor) (m n : Nat) : Bool := (t.rows == m || t.rows == 1) && (t.cols == n || t.cols == 1)
/-- Its elements are integers. -/
def isInt (t : Tensor) : Bool := intFormat t.format
/-- The data tiles of a SPARSE24 tensor (R220). -/
def kept (t : Tensor) : Tensor := { t with rows := t.rows / 2 }
/-- The metadata of a SPARSE24 tensor (R220). -/
def indices (t : Tensor) : Tensor :=
  { first := t.meta_, gen := t.metaGen, format := 0x10, rows := t.rows / 2, cols := t.cols }
/-- The tile numbers of its data: the first and how many (R219); a SPARSE24 tensor holds half of its rows (R220). -/
def run (t : Tensor) : Nat × Nat := (t.first, if t.sparse then t.kept.count else t.count)

end Tensor

/-- Two runs of tile numbers have one in common. -/
def runsMeet (x y : Nat × Nat) : Bool := x.1 < y.1 + y.2 && y.1 < x.1 + x.2

/-- Rows that a command computes for an output tensor: none where a row keeps what it holds. `add` says that the command changes
the tensor in part, so that its tiles are checked as inputs. -/
structure MOut where
  t : Tensor
  rows : List (Option (List FV.Elem))
  add : Bool := false
  deriving DecidableEq, Repr

/-- The rows that tile-row `a` of an output holds. -/
def MOut.span (w : MOut) (a : Nat) : List (Option (List FV.Elem)) := (w.rows.drop (w.t.dims.1 * a)).take w.t.dims.1

/-- The tiles that an output writes, and whether each is merged. -/
def MOut.tiles (w : MOut) : List (Nat × Bool) :=
  (List.range w.t.down).flatMap fun a =>
    let l := w.span a
    if l.any Option.isSome then (List.range w.t.across).map fun b => (a * w.t.across + b, w.add || l.any Option.isNone) else []

/-- Elements of an output that were clamped, and NaNs written as integers. -/
def MOut.events (w : MOut) : Nat × Nat :=
  w.rows.foldl (fun a r => match r with
    | some l => l.foldl (fun a e => (a.1 + ofBool e.sat, a.2 + ofBool e.nanInt)) a
    | none => a) (0, 0)

/-- What a command does once its inputs pass: the checks in order of dependence, the outputs, the MACs with their register and event code of
R402, lane operations (none where the spec gives no figure), and the counts of R236. `free` says that R238 holds. -/
structure MJob where
  reads : List (List TileUse) := []
  outs : List MOut := []
  macs : Option (Reg × Nat × Nat) := none
  vec : Option Nat := some 0
  blocks : Nat := 0
  skipped : Nat := 0
  sat : Nat := 0
  oor : Nat := 0
  assigned : Nat := 0
  dropped : Nat := 0
  compute : Nat := 0
  free : Bool := false
  deriving DecidableEq, Repr

namespace Chip

/-- A bit of a bit tensor (R221, R223). -/
def bitAt (c : Chip) (p first r : Nat) : Bool :=
  bit ((c.tile p (first + r / 16384)).byte (r % 16384 / 8)) (r % 8)

/-- The check at use by the cluster: only SRAM tiles of its partition pass (R206). -/
def checkUse (c : Chip) (p x : Nat) (u : TileUse) : Option TileFail :=
  if 0x10000 ≤ u.tile then
    let t := c.tile p u.tile
    some { tile := u.tile, field := 1, want := packHeads x u.format t }
  else c.checkTile p u.tile x u.format u.shape u.index u.gen

/-- The failures of a list of checks. -/
def failsOf (c : Chip) (p x : Nat) (l : List TileUse) : List TileFail := l.filterMap (c.checkUse p x)

/-- The handle of an operand by its place in R224. -/
def handleAt (d : Desc) (i : Nat) : Nat := d.at (0x10 + 2 * i) 2

/-- The handles that a command names, PRED among them. -/
def namedHandles (d : Desc) : List Nat :=
  ((usedHandles d.opcode (d.at 0x1C 4) ++ [5]).map (handleAt d)).filter fun h => h ≠ 0xFFFF

/-- The operands with their tensors; the failures of the tensor table, one for each handle that has one (R219). -/
def operands (c : Chip) (p x : Nat) (d : Desc) : MOps × List TileFail :=
  let o := MOps.ofDesc d (c.reg .MIOBOR_STOCH_ALLOW p == 1)
  let used := usedHandles d.opcode o.mode ++ [5]
  let get := fun (i : Nat) =>
    let h := handleAt d i
    if i ∈ used && h ≠ 0xFFFF then some (c.tensor p x h) else none
  let ten := fun (i : Nat) => match get i with | some (.inl t) => some t | _ => none
  let fails := used.filterMap fun i => match get i with | some (.inr f) => some f | _ => none
  ({ o with a := ten 0, b := ten 1, c := ten 2, d := ten 3, aux := ten 4, pred := ten 5, same := handleAt d 0 = handleAt d 2 }, fails)

/-- The rows that the predicate keeps (R223). -/
def liveRow (c : Chip) (p : Nat) (o : MOps) (r : Nat) : Bool :=
  match o.pred with
  | some t => c.bitAt p t.first r
  | none => true

/-- The live rows of the M dimension. -/
def liveRows (c : Chip) (p : Nat) (o : MOps) : List Nat := (List.range o.m).filter (c.liveRow p o)

/-- The checks of the predicate tiles. -/
def predUses (o : MOps) : List TileUse :=
  match o.pred with
  | some t => Tensor.bitUses t.first t.gen 0x12 o.m
  | none => []

/-- An element as a value, exact. -/
def val (c : Chip) (p : Nat) (t : Tensor) (i j : Nat) : FV := FV.decode t.format (c.elem p t i j)
/-- An element in FP32 (R209). -/
def val32 (c : Chip) (p : Nat) (t : Tensor) (i j : Nat) : FV := if t.format = 7 then FV.f32 (c.val p t i j) else c.val p t i j
/-- An integer element. -/
def ival (c : Chip) (p : Nat) (t : Tensor) (i j : Nat) : Int := ofField (formatBits t.format) (c.elem p t i j)
/-- The element that broadcast assigns (R213). -/
def cast32 (c : Chip) (p : Nat) (t : Tensor) (i j : Nat) : FV :=
  c.val32 p t (if t.rows = 1 then 0 else i) (if t.cols = 1 then 0 else j)
/-- The checks of a broadcast operand for live rows. -/
def castUses (t : Tensor) (live : Nat → Bool) : List TileUse := if t.rows = 1 then t.usesAll else t.usesFor live

/-- A value converted to an output's format (R210, R211). -/
def conv (o : MOps) (t : Tensor) (i j : Nat) (v : FV) : FV.Elem := FV.encode o.conv t.format (trunc 32 (i * t.cols + j)) v

/-- The rows of an m-row output: what a live row gives, and zeros or nothing for a skipped one (R223). -/
def rowsOf (c : Chip) (p : Nat) (o : MOps) (cols : Nat) (f : Nat → List FV.Elem) : List (Option (List FV.Elem)) :=
  (List.range o.m).map fun r =>
    if c.liveRow p o r then some (f r) else if o.zero then some (List.replicate cols ⟨0, false, false⟩) else none

/-- Rows of an output whose elements are given one by one. -/
def rowsBy (c : Chip) (p : Nat) (o : MOps) (t : Tensor) (f : Nat → Nat → FV) : List (Option (List FV.Elem)) :=
  c.rowsOf p o t.cols fun i => (List.range t.cols).map fun j => conv o t i j (f i j)

/-! Writing outputs -/

/-- What fails when an output tile is about to be written (R217). -/
def outFail (c : Chip) (p x : Nat) (t : Tensor) (i : Nat) (merge : Bool) : Option TileFail :=
  let n := t.first + i
  let old := c.tile p n
  let bad := fun f => some { tile := n, field := f, want := packHeads x t.format old : TileFail }
  if 0x10000 ≤ n || c.tileVacant p n then bad 1
  else if old.ctx ≠ x then bad 2
  else if merge then c.checkUse p x (t.use 1 i) else none

/-- Writes the tiles of an output. -/
def writeOut (c : Chip) (p x : Nat) (w : MOut) : Chip :=
  w.tiles.foldl (fun c e =>
    let data := tensorPayload w.t e.1 fun i j =>
      match w.rows[i]? with
      | some (some l) => (l[j]?.map FV.Elem.bits).getD 0
      | _ => c.elem p w.t i j
    c.setTile p (w.t.first + e.1) (tensorTile x w.t e.1 data)) c

/-- Writes tiles of an output with values that `v` leaves open, by row and column; rows that the command does not write keep what they
hold, and a tile whose write fails stays as it is (R217, R218). -/
def writeFree (c : Chip) (p x : Nat) (w : MOut) (tiles : List Nat) (v : Nat → Nat → Nat) : Chip :=
  tiles.foldl (fun c i =>
    if (c.outFail p x w.t i false).isSome then c
    else c.setTile p (w.t.first + i) (tensorTile x w.t i (tensorPayload w.t i fun r j =>
      match w.rows[r]? with
      | some none => c.elem p w.t r j
      | _ => trunc w.t.dims.2.2 (v r j)))) c

end Chip

end Sys2Proof.Machine
end

