-- ==== Sys2Proof/Machine/MioCmds.lean ====
section
/-! DEFINITION. The Miobor commands (R212, R213, R220 to R230): for each, the tiles that it checks, the rows that it computes, what
it counts (R226, R236) and its compute cycles (R234). Bits of MODE that a command's row of R225 does not name are ignored (R6). An answer of none means that R238 leaves the outcome open, or that the spec
states no result for such operands. -/

namespace Sys2Proof.Machine

open Sys2Proof

/-- An INT32 element. -/
def intElem (i : Int) : FV.Elem := { bits := toField 32 i }

/-- One tensor's own entry is sound (R215, R221, R238). -/
def Tensor.sound (t : Tensor) : Bool := 1 ≤ t.format && t.format ≤ 7 && !(t.blocked && 6 ≤ t.format)

/-- The tile numbers that the command reads beside the data of its tensors: the predicate (R223), the 2:4 metadata (R220) and the block
mask of the masked operand (R221). -/
def MOps.metaRuns (o : MOps) : List (Nat × Nat) :=
  let mask := if o.op = 0x12 then (if bit o.mode 0 then o.a else o.b).toList.map fun t => (t.meta_, ceilDiv t.count 16384) else []
  let indices := if o.op = 0x11 then o.b.toList.map fun t => t.indices.run else []
  (o.pred.toList.map fun t => (t.first, ceilDiv o.m 16384)) ++ mask ++ indices

/-- Nothing of R238 that the entries alone show: formats, SPARSE24 where it has no place, and outputs that meet another tensor. -/
def MOps.sound (o : MOps) (ins outs : List Tensor) : Bool :=
  (ins ++ outs).all Tensor.sound && outs.all fun t =>
    !t.sparse && !(o.metaRuns.any fun u => runsMeet t.run u)
      && !(ins.any fun u => runsMeet t.run u.run && !(o.same && (o.op == 0x15 || o.op == 0x1B) && o.a == some u))

/-- Two different outputs do not meet. -/
def apart (l : List Tensor) : Bool :=
  match l with
  | [] => true
  | t :: r => r.all (fun u => !runsMeet t.run u.run) && apart r

/-! GEMM, SPGEMM, BSGEMM -/

/-- Products a cell forms in so many cycles (R226): the numerator and the denominator of the rate; none for another pairing. -/
def rateOf (a b : Nat) : Option (Nat × Nat) :=
  if a = 1 ∧ b = 1 then some (2, 1)
  else if (a = 1 ∨ a = 2) ∧ (b = 1 ∨ b = 2) then some (1, 1)
  else if (a = 3 ∨ a = 4) ∧ (b = 3 ∨ b = 4) then some (1, 1)
  else if a = 5 ∧ b = 5 then some (1, 2) else none

/-- The counter of dense or 2:4 MACs of a format and its event code (R226, R236, R402). -/
def macReg (format : Nat) (sparse : Bool) : Reg × Nat :=
  match format, sparse with
  | 1, false => (.MIOBOR_MAC_INT4, 2) | 2, false => (.MIOBOR_MAC_INT8, 3) | 3, false => (.MIOBOR_MAC_E4M3, 4)
  | 4, false => (.MIOBOR_MAC_E5M2, 5) | _, false => (.MIOBOR_MAC_BF16, 6)
  | 1, true => (.MIOBOR_MAC24_INT4, 7) | 2, true => (.MIOBOR_MAC24_INT8, 8) | 3, true => (.MIOBOR_MAC24_E4M3, 9)
  | 4, true => (.MIOBOR_MAC24_E5M2, 10) | _, true => (.MIOBOR_MAC24_BF16, 11)

/-- The integer accumulator of an element (R212): group sums added with saturation, and how often it saturated. -/
def accInt (k : Nat) (f : Nat → Int) : Int × Nat :=
  (List.range (ceilDiv k 64)).foldl (fun a g =>
    let s : Int := ((List.range (min 64 (k - 64 * g))).map fun i => f (64 * g + i)).sum
    let r := FV.clampInt 7 (a.1 + s)
    (r.1, a.2 + ofBool r.2)) (0, 0)

/-- The FP32 accumulator of an element (R212): each group's exact sum is rounded once, then added. -/
def accFloat (k : Nat) (f : Nat → FV × FV) : FV :=
  (List.range (ceilDiv k 64)).foldl (fun a g =>
    let s := (List.range (min 64 (k - 64 * g))).foldl (fun s i =>
      let x := f (64 * g + i)
      FV.exactAdd s (FV.exactMul x.1 x.2)) FV.zero
    FV.add a (FV.f32 s)) FV.zero

namespace Chip

/-- A block of a BLOCKED tensor is not masked (R221). -/
def blockOn (c : Chip) (p : Nat) (t : Tensor) (a b : Nat) : Bool := c.bitAt p t.meta_ (a * ceilDiv t.cols 32 + b)

/-- An element of B of SPGEMM, decompressed (R220, R222): the place among the kept rows of its group and column, none where it is
dropped. -/
def keptAt (c : Chip) (p : Nat) (b : Tensor) (k j : Nat) : Option Nat :=
  let g := k / 4
  if c.elem p b.indices (2 * g) j = k % 4 then some (2 * g)
  else if c.elem p b.indices (2 * g + 1) j = k % 4 then some (2 * g + 1) else none

/-- Element of A or B as GEMM's definition takes it: the place in the tensor that is read, or none for +0. -/
def matPlace (c : Chip) (p : Nat) (masked sparse : Bool) (t : Tensor) (i j : Nat) : Option (Nat × Nat) :=
  if sparse then (c.keptAt p t i j).map fun r => (r, j)
  else if masked && !c.blockOn p t (i / 32) (j / 32) then none else some (i, j)

/-- Rows of a 64-row group of which one is live. -/
def groupLive (c : Chip) (p : Nat) (o : MOps) (g : Nat) : Bool :=
  (List.range 64).any fun r => 64 * g + r < o.m && c.liveRow p o (64 * g + r)

/-- The result of the epilogue (R213). DEDUCED (log 25): acc + d with a D of a float format is the exact sum, converted to INT32 by R210
and R211. -/
def epilogue (c : Chip) (p : Nat) (o : MOps) (t : Tensor) (int : Bool) (acc : Int × FV) (i j : Nat) : FV.Elem :=
  if int && t.format = 7 then
    let d := match o.d with | some d => c.val p d (if d.rows = 1 then 0 else i) (if d.cols = 1 then 0 else j) | none => FV.zero
    FV.encode {} 7 0 (FV.exactAdd (FV.ofInt acc.1) d)
  else
    let d := match o.d with | some d => c.cast32 p d i j | none => FV.zero
    let x := if int then FV.f32 (FV.ofInt acc.1) else acc.2
    conv o t i j (FV.fma o.beta d (FV.mul o.alpha x))

/-- Cycles of BSGEMM (R234): output blocks with a live row, two at a time, each pair as long as the longer of its two. -/
def pairCycles : List Nat → Nat
  | a :: b :: r => max a b + pairCycles r
  | [a] => a
  | [] => 0

/-- GEMM, SPGEMM and BSGEMM. -/
def matJob (c : Chip) (p : Nat) (o : MOps) : Option MJob :=
  match o.a, o.b, o.c with
  | some a, some b, some t =>
    let sp : Bool := o.op == 0x11
    let bs : Bool := o.op == 0x12
    let onA := bs && bit o.mode 0
    let onB := bs && !bit o.mode 0
    let dOk := match o.d with
      | some d => d.casts o.m o.n && (3 ≤ d.format && d.format ≤ 7) && !d.sparse
      | none => true
    let int := a.isInt
    match rateOf a.format b.format with
    | none => none
    | some rate =>
      if !(o.sound ([a, b] ++ o.d.toList) [t] && dOk && a.is o.m o.k && b.is o.k o.n && t.is o.m o.n && !a.sparse && b.sparse == sp
          && (!onA || a.blocked) && (!onB || b.blocked) && (!sp || (o.k % 4 == 0 && !b.blocked))
          && !(t.format = 7 && !int)) then none
      else
        let groups := (List.range (ceilDiv o.m 64)).filter (c.groupLive p o)
        let cb := ceilDiv o.n 64
        let live := (c.liveRows p o).length
        let masked := if onA then some a else if onB then some b else none
        let maskUses := match masked with
          | some m => if groups.isEmpty then [] else Tensor.bitUses m.meta_ m.metaGen 0x11 m.count
          | none => []
        let on := fun (t : Tensor) (m : Bool) (u : TileUse) => !m || c.blockOn p t (u.index / t.across) (u.index % t.across)
        let au := (a.usesFor (fun r => decide (r / 64 ∈ groups)) cb).filter (on a onA)
        let bu :=
          if groups.isEmpty then []
          else if sp then b.kept.usesAll groups.length ++ b.indices.usesAll groups.length
          else (b.usesAll groups.length).filter (on b onB)
        let du := match o.d with | some d => castUses d (c.liveRow p o) | none => []
        let aAt := c.matPlace p onA false a
        let bAt := c.matPlace p onB sp b
        let pi := fun i j k => match aAt i k, bAt k j with
          | some x, some y => c.ival p a x.1 x.2 * c.ival p (if sp then b.kept else b) y.1 y.2
          | _, _ => (0 : Int)
        let v := fun (t : Tensor) (x : Option (Nat × Nat)) => match x with | some x => c.val p t x.1 x.2 | none => FV.zero
        let pf := fun i j k => (v a (aAt i k), v (if sp then b.kept else b) (bAt k j))
        let acc := fun i j => if int then ((accInt o.k (pi i j)).1, FV.zero) else ((0 : Int), accFloat o.k (pf i j))
        let rows := c.rowsOf p o o.n fun i => (List.range o.n).map fun j => c.epilogue p o t int (acc i j) i j
        let sats := if int then
          ((c.liveRows p o).map fun i => ((List.range o.n).map fun j => (accInt o.k (pi i j)).2).sum).sum else 0
        let blocksOf := fun (t : Tensor) => (List.range t.down).flatMap fun i => (List.range t.across).map fun j => (i, j)
        let passed := match masked with
          | some m => (blocksOf m).filter fun (x : Nat × Nat) => !c.blockOn p m x.1 x.2 && !groups.isEmpty && (!onA || decide (x.1 / 2 ∈ groups))
          | none => []
        let liveIn := fun i => ((c.liveRows p o).filter fun r => r / 32 = i).length
        let macs :=
          if onA then (((blocksOf a).filter fun x => c.blockOn p a x.1 x.2).map fun x =>
            liveIn x.1 * min 32 (o.k - 32 * x.2) * o.n).sum
          else if onB then (((blocksOf b).filter fun x => c.blockOn p b x.1 x.2).map fun x =>
            live * min 32 (o.k - 32 * x.1) * min 32 (o.n - 32 * x.2)).sum
          else if sp then live * o.n * o.k / 2 else live * o.n * o.k
        let steps := fun (g col : Nat) => ((List.range (ceilDiv o.k 32)).filter fun s =>
          if onA then [2 * g, 2 * g + 1].any fun r => r < a.down && c.blockOn p a r s
          else [2 * col, 2 * col + 1].any fun q => q < b.across && c.blockOn p b s q).length
        let cycles :=
          if bs then pairCycles (groups.flatMap fun g => (List.range cb).map fun col => ceilDiv (32 * steps g col * rate.2) rate.1)
          else ceilDiv (groups.length * cb) 2 * ceilDiv (o.k * rate.2) (if sp then 2 * rate.1 else rate.1)
        let ascending := !sp || (List.range (o.k / 4)).all fun g => (List.range o.n).all fun j =>
          c.elem p b.indices (2 * g) j < c.elem p b.indices (2 * g + 1) j
        some { reads := [maskUses, au ++ bu ++ du], outs := [{ t := t, rows := rows }]
               macs := some ((macReg a.format sp).1, (macReg a.format sp).2, macs)
               blocks := passed.length, skipped := o.m - live, sat := sats, compute := cycles, free := !ascending }
  | _, _, _ => none

/-! Ranking: TOPK and GATE (R227, R228) -/

/-- The columns of a row in the order of choice. -/
def ranked (largest : Bool) (row : List FV) : List Nat :=
  (sortBy (fun a b => !FV.before largest b.2 a.2) ((List.range row.length).zip row)).map Prod.fst

/-- A row of a tensor as values of the vector unit (R209). -/
def rowVals (c : Chip) (p : Nat) (t : Tensor) (i : Nat) : List FV := (List.range t.cols).map fun j => c.val32 p t i j

/-- ceil(log2 n). -/
def ceilLog2 (n : Nat) : Nat := if n ≤ 1 then 0 else (n - 1).log2 + 1

/-- TOPK. -/
def topkJob (c : Chip) (p : Nat) (o : MOps) : Option MJob :=
  match o.a, o.c, o.d with
  | some a, some t, some d =>
    if !(o.sound [a] [t, d] && apart [t, d] && !a.sparse && a.is o.m o.n && t.is o.m o.param && d.is o.m o.param && d.format == 7
        && 1 ≤ o.param && o.param ≤ 1024 && o.param ≤ o.n) then none
    else
      let live := (c.liveRows p o).length
      let pick := fun i => (ranked (!bit o.mode 0) (c.rowVals p a i)).take o.param
      let elts := live * o.n * (ceilLog2 o.param + 2)
      let vals := c.rowsOf p o o.param fun i => (pick i).mapIdx fun q j => conv o t i q (c.val32 p a i j)
      let cols := c.rowsOf p o o.param fun i => (pick i).map fun (j : Nat) => intElem (j : Int)
      some { reads := [a.usesFor (c.liveRow p o)], outs := [{ t := t, rows := vals }, { t := d, rows := cols }]
             vec := some elts, skipped := o.m - live, compute := ceilDiv elts 256 }
  | _, _, _ => none

/-- SOFTMAX of a row of x_j, or its logarithm (R230). -/
def softmaxRow (log : Bool) (xs : List FV) : List FV :=
  let m := xs.foldl FV.vmax .nan
  let es := xs.map fun x => FV.exp (FV.sub x m)
  let s := es.foldl FV.add FV.zero
  if log then let l := FV.ln s; xs.map fun x => FV.sub (FV.sub x m) l
  else let r := FV.recip s; es.map fun e => FV.mul e r

/-- The choices of GATE against the capacity: assigned choices, and how many each expert was assigned and refused (R228). -/
def gateFill (cap : Nat) (l : List (Nat × Nat × Nat)) : List (Nat × Nat) × SMap Nat × SMap Nat :=
  l.foldl (fun s x =>
    let n := SMap.get 0 s.2.1 x.2.2
    if n < cap then ((x.1, x.2.1) :: s.1, SMap.set 0 s.2.1 x.2.2 (n + 1), s.2.2)
    else (s.1, s.2.1, SMap.set 0 s.2.2 x.2.2 (SMap.get 0 s.2.2 x.2.2 + 1))) ([], [], [])

/-- GATE. -/
def gateJob (c : Chip) (p : Nat) (o : MOps) : Option MJob :=
  match o.a, o.c, o.d, o.aux with
  | some a, some t, some d, some u =>
    let weight := bits o.mode 2 1
    if !(o.sound [a] [t, d, u] && apart [t, d, u] && !a.sparse && a.is o.m o.n && (a.format == 5 || a.format == 6) && t.is o.m o.param
        && t.format == 7 && d.is o.m o.param && d.format == 6 && u.is o.n 2 && u.format == 7 && 1 ≤ o.param && o.param ≤ 8
        && o.param ≤ o.n && 1 ≤ o.k && o.k ≤ o.m && weight ≠ 3) then none
    else
      let rows := c.liveRows p o
      let pick := fun i => (ranked true (c.rowVals p a i)).take o.param
      let all := rows.flatMap fun i => (pick i).mapIdx fun q e => (i, q, e)
      let order := if bit o.mode 0 then (List.range o.param).flatMap fun q => all.filter fun x => x.2.1 = q else all
      let r := gateFill o.k order
      let score := fun i q =>
        let ch := pick i
        let xs := c.rowVals p a i
        if weight = 0 then xs.getD (ch.getD q 0) .nan
        else if weight = 1 then (softmaxRow false xs).getD (ch.getD q 0) .nan
        else (softmaxRow false (ch.map fun e => xs.getD e .nan)).getD q .nan
      let idx := c.rowsOf p o o.param fun i => (pick i).mapIdx fun q (e : Nat) => if (i, q) ∈ r.1 then intElem (e : Int) else intElem (-1)
      let wts := c.rowsOf p o o.param fun i => (List.range o.param).map fun q =>
        if (i, q) ∈ r.1 then FV.encode {} 6 0 (score i q) else { bits := 0 }
      let keep := bit o.mode 3
      let old := fun e k => if keep then c.ival p u e k else 0
      let cnt := (List.range o.n).map fun e =>
        some [(SMap.get 0 r.2.1 e, 0), (SMap.get 0 r.2.2 e, 1)] |>.map fun l => l.map fun x =>
          let v := FV.clampInt 7 (old e x.2 + (x.1 : Int))
          { bits := toField 32 v.1, sat := v.2 : FV.Elem }
      let elts := rows.length * o.n * (ceilLog2 o.param + 2)
      some { reads := [a.usesFor (c.liveRow p o)]
             outs := [{ t := t, rows := idx }, { t := d, rows := wts }, { t := u, rows := cnt, add := keep }]
             vec := some elts, skipped := o.m - rows.length, compute := ceilDiv elts 256
             assigned := r.1.length, dropped := (r.2.2.map Prod.snd).sum }
  | _, _, _, _ => none

/-! Rows and elements -/

/-- SOFTMAX. -/
def softmaxJob (c : Chip) (p : Nat) (o : MOps) : Option MJob :=
  match o.a, o.c with
  | some a, some t =>
    let dOk := match o.d with | some d => (d.is 1 o.n || d.is o.m o.n) && !d.sparse | none => true
    if !(o.sound ([a] ++ o.d.toList) [t] && dOk && !a.sparse && a.is o.m o.n && t.is o.m o.n) then none
    else
      let live := (c.liveRows p o).length
      let x := fun i j => match o.d with
        | some d => FV.fma o.alpha (c.val32 p a i j) (c.cast32 p d i j)
        | none => FV.mul o.alpha (c.val32 p a i j)
      let rows := c.rowsOf p o o.n fun i =>
        (softmaxRow (bit o.mode 0) ((List.range o.n).map (x i))).mapIdx fun j v => conv o t i j v
      let du := match o.d with | some d => castUses d (c.liveRow p o) | none => []
      some { reads := [a.usesFor (c.liveRow p o) ++ du], outs := [{ t := t, rows := rows }]
             vec := some (live * o.n * 14), skipped := o.m - live, compute := ceilDiv (live * o.n * 14) 256 }
  | _, _ => none

/-- An operation of ELTWISE in FP32 (R230); none for a reserved one. -/
def eltOp (o : MOps) (e : Nat) (a b d : FV) : Option (FV × Nat) :=
  match e with
  | 0x00 => some (a, 1)
  | 0x01 => some (FV.add a b, 1)
  | 0x02 => some (FV.sub a b, 1)
  | 0x03 => some (FV.mul a b, 1)
  | 0x04 => some (FV.fma a b d, 1)
  | 0x05 => some (FV.fma o.beta b (FV.mul o.alpha a), 2)
  | 0x06 => some (FV.vmax a b, 1)
  | 0x07 => some (FV.vmin a b, 1)
  | 0x08 => some (if a.isNan then .nan else FV.vmax a FV.zero, 1)
  | 0x09 => some (FV.exp a, 10)
  | 0x0A => some (FV.sigmoid a, 12)
  | 0x0B => some (FV.tanh a, 13)
  | 0x0C => some (FV.gelu a, 17)
  | 0x0D => some (FV.recip a, 4)
  | _ => none

/-- ELTWISE. COPY converts the exact element. -/
def eltJob (c : Chip) (p : Nat) (o : MOps) : Option MJob :=
  match o.a, o.c, eltOp o (o.mode % 256) .nan .nan .nan with
  | some a, some t, some (_, cost) =>
    let e := o.mode % 256
    let others := (if 3 ∈ usedHandles 0x1B e then [o.b, o.d] else if 1 ∈ usedHandles 0x1B e then [o.b] else [])
    if !(o.sound ([a] ++ others.filterMap id) [t] && others.all (fun x => match x with | some b => b.casts o.m o.n && !b.sparse | none => false)
        && !a.sparse && a.is o.m o.n && t.is o.m o.n) then none
    else
      let live := (c.liveRows p o).length
      let arg := fun (x : Option Tensor) i j => match x with | some b => c.cast32 p b i j | none => FV.zero
      let f := fun i j =>
        if e = 0 then c.val p a i j
        else match eltOp o e (c.val32 p a i j) (arg o.b i j) (arg o.d i j) with | some v => v.1 | none => .nan
      some { reads := [a.usesFor (c.liveRow p o) ++ (others.filterMap id).flatMap fun b => castUses b (c.liveRow p o)]
             outs := [{ t := t, rows := c.rowsBy p o t f }]
             vec := some (live * o.n * cost), skipped := o.m - live, compute := ceilDiv (live * o.n * cost) 256 }
  | _, _, _ => none

/-- INT32 addition with saturation, counting. -/
def satAdd (a : Int × Nat) (b : Int) : Int × Nat :=
  let r := FV.clampInt 7 (a.1 + b)
  (r.1, a.2 + ofBool r.2)

/-- The running results of a fold: after each element, or before it for an exclusive scan. -/
def runs {α β : Type} (excl : Bool) (f : β → α → β) : β → List α → List β
  | _, [] => []
  | s, x :: r => let n := f s x; (if excl then s else n) :: runs excl f n r

/-- SCAN. -/
def scanJob (c : Chip) (p : Nat) (o : MOps) : Option MJob :=
  match o.a, o.c with
  | some a, some t =>
    if !(o.sound [a] [t] && !a.sparse && a.is o.m o.n && t.is o.m o.n && (a.format == 6 || a.format == 7) && t.format == a.format) then none
    else
      let live := c.liveRows p o
      let ex := bit o.mode 0
      let ints := fun i => runs ex satAdd (0, 0) ((List.range o.n).map fun j => c.ival p a i j)
      let rows := c.rowsOf p o o.n fun i =>
        if a.format = 7 then (ints i).map fun s => intElem s.1
        else (runs ex FV.add FV.zero (c.rowVals p a i)).map fun v => FV.encode {} 6 0 v
      let sat := if a.format = 7 then (live.map fun i =>
        ((List.range o.n).foldl (fun s j => satAdd s (c.ival p a i j)) (0, 0)).2).sum else 0
      some { reads := [a.usesFor (c.liveRow p o)], outs := [{ t := t, rows := rows }], sat := sat
             vec := if a.format = 7 then some (live.length * o.n * 2) else none, skipped := o.m - live.length
             compute := if a.format = 7 then ceilDiv (live.length * o.n * 2) 256 else ceilDiv live.length 256 * o.n }
  | _, _ => none

/-- HIST. -/
def histJob (c : Chip) (p : Nat) (o : MOps) : Option MJob :=
  match o.a, o.c with
  | some a, some t =>
    let dOk := match o.d with
      | some d => d.is o.m 1 && d.format == 6 && !d.sparse && t.format == 6
      | none => t.format == 7
    if !(o.sound ([a] ++ o.d.toList) [t] && dOk && !a.sparse && a.is o.m 1 && a.format == 7 && t.is o.n 1) then none
    else
      let live := c.liveRows p o
      let keep := bit o.mode 0
      let inBin := fun (b : Nat) => live.filter fun r => c.ival p a r 0 = (b : Int)
      let out := fun (r : Nat) => c.ival p a r 0 < 0 || (o.n : Int) ≤ c.ival p a r 0
      let ints := fun b => (inBin b).foldl (fun s _ => satAdd s 1) ((if keep then c.ival p t b 0 else 0), 0)
      let bins := (List.range o.n).map fun b => match o.d with
        | none => some [intElem (ints b).1]
        | some d => some [FV.encode {} 6 0 ((inBin b).foldl (fun s r => FV.add s (c.val p d r 0)) (if keep then c.val p t b 0 else FV.zero))]
      let sat := match o.d with | none => ((List.range o.n).map fun b => (ints b).2).sum | some _ => 0
      let du := match o.d with | some d => d.usesFor (c.liveRow p o) | none => []
      some { reads := [a.usesFor (c.liveRow p o) ++ du], outs := [{ t := t, rows := bins, add := keep }], sat := sat
             oor := (live.filter out).length, vec := none, skipped := o.m - live.length, compute := ceilDiv o.m 64 }
  | _, _ => none

/-- SPMV. Each product is added with one rounding. -/
def spmvJob (c : Chip) (p : Nat) (o : MOps) : Option MJob :=
  match o.a, o.b, o.c, o.d, o.aux with
  | some a, some b, some t, some d, some u =>
    if !(o.sound [a, b, d, u] [t] && [a, b, d, u].all (fun x => !x.sparse) && a.is o.k 1 && d.is o.k 1 && d.format == 7 && u.is (o.m + 1) 1
        && u.format == 7 && b.is o.n 1 && t.is o.m 1 && t.format == 6) then none
    else
      let live := c.liveRows p o
      let ptr := fun r => c.ival p u r 0
      let good := live.all fun r => 0 ≤ ptr r && ptr r ≤ ptr (r + 1) && ptr (r + 1) ≤ (o.k : Int)
      let elts := fun r => (List.range ((ptr (r + 1)).toNat - (ptr r).toNat)).map fun i => (ptr r).toNat + i
      let inN := fun e => 0 ≤ c.ival p d e 0 && c.ival p d e 0 < (o.n : Int)
      let row := fun r => (elts r).foldl (fun s e =>
        if inN e then FV.fma (c.val32 p a e 0) (c.val32 p b (c.ival p d e 0).toNat 0) s else s) FV.zero
      let used := if good then live.flatMap elts else []
      let cols := (used.filter inN).map fun e => (c.ival p d e 0).toNat
      some { reads := [u.usesFor (fun r => c.liveRow p o r || (r ≠ 0 && c.liveRow p o (r - 1))),
                       d.usesFor (fun e => decide (e ∈ used)) ++ a.usesFor (fun e => decide (e ∈ used)),
                       b.usesFor (fun r => decide (r ∈ cols))]
             outs := [{ t := t, rows := c.rowsOf p o 1 fun i => [FV.encode {} 6 0 (row i)] }]
             oor := (used.filter fun e => !inN e).length, vec := none, skipped := o.m - live.length
             compute := ceilDiv o.k 64 + o.m, free := !good }
  | _, _, _, _, _ => none

/-- The row that an index names; none where it is out of range (R229). -/
def indexOf (c : Chip) (p : Nat) (b : Tensor) (rows i : Nat) : Option Nat :=
  let v := c.ival p b i 0
  if 0 ≤ v && v < (rows : Int) then some v.toNat else none

/-- GATHER. -/
def gatherJob (c : Chip) (p : Nat) (o : MOps) : Option MJob :=
  match o.a, o.b, o.c with
  | some a, some b, some t =>
    if !(o.sound [a, b] [t] && !a.sparse && !b.sparse && a.cols == o.n && b.is o.m 1 && b.format == 7 && t.is o.m o.n) then none
    else
      let live := c.liveRows p o
      let ix := c.indexOf p b a.rows
      let rows := c.rowsOf p o o.n fun i => match ix i with
        | some r => (List.range o.n).map fun j => conv o t i j (c.val p a r j)
        | none => List.replicate o.n { bits := 0 }
      let used := live.filterMap ix
      some { reads := [b.usesFor (c.liveRow p o), a.usesFor fun r => decide (r ∈ used)], outs := [{ t := t, rows := rows }]
             oor := (live.filter fun i => (ix i).isNone).length, skipped := o.m - live.length }
  | _, _, _ => none

/-- SCATTER. -/
def scatterJob (c : Chip) (p : Nat) (o : MOps) : Option MJob :=
  match o.a, o.b, o.c with
  | some a, some b, some t =>
    if !(o.sound [a, b] [t] && !a.sparse && !b.sparse && a.is o.m o.n && b.is o.m 1 && b.format == 7 && t.cols == o.n) then none
    else
      let live := c.liveRows p o
      let ix := c.indexOf p b t.rows
      let from_ := fun r => live.filter fun i => ix i = some r
      let int := t.format == 7 && a.isInt
      let ints := fun r j => (from_ r).foldl (fun s i => satAdd s (c.ival p a i j)) (c.ival p t r j, 0)
      let cell := fun r j =>
        if !bit o.mode 0 then (match (from_ r).getLast? with
          | some i => conv o t r j (c.val p a i j)
          | none => { bits := c.elem p t r j })
        else if int then intElem (ints r j).1
        else conv o t r j ((from_ r).foldl (fun s i => FV.add s (c.val32 p a i j)) (c.val32 p t r j))
      let rows := (List.range t.rows).map fun r => if (from_ r).isEmpty then none else some ((List.range o.n).map (cell r))
      let sat := if bit o.mode 0 && int then
        ((List.range t.rows).map fun r => ((List.range o.n).map fun j => (ints r j).2).sum).sum else 0
      some { reads := [b.usesFor (c.liveRow p o), a.usesFor (c.liveRow p o)], outs := [{ t := t, rows := rows, add := true }], sat := sat
             oor := (live.filter fun i => (ix i).isNone).length, skipped := o.m - live.length }
  | _, _, _ => none

/-! REDUCE -/

/-- An integer divided by a count to the nearest, ties to even. -/
def meanInt (s : Int) (n : Nat) : Int :=
  if n = 0 then 0
  else
    let k := FV.nearest (s.natAbs / n) (s.natAbs % n) n
    if s < 0 then -(k : Int) else k

/-- The result of one line: its elements in order with their indexes. -/
def lineOf (o : MOps) (t : Tensor) (int : Bool) (i j : Nat) (l : List (Nat × FV × Int)) : FV.Elem × Nat :=
  let op := o.mode % 4
  let mean := bit o.mode 3
  if op = 3 then
    (match l with
    | [] => (intElem (-1), 0)
    | x :: r => (intElem ((r.foldl (fun a y => if FV.before true y.2.1 a.2.1 then y else a) x).1 : Int), 0))
  else if l.isEmpty then
    ({ bits := if op = 0 || t.isInt then 0 else nanBits t.format }, 0)
  else if op = 0 then
    if int && t.format = 7 then
      let s := l.foldl (fun a x => satAdd a x.2.2) (0, 0)
      (intElem (if mean then meanInt s.1 l.length else s.1), s.2)
    else
      let s := l.foldl (fun a x => FV.add a x.2.1) FV.zero
      (Chip.conv o t i j (if mean then FV.divNat s l.length else s), 0)
  else (Chip.conv o t i j (l.foldl (fun a x => if op = 1 then FV.vmax a x.2.1 else FV.vmin a x.2.1) .nan), 0)

/-- REDUCE. -/
def reduceJob (c : Chip) (p : Nat) (o : MOps) : Option MJob :=
  match o.a, o.c with
  | some a, some t =>
    let down := bit o.mode 2
    if !(o.sound [a] [t] && !a.sparse && a.is o.m o.n && (if down then t.is 1 o.n else t.is o.m 1) && !(o.mode % 4 = 3 && t.format ≠ 7)) then none
    else
      let live := c.liveRows p o
      let int := a.isInt
      let at_ := fun i j => (c.val32 p a i j, if int then c.ival p a i j else 0)
      let rowLine := fun i => (List.range o.n).map fun j => (j, at_ i j)
      let colLine := fun j => live.map fun i => (i, at_ i j)
      let rows := if down then [some ((List.range o.n).map fun j => (lineOf o t int 0 j (colLine j)).1)]
        else c.rowsOf p o 1 fun i => [(lineOf o t int i 0 (rowLine i)).1]
      let sat := if down then ((List.range o.n).map fun j => (lineOf o t int 0 j (colLine j)).2).sum
        else (live.map fun i => (lineOf o t int i 0 (rowLine i)).2).sum
      let elts := live.length * o.n
      let seq : Bool := !down && o.mode % 4 == 0 && !(int && t.format == 7)
      some { reads := [a.usesFor (c.liveRow p o)], outs := [{ t := t, rows := rows }], sat := sat, vec := some elts
             skipped := o.m - live.length, compute := if seq then ceilDiv live.length 256 * o.n else ceilDiv elts 256 }
  | _, _ => none

/-- The job of a command by its opcode (R225). -/
def mioJob (c : Chip) (p : Nat) (o : MOps) : Option MJob :=
  match o.op with
  | 0x13 => c.gateJob p o
  | 0x14 => c.topkJob p o
  | 0x15 => c.softmaxJob p o
  | 0x16 => c.scanJob p o
  | 0x17 => c.histJob p o
  | 0x18 => c.spmvJob p o
  | 0x19 => c.gatherJob p o
  | 0x1A => c.scatterJob p o
  | 0x1B => c.eltJob p o
  | 0x1C => c.reduceJob p o
  | _ => c.matJob p o

end Chip

end Sys2Proof.Machine
end

