-- ==== Sys2Proof/Machine/Miobor.lean ====
section
/-! DEFINITION. The Miobor cluster: which command may run (R231, R232, R235), what a command that runs does to tiles, counters and its
completion (R207, R216 to R218, R234 to R236), its timeout (R233), and triples that no manifest lists (R265). -/

namespace Sys2Proof.Machine

open Sys2Proof

/-- A command of the cluster. -/
def Cmd.isMio (x : Cmd) : Bool :=
  (match x.q with
  | .compute .. => true
  | .core _ _ _ m => !m
  | .fw .. => true
  | _ => false) && 0x10 ≤ x.d.opcode && x.d.opcode ≤ 0x1C

/-- Counters that a command adds to while it runs, with their event codes of R402 (0 for none) and its amounts: none where the spec gives
no figure. -/
abbrev MioCounts := List (Reg × Nat × Option Nat)

/-- The counts of a command whose job is not known. -/
def mioCounters : MioCounts :=
  ([(.MIOBOR_MAC_INT4, 2), (.MIOBOR_MAC_INT8, 3), (.MIOBOR_MAC_E4M3, 4), (.MIOBOR_MAC_E5M2, 5), (.MIOBOR_MAC_BF16, 6),
    (.MIOBOR_MAC24_INT4, 7), (.MIOBOR_MAC24_INT8, 8), (.MIOBOR_MAC24_E4M3, 9), (.MIOBOR_MAC24_E5M2, 10), (.MIOBOR_MAC24_BF16, 11),
    (.MIOBOR_BLOCKS_SKIPPED, 12), (.MIOBOR_VEC_OPS, 13), (.MIOBOR_ROWS_SKIPPED, 14), (.MIOBOR_TILES_READ, 15), (.MIOBOR_TILES_WRITTEN, 0),
    (.MIOBOR_SAT_EVENTS, 0), (.MIOBOR_NAN_TO_INT, 0), (.MIOBOR_INDEX_OOR, 0), (.MIOBOR_GATE_ASSIGNED, 0),
    (.MIOBOR_GATE_DROPPED, 0)] : List (Reg × Nat)).map fun e => (e.1, e.2, none)

/-- Tiles that the outputs write, with whether each is merged, and the bytes of each. -/
def MJob.written (j : MJob) : List (Bool × Nat) := j.outs.flatMap fun w => w.tiles.map fun e => (e.2, w.t.tileBytes)

/-- Tiles checked at use: those of the tensor table, of the inputs, and the merged outputs (R217, R236). -/
def MJob.tilesRead (j : MJob) (uses : List TileUse) (table : Nat) : Nat :=
  table + (uses.map TileUse.uses).sum + (j.written.filter Prod.fst).length

/-- What a job counts once it has run to its end (R226, R236). -/
def MJob.counts (j : MJob) (uses : List TileUse) (table : Nat) : MioCounts :=
  let ev := j.outs.map MOut.events
  (j.macs.toList.map fun m => (m.1, m.2.1, some m.2.2)) ++
    [(.MIOBOR_VEC_OPS, 0x0D, j.vec), (.MIOBOR_BLOCKS_SKIPPED, 0x0C, some j.blocks), (.MIOBOR_ROWS_SKIPPED, 0x0E, some j.skipped),
     (.MIOBOR_TILES_READ, 0x0F, some (j.tilesRead uses table)), (.MIOBOR_TILES_WRITTEN, 0, some j.written.length),
     (.MIOBOR_SAT_EVENTS, 0, some (j.sat + (ev.map Prod.fst).sum)), (.MIOBOR_NAN_TO_INT, 0, some (ev.map Prod.snd).sum),
     (.MIOBOR_INDEX_OOR, 0, some j.oor), (.MIOBOR_GATE_ASSIGNED, 0, some j.assigned), (.MIOBOR_GATE_DROPPED, 0, some j.dropped)]

/-- The cycles of a job (R234). -/
def MJob.cycles (j : MJob) (uses : List TileUse) (table : Nat) : Nat :=
  let readBytes := 2048 * table + (uses.map fun u => u.uses * u.bytes).sum + ((j.written.filter Prod.fst).map Prod.snd).sum
  max j.compute (max (ceilDiv readBytes 512) (ceilDiv (j.written.map Prod.snd).sum 256)) + 200

/-- What a command does in full, as far as its operands show it. -/
structure MioPlan where
  outs : List MOut
  counts : MioCounts
  deriving DecidableEq, Repr

namespace Chip

/-! Triples (R265) -/

/-- The manifest of a context in a partition lists a triple; true where the context has no manifest there. -/
def tripleListed (c : Chip) (p x job layer op : Nat) : Bool :=
  let ms := (c.part p).sections.filterMap fun s => match s.body with
    | .manifest l => if s.ctx = x && s.state = 1 then some l else none
    | _ => none
  ms.isEmpty || ms.any fun l => l.any fun e => e.job = job && e.layer = layer && e.op = op

/-- The first descriptor of a context with an unlisted triple is counted and logged; it runs all the same. -/
def noteTriple (c : Chip) (p x : Nat) (d : Desc) : Chip :=
  let k := (x, d.job, d.layer, d.operator)
  if c.tripleListed p x d.job d.layer d.operator || k ∈ (c.part p).unlisted then c
  else
    let c := c.modPart p fun s => { s with unlisted := s.unlisted ++ [k] }
    (c.countFor x .IMAGE_UNLISTED_IDS p 1).henCtx x p 0x3604 [d.job, d.layer, d.operator]

/-- A command of a context's queue or stream runs. -/
def runTimed (c : Chip) (i : QId) (d : Desc) (f : Chip → Chip) : Chip :=
  c.runCmd i d fun c => match i, i.part with
    | .fw .., _ => f c
    | _, some p => f (c.noteTriple p i.ctx d)
    | _, none => f c

/-! Which command may run -/

/-- A context has a command waiting for the cluster. -/
def mioWaiting (c : Chip) (p x : Nat) : Bool := c.cmds.any fun y => y.isMio && y.q.part = some p && y.q.ctx = x
/-- The contexts with a command waiting, `x` counted among them where it is below 64. -/
def mioWork (c : Chip) (p x : Nat) : List Nat := (List.range 64).filter fun y => y = x || c.mioWaiting p y
/-- A context may use the cluster now: it holds it, or the holder has nothing waiting and it is next (R232). -/
def mioTurn (c : Chip) (p x : Nat) : Bool :=
  match (c.part p).mioCtx with
  | some y => y = x || (!c.mioWaiting p y && mioNext (c.mioWork p x) y = some x)
  | none => mioNext (c.mioWork p x) 63 = some x
/-- An earlier command of the context has not ended (R231). -/
def mioBehind (c : Chip) (i : QId) (d : Desc) : Bool :=
  let mine := c.cmdOf i d.tag
  c.cmds.any fun y => y.isMio && y.q.part = i.part && y.q.ctx = i.ctx && (match mine with | some x => y.seq < x.seq | none => true)
/-- The context takes the cluster; another one than before counts as a switch (R232). -/
def mioTake (c : Chip) (p x : Nat) : Chip :=
  match (c.part p).mioCtx with
  | some y =>
    if y = x then c.setReg .MIOBOR_CURRENT_CTX p 0 x
    else ((c.modPart p fun s => { s with mioCtx := some x, mioSince := c.now }).countFor x .MIOBOR_CTX_SWITCHES p 1).setReg
      .MIOBOR_CURRENT_CTX p 0 x
  | none => (c.modPart p fun s => { s with mioCtx := some x, mioSince := c.now }).setReg .MIOBOR_CURRENT_CTX p 0 x

/-! The end of a command -/

/-- Counts an amount in a counter of the cluster and in the counter sets. -/
def mioAdd (c : Chip) (p : Nat) (d : Desc) (r : Reg) (code n : Nat) : Chip :=
  (c.countFor d.ctx r p n).pevent p code d.ctx d.job d.layer d.operator n

/-- A command ends: the counts that every command has, its cycles, its record. -/
def mioEnd (c : Chip) (i : QId) (p : Nat) (d : Desc) (status cycles : Nat) : Chip :=
  let c := c.mioAdd p d .MIOBOR_COMMANDS 1 1
  let c := if status = 0 then c else c.countFor d.ctx .MIOBOR_CMD_FAILED p 1
  let c := (c.mioAdd p d .MIOBOR_BUSY_CYCLES 0x11 cycles).setReg .MIOBOR_LAST_CMD_CYCLES p 0 cycles
  let c := c.completeDesc i d status 0
  if c.mioWaiting p d.ctx then c else c.setReg .MIOBOR_CURRENT_CTX p 0 0xFF

/-- Counts of a command. Where it did not run to its end, or the spec gives no figure, `open_` gives the amount by its place: at most the
figure of the whole command. -/
def mioCount (c : Chip) (p : Nat) (d : Desc) (whole : Bool) (l : MioCounts) (open_ : Nat → Nat) : Chip :=
  l.zipIdx.foldl (fun c e =>
    let n := match e.1.2.2 with
      | some n => if whole then n else open_ e.2 % (n + 1)
      | none => trunc 32 (open_ e.2)
    c.mioAdd p d e.1.1 e.1.2.1 n) c

/-- The output tensors of a command (R225). -/
def mioOutputs (o : MOps) : List Tensor :=
  o.c.toList ++ (if o.op = 0x13 then o.d.toList ++ o.aux.toList else if o.op = 0x14 then o.d.toList else [])

/-- The plan of a command whose operands leave its outcome open (R238): all of its output tensors, and any counts. -/
def mioAnyPlan (o : MOps) : MioPlan := { outs := (mioOutputs o).map fun t => { t := t, rows := [] }, counts := mioCounters }

/-- The tiles of an output that a command may write: all of them where its rows are not known. -/
def mioMay (w : MOut) : List Nat := if w.rows.isEmpty then List.range w.t.count else w.tiles.map Prod.fst

/-- Some first tiles of each output hold partial results (R218): of those that the command writes, and none from the tile `stop` on, whose
check failed. -/
def mioPartial (c : Chip) (p x : Nat) (outs : List MOut) (stop : Nat) (key : List Nat) : Chip :=
  outs.zipIdx.foldl (fun c e =>
    let l := (mioMay e.1).takeWhile fun i => e.1.t.first + i ≠ stop
    let n := Config.mioValue (key ++ [0, e.2]) % (l.length + 1)
    c.writeFree p x e.1 (l.take n) fun r j => Config.mioValue (key ++ [1, e.2, r, j])) c

/-- A command ends without OK once it has begun: partial results, counts and cycles as `key` fixes them (R207). -/
def mioBroken (c : Chip) (i : QId) (p : Nat) (d : Desc) (l : MioPlan) (stop status : Nat) (key : List Nat) : Chip :=
  let c := (c.mioPartial p d.ctx l.outs stop key).mioCount p d false l.counts fun k => Config.mioValue (key ++ [2, k])
  c.mioEnd i p d status (trunc 32 (Config.mioValue (key ++ [5])))

/-- A key that nothing but its number fixes: where the moment decides (a time limit, a reset) or R238 leaves all open. -/
def freeKey (c : Chip) : List Nat := [0, c.freeCtr]

/-- The descriptor as numbers. -/
def descKey (d : Desc) : List Nat := [d.opcode, d.flags, d.ctx, d.tag, d.job, d.layer, d.operator, d.timeout, d.ops]

/-- A tile's contents as numbers. -/
def tileKey (t : Tile) : List Nat := t.head ++ [t.crc, t.data.length] ++ t.data.flatMap fun e => [e.1, e.2]

/-- The inputs of a command (R207): its descriptor, the entries of its handles, and the tiles that it takes in. -/
def mioKey (c : Chip) (p : Nat) (d : Desc) (tiles : List Nat) : List Nat :=
  let entry := fun h => match c.tableEntry p d.ctx h with
    | .inl b => 0 :: b
    | .inr f => [1, f.tile, f.field, f.want]
  1 :: descKey d ++ (namedHandles d).flatMap entry ++ tiles.flatMap fun n => n :: tileKey (c.tile p n)

/-- A check at use fails: one of those that fail is counted and logged, and the command ends (R216, R217, R235). Which one the cluster
meets first is open, and the inputs fix it. -/
def mioFailed (c : Chip) (i : QId) (p : Nat) (d : Desc) (l : MioPlan) (fails : List TileFail) (key : List Nat) : Chip :=
  match fails[Config.mioValue (key ++ [3]) % fails.length]? with
  | none => c
  | some f =>
    let c := (c.tileFailed p d.ctx d.tag f).pevent p 0x10 d.ctx d.job d.layer d.operator 1
    c.mioBroken i p d l f.tile 0x02 key

/-- R238: the output tiles, the status and the counts are open. -/
def mioOpen (c : Chip) (i : QId) (p : Nat) (d : Desc) (o : MOps) : Chip :=
  let key := c.freeKey
  let status := c.freeStatus
  let c := c.drawn.countFor d.ctx .MIOBOR_TILE_FAILS p (Config.mioValue (key ++ [4]) % 2)
  c.mioBroken i p d (mioAnyPlan o) 0x100000000 status key

/-- A command that passes every check: its results, its counts and its cycles (R234). -/
def mioDone (c : Chip) (i : QId) (p : Nat) (d : Desc) (j : MJob) (uses : List TileUse) (table : Nat) (key : List Nat) : Chip :=
  let c := j.outs.foldl (fun c w => c.writeOut p d.ctx w) c
  (c.mioCount p d true (j.counts uses table) fun k => Config.mioValue (key ++ [2, k])).mioEnd i p d 0 (j.cycles uses table)

/-- The first list of checks with a failure. -/
def firstFails (c : Chip) (p x : Nat) (l : List (List TileUse)) : List TileFail :=
  match l with
  | [] => []
  | u :: r =>
    let f := c.failsOf p x u
    if f.isEmpty then c.firstFails p x r else f

/-- Tiles of the tensor table that a command reads. -/
def mioTable (d : Desc) : Nat := ((namedHandles d).foldl (fun l h => addOnce l (h / 64)) []).length

/-- What a command that ends before its time had to do: its job where the operands give one, else all that R238 leaves open. -/
def mioPlan (c : Chip) (p : Nat) (d : Desc) : MioPlan :=
  let o := (c.operands p d.ctx d).1
  match c.mioJob p o with
  | some j =>
    if j.free then mioAnyPlan o else { outs := j.outs, counts := j.counts (predUses o :: j.reads).flatten (mioTable d) }
  | none => mioAnyPlan o

/-- The cluster executes a command. -/
def mioExec (c : Chip) (i : QId) (p : Nat) (d : Desc) : Chip :=
  let x := d.ctx
  let r := c.operands p x d
  let o := r.1
  if c.reg .MIOBOR_TTAB_VALID p x = 0 then
    let c := c.tileFailed p x d.tag { tile := c.reg .MIOBOR_TTAB_FIRST_TILE p x, field := 7, want := packHeads x 0x22 { ctx := 0 } }
    (c.pevent p 0x10 x d.job d.layer d.operator 1).mioEnd i p d 0x02 (trunc 32 (Config.mioValue (c.mioKey p d [] ++ [5])))
  else if (namedHandles d).any fun h => 0x1000 ≤ h then c.mioOpen i p d o
  else if !r.2.isEmpty then c.mioFailed i p d { outs := [], counts := [(.MIOBOR_TILES_READ, 0x0F, some (mioTable d))] } r.2 (c.mioKey p d [])
  else
    match c.mioJob p o with
    | none => c.mioOpen i p d o
    | some j =>
      let phases := predUses o :: j.reads
      let uses := phases.flatten
      let fails := c.firstFails p x phases
      let merged := j.outs.flatMap fun w => w.tiles.filterMap fun e => if e.2 then some (w.t.first + e.1) else none
      let key := c.mioKey p d (uses.map TileUse.tile ++ merged)
      let plan : MioPlan := { outs := j.outs, counts := j.counts uses (mioTable d) }
      if !fails.isEmpty then c.mioFailed i p d plan fails key
      else if j.free then c.mioOpen i p d o
      else
        let outs := j.outs.flatMap fun w => w.tiles.filterMap fun e => c.outFail p x w.t e.1 e.2
        if !outs.isEmpty then c.mioFailed i p d plan outs key
        else c.mioDone i p d j uses (mioTable d) key

/-- A Miobor command comes to the cluster: it ends at once where the cluster is vacant, waits where another is before it or the cluster
is held or in reset, and runs else (R231, R232, R235). -/
def miobor (c : Chip) (i : QId) (d : Desc) : Chip :=
  let d : Desc := { d with ctx := i.ctx }
  match i.part with
  | none => c
  | some p =>
    if i.toMule || !(Cmd.isMio { q := i, d := d }) then c
    else if c.reg .PARTITION_MIOBOR_VACANT p = 1 then c.runTimed i d fun c => c.mioEnd i p d 0x09 0
    else if c.mioBehind i d || !c.mioTurn p d.ctx || c.reg .MIOBOR_STATE p = 3 then c
    else if 1 ≤ c.stageOf p then c.runTimed i d fun c => c.mioTake p d.ctx
    else c.runTimed i d fun c => (c.mioTake p d.ctx).mioExec i p d

/-- The limit of the running command is reached (R233): it is the first of its context, and its time has run. -/
def mioTimeout (c : Chip) (i : QId) (tag : Nat) : Chip :=
  match i.part, c.cmdOf i tag with
  | some p, some x =>
    if !x.isMio || c.mioBehind i x.d || !c.mioTurn p i.ctx || c.now < x.started.getD x.fetched + c.limitOf x then c
    else
      let c := (c.mioTake p i.ctx).henCtx i.ctx p 0x1403 [tag]
      (c.drawn).mioBroken i p x.d (c.mioPlan p { x.d with ctx := i.ctx }) 0x100000000 0x01 c.freeKey
  | _, _ => c

/-- QUANTUM frames have passed while another context waits: the cluster passes to the next context (R232). -/
def mioSwitch (c : Chip) (p : Nat) : Chip :=
  match (c.part p).mioCtx with
  | none => c
  | some y =>
    let others := c.cmds.filter fun z => z.isMio && z.q.part = some p && z.q.ctx ≠ y
    let since := others.foldl (fun m z => min m z.fetched) c.now
    if others.isEmpty || c.now < max since (c.part p).mioSince + 131072 * c.reg .MIOBOR_QUANTUM p then c
    else match mioNext ((c.mioWork p 64).filter fun z => z ≠ y) y with
      | some z => c.mioTake p z
      | none => c

/-- Ends commands of the cluster that pass `sel` with a status (R235): partial results of the running one. -/
def mioEndAll (c : Chip) (p status : Nat) (sel : Cmd → Bool) : Chip :=
  ((c.cmds.filter fun x => x.isMio && x.q.part = some p && sel x).foldl (fun c x =>
    let c := if x.started.isSome
      then (c.drawn).mioPartial p x.q.ctx (c.mioPlan p { x.d with ctx := x.q.ctx }).outs 0x100000000 c.freeKey else c
    let c := (c.mioAdd p x.d .MIOBOR_COMMANDS 1 1).countFor x.q.ctx .MIOBOR_CMD_FAILED p 1
    c.completeDesc x.q x.d status 0) c).setReg .MIOBOR_CURRENT_CTX p 0 0xFF

end Chip

end Sys2Proof.Machine
end

