-- ==== Sys2Proof/Machine/CoreOps.lean ====
section
/-! DEFINITION. The control cores' user mode (R367 to R372, R378): programs of contexts, which of them has a core, the command-issue
instructions, exits and faults. What a program computes lies outside the block; what it writes lies in the tiles of its regions. -/

namespace Sys2Proof.Machine

open Sys2Proof

namespace Chip

/-- The program on a core acts; nothing where no program runs there. -/
def onCore (c : Chip) (p k : Nat) (f : Nat → Chip) : Chip :=
  match c.coreCtx p k with
  | some x => if c.reg .CORES_STATE p k = 1 then f x else c
  | none => c

/-- ecall with a7 equal to 0. -/
def progExit (c : Chip) (p k a0 : Nat) : Chip := c.onCore p k fun x => c.endProg p x k 1 a0

/-- Any other trap (R369). -/
def progFault (c : Chip) (p k cause pc tval : Nat) : Chip :=
  c.onCore p k fun x =>
    let c := (c.setReg .CORES_LAST_FAULT_CTX p 0 x).setReg .CORES_LAST_FAULT_CORE p 0 k
    let c := ((c.setReg .CORES_LAST_FAULT_CAUSE p 0 cause).setReg .CORES_LAST_FAULT_PC p 0 pc).setReg .CORES_LAST_FAULT_TVAL p 0 tval
    let c := (c.countFor x .CORES_PROG_FAULTS p 1).henCtx x p 0x1501 [x, k, cause, pc]
    (c.endProg p x k 3 0).raiseCtx x p 4

/-- The bytes at a user address of DATA. -/
def dataBytes (c : Chip) (p first off n : Nat) : List Nat :=
  (List.range n).map fun j => (c.tile p (first + (off + j) / 2048)).byte ((off + j) % 2048)

/-- Commands of a core of a context that have not completed. -/
def outstanding (c : Chip) (p x k : Nat) : Nat :=
  (c.cmds.filter fun y => y.q = .core x p k false || y.q = .core x p k true).length

/-- g9.issue (R371, R372). A descriptor address outside DATA or not aligned, and an rs2 that names no stream, have no stated result:
the program gets a value that nothing fixes and nothing is submitted. -/
def g9Issue (c : Chip) (p k addr stream : Nat) : Chip :=
  c.onCore p k fun x =>
    let g := c.prog p x k
    let ctx := c.ctx x
    let refuse := fun (s : Nat) => (c.countFor x .CORES_ISSUE_REFUSED p 1).emit (.core p k s)
    if addr % 64 ≠ 0 || addr < 0x1000000 || 0x1800000 ≤ addr || 2 ≤ stream then (c.drawn).emit (.core p k (c.freeVal 64))
    else if ctx.state = 3 then refuse 0x04
    else if stream = 0 && c.reg .PARTITION_MIOBOR_VACANT p = 1 then refuse 0x09
    else if 16 ≤ c.outstanding p x k || 2 ^ g.log2 < c.outstanding p x k + unread g + 1 then refuse 0x0B
    else
      let d := { descOf (c.dataBytes p g.data (addr - 0x1000000) 64) with ctx := x }
      let y : Cmd := { q := .core x p k (stream = 1), d := d, seq := c.cmdSeq, fetched := c.now }
      let c := { c with cmds := c.cmds ++ [y], cmdSeq := c.cmdSeq + 1 }
      let c := (c.countFor x .CORES_ISSUES p 1).pevent p 0x38 x d.job d.layer d.operator 1
      c.emit (.core p k 0)

/-- g9.wait. -/
def g9Wait (c : Chip) (p k ticks : Nat) : Chip :=
  c.onCore p k fun x =>
    let n := unread (c.prog p x k)
    if n ≠ 0 || ticks = 0 then c.emit (.core p k n)
    else (c.modProg p x k fun g => { g with waitTill := some (c.now + ticks) }).coreNext p k x

/-- A waiting program goes on: a record has come, or its time has passed. -/
def g9Wake (c : Chip) (p x k : Nat) : Chip :=
  let g := c.prog p x k
  match g.waitTill with
  | none => c
  | some t =>
    if g.state ≠ 2 || (unread g = 0 && c.now < t) then c
    else ((c.modProg p x k fun g => { g with waitTill := none }).emit (.core p k (unread g))).coreWake p k

/-- g9.yield. -/
def g9Yield (c : Chip) (p k : Nat) : Chip := c.onCore p k fun x => c.coreNext p k x

/-- USER_QUANTUM µs of a program's execution have passed. -/
def quantumEnds (c : Chip) (p k : Nat) : Chip :=
  if c.now < SMap.get 0 (c.part p).coreSince k + 1000 * c.reg .CORES_USER_QUANTUM p then c else c.g9Yield p k

/-- A write of g9cq or g9cqhead (R370). -/
def g9cqWrite (c : Chip) (p k csr v : Nat) : Chip :=
  c.onCore p k fun x =>
    if csr = 0x800 then
      let l := v % 16
      let l := if 4 ≤ l ∧ l ≤ 10 then l else 4
      let stray := fun (g : Prog) => if c.outstanding p x k = 0 then g.stray else c.cmdSeq
      c.modProg p x k fun g => { g with base := v / 64 * 64, log2 := l, head := 0, tail := 0, phase := 1, stray := stray g }
    else if csr = 0x801 then c.modProg p x k fun g => { g with head := v % 2 ^ g.log2 }
    else c

/-- START and STOP of CTL_OP on the cores of a mask (R378). -/
def ctlOp (c : Chip) (p x mask op : Nat) : Chip :=
  (setBitsOf 4 mask).foldl (fun c k => if op = 1 then c.startProg p x k else if op = 2 then c.stopProg p x k else c) c

/-! External debug (R399, R400) -/

/-- A halt request or a breakpoint of a core: it takes effect in U-mode, and waits for it else; R313 disables it. -/
def debugHalt (c : Chip) (p k : Nat) : Chip :=
  if c.locked p || c.reg .CORES_STATE p k = 3 then c
  else
    match c.coreCtx p k with
    | some x => if c.reg .CORES_STATE p k = 1 then c.haltCore p k x else c.modPart p fun s => { s with haltWait := addOnce s.haltWait k }
    | none => c.modPart p fun s => { s with haltWait := addOnce s.haltWait k }

/-- The core resumes: the context's queues fetch again and the region emits its gap record. -/
def debugResume (c : Chip) (p k : Nat) : Chip :=
  match SMap.find? (c.part p).halts k with
  | none => c.modPart p fun s => { s with haltWait := s.haltWait.erase k }
  | some (x, _) =>
    let c := c.modPart p fun s => { s with halts := SMap.erase s.halts k }
    let c := ((c.setReg .CORES_STATE p k 1).restartRegion p (0x20 + k)).henAny p 0x3A02 x
    let c := if (c.prog p x k).state = 2 then c else c.coreNext p k x
    [QId.compute x p, QId.mule x p].foldl (fun c i => c.fetch i i.ahead) c

/-! Parity and core resets (R369, R417) -/

/-- A core is reset: its programs become FAULTED, its commands have 100,000 ticks to complete. -/
def coreReset (c : Chip) (p k : Nat) (cause : Option Nat) : Chip :=
  let mine := (List.range 64).filter fun x => (c.prog p x k).state = 2
  let c := mine.foldl (fun c x =>
    let c := c.modProg p x k fun g => { g with state := 3, waitTill := none }
    ((c.setReg .CORES_LAST_FAULT_CTX p 0 x).setReg .CORES_LAST_FAULT_CORE p 0 k).setReg .CORES_LAST_FAULT_CAUSE p 0 (2 ^ 64 - 1)) c
  let own := fun (y : Cmd) => match y.q with | .core _ z j _ => z == p && j == k | _ => false
  let c := { c with cmds := mapIf own (fun y => { y with abortAt := some (c.now + 100000) }) c.cmds }
  let c := c.modPart p fun s => { s with halts := SMap.erase s.halts k, haltWait := s.haltWait.erase k
                                         stops := SMap.erase s.stops (0x20 + k) }
  let c := ((c.setReg .CORES_STATE p k 0).setReg .CORES_RUN_CTX p k 0xFF).stopRegion p (0x20 + k) cause
  c.count .PARTITION_CORE_RESETS p

/-- Commands that a core reset gave up end with ABORT_RESET, in the issuing program's ring. -/
def coreAborts (c : Chip) (p k : Nat) : Chip :=
  let own := fun (y : Cmd) => match y.q with | .core _ z j _ => z == p && j == k && y.abortAt.isSome | _ => false
  let l := c.cmds.filter own
  let c := l.foldl (fun c y => c.completeDesc y.q y.d 0x05 0) c
  (c.countN .PARTITION_ABSORBED p l.length).henPart p 0x1908 [1, k, l.length]

/-- A reset core is back: what it had issued is settled, and it takes a program. -/
def coreBack (c : Chip) (p k : Nat) : Chip := ((c.coreAborts p k).restartRegion p (0x20 + k)).coreNext p k 63

end Chip

end Sys2Proof.Machine
end

