-- ==== Sys2Proof/Machine/ImageOps.lean ====
section
/-! DEFINITION. Tiroil images (R259 to R282): the stages of a load, replacement, unloading, queries and the measurement log. -/

namespace Sys2Proof.Machine

open Sys2Proof

/-- A section of an image that CHECK has gone through: its entry, content, the clamps of a policy, and its places in SRAM and LPDDR6. -/
structure Parsed where
  e : SecEntry
  body : SecBody
  clamps : List (Nat × Nat) := []
  bytes : List Nat
  sram : Nat := 0
  copy : Nat := 0
  bad : Bool := false
  deriving DecidableEq, Repr

/-- A section's content by its TYPE. -/
def parseSection (e : SecEntry) (b : List Nat) : Parsed :=
  match e.typ with
  | 1 => { e := e, body := .manifest (parseManifest b), bytes := b }
  | 2 => { e := e, body := .policy { (parsePolicy b).1 with job := e.job }, clamps := (parsePolicy b).2, bytes := b }
  | 3 => (match parseTemplate b with
    | some t => { e := e, body := .template t, bytes := b }
    | none => { e := e, body := .other, bytes := b, bad := true })
  | 4 => { e := e, body := parseModel b, bytes := b }
  | 5 => { e := e, body := parseCode b, bytes := b }
  | _ => { e := e, body := .other, bytes := b }

/-- The section is kept; a reserved type is measured and otherwise ignored (R261). -/
def Parsed.kept (x : Parsed) : Bool := 1 ≤ x.e.typ && x.e.typ ≤ 5

/-- The installed section that a section replaces (R279). -/
def Parsed.same (x : Parsed) (s : Section) : Bool :=
  s.typ = x.e.typ && s.num = x.e.num && s.job = x.e.job

/-- Template numbers that a sequence names. -/
def seqNums (len seq : Nat) : List Nat := (List.range len).map fun i => bits seq (4 * i + 2) (4 * i)

namespace Chip

/-! FETCH and STREAM -/

/-- The port can be read. -/
def portReads (c : Chip) (port : Nat) : Bool := c.reg .HOSTPORT_LINK_UP port == 1 && (c.hostPort port).busMaster

/-- The port and VF conditions of a confidential context's commands (R312). -/
def tdiReady (c : Chip) (x : Nat) : Bool := !(c.ctx x).conf || c.tdiOf x == 2

/-- LOAD_IMAGE: FETCH (R277). -/
def loadImage (c : Chip) (x p : Nat) (d : Desc) : Chip :=
  let q := QId.compute x p
  let port := (c.ctx x).port
  let a := d.at 0x10 8
  let h := c.hostBytes port a 512
  let n := fieldAt h 6 2
  let total := fieldAt h 0x10 8
  let ok := fieldAt h 0 4 = 0x4C494F54 && fieldAt h 4 2 = 1 && 1 ≤ n && n ≤ 256 && total ≤ d.at 0x18 4 && total ≤ 2 ^ 30
  let table := if ok then c.hostBytes port (a + 0x200) (128 * n) else []
  let es := (List.range (if ok then n else 0)).map fun i => secEntryOf ((table.drop (128 * i)).take 128)
  let l : LoadRun :=
    { q := q, tag := d.tag, ctx := x, addr := a, port := port, startAt := c.now, begin_ := bit (d.at 0x1C 4) 0, fromFrame := d.at 0x20 8
      partial_ := bit (fieldAt h 0x18 4) 0, imageId := fieldAt h 8 4, imageVer := fieldAt h 12 4, keyGen := fieldAt h 0x1C 4
      heldKey := (c.ctx x).key, heldGen := (c.ctx x).keyGen
      key := fieldAt h 0x80 133, sigR := fieldAt h 0x108 66, sigS := fieldAt h 0x14A 66
      digest := Config.sha512 (h.take 0x80 ++ table), sections := es }
  if !c.tdiReady x then c.finishLoad p { l with imageId := 0, imageVer := 0 } 0x08 0 0xFF
  else if !c.portReads port then c.finishLoad p { l with imageId := 0, imageVer := 0 } 0x01 12 0xFF
  else
    let c := c.countFor x .IMAGE_BYTES_FETCHED p (512 + table.length)
    if !ok then c.finishLoad p l 0x08 1 0xFF
    else
      match es.findIdx? fun s => total < s.off + s.len with
      | some i => c.finishLoad p l 0x08 1 i
      | none =>
        match countsBad es l.partial_ with
        | some i => c.finishLoad p l 0x08 7 i
        | none => c.modPart p fun s => { s with loads := s.loads ++ [l] }

/-- A section of KEY_GEN, IV or ENC that R263 refuses: its index. -/
def keyBad (c : Chip) (l : LoadRun) : Option Nat :=
  let k := c.ctx l.ctx
  (List.range l.sections.length).find? fun i =>
    match l.sections[i]? with
    | some s =>
      if s.enc then l.heldKey.isNone || l.keyGen ≠ l.heldGen || (l.sections.take i).any fun t => t.enc && t.iv = s.iv else k.conf
    | none => false

/-- A section's plaintext; none where the GCM tag fails (R263). -/
def plainOf (c : Chip) (l : LoadRun) (s : SecEntry) : Option (List Nat) :=
  let b := c.hostBytes l.port (l.addr + s.off) s.len
  if s.enc then Config.gcmOpen (l.heldKey.getD 0) (bytesOf 12 s.iv ++ s.aad) (b ++ bytesOf 16 s.tag) else some b

/-! CHECK -/

/-- The manifest in force for a load: its own, else the installed one. -/
def manifestFor (c : Chip) (p x : Nat) (ps : List Parsed) : List Triple :=
  match ps.findSome? fun s => match s.body with | .manifest l => some l | _ => none with
  | some l => l
  | none => ((c.part p).sections.findSome? fun s => match s.body with
    | .manifest l => if s.ctx = x then some l else none
    | _ => none).getD []

/-- A template passes R269. -/
def tmplSound (c : Chip) (p x : Nat) (ps : List Parsed) (t : Tmpl) (job : Nat) : Bool :=
  let sl := c.slices.find? fun s => s.job = job && s.ctx = x
  let ops := ((c.manifestFor p x ps).filter fun e => e.job = job && e.demand).map fun e => e.op
  match sl with
  | some s => t.sound s.endpoints.length (some s.windowFrames) ops
  | none => t.sound 262144 none ops

/-- Places for the sections in the context's share, beside what it holds: the sections placed, or the one that does not fit. -/
def placeSections (c : Chip) (p x : Nat) (ps : List Parsed) : List Parsed ⊕ Nat :=
  match SMap.find? (c.ctx x).shares p with
  | none => .inr 0
  | some sh =>
    let mine := (c.part p).sections.filter fun s => s.ctx = x
    let s0 := (mine.map fun s => (s.sram, s.body.sramTiles)).filter fun r => 0 < r.2
    let l0 := (mine.map fun s => (s.copy, s.body.copyTiles s.len)).filter fun r => 0 < r.2
    go sh ps 0 s0 l0
where
  /-- One section after another. -/
  go (sh : Share) : List Parsed → Nat → List (Nat × Nat) → List (Nat × Nat) → List Parsed ⊕ Nat
    | [], _, _, _ => .inl []
    | q :: r, i, s, l =>
      if !q.kept then
        (match go sh r (i + 1) s l with | .inl t => .inl (q :: t) | .inr j => .inr j)
      else
        let n := q.body.sramTiles
        let k := q.body.copyTiles q.e.len
        match firstFit s sh.sramFirst (sh.sramFirst + sh.sramTiles) n, firstFit l sh.lpFirst (sh.lpFirst + sh.lpTiles) k with
        | some a, some b =>
          (match go sh r (i + 1) (if n = 0 then s else (a, n) :: s) (if k = 0 then l else (b, k) :: l) with
          | .inl t => .inl ({ q with sram := a, copy := b } :: t)
          | .inr j => .inr j)
        | _, _ => .inr i

/-- A section that breaks R272 or R273 or names a vacant core (R428): its index. -/
def fitBad (c : Chip) (p x : Nat) (ps : List Parsed) : Option Nat :=
  let old := ((c.part p).sections.filter fun s => s.ctx = x && !(ps.any fun q => q.kept && q.same s)).filterMap fun s => s.body.handles
  (List.range ps.length).find? fun i =>
    match ps[i]? with
    | some q =>
      (match q.body with
      | .model b t _ _ _ _ =>
        let others := old ++ (ps.take i).filterMap fun y => y.body.handles
        4096 < b + t.length || others.any fun o => b < o.2 && o.1 < b + t.length
      | .code _ text d z k _ =>
        2 ^ 22 < text || text % 2 = 1 || 2 ^ 23 < d + z + k || bit (c.reg .PARTITION_CORES_VACANT p) q.e.num
      | _ => false)
    | none => false

/-- A template number is in the sequence of a window that has not ended (R279). -/
def tmplInUse (c : Chip) (p job num : Nat) : Bool :=
  match c.jobOf p job with
  | none => false
  | some j =>
    let f := c.now / 131072
    let cur := Job.latest j.settings f fun s => s.seq.isSome
    let all := cur.toList ++ j.settings.filter fun s => f < s.start && s.seq.isSome
    let nums := all.flatMap fun s => match s.seq with | some e => seqNums e.1 e.2 | none => []
    decide (num ∈ nums) || (cur.isNone && num = 0)

/-- What R279 refuses: a section's index, or 0xFF for the image. -/
def replaceBad (c : Chip) (p : Nat) (l : LoadRun) (ps : List Parsed) : Option Nat :=
  let mine := (c.part p).sections.filter fun s => s.ctx = l.ctx
  if !l.partial_ then (if mine.isEmpty then none else some 0xFF)
  else if mine.isEmpty || mine.any fun s => s.imageId ≠ l.imageId || l.imageVer ≤ s.imageVer then some 0xFF
  else
    (List.range ps.length).find? fun i =>
      match ps[i]? with
      | some q =>
        (match q.body with
        | .template t => c.tmplInUse p q.e.job t.num
        | .policy x =>
          let held := (mine.filter fun s => s.typ = 3 && s.job = q.e.job && s.state ≠ 2).map fun s => s.num
          let new := (ps.filter fun y => y.e.typ = 3 && y.e.job = q.e.job).map fun y => y.e.num
          (seqNums x.seqLen x.seq).any fun n => !(decide (n ∈ held ++ new))
        | .code .. => (c.prog p l.ctx q.e.num).state = 2
        | _ => false)
      | none => false

/-- The conditions of R280 that CHECK finds: status, CHECK_CODE and section. -/
def checkFinds (c : Chip) (p : Nat) (l : LoadRun) (ps : List Parsed) (placed : List Parsed ⊕ Nat) : List (Nat × Nat × Nat) :=
  let opt := fun (st code : Nat) (o : Option Nat) => match o with | some i => [(st, code, i)] | none => []
  (if (c.ctx l.ctx).state = 3 then [(0x04, 0, 0xFF)] else [])
    ++ (match l.fail with | some f => [(0x08, f.1, f.2)] | none => [])
    ++ opt 0x02 8 (ps.findIdx? fun q => q.bad || match q.body with
      | .template t => !(c.tmplSound p l.ctx ps t q.e.job)
      | _ => false)
    ++ opt 0x0B 9 (c.fitBad p l.ctx ps)
    ++ (match placed with | .inr i => [(0x0B, 9, i)] | .inl _ => [])
    ++ opt 0x0B 10 (c.replaceBad p l ps)
    ++ (if 1024 < (c.ctx l.ctx).log.length + 1 + ps.length then [(0x0B, 11, 0xFF)] else [])

/-! MEASURE -/

/-- Appends an entry to the context's measurement log (R274). -/
def logEntry (c : Chip) (p : Nat) (l : LoadRun) (typ num job digest : Nat) : Chip :=
  c.modCtx l.ctx fun k =>
    let b := bytesOf 1 typ ++ bytesOf 1 p ++ bytesOf 2 num ++ bytesOf 2 job ++ [0, 0] ++ bytesOf 4 l.imageId ++ bytesOf 4 l.imageVer
      ++ bytesOf 4 k.log.length ++ [0, 0, 0, 0] ++ bytesOf 8 c.now ++ bytesOf 64 digest ++ List.replicate 32 0
    { k with log := k.log ++ [⟨b⟩], logL := Config.sha512 (bytesOf 64 k.logL ++ b) }

/-! INSTALL -/

/-- A tile of raw bytes of a section. -/
def rawTile (x gen format i : Nat) (b : List Nat) : Tile :=
  ({ gen := gen, ctx := x, format := format, shape := b.length - 1, index := i, data := payloadOf b } : Tile).sealed

/-- Tile `j` of a model's allocation, sealed as the tensor that holds it, with a payload (R264, R271). -/
def modelTile (x gen : Nat) (ts : List Tensor) (j : Nat) (data : SMap Nat) : Tile :=
  let data_ := fun (t : Tensor) => if t.sparse then t.kept else t
  let covers := fun (t : Tensor) => t.first ≤ j && j < t.first + t.count
  match ((ts.map data_).filter covers).getLast? with
  | some t => tensorTile x { t with gen := gen } (j - t.first) data
  | none =>
    let info := ts.findSome? fun t =>
      if t.sparse && t.meta_ ≤ j && j < t.meta_ + t.indices.count then some (tensorTile x { t.indices with gen := gen } (j - t.meta_) data)
      else if t.blocked && t.meta_ ≤ j && j < t.meta_ + ceilDiv t.count 16384 then
        some ({ gen := gen, ctx := x, format := 0x11, shape := min 16384 (t.count - 16384 * (j - t.meta_)) - 1, index := j - t.meta_,
                data := data } : Tile).sealed
      else none
    info.getD ({ gen := gen, ctx := x, format := 0x20, shape := 2047, index := j, data := data } : Tile).sealed

/-- Puts tiles from a number on. -/
def putTiles (c : Chip) (p first : Nat) (l : List Tile) : Chip :=
  (l.zipIdx).foldl (fun c e => c.setTile p (first + e.2) e.1) c

/-- Pieces of 2,048 bytes. -/
def chunks2048 (b : List Nat) : List (List Nat) := (List.range (ceilDiv b.length 2048)).map fun i => (b.drop (2048 * i)).take 2048

/-- Writes a section's tiles: the run-time tiles and the source copy (R264). -/
def writeSection (c : Chip) (p x gen : Nat) (q : Parsed) : Chip :=
  match q.body with
  | .model _ ts ks w s b =>
    let st := modelStart ts.length ks.length
    let full := ts.map tensorOfBytes
    let run := (List.range (w + s)).map fun j =>
      modelTile x gen full j (if j < w then payloadOf ((b.drop (st + 2048 * j)).take 2048) else [])
    let head := (chunks2048 (b.take (32 + 32 * ts.length + 64 * ks.length))).mapIdx fun i y => rawTile x gen 0x20 i y
    let head := head ++ List.replicate (ceilDiv st 2048 - head.length) (rawTile x gen 0x20 0 [0])
    (c.putTiles p q.sram run).putTiles p q.copy (head ++ run.take w)
  | .code _ _ _ _ _ b =>
    let l := (chunks2048 b).mapIdx fun i y => rawTile x gen 0x20 i y
    (c.putTiles p q.sram l).putTiles p q.copy l
  | _ => c.putTiles p q.copy ((chunks2048 q.bytes).mapIdx fun i y => rawTile x gen (if q.e.typ = 3 then 0x30 else 0x20) i y)

/-- A context's tensor table is placed where it has none: 64 tiles of empty entries (R219, R236). -/
def placeTable (c : Chip) (p x : Nat) : Chip :=
  if c.reg .MIOBOR_TTAB_VALID p x = 1 then c
  else
    let c := c.modPart p fun s => { s with ttab := SMap.eraseRange s.ttab (131072 * x) (131072 * (x + 1)) }
    let c := (List.range 64).foldl (fun c i => c.setTile p (ttabBase x + i) (c.ttabTile p x i)) c
    ((c.setReg .MIOBOR_TTAB_FIRST_TILE p x (ttabBase x)).setReg .MIOBOR_TTAB_TILES p x 64).setReg .MIOBOR_TTAB_VALID p x 1

/-- A model's tensors enter the table with partition tile numbers (R271). -/
def placeTensors (c : Chip) (p x gen sram base : Nat) (ts : List (List Nat)) : Chip :=
  (ts.zipIdx).foldl (fun c e =>
    let t := tensorOfBytes e.1
    let m := if t.meta_ = 0xFFFFFFFF then t.meta_ else sram + t.meta_
    let h := base + e.2
    if c.reg .MIOBOR_TTAB_TILES p x ≤ h / 64 then c
    else c.setEntry p x h (entryOf { t with first := sram + t.first, gen := gen, meta_ := m, metaGen := gen })) (c.placeTable p x)

/-- Frees a section's tiles (R279). -/
def freeSection (c : Chip) (p : Nat) (s : Section) : Chip :=
  c.modPart p fun q => { q with
    tiles := tilesOver (Tile.freed s.ctx) s.copy (s.body.copyTiles s.len) (tilesOver (Tile.freed s.ctx) s.sram s.body.sramTiles q.tiles)
    sections := q.sections.filter fun y => !(y.ctx = s.ctx && y.typ = s.typ && y.num = s.num && y.job = s.job) }

/-- What a section does when it becomes current (R265 to R273, R279). -/
def activate (c : Chip) (p : Nat) (l : LoadRun) (q : Parsed) (old : Option Section) (gen : Nat) : Chip :=
  match q.body with
  | .policy x =>
    let c := q.clamps.foldl (fun c e => (c.countFor l.ctx .LEARN_CLAMPS p 1).henCtx l.ctx p 0x3506 [e.1, e.2]) c
    (match c.jobOf p q.e.job with
    | none => c
    | some j =>
      let from_ := max (if l.partial_ then l.fromFrame else 0) (ceilDiv (c.now + 10000000) 131072)
      let start := c.nextWindow p j from_
      let c := match old with
        | some s => (match s.body with
          | .policy y => c.modJob p q.e.job fun j => j.turnsTo start y x
          | _ => c)
        | none => c.modJob p q.e.job fun j => { j with thr := x.confCeil }
      (c.installPolicy p x start false).publishLearn p)
  | .template t =>
    (match c.jobOf p q.e.job with
    | none => c.modSections p (fun s => s.ctx = l.ctx && q.same s) fun s => { s with state := 0 }
    | some _ =>
      let r := c.installTmpl p q.e.job t
      r.1.modSections p (fun s => s.ctx = l.ctx && q.same s) fun s => { s with state := if r.2 then 1 else 2 })
  | .model b ts _ _ _ _ => c.placeTensors p l.ctx gen q.sram b ts
  | .code .. =>
    c.modProg p l.ctx q.e.num fun _ => { state := 1, data := q.sram + ceilDiv q.e.len 2048 }
  | _ => c

/-- One section becomes current. -/
def installOne (c : Chip) (p : Nat) (l : LoadRun) (q : Parsed) (seq : Nat) : Chip :=
  let old := (c.part p).sections.find? fun s => s.ctx = l.ctx && q.same s
  let gen := match old with | some s => s.gen + 1 | none => 1
  let c := match old with
    | some s => (c.freeSection p s).countFor l.ctx .IMAGE_SECTIONS_REPLACED p 1
    | none => c
  let s : Section := { ctx := l.ctx, typ := q.e.typ, num := q.e.num, job := q.e.job, body := q.body, imageId := l.imageId, imageVer := l.imageVer
                       logSeq := seq, digest := q.e.digest, gen := gen, tiles := ceilDiv q.e.len 2048, sram := q.sram, copy := q.copy, len := q.e.len }
  let c := c.modPart p fun z => { z with sections := z.sections ++ [s] }
  ((c.writeSection p l.ctx gen q).countFor l.ctx .IMAGE_SECTIONS_INSTALLED p 1).activate p l q old gen

/-- MEASURE and INSTALL (R275, R277). -/
def installAll (c : Chip) (p : Nat) (l : LoadRun) (ps : List Parsed) : Chip :=
  let first := (c.ctx l.ctx).log.length
  let l : LoadRun := { l with logSeq := first }
  let c := c.logEntry p l 0 0 0 l.digest
  let c := ps.foldl (fun c q => c.logEntry p l q.e.typ q.e.num q.e.job q.e.digest) c
  let c := (ps.zipIdx).foldl (fun c e => if e.1.kept then c.installOne p l e.1 (first + 1 + e.2) else c) c
  let jobs := (ps.filter fun q => q.e.typ = 3).map fun q => q.e.job
  let c := c.modPart p fun s => { s with loads := mapIf (fun y => y.q = l.q && y.tag = l.tag) (fun _ => { l with waits := some jobs }) s.loads }
  c.loadsOn p

/-- CHECK and what follows, once the signature is verified and every section has been streamed. -/
def loadProceeds (c : Chip) (p : Nat) (l : LoadRun) : Chip :=
  match l.plain with
  | none => c
  | some bs =>
    if !l.verified || l.waits.isSome then c
    else
      let ps := (l.sections.zip bs).map fun e => parseSection e.1 e.2
      let placed := c.placeSections p l.ctx ps
      let bad := c.checkFinds p l ps placed
      let st := worst (bad.map Prod.fst)
      match bad.find? fun b => b.1 = st with
      | some b => c.finishLoad p l st b.2.1 b.2.2
      | none => match placed with
        | .inl ps => c.installAll p l ps
        | .inr _ => c

/-- The load of a queue's command. -/
def loadOf (c : Chip) (p : Nat) (q : QId) (tag : Nat) : Option LoadRun := (c.part p).loads.find? fun l => l.q = q && l.tag = tag
/-- Changes a load. -/
def modLoad (c : Chip) (p : Nat) (l : LoadRun) (f : LoadRun → LoadRun) : Chip :=
  c.modPart p fun s => { s with loads := mapIf (fun y => y.q = l.q && y.tag = l.tag) f s.loads }

/-- The S-die has gone through steps 1 and 2 of R262. -/
def signatureVerified (c : Chip) (x p tag : Nat) : Chip :=
  match c.loadOf p (.compute x p) tag with
  | none => c
  | some l =>
    if l.verified then c
    else if (c.ctx x).signer = 0 || Config.sha512 (bytesOf 133 l.key) ≠ (c.ctx x).signer then c.finishLoad p l 0x08 2 0xFF
    else if !Config.ecdsaVerify l.key l.digest (l.sigR + l.sigS * 2 ^ 528) then c.finishLoad p l 0x08 3 0xFF
    else (c.modLoad p l fun y => { y with verified := true }).loadProceeds p { l with verified := true }

/-- The last section has been streamed. -/
def streamDone (c : Chip) (x p tag : Nat) : Chip :=
  match c.loadOf p (.compute x p) tag with
  | none => c
  | some l =>
    if l.plain.isSome then c
    else if !c.portReads l.port then c.finishLoad p l 0x01 12 0xFF
    else
      let c := c.countFor x .IMAGE_BYTES_FETCHED p (l.sections.map fun s => s.len).sum
      match c.keyBad l with
      | some i => c.finishLoad p l 0x08 4 i
      | none =>
        let bs := l.sections.map (c.plainOf l)
        match bs.findIdx? Option.isNone with
        | some i => c.finishLoad p l 0x08 5 i
        | none =>
          let bs := bs.map fun b => b.getD []
          let bad := (l.sections.zip bs).findIdx? fun e => Config.sha512 e.2 ≠ e.1.digest
          let f := fun (y : LoadRun) => { y with plain := some bs, fail := bad.map fun i => (6, i) }
          (c.modLoad p l f).loadProceeds p (f l)

/-- The header's timeout code is exceeded while a load is fetched (R280). -/
def loadTimeout (c : Chip) (p : Nat) (l : LoadRun) : Chip := if l.waits.isSome then c else c.finishLoad p l 0x01 12 0xFF

/-! UNLOAD_IMAGE, QUERY_IMAGE, READ_LOG -/

/-- UNLOAD_IMAGE. -/
def unloadImage (c : Chip) (x p : Nat) (d : Desc) : Chip :=
  let q := QId.compute x p
  let mine := (c.part p).sections.filter fun s => s.ctx = x
  if (c.part p).jobs.any (fun j => j.ctx = x) || (List.range 4).any fun k => (c.prog p x k).state = 2 then
    let id := match mine.head? with | some s => s.imageId | none => 0
    ((c.setReg .IMAGE_LAST_FAIL_CHECK p 0 10).henCtx x p 0x3602 [id, 10, 0xFF]).complete q d.tag 0x0B
  else
    let c := mine.foldl (fun c s => c.freeSection p s) c
    let c := c.modPart p fun s => { s with progs := s.progs.filter fun e => e.1 / 4 ≠ x }
    c.complete q d.tag 0x00

/-- A record of QUERY_IMAGE. -/
def sectionRecord (s : Section) : List Nat :=
  [s.typ, 0] ++ bytesOf 2 s.num ++ bytesOf 2 s.job ++ [s.state, 0] ++ bytesOf 4 s.imageId ++ bytesOf 4 s.imageVer ++ bytesOf 4 s.tiles
    ++ bytesOf 4 s.logSeq ++ List.replicate 8 0

/-- Writes records that fit in LENGTH at ADDR and completes: CAPACITY where some do not fit. -/
def writeRecords (c : Chip) (x p : Nat) (d : Desc) (rs : List (List Nat)) : Chip :=
  let q := QId.compute x p
  let fits := rs.foldl (fun (a : List Nat × Bool) r =>
    if a.2 && a.1.length + r.length ≤ d.at 0x18 4 then (a.1 ++ r, true) else (a.1, false)) ([], true)
  if !c.portReads (c.ctx x).port then c.complete q d.tag 0x01
  else (c.writeHost (c.ctx x).port (d.at 0x10 8) fits.1).complete q d.tag (if fits.2 then 0x00 else 0x0B)

/-- QUERY_IMAGE. -/
def queryImage (c : Chip) (x p : Nat) (d : Desc) : Chip :=
  c.writeRecords x p d (((c.part p).sections.filter fun s => s.ctx = x).map sectionRecord)

/-- READ_LOG: entries from FIRST_SEQ on, then L. -/
def readLog (c : Chip) (x p : Nat) (d : Desc) : Chip :=
  c.writeRecords x p d ((((c.ctx x).log.drop (d.at 0x1C 4)).map fun e => e.bytes) ++ [bytesOf 64 (c.ctx x).logL])

end Chip

end Sys2Proof.Machine
end

