-- ==== Sys2Proof/Machine/ContextCmds.lean ====
section
/-! DEFINITION. Context commands (R307 to R323), teardown in its stages (R329 to R331), rekeying (R327), attestation (R318 to R320),
and the readings of counter banks (R314) and of coarsening (R315). -/

namespace Sys2Proof.Machine

open Sys2Proof

namespace Chip

/-! Records about contexts -/

/-- A record of the S-die about a context whose parameters the spec does not list. -/
def ctxEvent (c : Chip) (x code : Nat) : Chip :=
  ({ c with freeCtr := c.freeCtr + 4 }).henFixed 18 code 0xFF c.freeParams (c.isConf x)

/-- A command ends with a status that the spec does not give. -/
def endFree (c : Chip) (i : QId) (tag : Nat) : Chip := c.drawn.complete i tag (c.freeStatus)

/-- A number that names no context, or one that the other port has bound: what commands on it end with is left open. -/
def notMine (c : Chip) (hp x : Nat) : Bool := 64 ≤ x || ((c.ctx x).state ≠ 0 && (c.ctx x).port ≠ hp)

/-! CREATE_CTX (R307, R308, R310) -/

/-- The port may create contexts in this host mode. -/
def mayCreate (c : Chip) (hp : Nat) : Bool :=
  c.portUsed hp && (c.reg .DEVICE_HOST_CFG != 2 || c.reg .DEVICE_ACTIVE_PORT == hp)

/-- CREATE_CTX. A signer digest that the port cannot read ends it with TIMEOUT (R336). -/
def createCtx (c : Chip) (hp : Nat) (d : Desc) : Chip :=
  let i := QId.context hp
  let x := d.at 0x10 1
  let conf := bit (d.at 0x11 1) 0
  if 64 ≤ x then c.endFree i d.tag
  else if !c.mayCreate hp then c.complete i d.tag 0x08
  else if (c.hostPort hp).vfs < x || (c.ctx x).state ≠ 0 then c.complete i d.tag 0x0B
  else if conf && (x = 0 || c.reg .CONTEXT_IDENTITY_OK hp == 0) then c.endFree i d.tag
  else if !c.portReads hp then c.complete i d.tag 0x01
  else
    let signer := c.hostWord hp (d.at 0x18 8) 64
    let c := c.modCtx x fun k =>
      { state := 1, gen := trunc 32 (k.gen + 1), conf := conf, port := hp, signer := signer, sampleMs := c.now / 1000000 }
    (c.countFor x .CONTEXT_CREATES hp 1).complete i d.tag 0x00

/-! Teardown (R329 to R331) -/

/-- Commands of a context's queues and streams that pass `sel` end with REVOKED. -/
def revokeCmds (c : Chip) (x p : Nat) (sel : Cmd → Bool) : Chip :=
  (c.cmds.filter fun y => y.q.part = some p && y.q.ctx = x && sel y).foldl (fun c y => c.completeDesc y.q y.d 0x04 0) c

/-- Loads of a context that have not passed MEASURE end REVOKED (R280, R329). -/
def revokeLoads (c : Chip) (x p : Nat) : Chip :=
  ((c.part p).loads.filter fun l => l.ctx = x && l.waits.isNone).foldl (fun c l => c.finishLoad p l 0x04 0 0xFF) c

/-- STOP in one partition. -/
def stopStage (c : Chip) (x p : Nat) : Chip :=
  let c := c.mioEndAll p 0x04 fun y => y.q.ctx == x
  let c := (c.revokeLoads x p).revokeCmds x p fun y =>
    !y.q.toMule && !((c.part p).loads.any fun l => l.q = y.q && l.tag = y.d.tag && l.waits.isSome)
  ((List.range 4).foldl (fun c k => c.stopProg p x k) c).raiseCtx x p 3

/-- Slices of the context that are admitted are torn down; one being admitted waits for its end (R160). -/
def stopSlices (c : Chip) (x : Nat) (force : Bool) : Chip :=
  (c.slices.filter fun s => s.ctx = x && s.state = 2).foldl (fun c s => c.beginTeardown s.num force []) c

/-- A teardown begins: of the context, or of its residency in some partitions. -/
def startTeardown (c : Chip) (x : Nat) (full force : Bool) (mask : List Nat) (waiters : List (QId × Nat)) : Chip :=
  let c := if full then c.countFor x .CONTEXT_TEARDOWNS (c.ctx x).port 1 else c
  let c := c.modCtx x fun k =>
    { k with state := if full then 3 else k.state, stage := 1,
             teardown := some { full := full, force := force, mask := mask, stageAt := c.now,
                                waiters := (match k.teardown with | some t => t.waiters | none => []) ++ waiters } }
  let c := mask.foldl (fun c p => c.stopStage x p) c
  if full then c.stopSlices x force else c

/-- TEARDOWN_CTX with FORCE by an event of the port or the TDI; of a context in TEARDOWN it changes nothing. -/
def forceTeardown (c : Chip) (x : Nat) : Chip :=
  let k := c.ctx x
  if k.state = 1 ∨ k.state = 2 then c.startTeardown x true true (k.shares.map Prod.fst) [] else c

/-- TEARDOWN_CTX. -/
def teardownCtx (c : Chip) (hp : Nat) (d : Desc) : Chip :=
  let i := QId.context hp
  let x := d.at 0x10 1
  let k := c.ctx x
  if c.notMine hp x || k.state = 0 then c.endFree i d.tag
  else if k.state = 3 then
    c.modCtx x fun k => { k with teardown := k.teardown.map fun t => { t with waiters := addOnce t.waiters (i, d.tag) } }
  else c.startTeardown x true (bit (d.at 0x11 1) 0) (k.shares.map Prod.fst) [(i, d.tag)]

/-- The stage in progress has ended at all partitions; one in reset goes on with it after its restart (R331). -/
def stageEnded (c : Chip) (x : Nat) (t : Teardown) : Bool :=
  let left := fun (sel : Cmd → Bool) => c.cmds.any fun y => y.q.ctx = x && (match y.q.part with | some p => t.mask.contains p | none => false)
    && sel y
  t.mask.all (fun p => !c.bypassed p) && match (c.ctx x).stage with
  | 1 => !(t.full && c.slices.any fun s => s.ctx = x) && !left (fun y => !y.q.toMule)
  | 2 => !left fun _ => true
  | _ => true

/-- REVOKE at one control port: index 1 + c, both directions, at both ends of the link. -/
def revokeIndex (c : Chip) (x p : Nat) : Chip :=
  let c := c.modPart p fun s => { s with link := { s.link with revoked := addOnce s.link.revoked (1 + x) } }
  let c := c.setReg .LINKSEC_REVOKED_MASK p 0 (setBit (c.reg .LINKSEC_REVOKED_MASK p) x true)
  c.onAgent (.spine p 15) fun a => a.modPort 47 fun s => { s with link := { s.link with revoked := addOnce s.link.revoked (1 + x) } }

/-- RELEASE in one partition. -/
def releaseStage (c : Chip) (x p : Nat) : Chip :=
  let c := ({ c with freeCtr := c.freeCtr + 4 }).henPart p 0x3802 c.freeParams (c.isConf x)
  c.endResidency x p

/-- The next stage begins, or the teardown ends (R329). -/
def stageDone (c : Chip) (x : Nat) : Chip :=
  match (c.ctx x).teardown with
  | none => c
  | some t =>
    let c := if t.full then c.stopSlices x t.force else c
    if !c.stageEnded x t then c
    else
      let next := fun (c : Chip) (n : Nat) => c.modCtx x fun k =>
        { k with stage := n, teardown := some { t with stageAt := c.now } }
      match (c.ctx x).stage with
      | 1 => t.mask.foldl (fun c p => c.clearCtxWork x p) (next c 2)
      | 2 =>
        let c := t.mask.foldl (fun c p => c.revokeIndex x p) (next c 3)
        if !t.full then c
        else
          let port := (c.ctx x).port
          let c := if (c.ctx x).conf then c.modHostPort port fun h => { h with ide := h.ide.erase x } else c
          c.modCtx x fun k => { k with key := none, keyGen := 0 }
      | 3 => next c 4
      | 4 => t.mask.foldl (fun c p => c.scrub x p) (next c 5)
      | _ =>
        let c := t.mask.foldl (fun c p => c.releaseStage x p) c
        let c := c.modCtx x fun k => { k with stage := 0, teardown := none }
        let port := (c.ctx x).port
        let c := if t.full then
            let c := if (c.ctx x).conf then c.modHostPort port fun h => { h with tdi := SMap.erase h.tdi x } else c
            c.modCtx x fun k => { gen := k.gen }
          else c
        t.waiters.foldl (fun c w => c.complete w.1 w.2 0x00) c

/-- 2 ms after QUIESCE begins, the context's Mule commands still there end REVOKED (R329, R375). -/
def quiesceExpiry (c : Chip) (x : Nat) : Chip :=
  match (c.ctx x).teardown with
  | none => c
  | some t =>
    if (c.ctx x).stage = 2 ∧ t.stageAt + 2000000 ≤ c.now then
      t.mask.foldl (fun c p =>
        let n := (c.cmds.filter fun y => y.q.part = some p && y.q.ctx = x && y.q.toMule).length
        let c := ((c.countFor x .MULE_REVOKED_ABORTS p n).countFor x .MULE_COMMANDS p n).countFor x .MULE_CMD_FAILED p n
        c.revokeCmds x p fun y => y.q.toMule) c
    else c

/-- A TDISP STOP_INTERFACE, or a TDI that goes to ERROR: the TDI leaves RUN, and TEARDOWN_CTX with FORCE starts (R312). -/
def tdiStop (c : Chip) (x : Nat) : Chip :=
  if !(c.ctx x).conf || (c.ctx x).state = 0 then c
  else (c.modHostPort (c.ctx x).port fun h => { h with tdi := SMap.insert h.tdi x 3 }).forceTeardown x

/-! SET_RESIDENT (R309 to R312) -/

/-- A slice of the context holds endpoints in a partition's zone. -/
def sliceHolds (c : Chip) (x p : Nat) : Bool :=
  c.slices.any fun s => s.ctx = x && s.endpoints.any fun f => c.endpointPod f = some (c.podOf p)

/-- SET_RESIDENT. -/
def setResident (c : Chip) (hp : Nat) (d : Desc) : Chip :=
  let i := QId.context hp
  let x := d.at 0x10 1
  let k := c.ctx x
  let addMask := setBitsOf 16 (d.at 0x12 2)
  let add := addMask.filter fun p => !c.residentIn x p
  let rem := (setBitsOf 16 (d.at 0x16 2)).filter (c.residentIn x)
  let sram := d.at 0x14 2
  let lp := d.at 0x18 4
  if c.notMine hp x || k.state = 0 then c.endFree i d.tag
  else
    let named := addMask ++ setBitsOf 16 (d.at 0x16 2)
    let st := worst ((if k.state = 3 || k.teardown.isSome then [0x04] else [])
      ++ (if !c.tdiReady x || (c.reg .DEVICE_HOST_CFG == 3 && named.any fun p => c.ownerPort p ≠ k.port) then [0x08] else [])
      ++ (if add.any (fun p => c.residencyRefused x p sram lp) || rem.any (c.sliceHolds x) then [0x0B] else []))
    if st ≠ 0 then c.complete i d.tag st
    else if !add.isEmpty && (sram = 0 || 96 < sram || lp < 64 || 3072 < lp) then c.endFree i d.tag
    else
      let late := add.any c.bypassed
      let c := (add.filter fun p => !c.bypassed p).foldl (fun c p => c.makeResident x p sram lp) c
      if late then c.complete i d.tag 0x01
      else if rem.isEmpty then c.complete i d.tag 0x00 else c.startTeardown x false false rem [(i, d.tag)]

/-! IMPORT_KEY (R323) -/

/-- IMPORT_KEY. A blob that the port cannot read ends it with TIMEOUT (R336). -/
def importKey (c : Chip) (hp : Nat) (d : Desc) : Chip :=
  let i := QId.context hp
  let x := d.at 0x10 1
  let k := c.ctx x
  if c.notMine hp x || k.state = 0 then c.endFree i d.tag
  else if k.state = 3 then c.complete i d.tag (worst ([0x04] ++ (if c.tdiReady x then [] else [0x08])))
  else if !c.tdiReady x then c.complete i d.tag 0x08
  else if !c.portReads hp then c.complete i d.tag 0x01
  else
    let b := c.hostBytes hp (d.at 0x18 8) 256
    let g := fun off n => ofBytes ((b.drop off).take n)
    let pub := g 0x10 133
    let z := Config.ecdh [c.fwDigest, x, k.gen] pub
    let w := Config.hkdf z ((b.drop 8).take 8)
    let open_ := Config.gcmOpen w ((b.drop 0x98).take 12 ++ b.take 0x98) ((b.drop 0xA4).take 32 ++ (b.drop 0xC4).take 16)
    let gen := g 0x0C 4
    if g 0 4 ≠ 0x4B575843 || g 4 2 ≠ 1 then c.endFree i d.tag
    else
      match (if g 6 1 = x && g 8 4 = k.gen && k.keyGen < gen && Config.onCurve pub then open_ else none) with
      | none => (((c.countFor x .CONTEXT_KEY_FAILS hp 1).ctxEvent x 0x3803)).complete i d.tag 0x08
      | some v =>
        let c := c.modCtx x fun k => { k with key := some (ofBytes v), keyGen := gen }
        (c.countFor x .CONTEXT_KEY_IMPORTS hp 1).complete i d.tag 0x00

/-! QUERY_CTX and attestation (R318 to R322) -/

/-- The context record (R322). -/
def ctxRecord (c : Chip) (x : Nat) : List Nat :=
  let k := c.ctx x
  let mask := k.shares.foldl (fun v e => v + 2 ^ e.1) 0
  [x, ofBool k.conf + 2 * k.port, k.state, k.stage] ++ bytesOf 4 k.gen ++ bytesOf 4 k.keyGen ++ bytesOf 2 mask ++ [0, 0]
    ++ bytesOf 64 k.signer ++ bytesOf 133 (Config.kekPublic [c.fwDigest, x, k.gen]) ++ [0, 0, 0] ++ bytesOf 64 k.logL
    ++ List.replicate 8 0

/-- QUERY_CTX. -/
def queryCtx (c : Chip) (hp : Nat) (d : Desc) : Chip :=
  let i := QId.context hp
  let x := d.at 0x10 1
  if 64 ≤ x then c.endFree i d.tag
  else
    let b := c.ctxRecord x
    let n := d.at 0x20 4
    (c.writeHost hp (d.at 0x18 8) (b.take n)).complete i d.tag (if n < b.length then 0x0B else 0x00)

/-- One bit a partition. -/
def partBits (f : Nat → Bool) : Nat := allParts.foldl (fun v p => v + (if f p then 2 ^ p else 0)) 0

/-- The mode record (R320). -/
def modeRecord (c : Chip) : List Nat :=
  let trace := allParts.foldl (fun v p => v + c.reg .TRACE_TRACE_MODE p * 4 ^ p) 0
  let conf := (c.ctxs.map fun e => if e.2.conf then e.2.shares.length else 0).sum
  [c.reg .DEVICE_HOST_CFG, c.reg .DEVICE_ROLE, c.clusterIndex, c.leadPart] ++ bytesOf 2 (partBits fun p => !c.locked p) ++ [0, 0]
    ++ bytesOf 4 trace ++ bytesOf 2 (partBits fun p => c.reg .SCHED_SPEC_DEFAULT p == 1)
    ++ bytesOf 2 (partBits fun p => c.reg .SCHED_ORDERED_DEFAULT p == 1) ++ [c.reg .CONTEXT_COARSE, 0] ++ bytesOf 2 conf
    ++ List.replicate 44 0

/-- What the defect maps say, partition by partition. -/
def defectMaps (c : Chip) : List Nat :=
  allParts.flatMap fun p => ((c.part p).engMap.flatMap fun e => [e.1, e.2])
    ++ [c.reg .PARTITION_BANKS_VACANT p, c.reg .PARTITION_CORES_VACANT p, c.reg .PARTITION_MIOBOR_VACANT p]

/-- A measurement (R319); none where the index is not offered. Function 64 stands for MCTP. -/
def measurement (c : Chip) (hp fn index : Nat) : Option (List Nat) :=
  let bound : Bool := fn < 64 && (c.ctx fn).state ≠ 0 && (c.ctx fn).port == hp
  let log := fun lo n => (((c.ctx fn).log.drop lo).take n).flatMap fun e => e.bytes
  match index with
  | 1 => some (bytesOf 4 (trunc 32 Config.romVer))
  | 2 => some (bytesOf 64 c.fwDigest)
  | 3 => some (bytesOf 4 c.fwVersion)
  | 4 => some [c.reg .DEVICE_BOOT_SRC + 2 * c.reg .DEVICE_HOST_CFG]
  | 5 => some (bytesOf 64 (Config.defectDigest c.defectMaps))
  | 6 => some c.modeRecord
  | 0x10 => if bound then some (c.ctxRecord fn) else none
  | 0x11 => if bound then some (log 0 511) else none
  | 0x12 => if bound then some (log 511 511) else none
  | 0x13 => if bound then some (log 1022 2) else none
  | _ => none

/-- An SPDM request over DOE of a function, or over MCTP (R312, R316, R318). -/
def spdmRequest (c : Chip) (hp fn : Nat) (r : SpdmReq) : Chip :=
  let c := c.count .CONTEXT_SPDM_REQUESTS hp
  if c.reg .CONTEXT_IDENTITY_OK hp == 0 then c
  else
    match r with
    | .measure k th =>
      (match c.measurement hp fn k with
      | some b => c.emit (.response "MEASUREMENTS" ([hp, fn, k, Config.ecdsaSign 1 th] ++ b))
      | none => c.emit (.response "ERROR" [hp, fn, k]))
    | .ideStream x =>
      if fn = 0 ∧ 1 ≤ x ∧ x ≤ (c.hostPort hp).vfs then
        (c.modHostPort hp fun h => { h with ide := addOnce h.ide x }).emit (.response "IDE_KM" [hp, x])
      else c.emit (.response "ERROR" [hp, fn, x])
    | .tdiLock x =>
      if fn = 0 ∧ 1 ≤ x ∧ x ≤ (c.hostPort hp).vfs ∧ SMap.get 0 (c.hostPort hp).tdi x = 0 then
        (c.modHostPort hp fun h => { h with tdi := SMap.insert h.tdi x 1 }).emit (.response "LOCK_INTERFACE" [hp, x])
      else c.emit (.response "ERROR" [hp, fn, x])
    | .tdiStart x =>
      if fn = 0 ∧ SMap.get 0 (c.hostPort hp).tdi x = 1 ∧ x ∈ (c.hostPort hp).ide then
        (c.modHostPort hp fun h => { h with tdi := SMap.insert h.tdi x 2 }).emit (.response "START_INTERFACE" [hp, x])
      else c.emit (.response "ERROR" [hp, fn, x])
    | .other => c.emit (.response "SPDM" [hp, fn])

/-! Rekeying (R327) -/

/-- The greatest COUNTER sent on a link under any index. -/
def maxTx (l : LinkEnd) : Nat := (l.tx.map Prod.snd).foldl max 0

/-- A link end takes the keys of the next generation: because its COUNTER has reached 2^REKEY_LOG2, or because the far end began. -/
def rekeyEnd (c : Chip) (u : UnitId) (k : Nat) (far : Bool) : Chip :=
  match u with
  | .part p => c.atPart p fun c =>
    let l := (c.part p).link
    if !l.keyed || (!far && maxTx l < 2 ^ c.reg .LINKSEC_REKEY_LOG2 p) then c else c.rekeyPart p
  | _ => c.atAgent u fun a =>
    let l := (a.port k).link
    if !l.keyed || (!far && maxTx l < 2 ^ 39) then a
    else (a.modPort k fun s => { s with link := nextGen s.link }).emit (.handshake u k (l.gen + 1))

/-- The keys of the generation before are dropped. -/
def dropGen (l : LinkEnd) (now : Nat) : LinkEnd :=
  match l.prevUntil with
  | some t => if l.prevOpen && t ≤ now then
      { l with prevOpen := false, prevUntil := none, rx := l.rx.filter fun e => e.1 / 128 = l.gen % 2 } else l
  | none => l

/-- 1 ms after the first frame under g + 1, frames under g are no longer accepted. -/
def rekeyGraceEnd (c : Chip) (u : UnitId) (k : Nat) : Chip :=
  match u with
  | .part p => c.atPart p fun c => c.modPart p fun s => { s with link := dropGen s.link c.now }
  | _ => c.atAgent u fun a => a.modPort k fun s => { s with link := dropGen s.link a.now }

/-! Readings of confidential contexts (R314, R315) -/

/-- The page that a bank address names: partition pages by their number, 15 the CONTEXT page, 16 the CTXQ page. -/
def bankPage (q : Nat) : Option Page :=
  if q = 15 then some .CONTEXT else if q = 16 then some .CTXQ
  else [Page.PARTITION, .ENGINES, .CORES, .MEMORY, .MULE, .GOOSE, .TRACE, .PCOUNTERS, .ROUTE, .SCHED, .MIOBOR, .LEARN, .IMAGE, .FAIL,
    .LINKSEC][q]?

/-- A counter of a bank as its context's own function reads it: the sample of the last millisecond, rounded down to 4,096. -/
def bankValue (c : Chip) (x p q off : Nat) : Nat :=
  match bankPage q with
  | none => 0
  | some g =>
    let inst := match g with | .CTXQ => 16 * x + p | .CONTEXT => (c.ctx x).port | _ => p
    let k := bankAt c.now (c.ctx x)
    match (RegFile.covered (gElems g) off 64).find? fun e => e.1.desc.counter with
    | some e => SMap.get 0 k.sample (e.1.key inst e.2) / 4096 * 4096
    | none => 0

/-- A read of a confidential context's counter bank through its own function. -/
def bankRead (c : Chip) (hp x p q off : Nat) : Chip :=
  if c.isConf x && (c.ctx x).port == hp then c.emit (.readReturn hp (c.bankValue x p q off))
  else c.drawn.emit (.readReturn hp (c.freeVal 64))

/-- A window end at least 100 ms after the RELEASE of the last confidential context brings fine readings back. -/
def coarseEnd (c : Chip) : Chip :=
  if c.reg .CONTEXT_CONF_RESIDENT = 0 ∧ c.confReleased + 100000000 ≤ c.now / 100000000 * 100000000 then
    (c.setReg .CONTEXT_COARSE 0 0 0).setReg .CONTEXT_COARSE 1 0 0
  else c

end Chip

end Sys2Proof.Machine
end

