-- ==== Sys2Proof/Machine/ExecContext.lean ====
section
/-! DEFINITION. The commands of contexts, keys and attestation (R307 to R333). -/

namespace Sys2Proof.Machine

open Sys2Proof

/-- CREATE_CTX (R308). -/
def execCreateCtx (t hp : Nat) (d : Desc) (s : State) : Host.Outcome State Fault Refusal :=
  .next (s.run t fun c => c.runCmd (.context hp) { d with opcode := 0x90 } fun c => c.createCtx hp d)
/-- SET_RESIDENT (R311). -/
def execSetResident (t hp : Nat) (d : Desc) (s : State) : Host.Outcome State Fault Refusal :=
  .next (s.run t fun c => c.runCmd (.context hp) { d with opcode := 0x91 } fun c => c.setResident hp d)
/-- IMPORT_KEY (R323). -/
def execImportKey (t hp : Nat) (d : Desc) (s : State) : Host.Outcome State Fault Refusal :=
  .next (s.run t fun c => c.runCmd (.context hp) { d with opcode := 0x92 } fun c => c.importKey hp d)
/-- TEARDOWN_CTX (R329). -/
def execTeardownCtx (t hp : Nat) (d : Desc) (s : State) : Host.Outcome State Fault Refusal :=
  .next (s.run t fun c => c.runCmd (.context hp) { d with opcode := 0x93 } fun c => c.teardownCtx hp d)
/-- CTX_STAGE_DONE (R329). -/
def execCtxStageDone (t x : Nat) (s : State) : Host.Outcome State Fault Refusal :=
  .next (s.run t fun c => c.stageDone x)
/-- QUIESCE_EXPIRY (R375). -/
def execQuiesceExpiry (t x : Nat) (s : State) : Host.Outcome State Fault Refusal :=
  .next (s.run t fun c => c.quiesceExpiry x)
/-- QUERY_CTX (R322). -/
def execQueryCtx (t hp : Nat) (d : Desc) (s : State) : Host.Outcome State Fault Refusal :=
  .next (s.run t fun c => c.runCmd (.context hp) { d with opcode := 0x94 } fun c => c.queryCtx hp d)
/-- TDI_STOP (R312). -/
def execTdiStop (t x : Nat) (s : State) : Host.Outcome State Fault Refusal :=
  .next (s.run t fun c => c.tdiStop x)
/-- REKEY (R327). -/
def execRekey (t : Nat) (u : UnitId) (k : Nat) (far : Bool) (s : State) : Host.Outcome State Fault Refusal :=
  .next (s.run t fun c => c.rekeyEnd u k far)
/-- REKEY_GRACE_END (R327). -/
def execRekeyGraceEnd (t : Nat) (u : UnitId) (k : Nat) (s : State) : Host.Outcome State Fault Refusal :=
  .next (s.run t fun c => c.rekeyGraceEnd u k)
/-- SPDM_REQUEST (R318). -/
def execSpdmRequest (t hp fn : Nat) (r : SpdmReq) (s : State) : Host.Outcome State Fault Refusal :=
  .next (s.run t fun c => c.spdmRequest hp fn r)
/-- COUNTER_BANK_READ (R314). -/
def execCounterBankRead (t hp x p page off : Nat) (s : State) : Host.Outcome State Fault Refusal :=
  .next (s.run t fun c => c.bankRead hp x p page off)
/-- COARSE_WINDOW_END (R315). -/
def execCoarseWindowEnd (t : Nat) (s : State) : Host.Outcome State Fault Refusal :=
  .next (s.run t fun c => c.coarseEnd)

end Sys2Proof.Machine
end

