-- ==== Sys2Proof/Machine/Learn.lean ====
section
/-! DEFINITION. Learned functions: forecast invocations and their publication (R242 to R246), and link health (R254, R255). -/

namespace Sys2Proof.Machine

open Sys2Proof

namespace Chip

/-! Forecasts -/

/-- The forecast deadline of a window (R243): SPEC_MARGIN before its gather point. -/
def fcDeadline (c : Chip) (p : Nat) (j : Job) (w : Nat) : Int := c.gatherOf p j w - (c.reg .LEARN_SPEC_MARGIN p * 1000 : Nat)

/-- The descriptors of the model section that a job's policy names, where it is installed (R242, R271). -/
def fcModel (c : Chip) (p : Nat) (j : Job) (w : Nat) : Option (List Desc) :=
  let num := (c.policyAt p j w).fcModel
  (c.part p).sections.findSome? fun s => match s.body with
    | .model _ _ cmds _ _ _ => if s.ctx = j.ctx && s.num = num && s.state = 1 then some cmds else none
    | _ => none

/-- The firmware commands of a job's forecaster that have not ended. -/
def fcPending (c : Chip) (p : Nat) (j : Job) : Bool := c.cmds.any fun y => y.q = QId.fw j.ctx p j.job

/-- Changes a job's latest invocation. -/
def modInv (c : Chip) (p job : Nat) (f : Invocation → Invocation) : Chip :=
  c.modJob p job fun j => match j.inv.getLast? with | some v => { j with inv := j.inv.dropLast ++ [f v] } | none => j

/-- An invocation starts: at FC_LEAD before the window or when the one before has ended, under the conditions of R242 and R400. One whose
start falls after its deadline is not issued. -/
def forecastStart (c : Chip) (p job w : Nat) : Chip :=
  match c.jobOf p job with
  | none => c
  | some j =>
    let ok := (c.modeOf p j w).1 && (c.policyAt p j w).histMin ≤ j.filledAt w && c.reg .PARTITION_MIOBOR_VACANT p == 0
      && c.stageOf p == 0 && !j.stopped && (c.haltSeq j.ctx p).isNone
    let due : Bool := w * 131072 ≤ c.now + c.reg .LEARN_FC_LEAD p * 1000
    if !j.onGrid w || (j.holesOf w).isEmpty || !due || c.fcPending p j || j.inv.any (fun v => w ≤ v.window) || !ok then c
    else
      match c.fcModel p j w with
      | none => c
      | some cmds =>
        let put := fun (c : Chip) (v : Invocation) => c.modJob p job fun j => { j with inv := lastN 64 (j.inv ++ [v]) }
        if c.fcDeadline p j w < (c.now : Int) then
          (put c { window := w, total := cmds.length, late := true }).jcount p job .LEARN_FC_LATE 1
        else
          let c := (put c { window := w, total := cmds.length }).jcount p job .LEARN_FC_STARTED 1
          cmds.foldl (fun c d =>
            let x : Cmd := { q := .fw j.ctx p job, d := { d with ctx := j.ctx }, seq := c.cmdSeq, fetched := c.now }
            { c with cmds := c.cmds ++ [x], cmdSeq := c.cmdSeq + 1 }) c

/-- The deadline passes without a publication: none of the remaining commands is issued (R243). -/
def forecastDeadline (c : Chip) (p job w : Nat) : Chip :=
  match c.jobOf p job with
  | none => c
  | some j =>
    match j.inv.getLast? with
    | none => c
    | some v =>
      if v.window ≠ w || v.published || v.failed || v.late || decide ((c.now : Int) < c.fcDeadline p j w) then c
      else
        let c := { c with cmds := c.cmds.filter fun y => !(y.q = QId.fw j.ctx p job && y.started.isNone) }
        (c.modInv p job fun v => { v with late := true }).jcount p job .LEARN_FC_LATE 1

/-- A tensor of the forecast, where its entry and every tile pass the check at use (R244). -/
def fcTensor (c : Chip) (p x h format rows cols : Nat) : Option Tensor :=
  match c.tensor p x h with
  | .inr _ => none
  | .inl t =>
    let t := { t with format := format, rows := rows, cols := cols, blocked := false, sparse := false }
    if (c.checkTensor p x t).isNone then some t else none

/-- A confidence as a whole number from 0 to 256 (R244). -/
def conf256 (v : Nat) : Nat :=
  match FV.decode 6 v with
  | .nan => 0
  | .inf s => if s then 0 else 256
  | .fin s m e => if s then 0 else min 256 (FV.onGrid m (e + 8) 0).1

/-- The entries that a row of FC gives, and how many are dropped (R244). -/
def fcRow (c : Chip) (p : Nat) (j : Job) (src : Nat) (words : List Nat) : List (Nat × Nat) × Nat :=
  words.foldl (fun (a : List (Nat × Nat) × Nat) v =>
    let dst := v % 2 ^ 20
    if v = 0 then a
    else if !(dst ∈ j.endpoints) || dst = src || a.1.any (fun e => e.1 = dst) || c.fencedFor p j.job dst then (a.1, a.2 + 1)
    else (a.1 ++ [(dst, bits v 31 20)], a.2)) ([], 0)

/-- One source's forecast is used: its entries are items of the speculative class. -/
def fcItems (c : Chip) (p : Nat) (j : Job) (w src pos : Nat) (l : List (Nat × Nat)) : List Item :=
  let step := (j.win w false).listStep j.lastStep
  l.zipIdx.filterMap fun e =>
    if e.1.2 = 0 then none
    else some { id := 0, src := src, pos := pos, dst := e.1.1, flow := 0, step := step, idx := e.2, cls := 2,
                cross := c.isCross p e.1.1, want := e.1.2, owed := 0 }

/-- The rows of a forecast that passed its checks (R244, R245). -/
def fcUse (c : Chip) (p : Nat) (j : Job) (w : Nat) (fc conf : Tensor) (width : Nat) : Chip :=
  let c := c.openWin p j.job w
  let eps := sortBy (fun (a b : Nat × Nat) => a.2 ≤ b.2) ((c.zoneEps p j).filter fun e => !c.fencedFor p j.job e.1)
  let thr := c.thresholdOf p j w
  let taken := (c.winOf p j.job w false).vectors
  let r := eps.foldl (fun (a : Chip × List Item × Bool) e =>
    let row := c.fcRow p j e.1 ((List.range width).map fun k => c.elem p fc e.2 k)
    let d := a.1.jcount p j.job .LEARN_FC_ENTRIES_DROPPED row.2
    if conf256 (c.elem p conf e.2 0) < thr then (d.jcount p j.job .LEARN_FC_SOURCES_BELOW 1, a.2)
    else if taken.any fun v => v.src = e.1 then (d.jcount p j.job .LEARN_FC_SOURCES_PREEMPTED 1, a.2)
    else (d, a.2.1 ++ c.fcItems p j w e.1 e.2 row.1, true)) (c, [], false)
  let c := r.1.modWin p j.job w false fun x =>
    { x with spec := true, used := x.used || r.2.2, firstWork := if x.firstWork.isNone then some r.1.now else x.firstWork }
  let a := c.addItems p j.job w false r.2.1
  let c := if (c.modeOf p j w).2.1 then a.1.orderedPlace p j.job w false 2
    else a.1.dealItems p j.job w false (a.2.filter fun i => !i.cross)
  let cross := a.2.filter fun i => i.cross
  if cross.isEmpty then c else c.sendCross p j.job w cross true true false

/-- The last command has completed with OK before the deadline: the forecast is read and used (R243 to R245). -/
def forecastPublish (c : Chip) (p job w : Nat) : Chip :=
  match c.jobOf p job with
  | none => c
  | some j =>
    match j.inv.getLast? with
    | none => c
    | some v =>
      let pol := c.policyAt p j w
      if v.window ≠ w || v.published || v.failed || v.late || v.done < v.total || decide (c.fcDeadline p j w ≤ (c.now : Int)) then c
      else
        match c.fcTensor p j.ctx pol.fc 7 512 pol.fcWidth, c.fcTensor p j.ctx pol.fcConf 6 512 1 with
        | some fc, some conf =>
          ((c.modInv p job fun v => { v with published := true }).jcount p job .LEARN_FC_PUBLISHED 1).fcUse p j w fc conf pol.fcWidth
        | _, _ => (c.modInv p job fun v => { v with failed := true }).jcount p job .LEARN_FC_FAILED 1

/-! History reset (R251) -/

/-- HIST_RESET at a partition of the slice. -/
def histReset (c : Chip) (p src tag job : Nat) : Chip :=
  let x := match c.jobOf p job with | some j => j.ctx | none => 64
  c.prequest p src tag 0x84 (x := x) fun c => (c.emptyHistory p job).preply p src tag 0x84 0x00 [] x

/-! Link health (R254, R255) -/

/-- What the network sees of a port in a period (R254). -/
def lhFeatures (h : PortHealth) : List Nat :=
  (List.range 7).map (fun i => h.sums.getD i 0) ++ [h.depth, h.means, h.recs, h.delays, h.ups, h.score]

/-- How often in a row a port has now scored high, or low. -/
def lhScored (c : Chip) (p : Nat) (h : PortHealth) (s : Nat) : PortHealth :=
  { score := s, high := if c.reg .LEARN_LH_THRESH p ≤ s then h.high + 1 else 0,
    low := if s < c.reg .LEARN_LH_CLEAR p then h.low + 1 else 0 }

/-- A spine circuit port of the management circuits or the control port (R97, R144). -/
def lhRingPort (u : UnitId) (port : Nat) : Bool := match u with | .spine _ s => s == 15 && 43 ≤ port | _ => false

/-- A port may be disabled: it is none of an endpoint, of a control attachment or of the management circuits (R255, R97, R144). -/
def lhMayDisable (c : Chip) (p : Nat) (u : UnitId) (port : Nat) : Bool :=
  let far : Bool := match SMap.find? (c.part p).topo.links (linkKey u port) with
    | some l => (match l.far with
      | some (.part _) => true
      | some (.ocs _) => l.farPort == 0
      | some v => lhRingPort v l.farPort
      | none => false)
    | none => false
  (match u with
    | .leaf _ _ => 32 ≤ port
    | .spine _ _ => !lhRingPort u port
    | .ocs _ => 1 ≤ port
    | _ => false) && !far

/-- A flag is set: reported, and acted on as LH_ACTION says. -/
def lhFlag (c : Chip) (p key score : Nat) (u : UnitId) (port : Nat) : Chip :=
  let fid := c.fidOf p u
  let c := ((c.modPart p fun s => { s with flagged := addOnce s.flagged key }).count .LEARN_LH_FLAGS_SET p).henPart p 0x3505
    [fid, port, score, 1]
  let c := c.raise .LEARN p 0
  let held := ((c.part p).lhDisabled.filter fun k => match SMap.find? (c.part p).topo.links k with
    | some l => l.disabled | none => false).length
  if c.reg .LEARN_LH_ACTION p = 2 ∧ held < c.reg .LEARN_LH_MAX_DISABLED p ∧ c.lhMayDisable p u port then
    let off := fun (e : Nat × TopoLink) => if e.1 = key then (e.1, { e.2 with disabled := true, off := true }) else e
    let c := c.modPart p fun s => { s with lhDisabled := addOnce s.lhDisabled key }
    let c := (c.modTopo p fun t => { t with links := t.links.map off }).count .LEARN_LH_DISABLES p
    (c.sendPortState p u port false none).kickAuto p
  else c

/-- One port is evaluated. -/
def lhPort (c : Chip) (p key : Nat) : Chip :=
  let h := SMap.get {} (c.part p).health key
  let s := Config.lhScore (lhFeatures h) % 256
  let h := c.lhScored p h s
  let c := (c.modPart p fun x => { x with health := SMap.set {} x.health key h }).count .LEARN_LH_EVALS p
  let u := unitOfCode (key / 1024)
  let port := key % 1024
  let n := c.reg .LEARN_LH_PERSIST p
  let on : Bool := key ∈ (c.part p).flagged
  if !on && n ≤ h.high then c.lhFlag p key s u port
  else if on && n ≤ h.low then
    ((((c.modPart p fun x => { x with flagged := x.flagged.erase key }).count .LEARN_LH_FLAGS_CLEARED p).henPart p 0x3505
      [c.fidOf p u, port, s, 0]).raise .LEARN p 0)
  else c

/-- The evaluation of a period: device-function commands on the cluster, then every port with records (R254 to R256). While the
cluster is held or in reset it waits; a cluster out of service gives no score. -/
def linkHealthEval (c : Chip) (p : Nat) : Chip :=
  let at_ := (c.part p).lhAt + c.reg .LEARN_LH_PERIOD p * 1000000
  if c.now < at_ || 1 ≤ c.stageOf p || c.reg .MIOBOR_STATE p == 3 then c
  else
    let c := c.modPart p fun s => { s with lhAt := c.now }
    let seen := ((c.part p).health.filter fun e => 0 < e.2.recs).map Prod.fst
    let c := if c.reg .PARTITION_MIOBOR_VACANT p = 1 then c
      else
        let d : Desc := { opcode := 0x10, ctx := 64 }
        let c := ((c.mioTake p 64).setReg .MIOBOR_CURRENT_CTX p 0 0xFF).mioCount p d false mioCounters fun k =>
          Config.mioValue (c.freeKey ++ [2, k])
        let c := (c.mioAdd p d .MIOBOR_COMMANDS 1 (c.freeVal 8)).drawn
        let n := c.freeVal 32
        let c := (c.drawn.mioAdd p d .MIOBOR_BUSY_CYCLES 0x11 n).setReg .MIOBOR_LAST_CMD_CYCLES p 0 n
        seen.foldl (fun c k => c.lhPort p k) c
    c.modPart p fun s => { s with health := s.health.map fun e => (e.1, { e.2 with recs := 0, sums := [], depth := 0, means := 0,
                                                                                   delays := 0, ups := 0 }) }

end Chip

end Sys2Proof.Machine
end

