-- ==== Sys2Proof/Machine/Analysis.lean ====
section
/-! DEFINITION. Expert placement analysis (R248 to R253): the seven steps, the checks at use, the advice record and its request. -/

namespace Sys2Proof

/-- The quotient of two values, correctly rounded to FP32. -/
def FV.div (a b : FV) : FV :=
  match a, b with
  | .nan, _ => .nan
  | _, .nan => .nan
  | .inf _, .inf _ => .nan
  | .inf s, .fin t _ _ => .inf (s != t)
  | .fin s _ _, .inf t => .fin (s != t) 0 0
  | .fin s m e, .fin t n f =>
    if n = 0 then (if m = 0 then .nan else .inf (s != t))
    else if m = 0 then .fin (s != t) 0 0 else FV.f32 (FV.ratio (s != t) m n (e - f))

/-- The sequential FP32 sum of R227. -/
def FV.total (l : List FV) : FV := l.foldl FV.add FV.zero

/-- A value converted to BF16 and back (R210). -/
def FV.bf16 (v : FV) : FV := FV.decode 5 (FV.encode {} 5 0 v).bits

end Sys2Proof

namespace Sys2Proof.Machine

open Sys2Proof

namespace Analyse

/-- A vector or a matrix as a table, so that its elements are computed once. -/
abbrev Row := Array FV
/-- Rows of a matrix. -/
abbrev Mat := Array (Array FV)

/-- An element of a table; 0 outside it. -/
def el (r : Row) (i : Nat) : FV := r.getD i FV.zero
/-- An element of a matrix. -/
def at2 (m : Mat) (i j : Nat) : FV := el (m.getD i #[]) j
/-- A table of `n` elements. -/
def tab {α : Type} (n : Nat) (f : Nat → α) : Array α := ((List.range n).map f).toArray

/-- Step 1: W, from the integer elements of COACT. -/
def weights (n : Nat) (co : Nat → Nat → Int) : Mat :=
  tab n fun a => tab n fun b => if a = b then FV.zero else FV.f32 (FV.ofInt (FV.clampInt 7 (co a b + co b a)).1)

/-- Step 1: the degrees. -/
def degrees (n : Nat) (w : Mat) : Row :=
  tab n fun a =>
    let s := FV.total ((List.range n).map fun b => at2 w a b)
    if s.isZero then FV.one else s

/-- Step 2: N in BF16. -/
def normal (n : Nat) (w : Mat) (d : Row) : Mat :=
  tab n fun a => tab n fun b => (FV.mul (at2 w a b) (FV.recip (FV.sqrt (FV.mul (el d a) (el d b))))).bf16

/-- The 2-norm of a column. -/
def norm (n : Nat) (v : Row) : FV := FV.sqrt (FV.total ((List.range n).map fun i => FV.mul (el v i) (el v i)))

/-- Step 3: the columns of the first X. -/
def startX (n seed : Nat) (d : Row) : Mat :=
  let s := tab n fun a => FV.sqrt (el d a)
  let z := norm n s
  tab 8 fun c => tab n fun a =>
    if c = 0 then (FV.div (el s a) z).bf16
    else (FV.fin (decide (FV.rnd16 seed (8 * a + c) < 32768)) ((FV.rnd16 seed (8 * a + c) : Int) - 32768).natAbs (-16)).bf16

/-- Modified Gram–Schmidt over the columns that are left: each is made a unit vector and taken out of those after it. -/
def orthonormal (n : Nat) : Nat → List Row → List Row
  | 0, _ => []
  | _, [] => []
  | k + 1, v :: r =>
    let z := norm n v
    let q := tab n fun i => FV.div (el v i) z
    let rest := r.map fun u =>
      let dot := FV.total ((List.range n).map fun i => FV.mul (el q i) (el u i))
      tab n fun i => FV.sub (el u i) (FV.mul dot (el q i))
    q :: orthonormal n k rest

/-- Step 4, once: Y = N · X + X, orthonormalised, in BF16. -/
def iterate (n : Nat) (m x : Mat) : Mat :=
  let y := (List.range 8).map fun c => tab n fun a =>
    FV.fma FV.one (at2 x c a) (FV.mul FV.one (accFloat n fun k => (at2 m a k, at2 x c k)))
  ((orthonormal n 8 y).map fun v => tab n fun i => (el v i).bf16).toArray

/-- Step 4, `k` times. -/
def iterations (n : Nat) (m : Mat) : Nat → Mat → Mat
  | 0, x => x
  | k + 1, x => iterations n m k (iterate n m x)

/-- X holds a NaN or an infinity. -/
def broken (x : Mat) : Bool := x.any fun r => r.any fun v => match v with | .fin .. => false | _ => true

/-- Step 5: each group is halved along a column, the experts in ascending order of it. -/
def halve (x : Mat) (l : Nat) (groups : List (List Nat)) : List (List Nat) :=
  groups.flatMap fun g =>
    let s := sortBy (fun a b => !FV.lt (at2 x l b) (at2 x l a)) g
    [s.take (g.length / 2), s.drop (g.length / 2)]

/-- Step 5: the groups after the levels from `l` on. -/
def split (x : Mat) : Nat → Nat → List (List Nat) → List (List Nat)
  | 0, _, g => g
  | k + 1, l, g => split x k (l + 1) (halve x l (g.map fun e => sortBy (fun a b => decide (a ≤ b)) e))

/-- The bin of each expert. -/
def binsOf (n : Nat) (g : List (List Nat)) : List Nat :=
  (List.range n).map fun a => (g.findIdx? fun e => e.contains a).getD 0

/-- Step 6: the cut of a placement. -/
def cut (n : Nat) (w : Mat) (bin : Array Nat) : FV :=
  (List.range n).foldl (fun s a => (List.range n).foldl (fun s b =>
    if a < b && bin.getD a 0 != bin.getD b 0 then FV.add s (at2 w a b) else s) s) FV.zero

/-- The least integer that a value does not exceed, where one bounds it. -/
def ceilOf (v : FV) : Option Nat :=
  match v with
  | .nan => none
  | .inf _ => none
  | .fin s m e => if s then some 0 else
    let g := FV.onGrid m e 0
    some (if g.2.1 = 0 then g.1 else g.1 + 1)

/-- Step 7: how many replicas each expert of the list receives, at most `left` in all. -/
def shares (per left : Nat) (limit : FV) : List (Nat × FV) → List (Nat × Nat)
  | [] => []
  | (a, l) :: r =>
    let want := match ceilOf (FV.div l limit) with | some k => min per (k - 1) | none => per
    let n := min want left
    (a, n) :: shares per (left - n) limit r

/-- Step 7: one replica goes to the bin of least load that does not hold its expert. -/
def putReplica (bins : Nat) (a : Nat) (load : FV) (s : Row × List (Nat × Nat)) (home : Nat) : Row × List (Nat × Nat) :=
  let free := (List.range bins).filter fun b => b ≠ home && !(s.2.contains (a, b))
  match free with
  | [] => s
  | b :: r =>
    let best := r.foldl (fun x y => if FV.lt (el s.1 y) (el s.1 x) then y else x) b
    (s.1.setIfInBounds best (FV.add (el s.1 best) load), s.2 ++ [(a, best)])

/-- Step 7: the replica list. -/
def replicas (n bins factor per most : Nat) (diag : Row) (bin : Array Nat) : List (Nat × Nat) :=
  let mean := FV.divNat (FV.total diag.toList) n
  let limit := FV.mul (FV.fin false factor (-4)) mean
  let heavy := (List.range n).filter fun a => FV.lt limit (el diag a)
  let order := sortBy (fun a b => !FV.lt (el diag a) (el diag b)) heavy
  let sh := shares per most limit (order.map fun a => (a, el diag a))
  let count := fun a => match sh.find? fun e => e.1 = a with | some e => e.2 | none => 0
  let unit := fun a => FV.divNat (el diag a) (count a + 1)
  let loads := tab bins fun b => FV.total (((List.range n).filter fun a => bin.getD a 0 = b).map unit)
  (sh.foldl (fun (s : Row × List (Nat × Nat)) e =>
    (List.range e.2).foldl (fun s _ => putReplica bins e.1 (unit e.1) s (bin.getD e.1 0)) s) (loads, [])).2

/-- floor(log2) of the number of bins. -/
def levels (bins : Nat) : Nat := bins.log2

end Analyse

/-- What an analysis finds (R249). -/
structure Found where
  bins : List Nat
  repl : List (Nat × Nat)
  cutOld : FV
  cutNew : FV
  deriving DecidableEq, Repr

/-- Steps 1 to 7; N goes to SCRATCH on the way. None where X holds a NaN or an infinity after step 4. -/
def Analyse.run (pol : Policy) (co : Nat → Nat → Int) (current : Nat → Nat) : Analyse.Mat × Option Found :=
  let n := pol.experts
  let w := weights n co
  let d := degrees n w
  let m := normal n w d
  let x := iterations n m pol.iter (startX n pol.seed d)
  if broken x then (m, none)
  else
    let bins := binsOf n (split x (levels pol.bins) 1 [List.range n])
    let diag := tab n fun a => FV.f32 (FV.ofInt (co a a))
    (m, some { bins := bins, repl := replicas n pol.bins pol.replFactor pol.replPer pol.replMax diag bins.toArray,
               cutOld := cut n w (tab n current), cutNew := cut n w bins.toArray })

/-- The reduction of the cut in 256ths is at least MIN_GAIN (R250); a cut of 0 is no gain. -/
def Found.gains (f : Found) (least : Nat) : Bool :=
  !f.cutOld.isZero &&
    !FV.lt (FV.div (FV.mul (FV.ofInt 256) (FV.sub f.cutOld f.cutNew)) f.cutOld) (FV.ofInt least)

namespace Chip

/-- A tile of a region passes the check at use in what its use fixes: CRC, CTX and FORMAT, and SHAPE and INDEX of a matrix. -/
def regionCheck (c : Chip) (p x : Nat) (t : Tensor) : Bool :=
  (List.range t.count).all fun i =>
    let k := c.tile p (t.first + i)
    let raw := t.format == 0x20
    (c.checkTile p (t.first + i) x t.format (if raw then k.shape else t.shapeAt i) (if raw then k.index else i) k.gen).isNone

/-- CURRENT as raw-byte tiles: 2,048 bytes each. -/
def rawRun (c : Chip) (p x off n : Nat) : Tensor :=
  { c.regionTensor p x off 0x20 (16 * ceilDiv n 2048) 32 with first := (c.regionTensor p x off 0x20 1 1).first }

/-- SCRATCH after an analysis: N in BF16 tiles, and tiles whose contents the spec does not give. -/
def writeScratch (c : Chip) (p x : Nat) (pol : Policy) (m : Analyse.Mat) : Chip :=
  let n := pol.experts
  let t := c.regionTensor p x pol.scratch 5 n n
  let bitsOf := fun (i j : Nat) => (FV.encode {} 5 0 (Analyse.at2 m i j)).bits
  let c := (List.range t.count).foldl (fun c i =>
    let k := t.first + i
    let t' := { t with gen := trunc 32 ((c.tile p k).gen + 1) }
    c.setTile p k (tensorTile x t' i (tensorPayload t' i bitsOf))) c
  let all := ceilDiv (2 * n * n + 64 * n) 2048
  (List.range (all - t.count)).foldl (fun c i =>
    let k := t.first + t.count + i
    let base := c.freeCtr
    let data := payloadOf ((List.range 2048).map fun b => trunc 8 (Config.freeValue (base + b)))
    { (c.setTile p k (({ ctx := x, format := 0x20, shape := 2047, gen := trunc 32 ((c.tile p k).gen + 1), data := data } : Tile)).sealed)
      with freeCtr := base + 2048 }) c

/-- An analysis ends: nothing is under analysis any more. -/
def endAnalysis (c : Chip) (p job : Nat) : Chip :=
  (c.modAdvice p job fun a => { a with running := none }).setReg .LEARN_ANALYSING p 0
    (((c.part p).jobs.findSome? fun j => if j.job ≠ job && j.advice.running.isSome then some j.job else none).getD 0xFFFF)

/-- An analysis is abandoned (R253). -/
def failAnalysis (c : Chip) (p job status : Nat) : Chip :=
  ((c.endAnalysis p job).jcount p job .LEARN_ANALYSES_FAILED 1).henJob p job 0x3502 [status]

/-- A reset of the cluster ends the commands of the analyses that run on it with a status: each is abandoned (R235, R253). -/
def abandonAnalyses (c : Chip) (p status : Nat) : Chip :=
  ((c.part p).jobs.filter fun j => j.advice.running.isSome).foldl (fun c j => c.failAnalysis p j.job status) c

/-- The advice record of R250; STATE last. -/
def writeAdvice (c : Chip) (p : Nat) (j : Job) (pol : Policy) (a : Analysis) (f : Found) : Chip :=
  let x := j.ctx
  let b32 := fun (v : FV) => (FV.encode {} 6 0 v).bits
  let old := c.regionByte p x (pol.advice + 4)
  let c := if j.advice.state = 1 ∧ old ≠ 2 then
      (c.regionWrite p x (pol.advice + 4) [4]).jcount p j.job .LEARN_ADVICE_WITHDRAWN 1
    else c
  let seq := trunc 32 (j.advice.seq + 1)
  let state := if pol.apply = 1 then 2 else 1
  let eff := if pol.apply = 1 then trunc 32 (j.lastStep.getD 0 + pol.applyLead) else 0
  let n := pol.experts
  let head := bytesOf 4 seq
  let mid := [pol.bins % 256] ++ bytesOf 2 n ++ bytesOf 2 j.job ++ bytesOf 2 f.repl.length ++ bytesOf 4 a.step ++ bytesOf 4 eff
    ++ bytesOf 4 0 ++ bytesOf 4 (b32 f.cutOld) ++ bytesOf 4 (b32 f.cutNew) ++ bytesOf 8 a.startAt ++ bytesOf 8 c.now
    ++ [pol.apply] ++ List.replicate 15 0 ++ f.bins
  let reps := f.repl.flatMap fun r => bytesOf 2 r.1 ++ [r.2 % 256, 0]
  let c := (((c.regionWrite p x pol.advice head).regionWrite p x (pol.advice + 5) mid).regionWrite p x
    (pol.advice + 4 * ceilDiv (0x40 + n) 4) reps).regionWrite p x (pol.advice + 4) [state]
  let c := c.modAdvice p j.job fun v => { v with seq := seq, state := state, bins := f.bins, repl := f.repl, effective := eff }
  ((c.jcount p j.job .LEARN_ADVICE_ISSUED 1).henJob p j.job 0x3503 [j.job, seq, b32 f.cutOld, b32 f.cutNew]).raiseCtx x p 2

/-- A result that the spec leaves unpredictable: COACT was written while the analysis read it (R252). -/
def freeFound (c : Chip) (pol : Policy) (co : Nat → Nat → Int) : Chip × Found :=
  let v := fun i => Config.freeValue (c.freeCtr + i)
  let bins := (List.range pol.experts).map fun i => v i % max 1 pol.bins
  let diag := Analyse.tab pol.experts fun a => FV.f32 (FV.ofInt (co a a))
  ({ c with freeCtr := c.freeCtr + pol.experts + 2 },
   { bins := bins, repl := Analyse.replicas pol.experts pol.bins pol.replFactor pol.replPer pol.replMax diag bins.toArray,
     cutOld := FV.decode 6 (trunc 32 (v pol.experts)), cutNew := FV.decode 6 (trunc 32 (v (pol.experts + 1))) })

/-- An analysis has ended (R249 to R253). From the 30 mV stage on its commands are held, and it ends when they resume (R235). -/
def analysisDone (c : Chip) (p job : Nat) : Chip :=
  match c.jobOf p job with
  | none => c
  | some j =>
    match j.advice.running with
    | none => c
    | some a =>
      let pol := c.policyOf p job
      let x := j.ctx
      let t := c.regionTensor p x pol.coact 7 pol.experts pol.experts
      if c.reg .PARTITION_MIOBOR_VACANT p = 1 then c.failAnalysis p job 0x09
      else if 1 ≤ c.stageOf p then c
      else if !c.regionCheck p x t || !c.regionCheck p x (c.rawRun p x pol.current pol.experts) then c.failAnalysis p job 0x02
      else
        let co := fun i k => ofField 32 (c.elem p t i k)
        let r := Analyse.run pol co fun i => c.regionByte p x (pol.current + i)
        let c' := c.writeScratch p x pol r.1
        match r.2 with
        | none => c'.failAnalysis p job 0x00
        | some f =>
          let changed : Bool := c.tilesOf p t != a.coact
          let g := if changed then c'.freeFound pol co else (c', f)
          let c := (g.1.endAnalysis p job).jcount p job .LEARN_ANALYSES 1
          if g.2.gains pol.minGain || g.2.repl != j.advice.repl then c.writeAdvice p j pol a g.2 else c

/-- ANALYSE_REQ of a host port (R249, R257). -/
def analyseReq (c : Chip) (hp p job : Nat) : Chip :=
  if !c.mayWrite hp .LEARN p then c
  else c.startAnalysis p job (match c.jobOf p job with | some j => j.lastStep.getD 0 | none => 0) true

end Chip

end Sys2Proof.Machine
end

