-- ==== Sys2Proof/Machine/Mule.lean ====
section
/-! DEFINITION. The Mules (R373 to R375, R380, R381): tile commands with their checks, seals and host transfers, and the repair of tiles
after a failed check (R377). -/

namespace Sys2Proof.Machine

open Sys2Proof

/-- The operands of a Mule descriptor (R373). -/
structure MuOps where
  op : Nat
  src : Nat
  dst : Nat
  count : Nat
  gen : Nat
  format : Nat
  shape : Nat
  index : Nat
  expect : Nat
  pattern : Nat
  anyGen : Bool
  withHdr : Bool
  keepGen : Bool
  deriving DecidableEq, Repr

/-- The operands of a descriptor; tile numbers are the low 32 bits of SRC and DST. -/
def MuOps.ofDesc (d : Desc) : MuOps :=
  let tile := fun (v : Nat) => trunc 32 v
  let f := d.at 0x29 1
  { op := d.opcode, src := if d.opcode = 0x21 then d.at 0x10 8 else tile (d.at 0x10 8)
    dst := if d.opcode = 0x22 then d.at 0x18 8 else tile (d.at 0x18 8)
    count := d.at 0x20 4, gen := d.at 0x24 4, format := d.at 0x28 1, shape := d.at 0x2A 2, index := d.at 0x2C 4, expect := d.at 0x30 4
    pattern := d.at 0x34 4, anyGen := bit f 0, withHdr := bit f 1, keepGen := bit f 2 }

/-- The command reads tiles at SRC: COPY, TILE_TO_HOST, VERIFY. -/
def MuOps.readsTiles (o : MuOps) : Bool := o.op == 0x20 || o.op == 0x22 || o.op == 0x25
/-- The command writes tiles at DST: COPY, HOST_TO_TILE, SEAL, FILL. -/
def MuOps.writesTiles (o : MuOps) : Bool := o.op == 0x20 || o.op == 0x21 || o.op == 0x23 || o.op == 0x24
/-- The runs of source and destination overlap (R381). -/
def MuOps.overlaps (o : MuOps) : Bool := o.op == 0x20 && decide (o.src < o.dst + o.count) && decide (o.dst < o.src + o.count)
/-- Host bytes of one tile. -/
def MuOps.hostSize (o : MuOps) : Nat := if o.op = 0x21 then 2048 else if o.op = 0x22 then (if o.withHdr then 2064 else 2048) else 0

/-- The formats of tiles that firmware alone writes (R373). -/
def deviceFormat (f : Nat) : Bool := f == 0x21 || f == 0x22 || f == 0x30 || f == 0x31 || f == 0x32

/-- The sixteen bytes of a header (R214). -/
def Tile.header (t : Tile) : List Nat := bytesOf 4 t.crc ++ t.head

namespace Chip

/-! One tile -/

/-- The check at use of source tile `j` of a Mule command (R373): every field of R216 for VERIFY; a free tile fails every check. -/
def muleSource (c : Chip) (p x : Nat) (o : MuOps) (j : Nat) : Option TileFail :=
  let n := o.src + j
  let t := c.tile p n
  let v := o.op == 0x25
  c.checkTile p n x (if v then o.format else t.format) (if v then o.shape else t.shape) (if v then trunc 32 (o.index + j) else t.index)
    (if o.anyGen then t.gen else o.expect)

/-- Why a Mule refuses to write a tile: it does not exist or is vacant, another context owns it, or its format is a device format. -/
def muleDest (c : Chip) (p x n : Nat) : Option TileFail :=
  let t := c.tile p n
  if !tileValid n || c.tileVacant p n then some { tile := n, field := 1 }
  else if t.ctx ≠ x then some { tile := n, field := 2 }
  else if deviceFormat t.format then some { tile := n, field := 3 }
  else none

/-- A payload that nothing fixes. -/
def freePayload (c : Chip) : SMap Nat := payloadOf ((List.range 2048).map fun i => trunc 8 (Config.freeValue (c.freeCtr + i)))

/-- The tile that a command writes at place `j`; `c0` is the block as the command found it. -/
def muleTile (c0 c : Chip) (p x port : Nat) (o : MuOps) (j : Nat) : Tile :=
  let s := c0.tile p (o.src + j)
  let copy := o.op == 0x20
  let data := match o.op with
    | 0x20 => if o.overlaps then c.freePayload else s.data
    | 0x21 => payloadOf (c0.hostBytes port (o.src + 2048 * j) 2048)
    | 0x23 => (c.tile p (o.dst + j)).data
    | _ => payloadOf ((List.replicate 512 (bytesOf 4 o.pattern)).flatten)
  ({ gen := if copy && o.keepGen then s.gen else o.gen, ctx := x, format := if copy then s.format else o.format
     shape := if copy then s.shape else o.shape, index := trunc 32 (o.index + j), data := data } : Tile).sealed

/-- A Mule command's work on tile `j`, or why it stops there. -/
def muleStep (c0 c : Chip) (p x port : Nat) (o : MuOps) (j : Nat) : Chip ⊕ TileFail :=
  match (if o.readsTiles then c0.muleSource p x o j else none) with
  | some f => .inr f
  | none =>
    match (if o.writesTiles then c.muleDest p x (o.dst + j) else none) with
    | some f => .inr f
    | none =>
      let c := if o.writesTiles then
          let c := c.setTile p (o.dst + j) (c0.muleTile c p x port o j)
          if o.overlaps then { c with freeCtr := c.freeCtr + 2048 } else c
        else c
      if o.op = 0x22 then
        let t := c0.tile p (o.src + j)
        let body := (if o.withHdr then t.header else []) ++ (List.range 2048).map t.byte
        .inl (c.writeHost port (o.dst + o.hostSize * j) body)
      else .inl c

/-! A command -/

/-- Tiles from `j` on in ascending order, `n` at most: how many were completed, and the failure that ended the work (R373). -/
def muleRun (c0 : Chip) (p x port : Nat) (o : MuOps) : Nat → Nat → Chip → Chip × Nat × Option TileFail
  | 0, j, c => (c, j, none)
  | n + 1, j, c =>
    match c0.muleStep c p x port o j with
    | .inl c => muleRun c0 p x port o n (j + 1) c
    | .inr f => (c, j, some f)

/-- Counts what a command moved (R380, R402). -/
def muleMoved (c : Chip) (p : Nat) (d : Desc) (o : MuOps) (done : Nat) : Chip :=
  let tiles := if o.writesTiles then done else 0
  let bytes := o.hostSize * done
  let c := (c.countFor d.ctx .MULE_TILES_MOVED p tiles).pevent p 0x31 d.ctx d.job d.layer d.operator tiles
  let c := c.countFor d.ctx (if o.op = 0x21 then .MULE_HOST_BYTES_READ else .MULE_HOST_BYTES_WRITTEN) p bytes
  c.pevent p 0x32 d.ctx d.job d.layer d.operator bytes

/-- A Mule command ends. -/
def muleEnd (c : Chip) (i : QId) (p : Nat) (d : Desc) (status detail : Nat) : Chip :=
  let c := (c.countFor d.ctx .MULE_COMMANDS p 1).pevent p 0x30 d.ctx d.job d.layer d.operator 1
  (if status = 0 then c else c.countFor d.ctx .MULE_CMD_FAILED p 1).completeDesc i d status detail

/-- A check of a Mule command fails, at its source or its destination. -/
def muleFailed (c : Chip) (i : QId) (p : Nat) (d : Desc) (f : TileFail) (done : Nat) : Chip :=
  let c := (c.countFor d.ctx .MULE_CHECK_FAILS p 1).pevent p 0x10 d.ctx d.job d.layer d.operator 1
  (c.henCtx d.ctx p 0x1601 [f.tile, f.field, d.tag]).muleEnd i p d 0x02 done

/-- The run of `n` tiles from `first` starts in the context's share and goes past its end. -/
def pastShare (c : Chip) (p x first n : Nat) : Bool :=
  match SMap.find? (c.ctx x).shares p with
  | none => false
  | some s =>
    (s.sramFirst ≤ first && first < s.sramFirst + s.sramTiles && s.sramFirst + s.sramTiles < first + n)
      || (s.lpFirst ≤ first && first < s.lpFirst + s.lpTiles && s.lpFirst + s.lpTiles < first + n)

/-- A COUNT past the end of the share: which tiles are written and the status are open (R381); no tile outside the share is. -/
def muleOpen (c : Chip) (i : QId) (p port : Nat) (d : Desc) (o : MuOps) : Chip :=
  let c0 := c
  let k := match SMap.find? (c.ctx d.ctx).shares p with | some s => max s.sramTiles s.lpTiles | none => 0
  let r := (List.range (min o.count k)).foldl (fun (a : Chip × Nat) j =>
    let take := a.1.freeVal 1 == 1
    let c := a.1.drawn
    if take then (match c0.muleStep c p d.ctx port o j with | .inl c => (c, a.2 + 1) | .inr _ => (c, a.2)) else (c, a.2)) (c, 0)
  let c := r.1.muleMoved p d o r.2
  let status := c.freeStatus
  let c := c.drawn
  (c.drawn).muleEnd i p d status (c.freeVal 32)

/-- A Mule executes a command, whole. -/
def muleExec (c : Chip) (i : QId) (p : Nat) (d : Desc) : Chip :=
  let x := d.ctx
  let o := MuOps.ofDesc d
  let port := (c.ctx x).port
  let hostDown := !c.portReads port
  if o.count = 0 || 65536 < o.count then (c.drawn.drawn).muleEnd i p d (c.freeStatus) (c.drawn.freeVal 32)
  else if o.op = 0x21 && hostDown then (c.henAny p 0x1602 x).muleEnd i p d 0x01 0
  else if o.op = 0x22 && hostDown then (c.drawn.drawn).muleEnd i p d (c.freeVal 1) (c.drawn.freeVal 32)
  else if (o.readsTiles && c.pastShare p x o.src o.count) || (o.writesTiles && c.pastShare p x o.dst o.count) then c.muleOpen i p port d o
  else
    let r := c.muleRun p x port o o.count 0 c
    let c := r.1.muleMoved p d o r.2.1
    match r.2.2 with
    | some f => c.muleFailed i p d f r.2.1
    | none => c.muleEnd i p d 0x00 r.2.1

/-- A Mule command is executed: not while the partition is in reset, the supply holds queues, or a BARRIER holds it. During STOP and
QUIESCE, commands that were fetched before still run (R329, R375). -/
def mule (c : Chip) (i : QId) (d : Desc) : Chip :=
  let d : Desc := { d with ctx := i.ctx }
  match i.part with
  | none => c
  | some p =>
    if !i.toMule then c
    else
      match c.cmdOf i d.tag with
      | some y =>
        if c.leaving d.ctx p then
          if c.queueHeld i || c.kept y || 3 ≤ (c.ctx d.ctx).stage then c else (c.start i d).muleExec i p d
        else c.runTimed i d fun c => c.muleExec i p d
      | none => c.runTimed i d fun c => c.muleExec i p d

/-- The limit of a Mule command is reached (R375): some tiles from the first are done, the rest untouched. -/
def muleTimeout (c : Chip) (i : QId) (tag : Nat) : Chip :=
  match i.part, c.cmdOf i tag with
  | some p, some y =>
    if !i.toMule || c.kept y || c.now < y.started.getD y.fetched + c.limitOf y then c
    else
      let d : Desc := { y.d with ctx := i.ctx }
      let o := MuOps.ofDesc d
      let m := c.freeVal 32 % (min o.count 65536 + 1)
      let c := c.drawn
      let r := c.muleRun p d.ctx (c.ctx d.ctx).port o m 0 c
      (r.1.muleMoved p d o r.2.1).muleEnd i p d 0x01 r.2.1
  | _, _ => c

/-! Repair (R377) -/

/-- A repair succeeds. -/
def repaired (c : Chip) (p n cls x attempts : Nat) : Chip :=
  (c.countFor x .MEMORY_TILE_RELOADS p 1).henCtx x p 0x3901 [n, cls, if x < 64 then x else 0xFF, attempts]

/-- The section of which a tile is part, at run time or as source copy, and the tile's place in it. -/
def sectionAt (c : Chip) (p n : Nat) (copy : Bool) : Option (Section × Nat) :=
  (c.part p).sections.findSome? fun s =>
    let first := if copy then s.copy else s.sram
    let k := if copy then s.body.copyTiles s.len else s.body.sramTiles
    if first ≤ n && n < first + k then some (s, n - first) else none

/-- The source copy of a run-time tile of a section; none for scratch tiles and the DATA region, which have none (R264). -/
def copyOf (s : Section) (j : Nat) : Option Nat :=
  match s.body with
  | .model _ t k w _ _ => if j < w then some (s.copy + ceilDiv (modelStart t.length k.length) 2048 + j) else none
  | .code .. => if j < ceilDiv s.len 2048 then some (s.copy + j) else none
  | _ => none

/-- The context and number of a tensor table that firmware or a host placed over a tile. -/
def tableAt (c : Chip) (p n : Nat) : Option Nat :=
  (List.range 64).find? fun x => c.reg .MIOBOR_TTAB_VALID p x == 1 && decide (c.reg .MIOBOR_TTAB_FIRST_TILE p x ≤ n)
    && decide (n < c.reg .MIOBOR_TTAB_FIRST_TILE p x + c.reg .MIOBOR_TTAB_TILES p x)

/-- The job whose demand history or forecast tensors hold a tile. -/
def historyAt (c : Chip) (p n : Nat) : Option Job :=
  (c.part p).jobs.find? fun j =>
    let pol := c.policyOf p j.job
    [pol.hist, pol.histSteps, pol.fc, pol.fcConf].any fun h => h ≠ 0xFFFF && (match c.tensor p j.ctx h with
      | .inl t => t.first ≤ n && n < t.first + t.count
      | .inr _ => false)

/-- Firmware's action for a tile that failed a check, by the tile's owner. -/
def tileRepair (c : Chip) (p n : Nat) : Chip :=
  match c.tableAt p n with
  | some x =>
    let j := n - c.reg .MIOBOR_TTAB_FIRST_TILE p x
    if c.reg .MIOBOR_TTAB_FIRST_TILE p x = ttabBase x && !c.tileVacant p n then (c.setTile p n (c.ttabTile p x j)).repaired p n 3 x 1
    else ((c.countFor x .MEMORY_TILE_UNREPAIRED p 1).setReg .MIOBOR_TTAB_VALID p x 0).henAny p 0x3902 x
  | none =>
    match c.sectionAt p n true with
    | some (s, _) => c.dropSection p s
    | none =>
      match c.historyAt p n with
      | some j => (c.emptyHistory p j.job).repaired p n 5 j.ctx 1
      | none =>
        match (c.sectionAt p n false).bind fun e => (copyOf e.1 e.2).map fun m => (e.1, m) with
        | some (s, m) =>
          let src := c.tile p m
          let good := (c.checkTile p m s.ctx src.format src.shape src.index s.gen).isNone && (c.muleDest p s.ctx n).isNone
          if good then (c.setTile p n src.sealed).repaired p n 1 s.ctx 1
          else (c.countFor s.ctx .MEMORY_TILE_UNREPAIRED p 1).dropSection p s
        | none =>
          if c.sramTop p ≤ n && n < 65536 && (c.tile p n).ctx = 0xFF then c.repaired p n 4 64 1 else c

end Chip

end Sys2Proof.Machine
end

