-- ==== Sys2Proof/Machine/Supply.lean ====
section
/-! DEFINITION. What a die's supply stage sheds in one of its partitions, and what resumes when stages clear (R186, R235, R389, R398, R442,
R454 to R456). -/

namespace Sys2Proof.Machine

open Sys2Proof

namespace Chip

/-- The partitions of a C-die (R21). -/
def dieParts (d : Nat) : List Nat := (List.range 4).map fun i => 4 * d + i
/-- CORE_CLK of a die in MHz. -/
def dieMhz (c : Chip) (d : Nat) : Nat := c.reg .LOOPS_APPLIED_MHZ 0 d
/-- Changes a die's supply. -/
def modDie (c : Chip) (d : Nat) (f : DiePower → DiePower) : Chip := { c with dies := SMap.set {} c.dies d (f (SMap.get {} c.dies d)) }
/-- A die's supply. -/
def die (c : Chip) (d : Nat) : DiePower := SMap.get {} c.dies d

/-- Fetching goes on at every queue of a partition. -/
def fetchAll (c : Chip) (p : Nat) : Chip :=
  ([QId.route p, .sched p] ++ (c.residents p).flatMap fun x => [QId.compute x p, .mule x p]).foldl (fun c i => c.fetch i i.ahead) c

/-- Zones that wait for an outcome after an interruption ask their agents again (R136). -/
def resumeResolve (c : Chip) (p : Nat) : Chip :=
  if (c.part p).restarting then
    ((c.part p).resolve.foldl (fun c z =>
      if (c.part z).queried || ((c.part z).topo.units.isEmpty && (c.part z).topo.tc.isNone) then c else c.askZone z) c).decide_ p
  else c

/-- Supply stage 3 is entered during GENERATE (R123): each stopped engine writes the chunk that it is computing, and the chunks not yet written are dealt
again to the working engines of groups 1 to 3. -/
def relend (c : Chip) (p : Nat) : Chip :=
  match (c.part p).txn with
  | none => c
  | some x =>
    if x.stage ≠ 1 then c
    else
      let done := (c.now - x.genAt) * c.dieMhz (p / 4) / (1000 * 8192)
      let left := (List.range 4096).filter fun i => done < i / max 1 x.engines.length
      let gs := c.chooseLent p (min x.lent.length 3)
      let es := c.routeEngines p gs
      (c.modTxn p fun x => { x with lent := gs, redealt := some (left, es) }).redealLent p

/-- The windows in progress are marked as placed with half the engines (R201). -/
def markHalf (c : Chip) (p : Nat) : Chip :=
  c.modPart p fun s => { s with jobs := s.jobs.map fun j => { j with wins := mapIf (fun x => !x.closed) (fun x => { x with halfEngines := true }) j.wins } }

/-- A partition begins to shed what stages above `old` and up to `new` shed. -/
def shed (c : Chip) (p old new : Nat) : Chip :=
  let hit := fun (s : Nat) => decide (old < s) && decide (s ≤ new)
  let c := if hit 1 then (c.stopRegion p 0x01 (some 1)).henAny p 0x1402 ((c.part p).mioCtx.getD 64) else c
  let c := if hit 2 then (c.suspend p 2).stopRegion p 0x30 (some 2) else c
  let c := if hit 3 then ((c.stopRegion p 0x02 (some 3)).redeal p (fun e => decide (128 ≤ e)) 0).relend p |>.markHalf p else c
  if hit 5 then
    let c := if (c.part p).txn.isSome || (c.part p).restarting then c.interrupt p else c
    let c := (c.zoneAgents p).foldl (fun c u => c.pnotice p u.fid 0x47 []) c
    c.stopRegion p 0x40 (some 5)
  else c

/-- Held work of a partition resumes where it stopped, as stages above `new` and up to `old` clear. -/
def unshed (c : Chip) (p old new : Nat) : Chip :=
  let off := fun (s : Nat) => decide (new < s) && decide (s ≤ old)
  let c := if off 5 then ((c.restartRegion p 0x40).resumeResolve p).fetchAll p else c
  let c := if off 3 then (c.restartRegion p 0x02).publishEngines p else c
  let c := if off 2 then (c.unsuspend p 2).restartRegion p 0x30 else c
  if off 1 then
    let x := (c.part p).mioCtx.getD 64
    let c := (c.countFor x .MIOBOR_HELD_CYCLES p (c.stoppedFor p 0x01 * c.dieMhz (p / 4) / 1000)).henAny p 0x1402 x
    if c.reg .MIOBOR_STATE p = 3 then c else c.restartRegion p 0x01
  else c

/-- A partition goes from one stage of its die to another; one in reset is held already (R444). -/
def stageChanged (c : Chip) (p old new : Nat) : Chip :=
  if c.bypassed p then c else if old < new then c.shed p old new else c.unshed p old new

end Chip

end Sys2Proof.Machine
end

