-- ==== Sys2Proof/Machine/PartReset.lean ====
section
/-! DEFINITION. Partition resets (R300, R301, R417 to R424): dossiers, what a reset saves and loses, what a partition restores before it
reports ready, and leaving service. -/

namespace Sys2Proof.Machine

open Sys2Proof

/-- The ring registers that a reset saves (R418). -/
def savedRings : List Reg :=
  [QId.route 0, .sched 0, .compute 0 0, .mule 0 0].flatMap fun i =>
    [QField.base, .log2, .head, .tail, .cqBase, .cqLog2, .cqTail, .cqHead].map i.reg

/-- Fields of a partition's pages that a partition reset leaves as they are: applied RWB and RWP values, the rings, the defect map and the
reset's own fields, what the topology of memory fixes, and what describes traces, fences and agents' epochs that outlive it (R418, R419). -/
def keptByReset (r : Reg) : Bool :=
  match r.desc.acc with
  | .rwb | .rwp => true
  | .ro => r.desc.page == .PARTITION || r.desc.page == .ENGINES || r.desc.page == .MEMORY || r.desc.page == .TRACE
      || r == .ROUTE_ZONE_EPOCH || r == .ROUTE_STATIC_EPOCH || r == .FAIL_FENCES_HELD || savedRings.contains r
  | _ => savedRings.contains r

/-- A job as a reset of its partition leaves it: no window is open, nothing is learned from windows, an analysis is abandoned (R241, R253, R300). -/
def Job.afterReset (j : Job) : Job :=
  { j with wins := [], lastStep := none, seqAcks := [], seqAt := none, filled := 0, empty_ := true, inv := []
           advice := { j.advice with running := none } }

/-- What of a partition outlives its reset: LPDDR6 with the mirrors, the message log and the section copies, the database of the zone, the
jobs, the fences with their sequences, the captured trace, the defect map. -/
def Part.afterReset (s : Part) (now cause : Nat) : Part :=
  { nextTag := s.nextTag, msgLog := s.msgLog
    topo := { s.topo with run := none, tc := none, exchanges := [] }
    waitTxn := s.waitTxn.filterMap fun r => if r.slice.isSome then some { r with cmd := none } else none
    restarting := s.restarting, resolve := s.resolve
    hopHeld := s.hopHeld, lastResume := s.lastResume, agentEpoch := s.agentEpoch
    mirrors := s.mirrors, shadowMirrors := s.shadowMirrors, staticMirrors := s.staticMirrors, shadowOf := s.shadowOf, shadowMap := s.shadowMap
    epochLinks := s.epochLinks, epochDown := s.epochDown, epochSlices := s.epochSlices
    trace := s.trace
    tiles := s.tiles.filter fun e => 0x100000 ≤ e.1
    sections := s.sections, jobs := s.jobs.map Job.afterReset, ttab := s.ttab
    unlisted := s.unlisted, engMap := s.engMap
    fences := s.fences, fenceSeq := s.fenceSeq, gone := s.gone, toRetire := s.toRetire, lhDisabled := s.lhDisabled
    lhAt := now, stops := [(0x40, now, some cause)] }

namespace Chip

/-! Dossiers (R421, R422) -/

/-- `n` bytes that nothing fixes. -/
def freeBytes (c : Chip) (n : Nat) : List Nat := (List.range n).map fun i => trunc 8 (Config.freeValue (c.freeCtr + i))

/-- A dossier is captured: the header of R422, whose capture times lie within the bound, and sections whose entries' layout the spec does not
give. -/
def dossier (c : Chip) (code part cause bound : Nat) (hidden : Bool) : Chip :=
  let truncated := bit (c.freeVal 1) 0
  let c := c.drawn
  let sections := c.freeVal 16
  let c := c.drawn
  let start := c.now - c.freeVal 64 % (bound + 1)
  let c := c.drawn
  let n := c.freeVal 32 % (262144 - 32 + 1)
  let c := c.drawn
  let b := bytesOf 2 cause ++ [part, ofBool truncated + 2 * ofBool hidden] ++ bytesOf 2 sections ++ [0, 0] ++ bytesOf 8 start ++ bytesOf 8 c.now
    ++ List.replicate 8 0 ++ c.freeBytes n
  let c := ({ c with freeCtr := c.freeCtr + n }).henVar (if part < 16 then part else 19) code part hidden b
  let c := c.count .HEN_DOSSIERS
  if truncated then c.count .HEN_DOSSIERS_TRUNCATED else c

/-! What a reset ends -/

/-- Sets the state of a partition on the RESET page. -/
def partState (c : Chip) (p st stage : Nat) : Chip := (c.setReg .RESET_PART_STATE 0 p st).setReg .RESET_STAGE 0 p stage

/-- Fault resets of a partition within ten minutes (R424). -/
def recentFaults (c : Chip) (p : Nat) : List Nat := (SMap.get [] c.faults p).filter fun t => c.now < t + 600000000000

/-- Transactions and slices no longer wait for commands of a partition's route queue. -/
def dropRouteCmds (c : Chip) (p : Nat) : Chip :=
  let req := fun (r : TxnReq) => match r.cmd with | some (.route q, _) => if q = p then { r with cmd := none } else r | _ => r
  let mine := fun (w : QId × Nat) => match w.1 with | .route q => q == p | _ => false
  { c with
    parts := c.parts.map fun e => (e.1, { e.2 with
      waitTxn := e.2.waitTxn.map req
      txn := e.2.txn.map fun x => { x with req := req x.req }
      domain := e.2.domain.map fun d => { d with req := req d.req } })
    cutTxns := c.cutTxns.map fun x => { x with req := req x.req }
    slices := c.slices.map fun s => { s with cmds := s.cmds.filter fun w => !mine w } }

/-- Every command that the partition's queues and streams have fetched ends with ABORT_RESET; the cluster's and the loads' as their rules
give, forecaster commands without a record (R235, R277, R418). -/
def absorb (c : Chip) (p : Nat) : Chip :=
  let c := (c.mioEndAll p 0x05 fun y => match y.q with | .fw .. => false | _ => true).henAny p 0x1404
  let c := (c.part p).loads.foldl (fun c l => c.finishLoad p l 0x05 0 0xFF) c
  let c := { c with cmds := c.cmds.filter fun y => match y.q with | .fw _ q _ => q ≠ p | _ => true }
  let c := (c.cmds.filter fun y => y.q.part = some p).foldl (fun c y => c.completeDesc y.q y.d 0x05 0) c
  c.dropRouteCmds p

/-- Transactions of the zone, and those that the partition leads, are interrupted. -/
def interruptAll (c : Chip) (p : Nat) : Chip :=
  let c := c.interrupt p
  match (c.part p).domain with
  | some d => (match d.req.zones.head? with | some z => c.interrupt z | none => c).modPart p fun s => { s with domain := none }
  | none => c

/-- The partition's registers at a reset. -/
def resetPages (c : Chip) (p : Nat) : Chip :=
  let pages := partitionPages p ++ (List.range 64).map fun x => (.CTXQ, 16 * x + p)
  { c with regs := pages.foldl (fun f e => (f.resetAll (gElems e.1) e.2 keptByReset).set .COMMON_VIEW_PENDING (e.2 + 2048) e.1.ctorIdx 0) c.regs }

/-- Reset is asserted on a partition (R418, R419): the dossier, the end of its work, bypass, and event 0x1901. An analysis that it
abandons counts in ANALYSES_FAILED (R253) after the counters have gone to zero (log 36). -/
def partDown (c : Chip) (p cause bound : Nat) : Chip :=
  let c := c.dossier 0x4001 p cause bound (c.locked p)
  let c := c.setReg .RING_BYPASS (p / 4) 0 (setBit (c.reg .RING_BYPASS (p / 4)) (p % 4) true)
  let c := c.setReg .DEVICE_IN_SERVICE 0 0 (setBit (c.reg .DEVICE_IN_SERVICE) p false)
  let c := (((c.absorb p).interruptAll p).traceReset p).resetPages p
  let failed := (c.part p).jobs.filter fun j => j.advice.running.isSome
  let c := c.modPart p fun s => s.afterReset c.now cause
  let c := failed.foldl (fun c j => c.jcount p j.job .LEARN_ANALYSES_FAILED 1) c
  let c := (c.setReg .PARTITION_LAST_CAUSE p 0 cause).setReg .PARTITION_LAST_RESET_AT p 0 c.now
  let n := (c.recentFaults p).length
  let c := (c.partState p 2 2).setReg .RESET_FAULTS_10MIN 0 p n
  let c := c.henPart p 0x1901 [cause, n]
  if c.reg .HEN_FLUSH_ON_PARTITION = 1 then c.flushStart 6 else c

/-! Restoring (R277, R377, R418, R419) -/

/-- A tile of SRAM that nothing restores: nothing is known of it. -/
def lostTile (c : Chip) (n : Nat) : Tile :=
  let v := fun (i w : Nat) => trunc w (Config.freeValue (c.freeCtr + 4096 * n + i))
  { crc := v 0 32, gen := v 1 32, ctx := v 2 8, format := v 3 8, shape := v 4 16, index := v 5 32
    data := payloadOf ((List.range 2048).map fun i => v (6 + i) 8) }

/-- A section comes back from its source copy, every tile of which is checked; a section that fails is removed. -/
def restoreSection (c : Chip) (p : Nat) (s : Section) : Chip :=
  let bad := (List.range (s.body.copyTiles s.len)).any fun i =>
    let t := c.tile p (s.copy + i)
    (c.checkTile p (s.copy + i) s.ctx t.format t.shape t.index s.gen).isSome
  if bad then c.dropSection p s
  else
    let scratch := fun (j : Nat) => match s.body with
      | .model _ ts _ w _ _ => if w ≤ j then some (modelTile s.ctx s.gen (ts.map tensorOfBytes) j []) else none
      | _ => none
    (List.range s.body.sramTiles).foldl (fun c j =>
      match copyOf s j, scratch j with
      | some m, _ => c.setTile p (s.sram + j) (c.tile p m)
      | none, some t => c.setTile p (s.sram + j) t
      | none, none => c) c

/-- SRAM is loaded again: the shares of resident contexts, their tensor tables and sections. Nothing of a context in teardown is restored. -/
def restoreTiles (c : Chip) (p : Nat) : Chip :=
  let c0 := c
  let c := (c.sramRuns p).foldl (fun c r => (List.range r.2).foldl (fun c i => c.setTile p (r.1 + i) (c0.lostTile (r.1 + i))) c) c
  let c := { c with freeCtr := c.freeCtr + 4096 * 65536 }
  let here := (c.residents p).filter fun x => !c.leaving x p
  let c := here.foldl (fun c x =>
    if c.reg .MIOBOR_TTAB_VALID p x = 1 ∧ c.reg .MIOBOR_TTAB_FIRST_TILE p x = ttabBase x then
      (List.range 64).foldl (fun c j => c.setTile p (ttabBase x + j) (c.ttabTile p x j)) c
    else c) c
  ((c.part p).sections.filter fun s => here.contains s.ctx).foldl (fun c s => c.restoreSection p s) c

/-- Histories are empty, and advice in STATE 2 whose record fails its checks is withdrawn (R241, R253). -/
def restoreJobs (c : Chip) (p : Nat) : Chip :=
  (c.part p).jobs.foldl (fun c j =>
    let pol := c.policyOf p j.job
    let good := pol.advice = 0 || c.regionCheck p j.ctx (c.rawRun p j.ctx pol.advice 2048)
    let c := c.emptyHistory p j.job
    if j.advice.state = 2 ∧ !good then
      (c.modAdvice p j.job fun a => { a with state := 4 }).jcount p j.job .LEARN_ADVICE_WITHDRAWN 1
    else c) c

/-! Ready (R301, R419) -/

/-- The defect map makes the partition degraded (R428). -/
def degraded (c : Chip) (p : Nat) : Bool := c.reg .PARTITION_DEGRADED p == 1

/-- Every rail has been in tolerance for 2 ms (R451). -/
def railsHold (c : Chip) : Bool :=
  (List.range 10).all c.rails.contains && (match c.railsAt with | some t => decide (t + 2000000 ≤ c.now) | none => true)

/-- A partition reports ready: the bypass ends, what R419 names is restored, and the resynchronisation of R301 begins. Not before the firmware and
BIST of a boot, or the BIST of a reinstatement, are done (R424, R469), nor while a thermal trip holds (R461) or a
rail is out of tolerance (R451). The agents are asked at once where the zone's database is held, else after
the discovery run. -/
def partReady (c : Chip) (p : Nat) : Chip :=
  if c.reg .RESET_PART_STATE 0 p ≠ 2 || (c.part p).bist || !(c.reg .BOOT_BOOT_STAGE == 0 || c.reg .BOOT_BOOT_STAGE == 5)
      || c.reg .THERMAL_TRIPPED == 1 || !c.railsHold then c
  else
    let t0 := c.reg .PARTITION_LAST_RESET_AT p
    let c := (c.restoreTiles p).restoreJobs p
    let c := c.setReg .RING_BYPASS (p / 4) 0 (setBit (c.reg .RING_BYPASS (p / 4)) (p % 4) false)
    let c := c.setReg .DEVICE_IN_SERVICE 0 0 (setBit (c.reg .DEVICE_IN_SERVICE) p true)
    let c := (c.partState p (ofBool (c.degraded p)) 0).setReg .PARTITION_LAST_RESET_TICKS p 0 (min (c.now - t0) (2 ^ 32 - 1))
    let c := (c.henPart p 0x1902 []).restartRegion p 0x40
    let c := (((c.publishEngines p).publishLearn p).publishMemory p).publishTime
    let c := (c.residents p).foldl (fun c x =>
      if c.leaving x p && 5 ≤ (c.ctx x).stage then c.scrub x p else c) c
    let c := if c.locked p then c.suspend p 1 else c
    let c := c.fillRing p
    let c := c.shed p 0 (c.stageOf p)
    let c := (c.modPart p fun s => { s with resync := true }).startRun p
    let c := if 5 ≤ c.stageOf p || (c.part p).topo.units.isEmpty then c else c.resumeResolve p
    let c := if c.leadPart = p then allParts.foldl (fun c q => if (c.part q).restarting then c.decide_ q else c) c else c
    let c := (c.modPart p fun s => { s with cutDue := true }).restartOn p
    allParts.foldl (fun c q => if q ≠ p ∧ !c.bypassed q ∧ !((c.part q).restarting ∧ !(c.part q).queried) then c.sendHeld q else c) c

/-! Fault resets and leaving service (R424) -/

/-- The lead partition moves when it is out of service: to the one that the blob names, or, where that is out of service, to the lowest in
service (R24). -/
def publishLead (c : Chip) (p : Nat) : Chip :=
  let want := if c.outOfService c.blob.lead then (allParts.find? fun q => !c.outOfService q).getD c.blob.lead else c.blob.lead
  if !c.outOfService c.leadPart || want = c.leadPart then c else (c.setReg .DEVICE_LEAD 0 0 want).henAny p 0x3B02

/-- The leads of the other G9s learn that a partition is out of service, or back in it, for the slices with its pod (R159). -/
def tellService (c : Chip) (p : Nat) (up : Bool) : Chip :=
  if !c.leadRuns then c
  else (c.clusters.filter fun g => g ≠ c.clusterIndex).foldl (fun c g =>
    c.peerOut c.leadPart (0xFF000 + 16 * g) "SERVICE" [16 * c.clusterIndex + p, ofBool up]) c

/-- Residency ends at once in a partition that leaves service; DEBUG_LOCK stays where a confidential context was there (R444). -/
def evict (c : Chip) (p : Nat) : Chip :=
  let c := if c.locked p then { c with lockKept := addOnce c.lockKept p } else c
  (c.residents p).foldl (fun c x =>
    let c := c.modCtx x fun k => { k with teardown := k.teardown.map fun t => { t with mask := t.mask.erase p } }
    c.endResidency x p) c

/-- FAULT_N follows the state of the G9 (R425). -/
def faultPin (c : Chip) (on : Bool) : Chip := (c.setReg .RESET_FAULT 0 0 (ofBool on)).emit (.board "FAULT_N" [ofBool (!on)])

/-- The lead partition can send on the peer channel. -/
def peerUp (c : Chip) : Bool :=
  !c.bypassed c.leadPart && c.reg .LINKSEC_KEYED c.leadPart == 1 && c.reg .BOOT_BLOB_DEFAULTED == 0
/-- The FID of the lead partition of another G9. -/
def leadFidOf (g : Nat) : Nat := 0xFF000 + 16 * g
/-- G9_STATE to the lead partition of a G9 (R426). -/
def sendState (c : Chip) (g idx st cause : Nat) : Chip := c.pask c.leadPart (leadFidOf g) 0x8C [idx, st, cause, c.now]
/-- The G9's own G9_STATE before it goes quiet, while its peer channel is up: a worker's to the manager, the manager's to the standby (R426, R427). -/
def sendOwnState (c : Chip) (st cause : Nat) : Chip :=
  if !c.peerUp then c
  else if c.isManager then (if c.standby = 0xFF then c else c.sendState c.standby c.clusterIndex st cause)
  else c.sendState c.mgr c.clusterIndex st cause

/-- The G9 leaves service (R425): every partition is held in reset, the state is written to MRAM, Hen flushes with reason 4. -/
def g9Leave (c : Chip) (cause : Nat) : Chip :=
  if c.g9Out then c
  else
    let bound := if cause = 6 ∨ cause = 7 then 100000 else 1000000
    let c := c.sendOwnState 2 cause
    let c := (allParts.filter fun p => !c.bypassed p).foldl (fun c p => c.partDown p cause bound) c
    let c := allParts.foldl (fun c p => c.partState p 4 0) c
    let c := { (c.setReg .RESET_DEVICE_STATE 0 0 2).faultPin true with outPowered := false
                                                                       mram := { c.mram with state := true, g9Out := true } }
    (c.henDev 0x0403 [cause]).flushStart 4

/-- A partition leaves service. -/
def leaveService (c : Chip) (p cause : Nat) : Chip :=
  let c := if c.bypassed p then c else c.partDown p cause 1000000
  let c := ((c.partState p 3 0).count .RESET_PART_OOS).evict p
  let c := { c with mram := { c.mram with state := true, partsOut := addOnce c.mram.partsOut p } }
  let c := (((c.publishLead p).leadsLeave p).tellService p false).publishTime
  let c := allParts.foldl (fun c q => c.modPart q fun s => { s with resolve := s.resolve.filter (· ≠ p) }) c
  let c := allParts.foldl (fun c q => if q ≠ p ∧ (c.part q).restarting ∧ c.zoneSpeaks q then c.resumeResolve q else c) c
  let c := (c.henAny p 0x1903).flushStart 4
  if 4 ≤ (allParts.filter fun q => c.reg .RESET_PART_STATE 0 q = 3).length then c.g9Leave 10 else c

/-- A fault calls for a partition's reset: two earlier ones within ten minutes, or a defect that lasts, take it out of service. A partition in
reset or out of service takes no further reset. -/
def partFault (c : Chip) (p cause : Nat) (lasting : Bool := false) : Chip :=
  if c.bypassed p then c
  else
    let l := c.recentFaults p
    if lasting || 2 ≤ l.length then c.leaveService p cause
    else
      let c := { c with faults := SMap.set [] c.faults p (l ++ [c.now]) }
      (c.count .RESET_PART_RESETS_FAULT).partDown p cause 1000000

/-- PART_RESET of host software. -/
def partReset (c : Chip) (p : Nat) : Chip :=
  if c.bypassed p then c else (c.count .RESET_PART_RESETS_HOST).partDown p 1 1000000

/-- A partition in reset is reset again, which is a fault (R419). -/
def partAgain (c : Chip) (p cause : Nat) : Chip :=
  let l := c.recentFaults p
  if 2 ≤ l.length then c.leaveService p cause
  else
    let c := { c with faults := SMap.set [] c.faults p (l ++ [c.now]) }
    (c.count .RESET_PART_RESETS_FAULT).partDown p cause 1000000

/-- When a partition in reset must be ready: 3,000 ms after its reset, or after the BIST of a reinstatement, which has 6 s (R419, R424). -/
def readyBy (c : Chip) (p : Nat) : Nat :=
  let t0 := c.reg .PARTITION_LAST_RESET_AT p
  if (c.part p).bist then t0 + 6000000000 else max t0 (c.part p).bistEnd + 3000000000

/-- A partition is not ready in time. The cold path's times run from its BIST (R469). -/
def partNotReady (c : Chip) (p : Nat) : Chip :=
  if c.reg .RESET_PART_STATE 0 p ≠ 2 || !(c.reg .BOOT_BOOT_STAGE == 0 || c.reg .BOOT_BOOT_STAGE == 5) || c.now < c.readyBy p then c
  else c.partAgain p 5

/-- PART_REINSTATE: an out-of-service partition is reset with BIST, its fault count cleared and its memory zeroed (R424, R444). -/
def partReinstate (c : Chip) (p : Nat) : Chip :=
  if c.reg .RESET_PART_STATE 0 p ≠ 3 || c.g9Out then c
  else
    let c := { c with faults := SMap.erase c.faults p, channels := SMap.erase c.channels p, lockKept := c.lockKept.erase p
                      mram := { c.mram with partsOut := c.mram.partsOut.erase p } }
    let c := c.modPart p fun s => { s with tiles := [], sections := [], ttab := [], stops := [(0x40, c.now, some 1)], bist := true
                                           jobs := s.jobs.map fun j => { j with tmpls := [] } }
    let c := (c.setReg .PARTITION_LAST_CAUSE p 0 1).setReg .PARTITION_LAST_RESET_AT p 0 c.now
    (((((c.partState p 2 2).setReg .RESET_FAULTS_10MIN 0 p 0).publishConf).henDev 0x0404 [2 ^ p]).publishLead p).tellService p true

end Chip

end Sys2Proof.Machine
end

