-- ==== Sys2Proof/Machine/Resets.lean ====
section
/-! DEFINITION. Resets of units below a partition (R186, R235, R389, R409, R417), the parity errors and watchdogs that call for them, and defects
found after start-up (R428). -/

namespace Sys2Proof.Machine

open Sys2Proof

namespace Chip

/-! Regions (R389) -/

/-- The cause of a stop still lasts: a supply stage, a debug halt, a reset of the partition. -/
def regionHeld (c : Chip) (p r : Nat) : Bool :=
  if r = 0x01 then decide (1 ≤ c.stageOf p)
  else if r = 0x02 then decide (3 ≤ c.stageOf p)
  else if r = 0x30 then decide (2 ≤ c.stageOf p)
  else if r = 0x40 then c.bypassed p || decide (5 ≤ c.stageOf p)
  else if 0x20 ≤ r ∧ r < 0x24 then c.reg .CORES_STATE p (r - 0x20) == 3
  else false

/-- A stopped region restarts, and the unit works again, an engine group after its BIST (R417); the PLL of a die serves its four partitions. -/
def regionBack (c : Chip) (p r : Nat) : Chip :=
  if r = 0x50 then (dieParts (p / 4)).foldl (fun c q => c.restartRegion q 0x50) c
  else if (SMap.find? (c.part p).stops r).isNone then c
  else
    let c := if r = 0x01 then c.setReg .MIOBOR_STATE p 0 0 else c
    if c.regionHeld p r then c
    else if 0x20 ≤ r ∧ r < 0x24 then c.coreBack p (r - 0x20)
    else
      let c := c.restartRegion p r
      if 0x10 ≤ r ∧ r < 0x18 then ((c.publishEngines p).count .ENGINES_BIST_RUNS p).setReg .ENGINES_LAST_BIST_AT p 0 c.now else c

/-! Engine groups and the cluster -/

/-- A reset of engine group `g`: its work is dealt again, from the first working engine above it (R186). No reservation stands unconfirmed
between commands. -/
def groupReset (c : Chip) (p g : Nat) (cause : Option Nat) : Chip :=
  let c := (c.stopRegion p (0x10 + g) cause).redeal p (fun e => e / 32 = g) (32 * (g + 1))
  (c.count .PARTITION_GROUP_RESETS p).henPart p 0x1908 [2, g, 0]

/-- A reset of the cluster: every command in it ends with ABORT_RESET (R235). -/
def mioReset (c : Chip) (p : Nat) (cause : Option Nat) : Chip :=
  let n := (c.cmds.filter fun x => x.isMio && x.q.part = some p).length
  let c := (((c.mioEndAll p 0x05 fun _ => true).abandonAnalyses p 0x05).henAny p 0x1404).countN .PARTITION_ABSORBED p n
  let c := ((c.setReg .MIOBOR_STATE p 0 3).stopRegion p 0x01 cause).modPart p fun s => { s with mioCtx := none }
  (c.count .PARTITION_MIOBOR_RESETS p).henPart p 0x1908 [3, 0, n]

/-- A unit that has not ended a timed-out command 1 ms after its limit is reset: the cluster, or for a Mule the partition (R409). -/
def overrun (c : Chip) (i : QId) (tag : Nat) : Chip :=
  match i.part, c.cmdOf i tag with
  | some p, some x =>
    match x.started with
    | none => c
    | some t =>
      if c.bypassed p || c.kept x || c.now < t + c.limitOf x + 1000000 then c
      else if i.toMule then c.partFault p 4
      else if x.isMio then c.mioReset p none
      else c
  | _, _ => c

/-! Cores -/

/-- A fault of a core calls for its reset; the third within 60 s resets the partition with cause 3 (R417). -/
def coreFault (c : Chip) (p k : Nat) : Chip :=
  let l := (SMap.get [] (c.part p).coreResets k).filter fun t => c.now < t + 60000000000
  if 2 ≤ l.length then c.partFault p 3
  else (c.modPart p fun s => { s with coreResets := SMap.set [] s.coreResets k (l ++ [c.now]) }).coreReset p k none

/-- 10 ms without a heartbeat of a core's firmware. -/
def coreWatchdog (c : Chip) (p k : Nat) : Chip :=
  if bit (c.reg .PARTITION_CORES_VACANT p) k || (SMap.find? (c.part p).stops (0x20 + k)).isSome && c.reg .CORES_STATE p k ≠ 3 then c
  else (c.count .PARTITION_WATCHDOGS p).coreFault p k

/-- A parity error of a core: 0 on a clean line or in the instruction cache, 1 on a dirty data-cache line, otherwise in M-mode state (R369, R417).
What the firmware records of the trap on a dirty line is left open. -/
def cacheParity (c : Chip) (p k kind : Nat) : Chip :=
  if kind = 0 then c.count .CORES_CACHE_PARITY p
  else if kind = 1 then
    let v := fun (i : Nat) => trunc 64 (Config.freeValue (c.freeCtr + i))
    ({ c with freeCtr := c.freeCtr + 3 }).progFault p k (v 0) (v 1) (v 2)
  else c.coreFault p k

/-! Late defects (R428) -/

/-- A class code that the spec does not give. -/
def freeClass (c : Chip) : Nat := c.freeVal 32

/-- A unit is vacant: counted, logged, and the partition is degraded. -/
def vacate (c : Chip) (p n : Nat) : Chip :=
  let c := (c.count .PARTITION_VACANCIES p).setReg .PARTITION_DEGRADED p 0 1
  let c := c.drawn.henPart p 0x1905 [c.freeClass, n]
  if c.reg .RESET_PART_STATE 0 p = 0 then c.setReg .RESET_PART_STATE 0 p 1 else c

/-- The lowest working physical engine of a group that serves no logical engine. -/
def spareEngine (c : Chip) (p g : Nat) : Option Nat :=
  let used := (List.range 32).map fun i => SMap.get (34 * g + i) (c.part p).engMap (32 * g + i)
  ((List.range 34).filter fun j => bit (c.reg .ENGINES_PHYS_OK p g) j && !used.contains (34 * g + j)).head?.map fun j => 34 * g + j

/-- Publishes the spares of a group and the vacant engines. -/
def publishSpares (c : Chip) (p g : Nat) : Chip :=
  let used := (List.range 32).map fun i => SMap.get (34 * g + i) (c.part p).engMap (32 * g + i)
  let n := ((List.range 34).filter fun j => bit (c.reg .ENGINES_PHYS_OK p g) j && !used.contains (34 * g + j)).length
  let c := c.setReg .PARTITION_SPARES p 0 (setBits (c.reg .PARTITION_SPARES p) (2 * g + 1) (2 * g) n)
  (c.setReg .PARTITION_ENGINES_VACANT p 0 ((List.range 256).filter fun e => c.vacant p e).length).publishEngines p

/-- A physical engine fails, as its group's BIST finds: its logical number moves to a spare of the group, or is vacant (R22). -/
def engineDefect (c : Chip) (p f : Nat) : Chip :=
  let g := f / 34
  if !bit (c.reg .ENGINES_PHYS_OK p g) (f % 34) then c
  else
    let c := (c.setReg .ENGINES_PHYS_OK p g (setBit (c.reg .ENGINES_PHYS_OK p g) (f % 34) false)).count .ENGINES_BIST_ENGINE_FAILS p
    let c := match (List.range 32).find? (fun i => SMap.get (34 * g + i) (c.part p).engMap (32 * g + i) = f) with
      | none => c
      | some i =>
        let e := 32 * g + i
        match c.spareEngine p g with
        | some j =>
          let c := (c.modPart p fun s => { s with engMap := SMap.set (34 * g + i) s.engMap e j }).count .PARTITION_REMAPS p
          c.drawn.henPart p 0x1904 [c.freeClass, e, j]
        | none =>
          let c := c.modPart p fun s => { s with engMap := SMap.set (34 * g + i) s.engMap e 511 }
          (c.redeal p (fun y => y = e) (e + 1)).vacate p e
    c.publishSpares p g

/-- A unit that fails after start-up. Four vacant Mules, and the second loss of an LPDDR6 channel, take the partition out of service (R424), and so
does a channel that does not train at bring-up (R472); one that does not retrain at a reset has the partition reset again. -/
def lateDefect (c : Chip) (p : Nat) (u : Defect) : Chip :=
  if c.outOfService p then c
  else
    let mask := fun (c : Chip) (r : Reg) (n : Nat) => c.setReg r p 0 (setBit (c.reg r p) n true)
    match u with
    | .engine f => c.engineDefect p f
    | .core k => if bit (c.reg .PARTITION_CORES_VACANT p) k then c else
        ((mask c .PARTITION_CORES_VACANT k).vacate p k).setReg .CORES_STATE p k 0
    | .miobor =>
      if c.reg .PARTITION_MIOBOR_VACANT p = 1 then c
      else
        let c := ((c.setReg .PARTITION_MIOBOR_VACANT p 0 1).henAny p 0x1405).vacate p 0
        (c.cmds.filter fun x => x.isMio && x.q.part = some p).foldl (fun c x => c.mioEnd x.q p { x.d with ctx := x.q.ctx } 0x09 0) c
    | .mule m =>
      if bit (c.reg .PARTITION_MULES_VACANT p) m then c
      else
        let c := (mask c .PARTITION_MULES_VACANT m).vacate p m
        if c.reg .PARTITION_MULES_VACANT p = 15 then c.leaveService p 10 else c
    | .bank b => if bit (c.reg .PARTITION_BANKS_VACANT p) b then c else ((mask c .PARTITION_BANKS_VACANT b).vacate p b).publishMemory p
    | .channel ch =>
      let n := SMap.get 0 c.channels p
      let c := ({ c with channels := SMap.set 0 c.channels p (n + 1) }).vacate p ch
      if 1 ≤ n || (c.bypassed p && c.reg .RESET_DEVICE_STATE == 1) then c.leaveService p 9
      else if c.bypassed p then c.partAgain p 9
      else c.partFault p 9

/-! Masks of the PARTITION page, and resets that a fault or the host asks for -/

/-- The CORE_RESET mask. -/
def coreResets (c : Chip) (p mask : Nat) : Chip :=
  (setBitsOf 4 mask).foldl (fun c k => if bit (c.reg .PARTITION_CORES_VACANT p) k then c else c.coreReset p k (some 1)) c
/-- The GROUP_RESET mask, or a fault of groups. -/
def groupResets (c : Chip) (p mask : Nat) (fault : Bool) : Chip :=
  (setBitsOf 8 mask).foldl (fun c g => c.groupReset p g (if fault then none else some 1)) c
/-- A partition reset with a cause that may call for one (R417, R423); a partition in reset whose firmware check fails is reset again (R419). -/
def partResetFor (c : Chip) (p cause : Nat) : Chip :=
  if cause = 1 then c.partReset p
  else if cause = 5 && c.reg .RESET_PART_STATE 0 p == 2 then c.partAgain p 5
  else if cause = 2 || cause = 3 || cause = 4 || cause = 5 || cause = 9 then c.partFault p cause
  else c

end Chip

end Sys2Proof.Machine
end

