-- ==== Sys2Proof/Machine/ExecCore.lean ====
section
/-! DEFINITION. The control cores' user mode (R367 to R372, R378). -/

namespace Sys2Proof.Machine

open Sys2Proof

/-- G9_ISSUE (R372). -/
def execG9Issue (t p core addr stream : Nat) (s : State) : Host.Outcome State Fault Refusal :=
  .next (s.run t fun c => c.atPart p fun c => c.g9Issue p core addr stream)
/-- G9_WAIT (R371). -/
def execG9Wait (t p core a0 : Nat) (s : State) : Host.Outcome State Fault Refusal :=
  .next (s.run t fun c => c.atPart p fun c => c.g9Wait p core a0)
/-- G9_WAIT_WAKE (R371). -/
def execG9WaitWake (t p x core : Nat) (s : State) : Host.Outcome State Fault Refusal :=
  .next (s.run t fun c => c.atPart p fun c => c.g9Wake p x core)
/-- G9_YIELD (R371). -/
def execG9Yield (t p core : Nat) (s : State) : Host.Outcome State Fault Refusal :=
  .next (s.run t fun c => c.atPart p fun c => c.g9Yield p core)
/-- PROGRAM_EXIT (R369). -/
def execProgramExit (t p core a0 : Nat) (s : State) : Host.Outcome State Fault Refusal :=
  .next (s.run t fun c => c.atPart p fun c => c.progExit p core a0)
/-- PROGRAM_FAULT (R369). -/
def execProgramFault (t p core cause pc tval : Nat) (s : State) : Host.Outcome State Fault Refusal :=
  .next (s.run t fun c => c.atPart p fun c => c.progFault p core cause pc tval)
/-- USER_QUANTUM_EXPIRY (R368). -/
def execUserQuantumExpiry (t p core : Nat) (s : State) : Host.Outcome State Fault Refusal :=
  .next (s.run t fun c => c.atPart p fun c => c.quantumEnds p core)
/-- G9CQ_WRITE (R370). -/
def execG9cqWrite (t p core csr v : Nat) (s : State) : Host.Outcome State Fault Refusal :=
  .next (s.run t fun c => c.atPart p fun c => c.g9cqWrite p core csr v)
/-- CORE_START (R378). -/
def execCoreStart (t p x cores : Nat) (s : State) : Host.Outcome State Fault Refusal :=
  .next (s.run t fun c => c.atPart p fun c => c.ctlOp p x cores 1)
/-- CORE_STOP (R378). -/
def execCoreStop (t p x cores : Nat) (s : State) : Host.Outcome State Fault Refusal :=
  .next (s.run t fun c => c.atPart p fun c => c.ctlOp p x cores 2)
/-- CORE_WATCHDOG (R417). -/
def execCoreWatchdog (t p core : Nat) (s : State) : Host.Outcome State Fault Refusal :=
  .next (s.run t fun c => c.atPart p fun c => c.coreWatchdog p core)
/-- CACHE_PARITY_ERROR (R369). -/
def execCacheParityError (t p core kind : Nat) (s : State) : Host.Outcome State Fault Refusal :=
  .next (s.run t fun c => c.atPart p fun c => c.cacheParity p core kind)

end Sys2Proof.Machine
end

