-- ==== Sys2Proof/Machine/ExecFail.lean ====
section
/-! DEFINITION. What each command of the failure response means (R96, R254, R283 to R304). -/

namespace Sys2Proof.Machine

open Sys2Proof

/-- EVENT (R96). -/
def execEvent (t p src code : Nat) (params : List Nat) (s : State) : Host.Outcome State Fault Refusal :=
  .next (s.run t fun c => c.atPart p fun c => c.event p src code params)
/-- TELEMETRY (R254). -/
def execTelemetry (t p src : Nat) (recs : List (List Nat)) (s : State) : Host.Outcome State Fault Refusal :=
  .next (s.run t fun c => c.atPart p fun c => c.telemetry p src recs)
/-- SILENT_TIMEOUT (R283). -/
def execSilentTimeout (t p fid : Nat) (s : State) : Host.Outcome State Fault Refusal :=
  .next (s.run t fun c => c.atPart p fun c => c.silentTimeout p fid)
/-- FAIL_NOTE_PEER_RESET (R285). -/
def execFailNotePeerReset (t p src tag : Nat) (body : FailNote) (s : State) : Host.Outcome State Fault Refusal :=
  .next (s.run t fun c => c.atPart p fun c => c.notePeerReset p src tag body)
/-- FENCE_REQ (R289). -/
def execFenceReq (t p src tag : Nat) (body : FailNote) (s : State) : Host.Outcome State Fault Refusal :=
  .next (s.run t fun c => c.atPart p fun c => c.fenceReq p src tag body)
/-- FENCE_BATCH_CLOSE (R289). -/
def execFenceBatchClose (t p job : Nat) (s : State) : Host.Outcome State Fault Refusal :=
  .next (s.run t fun c => c.atPart p fun c => c.closeBatch p job)
/-- FENCE_ORDER (R290). -/
def execFenceOrder (t p src tag : Nat) (body : FailNote) (s : State) : Host.Outcome State Fault Refusal :=
  .next (s.run t fun c => c.atPart p fun c => c.fenceOrder p src tag body)
/-- FENCE_STAGE_DONE (R290). -/
def execFenceStageDone (t p job f : Nat) (s : State) : Host.Outcome State Fault Refusal :=
  .next (s.run t fun c => c.atPart p fun c => c.orderNext p job f)
/-- FENCE_ACK (R291). -/
def execFenceAck (t p src tag st : Nat) (s : State) : Host.Outcome State Fault Refusal :=
  .next (s.run t fun c => c.atPart p fun c => c.fenceAck p src tag st)
/-- FENCE_RETRY (R291). -/
def execFenceRetry (t p : Nat) (s : State) : Host.Outcome State Fault Refusal :=
  .next (s.run t fun c => c.atPart p fun c => c.fenceRetry p)
/-- UNFENCE_ORDER (R297). -/
def execUnfenceOrder (t p src tag : Nat) (body : FailNote) (s : State) : Host.Outcome State Fault Refusal :=
  .next (s.run t fun c => c.atPart p fun c => c.unfenceOrder p src tag body)
/-- FENCE_SYNC (R301). -/
def execFenceSync (t p src tag : Nat) (body : FailNote) (s : State) : Host.Outcome State Fault Refusal :=
  .next (s.run t fun c => c.atPart p fun c => c.fenceSync p src tag body)
/-- FENCE_EP (R304). -/
def execFenceEp (t p : Nat) (d : Desc) (s : State) : Host.Outcome State Fault Refusal :=
  .next (s.run t fun c => c.runCmd (.route p) { d with opcode := 0x58 } fun c => c.fenceEp p d.tag d)
/-- UNFENCE_EP (R297). -/
def execUnfenceEp (t p : Nat) (d : Desc) (s : State) : Host.Outcome State Fault Refusal :=
  .next (s.run t fun c => c.runCmd (.route p) { d with opcode := 0x59 } fun c => c.unfenceEp p d.tag d)
/-- QUERY_FENCES (R304). -/
def execQueryFences (t p : Nat) (d : Desc) (s : State) : Host.Outcome State Fault Refusal :=
  .next (s.run t fun c => c.runCmd (.route p) { d with opcode := 0x5A } fun c => c.queryFences p d.tag d)

end Sys2Proof.Machine
end

