-- ==== Sys2Proof/Machine/HenFlush.lean ====
section
/-! DEFINITION. Flush images, and host access to the Hen recorder (R433 to R436, R440). -/

namespace Sys2Proof.Machine

open Sys2Proof

namespace Chip

/-- The kept area as a flush writes it: 4,096 slots, empty ones zero (R434). -/
def keptArea (c : Chip) : List Nat :=
  (c.hen.kept.take 4096).flatMap FixedRec.bytes ++ List.replicate (32 * (4096 - c.hen.kept.length)) 0

/-- The ring bytes of the extent, oldest first. -/
def extentBytes (c : Chip) (f : Flush) : List Nat :=
  let n := extentUnits f
  ((c.hen.ring.filter fun e => inExtent f e.1).flatMap fun e => e.2.bytes).take (32 * n)

/-- Block `i` of an image: its header and its data, the 64 KiB that end 64 KiB × i before NEXT. -/
def flushBlock (f : Flush) (ring : List Nat) (i : Nat) : List Nat :=
  let stop := ring.length - 65536 * i
  let start := stop - min stop 65536
  let data := (ring.drop start).take (stop - start)
  bytesOf 4 ((32 * f.oldest + start) % (32 * henUnits)) ++ bytesOf 4 data.length ++ bytesOf 4 (crc32c data) ++ bytesOf 2 i
    ++ List.replicate 18 0 ++ data

/-- Blocks of an image that fit in a slot, or all of them. -/
def fitting (limit : Nat) (used : Nat) : List (List Nat) → List (List Nat)
  | [] => []
  | b :: r => if used + b.length ≤ limit then b :: fitting limit (used + b.length) r else []

/-- The rings of a port's enabled queues in its host's memory: first byte and length. -/
def ringRuns (c : Chip) (port : Nat) : List (Nat × Nat) :=
  ((c.portQueues port).filter fun i => i.ringed && c.q i .enable == 1).flatMap fun i =>
    (if c.windowed i then [] else [(c.q i .base, 64 * c.ringSize i)]) ++ [(c.q i .cqBase, 16 * c.cqSize i)]
/-- The host buffer overlaps a queue ring: what a flush writes there, and LAST_DONE, are left open (R441). -/
def bufClash (c : Chip) (port : Nat) : Bool :=
  let a := c.reg .HEN_HOST_BUF_ADDR
  (c.ringRuns port).any fun r => decide (r.1 < a + c.reg .HEN_HOST_BUF_LEN) && decide (a < r.1 + r.2)

/-- The last block of a flush is written and the header rewritten with DONE (R434, R435); a second flush follows where one was asked for. -/
def flushDone (c : Chip) : Chip :=
  match c.hen.flush with
  | none => c
  | some f =>
    let ring := c.extentBytes f
    let all := (List.range (ceilDiv ring.length 65536)).map (flushBlock f ring)
    let blocks := if f.dest = 0 then all else fitting 4194304 (64 + 131072) all
    let left := ((all.drop blocks.length).map fun b => b.length - 32).sum
    let body := c.keptArea ++ blocks.flatten
    let img : FlushImage := { reason := f.reason, done := true, truncated := decide (left ≠ 0), seq := f.seq, blocks := blocks.length,
                              kept := c.hen.kept.length, start := f.start, stop := c.now, next := f.next, oldest := f.oldest
                              lost := c.hen.lostSince, truncBytes := left
                              data := if f.dest = 0 then [] else body }
    let open_ : Bool := f.dest = 0 && c.bufClash f.port
    let bytes := c.flushHeader img 0 ++ body
    let bytes := if open_ then (List.range bytes.length).map fun i => trunc 8 (Config.freeValue (c.freeCtr + 1 + i)) else bytes
    let done := if open_ then c.freeVal 1 else 1
    let c := if open_ then { c with freeCtr := c.freeCtr + 1 + bytes.length } else c
    let c := if f.dest = 0 then c.writeHost f.port (c.reg .HEN_HOST_BUF_ADDR) bytes else c.setSlot f.port img
    let c := c.modHen fun h => { h with flush := none, lostSince := 0 }
    let c := ((c.setReg .HEN_FLUSHING 0 0 0).setReg .HEN_LAST_DONE 0 0 done).setReg .HEN_LAST_FLUSH_TICKS 0 0 (min (c.now - f.start) (2 ^ 32 - 1))
    let c := (c.countN .HEN_FLUSH_BYTES 0 (64 + body.length)).countN .HEN_MRAM_TRUNCATED 0 left
    let c := c.henDev 0x0406 [blocks.length, trunc 32 (c.now - f.start), 1]
    match c.hen.again with
    | none => c
    | some r => (c.modHen fun h => { h with again := none }).flushBegin r (some f.next)

/-- Flushes to the host that are under way end now: a device reset waits for them (R420, R436). -/
def flushSettle (c : Chip) : Chip :=
  let end1 := fun (c : Chip) => match c.hen.flush with | some f => if f.dest = 0 then c.flushDone else c | none => c
  end1 (end1 c)

/-- `n` bytes of an MRAM slot; what no image has written is left open. -/
def slotImage (c : Chip) (k n : Nat) : List Nat :=
  let free := fun (i : Nat) => trunc 8 (Config.freeValue (c.freeCtr + n * k + i))
  match (if k = 0 then c.mram.slot0 else c.mram.slot1) with
  | none => (List.range n).map free
  | some f =>
    let h := c.flushHeader f 1
    let l := h ++ f.data
    l.take n ++ ((List.range n).drop l.length).map free

/-- MRAM_COPY: both slots go to the host buffer, where a flush to the host could go. -/
def mramCopy (c : Chip) : Chip :=
  match c.flushPort with
  | none => c
  | some port =>
    let a := c.reg .HEN_HOST_BUF_ADDR
    let x := c.slotImage 0 4194304
    let y := c.slotImage 1 4194304
    (({ c with freeCtr := c.freeCtr + 8388608 }).writeHost port a x).writeHost port (a + 4194304) y

/-- CLEAR: both areas are empty, and event 0x0407 is the first record. -/
def henClear (c : Chip) : Chip :=
  let c := (c.modHen fun h => { h with kept := [], ring := [] }).henPublish (c.reg .HEN_NEXT)
  c.henDev 0x0407 []

/-- NOTE: the host's record. -/
def henNote (c : Chip) : Chip := c.henDev 0x3FFF ((List.range 4).map fun i => c.reg .HEN_NOTE_P 0 i)

/-- A byte of the 8 MiB buffer: the kept area, its empty slots zero, then the ring; what holds no whole record is left open. -/
def henByte (c : Chip) (a : Nat) : Option Nat :=
  if a < 131072 then some (match c.hen.kept[a / 32]? with | some r => r.bytes.getD (a % 32) 0 | none => 0)
  else
    let u := (a - 131072) / 32
    c.hen.ring.findSome? fun e =>
      let d := (u + henUnits - e.1 % henUnits) % henUnits
      if d < e.2.units then e.2.bytes[32 * d + a % 32]? else none

/-- A read of RD_DATA: 8 bytes at RD_ADDR, which advances (R440, R441). -/
def henRead (c : Chip) (port : Nat) : Chip :=
  let a := c.reg .HEN_RD_ADDR
  let v := ofBytes ((List.range 8).map fun i =>
    match (if a % 8 = 0 then c.henByte (a + i) else none) with
    | some b => b
    | none => trunc 8 (Config.freeValue (c.freeCtr + i)))
  (({ c with freeCtr := c.freeCtr + 8 }).setReg .HEN_RD_ADDR 0 0 (a + 8)).emit (.readReturn port v)

/-- A record arrives at Hen from a source (R429): a partition below 16, else the host-side complex. No source makes one of the code 0x0000, nor
in a form that R17 does not give its code. -/
def henRecord (c : Chip) (src code : Nat) (hidden isVar : Bool) (body : List Nat) : Chip :=
  let part := if src < 16 then src else 0xFF
  if code = 0 || (isVar && code < 0x3000) || (!isVar && 0x4000 ≤ code) then c
  else if isVar then c.henVar src code part hidden (body.map (trunc 8))
  else if src < 16 then c.henPart src code body hidden
  else c.henFixed src code 0xFF body hidden

end Chip

end Sys2Proof.Machine
end

