-- ==== Sys2Proof/Machine/ExecHen.lean ====
section
/-! DEFINITION. The commands of the Hen recorder (R429 to R440). -/

namespace Sys2Proof.Machine

open Sys2Proof

/-- HEN_RECORD (R429). -/
def execHenRecord (t src code : Nat) (hidden isVar : Bool) (body : List Nat) (s : State) :
    Host.Outcome State Fault Refusal :=
  .next (s.run t fun c => c.henRecord src code hidden isVar body)
/-- FLUSH_NOW (R433). -/
def execFlushNow (t hp : Nat) (s : State) : Host.Outcome State Fault Refusal :=
  .next (s.runPairs t fun c ps => c.writePage ps hp .HEN 0 fun c => c.flushStart 3)
/-- FLUSH_DONE (R435). -/
def execFlushDone (t : Nat) (s : State) : Host.Outcome State Fault Refusal :=
  .next (s.run t fun c => c.flushDone)
/-- MRAM_COPY (R435). -/
def execMramCopy (t hp : Nat) (s : State) : Host.Outcome State Fault Refusal :=
  .next (s.runPairs t fun c ps => c.writePage ps hp .HEN 0 fun c => c.mramCopy)
/-- CLEAR (R440). -/
def execClear (t hp : Nat) (s : State) : Host.Outcome State Fault Refusal :=
  .next (s.runPairs t fun c ps => c.writePage ps hp .HEN 0 fun c => c.henClear)
/-- NOTE (R440). -/
def execNote (t hp v : Nat) (s : State) : Host.Outcome State Fault Refusal :=
  .next (s.runPairs t fun c ps => c.writePage ps hp .HEN 0 fun c => if bit v 0 then c.henNote else c)
/-- HEN_RD_DATA (R440). -/
def execHenRdData (t hp : Nat) (s : State) : Host.Outcome State Fault Refusal :=
  .next (s.run t fun c => c.readPage hp .HEN 0 8 fun c => c.henRead hp)

end Sys2Proof.Machine
end

