-- ==== Sys2Proof/Machine/Boot.lean ====
section
/-! DEFINITION. What bring-up reads and checks: the configuration blob, straps, firmware images, BIST (R317, R338, R463 to R470, R477). -/

namespace Sys2Proof.Machine

open Sys2Proof

/-- The sections of a blob from an offset on: TYPE and content; each begins on an 8-byte boundary (R466). -/
def blobSections (b : List Nat) : Nat → Nat → List (Nat × List Nat)
  | 0, _ => []
  | n + 1, off =>
    let len := ofBytes ((b.drop (off + 4)).take 4)
    (ofBytes ((b.drop off).take 2), (b.drop (off + 8)).take len) :: blobSections b n (ceilDiv (off + 8 + len) 8 * 8)

/-- A configuration blob from its bytes, none where R467 rejects it: MAGIC, VERSION, LEN, CRC, and the ranges of the DEVICE section. -/
def blobOf (b : List Nat) : Option Blob :=
  let g := fun (l : List Nat) off n => ofBytes ((l.drop off).take n)
  let len := g b 8 4
  let body := b.take len
  let crc := crc32c (body.take 12 ++ [0, 0, 0, 0] ++ body.drop 16)
  if g b 0 4 ≠ 0x424F4C42 ∨ g b 4 2 ≠ 1 ∨ len < 32 ∨ b.length < len ∨ g b 12 4 ≠ crc then none
  else
    let s := blobSections body (g b 6 2) 32
    let sec := fun (t : Nat) => (s.find? fun e => e.1 = t).map fun e => e.2
    let x : Blob := match sec 1 with
      | some d => { role := g d 0 1, index := g d 1 1, lead := g d 2 1, devicePort := g d 3 1, owner := g d 4 2, standby := g d 6 1 }
      | none => {}
    if 2 < x.role ∨ 31 < x.index ∨ 15 < x.lead ∨ 1 < x.devicePort ∨ (31 < x.standby ∧ x.standby ≠ 0xFF) then none
    else
      some { x with
        grid := match sec 2 with | some d => (g d 0 2, g d 2 2, g d 4 2) | none => (8, 8, 8)
        plan := sec 3
        loops := match sec 4 with | some d => (List.range 6).map fun i => g d (4 * i) 4 | none => []
        sris := match sec 5 with | some d => g d 0 1 % 4 | none => 0 }

namespace Chip

/-- The LOOPS fields of a blob: a word for each of DVFS of the dies, SPAN and LEND (R449, R466), clamped to the fields' ranges, which is counted and
logged (R446). -/
def applyLoops (c : Chip) (l : List Nat) : Chip :=
  if l.isEmpty then c
  else
    let w := fun (i : Nat) => l.getD i 0
    let put := fun (c : Chip) (r : Reg) (idx v : Nat) =>
      let x := RegFile.clampReg r v
      if x.2 then (c.setReg r 0 idx x.1).clamped .LOOPS 0 v x.1 else c.setReg r 0 idx x.1
    let c := (List.range 4).foldl (fun c d =>
      put (put (put c .LOOPS_DVFS_CEIL d (bits (w d) 26 16)) .LOOPS_DVFS_FLOOR d (bits (w d) 10 0)) .LOOPS_DVFS_PIN d (bits (w d) 31 31)) c
    let c := put (put (put c .LOOPS_SPAN_CEIL 0 (bits (w 4) 12 8)) .LOOPS_SPAN_FLOOR 0 (bits (w 4) 4 0)) .LOOPS_SPAN_PIN 0 (bits (w 4) 31 31)
    (put (put c .LOOPS_LEND_FLOOR 0 (bits (w 5) 3 0)) .LOOPS_LEND_PIN 0 (bits (w 5) 31 31)).settlePage .LOOPS 0

/-- A blob takes effect at a device reset (R467, R468). A grid whose extents are out of their range, or whose product is not 512, is the
default one. -/
def applyBlob (c : Chip) (b : Blob) (defaulted : Bool) : Chip :=
  let ok := fun (n : Nat) => decide (1 ≤ n) && decide (n ≤ 512)
  let (x, y, z) := b.grid
  let grid := if ok x && ok y && ok z && x * y * z = 512 then b.grid else (8, 8, 8)
  let c := { c with blob := b, grid := grid, standby := b.standby, mgr := if b.role = 0 then b.index else 0 }
  let c := ((c.setReg .DEVICE_ROLE 0 0 b.role).setReg .DEVICE_CLUSTER_INDEX 0 0 b.index).setReg .DEVICE_LEAD 0 0 b.lead
  let c := (c.setReg .DEVICE_DEVICE_PORT 0 0 b.devicePort).setReg .DEVICE_OWNER 0 0 b.owner
  let c := (c.setReg .BOOT_BLOB_VALID 0 0 (ofBool !defaulted)).setReg .BOOT_BLOB_DEFAULTED 0 0 (ofBool defaulted)
  let c := (c.setReg .BOOT_SRIS_A 0 0 (b.sris % 2)).setReg .BOOT_SRIS_B 0 0 (b.sris / 2)
  let c := (c.applyLoops b.loops).publishLead b.lead
  let bad : Bool := match b.plan with | some l => (planOf l).isNone | none => false
  { (if bad then c.henAny b.lead 0x3100 else c) with plan := c.planMram }

/-- The MRAM blob is read; one that does not pass is rejected whole (R467). -/
def readBlob (c : Chip) : Chip :=
  match blobOf c.mram.blob with
  | some b => c.applyBlob b false
  | none => (c.applyBlob {} true).henDevAny 0x0702

/-- BLOB_WRITE of a port: the new blob is checked, and goes to MRAM only where it passes (R468). The status of one whose BLOB_LEN is shorter than it
is AUTH_FAIL or TIMEOUT (R479). -/
def blobWrite (c : Chip) (port : Nat) : Chip :=
  let n := min (c.reg .BOOT_BLOB_LEN) 0x200000
  let b := c.hostBytes port (c.reg .BOOT_BLOB_ADDR) n
  let short : Bool := n < 32 || n < ofBytes ((b.drop 8).take 4)
  match blobOf b with
  | none =>
    if short then c.drawn.setReg .BOOT_BLOB_STATUS 0 0 (if bit (c.freeVal 1) 0 then 0x08 else 0x01)
    else c.setReg .BOOT_BLOB_STATUS 0 0 0x08
  | some x =>
    { c.setReg .BOOT_BLOB_STATUS 0 0 0x00 with
      mram := { c.mram with blob := b }, planMram := (x.plan.bind planOf).getD {} }

/-- The straps as sampled (R338, R463). -/
def setStraps (c : Chip) (cfg src : Nat) : Chip := (c.setReg .DEVICE_HOST_CFG 0 0 cfg).setReg .DEVICE_BOOT_SRC 0 0 src

/-! Firmware (R317, R477) -/

/-- FW_GO: the waiting ROM fetches the pushed image of a port. -/
def fwGo (c : Chip) (port : Nat) : Chip := if c.reg .BOOT_FW_WAITING = 1 then { c with fwFrom := some port } else c

/-- The header of a firmware image is good, and the image is as long as it says. -/
def fwShape (b : List Nat) : Bool :=
  let g := fun off n => ofBytes ((b.drop off).take n)
  g 0 4 == 0x57463947 && g 4 2 == 1 && decide (g 0x10 8 ≤ 0x1800000) && decide (0x200 + g 0x10 8 ≤ b.length)

/-- Verification ends: of the image that FW_GO named, else of the one in MRAM. `ok` says that the key digest and the signature pass. On the fast
path it is the digest check of the firmware area, and the G9 takes the cold path where that fails (R470, R471). -/
def fwVerified (c : Chip) (ok : Bool) (mramImage : List Nat) : Chip :=
  if c.reg .RESET_DEVICE_STATE = 1 ∧ c.reg .BOOT_PATH = 2 ∧ c.reg .BOOT_BOOT_STAGE = 5 then
    if ok then c else { (c.setReg .BOOT_PATH 0 0 1).setReg .BOOT_BOOT_STAGE 0 0 1 with verifyDue := true }
  else if c.reg .BOOT_BOOT_STAGE ≠ 2 ∨ (c.fwFrom.isNone ∧ (c.reg .DEVICE_BOOT_SRC = 0 ∨ c.reg .BOOT_FW_WAITING = 1)) then c
  else
    let b := match c.fwFrom with
      | some port => c.hostBytes port (c.reg .BOOT_FW_ADDR) (c.reg .BOOT_FW_LEN)
      | none => mramImage
    let fromMram := c.fwFrom.isNone
    let c := { c with fwFrom := none }
    if ok && fwShape b then
      let g := fun off n => ofBytes ((b.drop off).take n)
      let c := { c with fwDigest := Config.sha512 (b.take 0x80 ++ (b.drop 0x200).take (g 0x10 8)), fwVersion := g 8 4 }
      let c := [0, 1].foldl (fun c i => c.setReg .CONTEXT_FW_VER i 0 c.fwVersion) c
      ((c.setReg .BOOT_FW_WAITING 0 0 0).setReg .BOOT_FW_FROM_MRAM 0 0 (ofBool fromMram)).setReg .BOOT_BOOT_STAGE 0 0 4
    else ((c.count .BOOT_FW_REJECTS).henDevAny 0x0202).setReg .BOOT_FW_WAITING 0 0 1

/-! BIST (R22, R428, R470) -/

/-- The working units that BIST found in a partition: physical engines of each group, and the vacant cores, cluster, Mules and banks. -/
def bistMap (c : Chip) (p : Nat) (phys : List Nat) (cores : Nat) (miobor : Bool) (mules banks : Nat) : Chip :=
  let good := fun (g : Nat) => (List.range 34).filter fun j => bit (phys.getD g 0) j
  let c := (List.range 8).foldl (fun c g => c.setReg .ENGINES_PHYS_OK p g (phys.getD g 0)) c
  let m := (List.range 256).foldl (fun m e =>
    SMap.set (34 * (e / 32) + e % 32) m e (match (good (e / 32))[e % 32]? with | some j => 34 * (e / 32) + j | none => 511)) []
  let c := c.modPart p fun s => { s with engMap := m }
  let failed := (List.range 8).flatMap fun g => ((List.range 34).filter fun j => !bit (phys.getD g 0) j).map fun j => 34 * g + j
  let c := failed.foldl (fun c f => c.henPart p 0x1A01 [f]) c
  let vac := ((List.range 8).map fun g => 32 - min 32 (good g).length).sum
  let spares := (List.range 8).foldl (fun v g => v + ((good g).length - min 32 (good g).length) * 4 ^ g) 0
  let c := (c.setReg .PARTITION_ENGINES_VACANT p 0 vac).setReg .PARTITION_SPARES p 0 spares
  let c := (c.setReg .PARTITION_CORES_VACANT p 0 cores).setReg .PARTITION_MIOBOR_VACANT p 0 (ofBool miobor)
  let c := (c.setReg .PARTITION_MULES_VACANT p 0 mules).setReg .PARTITION_BANKS_VACANT p 0 banks
  let bad : Bool := vac ≠ 0 || cores ≠ 0 || miobor || mules ≠ 0 || banks ≠ 0
  let c := (c.setReg .PARTITION_DEGRADED p 0 (ofBool bad)).setReg .ENGINES_LAST_BIST_AT p 0 c.now
  (c.count .ENGINES_BIST_RUNS p).countN .ENGINES_BIST_ENGINE_FAILS p failed.length

/-- Every partition that restarts has been tested: the restore begins, and the defect map is in the state record. -/
def bistOver (c : Chip) : Chip :=
  if c.reg .BOOT_BOOT_STAGE = 4 ∧ allParts.all (fun p => c.reg .RESET_PART_STATE 0 p ≠ 2 || c.reg .RESET_STAGE 0 p = 6) then
    let c := allParts.foldl (fun c p => if c.reg .RESET_PART_STATE 0 p = 2 then c.modPart p fun s => { s with bistEnd := c.now } else c) c
    { c.setReg .BOOT_BOOT_STAGE 0 0 5 with mram := { c.mram with state := true } }
  else c

/-- The BIST of a partition's die runs: its die has been at stage 0 for 10 ms since it was last abandoned (R470). -/
def bistCalm (c : Chip) (p : Nat) : Bool :=
  c.reg .POWER_STAGE 0 (p / 4) == 0 && (match (SMap.get {} c.dies (p / 4)).calmAt with | some t => decide (t + 10000000 ≤ c.now) | none => true)

/-- BIST of a partition ends; one that its die's supply has abandoned does not. It runs on the cold path, where a partition out of service that
passes comes back (R424), and after PART_REINSTATE. -/
def bistDone (c : Chip) (p : Nat) (phys : List Nat) (cores : Nat) (miobor : Bool) (mules banks : Nat) : Chip :=
  let cold : Bool := c.reg .BOOT_BOOT_STAGE == 4
  let st := c.reg .RESET_PART_STATE 0 p
  if !(st = 2 || (cold && st = 3)) || c.g9Out || !c.bistCalm p then c
  else
    let c := (c.bistMap p phys cores miobor mules banks).modPart p fun s => { s with bist := false, bistEnd := c.now }
    if mules % 16 = 15 then
      if st = 2 then (c.leaveService p 10).bistOver else c
    else
      let c := if st = 3 then
          { c.partState p 2 6 with faults := SMap.erase c.faults p, channels := SMap.erase c.channels p
                                   mram := { c.mram with partsOut := c.mram.partsOut.erase p } }
        else c.partState p 2 6
      ((c.publishLead p).publishEngines p).bistOver

end Chip

end Sys2Proof.Machine
end

