-- ==== Sys2Proof/Machine/DeviceReset.lean ====
section
/-! DEFINITION. Device resets and what follows them (R420, R425, R469 to R472), the power-on state, and G9s that go quiet (R426, R427). -/

namespace Sys2Proof.Machine

open Sys2Proof

/-- Pages of the T-die whose fields outlive a device reset (R382, R439, R440). -/
def keptPages : List Page := [.TIME, .RESET, .HEN]
/-- Fields outside those pages that a device reset leaves: the straps, the defect map of the state record, what the inputs and sensors of the
supply show, the identity. -/
def keptFields : List Reg :=
  [.DEVICE_HOST_CFG, .DEVICE_BOOT_SRC, .DEVICE_STEPPING, .PARTITION_DEGRADED, .PARTITION_ENGINES_VACANT, .PARTITION_SPARES, .PARTITION_CORES_VACANT,
   .PARTITION_MIOBOR_VACANT, .PARTITION_MULES_VACANT, .PARTITION_BANKS_VACANT, .ENGINES_PHYS_OK, .ENGINES_LAST_BIST_AT, .POWER_STAGE, .POWER_PF_WARN,
   .POWER_PF_HOLD, .POWER_RAIL_MV, .POWER_RAIL_CURRENT, .THERMAL_TJ, .THERMAL_TRIPPED, .CONTEXT_IDENTITY_OK, .CONTEXT_ROM_VER]
/-- A field element that a device reset leaves, by its key. -/
def keptKey (k : Nat) : Bool :=
  let n := k / (64 * 4096)
  if regsOfCOMMON.any fun r => r.ctorIdx = n then keptPages.any fun g => g.ctorIdx = k % 64
  else (keptPages.flatMap Page.regs ++ keptFields).any fun r => r.ctorIdx = n

namespace Chip

/-! The cluster (R426, R427) -/

/-- The G9s that hold a pod of a slice which also holds a pod of the G9 `g`. -/
def sharers (c : Chip) (g : Nat) : List Nat :=
  ((c.slices.filter fun s => (s.pods c.grid).any fun pod => pod / 16 = g).flatMap fun s => (s.pods c.grid).map (· / 16)).foldl addOnce []

/-- Another G9 is down or up again, as this one takes it (R300). -/
def setDown (c : Chip) (idx : Nat) (isDown : Bool) : Chip :=
  let c := { c with down := if isDown then addOnce c.down idx else c.down.erase idx }
  if isDown then c else (allParts.filter fun q => !c.bypassed q).foldl (fun c q => c.sendHeld q) c

/-- The manager takes a worker as down or up: event 0x3B03, and G9_STATE to the G9s that share a slice with it. -/
def workerChanged (c : Chip) (idx st cause : Nat) : Chip :=
  let c := (c.henAny c.leadPart 0x3B03).setDown idx (st ≠ 1)
  ((c.sharers idx).filter fun g => g ≠ idx && g ≠ c.clusterIndex).foldl (fun c g => c.sendState g idx st cause) c

/-- The standby manager takes the cluster role, as master without a step (R387, R427). -/
def takeRole (c : Chip) : Chip := (c.setReg .DEVICE_ROLE 0 0 0).newRoot c.clusterIndex

/-- The manager's tables that go to the standby with a beat (R427): the pool's leases and the slice table, whole, so with every change. -/
def mirrorArgs (c : Chip) : List Nat :=
  (c.leases.flatMap fun e => [0, e.1, e.2.1, e.2.2.1, e.2.2.2]) ++ (c.slices.flatMap fun s => [1, s.num, s.job, c.partFid s.coordinator])
    ++ c.sliceNums.flatMap fun e => [1, e.1, e.2.1, e.2.2]

/-- CLUSTER_BEAT goes out every 10 ms: a worker's to the manager, the manager's to the standby with its tables. The key 64 holds when the last one
went. -/
def beatOut (c : Chip) : Chip :=
  let dst := if c.isManager then (if c.standby = 0xFF then none else some (leadFidOf c.standby)) else some c.mgrFid
  match dst, SMap.find? c.beats 64 with
  | none, _ => c
  | some d, last =>
    if !c.leadRuns || (match last with | some t => decide (c.now < t + 10000000) | none => false) then c
    else
      let c := ({ c with beats := SMap.insert c.beats 64 c.now }).pnotice c.leadPart d 0x8F []
      if c.isManager then c.peerOut c.leadPart d "MIRROR" c.mirrorArgs else c

/-- CLUSTER_BEAT arrives at the lead partition: a down worker is up again. -/
def beatIn (c : Chip) (p src : Nat) : Chip :=
  let c := c.logMsg p src 0x8F 0 c.now false false
  let idx := (src - 0xFF000) / 16
  if p ≠ c.leadPart || src < 0xFF000 || 32 ≤ idx then c
  else
    let c := { c with beats := SMap.insert c.beats idx c.now }
    if c.isManager && c.down.contains idx then c.workerChanged idx 1 0 else c

/-- 50 ms without a beat of a worker that has sent one. -/
def beatLost (c : Chip) (idx : Nat) : Chip :=
  match SMap.find? c.beats idx with
  | none => c
  | some t =>
    if !c.isManager || 64 ≤ idx || !c.leadRuns || c.down.contains idx || c.now < t + 50000000 then c else c.workerChanged idx 0 0

/-- 50 ms without a beat of the manager at the standby, whose lead partition runs (R23, R24). -/
def standbyTakes (c : Chip) : Chip :=
  if c.reg .DEVICE_ROLE = 2 && c.leadRuns && decide (SMap.get 0 c.beats c.mgr + 50000000 ≤ c.now) then c.takeRole else c

/-- G9_STATE arrives at a partition: the manager takes it as word of the worker itself, the standby as word of the manager, any other as the
manager's. -/
def g9State (c : Chip) (p src tag idx st cause : Nat) : Chip :=
  c.prequest p src tag 0x8C fun c =>
    let c := (c.preply p src tag 0x8C 0x00).count .RESET_G9_STATE_RX
    let c := c.henPart p 0x0408 [idx, st]
    if p ≠ c.leadPart then c
    else if c.isManager then c.workerChanged idx st cause
    else
      let c := c.setDown idx (st ≠ 1)
      if idx ≠ c.mgr || st = 1 then c
      else if c.reg .DEVICE_ROLE = 2 then c.takeRole
      else if c.standby = 0xFF then c
      else c.newRoot c.standby

/-! A device reset -/

/-- A port's link goes down and its configuration is as after reset (R337). -/
def portReset (c : Chip) (hp : Nat) : Chip :=
  let c := c.modHostPort hp fun h => { perst := h.perst, demoted := h.demoted, lastBeat := h.lastBeat }
  ((c.setReg .HOSTPORT_LINK_UP hp 0 0).setReg .HOSTPORT_LINK_SPEED hp 0 0).setReg .HOSTPORT_LINK_WIDTH hp 0 0

/-- What of a partition outlives a device reset: the identity map and the defect map of the MRAM. Every partition in service restarts, and the lead decides
for the whole domain (R136). -/
def partWiped (s : Part) (now cause : Nat) (out : List Nat) (p : Nat) : Part :=
  { topo := { idMap := s.topo.idMap, boardMap := s.topo.boardMap, retired := s.topo.retired, retiredBoards := s.topo.retiredBoards
              extra := s.topo.extra }
    engMap := s.engMap, lhAt := now, stops := [(0x40, now, some cause)]
    restarting := !out.contains p, resolve := if out.contains p then [] else Chip.allParts.filter fun q => !out.contains q }

/-- Everything outside the T-die is reset: contexts are free, memory is zero, pages hold their reset values, no transaction or slice is known
(R331, R420). -/
def wipe (c : Chip) (cause : Nat) : Chip :=
  let had := (c.ctxs.filter fun e => e.2.state ≠ 0).length
  let out := allParts.filter c.outOfService
  let parts := allParts.map fun p => (p, partWiped (c.part p) c.now cause out p)
  let c := { c with
    regs := { vals := c.regs.vals.filter fun e => keptKey e.1, pend := [], hold := c.regs.hold.filter fun e => keptKey e.1 }
    latches := [], phase := [], cmds := [], ctxs := [], slices := [], clusters := [], cutTxns := [], beats := [], down := []
    verify := [], circuitSeen := []
    hostMem := c.hostMem.filter fun e => e.1 / 2 ^ 64 < 2 || 3 ≤ e.1 / 2 ^ 64
    lockKept := c.lockKept.filter fun p => out.contains p
    sensors := [], tjs := [], cool := [], confReleased := 0, fwFrom := none, dies := c.dies.map fun e => (e.1, { stages := e.2.stages, calmAt := e.2.calmAt })
    parts := parts.filter fun e => e.2 ≠ {} }
  let c := [0, 1].foldl (fun c hp => c.portReset hp) c
  let c := allParts.foldl (fun c p =>
    let c := c.setReg .RING_BYPASS (p / 4) 0 (setBit (c.reg .RING_BYPASS (p / 4)) (p % 4) true)
    let c := c.setReg .DEVICE_IN_SERVICE 0 0 (setBit (c.reg .DEVICE_IN_SERVICE) p false)
    if out.contains p then c
    else ((c.partState p 2 2).setReg .PARTITION_LAST_CAUSE p 0 cause).setReg .PARTITION_LAST_RESET_AT p 0 c.now) c
  let c := [0, 1].foldl (fun c i => c.setReg .CONTEXT_FW_VER i 0 c.fwVersion) c
  if had = 0 then c else c.henDevAny 0x3804

/-- Fault device resets within 60 minutes (R425). -/
def recentDevFaults (c : Chip) : List Nat := c.devFaults.filter fun t => c.now < t + 3600000000000

/-- A device reset with its path (R420, R471): dossier, G9_STATE, the flush to the host, then the reset; the cold path where no state record is
held (R470). -/
def deviceDown (c : Chip) (kind cause bound : Nat) : Chip :=
  let c := c.dossier 0x4002 0xFF cause bound (allParts.any c.locked)
  let c := c.sendOwnState 0 cause
  let n := (c.recentDevFaults).length
  let cold : Bool := kind == 2 || !c.mram.state
  let c := c.henDev 0x0401 [cause, if cold then 2 else 1, n]
  let c := ((c.flushStart 1).flushSettle).wipe cause
  let c := ((c.setReg .RESET_DEVICE_STATE 0 0 1).setReg .RESET_LAST_DEVICE_CAUSE 0 0 cause).setReg .RESET_LAST_DEVICE_RESET_AT 0 0 c.now
  let c := (c.setReg .RESET_FAULTS_60MIN 0 0 n).setReg .BOOT_STATE_VALID 0 0 (ofBool c.mram.state)
  let c := (c.setReg .BOOT_PATH 0 0 (if cold then 1 else 2)).setReg .BOOT_BOOT_STAGE 0 0 (if cold then 1 else 5)
  ({ c with verifyDue := cold }.readBlob).publishTime

/-- A fault calls for a device reset: a second within 60 minutes takes the G9 out of service. One that meets bring-up begins it again (R472); one that
comes before that reset is asserted, 10 ms after it began (R471), adds nothing, but that stage 6 is the cause of a reset where a thermal trip is
filtered in the same cycle (R457). -/
def deviceFault (c : Chip) (cause : Nat) : Chip :=
  let bound := if cause = 6 ∨ cause = 7 then 100000 else 2000000
  let at_ := c.reg .RESET_LAST_DEVICE_RESET_AT
  if c.g9Out then c
  else if c.reg .RESET_DEVICE_STATE = 1 ∧ c.reg .RESET_LAST_DEVICE_CAUSE ≠ 0 ∧ c.now < at_ + 10000000 then
    if cause = 6 ∧ c.reg .RESET_LAST_DEVICE_CAUSE = 7 ∧ c.now = at_ then c.setReg .RESET_LAST_DEVICE_CAUSE 0 0 6 else c
  else if c.reg .RESET_DEVICE_STATE = 1 then
    c.deviceDown (if c.reg .BOOT_PATH = 1 ∧ c.reg .BOOT_BOOT_STAGE ≠ 5 then 2 else 1) cause bound
  else if !c.recentDevFaults.isEmpty then c.g9Leave cause
  else (({ c with devFaults := c.recentDevFaults ++ [c.now] }).count .RESET_DEVICE_RESETS_FAULT).deviceDown 1 cause bound

/-- DEVICE_RESET: of host software, 1 warm or 2 cold, with the straps as sampled on the warm path; or a fault of the host-side complex (R27). -/
def deviceReset (c : Chip) (kind cause cfg src : Nat) : Chip :=
  if cause = 8 then c.deviceFault 8
  else if cause ≠ 1 || !(kind = 1 || kind = 2) || c.g9Out then c
  else
    let c := (c.count .RESET_DEVICE_RESETS_HOST).deviceDown kind 1 2000000
    if c.reg .BOOT_PATH = 2 then c.setStraps cfg src else c

/-- Every partition in service is ready: the device is ready, event 0x0402. -/
def deviceReady (c : Chip) : Chip :=
  if c.reg .RESET_DEVICE_STATE ≠ 1 || !allParts.all (fun p => c.reg .RESET_PART_STATE 0 p ≠ 2) then c
  else
    let n := c.now - c.reg .RESET_LAST_DEVICE_RESET_AT
    let c := (c.setReg .RESET_DEVICE_STATE 0 0 0).setReg .BOOT_BOOT_STAGE 0 0 0
    let c := (c.setReg .BOOT_LAST_BOOT_TICKS 0 0 (min n (2 ^ 32 - 1))).henDev 0x0402 [trunc 32 n, n / 2 ^ 32]
    if c.reinstating then ({ c with reinstating := false }).henDev 0x0404 [0] else c

/-- A partition reports ready, and with the last the device. -/
def readyOn (c : Chip) (p : Nat) : Chip := (c.partReady p).deviceReady

/-! Power-on and cold boot (R425, R458, R469) -/

/-- The state that a power-on, or a loss of VAUX, leaves (R458): Bellwether reads 0, the volatile Hen buffer is empty, every page holds its reset
values. What the MRAM holds, the hosts' memory and the agents stay. -/
def powerOn (c : Chip) : Chip :=
  let parts := allParts.map fun p => (p, partWiped (c.part p) 0 1 c.mram.partsOut p)
  let d : Chip := { out := c.out, freeCtr := c.freeCtr, hostMem := c.hostMem.filter fun e => e.1 / 2 ^ 64 < 2 || 3 ≤ e.1 / 2 ^ 64
                    agents := c.agents, planMram := c.planMram, mram := c.mram, rails := [], refLost := c.refLost
                    verifyDue := true, leases := c.leases, faults := c.faults, devFaults := c.devFaults, channels := c.channels
                    hostPorts := (c.hostPorts.map fun e => (e.1, { perst := e.2.perst : HostPort })).filter fun e => e.2 ≠ {}
                    parts := parts.filter fun e => e.2 ≠ {} }
  let d := allParts.foldl (fun (d : Chip) p =>
    let d := d.setReg .RING_BYPASS (p / 4) 0 (setBit (d.reg .RING_BYPASS (p / 4)) (p % 4) true)
    let d := d.setReg .DEVICE_IN_SERVICE 0 0 (setBit (d.reg .DEVICE_IN_SERVICE) p false)
    if c.mram.partsOut.contains p then d.partState p 3 0 else d.partState p 2 2) d
  let d := (d.setReg .RESET_DEVICE_STATE 0 0 1).setReg .BOOT_PATH 0 0 1
  (d.setReg .BOOT_BOOT_STAGE 0 0 1).publishTime

/-- A G9 that was out of service comes up in that state (R425). -/
def holdOut (c : Chip) : Chip :=
  let c := allParts.foldl (fun c p => c.partState p 4 0) c
  { ((c.setReg .RESET_DEVICE_STATE 0 0 2).setReg .BOOT_BOOT_STAGE 0 0 0).faultPin true with outPowered := true }

/-- A cold boot runs from T: straps, identity, state record and blob; then it waits for the firmware, for BIST and for the partitions. After a
power-on everything of the T-die begins anew; any other cold boot follows a device reset on the cold path. -/
def coldBoot (c : Chip) (fresh : Bool) (cfg src : Nat) (identity : Bool) : Chip :=
  if !fresh && !(c.reg .RESET_DEVICE_STATE = 1 && c.reg .BOOT_BOOT_STAGE = 1) then c
  else
    let c := (if fresh then c.powerOn else c).setStraps cfg src
    let c := [0, 1].foldl (fun c i => c.setReg .CONTEXT_IDENTITY_OK i 0 (ofBool identity)) c
    let c := if identity then c else c.henDevAny 0x0201
    let c := (c.setReg .BOOT_STATE_VALID 0 0 (ofBool c.mram.state)).readBlob.publishTime
    if fresh && c.mram.g9Out then c.holdOut
    else (c.setReg .BOOT_BOOT_STAGE 0 0 2).setReg .BOOT_FW_WAITING 0 0 (1 - src % 2)

/-- DEVICE_REINSTATE: honoured where the G9 is out of service and a power-on has come since (R425). -/
def deviceReinstate (c : Chip) : Chip :=
  if !(c.g9Out && c.outPowered) then c.count .RESET_REINSTATE_REFUSED
  else
    let c := { c.faultPin false with devFaults := [], faults := [], channels := [], outPowered := false, reinstating := true, lockKept := []
                                     mram := { c.mram with g9Out := false, partsOut := [] } }
    let c := allParts.foldl (fun c p => (c.partState p 2 2).setReg .RESET_FAULTS_10MIN 0 p 0) c
    (c.setReg .RESET_DEVICE_STATE 0 0 1).deviceDown 2 1 2000000

/-- VAUX below 1.65 V for 1,000 ticks (R458). -/
def vauxLoss (c : Chip) : Chip := c.powerOn

end Chip

end Sys2Proof.Machine
end

