-- ==== Sys2Proof/Machine/Power.lean ====
section
/-! DEFINITION. Supplies, sag stages, heat and reference clocks (R315, R446, R450 to R463). -/

namespace Sys2Proof.Machine

open Sys2Proof

namespace Chip

/-! Readings (R315) -/

/-- A reading takes a value; when it did is kept for as long as a coarse reading may look back. -/
def setReading (c : Chip) (r : Reg) (idx v : Nat) : Chip :=
  let k := r.key 0 idx
  let old := SMap.get [] c.readings k
  let start := c.now / 100000000 * 100000000 - 100000000
  let before := (old.filter fun e => e.1 ≤ start).getLast?
  let kept := (match before with | some e => [e] | none => []) ++ old.filter fun e => start < e.1
  ({ c with readings := SMap.set [] c.readings k (kept ++ [(c.now, trunc r.width v)]) }).setReg r 0 idx v

/-! CORE_CLK (R445, R446, R452, R453) -/

/-- The frequency that a die should have: the loop's value or the pin, within floor and ceiling, then what protection and a missing
acknowledgement allow. -/
def wantMhz (c : Chip) (d : Nat) : Nat :=
  let ceil := c.reg .LOOPS_DVFS_CEIL 0 d
  let v := if c.reg .LOOPS_DVFS_PIN 0 d = 1 then ceil else (c.die d).loop
  let v := clampTo (min (c.reg .LOOPS_DVFS_FLOOR 0 d) ceil) ceil v
  if (c.die d).throttled || (c.die d).capped then min 1000 v else v

/-- CORE_CLK of a die changes: it stops while the PLL relocks, in region 0x50 of its partitions. -/
def clockTo (c : Chip) (d mhz : Nat) : Chip :=
  if c.reg .LOOPS_APPLIED_MHZ 0 d = mhz then c
  else (dieParts d).foldl (fun c p => c.stopRegion p 0x50 none) ((c.setReading .LOOPS_APPLIED_MHZ d mhz).count .LOOPS_DVFS_CHANGES)

/-- LIMIT_CAUSE of a die: thermal before supply. -/
def publishLimit (c : Chip) (d : Nat) : Chip :=
  c.setReg .LOOPS_LIMIT_CAUSE 0 d (if (c.die d).throttled then 1 else if (c.die d).capped then 2 else 0)

/-- A die follows what it should have: down at once, the voltage after it; up once the regulator has acknowledged. -/
def follow (c : Chip) (d : Nat) : Chip :=
  let w := c.wantMhz d
  let cur := c.reg .LOOPS_APPLIED_MHZ 0 d
  let c := c.publishLimit d
  if w < cur then (c.clockTo d w).modDie d fun x => { x with want := some w }
  else if cur < w then c.modDie d fun x => { x with want := some w }
  else c

/-- One turn of the DVFS loop of each die that has a partition in service (R444), with the 10 ms mean package power. -/
def dvfsTick (c : Chip) (watts : Nat) : Chip :=
  let c := c.setReading .POWER_POWER_W 0 watts
  let limit := c.reg .POWER_POWER_LIMIT
  ((List.range 4).filter fun d => (dieParts d).any fun p => !c.bypassed p).foldl (fun c d =>
    let ceil := c.reg .LOOPS_DVFS_CEIL 0 d
    let floor := min (c.reg .LOOPS_DVFS_FLOOR 0 d) ceil
    let c := if c.reg .LOOPS_DVFS_PIN 0 d = 1 || (c.die d).throttled then c
      else if limit < watts then c.modDie d fun x => { x with loop := clampTo floor ceil (x.loop - 100) }
      else if watts + 20 < limit then c.modDie d fun x => { x with loop := clampTo floor ceil (x.loop + 100) }
      else c
    c.follow d) c

/-- The regulator of a die acknowledges: the set point is applied, and a rise takes effect; a cap for want of an acknowledgement ends. -/
def avsAck (c : Chip) (d : Nat) : Chip :=
  let x := c.die d
  let c := match x.want with
    | none => c
    | some w => (c.setReading .POWER_SETPOINT_MV d (clampTo 650 850 (Config.setPoint d w))).clockTo d w
  ((c.modDie d fun x => { x with want := none, capped := false }).publishLimit d).follow d

/-- No valid acknowledgement after 3 attempts: the set point stays, and CORE_CLK is capped. -/
def avsTimeout (c : Chip) (d : Nat) : Chip :=
  if (c.die d).want.isNone then c
  else
    let c := ((c.count .POWER_AVS_FAILS).modDie d fun x => { x with want := none, capped := true }).henDevAny 0x0502
    let w := c.wantMhz d
    (if w < c.reg .LOOPS_APPLIED_MHZ 0 d then c.clockTo d w else c).publishLimit d

/-! Sag (R454 to R458) -/

/-- The highest stage that a die has entered. -/
def topStage (c : Chip) (d : Nat) : Nat := (c.die d).stages.foldl (fun m e => max m e.1) 0

/-- A BIST of a partition runs: on the cold path, or after its reinstatement. -/
def bistRuns (c : Chip) (p : Nat) : Bool :=
  (c.part p).bist || (c.reg .BOOT_BOOT_STAGE == 4 && c.reg .RESET_STAGE 0 p != 6)

/-- A die leaves stage 0, which abandons the BIST of its partitions, or comes back to it (R470). -/
def bistSag (c : Chip) (d old new : Nat) : Chip :=
  if old = 0 then (dieParts d).foldl (fun c p => if c.bistRuns p then c.count .ENGINES_BIST_ABANDONED p else c) c
  else if new = 0 then c.modDie d fun x => { x with calmAt := some c.now }
  else c

/-- The die's stage follows the stages entered: event 0x0504, and what its partitions shed or resume. -/
def stageTo (c : Chip) (d peak : Nat) : Chip :=
  let old := c.reg .POWER_STAGE 0 d
  let new := c.topStage d
  let c := c.setReading .POWER_SAG_MV d peak
  if old = new then c
  else
    let was := (dieParts d).map fun p => (p, c.stageOf p)
    let c := ((c.setReg .POWER_STAGE 0 d new).henDev 0x0504 [d, old, new, peak]).bistSag d old new
    let c := was.foldl (fun c e => c.stageChanged e.1 e.2 (c.stageOf e.1)) c
    if old < 5 ∧ 5 ≤ new then c.flushStart 5 else c

/-- A die's sag has exceeded a stage's threshold for its filter time; stage 6 is a fault device reset. -/
def sagEnter (c : Chip) (d stage peak : Nat) : Chip :=
  if stage = 0 || 6 < stage || (SMap.find? (c.die d).stages stage).isSome then c
  else
    let c := c.modDie d fun x => { x with stages := SMap.insert x.stages stage c.now }
    let c := (c.countN .POWER_STAGE_ENTRIES 0 1 (stage - 1)).stageTo d peak
    if stage = 6 then c.deviceFault 6 else c

/-- The stages of a mask clear together; held work resumes where it stopped. -/
def sagClear (c : Chip) (d mask peak : Nat) : Chip :=
  (c.modDie d fun x => { x with stages := x.stages.filter fun e => !bit mask e.1 }).stageTo d peak

/-- The rails that rise before a rail (R450, R451). -/
def railsBefore (r : Nat) : List Nat :=
  match r with
  | 9 => [] | 6 => [9] | 7 => [6] | 8 => [0, 1, 2, 3] | 4 => [8] | 5 => [4] | _ => [7]

/-- A rail reaches tolerance: one before its predecessor is logged. -/
def railGood (c : Chip) (r mv : Nat) : Chip :=
  if 9 < r then c
  else
    let c := c.setReading .POWER_RAIL_MV r mv
    if c.rails.contains r then c
    else
      let early := (railsBefore r).any fun k => !c.rails.contains k
      let rs := c.rails ++ [r]
      let c := { c with rails := rs, railsAt := if (List.range 10).all rs.contains then some c.now else none }
      if early then (c.count .POWER_SEQ_FAULTS).henDev 0x0501 [r] else c

/-- A rail below 92 % of nominal: event 0x0506, every die at stage 6, and a device reset. During a thermal trip the board may remove rails; a
cold boot then follows (R461). -/
def railLow (c : Chip) (r : Nat) : Chip :=
  if r < 4 || 8 < r then c
  else
    let c := { c with rails := c.rails.erase r, railsAt := none }
    if c.reg .THERMAL_TRIPPED = 1 then (c.setReg .BOOT_PATH 0 0 1).setReg .BOOT_BOOT_STAGE 0 0 1
    else
      let c := (c.count .POWER_RAIL_UV).henDev 0x0506 [r]
      let c := (List.range 4).foldl (fun c d =>
        if (SMap.find? (c.die d).stages 6).isSome then c
        else
          let c := c.modDie d fun x => { x with stages := SMap.insert x.stages 6 c.now }
          (c.countN .POWER_STAGE_ENTRIES 0 1 5).stageTo d (c.reg .POWER_SAG_MV 0 d)) c
      c.deviceFault 6

/-- Every partition goes from the stages it had to those it has now. -/
def stagesFrom (c : Chip) (was : List (Nat × Nat)) : Chip := was.foldl (fun c e => c.stageChanged e.1 e.2 (c.stageOf e.1)) c

/-- PF_WARN_N asserts (R463): the G9 acts as at stage 5 on every die, and Hen flushes with reason 2. -/
def pfWarn (c : Chip) : Chip :=
  if c.reg .POWER_PF_WARN = 1 then c
  else
    let was := allParts.map fun p => (p, c.stageOf p)
    let c := ((c.setReg .POWER_PF_WARN 0 0 1).setReg .POWER_PF_HOLD 0 0 1).count .POWER_PF_WARNS
    ((c.henDevAny 0x0505).flushStart 2).stagesFrom was

/-- PF_WARN_N has been deasserted for 10 ms. -/
def pfRelease (c : Chip) : Chip :=
  if c.reg .POWER_PF_HOLD = 0 then c
  else
    let was := allParts.map fun p => (p, c.stageOf p)
    ((c.setReg .POWER_PF_WARN 0 0 0).setReg .POWER_PF_HOLD 0 0 0).stagesFrom was

/-! Heat (R459 to R461) -/

/-- Junction sensors of a die. -/
def sensorsOf (d : Nat) : Nat := if d < 4 then 16 else if d < 12 then 2 else 1

/-- Tj of a die in °C. -/
def tjOf (c : Chip) (d : Nat) : Int := let v := c.reg .THERMAL_TJ 0 d; if v < 512 then v else (v : Int) - 1024

/-- What a sample makes of a die's sensors: 0 good, 1 high once, 2 bad. -/
def judge (old : List Nat) (temps : List Int) : List Nat :=
  let ok := fun (i : Nat) => old.getD i 0 ≠ 2 && decide (-40 ≤ temps.getD i 0) && decide (temps.getD i 0 ≤ 150)
  (List.range temps.length).map fun i =>
    if !ok i then 2
    else
      let rest := (List.range temps.length).filter fun j => j ≠ i && ok j
      let sum := (rest.map fun j => temps.getD j 0).foldl (· + ·) 0
      if !rest.isEmpty && decide (sum + 25 * rest.length < temps.getD i 0 * rest.length) then (if old.getD i 0 = 1 then 2 else 1) else 0

/-- Protection of CORE_CLK begins or ends: event 0x3C02, PROTECT_OVERRIDES (R446). -/
def clockGuard (c : Chip) (d : Nat) (on : Bool) : Chip :=
  let c := c.modDie d fun x => { x with throttled := on }
  let c := c.setReg .THERMAL_THROTTLED 0 0 (setBit (c.reg .THERMAL_THROTTLED) d on)
  (((c.count .LOOPS_PROTECT_OVERRIDES).henDevAny 0x3C02).publishLimit d).follow d

/-- The trip ends once every die reads below 95 °C. -/
def tripOver (c : Chip) : Chip :=
  if c.reg .THERMAL_TRIPPED = 1 ∧ (List.range 32).all (fun d => decide (c.tjOf d < 95)) then
    (c.setReg .THERMAL_TRIPPED 0 0 0).emit (.board "THERM_TRIP_N" [1])
  else c

/-- 115 °C in two samples in a row: the G9 trips. -/
def trip (c : Chip) : Chip :=
  if c.reg .THERMAL_TRIPPED = 1 then c
  else
    let c := ((c.count .THERMAL_TRIPS).deviceFault 7).setReg .THERMAL_TRIPPED 0 0 1
    (c.emit (.board "THERM_TRIP_N" [0])).henDevAny 0x0602

/-- The sensors of a die are sampled. -/
def thermalSample (c : Chip) (d : Nat) (temps : List Int) : Chip :=
  let temps := (List.range (sensorsOf d)).map fun i => temps.getD i 0
  let old := SMap.get [] c.sensors d
  let new := judge old temps
  let fresh := ((List.range temps.length).filter fun i => new.getD i 0 = 2 && old.getD i 0 ≠ 2).length
  let c := { c with sensors := SMap.set [] c.sensors d (if new.all (· = 0) then [] else new) }
  let c := (List.range fresh).foldl (fun c _ => (c.count .THERMAL_SENSOR_BAD).henDevAny 0x0603) c
  let good := (List.range temps.length).filter fun i => new.getD i 0 ≠ 2
  let c := c.setReg .THERMAL_SENSORS_GOOD 0 d good.length
  let c : Chip := match (good.map fun i => temps.getD i 0 : List Int) with
    | [] => c
    | t :: r => c.setReading .THERMAL_TJ d ((r.foldl max t + 1024) % 1024).toNat
  let tj : Int := c.tjOf d
  let hot := if 115 ≤ tj then SMap.get 0 c.tripped d + 1 else 0
  let l := lastN 10 (SMap.get [] c.tjs d ++ [(tj + 512).toNat])
  let sum : Nat := l.sum
  let lim : Nat := 512 + c.reg .THERMAL_THROTTLE_C
  let few : Bool := decide (d < 4) && decide (good.length < 4)
  let reached : Bool := few || (decide (l.length = 10) && decide (10 * lim ≤ sum))
  let below : Bool := !few && decide (sum < l.length * (lim - 5))
  let c := { c with tripped := SMap.set 0 c.tripped d (min hot 2), tjs := SMap.insert c.tjs d l
                    cool := if below then (if (SMap.find? c.cool d).isSome then c.cool else SMap.insert c.cool d c.now) else SMap.erase c.cool d }
  let c := if d < 4 && reached && !(c.die d).throttled then ((c.count .THERMAL_THROTTLES).henDevAny 0x0601).clockGuard d true else c
  (if 2 ≤ hot then c.trip else c).tripOver

/-- The mean has stayed 5 °C below the limit for 10 ms. -/
def throttleRelease (c : Chip) (d : Nat) : Chip :=
  match SMap.find? c.cool d with
  | some t => if d < 4 && (c.die d).throttled && decide (t + 10000000 ≤ c.now) then c.clockGuard d false else c
  | none => c

/-! Reference clock and SMBus (R462, R463) -/

/-- TIME_REF without an edge for 100 ns. -/
def refLoss (c : Chip) : Chip :=
  if c.refLost then c else (({ c with refLost := true }).count .BOOT_TIME_REF_LOSSES).henDev 0x0503 [1]
/-- 10 ms of valid edges. -/
def refBack (c : Chip) : Chip := if c.refLost then ({ c with refLost := false }).henDev 0x0503 [0] else c
/-- The SMBus clock is held low for 25 ms. -/
def smbusTimeout (c : Chip) : Chip := (c.count .BOOT_SMB_ERRORS).emit (.board "SMBUS_RELEASE" [])

end Chip

end Sys2Proof.Machine
end

