-- ==== Sys2Proof/Machine/Snapshots.lean ====
section
/-! DEFINITION. Device snapshots (R403, R405), and the control port whose lanes all go down (R23). -/

namespace Sys2Proof.Machine

open Sys2Proof

namespace Chip

/-- A partition's pages are not copied: it is in reset or out of service, or its die is at or beyond the 45 mV stage. -/
def snapMisses (c : Chip) (p : Nat) : Bool := c.bypassed p || decide (2 ≤ c.stageOf p)

/-- The CTXQ pages of a partition. -/
def ctxqPages (p : Nat) : List (Page × Nat) := (List.range 64).map fun x => (.CTXQ, 16 * x + p)

/-- A device snapshot is taken. -/
def deviceSnapshot (c : Chip) : Chip :=
  let ps := allParts.filter fun p => !c.snapMisses p
  let pages := devicePages ++ ps.flatMap fun p => partitionPages p ++ ctxqPages p
  let c := pages.foldl (fun c e => c.snapshotPage e.1 e.2) c
  let missed := (allParts.filter c.snapMisses).foldl (fun m p => setBit m p true) 0
  let c := (c.setReg .COUNTERS_SNAP_MISSED 0 0 missed).setReg .COUNTERS_SNAP_SEQ 0 0 (trunc 32 (c.reg .COUNTERS_SNAP_SEQ + 1))
  let c := (c.setReg .COUNTERS_SNAP_AT 0 0 c.now).setReg .COUNTERS_SNAP_STATE 0 0 2
  (c.count .COUNTERS_SNAPSHOTS).raise .COUNTERS 0 0

/-- SNAP_TIME. -/
def snapTime (c : Chip) : Nat := c.reg .COUNTERS_SNAP_TIME_LO + c.reg .COUNTERS_SNAP_TIME_HI * 2 ^ 32

/-- The commit of SNAP_ARM: a time less than 10,000 ticks ahead is late. -/
def snapArmed (c : Chip) : Chip :=
  if c.reg .COUNTERS_SNAP_ARM = 0 then if c.reg .COUNTERS_SNAP_STATE = 1 then c.setReg .COUNTERS_SNAP_STATE 0 0 0 else c
  else if c.snapTime < c.now + 10000 then (c.setReg .COUNTERS_SNAP_STATE 0 0 3).setReg .COUNTERS_SNAP_ARM 0 0 0
  else c.setReg .COUNTERS_SNAP_STATE 0 0 1

/-- Bellwether reaches SNAP_TIME. -/
def snapReached (c : Chip) : Chip :=
  if c.reg .COUNTERS_SNAP_ARM = 1 ∧ c.reg .COUNTERS_SNAP_STATE ≠ 3 ∧ c.snapTime ≤ c.now then
    c.deviceSnapshot.setReg .COUNTERS_SNAP_ARM 0 0 0
  else c

/-- A page SNAPSHOT: it is ignored and counted on a page of a partition whose die is at or beyond the 45 mV stage (R348, R403). -/
def pageSnapshot (c : Chip) (g : Page) (inst : Nat) : Chip :=
  match pagePart g inst with
  | some p => if 2 ≤ c.stageOf p then c.count .COUNTERS_SNAPSHOTS_MISSED else c.snapshotPage g inst
  | none => c.snapshotPage g inst

/-- A trigger of a core, which R313 disables while a confidential context is resident (R396, R400). -/
def coreTrigger (c : Chip) (p : Nat) : Chip := if c.locked p then c else c.trigger p 5

end Chip

end Sys2Proof.Machine
end

