-- ==== Sys2Proof/Machine/HostWrite.lean ====
section
/-! DEFINITION. Host writes with what they set off (R141, R339 to R348, R352, R354, R356 to R358): commits, queue registers, WO fields, interrupt
registers, BAR2 blocks, and the failover of the host ports. -/

namespace Sys2Proof.Machine

open Sys2Proof

/-- The queues whose registers lie on a page. -/
def pageQueues (g : Page) (inst : Nat) : List QId :=
  match g with
  | .ROUTE => [.route inst]
  | .SCHED => [.sched inst]
  | .CONTEXT => [.context inst]
  | .CTXQ => [.compute (inst / 16) (inst % 16), .mule (inst / 16) (inst % 16)]
  | _ => []

/-- A span of `n` bits from byte `off` covers bits of a field's first element. -/
def hits (r : Reg) (off n : Nat) : Bool := (RegFile.overlap r 0 off n).isSome

/-- A span covers a command queue's base or size. -/
def hitsRing (i : QId) (off n : Nat) : Bool := hits (i.reg .base) off n || hits (i.reg .log2) off n

namespace Chip

/-! Queue registers (R141, R142, R205, R352, R362) -/

/-- The descriptor ring's registers were written: Q_HEAD and Q_TAIL follow Q_BASE. While Q_ENABLE is 1 it is left open which descriptors are
fetched. -/
def ringMoved (was c : Chip) (i : QId) (off n : Nat) : Chip :=
  let on : Bool := was.q i .enable == 1 && hitsRing i off n
  let c := if on then (((c.setQ i .base (c.freeVal 64)).setQ i .log2 (6 + c.drawn.freeVal 16 % 11)).drawn).drawn else c
  if hits (i.reg .base) off n then c.baseWritten i else c

/-- The completion ring's registers were written. While Q_ENABLE is 1 it is left open whether records go to the old ring or to the new one. -/
def cqMoved (was c : Chip) (i : QId) (off n : Nat) : Chip :=
  let hit : Bool := hits (i.reg .cqBase) off n || hits (i.reg .cqLog2) off n
  let on : Bool := was.q i .enable == 1 && hit
  let c := if !on then c
    else if c.freeVal 1 = 0 then c.drawn
    else ((c.setQ i .cqBase (was.q i .cqBase)).setQ i .cqLog2 (was.q i .cqLog2)).drawn
  if hits (i.reg .cqBase) off n then c.cqBaseWritten i else c

/-- A ring index at or above the ring size leaves open which descriptors execute: some index within the ring. -/
def indexWithin (c : Chip) (i : QId) (f : QField) (size : Nat) : Chip :=
  if c.q i f < size then c else (c.setQ i f (c.freeVal 16 % size)).drawn

/-- A queue's registers were written: the rings, the doorbell, Q_ENABLE, CQ_HEAD. -/
def queueWritten (was c : Chip) (i : QId) (off n : Nat) : Chip :=
  let c := cqMoved was (ringMoved was c i off n) i off n
  let any_ := fun (l : List QField) => l.any fun f => hits (i.reg f) off n
  let c := if c.q i .enable = 1 && any_ [.tail, .log2, .enable] then c.indexWithin i .tail (c.ringSize i) else c
  let c := if c.q i .enable = 1 && any_ [.cqHead, .cqLog2, .enable] then c.indexWithin i .cqHead (c.cqSize i) else c
  if hits (i.reg .tail) off n || hits (i.reg .cqHead) off n || hits (i.reg .enable) off n then c.fetch i i.ahead else c

/-! Interrupt registers (R355, R356) -/

/-- After a write: the vector is sent where the enabled causes became non-zero, and once more where a W1C write left an enabled bit set. -/
def intsWritten (was c : Chip) (g : Page) (inst off n : Nat) : Chip :=
  let w1c : Bool := hits .COMMON_INT_STATUS off n || hits .COMMON_CQ_WRITTEN off n
  let c := if c.enabled g inst ≠ 0 && (w1c || was.enabled g inst == 0) then c.msixPage g inst else c
  if g = .CTXQ then
    let en := fun (c : Chip) => c.reg .CTXQ_CTX_INT_STATUS inst &&& c.reg .CTXQ_CTX_INT_ENABLE inst
    if en c ≠ 0 && (hits .CTXQ_CTX_INT_STATUS off n || en was == 0) then c.msixCtx (inst / 16) (inst % 16) else c
  else c

/-! Failover (R310, R357, R358) -/

/-- The standby port: in dual active/standby mode the port that is not active, once it is standby again. -/
def isStandby (c : Chip) (hp : Nat) : Bool :=
  c.reg .DEVICE_HOST_CFG == 2 && c.reg .DEVICE_ACTIVE_PORT != hp && !(c.hostPort hp).demoted

/-- A command that has still to read or write the memory of its host. -/
def needsHost (y : Cmd) : Bool :=
  let o := y.d.opcode
  match y.q with
  | .route _ => [0x52, 0x5A, 0x62, 0x65, 0x71, 0x72].contains o || (o == 0x50 && y.started.isNone)
  | .sched _ => o == 0x42
  | .context _ => o == 0x90 || o == 0x92 || o == 0x94
  | .compute .. => o == 0x82 || o == 0x83 || (o == 0x80 && y.started.isNone)
  | _ => o == 0x21 || o == 0x22

/-- Commands and loads that still need the old host's memory complete with TIMEOUT. -/
def dropHostWork (c : Chip) (old : Nat) : Chip :=
  let c := allParts.foldl (fun c p =>
    ((c.part p).loads.filter fun l => l.port = old && l.plain.isNone).foldl (fun c l => c.loadTimeout p l) c) c
  (c.cmds.filter fun y => y.port = some old && needsHost y).foldl (fun c y =>
    let c := match y.q.part with
      | some p => c.modPart p fun s => { s with
          queryCmd := s.queryCmd.filter fun k => !(k.1 = y.q && k.2.1 = y.d.tag)
          bankCmd := s.bankCmd.filter fun k => !(k.q = y.q && k.tag = y.d.tag) }
      | none => c
    c.completeDesc y.q y.d 0x01 0) c

/-- A failover: the old port's queues stop, its confidential contexts are torn down, its open contexts are bound to the new port. -/
def failover (c : Chip) : Chip :=
  let old := c.reg .DEVICE_ACTIVE_PORT
  let new := 1 - old
  let c := (portQueues c old).foldl (fun c i => c.stopQueue i) c
  let c := (c.ctxs.filter fun e => e.2.conf && e.2.port = old).foldl (fun c e => c.forceTeardown e.1) c
  let c := c.dropHostWork old
  let c := c.setReg .DEVICE_ACTIVE_PORT 0 0 new
  let bind := fun (e : Nat × Ctx) => if e.2.state ≠ 0 && !e.2.conf && e.2.port == old then (e.1, { e.2 with port := new }) else e
  let c := { c with ctxs := c.ctxs.map bind }
  let down : Bool := c.reg .HOSTPORT_LINK_UP old == 0
  let c := (c.modHostPort old fun h => { h with demoted := down }).modHostPort new fun h => { h with lastBeat := c.now }
  (c.count .DEVICE_FAILOVERS).henDevAny 0x0101

/-- TAKEOVER by a port: ignored but from the standby port. -/
def takeover (c : Chip) (hp : Nat) : Chip := if c.isStandby hp then c.failover else c

/-- HEARTBEAT: of the active port only. -/
def heartbeat (c : Chip) (hp : Nat) : Chip :=
  if c.reg .DEVICE_HOST_CFG = 2 ∧ c.reg .DEVICE_ACTIVE_PORT = hp then c.modHostPort hp fun h => { h with lastBeat := c.now } else c

/-- No HEARTBEAT for HB_TIMEOUT ms: a failover where TAKEOVER_AUTO is 1, else FAILOVER_DUE on the standby port's page. -/
def beatTimeout (c : Chip) : Chip :=
  let a := c.reg .DEVICE_ACTIVE_PORT
  if c.reg .DEVICE_HOST_CFG ≠ 2 || !c.isStandby (1 - a) || c.now < (c.hostPort a).lastBeat + c.reg .DEVICE_HB_TIMEOUT * 1000000 then c
  else if c.reg .DEVICE_TAKEOVER_AUTO = 1 then c.failover
  else c.raise .HOSTPORT (1 - a) 0

/-! WO fields -/

/-- The WO fields that a write touches. -/
def woWritten (c : Chip) (port : Nat) (g : Page) (inst off n v : Nat) : Chip :=
  let val := fun (r : Reg) => RegFile.merge r 0 off n v 0
  let does := fun (r : Reg) (f : Chip → Chip) (c : Chip) => if val r = 1 then f c else c
  match g with
  | .LEARN => does .LEARN_ANALYSE_REQ (fun c => c.analyseReq port inst (val .LEARN_ANALYSE_JOB)) c
  | .CORES => c.ctlOp inst (c.reg .CORES_CTL_CTX inst) (c.reg .CORES_CTL_CORES inst) (val .CORES_CTL_OP)
  | .COUNTERS => does .COUNTERS_SNAP_NOW (fun c => c.deviceSnapshot) c
  | .TRACE =>
    does .TRACE_TRIG_NOW (fun c => c.trigger inst 0) (does .TRACE_STOP (fun c => c.traceStop inst) (does .TRACE_ARM (fun c => c.arm inst) c))
  | .HEN => does .HEN_NOTE (fun c => c.henNote) (does .HEN_MRAM_COPY (fun c => c.mramCopy) (does .HEN_FLUSH_NOW (fun c => c.flushStart 3) c))
  | .BOOT => does .BOOT_FW_GO (fun c => c.fwGo port) c
  | .HOSTPORT => does .HOSTPORT_HEARTBEAT (fun c => c.heartbeat port) c
  | _ => c

/-! Commits and boundaries (R340, R346, R388, R403, R437, R439, R441, R468) -/

/-- A field has a pending value. -/
def isPending (c : Chip) (r : Reg) (inst : Nat) : Bool := (SMap.find? c.regs.pend (r.key inst 0)).isSome
/-- A pending value is discarded. -/
def unpend (c : Chip) (r : Reg) (inst : Nat) : Chip := { c with regs := { c.regs with pend := SMap.erase c.regs.pend (r.key inst 0) } }

/-- A commit of OWNER is refused: a partition whose bit changes has a resident context, or an enabled ROUTE or SCHED queue. -/
def ownerRefused (c : Chip) : Bool :=
  match SMap.find? c.regs.pend (Reg.key .DEVICE_OWNER 0 0) with
  | none => false
  | some x => allParts.any fun p => bit x.v p != bit (c.reg .DEVICE_OWNER) p
      && (!(c.residents p).isEmpty || c.reg .ROUTE_Q_ENABLE p == 1 || c.reg .SCHED_Q_ENABLE p == 1)

/-- Values of a page that pass `ok` are applied; the dies follow a change of the loops. -/
def applyWith (c : Chip) (g : Page) (inst : Nat) (ok : Pend → Bool) : Chip :=
  let some_ : Bool := (gElems g).any fun e => match SMap.find? c.regs.pend (e.1.key inst e.2) with | some x => ok x | none => false
  if !some_ then c
  else
    let c := c.applyPage g inst ok
    if g = .LOOPS then (List.range 4).foldl (fun c d => c.follow d) c else c

/-- Takes a mask's value, and the field reads 0 again. -/
def takeMask (c : Chip) (r : Reg) (inst : Nat) (f : Nat → Chip → Chip) : Chip := f (c.reg r inst) (c.setReg r inst 0 0)

/-- A host port's masks of the RESET page name partitions that the port owns (R338). -/
def ownMask (c : Chip) (port m : Nat) : List Nat :=
  (setBitsOf 16 m).filter fun p => c.reg .DEVICE_HOST_CFG ≠ 3 || c.ownerPort p = port

/-- What an explicit commit sets off, beside the values that it applies. -/
def committed (was c : Chip) (port : Nat) (g : Page) (inst : Nat) : Chip :=
  match g with
  | .TIME => if was.isPending .TIME_SET_TIME_LO 0 || was.isPending .TIME_SET_TIME_HI 0 then c.setTimeApplied else c
  | .COUNTERS => if was.isPending .COUNTERS_SNAP_ARM 0 then c.snapArmed else c
  | .PARTITION =>
    let c := c.takeMask .PARTITION_GROUP_RESET inst fun m c => c.groupResets inst m false
    let c := c.takeMask .PARTITION_CORE_RESET inst fun m c => c.coreResets inst m
    c.takeMask .PARTITION_MIOBOR_RESET inst fun m c => if m = 1 then c.mioReset inst (some 1) else c
  | .RESET =>
    let c := c.takeMask .RESET_PART_RESET 0 fun m c => (c.ownMask port m).foldl (fun c p => c.partReset p) c
    let c := c.takeMask .RESET_PART_REINSTATE 0 fun m c => (c.ownMask port m).foldl (fun c p => c.partReinstate p) c
    let c := c.takeMask .RESET_DEVICE_REINSTATE 0 fun m c => if m = 1 then c.deviceReinstate else c
    c.takeMask .RESET_DEVICE_RESET 0 fun m c => c.deviceReset m 1 (c.reg .DEVICE_HOST_CFG) (c.reg .DEVICE_BOOT_SRC)
  | .HEN => c.takeMask .HEN_CLEAR 0 fun m c => if m = 1 then c.henClear else c
  | .BOOT => c.takeMask .BOOT_BLOB_WRITE 0 fun m c => if m = 1 then c.blobWrite port else c
  | _ => c

/-- An explicit commit of a page. -/
def commitPage (c : Chip) (port : Nat) (g : Page) (inst : Nat) : Chip :=
  let c := if g = .DEVICE && c.ownerRefused then ((c.unpend .DEVICE_OWNER 0).count .DEVICE_OWNER_REFUSED).henDevAny 0x0102 else c
  committed c (c.applyWith g inst fun _ => true) port g inst

/-- A frame boundary on every page that is not in reset. -/
def frameApply (c : Chip) : Chip :=
  c.framePages.foldl (fun c e => c.applyWith e.1 e.2 fun x => x.bnd = .frame && x.due ≤ c.now) c

/-! A write to a page -/

/-- VIEW_PENDING is held for each port; that of port B lies 2,048 instances on. -/
def viewWritten (was c : Chip) (port : Nat) (g : Page) (inst off n : Nat) : Chip :=
  let k := g.ctorIdx
  if port = 1 ∧ hits .COMMON_VIEW_PENDING off n then
    (c.setReg .COMMON_VIEW_PENDING (inst + 2048) k (c.reg .COMMON_VIEW_PENDING inst k)).setReg .COMMON_VIEW_PENDING inst k
      (was.reg .COMMON_VIEW_PENDING inst k)
  else c

/-- A field that is written while an earlier value of it is pending: what is then pending is drawn from both values. -/
def writtenAgain (was c : Chip) (r : Reg) (inst off n : Nat) (f : Nat → Nat → Nat → Nat) : Chip :=
  match SMap.find? was.regs.pend (r.key inst 0), SMap.find? c.regs.pend (r.key inst 0) with
  | some a, some b =>
    if hits r off n then { c.drawn with regs := c.regs.setPend r inst 0 { b with v := f (c.freeVal 8) a.v b.v } } else c
  | _, _ => c
/-- A mask of core or group resets written over a pending one: which units are reset is left open, within the union of both (R441). -/
def maskAgain (was c : Chip) (r : Reg) (inst off n : Nat) : Chip := writtenAgain was c r inst off n fun x a b => (a ||| b) &&& x
/-- POWER_LIMIT or THROTTLE_C written over a pending value: either applies at the commit (R479). -/
def limitAgain (was c : Chip) (g : Page) (inst off n : Nat) : Chip :=
  let one := fun (r : Reg) => writtenAgain was c r inst off n fun x a b => if bit x 0 then a else b
  match g with
  | .POWER => one .POWER_POWER_LIMIT
  | .THERMAL => one .THERMAL_THROTTLE_C
  | _ => c

/-- What a write that took effect below the complement shadows sets off. -/
def pageWritten (was c : Chip) (port : Nat) (g : Page) (inst off n v : Nat) : Chip :=
  let c := viewWritten was c port g inst off n
  let c := limitAgain was (intsWritten was c g inst off n) g inst off n
  let c := if RegFile.merge .COMMON_COMMIT 0 off n v 0 = 1 then c.commitPage port g inst else c
  let c := if RegFile.merge .COMMON_SNAPSHOT 0 off n v 0 = 1 then c.pageSnapshot g inst else c
  let c := (pageQueues g inst).foldl (fun c i => queueWritten was c i off n) c
  c.woWritten port g inst off n v

/-- What a completed pair sets off at once: a TAKEOVER, and a mask that is written again. -/
def pairWritten (was c : Chip) (port : Nat) (g : Page) (inst off n : Nat) : Chip :=
  if g = .HOSTPORT ∧ c.isPending .HOSTPORT_TAKEOVER inst then
    let v := c.regs.getPending .HOSTPORT_TAKEOVER inst 0
    let c := (c.unpend .HOSTPORT_TAKEOVER inst).publishPending g inst
    if v = 1 then c.takeover port else c
  else if g = .PARTITION then
    maskAgain was (maskAgain was c .PARTITION_GROUP_RESET inst off n) .PARTITION_CORE_RESET inst off n
  else c

/-- A host write of `size` bytes of `v` to a page. A size or alignment that R345 does not allow leaves open the value of the register addressed. -/
def pageWrite (c : Chip) (ps : List HostPair) (port : Nat) (g : Page) (inst off size v : Nat) : Chip × List HostPair :=
  let bad : Bool := !((size == 4 || size == 8) && off % size == 0)
  let v := if bad then c.freeVal 32 else trunc (8 * size) v
  let size := if bad then 4 else size
  let off := off / 4 * 4
  let was := if bad then c.drawn else c
  let r := was.hostWriteCore ps port g inst off size v
  (if !r.2.2 then r.1
   else if off < 0x800 then pageWritten was r.1 port g inst off (8 * size) v
   else pairWritten was r.1 port g inst (off - 0x800) (8 * size), r.2.1)

/-! BAR2 (R308, R312, R354) -/

/-- Function `x` of a port is there and has the context. -/
def blockBound (c : Chip) (port x : Nat) : Bool :=
  x < 64 && (x = 0 || x ≤ (c.hostPort port).vfs) && (c.ctx x).state ≠ 0 && (c.ctx x).port = port

/-- A slot of a window lies between its doorbell and its fetch. -/
def slotWaits (c : Chip) (i : QId) (slot : Nat) : Bool :=
  let size := c.ringSize i
  c.windowed i && c.q i .enable == 1
    && decide ((slot + size - c.q i .head % size) % size < (c.q i .tail + size - c.q i .head % size) % size)

/-- A write to a queue window; of a slot that waits to be fetched, which version is executed is left open. -/
def windowWrite (c : Chip) (i : QId) (off size v : Nat) : Chip :=
  let bad : Bool := !((size == 4 || size == 8) && off % size == 0)
  let v := if bad then c.freeVal 32 else v
  let size := if bad then 4 else size
  let c := if bad then c.drawn else c
  let off := off / 4 * 4
  let waits := c.slotWaits i (off / 64)
  let keep : Bool := waits && c.freeVal 1 == 0
  let c := if waits then c.drawn else c
  if keep then c else c.writeHost 2 (windowKey i + off) (bytesOf size v)

/-- A write to block `p` of a function's BAR2: nothing of a function that has no context on this port; a confidential context's block takes only
TLPs of its stream, and those only while its TDI is in RUN. -/
def blockWrite (c : Chip) (ps : List HostPair) (port x p off : Nat) (ide : Bool) (size v : Nat) : Chip × List HostPair :=
  if c.g9Out then (c, ps)
  else if c.bypassed p then (c.count .RING_BYPASS_WRITES (p / 4), ps)
  else if !c.portUsed port || c.ownerPort p ≠ port then (c.count .HOSTPORT_UNOWNED_ACCESS port, ps)
  else if !c.blockBound port x then (c, ps)
  else if (c.ctx x).conf && !ide then (c.count .CONTEXT_IDE_REJECTS port, ps)
  else if (c.ctx x).conf && c.tdiOf x ≠ 2 then (c, ps)
  else
    let there := (SMap.find? (c.ctx x).shares p).isSome
    if off < 0x1000 then
      if !there && 0x140 ≤ off && off < 0x1C0 then (c, ps) else c.pageWrite ps port .CTXQ (16 * x + p) off size v
    else if !there || c.windowsShut x p then (c, ps)
    else if 0x8000 ≤ off ∧ off < 0x10000 then (c.windowWrite (.compute x p) (off - 0x8000) size v, ps)
    else if 0x10000 ≤ off ∧ off < 0x18000 then (c.windowWrite (.mule x p) (off - 0x10000) size v, ps)
    else (c, ps)

/-- A host write to an address. -/
def hostWrite (c : Chip) (ps : List HostPair) (port : Nat) (a : HostAddr) (size v : Nat) : Chip × List HostPair :=
  match a with
  | .bar0 a => match pageAtBar0 port a with
    | some e => c.pageWrite ps port e.1 e.2 (a % 0x1000) size v
    | none => match partAtBar0 a with
      | some p => (c.onPage port .PARTITION p id, ps)
      | none => (c, ps)
  | .bar2 x a ide => c.blockWrite ps port x (a / 0x20000) (a % 0x20000) ide size v

/-- A write of 4 bytes at an offset of the page that an address lies in. -/
def hostWriteAt (c : Chip) (ps : List HostPair) (port : Nat) (a : HostAddr) (off v : Nat) : Chip × List HostPair :=
  match a with
  | .bar0 a => c.hostWrite ps port (.bar0 (a / 0x1000 * 0x1000 + off)) 4 v
  | .bar2 x a ide => if a % 0x20000 < 0x1000 then c.hostWrite ps port (.bar2 x (a / 0x20000 * 0x20000 + off) ide) 4 v else (c, ps)

/-- A write at X whose complement did not come in time. -/
def hostPairExpiry (c : Chip) (ps : List HostPair) (port : Nat) (a : HostAddr) : Chip × List HostPair :=
  match a with
  | .bar0 a => match pageAtBar0 port a with
    | some e => c.pairExpiry ps port e.1 e.2
    | none => (c, ps)
  | .bar2 .. => (c, ps)

/-- A host write to a ring register of a queue. -/
def queueWrite (c : Chip) (ps : List HostPair) (port : Nat) (i : QId) (ide : Bool) (f : QField) (size v : Nat) : Chip × List HostPair :=
  let off := (i.reg f).desc.off
  match i with
  | .route p => c.pageWrite ps port .ROUTE p off size v
  | .sched p => c.pageWrite ps port .SCHED p off size v
  | .context k => if k = port then c.pageWrite ps port .CONTEXT k off size v else (c, ps)
  | .compute x p | .mule x p => c.blockWrite ps port x p off ide size v
  | _ => (c, ps)

end Chip

end Sys2Proof.Machine
end

