-- ==== Sys2Proof/Machine/HostPorts.lean ====
section
/-! DEFINITION. Host ports as the board and the hosts see them (R25, R335 to R338, R345, R351, R353, R358, R363, R366, R410): resets of a port, its
link, reads without an answer, BAR4, and commands that end or run out of time. -/

namespace Sys2Proof.Machine

open Sys2Proof

namespace Chip

/-! Resets of one port (R337) -/

/-- Every queue of a port stops, and its confidential contexts are torn down with FORCE. -/
def portStops (c : Chip) (hp : Nat) : Chip :=
  let c := (portQueues c hp).foldl (fun c i => c.stopQueue i) c
  (c.ctxs.filter fun e => e.2.conf && e.2.port = hp).foldl (fun c e => c.forceTeardown e.1) c

/-- What PERST and an FLR of the PF share: the count, PERST_SEEN and event 0x0103. -/
def portSeen (c : Chip) (hp : Nat) : Chip := ((c.count .HOSTPORT_PERST_EVENTS hp).raise .HOSTPORT hp 1).henDevAny 0x0103

/-- PERST is asserted at a port. -/
def perst (c : Chip) (hp : Nat) : Chip :=
  let c := (c.portStops hp).portReset hp
  (c.modHostPort hp fun h => { h with perst := true }).portSeen hp

/-- PERST is deasserted. -/
def perstRelease (c : Chip) (hp : Nat) : Chip := c.modHostPort hp fun h => { h with perst := false }

/-- FLR of the PF: as PERST, with the link up as before. -/
def flrPf (c : Chip) (hp : Nat) : Chip :=
  let c := c.portStops hp
  (c.modHostPort hp fun h => { perst := h.perst, demoted := h.demoted, lastBeat := h.lastBeat }).portSeen hp

/-- FLR of VF `x`: context `x` alone, with the MSI-X table of the VF. -/
def flrVf (c : Chip) (hp x : Nat) : Chip :=
  if x = 0 || (c.hostPort hp).vfs < x then c
  else
    let own := fun (k : Nat) => k / 4096 = x
    let c := c.modHostPort hp fun h => { h with masked := h.masked.filter fun k => !own k, pendingBits := h.pendingBits.filter fun k => !own k }
    if (c.ctx x).state = 0 || (c.ctx x).port ≠ hp then c
    else
      let c := (ctxQueues x).foldl (fun c i => c.stopQueue i) c
      if (c.ctx x).conf then c.tdiStop x else c

/-! The link of a port (R335, R358, R462) -/

/-- A port's link has trained, with what its host then configures; an old active port is standby from now on. -/
def linkUp (c : Chip) (hp speed width vfs : Nat) (master : Bool) (masked : List Nat) : Chip :=
  if (c.hostPort hp).perst || !c.portUsed hp || speed = 0 || 5 < speed || width = 0 || 16 < width || 63 < vfs then c
  else
    let c := ((c.setReg .HOSTPORT_LINK_UP hp 0 1).setReg .HOSTPORT_LINK_SPEED hp 0 speed).setReg .HOSTPORT_LINK_WIDTH hp 0 width
    c.modHostPort hp fun h => { h with vfs := vfs, busMaster := master, masked := masked, demoted := false }

/-- A port's link goes down. -/
def linkDown (c : Chip) (hp : Nat) : Chip :=
  ((c.setReg .HOSTPORT_LINK_UP hp 0 0).setReg .HOSTPORT_LINK_SPEED hp 0 0).setReg .HOSTPORT_LINK_WIDTH hp 0 0

/-- A BAR read without an answer for 20 µs (R336). -/
def readTimeout (c : Chip) (hp size : Nat) : Chip :=
  (c.count .HOSTPORT_READ_TIMEOUTS hp).emit (.readReturn hp (2 ^ (8 * size) - 1))

/-- A request from a partition's stop to another partition's stop (R25): discarded, counted, and recorded under a partition-hardware code. -/
def misrouted (c : Chip) (p : Nat) : Chip :=
  let c := c.count .RING_MISROUTED (p / 4)
  c.drawn.henAny p (0x1000 + c.freeVal 12)

/-! BAR4 (R313, R339, R366) -/

/-- What a BAR4 byte is: a payload byte of a tile, a header byte of a tile, or a byte of the firmware area. -/
inductive Bar4Byte where
  | payload (tile off : Nat)
  | header (tile off : Nat)
  | firmware (off : Nat)
  deriving DecidableEq, Repr

/-- The byte at die address `a` of a partition's LPDDR6 (R363). -/
def dieByte (a : Nat) : Bar4Byte :=
  if a < 0xFC000000 then .payload (0x100000 + a / 2048) (a % 2048)
  else if a < 0xFDF80000 then .header (0x100000 + (a - 0xFC000000) / 16) ((a - 0xFC000000) % 16)
  else .firmware (a - 0xFDF80000)

/-- The partition of a BAR4 address, and the byte there. -/
def bar4Byte (c : Chip) (a : Nat) : Nat × Bar4Byte :=
  let p := a / 0x8000000 % 16
  let o := a % 0x8000000
  if a < 0x80000000 then (p, .payload (o / 2048) (o % 2048)) else (p, dieByte (c.reg .MEMORY_APERTURE_BASE p * 0x8000000 + o))

/-- A tile lies in the share of a confidential context. -/
def confTile (c : Chip) (p n : Nat) : Bool :=
  c.ctxs.any fun e => e.2.conf && (match SMap.find? e.2.shares p with
    | some s => (s.sramFirst ≤ n && n < s.sramFirst + s.sramTiles) || (s.lpFirst ≤ n && n < s.lpFirst + s.lpTiles)
    | none => false)

/-- A tile of a device structure that holds nothing the model gives bytes to. -/
def opaqueTile (c : Chip) (p n : Nat) : Bool :=
  (SMap.find? (c.part p).tiles n).isNone && ((c.sramTop p ≤ n && n < 0x10000) || (0x100000 ≤ n && n < lpBase))

/-- Where the message log lies: somewhere in the firmware area (R390). -/
def msglogAt : Nat := Config.msgLogAddr % 16384 * 32
/-- A byte of the firmware area: the message log's entries, and nothing that the spec gives elsewhere. -/
def firmwareByte (c : Chip) (p off : Nat) : Option Nat :=
  if off < msglogAt || msglogAt + 0x200000 ≤ off then none
  else
    let n := (off - msglogAt) / 32
    let l := (c.part p).msgLog
    let back := (c.reg .TRACE_MSGLOG_NEXT p + 65535 - n) % 65536
    if l.length ≤ back then none
    else match l[l.length - 1 - back]? with
      | some e => some ((AC.logBytes e + ofBool e.sent * 2 ^ 31) >>> (8 * (off % 32)) % 256)
      | none => none

/-- A byte of the spill region: where a stream's ring lies there, the native stream first (R395). -/
def spillByte (c : Chip) (p tile off : Nat) : Option Nat :=
  match (c.part p).trace.spill with
  | none => none
  | some (first, n) =>
    if tile < first || first + n ≤ tile then none
    else
      let a := (tile - first) * 2048 + off
      let k := c.traceSpill p true
      let s := c.stream p (decide (a < k))
      let o := if a < k then a else a - k
      if s.stageCap = 0 || s.cap = 0 then none
      else s.ring.findSome? fun e =>
        let j := (o + s.cap - e.1 % s.cap) % s.cap
        if j < e.2.length then e.2[j]? else none

/-- A byte as BAR4 reads it; none where the spec does not give its contents. -/
def bar4Read (c : Chip) (p : Nat) (b : Bar4Byte) : Option Nat :=
  match b with
  | .payload n off =>
    match c.spillByte p n off with
    | some v => some v
    | none => if c.opaqueTile p n then none else some ((c.tile p n).byte off)
  | .header n off =>
    if c.opaqueTile p n || 0x300000 ≤ n then none
    else
      let t := c.tile p n
      some ((bytesOf 4 t.crc ++ t.head).getD off 0)
  | .firmware off => c.firmwareByte p off

/-- The tile of a BAR4 byte. -/
def Bar4Byte.tile : Bar4Byte → Option Nat
  | .payload n _ => some n
  | .header n _ => some n
  | .firmware _ => none

/-- A BAR4 access of a port: to a partition that answers and that the port owns, 4 or 8 bytes, aligned; other sizes leave open the four bytes
addressed. -/
def bar4Access (c : Chip) (hp addr : Nat) (wr : Bool) (size v : Nat) : Chip :=
  let bad : Bool := !((size == 4 || size == 8) && addr % size == 0)
  let v := if bad then c.freeVal 32 else v
  let size := if bad then 4 else size
  let addr := addr / 4 * 4
  let c := if bad then c.drawn else c
  let p := addr / 0x8000000 % 16
  let refused := fun (c : Chip) => if wr then c else c.emit (.readReturn hp (2 ^ (8 * size) - 1))
  if c.g9Out then refused c
  else if c.bypassed p then refused (c.count (if wr then .RING_BYPASS_WRITES else .RING_BYPASS_READS) (p / 4))
  else if !c.portUsed hp || c.ownerPort p ≠ hp then refused (c.count .HOSTPORT_UNOWNED_ACCESS hp)
  else
    let at_ := fun (i : Nat) => (c.bar4Byte (addr + i)).2
    let conf : Bool := match (at_ 0).tile with | some n => c.confTile p n | none => false
    if conf then refused (c.count .CONTEXT_APERTURE_DENIED hp)
    else if wr then
      match at_ 0 with
      | .payload n off =>
        let t := c.tile p n
        c.setTile p n { t with data := putPayload t.data off (bytesOf size v) }
      | _ => c.count .MEMORY_APERTURE_WRITES_DROPPED p
    else
      let r := fun (i : Nat) => match c.bar4Read p (at_ i) with
        | some b => b
        | none => trunc 8 (Config.freeValue (c.freeCtr + i))
      let x := if bad then v else ofBytes ((List.range size).map r)
      ({ c with freeCtr := c.freeCtr + 8 }).emit (.readReturn hp x)

/-! Commands that end (R16, R353), and limits (R233, R280, R351, R375, R410) -/

/-- Counts a condition of a command that its status may not report (R16): a failed tile check (R216, R375), a time limit (R354) where another
status is reported, a revocation at a Mule (R381). -/
def countCondition (c : Chip) (i : QId) (reported : Nat) (s : Nat) : Chip :=
  match i, i.part, s with
  | .mule x _, some p, 0x02 => c.countFor x .MULE_CHECK_FAILS p 1
  | _, some p, 0x02 => c.countFor i.ctx .MIOBOR_TILE_FAILS p 1
  | .compute x p, _, 0x01 | .mule x p, _, 0x01 => if reported = 0x01 then c else c.countFor x .CTXQ_CMD_TIMEOUTS (16 * x + p) 1
  | .mule x p, _, 0x04 => c.countFor x .MULE_REVOKED_ABORTS p 1
  | _, _, _ => c

/-- A command that was fetched ends with the conditions that apply: one of them is reported, and each has its own count. -/
def commandComplete (c : Chip) (i : QId) (tag : Nat) (conds : List Nat) (detail : Nat) : Chip :=
  if (c.cmdOf i tag).isNone then c
  else (conds.eraseDups.foldl (fun c s => c.countCondition i (worst conds) s) c).complete i tag (worst conds) detail

/-- The bound of a context command in ticks; none for TEARDOWN_CTX. -/
def contextBound (opcode : Nat) : Option Nat :=
  match opcode with
  | 0x90 => some 10000000
  | 0x91 => some 100000000
  | 0x92 => some 20000000
  | 0x94 => some 1000000
  | _ => none

/-- A command reaches its limit. Route and schedule queues have none. -/
def commandTimeout (c : Chip) (i : QId) (tag : Nat) : Chip :=
  match c.cmdOf i tag with
  | none => c
  | some x =>
    match i with
    | .route _ | .sched _ => c
    | .context _ =>
      match contextBound x.d.opcode with
      | some b => if x.started.getD x.fetched + b ≤ c.now then c.complete i tag 0x01 else c
      | none => c
    | _ =>
      if i.toMule then c.muleTimeout i tag
      else if x.isMio then c.mioTimeout i tag
      else
        match x.started, i.part with
        | some t, some p =>
          if c.now < t + c.limitOf x then c
          else match (c.part p).loads.find? fun l => l.q = i && l.tag = tag with
            | some l => c.loadTimeout p l
            | none => c.complete i tag 0x01
        | _, _ => c

end Chip

end Sys2Proof.Machine
end

