-- ==== Sys2Proof/Machine/ExecHost.lean ====
section
/-! DEFINITION. Host ports and pages (R335 to R366). -/

namespace Sys2Proof.Machine

open Sys2Proof

/-- HOST_READ_TIMEOUT (R336). -/
def execHostReadTimeout (t hp size : Nat) (s : State) : Host.Outcome State Fault Refusal :=
  .next (s.run t fun c => c.readTimeout hp size)
/-- PERST (R337). -/
def execPerst (t hp : Nat) (s : State) : Host.Outcome State Fault Refusal :=
  .next (s.run t fun c => c.perst hp)
/-- FLR_PF (R337). -/
def execFlrPf (t hp : Nat) (s : State) : Host.Outcome State Fault Refusal :=
  .next (s.run t fun c => c.flrPf hp)
/-- FLR_VF (R337). -/
def execFlrVf (t hp x : Nat) (s : State) : Host.Outcome State Fault Refusal :=
  .next (s.run t fun c => c.flrVf hp x)
/-- PAGE_COMMIT (R346). -/
def execPageCommit (t hp : Nat) (a : HostAddr) (v : Nat) (s : State) : Host.Outcome State Fault Refusal :=
  .next (s.runPairs t fun c ps => c.hostWriteAt ps hp a 0x20 (setBit v 31 true))
/-- FRAME_BOUNDARY_APPLY (R346). -/
def execFrameBoundaryApply (t : Nat) (s : State) : Host.Outcome State Fault Refusal :=
  .next (s.run t fun c => c.frameApply)
/-- PAIR_COMPLETE (R347). -/
def execPairComplete (t hp : Nat) (a : HostAddr) (size v : Nat) (s : State) : Host.Outcome State Fault Refusal :=
  .next (s.runPairs t fun c ps => c.hostWrite ps hp a size v)
/-- PAIR_EXPIRY (R347). -/
def execPairExpiry (t hp : Nat) (a : HostAddr) (s : State) : Host.Outcome State Fault Refusal :=
  .next (s.runPairs t fun c ps => c.hostPairExpiry ps hp a)
/-- SNAPSHOT (R348). -/
def execSnapshot (t hp : Nat) (a : HostAddr) (s : State) : Host.Outcome State Fault Refusal :=
  .next (s.runPairs t fun c ps => c.hostWriteAt ps hp a 0x24 1)
/-- INT_STATUS_CLEAR (R356). -/
def execIntStatusClear (t hp : Nat) (a : HostAddr) (v : Nat) (s : State) : Host.Outcome State Fault Refusal :=
  .next (s.runPairs t fun c ps => c.hostWriteAt ps hp a 0x18 v)
/-- DOORBELL (R352). -/
def execDoorbell (t hp : Nat) (i : QId) (ide : Bool) (v : Nat) (s : State) : Host.Outcome State Fault Refusal :=
  .next (s.runPairs t fun c ps => c.queueWrite ps hp i ide .tail 4 v)
/-- Q_BASE_WRITE (R352). -/
def execQBaseWrite (t hp : Nat) (i : QId) (ide : Bool) (v : Nat) (s : State) : Host.Outcome State Fault Refusal :=
  .next (s.runPairs t fun c ps => c.queueWrite ps hp i ide .base 8 v)
/-- CQ_BASE_WRITE (R352). -/
def execCqBaseWrite (t hp : Nat) (i : QId) (ide : Bool) (v : Nat) (s : State) : Host.Outcome State Fault Refusal :=
  .next (s.runPairs t fun c ps => c.queueWrite ps hp i ide .cqBase 8 v)
/-- Q_ENABLE_WRITE (R352). -/
def execQEnableWrite (t hp : Nat) (i : QId) (ide : Bool) (v : Nat) (s : State) : Host.Outcome State Fault Refusal :=
  .next (s.runPairs t fun c ps => c.queueWrite ps hp i ide .enable 4 v)
/-- CQ_HEAD_WRITE (R352). -/
def execCqHeadWrite (t hp : Nat) (i : QId) (ide : Bool) (v : Nat) (s : State) : Host.Outcome State Fault Refusal :=
  .next (s.runPairs t fun c ps => c.queueWrite ps hp i ide .cqHead 4 v)
/-- COMMAND_COMPLETE (R353). -/
def execCommandComplete (t : Nat) (i : QId) (tag : Nat) (conds : List Nat) (detail : Nat) (s : State) :
    Host.Outcome State Fault Refusal :=
  .next (s.run t fun c => c.commandComplete i tag conds detail)
/-- COMMAND_TIMEOUT (R351). -/
def execCommandTimeout (t : Nat) (i : QId) (tag : Nat) (s : State) : Host.Outcome State Fault Refusal :=
  .next (s.run t fun c => c.commandTimeout i tag)
/-- REGISTER_WRITE (R480). -/
def execRegisterWrite (t hp : Nat) (a : HostAddr) (size v : Nat) (s : State) : Host.Outcome State Fault Refusal :=
  .next (s.runPairs t fun c ps => c.hostWrite ps hp a size v)
/-- HEARTBEAT (R357). -/
def execHeartbeat (t hp v : Nat) (s : State) : Host.Outcome State Fault Refusal :=
  .next (s.runPairs t fun c ps => c.pageWrite ps hp .HOSTPORT hp 0x108 4 v)
/-- TAKEOVER (R358). -/
def execTakeover (t hp : Nat) (s : State) : Host.Outcome State Fault Refusal :=
  .next (s.run t fun c => c.takeover hp)
/-- HB_TIMEOUT (R357). -/
def execHbTimeout (t : Nat) (s : State) : Host.Outcome State Fault Refusal :=
  .next (s.run t fun c => c.beatTimeout)
/-- BAR4_ACCESS (R366). -/
def execBar4Access (t hp addr : Nat) (wr : Bool) (size v : Nat) (s : State) : Host.Outcome State Fault Refusal :=
  .next (s.run t fun c => c.bar4Access hp addr wr size v)
/-- PCIE_LINK_UP (R358). -/
def execPcieLinkUp (t hp speed width vfs : Nat) (master : Bool) (masked : List Nat) (s : State) :
    Host.Outcome State Fault Refusal :=
  .next (s.run t fun c => c.linkUp hp speed width vfs master masked)
/-- PCIE_LINK_DOWN (R462). -/
def execPcieLinkDown (t hp : Nat) (s : State) : Host.Outcome State Fault Refusal :=
  .next (s.run t fun c => c.linkDown hp)
/-- PERST_RELEASE (R469). -/
def execPerstRelease (t hp : Nat) (s : State) : Host.Outcome State Fault Refusal :=
  .next (s.run t fun c => c.perstRelease hp)
/-- CONTROL_PORT_DOWN (R23). -/
def execControlPortDown (t p : Nat) (s : State) : Host.Outcome State Fault Refusal :=
  .next (s.run t fun c => c.atPart p fun c => c.controlPortDown p)
/-- MISROUTED_REQUEST (R25). -/
def execMisroutedRequest (t p : Nat) (s : State) : Host.Outcome State Fault Refusal :=
  .next (s.run t fun c => c.misrouted p)

end Sys2Proof.Machine
end

