-- ==== Sys2Proof/Machine/ExecImage.lean ====
section
/-! DEFINITION. The image commands and their stages (R262, R276, R277). -/

namespace Sys2Proof.Machine

open Sys2Proof

/-- LOAD_IMAGE (R277). -/
def execLoadImage (t x p : Nat) (d : Desc) (s : State) : Host.Outcome State Fault Refusal :=
  .next (s.run t fun c => c.runTimed (.compute x p) { d with opcode := 0x80, ctx := x } fun c => c.loadImage x p d)
/-- SIGNATURE_VERIFIED (R262). -/
def execSignatureVerified (t x p tag : Nat) (s : State) : Host.Outcome State Fault Refusal :=
  .next (s.run t fun c => c.atPart p fun c => c.signatureVerified x p tag)
/-- STREAM_DONE (R277). -/
def execStreamDone (t x p tag : Nat) (s : State) : Host.Outcome State Fault Refusal :=
  .next (s.run t fun c => c.atPart p fun c => c.streamDone x p tag)
/-- UNLOAD_IMAGE (R279). -/
def execUnloadImage (t x p : Nat) (d : Desc) (s : State) : Host.Outcome State Fault Refusal :=
  .next (s.run t fun c => c.runTimed (.compute x p) { d with opcode := 0x81, ctx := x } fun c => c.unloadImage x p d)
/-- QUERY_IMAGE (R276). -/
def execQueryImage (t x p : Nat) (d : Desc) (s : State) : Host.Outcome State Fault Refusal :=
  .next (s.run t fun c => c.runTimed (.compute x p) { d with opcode := 0x82, ctx := x } fun c => c.queryImage x p d)
/-- READ_LOG (R276). -/
def execReadLog (t x p : Nat) (d : Desc) (s : State) : Host.Outcome State Fault Refusal :=
  .next (s.run t fun c => c.runTimed (.compute x p) { d with opcode := 0x83, ctx := x } fun c => c.readLog x p d)

end Sys2Proof.Machine
end

