-- ==== Sys2Proof/Machine/ExecLearn.lean ====
section
/-! DEFINITION. The commands of learned functions (R239 to R258). -/

namespace Sys2Proof.Machine

open Sys2Proof

/-- FORECAST_START (R242). -/
def execForecastStart (t p job w : Nat) (s : State) : Host.Outcome State Fault Refusal :=
  .next (s.run t fun c => c.atPart p fun c => c.forecastStart p job w)
/-- FORECAST_DEADLINE (R243). -/
def execForecastDeadline (t p job w : Nat) (s : State) : Host.Outcome State Fault Refusal :=
  .next (s.run t fun c => c.atPart p fun c => c.forecastDeadline p job w)
/-- FORECAST_PUBLISH (R244). -/
def execForecastPublish (t p job w : Nat) (s : State) : Host.Outcome State Fault Refusal :=
  .next (s.run t fun c => c.atPart p fun c => c.forecastPublish p job w)
/-- ANALYSE_REQ (R249). -/
def execAnalyseReq (t hp p job : Nat) (s : State) : Host.Outcome State Fault Refusal :=
  .next (s.run t fun c => c.atPart p fun c => c.analyseReq hp p job)
/-- ANALYSIS_DONE (R250). -/
def execAnalysisDone (t p job : Nat) (s : State) : Host.Outcome State Fault Refusal :=
  .next (s.run t fun c => c.atPart p fun c => c.analysisDone p job)
/-- HIST_RESET (R251). -/
def execHistReset (t p src tag job : Nat) (s : State) : Host.Outcome State Fault Refusal :=
  .next (s.run t fun c => c.atPart p fun c => c.histReset p src tag job)
/-- LINK_HEALTH_EVAL (R254). -/
def execLinkHealthEval (t p : Nat) (s : State) : Host.Outcome State Fault Refusal :=
  .next (s.run t fun c => c.atPart p fun c => c.linkHealthEval p)

end Sys2Proof.Machine
end

