-- ==== Sys2Proof/Machine/ExecLink.lean ====
section
/-! DEFINITION. What each link and directed-block command means (R99 to R102, R324). -/

namespace Sys2Proof.Machine

open Sys2Proof

/-- LINK_HANDSHAKE (R23, R324). -/
def execLinkHandshake (t : Nat) (u : UnitId) (k : Nat) (ok : Bool) (s : State) : Host.Outcome State Fault Refusal :=
  .next (s.run t fun c => (c.linkHandshake u k ok).laneReturns u)
/-- IDENTITY_BLOCK (R99). -/
def execIdentityBlock (t : Nat) (u : UnitId) (k : Nat) (blk : IdBlock) (crcOk : Bool) (s : State) :
    Host.Outcome State Fault Refusal :=
  .next (s.run t fun c => c.identityArrives u k blk crcOk)
/-- DIRECTED_BLOCK (R100). -/
def execDirectedBlock (t : Nat) (u : UnitId) (k : Nat) (blk : DirBlock) (crcOk : Bool) (s : State) :
    Host.Outcome State Fault Refusal :=
  .next (s.run t fun c => c.atAgent u fun a => a.directedBlock k blk crcOk)
/-- MEASURE_COMPLETE (R101). -/
def execMeasureComplete (t : Nat) (u : UnitId) (samples : PortEchoes) (s : State) :
    Host.Outcome State Fault Refusal :=
  .next (s.run t fun c => c.atAgent u fun a => a.measureComplete samples.port samples.samples)
/-- ECHO_BLOCK (R101). -/
def execEchoBlock (t : Nat) (u : UnitId) (k turnaround : Nat) (s : State) : Host.Outcome State Fault Refusal :=
  .next (s.run t fun c => c.atAgent u fun a => a.echoBlock k turnaround)

end Sys2Proof.Machine
end

