-- ==== Sys2Proof/Machine/ExecList.lean ====
section
/-! DEFINITION. What each command of lists, outage, time and telemetry at agents means (R86 to R96). -/

namespace Sys2Proof.Machine

open Sys2Proof

/-- SLOT_LIST (R86). -/
def execSlotList (t : Nat) (e : Env) (seg : Segment) (s : State) : Host.Outcome State Fault Refusal :=
  .next (s.run t fun c => c.onReq e 0x42 .control fun a => a.doSlotList e seg)
/-- TEMPLATE_LIST (R86). -/
def execTemplateList (t : Nat) (e : Env) (seg : Segment) (s : State) : Host.Outcome State Fault Refusal :=
  .next (s.run t fun c => c.onReq e 0x44 .control fun a => a.doTemplateList e seg)
/-- LIST_GUARD_DEADLINE (R87). -/
def execListGuardDeadline (t : Nat) (u : UnitId) (w : Nat) (s : State) : Host.Outcome State Fault Refusal :=
  .next (s.run t fun c => c.atAgent u fun a => a.listGuard w)
/-- WINDOW_START (R89). -/
def execWindowStart (t : Nat) (u : UnitId) (s : State) : Host.Outcome State Fault Refusal :=
  .next (s.run t fun c => c.atAgent u AC.windowStart)
/-- HOLD (R93). -/
def execHold (t : Nat) (e : Env) (s : State) : Host.Outcome State Fault Refusal :=
  .next (s.run t fun c => c.onMsg e 0x47 .control AC.doHold)
/-- BEAT (R93). -/
def execBeat (t : Nat) (e : Env) (s : State) : Host.Outcome State Fault Refusal :=
  .next (s.run t fun c => c.onMsg e 0x49 .control fun a => a)
/-- CONTROL_TIMEOUT (R93). -/
def execControlTimeout (t : Nat) (u : UnitId) (s : State) : Host.Outcome State Fault Refusal :=
  .next (s.run t fun c => c.atAgent u AC.controlTimeout)
/-- PORT_DOWN (R96). -/
def execPortDown (t : Nat) (u : UnitId) (k : Nat) (s : State) : Host.Outcome State Fault Refusal :=
  .next (s.run t fun c => c.portEvent u k false)
/-- PORT_UP (R96). -/
def execPortUp (t : Nat) (u : UnitId) (k : Nat) (s : State) : Host.Outcome State Fault Refusal :=
  .next (s.run t fun c => c.portEvent u k true)
/-- INTERNAL_ERROR (R94). -/
def execInternalError (t : Nat) (u : UnitId) (code : Nat) (s : State) : Host.Outcome State Fault Refusal :=
  .next (s.run t fun c => c.atAgent u fun a => a.internalError code)
/-- TIME_EXCHANGE (R91). -/
def execTimeExchange (t : Nat) (u : UnitId) (s : State) : Host.Outcome State Fault Refusal :=
  .next (s.run t fun c => c.atAgent u AC.timeExchange)
/-- TIME_REQ (R91). -/
def execTimeReq (t : Nat) (e : Env) (t1 : Nat) (s : State) : Host.Outcome State Fault Refusal :=
  .next (s.run t fun c => c.timeAsked e t1)
/-- TIME_RESP (R91). -/
def execTimeResp (t : Nat) (e : Env) (t1 t2 t3 : Nat) (s : State) : Host.Outcome State Fault Refusal :=
  .next (s.run t fun c => c.onMsg e 0x61 .anyone fun a => a.timeResp e.status t1 t2 t3)
/-- TIME_RESP_TIMEOUT (R91). -/
def execTimeRespTimeout (t : Nat) (u : UnitId) (s : State) : Host.Outcome State Fault Refusal :=
  .next (s.run t fun c => c.atAgent u AC.timeRespTimeout)
/-- HOLDOVER_ENTRY (R92). -/
def execHoldoverEntry (t : Nat) (u : UnitId) (s : State) : Host.Outcome State Fault Refusal :=
  .next (s.run t fun c => c.atAgent u AC.holdoverEntry)
/-- MSG_RETRANSMIT (R95). -/
def execMsgRetransmit (t : Nat) (u : UnitId) (tag : Nat) (s : State) : Host.Outcome State Fault Refusal :=
  .next (s.run t fun c => c.retransmit u tag)
/-- RESPONSE_STORE_EXPIRY (R95). -/
def execResponseStoreExpiry (t : Nat) (u : UnitId) (src tag : Nat) (s : State) : Host.Outcome State Fault Refusal :=
  .next (s.run t fun c => c.storeExpiry u src tag)
/-- TELEMETRY_PERIOD (R95). -/
def execTelemetryPeriod (t : Nat) (u : UnitId) (s : State) : Host.Outcome State Fault Refusal :=
  .next (s.run t fun c => c.atAgent u AC.telemetry)
/-- AGENT_RESET (R102). -/
def execAgentReset (t : Nat) (u : UnitId) (s : State) : Host.Outcome State Fault Refusal :=
  .next (s.run t fun c => c.agentReset u)
/-- BEAT_SEND (R93). -/
def execBeatSend (t p : Nat) (s : State) : Host.Outcome State Fault Refusal :=
  .next (s.run t fun c => c.atPart p fun c => c.beatSend p)
/-- DEMAND_SEND (R173). -/
def execDemandSend (t : Nat) (u : UnitId) (body : List Nat) (s : State) : Host.Outcome State Fault Refusal :=
  .next (s.run t fun c => c.atAgent u fun a => a.demandSend body)
/-- DEMAND_ACK (R175). -/
def execDemandAck (t : Nat) (e : Env) (body : List Nat) (s : State) : Host.Outcome State Fault Refusal :=
  .next (s.run t fun c => c.onMsg e 0x41 .anyone fun a => a.demandAck e.tag e.status body)

end Sys2Proof.Machine
end

