-- ==== Sys2Proof/Machine/ExecMiobor.lean ====
section
/-! DEFINITION. The commands of the Miobor cluster (R225, R232, R233). -/

namespace Sys2Proof.Machine

open Sys2Proof

/-- GEMM (R225). -/
def execGemm (t : Nat) (i : QId) (d : Desc) (s : State) : Host.Outcome State Fault Refusal :=
  .next (s.run t fun c => c.miobor i { d with opcode := 0x10 })
/-- SPGEMM (R222). -/
def execSpgemm (t : Nat) (i : QId) (d : Desc) (s : State) : Host.Outcome State Fault Refusal :=
  .next (s.run t fun c => c.miobor i { d with opcode := 0x11 })
/-- BSGEMM (R222). -/
def execBsgemm (t : Nat) (i : QId) (d : Desc) (s : State) : Host.Outcome State Fault Refusal :=
  .next (s.run t fun c => c.miobor i { d with opcode := 0x12 })
/-- GATE (R228). -/
def execGate (t : Nat) (i : QId) (d : Desc) (s : State) : Host.Outcome State Fault Refusal :=
  .next (s.run t fun c => c.miobor i { d with opcode := 0x13 })
/-- TOPK (R225). -/
def execTopk (t : Nat) (i : QId) (d : Desc) (s : State) : Host.Outcome State Fault Refusal :=
  .next (s.run t fun c => c.miobor i { d with opcode := 0x14 })
/-- SOFTMAX (R230). -/
def execSoftmax (t : Nat) (i : QId) (d : Desc) (s : State) : Host.Outcome State Fault Refusal :=
  .next (s.run t fun c => c.miobor i { d with opcode := 0x15 })
/-- SCAN (R225). -/
def execScan (t : Nat) (i : QId) (d : Desc) (s : State) : Host.Outcome State Fault Refusal :=
  .next (s.run t fun c => c.miobor i { d with opcode := 0x16 })
/-- HIST (R225). -/
def execHist (t : Nat) (i : QId) (d : Desc) (s : State) : Host.Outcome State Fault Refusal :=
  .next (s.run t fun c => c.miobor i { d with opcode := 0x17 })
/-- SPMV (R225). -/
def execSpmv (t : Nat) (i : QId) (d : Desc) (s : State) : Host.Outcome State Fault Refusal :=
  .next (s.run t fun c => c.miobor i { d with opcode := 0x18 })
/-- GATHER (R229). -/
def execGather (t : Nat) (i : QId) (d : Desc) (s : State) : Host.Outcome State Fault Refusal :=
  .next (s.run t fun c => c.miobor i { d with opcode := 0x19 })
/-- SCATTER (R229). -/
def execScatter (t : Nat) (i : QId) (d : Desc) (s : State) : Host.Outcome State Fault Refusal :=
  .next (s.run t fun c => c.miobor i { d with opcode := 0x1A })
/-- ELTWISE (R230). -/
def execEltwise (t : Nat) (i : QId) (d : Desc) (s : State) : Host.Outcome State Fault Refusal :=
  .next (s.run t fun c => c.miobor i { d with opcode := 0x1B })
/-- REDUCE (R225). -/
def execReduce (t : Nat) (i : QId) (d : Desc) (s : State) : Host.Outcome State Fault Refusal :=
  .next (s.run t fun c => c.miobor i { d with opcode := 0x1C })
/-- MIOBOR_TIMEOUT (R233). -/
def execMioborTimeout (t : Nat) (i : QId) (tag : Nat) (s : State) : Host.Outcome State Fault Refusal :=
  .next (s.run t fun c => c.mioTimeout i tag)
/-- MIOBOR_CTX_SWITCH (R232). -/
def execMioborCtxSwitch (t p : Nat) (s : State) : Host.Outcome State Fault Refusal :=
  .next (s.run t fun c => c.atPart p fun c => c.mioSwitch p)

end Sys2Proof.Machine
end

