-- ==== Sys2Proof/Machine/ExecMule.lean ====
section
/-! DEFINITION. The Mule commands and tile repair (R373 to R377). -/

namespace Sys2Proof.Machine

open Sys2Proof

/-- COPY (R373). -/
def execCopy (t : Nat) (i : QId) (d : Desc) (s : State) : Host.Outcome State Fault Refusal :=
  .next (s.run t fun c => c.mule i { d with opcode := 0x20 })
/-- HOST_TO_TILE (R373). -/
def execHostToTile (t : Nat) (i : QId) (d : Desc) (s : State) : Host.Outcome State Fault Refusal :=
  .next (s.run t fun c => c.mule i { d with opcode := 0x21 })
/-- TILE_TO_HOST (R373). -/
def execTileToHost (t : Nat) (i : QId) (d : Desc) (s : State) : Host.Outcome State Fault Refusal :=
  .next (s.run t fun c => c.mule i { d with opcode := 0x22 })
/-- SEAL (R373). -/
def execSeal (t : Nat) (i : QId) (d : Desc) (s : State) : Host.Outcome State Fault Refusal :=
  .next (s.run t fun c => c.mule i { d with opcode := 0x23 })
/-- FILL (R373). -/
def execFill (t : Nat) (i : QId) (d : Desc) (s : State) : Host.Outcome State Fault Refusal :=
  .next (s.run t fun c => c.mule i { d with opcode := 0x24 })
/-- VERIFY (R373). -/
def execVerify (t : Nat) (i : QId) (d : Desc) (s : State) : Host.Outcome State Fault Refusal :=
  .next (s.run t fun c => c.mule i { d with opcode := 0x25 })
/-- TILE_LOCK_RELEASE (R374). -/
def execTileLockRelease (t _p _tile : Nat) (s : State) : Host.Outcome State Fault Refusal :=
  .next (s.run t fun c => c)
/-- TILE_REPAIR (R377). -/
def execTileRepair (t p tile : Nat) (s : State) : Host.Outcome State Fault Refusal :=
  .next (s.run t fun c => c.atPart p fun c => c.tileRepair p tile)

end Sys2Proof.Machine
end

