-- ==== Sys2Proof/Machine/ExecPartMsg.lean ====
section
/-! DEFINITION. What each answer of an agent to its partition means (R130, R280, R283, R297). -/

namespace Sys2Proof.Machine

open Sys2Proof

/-- WRITE_ACK (R130). -/
def execWriteAck (t p src tag st : Nat) (s : State) : Host.Outcome State Fault Refusal :=
  .next (s.run t fun c => c.atPart p fun c => (c.writeAck p src tag st).restartOn p)
/-- READ_RESP (R283). -/
def execReadResp (t p src tag st : Nat) (words : List Nat) (s : State) : Host.Outcome State Fault Refusal :=
  .next (s.run t fun c => c.atPart p fun c => c.readResp p src tag st words)
/-- TEMPLATE_ACK (R280). -/
def execTemplateAck (t p src tag st : Nat) (s : State) : Host.Outcome State Fault Refusal :=
  .next (s.run t fun c => c.atPart p fun c => c.templateAck p src tag st)
/-- UNFENCE_ACK (R297). -/
def execUnfenceAck (t p src tag _st : Nat) (s : State) : Host.Outcome State Fault Refusal :=
  .next (s.run t fun c => c.atPart p fun c => c.unfenceAck p src tag)

end Sys2Proof.Machine
end

