-- ==== Sys2Proof/Machine/ExecPower.lean ====
section
/-! DEFINITION. The commands of supplies, heat, clocks and bring-up (R450 to R477). -/

namespace Sys2Proof.Machine

open Sys2Proof

/-- DVFS_TICK (R453). -/
def execDvfsTick (t watts : Nat) (s : State) : Host.Outcome State Fault Refusal :=
  .next (s.run t fun c => c.dvfsTick watts)
/-- RAIL_GOOD (R451). -/
def execRailGood (t rail mv : Nat) (s : State) : Host.Outcome State Fault Refusal :=
  .next (s.run t fun c => c.railGood rail mv)
/-- RAIL_UNDERVOLTAGE (R458). -/
def execRailUndervoltage (t rail : Nat) (s : State) : Host.Outcome State Fault Refusal :=
  .next (s.run t fun c => c.railLow rail)
/-- VAUX_LOSS (R458). -/
def execVauxLoss (t : Nat) (s : State) : Host.Outcome State Fault Refusal :=
  .next (s.runPairs t fun c _ => (c.vauxLoss, []))
/-- PF_WARN (R463). -/
def execPfWarn (t : Nat) (s : State) : Host.Outcome State Fault Refusal :=
  .next (s.run t fun c => c.pfWarn)
/-- PF_WARN_RELEASE (R463). -/
def execPfWarnRelease (t : Nat) (s : State) : Host.Outcome State Fault Refusal :=
  .next (s.run t fun c => c.pfRelease)
/-- SAG_STAGE_ENTER (R454). -/
def execSagStageEnter (t die stage peak : Nat) (s : State) : Host.Outcome State Fault Refusal :=
  .next (s.run t fun c => c.sagEnter die stage peak)
/-- SAG_STAGE_CLEAR (R455). -/
def execSagStageClear (t die mask peak : Nat) (s : State) : Host.Outcome State Fault Refusal :=
  .next (s.run t fun c => c.sagClear die mask peak)
/-- THERMAL_SAMPLE (R459). -/
def execThermalSample (t die : Nat) (temps : List Int) (s : State) : Host.Outcome State Fault Refusal :=
  .next (s.run t fun c => c.thermalSample die temps)
/-- THROTTLE_RELEASE (R460). -/
def execThrottleRelease (t die : Nat) (s : State) : Host.Outcome State Fault Refusal :=
  .next (s.run t fun c => c.throttleRelease die)
/-- TIME_REF_LOSS (R462). -/
def execTimeRefLoss (t : Nat) (s : State) : Host.Outcome State Fault Refusal :=
  .next (s.run t fun c => c.refLoss)
/-- TIME_REF_RESTORE (R462). -/
def execTimeRefRestore (t : Nat) (s : State) : Host.Outcome State Fault Refusal :=
  .next (s.run t fun c => c.refBack)
/-- AVS_ACK (R452). -/
def execAvsAck (t die : Nat) (s : State) : Host.Outcome State Fault Refusal :=
  .next (s.run t fun c => c.avsAck die)
/-- AVS_TIMEOUT (R452). -/
def execAvsTimeout (t die : Nat) (s : State) : Host.Outcome State Fault Refusal :=
  .next (s.run t fun c => c.avsTimeout die)
/-- BLOB_WRITE (R468). -/
def execBlobWrite (t hp : Nat) (s : State) : Host.Outcome State Fault Refusal :=
  .next (s.runPairs t fun c ps => c.writePage ps hp .BOOT 0 fun c => c.blobWrite hp)
/-- FW_GO (R477). -/
def execFwGo (t hp : Nat) (s : State) : Host.Outcome State Fault Refusal :=
  .next (s.runPairs t fun c ps => c.writePage ps hp .BOOT 0 fun c => c.fwGo hp)
/-- FW_VERIFIED (R317). -/
def execFwVerified (t : Nat) (ok : Bool) (mramImage : List Nat) (s : State) : Host.Outcome State Fault Refusal :=
  .next (s.run t fun c => c.fwVerified ok mramImage)
/-- COLD_BOOT (R469). -/
def execColdBoot (t : Nat) (fresh : Bool) (cfg bootSrc : Nat) (identity : Bool) (s : State) :
    Host.Outcome State Fault Refusal :=
  .next (s.runPairs t fun c ps => (c.coldBoot fresh cfg bootSrc identity, if fresh then [] else ps))
/-- BIST_DONE (R470). -/
def execBistDone (t p : Nat) (phys : List Nat) (cores : Nat) (miobor : Bool) (mules banks : Nat) (s : State) :
    Host.Outcome State Fault Refusal :=
  .next (s.run t fun c => (c.bistDone p phys cores miobor mules banks).deviceReady)
/-- SMBUS_CLOCK_TIMEOUT (R463). -/
def execSmbusClockTimeout (t : Nat) (s : State) : Host.Outcome State Fault Refusal :=
  .next (s.run t fun c => c.smbusTimeout)

end Sys2Proof.Machine
end

