-- ==== Sys2Proof/Machine/Goose.lean ====
section
/-! DEFINITION. The Goose (R410 to R416): wait states of the watched queues, scans, local and distributed cycles, stalls, and how a head command
is ended. -/

namespace Sys2Proof.Machine

open Sys2Proof

/-- The bytes of a probe's list (R415): NODE, TAG and fetch time of each entry. -/
def probeBytes (l : List (Nat × Nat × Nat)) : List Nat :=
  l.flatMap fun e => bytesOf 2 e.1 ++ [0, 0] ++ bytesOf 4 e.2.1 ++ bytesOf 8 e.2.2

/-- The entry of the command that was fetched last; ties go to the higher node ID (R416). -/
def latestFetched (l : List (Nat × Nat × Nat)) : Option (Nat × Nat × Nat) :=
  l.foldl (fun b e => match b with
    | none => some e
    | some x => if x.2.2 < e.2.2 ∨ (x.2.2 = e.2.2 ∧ x.1 < e.1) then some e else b) none

namespace Chip

/-- The node ID of a queue of a partition of this G9 (R411). -/
def nodeId (c : Chip) (p n : Nat) : Nat := c.clusterIndex * 2048 + p * 128 + n
/-- The node ID as anyone outside a confidential context sees it. -/
def shownNode (c : Chip) (p n : Nat) : Nat := c.nodeId p (if 64 ≤ n && c.isConf (n - 64) then 3 else n)
/-- The nodes of a partition. -/
def gooseNodes (c : Chip) (p : Nat) : List Nat := [0, 1, 2] ++ if p = c.leadPart then (c.residents p).map (64 + ·) else []
/-- The queue of a node; the peer-channel queue is none. -/
def nodeQueue (p n : Nat) : Option QId :=
  if n = 0 then some (.route p) else if n = 1 then some (.sched p) else if 64 ≤ n then some (.mule (n - 64) p) else none
/-- The outstanding requests to other partitions, oldest first. -/
def peerQueue (c : Chip) (p : Nat) : List Request := (c.part p).requests.filter fun r => decide (0xFF000 ≤ r.dst) && decide (r.dst < 0xFF200)
/-- The first command of a queue that was fetched and has not completed. -/
def headCmd (c : Chip) (i : QId) : Option Cmd := (c.cmdsOf i).head?

/-- The zones whose transactions a route command waits for. -/
def cmdZones (c : Chip) (i : QId) (tag : Nat) : List Nat :=
  let mine := fun (r : TxnReq) =>
    r.cmd = some (i, tag) || (match r.slice with | some n => (c.slices.any fun s => s.num = n && s.cmds.contains (i, tag)) | none => false)
  let one := allParts.filter fun z => match (c.part z).txn with | some x => mine x.req | none => false
  match (c.part c.leadPart).domain with
  | some d => if mine d.req then d.req.zones else one
  | none => one

/-- The head of a node: its TAG, its progress count and when it was fetched. What counts as progress of a route command is its start, the
stages of its transactions and the answers that are still out. -/
def gooseHead (c : Chip) (p n : Nat) : Option (Nat × Nat × Nat) :=
  match nodeQueue p n with
  | none => (c.peerQueue p).head?.map fun r => (r.msg.tag, 0, r.sentAt)
  | some i =>
    (c.headCmd i).map fun y =>
      let zs := if n = 0 then c.cmdZones i y.d.tag else []
      let work := zs.map fun z =>
        (match (c.part z).txn with | some x => x.stage | none => 0) + 16 * (c.part z).requests.length
      (y.d.tag, ofBool y.started.isSome + 2 * work.sum, y.fetched)

/-- What a route command outside a domain transaction of its own waits on: another zone that its transaction waits for, or its agents. -/
def routeWait (c : Chip) (p tag : Nat) : Nat × Nat :=
  let waiting := allParts.findSome? fun q => ((c.part q).waitTxn.find? fun r => r.cmd = some (QId.route p, tag)).bind fun r =>
    r.zones.find? fun z => z ≠ p && ((c.part z).txn.isSome || (c.part z).restarting)
  match waiting with
  | some z => (3, c.nodeId z 0)
  | none => (4, 0)

/-- A node's wait state (R412): WAIT_KIND and target. A route command whose domain transaction waits for another zone waits on that zone's
route commit node, and so does one whose transaction waits for a zone to be free; an XDEMAND waits on the lead's schedule node. -/
def gooseWait (c : Chip) (p n : Nat) : Nat × Nat :=
  let zone := fun (z : Nat) => (if z = p then (4, 0) else (3, c.nodeId z 0))
  match c.gooseHead p n with
  | none => (1, 0)
  | some (tag, _, _) =>
    if n = 0 then
      let mine := fun (r : TxnReq) => r.cmd = some (QId.route p, tag)
      match (c.part c.leadPart).domain with
      | some d =>
        if mine d.req then (match d.wait.find? (· ≠ p) with | some z => zone z | none => (4, 0))
        else c.routeWait p tag
      | none => c.routeWait p tag
    else if n = 2 then
      match (c.peerQueue p).head? with
      | some r => if r.msg.type = 0x80 then (if r.dst = c.partFid p then 2 else 3, (r.dst - 0xFF000) * 128 + 1) else (4, 0)
      | none => (1, 0)
    else
      match (nodeQueue p n).bind c.headCmd with
      | some y => if y.started.isSome then (0, 0) else (4, 0)
      | none => (1, 0)

/-- A node's record. -/
def gooseRec (c : Chip) (p n : Nat) : GooseNode := SMap.get {} (c.part p).goose n
/-- Changes a node's record. -/
def modGoose (c : Chip) (p n : Nat) (f : GooseNode → GooseNode) : Chip :=
  c.modPart p fun s => { s with goose := SMap.set {} s.goose n (f (SMap.get {} s.goose n)) }

/-- A node that is never a victim: its transaction has sent its first COMMIT (R133, R416). -/
def gooseSpared (c : Chip) (p n : Nat) : Bool :=
  n = 0 && (match c.headCmd (.route p) with
    | some y => (c.cmdZones (.route p) y.d.tag).any fun z => match (c.part z).txn with | some x => x.commitSent | none => false
    | none => false)

/-! Ending a head command (R416) -/

/-- Nothing waits any more for a command that has ended. -/
def forgetCmd (c : Chip) (k : QId × Nat) : Chip :=
  let req := fun (r : TxnReq) => if r.cmd = some k then { r with cmd := none } else r
  { c with
    parts := c.parts.map fun e => (e.1, { e.2 with
      waitTxn := e.2.waitTxn.filter fun r => r.cmd ≠ some k
      txn := e.2.txn.map fun x => { x with req := req x.req }
      domain := e.2.domain.map fun d => { d with req := req d.req }
      lifts := e.2.lifts.map fun l => if l.cmd = some k then { l with cmd := none } else l
      clearRun := e.2.clearRun.map fun r => if r.cmd = some k then { r with cmd := none } else r
      fenceCmds := e.2.fenceCmds.filter fun w => (w.1, w.2.1) ≠ k
      queryCmd := e.2.queryCmd.filter fun w => (w.1, w.2.1) ≠ k
      bankCmd := e.2.bankCmd.filter fun w => (w.q, w.tag) ≠ k
      staticCmd := e.2.staticCmd.filter fun w => (w.1, w.2.1) ≠ k
      discCmd := e.2.discCmd.filter fun w => (w.1, w.2.1) ≠ k })
    slices := c.slices.map fun s => { s with cmds := s.cmds.filter (· ≠ k) } }

/-- DETAIL of a command that the Goose ended. -/
def gooseDetail : Nat := 0xFFFFFF01

/-- The head of a node ends with TIMEOUT, and its own failure rules apply: a transaction before its first COMMIT is abandoned everywhere, an
admission is undone by R158, a peer-channel request ends at its sender. -/
def gooseEnd (c : Chip) (p n : Nat) : Chip :=
  match nodeQueue p n with
  | none =>
    match (c.peerQueue p).head? with
    | some r => (c.unask p r.dst r.msg.tag).gaveUp p r
    | none => c
  | some i =>
    match c.headCmd i with
    | none => c
    | some y =>
      let k := (i, y.d.tag)
      let zones := c.cmdZones i y.d.tag
      let ss := c.slices.filter fun s => s.cmds.contains k && s.state < 2
      let c := ((c.forgetCmd k).completeDesc i y.d 0x01 gooseDetail)
      let c := ss.foldl (fun c s => c.undo s.num 0x01 0 gooseDetail) c
      if n = 0 && ss.isEmpty then zones.foldl (fun c z => match (c.part z).txn with
        | some x => if x.abandoning.isNone && x.req.slice.isNone then c.abandon z 0x01 [] else c
        | none => c) c
      else c

/-- A partition reset with cause 2, counted on its page. -/
def gooseReset (c : Chip) (p : Nat) : Chip := if c.bypassed p then c else (c.partFault p 2).count .GOOSE_GOOSE_RESETS p

/-- A node is the victim: its head is ended, or, for a victim again within 1 s, its partition is reset. -/
def gooseBreak (c : Chip) (p n : Nat) : Chip :=
  let again : Bool := match (c.gooseRec p n).victim with | some t => decide (c.now < t + 1000000000) | none => false
  if again then c.gooseReset p
  else
    let tag := match c.gooseHead p n with | some h => h.1 | none => 0
    let c := (c.modGoose p n fun r => { r with victim := some c.now }).count .GOOSE_VICTIMS p
    let c := c.setReg .GOOSE_LAST_VICTIM p 0 (c.shownNode p n)
    let c := c.setReg .GOOSE_LAST_VICTIM_TAG p 0 (if c.shownNode p n = c.nodeId p n then tag else 0)
    c.gooseEnd p n

/-! Scans (R413, R414) -/

/-- One node at a scan. -/
def scanNode (c : Chip) (p n : Nat) : Chip :=
  let h := c.gooseHead p n
  let w := c.gooseWait p n
  c.modGoose p n fun r =>
    let tag := h.map fun x => x.1
    let prog := match h with | some x => x.2.1 | none => 0
    let same : Bool := tag.isSome && r.head = tag && r.progress = prog
    { head := tag, progress := prog, stuck := if same && (w.1 = 2 || w.1 = 3) then min 255 (r.stuck + 1) else 0
      since := if same then r.since else c.now, stalled := same && r.stalled, victim := r.victim }

/-- The local cycle that a path of confirmed nodes runs into. -/
def localRing (c : Chip) (p : Nat) : Nat → List Nat → Option (List Nat)
  | 0, _ => none
  | f + 1, path =>
    match path.getLast? with
    | none => none
    | some n =>
      let w := c.gooseWait p n
      if w.1 = 2 ∧ c.reg .GOOSE_CONFIRM p ≤ (c.gooseRec p n).stuck then
        let m := w.2 % 128
        if path.contains m then some (path.dropWhile (· ≠ m)) else localRing c p f (path ++ [m])
      else none

/-- A context of a node that R313 hides; 64 where there is none. -/
def hiddenOf (c : Chip) (l : List Nat) : Nat :=
  match l.find? fun n => 64 ≤ n && c.isConf (n - 64) with | some n => n - 64 | none => 64

/-- A local cycle is reported, and broken while AUTO_BREAK is 1. -/
def localCycle (c : Chip) (p : Nat) (ring : List Nat) : Chip :=
  let c := (c.count .GOOSE_LOCAL_CYCLES p).setReg .GOOSE_LAST_CYCLE_AT p 0 c.now
  let c := c.henAny p 0x1906 (c.hiddenOf ring)
  if c.reg .GOOSE_AUTO_BREAK p = 0 then c
  else
    let l := (ring.filter fun n => !c.gooseSpared p n).filterMap fun n => (c.gooseHead p n).map fun h => (c.nodeId p n, h.1, h.2.2)
    match latestFetched l with
    | some e => c.gooseBreak p (e.1 % 128)
    | none => c.gooseReset p

/-- A node whose head has made no progress for STALL ms. -/
def stallNode (c : Chip) (p n : Nat) : Chip :=
  let r := c.gooseRec p n
  if r.head.isNone || r.stalled || c.now < r.since + c.reg .GOOSE_STALL p * 1000000 then c
  else
    let c := (c.modGoose p n fun r => { r with stalled := true }).count .GOOSE_STALLS p
    let c := c.henAny p 0x1907 (c.hiddenOf [n])
    if c.reg .GOOSE_AUTO_BREAK p = 0 || c.gooseSpared p n then c else c.gooseBreak p n

/-! Probes (R415) -/

/-- WAITFOR goes to the partition that owns a node. -/
def sendProbe (c : Chip) (p initiator target : Nat) (victim : Bool) (l : List (Nat × Nat × Nat)) : Chip :=
  let body := [initiator, l.length, ofBool victim, target] ++ l.flatMap fun e => [e.1, e.2.1, e.2.2]
  (c.count .GOOSE_PROBES p).pask p (0xFF000 + target / 128) 0x8A body

/-- The victim of a cycle that a list gives; an entry with fetch time 0 stands for a node that is never a victim. The owner of the node breaks
it; with none left, the partition of the highest node ID is reset. -/
def distVictim (c : Chip) (p initiator : Nat) (l : List (Nat × Nat × Nat)) : Chip :=
  let l := l.map fun e => if e.1 / 128 = c.nodeId p 0 / 128 && c.gooseSpared p (e.1 % 128) then (e.1, e.2.1, 0) else e
  let top := (l.map fun e => e.1).foldl max 0
  match latestFetched (l.filter fun e => e.2.2 ≠ 0) with
  | none =>
    if top / 128 ≠ c.nodeId p 0 / 128 then c.sendProbe p initiator top true l
    else if c.reg .GOOSE_AUTO_BREAK p = 1 then c.gooseReset p else c
  | some e =>
    if e.1 / 128 ≠ c.nodeId p 0 / 128 then c.sendProbe p initiator e.1 true l
    else if c.reg .GOOSE_AUTO_BREAK p = 1 ∧ (c.gooseHead p (e.1 % 128)).map (fun h => h.1) = some e.2.1 then c.gooseBreak p (e.1 % 128)
    else c

/-- The partition closes a cycle. -/
def closeCycle (c : Chip) (p initiator : Nat) (l : List (Nat × Nat × Nat)) : Chip :=
  let c := (c.count .GOOSE_DIST_CYCLES p).setReg .GOOSE_LAST_CYCLE_AT p 0 c.now
  (((c.henAny p 0x3B01).henVar p 0x4003 p false (probeBytes l))).distVictim p initiator l

/-- A probe goes on from a stuck node of the partition: it is appended, and the probe follows its edge. -/
def probeOn (c : Chip) (p initiator : Nat) : Nat → Nat → List (Nat × Nat × Nat) → Chip
  | 0, _, _ => c
  | f + 1, n, l =>
    match c.gooseHead p n with
    | none => c
    | some h =>
      if (c.gooseRec p n).stuck = 0 || 64 ≤ l.length then c
      else
        let l := l ++ [(c.nodeId p n, h.1, h.2.2)]
        let w := c.gooseWait p n
        if l.any fun e => e.1 = w.2 then c.closeCycle p initiator (l.dropWhile fun e => e.1 ≠ w.2)
        else if w.1 = 2 then probeOn c p initiator f (w.2 % 128) l
        else if w.1 = 3 then c.sendProbe p initiator w.2 false l
        else c

/-- WAITFOR arrives for a node of the partition, as a probe or with VICTIM set. -/
def waitFor (c : Chip) (p src tag initiator target : Nat) (victim : Bool) (l : List (Nat × Nat × Nat)) : Chip :=
  c.prequest p src tag 0x8A fun c =>
    let c := c.preply p src tag 0x8A 0x00
    if target / 128 ≠ c.nodeId p 0 / 128 then c
    else if victim then c.distVictim p initiator l
    else c.probeOn p initiator 65 (target % 128) l

/-- A scan of every node of a partition. -/
def gooseScan (c : Chip) (p : Nat) : Chip :=
  let ns := c.gooseNodes p
  let c := c.modPart p fun s => { s with goose := s.goose.filter fun e => ns.contains e.1 }
  let c := (ns.foldl (fun c n => c.scanNode p n) c).count .GOOSE_SCANS p
  let confirm := c.reg .GOOSE_CONFIRM p
  let rings := ns.filterMap fun n => (c.localRing p 80 [n]).filter fun r =>
    r.foldl min 127 = n && r.contains n && r.any fun m => (c.gooseRec p m).stuck = confirm
  let c := rings.foldl (fun c r => if c.bypassed p then c else c.localCycle p r) c
  let c := ns.foldl (fun c n => if c.bypassed p then c else c.stallNode p n) c
  ns.foldl (fun c n =>
    if !c.bypassed p && (c.gooseWait p n).1 = 3 && (c.gooseRec p n).stuck = confirm then c.probeOn p (c.nodeId p n) 65 n [] else c) c

end Chip

end Sys2Proof.Machine
end

