-- ==== Sys2Proof/Machine/ExecReset.lean ====
section
/-! DEFINITION. The commands of halts, hangs, resets and cluster beats (R399, R400, R409 to R428). -/

namespace Sys2Proof.Machine

open Sys2Proof

/-- DEBUG_HALT (R400). -/
def execDebugHalt (t p core : Nat) (s : State) : Host.Outcome State Fault Refusal :=
  .next (s.run t fun c => c.atPart p fun c => c.debugHalt p core)
/-- DEBUG_RESUME (R400). -/
def execDebugResume (t p core : Nat) (s : State) : Host.Outcome State Fault Refusal :=
  .next (s.run t fun c => c.atPart p fun c => c.debugResume p core)
/-- GOOSE_SCAN (R413). -/
def execGooseScan (t p : Nat) (s : State) : Host.Outcome State Fault Refusal :=
  .next (s.run t fun c => c.atPart p fun c => c.gooseScan p)
/-- WAITFOR (R415). -/
def execWaitfor (t p src tag initiator target : Nat) (victim : Bool) (entries : List (Nat × Nat × Nat)) (s : State) :
    Host.Outcome State Fault Refusal :=
  .next (s.run t fun c => c.atPart p fun c => c.waitFor p src tag initiator target victim entries)
/-- OVERRUN_RESET (R409). -/
def execOverrunReset (t : Nat) (i : QId) (tag : Nat) (s : State) : Host.Outcome State Fault Refusal :=
  .next (s.run t fun c => c.overrun i tag)
/-- CORE_RESET (R417). -/
def execCoreReset (t p mask : Nat) (s : State) : Host.Outcome State Fault Refusal :=
  .next (s.run t fun c => c.atPart p fun c => c.coreResets p mask)
/-- GROUP_RESET (R186). -/
def execGroupReset (t p mask : Nat) (fault : Bool) (s : State) : Host.Outcome State Fault Refusal :=
  .next (s.run t fun c => c.atPart p fun c => c.groupResets p mask fault)
/-- MIOBOR_RESET (R235). -/
def execMioborReset (t p : Nat) (fault : Bool) (s : State) : Host.Outcome State Fault Refusal :=
  .next (s.run t fun c => c.atPart p fun c => c.mioReset p (if fault then none else some 1))
/-- PART_RESET (R419). -/
def execPartReset (t p cause : Nat) (s : State) : Host.Outcome State Fault Refusal :=
  .next (s.run t fun c => c.partResetFor p cause)
/-- PARTITION_READY (R419). -/
def execPartitionReady (t p : Nat) (s : State) : Host.Outcome State Fault Refusal :=
  .next (s.run t fun c => c.readyOn p)
/-- PARTITION_NOT_READY (R419). -/
def execPartitionNotReady (t p : Nat) (s : State) : Host.Outcome State Fault Refusal :=
  .next (s.run t fun c => (c.partNotReady p).deviceReady)
/-- PART_REINSTATE (R424). -/
def execPartReinstate (t hp p : Nat) (s : State) : Host.Outcome State Fault Refusal :=
  .next (s.runPairs t fun c ps => c.writePage ps hp .RESET 0 fun c => if c.reg .DEVICE_HOST_CFG = 3 ∧ c.ownerPort p ≠ hp then c else c.partReinstate p)
/-- DEVICE_RESET (R420). -/
def execDeviceReset (t kind cause cfg bootSrc : Nat) (s : State) : Host.Outcome State Fault Refusal :=
  .next (s.run t fun c => c.deviceReset kind cause cfg bootSrc)
/-- DEVICE_REINSTATE (R425). -/
def execDeviceReinstate (t hp : Nat) (s : State) : Host.Outcome State Fault Refusal :=
  .next (s.runPairs t fun c ps => c.writePage ps hp .RESET 0 fun c => c.deviceReinstate)
/-- CLUSTER_BEAT_SEND (R426). -/
def execClusterBeatSend (t : Nat) (s : State) : Host.Outcome State Fault Refusal :=
  .next (s.run t fun c => c.beatOut)
/-- CLUSTER_BEAT (R426). -/
def execClusterBeat (t p src : Nat) (s : State) : Host.Outcome State Fault Refusal :=
  .next (s.run t fun c => c.atPart p fun c => c.beatIn p src)
/-- CLUSTER_BEAT_TIMEOUT (R426). -/
def execClusterBeatTimeout (t worker : Nat) (s : State) : Host.Outcome State Fault Refusal :=
  .next (s.run t fun c => c.beatLost worker)
/-- G9_STATE (R426). -/
def execG9State (t p src tag worker news cause : Nat) (s : State) : Host.Outcome State Fault Refusal :=
  .next (s.run t fun c => c.atPart p fun c => c.g9State p src tag worker news cause)
/-- STANDBY_TAKEOVER (R427). -/
def execStandbyTakeover (t : Nat) (s : State) : Host.Outcome State Fault Refusal :=
  .next (s.run t fun c => c.standbyTakes)
/-- LATE_DEFECT (R428). -/
def execLateDefect (t p : Nat) (unit : Defect) (s : State) : Host.Outcome State Fault Refusal :=
  .next (s.run t fun c => (c.lateDefect p unit).deviceReady)

end Sys2Proof.Machine
end

