-- ==== Sys2Proof/Machine/ExecRoute.lean ====
section
/-! DEFINITION. What each command of discovery and route transactions means (R97 to R141, R481). -/

namespace Sys2Proof.Machine

open Sys2Proof

/-- DIRECTED_RESPONSE (R100). -/
def execDirectedResponse (t p : Nat) (blk : DirBlock) (s : State) : Host.Outcome State Fault Refusal :=
  .next (s.run t fun c => c.atPart p fun c => c.directedResponse p blk)
/-- DIRECTED_TIMEOUT (R103). -/
def execDirectedTimeout (t p tag : Nat) (s : State) : Host.Outcome State Fault Refusal :=
  .next (s.run t fun c => c.atPart p fun c => c.directedTimeout p tag)
/-- DISCOVERY_COMPARE (R106). -/
def execDiscoveryCompare (t p : Nat) (s : State) : Host.Outcome State Fault Refusal :=
  .next (s.run t fun c => c.atPart p fun c => (c.discoveryCompare p).restartOn p)
/-- LATE_LINK (R106). -/
def execLateLink (t p : Nat) (u : UnitId) (k : Nat) (blk : IdBlock) (delay : Nat) (s : State) :
    Host.Outcome State Fault Refusal :=
  .next (s.run t fun c => c.atPart p fun c => c.lateLink p u k blk delay)
/-- CIRCUIT_VERIFY (R110). -/
def execCircuitVerify (t n : Nat) (obs : List CircuitObs) (s : State) : Host.Outcome State Fault Refusal :=
  .next (s.run t fun c => c.circuitVerify n obs)
/-- DISCOVER (R115). -/
def execDiscover (t p : Nat) (d : Desc) (s : State) : Host.Outcome State Fault Refusal :=
  .next (s.run t fun c => c.runCmd (.route p) { d with opcode := 0x70 } fun c => c.discover p d.tag d)
/-- LOAD_PLAN (R104). -/
def execLoadPlan (t p : Nat) (d : Desc) (s : State) : Host.Outcome State Fault Refusal :=
  .next (s.run t fun c => c.runCmd (.route p) { d with opcode := 0x71 } fun c => c.loadPlan p d.tag d)
/-- READ_TOPOLOGY (R114). -/
def execReadTopology (t p : Nat) (d : Desc) (s : State) : Host.Outcome State Fault Refusal :=
  .next (s.run t fun c => c.runCmd (.route p) { d with opcode := 0x72 } fun c => c.readTopology p d.tag d)
/-- RECYCLE (R115). -/
def execRecycle (t p : Nat) (d : Desc) (s : State) : Host.Outcome State Fault Refusal :=
  .next (s.run t fun c => c.runCmd (.route p) { d with opcode := 0x73 } fun c => c.recycle p d.tag d)
/-- PEER_REPORT (R481). -/
def execPeerReport (t p src : Nat) (news : PeerNews) (s : State) : Host.Outcome State Fault Refusal :=
  .next (s.run t fun c => c.atPart p fun c => (c.peerReport p src news).sliceNews p src news.slices)
/-- RECOMMIT (R140). -/
def execRecommit (t p : Nat) (d : Desc) (s : State) : Host.Outcome State Fault Refusal :=
  .next (s.run t fun c => c.runCmd (.route p) { d with opcode := 0x60 } fun c => c.recommit p d.tag d)
/-- RELOAD_STATIC (R127). -/
def execReloadStatic (t p : Nat) (d : Desc) (s : State) : Host.Outcome State Fault Refusal :=
  .next (s.run t fun c => c.runCmd (.route p) { d with opcode := 0x61 } fun c => c.reloadStatic p d.tag d)
/-- QUERY_EPOCHS (R140). -/
def execQueryEpochs (t p : Nat) (d : Desc) (s : State) : Host.Outcome State Fault Refusal :=
  .next (s.run t fun c => c.runCmd (.route p) { d with opcode := 0x62 } fun c => c.queryEpochs p d.tag d)
/-- SET_LINK (R140). -/
def execSetLink (t p : Nat) (d : Desc) (s : State) : Host.Outcome State Fault Refusal :=
  .next (s.run t fun c => c.runCmd (.route p) { d with opcode := 0x63 } fun c => c.setLink p d.tag d)
/-- CLEAR_FALLBACK (R140). -/
def execClearFallback (t p : Nat) (d : Desc) (s : State) : Host.Outcome State Fault Refusal :=
  .next (s.run t fun c => c.runCmd (.route p) { d with opcode := 0x64 } fun c => c.clearFallback p d.tag d)
/-- READ_BANK (R140). -/
def execReadBank (t p : Nat) (d : Desc) (s : State) : Host.Outcome State Fault Refusal :=
  .next (s.run t fun c => c.runCmd (.route p) { d with opcode := 0x65 } fun c => c.readBank p d.tag d)
/-- GENERATE_DONE (R130). -/
def execGenerateDone (t p : Nat) (s : State) : Host.Outcome State Fault Refusal :=
  .next (s.run t fun c => c.atPart p fun c => c.generateDone p)
/-- PREPARE_ACK (R134). -/
def execPrepareAck (t p src tag st : Nat) (s : State) : Host.Outcome State Fault Refusal :=
  .next (s.run t fun c => c.atPart p fun c => c.prepareAck p src tag st)
/-- DRAIN_ACK (R134). -/
def execDrainAck (t p src tag st : Nat) (s : State) : Host.Outcome State Fault Refusal :=
  .next (s.run t fun c => c.atPart p fun c => c.plainAck p src tag 0x24 st)
/-- COMMIT_ACK (R130). -/
def execCommitAck (t p src tag st : Nat) (s : State) : Host.Outcome State Fault Refusal :=
  .next (s.run t fun c => c.atPart p fun c => (c.plainAck p src tag 0x26 st).restartOn p)
/-- RESUME_ACK (R130). -/
def execResumeAck (t p src tag st : Nat) (s : State) : Host.Outcome State Fault Refusal :=
  .next (s.run t fun c => c.atPart p fun c => (c.plainAck p src tag 0x28 st).restartOn p)
/-- EPOCH_REPORT (R137). -/
def execEpochReport (t p src tag st : Nat) (rep : List Nat) (s : State) : Host.Outcome State Fault Refusal :=
  .next (s.run t fun c => c.atPart p fun c => (c.epochReport p src tag st rep).restartOn p)
/-- ROLLBACK (R134). -/
def execRollback (t p src : Nat) (rep : List Nat) (s : State) : Host.Outcome State Fault Refusal :=
  .next (s.run t fun c => c.atPart p fun c => c.rollback p src rep)
/-- STAGE_REPORT (R130). -/
def execStageReport (t p stage : Nat) (s : State) : Host.Outcome State Fault Refusal :=
  .next (s.run t fun c => c.atPart p fun c => c.stageReport p stage)
/-- COMMIT_DEADLINE (R132). -/
def execCommitDeadline (t p : Nat) (s : State) : Host.Outcome State Fault Refusal :=
  .next (s.run t fun c => c.atPart p fun c => c.commitDeadlinePassed p)
/-- COMMIT_POLL (R134). -/
def execCommitPoll (t p : Nat) (s : State) : Host.Outcome State Fault Refusal :=
  .next (s.run t fun c => c.atPart p fun c => c.commitPoll p)
/-- AUTO_DELAY_EXPIRY (R139). -/
def execAutoDelayExpiry (t p : Nat) (s : State) : Host.Outcome State Fault Refusal :=
  .next (s.run t fun c => c.atPart p fun c => c.autoExpiry p)
/-- ABANDON_ACK (R134). -/
def execAbandonAck (t p src tag st : Nat) (s : State) : Host.Outcome State Fault Refusal :=
  .next (s.run t fun c => c.atPart p fun c => (c.plainAck p src tag 0x2A st).restartOn p)

end Sys2Proof.Machine
end

