-- ==== Sys2Proof/Machine/ExecSched.lean ====
section
/-! DEFINITION. What each command of slot scheduling means (R165 to R203, R299). -/

namespace Sys2Proof.Machine

open Sys2Proof

/-- DEMAND (R174). -/
def execDemand (t p src tag : Nat) (body : DemandBody) (s : State) : Host.Outcome State Fault Refusal :=
  .next (s.run t fun c => c.atPart p fun c => c.demand p src tag body)
/-- FRAME_ENTERS_RING (R170). -/
def execFrameEntersRing (t p : Nat) (s : State) : Host.Outcome State Fault Refusal :=
  .next (s.run t fun c => c.atPart p fun c => c.frameEntersRing p)
/-- PLACEMENT_CUT (R179). -/
def execPlacementCut (t p job w : Nat) (s : State) : Host.Outcome State Fault Refusal :=
  .next (s.run t fun c => c.atPart p fun c => c.placementCut p job w)
/-- GATHER_POINT (R187). -/
def execGatherPoint (t p job w : Nat) (s : State) : Host.Outcome State Fault Refusal :=
  .next (s.run t fun c => c.atPart p fun c => c.gatherPoint p job w)
/-- PLACE_UNIT (R181). -/
def execPlaceUnit (t p en : Nat) (bad : ClaimFaults) (s : State) : Host.Outcome State Fault Refusal :=
  .next (s.run t fun c => c.atPart p fun c => c.placeUnit p en bad)
/-- ENGINE_IDLE (R185). -/
def execEngineIdle (t p en : Nat) (s : State) : Host.Outcome State Fault Refusal :=
  .next (s.run t fun c => c.atPart p fun c => c.engineIdle p en)
/-- SEAL_SOURCE (R191). -/
def execSealSource (t p job w src fails : Nat) (s : State) : Host.Outcome State Fault Refusal :=
  .next (s.run t fun c => c.atPart p fun c => c.sealSource p job w src fails)
/-- SEND_DEADLINE (R192). -/
def execSendDeadline (t p job w : Nat) (s : State) : Host.Outcome State Fault Refusal :=
  .next (s.run t fun c => c.atPart p fun c => c.sendDeadline p job w)
/-- CROSS_CUT (R197). -/
def execCrossCut (t p job w : Nat) (s : State) : Host.Outcome State Fault Refusal :=
  .next (s.run t fun c => c.atPart p fun c => c.crossCut p job w)
/-- SLOT_LIST_ACK (R193). -/
def execSlotListAck (t p src tag st : Nat) (s : State) : Host.Outcome State Fault Refusal :=
  .next (s.run t fun c => c.atPart p fun c => c.slotListAck p src tag st)
/-- XDEMAND (R196). -/
def execXdemand (t p src tag : Nat) (body : CrossBody) (s : State) : Host.Outcome State Fault Refusal :=
  .next (s.run t fun c => c.atPart p fun c => c.xdemand p src tag body)
/-- XPLACE (R197). -/
def execXplace (t p src tag : Nat) (body : CrossBody) (s : State) : Host.Outcome State Fault Refusal :=
  .next (s.run t fun c => c.atPart p fun c => c.xplace p src tag body)
/-- XPLACE_ACK (R197). -/
def execXplaceAck (t p src tag st : Nat) (s : State) : Host.Outcome State Fault Refusal :=
  .next (s.run t fun c => c.atPart p fun c => c.xplaceAck p src tag st)
/-- TEMPLATE_SEQ_DEADLINE (R89). -/
def execTemplateSeqDeadline (t p job : Nat) (s : State) : Host.Outcome State Fault Refusal :=
  .next (s.run t fun c => c.atPart p fun c => c.templateSeqDeadline p job)
/-- ENGINE_QUANTUM_EXPIRY (R200). -/
def execEngineQuantumExpiry (t p : Nat) (s : State) : Host.Outcome State Fault Refusal :=
  .next (s.run t fun c => c.atPart p fun c => c.quantumExpiry p)
/-- SET_SCHED (R202). -/
def execSetSched (t p : Nat) (d : Desc) (s : State) : Host.Outcome State Fault Refusal :=
  .next (s.run t fun c => c.runCmd (.sched p) { d with opcode := 0x40 } fun c => c.setSched p d.tag d)
/-- SET_TEMPLATE_SEQ (R202). -/
def execSetTemplateSeq (t p : Nat) (d : Desc) (s : State) : Host.Outcome State Fault Refusal :=
  .next (s.run t fun c => c.runCmd (.sched p) { d with opcode := 0x41 } fun c => c.setTemplateSeq p d.tag d)
/-- READ_WINDOWS (R202). -/
def execReadWindows (t p : Nat) (d : Desc) (s : State) : Host.Outcome State Fault Refusal :=
  .next (s.run t fun c => c.runCmd (.sched p) { d with opcode := 0x42 } fun c => c.readWindows p d.tag d)
/-- VIOLATION (R299). -/
def execViolation (t p src slot k : Nat) (s : State) : Host.Outcome State Fault Refusal :=
  .next (s.run t fun c => c.atPart p fun c => c.violation p src slot k)

end Sys2Proof.Machine
end

