-- ==== Sys2Proof/Machine/ExecSlice.lean ====
section
/-! DEFINITION. What each slice command means (R143 to R164). -/

namespace Sys2Proof.Machine

open Sys2Proof

/-- ADMIT (R157). -/
def execAdmitSlice (t p : Nat) (d : Desc) (s : State) : Host.Outcome State Fault Refusal :=
  .next (s.run t fun c => c.runCmd (.route p) { d with opcode := 0x50 } fun c => c.admitSlice p d.tag d)
/-- ADMIT_STAGE_DONE (R157). -/
def execAdmitStageDone (t n : Nat) (delays : List Nat) (s : State) : Host.Outcome State Fault Refusal :=
  .next (s.run t fun c => c.admitNext n delays)
/-- RESERVE_EXPIRY (R157). -/
def execReserveExpiry (t n : Nat) (s : State) : Host.Outcome State Fault Refusal :=
  .next (s.run t fun c => c.reserveExpiry n)
/-- TRAIN_TIMEOUT (R159). -/
def execTrainTimeout (t n i : Nat) (s : State) : Host.Outcome State Fault Refusal :=
  .next (s.run t fun c => c.trainTimeout n i)
/-- OUTCOME_POLL (R159). -/
def execOutcomePoll (t p n : Nat) (s : State) : Host.Outcome State Fault Refusal :=
  .next (s.run t fun c => c.atPart p fun c => c.outcomePoll p n)
/-- TEARDOWN (R160). -/
def execTeardown (t p : Nat) (d : Desc) (s : State) : Host.Outcome State Fault Refusal :=
  .next (s.run t fun c => c.runCmd (.route p) { d with opcode := 0x51 } fun c => c.teardown p d.tag d)
/-- TEARDOWN_STAGE_DONE (R160). -/
def execTeardownStageDone (t n : Nat) (s : State) : Host.Outcome State Fault Refusal :=
  .next (s.run t fun c => c.teardownNext n)
/-- QUIET_EXPIRY (R160). -/
def execQuietExpiry (t n : Nat) (s : State) : Host.Outcome State Fault Refusal :=
  .next (s.run t fun c => c.quietExpiry n)
/-- QUERY_SLICE (R161). -/
def execQuerySlice (t p : Nat) (d : Desc) (s : State) : Host.Outcome State Fault Refusal :=
  .next (s.run t fun c => c.runCmd (.route p) { d with opcode := 0x52 } fun c => c.querySlice p d.tag d)
/-- MOVE_LEAD (R154). -/
def execMoveLead (t p : Nat) (d : Desc) (s : State) : Host.Outcome State Fault Refusal :=
  .next (s.run t fun c => c.runCmd (.route p) { d with opcode := 0x53 } fun c => c.moveLead p d.tag d)

end Sys2Proof.Machine
end

