-- ==== Sys2Proof/Machine/ExecTime.lean ====
section
/-! DEFINITION. Time across the cluster (R382 to R389). -/

namespace Sys2Proof.Machine

open Sys2Proof

/-- TIME_SET (R384). -/
def execTimeSet (t rc sp rp sc : Nat) (s : State) : Host.Outcome State Fault Refusal :=
  .next (s.run t fun c => c.timeSet rc sp rp sc)
/-- TIME_LEG (R384). -/
def execTimeLeg (t p src delay t1 t2 : Nat) (s : State) : Host.Outcome State Fault Refusal :=
  .next (s.run t fun c => c.atPart p fun c => c.timeLeg p src delay t1 t2)
/-- G9_HOLDOVER (R386). -/
def execG9Holdover (t : Nat) (s : State) : Host.Outcome State Fault Refusal :=
  .next (s.run t fun c => c.holdover)
/-- SET_TIME (R388). -/
def execSetTime (t hp : Nat) (s : State) : Host.Outcome State Fault Refusal :=
  .next (s.runPairs t fun c ps => c.writePage ps hp .TIME 0 fun c => c.setTimeApplied)
/-- PPS_IN_EDGE (R388). -/
def execPpsInEdge (t : Nat) (s : State) : Host.Outcome State Fault Refusal :=
  .next (s.run t fun c => c.ppsEdge)
/-- PPS_MISSING (R388). -/
def execPpsMissing (t : Nat) (s : State) : Host.Outcome State Fault Refusal :=
  .next (s.run t fun c => c.ppsMissing)
/-- PPS_OUT_PULSE (R388). -/
def execPpsOutPulse (t : Nat) (s : State) : Host.Outcome State Fault Refusal :=
  .next (s.run t fun c => c.ppsOut)
/-- CLOCK_REGION_RESTART (R389). -/
def execClockRegionRestart (t p region : Nat) (s : State) : Host.Outcome State Fault Refusal :=
  .next (s.run t fun c => c.regionBack p region)

end Sys2Proof.Machine
end

