-- ==== Sys2Proof/Machine/ExecTrace.lean ====
section
/-! DEFINITION. The commands of capture, records and device snapshots (R394 to R406). -/

namespace Sys2Proof.Machine

open Sys2Proof

/-- ARM (R398). -/
def execArm (t hp p : Nat) (s : State) : Host.Outcome State Fault Refusal :=
  .next (s.runPairs t fun c ps => c.writePage ps hp .TRACE p fun c => c.arm p)
/-- TRACE_STOP (R406). -/
def execTraceStop (t hp p : Nat) (s : State) : Host.Outcome State Fault Refusal :=
  .next (s.runPairs t fun c ps => c.writePage ps hp .TRACE p fun c => c.traceStop p)
/-- TRIG_NOW (R396). -/
def execTrigNow (t hp p : Nat) (s : State) : Host.Outcome State Fault Refusal :=
  .next (s.runPairs t fun c ps => c.writePage ps hp .TRACE p fun c => c.trigger p 0)
/-- TRIG_TIME_REACHED (R396). -/
def execTrigTimeReached (t p : Nat) (s : State) : Host.Outcome State Fault Refusal :=
  .next (s.run t fun c => c.atPart p fun c => c.trigTime p)
/-- CORE_TRIGGER (R396). -/
def execCoreTrigger (t p _core : Nat) (s : State) : Host.Outcome State Fault Refusal :=
  .next (s.run t fun c => c.atPart p fun c => c.coreTrigger p)
/-- DEVICE_CROSS_TRIGGER (R396). -/
def execDeviceCrossTrigger (t p : Nat) (s : State) : Host.Outcome State Fault Refusal :=
  .next (s.run t fun c => c.atPart p fun c => c.trigger p 1)
/-- TRACE_RECORD (R394). -/
def execTraceRecord (t p : Nat) (item : TraceItem) (s : State) : Host.Outcome State Fault Refusal :=
  .next (s.run t fun c => c.atPart p fun c => c.traceRecord p item)
/-- DROP_RUN_END (R397). -/
def execDropRunEnd (t p : Nat) (s : State) : Host.Outcome State Fault Refusal :=
  .next (s.run t fun c => c.atPart p fun c => c.dropRunEnd p)
/-- CAPTURE_DONE (R395). -/
def execCaptureDone (t p : Nat) (s : State) : Host.Outcome State Fault Refusal :=
  .next (s.run t fun c => c.atPart p fun c => c.captureDone p)
/-- TRACE_RD_DATA (R406). -/
def execTraceRdData (t hp p : Nat) (s : State) : Host.Outcome State Fault Refusal :=
  .next (s.run t fun c => c.readPage hp .TRACE p 8 fun c => c.traceRead hp p)
/-- SNAP_NOW (R403). -/
def execSnapNow (t hp : Nat) (s : State) : Host.Outcome State Fault Refusal :=
  .next (s.runPairs t fun c ps => c.writePage ps hp .COUNTERS 0 fun c => c.deviceSnapshot)
/-- SNAP_TIME_REACHED (R403). -/
def execSnapTimeReached (t : Nat) (s : State) : Host.Outcome State Fault Refusal :=
  .next (s.run t fun c => c.snapReached)

end Sys2Proof.Machine
end

