-- ==== Sys2Proof/Machine/Dispatch.lean ====
section
/-! DEFINITION. The effect of a command: one arm for each constructor. -/

namespace Sys2Proof.Machine

open Sys2Proof

/-- The effect of a command on everything but the queue. -/
def exec (i : Instr) (s : State) : Host.Outcome State Fault Refusal :=
  match i with
  | .linkFrameReceive t u k f => Sys2Proof.Machine.execLinkFrameReceive t u k f s
  | .slotStart t u k => Sys2Proof.Machine.execSlotStart t u k s
  | .markEcho t e marks job => Sys2Proof.Machine.execMarkEcho t e marks job s
  | .looseRecoveryStep t u => Sys2Proof.Machine.execLooseRecoveryStep t u s
  | .flowTimeout t u src flow => Sys2Proof.Machine.execFlowTimeout t u src flow s
  | .postWait t u src flow => Sys2Proof.Machine.execPostWait t u src flow s
  | .queueChunk t u chunk => Sys2Proof.Machine.execQueueChunk t u chunk s
  | .lowerTotal t u src flow total => Sys2Proof.Machine.execLowerTotal t u src flow total s
  | .readNotice t u => Sys2Proof.Machine.execReadNotice t u s
  | .read t e addr n => Sys2Proof.Machine.execRead t e addr n s
  | .write t e addr words => Sys2Proof.Machine.execWrite t e addr words s
  | .agentPairExpiry t u src page => Sys2Proof.Machine.execAgentPairExpiry t u src page s
  | .agentFrameBoundary t u => Sys2Proof.Machine.execAgentFrameBoundary t u s
  | .ident t e blk => Sys2Proof.Machine.execIdent t e blk s
  | .identPeriod t u k => Sys2Proof.Machine.execIdentPeriod t u k s
  | .prepare t e ep copy chunks crc => Sys2Proof.Machine.execPrepare t e ep copy chunks crc s
  | .prepareStatic t e ep chunks crc => Sys2Proof.Machine.execPrepareStatic t e ep chunks crc s
  | .tableWrite t e ep region off data => Sys2Proof.Machine.execTableWrite t e ep region off data s
  | .staticLoadTimeout t u => Sys2Proof.Machine.execStaticLoadTimeout t u s
  | .drain t e ep classes => Sys2Proof.Machine.execDrain t e ep classes s
  | .drainQuiet t u => Sys2Proof.Machine.execDrainQuiet t u s
  | .drainTimeout t u => Sys2Proof.Machine.execDrainTimeout t u s
  | .commit t e ep => Sys2Proof.Machine.execCommit t e ep s
  | .commitWaitExpiry t u => Sys2Proof.Machine.execCommitWaitExpiry t u s
  | .resume t e ep => Sys2Proof.Machine.execResume t e ep s
  | .resumeWaitExpiry t u => Sys2Proof.Machine.execResumeWaitExpiry t u s
  | .abandon t e ep => Sys2Proof.Machine.execAbandon t e ep s
  | .epochQuery t e => Sys2Proof.Machine.execEpochQuery t e s
  | .fence t e fid job f => Sys2Proof.Machine.execFence t e fid job f s
  | .unfence t e fid job f => Sys2Proof.Machine.execUnfence t e fid job f s
  | .fencedNotice t e job f fids => Sys2Proof.Machine.execFencedNotice t e job f fids s
  | .peerReset t e fid job reason step time => Sys2Proof.Machine.execPeerReset t e fid job reason step time s
  | .slotList t e seg => Sys2Proof.Machine.execSlotList t e seg s
  | .templateList t e seg => Sys2Proof.Machine.execTemplateList t e seg s
  | .listGuardDeadline t u w => Sys2Proof.Machine.execListGuardDeadline t u w s
  | .windowStart t u => Sys2Proof.Machine.execWindowStart t u s
  | .hold t e => Sys2Proof.Machine.execHold t e s
  | .beat t e => Sys2Proof.Machine.execBeat t e s
  | .controlTimeout t u => Sys2Proof.Machine.execControlTimeout t u s
  | .portDown t u k => Sys2Proof.Machine.execPortDown t u k s
  | .portUp t u k => Sys2Proof.Machine.execPortUp t u k s
  | .internalError t u code => Sys2Proof.Machine.execInternalError t u code s
  | .timeExchange t u => Sys2Proof.Machine.execTimeExchange t u s
  | .timeReq t e t1 => Sys2Proof.Machine.execTimeReq t e t1 s
  | .timeResp t e t1 t2 t3 => Sys2Proof.Machine.execTimeResp t e t1 t2 t3 s
  | .timeRespTimeout t u => Sys2Proof.Machine.execTimeRespTimeout t u s
  | .holdoverEntry t u => Sys2Proof.Machine.execHoldoverEntry t u s
  | .msgRetransmit t u tag => Sys2Proof.Machine.execMsgRetransmit t u tag s
  | .responseStoreExpiry t u src tag => Sys2Proof.Machine.execResponseStoreExpiry t u src tag s
  | .telemetryPeriod t u => Sys2Proof.Machine.execTelemetryPeriod t u s
  | .agentReset t u => Sys2Proof.Machine.execAgentReset t u s
  | .linkHandshake t u k ok => Sys2Proof.Machine.execLinkHandshake t u k ok s
  | .identityBlock t u k blk crcOk => Sys2Proof.Machine.execIdentityBlock t u k blk crcOk s
  | .directedBlock t u k blk crcOk => Sys2Proof.Machine.execDirectedBlock t u k blk crcOk s
  | .measureComplete t u samples => Sys2Proof.Machine.execMeasureComplete t u samples s
  | .directedResponse t p blk => Sys2Proof.Machine.execDirectedResponse t p blk s
  | .directedTimeout t p tag => Sys2Proof.Machine.execDirectedTimeout t p tag s
  | .discoveryCompare t p => Sys2Proof.Machine.execDiscoveryCompare t p s
  | .lateLink t p u k blk delay => Sys2Proof.Machine.execLateLink t p u k blk delay s
  | .circuitVerify t n obs => Sys2Proof.Machine.execCircuitVerify t n obs s
  | .discover t p d => Sys2Proof.Machine.execDiscover t p d s
  | .loadPlan t p d => Sys2Proof.Machine.execLoadPlan t p d s
  | .readTopology t p d => Sys2Proof.Machine.execReadTopology t p d s
  | .recycle t p d => Sys2Proof.Machine.execRecycle t p d s
  | .peerReport t p src news => Sys2Proof.Machine.execPeerReport t p src news s
  | .recommit t p d => Sys2Proof.Machine.execRecommit t p d s
  | .reloadStatic t p d => Sys2Proof.Machine.execReloadStatic t p d s
  | .queryEpochs t p d => Sys2Proof.Machine.execQueryEpochs t p d s
  | .setLink t p d => Sys2Proof.Machine.execSetLink t p d s
  | .clearFallback t p d => Sys2Proof.Machine.execClearFallback t p d s
  | .readBank t p d => Sys2Proof.Machine.execReadBank t p d s
  | .generateDone t p => Sys2Proof.Machine.execGenerateDone t p s
  | .prepareAck t p src tag st => Sys2Proof.Machine.execPrepareAck t p src tag st s
  | .drainAck t p src tag st => Sys2Proof.Machine.execDrainAck t p src tag st s
  | .commitAck t p src tag st => Sys2Proof.Machine.execCommitAck t p src tag st s
  | .resumeAck t p src tag st => Sys2Proof.Machine.execResumeAck t p src tag st s
  | .epochReport t p src tag st rep => Sys2Proof.Machine.execEpochReport t p src tag st rep s
  | .rollback t p src rep => Sys2Proof.Machine.execRollback t p src rep s
  | .stageReport t p stage => Sys2Proof.Machine.execStageReport t p stage s
  | .commitDeadline t p => Sys2Proof.Machine.execCommitDeadline t p s
  | .commitPoll t p => Sys2Proof.Machine.execCommitPoll t p s
  | .autoDelayExpiry t p => Sys2Proof.Machine.execAutoDelayExpiry t p s
  | .admitSlice t p d => Sys2Proof.Machine.execAdmitSlice t p d s
  | .admitStageDone t n delays => Sys2Proof.Machine.execAdmitStageDone t n delays s
  | .reserveExpiry t n => Sys2Proof.Machine.execReserveExpiry t n s
  | .trainTimeout t n k => Sys2Proof.Machine.execTrainTimeout t n k s
  | .outcomePoll t p n => Sys2Proof.Machine.execOutcomePoll t p n s
  | .teardown t p d => Sys2Proof.Machine.execTeardown t p d s
  | .teardownStageDone t n => Sys2Proof.Machine.execTeardownStageDone t n s
  | .quietExpiry t n => Sys2Proof.Machine.execQuietExpiry t n s
  | .querySlice t p d => Sys2Proof.Machine.execQuerySlice t p d s
  | .moveLead t p d => Sys2Proof.Machine.execMoveLead t p d s
  | .demand t p src tag body => Sys2Proof.Machine.execDemand t p src tag body s
  | .frameEntersRing t p => Sys2Proof.Machine.execFrameEntersRing t p s
  | .placementCut t p job w => Sys2Proof.Machine.execPlacementCut t p job w s
  | .gatherPoint t p job w => Sys2Proof.Machine.execGatherPoint t p job w s
  | .placeUnit t p en bad => Sys2Proof.Machine.execPlaceUnit t p en bad s
  | .engineIdle t p en => Sys2Proof.Machine.execEngineIdle t p en s
  | .sealSource t p job w src fails => Sys2Proof.Machine.execSealSource t p job w src fails s
  | .sendDeadline t p job w => Sys2Proof.Machine.execSendDeadline t p job w s
  | .crossCut t p job w => Sys2Proof.Machine.execCrossCut t p job w s
  | .slotListAck t p src tag st => Sys2Proof.Machine.execSlotListAck t p src tag st s
  | .xdemand t p src tag body => Sys2Proof.Machine.execXdemand t p src tag body s
  | .xplace t p src tag body => Sys2Proof.Machine.execXplace t p src tag body s
  | .xplaceAck t p src tag st => Sys2Proof.Machine.execXplaceAck t p src tag st s
  | .templateSeqDeadline t p job => Sys2Proof.Machine.execTemplateSeqDeadline t p job s
  | .engineQuantumExpiry t p => Sys2Proof.Machine.execEngineQuantumExpiry t p s
  | .setSched t p d => Sys2Proof.Machine.execSetSched t p d s
  | .setTemplateSeq t p d => Sys2Proof.Machine.execSetTemplateSeq t p d s
  | .readWindows t p d => Sys2Proof.Machine.execReadWindows t p d s
  | .violation t p src slot k => Sys2Proof.Machine.execViolation t p src slot k s
  | .event t p src code params => Sys2Proof.Machine.execEvent t p src code params s
  | .telemetry t p src recs => Sys2Proof.Machine.execTelemetry t p src recs s
  | .gemm t q d => Sys2Proof.Machine.execGemm t q d s
  | .spgemm t q d => Sys2Proof.Machine.execSpgemm t q d s
  | .bsgemm t q d => Sys2Proof.Machine.execBsgemm t q d s
  | .gate t q d => Sys2Proof.Machine.execGate t q d s
  | .topk t q d => Sys2Proof.Machine.execTopk t q d s
  | .softmax t q d => Sys2Proof.Machine.execSoftmax t q d s
  | .scan t q d => Sys2Proof.Machine.execScan t q d s
  | .hist t q d => Sys2Proof.Machine.execHist t q d s
  | .spmv t q d => Sys2Proof.Machine.execSpmv t q d s
  | .gather t q d => Sys2Proof.Machine.execGather t q d s
  | .scatter t q d => Sys2Proof.Machine.execScatter t q d s
  | .eltwise t q d => Sys2Proof.Machine.execEltwise t q d s
  | .reduce t q d => Sys2Proof.Machine.execReduce t q d s
  | .mioborTimeout t q tag => Sys2Proof.Machine.execMioborTimeout t q tag s
  | .mioborCtxSwitch t p => Sys2Proof.Machine.execMioborCtxSwitch t p s
  | .forecastStart t p job w => Sys2Proof.Machine.execForecastStart t p job w s
  | .forecastDeadline t p job w => Sys2Proof.Machine.execForecastDeadline t p job w s
  | .forecastPublish t p job w => Sys2Proof.Machine.execForecastPublish t p job w s
  | .analyseReq t hp p job => Sys2Proof.Machine.execAnalyseReq t hp p job s
  | .analysisDone t p job => Sys2Proof.Machine.execAnalysisDone t p job s
  | .histReset t p src tag job => Sys2Proof.Machine.execHistReset t p src tag job s
  | .linkHealthEval t p => Sys2Proof.Machine.execLinkHealthEval t p s
  | .loadImage t x p d => Sys2Proof.Machine.execLoadImage t x p d s
  | .signatureVerified t x p tag => Sys2Proof.Machine.execSignatureVerified t x p tag s
  | .streamDone t x p tag => Sys2Proof.Machine.execStreamDone t x p tag s
  | .unloadImage t x p d => Sys2Proof.Machine.execUnloadImage t x p d s
  | .queryImage t x p d => Sys2Proof.Machine.execQueryImage t x p d s
  | .readLog t x p d => Sys2Proof.Machine.execReadLog t x p d s
  | .silentTimeout t p fid => Sys2Proof.Machine.execSilentTimeout t p fid s
  | .failNotePeerReset t p src tag body => Sys2Proof.Machine.execFailNotePeerReset t p src tag body s
  | .fenceReq t p src tag body => Sys2Proof.Machine.execFenceReq t p src tag body s
  | .fenceBatchClose t p job => Sys2Proof.Machine.execFenceBatchClose t p job s
  | .fenceOrder t p src tag body => Sys2Proof.Machine.execFenceOrder t p src tag body s
  | .fenceStageDone t p job f => Sys2Proof.Machine.execFenceStageDone t p job f s
  | .fenceAck t p src tag st => Sys2Proof.Machine.execFenceAck t p src tag st s
  | .fenceRetry t p => Sys2Proof.Machine.execFenceRetry t p s
  | .unfenceOrder t p src tag body => Sys2Proof.Machine.execUnfenceOrder t p src tag body s
  | .fenceSync t p src tag body => Sys2Proof.Machine.execFenceSync t p src tag body s
  | .fenceEp t p d => Sys2Proof.Machine.execFenceEp t p d s
  | .unfenceEp t p d => Sys2Proof.Machine.execUnfenceEp t p d s
  | .queryFences t p d => Sys2Proof.Machine.execQueryFences t p d s
  | .createCtx t hp d => Sys2Proof.Machine.execCreateCtx t hp d s
  | .setResident t hp d => Sys2Proof.Machine.execSetResident t hp d s
  | .importKey t hp d => Sys2Proof.Machine.execImportKey t hp d s
  | .teardownCtx t hp d => Sys2Proof.Machine.execTeardownCtx t hp d s
  | .ctxStageDone t x => Sys2Proof.Machine.execCtxStageDone t x s
  | .quiesceExpiry t x => Sys2Proof.Machine.execQuiesceExpiry t x s
  | .queryCtx t hp d => Sys2Proof.Machine.execQueryCtx t hp d s
  | .tdiStop t x => Sys2Proof.Machine.execTdiStop t x s
  | .rekey t u k far => Sys2Proof.Machine.execRekey t u k far s
  | .rekeyGraceEnd t u k => Sys2Proof.Machine.execRekeyGraceEnd t u k s
  | .spdmRequest t hp fn r => Sys2Proof.Machine.execSpdmRequest t hp fn r s
  | .counterBankRead t hp x p page off => Sys2Proof.Machine.execCounterBankRead t hp x p page off s
  | .hostReadTimeout t hp size => Sys2Proof.Machine.execHostReadTimeout t hp size s
  | .perst t hp => Sys2Proof.Machine.execPerst t hp s
  | .flrPf t hp => Sys2Proof.Machine.execFlrPf t hp s
  | .flrVf t hp x => Sys2Proof.Machine.execFlrVf t hp x s
  | .pageCommit t hp a v => Sys2Proof.Machine.execPageCommit t hp a v s
  | .frameBoundaryApply t => Sys2Proof.Machine.execFrameBoundaryApply t s
  | .pairComplete t hp a size v => Sys2Proof.Machine.execPairComplete t hp a size v s
  | .pairExpiry t hp a => Sys2Proof.Machine.execPairExpiry t hp a s
  | .snapshot t hp a => Sys2Proof.Machine.execSnapshot t hp a s
  | .intStatusClear t hp a v => Sys2Proof.Machine.execIntStatusClear t hp a v s
  | .doorbell t hp q ide v => Sys2Proof.Machine.execDoorbell t hp q ide v s
  | .qBaseWrite t hp q ide v => Sys2Proof.Machine.execQBaseWrite t hp q ide v s
  | .cqBaseWrite t hp q ide v => Sys2Proof.Machine.execCqBaseWrite t hp q ide v s
  | .qEnableWrite t hp q ide v => Sys2Proof.Machine.execQEnableWrite t hp q ide v s
  | .cqHeadWrite t hp q ide v => Sys2Proof.Machine.execCqHeadWrite t hp q ide v s
  | .commandComplete t q tag conds detail => Sys2Proof.Machine.execCommandComplete t q tag conds detail s
  | .commandTimeout t q tag => Sys2Proof.Machine.execCommandTimeout t q tag s
  | .registerWrite t hp a size v => Sys2Proof.Machine.execRegisterWrite t hp a size v s
  | .heartbeat t hp v => Sys2Proof.Machine.execHeartbeat t hp v s
  | .takeover t hp => Sys2Proof.Machine.execTakeover t hp s
  | .hbTimeout t => Sys2Proof.Machine.execHbTimeout t s
  | .bar4Access t hp addr wr size v => Sys2Proof.Machine.execBar4Access t hp addr wr size v s
  | .g9Issue t p core addr stream => Sys2Proof.Machine.execG9Issue t p core addr stream s
  | .g9Wait t p core a0 => Sys2Proof.Machine.execG9Wait t p core a0 s
  | .g9WaitWake t p x core => Sys2Proof.Machine.execG9WaitWake t p x core s
  | .g9Yield t p core => Sys2Proof.Machine.execG9Yield t p core s
  | .programExit t p core a0 => Sys2Proof.Machine.execProgramExit t p core a0 s
  | .programFault t p core cause pc tval => Sys2Proof.Machine.execProgramFault t p core cause pc tval s
  | .userQuantumExpiry t p core => Sys2Proof.Machine.execUserQuantumExpiry t p core s
  | .g9cqWrite t p core csr v => Sys2Proof.Machine.execG9cqWrite t p core csr v s
  | .coreStart t p x cores => Sys2Proof.Machine.execCoreStart t p x cores s
  | .coreStop t p x cores => Sys2Proof.Machine.execCoreStop t p x cores s
  | .copy t q d => Sys2Proof.Machine.execCopy t q d s
  | .hostToTile t q d => Sys2Proof.Machine.execHostToTile t q d s
  | .tileToHost t q d => Sys2Proof.Machine.execTileToHost t q d s
  | .seal t q d => Sys2Proof.Machine.execSeal t q d s
  | .fill t q d => Sys2Proof.Machine.execFill t q d s
  | .verify t q d => Sys2Proof.Machine.execVerify t q d s
  | .tileLockRelease t p tile => Sys2Proof.Machine.execTileLockRelease t p tile s
  | .tileRepair t p tile => Sys2Proof.Machine.execTileRepair t p tile s
  | .coreWatchdog t p core => Sys2Proof.Machine.execCoreWatchdog t p core s
  | .timeSet t rc sp rp sc => Sys2Proof.Machine.execTimeSet t rc sp rp sc s
  | .timeLeg t p src delay t1 t2 => Sys2Proof.Machine.execTimeLeg t p src delay t1 t2 s
  | .g9Holdover t => Sys2Proof.Machine.execG9Holdover t s
  | .setTime t hp => Sys2Proof.Machine.execSetTime t hp s
  | .ppsInEdge t => Sys2Proof.Machine.execPpsInEdge t s
  | .ppsMissing t => Sys2Proof.Machine.execPpsMissing t s
  | .ppsOutPulse t => Sys2Proof.Machine.execPpsOutPulse t s
  | .clockRegionRestart t p region => Sys2Proof.Machine.execClockRegionRestart t p region s
  | .arm t hp p => Sys2Proof.Machine.execArm t hp p s
  | .traceStop t hp p => Sys2Proof.Machine.execTraceStop t hp p s
  | .trigNow t hp p => Sys2Proof.Machine.execTrigNow t hp p s
  | .trigTimeReached t p => Sys2Proof.Machine.execTrigTimeReached t p s
  | .coreTrigger t p core => Sys2Proof.Machine.execCoreTrigger t p core s
  | .deviceCrossTrigger t p => Sys2Proof.Machine.execDeviceCrossTrigger t p s
  | .traceRecord t p item => Sys2Proof.Machine.execTraceRecord t p item s
  | .dropRunEnd t p => Sys2Proof.Machine.execDropRunEnd t p s
  | .captureDone t p => Sys2Proof.Machine.execCaptureDone t p s
  | .traceRdData t hp p => Sys2Proof.Machine.execTraceRdData t hp p s
  | .snapNow t hp => Sys2Proof.Machine.execSnapNow t hp s
  | .snapTimeReached t => Sys2Proof.Machine.execSnapTimeReached t s
  | .debugHalt t p core => Sys2Proof.Machine.execDebugHalt t p core s
  | .debugResume t p core => Sys2Proof.Machine.execDebugResume t p core s
  | .gooseScan t p => Sys2Proof.Machine.execGooseScan t p s
  | .waitfor t p src tag initiator target victim entries => Sys2Proof.Machine.execWaitfor t p src tag initiator target victim entries s
  | .overrunReset t q tag => Sys2Proof.Machine.execOverrunReset t q tag s
  | .coreReset t p mask => Sys2Proof.Machine.execCoreReset t p mask s
  | .groupReset t p mask fault => Sys2Proof.Machine.execGroupReset t p mask fault s
  | .mioborReset t p fault => Sys2Proof.Machine.execMioborReset t p fault s
  | .partReset t p cause => Sys2Proof.Machine.execPartReset t p cause s
  | .partitionReady t p => Sys2Proof.Machine.execPartitionReady t p s
  | .partitionNotReady t p => Sys2Proof.Machine.execPartitionNotReady t p s
  | .partReinstate t hp p => Sys2Proof.Machine.execPartReinstate t hp p s
  | .deviceReset t kind cause cfg bootSrc => Sys2Proof.Machine.execDeviceReset t kind cause cfg bootSrc s
  | .deviceReinstate t hp => Sys2Proof.Machine.execDeviceReinstate t hp s
  | .clusterBeatSend t => Sys2Proof.Machine.execClusterBeatSend t s
  | .clusterBeat t p src => Sys2Proof.Machine.execClusterBeat t p src s
  | .clusterBeatTimeout t worker => Sys2Proof.Machine.execClusterBeatTimeout t worker s
  | .g9State t p src tag worker news cause => Sys2Proof.Machine.execG9State t p src tag worker news cause s
  | .standbyTakeover t => Sys2Proof.Machine.execStandbyTakeover t s
  | .lateDefect t p unit => Sys2Proof.Machine.execLateDefect t p unit s
  | .henRecord t src code hidden isVar body => Sys2Proof.Machine.execHenRecord t src code hidden isVar body s
  | .flushNow t hp => Sys2Proof.Machine.execFlushNow t hp s
  | .flushDone t => Sys2Proof.Machine.execFlushDone t s
  | .mramCopy t hp => Sys2Proof.Machine.execMramCopy t hp s
  | .clear t hp => Sys2Proof.Machine.execClear t hp s
  | .note t hp v => Sys2Proof.Machine.execNote t hp v s
  | .henRdData t hp => Sys2Proof.Machine.execHenRdData t hp s
  | .dvfsTick t watts => Sys2Proof.Machine.execDvfsTick t watts s
  | .railGood t rail mv => Sys2Proof.Machine.execRailGood t rail mv s
  | .railUndervoltage t rail => Sys2Proof.Machine.execRailUndervoltage t rail s
  | .vauxLoss t => Sys2Proof.Machine.execVauxLoss t s
  | .pfWarn t => Sys2Proof.Machine.execPfWarn t s
  | .pfWarnRelease t => Sys2Proof.Machine.execPfWarnRelease t s
  | .sagStageEnter t die stage peak => Sys2Proof.Machine.execSagStageEnter t die stage peak s
  | .sagStageClear t die mask peak => Sys2Proof.Machine.execSagStageClear t die mask peak s
  | .thermalSample t die temps => Sys2Proof.Machine.execThermalSample t die temps s
  | .throttleRelease t die => Sys2Proof.Machine.execThrottleRelease t die s
  | .timeRefLoss t => Sys2Proof.Machine.execTimeRefLoss t s
  | .timeRefRestore t => Sys2Proof.Machine.execTimeRefRestore t s
  | .avsAck t die => Sys2Proof.Machine.execAvsAck t die s
  | .avsTimeout t die => Sys2Proof.Machine.execAvsTimeout t die s
  | .blobWrite t hp => Sys2Proof.Machine.execBlobWrite t hp s
  | .fwGo t hp => Sys2Proof.Machine.execFwGo t hp s
  | .fwVerified t ok mramImage => Sys2Proof.Machine.execFwVerified t ok mramImage s
  | .coldBoot t fresh cfg bootSrc identity => Sys2Proof.Machine.execColdBoot t fresh cfg bootSrc identity s
  | .bistDone t p phys cores miobor mules banks => Sys2Proof.Machine.execBistDone t p phys cores miobor mules banks s
  | .beatSend t p => Sys2Proof.Machine.execBeatSend t p s
  | .echoBlock t u k turnaround => Sys2Proof.Machine.execEchoBlock t u k turnaround s
  | .writeAck t p src tag st => Sys2Proof.Machine.execWriteAck t p src tag st s
  | .readResp t p src tag st words => Sys2Proof.Machine.execReadResp t p src tag st words s
  | .templateAck t p src tag st => Sys2Proof.Machine.execTemplateAck t p src tag st s
  | .unfenceAck t p src tag st => Sys2Proof.Machine.execUnfenceAck t p src tag st s
  | .abandonAck t p src tag st => Sys2Proof.Machine.execAbandonAck t p src tag st s
  | .demandSend t u body => Sys2Proof.Machine.execDemandSend t u body s
  | .demandAck t e body => Sys2Proof.Machine.execDemandAck t e body s
  | .pcieLinkUp t hp speed width vfs master masked => Sys2Proof.Machine.execPcieLinkUp t hp speed width vfs master masked s
  | .pcieLinkDown t hp => Sys2Proof.Machine.execPcieLinkDown t hp s
  | .perstRelease t hp => Sys2Proof.Machine.execPerstRelease t hp s
  | .controlPortDown t p => Sys2Proof.Machine.execControlPortDown t p s
  | .cacheParityError t p core kind => Sys2Proof.Machine.execCacheParityError t p core kind s
  | .smbusClockTimeout t => Sys2Proof.Machine.execSmbusClockTimeout t s
  | .coarseWindowEnd t => Sys2Proof.Machine.execCoarseWindowEnd t s
  | .misroutedRequest t p => Sys2Proof.Machine.execMisroutedRequest t p s

end Sys2Proof.Machine
end

