-- ==== Sys2Proof/Certificates/Slice0/Obligations.lean ====
section
/-! DEFINITION. The statements about the model: the vocabulary they share, then one definition each. -/

namespace Sys2Proof.Machine

open Sys2Proof

/-! What the statements speak of. -/

/-- An agent as a command at time `t` finds it. -/
def State.unit (s : State) (t : Nat) (u : UnitId) : AC := (s.chip.run t fun c => c).acOf u

/-- A register of an agent's own pages. -/
def State.ureg (s : State) (u : UnitId) (r : Reg) : Nat := (s.chip.agent u).regs.get r 0 0

/-- A register of one of an agent's PORT pages. -/
def State.upreg (s : State) (u : UnitId) (r : Reg) (k : Nat) : Nat := (s.chip.agent u).regs.get r k 0

/-- A message that an agent takes: it comes whole from a source that has the right to send it (R73, R95). -/
abbrev State.takes (s : State) (t : Nat) (e : Env) (r : AC.Right) : Prop :=
  e.unit.profile ≠ .partition ∧ e.port < 513 ∧ e.good = true ∧ (s.unit t e.unit).allowed r e = true

/-- A request that an agent takes and that repeats no TAG whose answer it keeps (R95). -/
abbrev State.takesNew (s : State) (t : Nat) (e : Env) (r : AC.Right) : Prop :=
  s.takes t e r ∧
    (s.chip.agent e.unit).stored.find? (fun x => x.src = e.src && x.tag = e.tag && (s.unit t e.unit).now < x.till) = none

/-- The answer to a request of an agent is on its way: the agent keeps it for a repetition of the request (R95). -/
def State.uanswered (s : State) (e : Env) (type status : Nat) (body : List Nat) : Prop :=
  ∃ till, (⟨e.src, e.tag, { type := type + 1, status := status, tag := e.tag, body := body }, till⟩ : Stored) ∈
    (s.chip.agent e.unit).stored

/-- The answer to a request of a partition is on its way: the partition keeps it for a repetition of the request (R95). -/
def State.panswered (s : State) (p src tag type status : Nat) (body : List Nat) : Prop :=
  ∃ till, (⟨src, tag, { type := type + 1, status := status, tag := tag, body := body }, till⟩ : Stored) ∈ (s.chip.part p).stored

/-- The block as a command at time `t` finds it. -/
def State.found (s : State) (t : Nat) : Chip := s.chip.run t fun c => c

/-- A register of the G9. -/
def State.reg (s : State) (r : Reg) (i : Nat) (x : Nat := 0) : Nat := s.chip.reg r i x

/-- A queue's command that has been fetched may run: nothing stops its queue or keeps it from starting (R349, R350). -/
abbrev State.mayRun (s : State) (t : Nat) (i : QId) (d : Desc) (x : Cmd) : Prop :=
  i.inst < 1024 ∧ (s.found t).queueBlocked i = false ∧ (s.found t).cmdOf i d.tag = some x ∧ (s.found t).kept x = false ∧
    (s.found t).recordLost (x.port.getD ((s.found t).queuePort i)) = false

/-- The completion record of a command lies in its port's memory at the completion tail, with a status and DETAIL (R353). -/
abbrev State.recorded (s s' : State) (t : Nat) (i : QId) (x : Cmd) (status detail : Nat) : Prop :=
  s'.chip.hostBytes (x.port.getD ((s.found t).queuePort i)) ((s.found t).q i .cqBase + 16 * (s.found t).q i .cqTail) 16 =
    (s.found t).recordBytes i x.d status detail

/-- A request to a partition that repeats no TAG whose answer it keeps (R95). -/
abbrev State.freshAt (s : State) (t p src tag : Nat) : Prop :=
  (s.chip.part p).stored.find? (fun r => r.src = src && r.tag = tag && max s.chip.now t < r.till) = none

/-- The cluster may execute a context's command now: none of the context is before it, the context has its turn, nothing holds the
cluster, and the context has a tensor table (R231, R232, R235, R236). -/
abbrev State.clusterFree (s : State) (t p x : Nat) (d : Desc) (y : Cmd) : Prop :=
  s.mayRun t (.compute x p) d y ∧ y.d = d ∧ s.chip.stageOf p < 1 ∧ s.reg .PARTITION_MIOBOR_VACANT p ≠ 1 ∧ s.reg .MIOBOR_STATE p ≠ 3 ∧
    (s.found t).mioBehind (.compute x p) d = false ∧ (s.found t).mioTurn p x = true ∧ s.reg .MIOBOR_TTAB_VALID p x ≠ 0

/-- A command of the cluster passes every check at use, its operands are sound, and it computes `j` (R216, R217, R219, R225, R238). -/
abbrev State.computes (s : State) (t p : Nat) (d : Desc) (j : MJob) : Prop :=
  (Chip.namedHandles d).any (fun h => 0x1000 ≤ h) = false ∧ ((s.found t).operands p d.ctx d).2 = [] ∧
    (s.found t).mioJob p ((s.found t).operands p d.ctx d).1 = some j ∧
    (s.found t).firstFails p d.ctx (Chip.predUses ((s.found t).operands p d.ctx d).1 :: j.reads) = [] ∧ j.free = false ∧
    (j.outs.flatMap fun w => w.tiles.filterMap fun e => (s.found t).outFail p d.ctx w.t e.1 e.2) = []

/-- The tiles that hold a tensor: its data, and its 2:4 metadata (R219, R220). -/
abbrev Tensor.takesIn (z : Tensor) : List TileUse :=
  if z.sparse then z.kept.usesAll ++ z.indices.usesAll else z.usesAll

/-- The cluster takes a command of operands `o`: the context may use it now, every handle names an entry of the table that passes, every
tile of the predicate and of the inputs passes its check at use, and so does every tile of an output that is merged; the others are
the context's own SRAM tiles (R216, R217, R219, R223). -/
abbrev State.clusterTakes (s : State) (t p x : Nat) (d : Desc) (y : Cmd) (o : MOps) (ins : List Tensor) (outs : List (Tensor × Bool)) : Prop :=
  d.ctx = x ∧ s.clusterFree t p x d y ∧ (Chip.namedHandles d).any (fun h => 0x1000 ≤ h) = false ∧ (s.found t).operands p x d = (o, []) ∧
    (s.found t).failsOf p x (Chip.predUses o ++ ins.flatMap Tensor.takesIn) = [] ∧
    (outs.flatMap fun w => (List.range w.1.count).filterMap fun i => (s.found t).outFail p x w.1 i w.2) = []

/-- Rows that the predicate skips keep what the output holds (R223). -/
abbrev MOps.keeps (o : MOps) : Bool := o.pred.isSome && !o.zero

/-- The tiles of the outputs are written, no other tile changes, and the command has its record with OK (R217, R353). -/
abbrev State.computed (s s' : State) (t p x : Nat) (y : Cmd) (j : MJob) : Prop :=
  (s'.chip.part p).tiles = ((j.outs.foldl (fun c w => c.writeOut p x w) (s.found t)).part p).tiles ∧
    s.recorded s' t (.compute x p) y 0x00 0

/-- The command has run whole: its job's outputs are written and its record holds OK. -/
abbrev State.computedAll (s s' : State) (t p x : Nat) (y : Cmd) (o : MOps) : Prop :=
  ∃ j, (s.found t).mioJob p o = some j ∧ s.computed s' t p x y j

/-- A range of host memory of a port lies apart from the completion record of a queue, below 2 to the 64. -/
abbrev State.apart (s : State) (t : Nat) (i : QId) (a n : Nat) : Prop :=
  a + n < 2 ^ 64 ∧ (s.found t).q i .cqBase + 16 * (s.found t).q i .cqTail + 16 < 2 ^ 64 ∧
    (a + n ≤ (s.found t).q i .cqBase + 16 * (s.found t).q i .cqTail ∨ (s.found t).q i .cqBase + 16 * (s.found t).q i .cqTail + 16 ≤ a)

/-- A partition whose ring stop is in use: it is not in bypass (R26). -/
abbrev State.alive (s : State) (p : Nat) : Prop := p < 16 ∧ s.chip.bypassed p = false

/-- A context's program is on a core that runs: the instruction or trap is its own (R367 to R369). -/
abbrev State.runsOn (s : State) (t p k x : Nat) : Prop :=
  s.alive p ∧ k < 4 ∧ (s.found t).coreCtx p k = some x ∧ s.reg .CORES_STATE p k = 1

/-- A Mule command may run whole: its COUNT is in range, its runs keep within the shares where they start, and every source and every
destination tile passes its check (R373, R381). -/
abbrev State.muleRuns (s : State) (t p x : Nat) (d : Desc) (y : Cmd) (o : MuOps) : Prop :=
  s.mayRun t (.mule x p) d y ∧ y.d = d ∧ d.ctx = x ∧ MuOps.ofDesc d = o ∧ 1 ≤ o.count ∧ o.count ≤ 65536 ∧
    (o.readsTiles && (s.found t).pastShare p x o.src o.count) = false ∧ (o.writesTiles && (s.found t).pastShare p x o.dst o.count) = false ∧
    (List.range o.count).all (fun j => (!o.readsTiles || ((s.found t).muleSource p x o j).isNone) &&
      (!o.writesTiles || ((s.found t).muleDest p x (o.dst + j)).isNone)) = true

/-- A write of a port reaches a page: the page answers, the port may write it, and the port has no open pair there (R26, R339, R347,
R425). -/
abbrev State.reaches (s : State) (t i : Nat) (g : Page) (n : Nat) : Prop :=
  n < 1024 ∧ i < 2 ∧ (s.found t).pageShut g = false ∧ (Chip.pagePart g n).filter (s.found t).bypassed = none ∧
    (s.found t).mayWrite i g n = true ∧ Chip.openPair s.pairs i g n = none

/-- Registers that a message and its answer may move beside its own effect: the log's place, outage that ends, and the counters of a
message that finds no way (R74, R93, R95). -/
def messageRegs : List Reg :=
  [.ALOG_NEXT, .ACONTROL_RESERVED_STATUS, .ACONTROL_MODE, .ACONTROL_NO_ROUTE, .ACONTROL_NO_EXIT, .APORT_DEFLECTIONS]

/-- A saturating 64-bit counter after one more event (R13). -/
abbrev countUp (v : Nat) : Nat := min (v + 1) (2 ^ 64 - 1)

/-- Every register of an agent's own pages but those named keeps its value. -/
def State.keepsBut (s s' : State) (u : UnitId) (moved : List Reg) : Prop :=
  ∀ r, r ∉ moved → s'.ureg u r = s.ureg u r

/-- The agent that a command acts on, where the command acts on an agent alone. -/
def agentOf : Instr → Option UnitId
  | .slotStart _ u _ => some u
  | .markEcho _ e _ _ => some e.unit
  | .looseRecoveryStep _ u => some u
  | .flowTimeout _ u _ _ => some u
  | .postWait _ u _ _ => some u
  | .queueChunk _ u _ => some u
  | .lowerTotal _ u _ _ _ => some u
  | .readNotice _ u => some u
  | .read _ e _ _ => some e.unit
  | .write _ e _ _ => some e.unit
  | .agentPairExpiry _ u _ _ => some u
  | .agentFrameBoundary _ u => some u
  | .ident _ e _ => some e.unit
  | .identPeriod _ u _ => some u
  | .prepare _ e _ _ _ _ => some e.unit
  | .prepareStatic _ e _ _ _ => some e.unit
  | .tableWrite _ e _ _ _ _ => some e.unit
  | .staticLoadTimeout _ u => some u
  | .drain _ e _ _ => some e.unit
  | .drainQuiet _ u => some u
  | .drainTimeout _ u => some u
  | .commit _ e _ => some e.unit
  | .commitWaitExpiry _ u => some u
  | .resume _ e _ => some e.unit
  | .resumeWaitExpiry _ u => some u
  | .abandon _ e _ => some e.unit
  | .epochQuery _ e => some e.unit
  | .fence _ e _ _ _ => some e.unit
  | .unfence _ e _ _ _ => some e.unit
  | .fencedNotice _ e _ _ _ => some e.unit
  | .peerReset _ e _ _ _ _ _ => some e.unit
  | .directedBlock _ u _ _ _ => some u
  | .measureComplete _ u _ => some u
  | .echoBlock _ u _ _ => some u
  | .slotList _ e _ => some e.unit
  | .templateList _ e _ => some e.unit
  | .listGuardDeadline _ u _ => some u
  | .windowStart _ u => some u
  | .hold _ e => some e.unit
  | .beat _ e => some e.unit
  | .controlTimeout _ u => some u
  | .internalError _ u _ => some u
  | .timeExchange _ u => some u
  | .timeResp _ e _ _ _ => some e.unit
  | .timeRespTimeout _ u => some u
  | .holdoverEntry _ u => some u
  | .telemetryPeriod _ u => some u
  | .demandSend _ u _ => some u
  | .demandAck _ e _ => some e.unit
  | _ => none

/-- The open pairs of the host ports as R347 has them: at most one for a port and page, each of 4 or 8 bytes at an aligned offset where an RWP
field lies, its word within its size. -/
def pairsSound (l : List HostPair) : Prop :=
  (l.map fun x => (x.port, x.page, x.inst)).Nodup ∧
    ∀ x ∈ l, (x.size = 4 ∨ x.size = 8) ∧ x.off % x.size = 0 ∧ x.word < 2 ^ (8 * x.size) ∧
      RegFile.touchesPair (gElems x.page) x.off (8 * x.size) = true

/-- Commands of time, trace, the recorder and the supplies whose work ends with the registers of their own pages, with the partitions that they
reach. -/
def isLocal : Instr → Bool
  | .timeSet .. | .g9Holdover .. | .ppsInEdge .. | .ppsMissing .. | .ppsOutPulse .. | .snapTimeReached .. | .henRecord .. => true
  | .timeRefLoss .. | .timeRefRestore .. | .smbusClockTimeout .. | .railGood .. | .dvfsTick .. => true
  | .setTime _ hp | .snapNow _ hp | .clear _ hp | .note _ hp _ | .henRdData _ hp => decide (hp < 2)
  | .arm _ hp p | .traceStop _ hp p | .trigNow _ hp p | .traceRdData _ hp p => decide (hp < 2 ∧ p < 16)
  | .timeLeg _ p _ _ _ _ | .trigTimeReached _ p | .coreTrigger _ p _ | .deviceCrossTrigger _ p | .traceRecord _ p _ => decide (p < 16)
  | .dropRunEnd _ p | .captureDone _ p => decide (p < 16)
  | .avsAck _ d | .avsTimeout _ d | .throttleRelease _ d => decide (d < 4)
  | _ => false

/-- The queue and the descriptor of a command of the Mules, as the command takes it (R373). -/
def muleOf : Instr → Option (QId × Desc)
  | .copy _ i d => some (i, { d with opcode := 0x20 })
  | .hostToTile _ i d => some (i, { d with opcode := 0x21 })
  | .tileToHost _ i d => some (i, { d with opcode := 0x22 })
  | .seal _ i d => some (i, { d with opcode := 0x23 })
  | .fill _ i d => some (i, { d with opcode := 0x24 })
  | .verify _ i d => some (i, { d with opcode := 0x25 })
  | _ => none

/-- The queue and the TAG of a command of the cluster (R225). -/
def clusterOf : Instr → Option (QId × Nat)
  | .gemm _ i d | .spgemm _ i d | .bsgemm _ i d | .gate _ i d | .topk _ i d | .softmax _ i d | .scan _ i d | .hist _ i d => some (i, d.tag)
  | .spmv _ i d | .gather _ i d | .scatter _ i d | .eltwise _ i d | .reduce _ i d => some (i, d.tag)
  | _ => none

/-- An address of a port's memory lies apart from the place of the next completion record of a queue, whose command has the TAG (R353). -/
def State.offRecord (s : State) (i : QId) (tag k a : Nat) : Prop :=
  k ≠ s.chip.recordPort i tag ∨ a < s.chip.q i .cqBase + 16 * s.chip.q i .cqTail ∨ s.chip.q i .cqBase + 16 * s.chip.q i .cqTail + 16 ≤ a

/-- Pages whose fields those commands leave. -/
def farPages : List Page :=
  [.PARTITION, .ENGINES, .CORES, .MEMORY, .MULE, .GOOSE, .PCOUNTERS, .ROUTE, .SCHED, .MIOBOR, .LEARN, .IMAGE, .FAIL, .LINKSEC, .CTXQ, .CONTEXT,
   .DEVICE, .RESET]

end Sys2Proof.Machine

open Sys2Proof Sys2Proof.Machine


/-- A step takes the command at the front of the queue and answers what exec answers of it on the state with the rest of the
queue. On an empty queue a step changes nothing: the model's choice (log entry 1). -/
def Obligations.StepRunsTheFront : Prop :=
  (∀ (i : Instr) (r : List Instr) (s : State), s.pending = i :: r → step s = exec i { s with pending := r }) ∧
  (∀ (s : State), s.pending = [] → step s = .next s)

/-- No command of the block ends in a fault or a refusal, and none puts a command into the queue or takes one out: only a step
takes the front. -/
def Obligations.CommandsAnswer : Prop :=
  (∀ (i : Instr) (s : State), ∃ s', exec i s = .next s' ∧ s'.pending = s.pending)

/-- Each register field, of the G9 and of every agent, reads the reset value that its field table gives; where a table gives
none the value is the model's (log entry 2). R1: the PCI header of a port's function shows the Revision ID 0x11. No
command waits or has been fetched, no pair is open, and no byte of memory is listed. -/
def Obligations.ResetValues : Prop :=
  ((∀ (r : Reg) (i x : Nat), State.reset.reg r i x = r.desc.reset) ∧ ∀ (u : UnitId) (r : Reg), State.reset.ureg u r = r.desc.reset) ∧
  (∀ (i : Nat), (State.reset.chip.hostPort i).pf = { deviceId := 0x0900, revision := 0x11, classCode := 0x120000 } ∧ (State.reset.chip.hostPort i).vf.revision = 0x11) ∧
  (State.reset.pending = [] ∧ State.reset.pairs = [] ∧ State.reset.chip.cmds = [] ∧ State.reset.chip.hostMem = [] ∧ State.reset.chip.ctxs = [] ∧ State.reset.chip.slices = [] ∧ State.reset.chip.now = 0)

/-- R77: the comparison of two 16-bit epochs, and that a difference of 32,768 counts as not newer. It applies to route epochs:
a PREPARE of an epoch that is not newer than the active one is refused with STALE_EPOCH; and to fence epochs: a FENCE of an
epoch that is not newer than the entry's changes no entry. -/
def Obligations.EpochOrder : Prop :=
  (∀ (a b : Nat), a < 65536 → b < 65536 → (epochNewer a b = true ↔ 1 ≤ ((a : Int) - b) % 65536 ∧ ((a : Int) - b) % 65536 ≤ 32767)) ∧
  (∀ (b : Nat), b < 65536 → epochNewer ((b + 32768) % 65536) b = false) ∧
  (∀ (t : Nat) (e : Env) (ep chunks crc : Nat) (b : Bool) (s : State),
    s.takesNew t e .control →
    s.ureg e.unit .ACONTROL_MODE ≠ 2 →
    epochNewer ep (s.ureg e.unit .ABANKS_ACTIVE_EPOCH) = false →
    (∀ l, (s.chip.agent e.unit).shadowLoad = some l → l.src = e.src → l.tag ≠ e.tag) →
    ∃ s', exec (.prepare t e ep b chunks crc) s = .next s' ∧
      s'.uanswered e 0x20 0x0C [] ∧
      s'.ureg e.unit .ABANKS_STATE = s.ureg e.unit .ABANKS_STATE) ∧
  (∀ (t : Nat) (e : Env) (fid job f : Nat) (x : FenceEntry) (s : State),
    s.takesNew t e .control →
    e.unit.profile ≠ .circuit →
    (s.unit t e.unit).fenceOf fid = some x →
    epochNewer f x.f = false →
    ∃ s', exec (.fence t e fid job f) s = .next s' ∧
      s'.uanswered e 0x30 0x0C [] ∧
      (s'.chip.agent e.unit).fences = (s.chip.agent e.unit).fences) ∧
  (∀ (t : Nat) (e : Env) (fid job f : Nat) (x : FenceEntry) (s : State),
    s.takesNew t e .control →
    e.unit.profile ≠ .circuit →
    (s.unit t e.unit).fenceOf fid = some x →
    epochNewer f x.f = true →
    ∃ s', exec (.fence t e fid job f) s = .next s' ∧
      s'.uanswered e 0x30 0x00 [] ∧
      (((s'.unit t e.unit).fenceOf fid).map (fun y => (y.f, y.lifted)) = some (f, false)))

/-- R347: a port holds at most one pair open on a page; it was opened by an aligned write of 4 or 8 bytes (R345) that names an
RWP field (R12). Every step from a state in which that holds keeps it. -/
def Obligations.OpenPairsStaySound : Prop :=
  (∀ (s s' : State), pairsSound s.pairs → step s = .next s' → pairsSound s'.pairs)

/-- No pair is open at reset, so the invariant of OpenPairsStaySound holds there. -/
def Obligations.OpenPairsAtReset : Prop :=
  (pairsSound State.reset.pairs)

/-- The commands whose effect is an agent's own (its data path, tables, fences, lists, time, ports and the messages that it
takes) leave every other agent, every partition, every register of the G9, memory and the commands in their queues as they
were. -/
def Obligations.AgentsActAlone : Prop :=
  (∀ (i : Instr) (u : UnitId) (s s' : State), agentOf i = some u → u.profile ≠ .partition → exec i s = .next s' → s' = { s with chip := { s.chip.setAgent u (s'.chip.agent u) with now := s'.chip.now, out := s'.chip.out } })

/-- R373, R381: whatever becomes of a Mule command, every tile outside its COUNT tiles from DST is as before, and so is every
byte of host memory outside its completion record and, for TILE_TO_HOST, its host range. R217, R353: a command of the cluster
leaves every tile of other partitions and every byte of host memory outside its record. -/
def Obligations.MoversAndClusterWriteTheirOwn : Prop :=
  (∀ (i : Instr) (d : Desc) (p x : Nat) (s s' : State), muleOf i = some (.mule x p, d) → p < 16 → x < 64 → exec i s = .next s' → ∀ (r n : Nat), ((MuOps.ofDesc d).writesTiles = false ∨ r ≠ p ∨ n < (MuOps.ofDesc d).dst ∨ (MuOps.ofDesc d).dst + (MuOps.ofDesc d).count ≤ n) → s'.chip.tile r n = s.chip.tile r n) ∧
  (∀ (i : Instr) (d : Desc) (p x k a : Nat) (s s' : State), muleOf i = some (.mule x p, d) → p < 16 → x < 64 → a < 2 ^ 64 → exec i s = .next s' → s.chip.q (.mule x p) .cqBase + 16 * s.chip.q (.mule x p) .cqTail + 16 ≤ 2 ^ 64 → s.offRecord (.mule x p) d.tag k a → (MuOps.ofDesc d).dst + (MuOps.ofDesc d).count * (MuOps.ofDesc d).hostSize ≤ 2 ^ 64 → (d.opcode ≠ 0x22 ∨ k ≠ (s.chip.ctx x).port ∨ a < (MuOps.ofDesc d).dst ∨ (MuOps.ofDesc d).dst + (MuOps.ofDesc d).count * (MuOps.ofDesc d).hostSize ≤ a) → s'.chip.hostByte k a = s.chip.hostByte k a) ∧
  (∀ (i : Instr) (tag p x k a : Nat) (s s' : State), clusterOf i = some (.compute x p, tag) → p < 16 → x < 64 → a < 2 ^ 64 → exec i s = .next s' → s.chip.q (.compute x p) .cqBase + 16 * s.chip.q (.compute x p) .cqTail + 16 ≤ 2 ^ 64 → s.offRecord (.compute x p) tag k a → s'.chip.hostByte k a = s.chip.hostByte k a ∧ ∀ (r n : Nat), r ≠ p → s'.chip.tile r n = s.chip.tile r n)

/-- The commands that isLocal names (the time exchanges and PPS, captures and triggers, device snapshots, records and reads of
Hen, rails, clocks, voltage and throttling) leave host memory, the agents, the contexts, the slices and the commands in their
queues as they were, and every field of the pages of other blocks. -/
def Obligations.LocalCommandsStayLocal : Prop :=
  (∀ (i : Instr) (s s' : State), isLocal i = true → exec i s = .next s' → s'.chip.hostMem = s.chip.hostMem ∧ s'.chip.agents = s.chip.agents ∧ s'.chip.ctxs = s.chip.ctxs ∧ s'.chip.slices = s.chip.slices ∧ s'.chip.cmds = s.chip.cmds ∧ ∀ (r : Reg) (n x : Nat), r.desc.page ∈ farPages → n < 4096 → x < 64 → s'.reg r n x = s.reg r n x)

/-- R90, R85, R61: a wait posted on a flow without an entry makes one; a chunk toward a FID that is not fenced joins the
queue; a total lowered to more than has come is noted; a waited flow without progress for FLOW_TIMEOUT frames is released and
its completion record goes out with TIMEOUT; the oldest notice is handed over. Nothing else of the agent changes. -/
def Obligations.RuntimeOperations : Prop :=
  (∀ (t : Nat) (u : UnitId) (src flow : Nat) (s : State),
    u.profile ≠ .partition →
    ((s.chip.agent u).flows.find? (fun x => x.src = src && x.flow = flow) = none) →
    (s.unit t u).flowFull = false →
    ∃ s', exec (.postWait t u src flow) s = .next s' ∧
      (s'.chip.agent u = { s.chip.agent u with
      flows := (s.chip.agent u).flows ++ [{ src := src, flow := flow, progress := (s.unit t u).now, waited := true }],
      ended := (s.chip.agent u).ended.filter fun x => x ≠ (src, flow) })) ∧
  (∀ (t : Nat) (u : UnitId) (k : Chunk) (s : State),
    u.profile ≠ .partition →
    k.addr = none →
    (k.mcast = true ∨ (s.unit t u).isFenced k.dst = false) →
    ∃ s', exec (.queueChunk t u k) s = .next s' ∧
      s'.chip.agent u = { s.chip.agent u with chunks := (s.chip.agent u).chunks ++ [k] } ∧
      s'.chip.out = []) ∧
  (∀ (t : Nat) (u : UnitId) (src flow total : Nat) (f : Flow) (s : State),
    u.profile ≠ .partition →
    ((s.chip.agent u).flows.find? (fun x => x.src = src && x.flow = flow) = some f) →
    f.count < total →
    ∃ s', exec (.lowerTotal t u src flow total) s = .next s' ∧
      (s'.chip.agent u = { s.chip.agent u with
      flows := (mapIf (fun x => x.src = f.src && x.flow = f.flow) (fun _ => { f with lowered := some total }) (s.chip.agent u).flows) }) ∧
      s'.chip.out = []) ∧
  (∀ (t : Nat) (u : UnitId) (src flow : Nat) (f : Flow) (s : State),
    u.profile ≠ .partition →
    ((s.chip.agent u).flows.find? (fun x => x.src = src && x.flow = flow) = some f) →
    f.waited = true →
    f.progress + s.ureg u .ACONTROL_FLOW_TIMEOUT * 131072 ≤ (s.unit t u).now →
    ∃ s', exec (.flowTimeout t u src flow) s = .next s' ∧
      s'.chip.out = [.flowDone u f.src f.flow f.count 0x01] ∧
      ((s'.chip.agent u).flows = (s.chip.agent u).flows.filter fun x => !(x.src = f.src && x.flow = f.flow)) ∧
      (f.src, f.flow) ∈ (s'.chip.agent u).ended ∧
      s'.ureg u .AFLOWS_DONE_TIMEOUT = countUp (s.ureg u .AFLOWS_DONE_TIMEOUT) ∧
      s.keepsBut s' u [.AFLOWS_DONE_TIMEOUT]) ∧
  (∀ (t : Nat) (u : UnitId) (m : Msg) (r : List Msg) (s : State),
    u.profile ≠ .partition →
    (s.chip.agent u).notices = m :: r →
    ∃ s', exec (.readNotice t u) s = .next s' ∧
      s'.chip.agent u = { s.chip.agent u with notices := r } ∧
      s'.chip.out = [.notice u m])

/-- R65, R75: an echo that comes 8,192 ticks or more after the last halving halves L, never below FLOOR; under PIN an echo is
only counted; 16,384 ticks without a halving raise L by STEP, never above CEILING. -/
def Obligations.LooseRate : Prop :=
  (∀ (t : Nat) (e : Env) (marks job : Nat) (s : State),
    s.takes t e .anyone →
    s.ureg e.unit .ALOOSE_PIN = 0 →
    ((s.chip.agent e.unit).lastHalving.all (fun h => h + 8192 ≤ (s.unit t e.unit).now) = true) →
    ∃ s', exec (.markEcho t e marks job) s = .next s' ∧
      s'.ureg e.unit .ALOOSE_RATE = trunc 20 (max (s.ureg e.unit .ALOOSE_FLOOR) (s.ureg e.unit .ALOOSE_RATE / 2)) ∧
      s'.ureg e.unit .ALOOSE_ECHOES_RX = countUp (s.ureg e.unit .ALOOSE_ECHOES_RX) ∧
      s'.ureg e.unit .ALOOSE_HALVINGS = countUp (s.ureg e.unit .ALOOSE_HALVINGS) ∧
      (s'.chip.agent e.unit).lastHalving = some ((s.unit t e.unit).now) ∧
      s.keepsBut s' e.unit (messageRegs ++ [.ALOOSE_RATE, .ALOOSE_ECHOES_RX, .ALOOSE_HALVINGS])) ∧
  (∀ (t : Nat) (e : Env) (marks job : Nat) (s : State),
    s.takes t e .anyone →
    s.ureg e.unit .ALOOSE_PIN ≠ 0 →
    ∃ s', exec (.markEcho t e marks job) s = .next s' ∧
      s'.ureg e.unit .ALOOSE_ECHOES_RX = countUp (s.ureg e.unit .ALOOSE_ECHOES_RX) ∧
      s.keepsBut s' e.unit (messageRegs ++ [.ALOOSE_ECHOES_RX])) ∧
  (∀ (t : Nat) (u : UnitId) (s : State),
    u.profile ≠ .partition →
    (s.chip.agent u).lastRise + 16384 ≤ (s.unit t u).now →
    ∃ s', exec (.looseRecoveryStep t u) s = .next s' ∧
      s'.ureg u .ALOOSE_RATE = trunc 20 (min (s.ureg u .ALOOSE_CEILING) (s.ureg u .ALOOSE_RATE + s.ureg u .ALOOSE_STEP)) ∧
      (s'.chip.agent u).lastRise = (s.unit t u).now ∧
      s.keepsBut s' u [.ALOOSE_RATE])

/-- R325, R76, R60: a frame that passes the link checks and carries a chunk of a known flow for this endpoint counts in the
flow and is delivered; R53: at a switch a SCHED packet whose output is free is assigned to it for the next slot with one more
hop. R54: at a slot start outside a management slot an output that is up sends the packet assigned to the slot; in a
management slot it sends the waiting management packet. -/
def Obligations.LinkTraffic : Prop :=
  (∀ (t : Nat) (z n k : Nat) (f : Frame) (l : LinkEnd) (fl : Flow) (s : State),
    k < 513 →
    ((s.unit t (.endpoint z n)).port k).disabled = false →
    linkCheck ((s.unit t (.endpoint z n)).port k).link ((s.unit t (.endpoint z n)).now) false f = .ok l →
    f.pkt.cls < 2 →
    f.pkt.len ≤ 12288 →
    AC.badAddr f.pkt = false →
    f.pkt.mcast = false →
    f.pkt.dst = s.ureg (.endpoint z n) .AIDENT_FID →
    f.pkt.mark = false →
    (f.pkt.src, f.pkt.flow) ∉ (s.chip.agent (.endpoint z n)).ended →
    ((s.chip.agent (.endpoint z n)).flows.find? (fun x => x.src = f.pkt.src && x.flow = f.pkt.flow) = some fl) →
    fl.decl = some f.pkt.total →
    fl.lowered = none →
    f.pkt.seq < f.pkt.total →
    fl.count + 1 < f.pkt.total →
    ∃ s', exec (.linkFrameReceive t (.endpoint z n) k f) s = .next s' ∧
      ((s'.chip.agent (.endpoint z n)).flows = mapIf (fun x => x.src = fl.src && x.flow = fl.flow)
      (fun _ => { fl with count := fl.count + 1, viol := fl.viol || f.pkt.viol, progress := (s.unit t (.endpoint z n)).now }) (s.chip.agent (.endpoint z n)).flows) ∧
      s'.chip.out = [.deliver (.endpoint z n) f.pkt] ∧
      s'.upreg (.endpoint z n) .APORT_RX_PACKETS k = countUp (s.upreg (.endpoint z n) .APORT_RX_PACKETS k)) ∧
  (∀ (t : Nat) (z m k e q : Nat) (f : Frame) (l : LinkEnd) (s : State),
    k < 64 →
    ((s.unit t (.leaf z m)).port k).disabled = false →
    linkCheck ((s.unit t (.leaf z m)).port k).link ((s.unit t (.leaf z m)).now) false f = .ok l →
    f.pkt.cls = 0 →
    f.pkt.len ≤ 12288 →
    AC.badAddr f.pkt = false →
    f.pkt.mcast = false →
    f.pkt.hops ≠ s.ureg (.leaf z m) .ACONTROL_HOP_LIMIT →
    (s.unit t (.leaf z m)).isFenced f.pkt.dst = false →
    (s.unit t (.leaf z m)).isStale f.pkt.dst f.pkt.fenceEpoch = false →
    (s.unit t (.leaf z m)).lookup f.pkt.dst = some e →
    ((s.unit t (.leaf z m)).outputOf e f.pkt.src f.pkt.dst).1 = some q →
    (s.unit t (.leaf z m)).freeNext q = true →
    ∃ s', exec (.linkFrameReceive t (.leaf z m) k f) s = .next s' ∧
      (((s'.unit t (.leaf z m)).port q).next.map (fun x => (x.slot, x.pkt)) =
      some ((s.unit t (.leaf z m)).now / 128 + 1, { f.pkt with hops := f.pkt.hops + 1 })) ∧
      s'.upreg (.leaf z m) .APORT_RX_PACKETS k = countUp (s.upreg (.leaf z m) .APORT_RX_PACKETS k) ∧
      s'.chip.out = []) ∧
  (∀ (t : Nat) (u : UnitId) (k : Nat) (x : Assigned) (s : State),
    (u.profile = .endpoint ∨ u.profile = .switch) →
    k < 513 →
    (s.unit t u).now % 128 = 0 →
    ((s.unit t u).port k).lastStart ≠ some ((s.unit t u).now / 128) →
    ((s.unit t u).now / 128) % 64 ≠ 63 →
    s.upreg u .APORT_UP k = 1 →
    ((s.unit t u).port k).next = some x →
    x.slot = (s.unit t u).now / 128 →
    ((s.unit t u).port k).link.spent (AC.txIndex ((s.unit t u).port k).link x.pkt) = false →
    ∃ s', exec (.slotStart t u k) s = .next s' ∧
      s'.chip.out = [.packet u k x.slot ((s.unit t u).stamp x.pkt)] ∧
      ((s'.unit t u).port k).next = none ∧
      s'.upreg u .APORT_TX_PACKETS k = countUp (s.upreg u .APORT_TX_PACKETS k)) ∧
  (∀ (t : Nat) (u : UnitId) (k : Nat) (p : Packet) (s : State),
    (u.profile = .endpoint ∨ u.profile = .switch) →
    k < 513 →
    (s.unit t u).now % 128 = 0 →
    ((s.unit t u).port k).lastStart ≠ some ((s.unit t u).now / 128) →
    ((s.unit t u).now / 128) % 64 = 63 →
    k ≠ s.ureg u .ATIME_PARENT_PORT →
    s.upreg u .APORT_UP k = 1 →
    ((s.unit t u).port k).next = none →
    ((s.unit t u).port k).mgmtQ = [p] →
    p.len ≤ 12288 →
    ((s.unit t u).port k).link.spent (AC.txIndex ((s.unit t u).port k).link p) = false →
    ∃ s', exec (.slotStart t u k) s = .next s' ∧
      s'.chip.out = [.packet u k ((s.unit t u).now / 128) ((s.unit t u).stamp p)] ∧
      ((s'.unit t u).port k).mgmtQ = [])

/-- R96: a port that goes down reads UP 0 and latches event 0x2001, one that comes up and is not disabled reads UP 1 and
latches event 0x2002. R99: an identity notice of the partner names its FID and port. R95: an IDENT for the partner joins the
management queue of a port that is up. -/
def Obligations.PortsAndPartners : Prop :=
  (∀ (t : Nat) (u : UnitId) (k : Nat) (s : State),
    u.profile ≠ .partition →
    k < 513 →
    s.upreg u .APORT_UP k = 1 →
    ∃ s', exec (.portDown t u k) s = .next s' ∧
      s'.upreg u .APORT_UP k = 0 ∧
      bit (s'.ureg u .ACOMMON_INT_STATUS) 0 = true ∧
      ((s'.unit t u).port k).link.keyed = false) ∧
  (∀ (t : Nat) (u : UnitId) (k : Nat) (s : State),
    u.profile ≠ .partition →
    k < 513 →
    s.upreg u .APORT_UP k ≠ 1 →
    ((s.unit t u).port k).disabled = false →
    ∃ s', exec (.portUp t u k) s = .next s' ∧
      s'.upreg u .APORT_UP k = 1 ∧
      bit (s'.ureg u .ACOMMON_INT_STATUS) 1 = true ∧
      ((s'.unit t u).port k).link.keyed = true) ∧
  (∀ (t : Nat) (e : Env) (b : IdBlock) (s : State),
    s.takes t e .ident →
    ∃ s', exec (.ident t e b) s = .next s' ∧
      s'.upreg e.unit .APORT_PARTNER_FID e.port = trunc 20 b.fid ∧
      s'.upreg e.unit .APORT_PARTNER_PORT e.port = trunc 9 b.port ∧
      s.keepsBut s' e.unit (messageRegs ++ [.APORT_PARTNER_FID, .APORT_PARTNER_PORT])) ∧
  (∀ (t : Nat) (u : UnitId) (k : Nat) (s : State),
    u.profile ≠ .partition →
    (u.profile = .circuit → k = 0) →
    s.upreg u .APORT_UP k = 1 →
    (((s.unit t u).port k).identAt.all (fun a => a + 1000000 ≤ (s.unit t u).now) = true) →
    ((s.unit t u).port k).mgmtQ.length < 16 →
    ∃ s', exec (.identPeriod t u k) s = .next s' ∧
      ((s'.unit t u).port k).mgmtQ.length = ((s.unit t u).port k).mgmtQ.length + 1 ∧
      (((s'.unit t u).port k).mgmtQ.getLast?.map (fun p => (p.dst, p.msg.map Msg.type)) = some (s.upreg u .APORT_PARTNER_FID k, some 0x10)))

/-- R95: a READ in the bank windows answers the words of the banks. R72: a WRITE to INT_ENABLE changes that field alone; a
WRITE to FID opens a pair and changes no field; its complement within 100 microseconds makes the value pending; a pair whose
complement has not come is dropped and counted. R71: a frame boundary applies the value that waits for it. -/
def Obligations.AgentRegisters : Prop :=
  (∀ (t : Nat) (e : Env) (addr n : Nat) (s : State),
    s.takesNew t e .anyPart →
    0x800000 ≤ addr →
    addr + 4 * n ≤ 0xE00000 →
    ∃ s', exec (.read t e addr n) s = .next s' ∧
      (s'.uanswered e 0x02 0x00 ((List.range n).map fun i => (s.unit t e.unit).readAddr (addr + 4 * i))) ∧
      s.keepsBut s' e.unit messageRegs) ∧
  (∀ (t : Nat) (e : Env) (w : Nat) (s : State),
    s.takesNew t e .control →
    (s.unit t e.unit).openPair e.src 0 = none →
    ∃ s', exec (.write t e 0x1C [w]) s = .next s' ∧
      s'.ureg e.unit .ACOMMON_INT_ENABLE = w % 65536 ∧
      s'.uanswered e 0x04 0x00 [] ∧
      s.keepsBut s' e.unit (messageRegs ++ [.ACOMMON_INT_ENABLE, .ACONTROL_CLAMPS])) ∧
  (∀ (t : Nat) (e : Env) (w : Nat) (s : State),
    s.takesNew t e .control →
    (s.unit t e.unit).openPair e.src 0 = none →
    ∃ s', exec (.write t e 0x110 [w]) s = .next s' ∧
      (⟨e.src, 0, 0x110, [w], (s.unit t e.unit).now⟩ : AgentPair) ∈ (s'.chip.agent e.unit).pairs ∧
      s'.uanswered e 0x04 0x00 [] ∧
      s.keepsBut s' e.unit messageRegs) ∧
  (∀ (t : Nat) (e : Env) (w a : Nat) (s : State),
    s.takesNew t e .control →
    (s.unit t e.unit).openPair e.src 0 = some ⟨e.src, 0, 0x110, [w], a⟩ →
    (s.unit t e.unit).now ≤ a + 100000 →
    ∃ s', exec (.write t e 0x910 [compl 32 w]) s = .next s' ∧
      (s'.chip.agent e.unit).regs.getPending .AIDENT_FID 0 0 = w % 2 ^ 20 ∧
      s'.ureg e.unit .AIDENT_FID = s.ureg e.unit .AIDENT_FID ∧
      (s'.unit t e.unit).openPair e.src 0 = none ∧
      s'.uanswered e 0x04 0x00 []) ∧
  (∀ (t : Nat) (u : UnitId) (src page : Nat) (x : AgentPair) (s : State),
    u.profile ≠ .partition →
    (s.unit t u).openPair src page = some x →
    x.at_ + 100000 < (s.unit t u).now →
    ∃ s', exec (.agentPairExpiry t u src page) s = .next s' ∧
      (s'.unit t u).openPair src page = none ∧
      s'.ureg u .ACONTROL_PAIR_FAILS = countUp (s.ureg u .ACONTROL_PAIR_FAILS) ∧
      s.keepsBut s' u [.ACONTROL_PAIR_FAILS]) ∧
  (∀ (t : Nat) (u : UnitId) (p : Pend) (s : State),
    u.profile ≠ .partition →
    SMap.find? (s.chip.agent u).regs.pend (Reg.key .ACONTROL_HOP_LIMIT 0 0) = some p →
    p.bnd = .frame →
    p.due ≤ (s.unit t u).now →
    ∃ s', exec (.agentFrameBoundary t u) s = .next s' ∧
      s'.ureg u .ACONTROL_HOP_LIMIT = trunc 6 p.v ∧
      SMap.find? (s'.chip.agent u).regs.pend (Reg.key .ACONTROL_HOP_LIMIT 0 0) = none)

/-- R78, R79: PREPARE for a newer epoch, in a state that allows it, opens the shadow load with STATE LOADING; PREPARE with
STATIC for the active epoch opens the static load; TABLE_WRITE of the loaded epoch that is not the last chunk is counted among
the chunks seen and answered OK; ABANDON of the shadow's epoch outside COMMITTED returns to STEADY with nothing valid; a
static load without a TABLE_WRITE for CONTROL_TIMEOUT ends with STATIC_VALID clear. -/
def Obligations.BankLoading : Prop :=
  (∀ (t : Nat) (e : Env) (ep chunks crc : Nat) (copy : Bool) (s : State),
    s.takesNew t e .control →
    (s.chip.agent e.unit).shadowLoad = none →
    epochNewer ep (s.ureg e.unit .ABANKS_ACTIVE_EPOCH) = true →
    (s.ureg e.unit .ABANKS_STATE = 0 ∨ s.ureg e.unit .ABANKS_STATE = 6) →
    0 < chunks →
    ∃ s', exec (.prepare t e ep copy chunks crc) s = .next s' ∧
      s'.ureg e.unit .ABANKS_STATE = 1 ∧
      s'.ureg e.unit .ABANKS_SHADOW_EPOCH = trunc 16 ep ∧
      s'.ureg e.unit .ABANKS_SHADOW_VALID = 1 ∧
      s'.ureg e.unit .ABANKS_SHADOW_COMPLETE = 0 ∧
      (s'.chip.agent e.unit).shadowLoad = some { src := e.src, tag := e.tag, epoch := ep, chunks := chunks, crc := crc, lastWrite := (s.unit t e.unit).now } ∧
      s.keepsBut s' e.unit (messageRegs ++ [.ABANKS_STATE, .ABANKS_SHADOW_EPOCH, .ABANKS_SHADOW_VALID, .ABANKS_SHADOW_COMPLETE])) ∧
  (∀ (t : Nat) (e : Env) (ep chunks crc : Nat) (s : State),
    s.takesNew t e .control →
    (s.chip.agent e.unit).staticLoad = none →
    ep = s.ureg e.unit .ABANKS_ACTIVE_EPOCH →
    0 < chunks →
    ∃ s', exec (.prepareStatic t e ep chunks crc) s = .next s' ∧
      s'.ureg e.unit .ABANKS_STATIC_LOADING = 1 ∧
      s'.ureg e.unit .ABANKS_STATIC_VALID = 0 ∧
      s'.ureg e.unit .ABANKS_STATIC_EPOCH = trunc 16 ep ∧
      (s'.chip.agent e.unit).staticLoad = some { src := e.src, tag := e.tag, epoch := ep, chunks := chunks, crc := crc, lastWrite := (s.unit t e.unit).now } ∧
      s.keepsBut s' e.unit (messageRegs ++ [.ABANKS_STATIC_LOADING, .ABANKS_STATIC_VALID, .ABANKS_STATIC_EPOCH, .ABANKS_STATIC_IN_USE])) ∧
  (∀ (t : Nat) (e : Env) (ep region off : Nat) (data : List Nat) (l : Load) (s : State),
    s.takesNew t e .control →
    (s.chip.agent e.unit).staticLoad = none →
    (s.chip.agent e.unit).shadowLoad = some l →
    l.epoch = ep →
    l.seen.length + 1 < l.chunks →
    ∃ s', exec (.tableWrite t e ep region off data) s = .next s' ∧
      (s'.chip.agent e.unit).shadowLoad = some { l with seen := addOnce l.seen (region, off), lastWrite := (s.unit t e.unit).now } ∧
      s'.uanswered e 0x22 0x00 [] ∧
      s.keepsBut s' e.unit messageRegs) ∧
  (∀ (t : Nat) (u : UnitId) (l : Load) (s : State),
    u.profile ≠ .partition →
    (s.chip.agent u).staticLoad = some l →
    l.lastWrite + s.ureg u .ACONTROL_CONTROL_TIMEOUT * 1000 ≤ (s.unit t u).now →
    ∃ s', exec (.staticLoadTimeout t u) s = .next s' ∧
      (s'.chip.agent u).staticLoad = none ∧
      s'.ureg u .ABANKS_STATIC_VALID = 0 ∧
      s'.ureg u .ABANKS_STATIC_LOADING = 0 ∧
      s'.chip.out = [] ∧
      s.keepsBut s' u [.ABANKS_STATIC_VALID, .ABANKS_STATIC_LOADING]) ∧
  (∀ (t : Nat) (e : Env) (ep : Nat) (s : State),
    s.takesNew t e .control →
    epochNewer ep (s.ureg e.unit .ABANKS_ACTIVE_EPOCH) = true →
    ep = s.ureg e.unit .ABANKS_SHADOW_EPOCH →
    s.ureg e.unit .ABANKS_STATE ≠ 5 →
    ∃ s', exec (.abandon t e ep) s = .next s' ∧
      s'.ureg e.unit .ABANKS_STATE = 0 ∧
      s'.ureg e.unit .ABANKS_SHADOW_VALID = 0 ∧
      s'.ureg e.unit .ABANKS_SHADOW_COMPLETE = 0 ∧
      s'.ureg e.unit .ABANKS_ABANDONS = countUp (s.ureg e.unit .ABANKS_ABANDONS) ∧
      s'.uanswered e 0x2A 0x00 [] ∧
      s.keepsBut s' e.unit (messageRegs ++ [.ABANKS_STATE, .ABANKS_SHADOW_VALID, .ABANKS_SHADOW_COMPLETE, .ABANKS_ABANDONS]))

/-- R78: DRAIN of a prepared newer epoch enters DRAINING with the classes named; the drain ends DRAINED once nothing has been
in flight for MAX_D + 1 slots of the drain, or at DRAIN_TIMEOUT; RESUME of the active epoch ends COMMITTED; RESUME_WAIT after
COMMIT the agent resumes by itself; the commit-wait timer takes a drained agent to ROLLED_BACK; R82: EPOCH_QUERY is answered
in every state. -/
def Obligations.BankDrainAndResume : Prop :=
  (∀ (t : Nat) (e : Env) (ep classes : Nat) (s : State),
    s.takesNew t e .control →
    (s.chip.agent e.unit).drainReq = none →
    epochNewer ep (s.ureg e.unit .ABANKS_ACTIVE_EPOCH) = true →
    ep = s.ureg e.unit .ABANKS_SHADOW_EPOCH →
    (s.ureg e.unit .ABANKS_STATE = 2 ∨ s.ureg e.unit .ABANKS_STATE = 6) →
    ∃ s', exec (.drain t e ep classes) s = .next s' ∧
      s'.ureg e.unit .ABANKS_STATE = 3 ∧
      s'.ureg e.unit .ABANKS_DRAIN_CLASSES = classes % 4 ∧
      (s'.chip.agent e.unit).drainReq = some (e.src, e.tag) ∧
      (s'.chip.agent e.unit).drainAt = (s.unit t e.unit).now ∧
      s.keepsBut s' e.unit (messageRegs ++ [.ABANKS_STATE, .ABANKS_DRAIN_CLASSES])) ∧
  (∀ (t : Nat) (u : UnitId) (s : State),
    u.profile ≠ .partition →
    s.ureg u .ABANKS_STATE = 3 →
    (s.unit t u).inFlightAll = 0 →
    (s.chip.agent u).drainAt + ((s.unit t u).maxD + 1) * 128 ≤ (s.unit t u).now →
    (s.chip.agent u).quietFrom + ((s.unit t u).maxD + 1) * 128 ≤ (s.unit t u).now →
    ∃ s', exec (.drainQuiet t u) s = .next s' ∧
      s'.ureg u .ABANKS_STATE = 4 ∧
      s'.ureg u .ABANKS_LAST_DRAIN = trunc 32 ((s.unit t u).now - (s.chip.agent u).drainAt) ∧
      (s'.chip.agent u).drainReq = none ∧
      s.keepsBut s' u [.ABANKS_STATE, .ABANKS_LAST_DRAIN, .ACONTROL_NO_ROUTE, .ACONTROL_NO_EXIT, .APORT_DEFLECTIONS]) ∧
  (∀ (t : Nat) (u : UnitId) (s : State),
    u.profile ≠ .partition →
    s.ureg u .ABANKS_STATE = 3 →
    (s.chip.agent u).drainAt + s.ureg u .ACONTROL_DRAIN_TIMEOUT * 1000 ≤ (s.unit t u).now →
    ∃ s', exec (.drainTimeout t u) s = .next s' ∧
      s'.ureg u .ABANKS_STATE = 4 ∧
      (s'.chip.agent u).drainReq = none ∧
      s.keepsBut s' u [.ABANKS_STATE, .ABANKS_LAST_DRAIN, .ACONTROL_NO_ROUTE, .ACONTROL_NO_EXIT, .APORT_DEFLECTIONS]) ∧
  (∀ (t : Nat) (e : Env) (s : State),
    s.takesNew t e .control →
    s.ureg e.unit .ABANKS_STATE = 5 →
    ∃ s', exec (.resume t e (s.ureg e.unit .ABANKS_ACTIVE_EPOCH)) s = .next s' ∧
      s'.ureg e.unit .ABANKS_STATE = 0 ∧
      (s'.chip.agent e.unit).resumed = some (s.ureg e.unit .ABANKS_ACTIVE_EPOCH) ∧
      s'.uanswered e 0x28 0x00 [] ∧
      s.keepsBut s' e.unit (messageRegs ++ [.ABANKS_STATE])) ∧
  (∀ (t : Nat) (u : UnitId) (s : State),
    u.profile ≠ .partition →
    s.ureg u .ABANKS_STATE = 5 →
    (s.chip.agent u).commitAt + s.ureg u .ACONTROL_RESUME_WAIT * 1000000 ≤ (s.unit t u).now →
    ∃ s', exec (.resumeWaitExpiry t u) s = .next s' ∧
      s'.ureg u .ABANKS_STATE = 0 ∧
      (s'.chip.agent u).resumed = some (s.ureg u .ABANKS_ACTIVE_EPOCH) ∧
      bit (s'.ureg u .ACOMMON_INT_STATUS) 3 = true ∧
      s.keepsBut s' u [.ABANKS_STATE, .ACOMMON_INT_STATUS, .ACONTROL_NO_ROUTE, .ACONTROL_NO_EXIT, .APORT_DEFLECTIONS]) ∧
  (∀ (t : Nat) (u : UnitId) (s : State),
    u.profile ≠ .partition →
    (s.ureg u .ABANKS_STATE = 3 ∨ s.ureg u .ABANKS_STATE = 4) →
    (s.chip.agent u).drainAt + s.ureg u .ACONTROL_COMMIT_WAIT * 1000000 ≤ (s.unit t u).now →
    ∃ s', exec (.commitWaitExpiry t u) s = .next s' ∧
      s'.ureg u .ABANKS_STATE = 6 ∧
      s'.ureg u .ABANKS_ROLLBACKS = countUp (s.ureg u .ABANKS_ROLLBACKS) ∧
      bit (s'.ureg u .ACOMMON_INT_STATUS) 3 = true ∧
      (s'.chip.agent u).drainReq = none ∧
      s'.ureg u .ABANKS_ACTIVE_EPOCH = s.ureg u .ABANKS_ACTIVE_EPOCH) ∧
  (∀ (t : Nat) (e : Env) (s : State),
    s.takesNew t e .anyPart →
    ¬(e.src = s.ureg e.unit .AIDENT_PARTITION_FID ∧ e.src ≠ nullFid ∧ s.ureg e.unit .ACONTROL_MODE = 1) →
    ∃ s', exec (.epochQuery t e) s = .next s' ∧
      s'.uanswered e 0x2C 0x00 (s.unit t e.unit).report ∧
      s.keepsBut s' e.unit messageRegs)

/-- R80 for a drained agent outside static fallback: a COMMIT of the newer shadow epoch received before DRAIN time +
COMMIT_WAIT swaps the banks and the epochs and is answered OK; one received at or after it is refused with ROLLED_BACK and
changes nothing of the banks. At the default COMMIT_WAIT the deadline is 50,000,000 ticks after DRAIN. The next COMMIT of the
epoch just applied is answered OK (R78). -/
def Obligations.CommitDeadline : Prop :=
  (∀ (t : Nat) (e : Env) (ep : Nat) (s : State),
    s.takesNew t e .control →
    s.ureg e.unit .ACONTROL_MODE ≠ 2 →
    epochNewer ep (s.ureg e.unit .ABANKS_ACTIVE_EPOCH) = true →
    ep = s.ureg e.unit .ABANKS_SHADOW_EPOCH →
    (s.ureg e.unit .ABANKS_STATE = 3 ∨ s.ureg e.unit .ABANKS_STATE = 4) →
    (s.unit t e.unit).now < (s.chip.agent e.unit).drainAt + s.ureg e.unit .ACONTROL_COMMIT_WAIT * 1000000 →
    s.ureg e.unit .ABANKS_ACTIVE_BANK ≤ 1 →
    ∃ s', exec (.commit t e ep) s = .next s' ∧
      s'.ureg e.unit .ABANKS_ACTIVE_EPOCH = trunc 16 ep ∧
      s'.ureg e.unit .ABANKS_SHADOW_EPOCH = trunc 16 (s.ureg e.unit .ABANKS_ACTIVE_EPOCH) ∧
      s'.ureg e.unit .ABANKS_ACTIVE_BANK = 1 - s.ureg e.unit .ABANKS_ACTIVE_BANK ∧
      s'.ureg e.unit .ABANKS_STATE = 5 ∧
      s'.ureg e.unit .ABANKS_COMMITS = countUp (s.ureg e.unit .ABANKS_COMMITS) ∧
      s'.uanswered e 0x26 0x00 []) ∧
  (∀ (t : Nat) (e : Env) (ep : Nat) (s : State),
    s.takesNew t e .control →
    s.ureg e.unit .ACONTROL_MODE ≠ 2 →
    epochNewer ep (s.ureg e.unit .ABANKS_ACTIVE_EPOCH) = true →
    ep = s.ureg e.unit .ABANKS_SHADOW_EPOCH →
    (s.ureg e.unit .ABANKS_STATE = 3 ∨ s.ureg e.unit .ABANKS_STATE = 4) →
    (s.chip.agent e.unit).drainAt + s.ureg e.unit .ACONTROL_COMMIT_WAIT * 1000000 ≤ (s.unit t e.unit).now →
    ∃ s', exec (.commit t e ep) s = .next s' ∧
      s'.uanswered e 0x26 0x0A [] ∧
      s'.ureg e.unit .ABANKS_REFUSALS = countUp (s.ureg e.unit .ABANKS_REFUSALS) ∧
      s.keepsBut s' e.unit (messageRegs ++ [.ABANKS_REFUSALS])) ∧
  (∀ (u : UnitId), State.reset.ureg u .ACONTROL_COMMIT_WAIT * 1000000 = 50000000)

/-- R83: FENCE of a FID without an entry adds one, which acts from the next slot; UNFENCE with the entry's F lifts it. R85: a
FENCED_NOTICE goes to the runtime with its FIDs; R285: PEER_RESET goes to the runtime unless it names the agent itself. -/
def Obligations.AgentFences : Prop :=
  (∀ (t : Nat) (e : Env) (fid job f : Nat) (s : State),
    s.takesNew t e .control →
    e.unit.profile ≠ .circuit →
    (s.unit t e.unit).fenceOf fid = none →
    (s.chip.agent e.unit).fences.length < 4096 →
    ∃ s', exec (.fence t e fid job f) s = .next s' ∧
      (s'.chip.agent e.unit).fences = (s.chip.agent e.unit).fences ++ [{ fid := fid, job := job, f := f, effSlot := (s.unit t e.unit).now / 128 + 1 }] ∧
      s'.uanswered e 0x30 0x00 [] ∧
      s.keepsBut s' e.unit messageRegs) ∧
  (∀ (t : Nat) (e : Env) (fid job f : Nat) (x : FenceEntry) (s : State),
    s.takesNew t e .control →
    e.unit.profile ≠ .circuit →
    (s.unit t e.unit).fenceOf fid = some x →
    x.lifted = false →
    x.f = f →
    ∃ s', exec (.unfence t e fid job f) s = .next s' ∧
      ((s'.chip.agent e.unit).fences = mapIf (fun y => y.fid = fid) (fun y => { y with lifted := true, liftTime := (s.unit t e.unit).now }) (s.chip.agent e.unit).fences) ∧
      s'.uanswered e 0x32 0x00 [] ∧
      s.keepsBut s' e.unit messageRegs) ∧
  (∀ (t : Nat) (e : Env) (job f : Nat) (fids : List Nat) (s : State),
    s.takes t e .control →
    ∃ s', exec (.fencedNotice t e job f fids) s = .next s' ∧
      (s'.chip.agent e.unit).notices = (s.chip.agent e.unit).notices ++ [{ type := 0x35, body := [job, f, fids.length] ++ fids }] ∧
      s.keepsBut s' e.unit messageRegs) ∧
  (∀ (t : Nat) (e : Env) (fid job reason step time : Nat) (s : State),
    s.takes t e .anyone →
    fid ≠ s.ureg e.unit .AIDENT_FID →
    ∃ s', exec (.peerReset t e fid job reason step time) s = .next s' ∧
      (s'.chip.agent e.unit).notices = (s.chip.agent e.unit).notices ++ [{ type := 0x37, body := [fid, job, reason, step, time] }] ∧
      s.keepsBut s' e.unit messageRegs)

/-- R86, R87: a list that is whole, passes the checks and comes before the guard is the window's next list; a TEMPLATE_LIST
that passes replaces its template; a list that has begun to arrive and is not whole at the guard is late and counted. R88: a
window begins with the list accepted for it, or with its template alone. -/
def Obligations.SlotLists : Prop :=
  (∀ (t : Nat) (e : Env) (g : Segment) (s : State),
    s.takesNew t e .control →
    e.unit.profile = .endpoint →
    s.ureg e.unit .ACONTROL_MODE ≠ 2 →
    (s.chip.agent e.unit).listsFrom ≤ (s.unit t e.unit).now →
    (s.chip.agent e.unit).gathers = [] →
    g.segments = 1 →
    g.windowFrame ∉ (s.chip.agent e.unit).lateWindows →
    ((s.unit t e.unit).now : Int) ≤ (s.unit t e.unit).guardTime g.windowFrame →
    firstFail false [g] g (s.ureg e.unit .ASLOTS_WINDOW_FRAMES) ((s.unit t e.unit).templateFor g.windowFrame)
      ((s.unit t e.unit).template ((s.unit t e.unit).templateFor g.windowFrame)) = none →
    ∃ s', exec (.slotList t e g) s = .next s' ∧
      (s'.chip.agent e.unit).nxt = some { window := g.windowFrame, template := (s.unit t e.unit).templateFor g.windowFrame, step := g.step, job := g.job, entries := g.entries } ∧
      s'.ureg e.unit .ASLOTS_NEXT_VALID = 1 ∧
      s'.ureg e.unit .ASLOTS_LISTS_ACCEPTED = countUp (s.ureg e.unit .ASLOTS_LISTS_ACCEPTED) ∧
      s'.uanswered e 0x42 0x00 []) ∧
  (∀ (t : Nat) (e : Env) (g : Segment) (s : State),
    s.takesNew t e .control →
    e.unit.profile = .endpoint →
    (s.chip.agent e.unit).gathers = [] →
    g.segments = 1 →
    firstFail true [g] g (s.ureg e.unit .ASLOTS_WINDOW_FRAMES) g.template [] = none →
    ∃ s', exec (.templateList t e g) s = .next s' ∧
      (s'.unit t e.unit).template (g.template % 8) = g.entries ∧
      s'.uanswered e 0x44 0x00 [] ∧
      s.keepsBut s' e.unit (messageRegs ++ [.ASLOTS_TEMPLATE_VALID])) ∧
  (∀ (t : Nat) (u : UnitId) (w : Nat) (s : State),
    u.profile ≠ .partition →
    ((s.chip.agent u).gathers.any (fun g => !g.isTemplate && g.key = w) = true) →
    (s.unit t u).guardTime w ≤ ((s.unit t u).now : Int) →
    w ∉ (s.chip.agent u).lateWindows →
    ∃ s', exec (.listGuardDeadline t u w) s = .next s' ∧
      (s'.chip.agent u).gathers = (s.chip.agent u).gathers ∧
      w ∈ (s'.chip.agent u).lateWindows ∧
      s'.ureg u .ASLOTS_LISTS_LATE = countUp (s.ureg u .ASLOTS_LISTS_LATE) ∧
      bit (s'.ureg u .ACOMMON_INT_STATUS) 9 = true) ∧
  (∀ (t : Nat) (u : UnitId) (l : DynList) (s : State),
    u.profile = .endpoint →
    (s.unit t u).now % 131072 = 0 →
    ((s.chip.agent u).windowStarted = false ∨ s.ureg u .ASLOTS_WINDOW_FRAME ≠ (s.unit t u).now / 131072 % 2 ^ 32) →
    ((s.unit t u).now / 131072 % 2 ^ 32 + 2 ^ 32 - s.ureg u .ASLOTS_SEQ_BASE_FRAME) % 2 ^ 32 % max 1 (s.ureg u .ASLOTS_WINDOW_FRAMES) = 0 →
    s.ureg u .ACONTROL_MODE ≠ 2 →
    (s.chip.agent u).nxt = some l →
    l.window = (s.unit t u).now / 131072 % 2 ^ 32 →
    ∃ s', exec (.windowStart t u) s = .next s' ∧
      (s'.chip.agent u).cur = some l ∧
      s'.ureg u .ASLOTS_WINDOW_FRAME = l.window ∧
      s'.ureg u .ASLOTS_CURRENT_VALID = 1 ∧
      s'.ureg u .ASLOTS_TEMPLATE_ONLY = s.ureg u .ASLOTS_TEMPLATE_ONLY) ∧
  (∀ (t : Nat) (u : UnitId) (s : State),
    u.profile = .endpoint →
    (s.unit t u).now % 131072 = 0 →
    ((s.chip.agent u).windowStarted = false ∨ s.ureg u .ASLOTS_WINDOW_FRAME ≠ (s.unit t u).now / 131072 % 2 ^ 32) →
    ((s.unit t u).now / 131072 % 2 ^ 32 + 2 ^ 32 - s.ureg u .ASLOTS_SEQ_BASE_FRAME) % 2 ^ 32 % max 1 (s.ureg u .ASLOTS_WINDOW_FRAMES) = 0 →
    (s.chip.agent u).nxt = none →
    ∃ s', exec (.windowStart t u) s = .next s' ∧
      (s'.chip.agent u).cur = none ∧
      s'.ureg u .ASLOTS_CURRENT_VALID = 0 ∧
      s'.ureg u .ASLOTS_TEMPLATE_ONLY = countUp (s.ureg u .ASLOTS_TEMPLATE_ONLY))

/-- R93: HOLD, or CONTROL_TIMEOUT without a message from PARTITION_FID, takes a normal agent into outage, and any other
message from PARTITION_FID ends it; R92: 3 ms without an exchange is HOLDOVER; R94: a fault during outage takes the agent into
static fallback with its cause. -/
def Obligations.OutageAndFaults : Prop :=
  (∀ (t : Nat) (e : Env) (s : State),
    s.takes t e .control →
    s.ureg e.unit .ACONTROL_MODE = 0 →
    ∃ s', exec (.hold t e) s = .next s' ∧
      s'.ureg e.unit .ACONTROL_MODE = 1 ∧
      s.keepsBut s' e.unit messageRegs) ∧
  (∀ (t : Nat) (e : Env) (s : State),
    s.takes t e .control →
    e.src = s.ureg e.unit .AIDENT_PARTITION_FID →
    s.ureg e.unit .ACONTROL_MODE = 1 →
    ∃ s', exec (.beat t e) s = .next s' ∧
      s'.ureg e.unit .ACONTROL_MODE = 0 ∧
      (s'.chip.agent e.unit).lastPartMsg = (s.unit t e.unit).now ∧
      s.keepsBut s' e.unit messageRegs) ∧
  (∀ (t : Nat) (u : UnitId) (s : State),
    u.profile ≠ .partition →
    s.ureg u .AIDENT_PARTITION_FID ≠ nullFid →
    (s.chip.agent u).lastPartMsg + s.ureg u .ACONTROL_CONTROL_TIMEOUT * 1000 ≤ (s.unit t u).now →
    s.ureg u .ACONTROL_MODE = 0 →
    ∃ s', exec (.controlTimeout t u) s = .next s' ∧
      s'.ureg u .ACONTROL_MODE = 1 ∧
      s.keepsBut s' u [.ACONTROL_MODE]) ∧
  (∀ (t : Nat) (u : UnitId) (code : Nat) (s : State),
    u.profile ≠ .partition →
    s.ureg u .ACONTROL_MODE = 1 →
    ∃ s', exec (.internalError t u code) s = .next s' ∧
      s'.ureg u .ACONTROL_MODE = 2 ∧
      s'.ureg u .ACONTROL_CAUSE = 4 ∧
      bit (s'.ureg u .ACOMMON_INT_STATUS) 11 = true ∧
      bit (s'.ureg u .ACOMMON_INT_STATUS) 4 = true) ∧
  (∀ (t : Nat) (u : UnitId) (code : Nat) (s : State),
    u.profile ≠ .partition →
    s.ureg u .ACONTROL_MODE ≠ 1 →
    ∃ s', exec (.internalError t u code) s = .next s' ∧
      bit (s'.ureg u .ACOMMON_INT_STATUS) 11 = true ∧
      s.keepsBut s' u [.ACOMMON_INT_STATUS, .ACONTROL_NO_ROUTE, .ACONTROL_NO_EXIT, .APORT_DEFLECTIONS]) ∧
  (∀ (t : Nat) (u : UnitId) (x : Nat) (s : State),
    u.profile ≠ .partition →
    (s.chip.agent u).lastExchange = some x →
    s.ureg u .ATIME_STATE = 1 →
    x + 3000000 ≤ (s.unit t u).now →
    ∃ s', exec (.holdoverEntry t u) s = .next s' ∧
      s'.ureg u .ATIME_STATE = 2 ∧
      bit (s'.ureg u .ACOMMON_INT_STATUS) 5 = true)

/-- R91, R92: at most once in 1 ms an agent asks its parent and remembers when; the parent answers; an answer to the open
request locks the agent with the offset of the four times, and steps its clock where that is above 1,000 ticks or the clock
was never set; an answer that does not come within MSG_TIMEOUT is counted, and once asked for again. -/
def Obligations.AgentTime : Prop :=
  (∀ (t : Nat) (u : UnitId) (s : State),
    u.profile ≠ .partition →
    ((s.chip.agent u).exchangeAt.all (fun a => a + 1000000 ≤ (s.unit t u).now) = true) →
    (u.profile = .switch → s.upreg u .APORT_UP (s.ureg u .ATIME_PARENT_PORT) = 1) →
    ((s.unit t u).port (s.ureg u .ATIME_PARENT_PORT)).mgmtQ.length < 16 →
    ∃ s', exec (.timeExchange t u) s = .next s' ∧
      (s'.chip.agent u).timeReq = some { t1 := (s.unit t u).now, tag := (s.chip.agent u).nextTag, at_ := (s.unit t u).now, retry := false } ∧
      (s'.chip.agent u).exchangeAt = some (s.unit t u).now ∧
      ((s'.unit t u).port (s.ureg u .ATIME_PARENT_PORT)).mgmtQ.length = ((s.unit t u).port (s.ureg u .ATIME_PARENT_PORT)).mgmtQ.length + 1 ∧
      s.keepsBut s' u []) ∧
  (∀ (t : Nat) (e : Env) (t1 : Nat) (s : State),
    s.takesNew t e .partner →
    ∃ s', exec (.timeReq t e t1) s = .next s' ∧
      s'.uanswered e 0x60 0x00 [t1, (s.unit t e.unit).now, (s.unit t e.unit).now] ∧
      s.keepsBut s' e.unit messageRegs) ∧
  (∀ (t : Nat) (e : Env) (t2 t3 : Nat) (r : TimeReq) (o : Int) (s : State),
    s.takes t e .anyone →
    e.status = 0 →
    (s.chip.agent e.unit).timeReq = some r →
    o = (((t2 : Int) - r.t1) - (((s.unit t e.unit).now : Int) - t3)) / 2 →
    ∃ s', exec (.timeResp t e r.t1 t2 t3) s = .next s' ∧
      s'.ureg e.unit .ATIME_STATE = 1 ∧
      s'.ureg e.unit .ATIME_OFFSET = toField 32 o ∧
      s'.ureg e.unit .ATIME_EXCHANGES = countUp (s.ureg e.unit .ATIME_EXCHANGES) ∧
      (s'.chip.agent e.unit).timeReq = none ∧
      (s'.ureg e.unit .ATIME_TIME_STEPS = if 1000 < o.natAbs ∨ s.ureg e.unit .ATIME_STATE = 4 then countUp (s.ureg e.unit .ATIME_TIME_STEPS) else s.ureg e.unit .ATIME_TIME_STEPS) ∧
      ((s'.unit t e.unit).now = if 1000 < o.natAbs ∨ s.ureg e.unit .ATIME_STATE = 4 then (((s.unit t e.unit).now : Int) + o).toNat else (s.unit t e.unit).now)) ∧
  (∀ (t : Nat) (u : UnitId) (x : TimeReq) (s : State),
    u.profile ≠ .partition →
    (s.chip.agent u).timeReq = some x →
    x.at_ + s.ureg u .ACONTROL_MSG_TIMEOUT * 1000 ≤ (s.unit t u).now →
    ∃ s', exec (.timeRespTimeout t u) s = .next s' ∧
      s'.ureg u .ATIME_EXCHANGE_FAILS = countUp (s.ureg u .ATIME_EXCHANGE_FAILS) ∧
      (s'.chip.agent u).timeReq = none ∧
      (s'.chip.agent u).timeRetry = !x.retry ∧
      s.keepsBut s' u [.ATIME_EXCHANGE_FAILS])

/-- R95: a request unanswered for MSG_TIMEOUT is sent again, and after MSG_RETRIES given up with TIMEOUT and counted; a stored
answer lapses when its time is over; TELEMETRY begins a new period. R173: DEMAND is a request of the endpoint's runtime, and
its answer ends it. R102: an agent reset leaves the agent as at power-on. -/
def Obligations.AgentRequests : Prop :=
  (∀ (t : Nat) (u : UnitId) (tag : Nat) (r : Request) (s : State),
    u.profile ≠ .partition →
    ((s.chip.agent u).requests.find? (fun x => x.msg.tag = tag) = some r) →
    r.sentAt + s.ureg u .ACONTROL_MSG_TIMEOUT * 1000 ≤ (s.unit t u).now →
    r.retries < s.ureg u .ACONTROL_MSG_RETRIES →
    ∃ s', exec (.msgRetransmit t u tag) s = .next s' ∧
      ((s'.chip.agent u).requests = mapIf (fun x => x.msg.tag = tag) (fun x => { x with sentAt := (s.unit t u).now, retries := x.retries + 1 }) (s.chip.agent u).requests) ∧
      s.keepsBut s' u [.ACONTROL_NO_ROUTE, .ACONTROL_NO_EXIT, .APORT_DEFLECTIONS]) ∧
  (∀ (t : Nat) (u : UnitId) (tag : Nat) (r : Request) (s : State),
    u.profile ≠ .partition →
    ((s.chip.agent u).requests.find? (fun x => x.msg.tag = tag) = some r) →
    r.sentAt + s.ureg u .ACONTROL_MSG_TIMEOUT * 1000 ≤ (s.unit t u).now →
    s.ureg u .ACONTROL_MSG_RETRIES ≤ r.retries →
    ∃ s', exec (.msgRetransmit t u tag) s = .next s' ∧
      ((s'.chip.agent u).requests = (s.chip.agent u).requests.filter fun x => x.msg.tag ≠ tag) ∧
      s'.ureg u .ACONTROL_MSG_FAILED = countUp (s.ureg u .ACONTROL_MSG_FAILED) ∧
      s'.chip.out = [.runtime u "request" [r.msg.type, tag, 0x01]]) ∧
  (∀ (t : Nat) (u : UnitId) (src tag : Nat) (s : State),
    u.profile ≠ .partition →
    ∃ s', exec (.responseStoreExpiry t u src tag) s = .next s' ∧
      (s'.chip.agent u = { s.chip.agent u with stored := (s.chip.agent u).stored.filter fun x => !(x.src = src && x.tag = tag && x.till ≤ (s.unit t u).now) })) ∧
  (∀ (t : Nat) (u : UnitId) (s : State),
    u.profile ≠ .partition →
    s.ureg u .AIDENT_PARTITION_FID ≠ nullFid →
    (s.chip.agent u).telemAt + s.ureg u .ACONTROL_TELEM_PERIOD * 1000 ≤ (s.unit t u).now →
    ∃ s', exec (.telemetryPeriod t u) s = .next s' ∧
      (s'.chip.agent u).telemAt = (s.unit t u).now ∧
      s'.chip.out = [] ∧
      s.keepsBut s' u [.ACONTROL_NO_ROUTE, .ACONTROL_NO_EXIT, .APORT_DEFLECTIONS]) ∧
  (∀ (t : Nat) (u : UnitId) (body : List Nat) (s : State),
    u.profile ≠ .partition →
    ∃ s', exec (.demandSend t u body) s = .next s' ∧
      (s'.chip.agent u).requests = (s.chip.agent u).requests ++ [{ dst := s.ureg u .AIDENT_PARTITION_FID, msg := { type := 0x40, tag := (s.chip.agent u).nextTag, body := body }, sentAt := (s.unit t u).now }] ∧
      s.keepsBut s' u [.ACONTROL_NO_ROUTE, .ACONTROL_NO_EXIT, .APORT_DEFLECTIONS]) ∧
  (∀ (t : Nat) (e : Env) (body : List Nat) (s : State),
    s.takes t e .anyone →
    ∃ s', exec (.demandAck t e body) s = .next s' ∧
      ((s'.chip.agent e.unit).requests = (s.chip.agent e.unit).requests.filter fun x => x.msg.tag ≠ e.tag) ∧
      s'.chip.out = [.runtime e.unit "demand" ([e.tag, e.status] ++ body)] ∧
      s.keepsBut s' e.unit messageRegs) ∧
  (∀ (t : Nat) (u : UnitId) (s : State),
    u.profile ≠ .partition →
    ∃ s', exec (.agentReset t u) s = .next s' ∧
      s'.chip.agent u = { skew := -(s.unit t u).ticks, slewFrom := (s.unit t u).ticks } ∧
      s'.ureg u .AIDENT_FID = nullFid ∧
      s'.ureg u .AIDENT_PARTITION_FID = nullFid)

/-- R99: a handshake that succeeds keys the link and the agent's identity block goes out; an identity block that comes whole
names the partner and is kept; R100: a directed block on its way is passed on by the port its path names; R101: the end of a
measurement writes the delay of the measured port and, where it is the first, its D, and returns them; an echo block is
returned. -/
def Obligations.LinkLevelBlocks : Prop :=
  (∀ (t : Nat) (u : UnitId) (k : Nat) (s : State),
    u.profile ≠ .partition →
    ∃ s', exec (.linkHandshake t u k true) s = .next s' ∧
      ((s'.unit t u).port k).link = { keyed := true, partner := ((s.unit t u).port k).link.partner } ∧
      .identity u k ((s.unit t u).ownBlock k) ∈ s'.chip.out ∧
      s.keepsBut s' u []) ∧
  (∀ (t : Nat) (u : UnitId) (k : Nat) (b : IdBlock) (s : State),
    u.profile ≠ .partition →
    k < 513 →
    ∃ s', exec (.identityBlock t u k b true) s = .next s' ∧
      s'.upreg u .APORT_PARTNER_FID k = trunc 20 b.fid ∧
      s'.upreg u .APORT_PARTNER_PORT k = trunc 9 b.port ∧
      ((s'.unit t u).port k).lastBlock = some b) ∧
  (∀ (t : Nat) (u : UnitId) (k : Nat) (b : DirBlock) (s : State),
    u.profile ≠ .partition →
    b.response = false →
    b.index < b.count →
    (s.unit t u).carriesBlocks (b.path.getD b.index 0) = true →
    ∃ s', exec (.directedBlock t u k b true) s = .next s' ∧
      s'.chip.out = [.directed u (b.path.getD b.index 0) { b with index := b.index + 1, ret := b.ret.take b.index ++ [k] }] ∧
      s'.chip.agent u = s.chip.agent u) ∧
  (∀ (t : Nat) (u : UnitId) (x : Measuring) (d : Nat) (s : State),
    u.profile ≠ .partition →
    x.port < 513 →
    ((s.chip.agent u).measuring.find? (fun y => y.port = x.port) = some x) →
    s.upreg u .APORT_DELAY_NS x.port = 0 →
    d < 2 ^ 16 →
    ∃ s', exec (.measureComplete t u { port := x.port, samples := [(0, 2 * d + 40, 40)] }) s = .next s' ∧
      (s'.chip.agent u).measuring = (s.chip.agent u).measuring.erase x ∧
      s'.upreg u .APORT_DELAY_NS x.port = d ∧
      s'.upreg u .APORT_DELAY_SLOTS x.port = trunc 8 (AC.delaySlots d)) ∧
  (∀ (t : Nat) (u : UnitId) (k turn : Nat) (s : State),
    u.profile ≠ .partition →
    ∃ s', exec (.echoBlock t u k turn) s = .next s' ∧
      s'.chip.out = [.echo u k turn] ∧
      s'.chip.agent u = s.chip.agent u)

/-- R115: DISCOVER begins a run in the zone it names, and holds its command until the run ends; LOAD_PLAN of a plan that
parses makes it the plan in force and completes OK; READ_TOPOLOGY writes the link entries that fit and completes; RECYCLE of a
FID takes it off the retired list of every zone of the manager's G9 and completes OK, and at a worker it stays outstanding
until the manager answers. -/
def Obligations.DiscoveryCommands : Prop :=
  (∀ (t p z : Nat) (d : Desc) (x : Cmd) (s : State),
    s.mayRun t (.route p) d x →
    z < 16 →
    d.at 0x10 4 = 2 ^ z →
    (s.found t).ownerPort z = (s.found t).ownerPort p →
    s.alive z →
    ∃ s', exec (.discover t p d) s = .next s' ∧
      ((s'.chip.part z).topo.run.map (fun r => (r.t0, r.stage, r.plan)) = some (max s.chip.now t, 0, s.chip.plan)) ∧
      (s'.chip.part p).discCmd = some (.route p, d.tag, [z]) ∧
      (s'.chip.part z).topo.tc = none) ∧
  (∀ (t p : Nat) (d : Desc) (x : Cmd) (pl : Plan) (s : State),
    s.mayRun t (.route p) d x →
    Chip.planOf ((s.found t).hostBytes ((s.found t).ownerPort p) (d.at 0x10 8) (d.at 0x18 4)) = some pl →
    ∃ s', exec (.loadPlan t p d) s = .next s' ∧
      s'.chip.plan = pl ∧
      s.recorded s' t (.route p) x 0x00 0) ∧
  (∀ (t p : Nat) (d : Desc) (x : Cmd) (l : List Nat) (s : State),
    s.mayRun t (.route p) d x →
    d.at 0x1C 1 = 3 →
    l = ((s.found t).leaseEntries p).flatten →
    l.length ≤ d.at 0x18 4 →
    (s.found t).ownerPort p = x.port.getD ((s.found t).queuePort (.route p)) →
    s.apart t (.route p) (d.at 0x10 8) l.length →
    ∃ s', exec (.readTopology t p d) s = .next s' ∧
      s'.chip.hostBytes ((s.found t).ownerPort p) (d.at 0x10 8) l.length = l ∧
      (l.take 24 = ([UnitId.endpoint p 0, .leaf p 0, .ocs 0].flatMap fun u => bytesOf 4 ((s.found t).shareOf p u).1 ++ bytesOf 4 ((s.found t).shareOf p u).2)) ∧
      s.recorded s' t (.route p) x 0x00 0) ∧
  (∀ (t p : Nat) (d : Desc) (x : Cmd) (s : State),
    s.mayRun t (.route p) d x →
    d.at 0x10 1 = 0 →
    s.chip.isManager = true →
    (∀ z ∈ Chip.allParts, (s.chip.part z).topo.units.all (fun e => e.2.state ≠ 3) = true) →
    ∃ s', exec (.recycle t p d) s = .next s' ∧
      ((Chip.allParts.map fun z => (s'.chip.part z).topo.retired) = Chip.allParts.map fun z => (s.chip.part z).topo.retired.filter fun f => f ≠ d.at 0x14 4 % 2 ^ 20) ∧
      s.recorded s' t (.route p) x 0x00 0) ∧
  (∀ (t p : Nat) (d : Desc) (x : Cmd) (s : State),
    s.mayRun t (.route p) d x →
    s.chip.isManager = false →
    ∃ s', exec (.recycle t p d) s = .next s' ∧
      (s'.chip.part p).forwards = (s.chip.part p).forwards ++ [(.route p, d.tag)] ∧
      (s'.chip.part p).topo.retired = (s.chip.part p).topo.retired)

/-- R103: an answer ends the exchange it names, and a silent one is sent again up to three times; R106: at the end of the
waiting time the run is compared and a full transaction opens; R139: a link that comes later is entered and starts the
automatic delay; R110: a circuit that shows no light in both maps is MISSING and not up; R481: a peer's units replace what was
known of their FIDs. -/
def Obligations.DiscoveryExchanges : Prop :=
  (∀ (t p : Nat) (b : DirBlock) (x : Exchange) (s : State),
    s.alive p →
    ((s.chip.part p).topo.exchanges.find? (fun x => x.tag = b.tag) = some x) →
    x.cmd = none →
    ∃ s', exec (.directedResponse t p b) s = .next s' ∧
      (s'.chip.part p = { s.chip.part p with topo := { (s.chip.part p).topo with exchanges := (s.chip.part p).topo.exchanges.filter fun y => y.tag ≠ b.tag } }) ∧
      s'.chip.out = []) ∧
  (∀ (t p tag : Nat) (x : Exchange) (s : State),
    s.alive p →
    ((s.chip.part p).topo.exchanges.find? (fun x => x.tag = tag) = some x) →
    x.sentAt + Chip.exchangeWait x ≤ max s.chip.now t →
    x.tries < 3 →
    ∃ s', exec (.directedTimeout t p tag) s = .next s' ∧
      s'.chip.out = [.directed (.part p) 0 ((s.found t).blockOf p { x with tries := x.tries + 1, sentAt := max s.chip.now t })] ∧
      ((s'.chip.part p).topo.exchanges = mapIf (fun z => z.tag = tag) (fun _ => { x with tries := x.tries + 1, sentAt := max s.chip.now t }) (s.chip.part p).topo.exchanges)) ∧
  (∀ (t p : Nat) (r : Run) (s : State),
    p < 16 →
    s.alive p →
    (s.chip.part p).topo.run = some r →
    r.t0 + r.wait * 1000000 ≤ max s.chip.now t →
    (s.chip.part p).txn = none →
    (s.chip.part p).restarting = false →
    s.chip.outOfService p = false →
    s.chip.stageOf p < 4 →
    ∃ s', exec (.discoveryCompare t p) s = .next s' ∧
      (s'.chip.part p).topo.run = none ∧
      (s'.chip.part p).topo.tc = some (max s.chip.now t) ∧
      ((s'.chip.part p).txn.map (fun x => (x.epoch, x.stage, x.req.full, x.req.afterRun)) = some (nextEpoch (s.reg .ROUTE_ZONE_EPOCH p), 1, true, true)) ∧
      s'.reg .ROUTE_TXN_STAGE p = 1) ∧
  (∀ (t p q delay : Nat) (u : UnitId) (b : IdBlock) (near : TopoUnit) (s : State),
    s.alive p →
    (s.chip.part p).topo.tc.isSome = true →
    (s.found t).topoUnit p u = some near →
    near.state = 0 →
    (s.chip.part p).topo.units.sorted = true →
    b.serial < 2 ^ 64 →
    s.reg .ROUTE_AUTO p = 1 →
    (s.chip.part p).txn = none →
    ∃ s', exec (.lateLink t p u q b delay) s = .next s' ∧
      (s'.chip.part p).autoAt = some (max s.chip.now t + s.reg .ROUTE_AUTO_DELAY p * 1000) ∧
      (SMap.find? (s'.chip.part p).topo.links (linkKey u q)).isSome = true) ∧
  (∀ (t n z a : Nat) (l : PlanLink) (s : State),
    (s.chip.verify.find? (fun e => e.1 = n) = some (n, a)) →
    a + 4000000 ≤ max s.chip.now t →
    (s.chip.plan.links.filter (fun l => l.ocs = n && l.ocsPort ≠ 0) = [l]) →
    (s.found t).partOfPod l.pod = some z →
    ∃ s', exec (.circuitVerify t n [⟨l.ocsPort, 1, none⟩, ⟨l.ocsPort, 2, none⟩]) s = .next s' ∧
      ((s'.chip.part z).topo.links = (s.chip.part z).topo.links.map fun (e : Nat × TopoLink) => if e.1 = linkKey (.spine z l.spine) l.port then (e.1, { e.2 with cls := 1, disabled := Chip.disables 1 false || e.2.disabled, up := false }) else e) ∧
      (s'.chip.part z).topo.findings.length = (s.chip.part z).topo.findings.length + 1) ∧
  (∀ (t p src : Nat) (u : PeerUnit) (s : State),
    s.alive p →
    ∃ s', exec (.peerReport t p src { units := [u] }) s = .next s' ∧
      ((s'.chip.part p).topo.peers = (s.chip.part p).topo.peers.filter (fun x => x.fid ≠ u.fid) ++ [u]))

/-- R140: RECOMMIT over one free zone opens a transaction at the next epoch in GENERATE; RELOAD_STATIC opens a load of the
zone's agents and answers with it; QUERY_EPOCHS asks every agent of the zone; SET_LINK marks the link and starts the automatic
delay; CLEAR_FALLBACK asks the agents for their mode; READ_BANK asks the agent for the first words. -/
def Obligations.RouteCommands : Prop :=
  (∀ (t p z : Nat) (d : Desc) (x : Cmd) (s : State),
    s.mayRun t (.route p) d x →
    z < 16 →
    (s.found t).zonesOf p (d.at 0x10 2) = [z] →
    (s.chip.part z).txn = none →
    (s.chip.part z).restarting = false →
    s.chip.outOfService z = false →
    s.chip.stageOf z < 4 →
    ∃ s', exec (.recommit t p d) s = .next s' ∧
      ((s'.chip.part z).txn.map (fun x => (x.epoch, x.stage, x.req.full, x.req.cmd)) = some (nextEpoch (s.reg .ROUTE_ZONE_EPOCH z), 1, bit (d.at 0x12 2) 0, some (.route p, d.tag))) ∧
      s'.reg .ROUTE_TXN_STAGE z = 1 ∧
      s'.reg .ROUTE_TXN_EPOCH z = trunc 16 (nextEpoch (s.reg .ROUTE_ZONE_EPOCH z)) ∧
      s'.reg .ROUTE_ZONE_EPOCH z = s.reg .ROUTE_ZONE_EPOCH z) ∧
  (∀ (t p z : Nat) (d : Desc) (x : Cmd) (s : State),
    s.mayRun t (.route p) d x →
    p < 16 →
    (s.found t).zonesOf p (d.at 0x10 2) = [z] →
    s.alive z →
    (s.found t).zoneAgents z ≠ [] →
    ∃ s', exec (.reloadStatic t p d) s = .next s' ∧
      ((s'.chip.part z).staticLoad = some { epoch := s.reg .ROUTE_ZONE_EPOCH z, left := ((s.found t).zoneAgents z).map fun u => u.unit.code }) ∧
      (s'.chip.part p).staticCmd = some (.route p, d.tag, [z], [])) ∧
  (∀ (t p z : Nat) (d : Desc) (x : Cmd) (u : TopoUnit) (s : State),
    s.mayRun t (.route p) d x →
    d.at 0x1C 1 = z →
    z < 16 →
    (s.found t).zonesOf p (2 ^ z) = [z] →
    s.alive z →
    (s.chip.part z).queryCmd = none →
    (s.found t).zoneAgents z = [u] →
    ∃ s', exec (.queryEpochs t p d) s = .next s' ∧
      (s'.chip.part z).queryCmd = some (.route p, d.tag, d.at 0x10 8, d.at 0x18 4) ∧
      (s'.chip.part z).requests = (s.chip.part z).requests ++ [{ dst := u.fid, msg := { type := 0x2C, tag := (s.chip.part z).nextTag }, sentAt := max s.chip.now t, ref := refKey refReport 0 }]) ∧
  (∀ (t p : Nat) (d : Desc) (x : Cmd) (u : TopoUnit) (s : State),
    s.mayRun t (.route p) d x →
    (s.found t).unitOfPos p (d.at 0x10 4) = some u →
    s.reg .ROUTE_AUTO p = 1 →
    (s.chip.part p).txn = none →
    ∃ s', exec (.setLink t p d) s = .next s' ∧
      ((s'.chip.part p).topo.links = (s.chip.part p).topo.links.map fun (e : Nat × TopoLink) => if e.1 = linkKey u.unit (d.at 0x14 2) then (e.1, { e.2 with disabled := !bit (d.at 0x16 1) 0, off := !bit (d.at 0x16 1) 0 }) else e) ∧
      (s'.chip.part p).autoAt = some (max s.chip.now t + s.reg .ROUTE_AUTO_DELAY p * 1000)) ∧
  (∀ (t p z : Nat) (d : Desc) (x : Cmd) (u : TopoUnit) (s : State),
    s.mayRun t (.route p) d x →
    (s.found t).zonesOf p (d.at 0x10 2) = [z] →
    s.alive z →
    (s.found t).zoneAgents z = [u] →
    ∃ s', exec (.clearFallback t p d) s = .next s' ∧
      (s'.chip.part p).clearRun = some { cmd := some (.route p, d.tag), zones := [z] } ∧
      (s'.chip.part z).requests = (s.chip.part z).requests ++ [{ dst := u.fid, msg := { type := 0x2C, tag := (s.chip.part z).nextTag }, sentAt := max s.chip.now t, ref := refKey refClear p }]) ∧
  (∀ (t p b : Nat) (d : Desc) (x : Cmd) (u : TopoUnit) (s : State),
    s.mayRun t (.route p) d x →
    (s.found t).unitOf p (d.at 0x1C 4 % 2 ^ 20) = some u →
    d.at 0x20 1 ≤ 2 →
    d.at 0x21 1 = 0 →
    0 < d.at 0x18 4 →
    (b = if d.at 0x20 1 = 2 then 2 else if d.at 0x20 1 = 0 then s.ureg u.unit .ABANKS_ACTIVE_BANK else 1 - s.ureg u.unit .ABANKS_ACTIVE_BANK) →
    ∃ s', exec (.readBank t p d) s = .next s' ∧
      (s'.chip.part p).bankCmd = some { q := .route p, tag := d.tag, fid := u.fid, addr := 0x800000 + b * 0x200000 + d.at 0x24 4, host := d.at 0x10 8, left := d.at 0x18 4 } ∧
      (s'.chip.part p).requests = (s.chip.part p).requests ++ [{ dst := u.fid, msg := { type := 0x02, tag := (s.chip.part p).nextTag, body := [0x800000 + b * 0x200000 + d.at 0x24 4, min 3068 (ceilDiv (d.at 0x18 4) 4)] }, sentAt := max s.chip.now t, ref := refKey refBank 0 }])

/-- R130, R134: an answer that is OK ends the act it answers; while others are outstanding the stage goes on waiting. An agent
that answered COMMIT has E's tables and epoch, and its mirror is the bank it was sent. -/
def Obligations.TransactionAnswers : Prop :=
  (∀ (t p src tag : Nat) (r : Request) (u v : TopoUnit) (x : Txn) (s : State) (e : Nat) (full : Bool),
    s.alive p →
    s.chip.asked p src tag 0x20 = some r →
    r.ref = refKey refTxn 0 →
    s.chip.unitOf p src = some u →
    s.chip.unitAt p u.unit.code = some v →
    (s.chip.part p).txn = some x →
    SMap.get [] x.scripts u.unit.code = [.prepare e full] →
    SMap.erase x.scripts u.unit.code ≠ [] →
    ∃ s', exec (.prepareAck t p src tag 0x00) s = .next s' ∧
      (s'.chip.part p).txn = some { x with scripts := SMap.erase x.scripts u.unit.code } ∧
      ((s'.chip.part p).requests = ((s.chip.part p).requests.filter fun q => !(q.dst = src && q.msg.tag = tag)).filter fun q => !(q.dst = v.fid && q.ref = refKey refTxn 1))) ∧
  (∀ (t p src tag : Nat) (r : Request) (u v : TopoUnit) (x : Txn) (s : State) (e k : Nat),
    s.alive p →
    s.chip.asked p src tag 0x24 = some r →
    r.ref = refKey refTxn 0 →
    s.chip.unitOf p src = some u →
    s.chip.unitAt p u.unit.code = some v →
    (s.chip.part p).txn = some x →
    SMap.get [] x.scripts u.unit.code = [.drain e k] →
    SMap.erase x.scripts u.unit.code ≠ [] →
    ∃ s', exec (.drainAck t p src tag 0x00) s = .next s' ∧
      (s'.chip.part p).txn = some { x with scripts := SMap.erase x.scripts u.unit.code }) ∧
  (∀ (t p src tag : Nat) (r : Request) (u v : TopoUnit) (x : Txn) (s : State) (e : Nat),
    s.alive p →
    s.chip.asked p src tag 0x26 = some r →
    r.ref = refKey refTxn 0 →
    s.chip.unitOf p src = some u →
    s.chip.unitAt p u.unit.code = some v →
    (s.chip.part p).txn = some x →
    SMap.get [] x.scripts u.unit.code = [.commit e] →
    SMap.erase x.scripts u.unit.code ≠ [] →
    (s.chip.part p).resync = false →
    (s.chip.part p).cutDue = false →
    s.chip.heldAdmits = [] →
    SMap.find? (s.chip.part p).shadowOf u.unit.code = some e →
    ∃ s', exec (.commitAck t p src tag 0x00) s = .next s' ∧
      (s'.chip.part p).txn = some { x with scripts := SMap.erase x.scripts u.unit.code } ∧
      SMap.get 0 (s'.chip.part p).agentEpoch u.unit.code = e ∧
      SMap.get [] (s'.chip.part p).mirrors u.unit.code = SMap.get [] (s.chip.part p).shadowMirrors u.unit.code) ∧
  (∀ (t p src tag : Nat) (r : Request) (u v : TopoUnit) (x : Txn) (s : State) (e : Nat),
    s.alive p →
    s.chip.asked p src tag 0x28 = some r →
    r.ref = refKey refTxn 0 →
    s.chip.unitOf p src = some u →
    s.chip.unitAt p u.unit.code = some v →
    (s.chip.part p).txn = some x →
    SMap.get [] x.scripts u.unit.code = [.resume e] →
    SMap.erase x.scripts u.unit.code ≠ [] →
    (s.chip.part p).resync = false →
    (s.chip.part p).cutDue = false →
    s.chip.heldAdmits = [] →
    ∃ s', exec (.resumeAck t p src tag 0x00) s = .next s' ∧
      (s'.chip.part p).txn = some { x with scripts := SMap.erase x.scripts u.unit.code }) ∧
  (∀ (t p src tag : Nat) (r : Request) (u v : TopoUnit) (x : Txn) (s : State) (e : Nat),
    s.alive p →
    s.chip.asked p src tag 0x2A = some r →
    r.ref = refKey refTxn 0 →
    s.chip.unitOf p src = some u →
    s.chip.unitAt p u.unit.code = some v →
    (s.chip.part p).txn = some x →
    SMap.get [] x.scripts u.unit.code = [.abandon e] →
    SMap.erase x.scripts u.unit.code ≠ [] →
    (s.chip.part p).resync = false →
    (s.chip.part p).cutDue = false →
    s.chip.heldAdmits = [] →
    ∃ s', exec (.abandonAck t p src tag 0x00) s = .next s' ∧
      (s'.chip.part p).txn = some { x with scripts := SMap.erase x.scripts u.unit.code }) ∧
  (∀ (t p src tag : Nat) (r : Request) (u v : TopoUnit) (x : Txn) (s : State),
    s.alive p →
    s.chip.asked p src tag 0x04 = some r →
    r.ref = refKey refTxn 0 →
    s.chip.unitOf p src = some u →
    s.chip.unitAt p u.unit.code = some v →
    (s.chip.part p).txn = some x →
    SMap.get [] x.scripts u.unit.code = [.ctlCommit] →
    SMap.erase x.scripts u.unit.code ≠ [] →
    (s.chip.part p).resync = false →
    (s.chip.part p).cutDue = false →
    s.chip.heldAdmits = [] →
    ∃ s', exec (.writeAck t p src tag 0x00) s = .next s' ∧
      (s'.chip.part p).txn = some { x with scripts := SMap.erase x.scripts u.unit.code } ∧
      ((s'.chip.part p).requests = (s.chip.part p).requests.filter fun q => !(q.dst = src && q.msg.tag = tag)))

/-- R130: GENERATE ends with PREPARE at the zone's agents, and the lead begins the next stage of a domain transaction when
every zone's report is in; R132: at the commit deadline without any COMMIT the transaction is abandoned with TIMEOUT; R133,
R134: an agent that rolls back after the first COMMIT, or whose COMMIT had no answer, is asked for its epochs; R137: an epoch
report is kept until all are in; R139: the automatic delay opens a transaction of the zone. -/
def Obligations.TransactionEvents : Prop :=
  (∀ (t p : Nat) (x : Txn) (s : State),
    s.alive p →
    (s.chip.part p).txn = some x →
    x.stage = 1 →
    x.held = false →
    x.domain = false →
    ((((s.found t).zoneAgents p).filter fun u => u.unit.code ∉ x.lost) ≠ []) →
    ∃ s', exec (.generateDone t p) s = .next s' ∧
      ((s'.chip.part p).txn.map (fun y => (y.epoch, y.stage, y.map)) = some (x.epoch, 2, x.map)) ∧
      s'.reg .ROUTE_TXN_STAGE p = 2 ∧
      s'.reg .ROUTE_LAST_GEN_TICKS p = min (max s.chip.now t - x.genAt) (2 ^ 32 - 1)) ∧
  (∀ (t p src tag : Nat) (rep : List Nat) (r : Request) (u : TopoUnit) (s : State),
    s.alive p →
    s.chip.asked p src tag 0x2C = some r →
    r.ref = refKey refReport 0 →
    s.chip.unitOf p src = some u →
    (s.chip.part p).resolve = [] →
    (s.chip.part p).queryCmd = none →
    (s.chip.part p).resync = false →
    (s.chip.part p).cutDue = false →
    s.chip.heldAdmits = [] →
    ∃ s', exec (.epochReport t p src tag 0x00 rep) s = .next s' ∧
      SMap.find? (s'.chip.part p).reports u.unit.code = some rep ∧
      SMap.get 0 (s'.chip.part p).agentEpoch u.unit.code = rep.getD 0 0 ∧
      ((s'.chip.part p).requests = (s.chip.part p).requests.filter fun q => !(q.dst = src && q.msg.tag = tag))) ∧
  (∀ (t p src : Nat) (rep : List Nat) (x : Txn) (u : TopoUnit) (s : State),
    s.alive p →
    (s.chip.part p).txn = some x →
    s.chip.unitOf p src = some u →
    x.commitSent = true →
    x.abandoning = none →
    rep.getD 1 0 = x.epoch →
    SMap.find? x.scripts u.unit.code = none →
    SMap.get 0 x.recov u.unit.code < 3 →
    ∃ s', exec (.rollback t p src rep) s = .next s' ∧
      (s'.chip.part p).txn = some { x with recov := SMap.insert x.recov u.unit.code (SMap.get 0 x.recov u.unit.code + 1), polls := SMap.erase x.polls u.unit.code, scripts := SMap.insert x.scripts u.unit.code [.query] } ∧
      s'.reg .ROUTE_AGENT_ROLLBACKS p = countUp (s.reg .ROUTE_AGENT_ROLLBACKS p)) ∧
  (∀ (t p : Nat) (d : Domain) (s : State),
    s.alive p →
    s.chip.leadPart = p →
    (s.chip.part p).domain = some d →
    d.stage = 2 →
    d.wait = [] →
    (∀ z ∈ d.req.zones, (s.chip.part z).portDown = false) →
    (∀ z ∈ d.req.zones, ((s.chip.part z).txn.any fun x => x.domain && !x.agents.isEmpty) = true) →
    ∃ s', exec (.stageReport t p 2) s = .next s' ∧
      (s'.chip.part p).domain = some { d with stage := 3, wait := d.req.zones } ∧
      (∀ z ∈ d.req.zones, (s'.chip.part z).txn.map (fun y => (y.stage, y.drainAt)) = some (3, some (max s.chip.now t)))) ∧
  (∀ (t p : Nat) (x : Txn) (s : State),
    s.alive p →
    (s.chip.part p).txn = some x →
    x.stage = 3 →
    x.commitSent = false →
    x.abandoning = none →
    x.domain = false →
    x.agents ≠ [] →
    Chip.commitDeadline x ≤ max s.chip.now t →
    ∃ s', exec (.commitDeadline t p) s = .next s' ∧
      ((s'.chip.part p).txn.map (fun y => (y.epoch, y.stage, y.abandoning)) = some (x.epoch, 3, some 1))) ∧
  (∀ (t p code due : Nat) (x : Txn) (s : State),
    s.alive p →
    (s.chip.part p).txn = some x →
    x.polls = [(code, due)] →
    due ≤ max s.chip.now t →
    SMap.find? x.scripts code = none →
    ∃ s', exec (.commitPoll t p) s = .next s' ∧
      (s'.chip.part p).txn = some { x with scripts := SMap.insert x.scripts code [.query] }) ∧
  (∀ (t p d : Nat) (s : State),
    p < 16 →
    s.alive p →
    (s.chip.part p).autoAt = some d →
    d ≤ max s.chip.now t →
    s.reg .ROUTE_AUTO p = 1 →
    (s.chip.part p).txn = none →
    (s.chip.part p).restarting = false →
    s.chip.outOfService p = false →
    s.chip.stageOf p < 4 →
    ∃ s', exec (.autoDelayExpiry t p) s = .next s' ∧
      ((s'.chip.part p).txn.map (fun y => (y.epoch, y.stage, y.req.auto)) = some (nextEpoch (s.reg .ROUTE_ZONE_EPOCH p), 1, true)) ∧
      (s'.chip.part p).autoAt = none ∧
      s'.reg .ROUTE_AUTO_TXNS p = countUp (s.reg .ROUTE_AUTO_TXNS p) ∧
      s'.reg .ROUTE_AUTO_OPEN p = 1)

/-- R140: words that an agent reads for READ_BANK go to host memory, and the next are asked for; R280: a load completes when
the last agent has acknowledged its templates; R297: a lift ends with the last UNFENCE_ACK of the zone; R82: a BEAT goes to
the zone's agents. -/
def Obligations.PartitionAnswers : Prop :=
  (∀ (t p src tag : Nat) (words : List Nat) (r : Request) (b : BankRead) (s : State),
    s.alive p →
    s.chip.asked p src tag 0x02 = some r →
    r.ref = refKey refBank 0 →
    (s.chip.part p).bankCmd = some b →
    words ≠ [] →
    4 * words.length < b.left →
    b.host + 4 * words.length < 2 ^ 64 →
    ∃ s', exec (.readResp t p src tag 0x00 words) s = .next s' ∧
      (s'.chip.part p).bankCmd = some { b with addr := b.addr + 4 * words.length, host := b.host + 4 * words.length, left := b.left - 4 * words.length } ∧
      s'.chip.hostBytes (s.chip.queuePort b.q) b.host (4 * words.length) = words.flatMap (bytesOf 4)) ∧
  (∀ (t p src tag job : Nat) (r : Request) (l : LoadRun) (s : State),
    s.alive p →
    s.chip.asked p src tag 0x44 = some r →
    r.ref = refKey refTmpl job →
    job < 2 ^ 48 →
    (s.chip.part p).requests = [r] →
    (s.chip.part p).loads = [l] →
    l.waits = some [job] →
    l.degraded = false →
    ∃ s', exec (.templateAck t p src tag 0x00) s = .next s' ∧
      (s'.chip.part p).loads = [] ∧
      s'.reg .IMAGE_LAST_STATUS p = 0x00 ∧
      s'.reg .IMAGE_LAST_FAIL_SECTION p = 0xFF) ∧
  (∀ (t p src tag : Nat) (r : Request) (l : Lift) (u : TopoUnit) (s : State),
    s.alive p →
    s.chip.asked p src tag 0x32 = some r →
    r.ref = refKey refLift l.fid →
    l.fid < 2 ^ 48 →
    (s.chip.part p).requests = [r] →
    (s.chip.part p).lifts = [l] →
    l.stage = 3 →
    l.cmd = none →
    s.chip.unitOf p l.fid = some u →
    ∃ s', exec (.unfenceAck t p src tag 0x00) s = .next s' ∧
      (s'.chip.part p).lifts = [] ∧
      ((s'.chip.part p).gone = (s.chip.part p).gone.filter (fun f => f ≠ l.fid)) ∧
      ((s'.chip.part p).fences = mapIf (fun x => x.job = l.job && x.fid = l.fid) (fun x => { x with lifted := true }) (s.chip.part p).fences) ∧
      s'.reg .FAIL_UNFENCES p = countUp (s.reg .FAIL_UNFENCES p)) ∧
  (∀ (t p : Nat) (u : TopoUnit) (s : State),
    s.alive p →
    ((s.chip.part p).lastBeat = 0 ∨ (s.chip.part p).lastBeat + 250000 ≤ max s.chip.now t) →
    s.chip.stageOf p < 5 →
    (s.chip.part p).portDown = false →
    u ∈ s.chip.zoneAgents p →
    u.fid < 0xFF000 →
    ((s.chip.part p).link.tx.all (fun e => decide (e.2 + (s.chip.zoneAgents p).length < 2 ^ 40)) = true) →
    ∃ s', exec (.beatSend t p) s = .next s' ∧
      (s'.chip.part p).lastBeat = max s.chip.now t ∧
      Emission.sent p u.fid { type := 0x49 } ∈ s'.chip.out)

/-- R157: a request that nothing speaks against gets the lowest free slice number, and its command waits; a worker passes a
request for another G9's pod to the manager; joins done, the circuits are lit; a reservation that is not confirmed within a
second is given back; a circuit that does not train ends the admission with CAPACITY, reason 4 and the spine port; R159: a
partition that was reset asks the coordinator. -/
def Obligations.SliceAdmission : Prop :=
  (∀ (t p : Nat) (d : Desc) (x : Cmd) (y : Slice) (b : List Nat) (s : State),
    s.mayRun t (.route p) d x →
    (s.found t).leadPart = p →
    (s.found t).hostBytes ((s.found t).queuePort (.route p)) (d.at 0x10 8) (d.at 0x18 4) = b →
    (s.chip.part p).forwards.contains ((.route p : QId), d.tag) = false →
    s.chip.isManager = true →
    (sliceReqOf b).kinds.any (· = 3) = false →
    (s.found t).sliceAsked p b = y →
    (s.found t).badRequest (sliceReqOf b) (d.at 0x18 4) (d.at 0x28 4) y = false →
    (((y.pods s.chip.grid).any fun pod => pod / 16 ≠ (s.found t).clusterIndex) = false) →
    ((((s.found t).sliceZones y).any fun z => (s.chip.part z).txn.isSome || (s.chip.part z).topo.run.isSome || (s.chip.part z).restarting) = false) →
    (s.found t).admitFails y (some ((s.found t).queuePort (.route p))) = [] →
    ∃ s', exec (.admitSlice t p d) s = .next s' ∧
      (s'.chip.slices.map (fun z => (z.num, z.job, z.ctx, z.stage)) = s.chip.slices.map (fun z => (z.num, z.job, z.ctx, z.stage)) ++
      [((Chip.lowestNum (s.chip.slices.map (fun z => z.num) ++ s.chip.sliceNums.map fun e => e.1)).getD 1, y.job, y.ctx, 2)]) ∧
      (s'.chip.slices.map (fun z => z.cmds) = s.chip.slices.map (fun z => z.cmds) ++ [[((.route p : QId), d.tag)]]) ∧
      (∀ z ∈ (s.found t).sliceZones y, s'.chip.residentIn y.ctx z = true)) ∧
  (∀ (t p : Nat) (d : Desc) (x : Cmd) (y : Slice) (b : List Nat) (s : State),
    s.mayRun t (.route p) d x →
    (s.found t).leadPart = p →
    (s.found t).hostBytes ((s.found t).queuePort (.route p)) (d.at 0x10 8) (d.at 0x18 4) = b →
    (s.chip.part p).forwards.contains ((.route p : QId), d.tag) = false →
    s.chip.isManager = false →
    (sliceReqOf b).kinds.any (· = 3) = false →
    (s.found t).sliceAsked p b = y →
    (s.found t).badRequest (sliceReqOf b) (d.at 0x18 4) (d.at 0x28 4) y = false →
    (((y.pods s.chip.grid).any fun pod => pod / 16 ≠ (s.found t).clusterIndex) = true) →
    (s.found t).unowned y ((s.found t).queuePort (.route p)) = false →
    (s.chip.part p).portDown = false →
    s.reg .BOOT_BLOB_DEFAULTED 0 ≠ 1 →
    ∃ s', exec (.admitSlice t p d) s = .next s' ∧
      Emission.peer p (s.found t).mgrFid "ADMIT" ([d.tag, d.at 0x28 4] ++ b) ∈ s'.chip.out ∧
      (s'.chip.part p).forwards = (s.chip.part p).forwards ++ [((.route p : QId), d.tag)] ∧
      s'.chip.slices = s.chip.slices) ∧
  (∀ (t n : Nat) (delays : List Nat) (y : Slice) (s : State),
    (s.found t).sliceOf n = some y →
    (s.found t).sliceOut y = none →
    y.failure = none →
    y.master = none →
    y.waits = [] →
    y.state = 0 →
    y.undo = false →
    y.stage = 3 →
    y.txnWanted = true →
    y.txnStatus = some 0x00 →
    ∃ s', exec (.admitStageDone t n delays) s = .next s' ∧
      s'.chip.sliceOf n = some { y with stage := 4, state := 1, txnWanted := false, stageAt := max s.chip.now t, waits := (s.found t).farG9s y }) ∧
  (∀ (t n : Nat) (y : Slice) (s : State),
    (s.found t).sliceOf n = some y →
    y.stage = 2 →
    y.undo = false →
    y.txnWanted = false →
    y.master = none →
    y.reservedAt + 1000000000 ≤ max s.chip.now t →
    ∃ s', exec (.reserveExpiry t n) s = .next s' ∧
      (s'.chip.slices.map (fun z => (z.num, z.job, z.state)) = (s.chip.slices.filter fun z => z.num ≠ n).map fun z => (z.num, z.job, z.state))) ∧
  (∀ (t n i : Nat) (y : Slice) (k : Circuit) (s : State),
    (s.found t).sliceOf n = some y →
    y.circuits[i]? = some k →
    y.stage = 4 →
    y.undo = false →
    y.master = none →
    y.startAt + 252000000 ≤ max s.chip.now t →
    ∃ s', exec (.trainTimeout t n i) s = .next s' ∧
      ((s'.chip.sliceOf n).map (fun z => (z.undo, z.failedAt, z.status, z.reason, z.detail)) = some (true, 4, 0x0B, 4, k.portA))) ∧
  (∀ (t p n : Nat) (y : Slice) (s : State),
    s.alive p →
    (s.found t).sliceOf n = some y →
    y.state ≠ 2 →
    p ≠ y.coordinator →
    y.coordinator < 16 →
    y.master = none →
    (s.chip.part p).portDown = false →
    ∃ s', exec (.outcomePoll t p n) s = .next s' ∧
      s'.chip.out = [.peer p ((s.found t).partFid y.coordinator) "OUTCOME" [n]] ∧
      s'.chip.slices = s.chip.slices)

/-- R160: TEARDOWN of an admitted slice stops its job; once its last list has ended the quiet time begins, and then its routes
are taken away; R161: QUERY_SLICE writes the request block, the result and STATE; R154: MOVE_LEAD makes another pod's
partition the lead. -/
def Obligations.SliceLife : Prop :=
  (∀ (t p : Nat) (d : Desc) (x : Cmd) (y : Slice) (s : State),
    s.mayRun t (.route p) d x →
    (s.found t).sliceOf (d.at 0x10 2) = some y →
    y.state = 2 →
    y.master = none →
    (s.chip.part y.coordinator).forwards.contains ((.route p : QId), d.tag) = false →
    ∃ s', exec (.teardown t p d) s = .next s' ∧
      ((s'.chip.sliceOf (d.at 0x10 2)).map (fun z => (z.state, z.stage, z.force, z.stageAt)) = some (3, 11, bit (d.at 0x12 2) 0, max s.chip.now t)) ∧
      ((s'.chip.sliceOf (d.at 0x10 2)).map (fun z => z.cmds) = some [((.route p : QId), d.tag)])) ∧
  (∀ (t n : Nat) (y : Slice) (s : State),
    (s.found t).sliceOf n = some y →
    y.state = 3 →
    y.stage = 11 →
    y.txnWanted = false →
    y.force = false →
    y.master = none →
    y.waits = [] →
    (s.found t).lastListEnd y ≤ max s.chip.now t →
    ∃ s', exec (.teardownStageDone t n) s = .next s' ∧
      s'.chip.sliceOf n = some { y with stage := 12, stageAt := max s.chip.now t, waits := (s.found t).farG9s y }) ∧
  (∀ (t n : Nat) (y : Slice) (s : State),
    (s.found t).sliceOf n = some y →
    y.state = 3 →
    y.stage = 12 →
    y.master = none →
    y.waits = [] →
    y.stageAt + (s.found t).quietFrames y * 131072 ≤ max s.chip.now t →
    ∃ s', exec (.quietExpiry t n) s = .next s' ∧
      ((s'.chip.sliceOf n).map (fun z => (z.stage, z.stageAt, z.txnWanted)) = some (13, max s.chip.now t, true))) ∧
  (∀ (t p : Nat) (d : Desc) (x : Cmd) (y : Slice) (s : State),
    s.mayRun t (.route p) d x →
    (s.found t).sliceOf (d.at 0x10 2) = some y →
    y.result ≠ [] →
    (y.request ++ y.result).all (· < 256) = true →
    y.request.length + y.result.length + 4 ≤ d.at 0x20 4 →
    x.port.getD ((s.found t).queuePort (.route p)) = (s.found t).queuePort (.route p) →
    s.apart t (.route p) (d.at 0x18 8) (y.request.length + y.result.length + 4) →
    ∃ s', exec (.querySlice t p d) s = .next s' ∧
      s'.chip.hostBytes ((s.found t).queuePort (.route p)) (d.at 0x18 8) (y.request.length + y.result.length + 4) = y.request ++ y.result ++ bytesOf 4 y.state ∧
      s.recorded s' t (.route p) x 0x00 0) ∧
  (∀ (t p : Nat) (d : Desc) (x : Cmd) (y : Slice) (s : State),
    s.mayRun t (.route p) d x →
    (s.found t).sliceOf (d.at 0x10 2) = some y →
    (y.pods s.chip.grid).contains (d.at 0x12 2) = true →
    (s.found t).podInService (d.at 0x12 2) = true →
    ∃ s', exec (.moveLead t p d) s = .next s' ∧
      ((s'.chip.sliceOf (d.at 0x10 2)).map (fun z => (z.leadPod, z.lead, z.state, z.endpoints)) = some (d.at 0x12 2, 0xFF000 + d.at 0x12 2, y.state, y.endpoints)) ∧
      s.recorded s' t (.route p) x 0x00 0)

/-- R173, R174: a vector that passes its checks before the gather point is kept and answered with OK; R170: a frame that
enters the ring has only its management slots taken when nothing is static, and one already in it keeps its claims; R179,
R187: at PC, or at GP in ordered mode, the sources are fixed and those without a vector are MISSING; R181, R182: an engine's
unit claims the slots of its runs; R185: an idle engine takes up to 32 units of the overflow queue; R200: after its quantum a
context gives the engines to the next. -/
def Obligations.WindowPlacement : Prop :=
  (∀ (t p src tag : Nat) (b : DemandBody) (j : Job) (s : State),
    s.alive p →
    s.freshAt t p src tag →
    (s.found t).demandCheck p src tag b = 0 →
    (s.found t).jobOf p b.job = some j →
    ((s.found t).winOf p b.job ((s.found t).fullFrame b.window) false).gathered = false →
    ((max s.chip.now t : Nat) : Int) ≤ (s.found t).gatherOf p j ((s.found t).fullFrame b.window) →
    ((s.found t).winOf p b.job ((s.found t).fullFrame b.window) false).closed = false →
    ((max s.chip.now t : Nat) : Int) ≤ (s.found t).sdOf p ((s.found t).fullFrame b.window) →
    (s.chip.part p).fences = [] →
    ∃ s', exec (.demand t p src tag b) s = .next s' ∧
      ((s'.chip.winOf p b.job ((s.found t).fullFrame b.window) false).vectors.map (fun v => (v.src, v.tag, v.step, v.entries)) =
      ((s.found t).winOf p b.job ((s.found t).fullFrame b.window) false).vectors.map (fun v => (v.src, v.tag, v.step, v.entries)) ++ [(src, tag, b.step, b.entries)]) ∧
      (s'.chip.winOf p b.job ((s.found t).fullFrame b.window) false).step = some b.step ∧
      s'.panswered p src tag 0x40 0x00 [b.entries.length, 0, 0]) ∧
  (∀ (t p l w : Nat) (s : State),
    s.alive p →
    l < 2304 →
    w < 16 →
    (s.chip.part p).jobs = [] →
    (s.chip.part p).ringEnd ≤ max s.chip.now t / 131072 + 39 →
    ∃ s', exec (.frameEntersRing t p) s = .next s' ∧
      SMap.get Chip.occNew (s'.chip.part p).occ (Chip.occKey (max s.chip.now t / 131072 + 39) l w) = 2 ^ 63 ∧
      (s'.chip.part p).ringEnd = max s.chip.now t / 131072 + 40) ∧
  (∀ (t p f l w : Nat) (s : State),
    s.alive p →
    l < 2304 →
    w < 16 →
    (s.chip.part p).ringEnd = max s.chip.now t / 131072 + 40 →
    max s.chip.now t / 131072 ≤ f →
    ∃ s', exec (.frameEntersRing t p) s = .next s' ∧
      SMap.get Chip.occNew (s'.chip.part p).occ (Chip.occKey f l w) = SMap.get Chip.occNew (s.chip.part p).occ (Chip.occKey f l w) ∧
      (s'.chip.part p).ringEnd = (s.chip.part p).ringEnd) ∧
  (∀ (t p job w : Nat) (j : Job) (s : State),
    s.alive p →
    (s.found t).jobOf p job = some j →
    ((s.found t).modeOf p j w).2.1 = false →
    j.onGrid w = true →
    (s.found t).pcOf p w ≤ ((max s.chip.now t : Nat) : Int) →
    j.stopped = false →
    j.holesOf w ≠ [] →
    (j.win w false).gathered = false →
    ∃ s', exec (.placementCut t p job w) s = .next s' ∧
      (s'.chip.winOf p job w false).gathered = true ∧
      ((s'.chip.winOf p job w false).missing = (((s.found t).zoneEps p j).filter fun e => !((j.win w false).vectors.any fun v => v.src = e.1) && !(s.found t).fencedFor p job e.1).map Prod.fst)) ∧
  (∀ (t p job w : Nat) (j : Job) (s : State),
    s.alive p →
    (s.found t).jobOf p job = some j →
    ((s.found t).modeOf p j w).2.1 = true →
    j.onGrid w = true →
    (s.found t).gatherOf p j w ≤ ((max s.chip.now t : Nat) : Int) →
    j.stopped = false →
    j.holesOf w ≠ [] →
    (j.win w false).gathered = false →
    ∃ s', exec (.gatherPoint t p job w) s = .next s' ∧
      (s'.chip.winOf p job w false).gathered = true ∧
      ((s'.chip.winOf p job w false).missing = (((s.found t).zoneEps p j).filter fun e => !((j.win w false).vectors.any fun v => v.src = e.1) && !(s.found t).fencedFor p job e.1).map Prod.fst)) ∧
  (∀ (t p e n f k x job w : Nat) (i : Item) (j : Job) (path : List (Nat × Nat)) (s : State),
    s.alive p →
    e ∈ (s.found t).working p →
    (s.chip.part p).engines.ctx = some x →
    x ∈ (s.found t).ctxWork p →
    (((s.found t).deque p e).find? (fun y => (s.found t).unitCtx p y = some x && (s.found t).unitReady p y && !(s.found t).txnWait p y.job y.frame y.lead) = some { job := job, frame := w, lead := false, items := [n] }) →
    (s.found t).jobOf p job = some j →
    ((j.win w false).items.find? (fun y => y.id = n) = some i) →
    i.id = n →
    i.ended = false →
    i.runs = [] →
    (s.found t).unlocked = false →
    (s.found t).itemPath p w ((s.found t).sliceOf j.slice) i = some path →
    0 < i.want →
    Chip.listLen (j.win w false) i.src < 16384 →
    proposeRun ((s.found t).hopsClear p j (j.win w false) path) (Chip.holesFor j (j.win w false) i.cross) i.at_ i.want = some (f, k, i.want) →
    (∀ b ∈ (s.chip.part p).badWords, SMap.get Chip.occNew (s.chip.part p).occ b = 2 ^ 64 - 1) →
    ∃ s', exec (.placeUnit t p e {}) s = .next s' ∧
      ((s'.chip.winOf p job w false).items.find? (fun y => y.id = n) = some { i with runs := [{ frame := f, first := k, len := i.want, hops := path }], at_ := f * 1024 + k + i.want, ended := true }) ∧
      (∀ y ∈ Chip.runSlots w { frame := f, first := k, len := i.want, hops := path }, (y.2 % 64 = 63 ∨ s'.chip.occupied p (y.1 - podLam ((s.found t).podOf p) 0) y.2 = true))) ∧
  (∀ (t p e : Nat) (s : State),
    s.alive p →
    e ∈ (s.found t).working p →
    (s.found t).deque p e = [] →
    (s.chip.part p).engines.overflow ≠ [] →
    ∃ s', exec (.engineIdle t p e) s = .next s' ∧
      s'.chip.deque p e = (s.chip.part p).engines.overflow.take 32 ∧
      (s'.chip.part p).engines.overflow = (s.chip.part p).engines.overflow.drop 32) ∧
  (∀ (t p x y : Nat) (s : State),
    s.alive p →
    (s.chip.part p).engines.ctx = some x →
    (s.chip.part p).engines.since + s.reg .SCHED_QUANTUM p * 131072 ≤ max s.chip.now t →
    y ∈ (s.found t).ctxWork p →
    y ≠ x →
    ∃ s', exec (.engineQuantumExpiry t p) s = .next s' ∧
      (s'.chip.part p).engines.ctx = Chip.nextCtx ((s.found t).ctxWork p) x ∧
      (s'.chip.part p).engines.since = max s.chip.now t)

/-- R191: a source whose items have all ended has its list sent; R192, R203: at SD a window closes with its record; R197: at
XC the cross items end, and until then runs that the lead returns are merged; R193: a list that an agent rejects is sent once
more; R196: the lead takes cross demand; R202: SET_SCHED and SET_TEMPLATE_SEQ hold from a window not yet placed, READ_WINDOWS
writes records; R89: agents that have not acknowledged a sequence in time are silent. -/
def Obligations.WindowLists : Prop :=
  (∀ (t p job w src : Nat) (a : Tile) (j : Job) (s : State),
    s.alive p →
    (s.found t).jobOf p job = some j →
    j.onGrid w = true →
    (((s.found t).zoneEps p j).any (fun e => e.1 = src) = true) →
    (s.found t).mayList p j (j.win w false) src = true →
    (j.wins.any (fun x => x.frame = w && !x.lead) = true) →
    ((max s.chip.now t : Nat) : Int) ≤ (s.found t).sdOf p w →
    (s.found t).listTurn p j (j.win w false) src (((s.found t).placeOf p src).getD (0, 0)).2 = true →
    (s.found t).sealTile p (((s.found t).placeOf p src).getD (0, 0)).2 j.ctx w j.frames = a →
    Chip.tileSound a j.ctx j.frames = true →
    Chip.runsSealed a (j.win w false) src = true →
    (((j.win w false).items.filter fun i => i.src = src).all (fun i => i.left = 0) = true) →
    ∃ s', exec (.sealSource t p job w src 0) s = .next s' ∧
      (s'.chip.winOf p job w false).sent = (j.win w false).sent ++ [(src, max s.chip.now t)] ∧
      (s'.chip.winOf p job w false).sealed_ = (j.win w false).sealed_ ++ [src] ∧
      (s'.chip.winOf p job w false).checkFail = (j.win w false).checkFail ∧
      (s'.chip.winOf p job w false).tiles = (j.win w false).tiles ++ [(src, a)]) ∧
  (∀ (t p job w : Nat) (j : Job) (s : State),
    s.alive p →
    (s.found t).jobOf p job = some j →
    j.onGrid w = true →
    (s.found t).sdOf p w ≤ ((max s.chip.now t : Nat) : Int) →
    j.stopped = false →
    0 < j.frames →
    (j.win w false).closed = false →
    ∃ s', exec (.sendDeadline t p job w) s = .next s' ∧
      ((s'.chip.part p).records.map (fun r => (r.1, r.2.1)) = lastN 4096 ((s.chip.part p).records.map (fun r => (r.1, r.2.1)) ++ [(w, job)])) ∧
      (s'.chip.winOf p job w false).closed = true ∧
      s'.reg .SCHED_LAST_WINDOW p = w % 2 ^ 32) ∧
  (∀ (t p job w : Nat) (j : Job) (s : State),
    s.alive p →
    (s.found t).jobOf p job = some j →
    j.onGrid w = true →
    (s.found t).xcOf p w ≤ ((max s.chip.now t : Nat) : Int) →
    (j.wins.any (fun x => x.frame = w && !x.lead) = true) →
    ∃ s', exec (.crossCut t p job w) s = .next s' ∧
      ((s'.chip.winOf p job w false).items = mapIf (fun i => i.cross) (fun i => { i with ended := true }) (j.win w false).items) ∧
      (s'.chip.winOf p job w false).cut = true) ∧
  (∀ (t p src tag job w : Nat) (r : Request) (j : Job) (s : State),
    s.alive p →
    s.chip.asked p src tag 0x42 = some r →
    r.msg.body.getD 8 0 = job →
    (s.found t).fullFrame (r.msg.body.getD 0 0) = w →
    (s.found t).jobOf p job = some j →
    ((j.win w false).sent.any (fun e => e.1 = src) = true) →
    src ∉ (j.win w false).resent →
    ((j.win w false).rejects.find? (fun e => e.1 = src) = none) →
    ((max s.chip.now t : Nat) : Int) ≤ (s.found t).sdOf p w →
    ∃ s', exec (.slotListAck t p src tag 0x02) s = .next s' ∧
      (s'.chip.winOf p job w false).resent = (j.win w false).resent ++ [src] ∧
      (s'.chip.winOf p job w false).lastList = max s.chip.now t ∧
      ((s'.chip.part p).requests.length = (((s.chip.part p).requests.filter fun q => !(q.dst = src && q.msg.tag = tag)).length + (listBodies w j.frames (j.win w false).tmpl ((j.win w false).listStep j.lastStep) j.job (Chip.listOf (j.win w false) ((j.win w false).listStep j.lastStep) src)).length))) ∧
  (∀ (t p src tag : Nat) (b : CrossBody) (z : Slice) (j : Job) (s : State),
    s.alive p →
    s.freshAt t p src tag →
    (s.found t).sliceOf b.slice = some z →
    (s.found t).leads p z = true →
    (s.found t).jobOf p b.job = some j →
    b.final = true →
    b.spec = false →
    b.carry = false →
    ∃ s', exec (.xdemand t p src tag b) s = .next s' ∧
      b.pod ∈ (s'.chip.winOf p b.job ((s.found t).fullFrame b.window) true).finals ∧
      s'.panswered p src tag 0x80 0x00 []) ∧
  (∀ (t p src tag : Nat) (e : List Nat) (b : CrossBody) (i : Item) (j : Job) (s : State),
    s.alive p →
    s.freshAt t p src tag →
    (s.found t).jobOf p b.job = some j →
    ((max s.chip.now t : Nat) : Int) ≤ (s.found t).xcOf p ((s.found t).fullFrame b.window) →
    b.words = [e] →
    b.final = false →
    (((j.win ((s.found t).fullFrame b.window) false).items.filter fun i => i.cross && i.src = e.getD 0 0 && i.dst = e.getD 2 0 && i.cls ≠ 2) = [i]) →
    ∃ s', exec (.xplace t p src tag b) s = .next s' ∧
      ((s'.chip.winOf p b.job ((s.found t).fullFrame b.window) false).items = mapIf (fun y => y.id = i.id)
      (fun i => { i with runs := i.runs ++ [{ frame := bits (e.getD 1 0) 13 10, first := bits (e.getD 1 0) 9 0, len := bits (e.getD 1 0) 19 14, hops := [] }] }) (j.win ((s.found t).fullFrame b.window) false).items) ∧
      s'.panswered p src tag 0x82 0x00 []) ∧
  (∀ (t p src tag job w k n : Nat) (r : Request) (i : Item) (j : Job) (s : State),
    s.alive p →
    s.chip.asked p src tag 0x82 = some r →
    r.msg.body.getD 0 0 = job →
    (s.found t).fullFrame (r.msg.body.getD 2 0) = w →
    (s.found t).jobOf p job = some j →
    (j.win w true).items = [i] →
    r.msg.body.drop 5 = [i.src, k, i.dst, n] →
    (i.runs.filter (fun y => y.frame = bits k 13 10 && y.first = bits k 9 0) ≠ []) →
    ∃ s', exec (.xplaceAck t p src tag 0x01) s = .next s' ∧
      ((s'.chip.winOf p job w true).items = [{ i with runs := i.runs.filter fun y => !(y.frame = bits k 13 10 && y.first = bits k 9 0) }])) ∧
  (∀ (t p job w fid k : Nat) (j : Job) (u : TopoUnit) (s : State),
    s.alive p →
    (s.found t).jobOf p job = some j →
    j.seqAt = some w →
    w * 131072 ≤ max s.chip.now t + 1000000 →
    j.seqAcks = [(fid, k)] →
    s.chip.unitOf p fid = some u →
    u.profile = 0 →
    ((s.found t).fenceHeld p (((s.found t).jobWith p fid).map (fun y => y.job) |>.getD 0xFFFF) fid = false) →
    fid ∉ (s.chip.part p).gone →
    ∃ s', exec (.templateSeqDeadline t p job) s = .next s' ∧
      ((s'.chip.jobOf p job).map (fun y => (y.seqAt, y.seqAcks)) = some (none, [])) ∧
      fid ∈ (s'.chip.part p).gone ∧
      s'.reg .FAIL_DETECTIONS p = countUp (s.reg .FAIL_DETECTIONS p)) ∧
  (∀ (t p : Nat) (d : Desc) (x : Cmd) (j : Job) (s : State),
    s.mayRun t (.sched p) d x →
    (s.found t).jobOf p (d.at 0x10 2) = some j →
    ∃ s', exec (.setSched t p d) s = .next s' ∧
      ((s'.chip.jobOf p (d.at 0x10 2)).map (fun y => y.settings) = some (j.settings ++ [{ start := (s.found t).nextWindow p j (d.at 0x18 8), cmd := true, mode := some (bit (d.at 0x12 2) 0, bit (d.at 0x12 2) 1, if bits (d.at 0x12 2) 3 2 < 2 then bits (d.at 0x12 2) 3 2 else (s.found t).freeVal 1), tol := if bit (d.at 0x12 2) 4 then some (d.at 0x14 1, d.at 0x15 1) else none }])) ∧
      s.recorded s' t (.sched p) x 0x00 0) ∧
  (∀ (t p : Nat) (d : Desc) (x : Cmd) (j : Job) (s : State),
    s.mayRun t (.sched p) d x →
    (s.found t).jobOf p (d.at 0x10 2) = some j →
    0 < d.at 0x12 1 →
    d.at 0x12 1 ≤ 32 →
    (((List.range (d.at 0x12 1)).map fun i => bits (d.at 0x20 16) (4 * i + 2) (4 * i)).all (fun n => j.tmpls.any fun z => z.num = n) = true) →
    ∃ s', exec (.setTemplateSeq t p d) s = .next s' ∧
      ((s'.chip.jobOf p (d.at 0x10 2)).map (fun y => (y.settings, y.seqAt)) = some (j.settings ++ [{ start := (s.found t).nextWindow p j (max (d.at 0x18 8) (ceilDiv (max s.chip.now t + 10000000) 131072)), cmd := true, seq := some (d.at 0x12 1, d.at 0x20 16) }], some ((s.found t).nextWindow p j (max (d.at 0x18 8) (ceilDiv (max s.chip.now t + 10000000) 131072))))) ∧
      s.recorded s' t (.sched p) x 0x00 0) ∧
  (∀ (t p w job : Nat) (l k : List Nat) (d : Desc) (x : Cmd) (s : State),
    s.mayRun t (.sched p) d x →
    (s.chip.part p).records = [(w, job, l)] →
    (k = (if (s.found t).confJob p job then [] else l)) →
    l.length = 64 →
    l.all (· < 256) = true →
    d.at 0x1C 2 = job →
    d.at 0x20 8 ≤ w →
    64 ≤ d.at 0x18 4 →
    (s.found t).ownerPort p = x.port.getD ((s.found t).queuePort (.sched p)) →
    s.apart t (.sched p) (d.at 0x10 8) k.length →
    ∃ s', exec (.readWindows t p d) s = .next s' ∧
      s'.chip.hostBytes ((s.found t).ownerPort p) (d.at 0x10 8) k.length = k ∧
      s.recorded s' t (.sched p) x 0x00 0)

/-- R299: at VIOL_THRESH the output of a link is blocked until the next commit; R120: a port that an EVENT reports down is
down at both ends; R254: telemetry is added to the port's period and the unit is not silent. -/
def Obligations.AgentReports : Prop :=
  (∀ (t p src slot k l : Nat) (u : TopoUnit) (n : Nat) (s : State),
    s.alive p →
    s.chip.unitOf p src = some u →
    u.unit = .spine p n →
    k < 48 →
    l = lamOf false n k →
    (s.chip.part p).jobs = [] →
    SMap.get 0 (s.chip.part p).violCounts (slot / 1024 * 2304 + l) + 1 = s.reg .FAIL_VIOL_THRESH p →
    l ∉ (s.chip.part p).violBlocked →
    ∃ s', exec (.violation t p src slot k) s = .next s' ∧
      (s'.chip.part p).violBlocked = (s.chip.part p).violBlocked ++ [l] ∧
      s'.reg .FAIL_VIOLATIONS_RX p = countUp (s.reg .FAIL_VIOLATIONS_RX p) ∧
      s'.reg .FAIL_VIOL_BLOCKS p = countUp (s.reg .FAIL_VIOL_BLOCKS p)) ∧
  (∀ (t p src k : Nat) (u : TopoUnit) (n : Nat) (z : TopoLink) (f : UnitId) (s : State),
    s.alive p →
    s.chip.unitOf p src = some u →
    u.unit = .spine p n →
    SMap.find? (s.chip.part p).topo.links (linkKey u.unit k) = some z →
    z.far = some f →
    ∃ s', exec (.event t p src 0x2001 [k]) s = .next s' ∧
      ((s'.chip.part p).topo.links = (s.chip.part p).topo.links.map fun (e : Nat × TopoLink) => if e.1 = linkKey u.unit k || e.1 = linkKey f z.farPort then (e.1, { e.2 with up := false }) else e)) ∧
  (∀ (t p src : Nat) (r : List Nat) (u : TopoUnit) (s : State),
    s.alive p →
    s.chip.unitOf p src = some u →
    ∃ s', exec (.telemetry t p src [r]) s = .next s' ∧
      SMap.get 0 (s'.chip.part p).telemAt u.unit.code = max s.chip.now t ∧
      (SMap.get {} (s'.chip.part p).health (linkKey u.unit (r.getD 0 0)) = { SMap.get {} (s.chip.part p).health (linkKey u.unit (r.getD 0 0)) with
      recs := (SMap.get {} (s.chip.part p).health (linkKey u.unit (r.getD 0 0))).recs + 1, depth := max (SMap.get {} (s.chip.part p).health (linkKey u.unit (r.getD 0 0))).depth (r.getD 1 0), means := (SMap.get {} (s.chip.part p).health (linkKey u.unit (r.getD 0 0))).means + r.getD 2 0, sums := (List.range 7).map fun i => (SMap.get {} (s.chip.part p).health (linkKey u.unit (r.getD 0 0))).sums.getD i 0 + r.getD (3 + i) 0 }))

/-- R242: an invocation starts when its conditions hold, and its model's commands are queued in order; R243: at the deadline
none of the remaining commands is issued; R244: a forecast whose tensors pass their checks is published; R249, R250: an
analysis on the lead ends with its advice where it gains; R251: HIST_RESET empties the history and is answered; R254: an
evaluation starts a new period for every port. -/
def Obligations.LearnedFunctions : Prop :=
  (∀ (t p job w : Nat) (j : Job) (l : List Desc) (s : State),
    s.alive p →
    (s.found t).jobOf p job = some j →
    ((s.found t).modeOf p j w).1 = true →
    ((s.found t).policyAt p j w).histMin ≤ j.filledAt w →
    s.reg .PARTITION_MIOBOR_VACANT p = 0 →
    (s.found t).stageOf p = 0 →
    j.stopped = false →
    (s.found t).haltSeq j.ctx p = none →
    j.onGrid w = true →
    (j.holesOf w).isEmpty = false →
    w * 131072 ≤ max s.chip.now t + s.reg .LEARN_FC_LEAD p * 1000 →
    (s.found t).fcPending p j = false →
    (j.inv.any (fun v => w ≤ v.window) = false) →
    (s.found t).fcModel p j w = some l →
    ((max s.chip.now t : Nat) : Int) ≤ (s.found t).fcDeadline p j w →
    ∃ s', exec (.forecastStart t p job w) s = .next s' ∧
      s'.chip.jobOf p job = some { j with inv := lastN 64 (j.inv ++ [{ window := w, total := l.length }]) } ∧
      (s'.chip.cmds.map (fun y => (y.q.code, y.d)) = (s.found t).cmds.map (fun y => (y.q.code, y.d)) ++ l.map (fun d => ((QId.fw j.ctx p job).code, { d with ctx := j.ctx })))) ∧
  (∀ (t p job w : Nat) (j : Job) (v : Invocation) (s : State),
    s.alive p →
    (s.found t).jobOf p job = some j →
    j.inv.getLast? = some v →
    v.window = w →
    v.published = false →
    v.failed = false →
    v.late = false →
    (s.found t).fcDeadline p j w ≤ ((max s.chip.now t : Nat) : Int) →
    ∃ s', exec (.forecastDeadline t p job w) s = .next s' ∧
      s'.chip.jobOf p job = some { j with inv := j.inv.dropLast ++ [{ v with late := true }] } ∧
      (s'.chip.cmds = (s.found t).cmds.filter fun y => !(y.q = QId.fw j.ctx p job && y.started.isNone))) ∧
  (∀ (t p job w : Nat) (j : Job) (v : Invocation) (a b : Tensor) (s : State),
    s.alive p →
    (s.found t).jobOf p job = some j →
    j.inv.getLast? = some v →
    v.window = w →
    v.published = false →
    v.failed = false →
    v.late = false →
    v.total ≤ v.done →
    ((max s.chip.now t : Nat) : Int) < (s.found t).fcDeadline p j w →
    (s.found t).fcTensor p j.ctx ((s.found t).policyAt p j w).fc 7 512 ((s.found t).policyAt p j w).fcWidth = some a →
    (s.found t).fcTensor p j.ctx ((s.found t).policyAt p j w).fcConf 6 512 1 = some b →
    ∃ s', exec (.forecastPublish t p job w) s = .next s' ∧
      ((s'.chip.jobOf p job).bind (fun k => k.inv.getLast?) = some { v with published := true }) ∧
      (s'.chip.winOf p job w false).spec = true) ∧
  (∀ (t i p job : Nat) (j : Job) (k : Slice) (s : State),
    s.alive p →
    (s.found t).mayWrite i .LEARN p = true →
    (s.found t).jobOf p job = some j →
    (s.found t).sliceOf j.slice = some k →
    (s.found t).leads p k = true →
    ((s.found t).policyOf p job).analysis = true →
    j.stopped = false →
    j.advice.running = none →
    j.advice.state ≠ 2 →
    ∃ s', exec (.analyseReq t i p job) s = .next s' ∧
      ((s'.chip.jobOf p job).bind (fun j => j.advice.running.map fun a => (a.step, a.startAt)) = some (j.lastStep.getD 0, max s.chip.now t)) ∧
      s'.reg .LEARN_ANALYSING p = trunc 16 job) ∧
  (∀ (t p job : Nat) (j : Job) (a : Analysis) (f : Found) (s : State),
    s.alive p →
    (s.found t).jobOf p job = some j →
    j.advice.running = some a →
    s.reg .PARTITION_MIOBOR_VACANT p ≠ 1 →
    (s.found t).regionCheck p j.ctx ((s.found t).regionTensor p j.ctx ((s.found t).policyOf p job).coact 7 ((s.found t).policyOf p job).experts ((s.found t).policyOf p job).experts) = true →
    (s.found t).regionCheck p j.ctx ((s.found t).rawRun p j.ctx ((s.found t).policyOf p job).current ((s.found t).policyOf p job).experts) = true →
    (s.found t).tilesOf p ((s.found t).regionTensor p j.ctx ((s.found t).policyOf p job).coact 7 ((s.found t).policyOf p job).experts ((s.found t).policyOf p job).experts) = a.coact →
    ((Analyse.run ((s.found t).policyOf p job) (fun i k => ofField 32 ((s.found t).elem p ((s.found t).regionTensor p j.ctx ((s.found t).policyOf p job).coact 7 ((s.found t).policyOf p job).experts ((s.found t).policyOf p job).experts) i k)) (fun i => (s.found t).regionByte p j.ctx (((s.found t).policyOf p job).current + i))).2 = some f) →
    (s.found t).stageOf p = 0 →
    (f.gains ((s.found t).policyOf p job).minGain || f.repl != j.advice.repl) = true →
    ∃ s', exec (.analysisDone t p job) s = .next s' ∧
      ((s'.chip.jobOf p job).map (fun j => (j.advice.running, j.advice.bins, j.advice.repl, j.advice.seq)) = some (none, f.bins, f.repl, trunc 32 (j.advice.seq + 1))) ∧
      ((s'.chip.jobOf p job).map (fun j => j.advice.state) = some (if ((s.found t).policyOf p job).apply = 1 then 2 else 1))) ∧
  (∀ (t p src tag job : Nat) (j : Job) (s : State),
    s.alive p →
    s.freshAt t p src tag →
    (s.found t).jobOf p job = some j →
    ∃ s', exec (.histReset t p src tag job) s = .next s' ∧
      ((s'.chip.jobOf p job).map (fun k => (k.filled, k.empty_)) = some (0, true)) ∧
      s'.panswered p src tag 0x84 0x00 []) ∧
  (∀ (t p : Nat) (s : State),
    s.alive p →
    (s.chip.part p).lhAt + s.reg .LEARN_LH_PERIOD p * 1000000 ≤ max s.chip.now t →
    (s.found t).stageOf p = 0 →
    s.reg .MIOBOR_STATE p ≠ 3 →
    ∃ s', exec (.linkHealthEval t p) s = .next s' ∧
      (s'.chip.part p).lhAt = max s.chip.now t ∧
      ((s'.chip.part p).health.map (fun e => (e.2.recs, e.2.sums)) = (s'.chip.part p).health.map (fun _ => (0, []))) ∧
      (s.reg .PARTITION_MIOBOR_VACANT p = 1 → (s'.chip.part p).health.map (fun e => (e.1, e.2.score)) = (s.chip.part p).health.map (fun e => (e.1, e.2.score))))

/-- R225: each command computes its outputs by its own rule; R217: the output tiles are sealed with what it computed, and no
other tile changes; R353: its completion record holds OK. The clauses hold for each command of a compute queue whose turn it
is. -/
def Obligations.ClusterCommands : Prop :=
  (∀ (t p x : Nat) (d : Desc) (y : Cmd) (j : MJob) (s : State),
    d.opcode = 0x10 →
    d.ctx = x →
    s.clusterFree t p x d y →
    s.computes t p d j →
    ∃ s', exec (.gemm t (.compute x p) d) s = .next s' ∧
      s.computed s' t p x y j) ∧
  (∀ (t p x : Nat) (d : Desc) (y : Cmd) (j : MJob) (s : State),
    d.opcode = 0x11 →
    d.ctx = x →
    s.clusterFree t p x d y →
    s.computes t p d j →
    ∃ s', exec (.spgemm t (.compute x p) d) s = .next s' ∧
      s.computed s' t p x y j) ∧
  (∀ (t p x : Nat) (d : Desc) (y : Cmd) (j : MJob) (s : State),
    d.opcode = 0x12 →
    d.ctx = x →
    s.clusterFree t p x d y →
    s.computes t p d j →
    ∃ s', exec (.bsgemm t (.compute x p) d) s = .next s' ∧
      s.computed s' t p x y j) ∧
  (∀ (t p x : Nat) (d : Desc) (y : Cmd) (j : MJob) (s : State),
    d.opcode = 0x13 →
    d.ctx = x →
    s.clusterFree t p x d y →
    s.computes t p d j →
    ∃ s', exec (.gate t (.compute x p) d) s = .next s' ∧
      s.computed s' t p x y j) ∧
  (∀ (t p x : Nat) (d : Desc) (y : Cmd) (j : MJob) (s : State),
    d.opcode = 0x14 →
    d.ctx = x →
    s.clusterFree t p x d y →
    s.computes t p d j →
    ∃ s', exec (.topk t (.compute x p) d) s = .next s' ∧
      s.computed s' t p x y j) ∧
  (∀ (t p x : Nat) (d : Desc) (y : Cmd) (j : MJob) (s : State),
    d.opcode = 0x15 →
    d.ctx = x →
    s.clusterFree t p x d y →
    s.computes t p d j →
    ∃ s', exec (.softmax t (.compute x p) d) s = .next s' ∧
      s.computed s' t p x y j) ∧
  (∀ (t p x : Nat) (d : Desc) (y : Cmd) (j : MJob) (s : State),
    d.opcode = 0x16 →
    d.ctx = x →
    s.clusterFree t p x d y →
    s.computes t p d j →
    ∃ s', exec (.scan t (.compute x p) d) s = .next s' ∧
      s.computed s' t p x y j) ∧
  (∀ (t p x : Nat) (d : Desc) (y : Cmd) (j : MJob) (s : State),
    d.opcode = 0x17 →
    d.ctx = x →
    s.clusterFree t p x d y →
    s.computes t p d j →
    ∃ s', exec (.hist t (.compute x p) d) s = .next s' ∧
      s.computed s' t p x y j) ∧
  (∀ (t p x : Nat) (d : Desc) (y : Cmd) (j : MJob) (s : State),
    d.opcode = 0x18 →
    d.ctx = x →
    s.clusterFree t p x d y →
    s.computes t p d j →
    ∃ s', exec (.spmv t (.compute x p) d) s = .next s' ∧
      s.computed s' t p x y j) ∧
  (∀ (t p x : Nat) (d : Desc) (y : Cmd) (j : MJob) (s : State),
    d.opcode = 0x19 →
    d.ctx = x →
    s.clusterFree t p x d y →
    s.computes t p d j →
    ∃ s', exec (.gather t (.compute x p) d) s = .next s' ∧
      s.computed s' t p x y j) ∧
  (∀ (t p x : Nat) (d : Desc) (y : Cmd) (j : MJob) (s : State),
    d.opcode = 0x1A →
    d.ctx = x →
    s.clusterFree t p x d y →
    s.computes t p d j →
    ∃ s', exec (.scatter t (.compute x p) d) s = .next s' ∧
      s.computed s' t p x y j) ∧
  (∀ (t p x : Nat) (d : Desc) (y : Cmd) (j : MJob) (s : State),
    d.opcode = 0x1B →
    d.ctx = x →
    s.clusterFree t p x d y →
    s.computes t p d j →
    ∃ s', exec (.eltwise t (.compute x p) d) s = .next s' ∧
      s.computed s' t p x y j) ∧
  (∀ (t p x : Nat) (d : Desc) (y : Cmd) (j : MJob) (s : State),
    d.opcode = 0x1C →
    d.ctx = x →
    s.clusterFree t p x d y →
    s.computes t p d j →
    ∃ s', exec (.reduce t (.compute x p) d) s = .next s' ∧
      s.computed s' t p x y j)

/-- R233: when the limit of the running command is reached it completes with TIMEOUT; R232: after QUANTUM frames during which
another context waited, the cluster passes to the next context. -/
def Obligations.ClusterTime : Prop :=
  (∀ (t p x tag : Nat) (y : Cmd) (s : State),
    (s.found t).cmdOf (.compute x p) tag = some y →
    y.d.tag = tag →
    y.isMio = true →
    (s.found t).mioBehind (.compute x p) y.d = false →
    (s.found t).mioTurn p x = true →
    y.started.getD y.fetched + (s.found t).limitOf y ≤ max s.chip.now t →
    (s.found t).recordLost (y.port.getD ((s.found t).queuePort (.compute x p))) = false →
    ∃ s', exec (.mioborTimeout t (.compute x p) tag) s = .next s' ∧
      s.recorded s' t (.compute x p) y 0x01 0 ∧
      (s'.chip.part p).mioCtx = some x) ∧
  (∀ (t p x z : Nat) (y : Cmd) (s : State),
    s.alive p →
    (s.chip.part p).mioCtx = some x →
    (s.chip.cmds.filter (fun k => k.isMio && k.q.part = some p && k.q.ctx ≠ x) = [y]) →
    max (min (max s.chip.now t) y.fetched) (s.chip.part p).mioSince + 131072 * s.reg .MIOBOR_QUANTUM p ≤ max s.chip.now t →
    (Chip.mioNext (((s.found t).mioWork p 64).filter fun k => k ≠ x) x = some z) →
    z < 64 →
    ∃ s', exec (.mioborCtxSwitch t p) s = .next s' ∧
      (s'.chip.part p).mioCtx = some z ∧
      (s'.chip.part p).mioSince = max s.chip.now t ∧
      s'.reg .MIOBOR_CURRENT_CTX p = z)

/-- R277: a header and section table that pass FETCH begin a load; once every section is streamed its plaintexts are held, and
a section whose digest differs fails CHECK (R262); a signature that holds lets the load go on, and one that does not ends it;
R274, R275: a load that passes CHECK appends one entry for the image and one for each section to the measurement log; R276,
R279: UNLOAD_IMAGE takes the context's sections off, QUERY_IMAGE and READ_LOG write their records to host memory, and each
completes with OK. -/
def Obligations.ImageCommands : Prop :=
  (∀ (t p x n : Nat) (d : Desc) (y : Cmd) (head : List Nat) (l : List SecEntry) (s : State),
    s.mayRun t (.compute x p) d y →
    (s.found t).tdiReady x = true →
    (s.found t).portReads (s.chip.ctx x).port = true →
    (s.found t).hostBytes (s.chip.ctx x).port (d.at 0x10 8) 512 = head →
    fieldAt head 0 4 = 0x4C494F54 →
    fieldAt head 4 2 = 1 →
    fieldAt head 6 2 = n →
    1 ≤ n →
    n ≤ 256 →
    fieldAt head 0x10 8 ≤ d.at 0x18 4 →
    fieldAt head 0x10 8 ≤ 2 ^ 30 →
    ((List.range n).map (fun i => secEntryOf (((s.found t).hostBytes (s.chip.ctx x).port (d.at 0x10 8 + 0x200) (128 * n)).drop (128 * i) |>.take 128)) = l) →
    (l.all (fun e => decide (e.off + e.len ≤ fieldAt head 0x10 8)) = true) →
    countsBad l (bit (fieldAt head 0x18 4) 0) = none →
    ∃ s', exec (.loadImage t x p d) s = .next s' ∧
      ((s'.chip.part p).loads.map (fun r => (r.tag, r.ctx, r.addr, r.imageId, r.imageVer)) = (s.chip.part p).loads.map (fun r => (r.tag, r.ctx, r.addr, r.imageId, r.imageVer)) ++ [(d.tag, x, d.at 0x10 8, fieldAt head 8 4, fieldAt head 12 4)]) ∧
      ((s'.chip.part p).loads.map (fun r => (r.verified, r.plain.isSome, r.waits.isSome, r.sections)) = (s.chip.part p).loads.map (fun r => (r.verified, r.plain.isSome, r.waits.isSome, r.sections)) ++ [(false, false, false, l)])) ∧
  (∀ (t p x tag : Nat) (l : LoadRun) (s : State),
    s.alive p →
    (s.found t).loadOf p (.compute x p) tag = some l →
    l.plain = some [] →
    l.waits = none →
    l.sections = [] →
    l.fail = none →
    l.verified = false →
    (s.chip.ctx x).signer ≠ 0 →
    (s.found t).checkFinds p l [] ((s.found t).placeSections p l.ctx []) = [] →
    l.ctx = x →
    ∃ s', exec (.signatureVerified t x p tag) s = .next s' ∧
      ((s'.chip.ctx x).log.length = (s.chip.ctx x).log.length + (if Config.sha512 (bytesOf 133 l.key) = (s.chip.ctx x).signer ∧ Config.ecdsaVerify l.key l.digest (l.sigR + l.sigS * 2 ^ 528) = true then 1 else 0))) ∧
  (∀ (t p x tag : Nat) (l : LoadRun) (s : State),
    s.alive p →
    (s.found t).loadOf p (.compute x p) tag = some l →
    l.plain = none →
    l.verified = false →
    (s.chip.ctx x).signer ≠ 0 →
    ∃ s', exec (.signatureVerified t x p tag) s = .next s' ∧
      ((s'.chip.part p).loads = (if Config.sha512 (bytesOf 133 l.key) = (s.chip.ctx x).signer ∧ Config.ecdsaVerify l.key l.digest (l.sigR + l.sigS * 2 ^ 528) = true then (s.chip.part p).loads.map (fun r => if r.q = l.q ∧ r.tag = l.tag then { r with verified := true } else r) else (s.chip.part p).loads.filter (fun r => !(r.q = l.q && r.tag = l.tag))))) ∧
  (∀ (t p x tag : Nat) (l : LoadRun) (b : List (Option (List Nat))) (s : State),
    s.alive p →
    (s.found t).loadOf p (.compute x p) tag = some l →
    l.plain = none →
    l.verified = false →
    (s.found t).portReads l.port = true →
    (s.found t).keyBad l = none →
    (l.sections.map (fun e => (s.found t).plainOf l e) = b) →
    b.all Option.isSome = true →
    ∃ s', exec (.streamDone t x p tag) s = .next s' ∧
      ((s'.chip.loadOf p (.compute x p) tag).map (fun r => (r.plain, r.verified)) = some (some (b.map fun o => o.getD []), false)) ∧
      ((s'.chip.loadOf p (.compute x p) tag).map (fun r => r.fail) = some (((l.sections.zip (b.map fun o => o.getD [])).findIdx? fun e => Config.sha512 e.2 ≠ e.1.digest).map fun i => (6, i)))) ∧
  (∀ (t p x : Nat) (d : Desc) (y : Cmd) (s : State),
    s.mayRun t (.compute x p) d y →
    ((s.chip.part p).jobs.any (fun j => j.ctx = x) = false) →
    ((List.range 4).any (fun k => ((s.found t).prog p x k).state = 2) = false) →
    ∃ s', exec (.unloadImage t x p d) s = .next s' ∧
      ((s'.chip.part p).sections = (s.chip.part p).sections.filter fun e => e.ctx ≠ x) ∧
      s.recorded s' t (.compute x p) y 0x00 0) ∧
  (∀ (t p x : Nat) (d : Desc) (y : Cmd) (l : List Nat) (s : State),
    s.mayRun t (.compute x p) d y →
    (s.found t).portReads (s.chip.ctx x).port = true →
    (((s.chip.part p).sections.filter fun e => e.ctx = x).flatMap Chip.sectionRecord = l) →
    l.length ≤ d.at 0x18 4 →
    s.apart t (.compute x p) (d.at 0x10 8) l.length →
    ∃ s', exec (.queryImage t x p d) s = .next s' ∧
      s'.chip.hostBytes (s.chip.ctx x).port (d.at 0x10 8) l.length = l.map (· % 256) ∧
      s.recorded s' t (.compute x p) y 0x00 0) ∧
  (∀ (t p x : Nat) (d : Desc) (y : Cmd) (l : List Nat) (s : State),
    s.mayRun t (.compute x p) d y →
    (s.found t).portReads (s.chip.ctx x).port = true →
    (((s.chip.ctx x).log.drop (d.at 0x1C 4)).flatMap (fun e => e.bytes) ++ bytesOf 64 (s.chip.ctx x).logL = l) →
    l.length ≤ d.at 0x18 4 →
    s.apart t (.compute x p) (d.at 0x10 8) l.length →
    ∃ s', exec (.readLog t x p d) s = .next s' ∧
      s'.chip.hostBytes (s.chip.ctx x).port (d.at 0x10 8) l.length = l.map (· % 256) ∧
      s.recorded s' t (.compute x p) y 0x00 0)

/-- R283: a silent endpoint is asked for its IDENT page; R285: a notice of another zone is passed to the notice group; R289: a
request opens a batch, and a closed batch becomes an order with the next F; R290: the stages of an order follow one another;
R291: a FENCE refused with CAPACITY is tried again after 16 frames; R297: an UNFENCE_ORDER begins the lift in the zone; R301:
the fences that a lead gives are installed. -/
def Obligations.FenceOrders : Prop :=
  (∀ (t p fid : Nat) (u : TopoUnit) (s : State),
    s.alive p →
    s.chip.unitOf p fid = some u →
    u.profile = 0 →
    s.chip.settled p (refKey refSilence fid) = true →
    max (SMap.get 0 (s.chip.part p).telemAt u.unit.code) u.seen + s.reg .FAIL_SILENT_PERIODS p * (s.ureg u.unit .ACONTROL_TELEM_PERIOD * 1000) ≤ max s.chip.now t →
    ∃ s', exec (.silentTimeout t p fid) s = .next s' ∧
      (s'.chip.part p).requests = (s.chip.part p).requests ++ [{ dst := fid, msg := { type := 0x02, tag := (s.chip.part p).nextTag, body := [0x110, 1] }, sentAt := max s.chip.now t, ref := refKey refSilence fid }]) ∧
  (∀ (t p src tag g : Nat) (n : FailNote) (j : Job) (y : Slice) (s : State),
    s.alive p →
    s.freshAt t p src tag →
    s.chip.jobOf p n.job = some j →
    s.chip.sliceOf j.slice = some y →
    (y.notice.find? (fun e => e.1 = s.chip.podOf p) = some (s.chip.podOf p, g)) →
    (s.chip.part p).portDown = false →
    ((s.chip.part p).link.tx.all (fun e => decide (e.2 < 2 ^ 40)) = true) →
    ∃ s', exec (.failNotePeerReset t p src tag n) s = .next s' ∧
      s'.panswered p src tag 0x86 0x00 [] ∧
      .sentGroup p g { type := 0x37, body := [n.fids.getD 0 nullFid, n.job, n.reason, n.step, n.detect] } ∈ s'.chip.out) ∧
  (∀ (t p src tag f : Nat) (n : FailNote) (s : State),
    s.alive p →
    s.freshAt t p src tag →
    n.fids = [f] →
    s.chip.fenceHeld p n.job f = false →
    ((s.chip.part p).batches.any (fun b => b.job = n.job) = false) →
    ∃ s', exec (.fenceReq t p src tag n) s = .next s' ∧
      (s'.chip.part p).batches = (s.chip.part p).batches ++ [{ job := n.job, openAt := max s.chip.now t, asks := [{ job := n.job, slice := n.slice, fid := f, reason := n.reason, detect := n.detect }] }] ∧
      s'.panswered p src tag 0x86 0x00 []) ∧
  (∀ (t p job f : Nat) (b : FenceBatch) (s : State),
    s.alive p →
    ((s.chip.part p).batches.find? (fun x => x.job = job) = some b) →
    b.openAt + s.reg .FAIL_FENCE_BATCH p * 1000 ≤ max s.chip.now t →
    (f = (if (SMap.get 0 (s.chip.part p).fenceSeq job + 1) % 65536 = 0 then 1 else (SMap.get 0 (s.chip.part p).fenceSeq job + 1) % 65536)) →
    ∃ s', exec (.fenceBatchClose t p job) s = .next s' ∧
      ((s'.chip.part p).batches = (s.chip.part p).batches.filter fun x => x.job ≠ job) ∧
      SMap.get 0 (s'.chip.part p).fenceSeq job = f ∧
      ((s'.chip.part p).orders.map (fun o => (o.job, o.f, o.fids, o.stage)) = (s.chip.part p).orders.map (fun o => (o.job, o.f, o.fids, o.stage)) ++ [(job, f, b.asks.map fun a => a.fid, 1)]) ∧
      (b.asks.all (fun a => (s'.chip.part p).fences.any fun r => r.job = job && r.fid = a.fid && r.f = f && !r.lifted) = true)) ∧
  (∀ (t p src tag : Nat) (n : FailNote) (s : State),
    s.alive p →
    s.freshAt t p src tag →
    ((s.chip.part p).orders.any (fun o => o.job = n.job && o.f = n.f) = false) →
    n.fids ≠ [] →
    s.chip.zoneSwitches p ≠ [] →
    ∃ s', exec (.fenceOrder t p src tag n) s = .next s' ∧
      (s'.chip.part p).orders = (s.chip.part p).orders ++ [{ job := n.job, slice := n.slice, f := n.f, fids := n.fids, detect := n.detect }] ∧
      (n.fids.all (fun x => (s'.chip.part p).fences.any fun r => r.job = n.job && r.fid = x && r.f = n.f && !r.lifted) = true) ∧
      s'.panswered p src tag 0x86 0x00 []) ∧
  (∀ (t p job f : Nat) (o : FenceOrder) (s : State),
    s.alive p →
    ((s.chip.part p).orders.find? (fun o => o.job = job && o.f = f) = some o) →
    s.chip.settled p (refKey refFence (job * 65536 + f)) = true →
    o.stage = 1 →
    ∃ s', exec (.fenceStageDone t p job f) s = .next s' ∧
      ((s'.chip.part p).orders = (s.chip.part p).orders.map fun x => if x.job = job ∧ x.f = f then { x with stage := x.stage + 1 } else x) ∧
      ((s'.chip.part p).requests.map (fun r => (r.dst, r.msg.type, r.msg.body)) = (s.chip.part p).requests.map (fun r => (r.dst, r.msg.type, r.msg.body)) ++ o.fids.flatMap fun x => (s.chip.stage2Agents p job x).map fun a => (a, 0x30, [x, job, f]))) ∧
  (∀ (t p src tag job f : Nat) (r : Request) (s : State),
    s.alive p →
    s.chip.asked p src tag 0x30 = some r →
    r.ref = refKey refFence (job * 65536 + f) →
    job < 65536 →
    f < 65536 →
    ((s.chip.part p).requests.any (fun q => q.ref = r.ref && !(q.dst = src && q.msg.tag = tag)) = true) →
    ∃ s', exec (.fenceAck t p src tag 0x00) s = .next s' ∧
      ((s'.chip.part p).requests = (s.chip.part p).requests.filter fun q => !(q.dst = src && q.msg.tag = tag)) ∧
      ((s'.chip.part p).retries = (s.chip.part p).retries.filter fun x => !(x.agent = src && x.fid = r.msg.body.getD 0 0 && x.job = r.msg.body.getD 1 0)) ∧
      (s'.chip.part p).orders = (s.chip.part p).orders) ∧
  (∀ (t p src tag fid job f : Nat) (r : Request) (s : State),
    s.alive p →
    s.chip.asked p src tag 0x30 = some r →
    r.msg.body = [fid, job, f] →
    ((s.chip.part p).retries.any (fun x => x.agent = src && x.fid = fid && x.job = job) = false) →
    ∃ s', exec (.fenceAck t p src tag 0x0B) s = .next s' ∧
      (s'.chip.part p).retries = (s.chip.part p).retries ++ [{ agent := src, fid := fid, job := job, f := f, tries := 0, due := max s.chip.now t + 16 * 131072 }]) ∧
  (∀ (t p : Nat) (x : FenceRetry) (s : State),
    s.alive p →
    (s.chip.part p).retries = [x] →
    x.due ≤ max s.chip.now t →
    s.chip.settled p (refKey refRetry (x.agent * 2 ^ 20 + x.fid)) = true →
    ∃ s', exec (.fenceRetry t p) s = .next s' ∧
      (s'.chip.part p).retries = [{ x with tries := x.tries + 1, due := max s.chip.now t + 16 * 131072 }] ∧
      ((s'.chip.part p).requests.map (fun r => (r.dst, r.msg.type, r.msg.body)) = (s.chip.part p).requests.map (fun r => (r.dst, r.msg.type, r.msg.body)) ++ [(x.agent, 0x30, [x.fid, x.job, x.f])]) ∧
      s'.reg .FAIL_FENCE_RETRIES p = min (s.reg .FAIL_FENCE_RETRIES p + 1) (2 ^ 64 - 1)) ∧
  (∀ (t p src tag f : Nat) (n : FailNote) (s : State),
    s.alive p →
    s.freshAt t p src tag →
    n.fids = [f] →
    ((s.chip.part p).lifts.any (fun l => l.fid = f) = false) →
    s.chip.zoneSwitches p ≠ [] →
    ∃ s', exec (.unfenceOrder t p src tag n) s = .next s' ∧
      (s'.chip.part p).lifts = (s.chip.part p).lifts ++ [{ job := n.job, slice := n.slice, fid := f, f := n.f, stage := 3 }] ∧
      s'.panswered p src tag 0x86 0x00 []) ∧
  (∀ (t p src tag : Nat) (n : FailNote) (l : List FenceRec) (s : State),
    s.alive p →
    s.freshAt t p src tag →
    n.fids ≠ [] →
    (n.fids.zipIdx.map (fun e => ({ job := n.job, fid := e.1, f := n.epochs.getD e.2 0, lifted := n.lifted.getD e.2 false, reason := n.reason } : FenceRec)) = l) →
    ∃ s', exec (.fenceSync t p src tag n) s = .next s' ∧
      ((s'.chip.part p).fences = ((s.chip.part p).fences.filter fun x => !(l.any fun y => y.job = x.job && y.fid = x.fid)) ++ l) ∧
      (s'.reg .FAIL_FENCES_HELD p = trunc 13 ((s'.chip.part p).fences.filter fun f => !f.lifted).length) ∧
      s'.panswered p src tag 0x86 0x00 [])

/-- R304: FENCE_EP of an endpoint that is not fenced asks for its fence and waits for the order's end; UNFENCE_EP first asks
the endpoint's agent (R297); QUERY_FENCES writes one record of 8 bytes for each fence of the job, none where its context is
confidential (R313), and completes OK where they fit. -/
def Obligations.FenceCommands : Prop :=
  (∀ (t p z : Nat) (d : Desc) (x : Cmd) (u : TopoUnit) (s : State),
    s.mayRun t (.route p) d x →
    s.chip.zoneOfFid (d.at 0x10 4 % 2 ^ 20) = some (z, u) →
    (s.found t).ownerPort z = (s.found t).ownerPort p →
    s.chip.jobWith z (d.at 0x10 4 % 2 ^ 20) = none →
    s.chip.fenceHeld z 0xFFFF (d.at 0x10 4 % 2 ^ 20) = false →
    ((s.chip.part z).batches.any (fun b => b.job = 0xFFFF) = false) →
    ∃ s', exec (.fenceEp t p d) s = .next s' ∧
      (s'.chip.part z).batches = (s.chip.part z).batches ++ [{ job := 0xFFFF, openAt := max s.chip.now t, asks := [{ job := 0xFFFF, slice := 0, fid := d.at 0x10 4 % 2 ^ 20, reason := 4, detect := max s.chip.now t }] }] ∧
      (s'.chip.part z).fenceCmds = (s.chip.part z).fenceCmds ++ [(.route p, d.tag, d.at 0x10 4 % 2 ^ 20)] ∧
      ((s'.chip.part z).toRetire = if bit (d.at 0x14 2) 0 then addOnce (s.chip.part z).toRetire (d.at 0x10 4 % 2 ^ 20) else (s.chip.part z).toRetire)) ∧
  (∀ (t p z : Nat) (d : Desc) (x : Cmd) (u : TopoUnit) (f : FenceRec) (s : State),
    s.mayRun t (.route p) d x →
    s.chip.zoneOfFid (d.at 0x10 4 % 2 ^ 20) = some (z, u) →
    ((s.chip.part z).fences.find? (fun f => f.fid = d.at 0x10 4 % 2 ^ 20 && !f.lifted) = some f) →
    (s.found t).ownerPort z = (s.found t).ownerPort p →
    d.at 0x10 4 % 2 ^ 20 ∉ (s.chip.part z).topo.retired →
    ((s.chip.part z).lifts.any (fun l => l.fid = d.at 0x10 4 % 2 ^ 20) = false) →
    s.chip.jobOf z f.job = none →
    ∃ s', exec (.unfenceEp t p d) s = .next s' ∧
      (s'.chip.part z).lifts = (s.chip.part z).lifts ++ [{ job := f.job, slice := 0, fid := d.at 0x10 4 % 2 ^ 20, f := f.f, stage := 0, cmd := some (.route p, d.tag) }] ∧
      ((s'.chip.part z).requests.map (fun r => (r.dst, r.msg.type, r.msg.body)) = (s.chip.part z).requests.map (fun r => (r.dst, r.msg.type, r.msg.body)) ++ [(d.at 0x10 4 % 2 ^ 20, 0x02, [0x110, 1])])) ∧
  (∀ (t p : Nat) (d : Desc) (x : Cmd) (l : List Nat) (s : State),
    s.mayRun t (.route p) d x →
    (((s.chip.part p).fences.filter fun f => f.job = d.at 0x1C 2 && !(s.found t).confJob p f.job).flatMap (fun f => bytesOf 4 f.fid ++ bytesOf 2 f.f ++ [if f.lifted then 2 else 1, f.reason % 256]) = l) →
    l.length ≤ d.at 0x18 4 →
    s.apart t (.route p) (d.at 0x10 8) l.length →
    ∃ s', exec (.queryFences t p d) s = .next s' ∧
      s'.chip.hostBytes ((s.found t).ownerPort p) (d.at 0x10 8) l.length = l ∧
      s.recorded s' t (.route p) x 0x00 0)

/-- R308: CREATE_CTX of a free number makes its context with a new generation; R309, R311: SET_RESIDENT gives the context its
place in every partition of ADD_MASK; R323: IMPORT_KEY takes a key whose blob opens; R322: QUERY_CTX writes the context
record; R329: TEARDOWN_CTX begins the stages, each stage follows when the one before has ended, REVOKE takes the context's
index off the control ports, and RELEASE frees the number and completes the command; R375: Mule commands left 2 ms after
QUIESCE began end REVOKED; R312: a TDI that stops tears its context down with FORCE. -/
def Obligations.ContextCommands : Prop :=
  (∀ (t i x : Nat) (d : Desc) (y : Cmd) (s : State),
    s.mayRun t (.context i) d y →
    (s.found t).g9Out = false →
    d.at 0x10 1 = x →
    x < 64 →
    (s.found t).mayCreate i = true →
    x ≤ (s.chip.hostPort i).vfs →
    (s.chip.ctx x).state = 0 →
    (bit (d.at 0x11 1) 0 && (x = 0 || s.reg .CONTEXT_IDENTITY_OK i == 0)) = false →
    (s.found t).portReads i = true →
    ∃ s', exec (.createCtx t i d) s = .next s' ∧
      (s'.chip.ctx x).state = 1 ∧ (s'.chip.ctx x).gen = trunc 32 ((s.chip.ctx x).gen + 1) ∧
      (s'.chip.ctx x).conf = bit (d.at 0x11 1) 0 ∧ (s'.chip.ctx x).port = i ∧
      (s'.chip.ctx x).signer = (s.found t).hostWord i (d.at 0x18 8) 64 ∧
      s.recorded s' t (.context i) y 0x00 0) ∧
  (∀ (t i x : Nat) (d : Desc) (y : Cmd) (s : State),
    s.mayRun t (.context i) d y →
    (s.found t).g9Out = false →
    d.at 0x10 1 = x →
    (s.found t).notMine i x = false →
    ((s.chip.ctx x).state = 1 ∨ (s.chip.ctx x).state = 2) →
    (s.chip.ctx x).teardown = none →
    (s.found t).tdiReady x = true →
    s.reg .DEVICE_HOST_CFG 0 ≠ 3 →
    d.at 0x16 2 = 0 →
    ((setBitsOf 16 (d.at 0x12 2)).any (fun p => (s.found t).bypassed p || (!(s.found t).residentIn x p && (s.found t).residencyRefused x p (d.at 0x14 2) (d.at 0x18 4))) = false) →
    1 ≤ d.at 0x14 2 ∧ d.at 0x14 2 ≤ 96 →
    64 ≤ d.at 0x18 4 ∧ d.at 0x18 4 ≤ 3072 →
    ∃ s', exec (.setResident t i d) s = .next s' ∧
      ((setBitsOf 16 (d.at 0x12 2)).all (fun p => s'.chip.residentIn x p) = true) ∧
      s.recorded s' t (.context i) y 0x00 0) ∧
  (∀ (t i x : Nat) (d : Desc) (y : Cmd) (b : List Nat) (s : State),
    s.mayRun t (.context i) d y →
    (s.found t).g9Out = false →
    d.at 0x10 1 = x →
    (s.found t).notMine i x = false →
    ((s.chip.ctx x).state = 1 ∨ (s.chip.ctx x).state = 2) →
    (s.found t).tdiReady x = true →
    (s.found t).hostBytes i (d.at 0x18 8) 256 = b →
    fieldAt b 0 4 = 0x4B575843 →
    fieldAt b 4 2 = 1 →
    fieldAt b 6 1 = x →
    fieldAt b 8 4 = (s.chip.ctx x).gen →
    (s.chip.ctx x).keyGen < fieldAt b 0x0C 4 →
    (s.found t).portReads i = true →
    ∃ s', exec (.importKey t i d) s = .next s' ∧
      ((s'.chip.ctx x).key = (if Config.onCurve (fieldAt b 0x10 133) then match Config.gcmOpen (Config.hkdf (Config.ecdh [s.chip.fwDigest, x, (s.chip.ctx x).gen] (fieldAt b 0x10 133)) ((b.drop 8).take 8)) ((b.drop 0x98).take 12 ++ b.take 0x98) ((b.drop 0xA4).take 32 ++ (b.drop 0xC4).take 16) with
      | some v => some (ofBytes v) | none => (s.chip.ctx x).key else (s.chip.ctx x).key))) ∧
  (∀ (t i x : Nat) (d : Desc) (y : Cmd) (s : State),
    s.mayRun t (.context i) d y →
    (s.found t).g9Out = false →
    d.at 0x10 1 = x →
    (s.found t).notMine i x = false →
    ((s.chip.ctx x).state = 1 ∨ (s.chip.ctx x).state = 2) →
    (s.chip.ctx x).teardown = none →
    ∃ s', exec (.teardownCtx t i d) s = .next s' ∧
      (s'.chip.ctx x).state = 3 ∧ (s'.chip.ctx x).stage = 1 ∧
      (s'.chip.ctx x).teardown = some { full := true, force := bit (d.at 0x11 1) 0, mask := (s.chip.ctx x).shares.map Prod.fst, stageAt := max s.chip.now t, waiters := [(.context i, d.tag)] }) ∧
  (∀ (t x : Nat) (k : Teardown) (s : State),
    (s.chip.ctx x).teardown = some k →
    (s.chip.ctx x).stage = 2 →
    k.full = false →
    (s.found t).stageEnded x k = true →
    ∃ s', exec (.ctxStageDone t x) s = .next s' ∧
      (s'.chip.ctx x).stage = 3 ∧
      (s'.chip.ctx x).teardown = some { k with stageAt := max s.chip.now t } ∧
      (k.mask.all (fun p => decide (1 + x ∈ (s'.chip.part p).link.revoked)) = true)) ∧
  (∀ (t x : Nat) (k : Teardown) (s : State),
    (s.chip.ctx x).teardown = some k →
    (s.chip.ctx x).stage = 5 →
    k.full = true →
    (s.found t).stageEnded x k = true →
    ∃ s', exec (.ctxStageDone t x) s = .next s' ∧
      s'.chip.ctx x = { gen := (s.chip.ctx x).gen }) ∧
  (∀ (t x : Nat) (k : Teardown) (s : State),
    (s.chip.ctx x).teardown = some k →
    (s.chip.ctx x).stage = 2 →
    k.stageAt + 2000000 ≤ max s.chip.now t →
    ∃ s', exec (.quiesceExpiry t x) s = .next s' ∧
      (s'.chip.cmds.any (fun y => (match y.q.part with | some p => k.mask.contains p | none => false) && y.q.ctx = x && y.q.toMule) = false)) ∧
  (∀ (t i x : Nat) (d : Desc) (y : Cmd) (s : State),
    s.mayRun t (.context i) d y →
    (s.found t).g9Out = false →
    d.at 0x10 1 = x →
    x < 64 →
    ((s.found t).ctxRecord x).length ≤ d.at 0x20 4 →
    s.apart t (.context i) (d.at 0x18 8) ((s.found t).ctxRecord x).length →
    ∃ s', exec (.queryCtx t i d) s = .next s' ∧
      s'.chip.hostBytes i (d.at 0x18 8) ((s.found t).ctxRecord x).length = ((s.found t).ctxRecord x).map (· % 256) ∧
      s.recorded s' t (.context i) y 0x00 0) ∧
  (∀ (t x : Nat) (s : State),
    (s.found t).isConf x = true →
    ((s.chip.ctx x).state = 1 ∨ (s.chip.ctx x).state = 2) →
    ∃ s', exec (.tdiStop t x) s = .next s' ∧
      SMap.find? (s'.chip.hostPort (s.chip.ctx x).port).tdi x = some 3 ∧
      (s'.chip.ctx x).state = 3 ∧ (s'.chip.ctx x).stage = 1 ∧
      ((s'.chip.ctx x).teardown.map (fun k => (k.full, k.force)) = some (true, true)))

/-- R327: an end whose counter has reached its limit, or whose far end began, takes the next generation, and drops the one
before after the grace time; R312, R318: a TDI is locked through the DOE requests of function 0, and a measurement that is
offered is signed and returned; R314: a function reads the bank of its own confidential context; R315: fine readings come back
with the end of a window. -/
def Obligations.LinkKeysAndReadings : Prop :=
  (∀ (t p k : Nat) (far : Bool) (s : State),
    s.alive p →
    (s.chip.part p).link.keyed = true →
    (far = true ∨ 2 ^ s.reg .LINKSEC_REKEY_LOG2 p ≤ Chip.maxTx (s.chip.part p).link) →
    ∃ s', exec (.rekey t (.part p) k far) s = .next s' ∧
      (s'.chip.part p).link = Chip.nextGen (s.chip.part p).link ∧
      s'.reg .LINKSEC_GEN_PARITY p = ((s.chip.part p).link.gen + 1) % 2 ∧
      s'.reg .LINKSEC_TX_COUNTER p = 0 ∧ s'.reg .LINKSEC_REVOKED_MASK p = 0) ∧
  (∀ (t k : Nat) (u : UnitId) (far : Bool) (s : State),
    u.profile ≠ .partition →
    k < 513 →
    ((s.unit t u).port k).link.keyed = true →
    (far = true ∨ 2 ^ 39 ≤ Chip.maxTx ((s.unit t u).port k).link) →
    ∃ s', exec (.rekey t u k far) s = .next s' ∧
      ((s'.unit t u).port k).link = Chip.nextGen ((s.unit t u).port k).link) ∧
  (∀ (t p k g : Nat) (s : State),
    s.alive p →
    (s.chip.part p).link.prevOpen = true →
    (s.chip.part p).link.prevUntil = some g →
    g ≤ max s.chip.now t →
    ∃ s', exec (.rekeyGraceEnd t (.part p) k) s = .next s' ∧
      ((s'.chip.part p).link = { (s.chip.part p).link with prevOpen := false, prevUntil := none, rx := (s.chip.part p).link.rx.filter fun e => e.1 / 128 = (s.chip.part p).link.gen % 2 })) ∧
  (∀ (t i x : Nat) (s : State),
    s.reg .CONTEXT_IDENTITY_OK i ≠ 0 →
    1 ≤ x ∧ x ≤ (s.chip.hostPort i).vfs →
    SMap.get 0 (s.chip.hostPort i).tdi x = 0 →
    ∃ s', exec (.spdmRequest t i 0 (.tdiLock x)) s = .next s' ∧
      SMap.find? (s'.chip.hostPort i).tdi x = some 1 ∧
      .response "LOCK_INTERFACE" [i, x] ∈ s'.chip.out) ∧
  (∀ (t i n k a : Nat) (b : List Nat) (s : State),
    s.reg .CONTEXT_IDENTITY_OK i ≠ 0 →
    (s.found t).measurement i n k = some b →
    ∃ s', exec (.spdmRequest t i n (.measure k a)) s = .next s' ∧
      .response "MEASUREMENTS" ([i, n, k, Config.ecdsaSign 1 a] ++ b) ∈ s'.chip.out) ∧
  (∀ (t i x p page off : Nat) (s : State),
    (s.found t).isConf x = true →
    (s.chip.ctx x).port = i →
    ∃ s', exec (.counterBankRead t i x p page off) s = .next s' ∧
      s'.chip.out = [.readReturn i ((s.found t).bankValue x p page off)]) ∧
  (∀ (t : Nat) (s : State),
    s.reg .CONTEXT_CONF_RESIDENT 0 = 0 →
    s.chip.confReleased + 100000000 ≤ max s.chip.now t / 100000000 * 100000000 →
    ∃ s', exec (.coarseWindowEnd t) s = .next s' ∧
      s'.reg .CONTEXT_COARSE 0 = 0 ∧ s'.reg .CONTEXT_COARSE 1 = 0)

/-- R336: a read without an answer returns all ones; R337: PERST and an FLR stop the queues they name; R335: a link comes up
and goes down with its fields; R357: without a heartbeat the standby port is told, and R358: TAKEOVER of the standby port
makes it the active one; R363, R366: BAR4 reads and writes payload bytes of a partition's tiles; R23, R25: a control port that
goes down is not keyed, and a misrouted request is counted. -/
def Obligations.HostPortEvents : Prop :=
  (∀ (t i n : Nat) (s : State),
    i < 2 →
    ∃ s', exec (.hostReadTimeout t i n) s = .next s' ∧
      s'.chip.out = [.readReturn i (2 ^ (8 * n) - 1)] ∧
      s'.reg .HOSTPORT_READ_TIMEOUTS i = countUp (s.reg .HOSTPORT_READ_TIMEOUTS i)) ∧
  (∀ (t i : Nat) (s : State),
    i < 2 →
    (s.chip.ctxs.all (fun e => e.1 < 64) = true) →
    ∃ s', exec (.perst t i) s = .next s' ∧
      (s'.chip.hostPort i).perst = true ∧ s'.reg .HOSTPORT_LINK_UP i = 0 ∧
      ((Chip.portQueues (s.found t) i).all (fun q => s'.chip.q q .enable == 0) = true) ∧
      s'.reg .HOSTPORT_PERST_EVENTS i = countUp (s.reg .HOSTPORT_PERST_EVENTS i)) ∧
  (∀ (t i : Nat) (s : State),
    i < 2 →
    (s.chip.ctxs.all (fun e => e.1 < 64) = true) →
    ∃ s', exec (.flrPf t i) s = .next s' ∧
      (s'.chip.hostPort i).vfs = 0 ∧ (s'.chip.hostPort i).busMaster = false ∧ (s'.chip.hostPort i).masked = [] ∧
      ((Chip.portQueues (s.found t) i).all (fun q => s'.chip.q q .enable == 0) = true) ∧
      s'.reg .HOSTPORT_LINK_UP i = s.reg .HOSTPORT_LINK_UP i) ∧
  (∀ (t i x : Nat) (s : State),
    i < 2 →
    1 ≤ x ∧ x ≤ (s.chip.hostPort i).vfs ∧ x < 64 →
    (s.chip.ctx x).state ≠ 0 ∧ (s.chip.ctx x).port = i →
    ∃ s', exec (.flrVf t i x) s = .next s' ∧
      ((Chip.ctxQueues x).all (fun q => s'.chip.q q .enable == 0) = true) ∧
      ((s.chip.ctx x).conf = true ∧ (s.chip.ctx x).state < 3 → (s'.chip.ctx x).state = 3)) ∧
  (∀ (t i speed width vfs : Nat) (master : Bool) (l : List Nat) (s : State),
    i < 2 →
    (s.chip.hostPort i).perst = false ∧ (s.found t).portUsed i = true →
    1 ≤ speed ∧ speed ≤ 5 ∧ 1 ≤ width ∧ width ≤ 16 ∧ vfs ≤ 63 →
    ∃ s', exec (.pcieLinkUp t i speed width vfs master l) s = .next s' ∧
      s'.reg .HOSTPORT_LINK_UP i = 1 ∧ s'.reg .HOSTPORT_LINK_SPEED i = speed ∧ s'.reg .HOSTPORT_LINK_WIDTH i = width ∧
      s'.chip.hostPort i = { s.chip.hostPort i with vfs := vfs, busMaster := master, masked := l, demoted := false }) ∧
  (∀ (t i : Nat) (s : State),
    i < 2 →
    ∃ s', exec (.pcieLinkDown t i) s = .next s' ∧
      s'.reg .HOSTPORT_LINK_UP i = 0 ∧ s'.reg .HOSTPORT_LINK_SPEED i = 0 ∧ s'.reg .HOSTPORT_LINK_WIDTH i = 0) ∧
  (∀ (t i : Nat) (s : State),
    ∃ s', exec (.perstRelease t i) s = .next s' ∧
      s'.chip.hostPort i = { s.chip.hostPort i with perst := false }) ∧
  (∀ (t i a : Nat) (s : State),
    i < 2 →
    (s.found t).isStandby i = true →
    s.reg .DEVICE_ACTIVE_PORT 0 = a →
    (s.chip.ctxs.all (fun e => e.1 < 64) = true) →
    ∃ s', exec (.takeover t i) s = .next s' ∧
      s'.reg .DEVICE_ACTIVE_PORT 0 = 1 - a ∧
      s'.reg .DEVICE_FAILOVERS 0 = countUp (s.reg .DEVICE_FAILOVERS 0) ∧
      ((Chip.portQueues (s.found t) a).all (fun q => s'.chip.q q .enable == 0) = true)) ∧
  (∀ (t a : Nat) (s : State),
    s.reg .DEVICE_HOST_CFG 0 = 2 →
    s.reg .DEVICE_ACTIVE_PORT 0 = a →
    (s.found t).isStandby (1 - a) = true →
    s.reg .DEVICE_TAKEOVER_AUTO 0 ≠ 1 →
    (s.chip.hostPort a).lastBeat + s.reg .DEVICE_HB_TIMEOUT 0 * 1000000 ≤ max s.chip.now t →
    ∃ s', exec (.hbTimeout t) s = .next s' ∧
      bit (s'.reg .COMMON_INT_STATUS (1 - a) Page.HOSTPORT.ctorIdx) 0 = true ∧
      s'.reg .DEVICE_ACTIVE_PORT 0 = a) ∧
  (∀ (t i a p n v off : Nat) (s : State),
    (s.found t).g9Out = false →
    p = a / 0x8000000 % 16 →
    s.alive p →
    (s.found t).portUsed i = true ∧ (s.found t).ownerPort p = i →
    a % 4 = 0 →
    ((s.found t).bar4Byte a).2 = .payload n off →
    off + 4 ≤ 2048 →
    (s.found t).confTile p n = false →
    ∃ s', exec (.bar4Access t i a true 4 v) s = .next s' ∧
      s'.chip.tile p n = { s.chip.tile p n with data := putPayload (s.chip.tile p n).data off (bytesOf 4 v) }) ∧
  (∀ (t i a p n off : Nat) (s : State),
    (s.found t).g9Out = false →
    p = a / 0x8000000 % 16 →
    s.alive p →
    (s.found t).portUsed i = true ∧ (s.found t).ownerPort p = i →
    a % 4 = 0 →
    ((List.range 4).map (fun k => ((s.found t).bar4Byte (a + k)).2) = (List.range 4).map (fun k => .payload n (off + k))) →
    (s.found t).confTile p n = false →
    (s.found t).opaqueTile p n = false →
    (s.chip.part p).trace.spill = none →
    ∃ s', exec (.bar4Access t i a false 4 0) s = .next s' ∧
      (s'.chip.out = [.readReturn i (ofBytes ((List.range 4).map fun k => (s.chip.tile p n).byte (off + k)))])) ∧
  (∀ (t p : Nat) (s : State),
    s.alive p →
    ∃ s', exec (.controlPortDown t p) s = .next s' ∧
      (s'.chip.part p).lanesUp = false ∧ (s'.chip.part p).portDown = true ∧ (s'.chip.part p).link = {} ∧
      s'.reg .LINKSEC_KEYED p = 0) ∧
  (∀ (t p : Nat) (s : State),
    p < 16 →
    ∃ s', exec (.misroutedRequest t p) s = .next s' ∧
      s'.reg .RING_MISROUTED (p / 4) = countUp (s.reg .RING_MISROUTED (p / 4)))

/-- R344, R480: a write to an RWB field leaves its clamped value pending; R346: an explicit commit applies what is pending on
its page, and a frame boundary what is pending for it and due; R12, R347: a complement in time leaves the pair's RWP fields
pending and closes the pair, and an expired pair is counted and discarded; R348: a snapshot holds every counter; R356: a one
written to an interrupt bit clears it; R357: a heartbeat of the active port is noted; R441: a reset mask written over a
pending one leaves a part of both pending. The clauses about fields take the FAIL page as the page. -/
def Obligations.RegisterWrites : Prop :=
  (∀ (t i a k p size v x : Nat) (r : Reg) (s : State),
    s.reaches t i .FAIL p →
    pageAtBar0 i a = some (.FAIL, p) →
    a % 0x1000 < 0x800 →
    (size = 4 ∨ size = 8) →
    a % size = 0 →
    (r, k) ∈ RegFile.covered (gElems .FAIL) (a % 0x1000) (8 * size) →
    r.desc.acc = .rwb ∧ r.desc.page = .FAIL →
    (RegFile.clampReg r (RegFile.merge r k (a % 0x1000) (8 * size) (trunc (8 * size) v) (s.chip.regs.getPending r p k))).1 = x →
    ∃ s', exec (.registerWrite t i (.bar0 a) size v) s = .next s' ∧
      ((SMap.find? s'.chip.regs.pend (r.key p k)).map (fun y => y.v) = some x) ∧
      s'.pairs = s.pairs) ∧
  (∀ (t i a v p k : Nat) (r : Reg) (s : State),
    s.reaches t i .FAIL p →
    pageAtBar0 i a = some (.FAIL, p) →
    (r, k) ∈ gElems .FAIL →
    r.desc.page = .FAIL →
    ∃ s', exec (.pageCommit t i (.bar0 a) v) s = .next s' ∧
      s'.chip.regs.get r p k = (match SMap.find? s.chip.regs.pend (r.key p k) with | some y => trunc r.width y.v | none => s.chip.regs.get r p k) ∧
      SMap.find? s'.chip.regs.pend (r.key p k) = none) ∧
  (∀ (t p k : Nat) (r : Reg) (s : State),
    s.alive p →
    (r, k) ∈ gElems .FAIL →
    r.desc.page = .FAIL →
    ∃ s', exec (.frameBoundaryApply t) s = .next s' ∧
      (s'.chip.regs.get r p k = (match SMap.find? s.chip.regs.pend (r.key p k) with | some y => if y.bnd = .frame ∧ y.due ≤ max s.chip.now t then trunc r.width y.v else s.chip.regs.get r p k | none => s.chip.regs.get r p k))) ∧
  (∀ (t i a n size v k : Nat) (g : Page) (x : HostPair) (r : Reg) (s : State),
    n < 1024 ∧ i < 2 →
    (s.found t).pageShut g = false ∧ (Chip.pagePart g n).filter (s.found t).bypassed = none ∧ (s.found t).mayWrite i g n = true →
    pageAtBar0 i a = some (g, n) →
    g ≠ .HOSTPORT ∧ g ≠ .SCHED →
    Chip.openPair s.pairs i g n = some x →
    a % 0x1000 = x.off + 0x800 ∧ a % 0x1000 < 0xF00 →
    RegFile.touchesPair (gElems g) x.off (8 * size) = true →
    (x.size = size ∧ (size = 4 ∨ size = 8) ∧ x.off % size = 0) →
    v = compl (8 * size) x.word →
    x.at_ ≤ max s.chip.now t ∧ max s.chip.now t ≤ x.at_ + 1000 →
    (r, k) ∈ RegFile.covered (gElems g) x.off (8 * size) →
    r.desc.acc = .rwp →
    (g = .PARTITION → SMap.find? s.chip.regs.pend (r.key n k) = none) →
    ∃ s', exec (.pairComplete t i (.bar0 a) size v) s = .next s' ∧
      (s'.pairs = s.pairs.filter fun y => !(y.port = i && y.page = g && y.inst = n)) ∧
      SMap.find? s'.chip.regs.pend (r.key n k) = some ⟨(RegFile.clampReg r (RegFile.merge r k x.off (8 * size) x.word (s.chip.regs.getPending r n k))).1, r.desc.bnd, frameDue (max s.chip.now t), (RegFile.clampReg r (RegFile.merge r k x.off (8 * size) x.word (s.chip.regs.getPending r n k))).2⟩) ∧
  (∀ (t i a p size v m : Nat) (x : HostPair) (r : Reg) (y : Pend) (s : State),
    p < 16 ∧ i < 2 →
    (s.found t).pageShut .PARTITION = false ∧ (Chip.pagePart .PARTITION p).filter (s.found t).bypassed = none ∧ (s.found t).mayWrite i .PARTITION p = true →
    pageAtBar0 i a = some (.PARTITION, p) →
    (r = .PARTITION_GROUP_RESET ∨ r = .PARTITION_CORE_RESET) →
    SMap.find? s.chip.regs.pend (r.key p 0) = some y →
    Chip.openPair s.pairs i .PARTITION p = some x →
    a % 0x1000 = 0x914 ∧ x.off = 0x114 ∧ x.size = 4 ∧ size = 4 →
    v = compl 32 x.word →
    x.at_ ≤ max s.chip.now t ∧ max s.chip.now t ≤ x.at_ + 1000 →
    y.v ||| (RegFile.clampReg r (RegFile.merge r 0 0x114 32 x.word y.v)).1 = m →
    ∃ s', exec (.pairComplete t i (.bar0 a) size v) s = .next s' ∧
      ((SMap.find? s'.chip.regs.pend (r.key p 0)).map (fun z => decide (z.v ||| m = m)) = some true)) ∧
  (∀ (t i a n : Nat) (g : Page) (x : HostPair) (s : State),
    i < 2 →
    pageAtBar0 i a = some (g, n) →
    Chip.openPair s.pairs i g n = some x →
    x.at_ + 1000 < max s.chip.now t →
    ∃ s', exec (.pairExpiry t i (.bar0 a)) s = .next s' ∧
      (s'.pairs = s.pairs.filter fun y => !(y.port = i && y.page = g && y.inst = n)) ∧
      s'.reg .HOSTPORT_PAIR_FAILS i = countUp (s.reg .HOSTPORT_PAIR_FAILS i)) ∧
  (∀ (t i a p k : Nat) (r : Reg) (s : State),
    s.reaches t i .FAIL p →
    pageAtBar0 i a = some (.FAIL, p) →
    (s.found t).stageOf p < 2 →
    (r, k) ∈ gElems .FAIL →
    r.desc.counter = true →
    ∃ s', exec (.snapshot t i (.bar0 a)) s = .next s' ∧
      SMap.get 0 s'.chip.regs.hold (r.key p k) = s.chip.regs.get r p k) ∧
  (∀ (t i a p v : Nat) (s : State),
    s.reaches t i .FAIL p →
    pageAtBar0 i a = some (.FAIL, p) →
    v < 2 ^ 31 →
    ∃ s', exec (.intStatusClear t i (.bar0 a) v) s = .next s' ∧
      s'.reg .COMMON_INT_STATUS p Page.FAIL.ctorIdx = trunc 31 (bitClear 31 (s.reg .COMMON_INT_STATUS p Page.FAIL.ctorIdx) v)) ∧
  (∀ (t i : Nat) (s : State),
    s.reaches t i .HOSTPORT i →
    s.reg .DEVICE_HOST_CFG 0 = 2 ∧ s.reg .DEVICE_ACTIVE_PORT 0 = i →
    ∃ s', exec (.heartbeat t i 1) s = .next s' ∧
      (s'.chip.hostPort i).lastBeat = max s.chip.now t)

/-- R352: a write to Q_BASE or CQ_BASE moves the ring and starts it anew, and a doorbell lets the queue fetch; R353, R16: a
command that ends leaves one record with the status of highest rank, and a condition that it does not report is counted all
the same; R351: a context command that reaches its bound ends with TIMEOUT. The clauses about registers take a ROUTE queue. -/
def Obligations.QueueRegisters : Prop :=
  (∀ (t i p v : Nat) (ide : Bool) (s : State),
    s.reaches t i .ROUTE p →
    p < 16 →
    v < 2 ^ s.reg .ROUTE_Q_LOG2 p →
    6 ≤ s.reg .ROUTE_Q_LOG2 p ∧ s.reg .ROUTE_Q_LOG2 p ≤ 15 →
    s.reg .ROUTE_Q_TAIL p < 65536 →
    (s.found t).cmdsOf (.route p) = [] →
    ((s.found t).setQ (.route p) .tail v).mayFetch (.route p) = true →
    ∃ s', exec (.doorbell t i (.route p) ide v) s = .next s' ∧
      s'.reg .ROUTE_Q_TAIL p = v ∧
      (s'.chip.cmds.map (fun y => (y.q.code, y.d)) = s.chip.cmds.map (fun y => (y.q.code, y.d)) ++ [(p, descOf ((s.found t).slotBytes (.route p) (s.reg .ROUTE_Q_HEAD p)))]) ∧
      s'.reg .ROUTE_Q_HEAD p = (s.reg .ROUTE_Q_HEAD p + 1) % 2 ^ s.reg .ROUTE_Q_LOG2 p) ∧
  (∀ (t i p v : Nat) (ide : Bool) (s : State),
    s.reaches t i .ROUTE p →
    s.reg .ROUTE_Q_ENABLE p = 0 →
    s.reg .ROUTE_Q_BASE p < 2 ^ 64 →
    ∃ s', exec (.qBaseWrite t i (.route p) ide v) s = .next s' ∧
      s'.reg .ROUTE_Q_BASE p = trunc 64 v ∧
      s'.reg .ROUTE_Q_HEAD p = 0 ∧ s'.reg .ROUTE_Q_TAIL p = 0) ∧
  (∀ (t i p v : Nat) (ide : Bool) (s : State),
    s.reaches t i .ROUTE p →
    p < 16 →
    s.reg .ROUTE_Q_ENABLE p = 0 →
    s.reg .ROUTE_CQ_BASE p < 2 ^ 64 →
    ∃ s', exec (.cqBaseWrite t i (.route p) ide v) s = .next s' ∧
      s'.reg .ROUTE_CQ_BASE p = trunc 64 v ∧
      s'.reg .ROUTE_CQ_HEAD p = 0 ∧ s'.reg .ROUTE_CQ_TAIL p = 0 ∧
      s'.chip.phaseOf (.route p) = 1) ∧
  (∀ (t i p v : Nat) (ide : Bool) (s : State),
    s.reaches t i .ROUTE p →
    s.reg .ROUTE_Q_ENABLE p ≤ 1 →
    ∃ s', exec (.qEnableWrite t i (.route p) ide v) s = .next s' ∧
      s'.reg .ROUTE_Q_ENABLE p = v % 2) ∧
  (∀ (t i p v : Nat) (ide : Bool) (s : State),
    s.reaches t i .ROUTE p →
    v < 2 ^ s.reg .ROUTE_CQ_LOG2 p →
    6 ≤ s.reg .ROUTE_CQ_LOG2 p ∧ s.reg .ROUTE_CQ_LOG2 p ≤ 15 →
    s.reg .ROUTE_CQ_HEAD p < 65536 →
    ∃ s', exec (.cqHeadWrite t i (.route p) ide v) s = .next s' ∧
      s'.reg .ROUTE_CQ_HEAD p = v) ∧
  (∀ (t tag n : Nat) (i : QId) (x : Cmd) (l : List Nat) (s : State),
    i.ringed = true →
    (s.found t).cmdOf i tag = some x →
    (s.found t).recordLost (x.port.getD ((s.found t).queuePort i)) = false →
    ∃ s', exec (.commandComplete t i tag l n) s = .next s' ∧
      s.recorded s' t i x (Chip.worst l) n ∧
      (s'.chip.cmds.any (fun y => y.seq == x.seq) = false ∨ (s.found t).cmdSeq ≤ x.seq)) ∧
  (∀ (t p x tag n : Nat) (y : Cmd) (s : State),
    p < 16 ∧ x < 64 ∧ s.chip.isConf x = false →
    (s.found t).cmdOf (.mule x p) tag = some y →
    (s.found t).recordLost (y.port.getD ((s.found t).queuePort (.mule x p))) = false →
    ∃ s', exec (.commandComplete t (.mule x p) tag [0x02, 0x05] n) s = .next s' ∧
      s.recorded s' t (.mule x p) y 0x05 n ∧
      s'.reg .MULE_CHECK_FAILS p = countUp (s.reg .MULE_CHECK_FAILS p)) ∧
  (∀ (t p tag b : Nat) (x : Cmd) (s : State),
    (s.found t).cmdOf (.context p) tag = some x →
    Chip.contextBound x.d.opcode = some b →
    x.started.getD x.fetched + b ≤ max s.chip.now t →
    (s.found t).recordLost (x.port.getD p) = false →
    ∃ s', exec (.commandTimeout t (.context p) tag) s = .next s' ∧
      s.recorded s' t (.context p) x 0x01 0)

/-- R372: g9.issue of a sound descriptor submits it and returns 0; R371: g9.wait with a record unread or no time returns at
once, and a waiting program goes on; R368: a yield or the end of the quantum gives the core to the next runnable program;
R369: an exit and a fault leave their state; R370: g9cq sets up the ring; R378: START of a measured section runs it, and STOP
ends it; R417: a watchdog resets its core. -/
def Obligations.ProgramsOnCores : Prop :=
  (∀ (t p k x a n : Nat) (g : Prog) (s : State),
    s.runsOn t p k x →
    a % 64 = 0 ∧ 0x1000000 ≤ a ∧ a < 0x1800000 →
    n < 2 →
    (s.chip.ctx x).state ≠ 3 →
    (n = 1 ∨ s.reg .PARTITION_MIOBOR_VACANT p ≠ 1) →
    (s.found t).prog p x k = g →
    (s.found t).outstanding p x k < 16 →
    (s.found t).outstanding p x k + Chip.unread g + 1 ≤ 2 ^ g.log2 →
    ∃ s', exec (.g9Issue t p k a n) s = .next s' ∧
      (s'.chip.cmds.map (fun y => (y.q.code, y.d)) = s.chip.cmds.map (fun y => (y.q.code, y.d)) ++ [((QId.core x p k (decide (n = 1))).code, { descOf ((s.found t).dataBytes p g.data (a - 0x1000000) 64) with ctx := x })]) ∧
      s'.chip.out.head? = some (.core p k 0)) ∧
  (∀ (t p k x a : Nat) (g : Prog) (s : State),
    s.runsOn t p k x →
    (s.found t).prog p x k = g →
    (Chip.unread g ≠ 0 ∨ a = 0) →
    ∃ s', exec (.g9Wait t p k a) s = .next s' ∧
      s'.chip.out = [.core p k (Chip.unread g)]) ∧
  (∀ (t p k x a : Nat) (g : Prog) (s : State),
    s.runsOn t p k x →
    (s.found t).prog p x k = g →
    Chip.unread g = 0 ∧ a ≠ 0 →
    ∃ s', exec (.g9Wait t p k a) s = .next s' ∧
      s'.chip.prog p x k = { g with waitTill := some (max s.chip.now t + a) }) ∧
  (∀ (t p k x b : Nat) (g : Prog) (s : State),
    s.alive p →
    k < 4 ∧ x < 64 →
    (s.found t).prog p x k = g →
    g.state = 2 ∧ g.waitTill = some b →
    (Chip.unread g ≠ 0 ∨ b ≤ max s.chip.now t) →
    ∃ s', exec (.g9WaitWake t p x k) s = .next s' ∧
      s'.chip.prog p x k = { g with waitTill := none } ∧
      .core p k (Chip.unread g) ∈ s'.chip.out) ∧
  (∀ (t p k x y : Nat) (s : State),
    s.runsOn t p k x →
    bit (s.reg .PARTITION_CORES_VACANT p) k = false →
    SMap.find? (s.chip.part p).stops (0x20 + k) = none →
    (s.chip.part p).haltWait.contains k = false →
    (Chip.mioNext ((List.range 64).filter fun z => (s.found t).runnable p z k) x = some y) →
    ∃ s', exec (.g9Yield t p k) s = .next s' ∧
      s'.reg .CORES_RUN_CTX p k = y ∧ s'.reg .CORES_STATE p k = 1 ∧
      SMap.get 0 (s'.chip.part p).coreSince k = max s.chip.now t) ∧
  (∀ (t p k x y : Nat) (s : State),
    s.runsOn t p k x →
    SMap.get 0 (s.chip.part p).coreSince k + 1000 * s.reg .CORES_USER_QUANTUM p ≤ max s.chip.now t →
    bit (s.reg .PARTITION_CORES_VACANT p) k = false →
    SMap.find? (s.chip.part p).stops (0x20 + k) = none →
    (s.chip.part p).haltWait.contains k = false →
    (Chip.mioNext ((List.range 64).filter fun z => (s.found t).runnable p z k) x = some y) →
    ∃ s', exec (.userQuantumExpiry t p k) s = .next s' ∧
      s'.reg .CORES_RUN_CTX p k = y ∧ s'.reg .CORES_STATE p k = 1 ∧
      SMap.get 0 (s'.chip.part p).coreSince k = max s.chip.now t) ∧
  (∀ (t p k x a : Nat) (s : State),
    s.runsOn t p k x →
    ∃ s', exec (.programExit t p k a) s = .next s' ∧
      s'.chip.prog p x k = { (s.found t).prog p x k with state := 1, exit := a, waitTill := none }) ∧
  (∀ (t p k x cause pc tval : Nat) (s : State),
    s.runsOn t p k x →
    ∃ s', exec (.programFault t p k cause pc tval) s = .next s' ∧
      s'.chip.prog p x k = { (s.found t).prog p x k with state := 3, exit := 0, waitTill := none } ∧
      s'.reg .CORES_LAST_FAULT_CTX p = x ∧ s'.reg .CORES_LAST_FAULT_CORE p = k ∧
      s'.reg .CORES_LAST_FAULT_CAUSE p = trunc 64 cause ∧ s'.reg .CORES_LAST_FAULT_PC p = trunc 64 pc ∧ s'.reg .CORES_LAST_FAULT_TVAL p = trunc 64 tval) ∧
  (∀ (t p k x v : Nat) (s : State),
    s.runsOn t p k x →
    4 ≤ v % 16 ∧ v % 16 ≤ 10 →
    (s.found t).outstanding p x k = 0 →
    ∃ s', exec (.g9cqWrite t p k 0x800 v) s = .next s' ∧
      s'.chip.prog p x k = { (s.found t).prog p x k with base := v / 64 * 64, log2 := v % 16, head := 0, tail := 0, phase := 1 }) ∧
  (∀ (t p k x : Nat) (y : Section) (n text data bss stack : Nat) (b : List Nat) (s : State),
    s.alive p →
    k < 4 ∧ x < 64 →
    (s.found t).codeOf p x k = some y →
    y.body = .code n text data bss stack b →
    (s.found t).residentIn x p = true →
    bit (s.reg .PARTITION_CORES_VACANT p) k = false →
    ((s.found t).prog p x k).state ≠ 2 →
    ∃ s', exec (.coreStart t p x (2 ^ k)) s = .next s' ∧
      ((if (s.found t).codeMeasured p y then s'.chip.prog p x k = { state := 2, data := y.sram + ceilDiv y.len 2048 } else (s'.chip.part p).sections = (s.chip.part p).sections.filter fun z => !(z.ctx = y.ctx && z.typ = y.typ && z.num = y.num && z.job = y.job)))) ∧
  (∀ (t p k x : Nat) (s : State),
    s.alive p →
    k < 4 ∧ x < 64 →
    ((s.found t).prog p x k).state = 2 →
    ∃ s', exec (.coreStop t p x (2 ^ k)) s = .next s' ∧
      s'.chip.prog p x k = { (s.found t).prog p x k with state := 1, exit := 0, waitTill := none }) ∧
  (∀ (t p k x : Nat) (s : State),
    s.runsOn t p k x →
    bit (s.reg .PARTITION_CORES_VACANT p) k = false →
    SMap.find? (s.chip.part p).stops (0x20 + k) = none →
    (((SMap.get [] (s.chip.part p).coreResets k).filter fun a => max s.chip.now t < a + 60000000000).length < 2) →
    ∃ s', exec (.coreWatchdog t p k) s = .next s' ∧
      (s'.chip.prog p x k).state = 3 ∧
      s'.reg .CORES_STATE p k = 0 ∧ s'.reg .CORES_RUN_CTX p k = 0xFF ∧
      s'.reg .PARTITION_WATCHDOGS p = countUp (s.reg .PARTITION_WATCHDOGS p)) ∧
  (∀ (t p k : Nat) (s : State),
    s.alive p →
    ∃ s', exec (.cacheParityError t p k 0) s = .next s' ∧
      s'.reg .CORES_CACHE_PARITY p = countUp (s.reg .CORES_CACHE_PARITY p))

/-- R373: COPY, HOST_TO_TILE, SEAL and FILL seal their destination tiles with the fields given and the payload of their
source; TILE_TO_HOST writes headers and payloads to host memory; VERIFY changes no tile; each completes with OK and the number
of tiles. R374: the end of a command's work on a tile leaves the block as it is. R377: firmware rebuilds a tile of a tensor
table that it placed. -/
def Obligations.MuleCommands : Prop :=
  (∀ (t p x : Nat) (d : Desc) (y : Cmd) (o : MuOps) (s : State),
    d.opcode = 0x20 →
    s.muleRuns t p x d y o →
    ∃ s', exec (.copy t (.mule x p) d) s = .next s' ∧
      s.recorded s' t (.mule x p) y 0x00 o.count ∧
      (∀ j < o.count, s'.chip.tile p (o.dst + j) = ({ gen := if o.keepGen then (s.chip.tile p (o.src + j)).gen else o.gen, ctx := x, format := (s.chip.tile p (o.src + j)).format, shape := (s.chip.tile p (o.src + j)).shape, index := trunc 32 (o.index + j), data := (s'.chip.tile p (o.dst + j)).data } : Tile).sealed) ∧
      (o.overlaps = false → ∀ j < o.count, (s'.chip.tile p (o.dst + j)).data = (s.chip.tile p (o.src + j)).data)) ∧
  (∀ (t p x : Nat) (d : Desc) (y : Cmd) (o : MuOps) (s : State),
    d.opcode = 0x21 →
    s.muleRuns t p x d y o →
    s.chip.portReads (s.chip.ctx x).port = true →
    ∃ s', exec (.hostToTile t (.mule x p) d) s = .next s' ∧
      s.recorded s' t (.mule x p) y 0x00 o.count ∧
      (∀ j < o.count, s'.chip.tile p (o.dst + j) = ({ gen := o.gen, ctx := x, format := o.format, shape := o.shape, index := trunc 32 (o.index + j), data := payloadOf (s.chip.hostBytes (s.chip.ctx x).port (o.src + 2048 * j) 2048) } : Tile).sealed)) ∧
  (∀ (t p x : Nat) (d : Desc) (y : Cmd) (o : MuOps) (s : State),
    d.opcode = 0x22 →
    s.muleRuns t p x d y o →
    s.chip.portReads (s.chip.ctx x).port = true →
    s.apart t (.mule x p) o.dst (o.count * o.hostSize) →
    ∃ s', exec (.tileToHost t (.mule x p) d) s = .next s' ∧
      s.recorded s' t (.mule x p) y 0x00 o.count ∧
      (s'.chip.part p).tiles = (s.chip.part p).tiles ∧
      (∀ j < o.count, s'.chip.hostBytes (s.chip.ctx x).port (o.dst + o.hostSize * j) o.hostSize = ((if o.withHdr then (s.chip.tile p (o.src + j)).header else []) ++ (List.range 2048).map (s.chip.tile p (o.src + j)).byte).map (· % 256))) ∧
  (∀ (t p x : Nat) (d : Desc) (y : Cmd) (o : MuOps) (s : State),
    d.opcode = 0x23 →
    s.muleRuns t p x d y o →
    ∃ s', exec (.seal t (.mule x p) d) s = .next s' ∧
      s.recorded s' t (.mule x p) y 0x00 o.count ∧
      (∀ j < o.count, s'.chip.tile p (o.dst + j) = ({ gen := o.gen, ctx := x, format := o.format, shape := o.shape, index := trunc 32 (o.index + j), data := (s.chip.tile p (o.dst + j)).data } : Tile).sealed)) ∧
  (∀ (t p x : Nat) (d : Desc) (y : Cmd) (o : MuOps) (s : State),
    d.opcode = 0x24 →
    s.muleRuns t p x d y o →
    ∃ s', exec (.fill t (.mule x p) d) s = .next s' ∧
      s.recorded s' t (.mule x p) y 0x00 o.count ∧
      (∀ j < o.count, s'.chip.tile p (o.dst + j) = ({ gen := o.gen, ctx := x, format := o.format, shape := o.shape, index := trunc 32 (o.index + j), data := payloadOf ((List.replicate 512 (bytesOf 4 o.pattern)).flatten) } : Tile).sealed)) ∧
  (∀ (t p x : Nat) (d : Desc) (y : Cmd) (o : MuOps) (s : State),
    d.opcode = 0x25 →
    s.muleRuns t p x d y o →
    ∃ s', exec (.verify t (.mule x p) d) s = .next s' ∧
      s.recorded s' t (.mule x p) y 0x00 o.count ∧
      (s'.chip.part p).tiles = (s.chip.part p).tiles) ∧
  (∀ (t p n : Nat) (s : State),
    ∃ s', exec (.tileLockRelease t p n) s = .next s' ∧
      s'.chip = s.found t ∧ s'.pending = s.pending) ∧
  (∀ (t p n x : Nat) (s : State),
    s.alive p →
    (s.found t).tableAt p n = some x ∧ s.chip.isConf x = false →
    s.reg .MIOBOR_TTAB_FIRST_TILE p x = Chip.ttabBase x →
    (s.found t).tileVacant p n = false →
    ∃ s', exec (.tileRepair t p n) s = .next s' ∧
      s'.chip.tile p n = (s.found t).ttabTile p x (n - Chip.ttabBase x) ∧
      s'.reg .MEMORY_TILE_RELOADS p = countUp (s.reg .MEMORY_TILE_RELOADS p))

/-- R384: the parent's sample is kept, and a set with its legs within 500,000 ticks gives the offset of the mean of the last
sixteen; R386: the first set and one that is 1000 ticks off make a step, and 3 ms without a set HOLDOVER; R388: SET_TIME loads
Bellwether, an edge of PPS_IN is measured, a missing one counted, and PPS_OUT pulses at each second; R389: a clock region that
restarts is no longer stopped. -/
def Obligations.ClusterTimeAndPps : Prop :=
  (∀ (t rc sp rp sc p : Nat) (a b : Int × Nat) (m : Int) (s : State),
    s.chip.isManager = false ∧ s.reg .DEVICE_LEAD 0 < 16 →
    (s.chip.time.tried.any (fun a => decide (max s.chip.now t < a + 1000000)) = false) →
    (s.found t).legPart = some p →
    SMap.find? s.chip.time.leg1 p = some a ∧ SMap.find? s.chip.time.leg3 p = some b →
    max (max a.2 b.2) rc ≤ min (min a.2 b.2) rc + 500000 →
    Chip.meanOf (lastN 16 (s.chip.time.thetas ++ [a.1 + 8 * (((rc : Int) - sp) - ((rp : Int) - sc)) - b.1])) = m →
    ∃ s', exec (.timeSet t rc sp rp sc) s = .next s' ∧
      s'.reg .TIME_STATE 0 = 1 ∧
      s'.reg .TIME_LEG_SETS 0 = countUp (s.reg .TIME_LEG_SETS 0) ∧
      s'.reg .TIME_OFFSET 0 = satField 32 m ∧
      s'.chip.time.lastSet = s'.chip.now ∧
      (s'.chip.now = (if s.reg .TIME_STATE 0 = 4 ∨ 16000 < m.natAbs then (((max s.chip.now t : Nat) : Int) - sixteenth m).toNat else max s.chip.now t))) ∧
  (∀ (t p src delay t1 t2 g k : Nat) (s : State),
    s.alive p →
    (s.found t).parentOf (s.chip.clusterIndex) = some (g, k) →
    src = 0xFF000 + 16 * g + p →
    ∃ s', exec (.timeLeg t p src delay t1 t2) s = .next s' ∧
      SMap.find? s'.chip.time.leg3 p = some (16 * ((t2 : Int) - t1) - delay, t2)) ∧
  (∀ (t : Nat) (s : State),
    s.chip.isManager = false →
    s.reg .TIME_STATE 0 = 1 →
    s.chip.time.lastSet + 3000000 ≤ max s.chip.now t →
    ∃ s', exec (.g9Holdover t) s = .next s' ∧
      s'.reg .TIME_STATE 0 = 2) ∧
  (∀ (t i : Nat) (s : State),
    s.reaches t i .TIME 0 →
    s.chip.isManager = true →
    s.reg .TIME_SET_AT_PPS 0 ≠ 1 →
    ∃ s', exec (.setTime t i) s = .next s' ∧
      s'.chip.now = s.reg .TIME_SET_TIME_LO 0 + s.reg .TIME_SET_TIME_HI 0 * 2 ^ 32 ∧
      s'.reg .TIME_TIME_STEPS 0 = countUp (s.reg .TIME_TIME_STEPS 0)) ∧
  (∀ (t i : Nat) (s : State),
    s.reaches t i .TIME 0 →
    s.chip.isManager = true →
    s.reg .TIME_SET_AT_PPS 0 = 1 →
    ∃ s', exec (.setTime t i) s = .next s' ∧
      s'.chip.now = max s.chip.now t ∧
      s'.chip.time.setAtPps = s.chip.time.setAtPps ++ [s.reg .TIME_SET_TIME_LO 0 + s.reg .TIME_SET_TIME_HI 0 * 2 ^ 32]) ∧
  (∀ (t : Nat) (s : State),
    (∀ l, s.chip.time.ppsLast = some l → 999000000 ≤ max s.chip.now t - l ∧ max s.chip.now t - l ≤ 1001000000) →
    s.chip.time.setAtPps = [] →
    ∃ s', exec (.ppsInEdge t) s = .next s' ∧
      s'.reg .TIME_PPS_EDGES 0 = countUp (s.reg .TIME_PPS_EDGES 0) ∧
      (s'.reg .TIME_PPS_ERR 0 = satField 32 (if max s.chip.now t % 1000000000 < 500000000 then ((max s.chip.now t % 1000000000 : Nat) : Int) else ((max s.chip.now t % 1000000000 : Nat) : Int) - 1000000000)) ∧
      s'.chip.time.ppsLast = some (max s.chip.now t) ∧ s'.chip.now = max s.chip.now t) ∧
  (∀ (t v : Nat) (s : State),
    s.chip.time.ppsLast = none →
    s.chip.time.setAtPps = [v] →
    ∃ s', exec (.ppsInEdge t) s = .next s' ∧
      s'.chip.now = v ∧
      s'.chip.time.setAtPps = []) ∧
  (∀ (t l : Nat) (s : State),
    s.chip.time.ppsLast = some l →
    max s.chip.now t < l + 999000000 →
    ∃ s', exec (.ppsInEdge t) s = .next s' ∧
      s'.reg .BOOT_PPS_REJECTED 0 = countUp (s.reg .BOOT_PPS_REJECTED 0) ∧
      s'.reg .TIME_PPS_EDGES 0 = s.reg .TIME_PPS_EDGES 0 ∧ s'.chip.time = s.chip.time) ∧
  (∀ (t : Nat) (s : State),
    s.chip.isManager = true →
    s.reg .TIME_PPS_IN_EN 0 ≠ 0 →
    s.chip.time.ppsLost = false →
    s.chip.time.ppsLast.getD 0 + 1500000000 ≤ max s.chip.now t →
    ∃ s', exec (.ppsMissing t) s = .next s' ∧
      s'.reg .TIME_PPS_MISSED 0 = countUp (s.reg .TIME_PPS_MISSED 0) ∧
      s'.chip.time.ppsLost = true) ∧
  (∀ (t : Nat) (s : State),
    s.reg .TIME_PPS_OUT_EN 0 = 1 →
    max s.chip.now t % 1000000000 = 0 →
    ∃ s', exec (.ppsOutPulse t) s = .next s' ∧
      s'.chip.out = [.board "PPS_OUT" [max s.chip.now t, 1000000]]) ∧
  (∀ (t p r : Nat) (s : State),
    (r ≠ 0x50 ∧ (r < 0x20 ∨ 0x24 ≤ r)) →
    (SMap.find? (s.chip.part p).stops r).isSome = true →
    (s.found t).regionHeld p r = false →
    ∃ s', exec (.clockRegionRestart t p r) s = .next s' ∧
      SMap.find? (s'.chip.part p).stops r = none ∧
      (r = 0x01 → p < 16 → s'.reg .MIOBOR_STATE p = 0))

/-- R398: ARM begins a capture with fresh streams; R406: TRACE_STOP and the last stream to stop end it, and a read of RD_DATA
gives 8 bytes and advances; R396: each trigger source that is enabled triggers a running capture; R394, R395: a record goes to
its stream's ring; R397: a drop run ends with its DROP record and a TIMEBASE; R403: a device snapshot holds the counters of
every page that answers; R400: a debug halt stops a core and a resume lets it go on. -/
def Obligations.Capture : Prop :=
  (∀ (t i p : Nat) (s : State),
    s.reaches t i .TRACE p →
    s.reg .TRACE_TRACE_MODE p ≠ 0 →
    ∃ s', exec (.arm t i p) s = .next s' ∧
      (s'.reg .TRACE_STATE p = (if (s.chip.part p).trace.suspended = 0 then 1 else 4)) ∧
      (s'.chip.stream p true).on = bit (s.reg .TRACE_TRACE_MODE p) 0 ∧ (s'.chip.stream p false).on = bit (s.reg .TRACE_TRACE_MODE p) 1) ∧
  (∀ (t i p : Nat) (s : State),
    s.reaches t i .TRACE p →
    (s.reg .TRACE_STATE p = 1 ∨ s.reg .TRACE_STATE p = 2 ∨ s.reg .TRACE_STATE p = 4) →
    ∃ s', exec (.traceStop t i p) s = .next s' ∧
      (s'.chip.stream p true).stopped = true ∧ (s'.chip.stream p false).stopped = true ∧
      (((s.chip.stream p true).stageCap = 0 ∧ (s.chip.stream p true).stage = [] ∧ (s.chip.stream p false).stageCap = 0 ∧ (s.chip.stream p false).stage = []) → s'.reg .TRACE_STATE p = 3)) ∧
  (∀ (t i p : Nat) (s : State),
    s.reaches t i .TRACE p →
    bit (s.reg .TRACE_TRIG_SRC p) 0 = true →
    s.reg .TRACE_STATE p = 1 →
    ∃ s', exec (.trigNow t i p) s = .next s' ∧
      s'.reg .TRACE_STATE p = 2 ∧ s'.reg .TRACE_TRIG_AT p = trunc 64 (max s.chip.now t) ∧
      s'.reg .TRACE_TRIGGERS p = countUp (s.reg .TRACE_TRIGGERS p)) ∧
  (∀ (t p : Nat) (s : State),
    s.alive p →
    bit (s.reg .TRACE_TRIG_SRC p) 2 = true →
    s.reg .TRACE_STATE p = 1 →
    s.reg .TRACE_TRIG_TIME_LO p + s.reg .TRACE_TRIG_TIME_HI p * 2 ^ 32 ≤ max s.chip.now t →
    ∃ s', exec (.trigTimeReached t p) s = .next s' ∧
      s'.reg .TRACE_STATE p = 2 ∧ s'.reg .TRACE_TRIG_AT p = trunc 64 (max s.chip.now t) ∧
      s'.reg .TRACE_TRIGGERS p = countUp (s.reg .TRACE_TRIGGERS p)) ∧
  (∀ (t p k : Nat) (s : State),
    s.alive p →
    s.chip.locked p = false →
    bit (s.reg .TRACE_TRIG_SRC p) 5 = true →
    s.reg .TRACE_STATE p = 1 →
    ∃ s', exec (.coreTrigger t p k) s = .next s' ∧
      s'.reg .TRACE_STATE p = 2 ∧ s'.reg .TRACE_TRIG_AT p = trunc 64 (max s.chip.now t) ∧
      s'.reg .TRACE_TRIGGERS p = countUp (s.reg .TRACE_TRIGGERS p)) ∧
  (∀ (t p : Nat) (s : State),
    s.alive p →
    bit (s.reg .TRACE_TRIG_SRC p) 1 = true →
    s.reg .TRACE_STATE p = 1 →
    ∃ s', exec (.deviceCrossTrigger t p) s = .next s' ∧
      s'.reg .TRACE_STATE p = 2 ∧ s'.reg .TRACE_TRIG_AT p = trunc 64 (max s.chip.now t) ∧
      s'.reg .TRACE_TRIGGERS p = countUp (s.reg .TRACE_TRIGGERS p)) ∧
  (∀ (t p : Nat) (x : Stream) (b : List Nat) (s : State),
    s.alive p →
    s.chip.stream p true = x →
    x.on = true ∧ x.stopped = false ∧ x.stageCap = 0 ∧ x.quota = none →
    (s.chip.part p).trace.suspended = 0 →
    s.reg .TRACE_CAPTURE p = 0 →
    x.high = (max s.chip.now t) >>> 44 ∧ x.sinceBase < 65536 →
    x.written + b.length ≤ x.cap →
    ∃ s', exec (.traceRecord t p (.native b)) s = .next s' ∧
      s'.chip.stream p true = { x with ring := x.ring ++ [(x.written, b)], written := x.written + b.length, sinceBase := x.sinceBase + 1 } ∧
      s'.reg .TRACE_NATIVE_BYTES p = min (s.reg .TRACE_NATIVE_BYTES p + b.length) (2 ^ 64 - 1)) ∧
  (∀ (t p n a : Nat) (x : Stream) (s : State),
    s.alive p →
    s.chip.stream p true = x →
    x.run = some (n, a) ∧ x.stage = [] ∧ x.stageCap ≠ 0 →
    ∃ s', exec (.dropRunEnd t p) s = .next s' ∧
      (s'.chip.stream p true).run = none ∧
      (s'.chip.stream p true).stage = [(true, traceRec (max s.chip.now t) 4 0 p (min (n + x.lostMarkers) (2 ^ 32 - 1) + (bits a 41 10) <<< 32)), (true, traceRec (max s.chip.now t) 2 0 p (max s.chip.now t))]) ∧
  (∀ (t p : Nat) (s : State),
    s.alive p →
    (s.reg .TRACE_STATE p = 1 ∨ s.reg .TRACE_STATE p = 2 ∨ s.reg .TRACE_STATE p = 4) →
    (s.chip.stream p true).stopped = true ∧ (s.chip.stream p true).stage = [] →
    (s.chip.stream p false).on = false →
    ∃ s', exec (.captureDone t p) s = .next s' ∧
      s'.reg .TRACE_STATE p = 3) ∧
  (∀ (t i p : Nat) (l : List Nat) (s : State),
    (s.found t).pageShut .TRACE = false ∧ s.alive p ∧ (s.found t).mayReach i .TRACE p = true →
    s.reg .TRACE_RD_ADDR p % 8 = 0 →
    ((List.range 8).map (fun k => (s.found t).traceByte p (s.reg .TRACE_RD_ADDR p + k)) = l.map some) →
    ∃ s', exec (.traceRdData t i p) s = .next s' ∧
      s'.reg .TRACE_RD_ADDR p = trunc 22 (s.reg .TRACE_RD_ADDR p + 8) ∧
      s'.chip.out = [.readReturn i (ofBytes l)]) ∧
  (∀ (t i p k : Nat) (r : Reg) (s : State),
    s.reaches t i .COUNTERS 0 →
    p < 16 ∧ (s.found t).snapMisses p = false →
    (r, k) ∈ gElems .FAIL →
    r.desc.counter = true →
    ∃ s', exec (.snapNow t i) s = .next s' ∧
      s'.reg .COUNTERS_SNAP_STATE 0 = 2 ∧ s'.reg .COUNTERS_SNAP_SEQ 0 = trunc 32 (s.reg .COUNTERS_SNAP_SEQ 0 + 1) ∧
      SMap.get 0 s'.chip.regs.hold (r.key p k) = s.chip.regs.get r p k) ∧
  (∀ (t p k : Nat) (r : Reg) (s : State),
    s.reg .COUNTERS_SNAP_ARM 0 = 1 ∧ s.reg .COUNTERS_SNAP_STATE 0 ≠ 3 →
    s.reg .COUNTERS_SNAP_TIME_LO 0 + s.reg .COUNTERS_SNAP_TIME_HI 0 * 2 ^ 32 ≤ max s.chip.now t →
    p < 16 ∧ (s.found t).snapMisses p = false →
    (r, k) ∈ gElems .FAIL →
    r.desc.counter = true →
    ∃ s', exec (.snapTimeReached t) s = .next s' ∧
      s'.reg .COUNTERS_SNAP_STATE 0 = 2 ∧ s'.reg .COUNTERS_SNAP_ARM 0 = 0 ∧
      SMap.get 0 s'.chip.regs.hold (r.key p k) = s.chip.regs.get r p k) ∧
  (∀ (t p k x : Nat) (s : State),
    s.runsOn t p k x →
    s.chip.locked p = false →
    ∃ s', exec (.debugHalt t p k) s = .next s' ∧
      s'.reg .CORES_STATE p k = 3 ∧
      (SMap.find? (s'.chip.part p).halts k).map Prod.fst = some x) ∧
  (∀ (t p k : Nat) (x : Nat × Nat) (s : State),
    s.alive p →
    k < 4 →
    SMap.find? (s.chip.part p).halts k = some x →
    ∃ s', exec (.debugResume t p k) s = .next s' ∧
      SMap.find? (s'.chip.part p).halts k = none)

/-- R413: a scan looks at the head of each watched node and counts how long it is stuck; R415: a probe goes on from a stuck
node to the partition that owns the node it waits on; R409: the cluster is reset 1 ms after a command's limit, and for a Mule
the partition; R186, R235, R417: engine groups, the cluster and cores are reset; R428: a unit that fails after start-up is
vacant from then on. A scan's clause is for AUTO_BREAK 0, under which it breaks nothing. -/
def Obligations.HangsAndUnitResets : Prop :=
  (∀ (t p : Nat) (w : Nat × Nat) (r : GooseNode) (s : State),
    s.alive p →
    s.reg .GOOSE_AUTO_BREAK p = 0 →
    (s.found t).gooseWait p 0 = w →
    s.chip.gooseRec p 0 = r →
    ∃ s', exec (.gooseScan t p) s = .next s' ∧
      s'.reg .GOOSE_SCANS p = countUp (s.reg .GOOSE_SCANS p) ∧
      ((s'.chip.gooseRec p 0).head = ((s.found t).gooseHead p 0).map (fun h => h.1)) ∧
      ((s'.chip.gooseRec p 0).stuck = (match (s.found t).gooseHead p 0 with | some h => if r.head = some h.1 ∧ r.progress = h.2.1 ∧ (w.1 = 2 ∨ w.1 = 3) then min 255 (r.stuck + 1) else 0 | none => 0))) ∧
  (∀ (t p src tag n z b : Nat) (h : Nat × Nat × Nat) (l : List (Nat × Nat × Nat)) (s : State),
    s.alive p →
    s.freshAt t p src tag →
    n < 128 ∧ l.length < 64 →
    (s.found t).gooseHead p n = some h ∧ (s.chip.gooseRec p n).stuck ≠ 0 →
    (s.found t).gooseWait p n = (3, z) →
    (z ≠ s.chip.nodeId p n ∧ l.all (fun e => e.1 != z) = true) →
    ∃ s', exec (.waitfor t p src tag b (s.chip.nodeId p n) false l) s = .next s' ∧
      s'.panswered p src tag 0x8A 0x00 [] ∧
      ((s'.chip.part p).requests.any (fun r => r.dst == 0xFF000 + z / 128 && r.msg.type == 0x8A && r.msg.body == ([b, l.length + 1, 0, z] ++ (l ++ [(s.chip.nodeId p n, h.1, h.2.2)]).flatMap fun e => [e.1, e.2.1, e.2.2])) = true) ∧
      s'.reg .GOOSE_PROBES p = countUp (s.reg .GOOSE_PROBES p)) ∧
  (∀ (t p tag a : Nat) (i : QId) (y : Cmd) (s : State),
    s.alive p →
    i.part = some p ∧ (s.found t).cmdOf i tag = some y →
    y.started = some a ∧ (s.found t).kept y = false →
    a + (s.found t).limitOf y + 1000000 ≤ max s.chip.now t →
    i.toMule = false ∧ y.isMio = true →
    ∃ s', exec (.overrunReset t i tag) s = .next s' ∧
      s'.reg .MIOBOR_STATE p = 3 ∧
      s'.reg .PARTITION_MIOBOR_RESETS p = countUp (s.reg .PARTITION_MIOBOR_RESETS p)) ∧
  (∀ (t p tag a : Nat) (i : QId) (y : Cmd) (s : State),
    s.alive p →
    i.part = some p ∧ (s.found t).cmdOf i tag = some y →
    y.started = some a ∧ (s.found t).kept y = false →
    a + (s.found t).limitOf y + 1000000 ≤ max s.chip.now t →
    i.toMule = true →
    ∃ s', exec (.overrunReset t i tag) s = .next s' ∧
      s'.chip.bypassed p = true ∧
      s'.reg .PARTITION_LAST_CAUSE p = 4) ∧
  (∀ (t p k : Nat) (s : State),
    s.alive p →
    k < 4 ∧ bit (s.reg .PARTITION_CORES_VACANT p) k = false →
    ∃ s', exec (.coreReset t p (2 ^ k)) s = .next s' ∧
      s'.reg .CORES_STATE p k = 0 ∧ s'.reg .CORES_RUN_CTX p k = 0xFF ∧
      (SMap.find? (s'.chip.part p).stops (0x20 + k)) = some (max s.chip.now t, some 1) ∧
      s'.reg .PARTITION_CORE_RESETS p = countUp (s.reg .PARTITION_CORE_RESETS p)) ∧
  (∀ (t p k : Nat) (b : Bool) (s : State),
    s.alive p →
    k < 8 →
    ∃ s', exec (.groupReset t p (2 ^ k) b) s = .next s' ∧
      (SMap.find? (s'.chip.part p).stops (0x10 + k)).isSome = true ∧
      s'.reg .PARTITION_GROUP_RESETS p = countUp (s.reg .PARTITION_GROUP_RESETS p)) ∧
  (∀ (t p : Nat) (b : Bool) (s : State),
    s.alive p →
    ∃ s', exec (.mioborReset t p b) s = .next s' ∧
      s'.reg .MIOBOR_STATE p = 3 ∧
      (SMap.find? (s'.chip.part p).stops 0x01).isSome = true ∧ (s'.chip.part p).mioCtx = none ∧
      s'.reg .PARTITION_MIOBOR_RESETS p = countUp (s.reg .PARTITION_MIOBOR_RESETS p)) ∧
  (∀ (t p b : Nat) (s : State),
    p < 16 ∧ b < 32 →
    (s.found t).outOfService p = false →
    bit (s.reg .PARTITION_BANKS_VACANT p) b = false →
    ∃ s', exec (.lateDefect t p (.bank b)) s = .next s' ∧
      bit (s'.reg .PARTITION_BANKS_VACANT p) b = true ∧
      s'.reg .PARTITION_VACANCIES p = countUp (s.reg .PARTITION_VACANCIES p) ∧ s'.reg .PARTITION_DEGRADED p = 1) ∧
  (∀ (t p k : Nat) (s : State),
    p < 16 ∧ k < 4 →
    (s.found t).outOfService p = false →
    bit (s.reg .PARTITION_CORES_VACANT p) k = false →
    ∃ s', exec (.lateDefect t p (.core k)) s = .next s' ∧
      bit (s'.reg .PARTITION_CORES_VACANT p) k = true ∧ s'.reg .CORES_STATE p k = 0 ∧
      s'.reg .PARTITION_VACANCIES p = countUp (s.reg .PARTITION_VACANCIES p) ∧ s'.reg .PARTITION_DEGRADED p = 1)

/-- R418: a reset puts the ring stop in bypass and loses SRAM; R419: its states and stages, its cause and its times; a
partition that reports ready is in service again, and one that does not within 3,000 ms is reset again; R424: host software
reinstates a partition out of service, with its memory zeroed (R444). -/
def Obligations.PartitionResets : Prop :=
  (∀ (t p : Nat) (s : State),
    s.alive p →
    ∃ s', exec (.partReset t p 1) s = .next s' ∧
      s'.chip.bypassed p = true ∧ s'.chip.inService p = false ∧
      s'.reg .RESET_PART_STATE 0 p = 2 ∧ s'.reg .RESET_STAGE 0 p = 2 ∧ s'.reg .PARTITION_LAST_CAUSE p = 1 ∧
      s'.reg .RESET_PART_RESETS_HOST 0 = countUp (s.reg .RESET_PART_RESETS_HOST 0) ∧
      ((s'.chip.part p).tiles.all (fun e => 0x100000 ≤ e.1) = true ∧ (s'.chip.part p).stored = [] ∧ (s'.chip.part p).progs = [])) ∧
  (∀ (t p cause : Nat) (s : State),
    s.alive p →
    (cause = 2 ∨ cause = 3 ∨ cause = 4 ∨ cause = 5 ∨ cause = 9) →
    (((SMap.get [] s.chip.faults p).filter fun a => max s.chip.now t < a + 600000000000).length < 2) →
    ∃ s', exec (.partReset t p cause) s = .next s' ∧
      s'.chip.bypassed p = true ∧ s'.chip.inService p = false ∧
      s'.reg .RESET_PART_STATE 0 p = 2 ∧ s'.reg .RESET_STAGE 0 p = 2 ∧ s'.reg .PARTITION_LAST_CAUSE p = cause ∧
      s'.reg .RESET_PART_RESETS_FAULT 0 = countUp (s.reg .RESET_PART_RESETS_FAULT 0)) ∧
  (∀ (t p cause : Nat) (s : State),
    s.alive p →
    (cause = 2 ∨ cause = 3 ∨ cause = 4 ∨ cause = 5 ∨ cause = 9) →
    (2 ≤ ((SMap.get [] s.chip.faults p).filter fun a => max s.chip.now t < a + 600000000000).length) →
    ∃ s', exec (.partReset t p cause) s = .next s' ∧
      s'.chip.bypassed p = true ∧ 3 ≤ s'.reg .RESET_PART_STATE 0 p ∧
      s'.chip.mram.partsOut.contains p = true) ∧
  (∀ (t p : Nat) (s : State),
    p < 16 →
    s.reg .RESET_PART_STATE 0 p = 2 →
    (s.reg .BOOT_BOOT_STAGE 0 = 0 ∨ s.reg .BOOT_BOOT_STAGE 0 = 5) →
    s.reg .THERMAL_TRIPPED 0 ≠ 1 ∧ (s.chip.part p).bist = false ∧ (s.found t).railsHold = true →
    ∃ s', exec (.partitionReady t p) s = .next s' ∧
      s'.chip.bypassed p = false ∧ s'.chip.inService p = true ∧
      (s'.reg .RESET_PART_STATE 0 p = (if s.reg .PARTITION_DEGRADED p = 1 then 1 else 0) ∧ s'.reg .RESET_STAGE 0 p = 0) ∧
      s'.reg .PARTITION_LAST_RESET_TICKS p = min (max s.chip.now t - s.reg .PARTITION_LAST_RESET_AT p) (2 ^ 32 - 1)) ∧
  (∀ (t p : Nat) (s : State),
    p < 16 →
    s.reg .RESET_PART_STATE 0 p = 2 →
    (s.reg .BOOT_BOOT_STAGE 0 = 0 ∨ s.reg .BOOT_BOOT_STAGE 0 = 5) →
    s.reg .PARTITION_LAST_RESET_AT p + 3000000000 ≤ max s.chip.now t →
    (s.chip.part p).bist = false ∧ (s.chip.part p).bistEnd ≤ s.reg .PARTITION_LAST_RESET_AT p →
    (((SMap.get [] s.chip.faults p).filter fun a => max s.chip.now t < a + 600000000000).length < 2) →
    ∃ s', exec (.partitionNotReady t p) s = .next s' ∧
      s'.reg .RESET_PART_STATE 0 p = 2 ∧ s'.reg .PARTITION_LAST_CAUSE p = 5 ∧
      s'.reg .PARTITION_LAST_RESET_AT p = trunc 64 (max s.chip.now t) ∧
      s'.reg .RESET_PART_RESETS_FAULT 0 = countUp (s.reg .RESET_PART_RESETS_FAULT 0)) ∧
  (∀ (t i p : Nat) (s : State),
    s.reaches t i .RESET 0 →
    p < 16 →
    s.reg .DEVICE_HOST_CFG 0 ≠ 3 →
    s.reg .RESET_PART_STATE 0 p = 3 ∧ s.chip.g9Out = false →
    ∃ s', exec (.partReinstate t i p) s = .next s' ∧
      s'.reg .RESET_PART_STATE 0 p = 2 ∧ s'.reg .RESET_FAULTS_10MIN 0 p = 0 ∧
      (s'.chip.part p).tiles = [] ∧ (s'.chip.part p).sections = [] ∧
      SMap.get [] s'.chip.faults p = [] ∧ s'.chip.mram.partsOut = s.chip.mram.partsOut.erase p)

/-- R420: a device reset frees every context and drops every command; R425: a G9 out of service is reinstated by host software
after a power-on; R426: beats are sent and noted, and a worker without them is down; R427: a standby without the manager's
beats takes the cluster role, as master of the time tree (R387). -/
def Obligations.DeviceResetsAndCluster : Prop :=
  (∀ (t kind cfg src : Nat) (s : State),
    (kind = 1 ∨ kind = 2) →
    s.chip.g9Out = false →
    ∃ s', exec (.deviceReset t kind 1 cfg src) s = .next s' ∧
      s'.reg .RESET_DEVICE_STATE 0 = 1 ∧ s'.reg .RESET_LAST_DEVICE_CAUSE 0 = 1 ∧
      s'.reg .RESET_DEVICE_RESETS_HOST 0 = countUp (s.reg .RESET_DEVICE_RESETS_HOST 0) ∧
      s'.chip.ctxs = [] ∧ s'.chip.cmds = [] ∧ s'.chip.slices = []) ∧
  (∀ (t i p : Nat) (s : State),
    s.reaches t i .RESET 0 →
    s.chip.g9Out = true ∧ s.chip.outPowered = true →
    p < 16 →
    ∃ s', exec (.deviceReinstate t i) s = .next s' ∧
      s'.reg .RESET_DEVICE_STATE 0 = 1 ∧ s'.reg .RESET_PART_STATE 0 p = 2 ∧
      s'.chip.mram.g9Out = false ∧ s'.chip.mram.partsOut = [] ∧ s'.chip.devFaults = [] ∧ s'.chip.reinstating = true) ∧
  (∀ (t : Nat) (s : State),
    s.chip.isManager = false →
    s.chip.leadPart < 16 ∧ s.chip.leadRuns = true →
    SMap.find? s.chip.beats 64 = none →
    s.reg .BOOT_BLOB_DEFAULTED 0 = 0 →
    ((s.chip.part s.chip.leadPart).link.tx.all (fun e => decide (e.2 < 2 ^ 40)) = true) →
    ∃ s', exec (.clusterBeatSend t) s = .next s' ∧
      SMap.find? s'.chip.beats 64 = some (max s.chip.now t) ∧
      s'.chip.out = [.sent s.chip.leadPart s.chip.mgrFid { type := 0x8F }]) ∧
  (∀ (t p n : Nat) (s : State),
    s.alive p →
    p = s.chip.leadPart ∧ n < 32 →
    ∃ s', exec (.clusterBeat t p (0xFF000 + 16 * n)) s = .next s' ∧
      SMap.find? s'.chip.beats n = some (max s.chip.now t) ∧
      (s.chip.isManager = true → s.chip.down = [n] → s'.chip.down = [])) ∧
  (∀ (t n a : Nat) (s : State),
    s.chip.isManager = true ∧ n < 64 →
    s.chip.leadPart < 16 ∧ s.chip.leadRuns = true →
    SMap.find? s.chip.beats n = some a ∧ a + 50000000 ≤ max s.chip.now t →
    s.chip.down.contains n = false →
    ∃ s', exec (.clusterBeatTimeout t n) s = .next s' ∧
      s'.chip.down.contains n = true) ∧
  (∀ (t p src tag n news cause : Nat) (s : State),
    s.alive p →
    p = s.chip.leadPart →
    s.freshAt t p src tag →
    s.chip.isManager = true ∧ news ≠ 1 →
    ∃ s', exec (.g9State t p src tag n news cause) s = .next s' ∧
      s'.panswered p src tag 0x8C 0x00 [] ∧
      s'.chip.down.contains n = true ∧
      s'.reg .RESET_G9_STATE_RX 0 = countUp (s.reg .RESET_G9_STATE_RX 0)) ∧
  (∀ (t : Nat) (s : State),
    s.reg .DEVICE_ROLE 0 = 2 →
    s.chip.leadRuns = true →
    SMap.get 0 s.chip.beats s.chip.mgr + 50000000 ≤ max s.chip.now t →
    ∃ s', exec (.standbyTakeover t) s = .next s' ∧
      s'.reg .DEVICE_ROLE 0 = 0 ∧ s'.chip.mgr = s.chip.clusterIndex ∧ s'.reg .TIME_MASTER 0 = 1)

/-- R429, R431: a record arrives in the kept area while it has room; R432: one that repeats the newest of its partition merges
into it; R433: FLUSH_NOW begins a flush to the host, R435: which ends with DONE; MRAM_COPY copies a slot to the host buffer;
R440: CLEAR leaves event 0x0407 alone, NOTE records the host's parameters, and a read of RD_DATA gives 8 bytes and advances.
-/
def Obligations.HenRecorder : Prop :=
  (∀ (t p code : Nat) (l : List Nat) (s : State),
    s.chip.hen.kept.length < 4096 ∧ s.chip.hen.queue = [] →
    p < 16 ∧ bit (s.reg .TRACE_TRIG_SRC p) 3 = false →
    0 < code ∧ code < 0x4000 →
    (∀ r, (s.found t).henNewest p = some r → r.takes code (max s.chip.now t) (s.reg .HEN_FLOOD_WINDOW 0 * 1000) (((l ++ [0, 0, 0, 0]).take 4).map (trunc 32)) false = false) →
    ∃ s', exec (.henRecord t p code false false l) s = .next s' ∧
      s'.chip.hen.kept = s.chip.hen.kept ++ [{ code := code, part := p, kept := true, lostBefore := decide (p ∈ s.chip.hen.lossy), time := max s.chip.now t, p := ((l ++ [0, 0, 0, 0]).take 4).map (trunc 32), last := max s.chip.now t }] ∧
      s'.reg .HEN_RECORDS_FIXED 0 = countUp (s.reg .HEN_RECORDS_FIXED 0)) ∧
  (∀ (t p code : Nat) (l : List Nat) (r : FixedRec) (s : State),
    s.chip.hen.queue = [] →
    p < 16 ∧ bit (s.reg .TRACE_TRIG_SRC p) 3 = false →
    0 < code ∧ code < 0x4000 →
    (s.found t).henNewest p = some r ∧ r ∈ s.chip.hen.kept →
    r.takes code (max s.chip.now t) (s.reg .HEN_FLOOD_WINDOW 0 * 1000) (((l ++ [0, 0, 0, 0]).take 4).map (trunc 32)) false = true →
    ∃ s', exec (.henRecord t p code false false l) s = .next s' ∧
      r.merged (max s.chip.now t) ∈ s'.chip.hen.kept ∧
      s'.chip.hen.kept.length = s.chip.hen.kept.length ∧
      s'.reg .HEN_REPEATS 0 = countUp (s.reg .HEN_REPEATS 0)) ∧
  (∀ (t i : Nat) (s : State),
    s.reaches t i .HEN 0 →
    s.chip.hen.flush = none ∧ (s.found t).flushPort.isSome = true →
    ∃ s', exec (.flushNow t i) s = .next s' ∧
      s'.chip.hen.flush.isSome = true ∧
      s'.reg .HEN_FLUSHING 0 = 1 ∧ s'.reg .HEN_LAST_REASON 0 = 3 ∧ s'.reg .HEN_LAST_DEST 0 = 0 ∧
      s'.reg .HEN_FLUSH_SEQ 0 = trunc 32 (s.reg .HEN_FLUSH_SEQ 0 + 1) ∧
      s'.reg .HEN_FLUSHES 0 = countUp (s.reg .HEN_FLUSHES 0)) ∧
  (∀ (t : Nat) (f : Flush) (s : State),
    s.chip.hen.flush = some f ∧ s.chip.hen.again = none →
    ∃ s', exec (.flushDone t) s = .next s' ∧
      s'.chip.hen.flush = none ∧
      s'.reg .HEN_FLUSHING 0 = 0) ∧
  (∀ (t : Nat) (f : Flush) (s : State),
    s.chip.hen.flush = some f ∧ s.chip.hen.again = none →
    (f.dest ≠ 0 ∨ (s.found t).bufClash f.port = false) →
    ∃ s', exec (.flushDone t) s = .next s' ∧
      s'.reg .HEN_LAST_DONE 0 = 1) ∧
  (∀ (t i n : Nat) (f : FlushImage) (s : State),
    s.reaches t i .HEN 0 →
    (s.found t).flushPort = some n →
    s.chip.mram.slot0 = some f ∧ f.data.length + 64 ≤ 4194304 →
    s.reg .HEN_HOST_BUF_ADDR 0 + 8388608 < 2 ^ 64 →
    ∃ s', exec (.mramCopy t i) s = .next s' ∧
      s'.chip.hostBytes n (s.reg .HEN_HOST_BUF_ADDR 0) (64 + f.data.length) = ((s.found t).flushHeader f 1 ++ f.data).map (· % 256)) ∧
  (∀ (t i : Nat) (s : State),
    s.reaches t i .HEN 0 →
    s.chip.hen.queue = [] →
    ∃ s', exec (.clear t i) s = .next s' ∧
      (s'.chip.hen.kept.map (fun r => r.code) = [0x0407] ∧ s'.chip.hen.ring = [])) ∧
  (∀ (t i v : Nat) (s : State),
    s.reaches t i .HEN 0 →
    s.chip.hen.kept.length < 4096 ∧ s.chip.hen.queue = [] →
    v % 2 = 1 →
    (∀ r, (s.found t).henNewest 0xFF = some r → r.code ≠ 0x3FFF) →
    ∃ s', exec (.note t i v) s = .next s' ∧
      (s'.chip.hen.kept = s.chip.hen.kept ++ [{ code := 0x3FFF, part := 0xFF, kept := true, lostBefore := decide (19 ∈ s.chip.hen.lossy), time := max s.chip.now t, p := (List.range 4).map (fun k => trunc 32 (s.reg .HEN_NOTE_P 0 k)), last := max s.chip.now t }])) ∧
  (∀ (t i : Nat) (l : List Nat) (s : State),
    (s.found t).pageShut .HEN = false ∧ (s.found t).mayReach i .HEN 0 = true →
    s.reg .HEN_RD_ADDR 0 % 8 = 0 →
    ((List.range 8).map (fun k => (s.found t).henByte (s.reg .HEN_RD_ADDR 0 + k)) = l.map some) →
    ∃ s', exec (.henRdData t i) s = .next s' ∧
      s'.reg .HEN_RD_ADDR 0 = trunc 23 (s.reg .HEN_RD_ADDR 0 + 8) ∧
      s'.chip.out = [.readReturn i (ofBytes l)])

/-- R453: a turn of the DVFS loop lowers a die above the power limit; R451: a rail that reaches tolerance is good from then
on; R458: a rail below 92 % of nominal resets the device, and a loss of VAUX leaves the power-on state; R454, R455: stages are
entered and cleared; R459, R460: a sample gives Tj and the good sensors, and throttling ends; R452: an acknowledgement applies
the set point, and a missing one caps CORE_CLK; R462: the loss of TIME_REF and its end. PF_WARN_N and the SMBus clock (R463)
act on every die and release the bus. -/
def Obligations.SuppliesHeatAndClocks : Prop :=
  (∀ (t w d : Nat) (s : State),
    d < 4 →
    s.reg .LOOPS_DVFS_PIN 0 d ≠ 1 ∧ (s.chip.die d).throttled = false →
    s.reg .POWER_POWER_LIMIT 0 < w →
    ((Chip.dieParts d).any (fun p => !s.chip.bypassed p) = true) →
    ∃ s', exec (.dvfsTick t w) s = .next s' ∧
      s'.reg .POWER_POWER_W 0 = trunc 16 w ∧
      (s'.chip.die d).loop = clampTo (min (s.reg .LOOPS_DVFS_FLOOR 0 d) (s.reg .LOOPS_DVFS_CEIL 0 d)) (s.reg .LOOPS_DVFS_CEIL 0 d) ((s.chip.die d).loop - 100)) ∧
  (∀ (t r v : Nat) (s : State),
    r ≤ 9 →
    s.chip.rails.contains r = false →
    ∃ s', exec (.railGood t r v) s = .next s' ∧
      s'.chip.rails = s.chip.rails ++ [r] ∧ s'.reg .POWER_RAIL_MV 0 r = trunc 16 v ∧
      (s'.reg .POWER_SEQ_FAULTS 0 = (if (Chip.railsBefore r).any (fun k => !s.chip.rails.contains k) then countUp (s.reg .POWER_SEQ_FAULTS 0) else s.reg .POWER_SEQ_FAULTS 0))) ∧
  (∀ (t r d : Nat) (s : State),
    4 ≤ r ∧ r ≤ 8 ∧ d < 4 →
    s.reg .THERMAL_TRIPPED 0 ≠ 1 →
    s.chip.g9Out = false ∧ s.reg .RESET_DEVICE_STATE 0 ≠ 1 →
    (s.chip.devFaults.all (fun a => a + 3600000000000 ≤ max s.chip.now t) = true) →
    ∃ s', exec (.railUndervoltage t r) s = .next s' ∧
      s'.reg .RESET_DEVICE_STATE 0 = 1 ∧ s'.reg .RESET_LAST_DEVICE_CAUSE 0 = 6 ∧
      s'.reg .RESET_DEVICE_RESETS_FAULT 0 = countUp (s.reg .RESET_DEVICE_RESETS_FAULT 0) ∧
      s'.chip.rails = s.chip.rails.erase r ∧ (SMap.find? (s'.chip.die d).stages 6).isSome = true) ∧
  (∀ (t : Nat) (s : State),
    ∃ s', exec (.vauxLoss t) s = .next s' ∧
      s'.chip.now = 0 ∧ s'.pairs = [] ∧ s'.chip.cmds = [] ∧ s'.chip.ctxs = [] ∧ s'.chip.hen.kept = [] ∧ s'.chip.hen.ring = [] ∧
      s'.chip.mram = s.chip.mram ∧ s'.chip.agents = s.chip.agents ∧
      s'.reg .RESET_DEVICE_STATE 0 = 1 ∧ s'.reg .BOOT_BOOT_STAGE 0 = 1) ∧
  (∀ (t p : Nat) (s : State),
    s.reg .POWER_PF_WARN 0 ≠ 1 →
    ∃ s', exec (.pfWarn t) s = .next s' ∧
      s'.reg .POWER_PF_WARN 0 = 1 ∧ s'.reg .POWER_PF_HOLD 0 = 1 ∧
      s'.reg .POWER_PF_WARNS 0 = countUp (s.reg .POWER_PF_WARNS 0) ∧
      5 ≤ s'.chip.stageOf p) ∧
  (∀ (t : Nat) (s : State),
    s.reg .POWER_PF_HOLD 0 ≠ 0 →
    ∃ s', exec (.pfWarnRelease t) s = .next s' ∧
      s'.reg .POWER_PF_WARN 0 = 0 ∧ s'.reg .POWER_PF_HOLD 0 = 0) ∧
  (∀ (t d n v : Nat) (s : State),
    d < 4 ∧ 1 ≤ n ∧ n ≤ 5 →
    SMap.find? (s.chip.die d).stages n = none →
    ((s.chip.die d).stages.all (fun e => e.1 ≤ 6) = true) →
    ∃ s', exec (.sagStageEnter t d n v) s = .next s' ∧
      SMap.find? (s'.chip.die d).stages n = some (max s.chip.now t) ∧
      s'.reg .POWER_STAGE 0 d = max (s.chip.topStage d) n ∧
      s'.reg .POWER_STAGE_ENTRIES 0 (n - 1) = countUp (s.reg .POWER_STAGE_ENTRIES 0 (n - 1))) ∧
  (∀ (t d m v : Nat) (s : State),
    d < 4 →
    ((s.chip.die d).stages.all (fun e => e.1 ≤ 6) = true) →
    ∃ s', exec (.sagStageClear t d m v) s = .next s' ∧
      ((s'.chip.die d).stages = (s.chip.die d).stages.filter (fun e => !bit m e.1)) ∧
      s'.reg .POWER_STAGE 0 d = s'.chip.topStage d) ∧
  (∀ (t d : Nat) (l : List Int) (a : Int) (b : List Int) (s : State),
    d < 32 ∧ l.length = Chip.sensorsOf d →
    (((List.range l.length).filter fun i => (Chip.judge (SMap.get [] s.chip.sensors d) l).getD i 0 ≠ 2).map (fun i => l.getD i 0) = a :: b) →
    b.foldl max a < 115 →
    ∃ s', exec (.thermalSample t d l) s = .next s' ∧
      s'.reg .THERMAL_SENSORS_GOOD 0 d = (b.length + 1) % 32 ∧
      s'.reg .THERMAL_TJ 0 d = trunc 10 ((b.foldl max a + 1024) % 1024).toNat) ∧
  (∀ (t d a : Nat) (s : State),
    d < 4 →
    SMap.find? s.chip.cool d = some a ∧ a + 10000000 ≤ max s.chip.now t →
    (s.chip.die d).throttled = true →
    ∃ s', exec (.throttleRelease t d) s = .next s' ∧
      (s'.chip.die d).throttled = false ∧ bit (s'.reg .THERMAL_THROTTLED 0) d = false ∧
      s'.reg .LOOPS_PROTECT_OVERRIDES 0 = countUp (s.reg .LOOPS_PROTECT_OVERRIDES 0)) ∧
  (∀ (t d w : Nat) (s : State),
    d < 4 →
    (s.chip.die d).want = some w →
    ∃ s', exec (.avsAck t d) s = .next s' ∧
      s'.reg .POWER_SETPOINT_MV 0 d = clampTo 650 850 (Config.setPoint d w) ∧
      (s'.chip.die d).capped = false) ∧
  (∀ (t d : Nat) (s : State),
    d < 4 →
    (s.chip.die d).want.isSome = true →
    ∃ s', exec (.avsTimeout t d) s = .next s' ∧
      s'.reg .POWER_AVS_FAILS 0 = countUp (s.reg .POWER_AVS_FAILS 0) ∧
      (s'.chip.die d).capped = true ∧ (s'.chip.die d).want = none ∧
      s'.reg .POWER_SETPOINT_MV 0 d = s.reg .POWER_SETPOINT_MV 0 d) ∧
  (∀ (t : Nat) (s : State),
    s.chip.refLost = false →
    ∃ s', exec (.timeRefLoss t) s = .next s' ∧
      s'.chip.refLost = true ∧ s'.reg .BOOT_TIME_REF_LOSSES 0 = countUp (s.reg .BOOT_TIME_REF_LOSSES 0)) ∧
  (∀ (t : Nat) (s : State),
    ∃ s', exec (.timeRefRestore t) s = .next s' ∧
      s'.chip.refLost = false) ∧
  (∀ (t : Nat) (s : State),
    ∃ s', exec (.smbusClockTimeout t) s = .next s' ∧
      s'.reg .BOOT_SMB_ERRORS 0 = countUp (s.reg .BOOT_SMB_ERRORS 0) ∧
      s'.chip.out = [.board "SMBUS_RELEASE" []])

/-- R467, R468: BLOB_WRITE stores a blob that passes and answers 0x00, and one that does not is refused with 0x08, or 0x01
where BLOB_LEN is shorter than it (R479); R477: FW_GO names the pushed image, R317: which the ROM verifies, and a boot goes on
or waits; R469: a cold boot begins from the straps with the power-on state; R470: BIST maps the working units. -/
def Obligations.BringUp : Prop :=
  (∀ (t i : Nat) (l : List Nat) (x : Blob) (s : State),
    s.reaches t i .BOOT 0 →
    s.chip.hostBytes i (s.reg .BOOT_BLOB_ADDR 0) (min (s.reg .BOOT_BLOB_LEN 0) 0x200000) = l →
    blobOf l = some x →
    ∃ s', exec (.blobWrite t i) s = .next s' ∧
      s'.reg .BOOT_BLOB_STATUS 0 = 0 ∧ s'.chip.mram.blob = l) ∧
  (∀ (t i : Nat) (s : State),
    s.reaches t i .BOOT 0 →
    blobOf (s.chip.hostBytes i (s.reg .BOOT_BLOB_ADDR 0) (min (s.reg .BOOT_BLOB_LEN 0) 0x200000)) = none →
    ∃ s', exec (.blobWrite t i) s = .next s' ∧
      (s'.reg .BOOT_BLOB_STATUS 0 = 0x08 ∨ s'.reg .BOOT_BLOB_STATUS 0 = 0x01) ∧
      s'.chip.mram = s.chip.mram) ∧
  (∀ (t i n : Nat) (l : List Nat) (s : State),
    s.reaches t i .BOOT 0 →
    min (s.reg .BOOT_BLOB_LEN 0) 0x200000 = n ∧ s.chip.hostBytes i (s.reg .BOOT_BLOB_ADDR 0) n = l →
    32 ≤ n ∧ ofBytes ((l.drop 8).take 4) ≤ n ∧ blobOf l = none →
    ∃ s', exec (.blobWrite t i) s = .next s' ∧
      s'.reg .BOOT_BLOB_STATUS 0 = 0x08 ∧ s'.chip.mram = s.chip.mram) ∧
  (∀ (t i : Nat) (s : State),
    s.reaches t i .BOOT 0 →
    s.reg .BOOT_FW_WAITING 0 = 1 →
    ∃ s', exec (.fwGo t i) s = .next s' ∧
      s'.chip.fwFrom = some i) ∧
  (∀ (t i : Nat) (l m : List Nat) (s : State),
    s.reg .BOOT_BOOT_STAGE 0 = 2 →
    s.chip.fwFrom = some i →
    s.chip.hostBytes i (s.reg .BOOT_FW_ADDR 0) (s.reg .BOOT_FW_LEN 0) = l ∧ Chip.fwShape l = true →
    ∃ s', exec (.fwVerified t true m) s = .next s' ∧
      s'.reg .BOOT_BOOT_STAGE 0 = 4 ∧ s'.reg .BOOT_FW_WAITING 0 = 0 ∧ s'.reg .BOOT_FW_FROM_MRAM 0 = 0 ∧
      s'.chip.fwFrom = none ∧ s'.chip.fwVersion = ofBytes ((l.drop 8).take 4)) ∧
  (∀ (t i : Nat) (m : List Nat) (s : State),
    s.reg .BOOT_BOOT_STAGE 0 = 2 →
    s.chip.fwFrom = some i →
    ∃ s', exec (.fwVerified t false m) s = .next s' ∧
      s'.reg .BOOT_BOOT_STAGE 0 = 2 ∧ s'.reg .BOOT_FW_WAITING 0 = 1 ∧ s'.chip.fwFrom = none ∧
      s'.reg .BOOT_FW_REJECTS 0 = countUp (s.reg .BOOT_FW_REJECTS 0)) ∧
  (∀ (t cfg src : Nat) (b : Bool) (s : State),
    cfg < 4 ∧ src < 2 →
    s.chip.mram.g9Out = false →
    ∃ s', exec (.coldBoot t true cfg src b) s = .next s' ∧
      s'.reg .DEVICE_HOST_CFG 0 = cfg ∧ s'.reg .DEVICE_BOOT_SRC 0 = src ∧ s'.reg .CONTEXT_IDENTITY_OK 0 = ofBool b ∧
      s'.reg .BOOT_BOOT_STAGE 0 = 2 ∧ s'.reg .BOOT_FW_WAITING 0 = 1 - src ∧ s'.reg .RESET_DEVICE_STATE 0 = 1 ∧
      s'.pairs = [] ∧ s'.chip.cmds = [] ∧ s'.chip.ctxs = []) ∧
  (∀ (t p cores mules banks k : Nat) (phys : List Nat) (b : Bool) (s : State),
    p < 16 ∧ k < 8 →
    s.reg .RESET_PART_STATE 0 p = 2 ∧ s.chip.g9Out = false →
    (s.found t).bistCalm p = true →
    cores < 16 ∧ mules < 15 ∧ banks < 2 ^ 32 →
    ∃ s', exec (.bistDone t p phys cores b mules banks) s = .next s' ∧
      s'.reg .RESET_PART_STATE 0 p = 2 ∧ s'.reg .RESET_STAGE 0 p = 6 ∧
      s'.reg .PARTITION_CORES_VACANT p = cores ∧ s'.reg .PARTITION_MIOBOR_VACANT p = ofBool b ∧ s'.reg .PARTITION_MULES_VACANT p = mules ∧
      s'.reg .PARTITION_BANKS_VACANT p = banks ∧ s'.reg .ENGINES_PHYS_OK p k = trunc 34 (phys.getD k 0) ∧
      s'.reg .ENGINES_BIST_RUNS p = countUp (s.reg .ENGINES_BIST_RUNS p))

/-- R214: CRC, GENERATION, CTX, FORMAT, SHAPE and INDEX lie at their offsets, and the CRC that every writer of a tile puts
there is the CRC-32C over header bytes 0x04 to 0x0F and then the 2,048 payload bytes. -/
def Obligations.TileHeaders : Prop :=
  (∀ (t : Tile), t.header.length = 16 ∧ ofBytes (t.header.take 4) = t.crc % 2 ^ 32 ∧ ofBytes ((t.header.drop 4).take 4) = t.gen % 2 ^ 32 ∧ t.header[8]? = some (t.ctx % 256) ∧ t.header[9]? = some (t.format % 256) ∧ ofBytes ((t.header.drop 10).take 2) = t.shape % 2 ^ 16 ∧ ofBytes (t.header.drop 12) = t.index % 2 ^ 32) ∧
  (∀ (t : Tile), SMap.sorted t.data = true → t.sealed.crc = crc32c (t.header.drop 4 ++ (List.range 2048).map t.byte) ∧ t.sealed = { t with crc := t.sealed.crc })

/-- R353: a completion record holds TAG, STATUS, PHASE, OPCODE, CTX, DETAIL and Bellwether[41:10] at their offsets; R430: a
fixed record holds CODE, FLAGS, PARTITION, TIME, P0 to P3 and REPEAT at theirs; R351: a timeout code t of 0x01 to 0xFF sets (m
+ 1) × 2^(10 + 2e) ticks, and the code 0 the queue's default. -/
def Obligations.RecordLayouts : Prop :=
  (∀ (c : Chip) (i : QId) (d : Desc) (status detail : Nat), (c.recordBytes i d status detail).length = 16 ∧ ofBytes ((c.recordBytes i d status detail).take 4) = d.tag % 2 ^ 32 ∧ (c.recordBytes i d status detail)[4]? = some (status % 256) ∧ (c.recordBytes i d status detail)[5]? = some (c.phaseOf i) ∧ c.phaseOf i ≤ 1 ∧ (c.recordBytes i d status detail)[6]? = some (d.opcode % 256) ∧ (c.recordBytes i d status detail)[7]? = some (d.ctx % 256) ∧ ofBytes (((c.recordBytes i d status detail).drop 8).take 4) = detail % 2 ^ 32 ∧ ofBytes ((c.recordBytes i d status detail).drop 12) = c.now / 2 ^ 10 % 2 ^ 32) ∧
  (∀ (r : FixedRec), r.bytes.length = 32 ∧ ofBytes (r.bytes.take 2) = r.code % 2 ^ 16 ∧ r.bytes[2]? = some (ofBool r.kept + 2 * ofBool r.hidden + 4 * ofBool r.lostBefore) ∧ r.bytes[3]? = some (r.part % 256) ∧ ofBytes ((r.bytes.drop 4).take 8) = r.time % 2 ^ 64 ∧ (∀ k < 4, ofBytes ((r.bytes.drop (12 + 4 * k)).take 4) = r.p.getD k 0 % 2 ^ 32) ∧ ofBytes (r.bytes.drop 28) = r.rep % 2 ^ 32) ∧
  (∀ (c : Chip) (y : Cmd) (x p : Nat), y.q = .compute x p → (0 < y.d.timeout → c.limitOf y = (y.d.timeout % 16 + 1) * 2 ^ (10 + 2 * (y.d.timeout / 16))) ∧ (y.d.timeout = 0 → c.reg .CTXQ_DEFAULT_TIMEOUT (16 * x + p) ≠ 0 → c.limitOf y = (c.reg .CTXQ_DEFAULT_TIMEOUT (16 * x + p) % 16 + 1) * 2 ^ (10 + 2 * (c.reg .CTXQ_DEFAULT_TIMEOUT (16 * x + p) / 16))))

/-- For each command of the cluster, on every state and operands that meet the conditions its rule sets: the context may use
the cluster, the handles, the tiles of the predicate and of the inputs and the output tiles pass their checks (R216, R217,
R219), and the tensors have the formats and shapes that the command asks for (R213, R220 to R223, R227 to R230). Then the
command runs: its outputs hold what it computes, no other tile changes, and its completion record holds OK (R353). -/
def Obligations.ClusterCompletes : Prop :=
  (∀ (t p x : Nat) (d : Desc) (y : Cmd) (o : MOps) (a b w z : Tensor) (s : State),
    d.opcode = 0x10 →
    s.clusterTakes t p x d y o ([a, b] ++ o.d.toList) [(w, o.keeps)] →
    o.a = some a →
    o.b = some b →
    o.c = some w →
    o.sound ([a, b] ++ o.d.toList) [w] = true →
    rateOf a.format b.format ≠ none →
    (o.d.all (fun z => z.casts o.m o.n && 3 ≤ z.format && z.format ≤ 7 && !z.sparse) = true) →
    a.is o.m o.k = true →
    b.is o.k o.n = true →
    w.is o.m o.n = true →
    a.sparse = false →
    (w.format = 7 → a.isInt = true) →
    b.sparse = false →
    ∃ s', exec (.gemm t (.compute x p) d) s = .next s' ∧
      s.computedAll s' t p x y o) ∧
  (∀ (t p x : Nat) (d : Desc) (y : Cmd) (o : MOps) (a b w z : Tensor) (s : State),
    d.opcode = 0x11 →
    s.clusterTakes t p x d y o ([a, b] ++ o.d.toList) [(w, o.keeps)] →
    o.a = some a →
    o.b = some b →
    o.c = some w →
    o.sound ([a, b] ++ o.d.toList) [w] = true →
    rateOf a.format b.format ≠ none →
    (o.d.all (fun z => z.casts o.m o.n && 3 ≤ z.format && z.format ≤ 7 && !z.sparse) = true) →
    a.is o.m o.k = true →
    b.is o.k o.n = true →
    w.is o.m o.n = true →
    a.sparse = false →
    (w.format = 7 → a.isInt = true) →
    b.sparse = true →
    b.blocked = false →
    o.k % 4 = 0 →
    ((List.range (o.k / 4)).all (fun g => (List.range o.n).all fun j => (s.found t).elem p b.indices (2 * g) j < (s.found t).elem p b.indices (2 * g + 1) j) = true) →
    ∃ s', exec (.spgemm t (.compute x p) d) s = .next s' ∧
      s.computedAll s' t p x y o) ∧
  (∀ (t p x : Nat) (d : Desc) (y : Cmd) (o : MOps) (a b w z : Tensor) (s : State),
    d.opcode = 0x12 →
    s.clusterTakes t p x d y o ([a, b] ++ o.d.toList) [(w, o.keeps)] →
    o.a = some a →
    o.b = some b →
    o.c = some w →
    o.sound ([a, b] ++ o.d.toList) [w] = true →
    rateOf a.format b.format ≠ none →
    (o.d.all (fun z => z.casts o.m o.n && 3 ≤ z.format && z.format ≤ 7 && !z.sparse) = true) →
    a.is o.m o.k = true →
    b.is o.k o.n = true →
    w.is o.m o.n = true →
    a.sparse = false →
    (w.format = 7 → a.isInt = true) →
    b.sparse = false →
    o.mode < 2 →
    ((if bit o.mode 0 then a else b) = z) →
    z.blocked = true →
    (s.found t).failsOf p x (Tensor.bitUses z.meta_ z.metaGen 0x11 z.count) = [] →
    ∃ s', exec (.bsgemm t (.compute x p) d) s = .next s' ∧
      s.computedAll s' t p x y o) ∧
  (∀ (t p x : Nat) (d : Desc) (y : Cmd) (o : MOps) (a w z u : Tensor) (s : State),
    d.opcode = 0x13 →
    s.clusterTakes t p x d y o [a] [(w, o.keeps), (z, o.keeps), (u, bit o.mode 3)] →
    o.a = some a →
    o.c = some w →
    o.d = some z →
    o.aux = some u →
    o.sound [a] [w, z, u] = true →
    apart [w, z, u] = true →
    a.sparse = false →
    a.is o.m o.n = true →
    (a.format = 5 ∨ a.format = 6) →
    w.is o.m o.param = true →
    w.format = 7 →
    z.is o.m o.param = true →
    z.format = 6 →
    u.is o.n 2 = true →
    u.format = 7 →
    1 ≤ o.param →
    o.param ≤ 8 →
    o.param ≤ o.n →
    1 ≤ o.k →
    o.k ≤ o.m →
    bits o.mode 2 1 ≠ 3 →
    o.mode < 16 →
    ∃ s', exec (.gate t (.compute x p) d) s = .next s' ∧
      s.computedAll s' t p x y o) ∧
  (∀ (t p x : Nat) (d : Desc) (y : Cmd) (o : MOps) (a w z : Tensor) (s : State),
    d.opcode = 0x14 →
    s.clusterTakes t p x d y o [a] [(w, o.keeps), (z, o.keeps)] →
    o.a = some a →
    o.c = some w →
    o.d = some z →
    o.sound [a] [w, z] = true →
    apart [w, z] = true →
    a.sparse = false →
    a.is o.m o.n = true →
    w.is o.m o.param = true →
    z.is o.m o.param = true →
    z.format = 7 →
    1 ≤ o.param →
    o.param ≤ 1024 →
    o.param ≤ o.n →
    o.mode < 2 →
    ∃ s', exec (.topk t (.compute x p) d) s = .next s' ∧
      s.computedAll s' t p x y o) ∧
  (∀ (t p x : Nat) (d : Desc) (y : Cmd) (o : MOps) (a w z : Tensor) (s : State),
    d.opcode = 0x15 →
    s.clusterTakes t p x d y o ([a] ++ o.d.toList) [(w, o.keeps)] →
    o.a = some a →
    o.c = some w →
    o.sound ([a] ++ o.d.toList) [w] = true →
    (o.d.all (fun z => (z.is 1 o.n || z.is o.m o.n) && !z.sparse) = true) →
    a.sparse = false →
    a.is o.m o.n = true →
    w.is o.m o.n = true →
    o.mode < 2 →
    ∃ s', exec (.softmax t (.compute x p) d) s = .next s' ∧
      s.computedAll s' t p x y o) ∧
  (∀ (t p x : Nat) (d : Desc) (y : Cmd) (o : MOps) (a w : Tensor) (s : State),
    d.opcode = 0x16 →
    s.clusterTakes t p x d y o [a] [(w, o.keeps)] →
    o.a = some a →
    o.c = some w →
    o.sound [a] [w] = true →
    a.sparse = false →
    a.is o.m o.n = true →
    w.is o.m o.n = true →
    (a.format = 6 ∨ a.format = 7) →
    w.format = a.format →
    o.mode < 2 →
    ∃ s', exec (.scan t (.compute x p) d) s = .next s' ∧
      s.computedAll s' t p x y o) ∧
  (∀ (t p x : Nat) (d : Desc) (y : Cmd) (o : MOps) (a w z : Tensor) (s : State),
    d.opcode = 0x17 →
    s.clusterTakes t p x d y o ([a] ++ o.d.toList) [(w, bit o.mode 0)] →
    o.a = some a →
    o.c = some w →
    o.sound ([a] ++ o.d.toList) [w] = true →
    (o.d.all (fun z => z.is o.m 1 && z.format == 6 && !z.sparse) = true) →
    (w.format = if o.d.isSome then 6 else 7) →
    a.sparse = false →
    a.is o.m 1 = true →
    a.format = 7 →
    w.is o.n 1 = true →
    o.mode < 2 →
    ∃ s', exec (.hist t (.compute x p) d) s = .next s' ∧
      s.computedAll s' t p x y o) ∧
  (∀ (t p x : Nat) (d : Desc) (y : Cmd) (o : MOps) (a b w z u : Tensor) (s : State),
    d.opcode = 0x18 →
    s.clusterTakes t p x d y o [a, b, z, u] [(w, o.keeps)] →
    o.a = some a →
    o.b = some b →
    o.c = some w →
    o.d = some z →
    o.aux = some u →
    o.sound [a, b, z, u] [w] = true →
    ([a, b, z, u].all (fun e => !e.sparse) = true) →
    a.is o.k 1 = true →
    b.is o.n 1 = true →
    z.is o.k 1 = true →
    z.format = 7 →
    u.is (o.m + 1) 1 = true →
    u.format = 7 →
    w.is o.m 1 = true →
    w.format = 6 →
    (((s.found t).liveRows p o).all (fun r => 0 ≤ (s.found t).ival p u r 0 && (s.found t).ival p u r 0 ≤ (s.found t).ival p u (r + 1) 0 && (s.found t).ival p u (r + 1) 0 ≤ (o.k : Int)) = true) →
    ∃ s', exec (.spmv t (.compute x p) d) s = .next s' ∧
      s.computedAll s' t p x y o) ∧
  (∀ (t p x : Nat) (d : Desc) (y : Cmd) (o : MOps) (a b w : Tensor) (s : State),
    d.opcode = 0x19 →
    s.clusterTakes t p x d y o [a, b] [(w, o.keeps)] →
    o.a = some a →
    o.b = some b →
    o.c = some w →
    o.sound [a, b] [w] = true →
    a.sparse = false →
    b.sparse = false →
    a.cols = o.n →
    b.is o.m 1 = true →
    b.format = 7 →
    w.is o.m o.n = true →
    ∃ s', exec (.gather t (.compute x p) d) s = .next s' ∧
      s.computedAll s' t p x y o) ∧
  (∀ (t p x : Nat) (d : Desc) (y : Cmd) (o : MOps) (a b w : Tensor) (s : State),
    d.opcode = 0x1A →
    s.clusterTakes t p x d y o [a, b] [(w, true)] →
    o.a = some a →
    o.b = some b →
    o.c = some w →
    o.sound [a, b] [w] = true →
    a.sparse = false →
    b.sparse = false →
    a.is o.m o.n = true →
    b.is o.m 1 = true →
    b.format = 7 →
    w.cols = o.n →
    o.mode < 2 →
    ∃ s', exec (.scatter t (.compute x p) d) s = .next s' ∧
      s.computedAll s' t p x y o) ∧
  (∀ (t p x : Nat) (d : Desc) (y : Cmd) (o : MOps) (a w z : Tensor) (l : List (Option Tensor)) (s : State),
    d.opcode = 0x1B →
    s.clusterTakes t p x d y o ([a] ++ l.filterMap id) [(w, o.keeps)] →
    o.a = some a →
    o.c = some w →
    (l = (if 3 ∈ usedHandles 0x1B o.mode then [o.b, o.d] else if 1 ∈ usedHandles 0x1B o.mode then [o.b] else [])) →
    o.sound ([a] ++ l.filterMap id) [w] = true →
    (l.all (fun e => e.any fun z => z.casts o.m o.n && !z.sparse) = true) →
    o.mode < 0x0E →
    a.sparse = false →
    a.is o.m o.n = true →
    w.is o.m o.n = true →
    ∃ s', exec (.eltwise t (.compute x p) d) s = .next s' ∧
      s.computedAll s' t p x y o) ∧
  (∀ (t p x : Nat) (d : Desc) (y : Cmd) (o : MOps) (a w : Tensor) (s : State),
    d.opcode = 0x1C →
    s.clusterTakes t p x d y o [a] [(w, o.keeps && !bit o.mode 2)] →
    o.a = some a →
    o.c = some w →
    o.sound [a] [w] = true →
    a.sparse = false →
    a.is o.m o.n = true →
    ((if bit o.mode 2 then w.is 1 o.n else w.is o.m 1) = true) →
    (o.mode % 4 = 3 → w.format = 7) →
    o.mode < 16 →
    ∃ s', exec (.reduce t (.compute x p) d) s = .next s' ∧
      s.computedAll s' t p x y o)
end

