-- ==== Sys2Proof/Laws/Map.lean ====
section
/-! SUPPORT. Sparse maps: what a read gives after a write, and that every write keeps the canonical form. -/

namespace Sys2Proof.SMap

variable {α : Type}

@[simp] theorem find?_nil (k : Nat) : find? ([] : SMap α) k = none := rfl

@[simp] theorem get_nil (d : α) (k : Nat) : get d [] k = d := rfl

theorem find?_insert (m : SMap α) (k j : Nat) (v : α) :
    find? (insert m k v) j = if k = j then some v else find? m j := by
  induction m with
  | nil => simp [insert, find?]
  | cons e r ih =>
    obtain ⟨a, b⟩ := e
    simp only [insert]
    split
    · simp [find?]
    · split
      · rename_i h; subst h; simp only [find?]; split <;> rfl
      · simp only [find?, ih]; grind

theorem find?_erase (m : SMap α) (k j : Nat) : find? (erase m k) j = if k = j then none else find? m j := by
  induction m with
  | nil => simp [erase]
  | cons e r ih => obtain ⟨a, b⟩ := e; simp only [erase]; split <;> grind [find?]

/-- A read after a write: the written value at its key, the old one elsewhere. -/
theorem get_set [DecidableEq α] (d : α) (m : SMap α) (k j : Nat) (v : α) :
    get d (set d m k v) j = if k = j then v else get d m j := by
  simp only [get, set]
  split
  · rename_i h; subst h; rw [find?_erase]; split <;> simp
  · rw [find?_insert]; split <;> simp

@[simp] theorem get_set_same [DecidableEq α] (d : α) (m : SMap α) (k : Nat) (v : α) : get d (set d m k v) k = v := by
  simp [get_set]

theorem get_set_other [DecidableEq α] (d : α) (m : SMap α) {k j : Nat} (v : α) (h : k ≠ j) :
    get d (set d m k v) j = get d m j := by
  simp [get_set, h]

/-- A write leaves every other key alone, whatever the defaults of the two fields. -/
theorem get_set_ne [DecidableEq α] (d d' : α) (m : SMap α) {k j : Nat} (v : α) (h : k ≠ j) :
    get d' (set d m k v) j = get d' m j := by
  simp only [get, set]; split
  · rw [find?_erase, if_neg h]
  · rw [find?_insert, if_neg h]

theorem get_insert (d : α) (m : SMap α) (k j : Nat) (v : α) :
    get d (insert m k v) j = if k = j then v else get d m j := by
  simp only [get, find?_insert]; split <;> simp

theorem sorted_iff (m : SMap α) : sorted m = true ↔ m.Pairwise fun a b => a.1 < b.1 := by
  induction m with
  | nil => simp [sorted]
  | cons e r ih =>
    cases r with
    | nil => simp [sorted]
    | cons f q =>
      obtain ⟨a, b⟩ := e
      obtain ⟨a', b'⟩ := f
      simp only [sorted, Bool.and_eq_true, decide_eq_true_eq, ih, List.pairwise_cons]
      constructor
      · rintro ⟨h, h1, h2⟩
        refine ⟨?_, h1, h2⟩
        intro x hx
        rcases List.mem_cons.1 hx with rfl | hx
        · exact h
        · exact lt_trans h (h1 x hx)
      · rintro ⟨h, h1, h2⟩
        exact ⟨h (a', b') (List.mem_cons_self ..), h1, h2⟩

theorem mem_insert_key (m : SMap α) (k : Nat) (v : α) {e : Nat × α} (h : e ∈ insert m k v) : e = (k, v) ∨ e ∈ m := by
  induction m with
  | nil => simp only [insert, List.mem_singleton] at h; exact .inl h
  | cons x r ih => obtain ⟨a, b⟩ := x; simp only [insert] at h; grind

theorem sorted_insert (m : SMap α) (k : Nat) (v : α) (h : sorted m = true) : sorted (insert m k v) = true := by
  rw [sorted_iff] at *
  induction m with
  | nil => simp [insert]
  | cons e r ih =>
    obtain ⟨a, b⟩ := e
    rw [List.pairwise_cons] at h
    simp only [insert]
    split
    · rename_i hk
      refine List.pairwise_cons.2 ⟨?_, List.pairwise_cons.2 h⟩
      intro x hx
      rcases List.mem_cons.1 hx with rfl | hx
      · exact hk
      · exact lt_trans hk (h.1 x hx)
    · split
      · rename_i hk; subst hk; exact List.pairwise_cons.2 h
      · refine List.pairwise_cons.2 ⟨?_, ih h.2⟩
        intro x hx
        rcases mem_insert_key r k v hx with rfl | hx
        · simp only; omega
        · exact h.1 x hx

theorem erase_eq_filter (m : SMap α) (k : Nat) : erase m k = m.filter fun e => decide (e.1 ≠ k) := by
  induction m with
  | nil => rfl
  | cons e r ih => obtain ⟨a, b⟩ := e; simp only [erase]; split <;> simp [*]

theorem sorted_filter (m : SMap α) (p : Nat × α → Bool) (h : sorted m = true) : sorted (m.filter p) = true := by
  rw [sorted_iff] at *; exact h.filter p

theorem wf_filter [DecidableEq α] (d : α) (m : SMap α) (p : Nat × α → Bool) (h : wf d m = true) :
    wf d (m.filter p) = true := by
  simp only [wf, Bool.and_eq_true, List.all_eq_true] at *
  exact ⟨sorted_filter m p h.1, fun x hx => h.2 x (List.mem_filter.1 hx).1⟩

/-- A write keeps the canonical form. -/
theorem wf_set [DecidableEq α] (d : α) (m : SMap α) (k : Nat) (v : α) (h : wf d m = true) :
    wf d (set d m k v) = true := by
  simp only [set]
  split
  · rw [erase_eq_filter]; exact wf_filter d m _ h
  · rename_i hv
    simp only [wf, Bool.and_eq_true, List.all_eq_true, decide_eq_true_eq] at *
    refine ⟨sorted_insert m k v h.1, ?_⟩
    intro x hx
    rcases mem_insert_key m k v hx with rfl | hx
    · exact hv
    · exact h.2 x hx

/-- Dropping a range of keys keeps the canonical form. -/
theorem wf_eraseRange [DecidableEq α] (d : α) (m : SMap α) (lo hi : Nat) (h : wf d m = true) :
    wf d (eraseRange m lo hi) = true := wf_filter d m _ h

@[simp] theorem wf_nil [DecidableEq α] (d : α) : wf d ([] : SMap α) = true := rfl

end Sys2Proof.SMap
end

