-- ==== Sys2Proof/Laws/Regs.lean ====
section
/-! SUPPORT. Registers: the keys of different fields differ, and what a field reads after a write of the register file. -/

namespace Sys2Proof

/-- A field's number names it. -/
theorem Reg.ctorIdx_inj {r r' : Reg} (h : r.ctorIdx = r'.ctorIdx) : r = r' := by
  have := congrArg Reg.ofNat h
  simpa [Reg.ofNat_ctorIdx] using this

/-- Keys of different fields differ, whatever their page instance and element within the page layout. -/
theorem Reg.key_inj {r r' : Reg} {i i' x x' : Nat} (hi : i < 4096) (hi' : i' < 4096) (hx : x < 64) (hx' : x' < 64)
    (h : r.key i x = r'.key i' x') : r = r' ∧ i = i' ∧ x = x' := by
  simp only [Reg.key] at h
  have h1 : r.ctorIdx = r'.ctorIdx := by omega
  exact ⟨Reg.ctorIdx_inj h1, by omega, by omega⟩

end Sys2Proof

namespace Sys2Proof.Machine.RegFile

open Sys2Proof

/-- A field that has just been set reads its value, cut to its width. -/
@[simp] theorem get_set_same (f : RegFile) (r : Reg) (i x v : Nat) : (f.set r i x v).get r i x = trunc r.width v := by
  simp [get, set]

/-- A field whose key is another keeps its value. -/
theorem get_set_key (f : RegFile) {r r' : Reg} {i i' x x' : Nat} (v : Nat) (h : r.key i x ≠ r'.key i' x') :
    (f.set r i x v).get r' i' x' = f.get r' i' x' := SMap.get_set_ne _ _ _ _ h

/-- Of two fields at one page instance and element, only the one that is set changes. -/
@[simp] theorem get_set (f : RegFile) (r r' : Reg) (i x v : Nat) :
    (f.set r i x v).get r' i x = if r = r' then trunc r.width v else f.get r' i x := by
  split
  · subst r'; simp
  · rename_i h
    apply get_set_key
    intro hk
    simp only [Reg.key] at hk
    exact h (Reg.ctorIdx_inj (by omega))

/-- A write at one page instance leaves the same field of every other instance alone. -/
theorem get_set_inst (f : RegFile) (r : Reg) {i j : Nat} (x v : Nat) (h : i ≠ j) :
    (f.set r i x v).get r j x = f.get r j x := by
  apply get_set_key; simp only [Reg.key]; omega

/-- Writes of different fields within the page layout do not meet. -/
theorem get_set_far (f : RegFile) {r r' : Reg} {i i' x x' : Nat} (v : Nat) (h : r ≠ r') (hi : i < 4096) (hi' : i' < 4096)
    (hx : x < 64) (hx' : x' < 64) : (f.set r i x v).get r' i' x' = f.get r' i' x' :=
  get_set_key f v fun hk => h (Reg.key_inj hi hi' hx hx' hk).1

/-- A counter after `n` events. -/
@[simp] theorem get_count (f : RegFile) (r r' : Reg) (i x n : Nat) :
    (f.count r i x n).get r' i x = if r = r' then trunc r.width (min (f.get r i x + n) (2 ^ r.width - 1)) else f.get r' i x := by
  simp [count]

@[simp] theorem set_pend (f : RegFile) (r : Reg) (i x v : Nat) : (f.set r i x v).pend = f.pend := rfl
@[simp] theorem set_hold (f : RegFile) (r : Reg) (i x v : Nat) : (f.set r i x v).hold = f.hold := rfl
@[simp] theorem count_pend (f : RegFile) (r : Reg) (i x n : Nat) : (f.count r i x n).pend = f.pend := rfl

end Sys2Proof.Machine.RegFile
end

