-- ==== Sys2Proof/Laws/State.lean ====
section
/-! SUPPORT. Each update of the state and of the block, field by field, so that no proof unfolds a record update. -/

namespace Sys2Proof.Machine

open Sys2Proof

/-! The state -/

@[simp] theorem State.run_chip (s : State) (t : Nat) (f : Chip → Chip) : (s.run t f).chip = s.chip.run t f := rfl
@[simp] theorem State.run_pending (s : State) (t : Nat) (f : Chip → Chip) : (s.run t f).pending = s.pending := rfl
@[simp] theorem State.run_pairs (s : State) (t : Nat) (f : Chip → Chip) : (s.run t f).pairs = s.pairs := rfl
@[simp] theorem State.runPairs_pending (s : State) (t : Nat) (f : Chip → List HostPair → Chip × List HostPair) :
    (s.runPairs t f).pending = s.pending := rfl
theorem State.runPairs_chip (s : State) (t : Nat) (f : Chip → List HostPair → Chip × List HostPair) :
    (s.runPairs t f).chip = (f (s.chip.run t fun c => c) s.pairs).1 := rfl
theorem State.runPairs_pairs (s : State) (t : Nat) (f : Chip → List HostPair → Chip × List HostPair) :
    (s.runPairs t f).pairs = (f (s.chip.run t fun c => c) s.pairs).2 := rfl

/-- A step takes the command at the front of the queue. -/
theorem step_cons (s : State) (i : Instr) (r : List Instr) (h : s.pending = i :: r) :
    step s = exec i { s with pending := r } := by simp [step, h]

/-- A step on an empty queue idles. -/
theorem step_nil (s : State) (h : s.pending = []) : step s = .next s := by simp [step, h]

namespace Chip

/-! setReg -/

@[simp] theorem setReg_now (c : Chip) (r : Reg) (i x v : Nat) : (c.setReg r i x v).now = c.now := rfl
@[simp] theorem setReg_stepped (c : Chip) (r : Reg) (i x v : Nat) : (c.setReg r i x v).stepped = c.stepped := rfl
@[simp] theorem setReg_out (c : Chip) (r : Reg) (i x v : Nat) : (c.setReg r i x v).out = c.out := rfl
@[simp] theorem setReg_freeCtr (c : Chip) (r : Reg) (i x v : Nat) : (c.setReg r i x v).freeCtr = c.freeCtr := rfl
@[simp] theorem setReg_latches (c : Chip) (r : Reg) (i x v : Nat) : (c.setReg r i x v).latches = c.latches := rfl
@[simp] theorem setReg_hostMem (c : Chip) (r : Reg) (i x v : Nat) : (c.setReg r i x v).hostMem = c.hostMem := rfl
@[simp] theorem setReg_hostPorts (c : Chip) (r : Reg) (i x v : Nat) : (c.setReg r i x v).hostPorts = c.hostPorts := rfl
@[simp] theorem setReg_phase (c : Chip) (r : Reg) (i x v : Nat) : (c.setReg r i x v).phase = c.phase := rfl
@[simp] theorem setReg_cmds (c : Chip) (r : Reg) (i x v : Nat) : (c.setReg r i x v).cmds = c.cmds := rfl
@[simp] theorem setReg_cmdSeq (c : Chip) (r : Reg) (i x v : Nat) : (c.setReg r i x v).cmdSeq = c.cmdSeq := rfl
@[simp] theorem setReg_agents (c : Chip) (r : Reg) (i x v : Nat) : (c.setReg r i x v).agents = c.agents := rfl
@[simp] theorem setReg_ctxs (c : Chip) (r : Reg) (i x v : Nat) : (c.setReg r i x v).ctxs = c.ctxs := rfl
@[simp] theorem setReg_confReleased (c : Chip) (r : Reg) (i x v : Nat) : (c.setReg r i x v).confReleased = c.confReleased := rfl
@[simp] theorem setReg_fwDigest (c : Chip) (r : Reg) (i x v : Nat) : (c.setReg r i x v).fwDigest = c.fwDigest := rfl
@[simp] theorem setReg_fwVersion (c : Chip) (r : Reg) (i x v : Nat) : (c.setReg r i x v).fwVersion = c.fwVersion := rfl
@[simp] theorem setReg_fwFrom (c : Chip) (r : Reg) (i x v : Nat) : (c.setReg r i x v).fwFrom = c.fwFrom := rfl
@[simp] theorem setReg_hen (c : Chip) (r : Reg) (i x v : Nat) : (c.setReg r i x v).hen = c.hen := rfl
@[simp] theorem setReg_plan (c : Chip) (r : Reg) (i x v : Nat) : (c.setReg r i x v).plan = c.plan := rfl
@[simp] theorem setReg_planMram (c : Chip) (r : Reg) (i x v : Nat) : (c.setReg r i x v).planMram = c.planMram := rfl
@[simp] theorem setReg_slices (c : Chip) (r : Reg) (i x v : Nat) : (c.setReg r i x v).slices = c.slices := rfl
@[simp] theorem setReg_sliceOrder (c : Chip) (r : Reg) (i x v : Nat) : (c.setReg r i x v).sliceOrder = c.sliceOrder := rfl
@[simp] theorem setReg_sliceNums (c : Chip) (r : Reg) (i x v : Nat) : (c.setReg r i x v).sliceNums = c.sliceNums := rfl
@[simp] theorem setReg_heldAdmits (c : Chip) (r : Reg) (i x v : Nat) : (c.setReg r i x v).heldAdmits = c.heldAdmits := rfl
@[simp] theorem setReg_farOut (c : Chip) (r : Reg) (i x v : Nat) : (c.setReg r i x v).farOut = c.farOut := rfl
@[simp] theorem setReg_clusters (c : Chip) (r : Reg) (i x v : Nat) : (c.setReg r i x v).clusters = c.clusters := rfl
@[simp] theorem setReg_mgr (c : Chip) (r : Reg) (i x v : Nat) : (c.setReg r i x v).mgr = c.mgr := rfl
@[simp] theorem setReg_standby (c : Chip) (r : Reg) (i x v : Nat) : (c.setReg r i x v).standby = c.standby := rfl
@[simp] theorem setReg_time (c : Chip) (r : Reg) (i x v : Nat) : (c.setReg r i x v).time = c.time := rfl
@[simp] theorem setReg_grid (c : Chip) (r : Reg) (i x v : Nat) : (c.setReg r i x v).grid = c.grid := rfl
@[simp] theorem setReg_verifyDue (c : Chip) (r : Reg) (i x v : Nat) : (c.setReg r i x v).verifyDue = c.verifyDue := rfl
@[simp] theorem setReg_verify (c : Chip) (r : Reg) (i x v : Nat) : (c.setReg r i x v).verify = c.verify := rfl
@[simp] theorem setReg_circuitSeen (c : Chip) (r : Reg) (i x v : Nat) : (c.setReg r i x v).circuitSeen = c.circuitSeen := rfl
@[simp] theorem setReg_leases (c : Chip) (r : Reg) (i x v : Nat) : (c.setReg r i x v).leases = c.leases := rfl
@[simp] theorem setReg_parts (c : Chip) (r : Reg) (i x v : Nat) : (c.setReg r i x v).parts = c.parts := rfl
@[simp] theorem setReg_faults (c : Chip) (r : Reg) (i x v : Nat) : (c.setReg r i x v).faults = c.faults := rfl
@[simp] theorem setReg_devFaults (c : Chip) (r : Reg) (i x v : Nat) : (c.setReg r i x v).devFaults = c.devFaults := rfl
@[simp] theorem setReg_channels (c : Chip) (r : Reg) (i x v : Nat) : (c.setReg r i x v).channels = c.channels := rfl
@[simp] theorem setReg_lockKept (c : Chip) (r : Reg) (i x v : Nat) : (c.setReg r i x v).lockKept = c.lockKept := rfl
@[simp] theorem setReg_cutTxns (c : Chip) (r : Reg) (i x v : Nat) : (c.setReg r i x v).cutTxns = c.cutTxns := rfl
@[simp] theorem setReg_outPowered (c : Chip) (r : Reg) (i x v : Nat) : (c.setReg r i x v).outPowered = c.outPowered := rfl
@[simp] theorem setReg_reinstating (c : Chip) (r : Reg) (i x v : Nat) : (c.setReg r i x v).reinstating = c.reinstating := rfl
@[simp] theorem setReg_beats (c : Chip) (r : Reg) (i x v : Nat) : (c.setReg r i x v).beats = c.beats := rfl
@[simp] theorem setReg_down (c : Chip) (r : Reg) (i x v : Nat) : (c.setReg r i x v).down = c.down := rfl
@[simp] theorem setReg_blob (c : Chip) (r : Reg) (i x v : Nat) : (c.setReg r i x v).blob = c.blob := rfl
@[simp] theorem setReg_mram (c : Chip) (r : Reg) (i x v : Nat) : (c.setReg r i x v).mram = c.mram := rfl
@[simp] theorem setReg_dies (c : Chip) (r : Reg) (i x v : Nat) : (c.setReg r i x v).dies = c.dies := rfl
@[simp] theorem setReg_sensors (c : Chip) (r : Reg) (i x v : Nat) : (c.setReg r i x v).sensors = c.sensors := rfl
@[simp] theorem setReg_tjs (c : Chip) (r : Reg) (i x v : Nat) : (c.setReg r i x v).tjs = c.tjs := rfl
@[simp] theorem setReg_cool (c : Chip) (r : Reg) (i x v : Nat) : (c.setReg r i x v).cool = c.cool := rfl
@[simp] theorem setReg_tripped (c : Chip) (r : Reg) (i x v : Nat) : (c.setReg r i x v).tripped = c.tripped := rfl
@[simp] theorem setReg_readings (c : Chip) (r : Reg) (i x v : Nat) : (c.setReg r i x v).readings = c.readings := rfl
@[simp] theorem setReg_rails (c : Chip) (r : Reg) (i x v : Nat) : (c.setReg r i x v).rails = c.rails := rfl
@[simp] theorem setReg_railsAt (c : Chip) (r : Reg) (i x v : Nat) : (c.setReg r i x v).railsAt = c.railsAt := rfl
@[simp] theorem setReg_refLost (c : Chip) (r : Reg) (i x v : Nat) : (c.setReg r i x v).refLost = c.refLost := rfl

/-! countN -/

@[simp] theorem countN_now (c : Chip) (r : Reg) (i n x : Nat) : (c.countN r i n x).now = c.now := rfl
@[simp] theorem countN_stepped (c : Chip) (r : Reg) (i n x : Nat) : (c.countN r i n x).stepped = c.stepped := rfl
@[simp] theorem countN_out (c : Chip) (r : Reg) (i n x : Nat) : (c.countN r i n x).out = c.out := rfl
@[simp] theorem countN_freeCtr (c : Chip) (r : Reg) (i n x : Nat) : (c.countN r i n x).freeCtr = c.freeCtr := rfl
@[simp] theorem countN_latches (c : Chip) (r : Reg) (i n x : Nat) : (c.countN r i n x).latches = c.latches := rfl
@[simp] theorem countN_hostMem (c : Chip) (r : Reg) (i n x : Nat) : (c.countN r i n x).hostMem = c.hostMem := rfl
@[simp] theorem countN_hostPorts (c : Chip) (r : Reg) (i n x : Nat) : (c.countN r i n x).hostPorts = c.hostPorts := rfl
@[simp] theorem countN_phase (c : Chip) (r : Reg) (i n x : Nat) : (c.countN r i n x).phase = c.phase := rfl
@[simp] theorem countN_cmds (c : Chip) (r : Reg) (i n x : Nat) : (c.countN r i n x).cmds = c.cmds := rfl
@[simp] theorem countN_cmdSeq (c : Chip) (r : Reg) (i n x : Nat) : (c.countN r i n x).cmdSeq = c.cmdSeq := rfl
@[simp] theorem countN_agents (c : Chip) (r : Reg) (i n x : Nat) : (c.countN r i n x).agents = c.agents := rfl
@[simp] theorem countN_ctxs (c : Chip) (r : Reg) (i n x : Nat) : (c.countN r i n x).ctxs = c.ctxs := rfl
@[simp] theorem countN_confReleased (c : Chip) (r : Reg) (i n x : Nat) : (c.countN r i n x).confReleased = c.confReleased := rfl
@[simp] theorem countN_fwDigest (c : Chip) (r : Reg) (i n x : Nat) : (c.countN r i n x).fwDigest = c.fwDigest := rfl
@[simp] theorem countN_fwVersion (c : Chip) (r : Reg) (i n x : Nat) : (c.countN r i n x).fwVersion = c.fwVersion := rfl
@[simp] theorem countN_fwFrom (c : Chip) (r : Reg) (i n x : Nat) : (c.countN r i n x).fwFrom = c.fwFrom := rfl
@[simp] theorem countN_hen (c : Chip) (r : Reg) (i n x : Nat) : (c.countN r i n x).hen = c.hen := rfl
@[simp] theorem countN_plan (c : Chip) (r : Reg) (i n x : Nat) : (c.countN r i n x).plan = c.plan := rfl
@[simp] theorem countN_planMram (c : Chip) (r : Reg) (i n x : Nat) : (c.countN r i n x).planMram = c.planMram := rfl
@[simp] theorem countN_slices (c : Chip) (r : Reg) (i n x : Nat) : (c.countN r i n x).slices = c.slices := rfl
@[simp] theorem countN_sliceOrder (c : Chip) (r : Reg) (i n x : Nat) : (c.countN r i n x).sliceOrder = c.sliceOrder := rfl
@[simp] theorem countN_sliceNums (c : Chip) (r : Reg) (i n x : Nat) : (c.countN r i n x).sliceNums = c.sliceNums := rfl
@[simp] theorem countN_heldAdmits (c : Chip) (r : Reg) (i n x : Nat) : (c.countN r i n x).heldAdmits = c.heldAdmits := rfl
@[simp] theorem countN_farOut (c : Chip) (r : Reg) (i n x : Nat) : (c.countN r i n x).farOut = c.farOut := rfl
@[simp] theorem countN_clusters (c : Chip) (r : Reg) (i n x : Nat) : (c.countN r i n x).clusters = c.clusters := rfl
@[simp] theorem countN_mgr (c : Chip) (r : Reg) (i n x : Nat) : (c.countN r i n x).mgr = c.mgr := rfl
@[simp] theorem countN_standby (c : Chip) (r : Reg) (i n x : Nat) : (c.countN r i n x).standby = c.standby := rfl
@[simp] theorem countN_time (c : Chip) (r : Reg) (i n x : Nat) : (c.countN r i n x).time = c.time := rfl
@[simp] theorem countN_grid (c : Chip) (r : Reg) (i n x : Nat) : (c.countN r i n x).grid = c.grid := rfl
@[simp] theorem countN_verifyDue (c : Chip) (r : Reg) (i n x : Nat) : (c.countN r i n x).verifyDue = c.verifyDue := rfl
@[simp] theorem countN_verify (c : Chip) (r : Reg) (i n x : Nat) : (c.countN r i n x).verify = c.verify := rfl
@[simp] theorem countN_circuitSeen (c : Chip) (r : Reg) (i n x : Nat) : (c.countN r i n x).circuitSeen = c.circuitSeen := rfl
@[simp] theorem countN_leases (c : Chip) (r : Reg) (i n x : Nat) : (c.countN r i n x).leases = c.leases := rfl
@[simp] theorem countN_parts (c : Chip) (r : Reg) (i n x : Nat) : (c.countN r i n x).parts = c.parts := rfl
@[simp] theorem countN_faults (c : Chip) (r : Reg) (i n x : Nat) : (c.countN r i n x).faults = c.faults := rfl
@[simp] theorem countN_devFaults (c : Chip) (r : Reg) (i n x : Nat) : (c.countN r i n x).devFaults = c.devFaults := rfl
@[simp] theorem countN_channels (c : Chip) (r : Reg) (i n x : Nat) : (c.countN r i n x).channels = c.channels := rfl
@[simp] theorem countN_lockKept (c : Chip) (r : Reg) (i n x : Nat) : (c.countN r i n x).lockKept = c.lockKept := rfl
@[simp] theorem countN_cutTxns (c : Chip) (r : Reg) (i n x : Nat) : (c.countN r i n x).cutTxns = c.cutTxns := rfl
@[simp] theorem countN_outPowered (c : Chip) (r : Reg) (i n x : Nat) : (c.countN r i n x).outPowered = c.outPowered := rfl
@[simp] theorem countN_reinstating (c : Chip) (r : Reg) (i n x : Nat) : (c.countN r i n x).reinstating = c.reinstating := rfl
@[simp] theorem countN_beats (c : Chip) (r : Reg) (i n x : Nat) : (c.countN r i n x).beats = c.beats := rfl
@[simp] theorem countN_down (c : Chip) (r : Reg) (i n x : Nat) : (c.countN r i n x).down = c.down := rfl
@[simp] theorem countN_blob (c : Chip) (r : Reg) (i n x : Nat) : (c.countN r i n x).blob = c.blob := rfl
@[simp] theorem countN_mram (c : Chip) (r : Reg) (i n x : Nat) : (c.countN r i n x).mram = c.mram := rfl
@[simp] theorem countN_dies (c : Chip) (r : Reg) (i n x : Nat) : (c.countN r i n x).dies = c.dies := rfl
@[simp] theorem countN_sensors (c : Chip) (r : Reg) (i n x : Nat) : (c.countN r i n x).sensors = c.sensors := rfl
@[simp] theorem countN_tjs (c : Chip) (r : Reg) (i n x : Nat) : (c.countN r i n x).tjs = c.tjs := rfl
@[simp] theorem countN_cool (c : Chip) (r : Reg) (i n x : Nat) : (c.countN r i n x).cool = c.cool := rfl
@[simp] theorem countN_tripped (c : Chip) (r : Reg) (i n x : Nat) : (c.countN r i n x).tripped = c.tripped := rfl
@[simp] theorem countN_readings (c : Chip) (r : Reg) (i n x : Nat) : (c.countN r i n x).readings = c.readings := rfl
@[simp] theorem countN_rails (c : Chip) (r : Reg) (i n x : Nat) : (c.countN r i n x).rails = c.rails := rfl
@[simp] theorem countN_railsAt (c : Chip) (r : Reg) (i n x : Nat) : (c.countN r i n x).railsAt = c.railsAt := rfl
@[simp] theorem countN_refLost (c : Chip) (r : Reg) (i n x : Nat) : (c.countN r i n x).refLost = c.refLost := rfl

/-! modPart -/

@[simp] theorem modPart_now (c : Chip) (p : Nat) (f : Part → Part) : (c.modPart p f).now = c.now := rfl
@[simp] theorem modPart_stepped (c : Chip) (p : Nat) (f : Part → Part) : (c.modPart p f).stepped = c.stepped := rfl
@[simp] theorem modPart_out (c : Chip) (p : Nat) (f : Part → Part) : (c.modPart p f).out = c.out := rfl
@[simp] theorem modPart_freeCtr (c : Chip) (p : Nat) (f : Part → Part) : (c.modPart p f).freeCtr = c.freeCtr := rfl
@[simp] theorem modPart_regs (c : Chip) (p : Nat) (f : Part → Part) : (c.modPart p f).regs = c.regs := rfl
@[simp] theorem modPart_latches (c : Chip) (p : Nat) (f : Part → Part) : (c.modPart p f).latches = c.latches := rfl
@[simp] theorem modPart_hostMem (c : Chip) (p : Nat) (f : Part → Part) : (c.modPart p f).hostMem = c.hostMem := rfl
@[simp] theorem modPart_hostPorts (c : Chip) (p : Nat) (f : Part → Part) : (c.modPart p f).hostPorts = c.hostPorts := rfl
@[simp] theorem modPart_phase (c : Chip) (p : Nat) (f : Part → Part) : (c.modPart p f).phase = c.phase := rfl
@[simp] theorem modPart_cmds (c : Chip) (p : Nat) (f : Part → Part) : (c.modPart p f).cmds = c.cmds := rfl
@[simp] theorem modPart_cmdSeq (c : Chip) (p : Nat) (f : Part → Part) : (c.modPart p f).cmdSeq = c.cmdSeq := rfl
@[simp] theorem modPart_agents (c : Chip) (p : Nat) (f : Part → Part) : (c.modPart p f).agents = c.agents := rfl
@[simp] theorem modPart_ctxs (c : Chip) (p : Nat) (f : Part → Part) : (c.modPart p f).ctxs = c.ctxs := rfl
@[simp] theorem modPart_confReleased (c : Chip) (p : Nat) (f : Part → Part) : (c.modPart p f).confReleased = c.confReleased := rfl
@[simp] theorem modPart_fwDigest (c : Chip) (p : Nat) (f : Part → Part) : (c.modPart p f).fwDigest = c.fwDigest := rfl
@[simp] theorem modPart_fwVersion (c : Chip) (p : Nat) (f : Part → Part) : (c.modPart p f).fwVersion = c.fwVersion := rfl
@[simp] theorem modPart_fwFrom (c : Chip) (p : Nat) (f : Part → Part) : (c.modPart p f).fwFrom = c.fwFrom := rfl
@[simp] theorem modPart_hen (c : Chip) (p : Nat) (f : Part → Part) : (c.modPart p f).hen = c.hen := rfl
@[simp] theorem modPart_plan (c : Chip) (p : Nat) (f : Part → Part) : (c.modPart p f).plan = c.plan := rfl
@[simp] theorem modPart_planMram (c : Chip) (p : Nat) (f : Part → Part) : (c.modPart p f).planMram = c.planMram := rfl
@[simp] theorem modPart_slices (c : Chip) (p : Nat) (f : Part → Part) : (c.modPart p f).slices = c.slices := rfl
@[simp] theorem modPart_sliceOrder (c : Chip) (p : Nat) (f : Part → Part) : (c.modPart p f).sliceOrder = c.sliceOrder := rfl
@[simp] theorem modPart_sliceNums (c : Chip) (p : Nat) (f : Part → Part) : (c.modPart p f).sliceNums = c.sliceNums := rfl
@[simp] theorem modPart_heldAdmits (c : Chip) (p : Nat) (f : Part → Part) : (c.modPart p f).heldAdmits = c.heldAdmits := rfl
@[simp] theorem modPart_farOut (c : Chip) (p : Nat) (f : Part → Part) : (c.modPart p f).farOut = c.farOut := rfl
@[simp] theorem modPart_clusters (c : Chip) (p : Nat) (f : Part → Part) : (c.modPart p f).clusters = c.clusters := rfl
@[simp] theorem modPart_mgr (c : Chip) (p : Nat) (f : Part → Part) : (c.modPart p f).mgr = c.mgr := rfl
@[simp] theorem modPart_standby (c : Chip) (p : Nat) (f : Part → Part) : (c.modPart p f).standby = c.standby := rfl
@[simp] theorem modPart_time (c : Chip) (p : Nat) (f : Part → Part) : (c.modPart p f).time = c.time := rfl
@[simp] theorem modPart_grid (c : Chip) (p : Nat) (f : Part → Part) : (c.modPart p f).grid = c.grid := rfl
@[simp] theorem modPart_verifyDue (c : Chip) (p : Nat) (f : Part → Part) : (c.modPart p f).verifyDue = c.verifyDue := rfl
@[simp] theorem modPart_verify (c : Chip) (p : Nat) (f : Part → Part) : (c.modPart p f).verify = c.verify := rfl
@[simp] theorem modPart_circuitSeen (c : Chip) (p : Nat) (f : Part → Part) : (c.modPart p f).circuitSeen = c.circuitSeen := rfl
@[simp] theorem modPart_leases (c : Chip) (p : Nat) (f : Part → Part) : (c.modPart p f).leases = c.leases := rfl
@[simp] theorem modPart_faults (c : Chip) (p : Nat) (f : Part → Part) : (c.modPart p f).faults = c.faults := rfl
@[simp] theorem modPart_devFaults (c : Chip) (p : Nat) (f : Part → Part) : (c.modPart p f).devFaults = c.devFaults := rfl
@[simp] theorem modPart_channels (c : Chip) (p : Nat) (f : Part → Part) : (c.modPart p f).channels = c.channels := rfl
@[simp] theorem modPart_lockKept (c : Chip) (p : Nat) (f : Part → Part) : (c.modPart p f).lockKept = c.lockKept := rfl
@[simp] theorem modPart_cutTxns (c : Chip) (p : Nat) (f : Part → Part) : (c.modPart p f).cutTxns = c.cutTxns := rfl
@[simp] theorem modPart_outPowered (c : Chip) (p : Nat) (f : Part → Part) : (c.modPart p f).outPowered = c.outPowered := rfl
@[simp] theorem modPart_reinstating (c : Chip) (p : Nat) (f : Part → Part) : (c.modPart p f).reinstating = c.reinstating := rfl
@[simp] theorem modPart_beats (c : Chip) (p : Nat) (f : Part → Part) : (c.modPart p f).beats = c.beats := rfl
@[simp] theorem modPart_down (c : Chip) (p : Nat) (f : Part → Part) : (c.modPart p f).down = c.down := rfl
@[simp] theorem modPart_blob (c : Chip) (p : Nat) (f : Part → Part) : (c.modPart p f).blob = c.blob := rfl
@[simp] theorem modPart_mram (c : Chip) (p : Nat) (f : Part → Part) : (c.modPart p f).mram = c.mram := rfl
@[simp] theorem modPart_dies (c : Chip) (p : Nat) (f : Part → Part) : (c.modPart p f).dies = c.dies := rfl
@[simp] theorem modPart_sensors (c : Chip) (p : Nat) (f : Part → Part) : (c.modPart p f).sensors = c.sensors := rfl
@[simp] theorem modPart_tjs (c : Chip) (p : Nat) (f : Part → Part) : (c.modPart p f).tjs = c.tjs := rfl
@[simp] theorem modPart_cool (c : Chip) (p : Nat) (f : Part → Part) : (c.modPart p f).cool = c.cool := rfl
@[simp] theorem modPart_tripped (c : Chip) (p : Nat) (f : Part → Part) : (c.modPart p f).tripped = c.tripped := rfl
@[simp] theorem modPart_readings (c : Chip) (p : Nat) (f : Part → Part) : (c.modPart p f).readings = c.readings := rfl
@[simp] theorem modPart_rails (c : Chip) (p : Nat) (f : Part → Part) : (c.modPart p f).rails = c.rails := rfl
@[simp] theorem modPart_railsAt (c : Chip) (p : Nat) (f : Part → Part) : (c.modPart p f).railsAt = c.railsAt := rfl
@[simp] theorem modPart_refLost (c : Chip) (p : Nat) (f : Part → Part) : (c.modPart p f).refLost = c.refLost := rfl

/-! modCtx -/

@[simp] theorem modCtx_now (c : Chip) (n : Nat) (f : Ctx → Ctx) : (c.modCtx n f).now = c.now := rfl
@[simp] theorem modCtx_stepped (c : Chip) (n : Nat) (f : Ctx → Ctx) : (c.modCtx n f).stepped = c.stepped := rfl
@[simp] theorem modCtx_out (c : Chip) (n : Nat) (f : Ctx → Ctx) : (c.modCtx n f).out = c.out := rfl
@[simp] theorem modCtx_freeCtr (c : Chip) (n : Nat) (f : Ctx → Ctx) : (c.modCtx n f).freeCtr = c.freeCtr := rfl
@[simp] theorem modCtx_regs (c : Chip) (n : Nat) (f : Ctx → Ctx) : (c.modCtx n f).regs = c.regs := rfl
@[simp] theorem modCtx_latches (c : Chip) (n : Nat) (f : Ctx → Ctx) : (c.modCtx n f).latches = c.latches := rfl
@[simp] theorem modCtx_hostMem (c : Chip) (n : Nat) (f : Ctx → Ctx) : (c.modCtx n f).hostMem = c.hostMem := rfl
@[simp] theorem modCtx_hostPorts (c : Chip) (n : Nat) (f : Ctx → Ctx) : (c.modCtx n f).hostPorts = c.hostPorts := rfl
@[simp] theorem modCtx_phase (c : Chip) (n : Nat) (f : Ctx → Ctx) : (c.modCtx n f).phase = c.phase := rfl
@[simp] theorem modCtx_cmds (c : Chip) (n : Nat) (f : Ctx → Ctx) : (c.modCtx n f).cmds = c.cmds := rfl
@[simp] theorem modCtx_cmdSeq (c : Chip) (n : Nat) (f : Ctx → Ctx) : (c.modCtx n f).cmdSeq = c.cmdSeq := rfl
@[simp] theorem modCtx_agents (c : Chip) (n : Nat) (f : Ctx → Ctx) : (c.modCtx n f).agents = c.agents := rfl
@[simp] theorem modCtx_confReleased (c : Chip) (n : Nat) (f : Ctx → Ctx) : (c.modCtx n f).confReleased = c.confReleased := rfl
@[simp] theorem modCtx_fwDigest (c : Chip) (n : Nat) (f : Ctx → Ctx) : (c.modCtx n f).fwDigest = c.fwDigest := rfl
@[simp] theorem modCtx_fwVersion (c : Chip) (n : Nat) (f : Ctx → Ctx) : (c.modCtx n f).fwVersion = c.fwVersion := rfl
@[simp] theorem modCtx_fwFrom (c : Chip) (n : Nat) (f : Ctx → Ctx) : (c.modCtx n f).fwFrom = c.fwFrom := rfl
@[simp] theorem modCtx_hen (c : Chip) (n : Nat) (f : Ctx → Ctx) : (c.modCtx n f).hen = c.hen := rfl
@[simp] theorem modCtx_plan (c : Chip) (n : Nat) (f : Ctx → Ctx) : (c.modCtx n f).plan = c.plan := rfl
@[simp] theorem modCtx_planMram (c : Chip) (n : Nat) (f : Ctx → Ctx) : (c.modCtx n f).planMram = c.planMram := rfl
@[simp] theorem modCtx_slices (c : Chip) (n : Nat) (f : Ctx → Ctx) : (c.modCtx n f).slices = c.slices := rfl
@[simp] theorem modCtx_sliceOrder (c : Chip) (n : Nat) (f : Ctx → Ctx) : (c.modCtx n f).sliceOrder = c.sliceOrder := rfl
@[simp] theorem modCtx_sliceNums (c : Chip) (n : Nat) (f : Ctx → Ctx) : (c.modCtx n f).sliceNums = c.sliceNums := rfl
@[simp] theorem modCtx_heldAdmits (c : Chip) (n : Nat) (f : Ctx → Ctx) : (c.modCtx n f).heldAdmits = c.heldAdmits := rfl
@[simp] theorem modCtx_farOut (c : Chip) (n : Nat) (f : Ctx → Ctx) : (c.modCtx n f).farOut = c.farOut := rfl
@[simp] theorem modCtx_clusters (c : Chip) (n : Nat) (f : Ctx → Ctx) : (c.modCtx n f).clusters = c.clusters := rfl
@[simp] theorem modCtx_mgr (c : Chip) (n : Nat) (f : Ctx → Ctx) : (c.modCtx n f).mgr = c.mgr := rfl
@[simp] theorem modCtx_standby (c : Chip) (n : Nat) (f : Ctx → Ctx) : (c.modCtx n f).standby = c.standby := rfl
@[simp] theorem modCtx_time (c : Chip) (n : Nat) (f : Ctx → Ctx) : (c.modCtx n f).time = c.time := rfl
@[simp] theorem modCtx_grid (c : Chip) (n : Nat) (f : Ctx → Ctx) : (c.modCtx n f).grid = c.grid := rfl
@[simp] theorem modCtx_verifyDue (c : Chip) (n : Nat) (f : Ctx → Ctx) : (c.modCtx n f).verifyDue = c.verifyDue := rfl
@[simp] theorem modCtx_verify (c : Chip) (n : Nat) (f : Ctx → Ctx) : (c.modCtx n f).verify = c.verify := rfl
@[simp] theorem modCtx_circuitSeen (c : Chip) (n : Nat) (f : Ctx → Ctx) : (c.modCtx n f).circuitSeen = c.circuitSeen := rfl
@[simp] theorem modCtx_leases (c : Chip) (n : Nat) (f : Ctx → Ctx) : (c.modCtx n f).leases = c.leases := rfl
@[simp] theorem modCtx_parts (c : Chip) (n : Nat) (f : Ctx → Ctx) : (c.modCtx n f).parts = c.parts := rfl
@[simp] theorem modCtx_faults (c : Chip) (n : Nat) (f : Ctx → Ctx) : (c.modCtx n f).faults = c.faults := rfl
@[simp] theorem modCtx_devFaults (c : Chip) (n : Nat) (f : Ctx → Ctx) : (c.modCtx n f).devFaults = c.devFaults := rfl
@[simp] theorem modCtx_channels (c : Chip) (n : Nat) (f : Ctx → Ctx) : (c.modCtx n f).channels = c.channels := rfl
@[simp] theorem modCtx_lockKept (c : Chip) (n : Nat) (f : Ctx → Ctx) : (c.modCtx n f).lockKept = c.lockKept := rfl
@[simp] theorem modCtx_cutTxns (c : Chip) (n : Nat) (f : Ctx → Ctx) : (c.modCtx n f).cutTxns = c.cutTxns := rfl
@[simp] theorem modCtx_outPowered (c : Chip) (n : Nat) (f : Ctx → Ctx) : (c.modCtx n f).outPowered = c.outPowered := rfl
@[simp] theorem modCtx_reinstating (c : Chip) (n : Nat) (f : Ctx → Ctx) : (c.modCtx n f).reinstating = c.reinstating := rfl
@[simp] theorem modCtx_beats (c : Chip) (n : Nat) (f : Ctx → Ctx) : (c.modCtx n f).beats = c.beats := rfl
@[simp] theorem modCtx_down (c : Chip) (n : Nat) (f : Ctx → Ctx) : (c.modCtx n f).down = c.down := rfl
@[simp] theorem modCtx_blob (c : Chip) (n : Nat) (f : Ctx → Ctx) : (c.modCtx n f).blob = c.blob := rfl
@[simp] theorem modCtx_mram (c : Chip) (n : Nat) (f : Ctx → Ctx) : (c.modCtx n f).mram = c.mram := rfl
@[simp] theorem modCtx_dies (c : Chip) (n : Nat) (f : Ctx → Ctx) : (c.modCtx n f).dies = c.dies := rfl
@[simp] theorem modCtx_sensors (c : Chip) (n : Nat) (f : Ctx → Ctx) : (c.modCtx n f).sensors = c.sensors := rfl
@[simp] theorem modCtx_tjs (c : Chip) (n : Nat) (f : Ctx → Ctx) : (c.modCtx n f).tjs = c.tjs := rfl
@[simp] theorem modCtx_cool (c : Chip) (n : Nat) (f : Ctx → Ctx) : (c.modCtx n f).cool = c.cool := rfl
@[simp] theorem modCtx_tripped (c : Chip) (n : Nat) (f : Ctx → Ctx) : (c.modCtx n f).tripped = c.tripped := rfl
@[simp] theorem modCtx_readings (c : Chip) (n : Nat) (f : Ctx → Ctx) : (c.modCtx n f).readings = c.readings := rfl
@[simp] theorem modCtx_rails (c : Chip) (n : Nat) (f : Ctx → Ctx) : (c.modCtx n f).rails = c.rails := rfl
@[simp] theorem modCtx_railsAt (c : Chip) (n : Nat) (f : Ctx → Ctx) : (c.modCtx n f).railsAt = c.railsAt := rfl
@[simp] theorem modCtx_refLost (c : Chip) (n : Nat) (f : Ctx → Ctx) : (c.modCtx n f).refLost = c.refLost := rfl

/-! modHostPort -/

@[simp] theorem modHostPort_now (c : Chip) (n : Nat) (f : HostPort → HostPort) : (c.modHostPort n f).now = c.now := rfl
@[simp] theorem modHostPort_stepped (c : Chip) (n : Nat) (f : HostPort → HostPort) : (c.modHostPort n f).stepped = c.stepped := rfl
@[simp] theorem modHostPort_out (c : Chip) (n : Nat) (f : HostPort → HostPort) : (c.modHostPort n f).out = c.out := rfl
@[simp] theorem modHostPort_freeCtr (c : Chip) (n : Nat) (f : HostPort → HostPort) : (c.modHostPort n f).freeCtr = c.freeCtr := rfl
@[simp] theorem modHostPort_regs (c : Chip) (n : Nat) (f : HostPort → HostPort) : (c.modHostPort n f).regs = c.regs := rfl
@[simp] theorem modHostPort_latches (c : Chip) (n : Nat) (f : HostPort → HostPort) : (c.modHostPort n f).latches = c.latches := rfl
@[simp] theorem modHostPort_hostMem (c : Chip) (n : Nat) (f : HostPort → HostPort) : (c.modHostPort n f).hostMem = c.hostMem := rfl
@[simp] theorem modHostPort_phase (c : Chip) (n : Nat) (f : HostPort → HostPort) : (c.modHostPort n f).phase = c.phase := rfl
@[simp] theorem modHostPort_cmds (c : Chip) (n : Nat) (f : HostPort → HostPort) : (c.modHostPort n f).cmds = c.cmds := rfl
@[simp] theorem modHostPort_cmdSeq (c : Chip) (n : Nat) (f : HostPort → HostPort) : (c.modHostPort n f).cmdSeq = c.cmdSeq := rfl
@[simp] theorem modHostPort_agents (c : Chip) (n : Nat) (f : HostPort → HostPort) : (c.modHostPort n f).agents = c.agents := rfl
@[simp] theorem modHostPort_ctxs (c : Chip) (n : Nat) (f : HostPort → HostPort) : (c.modHostPort n f).ctxs = c.ctxs := rfl
@[simp] theorem modHostPort_confReleased (c : Chip) (n : Nat) (f : HostPort → HostPort) : (c.modHostPort n f).confReleased = c.confReleased := rfl
@[simp] theorem modHostPort_fwDigest (c : Chip) (n : Nat) (f : HostPort → HostPort) : (c.modHostPort n f).fwDigest = c.fwDigest := rfl
@[simp] theorem modHostPort_fwVersion (c : Chip) (n : Nat) (f : HostPort → HostPort) : (c.modHostPort n f).fwVersion = c.fwVersion := rfl
@[simp] theorem modHostPort_fwFrom (c : Chip) (n : Nat) (f : HostPort → HostPort) : (c.modHostPort n f).fwFrom = c.fwFrom := rfl
@[simp] theorem modHostPort_hen (c : Chip) (n : Nat) (f : HostPort → HostPort) : (c.modHostPort n f).hen = c.hen := rfl
@[simp] theorem modHostPort_plan (c : Chip) (n : Nat) (f : HostPort → HostPort) : (c.modHostPort n f).plan = c.plan := rfl
@[simp] theorem modHostPort_planMram (c : Chip) (n : Nat) (f : HostPort → HostPort) : (c.modHostPort n f).planMram = c.planMram := rfl
@[simp] theorem modHostPort_slices (c : Chip) (n : Nat) (f : HostPort → HostPort) : (c.modHostPort n f).slices = c.slices := rfl
@[simp] theorem modHostPort_sliceOrder (c : Chip) (n : Nat) (f : HostPort → HostPort) : (c.modHostPort n f).sliceOrder = c.sliceOrder := rfl
@[simp] theorem modHostPort_sliceNums (c : Chip) (n : Nat) (f : HostPort → HostPort) : (c.modHostPort n f).sliceNums = c.sliceNums := rfl
@[simp] theorem modHostPort_heldAdmits (c : Chip) (n : Nat) (f : HostPort → HostPort) : (c.modHostPort n f).heldAdmits = c.heldAdmits := rfl
@[simp] theorem modHostPort_farOut (c : Chip) (n : Nat) (f : HostPort → HostPort) : (c.modHostPort n f).farOut = c.farOut := rfl
@[simp] theorem modHostPort_clusters (c : Chip) (n : Nat) (f : HostPort → HostPort) : (c.modHostPort n f).clusters = c.clusters := rfl
@[simp] theorem modHostPort_mgr (c : Chip) (n : Nat) (f : HostPort → HostPort) : (c.modHostPort n f).mgr = c.mgr := rfl
@[simp] theorem modHostPort_standby (c : Chip) (n : Nat) (f : HostPort → HostPort) : (c.modHostPort n f).standby = c.standby := rfl
@[simp] theorem modHostPort_time (c : Chip) (n : Nat) (f : HostPort → HostPort) : (c.modHostPort n f).time = c.time := rfl
@[simp] theorem modHostPort_grid (c : Chip) (n : Nat) (f : HostPort → HostPort) : (c.modHostPort n f).grid = c.grid := rfl
@[simp] theorem modHostPort_verifyDue (c : Chip) (n : Nat) (f : HostPort → HostPort) : (c.modHostPort n f).verifyDue = c.verifyDue := rfl
@[simp] theorem modHostPort_verify (c : Chip) (n : Nat) (f : HostPort → HostPort) : (c.modHostPort n f).verify = c.verify := rfl
@[simp] theorem modHostPort_circuitSeen (c : Chip) (n : Nat) (f : HostPort → HostPort) : (c.modHostPort n f).circuitSeen = c.circuitSeen := rfl
@[simp] theorem modHostPort_leases (c : Chip) (n : Nat) (f : HostPort → HostPort) : (c.modHostPort n f).leases = c.leases := rfl
@[simp] theorem modHostPort_parts (c : Chip) (n : Nat) (f : HostPort → HostPort) : (c.modHostPort n f).parts = c.parts := rfl
@[simp] theorem modHostPort_faults (c : Chip) (n : Nat) (f : HostPort → HostPort) : (c.modHostPort n f).faults = c.faults := rfl
@[simp] theorem modHostPort_devFaults (c : Chip) (n : Nat) (f : HostPort → HostPort) : (c.modHostPort n f).devFaults = c.devFaults := rfl
@[simp] theorem modHostPort_channels (c : Chip) (n : Nat) (f : HostPort → HostPort) : (c.modHostPort n f).channels = c.channels := rfl
@[simp] theorem modHostPort_lockKept (c : Chip) (n : Nat) (f : HostPort → HostPort) : (c.modHostPort n f).lockKept = c.lockKept := rfl
@[simp] theorem modHostPort_cutTxns (c : Chip) (n : Nat) (f : HostPort → HostPort) : (c.modHostPort n f).cutTxns = c.cutTxns := rfl
@[simp] theorem modHostPort_outPowered (c : Chip) (n : Nat) (f : HostPort → HostPort) : (c.modHostPort n f).outPowered = c.outPowered := rfl
@[simp] theorem modHostPort_reinstating (c : Chip) (n : Nat) (f : HostPort → HostPort) : (c.modHostPort n f).reinstating = c.reinstating := rfl
@[simp] theorem modHostPort_beats (c : Chip) (n : Nat) (f : HostPort → HostPort) : (c.modHostPort n f).beats = c.beats := rfl
@[simp] theorem modHostPort_down (c : Chip) (n : Nat) (f : HostPort → HostPort) : (c.modHostPort n f).down = c.down := rfl
@[simp] theorem modHostPort_blob (c : Chip) (n : Nat) (f : HostPort → HostPort) : (c.modHostPort n f).blob = c.blob := rfl
@[simp] theorem modHostPort_mram (c : Chip) (n : Nat) (f : HostPort → HostPort) : (c.modHostPort n f).mram = c.mram := rfl
@[simp] theorem modHostPort_dies (c : Chip) (n : Nat) (f : HostPort → HostPort) : (c.modHostPort n f).dies = c.dies := rfl
@[simp] theorem modHostPort_sensors (c : Chip) (n : Nat) (f : HostPort → HostPort) : (c.modHostPort n f).sensors = c.sensors := rfl
@[simp] theorem modHostPort_tjs (c : Chip) (n : Nat) (f : HostPort → HostPort) : (c.modHostPort n f).tjs = c.tjs := rfl
@[simp] theorem modHostPort_cool (c : Chip) (n : Nat) (f : HostPort → HostPort) : (c.modHostPort n f).cool = c.cool := rfl
@[simp] theorem modHostPort_tripped (c : Chip) (n : Nat) (f : HostPort → HostPort) : (c.modHostPort n f).tripped = c.tripped := rfl
@[simp] theorem modHostPort_readings (c : Chip) (n : Nat) (f : HostPort → HostPort) : (c.modHostPort n f).readings = c.readings := rfl
@[simp] theorem modHostPort_rails (c : Chip) (n : Nat) (f : HostPort → HostPort) : (c.modHostPort n f).rails = c.rails := rfl
@[simp] theorem modHostPort_railsAt (c : Chip) (n : Nat) (f : HostPort → HostPort) : (c.modHostPort n f).railsAt = c.railsAt := rfl
@[simp] theorem modHostPort_refLost (c : Chip) (n : Nat) (f : HostPort → HostPort) : (c.modHostPort n f).refLost = c.refLost := rfl

/-! setAgent -/

@[simp] theorem setAgent_now (c : Chip) (u : UnitId) (a : Agent) : (c.setAgent u a).now = c.now := rfl
@[simp] theorem setAgent_stepped (c : Chip) (u : UnitId) (a : Agent) : (c.setAgent u a).stepped = c.stepped := rfl
@[simp] theorem setAgent_out (c : Chip) (u : UnitId) (a : Agent) : (c.setAgent u a).out = c.out := rfl
@[simp] theorem setAgent_freeCtr (c : Chip) (u : UnitId) (a : Agent) : (c.setAgent u a).freeCtr = c.freeCtr := rfl
@[simp] theorem setAgent_regs (c : Chip) (u : UnitId) (a : Agent) : (c.setAgent u a).regs = c.regs := rfl
@[simp] theorem setAgent_latches (c : Chip) (u : UnitId) (a : Agent) : (c.setAgent u a).latches = c.latches := rfl
@[simp] theorem setAgent_hostMem (c : Chip) (u : UnitId) (a : Agent) : (c.setAgent u a).hostMem = c.hostMem := rfl
@[simp] theorem setAgent_hostPorts (c : Chip) (u : UnitId) (a : Agent) : (c.setAgent u a).hostPorts = c.hostPorts := rfl
@[simp] theorem setAgent_phase (c : Chip) (u : UnitId) (a : Agent) : (c.setAgent u a).phase = c.phase := rfl
@[simp] theorem setAgent_cmds (c : Chip) (u : UnitId) (a : Agent) : (c.setAgent u a).cmds = c.cmds := rfl
@[simp] theorem setAgent_cmdSeq (c : Chip) (u : UnitId) (a : Agent) : (c.setAgent u a).cmdSeq = c.cmdSeq := rfl
@[simp] theorem setAgent_ctxs (c : Chip) (u : UnitId) (a : Agent) : (c.setAgent u a).ctxs = c.ctxs := rfl
@[simp] theorem setAgent_confReleased (c : Chip) (u : UnitId) (a : Agent) : (c.setAgent u a).confReleased = c.confReleased := rfl
@[simp] theorem setAgent_fwDigest (c : Chip) (u : UnitId) (a : Agent) : (c.setAgent u a).fwDigest = c.fwDigest := rfl
@[simp] theorem setAgent_fwVersion (c : Chip) (u : UnitId) (a : Agent) : (c.setAgent u a).fwVersion = c.fwVersion := rfl
@[simp] theorem setAgent_fwFrom (c : Chip) (u : UnitId) (a : Agent) : (c.setAgent u a).fwFrom = c.fwFrom := rfl
@[simp] theorem setAgent_hen (c : Chip) (u : UnitId) (a : Agent) : (c.setAgent u a).hen = c.hen := rfl
@[simp] theorem setAgent_plan (c : Chip) (u : UnitId) (a : Agent) : (c.setAgent u a).plan = c.plan := rfl
@[simp] theorem setAgent_planMram (c : Chip) (u : UnitId) (a : Agent) : (c.setAgent u a).planMram = c.planMram := rfl
@[simp] theorem setAgent_slices (c : Chip) (u : UnitId) (a : Agent) : (c.setAgent u a).slices = c.slices := rfl
@[simp] theorem setAgent_sliceOrder (c : Chip) (u : UnitId) (a : Agent) : (c.setAgent u a).sliceOrder = c.sliceOrder := rfl
@[simp] theorem setAgent_sliceNums (c : Chip) (u : UnitId) (a : Agent) : (c.setAgent u a).sliceNums = c.sliceNums := rfl
@[simp] theorem setAgent_heldAdmits (c : Chip) (u : UnitId) (a : Agent) : (c.setAgent u a).heldAdmits = c.heldAdmits := rfl
@[simp] theorem setAgent_farOut (c : Chip) (u : UnitId) (a : Agent) : (c.setAgent u a).farOut = c.farOut := rfl
@[simp] theorem setAgent_clusters (c : Chip) (u : UnitId) (a : Agent) : (c.setAgent u a).clusters = c.clusters := rfl
@[simp] theorem setAgent_mgr (c : Chip) (u : UnitId) (a : Agent) : (c.setAgent u a).mgr = c.mgr := rfl
@[simp] theorem setAgent_standby (c : Chip) (u : UnitId) (a : Agent) : (c.setAgent u a).standby = c.standby := rfl
@[simp] theorem setAgent_time (c : Chip) (u : UnitId) (a : Agent) : (c.setAgent u a).time = c.time := rfl
@[simp] theorem setAgent_grid (c : Chip) (u : UnitId) (a : Agent) : (c.setAgent u a).grid = c.grid := rfl
@[simp] theorem setAgent_verifyDue (c : Chip) (u : UnitId) (a : Agent) : (c.setAgent u a).verifyDue = c.verifyDue := rfl
@[simp] theorem setAgent_verify (c : Chip) (u : UnitId) (a : Agent) : (c.setAgent u a).verify = c.verify := rfl
@[simp] theorem setAgent_circuitSeen (c : Chip) (u : UnitId) (a : Agent) : (c.setAgent u a).circuitSeen = c.circuitSeen := rfl
@[simp] theorem setAgent_leases (c : Chip) (u : UnitId) (a : Agent) : (c.setAgent u a).leases = c.leases := rfl
@[simp] theorem setAgent_parts (c : Chip) (u : UnitId) (a : Agent) : (c.setAgent u a).parts = c.parts := rfl
@[simp] theorem setAgent_faults (c : Chip) (u : UnitId) (a : Agent) : (c.setAgent u a).faults = c.faults := rfl
@[simp] theorem setAgent_devFaults (c : Chip) (u : UnitId) (a : Agent) : (c.setAgent u a).devFaults = c.devFaults := rfl
@[simp] theorem setAgent_channels (c : Chip) (u : UnitId) (a : Agent) : (c.setAgent u a).channels = c.channels := rfl
@[simp] theorem setAgent_lockKept (c : Chip) (u : UnitId) (a : Agent) : (c.setAgent u a).lockKept = c.lockKept := rfl
@[simp] theorem setAgent_cutTxns (c : Chip) (u : UnitId) (a : Agent) : (c.setAgent u a).cutTxns = c.cutTxns := rfl
@[simp] theorem setAgent_outPowered (c : Chip) (u : UnitId) (a : Agent) : (c.setAgent u a).outPowered = c.outPowered := rfl
@[simp] theorem setAgent_reinstating (c : Chip) (u : UnitId) (a : Agent) : (c.setAgent u a).reinstating = c.reinstating := rfl
@[simp] theorem setAgent_beats (c : Chip) (u : UnitId) (a : Agent) : (c.setAgent u a).beats = c.beats := rfl
@[simp] theorem setAgent_down (c : Chip) (u : UnitId) (a : Agent) : (c.setAgent u a).down = c.down := rfl
@[simp] theorem setAgent_blob (c : Chip) (u : UnitId) (a : Agent) : (c.setAgent u a).blob = c.blob := rfl
@[simp] theorem setAgent_mram (c : Chip) (u : UnitId) (a : Agent) : (c.setAgent u a).mram = c.mram := rfl
@[simp] theorem setAgent_dies (c : Chip) (u : UnitId) (a : Agent) : (c.setAgent u a).dies = c.dies := rfl
@[simp] theorem setAgent_sensors (c : Chip) (u : UnitId) (a : Agent) : (c.setAgent u a).sensors = c.sensors := rfl
@[simp] theorem setAgent_tjs (c : Chip) (u : UnitId) (a : Agent) : (c.setAgent u a).tjs = c.tjs := rfl
@[simp] theorem setAgent_cool (c : Chip) (u : UnitId) (a : Agent) : (c.setAgent u a).cool = c.cool := rfl
@[simp] theorem setAgent_tripped (c : Chip) (u : UnitId) (a : Agent) : (c.setAgent u a).tripped = c.tripped := rfl
@[simp] theorem setAgent_readings (c : Chip) (u : UnitId) (a : Agent) : (c.setAgent u a).readings = c.readings := rfl
@[simp] theorem setAgent_rails (c : Chip) (u : UnitId) (a : Agent) : (c.setAgent u a).rails = c.rails := rfl
@[simp] theorem setAgent_railsAt (c : Chip) (u : UnitId) (a : Agent) : (c.setAgent u a).railsAt = c.railsAt := rfl
@[simp] theorem setAgent_refLost (c : Chip) (u : UnitId) (a : Agent) : (c.setAgent u a).refLost = c.refLost := rfl

/-! onAgent -/

@[simp] theorem onAgent_now (c : Chip) (u : UnitId) (f : AC → AC) : (c.onAgent u f).now = c.now := rfl
@[simp] theorem onAgent_stepped (c : Chip) (u : UnitId) (f : AC → AC) : (c.onAgent u f).stepped = c.stepped := rfl
@[simp] theorem onAgent_freeCtr (c : Chip) (u : UnitId) (f : AC → AC) : (c.onAgent u f).freeCtr = c.freeCtr := rfl
@[simp] theorem onAgent_regs (c : Chip) (u : UnitId) (f : AC → AC) : (c.onAgent u f).regs = c.regs := rfl
@[simp] theorem onAgent_latches (c : Chip) (u : UnitId) (f : AC → AC) : (c.onAgent u f).latches = c.latches := rfl
@[simp] theorem onAgent_hostMem (c : Chip) (u : UnitId) (f : AC → AC) : (c.onAgent u f).hostMem = c.hostMem := rfl
@[simp] theorem onAgent_hostPorts (c : Chip) (u : UnitId) (f : AC → AC) : (c.onAgent u f).hostPorts = c.hostPorts := rfl
@[simp] theorem onAgent_phase (c : Chip) (u : UnitId) (f : AC → AC) : (c.onAgent u f).phase = c.phase := rfl
@[simp] theorem onAgent_cmds (c : Chip) (u : UnitId) (f : AC → AC) : (c.onAgent u f).cmds = c.cmds := rfl
@[simp] theorem onAgent_cmdSeq (c : Chip) (u : UnitId) (f : AC → AC) : (c.onAgent u f).cmdSeq = c.cmdSeq := rfl
@[simp] theorem onAgent_ctxs (c : Chip) (u : UnitId) (f : AC → AC) : (c.onAgent u f).ctxs = c.ctxs := rfl
@[simp] theorem onAgent_confReleased (c : Chip) (u : UnitId) (f : AC → AC) : (c.onAgent u f).confReleased = c.confReleased := rfl
@[simp] theorem onAgent_fwDigest (c : Chip) (u : UnitId) (f : AC → AC) : (c.onAgent u f).fwDigest = c.fwDigest := rfl
@[simp] theorem onAgent_fwVersion (c : Chip) (u : UnitId) (f : AC → AC) : (c.onAgent u f).fwVersion = c.fwVersion := rfl
@[simp] theorem onAgent_fwFrom (c : Chip) (u : UnitId) (f : AC → AC) : (c.onAgent u f).fwFrom = c.fwFrom := rfl
@[simp] theorem onAgent_hen (c : Chip) (u : UnitId) (f : AC → AC) : (c.onAgent u f).hen = c.hen := rfl
@[simp] theorem onAgent_plan (c : Chip) (u : UnitId) (f : AC → AC) : (c.onAgent u f).plan = c.plan := rfl
@[simp] theorem onAgent_planMram (c : Chip) (u : UnitId) (f : AC → AC) : (c.onAgent u f).planMram = c.planMram := rfl
@[simp] theorem onAgent_slices (c : Chip) (u : UnitId) (f : AC → AC) : (c.onAgent u f).slices = c.slices := rfl
@[simp] theorem onAgent_sliceOrder (c : Chip) (u : UnitId) (f : AC → AC) : (c.onAgent u f).sliceOrder = c.sliceOrder := rfl
@[simp] theorem onAgent_sliceNums (c : Chip) (u : UnitId) (f : AC → AC) : (c.onAgent u f).sliceNums = c.sliceNums := rfl
@[simp] theorem onAgent_heldAdmits (c : Chip) (u : UnitId) (f : AC → AC) : (c.onAgent u f).heldAdmits = c.heldAdmits := rfl
@[simp] theorem onAgent_farOut (c : Chip) (u : UnitId) (f : AC → AC) : (c.onAgent u f).farOut = c.farOut := rfl
@[simp] theorem onAgent_clusters (c : Chip) (u : UnitId) (f : AC → AC) : (c.onAgent u f).clusters = c.clusters := rfl
@[simp] theorem onAgent_mgr (c : Chip) (u : UnitId) (f : AC → AC) : (c.onAgent u f).mgr = c.mgr := rfl
@[simp] theorem onAgent_standby (c : Chip) (u : UnitId) (f : AC → AC) : (c.onAgent u f).standby = c.standby := rfl
@[simp] theorem onAgent_time (c : Chip) (u : UnitId) (f : AC → AC) : (c.onAgent u f).time = c.time := rfl
@[simp] theorem onAgent_grid (c : Chip) (u : UnitId) (f : AC → AC) : (c.onAgent u f).grid = c.grid := rfl
@[simp] theorem onAgent_verifyDue (c : Chip) (u : UnitId) (f : AC → AC) : (c.onAgent u f).verifyDue = c.verifyDue := rfl
@[simp] theorem onAgent_verify (c : Chip) (u : UnitId) (f : AC → AC) : (c.onAgent u f).verify = c.verify := rfl
@[simp] theorem onAgent_circuitSeen (c : Chip) (u : UnitId) (f : AC → AC) : (c.onAgent u f).circuitSeen = c.circuitSeen := rfl
@[simp] theorem onAgent_leases (c : Chip) (u : UnitId) (f : AC → AC) : (c.onAgent u f).leases = c.leases := rfl
@[simp] theorem onAgent_parts (c : Chip) (u : UnitId) (f : AC → AC) : (c.onAgent u f).parts = c.parts := rfl
@[simp] theorem onAgent_faults (c : Chip) (u : UnitId) (f : AC → AC) : (c.onAgent u f).faults = c.faults := rfl
@[simp] theorem onAgent_devFaults (c : Chip) (u : UnitId) (f : AC → AC) : (c.onAgent u f).devFaults = c.devFaults := rfl
@[simp] theorem onAgent_channels (c : Chip) (u : UnitId) (f : AC → AC) : (c.onAgent u f).channels = c.channels := rfl
@[simp] theorem onAgent_lockKept (c : Chip) (u : UnitId) (f : AC → AC) : (c.onAgent u f).lockKept = c.lockKept := rfl
@[simp] theorem onAgent_cutTxns (c : Chip) (u : UnitId) (f : AC → AC) : (c.onAgent u f).cutTxns = c.cutTxns := rfl
@[simp] theorem onAgent_outPowered (c : Chip) (u : UnitId) (f : AC → AC) : (c.onAgent u f).outPowered = c.outPowered := rfl
@[simp] theorem onAgent_reinstating (c : Chip) (u : UnitId) (f : AC → AC) : (c.onAgent u f).reinstating = c.reinstating := rfl
@[simp] theorem onAgent_beats (c : Chip) (u : UnitId) (f : AC → AC) : (c.onAgent u f).beats = c.beats := rfl
@[simp] theorem onAgent_down (c : Chip) (u : UnitId) (f : AC → AC) : (c.onAgent u f).down = c.down := rfl
@[simp] theorem onAgent_blob (c : Chip) (u : UnitId) (f : AC → AC) : (c.onAgent u f).blob = c.blob := rfl
@[simp] theorem onAgent_mram (c : Chip) (u : UnitId) (f : AC → AC) : (c.onAgent u f).mram = c.mram := rfl
@[simp] theorem onAgent_dies (c : Chip) (u : UnitId) (f : AC → AC) : (c.onAgent u f).dies = c.dies := rfl
@[simp] theorem onAgent_sensors (c : Chip) (u : UnitId) (f : AC → AC) : (c.onAgent u f).sensors = c.sensors := rfl
@[simp] theorem onAgent_tjs (c : Chip) (u : UnitId) (f : AC → AC) : (c.onAgent u f).tjs = c.tjs := rfl
@[simp] theorem onAgent_cool (c : Chip) (u : UnitId) (f : AC → AC) : (c.onAgent u f).cool = c.cool := rfl
@[simp] theorem onAgent_tripped (c : Chip) (u : UnitId) (f : AC → AC) : (c.onAgent u f).tripped = c.tripped := rfl
@[simp] theorem onAgent_readings (c : Chip) (u : UnitId) (f : AC → AC) : (c.onAgent u f).readings = c.readings := rfl
@[simp] theorem onAgent_rails (c : Chip) (u : UnitId) (f : AC → AC) : (c.onAgent u f).rails = c.rails := rfl
@[simp] theorem onAgent_railsAt (c : Chip) (u : UnitId) (f : AC → AC) : (c.onAgent u f).railsAt = c.railsAt := rfl
@[simp] theorem onAgent_refLost (c : Chip) (u : UnitId) (f : AC → AC) : (c.onAgent u f).refLost = c.refLost := rfl

/-! emit -/

@[simp] theorem emit_now (c : Chip) (e : Emission) : (c.emit e).now = c.now := rfl
@[simp] theorem emit_stepped (c : Chip) (e : Emission) : (c.emit e).stepped = c.stepped := rfl
@[simp] theorem emit_freeCtr (c : Chip) (e : Emission) : (c.emit e).freeCtr = c.freeCtr := rfl
@[simp] theorem emit_regs (c : Chip) (e : Emission) : (c.emit e).regs = c.regs := rfl
@[simp] theorem emit_latches (c : Chip) (e : Emission) : (c.emit e).latches = c.latches := rfl
@[simp] theorem emit_hostMem (c : Chip) (e : Emission) : (c.emit e).hostMem = c.hostMem := rfl
@[simp] theorem emit_hostPorts (c : Chip) (e : Emission) : (c.emit e).hostPorts = c.hostPorts := rfl
@[simp] theorem emit_phase (c : Chip) (e : Emission) : (c.emit e).phase = c.phase := rfl
@[simp] theorem emit_cmds (c : Chip) (e : Emission) : (c.emit e).cmds = c.cmds := rfl
@[simp] theorem emit_cmdSeq (c : Chip) (e : Emission) : (c.emit e).cmdSeq = c.cmdSeq := rfl
@[simp] theorem emit_agents (c : Chip) (e : Emission) : (c.emit e).agents = c.agents := rfl
@[simp] theorem emit_ctxs (c : Chip) (e : Emission) : (c.emit e).ctxs = c.ctxs := rfl
@[simp] theorem emit_confReleased (c : Chip) (e : Emission) : (c.emit e).confReleased = c.confReleased := rfl
@[simp] theorem emit_fwDigest (c : Chip) (e : Emission) : (c.emit e).fwDigest = c.fwDigest := rfl
@[simp] theorem emit_fwVersion (c : Chip) (e : Emission) : (c.emit e).fwVersion = c.fwVersion := rfl
@[simp] theorem emit_fwFrom (c : Chip) (e : Emission) : (c.emit e).fwFrom = c.fwFrom := rfl
@[simp] theorem emit_hen (c : Chip) (e : Emission) : (c.emit e).hen = c.hen := rfl
@[simp] theorem emit_plan (c : Chip) (e : Emission) : (c.emit e).plan = c.plan := rfl
@[simp] theorem emit_planMram (c : Chip) (e : Emission) : (c.emit e).planMram = c.planMram := rfl
@[simp] theorem emit_slices (c : Chip) (e : Emission) : (c.emit e).slices = c.slices := rfl
@[simp] theorem emit_sliceOrder (c : Chip) (e : Emission) : (c.emit e).sliceOrder = c.sliceOrder := rfl
@[simp] theorem emit_sliceNums (c : Chip) (e : Emission) : (c.emit e).sliceNums = c.sliceNums := rfl
@[simp] theorem emit_heldAdmits (c : Chip) (e : Emission) : (c.emit e).heldAdmits = c.heldAdmits := rfl
@[simp] theorem emit_farOut (c : Chip) (e : Emission) : (c.emit e).farOut = c.farOut := rfl
@[simp] theorem emit_clusters (c : Chip) (e : Emission) : (c.emit e).clusters = c.clusters := rfl
@[simp] theorem emit_mgr (c : Chip) (e : Emission) : (c.emit e).mgr = c.mgr := rfl
@[simp] theorem emit_standby (c : Chip) (e : Emission) : (c.emit e).standby = c.standby := rfl
@[simp] theorem emit_time (c : Chip) (e : Emission) : (c.emit e).time = c.time := rfl
@[simp] theorem emit_grid (c : Chip) (e : Emission) : (c.emit e).grid = c.grid := rfl
@[simp] theorem emit_verifyDue (c : Chip) (e : Emission) : (c.emit e).verifyDue = c.verifyDue := rfl
@[simp] theorem emit_verify (c : Chip) (e : Emission) : (c.emit e).verify = c.verify := rfl
@[simp] theorem emit_circuitSeen (c : Chip) (e : Emission) : (c.emit e).circuitSeen = c.circuitSeen := rfl
@[simp] theorem emit_leases (c : Chip) (e : Emission) : (c.emit e).leases = c.leases := rfl
@[simp] theorem emit_parts (c : Chip) (e : Emission) : (c.emit e).parts = c.parts := rfl
@[simp] theorem emit_faults (c : Chip) (e : Emission) : (c.emit e).faults = c.faults := rfl
@[simp] theorem emit_devFaults (c : Chip) (e : Emission) : (c.emit e).devFaults = c.devFaults := rfl
@[simp] theorem emit_channels (c : Chip) (e : Emission) : (c.emit e).channels = c.channels := rfl
@[simp] theorem emit_lockKept (c : Chip) (e : Emission) : (c.emit e).lockKept = c.lockKept := rfl
@[simp] theorem emit_cutTxns (c : Chip) (e : Emission) : (c.emit e).cutTxns = c.cutTxns := rfl
@[simp] theorem emit_outPowered (c : Chip) (e : Emission) : (c.emit e).outPowered = c.outPowered := rfl
@[simp] theorem emit_reinstating (c : Chip) (e : Emission) : (c.emit e).reinstating = c.reinstating := rfl
@[simp] theorem emit_beats (c : Chip) (e : Emission) : (c.emit e).beats = c.beats := rfl
@[simp] theorem emit_down (c : Chip) (e : Emission) : (c.emit e).down = c.down := rfl
@[simp] theorem emit_blob (c : Chip) (e : Emission) : (c.emit e).blob = c.blob := rfl
@[simp] theorem emit_mram (c : Chip) (e : Emission) : (c.emit e).mram = c.mram := rfl
@[simp] theorem emit_dies (c : Chip) (e : Emission) : (c.emit e).dies = c.dies := rfl
@[simp] theorem emit_sensors (c : Chip) (e : Emission) : (c.emit e).sensors = c.sensors := rfl
@[simp] theorem emit_tjs (c : Chip) (e : Emission) : (c.emit e).tjs = c.tjs := rfl
@[simp] theorem emit_cool (c : Chip) (e : Emission) : (c.emit e).cool = c.cool := rfl
@[simp] theorem emit_tripped (c : Chip) (e : Emission) : (c.emit e).tripped = c.tripped := rfl
@[simp] theorem emit_readings (c : Chip) (e : Emission) : (c.emit e).readings = c.readings := rfl
@[simp] theorem emit_rails (c : Chip) (e : Emission) : (c.emit e).rails = c.rails := rfl
@[simp] theorem emit_railsAt (c : Chip) (e : Emission) : (c.emit e).railsAt = c.railsAt := rfl
@[simp] theorem emit_refLost (c : Chip) (e : Emission) : (c.emit e).refLost = c.refLost := rfl

/-! drawn -/

@[simp] theorem drawn_now (c : Chip) : (c.drawn).now = c.now := rfl
@[simp] theorem drawn_stepped (c : Chip) : (c.drawn).stepped = c.stepped := rfl
@[simp] theorem drawn_out (c : Chip) : (c.drawn).out = c.out := rfl
@[simp] theorem drawn_regs (c : Chip) : (c.drawn).regs = c.regs := rfl
@[simp] theorem drawn_latches (c : Chip) : (c.drawn).latches = c.latches := rfl
@[simp] theorem drawn_hostMem (c : Chip) : (c.drawn).hostMem = c.hostMem := rfl
@[simp] theorem drawn_hostPorts (c : Chip) : (c.drawn).hostPorts = c.hostPorts := rfl
@[simp] theorem drawn_phase (c : Chip) : (c.drawn).phase = c.phase := rfl
@[simp] theorem drawn_cmds (c : Chip) : (c.drawn).cmds = c.cmds := rfl
@[simp] theorem drawn_cmdSeq (c : Chip) : (c.drawn).cmdSeq = c.cmdSeq := rfl
@[simp] theorem drawn_agents (c : Chip) : (c.drawn).agents = c.agents := rfl
@[simp] theorem drawn_ctxs (c : Chip) : (c.drawn).ctxs = c.ctxs := rfl
@[simp] theorem drawn_confReleased (c : Chip) : (c.drawn).confReleased = c.confReleased := rfl
@[simp] theorem drawn_fwDigest (c : Chip) : (c.drawn).fwDigest = c.fwDigest := rfl
@[simp] theorem drawn_fwVersion (c : Chip) : (c.drawn).fwVersion = c.fwVersion := rfl
@[simp] theorem drawn_fwFrom (c : Chip) : (c.drawn).fwFrom = c.fwFrom := rfl
@[simp] theorem drawn_hen (c : Chip) : (c.drawn).hen = c.hen := rfl
@[simp] theorem drawn_plan (c : Chip) : (c.drawn).plan = c.plan := rfl
@[simp] theorem drawn_planMram (c : Chip) : (c.drawn).planMram = c.planMram := rfl
@[simp] theorem drawn_slices (c : Chip) : (c.drawn).slices = c.slices := rfl
@[simp] theorem drawn_sliceOrder (c : Chip) : (c.drawn).sliceOrder = c.sliceOrder := rfl
@[simp] theorem drawn_sliceNums (c : Chip) : (c.drawn).sliceNums = c.sliceNums := rfl
@[simp] theorem drawn_heldAdmits (c : Chip) : (c.drawn).heldAdmits = c.heldAdmits := rfl
@[simp] theorem drawn_farOut (c : Chip) : (c.drawn).farOut = c.farOut := rfl
@[simp] theorem drawn_clusters (c : Chip) : (c.drawn).clusters = c.clusters := rfl
@[simp] theorem drawn_mgr (c : Chip) : (c.drawn).mgr = c.mgr := rfl
@[simp] theorem drawn_standby (c : Chip) : (c.drawn).standby = c.standby := rfl
@[simp] theorem drawn_time (c : Chip) : (c.drawn).time = c.time := rfl
@[simp] theorem drawn_grid (c : Chip) : (c.drawn).grid = c.grid := rfl
@[simp] theorem drawn_verifyDue (c : Chip) : (c.drawn).verifyDue = c.verifyDue := rfl
@[simp] theorem drawn_verify (c : Chip) : (c.drawn).verify = c.verify := rfl
@[simp] theorem drawn_circuitSeen (c : Chip) : (c.drawn).circuitSeen = c.circuitSeen := rfl
@[simp] theorem drawn_leases (c : Chip) : (c.drawn).leases = c.leases := rfl
@[simp] theorem drawn_parts (c : Chip) : (c.drawn).parts = c.parts := rfl
@[simp] theorem drawn_faults (c : Chip) : (c.drawn).faults = c.faults := rfl
@[simp] theorem drawn_devFaults (c : Chip) : (c.drawn).devFaults = c.devFaults := rfl
@[simp] theorem drawn_channels (c : Chip) : (c.drawn).channels = c.channels := rfl
@[simp] theorem drawn_lockKept (c : Chip) : (c.drawn).lockKept = c.lockKept := rfl
@[simp] theorem drawn_cutTxns (c : Chip) : (c.drawn).cutTxns = c.cutTxns := rfl
@[simp] theorem drawn_outPowered (c : Chip) : (c.drawn).outPowered = c.outPowered := rfl
@[simp] theorem drawn_reinstating (c : Chip) : (c.drawn).reinstating = c.reinstating := rfl
@[simp] theorem drawn_beats (c : Chip) : (c.drawn).beats = c.beats := rfl
@[simp] theorem drawn_down (c : Chip) : (c.drawn).down = c.down := rfl
@[simp] theorem drawn_blob (c : Chip) : (c.drawn).blob = c.blob := rfl
@[simp] theorem drawn_mram (c : Chip) : (c.drawn).mram = c.mram := rfl
@[simp] theorem drawn_dies (c : Chip) : (c.drawn).dies = c.dies := rfl
@[simp] theorem drawn_sensors (c : Chip) : (c.drawn).sensors = c.sensors := rfl
@[simp] theorem drawn_tjs (c : Chip) : (c.drawn).tjs = c.tjs := rfl
@[simp] theorem drawn_cool (c : Chip) : (c.drawn).cool = c.cool := rfl
@[simp] theorem drawn_tripped (c : Chip) : (c.drawn).tripped = c.tripped := rfl
@[simp] theorem drawn_readings (c : Chip) : (c.drawn).readings = c.readings := rfl
@[simp] theorem drawn_rails (c : Chip) : (c.drawn).rails = c.rails := rfl
@[simp] theorem drawn_railsAt (c : Chip) : (c.drawn).railsAt = c.railsAt := rfl
@[simp] theorem drawn_refLost (c : Chip) : (c.drawn).refLost = c.refLost := rfl

@[simp] theorem emit_out (c : Chip) (e : Emission) : (c.emit e).out = e :: c.out := rfl
@[simp] theorem drawn_freeCtr (c : Chip) : c.drawn.freeCtr = c.freeCtr + 1 := rfl

@[simp] theorem modPart_reg (c : Chip) (p : Nat) (f : Part → Part) (r : Reg) (i x : Nat) : (c.modPart p f).reg r i x = c.reg r i x := rfl
@[simp] theorem modCtx_reg (c : Chip) (n : Nat) (f : Ctx → Ctx) (r : Reg) (i x : Nat) : (c.modCtx n f).reg r i x = c.reg r i x := rfl
@[simp] theorem modHostPort_reg (c : Chip) (n : Nat) (f : HostPort → HostPort) (r : Reg) (i x : Nat) : (c.modHostPort n f).reg r i x = c.reg r i x := rfl
@[simp] theorem setAgent_reg (c : Chip) (u : UnitId) (a : Agent) (r : Reg) (i x : Nat) : (c.setAgent u a).reg r i x = c.reg r i x := rfl
@[simp] theorem onAgent_reg (c : Chip) (u : UnitId) (f : AC → AC) (r : Reg) (i x : Nat) : (c.onAgent u f).reg r i x = c.reg r i x := rfl
@[simp] theorem emit_reg (c : Chip) (e : Emission) (r : Reg) (i x : Nat) : (c.emit e).reg r i x = c.reg r i x := rfl
@[simp] theorem drawn_reg (c : Chip)  (r : Reg) (i x : Nat) : (c.drawn).reg r i x = c.reg r i x := rfl
@[simp] theorem setReg_get_part (c : Chip) (r : Reg) (i x v : Nat) (q : Nat) : (c.setReg r i x v).part q = c.part q := rfl
@[simp] theorem setReg_get_ctx (c : Chip) (r : Reg) (i x v : Nat) (m : Nat) : (c.setReg r i x v).ctx m = c.ctx m := rfl
@[simp] theorem setReg_get_agent (c : Chip) (r : Reg) (i x v : Nat) (w : UnitId) : (c.setReg r i x v).agent w = c.agent w := rfl
@[simp] theorem setReg_get_hostPort (c : Chip) (r : Reg) (i x v : Nat) (k : Nat) : (c.setReg r i x v).hostPort k = c.hostPort k := rfl
@[simp] theorem countN_get_part (c : Chip) (r : Reg) (i n x : Nat) (q : Nat) : (c.countN r i n x).part q = c.part q := rfl
@[simp] theorem countN_get_ctx (c : Chip) (r : Reg) (i n x : Nat) (m : Nat) : (c.countN r i n x).ctx m = c.ctx m := rfl
@[simp] theorem countN_get_agent (c : Chip) (r : Reg) (i n x : Nat) (w : UnitId) : (c.countN r i n x).agent w = c.agent w := rfl
@[simp] theorem countN_get_hostPort (c : Chip) (r : Reg) (i n x : Nat) (k : Nat) : (c.countN r i n x).hostPort k = c.hostPort k := rfl
@[simp] theorem modPart_get_ctx (c : Chip) (p : Nat) (f : Part → Part) (m : Nat) : (c.modPart p f).ctx m = c.ctx m := rfl
@[simp] theorem modPart_get_agent (c : Chip) (p : Nat) (f : Part → Part) (w : UnitId) : (c.modPart p f).agent w = c.agent w := rfl
@[simp] theorem modPart_get_hostPort (c : Chip) (p : Nat) (f : Part → Part) (k : Nat) : (c.modPart p f).hostPort k = c.hostPort k := rfl
@[simp] theorem modCtx_get_part (c : Chip) (n : Nat) (f : Ctx → Ctx) (q : Nat) : (c.modCtx n f).part q = c.part q := rfl
@[simp] theorem modCtx_get_agent (c : Chip) (n : Nat) (f : Ctx → Ctx) (w : UnitId) : (c.modCtx n f).agent w = c.agent w := rfl
@[simp] theorem modCtx_get_hostPort (c : Chip) (n : Nat) (f : Ctx → Ctx) (k : Nat) : (c.modCtx n f).hostPort k = c.hostPort k := rfl
@[simp] theorem modHostPort_get_part (c : Chip) (n : Nat) (f : HostPort → HostPort) (q : Nat) : (c.modHostPort n f).part q = c.part q := rfl
@[simp] theorem modHostPort_get_ctx (c : Chip) (n : Nat) (f : HostPort → HostPort) (m : Nat) : (c.modHostPort n f).ctx m = c.ctx m := rfl
@[simp] theorem modHostPort_get_agent (c : Chip) (n : Nat) (f : HostPort → HostPort) (w : UnitId) : (c.modHostPort n f).agent w = c.agent w := rfl
@[simp] theorem setAgent_get_part (c : Chip) (u : UnitId) (a : Agent) (q : Nat) : (c.setAgent u a).part q = c.part q := rfl
@[simp] theorem setAgent_get_ctx (c : Chip) (u : UnitId) (a : Agent) (m : Nat) : (c.setAgent u a).ctx m = c.ctx m := rfl
@[simp] theorem setAgent_get_hostPort (c : Chip) (u : UnitId) (a : Agent) (k : Nat) : (c.setAgent u a).hostPort k = c.hostPort k := rfl
@[simp] theorem onAgent_get_part (c : Chip) (u : UnitId) (f : AC → AC) (q : Nat) : (c.onAgent u f).part q = c.part q := rfl
@[simp] theorem onAgent_get_ctx (c : Chip) (u : UnitId) (f : AC → AC) (m : Nat) : (c.onAgent u f).ctx m = c.ctx m := rfl
@[simp] theorem onAgent_get_hostPort (c : Chip) (u : UnitId) (f : AC → AC) (k : Nat) : (c.onAgent u f).hostPort k = c.hostPort k := rfl
@[simp] theorem emit_get_part (c : Chip) (e : Emission) (q : Nat) : (c.emit e).part q = c.part q := rfl
@[simp] theorem emit_get_ctx (c : Chip) (e : Emission) (m : Nat) : (c.emit e).ctx m = c.ctx m := rfl
@[simp] theorem emit_get_agent (c : Chip) (e : Emission) (w : UnitId) : (c.emit e).agent w = c.agent w := rfl
@[simp] theorem emit_get_hostPort (c : Chip) (e : Emission) (k : Nat) : (c.emit e).hostPort k = c.hostPort k := rfl
@[simp] theorem drawn_get_part (c : Chip) (q : Nat) : (c.drawn).part q = c.part q := rfl
@[simp] theorem drawn_get_ctx (c : Chip) (m : Nat) : (c.drawn).ctx m = c.ctx m := rfl
@[simp] theorem drawn_get_agent (c : Chip) (w : UnitId) : (c.drawn).agent w = c.agent w := rfl
@[simp] theorem drawn_get_hostPort (c : Chip) (k : Nat) : (c.drawn).hostPort k = c.hostPort k := rfl

/-- The block as a command at time `t` finds it: time has come to `t`, and nothing has left it yet. -/
def started (c : Chip) (t : Nat) : Chip := { c with now := max c.now t, out := [] }

theorem run_started (c : Chip) (t : Nat) (f : Chip → Chip) : c.run t f = f (c.started t) := rfl
@[simp] theorem started_now (c : Chip) (t : Nat) : (c.started t).now = max c.now t := rfl
@[simp] theorem started_out (c : Chip) (t : Nat) : (c.started t).out = [] := rfl
@[simp] theorem started_stepped (c : Chip) (t : Nat) : (c.started t).stepped = c.stepped := rfl
@[simp] theorem started_freeCtr (c : Chip) (t : Nat) : (c.started t).freeCtr = c.freeCtr := rfl
@[simp] theorem started_regs (c : Chip) (t : Nat) : (c.started t).regs = c.regs := rfl
@[simp] theorem started_latches (c : Chip) (t : Nat) : (c.started t).latches = c.latches := rfl
@[simp] theorem started_hostMem (c : Chip) (t : Nat) : (c.started t).hostMem = c.hostMem := rfl
@[simp] theorem started_hostPorts (c : Chip) (t : Nat) : (c.started t).hostPorts = c.hostPorts := rfl
@[simp] theorem started_phase (c : Chip) (t : Nat) : (c.started t).phase = c.phase := rfl
@[simp] theorem started_cmds (c : Chip) (t : Nat) : (c.started t).cmds = c.cmds := rfl
@[simp] theorem started_cmdSeq (c : Chip) (t : Nat) : (c.started t).cmdSeq = c.cmdSeq := rfl
@[simp] theorem started_agents (c : Chip) (t : Nat) : (c.started t).agents = c.agents := rfl
@[simp] theorem started_ctxs (c : Chip) (t : Nat) : (c.started t).ctxs = c.ctxs := rfl
@[simp] theorem started_confReleased (c : Chip) (t : Nat) : (c.started t).confReleased = c.confReleased := rfl
@[simp] theorem started_fwDigest (c : Chip) (t : Nat) : (c.started t).fwDigest = c.fwDigest := rfl
@[simp] theorem started_fwVersion (c : Chip) (t : Nat) : (c.started t).fwVersion = c.fwVersion := rfl
@[simp] theorem started_fwFrom (c : Chip) (t : Nat) : (c.started t).fwFrom = c.fwFrom := rfl
@[simp] theorem started_hen (c : Chip) (t : Nat) : (c.started t).hen = c.hen := rfl
@[simp] theorem started_plan (c : Chip) (t : Nat) : (c.started t).plan = c.plan := rfl
@[simp] theorem started_planMram (c : Chip) (t : Nat) : (c.started t).planMram = c.planMram := rfl
@[simp] theorem started_slices (c : Chip) (t : Nat) : (c.started t).slices = c.slices := rfl
@[simp] theorem started_sliceOrder (c : Chip) (t : Nat) : (c.started t).sliceOrder = c.sliceOrder := rfl
@[simp] theorem started_sliceNums (c : Chip) (t : Nat) : (c.started t).sliceNums = c.sliceNums := rfl
@[simp] theorem started_heldAdmits (c : Chip) (t : Nat) : (c.started t).heldAdmits = c.heldAdmits := rfl
@[simp] theorem started_farOut (c : Chip) (t : Nat) : (c.started t).farOut = c.farOut := rfl
@[simp] theorem started_clusters (c : Chip) (t : Nat) : (c.started t).clusters = c.clusters := rfl
@[simp] theorem started_mgr (c : Chip) (t : Nat) : (c.started t).mgr = c.mgr := rfl
@[simp] theorem started_standby (c : Chip) (t : Nat) : (c.started t).standby = c.standby := rfl
@[simp] theorem started_time (c : Chip) (t : Nat) : (c.started t).time = c.time := rfl
@[simp] theorem started_grid (c : Chip) (t : Nat) : (c.started t).grid = c.grid := rfl
@[simp] theorem started_verifyDue (c : Chip) (t : Nat) : (c.started t).verifyDue = c.verifyDue := rfl
@[simp] theorem started_verify (c : Chip) (t : Nat) : (c.started t).verify = c.verify := rfl
@[simp] theorem started_circuitSeen (c : Chip) (t : Nat) : (c.started t).circuitSeen = c.circuitSeen := rfl
@[simp] theorem started_leases (c : Chip) (t : Nat) : (c.started t).leases = c.leases := rfl
@[simp] theorem started_parts (c : Chip) (t : Nat) : (c.started t).parts = c.parts := rfl
@[simp] theorem started_faults (c : Chip) (t : Nat) : (c.started t).faults = c.faults := rfl
@[simp] theorem started_devFaults (c : Chip) (t : Nat) : (c.started t).devFaults = c.devFaults := rfl
@[simp] theorem started_channels (c : Chip) (t : Nat) : (c.started t).channels = c.channels := rfl
@[simp] theorem started_lockKept (c : Chip) (t : Nat) : (c.started t).lockKept = c.lockKept := rfl
@[simp] theorem started_cutTxns (c : Chip) (t : Nat) : (c.started t).cutTxns = c.cutTxns := rfl
@[simp] theorem started_outPowered (c : Chip) (t : Nat) : (c.started t).outPowered = c.outPowered := rfl
@[simp] theorem started_reinstating (c : Chip) (t : Nat) : (c.started t).reinstating = c.reinstating := rfl
@[simp] theorem started_beats (c : Chip) (t : Nat) : (c.started t).beats = c.beats := rfl
@[simp] theorem started_down (c : Chip) (t : Nat) : (c.started t).down = c.down := rfl
@[simp] theorem started_blob (c : Chip) (t : Nat) : (c.started t).blob = c.blob := rfl
@[simp] theorem started_mram (c : Chip) (t : Nat) : (c.started t).mram = c.mram := rfl
@[simp] theorem started_dies (c : Chip) (t : Nat) : (c.started t).dies = c.dies := rfl
@[simp] theorem started_sensors (c : Chip) (t : Nat) : (c.started t).sensors = c.sensors := rfl
@[simp] theorem started_tjs (c : Chip) (t : Nat) : (c.started t).tjs = c.tjs := rfl
@[simp] theorem started_cool (c : Chip) (t : Nat) : (c.started t).cool = c.cool := rfl
@[simp] theorem started_tripped (c : Chip) (t : Nat) : (c.started t).tripped = c.tripped := rfl
@[simp] theorem started_readings (c : Chip) (t : Nat) : (c.started t).readings = c.readings := rfl
@[simp] theorem started_rails (c : Chip) (t : Nat) : (c.started t).rails = c.rails := rfl
@[simp] theorem started_railsAt (c : Chip) (t : Nat) : (c.started t).railsAt = c.railsAt := rfl
@[simp] theorem started_refLost (c : Chip) (t : Nat) : (c.started t).refLost = c.refLost := rfl
@[simp] theorem started_reg (c : Chip) (t : Nat) (r : Reg) (i x : Nat) : (c.started t).reg r i x = c.reg r i x := rfl
@[simp] theorem started_get_part (c : Chip) (t : Nat) (k : Nat) : (c.started t).part k = c.part k := rfl
@[simp] theorem started_get_ctx (c : Chip) (t : Nat) (k : Nat) : (c.started t).ctx k = c.ctx k := rfl
@[simp] theorem started_get_agent (c : Chip) (t : Nat) (k : UnitId) : (c.started t).agent k = c.agent k := rfl
@[simp] theorem started_get_hostPort (c : Chip) (t : Nat) (k : Nat) : (c.started t).hostPort k = c.hostPort k := rfl

/-! An agent of the block -/

theorem agent_setAgent (c : Chip) (u v : UnitId) (a : Agent) :
    (c.setAgent u a).agent v = if u.code = v.code then a else c.agent v := by
  simp only [agent, setAgent, SMap.get_set]

@[simp] theorem agent_setAgent_same (c : Chip) (u : UnitId) (a : Agent) : (c.setAgent u a).agent u = a := by
  simp [agent_setAgent]

/-! What an agent's work starts from -/

@[simp] theorem acOf_a (c : Chip) (u : UnitId) : (c.acOf u).a = c.agent u := rfl
@[simp] theorem acOf_u (c : Chip) (u : UnitId) : (c.acOf u).u = u := rfl
@[simp] theorem acOf_out (c : Chip) (u : UnitId) : (c.acOf u).out = [] := rfl
@[simp] theorem acOf_ticks (c : Chip) (u : UnitId) : (c.acOf u).ticks = c.ticks := rfl

/-- Work of an agent: its record is what the work leaves. -/
@[simp] theorem agent_onAgent (c : Chip) (u : UnitId) (f : AC → AC) :
    (c.onAgent u f).agent u = (f (c.acOf u)).a := by
  simp only [onAgent]; exact agent_setAgent_same c u _

/-- Work of an agent lets out what the work emits. -/
@[simp] theorem out_onAgent (c : Chip) (u : UnitId) (f : AC → AC) :
    (c.onAgent u f).out = (f (c.acOf u)).out ++ c.out := rfl

/-- Work of an agent changes nothing of the block but that agent's record and the output. -/
theorem onAgent_frame (c : Chip) (u : UnitId) (f : AC → AC) :
    c.onAgent u f = { c with agents := (c.onAgent u f).agents, out := (c.onAgent u f).out } := rfl

/-- Work of an agent leaves the other agents' records alone. -/
theorem agent_onAgent_other (c : Chip) {u v : UnitId} (f : AC → AC) (h : u.code ≠ v.code) :
    (c.onAgent u f).agent v = c.agent v := by
  show (c.setAgent u _).agent v = _
  rw [agent_setAgent, if_neg h]

/-! A partition, a context, a host port -/

theorem part_modPart (c : Chip) (p q : Nat) (f : Part → Part) :
    (c.modPart p f).part q = if p = q then f (c.part p) else c.part q := by
  simp only [part, modPart, SMap.get_set]

@[simp] theorem part_modPart_same (c : Chip) (p : Nat) (f : Part → Part) : (c.modPart p f).part p = f (c.part p) := by
  simp [part_modPart]

theorem ctx_modCtx (c : Chip) (n m : Nat) (f : Ctx → Ctx) :
    (c.modCtx n f).ctx m = if n = m then f (c.ctx n) else c.ctx m := by
  simp only [ctx, modCtx, SMap.get_set]

@[simp] theorem ctx_modCtx_same (c : Chip) (n : Nat) (f : Ctx → Ctx) : (c.modCtx n f).ctx n = f (c.ctx n) := by
  simp [ctx_modCtx]

theorem hostPort_modHostPort (c : Chip) (n m : Nat) (f : HostPort → HostPort) :
    (c.modHostPort n f).hostPort m = if n = m then f (c.hostPort n) else c.hostPort m := by
  simp only [hostPort, modHostPort, SMap.get_set]

@[simp] theorem hostPort_modHostPort_same (c : Chip) (n : Nat) (f : HostPort → HostPort) :
    (c.modHostPort n f).hostPort n = f (c.hostPort n) := by
  simp [hostPort_modHostPort]

/-! Registers of the block -/

/-- Of two fields at one page instance and element, only the one that is set changes. -/
@[simp] theorem reg_setReg (c : Chip) (r r' : Reg) (i x v : Nat) :
    (c.setReg r i x v).reg r' i x = if r = r' then trunc r.width v else c.reg r' i x := by
  simp [reg, setReg]

/-- Fields of one page instance at different elements do not meet. -/
theorem reg_setReg_far (c : Chip) {r r' : Reg} {i i' x x' : Nat} (v : Nat) (h : r ≠ r') (hi : i < 4096) (hi' : i' < 4096)
    (hx : x < 64) (hx' : x' < 64) : (c.setReg r i x v).reg r' i' x' = c.reg r' i' x' :=
  RegFile.get_set_far _ v h hi hi' hx hx'

@[simp] theorem reg_countN (c : Chip) (r r' : Reg) (i n x : Nat) :
    (c.countN r i n x).reg r' i x = if r = r' then trunc r.width (min (c.reg r i x + n) (2 ^ r.width - 1)) else c.reg r' i x := by
  simp [reg, countN]

@[simp] theorem reg_count (c : Chip) (r r' : Reg) (i : Nat) :
    (c.count r i).reg r' i = if r = r' then trunc r.width (min (c.reg r i + 1) (2 ^ r.width - 1)) else c.reg r' i := by
  simp [count]

end Chip

end Sys2Proof.Machine
end

