-- ==== Sys2Proof/Laws/Agent.lean ====
section
/-! SUPPORT. An agent at work: what each shared operation leaves of its record, and what a message meets before its own effect. -/

namespace Sys2Proof.Machine.AC

open Sys2Proof

/-! Updates -/

@[simp] theorem setReg_a (c : AC) (r : Reg) (v : Nat) : (c.setReg r v).a = { c.a with regs := c.a.regs.set r 0 0 v } := rfl
@[simp] theorem setPReg_a (c : AC) (r : Reg) (p v : Nat) : (c.setPReg r p v).a = { c.a with regs := c.a.regs.set r p 0 v } := rfl
@[simp] theorem countN_a (c : AC) (r : Reg) (n : Nat) : (c.countN r n).a = { c.a with regs := c.a.regs.count r 0 0 n } := rfl
@[simp] theorem count_a (c : AC) (r : Reg) : (c.count r).a = { c.a with regs := c.a.regs.count r 0 0 1 } := rfl
@[simp] theorem mod_a (c : AC) (f : Agent → Agent) : (c.mod f).a = f c.a := rfl
@[simp] theorem emit_a (c : AC) (e : Emission) : (c.emit e).a = c.a := rfl
@[simp] theorem emit_out (c : AC) (e : Emission) : (c.emit e).out = e :: c.out := rfl
@[simp] theorem modPort_a (c : AC) (p : Nat) (f : AgentPort → AgentPort) :
    (c.modPort p f).a = { c.a with ports := SMap.set {} c.a.ports p (f (c.port p)) } := rfl

@[simp] theorem setReg_u (c : AC) (r : Reg) (v : Nat) : (c.setReg r v).u = c.u := rfl
@[simp] theorem setReg_now (c : AC) (r : Reg) (v : Nat) : (c.setReg r v).now = c.now := rfl
@[simp] theorem setReg_ticks (c : AC) (r : Reg) (v : Nat) : (c.setReg r v).ticks = c.ticks := rfl
@[simp] theorem setReg_out (c : AC) (r : Reg) (v : Nat) : (c.setReg r v).out = c.out := rfl
@[simp] theorem setPReg_u (c : AC) (r : Reg) (p v : Nat) : (c.setPReg r p v).u = c.u := rfl
@[simp] theorem setPReg_now (c : AC) (r : Reg) (p v : Nat) : (c.setPReg r p v).now = c.now := rfl
@[simp] theorem setPReg_ticks (c : AC) (r : Reg) (p v : Nat) : (c.setPReg r p v).ticks = c.ticks := rfl
@[simp] theorem setPReg_out (c : AC) (r : Reg) (p v : Nat) : (c.setPReg r p v).out = c.out := rfl
@[simp] theorem countN_u (c : AC) (r : Reg) (n : Nat) : (c.countN r n).u = c.u := rfl
@[simp] theorem countN_now (c : AC) (r : Reg) (n : Nat) : (c.countN r n).now = c.now := rfl
@[simp] theorem countN_ticks (c : AC) (r : Reg) (n : Nat) : (c.countN r n).ticks = c.ticks := rfl
@[simp] theorem countN_out (c : AC) (r : Reg) (n : Nat) : (c.countN r n).out = c.out := rfl
@[simp] theorem count_u (c : AC) (r : Reg) : (c.count r).u = c.u := rfl
@[simp] theorem count_now (c : AC) (r : Reg) : (c.count r).now = c.now := rfl
@[simp] theorem count_ticks (c : AC) (r : Reg) : (c.count r).ticks = c.ticks := rfl
@[simp] theorem count_out (c : AC) (r : Reg) : (c.count r).out = c.out := rfl
@[simp] theorem mod_u (c : AC) (f : Agent → Agent) : (c.mod f).u = c.u := rfl
@[simp] theorem mod_now (c : AC) (f : Agent → Agent) : (c.mod f).now = c.now := rfl
@[simp] theorem mod_ticks (c : AC) (f : Agent → Agent) : (c.mod f).ticks = c.ticks := rfl
@[simp] theorem mod_out (c : AC) (f : Agent → Agent) : (c.mod f).out = c.out := rfl
@[simp] theorem modPort_u (c : AC) (p : Nat) (f : AgentPort → AgentPort) : (c.modPort p f).u = c.u := rfl
@[simp] theorem modPort_now (c : AC) (p : Nat) (f : AgentPort → AgentPort) : (c.modPort p f).now = c.now := rfl
@[simp] theorem modPort_ticks (c : AC) (p : Nat) (f : AgentPort → AgentPort) : (c.modPort p f).ticks = c.ticks := rfl
@[simp] theorem modPort_out (c : AC) (p : Nat) (f : AgentPort → AgentPort) : (c.modPort p f).out = c.out := rfl
@[simp] theorem emit_u (c : AC) (e : Emission) : (c.emit e).u = c.u := rfl
@[simp] theorem emit_now (c : AC) (e : Emission) : (c.emit e).now = c.now := rfl
@[simp] theorem emit_ticks (c : AC) (e : Emission) : (c.emit e).ticks = c.ticks := rfl

@[simp] theorem port_modPort (c : AC) (p : Nat) (f : AgentPort → AgentPort) : (c.modPort p f).port p = f (c.port p) := by
  simp [port]

theorem port_modPort_other (c : AC) {p q : Nat} (f : AgentPort → AgentPort) (h : p ≠ q) : (c.modPort p f).port q = c.port q := by
  simp [port, SMap.get_set, h]

@[simp] theorem pcountN_u (c : AC) (r : Reg) (p n : Nat) : (c.pcountN r p n).u = c.u := by unfold pcountN; split <;> rfl
@[simp] theorem pcountN_now (c : AC) (r : Reg) (p n : Nat) : (c.pcountN r p n).now = c.now := by unfold pcountN; split <;> rfl
@[simp] theorem pcountN_out (c : AC) (r : Reg) (p n : Nat) : (c.pcountN r p n).out = c.out := by unfold pcountN; split <;> rfl

/-- A port's counter is the only field that counting touches. -/
theorem pcountN_a (c : AC) (r : Reg) (p n : Nat) : ∃ f, (c.pcountN r p n).a = { c.a with regs := f } := by
  unfold pcountN; split
  · exact ⟨c.a.regs, rfl⟩
  · exact ⟨_, rfl⟩

/-- Only the registers and the ports of an agent differ: what sending and counting can change. -/
def sameBut (a b : Agent) : Prop := b = { a with regs := b.regs, ports := b.ports }

theorem sameBut_refl (a : Agent) : sameBut a a := rfl

theorem sameBut_trans {a b c : Agent} (h : sameBut a b) (k : sameBut b c) : sameBut a c := by
  unfold sameBut at *; rw [k, h]

theorem sameBut_regs (a : Agent) (f : RegFile) : sameBut a { a with regs := f } := rfl

theorem sameBut_ports (a : Agent) (f : SMap AgentPort) : sameBut a { a with ports := f } := rfl

theorem sameBut_pcountN (c : AC) (r : Reg) (p n : Nat) : sameBut c.a (c.pcountN r p n).a := by
  obtain ⟨f, h⟩ := pcountN_a c r p n; rw [h]; rfl

theorem enqueue_sameBut (c : AC) (q : Nat) (p : Packet) : sameBut c.a (c.enqueue q p).a := by
  unfold enqueue; split
  · rfl
  · simp only [setPReg_a, modPort_a]
    split
    · obtain ⟨f, h⟩ := pcountN_a c .APORT_MARKS q 1
      simp only [pcount, h]; rfl
    · rfl

/-- Sending changes the registers and the ports of the agent only. -/
theorem send_sameBut (c : AC) (d : Nat) (m : Msg) : sameBut c.a (c.send d m).a := by
  unfold send
  simp only
  split
  · split
    · rfl
    · split
      · exact enqueue_sameBut ..
      · split
        · simp only [assign, modPort_a, pcount]
          exact sameBut_trans (sameBut_pcountN c .APORT_DEFLECTIONS _ 1) (sameBut_ports _ _)
        · rfl
  · exact enqueue_sameBut ..

@[simp] theorem enqueue_u (c : AC) (q : Nat) (p : Packet) : (c.enqueue q p).u = c.u := by
  unfold enqueue; split
  · rfl
  · dsimp only [setPReg, modPort]; split <;> simp [pcount]
@[simp] theorem enqueue_now (c : AC) (q : Nat) (p : Packet) : (c.enqueue q p).now = c.now := by
  unfold enqueue; split
  · rfl
  · dsimp only [setPReg, modPort]; split <;> simp [pcount]
@[simp] theorem enqueue_out (c : AC) (q : Nat) (p : Packet) : (c.enqueue q p).out = c.out := by
  unfold enqueue; split
  · rfl
  · dsimp only [setPReg, modPort]; split <;> simp [pcount]

@[simp] theorem send_u (c : AC) (d : Nat) (m : Msg) : (c.send d m).u = c.u := by
  unfold send; simp only; split <;> (try split) <;> (try split) <;> (try split) <;> simp [assign, pcount]
@[simp] theorem send_now (c : AC) (d : Nat) (m : Msg) : (c.send d m).now = c.now := by
  unfold send; simp only; split <;> (try split) <;> (try split) <;> (try split) <;> simp [assign, pcount]
@[simp] theorem send_out (c : AC) (d : Nat) (m : Msg) : (c.send d m).out = c.out := by
  unfold send; simp only; split <;> (try split) <;> (try split) <;> (try split) <;> simp [assign, pcount]

@[simp] theorem send_skew (c : AC) (d : Nat) (m : Msg) : (c.send d m).a.skew = c.a.skew := by
  rw [send_sameBut c d m]
@[simp] theorem send_slewLeft (c : AC) (d : Nat) (m : Msg) : (c.send d m).a.slewLeft = c.a.slewLeft := by
  rw [send_sameBut c d m]
@[simp] theorem send_slewFrom (c : AC) (d : Nat) (m : Msg) : (c.send d m).a.slewFrom = c.a.slewFrom := by
  rw [send_sameBut c d m]
@[simp] theorem send_banks (c : AC) (d : Nat) (m : Msg) : (c.send d m).a.banks = c.a.banks := by
  rw [send_sameBut c d m]
@[simp] theorem send_shadowLoad (c : AC) (d : Nat) (m : Msg) : (c.send d m).a.shadowLoad = c.a.shadowLoad := by
  rw [send_sameBut c d m]
@[simp] theorem send_staticLoad (c : AC) (d : Nat) (m : Msg) : (c.send d m).a.staticLoad = c.a.staticLoad := by
  rw [send_sameBut c d m]
@[simp] theorem send_drainReq (c : AC) (d : Nat) (m : Msg) : (c.send d m).a.drainReq = c.a.drainReq := by
  rw [send_sameBut c d m]
@[simp] theorem send_drainAt (c : AC) (d : Nat) (m : Msg) : (c.send d m).a.drainAt = c.a.drainAt := by
  rw [send_sameBut c d m]
@[simp] theorem send_quietFrom (c : AC) (d : Nat) (m : Msg) : (c.send d m).a.quietFrom = c.a.quietFrom := by
  rw [send_sameBut c d m]
@[simp] theorem send_commitAt (c : AC) (d : Nat) (m : Msg) : (c.send d m).a.commitAt = c.a.commitAt := by
  rw [send_sameBut c d m]
@[simp] theorem send_resumed (c : AC) (d : Nat) (m : Msg) : (c.send d m).a.resumed = c.a.resumed := by
  rw [send_sameBut c d m]
@[simp] theorem send_flipAt (c : AC) (d : Nat) (m : Msg) : (c.send d m).a.flipAt = c.a.flipAt := by
  rw [send_sameBut c d m]
@[simp] theorem send_staticUntil (c : AC) (d : Nat) (m : Msg) : (c.send d m).a.staticUntil = c.a.staticUntil := by
  rw [send_sameBut c d m]
@[simp] theorem send_listsFrom (c : AC) (d : Nat) (m : Msg) : (c.send d m).a.listsFrom = c.a.listsFrom := by
  rw [send_sameBut c d m]
@[simp] theorem send_clearedSubs (c : AC) (d : Nat) (m : Msg) : (c.send d m).a.clearedSubs = c.a.clearedSubs := by
  rw [send_sameBut c d m]
@[simp] theorem send_fences (c : AC) (d : Nat) (m : Msg) : (c.send d m).a.fences = c.a.fences := by
  rw [send_sameBut c d m]
@[simp] theorem send_jobEpochs (c : AC) (d : Nat) (m : Msg) : (c.send d m).a.jobEpochs = c.a.jobEpochs := by
  rw [send_sameBut c d m]
@[simp] theorem send_templates (c : AC) (d : Nat) (m : Msg) : (c.send d m).a.templates = c.a.templates := by
  rw [send_sameBut c d m]
@[simp] theorem send_cur (c : AC) (d : Nat) (m : Msg) : (c.send d m).a.cur = c.a.cur := by
  rw [send_sameBut c d m]
@[simp] theorem send_nxt (c : AC) (d : Nat) (m : Msg) : (c.send d m).a.nxt = c.a.nxt := by
  rw [send_sameBut c d m]
@[simp] theorem send_gathers (c : AC) (d : Nat) (m : Msg) : (c.send d m).a.gathers = c.a.gathers := by
  rw [send_sameBut c d m]
@[simp] theorem send_lateWindows (c : AC) (d : Nat) (m : Msg) : (c.send d m).a.lateWindows = c.a.lateWindows := by
  rw [send_sameBut c d m]
@[simp] theorem send_lastStep (c : AC) (d : Nat) (m : Msg) : (c.send d m).a.lastStep = c.a.lastStep := by
  rw [send_sameBut c d m]
@[simp] theorem send_windowStarted (c : AC) (d : Nat) (m : Msg) : (c.send d m).a.windowStarted = c.a.windowStarted := by
  rw [send_sameBut c d m]
@[simp] theorem send_chunks (c : AC) (d : Nat) (m : Msg) : (c.send d m).a.chunks = c.a.chunks := by
  rw [send_sameBut c d m]
@[simp] theorem send_flows (c : AC) (d : Nat) (m : Msg) : (c.send d m).a.flows = c.a.flows := by
  rw [send_sameBut c d m]
@[simp] theorem send_ended (c : AC) (d : Nat) (m : Msg) : (c.send d m).a.ended = c.a.ended := by
  rw [send_sameBut c d m]
@[simp] theorem send_echoes (c : AC) (d : Nat) (m : Msg) : (c.send d m).a.echoes = c.a.echoes := by
  rw [send_sameBut c d m]
@[simp] theorem send_lastHalving (c : AC) (d : Nat) (m : Msg) : (c.send d m).a.lastHalving = c.a.lastHalving := by
  rw [send_sameBut c d m]
@[simp] theorem send_lastRise (c : AC) (d : Nat) (m : Msg) : (c.send d m).a.lastRise = c.a.lastRise := by
  rw [send_sameBut c d m]
@[simp] theorem send_loosePaceAt (c : AC) (d : Nat) (m : Msg) : (c.send d m).a.loosePaceAt = c.a.loosePaceAt := by
  rw [send_sameBut c d m]
@[simp] theorem send_notices (c : AC) (d : Nat) (m : Msg) : (c.send d m).a.notices = c.a.notices := by
  rw [send_sameBut c d m]
@[simp] theorem send_timeReq (c : AC) (d : Nat) (m : Msg) : (c.send d m).a.timeReq = c.a.timeReq := by
  rw [send_sameBut c d m]
@[simp] theorem send_exchangeAt (c : AC) (d : Nat) (m : Msg) : (c.send d m).a.exchangeAt = c.a.exchangeAt := by
  rw [send_sameBut c d m]
@[simp] theorem send_timeRetry (c : AC) (d : Nat) (m : Msg) : (c.send d m).a.timeRetry = c.a.timeRetry := by
  rw [send_sameBut c d m]
@[simp] theorem send_lastExchange (c : AC) (d : Nat) (m : Msg) : (c.send d m).a.lastExchange = c.a.lastExchange := by
  rw [send_sameBut c d m]
@[simp] theorem send_schedHeld (c : AC) (d : Nat) (m : Msg) : (c.send d m).a.schedHeld = c.a.schedHeld := by
  rw [send_sameBut c d m]
@[simp] theorem send_lastPartMsg (c : AC) (d : Nat) (m : Msg) : (c.send d m).a.lastPartMsg = c.a.lastPartMsg := by
  rw [send_sameBut c d m]
@[simp] theorem send_pairs (c : AC) (d : Nat) (m : Msg) : (c.send d m).a.pairs = c.a.pairs := by
  rw [send_sameBut c d m]
@[simp] theorem send_requests (c : AC) (d : Nat) (m : Msg) : (c.send d m).a.requests = c.a.requests := by
  rw [send_sameBut c d m]
@[simp] theorem send_stored (c : AC) (d : Nat) (m : Msg) : (c.send d m).a.stored = c.a.stored := by
  rw [send_sameBut c d m]
@[simp] theorem send_nextTag (c : AC) (d : Nat) (m : Msg) : (c.send d m).a.nextTag = c.a.nextTag := by
  rw [send_sameBut c d m]
@[simp] theorem send_log (c : AC) (d : Nat) (m : Msg) : (c.send d m).a.log = c.a.log := by
  rw [send_sameBut c d m]
@[simp] theorem send_viewHigh (c : AC) (d : Nat) (m : Msg) : (c.send d m).a.viewHigh = c.a.viewHigh := by
  rw [send_sameBut c d m]
@[simp] theorem send_measuring (c : AC) (d : Nat) (m : Msg) : (c.send d m).a.measuring = c.a.measuring := by
  rw [send_sameBut c d m]
@[simp] theorem send_telemAt (c : AC) (d : Nat) (m : Msg) : (c.send d m).a.telemAt = c.a.telemAt := by
  rw [send_sameBut c d m]

/-- The fields that sending may change at the agent's own pages: the counts of what finds no way out. -/
def sendMoves (r : Reg) : Bool := r == .ACONTROL_NO_ROUTE || r == .ACONTROL_NO_EXIT || r == .APORT_DEFLECTIONS

theorem mod32 (n : Nat) : n / 16 % 2 < 2 := Nat.mod_lt _ (by decide)

theorem outputOf_lt (c : AC) (e s d : Nat) (h : e < 64) : (c.outputOf e s d).2 < 4096 := by
  unfold outputOf; simp only
  split
  · simp only; split <;> omega
  · simp only; split <;> omega

theorem lookup_lt (c : AC) (d e : Nat) (h : c.lookup d = some e) : e < 64 := by
  unfold lookup at h; simp only at h
  split at h
  · split at h
    · split at h
      · simp at h
      · simp only [Option.some.injEq] at h; omega
    · simp only [Option.some.injEq] at h; omega
  · simp at h

/-- Sending leaves every register of the agent's own pages as it is, but for the three counters of `sendMoves`. -/
@[simp] theorem send_get (c : AC) (d : Nat) (m : Msg) (r : Reg) (h : sendMoves r = false) :
    (c.send d m).a.regs.get r 0 0 = c.a.regs.get r 0 0 := by
  simp only [sendMoves, Bool.or_eq_false_iff, beq_eq_false_iff_ne, ne_eq] at h
  obtain ⟨⟨h1, h2⟩, h3⟩ := h
  unfold send; simp only
  split
  · split
    · simp [RegFile.get_count, Ne.symm h1]
    · rename_i e he
      have hlt := outputOf_lt c e (c.reg .AIDENT_FID) d (lookup_lt c d e he)
      split
      · simp [enqueue, clsMgmt]
      · split
        · simp only [assign, modPort_a, pcount, pcountN]
          split
          · rfl
          · simp only [RegFile.count]
            exact RegFile.get_set_far _ _ (Ne.symm h3) hlt (by decide) (by decide) (by decide)
        · simp [RegFile.get_count, Ne.symm h2]
  · simp [enqueue, clsMgmt]

/-! Events -/

@[simp] theorem event_u (c : AC) (k : Nat) (l : List Nat) : (c.event k l).u = c.u := by unfold event; simp only; split <;> simp
@[simp] theorem event_now (c : AC) (k : Nat) (l : List Nat) : (c.event k l).now = c.now := by
  unfold event; simp only; split <;> simp
@[simp] theorem event_out (c : AC) (k : Nat) (l : List Nat) : (c.event k l).out = c.out := by
  unfold event; simp only; split <;> simp

@[simp] theorem event_skew (c : AC) (k : Nat) (l : List Nat) : (c.event k l).a.skew = c.a.skew := by
  unfold event; simp only; split <;> simp
@[simp] theorem event_slewLeft (c : AC) (k : Nat) (l : List Nat) : (c.event k l).a.slewLeft = c.a.slewLeft := by
  unfold event; simp only; split <;> simp
@[simp] theorem event_slewFrom (c : AC) (k : Nat) (l : List Nat) : (c.event k l).a.slewFrom = c.a.slewFrom := by
  unfold event; simp only; split <;> simp
@[simp] theorem event_banks (c : AC) (k : Nat) (l : List Nat) : (c.event k l).a.banks = c.a.banks := by
  unfold event; simp only; split <;> simp
@[simp] theorem event_shadowLoad (c : AC) (k : Nat) (l : List Nat) : (c.event k l).a.shadowLoad = c.a.shadowLoad := by
  unfold event; simp only; split <;> simp
@[simp] theorem event_staticLoad (c : AC) (k : Nat) (l : List Nat) : (c.event k l).a.staticLoad = c.a.staticLoad := by
  unfold event; simp only; split <;> simp
@[simp] theorem event_drainReq (c : AC) (k : Nat) (l : List Nat) : (c.event k l).a.drainReq = c.a.drainReq := by
  unfold event; simp only; split <;> simp
@[simp] theorem event_drainAt (c : AC) (k : Nat) (l : List Nat) : (c.event k l).a.drainAt = c.a.drainAt := by
  unfold event; simp only; split <;> simp
@[simp] theorem event_quietFrom (c : AC) (k : Nat) (l : List Nat) : (c.event k l).a.quietFrom = c.a.quietFrom := by
  unfold event; simp only; split <;> simp
@[simp] theorem event_commitAt (c : AC) (k : Nat) (l : List Nat) : (c.event k l).a.commitAt = c.a.commitAt := by
  unfold event; simp only; split <;> simp
@[simp] theorem event_resumed (c : AC) (k : Nat) (l : List Nat) : (c.event k l).a.resumed = c.a.resumed := by
  unfold event; simp only; split <;> simp
@[simp] theorem event_flipAt (c : AC) (k : Nat) (l : List Nat) : (c.event k l).a.flipAt = c.a.flipAt := by
  unfold event; simp only; split <;> simp
@[simp] theorem event_staticUntil (c : AC) (k : Nat) (l : List Nat) : (c.event k l).a.staticUntil = c.a.staticUntil := by
  unfold event; simp only; split <;> simp
@[simp] theorem event_listsFrom (c : AC) (k : Nat) (l : List Nat) : (c.event k l).a.listsFrom = c.a.listsFrom := by
  unfold event; simp only; split <;> simp
@[simp] theorem event_clearedSubs (c : AC) (k : Nat) (l : List Nat) : (c.event k l).a.clearedSubs = c.a.clearedSubs := by
  unfold event; simp only; split <;> simp
@[simp] theorem event_fences (c : AC) (k : Nat) (l : List Nat) : (c.event k l).a.fences = c.a.fences := by
  unfold event; simp only; split <;> simp
@[simp] theorem event_jobEpochs (c : AC) (k : Nat) (l : List Nat) : (c.event k l).a.jobEpochs = c.a.jobEpochs := by
  unfold event; simp only; split <;> simp
@[simp] theorem event_templates (c : AC) (k : Nat) (l : List Nat) : (c.event k l).a.templates = c.a.templates := by
  unfold event; simp only; split <;> simp
@[simp] theorem event_cur (c : AC) (k : Nat) (l : List Nat) : (c.event k l).a.cur = c.a.cur := by
  unfold event; simp only; split <;> simp
@[simp] theorem event_nxt (c : AC) (k : Nat) (l : List Nat) : (c.event k l).a.nxt = c.a.nxt := by
  unfold event; simp only; split <;> simp
@[simp] theorem event_gathers (c : AC) (k : Nat) (l : List Nat) : (c.event k l).a.gathers = c.a.gathers := by
  unfold event; simp only; split <;> simp
@[simp] theorem event_lateWindows (c : AC) (k : Nat) (l : List Nat) : (c.event k l).a.lateWindows = c.a.lateWindows := by
  unfold event; simp only; split <;> simp
@[simp] theorem event_lastStep (c : AC) (k : Nat) (l : List Nat) : (c.event k l).a.lastStep = c.a.lastStep := by
  unfold event; simp only; split <;> simp
@[simp] theorem event_windowStarted (c : AC) (k : Nat) (l : List Nat) : (c.event k l).a.windowStarted = c.a.windowStarted := by
  unfold event; simp only; split <;> simp
@[simp] theorem event_chunks (c : AC) (k : Nat) (l : List Nat) : (c.event k l).a.chunks = c.a.chunks := by
  unfold event; simp only; split <;> simp
@[simp] theorem event_flows (c : AC) (k : Nat) (l : List Nat) : (c.event k l).a.flows = c.a.flows := by
  unfold event; simp only; split <;> simp
@[simp] theorem event_ended (c : AC) (k : Nat) (l : List Nat) : (c.event k l).a.ended = c.a.ended := by
  unfold event; simp only; split <;> simp
@[simp] theorem event_echoes (c : AC) (k : Nat) (l : List Nat) : (c.event k l).a.echoes = c.a.echoes := by
  unfold event; simp only; split <;> simp
@[simp] theorem event_lastHalving (c : AC) (k : Nat) (l : List Nat) : (c.event k l).a.lastHalving = c.a.lastHalving := by
  unfold event; simp only; split <;> simp
@[simp] theorem event_lastRise (c : AC) (k : Nat) (l : List Nat) : (c.event k l).a.lastRise = c.a.lastRise := by
  unfold event; simp only; split <;> simp
@[simp] theorem event_loosePaceAt (c : AC) (k : Nat) (l : List Nat) : (c.event k l).a.loosePaceAt = c.a.loosePaceAt := by
  unfold event; simp only; split <;> simp
@[simp] theorem event_notices (c : AC) (k : Nat) (l : List Nat) : (c.event k l).a.notices = c.a.notices := by
  unfold event; simp only; split <;> simp
@[simp] theorem event_timeReq (c : AC) (k : Nat) (l : List Nat) : (c.event k l).a.timeReq = c.a.timeReq := by
  unfold event; simp only; split <;> simp
@[simp] theorem event_exchangeAt (c : AC) (k : Nat) (l : List Nat) : (c.event k l).a.exchangeAt = c.a.exchangeAt := by
  unfold event; simp only; split <;> simp
@[simp] theorem event_timeRetry (c : AC) (k : Nat) (l : List Nat) : (c.event k l).a.timeRetry = c.a.timeRetry := by
  unfold event; simp only; split <;> simp
@[simp] theorem event_lastExchange (c : AC) (k : Nat) (l : List Nat) : (c.event k l).a.lastExchange = c.a.lastExchange := by
  unfold event; simp only; split <;> simp
@[simp] theorem event_schedHeld (c : AC) (k : Nat) (l : List Nat) : (c.event k l).a.schedHeld = c.a.schedHeld := by
  unfold event; simp only; split <;> simp
@[simp] theorem event_lastPartMsg (c : AC) (k : Nat) (l : List Nat) : (c.event k l).a.lastPartMsg = c.a.lastPartMsg := by
  unfold event; simp only; split <;> simp
@[simp] theorem event_pairs (c : AC) (k : Nat) (l : List Nat) : (c.event k l).a.pairs = c.a.pairs := by
  unfold event; simp only; split <;> simp
@[simp] theorem event_requests (c : AC) (k : Nat) (l : List Nat) : (c.event k l).a.requests = c.a.requests := by
  unfold event; simp only; split <;> simp
@[simp] theorem event_stored (c : AC) (k : Nat) (l : List Nat) : (c.event k l).a.stored = c.a.stored := by
  unfold event; simp only; split <;> simp
@[simp] theorem event_nextTag (c : AC) (k : Nat) (l : List Nat) : (c.event k l).a.nextTag = c.a.nextTag := by
  unfold event; simp only; split <;> simp
@[simp] theorem event_log (c : AC) (k : Nat) (l : List Nat) : (c.event k l).a.log = c.a.log := by
  unfold event; simp only; split <;> simp
@[simp] theorem event_viewHigh (c : AC) (k : Nat) (l : List Nat) : (c.event k l).a.viewHigh = c.a.viewHigh := by
  unfold event; simp only; split <;> simp
@[simp] theorem event_measuring (c : AC) (k : Nat) (l : List Nat) : (c.event k l).a.measuring = c.a.measuring := by
  unfold event; simp only; split <;> simp
@[simp] theorem event_telemAt (c : AC) (k : Nat) (l : List Nat) : (c.event k l).a.telemAt = c.a.telemAt := by
  unfold event; simp only; split <;> simp

/-- An event leaves every register of the agent's own pages as it is, but for INT_STATUS and the counters of sending. -/
@[simp] theorem event_get (c : AC) (k : Nat) (l : List Nat) (r : Reg) (h : sendMoves r = false) (h' : r ≠ .ACOMMON_INT_STATUS) :
    (c.event k l).a.regs.get r 0 0 = c.a.regs.get r 0 0 := by
  unfold event; simp only; split
  · rw [send_get _ _ _ _ h]; simp [Ne.symm h']
  · simp [Ne.symm h']

/-- An event latches its bit of INT_STATUS (R96). -/
theorem event_latched (c : AC) (k : Nat) (l : List Nat) :
    (c.event k l).a.regs.get .ACOMMON_INT_STATUS 0 0 =
      trunc 16 (c.a.regs.get .ACOMMON_INT_STATUS 0 0 ||| 2 ^ (k % 256 - 1)) := by
  have hw : Reg.width .ACOMMON_INT_STATUS = 16 := rfl
  unfold event; simp only; split
  · rw [send_get _ _ _ _ rfl]; simp [hw, reg]
  · simp [hw, reg]

/-! Answers -/

@[simp] theorem reply_u (c : AC) (s g k st : Nat) (b : List Nat) : (c.reply s g k st b).u = c.u := by simp [reply]
@[simp] theorem reply_now (c : AC) (s g k st : Nat) (b : List Nat) : (c.reply s g k st b).now = c.now := by simp [reply]
@[simp] theorem reply_out (c : AC) (s g k st : Nat) (b : List Nat) : (c.reply s g k st b).out = c.out := by simp [reply]
@[simp] theorem reply_get (c : AC) (s g k st : Nat) (b : List Nat) (r : Reg) (h : sendMoves r = false) :
    (c.reply s g k st b).a.regs.get r 0 0 = c.a.regs.get r 0 0 := by
  simp [reply, send_get _ _ _ _ h]

@[simp] theorem reply_skew (c : AC) (s g k st : Nat) (b : List Nat) : (c.reply s g k st b).a.skew = c.a.skew := by simp [reply]
@[simp] theorem reply_slewLeft (c : AC) (s g k st : Nat) (b : List Nat) : (c.reply s g k st b).a.slewLeft = c.a.slewLeft := by simp [reply]
@[simp] theorem reply_slewFrom (c : AC) (s g k st : Nat) (b : List Nat) : (c.reply s g k st b).a.slewFrom = c.a.slewFrom := by simp [reply]
@[simp] theorem reply_banks (c : AC) (s g k st : Nat) (b : List Nat) : (c.reply s g k st b).a.banks = c.a.banks := by simp [reply]
@[simp] theorem reply_shadowLoad (c : AC) (s g k st : Nat) (b : List Nat) : (c.reply s g k st b).a.shadowLoad = c.a.shadowLoad := by simp [reply]
@[simp] theorem reply_staticLoad (c : AC) (s g k st : Nat) (b : List Nat) : (c.reply s g k st b).a.staticLoad = c.a.staticLoad := by simp [reply]
@[simp] theorem reply_drainReq (c : AC) (s g k st : Nat) (b : List Nat) : (c.reply s g k st b).a.drainReq = c.a.drainReq := by simp [reply]
@[simp] theorem reply_drainAt (c : AC) (s g k st : Nat) (b : List Nat) : (c.reply s g k st b).a.drainAt = c.a.drainAt := by simp [reply]
@[simp] theorem reply_quietFrom (c : AC) (s g k st : Nat) (b : List Nat) : (c.reply s g k st b).a.quietFrom = c.a.quietFrom := by simp [reply]
@[simp] theorem reply_commitAt (c : AC) (s g k st : Nat) (b : List Nat) : (c.reply s g k st b).a.commitAt = c.a.commitAt := by simp [reply]
@[simp] theorem reply_resumed (c : AC) (s g k st : Nat) (b : List Nat) : (c.reply s g k st b).a.resumed = c.a.resumed := by simp [reply]
@[simp] theorem reply_flipAt (c : AC) (s g k st : Nat) (b : List Nat) : (c.reply s g k st b).a.flipAt = c.a.flipAt := by simp [reply]
@[simp] theorem reply_staticUntil (c : AC) (s g k st : Nat) (b : List Nat) : (c.reply s g k st b).a.staticUntil = c.a.staticUntil := by simp [reply]
@[simp] theorem reply_listsFrom (c : AC) (s g k st : Nat) (b : List Nat) : (c.reply s g k st b).a.listsFrom = c.a.listsFrom := by simp [reply]
@[simp] theorem reply_clearedSubs (c : AC) (s g k st : Nat) (b : List Nat) : (c.reply s g k st b).a.clearedSubs = c.a.clearedSubs := by simp [reply]
@[simp] theorem reply_fences (c : AC) (s g k st : Nat) (b : List Nat) : (c.reply s g k st b).a.fences = c.a.fences := by simp [reply]
@[simp] theorem reply_jobEpochs (c : AC) (s g k st : Nat) (b : List Nat) : (c.reply s g k st b).a.jobEpochs = c.a.jobEpochs := by simp [reply]
@[simp] theorem reply_templates (c : AC) (s g k st : Nat) (b : List Nat) : (c.reply s g k st b).a.templates = c.a.templates := by simp [reply]
@[simp] theorem reply_cur (c : AC) (s g k st : Nat) (b : List Nat) : (c.reply s g k st b).a.cur = c.a.cur := by simp [reply]
@[simp] theorem reply_nxt (c : AC) (s g k st : Nat) (b : List Nat) : (c.reply s g k st b).a.nxt = c.a.nxt := by simp [reply]
@[simp] theorem reply_gathers (c : AC) (s g k st : Nat) (b : List Nat) : (c.reply s g k st b).a.gathers = c.a.gathers := by simp [reply]
@[simp] theorem reply_lateWindows (c : AC) (s g k st : Nat) (b : List Nat) : (c.reply s g k st b).a.lateWindows = c.a.lateWindows := by simp [reply]
@[simp] theorem reply_lastStep (c : AC) (s g k st : Nat) (b : List Nat) : (c.reply s g k st b).a.lastStep = c.a.lastStep := by simp [reply]
@[simp] theorem reply_windowStarted (c : AC) (s g k st : Nat) (b : List Nat) : (c.reply s g k st b).a.windowStarted = c.a.windowStarted := by simp [reply]
@[simp] theorem reply_chunks (c : AC) (s g k st : Nat) (b : List Nat) : (c.reply s g k st b).a.chunks = c.a.chunks := by simp [reply]
@[simp] theorem reply_flows (c : AC) (s g k st : Nat) (b : List Nat) : (c.reply s g k st b).a.flows = c.a.flows := by simp [reply]
@[simp] theorem reply_ended (c : AC) (s g k st : Nat) (b : List Nat) : (c.reply s g k st b).a.ended = c.a.ended := by simp [reply]
@[simp] theorem reply_echoes (c : AC) (s g k st : Nat) (b : List Nat) : (c.reply s g k st b).a.echoes = c.a.echoes := by simp [reply]
@[simp] theorem reply_lastHalving (c : AC) (s g k st : Nat) (b : List Nat) : (c.reply s g k st b).a.lastHalving = c.a.lastHalving := by simp [reply]
@[simp] theorem reply_lastRise (c : AC) (s g k st : Nat) (b : List Nat) : (c.reply s g k st b).a.lastRise = c.a.lastRise := by simp [reply]
@[simp] theorem reply_loosePaceAt (c : AC) (s g k st : Nat) (b : List Nat) : (c.reply s g k st b).a.loosePaceAt = c.a.loosePaceAt := by simp [reply]
@[simp] theorem reply_notices (c : AC) (s g k st : Nat) (b : List Nat) : (c.reply s g k st b).a.notices = c.a.notices := by simp [reply]
@[simp] theorem reply_timeReq (c : AC) (s g k st : Nat) (b : List Nat) : (c.reply s g k st b).a.timeReq = c.a.timeReq := by simp [reply]
@[simp] theorem reply_exchangeAt (c : AC) (s g k st : Nat) (b : List Nat) : (c.reply s g k st b).a.exchangeAt = c.a.exchangeAt := by simp [reply]
@[simp] theorem reply_timeRetry (c : AC) (s g k st : Nat) (b : List Nat) : (c.reply s g k st b).a.timeRetry = c.a.timeRetry := by simp [reply]
@[simp] theorem reply_lastExchange (c : AC) (s g k st : Nat) (b : List Nat) : (c.reply s g k st b).a.lastExchange = c.a.lastExchange := by simp [reply]
@[simp] theorem reply_schedHeld (c : AC) (s g k st : Nat) (b : List Nat) : (c.reply s g k st b).a.schedHeld = c.a.schedHeld := by simp [reply]
@[simp] theorem reply_lastPartMsg (c : AC) (s g k st : Nat) (b : List Nat) : (c.reply s g k st b).a.lastPartMsg = c.a.lastPartMsg := by simp [reply]
@[simp] theorem reply_pairs (c : AC) (s g k st : Nat) (b : List Nat) : (c.reply s g k st b).a.pairs = c.a.pairs := by simp [reply]
@[simp] theorem reply_requests (c : AC) (s g k st : Nat) (b : List Nat) : (c.reply s g k st b).a.requests = c.a.requests := by simp [reply]
@[simp] theorem reply_nextTag (c : AC) (s g k st : Nat) (b : List Nat) : (c.reply s g k st b).a.nextTag = c.a.nextTag := by simp [reply]
@[simp] theorem reply_log (c : AC) (s g k st : Nat) (b : List Nat) : (c.reply s g k st b).a.log = c.a.log := by simp [reply]
@[simp] theorem reply_viewHigh (c : AC) (s g k st : Nat) (b : List Nat) : (c.reply s g k st b).a.viewHigh = c.a.viewHigh := by simp [reply]
@[simp] theorem reply_measuring (c : AC) (s g k st : Nat) (b : List Nat) : (c.reply s g k st b).a.measuring = c.a.measuring := by simp [reply]
@[simp] theorem reply_telemAt (c : AC) (s g k st : Nat) (b : List Nat) : (c.reply s g k st b).a.telemAt = c.a.telemAt := by simp [reply]

/-- An answer is kept for a repetition of the request (R95). -/
theorem reply_kept (c : AC) (s g k st : Nat) (b : List Nat) :
    ⟨s, g, { type := k + 1, status := st, tag := g, body := b }, c.now + c.keepTime⟩ ∈ (c.reply s g k st b).a.stored := by
  simp [reply]

/-! What a message meets -/

/-- The agent once a good message has been logged and heard. -/
def met (c : AC) (e : Env) (type : Nat) : AC :=
  let c := c.logMsg e type
  let c := if 0x0F ≤ e.status then c.count .ACONTROL_RESERVED_STATUS else c
  c.heard e type

@[simp] theorem met_u (c : AC) (e : Env) (k : Nat) : (c.met e k).u = c.u := by
  unfold met heard logMsg; simp only; split <;> split <;> (try split) <;> rfl
@[simp] theorem met_now (c : AC) (e : Env) (k : Nat) : (c.met e k).now = c.now := by
  unfold met heard logMsg; simp only; split <;> split <;> (try split) <;> rfl
@[simp] theorem met_out (c : AC) (e : Env) (k : Nat) : (c.met e k).out = c.out := by
  unfold met heard logMsg; simp only; split <;> split <;> (try split) <;> rfl

@[simp] theorem met_skew (c : AC) (e : Env) (k : Nat) : (c.met e k).a.skew = c.a.skew := by
  unfold met heard logMsg; simp only; split <;> split <;> (try split) <;> rfl
@[simp] theorem met_slewLeft (c : AC) (e : Env) (k : Nat) : (c.met e k).a.slewLeft = c.a.slewLeft := by
  unfold met heard logMsg; simp only; split <;> split <;> (try split) <;> rfl
@[simp] theorem met_slewFrom (c : AC) (e : Env) (k : Nat) : (c.met e k).a.slewFrom = c.a.slewFrom := by
  unfold met heard logMsg; simp only; split <;> split <;> (try split) <;> rfl
@[simp] theorem met_banks (c : AC) (e : Env) (k : Nat) : (c.met e k).a.banks = c.a.banks := by
  unfold met heard logMsg; simp only; split <;> split <;> (try split) <;> rfl
@[simp] theorem met_ports (c : AC) (e : Env) (k : Nat) : (c.met e k).a.ports = c.a.ports := by
  unfold met heard logMsg; simp only; split <;> split <;> (try split) <;> rfl
@[simp] theorem met_shadowLoad (c : AC) (e : Env) (k : Nat) : (c.met e k).a.shadowLoad = c.a.shadowLoad := by
  unfold met heard logMsg; simp only; split <;> split <;> (try split) <;> rfl
@[simp] theorem met_staticLoad (c : AC) (e : Env) (k : Nat) : (c.met e k).a.staticLoad = c.a.staticLoad := by
  unfold met heard logMsg; simp only; split <;> split <;> (try split) <;> rfl
@[simp] theorem met_drainReq (c : AC) (e : Env) (k : Nat) : (c.met e k).a.drainReq = c.a.drainReq := by
  unfold met heard logMsg; simp only; split <;> split <;> (try split) <;> rfl
@[simp] theorem met_drainAt (c : AC) (e : Env) (k : Nat) : (c.met e k).a.drainAt = c.a.drainAt := by
  unfold met heard logMsg; simp only; split <;> split <;> (try split) <;> rfl
@[simp] theorem met_quietFrom (c : AC) (e : Env) (k : Nat) : (c.met e k).a.quietFrom = c.a.quietFrom := by
  unfold met heard logMsg; simp only; split <;> split <;> (try split) <;> rfl
@[simp] theorem met_commitAt (c : AC) (e : Env) (k : Nat) : (c.met e k).a.commitAt = c.a.commitAt := by
  unfold met heard logMsg; simp only; split <;> split <;> (try split) <;> rfl
@[simp] theorem met_resumed (c : AC) (e : Env) (k : Nat) : (c.met e k).a.resumed = c.a.resumed := by
  unfold met heard logMsg; simp only; split <;> split <;> (try split) <;> rfl
@[simp] theorem met_flipAt (c : AC) (e : Env) (k : Nat) : (c.met e k).a.flipAt = c.a.flipAt := by
  unfold met heard logMsg; simp only; split <;> split <;> (try split) <;> rfl
@[simp] theorem met_staticUntil (c : AC) (e : Env) (k : Nat) : (c.met e k).a.staticUntil = c.a.staticUntil := by
  unfold met heard logMsg; simp only; split <;> split <;> (try split) <;> rfl
@[simp] theorem met_listsFrom (c : AC) (e : Env) (k : Nat) : (c.met e k).a.listsFrom = c.a.listsFrom := by
  unfold met heard logMsg; simp only; split <;> split <;> (try split) <;> rfl
@[simp] theorem met_clearedSubs (c : AC) (e : Env) (k : Nat) : (c.met e k).a.clearedSubs = c.a.clearedSubs := by
  unfold met heard logMsg; simp only; split <;> split <;> (try split) <;> rfl
@[simp] theorem met_fences (c : AC) (e : Env) (k : Nat) : (c.met e k).a.fences = c.a.fences := by
  unfold met heard logMsg; simp only; split <;> split <;> (try split) <;> rfl
@[simp] theorem met_jobEpochs (c : AC) (e : Env) (k : Nat) : (c.met e k).a.jobEpochs = c.a.jobEpochs := by
  unfold met heard logMsg; simp only; split <;> split <;> (try split) <;> rfl
@[simp] theorem met_templates (c : AC) (e : Env) (k : Nat) : (c.met e k).a.templates = c.a.templates := by
  unfold met heard logMsg; simp only; split <;> split <;> (try split) <;> rfl
@[simp] theorem met_cur (c : AC) (e : Env) (k : Nat) : (c.met e k).a.cur = c.a.cur := by
  unfold met heard logMsg; simp only; split <;> split <;> (try split) <;> rfl
@[simp] theorem met_nxt (c : AC) (e : Env) (k : Nat) : (c.met e k).a.nxt = c.a.nxt := by
  unfold met heard logMsg; simp only; split <;> split <;> (try split) <;> rfl
@[simp] theorem met_gathers (c : AC) (e : Env) (k : Nat) : (c.met e k).a.gathers = c.a.gathers := by
  unfold met heard logMsg; simp only; split <;> split <;> (try split) <;> rfl
@[simp] theorem met_lateWindows (c : AC) (e : Env) (k : Nat) : (c.met e k).a.lateWindows = c.a.lateWindows := by
  unfold met heard logMsg; simp only; split <;> split <;> (try split) <;> rfl
@[simp] theorem met_lastStep (c : AC) (e : Env) (k : Nat) : (c.met e k).a.lastStep = c.a.lastStep := by
  unfold met heard logMsg; simp only; split <;> split <;> (try split) <;> rfl
@[simp] theorem met_windowStarted (c : AC) (e : Env) (k : Nat) : (c.met e k).a.windowStarted = c.a.windowStarted := by
  unfold met heard logMsg; simp only; split <;> split <;> (try split) <;> rfl
@[simp] theorem met_chunks (c : AC) (e : Env) (k : Nat) : (c.met e k).a.chunks = c.a.chunks := by
  unfold met heard logMsg; simp only; split <;> split <;> (try split) <;> rfl
@[simp] theorem met_flows (c : AC) (e : Env) (k : Nat) : (c.met e k).a.flows = c.a.flows := by
  unfold met heard logMsg; simp only; split <;> split <;> (try split) <;> rfl
@[simp] theorem met_ended (c : AC) (e : Env) (k : Nat) : (c.met e k).a.ended = c.a.ended := by
  unfold met heard logMsg; simp only; split <;> split <;> (try split) <;> rfl
@[simp] theorem met_echoes (c : AC) (e : Env) (k : Nat) : (c.met e k).a.echoes = c.a.echoes := by
  unfold met heard logMsg; simp only; split <;> split <;> (try split) <;> rfl
@[simp] theorem met_lastHalving (c : AC) (e : Env) (k : Nat) : (c.met e k).a.lastHalving = c.a.lastHalving := by
  unfold met heard logMsg; simp only; split <;> split <;> (try split) <;> rfl
@[simp] theorem met_lastRise (c : AC) (e : Env) (k : Nat) : (c.met e k).a.lastRise = c.a.lastRise := by
  unfold met heard logMsg; simp only; split <;> split <;> (try split) <;> rfl
@[simp] theorem met_loosePaceAt (c : AC) (e : Env) (k : Nat) : (c.met e k).a.loosePaceAt = c.a.loosePaceAt := by
  unfold met heard logMsg; simp only; split <;> split <;> (try split) <;> rfl
@[simp] theorem met_notices (c : AC) (e : Env) (k : Nat) : (c.met e k).a.notices = c.a.notices := by
  unfold met heard logMsg; simp only; split <;> split <;> (try split) <;> rfl
@[simp] theorem met_timeReq (c : AC) (e : Env) (k : Nat) : (c.met e k).a.timeReq = c.a.timeReq := by
  unfold met heard logMsg; simp only; split <;> split <;> (try split) <;> rfl
@[simp] theorem met_exchangeAt (c : AC) (e : Env) (k : Nat) : (c.met e k).a.exchangeAt = c.a.exchangeAt := by
  unfold met heard logMsg; simp only; split <;> split <;> (try split) <;> rfl
@[simp] theorem met_timeRetry (c : AC) (e : Env) (k : Nat) : (c.met e k).a.timeRetry = c.a.timeRetry := by
  unfold met heard logMsg; simp only; split <;> split <;> (try split) <;> rfl
@[simp] theorem met_lastExchange (c : AC) (e : Env) (k : Nat) : (c.met e k).a.lastExchange = c.a.lastExchange := by
  unfold met heard logMsg; simp only; split <;> split <;> (try split) <;> rfl
@[simp] theorem met_schedHeld (c : AC) (e : Env) (k : Nat) : (c.met e k).a.schedHeld = c.a.schedHeld := by
  unfold met heard logMsg; simp only; split <;> split <;> (try split) <;> rfl
@[simp] theorem met_pairs (c : AC) (e : Env) (k : Nat) : (c.met e k).a.pairs = c.a.pairs := by
  unfold met heard logMsg; simp only; split <;> split <;> (try split) <;> rfl
@[simp] theorem met_requests (c : AC) (e : Env) (k : Nat) : (c.met e k).a.requests = c.a.requests := by
  unfold met heard logMsg; simp only; split <;> split <;> (try split) <;> rfl
@[simp] theorem met_stored (c : AC) (e : Env) (k : Nat) : (c.met e k).a.stored = c.a.stored := by
  unfold met heard logMsg; simp only; split <;> split <;> (try split) <;> rfl
@[simp] theorem met_nextTag (c : AC) (e : Env) (k : Nat) : (c.met e k).a.nextTag = c.a.nextTag := by
  unfold met heard logMsg; simp only; split <;> split <;> (try split) <;> rfl
@[simp] theorem met_viewHigh (c : AC) (e : Env) (k : Nat) : (c.met e k).a.viewHigh = c.a.viewHigh := by
  unfold met heard logMsg; simp only; split <;> split <;> (try split) <;> rfl
@[simp] theorem met_measuring (c : AC) (e : Env) (k : Nat) : (c.met e k).a.measuring = c.a.measuring := by
  unfold met heard logMsg; simp only; split <;> split <;> (try split) <;> rfl
@[simp] theorem met_telemAt (c : AC) (e : Env) (k : Nat) : (c.met e k).a.telemAt = c.a.telemAt := by
  unfold met heard logMsg; simp only; split <;> split <;> (try split) <;> rfl

/-- The fields that a message may change before its own effect. -/
def metMoves (r : Reg) : Bool := r == .ALOG_NEXT || r == .ACONTROL_RESERVED_STATUS || r == .ACONTROL_MODE

/-- A message that is heard leaves the other registers as they are. -/
@[simp] theorem met_get (c : AC) (e : Env) (k : Nat) (r : Reg) (h : metMoves r = false) (i : Nat) (hi : i < 4096) :
    (c.met e k).a.regs.get r i 0 = c.a.regs.get r i 0 := by
  simp only [metMoves, Bool.or_eq_false_iff, beq_eq_false_iff_ne, ne_eq] at h
  obtain ⟨⟨h1, h2⟩, h3⟩ := h
  have far : ∀ (f : RegFile) (q : Reg) (v : Nat), q ≠ r → (f.set q 0 0 v).get r i 0 = f.get r i 0 :=
    fun f q v hq => RegFile.get_set_far f v hq (by decide) hi (by decide) (by decide)
  unfold met heard logMsg; simp only [count, countN, RegFile.count]
  split <;> split <;> (try split) <;> simp [far _ _ _ (Ne.symm h1), far _ _ _ (Ne.symm h2), far _ _ _ (Ne.symm h3)]

/-- MODE after a message is heard: a message from PARTITION_FID that is not HOLD ends outage (R93). -/
theorem met_mode (c : AC) (e : Env) (k : Nat) :
    (c.met e k).a.regs.get .ACONTROL_MODE 0 0 =
      if e.src = c.a.regs.get .AIDENT_PARTITION_FID 0 0 ∧ e.src ≠ nullFid ∧ k ≠ 0x47 ∧ c.a.regs.get .ACONTROL_MODE 0 0 = 1 then 0
      else c.a.regs.get .ACONTROL_MODE 0 0 := by
  unfold met heard logMsg; simp only [reg]
  split <;> split <;> (try split) <;> simp_all [trunc] <;> grind

/-- The rights of R73 do not depend on what a message changes before its own effect. -/
theorem met_allowed (c : AC) (r : Right) (e : Env) (k : Nat) (h : e.port < 4096) :
    (c.met e k).allowed r e = c.allowed r e := by
  have h0 : ∀ q : Reg, metMoves q = false → (c.met e k).reg q = c.reg q := fun q hq => met_get c e k q hq 0 (by decide)
  have h1 : (c.met e k).preg .APORT_PARTNER_FID e.port = c.preg .APORT_PARTNER_FID e.port := met_get c e k _ rfl _ h
  unfold allowed controls
  rw [h1]
  cases r <;> simp [h0 .AIDENT_PARTITION_FID rfl, h0 .AIDENT_ALT_FID0 rfl, h0 .AIDENT_ALT_FID1 rfl, h0 .AIDENT_ALT_FID2 rfl]

/-- A good message from a source that may send it has its own effect (R73, R95). -/
theorem receive_ok (c : AC) (e : Env) (k : Nat) (r : Right) (f : AC → AC) (h : e.port < 4096) (hg : e.good = true)
    (ha : c.allowed r e = true) : c.receive e k r f = f (c.met e k) := by
  have := met_allowed c r e k h
  unfold receive
  simp only [hg]
  show (if (c.met e k).allowed r e = true then f (c.met e k) else _) = _
  rw [this, ha]; rfl

/-- A request whose TAG is new has its own effect (R95). -/
theorem request_ok (c : AC) (e : Env) (k : Nat) (r : Right) (f : AC → AC) (h : e.port < 4096) (hg : e.good = true)
    (ha : c.allowed r e = true) (hs : c.a.stored.find? (fun x => x.src = e.src && x.tag = e.tag && c.now < x.till) = none) :
    c.request e k r f = f (c.met e k) := by
  unfold request
  rw [receive_ok c e k r _ h hg ha]
  simp [hs]

end Sys2Proof.Machine.AC

namespace Sys2Proof.Machine.Chip

open Sys2Proof

/-- A message that an agent takes: its record is what the message's own effect leaves of it. -/
theorem onMsg_ok (c : Chip) (e : Env) (k : Nat) (r : AC.Right) (f : AC → AC) (hp : e.unit.profile ≠ .partition)
    (h : e.port < 4096) (hg : e.good = true)
    (ha : (c.acOf e.unit).allowed r e = true) :
    c.onMsg e k r f = c.onAgent e.unit fun a => f (a.met e k) := by
  simp only [onMsg, atAgent, if_neg hp, onAgent]
  rw [AC.receive_ok _ e k r f h hg ha]

/-- The same of a request whose TAG is new. -/
theorem onReq_ok (c : Chip) (e : Env) (k : Nat) (r : AC.Right) (f : AC → AC) (hp : e.unit.profile ≠ .partition)
    (h : e.port < 4096) (hg : e.good = true)
    (ha : (c.acOf e.unit).allowed r e = true)
    (hs : (c.acOf e.unit).a.stored.find? (fun x => x.src = e.src && x.tag = e.tag && (c.acOf e.unit).now < x.till) = none) :
    c.onReq e k r f = c.onAgent e.unit fun a => f (a.met e k) := by
  simp only [onReq, atAgent, if_neg hp, onAgent]
  rw [AC.request_ok _ e k r f h hg ha hs]

end Sys2Proof.Machine.Chip
end

