-- ==== Sys2Proof/Laws/Memory.lean ====
section
/-! SUPPORT. Host memory and tiles: what a read gives after a write, and that every write keeps the canonical form. -/

namespace Sys2Proof.Machine

open Sys2Proof

/-! Host memory -/

namespace Chip

@[simp] theorem setHostByte_parts (c : Chip) (port a v : Nat) : (c.setHostByte port a v).parts = c.parts := rfl
@[simp] theorem zeroHost_parts (c : Chip) (port a n : Nat) : (c.zeroHost port a n).parts = c.parts := rfl

@[simp] theorem writeHost_parts (port : Nat) (l : List Nat) : ∀ (c : Chip) (a : Nat), (c.writeHost port a l).parts = c.parts := by
  induction l with
  | nil => intro c a; rfl
  | cons v r ih => intro c a; simp only [writeHost, ih, setHostByte_parts]

/-- A byte read after a byte written. -/
theorem hostByte_setHostByte (c : Chip) (port a v q b : Nat) :
    (c.setHostByte port a v).hostByte q b = if hostKey port a = hostKey q b then v % 256 else c.hostByte q b := by
  simp only [hostByte, setHostByte, SMap.get_set]
  split <;> simp

/-- Two addresses of host memory are one byte only where port and address agree. -/
theorem hostKey_inj {port a q b : Nat} (h : hostKey port a = hostKey q b) : port = q ∧ a % 2 ^ 64 = b % 2 ^ 64 := by
  unfold hostKey at h; omega

/-- Writing bytes leaves every other byte alone. -/
theorem hostByte_writeHost_other (port q b : Nat) (l : List Nat) : ∀ (c : Chip) (a : Nat),
    (∀ k < l.length, hostKey port (a + k) ≠ hostKey q b) → (c.writeHost port a l).hostByte q b = c.hostByte q b := by
  induction l with
  | nil => intro c a _; rfl
  | cons v r ih =>
    intro c a h
    have h0 := h 0 (by simp)
    rw [writeHost, ih _ _ fun k hk => ?_, hostByte_setHostByte, if_neg (by simpa using h0)]
    have := h (k + 1) (by simpa using hk)
    rwa [show a + 1 + k = a + (k + 1) by omega]

/-- A byte written among others reads back, where the bytes do not wrap onto one another. -/
theorem hostByte_writeHost (port : Nat) (l : List Nat) : ∀ (c : Chip) (a k : Nat), l.length ≤ 2 ^ 64 → (h : k < l.length) →
    (c.writeHost port a l).hostByte port (a + k) = l[k] % 256 := by
  induction l with
  | nil => intro c a k _ h; simp at h
  | cons v r ih =>
    intro c a k hl h
    cases k with
    | zero =>
      rw [writeHost, hostByte_writeHost_other, hostByte_setHostByte, if_pos (by simp)]
      · simp
      · intro k hk hh
        simp only [List.length_cons] at hl
        unfold hostKey at hh; omega
    | succ k =>
      rw [writeHost, show a + (k + 1) = a + 1 + k by omega, ih _ _ _ (by simp only [List.length_cons] at hl; omega) (by simpa using h)]
      simp

end Chip

/-- Canonical form rests on host memory and the partitions alone. -/
theorem Memory.wf_congr {c d : Chip} (h : c.hostMem = d.hostMem) (hp : c.parts = d.parts) : Memory.wf c = Memory.wf d := by
  simp only [Memory.wf, h, hp]

/-- Canonical form of host memory is one half of it. -/
theorem Memory.wf_host {c : Chip} (h : Memory.wf c = true) : SMap.wf 0#8 c.hostMem = true := by
  simp only [Memory.wf, Bool.and_eq_true] at h; exact h.1

theorem Memory.wf_setHostByte {c : Chip} (h : Memory.wf c = true) (port a v : Nat) : Memory.wf (c.setHostByte port a v) = true := by
  simp only [Memory.wf, Bool.and_eq_true] at *
  exact ⟨SMap.wf_set _ _ _ _ h.1, h.2⟩

theorem Memory.wf_zeroHost {c : Chip} (h : Memory.wf c = true) (port a n : Nat) : Memory.wf (c.zeroHost port a n) = true := by
  simp only [Memory.wf, Bool.and_eq_true] at *
  exact ⟨SMap.wf_eraseRange _ _ _ _ h.1, h.2⟩

theorem Memory.wf_writeHost (port : Nat) (l : List Nat) : ∀ {c : Chip} (a : Nat), Memory.wf c = true →
    Memory.wf (c.writeHost port a l) = true := by
  induction l with
  | nil => intro c a h; exact h
  | cons v r ih => intro c a h; exact ih (a + 1) (Memory.wf_setHostByte h port a v)

/-! Tiles -/

/-- The entries of a map after a write come from the write or were there. -/
theorem all_set {α : Type} [DecidableEq α] (d : α) (m : SMap α) (k : Nat) (v : α) (P : α → Bool) (hv : P v = true)
    (h : (m.all fun e => P e.2) = true) : ((SMap.set d m k v).all fun e => P e.2) = true := by
  simp only [List.all_eq_true] at *
  intro x hx
  simp only [SMap.set] at hx
  split at hx
  · rw [SMap.erase_eq_filter] at hx; exact h x (List.mem_filter.1 hx).1
  · rcases SMap.mem_insert_key m k v hx with rfl | hx
    · exact hv
    · exact h x hx

/-- The memories of one partition are in canonical form. -/
theorem Memory.wf_part {c : Chip} (h : Memory.wf c = true) (p : Nat) :
    SMap.wf {} (c.part p).tiles = true ∧ ((c.part p).tiles.all fun t => SMap.wf 0 t.2.data) = true := by
  simp only [Memory.wf, Bool.and_eq_true, List.all_eq_true] at h
  have aux : ∀ m : SMap Part, (∀ x ∈ m, SMap.wf {} x.2.tiles = true ∧ ∀ t ∈ x.2.tiles, SMap.wf 0 t.2.data = true) →
      SMap.wf {} (SMap.get {} m p).tiles = true ∧ ∀ t ∈ (SMap.get {} m p).tiles, SMap.wf 0 t.2.data = true := by
    intro m hm
    induction m with
    | nil => exact ⟨rfl, fun t ht => by simp [SMap.get, SMap.find?] at ht⟩
    | cons e r ih =>
      obtain ⟨a, b⟩ := e
      by_cases hk : a = p
      · have := hm (a, b) List.mem_cons_self
        simpa [SMap.get, SMap.find?, hk] using this
      · have := ih fun x hx => hm x (List.mem_cons_of_mem _ hx)
        simpa [SMap.get, SMap.find?, hk] using this
  have := aux c.parts h.2
  simpa only [Chip.part, List.all_eq_true] using this

/-- A change of a partition keeps the form where it keeps that of the partition's own memories. -/
theorem Memory.wf_modPart {c : Chip} (h : Memory.wf c = true) (p : Nat) (f : Part → Part)
    (hf : SMap.wf {} (f (c.part p)).tiles = true) (hd : ((f (c.part p)).tiles.all fun t => SMap.wf 0 t.2.data) = true) :
    Memory.wf (c.modPart p f) = true := by
  simp only [Memory.wf, Bool.and_eq_true] at *
  refine ⟨h.1, ?_⟩
  exact all_set {} c.parts p (f (c.part p)) (fun q : Part => SMap.wf ({} : Tile) q.tiles && q.tiles.all fun t => SMap.wf 0 t.2.data)
    (by simp only [hf, hd, Bool.and_self]) h.2

/-- A tile written keeps the form where its own payload is in canonical form. -/
theorem Memory.wf_setTile {c : Chip} (h : Memory.wf c = true) (p n : Nat) (t : Tile) (ht : SMap.wf 0 t.data = true) :
    Memory.wf (c.setTile p n t) = true := by
  have hp := Memory.wf_part h p
  exact Memory.wf_modPart h p _ (SMap.wf_set _ _ _ _ hp.1) (all_set {} _ n t (fun t => SMap.wf 0 t.data) ht hp.2)

theorem Memory.wf_putTiles (p first : Nat) (l : List Tile) {c : Chip} (h : Memory.wf c = true)
    (ht : ∀ t ∈ l, SMap.wf 0 t.data = true) : Memory.wf (c.putTiles p first l) = true := by
  have aux : ∀ (l : List (Tile × Nat)) (c : Chip), Memory.wf c = true → (∀ e ∈ l, SMap.wf 0 e.1.data = true) →
      Memory.wf (l.foldl (fun c e => c.setTile p (first + e.2) e.1) c) = true := by
    intro l
    induction l with
    | nil => intro c h _; exact h
    | cons e r ih =>
      intro c h he
      exact ih _ (Memory.wf_setTile h p _ e.1 (he e List.mem_cons_self)) fun x hx => he x (List.mem_cons_of_mem _ hx)
  exact aux _ c h fun e he => ht e.1 (by rw [(List.mem_zipIdx he).2.2]; exact List.getElem_mem _)

/-- Payload bytes written keep the payload's form. -/
theorem wf_putPayload (l : List Nat) : ∀ (m : SMap Nat) (off : Nat), SMap.wf 0 m = true → SMap.wf 0 (putPayload m off l) = true := by
  induction l with
  | nil => intro m off h; exact h
  | cons v r ih => intro m off h; exact ih _ _ (SMap.wf_set _ _ _ _ h)

theorem wf_payloadOf (b : List Nat) : SMap.wf 0 (payloadOf b) = true := wf_putPayload _ _ _ rfl

/-- A payload byte read after bytes written outside it. -/
theorem get_putPayload_other (l : List Nat) : ∀ (m : SMap Nat) (off k : Nat), k < off ∨ off + l.length ≤ k →
    SMap.get 0 (putPayload m off l) k = SMap.get 0 m k := by
  induction l with
  | nil => intro m off k _; rfl
  | cons v r ih =>
    intro m off k h
    simp only [List.length_cons] at h
    rw [putPayload, ih _ _ _ (by omega), SMap.get_set_other _ _ _ (by omega)]

/-- A payload byte that was written reads back. -/
theorem get_putPayload (l : List Nat) : ∀ (m : SMap Nat) (off k : Nat) (h : k < l.length),
    SMap.get 0 (putPayload m off l) (off + k) = l[k] % 256 := by
  induction l with
  | nil => intro m off k h; simp at h
  | cons v r ih =>
    intro m off k h
    cases k with
    | zero => rw [putPayload, get_putPayload_other _ _ _ _ (by omega)]; simp
    | succ k => rw [putPayload, show off + (k + 1) = off + 1 + k by omega, ih _ _ _ (by simpa using h)]; simp

/-- Keys at or above `k`, rising, and no default tile. -/
def tilesFrom (k : Nat) (m : SMap Tile) : Prop := (m.Pairwise fun a b => a.1 < b.1) ∧ ∀ e ∈ m, k ≤ e.1 ∧ e.2 ≠ ({} : Tile)

theorem wf_iff_tilesFrom (m : SMap Tile) : SMap.wf {} m = true ↔ tilesFrom 0 m := by
  simp [SMap.wf, SMap.sorted_iff, tilesFrom, List.all_eq_true]

theorem tilesFrom_cons (k : Nat) (v : Tile) {m : SMap Tile} (h : tilesFrom (k + 1) m) : tilesFrom k (consTile k v m) := by
  have hm : tilesFrom k m := ⟨h.1, fun e he => ⟨by have := (h.2 e he).1; omega, (h.2 e he).2⟩⟩
  simp only [consTile]
  split
  · exact hm
  · rename_i hv
    refine ⟨List.pairwise_cons.2 ⟨fun e he => (h.2 e he).1, h.1⟩, fun e he => ?_⟩
    rcases List.mem_cons.1 he with rfl | he
    · exact ⟨le_refl _, hv⟩
    · exact hm.2 e he

/-- Changing a run of tiles keeps the map's form. -/
theorem tilesFrom_mapTiles (f : Tile → Tile) (n : Nat) : ∀ (k : Nat) (m : SMap Tile), tilesFrom k m → tilesFrom k (mapTiles f n k m) := by
  induction n with
  | zero => intro k m h; simpa [mapTiles] using h
  | succ n ih =>
    intro k m h
    match m, h with
    | [], _ => exact tilesFrom_cons k _ (ih _ _ ⟨List.Pairwise.nil, by simp⟩)
    | (a, v) :: r, h =>
      have hr := List.pairwise_cons.1 h.1
      have ha := (h.2 (a, v) List.mem_cons_self).1
      have tail : ∀ e ∈ r, a + 1 ≤ e.1 ∧ e.2 ≠ ({} : Tile) := fun e he => ⟨hr.1 e he, (h.2 e (List.mem_cons_of_mem _ he)).2⟩
      rw [mapTiles]
      split
      · rename_i hk; subst hk
        exact tilesFrom_cons a _ (ih _ _ ⟨hr.2, tail⟩)
      · refine tilesFrom_cons k _ (ih _ _ ⟨h.1, fun e he => ⟨?_, (h.2 e he).2⟩⟩)
        rcases List.mem_cons.1 he with rfl | he
        · simp only at ha ⊢; omega
        · have := (tail e he).1; omega

/-- Changing a run of tiles keeps the canonical form. -/
theorem wf_tilesOver (f : Tile → Tile) (first n : Nat) (m : SMap Tile) (h : SMap.wf {} m = true) :
    SMap.wf {} (tilesOver f first n m) = true := by
  rw [wf_iff_tilesFrom] at *
  have hi : tilesFrom first (mapTiles f n first (m.filter fun e => first ≤ e.1)) :=
    tilesFrom_mapTiles f n first _ ⟨h.1.filter _, fun e he => by
      have he := List.mem_filter.1 he
      exact ⟨by simpa using he.2, (h.2 e he.1).2⟩⟩
  refine ⟨List.pairwise_append.2 ⟨h.1.filter _, hi.1, fun a ha b hb => ?_⟩, fun e he => ?_⟩
  · have h1 : a.1 < first := by simpa using (List.mem_filter.1 ha).2
    exact lt_of_lt_of_le h1 (hi.2 b hb).1
  · rcases List.mem_append.1 he with he | he
    · exact h.2 e (List.mem_filter.1 he).1
    · exact ⟨Nat.zero_le _, (hi.2 e he).2⟩

namespace Chip

theorem part_modPart_other (c : Chip) {p q : Nat} (f : Part → Part) (h : p ≠ q) : (c.modPart p f).part q = c.part q := by
  simp [part, modPart, SMap.get_set_other _ _ _ h]

@[simp] theorem tile_setTile_same (c : Chip) (p n : Nat) (t : Tile) : (c.setTile p n t).tile p n = t := by
  simp [tile, setTile]

/-- A tile written leaves every other tile alone. -/
theorem tile_setTile_other (c : Chip) {p n q m : Nat} (t : Tile) (h : p ≠ q ∨ n ≠ m) :
    (c.setTile p n t).tile q m = c.tile q m := by
  by_cases hp : p = q
  · subst hp
    have hn : n ≠ m := by tauto
    simp [tile, setTile, SMap.get_set_other _ _ _ hn]
  · simp [tile, setTile, part_modPart_other _ _ hp]

@[simp] theorem setTile_hostByte (c : Chip) (p n : Nat) (t : Tile) (port a : Nat) :
    (c.setTile p n t).hostByte port a = c.hostByte port a := rfl
@[simp] theorem setHostByte_tile (c : Chip) (port a v p n : Nat) : (c.setHostByte port a v).tile p n = c.tile p n := rfl
@[simp] theorem setReg_tile (c : Chip) (r : Reg) (i x v p n : Nat) : (c.setReg r i x v).tile p n = c.tile p n := rfl

end Chip

/-- The memories after reset list nothing. -/
theorem Memory.wf_reset : Memory.wf State.reset.chip = true := by decide +kernel

end Sys2Proof.Machine
end

