-- ==== Sys2Proof/Laws/Shared.lean ====
section
/-! SUPPORT. The shared operations around a command's own effect: everything each can do, said once. -/

namespace Sys2Proof.Machine

open Sys2Proof

namespace Chip

/-- A command for a bypassed partition has no effect; any other has its own. -/
theorem atPart_cases (c : Chip) (p : Nat) (f : Chip → Chip) :
    (c.bypassed p = true ∧ c.atPart p f = c) ∨ (c.bypassed p = false ∧ c.atPart p f = f c) := by
  unfold atPart; cases c.bypassed p <;> simp

theorem atPart_of_in (c : Chip) {p : Nat} (f : Chip → Chip) (h : c.bypassed p = false) : c.atPart p f = f c := by
  simp [atPart, h]

theorem atPart_of_bypassed (c : Chip) {p : Nat} (f : Chip → Chip) (h : c.bypassed p = true) : c.atPart p f = c := by
  simp [atPart, h]

/-- A queue's command waits, completes with OUT_OF_SERVICE, or starts and has its effect. -/
theorem runCmd_cases (c : Chip) (i : QId) (d : Desc) (f : Chip → Chip) :
    c.runCmd i d f = c ∨ c.runCmd i d f = (c.start i d).completeDesc i d 0x09 0 ∨ c.runCmd i d f = f (c.start i d) := by
  have pick : ∀ (p q : Bool) (x y z : Chip), (if p then x else if q then y else z) = x ∨
      (if p then x else if q then y else z) = y ∨ (if p then x else if q then y else z) = z := by
    intro p q x y z; cases p <;> cases q <;> simp
  exact pick _ _ _ _ _

/-- A write of a host port to a page breaks the page's open pair or leaves the open pairs alone. -/
theorem writePage_cases (c : Chip) (ps : List HostPair) (port : Nat) (g : Page) (inst : Nat) (f : Chip → Chip) :
    c.writePage ps port g inst f = (c.onPage port g inst f, ps) ∨
      c.writePage ps port g inst f =
        ((c.count .HOSTPORT_PAIR_FAILS port).onPage port g inst f, dropPair ps port g inst) := by
  unfold writePage
  simp only
  split
  · exact .inr rfl
  · exact .inl rfl

end Chip

end Sys2Proof.Machine
end

