-- ==== Sys2Proof/Machine/HostRead.lean ====
section
/-! DEFINITION. What a host port reads (R26, R307, R314, R315, R339, R343 to R348, R354, and the fields that show other state). No command of the table
is a read of a page; these reads observe the state, and change it only by what a read itself counts or latches. -/

namespace Sys2Proof.Machine

open Sys2Proof

/-- The block type of a page of the G9 (R342, R354). -/
def hostBlockType (g : Page) : Nat :=
  match Chip.partPage g, g with
  | some q, _ => 0x100 + q
  | none, .DEVICE => 0 | none, .HOSTPORT => 1 | none, .RING => 2 | none, .TIME => 8 | none, .COUNTERS => 9 | none, .HEN => 0xA
  | none, .RESET => 0xB | none, .POWER => 0xC | none, .THERMAL => 0xD | none, .BOOT => 0xE | none, .LOOPS => 0xF | none, .CONTEXT => 0x10
  | none, _ => 0x200

/-- The step of a coarse reading (R315). -/
def coarseStep (r : Reg) : Option Nat :=
  match r with
  | .POWER_POWER_W => some 10
  | .POWER_RAIL_CURRENT => some 100
  | .THERMAL_TJ => some 2
  | .POWER_RAIL_MV | .POWER_SETPOINT_MV | .POWER_SAG_MV => some 10
  | .LOOPS_APPLIED_MHZ => some 100
  | _ => none

/-- A reading as a signed number: only temperatures have a sign. -/
def signedReading (r : Reg) (v : Nat) : Int := if r = .THERMAL_TJ ∧ 512 ≤ v then (v : Int) - 1024 else v

namespace Chip

/-- PORT_ROLE (R338, R358): an old active port is unused until its link is up. -/
def portRole (c : Chip) (hp : Nat) : Nat :=
  if !c.portUsed hp then 0
  else if c.reg .DEVICE_HOST_CFG ≠ 2 then 1
  else if c.reg .DEVICE_ACTIVE_PORT = hp then 2
  else if (c.hostPort hp).demoted then 0 else 3

/-- A reading as it is coarsened: the mean over the last complete window of 100 ms, rounded down to its step. -/
def coarse (c : Chip) (r : Reg) (idx step : Nat) : Nat :=
  let now := c.reg r 0 idx
  let l := SMap.get [] c.readings (r.key 0 idx)
  let stop := c.now / 100000000 * 100000000
  let start := stop - 100000000
  let first : Nat := match (l.filter fun e => e.1 ≤ start).getLast? with | some e => e.2 | none => (if l.isEmpty then now else r.desc.reset)
  let inside := l.filter fun e => start < e.1 && e.1 < stop
  let add := fun (a : Nat × Nat × Int) (e : Nat × Nat) => (e.1, e.2, a.2.2 + signedReading r a.2.1 * ((e.1 : Int) - a.1))
  let s := inside.foldl add (start, first, 0)
  let total : Int := s.2.2 + signedReading r s.2.1 * ((stop : Int) - s.1)
  let mean : Int := total / 100000000
  toField r.width (mean / step * step)

/-- OVERRIDDEN (R449): throttling, stopped forecasts, lowered ceilings, stopped engine groups, anywhere. -/
def overridden (c : Chip) : Nat :=
  let any := fun (f : Nat → Bool) => ofBool (allParts.any f)
  let lowered := fun (p : Nat) => c.reg .FAIL_DEGRADE_CEILING p == 1 && !(c.part p).epochLinks.isEmpty
    && (List.range 16).any fun l => decide (uplinks p l (c.part p).epochLinks < 32)
  ofBool ((List.range 4).any fun d => (c.die d).throttled) + 4 * any (fun p => decide (1 ≤ c.stageOf p)) + 8 * any lowered
    + 16 * any fun p => decide (3 ≤ c.stageOf p)

/-- The node that VIEW_NODE names; none where it does not exist, or is a confidential context's. -/
def viewedNode (c : Chip) (p : Nat) : Option Nat :=
  let n := c.reg .GOOSE_VIEW_NODE p
  if (c.gooseNodes p).contains n && !(64 ≤ n && c.isConf (n - 64)) then some n else none

/-- STAGE of a partition on the RESET page (R439): what the tables of R419 and R471 have it do at this moment; a BIST counts as reset, and the restore
follows it. -/
def stageShown (c : Chip) (p : Nat) : Nat :=
  let st := c.reg .RESET_STAGE 0 p
  if c.reg .RESET_PART_STATE 0 p ≠ 2 || (c.part p).bist || !(c.reg .BOOT_BOOT_STAGE == 0 || c.reg .BOOT_BOOT_STAGE == 5) then st
  else
    let d := c.now - c.reg .PARTITION_LAST_RESET_AT p
    let (keyed, fw) := if c.reg .RESET_DEVICE_STATE = 1 then (425000000, 580000000) else (420000000, 700000000)
    max st (if d < 20000000 then 2 else if d < 270000000 then 3 else if d < keyed then 4 else if d < fw then 5 else 6)

/-- BOOT_STAGE (R477): on the cold path training lasts until 420 ms after the rails hold, and BIST follows (R469); on the fast path the parts train
until t0 + 425 ms, the firmware area is checked at t0 + 500 ms, and the restore follows (R471). -/
def bootStageShown (c : Chip) : Nat :=
  let st := c.reg .BOOT_BOOT_STAGE
  let d := c.now - c.reg .RESET_LAST_DEVICE_RESET_AT
  if st = 4 then (match c.railsAt with | some t => if c.now < t + 422000000 then 3 else 4 | none => 4)
  else if st = 5 ∧ c.reg .BOOT_PATH = 2 then (if d < 425000000 then 3 else if d < 500000000 then 2 else 5)
  else st

/-- STATE of a cluster (R236). -/
def clusterState (c : Chip) (p : Nat) : Nat :=
  if c.reg .PARTITION_MIOBOR_VACANT p = 1 then 4
  else if c.reg .MIOBOR_STATE p = 3 then 3
  else if 1 ≤ c.stageOf p then 2
  else ofBool (c.cmds.any fun x => x.isMio && x.q.part = some p && x.started.isSome)

/-- The last load of a partition was one of a confidential context that is resident there: its LAST_ fields are masked (R281, R313). -/
def lastHidden (c : Chip) (p : Nat) : Bool :=
  let x := c.reg .IMAGE_LAST_CTX p
  c.isConf x && c.residentIn x p
/-- What a LAST_ field reads of a load that is hidden (R281): as after a failed load of context 0xFF with CHECK_CODE 0, which is REVOKED or
ABORT_RESET (R280); which of the two, and what the other fields hold, the spec leaves open. -/
def hiddenLast (c : Chip) (r : Reg) : Nat :=
  match r with
  | .IMAGE_LAST_CTX => 0xFF
  | .IMAGE_LAST_FAIL_SECTION => 0xFF
  | .IMAGE_LAST_FAIL_CHECK => 0
  | .IMAGE_LAST_STATUS => 0x04 + c.freeVal 1
  | _ => c.freeVal 32
/-- What a field of a page shows: most hold their value, some show other state. -/
def hostValue (c : Chip) (g : Page) (inst : Nat) (r : Reg) (idx : Nat) : Nat :=
  let shown := c.ctx (c.reg .CONTEXT_VIEW_CTX inst)
  let viewed := c.reg .MEMORY_VIEW_CTX inst
  let share := if c.isConf viewed then none else SMap.find? (c.ctx viewed).shares inst
  let x := inst / 16
  match r with
  | .COMMON_BLOCK => hostBlockType g
  | .COMMON_INSTANCE => inst
  | .HOSTPORT_PORT_ROLE => c.portRole inst
  | .TIME_NOW => trunc 64 c.now
  | .CONTEXT_VIEW_STATE => shown.state
  | .CONTEXT_VIEW_STAGE => shown.stage
  | .CONTEXT_VIEW_CONF => ofBool shown.conf
  | .CONTEXT_VIEW_RESIDENT => shown.shares.foldl (fun v e => v + 2 ^ e.1) 0
  | .CONTEXT_VIEW_GEN => shown.gen
  | .CONTEXT_VIEW_KEY_GEN => shown.keyGen
  | .CONTEXT_ROM_VER => trunc 32 Config.romVer
  | .CTXQ_RESIDENT => ofBool (c.residentIn x (inst % 16))
  | .CTXQ_CONFIDENTIAL => ofBool (c.isConf x)
  | .CTXQ_STAGE => if c.leaving x (inst % 16) then (c.ctx x).stage else 0
  | .CORES_PROG_STATE => (c.prog inst (c.reg .CORES_CTL_CTX inst) idx).state
  | .MEMORY_SRAM_FIRST => match share with | some s => s.sramFirst | none => 0
  | .MEMORY_SRAM_TILES => match share with | some s => s.sramTiles | none => 0
  | .MEMORY_LPDDR_FIRST => match share with | some s => s.lpFirst | none => 0
  | .MEMORY_LPDDR_TILES => match share with | some s => s.lpTiles | none => 0
  | .MIOBOR_STATE => c.clusterState inst
  | .MIOBOR_CURRENT_CTX => let v := c.reg r inst; if v < 64 && c.isConf v then 0xFF else v
  | .MIOBOR_QUEUED => min 255 (c.cmds.filter fun y => y.isMio && y.q.part = some inst && y.started.isNone).length
  | .LEARN_LH_MODEL_VER => trunc 32 Config.lhModelVer
  | .LEARN_CONF_NOW => match (c.part inst).jobs.find? fun j => c.learnSlot inst j.job = some idx with | some j => c.thresholdOf inst j (c.now / 131072) | none => 0
  | .TRACE_MSGLOG_ADDR => 0xFDF80000 + msglogAt
  | .LINKSEC_TX_COUNTER => ((c.part inst).link.tx.foldl (fun m e => max m e.2) 0) - 1
  | .GOOSE_VIEW_WAIT => match c.viewedNode inst with | some n => (c.gooseWait inst n).1 | none => 1
  | .GOOSE_VIEW_TARGET => match c.viewedNode inst with | some n => (c.gooseWait inst n).2 | none => 0
  | .GOOSE_VIEW_TAG => match (c.viewedNode inst).bind (c.gooseHead inst) with | some e => e.1 | none => 0
  | .GOOSE_VIEW_STUCK => match c.viewedNode inst with | some n => min 255 (c.gooseRec inst n).stuck | none => 0
  | .RESET_STAGE => c.stageShown idx
  | .BOOT_BOOT_STAGE => c.bootStageShown
  | .RESET_FAULTS_10MIN => min 15 (c.recentFaults idx).length
  | .RESET_FAULTS_60MIN => min 15 c.recentDevFaults.length
  | .LOOPS_OVERRIDDEN => c.overridden
  | .THERMAL_SENSORS_GOOD => sensorsOf idx - ((SMap.get [] c.sensors idx).filter (· = 2)).length
  | .ENGINES_VIEW_PHYSICAL =>
    let e := c.reg .ENGINES_VIEW_LOGICAL inst
    let v := SMap.get (34 * (e / 32) + e % 32) (c.part inst).engMap e
    if v < 272 then v else 0x1FF
  | .IMAGE_LAST_IMAGE_ID | .IMAGE_LAST_IMAGE_VER | .IMAGE_LAST_STATUS | .IMAGE_LAST_CTX | .IMAGE_LAST_FAIL_SECTION
  | .IMAGE_LAST_FAIL_CHECK | .IMAGE_LAST_LOAD_TICKS => if c.lastHidden inst then c.hiddenLast r else c.reg r inst idx
  | r =>
    match coarseStep r with
    | some step => if c.reg .CONTEXT_COARSE = 1 then c.coarse r idx step else c.reg r inst idx
    | none =>
      if g = .CTXQ ∧ r.desc.counter ∧ c.isConf x then SMap.get 0 (bankAt c.now (c.ctx x)).sample (r.key inst idx) / 4096 * 4096
      else c.reg r inst idx

/-- VIEW_PENDING of a port on a page. -/
def viewPending (c : Chip) (port : Nat) (g : Page) (inst : Nat) : Nat := c.reg .COMMON_VIEW_PENDING (inst + 2048 * (port % 2)) g.ctorIdx

/-- What a port reads of a field: the pending value where its VIEW_PENDING is set; WO fields read zero, and so do the queue fields of a block whose
context is not resident. -/
def portValue (c : Chip) (port : Nat) (g : Page) (inst : Nat) (r : Reg) (idx : Nat) : Nat :=
  let d := r.desc
  if d.acc = .wo then 0
  else if g = .CTXQ ∧ 0x140 ≤ d.off ∧ d.off < 0x1C0 ∧ !c.residentIn (inst / 16) (inst % 16) then 0
  else if r = .COMMON_VIEW_PENDING then c.viewPending port g inst
  else if c.viewPending port g inst = 1 ∧ (d.acc = .rwb ∨ d.acc = .rwp) then c.regs.getPending r inst idx
  else c.hostValue g inst r idx

/-- The bits of a page that a read of `n` bits at an offset returns. -/
def pageBits (c : Chip) (port : Nat) (g : Page) (inst off n : Nat) : Nat :=
  let es := gElems g
  let val := c.portValue port g inst
  if 0xF00 ≤ off then RegFile.readSpan es (off - 0xD00) n fun r i => if r.desc.counter then SMap.get 0 c.regs.hold (r.key inst i) else 0
  else if 0x800 ≤ off then
    if RegFile.touchesPair es (off - 0x800) n then compl n (RegFile.readSpan es (off - 0x800) n val) else 0
  else RegFile.readSpan es off n val

/-- The 64-bit counter, or NOW, of which a 4-byte read takes one half: its place, and whether it is the upper half. -/
def halfOf (g : Page) (off : Nat) : Option (Reg × Nat × Bool) :=
  let whole := (RegFile.covered (gElems g) off 32).find? fun e => e.1.width = 64 && (e.1.desc.counter || e.1 = .TIME_NOW)
  whole.map fun e => (e.1, e.2, match RegFile.overlap e.1 e.2 off 32 with | some o => decide (o.1 = 32) | none => false)

/-- A 4-byte read: the lower half of a 64-bit counter latches the upper one for this port's next read of that. -/
def readHalf (c : Chip) (port : Nat) (g : Page) (inst off : Nat) : Chip × Nat :=
  let v := c.pageBits port g inst off 32
  match (if off < 0x800 then halfOf g off else none) with
  | none => (c, v)
  | some (r, i, upper) =>
    let k := 2 * r.key inst i + port % 2
    if upper then
      match SMap.find? c.latches k with
      | some h => ({ c with latches := SMap.erase c.latches k }, h)
      | none => (c, v)
    else ({ c with latches := SMap.insert c.latches k (c.hostValue g inst r i / 2 ^ 32) }, v)

/-- A read of a page that answers. -/
def readField (c : Chip) (port : Nat) (g : Page) (inst off size : Nat) : Chip :=
  let ret := fun (e : Chip × Nat) => e.1.emit (.readReturn port e.2)
  if !((size == 4 || size == 8) && off % size == 0) then ret (c.drawn, c.freeVal 64)
  else if g = .HEN ∧ off = 0x168 ∧ size = 8 then c.henRead port
  else if g = .TRACE ∧ off = 0x158 ∧ size = 8 then c.traceRead port inst
  else if size = 4 then ret (c.readHalf port g inst off)
  else ret (c, c.pageBits port g inst off 64)

/-- A read of block `p` of a function's BAR2. -/
def blockRead (c : Chip) (port x p off : Nat) (ide : Bool) (size : Nat) : Chip :=
  let ones := fun (c : Chip) => c.emit (.readReturn port (2 ^ (8 * size) - 1))
  if c.g9Out then ones c
  else if c.bypassed p then ones (c.count .RING_BYPASS_READS (p / 4))
  else if !c.portUsed port || c.ownerPort p ≠ port then ones (c.count .HOSTPORT_UNOWNED_ACCESS port)
  else if !c.blockBound port x then c.emit (.readReturn port 0)
  else if (c.ctx x).conf && !ide then c.count .CONTEXT_IDE_REJECTS port
  else if off < 0x1000 then c.readField port .CTXQ (16 * x + p) off size
  else if (SMap.find? (c.ctx x).shares p).isNone then c.emit (.readReturn port 0)
  else if c.windowsShut x p && 0x8000 ≤ off && off < 0x18000 then ones c
  else if 0x8000 ≤ off ∧ off < 0x10000 then c.emit (.readReturn port (c.hostWord 2 (windowKey (.compute x p) + (off - 0x8000)) size))
  else if 0x10000 ≤ off ∧ off < 0x18000 then c.emit (.readReturn port (c.hostWord 2 (windowKey (.mule x p) + (off - 0x10000)) size))
  else c.emit (.readReturn port 0)

/-- A host read of an address: reserved pages read zero (R343), those of a partition where its stop answers. -/
def hostRead (c : Chip) (port : Nat) (a : HostAddr) (size : Nat) : Chip :=
  match a with
  | .bar0 a => match pageAtBar0 port a with
    | some e => c.readPage port e.1 e.2 size fun c => c.readField port e.1 e.2 (a % 0x1000) size
    | none => match partAtBar0 a with
      | some p => c.readPage port .PARTITION p size fun c => c.emit (.readReturn port 0)
      | none => c.emit (.readReturn port 0)
  | .bar2 x a ide => c.blockRead port x (a / 0x20000) (a % 0x20000) ide size

end Chip

end Sys2Proof.Machine
end

