-- ==== Sys2Proof/Safety.lean ====
section
/-! DEFINITION. What a safe run is: no step of it ends in a fault or a refusal. -/

namespace Sys2Proof.Machine

/-- An outcome is a next state. -/
def goesOn {σ φ ρ : Type} (o : Host.Outcome σ φ ρ) : Prop := ∃ s, o = .next s

/-- A run of `n` steps from a state is safe: every step answers a next state. -/
def safeRun : Nat → State → Prop
  | 0, _ => True
  | n + 1, s => ∃ s', step s = .next s' ∧ safeRun n s'

end Sys2Proof.Machine
end

