-- ==== Sys2Proof/WellFormed.lean ====
section
/-! DEFINITION. Well-formed commands: every operand fits the width that the spec gives it. -/

namespace Sys2Proof

/-- `v` fits `n` bits. -/
def fits (n v : Nat) : Bool := decide (v < 2 ^ n)

/-- BAR0 has 32 MiB and BAR2 2 MiB (R341). -/
def HostAddr.wf : HostAddr → Bool
  | .bar0 a => fits 25 a
  | .bar2 fn a _ => fits 6 fn && fits 21 a

/-- A unit that exists: zones 0 to 15 with 512 endpoints, 16 leaves and 16 spines each (R35), and partitions. -/
def UnitId.wf : UnitId → Bool
  | .endpoint z n => fits 4 z && fits 9 n
  | .leaf z l => fits 4 z && fits 4 l
  | .spine z s => fits 4 z && fits 4 s
  | .ocs n => fits 16 n
  | .part p => fits 4 p

/-- The header fields fit their widths (R48). -/
def Packet.wf (p : Packet) : Bool :=
  fits 20 p.dst && fits 20 p.src && fits 2 p.cls && fits 6 p.hops && fits 16 p.len && fits 16 p.fenceEpoch && fits 32 p.flow
    && fits 32 p.seq && fits 32 p.total && fits 32 p.step && fits 6 p.ctx && fits 16 p.job && fits 12 p.group && fits 1 p.axis

/-- A link frame (R325). -/
def Frame.wf (f : Frame) : Bool := fits 7 f.key && fits 1 f.parity && fits 48 f.counter && f.pkt.wf

/-- A message's envelope (R95). -/
def Env.wf (e : Env) : Bool := e.unit.wf && fits 10 e.port && fits 20 e.src && fits 32 e.tag && fits 6 e.ctx && fits 8 e.status

/-- An identity block (R99). -/
def IdBlock.wf (b : IdBlock) : Bool :=
  fits 16 b.maker && fits 2 b.profile && fits 10 b.port && fits 32 b.partNo && fits 64 b.serial && fits 32 b.cableTag
    && fits 20 b.fid && fits 20 b.partitionFid && fits 64 b.boardId && fits 3 b.boardSlot

/-- A directed block (R100). -/
def DirBlock.wf (b : DirBlock) : Bool :=
  fits 8 b.op && fits 8 b.count && fits 8 b.index && fits 20 b.origin && fits 32 b.tag && b.payload.all (fits 32)

/-- A slot-list entry (R86). -/
def SlotEntry.wf (e : SlotEntry) : Bool :=
  fits 10 e.first && fits 8 e.frame && fits 10 e.run && fits 20 e.dst && fits 12 e.group && fits 32 e.flow

/-- A segment of a list (R95): at most 765 entries. -/
def Segment.wf (s : Segment) : Bool :=
  fits 32 s.windowFrame && fits 8 s.frames && fits 8 s.template && fits 32 s.step && fits 16 s.job
    && decide (s.entries.length ≤ 765) && s.entries.all SlotEntry.wf

/-- A chunk (R90). -/
def Chunk.wf (k : Chunk) : Bool := fits 20 k.dst && fits 12 k.group && fits 32 k.flow && fits 16 k.len && fits 6 k.ctx && fits 16 k.job

/-- A DEMAND body (R95): at most 512 entries. -/
def DemandBody.wf (b : DemandBody) : Bool :=
  fits 16 b.job && fits 16 b.layer && fits 16 b.op && fits 32 b.step && fits 32 b.window && fits 8 b.ctx
    && decide (b.entries.length ≤ 512) && b.entries.all (fun e => fits 20 e.1 && fits 12 e.2)

/-- An XDEMAND or XPLACE body (R196, R197). -/
def CrossBody.wf (b : CrossBody) : Bool := fits 16 b.job && fits 12 b.slice && fits 32 b.window && fits 32 b.step && fits 9 b.pod

/-- A FAIL_NOTE body (R288). -/
def FailNote.wf (n : FailNote) : Bool := fits 8 n.reason && fits 16 n.job && fits 12 n.slice && fits 16 n.f && n.fids.all (fits 20)

/-- What a peer message says of slices (R147, R157, R162). -/
def SliceNews.wf (n : SliceNews) : Bool :=
  n.admits.all (fun a => fits 32 a.tag && fits 32 a.rlen && a.request.all (fits 8)) && n.numbersAsked.all (fun e => fits 16 e.2)
    && n.numbers.all (fun e => decide (e.2 ≤ 4095)) && n.numbersFreed.all (fun k => decide (1 ≤ k ∧ k ≤ 4095))
    && n.orders.all (fun o => decide (1 ≤ o.num ∧ o.num ≤ 4095) && fits 9 o.leadPod && o.request.all (fits 8))
    && n.ends.all (fun e => decide (e.status ≤ 0x0E)) && n.outcomes.all (fun o => decide (o.status ≤ 0x0E) && o.result.all (fits 8))
    && n.teardowns.all (fun e => fits 32 e.1 && fits 16 e.2.1) && n.services.all fun e => fits 9 e.1

/-- The manager's tables (R147, R427). -/
def ClusterTables.wf (m : ClusterTables) : Bool :=
  m.leases.all (fun e => decide (e.1 ≤ 2) && decide (e.2.1 + e.2.2.1 ≤ 0xFF000) && fits 20 e.2.2.2)
    && m.slices.all fun e => decide (1 ≤ e.1 ∧ e.1 ≤ 4095) && fits 16 e.2.1 && fits 20 e.2.2

/-- A peer report names FIDs of 20 bits, and kinds, maps and classes that exist (R108, R110, R111, R481). -/
def PeerNews.wf (n : PeerNews) : Bool :=
  (n.units.all fun u => fits 20 u.fid && u.unit.wf) && n.grants.all (fun e => decide (e.1 ≤ 2) && decide (e.2.1 + e.2.2 ≤ 0xFF000))
    && n.wants.all (fun k => decide (k ≤ 2)) && n.recycles.all (fun e => fits 32 e.1 && fits 8 e.2.1 && fits 32 e.2.2)
    && n.answers.all (fun e => fits 32 e.1 && decide (e.2 ≤ 0x0E)) && n.circuits.all (fun r => decide (1 ≤ r.map ∧ r.map ≤ 2))
    && n.verdicts.all (fun e => decide (e.2.2 ≤ 8)) && n.slices.wf
    && (match n.mirror with | some m => m.wf | none => true)

/-- A descriptor (R350). -/
def Desc.wf (d : Desc) : Bool :=
  fits 8 d.opcode && fits 8 d.flags && fits 8 d.ctx && fits 32 d.tag && fits 16 d.job && fits 16 d.layer && fits 16 d.operator
    && fits 8 d.timeout && fits 384 d.ops

/-- A queue that exists (R349). -/
def QId.wf : QId → Bool
  | .route p => fits 4 p
  | .sched p => fits 4 p
  | .context port => fits 1 port
  | .compute x p => fits 6 x && fits 4 p
  | .mule x p => fits 6 x && fits 4 p
  | .core x p k _ => fits 6 x && fits 4 p && fits 2 k
  | .fw x p job => fits 6 x && fits 4 p && fits 16 job
/-- A trace record's fields (R394). -/
def TraceItem.wf : TraceItem → Bool
  | .native b => b.all (fits 8)
  | .command _ unit opcode second job layer op =>
    fits 10 unit && fits 8 opcode && fits 8 second && fits 16 job && fits 16 layer && fits 16 op
/-- What an SPDM request names (R312, R318). -/
def SpdmReq.wf : SpdmReq → Bool
  | .measure index transcript => fits 8 index && fits 512 transcript
  | .ideStream x => fits 6 x
  | .tdiLock x => fits 6 x
  | .tdiStart x => fits 6 x
  | .other => true

/-- A unit that may fail (R428). -/
def Defect.wf : Defect → Bool
  | .engine e => decide (e < 272)
  | .core k => fits 2 k
  | .miobor => true
  | .mule m => fits 2 m
  | .bank b => fits 5 b
  | .channel ch => fits 1 ch

/-- The operands of a command fit the widths that the spec gives them. -/
def Instr.wf : Instr → Bool
  | .linkFrameReceive t u k f => fits 64 t && u.wf && fits 10 k && f.wf
  | .slotStart t u k => fits 64 t && u.wf && fits 10 k
  | .markEcho t e marks job => fits 64 t && e.wf && fits 16 marks && fits 16 job
  | .looseRecoveryStep t u => fits 64 t && u.wf
  | .flowTimeout t u src flow => fits 64 t && u.wf && fits 20 src && fits 32 flow
  | .postWait t u src flow => fits 64 t && u.wf && fits 20 src && fits 32 flow
  | .queueChunk t u chunk => fits 64 t && u.wf && chunk.wf
  | .lowerTotal t u src flow total => fits 64 t && u.wf && fits 20 src && fits 32 flow && fits 32 total
  | .readNotice t u => fits 64 t && u.wf
  | .read t e addr n => fits 64 t && e.wf && fits 24 addr && fits 16 n
  | .write t e addr words => fits 64 t && e.wf && fits 24 addr && words.all (fits 32)
  | .agentPairExpiry t u src page => fits 64 t && u.wf && fits 20 src && fits 16 page
  | .agentFrameBoundary t u => fits 64 t && u.wf
  | .ident t e blk => fits 64 t && e.wf && blk.wf
  | .identPeriod t u k => fits 64 t && u.wf && fits 10 k
  | .prepare t e ep _ chunks crc => fits 64 t && e.wf && fits 16 ep && fits 16 chunks && fits 32 crc
  | .prepareStatic t e ep chunks crc => fits 64 t && e.wf && fits 16 ep && fits 16 chunks && fits 32 crc
  | .tableWrite t e ep region off data => fits 64 t && e.wf && fits 16 ep && fits 8 region && fits 24 off && data.all (fits 8)
  | .staticLoadTimeout t u => fits 64 t && u.wf
  | .drain t e ep classes => fits 64 t && e.wf && fits 16 ep && fits 8 classes
  | .drainQuiet t u => fits 64 t && u.wf
  | .drainTimeout t u => fits 64 t && u.wf
  | .commit t e ep => fits 64 t && e.wf && fits 16 ep
  | .commitWaitExpiry t u => fits 64 t && u.wf
  | .resume t e ep => fits 64 t && e.wf && fits 16 ep
  | .resumeWaitExpiry t u => fits 64 t && u.wf
  | .abandon t e ep => fits 64 t && e.wf && fits 16 ep
  | .epochQuery t e => fits 64 t && e.wf
  | .fence t e fid job f => fits 64 t && e.wf && fits 20 fid && fits 16 job && fits 16 f
  | .unfence t e fid job f => fits 64 t && e.wf && fits 20 fid && fits 16 job && fits 16 f
  | .fencedNotice t e job f fids => fits 64 t && e.wf && fits 16 job && fits 16 f && fids.all (fits 20)
  | .peerReset t e fid job reason step time => fits 64 t && e.wf && fits 20 fid && fits 16 job && fits 8 reason && fits 32 step && fits 64 time
  | .slotList t e seg => fits 64 t && e.wf && seg.wf
  | .templateList t e seg => fits 64 t && e.wf && seg.wf
  | .listGuardDeadline t u w => fits 64 t && u.wf && fits 48 w
  | .windowStart t u => fits 64 t && u.wf
  | .hold t e => fits 64 t && e.wf
  | .beat t e => fits 64 t && e.wf
  | .controlTimeout t u => fits 64 t && u.wf
  | .portDown t u k => fits 64 t && u.wf && fits 10 k
  | .portUp t u k => fits 64 t && u.wf && fits 10 k
  | .internalError t u code => fits 64 t && u.wf && fits 32 code
  | .timeExchange t u => fits 64 t && u.wf
  | .timeReq t e t1 => fits 64 t && e.wf && fits 64 t1
  | .timeResp t e t1 t2 t3 => fits 64 t && e.wf && fits 64 t1 && fits 64 t2 && fits 64 t3
  | .timeRespTimeout t u => fits 64 t && u.wf
  | .holdoverEntry t u => fits 64 t && u.wf
  | .msgRetransmit t u tag => fits 64 t && u.wf && fits 32 tag
  | .responseStoreExpiry t u src tag => fits 64 t && u.wf && fits 20 src && fits 32 tag
  | .telemetryPeriod t u => fits 64 t && u.wf
  | .agentReset t u => fits 64 t && u.wf
  | .linkHandshake t u k _ => fits 64 t && u.wf && fits 10 k
  | .identityBlock t u k blk _ => fits 64 t && u.wf && fits 10 k && blk.wf
  | .directedBlock t u k blk _ => fits 64 t && u.wf && fits 10 k && blk.wf
  | .measureComplete t u x => fits 64 t && u.wf && fits 10 x.port
  | .directedResponse t p blk => fits 64 t && fits 4 p && blk.wf
  | .directedTimeout t p tag => fits 64 t && fits 4 p && fits 32 tag
  | .discoveryCompare t p => fits 64 t && fits 4 p
  | .lateLink t p u k blk delay => fits 64 t && fits 4 p && u.wf && fits 10 k && blk.wf && fits 16 delay
  | .circuitVerify t n _ => fits 64 t && fits 16 n
  | .discover t p d => fits 64 t && fits 4 p && d.wf
  | .loadPlan t p d => fits 64 t && fits 4 p && d.wf
  | .readTopology t p d => fits 64 t && fits 4 p && d.wf
  | .recycle t p d => fits 64 t && fits 4 p && d.wf
  | .peerReport t p src news => fits 64 t && fits 4 p && fits 20 src && news.wf
  | .recommit t p d => fits 64 t && fits 4 p && d.wf
  | .reloadStatic t p d => fits 64 t && fits 4 p && d.wf
  | .queryEpochs t p d => fits 64 t && fits 4 p && d.wf
  | .setLink t p d => fits 64 t && fits 4 p && d.wf
  | .clearFallback t p d => fits 64 t && fits 4 p && d.wf
  | .readBank t p d => fits 64 t && fits 4 p && d.wf
  | .generateDone t p => fits 64 t && fits 4 p
  | .prepareAck t p src tag st => fits 64 t && fits 4 p && fits 20 src && fits 32 tag && fits 8 st
  | .drainAck t p src tag st => fits 64 t && fits 4 p && fits 20 src && fits 32 tag && fits 8 st
  | .commitAck t p src tag st => fits 64 t && fits 4 p && fits 20 src && fits 32 tag && fits 8 st
  | .resumeAck t p src tag st => fits 64 t && fits 4 p && fits 20 src && fits 32 tag && fits 8 st
  | .epochReport t p src tag st _ => fits 64 t && fits 4 p && fits 20 src && fits 32 tag && fits 8 st
  | .rollback t p src _ => fits 64 t && fits 4 p && fits 20 src
  | .stageReport t p stage => fits 64 t && fits 4 p && fits 8 stage
  | .commitDeadline t p => fits 64 t && fits 4 p
  | .commitPoll t p => fits 64 t && fits 4 p
  | .autoDelayExpiry t p => fits 64 t && fits 4 p
  | .admitSlice t p d => fits 64 t && fits 4 p && d.wf
  | .admitStageDone t n _ => fits 64 t && fits 16 n
  | .reserveExpiry t n => fits 64 t && fits 16 n
  | .trainTimeout t n i => fits 64 t && fits 16 n && fits 16 i
  | .outcomePoll t p n => fits 64 t && fits 4 p && fits 16 n
  | .teardown t p d => fits 64 t && fits 4 p && d.wf
  | .teardownStageDone t n => fits 64 t && fits 16 n
  | .quietExpiry t n => fits 64 t && fits 16 n
  | .querySlice t p d => fits 64 t && fits 4 p && d.wf
  | .moveLead t p d => fits 64 t && fits 4 p && d.wf
  | .demand t p src tag body => fits 64 t && fits 4 p && fits 20 src && fits 32 tag && body.wf
  | .frameEntersRing t p => fits 64 t && fits 4 p
  | .placementCut t p job w => fits 64 t && fits 4 p && fits 16 job && fits 48 w
  | .gatherPoint t p job w => fits 64 t && fits 4 p && fits 16 job && fits 48 w
  | .placeUnit t p en _ => fits 64 t && fits 4 p && fits 8 en
  | .engineIdle t p en => fits 64 t && fits 4 p && fits 8 en
  | .sealSource t p job w src fails => fits 64 t && fits 4 p && fits 16 job && fits 48 w && fits 20 src && fits 8 fails
  | .sendDeadline t p job w => fits 64 t && fits 4 p && fits 16 job && fits 48 w
  | .crossCut t p job w => fits 64 t && fits 4 p && fits 16 job && fits 48 w
  | .slotListAck t p src tag st => fits 64 t && fits 4 p && fits 20 src && fits 32 tag && fits 8 st
  | .xdemand t p src tag body => fits 64 t && fits 4 p && fits 20 src && fits 32 tag && body.wf
  | .xplace t p src tag body => fits 64 t && fits 4 p && fits 20 src && fits 32 tag && body.wf
  | .xplaceAck t p src tag st => fits 64 t && fits 4 p && fits 20 src && fits 32 tag && fits 8 st
  | .templateSeqDeadline t p job => fits 64 t && fits 4 p && fits 16 job
  | .engineQuantumExpiry t p => fits 64 t && fits 4 p
  | .setSched t p d => fits 64 t && fits 4 p && d.wf
  | .setTemplateSeq t p d => fits 64 t && fits 4 p && d.wf
  | .readWindows t p d => fits 64 t && fits 4 p && d.wf
  | .violation t p src slot k => fits 64 t && fits 4 p && fits 20 src && fits 56 slot && fits 10 k
  | .event t p src code _ => fits 64 t && fits 4 p && fits 20 src && fits 16 code
  | .telemetry t p src _ => fits 64 t && fits 4 p && fits 20 src
  | .gemm t i d => fits 64 t && i.wf && d.wf
  | .spgemm t i d => fits 64 t && i.wf && d.wf
  | .bsgemm t i d => fits 64 t && i.wf && d.wf
  | .gate t i d => fits 64 t && i.wf && d.wf
  | .topk t i d => fits 64 t && i.wf && d.wf
  | .softmax t i d => fits 64 t && i.wf && d.wf
  | .scan t i d => fits 64 t && i.wf && d.wf
  | .hist t i d => fits 64 t && i.wf && d.wf
  | .spmv t i d => fits 64 t && i.wf && d.wf
  | .gather t i d => fits 64 t && i.wf && d.wf
  | .scatter t i d => fits 64 t && i.wf && d.wf
  | .eltwise t i d => fits 64 t && i.wf && d.wf
  | .reduce t i d => fits 64 t && i.wf && d.wf
  | .mioborTimeout t i tag => fits 64 t && i.wf && fits 32 tag
  | .mioborCtxSwitch t p => fits 64 t && fits 4 p
  | .forecastStart t p job w => fits 64 t && fits 4 p && fits 16 job && fits 48 w
  | .forecastDeadline t p job w => fits 64 t && fits 4 p && fits 16 job && fits 48 w
  | .forecastPublish t p job w => fits 64 t && fits 4 p && fits 16 job && fits 48 w
  | .analyseReq t hp p job => fits 64 t && fits 1 hp && fits 4 p && fits 16 job
  | .analysisDone t p job => fits 64 t && fits 4 p && fits 16 job
  | .histReset t p src tag job => fits 64 t && fits 4 p && fits 20 src && fits 32 tag && fits 16 job
  | .linkHealthEval t p => fits 64 t && fits 4 p
  | .loadImage t x p d => fits 64 t && fits 6 x && fits 4 p && d.wf
  | .signatureVerified t x p tag => fits 64 t && fits 6 x && fits 4 p && fits 32 tag
  | .streamDone t x p tag => fits 64 t && fits 6 x && fits 4 p && fits 32 tag
  | .unloadImage t x p d => fits 64 t && fits 6 x && fits 4 p && d.wf
  | .queryImage t x p d => fits 64 t && fits 6 x && fits 4 p && d.wf
  | .readLog t x p d => fits 64 t && fits 6 x && fits 4 p && d.wf
  | .silentTimeout t p fid => fits 64 t && fits 4 p && fits 20 fid
  | .failNotePeerReset t p src tag body => fits 64 t && fits 4 p && fits 20 src && fits 32 tag && body.wf
  | .fenceReq t p src tag body => fits 64 t && fits 4 p && fits 20 src && fits 32 tag && body.wf
  | .fenceBatchClose t p job => fits 64 t && fits 4 p && fits 16 job
  | .fenceOrder t p src tag body => fits 64 t && fits 4 p && fits 20 src && fits 32 tag && body.wf
  | .fenceStageDone t p job f => fits 64 t && fits 4 p && fits 16 job && fits 16 f
  | .fenceAck t p src tag st => fits 64 t && fits 4 p && fits 20 src && fits 32 tag && fits 8 st
  | .fenceRetry t p => fits 64 t && fits 4 p
  | .unfenceOrder t p src tag body => fits 64 t && fits 4 p && fits 20 src && fits 32 tag && body.wf
  | .fenceSync t p src tag body => fits 64 t && fits 4 p && fits 20 src && fits 32 tag && body.wf
  | .fenceEp t p d => fits 64 t && fits 4 p && d.wf
  | .unfenceEp t p d => fits 64 t && fits 4 p && d.wf
  | .queryFences t p d => fits 64 t && fits 4 p && d.wf
  | .createCtx t hp d => fits 64 t && fits 1 hp && d.wf
  | .setResident t hp d => fits 64 t && fits 1 hp && d.wf
  | .importKey t hp d => fits 64 t && fits 1 hp && d.wf
  | .teardownCtx t hp d => fits 64 t && fits 1 hp && d.wf
  | .ctxStageDone t x => fits 64 t && fits 6 x
  | .quiesceExpiry t x => fits 64 t && fits 6 x
  | .queryCtx t hp d => fits 64 t && fits 1 hp && d.wf
  | .tdiStop t x => fits 64 t && fits 6 x
  | .rekey t u k _ => fits 64 t && u.wf && fits 10 k
  | .rekeyGraceEnd t u k => fits 64 t && u.wf && fits 10 k
  | .spdmRequest t hp fn r => fits 64 t && fits 1 hp && fits 7 fn && r.wf
  | .counterBankRead t hp x p page off => fits 64 t && fits 1 hp && fits 6 x && fits 4 p && fits 5 page && fits 12 off
  | .hostReadTimeout t hp size => fits 64 t && fits 1 hp && fits 4 size
  | .perst t hp => fits 64 t && fits 1 hp
  | .flrPf t hp => fits 64 t && fits 1 hp
  | .flrVf t hp x => fits 64 t && fits 1 hp && fits 6 x
  | .pageCommit t hp a v => fits 64 t && fits 1 hp && a.wf && fits 32 v
  | .frameBoundaryApply t => fits 64 t
  | .pairComplete t hp a size v => fits 64 t && fits 1 hp && a.wf && fits 8 size && fits 64 v
  | .pairExpiry t hp a => fits 64 t && fits 1 hp && a.wf
  | .snapshot t hp a => fits 64 t && fits 1 hp && a.wf
  | .intStatusClear t hp a v => fits 64 t && fits 1 hp && a.wf && fits 32 v
  | .doorbell t hp i _ v => fits 64 t && fits 1 hp && i.wf && fits 32 v
  | .qBaseWrite t hp i _ v => fits 64 t && fits 1 hp && i.wf && fits 64 v
  | .cqBaseWrite t hp i _ v => fits 64 t && fits 1 hp && i.wf && fits 64 v
  | .qEnableWrite t hp i _ v => fits 64 t && fits 1 hp && i.wf && fits 32 v
  | .cqHeadWrite t hp i _ v => fits 64 t && fits 1 hp && i.wf && fits 32 v
  | .commandComplete t i tag _ detail => fits 64 t && i.wf && fits 32 tag && fits 32 detail
  | .commandTimeout t i tag => fits 64 t && i.wf && fits 32 tag
  | .registerWrite t hp a size v => fits 64 t && fits 1 hp && a.wf && fits 8 size && fits 64 v
  | .heartbeat t hp v => fits 64 t && fits 1 hp && fits 32 v
  | .takeover t hp => fits 64 t && fits 1 hp
  | .hbTimeout t => fits 64 t
  | .bar4Access t hp addr _ size v => fits 64 t && fits 1 hp && fits 32 addr && fits 8 size && fits 64 v
  | .g9Issue t p core addr stream => fits 64 t && fits 4 p && fits 2 core && fits 64 addr && fits 64 stream
  | .g9Wait t p core a0 => fits 64 t && fits 4 p && fits 2 core && fits 64 a0
  | .g9WaitWake t p x core => fits 64 t && fits 4 p && fits 6 x && fits 2 core
  | .g9Yield t p core => fits 64 t && fits 4 p && fits 2 core
  | .programExit t p core a0 => fits 64 t && fits 4 p && fits 2 core && fits 64 a0
  | .programFault t p core cause pc tval => fits 64 t && fits 4 p && fits 2 core && fits 64 cause && fits 64 pc && fits 64 tval
  | .userQuantumExpiry t p core => fits 64 t && fits 4 p && fits 2 core
  | .g9cqWrite t p core csr v => fits 64 t && fits 4 p && fits 2 core && fits 12 csr && fits 64 v
  | .coreStart t p x cores => fits 64 t && fits 4 p && fits 6 x && fits 4 cores
  | .coreStop t p x cores => fits 64 t && fits 4 p && fits 6 x && fits 4 cores
  | .copy t i d => fits 64 t && i.wf && d.wf
  | .hostToTile t i d => fits 64 t && i.wf && d.wf
  | .tileToHost t i d => fits 64 t && i.wf && d.wf
  | .seal t i d => fits 64 t && i.wf && d.wf
  | .fill t i d => fits 64 t && i.wf && d.wf
  | .verify t i d => fits 64 t && i.wf && d.wf
  | .tileLockRelease t p tile => fits 64 t && fits 4 p && fits 32 tile
  | .tileRepair t p tile => fits 64 t && fits 4 p && fits 32 tile
  | .coreWatchdog t p core => fits 64 t && fits 4 p && fits 2 core
  | .timeSet t rc sp rp sc => fits 64 t && fits 64 rc && fits 64 sp && fits 64 rp && fits 64 sc
  | .timeLeg t p src delay t1 t2 => fits 64 t && fits 4 p && fits 20 src && fits 32 delay && fits 64 t1 && fits 64 t2
  | .g9Holdover t => fits 64 t
  | .setTime t hp => fits 64 t && fits 1 hp
  | .ppsInEdge t => fits 64 t
  | .ppsMissing t => fits 64 t
  | .ppsOutPulse t => fits 64 t
  | .clockRegionRestart t p region => fits 64 t && fits 4 p && fits 8 region
  | .arm t hp p => fits 64 t && fits 1 hp && fits 4 p
  | .traceStop t hp p => fits 64 t && fits 1 hp && fits 4 p
  | .trigNow t hp p => fits 64 t && fits 1 hp && fits 4 p
  | .trigTimeReached t p => fits 64 t && fits 4 p
  | .coreTrigger t p core => fits 64 t && fits 4 p && fits 2 core
  | .deviceCrossTrigger t p => fits 64 t && fits 4 p
  | .traceRecord t p item => fits 64 t && fits 4 p && item.wf
  | .dropRunEnd t p => fits 64 t && fits 4 p
  | .captureDone t p => fits 64 t && fits 4 p
  | .traceRdData t hp p => fits 64 t && fits 1 hp && fits 4 p
  | .snapNow t hp => fits 64 t && fits 1 hp
  | .snapTimeReached t => fits 64 t
  | .debugHalt t p core => fits 64 t && fits 4 p && fits 2 core
  | .debugResume t p core => fits 64 t && fits 4 p && fits 2 core
  | .gooseScan t p => fits 64 t && fits 4 p
  | .waitfor t p src tag initiator target _ _ => fits 64 t && fits 4 p && fits 20 src && fits 32 tag && fits 16 initiator && fits 16 target
  | .overrunReset t i tag => fits 64 t && i.wf && fits 32 tag
  | .coreReset t p mask => fits 64 t && fits 4 p && fits 4 mask
  | .groupReset t p mask _ => fits 64 t && fits 4 p && fits 8 mask
  | .mioborReset t p _ => fits 64 t && fits 4 p
  | .partReset t p cause => fits 64 t && fits 4 p && fits 8 cause
  | .partitionReady t p => fits 64 t && fits 4 p
  | .partitionNotReady t p => fits 64 t && fits 4 p
  | .partReinstate t hp p => fits 64 t && fits 1 hp && fits 4 p
  | .deviceReset t kind cause cfg bootSrc => fits 64 t && fits 2 kind && fits 8 cause && fits 2 cfg && fits 1 bootSrc
  | .deviceReinstate t hp => fits 64 t && fits 1 hp
  | .clusterBeatSend t => fits 64 t
  | .clusterBeat t p src => fits 64 t && fits 4 p && fits 20 src
  | .clusterBeatTimeout t worker => fits 64 t && fits 5 worker
  | .g9State t p src tag worker news cause => fits 64 t && fits 4 p && fits 20 src && fits 32 tag && fits 5 worker && fits 2 news && fits 8 cause
  | .standbyTakeover t => fits 64 t
  | .lateDefect t p unit => fits 64 t && fits 4 p && unit.wf
  | .henRecord t src code _ _ body => fits 64 t && fits 5 src && fits 16 code && body.all (fits 32)
  | .flushNow t hp => fits 64 t && fits 1 hp
  | .flushDone t => fits 64 t
  | .mramCopy t hp => fits 64 t && fits 1 hp
  | .clear t hp => fits 64 t && fits 1 hp
  | .note t hp v => fits 64 t && fits 1 hp && fits 32 v
  | .henRdData t hp => fits 64 t && fits 1 hp
  | .dvfsTick t watts => fits 64 t && fits 16 watts
  | .railGood t rail mv => fits 64 t && fits 4 rail && fits 16 mv
  | .railUndervoltage t rail => fits 64 t && fits 4 rail
  | .vauxLoss t => fits 64 t
  | .pfWarn t => fits 64 t
  | .pfWarnRelease t => fits 64 t
  | .sagStageEnter t die stage peak => fits 64 t && fits 2 die && fits 3 stage && fits 8 peak
  | .sagStageClear t die mask peak => fits 64 t && fits 2 die && fits 7 mask && fits 8 peak
  | .thermalSample t die _ => fits 64 t && fits 5 die
  | .throttleRelease t die => fits 64 t && fits 5 die
  | .timeRefLoss t => fits 64 t
  | .timeRefRestore t => fits 64 t
  | .avsAck t die => fits 64 t && fits 2 die
  | .avsTimeout t die => fits 64 t && fits 2 die
  | .blobWrite t hp => fits 64 t && fits 1 hp
  | .fwGo t hp => fits 64 t && fits 1 hp
  | .fwVerified t _ mramImage => fits 64 t && mramImage.all (fits 8)
  | .coldBoot t _ cfg bootSrc _ => fits 64 t && fits 2 cfg && fits 1 bootSrc
  | .bistDone t p _ cores _ mules banks => fits 64 t && fits 4 p && fits 4 cores && fits 4 mules && fits 32 banks
  | .beatSend t p => fits 64 t && fits 4 p
  | .echoBlock t u k turnaround => fits 64 t && u.wf && fits 10 k && fits 32 turnaround
  | .writeAck t p src tag st => fits 64 t && fits 4 p && fits 20 src && fits 32 tag && fits 8 st
  | .readResp t p src tag st words => fits 64 t && fits 4 p && fits 20 src && fits 32 tag && fits 8 st && words.all (fits 32)
  | .templateAck t p src tag st => fits 64 t && fits 4 p && fits 20 src && fits 32 tag && fits 8 st
  | .unfenceAck t p src tag st => fits 64 t && fits 4 p && fits 20 src && fits 32 tag && fits 8 st
  | .abandonAck t p src tag st => fits 64 t && fits 4 p && fits 20 src && fits 32 tag && fits 8 st
  | .demandSend t u _ => fits 64 t && u.wf
  | .demandAck t e _ => fits 64 t && e.wf
  | .pcieLinkUp t hp speed width vfs _ _ => fits 64 t && fits 1 hp && fits 3 speed && fits 5 width && fits 8 vfs
  | .pcieLinkDown t hp => fits 64 t && fits 1 hp
  | .perstRelease t hp => fits 64 t && fits 1 hp
  | .controlPortDown t p => fits 64 t && fits 4 p
  | .cacheParityError t p core kind => fits 64 t && fits 4 p && fits 2 core && fits 2 kind
  | .smbusClockTimeout t => fits 64 t
  | .coarseWindowEnd t => fits 64 t
  | .misroutedRequest t p => fits 64 t && fits 4 p

end Sys2Proof
end

