-- ==== Sys2Proof/Tests/Slice0.lean ====
section
/-! SUPPORT. Tests: ill-formed terms that WellFormed refuses, single steps on small states, and for every statement with hypotheses
a state and operands that meet them. -/

namespace Sys2Proof.Machine

open Sys2Proof

/-! States for the tests: the state after reset with something changed. -/

/-- The state with its block changed. -/
def State.modChip (s : State) (f : Chip → Chip) : State := { s with chip := f s.chip }

/-- The state with an agent's record changed. -/
def State.withAgent (s : State) (u : UnitId) (f : Agent → Agent) : State := s.modChip fun c => c.setAgent u (f (c.agent u))

/-- The state with registers of an agent's own pages set. -/
def State.withURegs (s : State) (u : UnitId) (l : List (Reg × Nat)) : State :=
  s.withAgent u fun a => { a with regs := l.foldl (fun f e => f.set e.1 0 0 e.2) a.regs }

/-- The state with registers of an agent's PORT page set. -/
def State.withUPort (s : State) (u : UnitId) (k : Nat) (l : List (Reg × Nat)) : State :=
  s.withAgent u fun a => { a with regs := l.foldl (fun f e => f.set e.1 k 0 e.2) a.regs }

/-- The state with registers of one page instance set. -/
def State.withRegs (s : State) (i : Nat) (l : List (Reg × Nat)) : State :=
  s.modChip fun c => l.foldl (fun c e => c.setReg e.1 i 0 e.2) c

/-- The state with a partition changed. -/
def State.withPart (s : State) (p : Nat) (f : Part → Part) : State := s.modChip fun c => c.modPart p f

/-- The state with a context changed. -/
def State.withCtx (s : State) (x : Nat) (f : Ctx → Ctx) : State := s.modChip fun c => c.modCtx x f

/-- The state with a host port changed. -/
def State.withPort (s : State) (n : Nat) (f : HostPort → HostPort) : State := s.modChip fun c => c.modHostPort n f

/-- An endpoint agent and a leaf agent of zone 3 that a partition holds. -/
def ep5 : UnitId := .endpoint 3 5

/-- The leaf. -/
def leaf2 : UnitId := .leaf 3 2

/-- The state after reset with both agents held by partition 3. -/
def heldState : State :=
  (State.reset.withURegs ep5 [(.AIDENT_FID, 0x8005), (.AIDENT_PARTITION_FID, 0xFF003)]).withURegs leaf2
    [(.AIDENT_FID, 0xC0062), (.AIDENT_PARTITION_FID, 0xFF003)]

/-- A message of the partition to the endpoint. -/
def fromPart (u : UnitId) : Env := { unit := u, src := 0xFF003, tag := 9 }

/-- Operand bytes of a descriptor: offset, size, value. -/
def opsOf (l : List (Nat × Nat × Nat)) : Nat := (l.map fun e => (e.2.2 % 2 ^ (8 * e.2.1)) * 2 ^ (8 * (e.1 - 16))).sum

/-- The state with a host on port 0: its link is up and the G9 may write there. -/
def hostState : State :=
  (State.reset.withRegs 0 [(.HOSTPORT_LINK_UP, 1)]).withPort 0 fun h => { h with busMaster := true }

/-- The state with a command fetched from a queue whose rings lie at 0x1000 and 0x2000. -/
def State.fetched (s : State) (i : QId) (d : Desc) : State :=
  (s.withRegs i.inst [(i.reg .base, 0x1000), (i.reg .log2, 6), (i.reg .cqBase, 0x2000), (i.reg .cqLog2, 6)]).modChip fun c =>
    { c with cmds := c.cmds ++ [{ q := i, d := d, seq := c.cmdSeq, port := some 0 }], cmdSeq := c.cmdSeq + 1 }

/-- The bytes of a cabling plan without records. -/
def emptyPlan : List Nat :=
  let h := [0x50, 0x4C, 0x41, 0x4E, 1, 0, 0, 0, 7, 0, 0, 0, 0, 0, 0, 0]
  h ++ bytesOf 4 (crc32c (h ++ List.replicate 16 0)) ++ List.replicate 12 0

/-- The command of `fetched`, the first of the state. -/
def firstCmd (i : QId) (d : Desc) : Cmd := { q := i, d := d, port := some 0 }

/-- A spine of zone 3 in the topology. -/
def spine2 : TopoUnit := { unit := .spine 3 2, fid := 0xC0492, profile := 1, serial := 12 }

/-- A transaction of zone 3 whose second spine still owes an answer to its first act, while a third one has others. -/
def openTxn3 (stage : Nat) (l : List TxnAct) : Txn :=
  { req := { zones := [3] }, epoch := 7, openAt := 1, stage := stage, agents := [(UnitId.spine 3 2).code, (UnitId.spine 3 4).code],
    scripts := [((UnitId.spine 3 2).code, l), ((UnitId.spine 3 4).code, [.query])] }

/-- Partition 3 with that transaction and one request out. -/
def txnState (x : Txn) (type ref : Nat) : State :=
  State.reset.withPart 3 fun q => { q with
    topo := { q.topo with units := [((UnitId.spine 3 2).code, spine2)] }, txn := some x,
    requests := [{ dst := spine2.fid, msg := { type := type, tag := 5 }, sentAt := 2, ref := ref }] }

/-- A slice of one endpoint of pod 3 with number 7 and job 9. -/
def slice7 : Slice :=
  { num := 7, job := 9, ctx := 1, order := 0, origin := [3, 0, 0], kinds := [0, 0, 0], extents := [1, 1, 1], width := 0, width15 := 0,
    endpoints := [0x8005], windowFrames := 1, firstFrame := 8, startAt := 5, coordinator := 0, leadPod := 3, lead := 0xFF003 }

/-- The block with that slice. -/
def sliceState (f : Slice → Slice) : State := hostState.modChip fun c => { c with slices := [f slice7] }

/-- A request block for that endpoint's pod. -/
def sliceRequest : List Nat :=
  bytesOf 4 0x45434C53 ++ bytesOf 2 1 ++ bytesOf 2 9 ++ [1, 0] ++ bytesOf 2 3 ++ bytesOf 4 1 ++ bytesOf 2 3 ++ bytesOf 4 0 ++ bytesOf 2 0
    ++ bytesOf 2 1 ++ bytesOf 2 1 ++ bytesOf 2 1 ++ bytesOf 2 0 ++ bytesOf 4 0 ++ [1, 0, 0, 0] ++ bytesOf 8 0 ++ List.replicate 16 0
    ++ bytesOf 4 0x8005

/-- The endpoint of pod 3 in the topology, and context 1 made. -/
def readyState : State :=
  (hostState.withPart 3 fun q => { q with topo := { q.topo with
    units := [((UnitId.endpoint 3 5).code, { unit := .endpoint 3 5, fid := 0x8005 })] } }).withCtx 1 fun k => { k with state := 1 }

/-- A job of zone 3 with two endpoints, one frame a window, and a template whose first frame has a hole. -/
def job9 : Job :=
  { job := 9, ctx := 1, slice := 7, order := 0, frames := 1, first := 8, endpoints := [0x8005, 0x8009],
    tmpls := [{ num := 0, holes := [{ frame := 0, kind := 0, first := 0, last := 62 }], entries := [] }] }

/-- Two endpoints of one leaf of zone 3 with their links and the leaf's table. -/
def zone3 (q : Part) : Part :=
  { q with
    topo := { q.topo with
      units := [((UnitId.endpoint 3 5).code, { unit := .endpoint 3 5, fid := 0x8005 }),
                ((UnitId.endpoint 3 9).code, { unit := .endpoint 3 9, fid := 0x8009 })],
      links := [(linkKey (.endpoint 3 5) 0, { near := .endpoint 3 5, port := 0, far := some (.leaf 3 0), farPort := 5, d := 1 }),
                (linkKey (.leaf 3 0) 9, { near := .leaf 3 0, port := 9, far := some (.endpoint 3 9), d := 1 })] },
    mirrors := [((UnitId.leaf 3 0).code, [(0x8005, Chip.valid 5), (0x8009, Chip.valid 9)])],
    epochLinks := [linkKey (.endpoint 3 5) 0, linkKey (.leaf 3 0) 9] }

/-- The zone with the job at work. -/
def jobState (f : Job → Job) : State :=
  (hostState.modChip fun c => { c with slices := [{ slice7 with state := 2, endpoints := [0x8005, 0x8009] }] }).withPart 3 fun q =>
    { zone3 q with jobs := [f job9] }

/-- One item of window 100, from the first endpoint to the second. -/
def item1 : Item := { id := 4, src := 0x8005, pos := 5, dst := 0x8009, flow := 1, step := 2, idx := 0, cls := 5, cross := false, want := 3, owed := 3 }

/-- Window 100 with that item. -/
def win100 (f : Item → Item) : Win := { frame := 100, items := [f item1], nextId := 5 }

/-- A tensor of one tile. -/
def oneTile (first format rows cols : Nat) : Tensor := { first := first, gen := 1, format := format, rows := rows, cols := cols }

/-- Context 1 lives in partition 3 with a tensor table of one tile; each tensor has one sealed tile with the bytes given. -/
def tensorState (l : List (Tensor × List (Nat × Nat))) (more : List (Nat × Tile) := []) : State :=
  ((hostState.withCtx 1 fun k => { k with state := 2, shares := [(3, { sramFirst := 0, sramTiles := 64, lpFirst := 0x100000, lpTiles := 64 })] })).modChip
    fun c =>
      let c := (((c.setReg .MIOBOR_TTAB_VALID 3 1 1).setReg .MIOBOR_TTAB_FIRST_TILE 3 1 10).setReg .MIOBOR_TTAB_TILES 3 1 1).setReg
        .MIOBOR_TTAB_GEN 3 1 1
      let table := l.flatMap fun e => Chip.entryOf e.1
      let c := c.setTile 3 10 ({ gen := 1, ctx := 1, format := 0x22, shape := 0x7FF, data := payloadOf table } : Tile).sealed
      let c := l.foldl (fun c e => c.setTile 3 e.1.first (Chip.tensorTile 1 e.1 0 e.2)) c
      more.foldl (fun c e => c.setTile 3 e.1 e.2) c

/-- The command of the cluster with handles for A, B, C, D, AUX, PRED, the mode, M, N, K and PARAM. -/
def mioDesc (op : Nat) (h : List Nat) (mode m n k param : Nat) : Desc :=
  { opcode := op, tag := 7, ctx := 1, ops := opsOf (((List.range 6).map fun i => (0x10 + 2 * i, 2, h.getD i 0xFFFF)) ++
      [(0x1C, 4, mode), (0x20, 4, m), (0x24, 4, n), (0x28, 4, k), (0x2C, 4, param), (0x30, 4, 0x3F800000), (0x3C, 2, 2)]) }

/-- The sealed tiles of a tensor with empty payloads. -/
def tileRun (x : Nat) (a : Tensor) : List (Nat × Tile) := (List.range a.count).map fun i => (a.first + i, Chip.tensorTile x a i [])

/-- A tile of a run. -/
theorem find_range_map (k n : Nat) (f : Nat → Tile) (m : SMap Tile) : ∀ l : List Nat, n ∈ l →
    SMap.find? (l.map (fun i => (k + i, f i)) ++ m) (k + n) = some (f n) := by
  intro l
  induction l with
  | nil => intro h; cases h
  | cons a r ih =>
    intro h
    by_cases e : a = n
    · subst e; simp [SMap.find?]
    · have : n ∈ r := by cases h with
        | head => exact absurd rfl e
        | tail _ h => exact h
      have h2 : ¬ k + a = k + n := by omega
      simp only [List.map_cons, List.cons_append, SMap.find?, if_neg h2]
      exact ih this

/-- A tile behind a run. -/
theorem find_range_skip (k q : Nat) (f : Nat → Tile) (m : SMap Tile) : ∀ l : List Nat, (∀ i ∈ l, k + i ≠ q) →
    SMap.find? (l.map (fun i => (k + i, f i)) ++ m) q = SMap.find? m q := by
  intro l
  induction l with
  | nil => intro _; rfl
  | cons a r ih =>
    intro h
    simp only [List.map_cons, List.cons_append, SMap.find?, if_neg (h a (by simp))]
    exact ih fun i hi => h i (by simp [hi])

/-- A tensor of sealed tiles passes the check at use. -/
theorem checkTensor_of_sealed (c : Chip) (p x : Nat) (a : Tensor) (hf : a.format ≠ 0)
    (hv : ∀ i < a.count, Chip.tileValid (a.first + i) = true ∧ c.tileVacant p (a.first + i) = false)
    (ht : ∀ i < a.count, c.tile p (a.first + i) = Chip.tensorTile x a i []) : c.checkTensor p x a = none := by
  unfold Chip.checkTensor
  rw [List.findSome?_eq_none_iff]
  intro i hi
  have hi := List.mem_range.1 hi
  have hc : (Chip.tensorTile x a i []).crc = (Chip.tensorTile x a i []).goodCrc := rfl
  simp only [Chip.checkTile, ht i hi, (hv i hi).1, (hv i hi).2, hc]
  simp [Chip.tensorTile, Tile.sealed, hf]

/-- A forecast's tensor as its entry gives it. -/
theorem fcTensor_of (c : Chip) (p x h format rows cols : Nat) (a : Tensor) (ht : c.tensor p x h = .inl a)
    (hb : a = { a with format := format, rows := rows, cols := cols, blocked := false, sparse := false }) (hc : c.checkTensor p x a = none) :
    c.fcTensor p x h format rows cols = some a := by
  unfold Chip.fcTensor
  rw [ht]
  simp only [← hb, hc]
  rfl
/-- The job with an invocation for window 100 whose commands have completed. -/
def fcJob : Job := { job9 with inv := [{ window := 100, total := 2, done := 2 }] }
/-- The tensor FC. -/
def fcA : Tensor := oneTile 100 7 512 1

/-- The tensor FC_CONF. -/
def fcB : Tensor := oneTile 200 6 512 1

/-- Its partition with both tensors sealed. -/
def fcState : State :=
  ((tensorState [(fcA, []), (fcB, [])]).withPart 3 fun q =>
    { zone3 q with jobs := [fcJob], tiles := tileRun 1 fcA ++ (tileRun 1 fcB ++ [(10, SMap.get {} q.tiles 10)]),
                   sections := [{ ctx := 1, typ := 2, num := 0, job := 9, body := .policy { job := 9, fc := 0, fcConf := 1, fcWidth := 1 }, imageId := 0, imageVer := 0 }] }).modChip fun c => { c with slices := [{ slice7 with state := 2, endpoints := [0x8005, 0x8009] }] }

/-- Time alone changes no partition. -/
theorem found_part (s : State) (t p : Nat) : (s.found t).part p = s.chip.part p := rfl

/-- The tiles of the test state. -/
theorem fcState_tile (t n : Nat) : (fcState.found t).tile 3 n = SMap.get {} (tileRun 1 fcA ++ (tileRun 1 fcB ++ [(10, (tensorState [(fcA, []), (fcB, [])]).chip.tile 3 10)])) n := by
  unfold Chip.tile
  rw [found_part]
  unfold fcState State.modChip State.withPart
  generalize tensorState [(fcA, []), (fcB, [])] = s
  simp only [State.modChip, Chip.part, Chip.modPart, SMap.get_set, if_true]

/-- FC passes. -/
theorem fcA_ok : (fcState.found 13000000).fcTensor 3 1 0 7 512 1 = some fcA := by
  apply fcTensor_of
  · decide +kernel
  · rfl
  · apply checkTensor_of_sealed
    · decide
    · decide +kernel
    · intro i hi
      rw [fcState_tile, SMap.get, tileRun, find_range_map _ _ _ _ _ (List.mem_range.2 hi)]
      rfl

/-- FC_CONF passes. -/
theorem fcB_ok : (fcState.found 13000000).fcTensor 3 1 1 6 512 1 = some fcB := by
  apply fcTensor_of
  · decide +kernel
  · rfl
  · apply checkTensor_of_sealed
    · decide
    · decide +kernel
    · intro i hi
      have h : i < 32 := hi
      rw [fcState_tile, SMap.get, tileRun, find_range_skip _ _ _ _ _ (fun j hj => by
        have : j < 32 := List.mem_range.1 hj
        show 100 + j ≠ 200 + i
        omega), tileRun, find_range_map _ _ _ _ _ (List.mem_range.2 hi)]
      rfl

/-- The policy of the test state. -/
theorem fcPolicy : ((fcState.found 13000000).policyAt 3 fcJob 100).fc = 0 ∧ ((fcState.found 13000000).policyAt 3 fcJob 100).fcConf = 1 ∧
    ((fcState.found 13000000).policyAt 3 fcJob 100).fcWidth = 1 := by decide +kernel

/-- The header of an image of one section, and its section table: a manifest of 16 bytes at 640. -/
def imageHead : List Nat :=
  bytesOf 4 0x4C494F54 ++ bytesOf 2 1 ++ bytesOf 2 1 ++ bytesOf 4 4 ++ bytesOf 4 2 ++ bytesOf 8 656 ++ List.replicate 488 0

/-- The table. -/
def imageTable : List Nat := [1, 0, 0, 0, 9, 0, 0, 0] ++ bytesOf 8 640 ++ bytesOf 4 16 ++ List.replicate 108 0

/-- A load of context 1 in partition 3. -/
def load7 (plain : Option (List (List Nat))) (verified : Bool) : LoadRun :=
  { q := .compute 1 3, tag := 7, ctx := 1, addr := 0x4000, port := 0, startAt := 1, begin_ := false, fromFrame := 0, partial_ := false,
    imageId := 4, imageVer := 2, keyGen := 0, digest := 0, sections := [], plain := plain, verified := verified }

/-- A key blob for context 1 in its generation 3. -/
def keyBlob : List Nat := bytesOf 4 0x4B575843 ++ bytesOf 2 1 ++ [1, 0] ++ bytesOf 4 3 ++ bytesOf 4 5 ++ List.replicate 240 0

/-- How many bytes a number is given. -/
theorem length_bytesOf (n v : Nat) : (bytesOf n v).length = n := by
  induction n generalizing v with
  | zero => rfl
  | succ n ih => simp [bytesOf, ih]

/-- The program of context 1 runs on core 2 of partition 3. -/
def coreState (g : Prog) : State :=
  ((tensorState []).modChip fun c => (c.setReg .CORES_STATE 3 2 1).setReg .CORES_RUN_CTX 3 2 1).withPart 3 fun q =>
    { q with progs := [(6, { g with state := 2 })] }

/-- A Mule command with its operands. -/
def muleDesc (op src dst count gen format shape expect : Nat) : Desc :=
  { opcode := op, tag := 7, ctx := 1, ops := opsOf [(0x10, 8, src), (0x18, 8, dst), (0x20, 4, count), (0x24, 4, gen), (0x28, 1, format),
      (0x2A, 2, shape), (0x30, 4, expect)] }

/-- A tile of context 1 in partition 3. -/
def tile1 (n : Nat) : Nat × Tile := (n, Chip.tensorTile 1 (oneTile n 7 1 1) 0 [(0, n)])

end Sys2Proof.Machine

open Sys2Proof Sys2Proof.Machine

/-! Ill-formed terms: each check refuses one. -/

section

theorem test_wf_hostAddr_bar0 : (HostAddr.bar0 0x2000000).wf = false := by decide
theorem test_wf_hostAddr_bar2 : (HostAddr.bar2 64 0 false).wf = false := by decide
theorem test_wf_unit_endpoint : (UnitId.endpoint 3 512).wf = false := by decide
theorem test_wf_unit_leaf : (UnitId.leaf 16 2).wf = false := by decide
theorem test_wf_unit_spine : (UnitId.spine 3 16).wf = false := by decide
theorem test_wf_unit_ocs : (UnitId.ocs 65536).wf = false := by decide
theorem test_wf_unit_partition : (UnitId.part 16).wf = false := by decide
theorem test_wf_packet_hops : ({ dst := 1, src := 2, cls := 0, hops := 64 } : Packet).wf = false := by decide
theorem test_wf_packet_group : ({ dst := 1, src := 2, cls := 0, group := 4096 } : Packet).wf = false := by decide
theorem test_wf_frame_counter : ({ counter := 2 ^ 48, pkt := { dst := 1, src := 2, cls := 0 } } : Frame).wf = false := by decide
theorem test_wf_envelope_source : ({ unit := ep5, src := 0x100000 } : Env).wf = false := by decide
theorem test_wf_identity_profile : ({ profile := 4 } : IdBlock).wf = false := by decide
theorem test_wf_directed_count : ({ op := 1, count := 256, index := 0, origin := 0xFF003, tag := 1 } : DirBlock).wf = false := by decide
theorem test_wf_slotEntry_first : ({ first := 1024, frame := 0, run := 1, dst := 5, flow := 1 } : SlotEntry).wf = false := by decide
theorem test_wf_segment_length :
    ({ windowFrame := 0, frames := 1, template := 0, segment := 0, segments := 1, totalEntries := 766, step := 0, job := 1, listCrc := 0,
       entries := List.replicate 766 { first := 0, frame := 0, run := 1, dst := 5, flow := 1 } } : Segment).wf = false := by decide +kernel
theorem test_wf_chunk_context :
    ({ flow := 1, seq := 0, total := 1, step := 0, ctx := 64, job := 1, len := 32, sched := true } : Chunk).wf = false := by decide
theorem test_wf_demand_destination :
    ({ job := 1, n := 1, step := 0, window := 4, ctx := 1, bodyLen := 24, entries := [(0x100000, 1)] } : DemandBody).wf = false := by decide
theorem test_wf_cross_pod : ({ job := 1, slice := 1, window := 4, pod := 512, words := [] } : CrossBody).wf = false := by decide
theorem test_wf_failNote_fid : ({ job := 1, fids := [0x100000] } : FailNote).wf = false := by decide
theorem test_wf_peerNews_unit : ({ units := [{ fid := 5, unit := .part 16, pod := 1 }] } : PeerNews).wf = false := by decide
theorem test_wf_descriptor_operands : ({ opcode := 0x20, ops := 2 ^ 200 * 2 ^ 184 } : Desc).wf = false := by decide +kernel
theorem test_wf_queue_context : (QId.compute 64 3).wf = false := by decide
theorem test_wf_trace_unit : (TraceItem.command false 1024 1 1 0 0 0).wf = false := by decide
theorem test_wf_spdm_index : (SpdmReq.measure 256 0).wf = false := by decide
theorem test_wf_defect_engine : (Defect.engine 272).wf = false := by decide
theorem test_wf_command_time : (Instr.windowStart (2 ^ 64) ep5).wf = false := by decide +kernel
theorem test_wf_command_partition : (Instr.commitDeadline 10 16).wf = false := by decide +kernel

/-! Single steps and functions, their expected results by hand from the rules -/

/-- R7 names the CRC of Castagnoli: its published check value over the nine digits. -/
theorem test_crc_check_value : crc32c [0x31, 0x32, 0x33, 0x34, 0x35, 0x36, 0x37, 0x38, 0x39] = 0xE3069283 := by decide +kernel
/-- R77: a difference of 32,768 is not newer, one of 32,767 is, across the wrap too. -/
theorem test_epoch_wraps : epochNewer 2 65530 = true ∧ epochNewer 32769 1 = false ∧ epochNewer 32768 1 = true := by decide
/-- R16: of several conditions the one first in its order is reported. -/
theorem test_worst_status : Chip.worst [0x0D, 0x03, 0x01] = 0x03 ∧ Chip.worst [] = 0x00 := by decide
/-- The outcome is a next state that passes. -/
def outcomeHas (o : Host.Outcome State Fault Refusal) (p : State → Bool) : Bool :=
  match o with
  | .next s => p s
  | _ => false

/-- A step takes the front command and leaves the rest in order. -/
theorem test_command_leaves_queue :
    outcomeHas (step { State.reset with pending := [.ppsOutPulse 5, .ppsOutPulse 6] }) (fun s => decide (s.pending = [.ppsOutPulse 6])) = true := by decide +kernel
/-- R78: a DRAIN of an epoch that no bank holds is refused as stale and stops no class. -/
theorem test_drain_without_shadow :
    outcomeHas (exec (.drain 10 (fromPart leaf2) 9 3) heldState) (fun s => decide (s.ureg leaf2 .ABANKS_STATE = 0)) = true := by decide +kernel
/-- R93: HOLD puts an agent into outage. -/
theorem test_hold_enters_outage :
    outcomeHas (exec (.hold 10 (fromPart leaf2)) heldState) (fun s => decide (s.ureg leaf2 .ACONTROL_MODE = 1)) = true := by decide +kernel

end


section

set_option linter.unusedVariables false
set_option Elab.async false

/-! What meets the hypotheses of each statement -/

theorem witness_StepRunsTheFront_1 :
  ({ State.reset with pending := [.ppsOutPulse 5] } : State).pending = [.ppsOutPulse 5] := by decide +kernel

theorem witness_StepRunsTheFront_2 :
  State.reset.pending = [] := by decide +kernel

theorem witness_EpochOrder_1 :
  (7 : Nat) < 65536 ∧ (40000 : Nat) < 65536 := by decide +kernel

theorem witness_EpochOrder_2 :
  (7 : Nat) < 65536 := by decide +kernel

theorem witness_EpochOrder_3 :
  let t := 10
  let e := fromPart leaf2
  let ep := 0x8000
  let s := heldState
  s.takesNew t e .control ∧ s.ureg e.unit .ACONTROL_MODE ≠ 2 ∧ epochNewer ep (s.ureg e.unit .ABANKS_ACTIVE_EPOCH) = false ∧ (∀ l, (s.chip.agent e.unit).shadowLoad = some l → l.src = e.src → l.tag ≠ e.tag) := by decide +kernel

theorem witness_EpochOrder_4 :
  let t := 1000
  let e := fromPart leaf2
  let fid := 0x8005
  let job := 2
  let f := 7
  let x : FenceEntry := { fid := 0x8005, job := 2, f := 9 }
  let s := heldState.withAgent leaf2 fun a => { a with fences := [{ fid := 0x8005, job := 2, f := 9 }] }
  s.takesNew t e .control ∧ e.unit.profile ≠ .circuit ∧ (s.unit t e.unit).fenceOf fid = some x ∧ epochNewer f x.f = false := by decide +kernel

theorem witness_EpochOrder_5 :
  let t := 1000
  let e := fromPart leaf2
  let fid := 0x8005
  let job := 2
  let f := 10
  let x : FenceEntry := { fid := 0x8005, job := 2, f := 9, lifted := true }
  let s := heldState.withAgent leaf2 fun a => { a with fences := [{ fid := 0x8005, job := 2, f := 9, lifted := true }] }
  s.takesNew t e .control ∧ e.unit.profile ≠ .circuit ∧ (s.unit t e.unit).fenceOf fid = some x ∧ epochNewer f x.f = true := by decide +kernel

theorem witness_OpenPairsStaySound_1 :
  ∃ s', pairsSound State.reset.pairs ∧ step State.reset = .next s' := ⟨State.reset, ⟨by decide, by decide⟩, rfl⟩

theorem witness_AgentsActAlone_1 :
  ∃ s', agentOf (.windowStart 10 ep5) = some ep5 ∧ ep5.profile ≠ .partition ∧ exec (.windowStart 10 ep5) heldState = .next s' := ⟨_, rfl, by decide, rfl⟩

theorem witness_MoversAndClusterWriteTheirOwn_1 :
  ∃ s', muleOf (.copy 10 (.mule 1 3) (muleDesc 0x20 20 30 2 5 0 0 1)) = some (.mule 1 3, muleDesc 0x20 20 30 2 5 0 0 1) ∧ exec (.copy 10 (.mule 1 3) (muleDesc 0x20 20 30 2 5 0 0 1)) State.reset = .next s' := ⟨_, rfl, rfl⟩

theorem witness_MoversAndClusterWriteTheirOwn_2 :
  ∃ s', muleOf (.copy 10 (.mule 1 3) (muleDesc 0x20 20 30 2 5 0 0 1)) = some (.mule 1 3, muleDesc 0x20 20 30 2 5 0 0 1) ∧ exec (.copy 10 (.mule 1 3) (muleDesc 0x20 20 30 2 5 0 0 1)) State.reset = .next s' ∧ State.reset.chip.q (.mule 1 3) .cqBase + 16 * State.reset.chip.q (.mule 1 3) .cqTail + 16 ≤ 2 ^ 64 ∧ State.reset.offRecord (.mule 1 3) 7 0 0x9000 ∧ (MuOps.ofDesc (muleDesc 0x20 20 30 2 5 0 0 1)).dst + (MuOps.ofDesc (muleDesc 0x20 20 30 2 5 0 0 1)).count * (MuOps.ofDesc (muleDesc 0x20 20 30 2 5 0 0 1)).hostSize ≤ 2 ^ 64 ∧ (muleDesc 0x20 20 30 2 5 0 0 1).opcode ≠ 0x22 := ⟨_, rfl, rfl, by decide +kernel, .inr (.inr (by decide +kernel)), by decide +kernel, by decide⟩

theorem witness_MoversAndClusterWriteTheirOwn_3 :
  ∃ s', clusterOf (.gemm 10 (.compute 1 3) (mioDesc 0x10 [0, 1, 2] 0 1 1 1 0)) = some (.compute 1 3, 7) ∧ exec (.gemm 10 (.compute 1 3) (mioDesc 0x10 [0, 1, 2] 0 1 1 1 0)) State.reset = .next s' ∧ State.reset.chip.q (.compute 1 3) .cqBase + 16 * State.reset.chip.q (.compute 1 3) .cqTail + 16 ≤ 2 ^ 64 ∧ State.reset.offRecord (.compute 1 3) 7 0 0x9000 := ⟨_, rfl, rfl, by decide +kernel, .inr (.inr (by decide +kernel))⟩

theorem witness_LocalCommandsStayLocal_1 :
  ∃ s', isLocal (.dvfsTick 10 900) = true ∧ exec (.dvfsTick 10 900) State.reset = .next s' ∧ (Reg.desc .PARTITION_DEGRADED).page ∈ farPages := ⟨_, rfl, rfl, by decide⟩

theorem witness_RuntimeOperations_1 :
  let t := 700
  let u := ep5
  let src := 0x8009
  let flow := 4
  let s := heldState
  u.profile ≠ .partition ∧ ((s.chip.agent u).flows.find? (fun x => x.src = src && x.flow = flow) = none) ∧ (s.unit t u).flowFull = false := ⟨by decide, by decide +kernel, decide_eq_false (Nat.not_le.mpr (Nat.two_pow_pos _))⟩

theorem witness_RuntimeOperations_2 :
  let t := 700
  let u := ep5
  let k : Chunk := { dst := 0x8009, flow := 4, seq := 0, total := 3, step := 1, job := 2, len := 9000, sched := true }
  let s := heldState
  u.profile ≠ .partition ∧ k.addr = none ∧ (k.mcast = true ∨ (s.unit t u).isFenced k.dst = false) := by decide +kernel

theorem witness_RuntimeOperations_3 :
  let u := ep5
  let src := 0x8009
  let flow := 4
  let total := 2
  let f : Flow := { src := 0x8009, flow := 4, count := 1, progress := 0 }
  let s := heldState.withAgent ep5 fun a => { a with flows := [{ src := 0x8009, flow := 4, count := 1, progress := 0 }] }
  u.profile ≠ .partition ∧ ((s.chip.agent u).flows.find? (fun x => x.src = src && x.flow = flow) = some f) ∧ f.count < total := by decide +kernel

theorem witness_RuntimeOperations_4 :
  let t := 524288
  let u := ep5
  let src := 0x8009
  let flow := 4
  let f : Flow := { src := 0x8009, flow := 4, count := 1, progress := 0, waited := true }
  let s := heldState.withAgent ep5 fun a => { a with flows := [{ src := 0x8009, flow := 4, count := 1, progress := 0, waited := true }] }
  u.profile ≠ .partition ∧ ((s.chip.agent u).flows.find? (fun x => x.src = src && x.flow = flow) = some f) ∧ f.waited = true ∧ f.progress + s.ureg u .ACONTROL_FLOW_TIMEOUT * 131072 ≤ (s.unit t u).now := by decide +kernel

theorem witness_RuntimeOperations_5 :
  let u := ep5
  let m : Msg := { type := 0x35 }
  let r : List Msg := []
  let s := heldState.withAgent ep5 fun a => { a with notices := [{ type := 0x35 }] }
  u.profile ≠ .partition ∧ (s.chip.agent u).notices = m :: r := by decide +kernel

theorem witness_LooseRate_1 :
  let t := 9000
  let e : Env := { unit := ep5, src := 0x8009 }
  let s := heldState
  s.takes t e .anyone ∧ s.ureg e.unit .ALOOSE_PIN = 0 ∧ ((s.chip.agent e.unit).lastHalving.all (fun h => h + 8192 ≤ (s.unit t e.unit).now) = true) := by decide +kernel

theorem witness_LooseRate_2 :
  let t := 9000
  let e : Env := { unit := ep5, src := 0x8009 }
  let s := heldState.withURegs ep5 [(.ALOOSE_PIN, 1)]
  s.takes t e .anyone ∧ s.ureg e.unit .ALOOSE_PIN ≠ 0 := by decide +kernel

theorem witness_LooseRate_3 :
  let t := 16384
  let u := ep5
  let s := heldState.withURegs ep5 [(.ALOOSE_RATE, 400000)]
  u.profile ≠ .partition ∧ (s.chip.agent u).lastRise + 16384 ≤ (s.unit t u).now := by decide +kernel

theorem witness_LinkTraffic_1 :
  let t := 900
  let z := 3
  let n := 5
  let k := 0
  let f : Frame := { pkt := { dst := 0x8005, src := 0x8009, cls := 0, flow := 4, seq := 1, total := 3, len := 9000 } }
  let l : LinkEnd := { rx := [(0, 1)] }
  let fl : Flow := { src := 0x8009, flow := 4, count := 1, decl := some 3, progress := 0, waited := true }
  let s := heldState.withAgent ep5 fun a => { a with flows := [{ src := 0x8009, flow := 4, count := 1, decl := some 3, progress := 0, waited := true }] }
  k < 513 ∧ ((s.unit t (.endpoint z n)).port k).disabled = false ∧ linkCheck ((s.unit t (.endpoint z n)).port k).link ((s.unit t (.endpoint z n)).now) false f = .ok l ∧ f.pkt.cls < 2 ∧ f.pkt.len ≤ 12288 ∧ AC.badAddr f.pkt = false ∧ f.pkt.mcast = false ∧ f.pkt.dst = s.ureg (.endpoint z n) .AIDENT_FID ∧ f.pkt.mark = false ∧ (f.pkt.src, f.pkt.flow) ∉ (s.chip.agent (.endpoint z n)).ended ∧ ((s.chip.agent (.endpoint z n)).flows.find? (fun x => x.src = f.pkt.src && x.flow = f.pkt.flow) = some fl) ∧ fl.decl = some f.pkt.total ∧ fl.lowered = none ∧ f.pkt.seq < f.pkt.total ∧ fl.count + 1 < f.pkt.total := by decide +kernel

theorem witness_LinkTraffic_2 :
  let t := 900
  let z := 3
  let m := 2
  let k := 40
  let e := 5
  let q := 5
  let f : Frame := { pkt := { dst := 0x8005, src := 0x8009, cls := 0, flow := 4, seq := 1, total := 3, len := 9000 } }
  let l : LinkEnd := { rx := [(0, 1)] }
  let s := (heldState.withUPort leaf2 5 [(.APORT_UP, 1)]).withAgent leaf2 fun a => { a with banks := [(0x8005, 0x85)] }
  k < 64 ∧ ((s.unit t (.leaf z m)).port k).disabled = false ∧ linkCheck ((s.unit t (.leaf z m)).port k).link ((s.unit t (.leaf z m)).now) false f = .ok l ∧ f.pkt.cls = 0 ∧ f.pkt.len ≤ 12288 ∧ AC.badAddr f.pkt = false ∧ f.pkt.mcast = false ∧ f.pkt.hops ≠ s.ureg (.leaf z m) .ACONTROL_HOP_LIMIT ∧ (s.unit t (.leaf z m)).isFenced f.pkt.dst = false ∧ (s.unit t (.leaf z m)).isStale f.pkt.dst f.pkt.fenceEpoch = false ∧ (s.unit t (.leaf z m)).lookup f.pkt.dst = some e ∧ ((s.unit t (.leaf z m)).outputOf e f.pkt.src f.pkt.dst).1 = some q ∧ (s.unit t (.leaf z m)).freeNext q = true := by decide +kernel

theorem witness_LinkTraffic_3 :
  let t := 1280
  let u := leaf2
  let k := 5
  let x : Assigned := ⟨10, { dst := 0x8005, src := 0x8009, cls := 0 }, 5, some 40⟩
  let s := (heldState.withUPort leaf2 5 [(.APORT_UP, 1)]).withAgent leaf2 fun a => { a with ports := [(5, { next := some ⟨10, { dst := 0x8005, src := 0x8009, cls := 0 }, 5, some 40⟩ })] }
  (u.profile = .endpoint ∨ u.profile = .switch) ∧ k < 513 ∧ (s.unit t u).now % 128 = 0 ∧ ((s.unit t u).port k).lastStart ≠ some ((s.unit t u).now / 128) ∧ ((s.unit t u).now / 128) % 64 ≠ 63 ∧ s.upreg u .APORT_UP k = 1 ∧ ((s.unit t u).port k).next = some x ∧ x.slot = (s.unit t u).now / 128 ∧ ((s.unit t u).port k).link.spent (AC.txIndex ((s.unit t u).port k).link x.pkt) = false := by decide +kernel

theorem witness_LinkTraffic_4 :
  let t := 8064
  let u := leaf2
  let k := 5
  let p : Packet := { dst := 0x8005, src := 0x8009, cls := 2 }
  let s := (heldState.withUPort leaf2 5 [(.APORT_UP, 1)]).withAgent leaf2 fun a => { a with ports := [(5, { mgmtQ := [{ dst := 0x8005, src := 0x8009, cls := 2 }] })] }
  (u.profile = .endpoint ∨ u.profile = .switch) ∧ k < 513 ∧ (s.unit t u).now % 128 = 0 ∧ ((s.unit t u).port k).lastStart ≠ some ((s.unit t u).now / 128) ∧ ((s.unit t u).now / 128) % 64 = 63 ∧ k ≠ s.ureg u .ATIME_PARENT_PORT ∧ s.upreg u .APORT_UP k = 1 ∧ ((s.unit t u).port k).next = none ∧ ((s.unit t u).port k).mgmtQ = [p] ∧ p.len ≤ 12288 ∧ ((s.unit t u).port k).link.spent (AC.txIndex ((s.unit t u).port k).link p) = false := by decide +kernel

theorem witness_PortsAndPartners_1 :
  let u := leaf2
  let k := 5
  let s := heldState.withUPort leaf2 5 [(.APORT_UP, 1)]
  u.profile ≠ .partition ∧ k < 513 ∧ s.upreg u .APORT_UP k = 1 := by decide +kernel

theorem witness_PortsAndPartners_2 :
  let t := 10
  let u := leaf2
  let k := 5
  let s := heldState
  u.profile ≠ .partition ∧ k < 513 ∧ s.upreg u .APORT_UP k ≠ 1 ∧ ((s.unit t u).port k).disabled = false := by decide +kernel

theorem witness_PortsAndPartners_3 :
  let t := 10
  let e : Env := { unit := leaf2, port := 5, src := 0x8005 }
  let s := heldState.withUPort leaf2 5 [(.APORT_PARTNER_FID, 0x8005)]
  s.takes t e .ident := by decide +kernel

theorem witness_PortsAndPartners_4 :
  let t := 10
  let u := leaf2
  let k := 5
  let s := heldState.withUPort leaf2 5 [(.APORT_UP, 1), (.APORT_PARTNER_FID, 0x8005)]
  u.profile ≠ .partition ∧ (u.profile = .circuit → k = 0) ∧ s.upreg u .APORT_UP k = 1 ∧ (((s.unit t u).port k).identAt.all (fun a => a + 1000000 ≤ (s.unit t u).now) = true) ∧ ((s.unit t u).port k).mgmtQ.length < 16 := by decide +kernel

theorem witness_AgentRegisters_1 :
  let t := 10
  let e := fromPart leaf2
  let addr := 0x808004
  let n := 2
  let s := heldState.withAgent leaf2 fun a => { a with banks := [(0x8005, 0x85)] }
  s.takesNew t e .anyPart ∧ 0x800000 ≤ addr ∧ addr + 4 * n ≤ 0xE00000 := by decide +kernel

theorem witness_AgentRegisters_2 :
  let t := 10
  let e := fromPart leaf2
  let s := heldState
  s.takesNew t e .control ∧ (s.unit t e.unit).openPair e.src 0 = none := by decide +kernel

theorem witness_AgentRegisters_3 :
  let t := 10
  let e := fromPart leaf2
  let s := heldState
  s.takesNew t e .control ∧ (s.unit t e.unit).openPair e.src 0 = none := by decide +kernel

theorem witness_AgentRegisters_4 :
  let t := 10
  let e := fromPart leaf2
  let w := 0xC0077
  let a := 4
  let s := heldState.withAgent leaf2 fun a => { a with pairs := [⟨0xFF003, 0, 0x110, [0xC0077], 4⟩] }
  s.takesNew t e .control ∧ (s.unit t e.unit).openPair e.src 0 = some ⟨e.src, 0, 0x110, [w], a⟩ ∧ (s.unit t e.unit).now ≤ a + 100000 := by decide +kernel

theorem witness_AgentRegisters_5 :
  let t := 100005
  let u := leaf2
  let src := 0xFF003
  let page := 0
  let x : AgentPair := ⟨0xFF003, 0, 0x110, [0xC0077], 4⟩
  let s := heldState.withAgent leaf2 fun a => { a with pairs := [⟨0xFF003, 0, 0x110, [0xC0077], 4⟩] }
  u.profile ≠ .partition ∧ (s.unit t u).openPair src page = some x ∧ x.at_ + 100000 < (s.unit t u).now := by decide +kernel

theorem witness_AgentRegisters_6 :
  let t := 131072
  let u := leaf2
  let p : Pend := ⟨20, .frame, 131072, false⟩
  let s := heldState.withAgent leaf2 fun a => { a with regs := a.regs.setPend .ACONTROL_HOP_LIMIT 0 0 ⟨20, .frame, 131072, false⟩ }
  u.profile ≠ .partition ∧ SMap.find? (s.chip.agent u).regs.pend (Reg.key .ACONTROL_HOP_LIMIT 0 0) = some p ∧ p.bnd = .frame ∧ p.due ≤ (s.unit t u).now := by decide +kernel

theorem witness_BankLoading_1 :
  let t := 10
  let e := fromPart leaf2
  let ep := 1
  let chunks := 2
  let s := heldState.withAgent leaf2 fun a => { a with banks := [(0x8005, 0x85)] }
  s.takesNew t e .control ∧ (s.chip.agent e.unit).shadowLoad = none ∧ epochNewer ep (s.ureg e.unit .ABANKS_ACTIVE_EPOCH) = true ∧ (s.ureg e.unit .ABANKS_STATE = 0 ∨ s.ureg e.unit .ABANKS_STATE = 6) ∧ 0 < chunks := by decide +kernel

theorem witness_BankLoading_2 :
  let t := 10
  let e := fromPart leaf2
  let ep := 0
  let chunks := 2
  let s := heldState
  s.takesNew t e .control ∧ (s.chip.agent e.unit).staticLoad = none ∧ ep = s.ureg e.unit .ABANKS_ACTIVE_EPOCH ∧ 0 < chunks := by decide +kernel

theorem witness_BankLoading_3 :
  let t := 10
  let e := fromPart leaf2
  let ep := 1
  let l : Load := { src := 0xFF003, tag := 8, epoch := 1, chunks := 2, crc := 77 }
  let s := heldState.withAgent leaf2 fun a => { a with shadowLoad := some { src := 0xFF003, tag := 8, epoch := 1, chunks := 2, crc := 77 } }
  s.takesNew t e .control ∧ (s.chip.agent e.unit).staticLoad = none ∧ (s.chip.agent e.unit).shadowLoad = some l ∧ l.epoch = ep ∧ l.seen.length + 1 < l.chunks := by decide +kernel

theorem witness_BankLoading_4 :
  let t := 1000010
  let u := leaf2
  let l : Load := { src := 0xFF003, tag := 8, epoch := 1, chunks := 2, crc := 77, lastWrite := 10 }
  let s := heldState.withAgent leaf2 fun a => { a with staticLoad := some { src := 0xFF003, tag := 8, epoch := 1, chunks := 2, crc := 77, lastWrite := 10 } }
  u.profile ≠ .partition ∧ (s.chip.agent u).staticLoad = some l ∧ l.lastWrite + s.ureg u .ACONTROL_CONTROL_TIMEOUT * 1000 ≤ (s.unit t u).now := by decide +kernel

theorem witness_BankLoading_5 :
  let t := 10
  let e := fromPart leaf2
  let ep := 1
  let s := heldState.withURegs leaf2 [(.ABANKS_SHADOW_EPOCH, 1), (.ABANKS_STATE, 2)]
  s.takesNew t e .control ∧ epochNewer ep (s.ureg e.unit .ABANKS_ACTIVE_EPOCH) = true ∧ ep = s.ureg e.unit .ABANKS_SHADOW_EPOCH ∧ s.ureg e.unit .ABANKS_STATE ≠ 5 := by decide +kernel

theorem witness_BankDrainAndResume_1 :
  let t := 10
  let e := fromPart leaf2
  let ep := 1
  let s := heldState.withURegs leaf2 [(.ABANKS_SHADOW_EPOCH, 1), (.ABANKS_STATE, 2)]
  s.takesNew t e .control ∧ (s.chip.agent e.unit).drainReq = none ∧ epochNewer ep (s.ureg e.unit .ABANKS_ACTIVE_EPOCH) = true ∧ ep = s.ureg e.unit .ABANKS_SHADOW_EPOCH ∧ (s.ureg e.unit .ABANKS_STATE = 2 ∨ s.ureg e.unit .ABANKS_STATE = 6) := by decide +kernel

theorem witness_BankDrainAndResume_2 :
  let t := 1000
  let u := leaf2
  let s := (heldState.withURegs leaf2 [(.ABANKS_STATE, 3)]).withAgent leaf2 fun a => { a with drainAt := 10, drainReq := some (0xFF003, 9) }
  u.profile ≠ .partition ∧ s.ureg u .ABANKS_STATE = 3 ∧ (s.unit t u).inFlightAll = 0 ∧ (s.chip.agent u).drainAt + ((s.unit t u).maxD + 1) * 128 ≤ (s.unit t u).now ∧ (s.chip.agent u).quietFrom + ((s.unit t u).maxD + 1) * 128 ≤ (s.unit t u).now := by decide +kernel

theorem witness_BankDrainAndResume_3 :
  let t := 1000010
  let u := leaf2
  let s := (heldState.withURegs leaf2 [(.ABANKS_STATE, 3)]).withAgent leaf2 fun a => { a with drainAt := 10, drainReq := some (0xFF003, 9) }
  u.profile ≠ .partition ∧ s.ureg u .ABANKS_STATE = 3 ∧ (s.chip.agent u).drainAt + s.ureg u .ACONTROL_DRAIN_TIMEOUT * 1000 ≤ (s.unit t u).now := by decide +kernel

theorem witness_BankDrainAndResume_4 :
  let t := 10
  let e := fromPart leaf2
  let s := heldState.withURegs leaf2 [(.ABANKS_ACTIVE_EPOCH, 1), (.ABANKS_STATE, 5)]
  s.takesNew t e .control ∧ s.ureg e.unit .ABANKS_STATE = 5 := by decide +kernel

theorem witness_BankDrainAndResume_5 :
  let t := 50000010
  let u := leaf2
  let s := (heldState.withURegs leaf2 [(.ABANKS_STATE, 5)]).withAgent leaf2 fun a => { a with commitAt := 10 }
  u.profile ≠ .partition ∧ s.ureg u .ABANKS_STATE = 5 ∧ (s.chip.agent u).commitAt + s.ureg u .ACONTROL_RESUME_WAIT * 1000000 ≤ (s.unit t u).now := by decide +kernel

theorem witness_BankDrainAndResume_6 :
  let t := 50000010
  let u := leaf2
  let s := (heldState.withURegs leaf2 [(.ABANKS_STATE, 4), (.ACONTROL_MODE, 1)]).withAgent leaf2 fun a => { a with drainAt := 10 }
  u.profile ≠ .partition ∧ (s.ureg u .ABANKS_STATE = 3 ∨ s.ureg u .ABANKS_STATE = 4) ∧ (s.chip.agent u).drainAt + s.ureg u .ACONTROL_COMMIT_WAIT * 1000000 ≤ (s.unit t u).now := by decide +kernel

theorem witness_BankDrainAndResume_7 :
  let t := 10
  let e := fromPart leaf2
  let s := heldState.withURegs leaf2 [(.ABANKS_ACTIVE_EPOCH, 1), (.ABANKS_STATE, 5)]
  s.takesNew t e .anyPart ∧ ¬(e.src = s.ureg e.unit .AIDENT_PARTITION_FID ∧ e.src ≠ nullFid ∧ s.ureg e.unit .ACONTROL_MODE = 1) := by decide +kernel

theorem witness_CommitDeadline_1 :
  let t := 50000009
  let e := fromPart leaf2
  let ep := 1
  let s := (heldState.withURegs leaf2 [(.ABANKS_STATE, 4), (.ABANKS_SHADOW_EPOCH, 1)]).withAgent leaf2 fun a => { a with drainAt := 10 }
  s.takesNew t e .control ∧ s.ureg e.unit .ACONTROL_MODE ≠ 2 ∧ epochNewer ep (s.ureg e.unit .ABANKS_ACTIVE_EPOCH) = true ∧ ep = s.ureg e.unit .ABANKS_SHADOW_EPOCH ∧ (s.ureg e.unit .ABANKS_STATE = 3 ∨ s.ureg e.unit .ABANKS_STATE = 4) ∧ (s.unit t e.unit).now < (s.chip.agent e.unit).drainAt + s.ureg e.unit .ACONTROL_COMMIT_WAIT * 1000000 ∧ s.ureg e.unit .ABANKS_ACTIVE_BANK ≤ 1 := by decide +kernel

theorem witness_CommitDeadline_2 :
  let t := 50000010
  let e := fromPart leaf2
  let ep := 1
  let s := (heldState.withURegs leaf2 [(.ABANKS_STATE, 4), (.ABANKS_SHADOW_EPOCH, 1)]).withAgent leaf2 fun a => { a with drainAt := 10 }
  s.takesNew t e .control ∧ s.ureg e.unit .ACONTROL_MODE ≠ 2 ∧ epochNewer ep (s.ureg e.unit .ABANKS_ACTIVE_EPOCH) = true ∧ ep = s.ureg e.unit .ABANKS_SHADOW_EPOCH ∧ (s.ureg e.unit .ABANKS_STATE = 3 ∨ s.ureg e.unit .ABANKS_STATE = 4) ∧ (s.chip.agent e.unit).drainAt + s.ureg e.unit .ACONTROL_COMMIT_WAIT * 1000000 ≤ (s.unit t e.unit).now := by decide +kernel

theorem witness_AgentFences_1 :
  let t := 1000
  let e := fromPart leaf2
  let fid := 0x8005
  let s := heldState
  s.takesNew t e .control ∧ e.unit.profile ≠ .circuit ∧ (s.unit t e.unit).fenceOf fid = none ∧ (s.chip.agent e.unit).fences.length < 4096 := by decide +kernel

theorem witness_AgentFences_2 :
  let t := 1000
  let e := fromPart leaf2
  let fid := 0x8005
  let job := 2
  let f := 1
  let x : FenceEntry := { fid := 0x8005, job := 2, f := 1 }
  let s := heldState.withAgent leaf2 fun a => { a with fences := [{ fid := 0x8005, job := 2, f := 1 }] }
  s.takesNew t e .control ∧ e.unit.profile ≠ .circuit ∧ (s.unit t e.unit).fenceOf fid = some x ∧ x.lifted = false ∧ x.f = f := by decide +kernel

theorem witness_AgentFences_3 :
  let t := 1000
  let e := fromPart ep5
  let s := heldState
  s.takes t e .control := by decide +kernel

theorem witness_AgentFences_4 :
  let t := 1000
  let e := fromPart ep5
  let fid := 0x8009
  let s := heldState
  s.takes t e .anyone ∧ fid ≠ s.ureg e.unit .AIDENT_FID := by decide +kernel

theorem witness_SlotLists_1 :
  let t := 1000
  let e := fromPart ep5
  let g : Segment := { windowFrame := 1, frames := 1, template := 0, segment := 0, segments := 1, totalEntries := 1, step := 3, job := 2, listCrc := listCrc [{ first := 1, frame := 0, run := 2, dst := 0x8009, flow := 4 }], entries := [{ first := 1, frame := 0, run := 2, dst := 0x8009, flow := 4 }] }
  let s := heldState
  s.takesNew t e .control ∧ e.unit.profile = .endpoint ∧ s.ureg e.unit .ACONTROL_MODE ≠ 2 ∧ (s.chip.agent e.unit).listsFrom ≤ (s.unit t e.unit).now ∧ (s.chip.agent e.unit).gathers = [] ∧ g.segments = 1 ∧ g.windowFrame ∉ (s.chip.agent e.unit).lateWindows ∧ ((s.unit t e.unit).now : Int) ≤ (s.unit t e.unit).guardTime g.windowFrame ∧ firstFail false [g] g (s.ureg e.unit .ASLOTS_WINDOW_FRAMES) ((s.unit t e.unit).templateFor g.windowFrame)
      ((s.unit t e.unit).template ((s.unit t e.unit).templateFor g.windowFrame)) = none := by decide +kernel

theorem witness_SlotLists_2 :
  let t := 1000
  let e := fromPart ep5
  let g : Segment := { windowFrame := 1, frames := 1, template := 0, segment := 0, segments := 1, totalEntries := 1, step := 3, job := 2, listCrc := listCrc [{ first := 1, frame := 0, run := 2, dst := 0x8009, flow := 4 }], entries := [{ first := 1, frame := 0, run := 2, dst := 0x8009, flow := 4 }] }
  let s := heldState
  s.takesNew t e .control ∧ e.unit.profile = .endpoint ∧ (s.chip.agent e.unit).gathers = [] ∧ g.segments = 1 ∧ firstFail true [g] g (s.ureg e.unit .ASLOTS_WINDOW_FRAMES) g.template [] = none := by decide +kernel

theorem witness_SlotLists_3 :
  let t := 131000
  let u := ep5
  let w := 1
  let s := heldState.withAgent ep5 fun a => { a with gathers := [⟨false, 1, []⟩] }
  u.profile ≠ .partition ∧ ((s.chip.agent u).gathers.any (fun g => !g.isTemplate && g.key = w) = true) ∧ (s.unit t u).guardTime w ≤ ((s.unit t u).now : Int) ∧ w ∉ (s.chip.agent u).lateWindows := by decide +kernel

theorem witness_SlotLists_4 :
  let t := 131072
  let u := ep5
  let l : DynList := ⟨1, 0, 3, 2, []⟩
  let s := heldState.withAgent ep5 fun a => { a with nxt := some ⟨1, 0, 3, 2, []⟩ }
  u.profile = .endpoint ∧ (s.unit t u).now % 131072 = 0 ∧ ((s.chip.agent u).windowStarted = false ∨ s.ureg u .ASLOTS_WINDOW_FRAME ≠ (s.unit t u).now / 131072 % 2 ^ 32) ∧ ((s.unit t u).now / 131072 % 2 ^ 32 + 2 ^ 32 - s.ureg u .ASLOTS_SEQ_BASE_FRAME) % 2 ^ 32 % max 1 (s.ureg u .ASLOTS_WINDOW_FRAMES) = 0 ∧ s.ureg u .ACONTROL_MODE ≠ 2 ∧ (s.chip.agent u).nxt = some l ∧ l.window = (s.unit t u).now / 131072 % 2 ^ 32 := by decide +kernel

theorem witness_SlotLists_5 :
  let t := 131072
  let u := ep5
  let s := heldState
  u.profile = .endpoint ∧ (s.unit t u).now % 131072 = 0 ∧ ((s.chip.agent u).windowStarted = false ∨ s.ureg u .ASLOTS_WINDOW_FRAME ≠ (s.unit t u).now / 131072 % 2 ^ 32) ∧ ((s.unit t u).now / 131072 % 2 ^ 32 + 2 ^ 32 - s.ureg u .ASLOTS_SEQ_BASE_FRAME) % 2 ^ 32 % max 1 (s.ureg u .ASLOTS_WINDOW_FRAMES) = 0 ∧ (s.chip.agent u).nxt = none := by decide +kernel

theorem witness_OutageAndFaults_1 :
  let t := 10
  let e := fromPart leaf2
  let s := heldState
  s.takes t e .control ∧ s.ureg e.unit .ACONTROL_MODE = 0 := by decide +kernel

theorem witness_OutageAndFaults_2 :
  let t := 10
  let e := fromPart leaf2
  let s := heldState.withURegs leaf2 [(.ACONTROL_MODE, 1)]
  s.takes t e .control ∧ e.src = s.ureg e.unit .AIDENT_PARTITION_FID ∧ s.ureg e.unit .ACONTROL_MODE = 1 := by decide +kernel

theorem witness_OutageAndFaults_3 :
  let t := 1000000
  let u := leaf2
  let s := heldState
  u.profile ≠ .partition ∧ s.ureg u .AIDENT_PARTITION_FID ≠ nullFid ∧ (s.chip.agent u).lastPartMsg + s.ureg u .ACONTROL_CONTROL_TIMEOUT * 1000 ≤ (s.unit t u).now ∧ s.ureg u .ACONTROL_MODE = 0 := by decide +kernel

theorem witness_OutageAndFaults_4 :
  let u := leaf2
  let s := heldState.withURegs leaf2 [(.ACONTROL_MODE, 1)]
  u.profile ≠ .partition ∧ s.ureg u .ACONTROL_MODE = 1 := by decide +kernel

theorem witness_OutageAndFaults_5 :
  let u := ep5
  let s := heldState
  u.profile ≠ .partition ∧ s.ureg u .ACONTROL_MODE ≠ 1 := by decide +kernel

theorem witness_OutageAndFaults_6 :
  let t := 3000010
  let u := leaf2
  let x := 10
  let s := (heldState.withURegs leaf2 [(.ATIME_STATE, 1)]).withAgent leaf2 fun a => { a with lastExchange := some 10 }
  u.profile ≠ .partition ∧ (s.chip.agent u).lastExchange = some x ∧ s.ureg u .ATIME_STATE = 1 ∧ x + 3000000 ≤ (s.unit t u).now := by decide +kernel

theorem witness_AgentTime_1 :
  let t := 10
  let u := leaf2
  let s := heldState.withUPort leaf2 0 [(.APORT_UP, 1)]
  u.profile ≠ .partition ∧ ((s.chip.agent u).exchangeAt.all (fun a => a + 1000000 ≤ (s.unit t u).now) = true) ∧ (u.profile = .switch → s.upreg u .APORT_UP (s.ureg u .ATIME_PARENT_PORT) = 1) ∧ ((s.unit t u).port (s.ureg u .ATIME_PARENT_PORT)).mgmtQ.length < 16 := by decide +kernel

theorem witness_AgentTime_2 :
  let t := 10
  let e : Env := { unit := leaf2, port := 5, src := 0x8005, tag := 3 }
  let s := heldState.withUPort leaf2 5 [(.APORT_PARTNER_FID, 0x8005)]
  s.takesNew t e .partner := by decide +kernel

theorem witness_AgentTime_3 :
  let t := 100
  let e : Env := { unit := leaf2, port := 32, src := 0xC0012 }
  let t2 : Nat := 60
  let t3 : Nat := 60
  let r : TimeReq := { t1 := 10, tag := 0, at_ := 10, retry := false }
  let o : Int := 5
  let s := (heldState.withURegs leaf2 [(.ATIME_STATE, 1)]).withAgent leaf2 fun a => { a with timeReq := some { t1 := 10, tag := 0, at_ := 10, retry := false } }
  s.takes t e .anyone ∧ e.status = 0 ∧ (s.chip.agent e.unit).timeReq = some r ∧ o = (((t2 : Int) - r.t1) - (((s.unit t e.unit).now : Int) - t3)) / 2 := by decide +kernel

theorem witness_AgentTime_4 :
  let t := 20010
  let u := leaf2
  let x : TimeReq := { t1 := 10, tag := 0, at_ := 10, retry := false }
  let s := heldState.withAgent leaf2 fun a => { a with timeReq := some { t1 := 10, tag := 0, at_ := 10, retry := false } }
  u.profile ≠ .partition ∧ (s.chip.agent u).timeReq = some x ∧ x.at_ + s.ureg u .ACONTROL_MSG_TIMEOUT * 1000 ≤ (s.unit t u).now := by decide +kernel

theorem witness_AgentRequests_1 :
  let t := 20010
  let u := ep5
  let tag := 4
  let r : Request := { dst := 0xFF003, msg := { type := 0x40, tag := 4 }, sentAt := 10 }
  let s := heldState.withAgent ep5 fun a => { a with requests := [{ dst := 0xFF003, msg := { type := 0x40, tag := 4 }, sentAt := 10 }] }
  u.profile ≠ .partition ∧ ((s.chip.agent u).requests.find? (fun x => x.msg.tag = tag) = some r) ∧ r.sentAt + s.ureg u .ACONTROL_MSG_TIMEOUT * 1000 ≤ (s.unit t u).now ∧ r.retries < s.ureg u .ACONTROL_MSG_RETRIES := by decide +kernel

theorem witness_AgentRequests_2 :
  let t := 20010
  let u := ep5
  let tag := 4
  let r : Request := { dst := 0xFF003, msg := { type := 0x40, tag := 4 }, sentAt := 10, retries := 3 }
  let s := heldState.withAgent ep5 fun a => { a with requests := [{ dst := 0xFF003, msg := { type := 0x40, tag := 4 }, sentAt := 10, retries := 3 }] }
  u.profile ≠ .partition ∧ ((s.chip.agent u).requests.find? (fun x => x.msg.tag = tag) = some r) ∧ r.sentAt + s.ureg u .ACONTROL_MSG_TIMEOUT * 1000 ≤ (s.unit t u).now ∧ s.ureg u .ACONTROL_MSG_RETRIES ≤ r.retries := by decide +kernel

theorem witness_AgentRequests_3 :
  let u := ep5
  u.profile ≠ .partition := by decide +kernel

theorem witness_AgentRequests_4 :
  let t := 1000000
  let u := ep5
  let s := heldState
  u.profile ≠ .partition ∧ s.ureg u .AIDENT_PARTITION_FID ≠ nullFid ∧ (s.chip.agent u).telemAt + s.ureg u .ACONTROL_TELEM_PERIOD * 1000 ≤ (s.unit t u).now := by decide +kernel

theorem witness_AgentRequests_5 :
  let u := ep5
  u.profile ≠ .partition := by decide +kernel

theorem witness_AgentRequests_6 :
  let t := 10
  let e := fromPart ep5
  let s := heldState
  s.takes t e .anyone := by decide +kernel

theorem witness_AgentRequests_7 :
  let u := ep5
  u.profile ≠ .partition := by decide +kernel

theorem witness_LinkLevelBlocks_1 :
  let u := leaf2
  u.profile ≠ .partition := by decide +kernel

theorem witness_LinkLevelBlocks_2 :
  let u := leaf2
  let k := 5
  u.profile ≠ .partition ∧ k < 513 := by decide +kernel

theorem witness_LinkLevelBlocks_3 :
  let t := 10
  let u := leaf2
  let b : DirBlock := { op := 1, count := 2, index := 0, origin := 0xFF003, tag := 4, path := [5, 0] }
  let s := heldState.withAgent leaf2 fun a => { a with ports := [(5, { link := { keyed := true } })] }
  u.profile ≠ .partition ∧ b.response = false ∧ b.index < b.count ∧ (s.unit t u).carriesBlocks (b.path.getD b.index 0) = true := by decide +kernel

theorem witness_LinkLevelBlocks_4 :
  let u := leaf2
  let x : Measuring := ⟨{ op := 2, count := 1, index := 1, origin := 0xFF003, tag := 4 }, 32, 5⟩
  let d := 15
  let s := heldState.withAgent leaf2 fun a => { a with measuring := [⟨{ op := 2, count := 1, index := 1, origin := 0xFF003, tag := 4 }, 32, 5⟩] }
  u.profile ≠ .partition ∧ x.port < 513 ∧ ((s.chip.agent u).measuring.find? (fun y => y.port = x.port) = some x) ∧ s.upreg u .APORT_DELAY_NS x.port = 0 ∧ d < 2 ^ 16 := by decide +kernel

theorem witness_LinkLevelBlocks_5 :
  let u := leaf2
  u.profile ≠ .partition := by decide +kernel

theorem witness_DiscoveryCommands_1 :
  let t := 10
  let p := 3
  let z := 3
  let d : Desc := { opcode := 0x70, tag := 7, ops := opsOf [(0x10, 4, 8)] }
  let x := firstCmd (.route 3) d
  let s := hostState.fetched (.route 3) d
  s.mayRun t (.route p) d x ∧ z < 16 ∧ d.at 0x10 4 = 2 ^ z ∧ (s.found t).ownerPort z = (s.found t).ownerPort p ∧ s.alive z := by decide +kernel

theorem witness_DiscoveryCommands_2 :
  let t := 10
  let p := 3
  let d : Desc := { opcode := 0x71, tag := 7, ops := opsOf [(0x10, 8, 0x100), (0x18, 4, 32)] }
  let x := firstCmd (.route 3) d
  let s := (hostState.fetched (.route 3) d).modChip fun c => c.writeHost 0 0x100 emptyPlan
  let pl : Plan := { held := true, id := 7 }
  s.mayRun t (.route p) d x ∧ Chip.planOf ((s.found t).hostBytes ((s.found t).ownerPort p) (d.at 0x10 8) (d.at 0x18 4)) = some pl := by decide +kernel

theorem witness_DiscoveryCommands_3 :
  let t := 10
  let p := 3
  let d : Desc := { opcode := 0x72, tag := 7, ops := opsOf [(0x10, 8, 0x100), (0x18, 4, 64), (0x1C, 1, 3)] }
  let x := firstCmd (.route 3) d
  let s := hostState.fetched (.route 3) d
  let l := ((s.found t).leaseEntries p).flatten
  s.mayRun t (.route p) d x ∧ d.at 0x1C 1 = 3 ∧ l = ((s.found t).leaseEntries p).flatten ∧ l.length ≤ d.at 0x18 4 ∧ (s.found t).ownerPort p = x.port.getD ((s.found t).queuePort (.route p)) ∧ s.apart t (.route p) (d.at 0x10 8) l.length := by decide +kernel

theorem witness_DiscoveryCommands_4 :
  let t := 10
  let p := 3
  let d : Desc := { opcode := 0x73, tag := 7, ops := opsOf [(0x14, 4, 0x1205)] }
  let x := firstCmd (.route 3) d
  let s := (hostState.fetched (.route 3) d).withPart 5 fun q => { q with topo := { q.topo with retired := [0x1204, 0x1205] } }
  s.mayRun t (.route p) d x ∧ d.at 0x10 1 = 0 ∧ s.chip.isManager = true ∧ (∀ z ∈ Chip.allParts, (s.chip.part z).topo.units.all (fun e => e.2.state ≠ 3) = true) := by decide +kernel

theorem witness_DiscoveryCommands_5 :
  let t := 10
  let p := 3
  let d : Desc := { opcode := 0x73, tag := 7, ops := opsOf [(0x14, 4, 0x1205)] }
  let x := firstCmd (.route 3) d
  let s := (hostState.fetched (.route 3) d).modChip fun c => c.setReg .DEVICE_ROLE 0 0 1
  s.mayRun t (.route p) d x ∧ s.chip.isManager = false := by decide +kernel

theorem witness_DiscoveryExchanges_1 :
  let p := 3
  let b : DirBlock := { op := 4, count := 1, index := 0, origin := 0xFF003, tag := 4, response := true }
  let x : Exchange := { path := [5], op := 4, payload := [], tag := 4 }
  let s := State.reset.withPart 3 fun q => { q with topo := { q.topo with exchanges := [{ path := [5], op := 4, payload := [], tag := 4 }] } }
  s.alive p ∧ ((s.chip.part p).topo.exchanges.find? (fun x => x.tag = b.tag) = some x) ∧ x.cmd = none := by decide +kernel

theorem witness_DiscoveryExchanges_2 :
  let t := 40000
  let p := 3
  let tag := 4
  let x : Exchange := { path := [5], op := 4, payload := [], tag := 4 }
  let s := State.reset.withPart 3 fun q => { q with topo := { q.topo with exchanges := [{ path := [5], op := 4, payload := [], tag := 4 }] } }
  s.alive p ∧ ((s.chip.part p).topo.exchanges.find? (fun x => x.tag = tag) = some x) ∧ x.sentAt + Chip.exchangeWait x ≤ max s.chip.now t ∧ x.tries < 3 := by decide +kernel

theorem witness_DiscoveryExchanges_3 :
  let t := 5000000
  let p := 3
  let r : Run := { t0 := 0, wait := 5, plan := {} }
  let s := State.reset.withPart 3 fun q => { q with topo := { q.topo with run := some { t0 := 0, wait := 5, plan := {} } } }
  p < 16 ∧ s.alive p ∧ (s.chip.part p).topo.run = some r ∧ r.t0 + r.wait * 1000000 ≤ max s.chip.now t ∧ (s.chip.part p).txn = none ∧ (s.chip.part p).restarting = false ∧ s.chip.outOfService p = false ∧ s.chip.stageOf p < 4 := by decide +kernel

theorem witness_DiscoveryExchanges_4 :
  let t := 5000000
  let p := 3
  let q := 5
  let u := leaf2
  let b : IdBlock := { serial := 77, profile := 0, port := 0 }
  let near : TopoUnit := { unit := .leaf 3 2, fid := 0xC0482, serial := 12 }
  let s := State.reset.withPart 3 fun q => { q with topo := { q.topo with tc := some 9, units := [((UnitId.leaf 3 2).code, { unit := .leaf 3 2, fid := 0xC0482, serial := 12 })] } }
  s.alive p ∧ (s.chip.part p).topo.tc.isSome = true ∧ (s.found t).topoUnit p u = some near ∧ near.state = 0 ∧ (s.chip.part p).topo.units.sorted = true ∧ b.serial < 2 ^ 64 ∧ s.reg .ROUTE_AUTO p = 1 ∧ (s.chip.part p).txn = none := by decide +kernel

theorem witness_DiscoveryExchanges_5 :
  let t := 4000010
  let n := 4
  let z := 3
  let a := 7
  let l : PlanLink := { pod := 3, spine := 2, port := 40, ocs := 4, ocsPort := 9, tag := 0 }
  let s := State.reset.modChip fun c => { c with verify := [(4, 7)], plan := { c.plan with links := [{ pod := 3, spine := 2, port := 40, ocs := 4, ocsPort := 9, tag := 0 }] } }
  (s.chip.verify.find? (fun e => e.1 = n) = some (n, a)) ∧ a + 4000000 ≤ max s.chip.now t ∧ (s.chip.plan.links.filter (fun l => l.ocs = n && l.ocsPort ≠ 0) = [l]) ∧ (s.found t).partOfPod l.pod = some z := by decide +kernel

theorem witness_DiscoveryExchanges_6 :
  let p := 3
  let s := State.reset
  s.alive p := by decide +kernel

theorem witness_RouteCommands_1 :
  let t := 10
  let p := 3
  let z := 3
  let d : Desc := { opcode := 0x60, tag := 7, ops := opsOf [(0x12, 2, 1)] }
  let x := firstCmd (.route 3) d
  let s := hostState.fetched (.route 3) d
  s.mayRun t (.route p) d x ∧ z < 16 ∧ (s.found t).zonesOf p (d.at 0x10 2) = [z] ∧ (s.chip.part z).txn = none ∧ (s.chip.part z).restarting = false ∧ s.chip.outOfService z = false ∧ s.chip.stageOf z < 4 := by decide +kernel

theorem witness_RouteCommands_2 :
  let t := 10
  let p := 3
  let z := 3
  let d : Desc := { opcode := 0x61, tag := 7 }
  let x := firstCmd (.route 3) d
  let s := (hostState.fetched (.route 3) d).withPart 3 fun q => { q with topo := { q.topo with units := [((UnitId.spine 3 2).code, { unit := .spine 3 2, fid := 0xC0492, profile := 1, serial := 12 })] } }
  s.mayRun t (.route p) d x ∧ p < 16 ∧ (s.found t).zonesOf p (d.at 0x10 2) = [z] ∧ s.alive z ∧ (s.found t).zoneAgents z ≠ [] := by decide +kernel

theorem witness_RouteCommands_3 :
  let t := 10
  let p := 3
  let z := 3
  let d : Desc := { opcode := 0x62, tag := 7, ops := opsOf [(0x10, 8, 0x100), (0x18, 4, 64), (0x1C, 1, 3)] }
  let x := firstCmd (.route 3) d
  let u : TopoUnit := { unit := .spine 3 2, fid := 0xC0492, profile := 1, serial := 12 }
  let s := (hostState.fetched (.route 3) d).withPart 3 fun q => { q with topo := { q.topo with units := [((UnitId.spine 3 2).code, { unit := .spine 3 2, fid := 0xC0492, profile := 1, serial := 12 })] } }
  s.mayRun t (.route p) d x ∧ d.at 0x1C 1 = z ∧ z < 16 ∧ (s.found t).zonesOf p (2 ^ z) = [z] ∧ s.alive z ∧ (s.chip.part z).queryCmd = none ∧ (s.found t).zoneAgents z = [u] := by decide +kernel

theorem witness_RouteCommands_4 :
  let t := 10
  let p := 3
  let d : Desc := { opcode := 0x63, tag := 7, ops := opsOf [(0x10, 4, 2 + 3 * 16 + 2 * 8192), (0x14, 2, 40)] }
  let x := firstCmd (.route 3) d
  let u : TopoUnit := { unit := .spine 3 2, fid := 0xC0492, profile := 1, serial := 12 }
  let s := (hostState.fetched (.route 3) d).withPart 3 fun q => { q with topo := { q.topo with units := [((UnitId.spine 3 2).code, { unit := .spine 3 2, fid := 0xC0492, profile := 1, serial := 12 })] } }
  s.mayRun t (.route p) d x ∧ (s.found t).unitOfPos p (d.at 0x10 4) = some u ∧ s.reg .ROUTE_AUTO p = 1 ∧ (s.chip.part p).txn = none := by decide +kernel

theorem witness_RouteCommands_5 :
  let t := 10
  let p := 3
  let z := 3
  let d : Desc := { opcode := 0x64, tag := 7 }
  let x := firstCmd (.route 3) d
  let u : TopoUnit := { unit := .spine 3 2, fid := 0xC0492, profile := 1, serial := 12 }
  let s := (hostState.fetched (.route 3) d).withPart 3 fun q => { q with topo := { q.topo with units := [((UnitId.spine 3 2).code, { unit := .spine 3 2, fid := 0xC0492, profile := 1, serial := 12 })] } }
  s.mayRun t (.route p) d x ∧ (s.found t).zonesOf p (d.at 0x10 2) = [z] ∧ s.alive z ∧ (s.found t).zoneAgents z = [u] := by decide +kernel

theorem witness_RouteCommands_6 :
  let t := 10
  let p := 3
  let d : Desc := { opcode := 0x65, tag := 7, ops := opsOf [(0x10, 8, 0x100), (0x18, 4, 64), (0x1C, 4, 0xC0492)] }
  let b := 0
  let x := firstCmd (.route 3) d
  let u : TopoUnit := { unit := .spine 3 2, fid := 0xC0492, profile := 1, serial := 12 }
  let s := (hostState.fetched (.route 3) d).withPart 3 fun q => { q with topo := { q.topo with units := [((UnitId.spine 3 2).code, { unit := .spine 3 2, fid := 0xC0492, profile := 1, serial := 12 })] } }
  s.mayRun t (.route p) d x ∧ (s.found t).unitOf p (d.at 0x1C 4 % 2 ^ 20) = some u ∧ d.at 0x20 1 ≤ 2 ∧ d.at 0x21 1 = 0 ∧ 0 < d.at 0x18 4 ∧ (b = if d.at 0x20 1 = 2 then 2 else if d.at 0x20 1 = 0 then s.ureg u.unit .ABANKS_ACTIVE_BANK else 1 - s.ureg u.unit .ABANKS_ACTIVE_BANK) := by decide +kernel

theorem witness_TransactionAnswers_1 :
  let p := 3
  let src := spine2.fid
  let tag := 5
  let e := 7
  let full := true
  let u := spine2
  let v := spine2
  let x := openTxn3 2 [.prepare e full]
  let r : Request := { dst := spine2.fid, msg := { type := 0x20, tag := 5 }, sentAt := 2, ref := refKey refTxn 0 }
  let s := txnState x 0x20 (refKey refTxn 0)
  s.alive p ∧ s.chip.asked p src tag 0x20 = some r ∧ r.ref = refKey refTxn 0 ∧ s.chip.unitOf p src = some u ∧ s.chip.unitAt p u.unit.code = some v ∧ (s.chip.part p).txn = some x ∧ SMap.get [] x.scripts u.unit.code = [.prepare e full] ∧ SMap.erase x.scripts u.unit.code ≠ [] := by decide +kernel

theorem witness_TransactionAnswers_2 :
  let p := 3
  let src := spine2.fid
  let tag := 5
  let e := 7
  let k := 3
  let u := spine2
  let v := spine2
  let x := openTxn3 3 [.drain e k]
  let r : Request := { dst := spine2.fid, msg := { type := 0x24, tag := 5 }, sentAt := 2, ref := refKey refTxn 0 }
  let s := txnState x 0x24 (refKey refTxn 0)
  s.alive p ∧ s.chip.asked p src tag 0x24 = some r ∧ r.ref = refKey refTxn 0 ∧ s.chip.unitOf p src = some u ∧ s.chip.unitAt p u.unit.code = some v ∧ (s.chip.part p).txn = some x ∧ SMap.get [] x.scripts u.unit.code = [.drain e k] ∧ SMap.erase x.scripts u.unit.code ≠ [] := by decide +kernel

theorem witness_TransactionAnswers_3 :
  let p := 3
  let src := spine2.fid
  let tag := 5
  let e := 7
  let u := spine2
  let v := spine2
  let x := openTxn3 4 [.commit e]
  let r : Request := { dst := spine2.fid, msg := { type := 0x26, tag := 5 }, sentAt := 2, ref := refKey refTxn 0 }
  let s := (txnState x 0x26 (refKey refTxn 0)).withPart 3 fun q => { q with shadowOf := [((UnitId.spine 3 2).code, 7)], shadowMirrors := [((UnitId.spine 3 2).code, [(5, 1)])] }
  s.alive p ∧ s.chip.asked p src tag 0x26 = some r ∧ r.ref = refKey refTxn 0 ∧ s.chip.unitOf p src = some u ∧ s.chip.unitAt p u.unit.code = some v ∧ (s.chip.part p).txn = some x ∧ SMap.get [] x.scripts u.unit.code = [.commit e] ∧ SMap.erase x.scripts u.unit.code ≠ [] ∧ (s.chip.part p).resync = false ∧ (s.chip.part p).cutDue = false ∧ s.chip.heldAdmits = [] ∧ SMap.find? (s.chip.part p).shadowOf u.unit.code = some e := by decide +kernel

theorem witness_TransactionAnswers_4 :
  let p := 3
  let src := spine2.fid
  let tag := 5
  let e := 7
  let u := spine2
  let v := spine2
  let x := openTxn3 5 [.resume e]
  let r : Request := { dst := spine2.fid, msg := { type := 0x28, tag := 5 }, sentAt := 2, ref := refKey refTxn 0 }
  let s := txnState x 0x28 (refKey refTxn 0)
  s.alive p ∧ s.chip.asked p src tag 0x28 = some r ∧ r.ref = refKey refTxn 0 ∧ s.chip.unitOf p src = some u ∧ s.chip.unitAt p u.unit.code = some v ∧ (s.chip.part p).txn = some x ∧ SMap.get [] x.scripts u.unit.code = [.resume e] ∧ SMap.erase x.scripts u.unit.code ≠ [] ∧ (s.chip.part p).resync = false ∧ (s.chip.part p).cutDue = false ∧ s.chip.heldAdmits = [] := by decide +kernel

theorem witness_TransactionAnswers_5 :
  let p := 3
  let src := spine2.fid
  let tag := 5
  let e := 7
  let u := spine2
  let v := spine2
  let x := openTxn3 2 [.abandon e]
  let r : Request := { dst := spine2.fid, msg := { type := 0x2A, tag := 5 }, sentAt := 2, ref := refKey refTxn 0 }
  let s := txnState x 0x2A (refKey refTxn 0)
  s.alive p ∧ s.chip.asked p src tag 0x2A = some r ∧ r.ref = refKey refTxn 0 ∧ s.chip.unitOf p src = some u ∧ s.chip.unitAt p u.unit.code = some v ∧ (s.chip.part p).txn = some x ∧ SMap.get [] x.scripts u.unit.code = [.abandon e] ∧ SMap.erase x.scripts u.unit.code ≠ [] ∧ (s.chip.part p).resync = false ∧ (s.chip.part p).cutDue = false ∧ s.chip.heldAdmits = [] := by decide +kernel

theorem witness_TransactionAnswers_6 :
  let p := 3
  let src := spine2.fid
  let tag := 5
  let u := spine2
  let v := spine2
  let x := openTxn3 2 [.ctlCommit]
  let r : Request := { dst := spine2.fid, msg := { type := 0x04, tag := 5 }, sentAt := 2, ref := refKey refTxn 0 }
  let s := txnState x 0x04 (refKey refTxn 0)
  s.alive p ∧ s.chip.asked p src tag 0x04 = some r ∧ r.ref = refKey refTxn 0 ∧ s.chip.unitOf p src = some u ∧ s.chip.unitAt p u.unit.code = some v ∧ (s.chip.part p).txn = some x ∧ SMap.get [] x.scripts u.unit.code = [.ctlCommit] ∧ SMap.erase x.scripts u.unit.code ≠ [] ∧ (s.chip.part p).resync = false ∧ (s.chip.part p).cutDue = false ∧ s.chip.heldAdmits = [] := by decide +kernel

theorem witness_TransactionEvents_1 :
  let t := 50
  let p := 3
  let x := openTxn3 1 []
  let s := txnState x 0x20 0
  s.alive p ∧ (s.chip.part p).txn = some x ∧ x.stage = 1 ∧ x.held = false ∧ x.domain = false ∧ ((((s.found t).zoneAgents p).filter fun u => u.unit.code ∉ x.lost) ≠ []) := by decide +kernel

theorem witness_TransactionEvents_2 :
  let p := 3
  let src := spine2.fid
  let tag := 5
  let u := spine2
  let r : Request := { dst := spine2.fid, msg := { type := 0x2C, tag := 5 }, sentAt := 2, ref := refKey refReport 0 }
  let s := txnState (openTxn3 2 []) 0x2C (refKey refReport 0)
  s.alive p ∧ s.chip.asked p src tag 0x2C = some r ∧ r.ref = refKey refReport 0 ∧ s.chip.unitOf p src = some u ∧ (s.chip.part p).resolve = [] ∧ (s.chip.part p).queryCmd = none ∧ (s.chip.part p).resync = false ∧ (s.chip.part p).cutDue = false ∧ s.chip.heldAdmits = [] := by decide +kernel

theorem witness_TransactionEvents_3 :
  let p := 3
  let src := spine2.fid
  let rep := [6, 7, 2, 1]
  let u := spine2
  let x : Txn := { openTxn3 4 [] with scripts := [], commitSent := true }
  let s := txnState x 0x26 0
  s.alive p ∧ (s.chip.part p).txn = some x ∧ s.chip.unitOf p src = some u ∧ x.commitSent = true ∧ x.abandoning = none ∧ rep.getD 1 0 = x.epoch ∧ SMap.find? x.scripts u.unit.code = none ∧ SMap.get 0 x.recov u.unit.code < 3 := by decide +kernel

theorem witness_TransactionEvents_4 :
  let p := 0
  let d : Domain := { req := { zones := [0, 3] }, stage := 2, wait := [] }
  let s := (txnState { openTxn3 2 [] with domain := true, scripts := [] } 0x20 0).withPart 0 fun q => { q with domain := some { req := { zones := [0, 3] }, stage := 2, wait := [] }, txn := some { openTxn3 2 [] with domain := true, scripts := [], agents := [7] } }
  s.alive p ∧ s.chip.leadPart = p ∧ (s.chip.part p).domain = some d ∧ d.stage = 2 ∧ d.wait = [] ∧ (∀ z ∈ d.req.zones, (s.chip.part z).portDown = false) ∧ (∀ z ∈ d.req.zones, ((s.chip.part z).txn.any fun x => x.domain && !x.agents.isEmpty) = true) := by decide +kernel

theorem witness_TransactionEvents_5 :
  let t := 50000000
  let p := 3
  let x := { openTxn3 3 [] with drainAt := some 5 }
  let s := txnState x 0x24 0
  s.alive p ∧ (s.chip.part p).txn = some x ∧ x.stage = 3 ∧ x.commitSent = false ∧ x.abandoning = none ∧ x.domain = false ∧ x.agents ≠ [] ∧ Chip.commitDeadline x ≤ max s.chip.now t := by decide +kernel

theorem witness_TransactionEvents_6 :
  let t := 50
  let p := 3
  let code := 9
  let due := 40
  let x := { openTxn3 4 [] with polls := [(9, 40)] }
  let s := txnState x 0x26 0
  s.alive p ∧ (s.chip.part p).txn = some x ∧ x.polls = [(code, due)] ∧ due ≤ max s.chip.now t ∧ SMap.find? x.scripts code = none := by decide +kernel

theorem witness_TransactionEvents_7 :
  let t := 50
  let p := 3
  let d := 40
  let s := State.reset.withPart 3 fun q => { q with autoAt := some 40 }
  p < 16 ∧ s.alive p ∧ (s.chip.part p).autoAt = some d ∧ d ≤ max s.chip.now t ∧ s.reg .ROUTE_AUTO p = 1 ∧ (s.chip.part p).txn = none ∧ (s.chip.part p).restarting = false ∧ s.chip.outOfService p = false ∧ s.chip.stageOf p < 4 := by decide +kernel

theorem witness_PartitionAnswers_1 :
  let p := 3
  let src := spine2.fid
  let tag := 5
  let words := [0x12345678, 9]
  let b : BankRead := { q := .route 3, tag := 4, fid := spine2.fid, addr := 0x800000, host := 0x100, left := 64 }
  let r : Request := { dst := spine2.fid, msg := { type := 2, tag := 5 }, sentAt := 2, ref := refKey refBank 0 }
  let s := (txnState (openTxn3 1 []) 2 (refKey refBank 0)).withPart 3 fun q => { q with bankCmd := some { q := .route 3, tag := 4, fid := spine2.fid, addr := 0x800000, host := 0x100, left := 64 } }
  s.alive p ∧ s.chip.asked p src tag 0x02 = some r ∧ r.ref = refKey refBank 0 ∧ (s.chip.part p).bankCmd = some b ∧ words ≠ [] ∧ 4 * words.length < b.left ∧ b.host + 4 * words.length < 2 ^ 64 := by decide +kernel

theorem witness_PartitionAnswers_2 :
  let p := 3
  let src := spine2.fid
  let tag := 5
  let job := 6
  let l : LoadRun := { q := .context 0, tag := 1, ctx := 2, addr := 0, port := 0, startAt := 0, begin_ := false, fromFrame := 0, partial_ := false, imageId := 5, imageVer := 1, keyGen := 0, digest := 0, sections := [], waits := some [6] }
  let r : Request := { dst := spine2.fid, msg := { type := 0x44, tag := 5 }, sentAt := 2, ref := refKey refTmpl 6 }
  let s := (txnState (openTxn3 1 []) 0x44 (refKey refTmpl 6)).withPart 3 fun q => { q with loads := [{ q := .context 0, tag := 1, ctx := 2, addr := 0, port := 0, startAt := 0, begin_ := false, fromFrame := 0, partial_ := false, imageId := 5, imageVer := 1, keyGen := 0, digest := 0, sections := [], waits := some [6] }] }
  s.alive p ∧ s.chip.asked p src tag 0x44 = some r ∧ r.ref = refKey refTmpl job ∧ job < 2 ^ 48 ∧ (s.chip.part p).requests = [r] ∧ (s.chip.part p).loads = [l] ∧ l.waits = some [job] ∧ l.degraded = false := by decide +kernel

theorem witness_PartitionAnswers_3 :
  let p := 3
  let src := spine2.fid
  let tag := 5
  let l : Lift := { job := 6, slice := 1, fid := 0x8005, f := 2, stage := 3 }
  let u : TopoUnit := { unit := .endpoint 3 5, fid := 0x8005 }
  let r : Request := { dst := spine2.fid, msg := { type := 0x32, tag := 5 }, sentAt := 2, ref := refKey refLift 0x8005 }
  let s := (txnState (openTxn3 1 []) 0x32 (refKey refLift 0x8005)).withPart 3 fun q => { q with lifts := [{ job := 6, slice := 1, fid := 0x8005, f := 2, stage := 3 }], gone := [0x8005], fences := [{ job := 6, fid := 0x8005, f := 2 }], topo := { q.topo with units := [((UnitId.endpoint 3 5).code, { unit := .endpoint 3 5, fid := 0x8005 })] } }
  s.alive p ∧ s.chip.asked p src tag 0x32 = some r ∧ r.ref = refKey refLift l.fid ∧ l.fid < 2 ^ 48 ∧ (s.chip.part p).requests = [r] ∧ (s.chip.part p).lifts = [l] ∧ l.stage = 3 ∧ l.cmd = none ∧ s.chip.unitOf p l.fid = some u := by decide +kernel

theorem witness_PartitionAnswers_4 :
  let t := 10
  let p := 3
  let u := spine2
  let s := txnState (openTxn3 1 []) 0x20 0
  s.alive p ∧ ((s.chip.part p).lastBeat = 0 ∨ (s.chip.part p).lastBeat + 250000 ≤ max s.chip.now t) ∧ s.chip.stageOf p < 5 ∧ (s.chip.part p).portDown = false ∧ u ∈ s.chip.zoneAgents p ∧ u.fid < 0xFF000 ∧ ((s.chip.part p).link.tx.all (fun e => decide (e.2 + (s.chip.zoneAgents p).length < 2 ^ 40)) = true) := by decide +kernel

theorem witness_SliceAdmission_1 :
  let t := 10
  let p := 0
  let d : Desc := { opcode := 0x50, tag := 7, ops := opsOf [(0x10, 8, 0x400), (0x18, 4, 68), (0x20, 8, 0x800), (0x28, 4, 64)] }
  let x := firstCmd (.route 0) d
  let s := (readyState.fetched (.route 0) d).modChip fun c => c.writeHost 0 0x400 sliceRequest
  let b := (s.found t).hostBytes ((s.found t).queuePort (.route p)) (d.at 0x10 8) (d.at 0x18 4)
  let y := (s.found t).sliceAsked p b
  s.mayRun t (.route p) d x ∧ (s.found t).leadPart = p ∧ (s.found t).hostBytes ((s.found t).queuePort (.route p)) (d.at 0x10 8) (d.at 0x18 4) = b ∧ (s.chip.part p).forwards.contains ((.route p : QId), d.tag) = false ∧ s.chip.isManager = true ∧ (sliceReqOf b).kinds.any (· = 3) = false ∧ (s.found t).sliceAsked p b = y ∧ (s.found t).badRequest (sliceReqOf b) (d.at 0x18 4) (d.at 0x28 4) y = false ∧ (((y.pods s.chip.grid).any fun pod => pod / 16 ≠ (s.found t).clusterIndex) = false) ∧ ((((s.found t).sliceZones y).any fun z => (s.chip.part z).txn.isSome || (s.chip.part z).topo.run.isSome || (s.chip.part z).restarting) = false) ∧ (s.found t).admitFails y (some ((s.found t).queuePort (.route p))) = [] := by decide +kernel

theorem witness_SliceAdmission_2 :
  let t := 10
  let p := 0
  let d : Desc := { opcode := 0x50, tag := 7, ops := opsOf [(0x10, 8, 0x400), (0x18, 4, 68), (0x20, 8, 0x800), (0x28, 4, 64)] }
  let x := firstCmd (.route 0) d
  let s := (readyState.fetched (.route 0) d).modChip fun c => (c.setReg .DEVICE_ROLE 0 0 1).setReg .DEVICE_CLUSTER_INDEX 0 0 1 |>.writeHost 0 0x400 sliceRequest
  let b := (s.found t).hostBytes ((s.found t).queuePort (.route p)) (d.at 0x10 8) (d.at 0x18 4)
  let y := (s.found t).sliceAsked p b
  s.mayRun t (.route p) d x ∧ (s.found t).leadPart = p ∧ (s.found t).hostBytes ((s.found t).queuePort (.route p)) (d.at 0x10 8) (d.at 0x18 4) = b ∧ (s.chip.part p).forwards.contains ((.route p : QId), d.tag) = false ∧ s.chip.isManager = false ∧ (sliceReqOf b).kinds.any (· = 3) = false ∧ (s.found t).sliceAsked p b = y ∧ (s.found t).badRequest (sliceReqOf b) (d.at 0x18 4) (d.at 0x28 4) y = false ∧ (((y.pods s.chip.grid).any fun pod => pod / 16 ≠ (s.found t).clusterIndex) = true) ∧ (s.found t).unowned y ((s.found t).queuePort (.route p)) = false ∧ (s.chip.part p).portDown = false ∧ s.reg .BOOT_BLOB_DEFAULTED 0 ≠ 1 := by decide +kernel

theorem witness_SliceAdmission_3 :
  let t := 10
  let n := 7
  let y : Slice := { slice7 with stage := 3, txnWanted := true, txnStatus := some 0 }
  let s := sliceState fun y => { y with stage := 3, txnWanted := true, txnStatus := some 0 }
  (s.found t).sliceOf n = some y ∧ (s.found t).sliceOut y = none ∧ y.failure = none ∧ y.master = none ∧ y.waits = [] ∧ y.state = 0 ∧ y.undo = false ∧ y.stage = 3 ∧ y.txnWanted = true ∧ y.txnStatus = some 0x00 := by decide +kernel

theorem witness_SliceAdmission_4 :
  let t := 1000000010
  let n := 7
  let y : Slice := { slice7 with stage := 2 }
  let s := sliceState fun y => { y with stage := 2 }
  (s.found t).sliceOf n = some y ∧ y.stage = 2 ∧ y.undo = false ∧ y.txnWanted = false ∧ y.master = none ∧ y.reservedAt + 1000000000 ≤ max s.chip.now t := by decide +kernel

theorem witness_SliceAdmission_5 :
  let t := 300000000
  let n := 7
  let i := 0
  let k : Circuit := { plane := 1, axis := 0, podA := 3, portA := 40, podB := 4, portB := 41, ocs := 2, ocsA := 5, ocsB := 6 }
  let y : Slice := { slice7 with stage := 4, circuits := [{ plane := 1, axis := 0, podA := 3, portA := 40, podB := 4, portB := 41, ocs := 2, ocsA := 5, ocsB := 6 }] }
  let s := sliceState fun y => { y with stage := 4, circuits := [{ plane := 1, axis := 0, podA := 3, portA := 40, podB := 4, portB := 41, ocs := 2, ocsA := 5, ocsB := 6 }] }
  (s.found t).sliceOf n = some y ∧ y.circuits[i]? = some k ∧ y.stage = 4 ∧ y.undo = false ∧ y.master = none ∧ y.startAt + 252000000 ≤ max s.chip.now t := by decide +kernel

theorem witness_SliceAdmission_6 :
  let t := 10
  let p := 3
  let n := 7
  let y := slice7
  let s := sliceState id
  s.alive p ∧ (s.found t).sliceOf n = some y ∧ y.state ≠ 2 ∧ p ≠ y.coordinator ∧ y.coordinator < 16 ∧ y.master = none ∧ (s.chip.part p).portDown = false := by decide +kernel

theorem witness_SliceLife_1 :
  let t := 10
  let p := 0
  let d : Desc := { opcode := 0x51, tag := 7, ops := opsOf [(0x10, 2, 7)] }
  let x := firstCmd (.route 0) d
  let y : Slice := { slice7 with state := 2 }
  let s := (sliceState fun y => { y with state := 2 }).fetched (.route 0) d
  s.mayRun t (.route p) d x ∧ (s.found t).sliceOf (d.at 0x10 2) = some y ∧ y.state = 2 ∧ y.master = none ∧ (s.chip.part y.coordinator).forwards.contains ((.route p : QId), d.tag) = false := by decide +kernel

theorem witness_SliceLife_2 :
  let t := 10
  let n := 7
  let y : Slice := { slice7 with state := 3, stage := 11 }
  let s := sliceState fun y => { y with state := 3, stage := 11 }
  (s.found t).sliceOf n = some y ∧ y.state = 3 ∧ y.stage = 11 ∧ y.txnWanted = false ∧ y.force = false ∧ y.master = none ∧ y.waits = [] ∧ (s.found t).lastListEnd y ≤ max s.chip.now t := by decide +kernel

theorem witness_SliceLife_3 :
  let t := 10
  let n := 7
  let y : Slice := { slice7 with state := 3, stage := 12 }
  let s := sliceState fun y => { y with state := 3, stage := 12 }
  (s.found t).sliceOf n = some y ∧ y.state = 3 ∧ y.stage = 12 ∧ y.master = none ∧ y.waits = [] ∧ y.stageAt + (s.found t).quietFrames y * 131072 ≤ max s.chip.now t := by decide +kernel

theorem witness_SliceLife_4 :
  let t := 10
  let p := 0
  let d : Desc := { opcode := 0x52, tag := 7, ops := opsOf [(0x10, 2, 7), (0x18, 8, 0x100), (0x20, 4, 64)] }
  let x := firstCmd (.route 0) d
  let y : Slice := { slice7 with state := 2, request := [1, 2], result := [3] }
  let s := (sliceState fun y => { y with state := 2, request := [1, 2], result := [3] }).fetched (.route 0) d
  s.mayRun t (.route p) d x ∧ (s.found t).sliceOf (d.at 0x10 2) = some y ∧ y.result ≠ [] ∧ (y.request ++ y.result).all (· < 256) = true ∧ y.request.length + y.result.length + 4 ≤ d.at 0x20 4 ∧ x.port.getD ((s.found t).queuePort (.route p)) = (s.found t).queuePort (.route p) ∧ s.apart t (.route p) (d.at 0x18 8) (y.request.length + y.result.length + 4) := by decide +kernel

theorem witness_SliceLife_5 :
  let t := 10
  let p := 0
  let d : Desc := { opcode := 0x53, tag := 7, ops := opsOf [(0x10, 2, 7), (0x12, 2, 3)] }
  let x := firstCmd (.route 0) d
  let y : Slice := { slice7 with state := 2 }
  let s := ((sliceState fun y => { y with state := 2 }).fetched (.route 0) d)
  s.mayRun t (.route p) d x ∧ (s.found t).sliceOf (d.at 0x10 2) = some y ∧ (y.pods s.chip.grid).contains (d.at 0x12 2) = true ∧ (s.found t).podInService (d.at 0x12 2) = true := by decide +kernel

theorem witness_WindowPlacement_1 :
  let t := 13000000
  let p := 3
  let src := 0x8005
  let tag := 6
  let b : DemandBody := { job := 9, n := 1, step := 2, window := 100, ctx := 1, bodyLen := 36, entries := [(0x8009, 3)] }
  let j := job9
  let s := jobState id
  s.alive p ∧ s.freshAt t p src tag ∧ (s.found t).demandCheck p src tag b = 0 ∧ (s.found t).jobOf p b.job = some j ∧ ((s.found t).winOf p b.job ((s.found t).fullFrame b.window) false).gathered = false ∧ ((max s.chip.now t : Nat) : Int) ≤ (s.found t).gatherOf p j ((s.found t).fullFrame b.window) ∧ ((s.found t).winOf p b.job ((s.found t).fullFrame b.window) false).closed = false ∧ ((max s.chip.now t : Nat) : Int) ≤ (s.found t).sdOf p ((s.found t).fullFrame b.window) ∧ (s.chip.part p).fences = [] := by decide +kernel

theorem witness_WindowPlacement_2 :
  let t := 13000000
  let p := 3
  let l := 7
  let w := 2
  let s := State.reset.withPart 3 fun q => { q with occ := [(Chip.occKey 138 7 2, 5)] }
  s.alive p ∧ l < 2304 ∧ w < 16 ∧ (s.chip.part p).jobs = [] ∧ (s.chip.part p).ringEnd ≤ max s.chip.now t / 131072 + 39 := by decide +kernel

theorem witness_WindowPlacement_3 :
  let t := 13000000
  let p := 3
  let f := 120
  let l := 7
  let w := 2
  let s := State.reset.withPart 3 fun q => { q with ringEnd := 139, occ := [(Chip.occKey 120 7 2, 5)] }
  s.alive p ∧ l < 2304 ∧ w < 16 ∧ (s.chip.part p).ringEnd = max s.chip.now t / 131072 + 40 ∧ max s.chip.now t / 131072 ≤ f := by decide +kernel

theorem witness_WindowPlacement_4 :
  let t := 13100000
  let p := 3
  let job := 9
  let w := 100
  let j := job9
  let s := jobState id
  s.alive p ∧ (s.found t).jobOf p job = some j ∧ ((s.found t).modeOf p j w).2.1 = false ∧ j.onGrid w = true ∧ (s.found t).pcOf p w ≤ ((max s.chip.now t : Nat) : Int) ∧ j.stopped = false ∧ j.holesOf w ≠ [] ∧ (j.win w false).gathered = false := by decide +kernel

theorem witness_WindowPlacement_5 :
  let t := 13100000
  let p := 3
  let job := 9
  let w := 100
  let j : Job := { job9 with settings := [{ start := 0, cmd := true, mode := some (false, true, 0) }] }
  let s := jobState fun j => { j with settings := [{ start := 0, cmd := true, mode := some (false, true, 0) }] }
  s.alive p ∧ (s.found t).jobOf p job = some j ∧ ((s.found t).modeOf p j w).2.1 = true ∧ j.onGrid w = true ∧ (s.found t).gatherOf p j w ≤ ((max s.chip.now t : Nat) : Int) ∧ j.stopped = false ∧ j.holesOf w ≠ [] ∧ (j.win w false).gathered = false := by decide +kernel

theorem witness_WindowPlacement_6 :
  let t := 13000000
  let p := 3
  let e := 6
  let n := 4
  let x := 1
  let job := 9
  let w := 100
  let f := 0
  let k := 0
  let i := item1
  let j : Job := { job9 with wins := [win100 id] }
  let s := (jobState fun j => { j with wins := [win100 id] }).withPart 3 fun q => { q with engines := { deques := [(6, [{ job := 9, frame := 100, lead := false, items := [4] }])], ctx := some 1 } }
  let path := ((s.found t).itemPath p w ((s.found t).sliceOf j.slice) i).getD []
  s.alive p ∧ e ∈ (s.found t).working p ∧ (s.chip.part p).engines.ctx = some x ∧ x ∈ (s.found t).ctxWork p ∧ (((s.found t).deque p e).find? (fun y => (s.found t).unitCtx p y = some x && (s.found t).unitReady p y && !(s.found t).txnWait p y.job y.frame y.lead) = some { job := job, frame := w, lead := false, items := [n] }) ∧ (s.found t).jobOf p job = some j ∧ ((j.win w false).items.find? (fun y => y.id = n) = some i) ∧ i.id = n ∧ i.ended = false ∧ i.runs = [] ∧ (s.found t).unlocked = false ∧ (s.found t).itemPath p w ((s.found t).sliceOf j.slice) i = some path ∧ 0 < i.want ∧ Chip.listLen (j.win w false) i.src < 16384 ∧ proposeRun ((s.found t).hopsClear p j (j.win w false) path) (Chip.holesFor j (j.win w false) i.cross) i.at_ i.want = some (f, k, i.want) ∧ (∀ b ∈ (s.chip.part p).badWords, SMap.get Chip.occNew (s.chip.part p).occ b = 2 ^ 64 - 1) := by decide +kernel

theorem witness_WindowPlacement_7 :
  let t := 10
  let p := 3
  let e := 6
  let s := State.reset.withPart 3 fun q => { q with engines := { q.engines with overflow := [{ job := 9, frame := 100, lead := false, items := [4] }] } }
  s.alive p ∧ e ∈ (s.found t).working p ∧ (s.found t).deque p e = [] ∧ (s.chip.part p).engines.overflow ≠ [] := by decide +kernel

theorem witness_WindowPlacement_8 :
  let t := 13000000
  let p := 3
  let x := 2
  let y := 1
  let s := (jobState id).withPart 3 fun q => { q with engines := { deques := [(6, [{ job := 9, frame := 100, lead := false, items := [4] }])], ctx := some 2 } }
  s.alive p ∧ (s.chip.part p).engines.ctx = some x ∧ (s.chip.part p).engines.since + s.reg .SCHED_QUANTUM p * 131072 ≤ max s.chip.now t ∧ y ∈ (s.found t).ctxWork p ∧ y ≠ x := by decide +kernel

theorem witness_WindowLists_1 :
  let t := 13000000
  let p := 3
  let job := 9
  let w := 100
  let src := 0x8005
  let j : Job := { job9 with wins := [{ win100 (fun i => { i with ended := true, owed := 0 }) with gathered := true }] }
  let s := jobState fun j => { j with wins := [{ win100 (fun i => { i with ended := true, owed := 0 }) with gathered := true }] }
  let a := (s.found t).sealTile p (((s.found t).placeOf p src).getD (0, 0)).2 j.ctx w j.frames
  s.alive p ∧ (s.found t).jobOf p job = some j ∧ j.onGrid w = true ∧ (((s.found t).zoneEps p j).any (fun e => e.1 = src) = true) ∧ (s.found t).mayList p j (j.win w false) src = true ∧ (j.wins.any (fun x => x.frame = w && !x.lead) = true) ∧ ((max s.chip.now t : Nat) : Int) ≤ (s.found t).sdOf p w ∧ (s.found t).listTurn p j (j.win w false) src (((s.found t).placeOf p src).getD (0, 0)).2 = true ∧ (s.found t).sealTile p (((s.found t).placeOf p src).getD (0, 0)).2 j.ctx w j.frames = a ∧ Chip.tileSound a j.ctx j.frames = true ∧ Chip.runsSealed a (j.win w false) src = true ∧ (((j.win w false).items.filter fun i => i.src = src).all (fun i => i.left = 0) = true) := by decide +kernel

theorem witness_WindowLists_2 :
  let t := 13200000
  let p := 3
  let job := 9
  let w := 100
  let j : Job := { job9 with wins := [win100 (fun i => { i with ended := true })] }
  let s := jobState fun j => { j with wins := [win100 (fun i => { i with ended := true })] }
  s.alive p ∧ (s.found t).jobOf p job = some j ∧ j.onGrid w = true ∧ (s.found t).sdOf p w ≤ ((max s.chip.now t : Nat) : Int) ∧ j.stopped = false ∧ 0 < j.frames ∧ (j.win w false).closed = false := by decide +kernel

theorem witness_WindowLists_3 :
  let t := 13200000
  let p := 3
  let job := 9
  let w := 100
  let j : Job := { job9 with wins := [win100 (fun i => { i with cross := true })] }
  let s := jobState fun j => { j with wins := [win100 (fun i => { i with cross := true })] }
  s.alive p ∧ (s.found t).jobOf p job = some j ∧ j.onGrid w = true ∧ (s.found t).xcOf p w ≤ ((max s.chip.now t : Nat) : Int) ∧ (j.wins.any (fun x => x.frame = w && !x.lead) = true) := by decide +kernel

theorem witness_WindowLists_4 :
  let t := 13000000
  let p := 3
  let src := 0x8005
  let tag := 5
  let job := 9
  let w := 100
  let r : Request := { dst := 0x8005, msg := { type := 0x42, tag := 5, body := [100, 0, 0, 0, 0, 0, 0, 0, 9] }, sentAt := 5 }
  let j : Job := { job9 with wins := [{ win100 (fun i => { i with ended := true }) with sent := [(0x8005, 7)] }] }
  let s := (jobState fun j => { j with wins := [{ win100 (fun i => { i with ended := true }) with sent := [(0x8005, 7)] }] }).withPart 3 fun q => { q with requests := [{ dst := 0x8005, msg := { type := 0x42, tag := 5, body := [100, 0, 0, 0, 0, 0, 0, 0, 9] }, sentAt := 5 }] }
  s.alive p ∧ s.chip.asked p src tag 0x42 = some r ∧ r.msg.body.getD 8 0 = job ∧ (s.found t).fullFrame (r.msg.body.getD 0 0) = w ∧ (s.found t).jobOf p job = some j ∧ ((j.win w false).sent.any (fun e => e.1 = src) = true) ∧ src ∉ (j.win w false).resent ∧ ((j.win w false).rejects.find? (fun e => e.1 = src) = none) ∧ ((max s.chip.now t : Nat) : Int) ≤ (s.found t).sdOf p w := by decide +kernel

theorem witness_WindowLists_5 :
  let t := 13000000
  let p := 3
  let src := 0xFF004
  let tag := 5
  let b : CrossBody := { job := 9, slice := 7, window := 100, pod := 4, final := true, words := [] }
  let z : Slice := { slice7 with state := 2, endpoints := [0x8005, 0x8009] }
  let j := job9
  let s := jobState id
  s.alive p ∧ s.freshAt t p src tag ∧ (s.found t).sliceOf b.slice = some z ∧ (s.found t).leads p z = true ∧ (s.found t).jobOf p b.job = some j ∧ b.final = true ∧ b.spec = false ∧ b.carry = false := by decide +kernel

theorem witness_WindowLists_6 :
  let t := 13000000
  let p := 3
  let src := 0xFF004
  let tag := 5
  let e := [0x8005, 5 + 3 * 16384, 0x8009]
  let b : CrossBody := { job := 9, slice := 7, window := 100, words := [[0x8005, 5 + 3 * 16384, 0x8009]] }
  let j : Job := { job9 with wins := [win100 (fun i => { i with cross := true })] }
  let i : Item := ((j.win 100 false).items.headD item1)
  let s := jobState fun j => { j with wins := [win100 (fun i => { i with cross := true })] }
  s.alive p ∧ s.freshAt t p src tag ∧ (s.found t).jobOf p b.job = some j ∧ ((max s.chip.now t : Nat) : Int) ≤ (s.found t).xcOf p ((s.found t).fullFrame b.window) ∧ b.words = [e] ∧ b.final = false ∧ (((j.win ((s.found t).fullFrame b.window) false).items.filter fun i => i.cross && i.src = e.getD 0 0 && i.dst = e.getD 2 0 && i.cls ≠ 2) = [i]) := by decide +kernel

theorem witness_WindowLists_7 :
  let t := 13000000
  let p := 3
  let src := 0xFF004
  let tag := 5
  let job := 9
  let w := 100
  let k := 3 + 2 * 16384
  let n := 0
  let r : Request := { dst := 0xFF004, msg := { type := 0x82, tag := 5, body := [9, 7, 100, 1, 1, 0x8005, 3 + 2 * 16384, 0x8009, 0] }, sentAt := 5 }
  let i : Item := { item1 with pod := 5, cross := true, runs := [{ frame := 0, first := 3, len := 2, hops := [(podLam 3 5, 0)] }] }
  let j : Job := { job9 with wins := [{ win100 (fun i => { i with pod := 5, cross := true, runs := [{ frame := 0, first := 3, len := 2, hops := [(podLam 3 5, 0)] }] }) with lead := true }] }
  let s := (jobState fun j => { j with wins := [{ win100 (fun i => { i with pod := 5, cross := true, runs := [{ frame := 0, first := 3, len := 2, hops := [(podLam 3 5, 0)] }] }) with lead := true }] }).withPart 3 fun q => { q with requests := [{ dst := 0xFF004, msg := { type := 0x82, tag := 5, body := [9, 7, 100, 1, 1, 0x8005, 3 + 2 * 16384, 0x8009, 0] }, sentAt := 5 }] }
  s.alive p ∧ s.chip.asked p src tag 0x82 = some r ∧ r.msg.body.getD 0 0 = job ∧ (s.found t).fullFrame (r.msg.body.getD 2 0) = w ∧ (s.found t).jobOf p job = some j ∧ (j.win w true).items = [i] ∧ r.msg.body.drop 5 = [i.src, k, i.dst, n] ∧ (i.runs.filter (fun y => y.frame = bits k 13 10 && y.first = bits k 9 0) ≠ []) := by decide +kernel

theorem witness_WindowLists_8 :
  let t := 13200000
  let p := 3
  let job := 9
  let w := 100
  let fid := 0x8005
  let k := 2
  let j : Job := { job9 with seqAt := some 100, seqAcks := [(0x8005, 2)] }
  let u : TopoUnit := { unit := .endpoint 3 5, fid := 0x8005 }
  let s := jobState fun j => { j with seqAt := some 100, seqAcks := [(0x8005, 2)] }
  s.alive p ∧ (s.found t).jobOf p job = some j ∧ j.seqAt = some w ∧ w * 131072 ≤ max s.chip.now t + 1000000 ∧ j.seqAcks = [(fid, k)] ∧ s.chip.unitOf p fid = some u ∧ u.profile = 0 ∧ ((s.found t).fenceHeld p (((s.found t).jobWith p fid).map (fun y => y.job) |>.getD 0xFFFF) fid = false) ∧ fid ∉ (s.chip.part p).gone := by decide +kernel

theorem witness_WindowLists_9 :
  let t := 13000000
  let p := 3
  let d : Desc := { opcode := 0x40, tag := 7, ops := opsOf [(0x10, 2, 9), (0x12, 2, 3), (0x18, 8, 120)] }
  let x := firstCmd (.sched 3) d
  let j := job9
  let s := (jobState id).fetched (.sched 3) d
  s.mayRun t (.sched p) d x ∧ (s.found t).jobOf p (d.at 0x10 2) = some j := by decide +kernel

theorem witness_WindowLists_10 :
  let t := 13000000
  let p := 3
  let d : Desc := { opcode := 0x41, tag := 7, ops := opsOf [(0x10, 2, 9), (0x12, 1, 2), (0x18, 8, 120)] }
  let x := firstCmd (.sched 3) d
  let j := job9
  let s := (jobState id).fetched (.sched 3) d
  s.mayRun t (.sched p) d x ∧ (s.found t).jobOf p (d.at 0x10 2) = some j ∧ 0 < d.at 0x12 1 ∧ d.at 0x12 1 ≤ 32 ∧ (((List.range (d.at 0x12 1)).map fun i => bits (d.at 0x20 16) (4 * i + 2) (4 * i)).all (fun n => j.tmpls.any fun z => z.num = n) = true) := by decide +kernel

theorem witness_WindowLists_11 :
  let t := 13000000
  let p := 3
  let w := 100
  let job := 9
  let l := List.replicate 64 3
  let k := List.replicate 64 3
  let d : Desc := { opcode := 0x42, tag := 7, ops := opsOf [(0x10, 8, 0x100), (0x18, 4, 64), (0x1C, 2, 9)] }
  let x := firstCmd (.sched 3) d
  let s := ((jobState id).withPart 3 fun q => { q with records := [(100, 9, List.replicate 64 3)] }).fetched (.sched 3) d
  s.mayRun t (.sched p) d x ∧ (s.chip.part p).records = [(w, job, l)] ∧ (k = (if (s.found t).confJob p job then [] else l)) ∧ l.length = 64 ∧ l.all (· < 256) = true ∧ d.at 0x1C 2 = job ∧ d.at 0x20 8 ≤ w ∧ 64 ≤ d.at 0x18 4 ∧ (s.found t).ownerPort p = x.port.getD ((s.found t).queuePort (.sched p)) ∧ s.apart t (.sched p) (d.at 0x10 8) k.length := by decide +kernel

theorem witness_AgentReports_1 :
  let p := 3
  let src := spine2.fid
  let slot := 5 * 1024
  let k := 40
  let n := 2
  let l := lamOf false 2 40
  let u := spine2
  let s := (txnState (openTxn3 1 []) 2 0).withPart 3 fun q => { q with violCounts := [(5 * 2304 + lamOf false 2 40, 63)] }
  s.alive p ∧ s.chip.unitOf p src = some u ∧ u.unit = .spine p n ∧ k < 48 ∧ l = lamOf false n k ∧ (s.chip.part p).jobs = [] ∧ SMap.get 0 (s.chip.part p).violCounts (slot / 1024 * 2304 + l) + 1 = s.reg .FAIL_VIOL_THRESH p ∧ l ∉ (s.chip.part p).violBlocked := by decide +kernel

theorem witness_AgentReports_2 :
  let p := 3
  let src := spine2.fid
  let k := 6
  let n := 2
  let u := spine2
  let z : TopoLink := { near := .spine 3 2, port := 6, far := some (.leaf 3 3), farPort := 36 }
  let f : UnitId := .leaf 3 3
  let s := (txnState (openTxn3 2 []) 2 0).withPart 3 fun q => { q with topo := { q.topo with links := [(linkKey (.spine 3 2) 6, { near := .spine 3 2, port := 6, far := some (.leaf 3 3), farPort := 36 })] } }
  s.alive p ∧ s.chip.unitOf p src = some u ∧ u.unit = .spine p n ∧ SMap.find? (s.chip.part p).topo.links (linkKey u.unit k) = some z ∧ z.far = some f := by decide +kernel

theorem witness_AgentReports_3 :
  let p := 3
  let src := spine2.fid
  let u := spine2
  let s := txnState (openTxn3 2 []) 2 0
  s.alive p ∧ s.chip.unitOf p src = some u := by decide +kernel

theorem witness_LearnedFunctions_1 :
  let t := 13000000
  let p := 3
  let job := 9
  let w := 100
  let j : Job := { job9 with filled := 1, settings := [{ start := 0, cmd := true, mode := some (true, false, 0) }] }
  let l : List Desc := [{ opcode := 0x10 }]
  let s := (jobState fun _ => j).withPart 3 fun q => { q with sections := [{ ctx := 1, typ := 2, num := 0, job := 9, body := .policy { job := 9, fcModel := 4 }, imageId := 0, imageVer := 0 }, { ctx := 1, typ := 5, num := 4, job := 0, body := .model 0 [] [{ opcode := 0x10 }] 0 0 [], imageId := 0, imageVer := 0 }] }
  s.alive p ∧ (s.found t).jobOf p job = some j ∧ ((s.found t).modeOf p j w).1 = true ∧ ((s.found t).policyAt p j w).histMin ≤ j.filledAt w ∧ s.reg .PARTITION_MIOBOR_VACANT p = 0 ∧ (s.found t).stageOf p = 0 ∧ j.stopped = false ∧ (s.found t).haltSeq j.ctx p = none ∧ j.onGrid w = true ∧ (j.holesOf w).isEmpty = false ∧ w * 131072 ≤ max s.chip.now t + s.reg .LEARN_FC_LEAD p * 1000 ∧ (s.found t).fcPending p j = false ∧ (j.inv.any (fun v => w ≤ v.window) = false) ∧ (s.found t).fcModel p j w = some l ∧ ((max s.chip.now t : Nat) : Int) ≤ (s.found t).fcDeadline p j w := by decide +kernel

theorem witness_LearnedFunctions_2 :
  let t := 13106000
  let p := 3
  let job := 9
  let w := 100
  let v : Invocation := { window := 100, total := 2 }
  let j : Job := { job9 with inv := [v] }
  let s := (jobState fun _ => j).modChip fun c => { c with cmds := [{ q := .fw 1 3 9, d := { opcode := 0x10 }, seq := 0 }] }
  s.alive p ∧ (s.found t).jobOf p job = some j ∧ j.inv.getLast? = some v ∧ v.window = w ∧ v.published = false ∧ v.failed = false ∧ v.late = false ∧ (s.found t).fcDeadline p j w ≤ ((max s.chip.now t : Nat) : Int) := by decide +kernel

theorem witness_LearnedFunctions_3 :
  let t := 13000000
  let p := 3
  let job := 9
  let w := 100
  let v : Invocation := { window := 100, total := 2, done := 2 }
  let j := fcJob
  let a := fcA
  let b := fcB
  let s := fcState
  s.alive p ∧ (s.found t).jobOf p job = some j ∧ j.inv.getLast? = some v ∧ v.window = w ∧ v.published = false ∧ v.failed = false ∧ v.late = false ∧ v.total ≤ v.done ∧ ((max s.chip.now t : Nat) : Int) < (s.found t).fcDeadline p j w ∧ (s.found t).fcTensor p j.ctx ((s.found t).policyAt p j w).fc 7 512 ((s.found t).policyAt p j w).fcWidth = some a ∧ (s.found t).fcTensor p j.ctx ((s.found t).policyAt p j w).fcConf 6 512 1 = some b := by (have e := fcPolicy; intro t p job w v j a b s; (iterate 9 refine ⟨by decide +kernel, ?_⟩); refine ⟨?_, ?_⟩) <;> (show Chip.fcTensor (fcState.found 13000000) 3 1 _ _ 512 _ = _; first | rw [e.1, e.2.2]; exact fcA_ok | rw [e.2.1]; exact fcB_ok)

theorem witness_LearnedFunctions_4 :
  let t := 13000000
  let i := 0
  let p := 3
  let job := 9
  let j : Job := job9
  let k : Slice := { slice7 with state := 2, endpoints := [0x8005, 0x8009] }
  let s := (jobState id).withPart 3 fun q => { q with sections := [{ ctx := 1, typ := 2, num := 0, job := 9, body := .policy { job := 9, analysis := true }, imageId := 0, imageVer := 0 }] }
  s.alive p ∧ (s.found t).mayWrite i .LEARN p = true ∧ (s.found t).jobOf p job = some j ∧ (s.found t).sliceOf j.slice = some k ∧ (s.found t).leads p k = true ∧ ((s.found t).policyOf p job).analysis = true ∧ j.stopped = false ∧ j.advice.running = none ∧ j.advice.state ≠ 2 := by decide +kernel

theorem witness_LearnedFunctions_5 :
  let t := 13000000
  let p := 3
  let job := 9
  let co : Tensor := { first := 0x100000, gen := 1, format := 7, rows := 2, cols := 2 }
  let ct : Tile := Chip.tensorTile 1 co 0 (payloadOf (bytesOf 4 3 ++ bytesOf 4 5 ++ List.replicate 120 0 ++ bytesOf 4 5 ++ bytesOf 4 2))
  let a : Analysis := { step := 2, startAt := 12000000, coact := [ct] }
  let pol : Policy := { job := 9, analysis := true, experts := 2, bins := 2, iter := 0, minGain := 0, coact := 0, current := 2048, advice := 4096, scratch := 8192 }
  let j : Job := { job9 with advice := { running := some a, repl := [(7, 7)] } }
  let s := (tensorState [] [(0x100000, ct), (0x100001, ({ gen := 1, ctx := 1, format := 0x20, shape := 2047, data := [(1, 1)] } : Tile).sealed)]).withPart 3 fun q => { q with jobs := [j], sections := [{ ctx := 1, typ := 2, num := 0, job := 9, body := .policy pol, imageId := 0, imageVer := 0 }] }
  let r := Analyse.run pol (fun i k => ofField 32 ((s.found t).elem p co i k)) (fun i => (s.found t).regionByte p 1 (2048 + i))
  let f : Found := r.2.getD ⟨[], [], FV.zero, FV.zero⟩
  s.alive p ∧ (s.found t).jobOf p job = some j ∧ j.advice.running = some a ∧ s.reg .PARTITION_MIOBOR_VACANT p ≠ 1 ∧ (s.found t).regionCheck p j.ctx ((s.found t).regionTensor p j.ctx ((s.found t).policyOf p job).coact 7 ((s.found t).policyOf p job).experts ((s.found t).policyOf p job).experts) = true ∧ (s.found t).regionCheck p j.ctx ((s.found t).rawRun p j.ctx ((s.found t).policyOf p job).current ((s.found t).policyOf p job).experts) = true ∧ (s.found t).tilesOf p ((s.found t).regionTensor p j.ctx ((s.found t).policyOf p job).coact 7 ((s.found t).policyOf p job).experts ((s.found t).policyOf p job).experts) = a.coact ∧ ((Analyse.run ((s.found t).policyOf p job) (fun i k => ofField 32 ((s.found t).elem p ((s.found t).regionTensor p j.ctx ((s.found t).policyOf p job).coact 7 ((s.found t).policyOf p job).experts ((s.found t).policyOf p job).experts) i k)) (fun i => (s.found t).regionByte p j.ctx (((s.found t).policyOf p job).current + i))).2 = some f) ∧ (s.found t).stageOf p = 0 ∧ (f.gains ((s.found t).policyOf p job).minGain || f.repl != j.advice.repl) = true := by decide +kernel

theorem witness_LearnedFunctions_6 :
  let t := 13000000
  let p := 3
  let src := 0xFF003
  let tag := 7
  let job := 9
  let j : Job := { job9 with filled := 1, empty_ := false }
  let s := jobState fun j => { j with filled := 1, empty_ := false }
  s.alive p ∧ s.freshAt t p src tag ∧ (s.found t).jobOf p job = some j := by decide +kernel

theorem witness_LearnedFunctions_7 :
  let t := 200000000
  let p := 3
  let s := State.reset.withPart 3 fun q => { q with health := [(linkKey (.leaf 3 2) 40, { recs := 3, sums := [1, 2, 3] })] }
  s.alive p ∧ (s.chip.part p).lhAt + s.reg .LEARN_LH_PERIOD p * 1000000 ≤ max s.chip.now t ∧ (s.found t).stageOf p = 0 ∧ s.reg .MIOBOR_STATE p ≠ 3 := by decide +kernel

theorem witness_ClusterCommands_1 :
  let t := 10
  let p := 3
  let x := 1
  let d := mioDesc 0x10 [0, 1, 2] 0 1 1 1 0
  let y := firstCmd (.compute 1 3) d
  let s := (tensorState [(oneTile 11 2 1 1, [(0, 3)]), (oneTile 12 2 1 1, [(0, 5)]), (oneTile 13 7 1 1, [])] []).fetched (.compute 1 3) d
  let j : MJob := ((s.found t).mioJob 3 ((s.found t).operands 3 1 d).1).getD {}
  d.opcode = 0x10 ∧ d.ctx = x ∧ s.clusterFree t p x d y ∧ s.computes t p d j := by decide +kernel

theorem witness_ClusterCommands_2 :
  let t := 10
  let p := 3
  let x := 1
  let d := mioDesc 0x11 [0, 1, 2] 0 1 1 4 0
  let y := firstCmd (.compute 1 3) d
  let s := (tensorState [(oneTile 11 2 1 4, [(0, 3), (1, 4), (2, 5), (3, 6)]), ({ oneTile 12 2 4 1 with sparse := true, meta_ := 14, metaGen := 1 }, [(0, 7), (64, 9)]), (oneTile 13 7 1 1, [])] [(14, Chip.tensorTile 1 (oneTile 14 0x10 2 1) 0 [(64, 1)]), (12, Chip.tensorTile 1 (oneTile 12 2 2 1) 0 [(0, 7), (64, 9)])]).fetched (.compute 1 3) d
  let j : MJob := ((s.found t).mioJob 3 ((s.found t).operands 3 1 d).1).getD {}
  d.opcode = 0x11 ∧ d.ctx = x ∧ s.clusterFree t p x d y ∧ s.computes t p d j := by decide +kernel

theorem witness_ClusterCommands_3 :
  let t := 10
  let p := 3
  let x := 1
  let d := mioDesc 0x12 [0, 1, 2] 1 1 1 1 0
  let y := firstCmd (.compute 1 3) d
  let s := (tensorState [({ oneTile 11 2 1 1 with blocked := true, meta_ := 14, metaGen := 1 }, [(0, 3)]), (oneTile 12 2 1 1, [(0, 5)]), (oneTile 13 7 1 1, [])] [(14, ({ gen := 1, ctx := 1, format := 0x11, data := [(0, 1)] } : Tile).sealed)]).fetched (.compute 1 3) d
  let j : MJob := ((s.found t).mioJob 3 ((s.found t).operands 3 1 d).1).getD {}
  d.opcode = 0x12 ∧ d.ctx = x ∧ s.clusterFree t p x d y ∧ s.computes t p d j := by decide +kernel

theorem witness_ClusterCommands_4 :
  let t := 10
  let p := 3
  let x := 1
  let d := mioDesc 0x13 [0, 0xFFFF, 1, 2, 3] 0 1 2 1 1
  let y := firstCmd (.compute 1 3) d
  let s := (tensorState [(oneTile 11 6 1 2, [(2, 128), (3, 63), (7, 64)]), (oneTile 13 7 1 1, []), (oneTile 14 6 1 1, []), (oneTile 15 7 2 2, [])] []).fetched (.compute 1 3) d
  let j : MJob := ((s.found t).mioJob 3 ((s.found t).operands 3 1 d).1).getD {}
  d.opcode = 0x13 ∧ d.ctx = x ∧ s.clusterFree t p x d y ∧ s.computes t p d j := by decide +kernel

theorem witness_ClusterCommands_5 :
  let t := 10
  let p := 3
  let x := 1
  let d := mioDesc 0x14 [0, 0xFFFF, 1, 2] 0 1 2 0 1
  let y := firstCmd (.compute 1 3) d
  let s := (tensorState [(oneTile 11 6 1 2, [(2, 128), (3, 63), (7, 64)]), (oneTile 13 6 1 1, []), (oneTile 14 7 1 1, [])] []).fetched (.compute 1 3) d
  let j : MJob := ((s.found t).mioJob 3 ((s.found t).operands 3 1 d).1).getD {}
  d.opcode = 0x14 ∧ d.ctx = x ∧ s.clusterFree t p x d y ∧ s.computes t p d j := by decide +kernel

theorem witness_ClusterCommands_6 :
  let t := 10
  let p := 3
  let x := 1
  let d := mioDesc 0x15 [0, 0xFFFF, 1] 0 1 1 0 0
  let y := firstCmd (.compute 1 3) d
  let s := (tensorState [(oneTile 11 6 1 1, [(2, 128), (3, 63)]), (oneTile 13 6 1 1, [])] []).fetched (.compute 1 3) d
  let j : MJob := ((s.found t).mioJob 3 ((s.found t).operands 3 1 d).1).getD {}
  d.opcode = 0x15 ∧ d.ctx = x ∧ s.clusterFree t p x d y ∧ s.computes t p d j := by decide +kernel

theorem witness_ClusterCommands_7 :
  let t := 10
  let p := 3
  let x := 1
  let d := mioDesc 0x16 [0, 0xFFFF, 1] 0 1 2 0 0
  let y := firstCmd (.compute 1 3) d
  let s := (tensorState [(oneTile 11 7 1 2, [(0, 3), (4, 5)]), (oneTile 13 7 1 2, [])] []).fetched (.compute 1 3) d
  let j : MJob := ((s.found t).mioJob 3 ((s.found t).operands 3 1 d).1).getD {}
  d.opcode = 0x16 ∧ d.ctx = x ∧ s.clusterFree t p x d y ∧ s.computes t p d j := by decide +kernel

theorem witness_ClusterCommands_8 :
  let t := 10
  let p := 3
  let x := 1
  let d := mioDesc 0x17 [0, 0xFFFF, 1] 0 2 2 0 0
  let y := firstCmd (.compute 1 3) d
  let s := (tensorState [(oneTile 11 7 2 1, [(0, 1), (128, 1)]), (oneTile 13 7 2 1, [])] []).fetched (.compute 1 3) d
  let j : MJob := ((s.found t).mioJob 3 ((s.found t).operands 3 1 d).1).getD {}
  d.opcode = 0x17 ∧ d.ctx = x ∧ s.clusterFree t p x d y ∧ s.computes t p d j := by decide +kernel

theorem witness_ClusterCommands_9 :
  let t := 10
  let p := 3
  let x := 1
  let d := mioDesc 0x18 [0, 1, 2, 3, 4] 0 1 1 1 0
  let y := firstCmd (.compute 1 3) d
  let s := (tensorState [(oneTile 11 6 1 1, [(3, 64)]), (oneTile 12 6 1 1, [(2, 128), (3, 63)]), (oneTile 13 6 1 1, []), (oneTile 14 7 1 1, []), (oneTile 15 7 2 1, [(128, 1)])] []).fetched (.compute 1 3) d
  let j : MJob := ((s.found t).mioJob 3 ((s.found t).operands 3 1 d).1).getD {}
  d.opcode = 0x18 ∧ d.ctx = x ∧ s.clusterFree t p x d y ∧ s.computes t p d j := by decide +kernel

theorem witness_ClusterCommands_10 :
  let t := 10
  let p := 3
  let x := 1
  let d := mioDesc 0x19 [0, 1, 2] 0 1 1 0 0
  let y := firstCmd (.compute 1 3) d
  let s := (tensorState [(oneTile 11 7 2 1, [(0, 3), (128, 5)]), (oneTile 12 7 1 1, [(0, 1)]), (oneTile 13 7 1 1, [])] []).fetched (.compute 1 3) d
  let j : MJob := ((s.found t).mioJob 3 ((s.found t).operands 3 1 d).1).getD {}
  d.opcode = 0x19 ∧ d.ctx = x ∧ s.clusterFree t p x d y ∧ s.computes t p d j := by decide +kernel

theorem witness_ClusterCommands_11 :
  let t := 10
  let p := 3
  let x := 1
  let d := mioDesc 0x1A [0, 1, 2] 1 1 1 0 0
  let y := firstCmd (.compute 1 3) d
  let s := (tensorState [(oneTile 11 7 1 1, [(0, 3)]), (oneTile 12 7 1 1, [(0, 1)]), (oneTile 13 7 2 1, [])] []).fetched (.compute 1 3) d
  let j : MJob := ((s.found t).mioJob 3 ((s.found t).operands 3 1 d).1).getD {}
  d.opcode = 0x1A ∧ d.ctx = x ∧ s.clusterFree t p x d y ∧ s.computes t p d j := by decide +kernel

theorem witness_ClusterCommands_12 :
  let t := 10
  let p := 3
  let x := 1
  let d := mioDesc 0x1B [0, 1, 2] 1 1 1 0 0
  let y := firstCmd (.compute 1 3) d
  let s := (tensorState [(oneTile 11 6 1 1, [(2, 128), (3, 63)]), (oneTile 12 6 1 1, [(3, 64)]), (oneTile 13 6 1 1, [])] []).fetched (.compute 1 3) d
  let j : MJob := ((s.found t).mioJob 3 ((s.found t).operands 3 1 d).1).getD {}
  d.opcode = 0x1B ∧ d.ctx = x ∧ s.clusterFree t p x d y ∧ s.computes t p d j := by decide +kernel

theorem witness_ClusterCommands_13 :
  let t := 10
  let p := 3
  let x := 1
  let d := mioDesc 0x1C [0, 0xFFFF, 1] 0 1 2 0 0
  let y := firstCmd (.compute 1 3) d
  let s := (tensorState [(oneTile 11 7 1 2, [(0, 3), (4, 5)]), (oneTile 13 7 1 1, [])] []).fetched (.compute 1 3) d
  let j : MJob := ((s.found t).mioJob 3 ((s.found t).operands 3 1 d).1).getD {}
  d.opcode = 0x1C ∧ d.ctx = x ∧ s.clusterFree t p x d y ∧ s.computes t p d j := by decide +kernel

theorem witness_ClusterTime_1 :
  let t := 10000000000
  let p := 3
  let x := 1
  let tag := 7
  let d := mioDesc 0x10 [0, 1, 2] 0 1 1 1 0
  let y := firstCmd (.compute 1 3) d
  let s := (tensorState [(oneTile 11 2 1 1, []), (oneTile 12 2 1 1, []), (oneTile 13 7 1 1, [])]).fetched (.compute 1 3) d
  (s.found t).cmdOf (.compute x p) tag = some y ∧ y.d.tag = tag ∧ y.isMio = true ∧ (s.found t).mioBehind (.compute x p) y.d = false ∧ (s.found t).mioTurn p x = true ∧ y.started.getD y.fetched + (s.found t).limitOf y ≤ max s.chip.now t ∧ (s.found t).recordLost (y.port.getD ((s.found t).queuePort (.compute x p))) = false := by decide +kernel

theorem witness_ClusterTime_2 :
  let t := 10000000000
  let p := 3
  let x := 2
  let z := 1
  let d := mioDesc 0x10 [0, 1, 2] 0 1 1 1 0
  let y := firstCmd (.compute 1 3) d
  let s := ((tensorState []).fetched (.compute 1 3) d).withPart 3 fun q => { q with mioCtx := some 2 }
  s.alive p ∧ (s.chip.part p).mioCtx = some x ∧ (s.chip.cmds.filter (fun k => k.isMio && k.q.part = some p && k.q.ctx ≠ x) = [y]) ∧ max (min (max s.chip.now t) y.fetched) (s.chip.part p).mioSince + 131072 * s.reg .MIOBOR_QUANTUM p ≤ max s.chip.now t ∧ (Chip.mioNext (((s.found t).mioWork p 64).filter fun k => k ≠ x) x = some z) ∧ z < 64 := by decide +kernel

theorem witness_ImageCommands_1 :
  let t := 10
  let p := 3
  let x := 1
  let n := 1
  let d : Desc := { opcode := 0x80, tag := 7, ctx := 1, ops := opsOf [(0x10, 8, 0x4000), (0x18, 4, 4096)] }
  let y := firstCmd (.compute 1 3) d
  let head := imageHead
  let l : List SecEntry := [secEntryOf imageTable]
  let s := ((tensorState []).fetched (.compute 1 3) d).modChip fun c => c.writeHost 0 0x4000 (imageHead ++ imageTable)
  s.mayRun t (.compute x p) d y ∧ (s.found t).tdiReady x = true ∧ (s.found t).portReads (s.chip.ctx x).port = true ∧ (s.found t).hostBytes (s.chip.ctx x).port (d.at 0x10 8) 512 = head ∧ fieldAt head 0 4 = 0x4C494F54 ∧ fieldAt head 4 2 = 1 ∧ fieldAt head 6 2 = n ∧ 1 ≤ n ∧ n ≤ 256 ∧ fieldAt head 0x10 8 ≤ d.at 0x18 4 ∧ fieldAt head 0x10 8 ≤ 2 ^ 30 ∧ ((List.range n).map (fun i => secEntryOf (((s.found t).hostBytes (s.chip.ctx x).port (d.at 0x10 8 + 0x200) (128 * n)).drop (128 * i) |>.take 128)) = l) ∧ (l.all (fun e => decide (e.off + e.len ≤ fieldAt head 0x10 8)) = true) ∧ countsBad l (bit (fieldAt head 0x18 4) 0) = none := by decide +kernel

theorem witness_ImageCommands_2 :
  let t := 10
  let p := 3
  let x := 1
  let tag := 7
  let l : LoadRun := load7 (some []) false
  let s := ((tensorState []).withCtx 1 fun k => { k with signer := 5 }).withPart 3 fun q => { q with loads := [load7 (some []) false] }
  s.alive p ∧ (s.found t).loadOf p (.compute x p) tag = some l ∧ l.plain = some [] ∧ l.waits = none ∧ l.sections = [] ∧ l.fail = none ∧ l.verified = false ∧ (s.chip.ctx x).signer ≠ 0 ∧ (s.found t).checkFinds p l [] ((s.found t).placeSections p l.ctx []) = [] ∧ l.ctx = x := by decide +kernel

theorem witness_ImageCommands_3 :
  let t := 10
  let p := 3
  let x := 1
  let tag := 7
  let l : LoadRun := load7 none false
  let s := ((tensorState []).withCtx 1 fun k => { k with signer := 5 }).withPart 3 fun q => { q with loads := [load7 none false] }
  s.alive p ∧ (s.found t).loadOf p (.compute x p) tag = some l ∧ l.plain = none ∧ l.verified = false ∧ (s.chip.ctx x).signer ≠ 0 := by decide +kernel

theorem witness_ImageCommands_4 :
  let t := 10
  let p := 3
  let x := 1
  let tag := 7
  let l : LoadRun := { load7 none false with sections := [secEntryOf imageTable] }
  let b : List (Option (List Nat)) := [some (List.replicate 16 0)]
  let s := ((tensorState []).withCtx 1 fun k => { k with signer := 5 }).withPart 3 fun q => { q with loads := [{ load7 none false with sections := [secEntryOf imageTable] }] }
  s.alive p ∧ (s.found t).loadOf p (.compute x p) tag = some l ∧ l.plain = none ∧ l.verified = false ∧ (s.found t).portReads l.port = true ∧ (s.found t).keyBad l = none ∧ (l.sections.map (fun e => (s.found t).plainOf l e) = b) ∧ b.all Option.isSome = true := by decide +kernel

theorem witness_ImageCommands_5 :
  let t := 10
  let p := 3
  let x := 1
  let d : Desc := { opcode := 0x81, tag := 7, ctx := 1 }
  let y := firstCmd (.compute 1 3) d
  let s := ((tensorState []).fetched (.compute 1 3) d).withPart 3 fun q => { q with sections := [{ ctx := 1, typ := 1, num := 0, job := 9, body := .manifest [], imageId := 4, imageVer := 2 }, { ctx := 2, typ := 1, num := 0, job := 9, body := .manifest [], imageId := 5, imageVer := 2 }] }
  s.mayRun t (.compute x p) d y ∧ ((s.chip.part p).jobs.any (fun j => j.ctx = x) = false) ∧ ((List.range 4).any (fun k => ((s.found t).prog p x k).state = 2) = false) := by decide +kernel

theorem witness_ImageCommands_6 :
  let t := 10
  let p := 3
  let x := 1
  let d : Desc := { opcode := 0x82, tag := 7, ctx := 1, ops := opsOf [(0x10, 8, 0x4000), (0x18, 4, 64)] }
  let y := firstCmd (.compute 1 3) d
  let l := Chip.sectionRecord { ctx := 1, typ := 1, num := 0, job := 9, body := .manifest [], imageId := 4, imageVer := 2 }
  let s := ((tensorState []).fetched (.compute 1 3) d).withPart 3 fun q => { q with sections := [{ ctx := 1, typ := 1, num := 0, job := 9, body := .manifest [], imageId := 4, imageVer := 2 }, { ctx := 2, typ := 1, num := 0, job := 9, body := .manifest [], imageId := 5, imageVer := 2 }] }
  s.mayRun t (.compute x p) d y ∧ (s.found t).portReads (s.chip.ctx x).port = true ∧ (((s.chip.part p).sections.filter fun e => e.ctx = x).flatMap Chip.sectionRecord = l) ∧ l.length ≤ d.at 0x18 4 ∧ s.apart t (.compute x p) (d.at 0x10 8) l.length := by decide +kernel

theorem witness_ImageCommands_7 :
  let t := 10
  let p := 3
  let x := 1
  let d : Desc := { opcode := 0x83, tag := 7, ctx := 1, ops := opsOf [(0x10, 8, 0x4000), (0x18, 4, 512), (0x1C, 4, 1)] }
  let y := firstCmd (.compute 1 3) d
  let l : List Nat := List.replicate 128 2 ++ bytesOf 64 77
  let s := ((tensorState []).fetched (.compute 1 3) d).withCtx 1 fun k => { k with log := [⟨List.replicate 128 1⟩, ⟨List.replicate 128 2⟩], logL := 77 }
  s.mayRun t (.compute x p) d y ∧ (s.found t).portReads (s.chip.ctx x).port = true ∧ (((s.chip.ctx x).log.drop (d.at 0x1C 4)).flatMap (fun e => e.bytes) ++ bytesOf 64 (s.chip.ctx x).logL = l) ∧ l.length ≤ d.at 0x18 4 ∧ s.apart t (.compute x p) (d.at 0x10 8) l.length := by decide +kernel

theorem witness_FenceOrders_1 :
  let t := 100000000
  let p := 3
  let fid := 0x8005
  let u : TopoUnit := { unit := .endpoint 3 5, fid := 0x8005 }
  let s := readyState
  s.alive p ∧ s.chip.unitOf p fid = some u ∧ u.profile = 0 ∧ s.chip.settled p (refKey refSilence fid) = true ∧ max (SMap.get 0 (s.chip.part p).telemAt u.unit.code) u.seen + s.reg .FAIL_SILENT_PERIODS p * (s.ureg u.unit .ACONTROL_TELEM_PERIOD * 1000) ≤ max s.chip.now t := by decide +kernel

theorem witness_FenceOrders_2 :
  let t := 10
  let p := 3
  let src := 0xFF002
  let tag := 4
  let g := 12
  let n : FailNote := { job := 9, reason := 1, fids := [0x9005], step := 4, detect := 7 }
  let j := job9
  let y : Slice := { slice7 with state := 2, endpoints := [0x8005, 0x8009], notice := [(3, 12)] }
  let s := (jobState id).modChip fun c => { c with slices := [{ slice7 with state := 2, endpoints := [0x8005, 0x8009], notice := [(3, 12)] }] }
  s.alive p ∧ s.freshAt t p src tag ∧ s.chip.jobOf p n.job = some j ∧ s.chip.sliceOf j.slice = some y ∧ (y.notice.find? (fun e => e.1 = s.chip.podOf p) = some (s.chip.podOf p, g)) ∧ (s.chip.part p).portDown = false ∧ ((s.chip.part p).link.tx.all (fun e => decide (e.2 < 2 ^ 40)) = true) := by decide +kernel

theorem witness_FenceOrders_3 :
  let t := 10
  let p := 3
  let src := 0xFF002
  let tag := 4
  let f := 0x9005
  let n : FailNote := { job := 9, reason := 1, fids := [0x9005], detect := 7 }
  let s := jobState id
  s.alive p ∧ s.freshAt t p src tag ∧ n.fids = [f] ∧ s.chip.fenceHeld p n.job f = false ∧ ((s.chip.part p).batches.any (fun b => b.job = n.job) = false) := by decide +kernel

theorem witness_FenceOrders_4 :
  let t := 900000000
  let p := 3
  let job := 9
  let f := 5
  let b : FenceBatch := { job := 9, openAt := 1, asks := [{ job := 9, slice := 7, fid := 0x8009, reason := 1, detect := 1 }] }
  let s := (jobState id).withPart 3 fun q => { q with batches := [{ job := 9, openAt := 1, asks := [{ job := 9, slice := 7, fid := 0x8009, reason := 1, detect := 1 }] }], fenceSeq := [(9, 4)] }
  s.alive p ∧ ((s.chip.part p).batches.find? (fun x => x.job = job) = some b) ∧ b.openAt + s.reg .FAIL_FENCE_BATCH p * 1000 ≤ max s.chip.now t ∧ (f = (if (SMap.get 0 (s.chip.part p).fenceSeq job + 1) % 65536 = 0 then 1 else (SMap.get 0 (s.chip.part p).fenceSeq job + 1) % 65536)) := by decide +kernel

theorem witness_FenceOrders_5 :
  let t := 10
  let p := 3
  let src := 0xFF002
  let tag := 4
  let n : FailNote := { job := 9, slice := 7, f := 3, reason := 1, fids := [0x9005], detect := 7 }
  let s := (jobState id).withPart 3 fun q => { q with topo := { q.topo with units := q.topo.units ++ [((UnitId.spine 3 2).code, spine2)] } }
  s.alive p ∧ s.freshAt t p src tag ∧ ((s.chip.part p).orders.any (fun o => o.job = n.job && o.f = n.f) = false) ∧ n.fids ≠ [] ∧ s.chip.zoneSwitches p ≠ [] := by decide +kernel

theorem witness_FenceOrders_6 :
  let p := 3
  let job := 9
  let f := 3
  let o : FenceOrder := { job := 9, slice := 7, f := 3, fids := [0x9005], detect := 1 }
  let s := (jobState id).withPart 3 fun q => { q with orders := [{ job := 9, slice := 7, f := 3, fids := [0x9005], detect := 1 }] }
  s.alive p ∧ ((s.chip.part p).orders.find? (fun o => o.job = job && o.f = f) = some o) ∧ s.chip.settled p (refKey refFence (job * 65536 + f)) = true ∧ o.stage = 1 := by decide +kernel

theorem witness_FenceOrders_7 :
  let p := 3
  let src := 0xC0492
  let tag := 5
  let job := 9
  let f := 3
  let r : Request := { dst := 0xC0492, msg := { type := 0x30, tag := 5, body := [0x9005, 9, 3] }, sentAt := 2, ref := refKey refFence (9 * 65536 + 3) }
  let s := (jobState id).withPart 3 fun q => { q with requests := [{ dst := 0xC0492, msg := { type := 0x30, tag := 5, body := [0x9005, 9, 3] }, sentAt := 2, ref := refKey refFence (9 * 65536 + 3) }, { dst := 0xC0493, msg := { type := 0x30, tag := 6, body := [0x9005, 9, 3] }, sentAt := 2, ref := refKey refFence (9 * 65536 + 3) }], orders := [{ job := 9, slice := 7, f := 3, fids := [0x9005], detect := 1 }] }
  s.alive p ∧ s.chip.asked p src tag 0x30 = some r ∧ r.ref = refKey refFence (job * 65536 + f) ∧ job < 65536 ∧ f < 65536 ∧ ((s.chip.part p).requests.any (fun q => q.ref = r.ref && !(q.dst = src && q.msg.tag = tag)) = true) := by decide +kernel

theorem witness_FenceOrders_8 :
  let p := 3
  let src := 0xC0492
  let tag := 5
  let fid := 0x9005
  let job := 9
  let f := 3
  let r : Request := { dst := 0xC0492, msg := { type := 0x30, tag := 5, body := [0x9005, 9, 3] }, sentAt := 2, ref := refKey refFence (9 * 65536 + 3) }
  let s := (jobState id).withPart 3 fun q => { q with requests := [{ dst := 0xC0492, msg := { type := 0x30, tag := 5, body := [0x9005, 9, 3] }, sentAt := 2, ref := refKey refFence (9 * 65536 + 3) }, { dst := 0xC0493, msg := { type := 0x30, tag := 6, body := [0x9005, 9, 3] }, sentAt := 2, ref := refKey refFence (9 * 65536 + 3) }], orders := [{ job := 9, slice := 7, f := 3, fids := [0x9005], detect := 1 }] }
  s.alive p ∧ s.chip.asked p src tag 0x30 = some r ∧ r.msg.body = [fid, job, f] ∧ ((s.chip.part p).retries.any (fun x => x.agent = src && x.fid = fid && x.job = job) = false) := by decide +kernel

theorem witness_FenceOrders_9 :
  let t := 10
  let p := 3
  let x : FenceRetry := { agent := 0xC0492, fid := 0x9005, job := 9, f := 3, tries := 0, due := 7 }
  let s := (jobState id).withPart 3 fun q => { q with retries := [{ agent := 0xC0492, fid := 0x9005, job := 9, f := 3, tries := 0, due := 7 }] }
  s.alive p ∧ (s.chip.part p).retries = [x] ∧ x.due ≤ max s.chip.now t ∧ s.chip.settled p (refKey refRetry (x.agent * 2 ^ 20 + x.fid)) = true := by decide +kernel

theorem witness_FenceOrders_10 :
  let t := 10
  let p := 3
  let src := 0xFF002
  let tag := 4
  let f := 0x9005
  let n : FailNote := { job := 9, slice := 7, f := 3, fids := [0x9005], detect := 7 }
  let s := (jobState id).withPart 3 fun q => { q with topo := { q.topo with units := q.topo.units ++ [((UnitId.spine 3 2).code, spine2)] } }
  s.alive p ∧ s.freshAt t p src tag ∧ n.fids = [f] ∧ ((s.chip.part p).lifts.any (fun l => l.fid = f) = false) ∧ s.chip.zoneSwitches p ≠ [] := by decide +kernel

theorem witness_FenceOrders_11 :
  let t := 10
  let p := 3
  let src := 0xFF002
  let tag := 4
  let n : FailNote := { job := 9, slice := 7, fids := [0x9005, 0x9006], epochs := [3, 4], lifted := [false, true] }
  let l : List FenceRec := [{ job := 9, fid := 0x9005, f := 3 }, { job := 9, fid := 0x9006, f := 4, lifted := true }]
  let s := (jobState id).withPart 3 fun q => { q with fences := [{ job := 9, fid := 0x9005, f := 2 }, { job := 8, fid := 0x9005, f := 2 }] }
  s.alive p ∧ s.freshAt t p src tag ∧ n.fids ≠ [] ∧ (n.fids.zipIdx.map (fun e => ({ job := n.job, fid := e.1, f := n.epochs.getD e.2 0, lifted := n.lifted.getD e.2 false, reason := n.reason } : FenceRec)) = l) := by decide +kernel

theorem witness_FenceCommands_1 :
  let t := 10
  let p := 3
  let z := 3
  let d : Desc := { opcode := 0x58, tag := 7, ops := opsOf [(0x10, 4, 0x8005)] }
  let x := firstCmd (.route 3) d
  let u : TopoUnit := { unit := .endpoint 3 5, fid := 0x8005 }
  let s := readyState.fetched (.route 3) d
  s.mayRun t (.route p) d x ∧ s.chip.zoneOfFid (d.at 0x10 4 % 2 ^ 20) = some (z, u) ∧ (s.found t).ownerPort z = (s.found t).ownerPort p ∧ s.chip.jobWith z (d.at 0x10 4 % 2 ^ 20) = none ∧ s.chip.fenceHeld z 0xFFFF (d.at 0x10 4 % 2 ^ 20) = false ∧ ((s.chip.part z).batches.any (fun b => b.job = 0xFFFF) = false) := by decide +kernel

theorem witness_FenceCommands_2 :
  let t := 10
  let p := 3
  let z := 3
  let d : Desc := { opcode := 0x59, tag := 7, ops := opsOf [(0x10, 4, 0x8005)] }
  let x := firstCmd (.route 3) d
  let u : TopoUnit := { unit := .endpoint 3 5, fid := 0x8005 }
  let f : FenceRec := { job := 0xFFFF, fid := 0x8005, f := 2 }
  let s := (readyState.fetched (.route 3) d).withPart 3 fun q => { q with fences := [{ job := 0xFFFF, fid := 0x8005, f := 2 }] }
  s.mayRun t (.route p) d x ∧ s.chip.zoneOfFid (d.at 0x10 4 % 2 ^ 20) = some (z, u) ∧ ((s.chip.part z).fences.find? (fun f => f.fid = d.at 0x10 4 % 2 ^ 20 && !f.lifted) = some f) ∧ (s.found t).ownerPort z = (s.found t).ownerPort p ∧ d.at 0x10 4 % 2 ^ 20 ∉ (s.chip.part z).topo.retired ∧ ((s.chip.part z).lifts.any (fun l => l.fid = d.at 0x10 4 % 2 ^ 20) = false) ∧ s.chip.jobOf z f.job = none := by decide +kernel

theorem witness_FenceCommands_3 :
  let t := 10
  let p := 3
  let d : Desc := { opcode := 0x5A, tag := 7, ops := opsOf [(0x10, 8, 0x4000), (0x18, 4, 64), (0x1C, 2, 9)] }
  let x := firstCmd (.route 3) d
  let l : List Nat := bytesOf 4 0x8005 ++ bytesOf 2 2 ++ [1, 3]
  let s := (readyState.fetched (.route 3) d).withPart 3 fun q => { q with fences := [{ job := 9, fid := 0x8005, f := 2, reason := 3 }, { job := 8, fid := 0x8006, f := 2 }] }
  s.mayRun t (.route p) d x ∧ (((s.chip.part p).fences.filter fun f => f.job = d.at 0x1C 2 && !(s.found t).confJob p f.job).flatMap (fun f => bytesOf 4 f.fid ++ bytesOf 2 f.f ++ [if f.lifted then 2 else 1, f.reason % 256]) = l) ∧ l.length ≤ d.at 0x18 4 ∧ s.apart t (.route p) (d.at 0x10 8) l.length := by decide +kernel

theorem witness_ContextCommands_1 :
  let t := 10
  let i := 0
  let x := 2
  let d : Desc := { opcode := 0x90, tag := 7, ops := opsOf [(0x10, 1, 2), (0x18, 8, 0x4000)] }
  let y := firstCmd (.context 0) d
  let s := (hostState.withPort 0 fun h => { h with vfs := 4 }).fetched (.context 0) d
  s.mayRun t (.context i) d y ∧ (s.found t).g9Out = false ∧ d.at 0x10 1 = x ∧ x < 64 ∧ (s.found t).mayCreate i = true ∧ x ≤ (s.chip.hostPort i).vfs ∧ (s.chip.ctx x).state = 0 ∧ (bit (d.at 0x11 1) 0 && (x = 0 || s.reg .CONTEXT_IDENTITY_OK i == 0)) = false ∧ (s.found t).portReads i = true := by decide +kernel

theorem witness_ContextCommands_2 :
  let t := 10
  let i := 0
  let x := 1
  let d : Desc := { opcode := 0x91, tag := 7, ops := opsOf [(0x10, 1, 1), (0x12, 2, 8), (0x14, 2, 1), (0x18, 4, 64)] }
  let y := firstCmd (.context 0) d
  let s := (hostState.withCtx 1 fun k => { k with state := 1 }).fetched (.context 0) d
  s.mayRun t (.context i) d y ∧ (s.found t).g9Out = false ∧ d.at 0x10 1 = x ∧ (s.found t).notMine i x = false ∧ ((s.chip.ctx x).state = 1 ∨ (s.chip.ctx x).state = 2) ∧ (s.chip.ctx x).teardown = none ∧ (s.found t).tdiReady x = true ∧ s.reg .DEVICE_HOST_CFG 0 ≠ 3 ∧ d.at 0x16 2 = 0 ∧ ((setBitsOf 16 (d.at 0x12 2)).any (fun p => (s.found t).bypassed p || (!(s.found t).residentIn x p && (s.found t).residencyRefused x p (d.at 0x14 2) (d.at 0x18 4))) = false) ∧ 1 ≤ d.at 0x14 2 ∧ d.at 0x14 2 ≤ 96 ∧ 64 ≤ d.at 0x18 4 ∧ d.at 0x18 4 ≤ 3072 := by decide +kernel

theorem witness_ContextCommands_3 :
  let t := 10
  let i := 0
  let x := 1
  let d : Desc := { opcode := 0x92, tag := 7, ops := opsOf [(0x10, 1, 1), (0x18, 8, 0x4000)] }
  let y := firstCmd (.context 0) d
  let b := keyBlob
  let s := ((hostState.withCtx 1 fun k => { k with state := 1, gen := 3 }).fetched (.context 0) d).modChip fun c => c.writeHost 0 0x4000 keyBlob
  s.mayRun t (.context i) d y ∧ (s.found t).g9Out = false ∧ d.at 0x10 1 = x ∧ (s.found t).notMine i x = false ∧ ((s.chip.ctx x).state = 1 ∨ (s.chip.ctx x).state = 2) ∧ (s.found t).tdiReady x = true ∧ (s.found t).hostBytes i (d.at 0x18 8) 256 = b ∧ fieldAt b 0 4 = 0x4B575843 ∧ fieldAt b 4 2 = 1 ∧ fieldAt b 6 1 = x ∧ fieldAt b 8 4 = (s.chip.ctx x).gen ∧ (s.chip.ctx x).keyGen < fieldAt b 0x0C 4 ∧ (s.found t).portReads i = true := by decide +kernel

theorem witness_ContextCommands_4 :
  let t := 10
  let i := 0
  let x := 1
  let d : Desc := { opcode := 0x93, tag := 7, ops := opsOf [(0x10, 1, 1)] }
  let y := firstCmd (.context 0) d
  let s := (tensorState []).fetched (.context 0) d
  s.mayRun t (.context i) d y ∧ (s.found t).g9Out = false ∧ d.at 0x10 1 = x ∧ (s.found t).notMine i x = false ∧ ((s.chip.ctx x).state = 1 ∨ (s.chip.ctx x).state = 2) ∧ (s.chip.ctx x).teardown = none := by decide +kernel

theorem witness_ContextCommands_5 :
  let t := 10
  let x := 1
  let k : Teardown := { full := false, force := false, mask := [3], stageAt := 4 }
  let s := (tensorState []).withCtx 1 fun q => { q with stage := 2, teardown := some { full := false, force := false, mask := [3], stageAt := 4 } }
  (s.chip.ctx x).teardown = some k ∧ (s.chip.ctx x).stage = 2 ∧ k.full = false ∧ (s.found t).stageEnded x k = true := by decide +kernel

theorem witness_ContextCommands_6 :
  let t := 10
  let x := 1
  let k : Teardown := { full := true, force := false, mask := [3], stageAt := 4, waiters := [(.context 0, 7)] }
  let s := (tensorState []).withCtx 1 fun q => { q with stage := 5, gen := 9, state := 3, teardown := some { full := true, force := false, mask := [3], stageAt := 4, waiters := [(.context 0, 7)] } }
  (s.chip.ctx x).teardown = some k ∧ (s.chip.ctx x).stage = 5 ∧ k.full = true ∧ (s.found t).stageEnded x k = true := by decide +kernel

theorem witness_ContextCommands_7 :
  let t := 3000000
  let x := 1
  let k : Teardown := { full := false, force := false, mask := [3], stageAt := 4 }
  let s := ((tensorState []).fetched (.mule 1 3) { opcode := 1, tag := 7 }).withCtx 1 fun q => { q with stage := 2, teardown := some { full := false, force := false, mask := [3], stageAt := 4 } }
  (s.chip.ctx x).teardown = some k ∧ (s.chip.ctx x).stage = 2 ∧ k.stageAt + 2000000 ≤ max s.chip.now t := by decide +kernel

theorem witness_ContextCommands_8 :
  let t := 10
  let i := 0
  let x := 1
  let d : Desc := { opcode := 0x94, tag := 7, ops := opsOf [(0x10, 1, 1), (0x18, 8, 0x4000), (0x20, 4, 512)] }
  let y := firstCmd (.context 0) d
  let s := (tensorState []).fetched (.context 0) d
  s.mayRun t (.context i) d y ∧ (s.found t).g9Out = false ∧ d.at 0x10 1 = x ∧ x < 64 ∧ ((s.found t).ctxRecord x).length ≤ d.at 0x20 4 ∧ s.apart t (.context i) (d.at 0x18 8) ((s.found t).ctxRecord x).length := by (intro t i x d y s; (iterate 4 refine ⟨by decide +kernel, ?_⟩); refine ⟨?_, ?_⟩) <;> simp only [Chip.ctxRecord, List.length_append, length_bytesOf, List.length_replicate, List.length_cons, List.length_nil] <;> decide +kernel

theorem witness_ContextCommands_9 :
  let t := 10
  let x := 1
  let s := (tensorState []).withCtx 1 fun k => { k with conf := true }
  (s.found t).isConf x = true ∧ ((s.chip.ctx x).state = 1 ∨ (s.chip.ctx x).state = 2) := by decide +kernel

theorem witness_LinkKeysAndReadings_1 :
  let p := 3
  let far := true
  let s := State.reset.withPart 3 fun q => { q with link := { q.link with keyed := true } }
  s.alive p ∧ (s.chip.part p).link.keyed = true ∧ (far = true ∨ 2 ^ s.reg .LINKSEC_REKEY_LOG2 p ≤ Chip.maxTx (s.chip.part p).link) := by decide +kernel

theorem witness_LinkKeysAndReadings_2 :
  let t := 10
  let u := leaf2
  let k := 33
  let far := true
  let s := heldState.withAgent leaf2 fun a => { a with ports := SMap.set {} a.ports 33 { SMap.get {} a.ports 33 with link := { keyed := true } } }
  u.profile ≠ .partition ∧ k < 513 ∧ ((s.unit t u).port k).link.keyed = true ∧ (far = true ∨ 2 ^ 39 ≤ Chip.maxTx ((s.unit t u).port k).link) := by decide +kernel

theorem witness_LinkKeysAndReadings_3 :
  let t := 10
  let p := 3
  let g := 9
  let s := State.reset.withPart 3 fun q => { q with link := { q.link with keyed := true, prevOpen := true, prevUntil := some 9 } }
  s.alive p ∧ (s.chip.part p).link.prevOpen = true ∧ (s.chip.part p).link.prevUntil = some g ∧ g ≤ max s.chip.now t := by decide +kernel

theorem witness_LinkKeysAndReadings_4 :
  let i := 0
  let x := 1
  let s := (hostState.withRegs 0 [(.CONTEXT_IDENTITY_OK, 1)]).withPort 0 fun h => { h with vfs := 4 }
  s.reg .CONTEXT_IDENTITY_OK i ≠ 0 ∧ 1 ≤ x ∧ x ≤ (s.chip.hostPort i).vfs ∧ SMap.get 0 (s.chip.hostPort i).tdi x = 0 := by decide +kernel

theorem witness_LinkKeysAndReadings_5 :
  let t := 10
  let i := 0
  let n := 0
  let k := 3
  let b := bytesOf 4 77
  let s := (hostState.withRegs 0 [(.CONTEXT_IDENTITY_OK, 1)]).modChip fun c => { c with fwVersion := 77 }
  s.reg .CONTEXT_IDENTITY_OK i ≠ 0 ∧ (s.found t).measurement i n k = some b := by decide +kernel

theorem witness_LinkKeysAndReadings_6 :
  let t := 10
  let i := 0
  let x := 1
  let s := (tensorState []).withCtx 1 fun k => { k with conf := true }
  (s.found t).isConf x = true ∧ (s.chip.ctx x).port = i := by decide +kernel

theorem witness_LinkKeysAndReadings_7 :
  let t := 200000000
  let s := State.reset.withRegs 0 [(.CONTEXT_COARSE, 1)]
  s.reg .CONTEXT_CONF_RESIDENT 0 = 0 ∧ s.chip.confReleased + 100000000 ≤ max s.chip.now t / 100000000 * 100000000 := by decide +kernel

theorem witness_HostPortEvents_1 :
  let i := 0
  i < 2 := by decide +kernel

theorem witness_HostPortEvents_2 :
  let i := 0
  let s := hostState.withRegs 3 [(.ROUTE_Q_ENABLE, 1)]
  i < 2 ∧ (s.chip.ctxs.all (fun e => e.1 < 64) = true) := by decide +kernel

theorem witness_HostPortEvents_3 :
  let i := 0
  let s := hostState.withRegs 3 [(.ROUTE_Q_ENABLE, 1)]
  i < 2 ∧ (s.chip.ctxs.all (fun e => e.1 < 64) = true) := by decide +kernel

theorem witness_HostPortEvents_4 :
  let i := 0
  let x := 1
  let s := (tensorState []).withPort 0 fun h => { h with vfs := 2 }
  i < 2 ∧ 1 ≤ x ∧ x ≤ (s.chip.hostPort i).vfs ∧ x < 64 ∧ (s.chip.ctx x).state ≠ 0 ∧ (s.chip.ctx x).port = i := by decide +kernel

theorem witness_HostPortEvents_5 :
  let t := 10
  let i := 0
  let speed := 5
  let width := 16
  let vfs := 8
  let s := State.reset
  i < 2 ∧ (s.chip.hostPort i).perst = false ∧ (s.found t).portUsed i = true ∧ 1 ≤ speed ∧ speed ≤ 5 ∧ 1 ≤ width ∧ width ≤ 16 ∧ vfs ≤ 63 := by decide +kernel

theorem witness_HostPortEvents_6 :
  let i := 0
  i < 2 := by decide +kernel

theorem witness_HostPortEvents_8 :
  let t := 10
  let i := 1
  let a := 0
  let s := hostState.withRegs 0 [(.DEVICE_HOST_CFG, 2)]
  i < 2 ∧ (s.found t).isStandby i = true ∧ s.reg .DEVICE_ACTIVE_PORT 0 = a ∧ (s.chip.ctxs.all (fun e => e.1 < 64) = true) := by decide +kernel

theorem witness_HostPortEvents_9 :
  let t := 90000000000
  let a := 0
  let s := hostState.withRegs 0 [(.DEVICE_HOST_CFG, 2)]
  s.reg .DEVICE_HOST_CFG 0 = 2 ∧ s.reg .DEVICE_ACTIVE_PORT 0 = a ∧ (s.found t).isStandby (1 - a) = true ∧ s.reg .DEVICE_TAKEOVER_AUTO 0 ≠ 1 ∧ (s.chip.hostPort a).lastBeat + s.reg .DEVICE_HB_TIMEOUT 0 * 1000000 ≤ max s.chip.now t := by decide +kernel

theorem witness_HostPortEvents_10 :
  let t := 10
  let i := 0
  let a := 0x18002804
  let p := 3
  let n := 5
  let off := 4
  let s := hostState
  (s.found t).g9Out = false ∧ p = a / 0x8000000 % 16 ∧ s.alive p ∧ (s.found t).portUsed i = true ∧ (s.found t).ownerPort p = i ∧ a % 4 = 0 ∧ ((s.found t).bar4Byte a).2 = .payload n off ∧ off + 4 ≤ 2048 ∧ (s.found t).confTile p n = false := by decide +kernel

theorem witness_HostPortEvents_11 :
  let t := 10
  let i := 0
  let a := 0x18002804
  let p := 3
  let n := 5
  let off := 4
  let s := hostState
  (s.found t).g9Out = false ∧ p = a / 0x8000000 % 16 ∧ s.alive p ∧ (s.found t).portUsed i = true ∧ (s.found t).ownerPort p = i ∧ a % 4 = 0 ∧ ((List.range 4).map (fun k => ((s.found t).bar4Byte (a + k)).2) = (List.range 4).map (fun k => .payload n (off + k))) ∧ (s.found t).confTile p n = false ∧ (s.found t).opaqueTile p n = false ∧ (s.chip.part p).trace.spill = none := by decide +kernel

theorem witness_HostPortEvents_12 :
  let p := 3
  let s := State.reset.withPart 3 fun q => { q with lanesUp := true }
  s.alive p := by decide +kernel

theorem witness_HostPortEvents_13 :
  let p := 3
  p < 16 := by decide +kernel

theorem witness_RegisterWrites_1 :
  let t := 10
  let i := 0
  let a := 0x130D104
  let k := 0
  let p := 3
  let size := 4
  let v := 1
  let x := 2
  let r : Reg := .FAIL_SILENT_PERIODS
  let s := hostState
  s.reaches t i .FAIL p ∧ pageAtBar0 i a = some (.FAIL, p) ∧ a % 0x1000 < 0x800 ∧ (size = 4 ∨ size = 8) ∧ a % size = 0 ∧ (r, k) ∈ RegFile.covered (gElems .FAIL) (a % 0x1000) (8 * size) ∧ r.desc.acc = .rwb ∧ r.desc.page = .FAIL ∧ (RegFile.clampReg r (RegFile.merge r k (a % 0x1000) (8 * size) (trunc (8 * size) v) (s.chip.regs.getPending r p k))).1 = x := by decide +kernel

theorem witness_RegisterWrites_2 :
  let t := 10
  let i := 0
  let a := 0x130D020
  let p := 3
  let k := 0
  let r : Reg := .FAIL_SILENT_PERIODS
  let s := hostState.modChip fun c => { c with regs := c.regs.setPend .FAIL_SILENT_PERIODS 3 0 ⟨5, .commit, 0, false⟩ }
  s.reaches t i .FAIL p ∧ pageAtBar0 i a = some (.FAIL, p) ∧ (r, k) ∈ gElems .FAIL ∧ r.desc.page = .FAIL := by decide +kernel

theorem witness_RegisterWrites_3 :
  let p := 3
  let k := 0
  let r : Reg := .FAIL_SILENT_PERIODS
  let s := hostState.modChip fun c => { c with regs := c.regs.setPend .FAIL_SILENT_PERIODS 3 0 ⟨5, .frame, 131072, false⟩ }
  s.alive p ∧ (r, k) ∈ gElems .FAIL ∧ r.desc.page = .FAIL := by decide +kernel

theorem witness_RegisterWrites_4 :
  let t := 10
  let i := 0
  let a := 0xB950
  let n := 0
  let size := 4
  let v := 0xFFFFFFF7
  let k := 0
  let g : Page := .RESET
  let x : HostPair := ⟨0, .RESET, 0, 0x150, 4, 8, 5⟩
  let r : Reg := .RESET_PART_RESET
  let s : State := { hostState with pairs := [⟨0, .RESET, 0, 0x150, 4, 8, 5⟩] }
  n < 1024 ∧ i < 2 ∧ (s.found t).pageShut g = false ∧ (Chip.pagePart g n).filter (s.found t).bypassed = none ∧ (s.found t).mayWrite i g n = true ∧ pageAtBar0 i a = some (g, n) ∧ g ≠ .HOSTPORT ∧ g ≠ .SCHED ∧ Chip.openPair s.pairs i g n = some x ∧ a % 0x1000 = x.off + 0x800 ∧ a % 0x1000 < 0xF00 ∧ RegFile.touchesPair (gElems g) x.off (8 * size) = true ∧ (x.size = size ∧ (size = 4 ∨ size = 8) ∧ x.off % size = 0) ∧ v = compl (8 * size) x.word ∧ x.at_ ≤ max s.chip.now t ∧ max s.chip.now t ≤ x.at_ + 1000 ∧ (r, k) ∈ RegFile.covered (gElems g) x.off (8 * size) ∧ r.desc.acc = .rwp ∧ (g = .PARTITION → SMap.find? s.chip.regs.pend (r.key n k) = none) := by decide +kernel

theorem witness_RegisterWrites_5 :
  let t := 10
  let i := 0
  let a := 0x1300914
  let p := 3
  let size := 4
  let v := 0xFFFFFFFB
  let m := 5
  let x : HostPair := ⟨0, .PARTITION, 3, 0x114, 4, 4, 5⟩
  let r : Reg := .PARTITION_GROUP_RESET
  let y : Pend := ⟨1, .commit, 0, false⟩
  let s : State := { (hostState.modChip fun c => { c with regs := c.regs.setPend .PARTITION_GROUP_RESET 3 0 ⟨1, .commit, 0, false⟩ }) with pairs := [⟨0, .PARTITION, 3, 0x114, 4, 4, 5⟩] }
  p < 16 ∧ i < 2 ∧ (s.found t).pageShut .PARTITION = false ∧ (Chip.pagePart .PARTITION p).filter (s.found t).bypassed = none ∧ (s.found t).mayWrite i .PARTITION p = true ∧ pageAtBar0 i a = some (.PARTITION, p) ∧ (r = .PARTITION_GROUP_RESET ∨ r = .PARTITION_CORE_RESET) ∧ SMap.find? s.chip.regs.pend (r.key p 0) = some y ∧ Chip.openPair s.pairs i .PARTITION p = some x ∧ a % 0x1000 = 0x914 ∧ x.off = 0x114 ∧ x.size = 4 ∧ size = 4 ∧ v = compl 32 x.word ∧ x.at_ ≤ max s.chip.now t ∧ max s.chip.now t ≤ x.at_ + 1000 ∧ y.v ||| (RegFile.clampReg r (RegFile.merge r 0 0x114 32 x.word y.v)).1 = m := by decide +kernel

theorem witness_RegisterWrites_6 :
  let t := 2000
  let i := 0
  let a := 0xB950
  let n := 0
  let g : Page := .RESET
  let x : HostPair := ⟨0, .RESET, 0, 0x150, 4, 8, 5⟩
  let s : State := { hostState with pairs := [⟨0, .RESET, 0, 0x150, 4, 8, 5⟩] }
  i < 2 ∧ pageAtBar0 i a = some (g, n) ∧ Chip.openPair s.pairs i g n = some x ∧ x.at_ + 1000 < max s.chip.now t := by decide +kernel

theorem witness_RegisterWrites_7 :
  let t := 10
  let i := 0
  let a := 0x130D024
  let p := 3
  let k := 0
  let r : Reg := .FAIL_DETECTIONS
  let s := hostState.withRegs 3 [(.FAIL_DETECTIONS, 9)]
  s.reaches t i .FAIL p ∧ pageAtBar0 i a = some (.FAIL, p) ∧ (s.found t).stageOf p < 2 ∧ (r, k) ∈ gElems .FAIL ∧ r.desc.counter = true := by decide +kernel

theorem witness_RegisterWrites_8 :
  let t := 10
  let i := 0
  let a := 0x130D018
  let p := 3
  let v := 5
  let s := hostState.modChip fun c => c.setReg .COMMON_INT_STATUS 3 Page.FAIL.ctorIdx 7
  s.reaches t i .FAIL p ∧ pageAtBar0 i a = some (.FAIL, p) ∧ v < 2 ^ 31 := by decide +kernel

theorem witness_RegisterWrites_9 :
  let t := 10
  let i := 0
  let s := hostState.withRegs 0 [(.DEVICE_HOST_CFG, 2)]
  s.reaches t i .HOSTPORT i ∧ s.reg .DEVICE_HOST_CFG 0 = 2 ∧ s.reg .DEVICE_ACTIVE_PORT 0 = i := by decide +kernel

theorem witness_QueueRegisters_1 :
  let t := 10
  let i := 0
  let p := 3
  let v := 1
  let s := hostState.withRegs 3 [(.ROUTE_Q_BASE, 0x1000), (.ROUTE_CQ_BASE, 0x2000), (.ROUTE_Q_ENABLE, 1)]
  s.reaches t i .ROUTE p ∧ p < 16 ∧ v < 2 ^ s.reg .ROUTE_Q_LOG2 p ∧ 6 ≤ s.reg .ROUTE_Q_LOG2 p ∧ s.reg .ROUTE_Q_LOG2 p ≤ 15 ∧ s.reg .ROUTE_Q_TAIL p < 65536 ∧ (s.found t).cmdsOf (.route p) = [] ∧ ((s.found t).setQ (.route p) .tail v).mayFetch (.route p) = true := by decide +kernel

theorem witness_QueueRegisters_2 :
  let t := 10
  let i := 0
  let p := 3
  let s := hostState.withRegs 3 [(.ROUTE_Q_HEAD, 4), (.ROUTE_Q_TAIL, 4)]
  s.reaches t i .ROUTE p ∧ s.reg .ROUTE_Q_ENABLE p = 0 ∧ s.reg .ROUTE_Q_BASE p < 2 ^ 64 := by decide +kernel

theorem witness_QueueRegisters_3 :
  let t := 10
  let i := 0
  let p := 3
  let s := hostState.withRegs 3 [(.ROUTE_CQ_HEAD, 4), (.ROUTE_CQ_TAIL, 4)]
  s.reaches t i .ROUTE p ∧ p < 16 ∧ s.reg .ROUTE_Q_ENABLE p = 0 ∧ s.reg .ROUTE_CQ_BASE p < 2 ^ 64 := by decide +kernel

theorem witness_QueueRegisters_4 :
  let t := 10
  let i := 0
  let p := 3
  let s := hostState
  s.reaches t i .ROUTE p ∧ s.reg .ROUTE_Q_ENABLE p ≤ 1 := by decide +kernel

theorem witness_QueueRegisters_5 :
  let t := 10
  let i := 0
  let p := 3
  let v := 1
  let s := hostState
  s.reaches t i .ROUTE p ∧ v < 2 ^ s.reg .ROUTE_CQ_LOG2 p ∧ 6 ≤ s.reg .ROUTE_CQ_LOG2 p ∧ s.reg .ROUTE_CQ_LOG2 p ≤ 15 ∧ s.reg .ROUTE_CQ_HEAD p < 65536 := by decide +kernel

theorem witness_QueueRegisters_6 :
  let t := 10
  let tag := 7
  let i : QId := .route 3
  let x := firstCmd (.route 3) { opcode := 0x50, tag := 7 }
  let s := hostState.fetched (.route 3) { opcode := 0x50, tag := 7 }
  i.ringed = true ∧ (s.found t).cmdOf i tag = some x ∧ (s.found t).recordLost (x.port.getD ((s.found t).queuePort i)) = false := by decide +kernel

theorem witness_QueueRegisters_7 :
  let t := 10
  let p := 3
  let x := 1
  let tag := 7
  let y := firstCmd (.mule 1 3) { opcode := 0x20, tag := 7 }
  let s := (tensorState []).fetched (.mule 1 3) { opcode := 0x20, tag := 7 }
  p < 16 ∧ x < 64 ∧ s.chip.isConf x = false ∧ (s.found t).cmdOf (.mule x p) tag = some y ∧ (s.found t).recordLost (y.port.getD ((s.found t).queuePort (.mule x p))) = false := by decide +kernel

theorem witness_QueueRegisters_8 :
  let t := 20000010
  let p := 0
  let tag := 7
  let b := 10000000
  let x := firstCmd (.context 0) { opcode := 0x90, tag := 7 }
  let s := hostState.fetched (.context 0) { opcode := 0x90, tag := 7 }
  (s.found t).cmdOf (.context p) tag = some x ∧ Chip.contextBound x.d.opcode = some b ∧ x.started.getD x.fetched + b ≤ max s.chip.now t ∧ (s.found t).recordLost (x.port.getD p) = false := by decide +kernel

theorem witness_ProgramsOnCores_1 :
  let t := 10
  let p := 3
  let k := 2
  let x := 1
  let a := 0x1000040
  let n := 0
  let g : Prog := { state := 2, data := 20 }
  let s := coreState { data := 20 }
  s.runsOn t p k x ∧ a % 64 = 0 ∧ 0x1000000 ≤ a ∧ a < 0x1800000 ∧ n < 2 ∧ (s.chip.ctx x).state ≠ 3 ∧ (n = 1 ∨ s.reg .PARTITION_MIOBOR_VACANT p ≠ 1) ∧ (s.found t).prog p x k = g ∧ (s.found t).outstanding p x k < 16 ∧ (s.found t).outstanding p x k + Chip.unread g + 1 ≤ 2 ^ g.log2 := by decide +kernel

theorem witness_ProgramsOnCores_2 :
  let t := 10
  let p := 3
  let k := 2
  let x := 1
  let a := 5
  let g : Prog := { state := 2, tail := 3 }
  let s := coreState { tail := 3 }
  s.runsOn t p k x ∧ (s.found t).prog p x k = g ∧ (Chip.unread g ≠ 0 ∨ a = 0) := by decide +kernel

theorem witness_ProgramsOnCores_3 :
  let t := 10
  let p := 3
  let k := 2
  let x := 1
  let a := 5
  let g : Prog := { state := 2 }
  let s := coreState {}
  s.runsOn t p k x ∧ (s.found t).prog p x k = g ∧ Chip.unread g = 0 ∧ a ≠ 0 := by decide +kernel

theorem witness_ProgramsOnCores_4 :
  let t := 10
  let p := 3
  let k := 2
  let x := 1
  let b := 9
  let g : Prog := { state := 2, waitTill := some 9 }
  let s := coreState { waitTill := some 9 }
  s.alive p ∧ k < 4 ∧ x < 64 ∧ (s.found t).prog p x k = g ∧ g.state = 2 ∧ g.waitTill = some b ∧ (Chip.unread g ≠ 0 ∨ b ≤ max s.chip.now t) := by decide +kernel

theorem witness_ProgramsOnCores_5 :
  let t := 10
  let p := 3
  let k := 2
  let x := 1
  let y := 1
  let s := coreState {}
  s.runsOn t p k x ∧ bit (s.reg .PARTITION_CORES_VACANT p) k = false ∧ SMap.find? (s.chip.part p).stops (0x20 + k) = none ∧ (s.chip.part p).haltWait.contains k = false ∧ (Chip.mioNext ((List.range 64).filter fun z => (s.found t).runnable p z k) x = some y) := by decide +kernel

theorem witness_ProgramsOnCores_6 :
  let t := 2000000
  let p := 3
  let k := 2
  let x := 1
  let y := 1
  let s := coreState {}
  s.runsOn t p k x ∧ SMap.get 0 (s.chip.part p).coreSince k + 1000 * s.reg .CORES_USER_QUANTUM p ≤ max s.chip.now t ∧ bit (s.reg .PARTITION_CORES_VACANT p) k = false ∧ SMap.find? (s.chip.part p).stops (0x20 + k) = none ∧ (s.chip.part p).haltWait.contains k = false ∧ (Chip.mioNext ((List.range 64).filter fun z => (s.found t).runnable p z k) x = some y) := by decide +kernel

theorem witness_ProgramsOnCores_7 :
  let t := 10
  let p := 3
  let k := 2
  let x := 1
  let s := coreState {}
  s.runsOn t p k x := by decide +kernel

theorem witness_ProgramsOnCores_8 :
  let t := 10
  let p := 3
  let k := 2
  let x := 1
  let s := coreState {}
  s.runsOn t p k x := by decide +kernel

theorem witness_ProgramsOnCores_9 :
  let t := 10
  let p := 3
  let k := 2
  let x := 1
  let v := 0x1045
  let s := coreState { tail := 3 }
  s.runsOn t p k x ∧ 4 ≤ v % 16 ∧ v % 16 ≤ 10 ∧ (s.found t).outstanding p x k = 0 := by decide +kernel

theorem witness_ProgramsOnCores_10 :
  let t := 10
  let p := 3
  let k := 2
  let x := 1
  let n := 4
  let text := 0
  let data := 0
  let bss := 0
  let stack := 0
  let b := List.replicate 36 1
  let y : Section := { ctx := 1, typ := 5, num := 2, job := 0, body := .code 4 0 0 0 0 (List.replicate 36 1), imageId := 0, imageVer := 0, sram := 30, len := 36 }
  let s := (tensorState []).withPart 3 fun q => { q with sections := [{ ctx := 1, typ := 5, num := 2, job := 0, body := .code 4 0 0 0 0 (List.replicate 36 1), imageId := 0, imageVer := 0, sram := 30, len := 36 }] }
  s.alive p ∧ k < 4 ∧ x < 64 ∧ (s.found t).codeOf p x k = some y ∧ y.body = .code n text data bss stack b ∧ (s.found t).residentIn x p = true ∧ bit (s.reg .PARTITION_CORES_VACANT p) k = false ∧ ((s.found t).prog p x k).state ≠ 2 := by decide +kernel

theorem witness_ProgramsOnCores_11 :
  let t := 10
  let p := 3
  let k := 2
  let x := 1
  let s := coreState {}
  s.alive p ∧ k < 4 ∧ x < 64 ∧ ((s.found t).prog p x k).state = 2 := by decide +kernel

theorem witness_ProgramsOnCores_12 :
  let t := 10
  let p := 3
  let k := 2
  let x := 1
  let s := coreState {}
  s.runsOn t p k x ∧ bit (s.reg .PARTITION_CORES_VACANT p) k = false ∧ SMap.find? (s.chip.part p).stops (0x20 + k) = none ∧ (((SMap.get [] (s.chip.part p).coreResets k).filter fun a => max s.chip.now t < a + 60000000000).length < 2) := by decide +kernel

theorem witness_ProgramsOnCores_13 :
  let p := 3
  let s := State.reset
  s.alive p := by decide +kernel

theorem witness_MuleCommands_1 :
  let t := 10
  let p := 3
  let x := 1
  let d := muleDesc 0x20 20 30 2 5 0 0 1
  let y := firstCmd (.mule 1 3) d
  let o := MuOps.ofDesc d
  let s := (tensorState [] [tile1 20, tile1 21, tile1 30, tile1 31]).fetched (.mule 1 3) d
  d.opcode = 0x20 ∧ s.muleRuns t p x d y o := by decide +kernel

theorem witness_MuleCommands_2 :
  let t := 10
  let p := 3
  let x := 1
  let d := muleDesc 0x21 0x8000 30 1 5 3 0x7FF 1
  let y := firstCmd (.mule 1 3) d
  let o := MuOps.ofDesc d
  let s := ((tensorState [] [tile1 30]).modChip fun c => c.setHostByte 0 0x8001 7).fetched (.mule 1 3) d
  d.opcode = 0x21 ∧ s.muleRuns t p x d y o ∧ s.chip.portReads (s.chip.ctx x).port = true := by decide +kernel

theorem witness_MuleCommands_3 :
  let t := 10
  let p := 3
  let x := 1
  let d := muleDesc 0x22 20 0x8000 2 5 0 0 1
  let y := firstCmd (.mule 1 3) d
  let o := MuOps.ofDesc d
  let s := (tensorState [] [tile1 20, tile1 21]).fetched (.mule 1 3) d
  d.opcode = 0x22 ∧ s.muleRuns t p x d y o ∧ s.chip.portReads (s.chip.ctx x).port = true ∧ s.apart t (.mule x p) o.dst (o.count * o.hostSize) := by decide +kernel

theorem witness_MuleCommands_4 :
  let t := 10
  let p := 3
  let x := 1
  let d := muleDesc 0x23 0 30 1 5 3 0x7FF 1
  let y := firstCmd (.mule 1 3) d
  let o := MuOps.ofDesc d
  let s := (tensorState [] [tile1 30]).fetched (.mule 1 3) d
  d.opcode = 0x23 ∧ s.muleRuns t p x d y o := by decide +kernel

theorem witness_MuleCommands_5 :
  let t := 10
  let p := 3
  let x := 1
  let d := muleDesc 0x24 0 30 2 5 3 0x7FF 1
  let y := firstCmd (.mule 1 3) d
  let o := MuOps.ofDesc d
  let s := (tensorState [] [tile1 30, tile1 31]).fetched (.mule 1 3) d
  d.opcode = 0x24 ∧ s.muleRuns t p x d y o := by decide +kernel

theorem witness_MuleCommands_6 :
  let t := 10
  let p := 3
  let x := 1
  let d := muleDesc 0x25 20 0 1 0 7 0 1
  let y := firstCmd (.mule 1 3) d
  let o := MuOps.ofDesc d
  let s := (tensorState [] [tile1 20]).fetched (.mule 1 3) d
  d.opcode = 0x25 ∧ s.muleRuns t p x d y o := by decide +kernel

theorem witness_MuleCommands_8 :
  let t := 10
  let p := 3
  let n := 61505
  let x := 1
  let s := State.reset.modChip fun c => ((c.setReg .MIOBOR_TTAB_VALID 3 1 1).setReg .MIOBOR_TTAB_FIRST_TILE 3 1 61504).setReg .MIOBOR_TTAB_TILES 3 1 64
  s.alive p ∧ (s.found t).tableAt p n = some x ∧ s.chip.isConf x = false ∧ s.reg .MIOBOR_TTAB_FIRST_TILE p x = Chip.ttabBase x ∧ (s.found t).tileVacant p n = false := by decide +kernel

theorem witness_ClusterTimeAndPps_1 :
  let t := 1000
  let rc : Nat := 900
  let sp : Nat := 880
  let rp : Nat := 870
  let sc : Nat := 860
  let p := 0
  let a : Int × Nat := (32, 700)
  let b : Int × Nat := (16, 800)
  let s := (State.reset.withRegs 0 [(.DEVICE_ROLE, 1), (.DEVICE_CLUSTER_INDEX, 1)]).modChip fun c => { c with clusters := [0, 1], mgr := 0, time := { c.time with leg1 := [(0, (32, 700))], leg3 := [(0, (16, 800))] } }
  let m : Int := (a.1 + 8 * (((rc : Int) - sp) - ((rp : Int) - sc)) - b.1)
  s.chip.isManager = false ∧ s.reg .DEVICE_LEAD 0 < 16 ∧ (s.chip.time.tried.any (fun a => decide (max s.chip.now t < a + 1000000)) = false) ∧ (s.found t).legPart = some p ∧ SMap.find? s.chip.time.leg1 p = some a ∧ SMap.find? s.chip.time.leg3 p = some b ∧ max (max a.2 b.2) rc ≤ min (min a.2 b.2) rc + 500000 ∧ Chip.meanOf (lastN 16 (s.chip.time.thetas ++ [a.1 + 8 * (((rc : Int) - sp) - ((rp : Int) - sc)) - b.1])) = m := by decide +kernel

theorem witness_ClusterTimeAndPps_2 :
  let t := 1000
  let p := 3
  let src := 0xFF003
  let g := 0
  let k := 43
  let s := (State.reset.withRegs 0 [(.DEVICE_ROLE, 1), (.DEVICE_CLUSTER_INDEX, 1)]).modChip fun c => { c with clusters := [0, 1], mgr := 0 }
  s.alive p ∧ (s.found t).parentOf (s.chip.clusterIndex) = some (g, k) ∧ src = 0xFF000 + 16 * g + p := by decide +kernel

theorem witness_ClusterTimeAndPps_3 :
  let t := 3000001
  let s := State.reset.withRegs 0 [(.DEVICE_ROLE, 1), (.TIME_STATE, 1)]
  s.chip.isManager = false ∧ s.reg .TIME_STATE 0 = 1 ∧ s.chip.time.lastSet + 3000000 ≤ max s.chip.now t := by decide +kernel

theorem witness_ClusterTimeAndPps_4 :
  let t := 10
  let i := 0
  let s := hostState.withRegs 0 [(.TIME_SET_TIME_HI, 3), (.TIME_SET_TIME_LO, 9)]
  s.reaches t i .TIME 0 ∧ s.chip.isManager = true ∧ s.reg .TIME_SET_AT_PPS 0 ≠ 1 := by decide +kernel

theorem witness_ClusterTimeAndPps_5 :
  let t := 10
  let i := 0
  let s := hostState.withRegs 0 [(.TIME_SET_TIME_HI, 3), (.TIME_SET_AT_PPS, 1)]
  s.reaches t i .TIME 0 ∧ s.chip.isManager = true ∧ s.reg .TIME_SET_AT_PPS 0 = 1 := by decide +kernel

theorem witness_ClusterTimeAndPps_6 :
  let t := 999999990
  let s := State.reset
  (∀ l, s.chip.time.ppsLast = some l → 999000000 ≤ max s.chip.now t - l ∧ max s.chip.now t - l ≤ 1001000000) ∧ s.chip.time.setAtPps = [] := by decide +kernel

theorem witness_ClusterTimeAndPps_7 :
  let v := 55
  let s := State.reset.modChip fun c => { c with time := { c.time with setAtPps := [55] } }
  s.chip.time.ppsLast = none ∧ s.chip.time.setAtPps = [v] := by decide +kernel

theorem witness_ClusterTimeAndPps_8 :
  let t := 1000
  let l := 5
  let s := State.reset.modChip fun c => { c with time := { c.time with ppsLast := some 5 } }
  s.chip.time.ppsLast = some l ∧ max s.chip.now t < l + 999000000 := by decide +kernel

theorem witness_ClusterTimeAndPps_9 :
  let t := 1500000005
  let s := State.reset.withRegs 0 [(.TIME_PPS_IN_EN, 1)]
  s.chip.isManager = true ∧ s.reg .TIME_PPS_IN_EN 0 ≠ 0 ∧ s.chip.time.ppsLost = false ∧ s.chip.time.ppsLast.getD 0 + 1500000000 ≤ max s.chip.now t := by decide +kernel

theorem witness_ClusterTimeAndPps_10 :
  let t := 3000000000
  let s := State.reset
  s.reg .TIME_PPS_OUT_EN 0 = 1 ∧ max s.chip.now t % 1000000000 = 0 := by decide +kernel

theorem witness_ClusterTimeAndPps_11 :
  let t := 10
  let p := 3
  let r := 1
  let s := State.reset.withPart 3 fun q => { q with stops := [(1, (5, some 3))] }
  (r ≠ 0x50 ∧ (r < 0x20 ∨ 0x24 ≤ r)) ∧ (SMap.find? (s.chip.part p).stops r).isSome = true ∧ (s.found t).regionHeld p r = false := by decide +kernel

theorem witness_Capture_1 :
  let t := 10
  let i := 0
  let p := 3
  let s := hostState.withRegs 3 [(.TRACE_TRACE_MODE, 2)]
  s.reaches t i .TRACE p ∧ s.reg .TRACE_TRACE_MODE p ≠ 0 := by decide +kernel

theorem witness_Capture_2 :
  let t := 10
  let i := 0
  let p := 3
  let s := hostState.withRegs 3 [(.TRACE_STATE, 1)]
  s.reaches t i .TRACE p ∧ (s.reg .TRACE_STATE p = 1 ∨ s.reg .TRACE_STATE p = 2 ∨ s.reg .TRACE_STATE p = 4) := by decide +kernel

theorem witness_Capture_3 :
  let t := 10
  let i := 0
  let p := 3
  let s := hostState.withRegs 3 [(.TRACE_STATE, 1), (.TRACE_TRIG_SRC, 1)]
  s.reaches t i .TRACE p ∧ bit (s.reg .TRACE_TRIG_SRC p) 0 = true ∧ s.reg .TRACE_STATE p = 1 := by decide +kernel

theorem witness_Capture_4 :
  let t := 10
  let p := 3
  let s := hostState.withRegs 3 [(.TRACE_STATE, 1), (.TRACE_TRIG_SRC, 4)]
  s.alive p ∧ bit (s.reg .TRACE_TRIG_SRC p) 2 = true ∧ s.reg .TRACE_STATE p = 1 ∧ s.reg .TRACE_TRIG_TIME_LO p + s.reg .TRACE_TRIG_TIME_HI p * 2 ^ 32 ≤ max s.chip.now t := by decide +kernel

theorem witness_Capture_5 :
  let p := 3
  let s := hostState.withRegs 3 [(.TRACE_STATE, 1), (.TRACE_TRIG_SRC, 32)]
  s.alive p ∧ s.chip.locked p = false ∧ bit (s.reg .TRACE_TRIG_SRC p) 5 = true ∧ s.reg .TRACE_STATE p = 1 := by decide +kernel

theorem witness_Capture_6 :
  let p := 3
  let s := hostState.withRegs 3 [(.TRACE_STATE, 1), (.TRACE_TRIG_SRC, 2)]
  s.alive p ∧ bit (s.reg .TRACE_TRIG_SRC p) 1 = true ∧ s.reg .TRACE_STATE p = 1 := by decide +kernel

theorem witness_Capture_7 :
  let t := 10
  let p := 3
  let b := [1, 2, 3]
  let x : Stream := { on := true, cap := 4096 }
  let s := State.reset.modChip fun c => c.setStream 3 true { on := true, cap := 4096 }
  s.alive p ∧ s.chip.stream p true = x ∧ x.on = true ∧ x.stopped = false ∧ x.stageCap = 0 ∧ x.quota = none ∧ (s.chip.part p).trace.suspended = 0 ∧ s.reg .TRACE_CAPTURE p = 0 ∧ x.high = (max s.chip.now t) >>> 44 ∧ x.sinceBase < 65536 ∧ x.written + b.length ≤ x.cap := by decide +kernel

theorem witness_Capture_8 :
  let p := 3
  let n := 5
  let a := 4
  let x : Stream := { on := true, cap := 4096, stageCap := 2048, run := some (5, 4) }
  let s := State.reset.modChip fun c => c.setStream 3 true { on := true, cap := 4096, stageCap := 2048, run := some (5, 4) }
  s.alive p ∧ s.chip.stream p true = x ∧ x.run = some (n, a) ∧ x.stage = [] ∧ x.stageCap ≠ 0 := by decide +kernel

theorem witness_Capture_9 :
  let p := 3
  let s := (State.reset.withRegs 3 [(.TRACE_STATE, 2)]).modChip fun c => c.setStream 3 true { on := true, stopped := true }
  s.alive p ∧ (s.reg .TRACE_STATE p = 1 ∨ s.reg .TRACE_STATE p = 2 ∨ s.reg .TRACE_STATE p = 4) ∧ (s.chip.stream p true).stopped = true ∧ (s.chip.stream p true).stage = [] ∧ (s.chip.stream p false).on = false := by decide +kernel

theorem witness_Capture_10 :
  let t := 10
  let i := 0
  let p := 3
  let l := [1, 2, 3, 4, 5, 6, 7, 8]
  let s := (hostState.withRegs 3 [(.TRACE_NATIVE_SHARE, 16)]).modChip fun c => c.setStream 3 true { on := true, cap := 4096, ring := [(0, [1, 2, 3, 4, 5, 6, 7, 8])], written := 8 }
  (s.found t).pageShut .TRACE = false ∧ s.alive p ∧ (s.found t).mayReach i .TRACE p = true ∧ s.reg .TRACE_RD_ADDR p % 8 = 0 ∧ ((List.range 8).map (fun k => (s.found t).traceByte p (s.reg .TRACE_RD_ADDR p + k)) = l.map some) := by decide +kernel

theorem witness_Capture_11 :
  let t := 10
  let i := 0
  let p := 3
  let k := 0
  let r : Reg := .FAIL_DETECTIONS
  let s := hostState.withRegs 3 [(.FAIL_DETECTIONS, 9)]
  s.reaches t i .COUNTERS 0 ∧ p < 16 ∧ (s.found t).snapMisses p = false ∧ (r, k) ∈ gElems .FAIL ∧ r.desc.counter = true := by decide +kernel

theorem witness_Capture_12 :
  let t := 10
  let p := 3
  let k := 0
  let r : Reg := .FAIL_DETECTIONS
  let s := (hostState.withRegs 3 [(.FAIL_DETECTIONS, 9)]).withRegs 0 [(.COUNTERS_SNAP_ARM, 1), (.COUNTERS_SNAP_STATE, 1)]
  s.reg .COUNTERS_SNAP_ARM 0 = 1 ∧ s.reg .COUNTERS_SNAP_STATE 0 ≠ 3 ∧ s.reg .COUNTERS_SNAP_TIME_LO 0 + s.reg .COUNTERS_SNAP_TIME_HI 0 * 2 ^ 32 ≤ max s.chip.now t ∧ p < 16 ∧ (s.found t).snapMisses p = false ∧ (r, k) ∈ gElems .FAIL ∧ r.desc.counter = true := by decide +kernel

theorem witness_Capture_13 :
  let t := 10
  let p := 3
  let k := 2
  let x := 1
  let s := coreState {}
  s.runsOn t p k x ∧ s.chip.locked p = false := by decide +kernel

theorem witness_Capture_14 :
  let p := 3
  let k := 2
  let x := (1, 5)
  let s := (coreState {}).withPart 3 fun q => { q with halts := [(2, (1, 5))] }
  s.alive p ∧ k < 4 ∧ SMap.find? (s.chip.part p).halts k = some x := by decide +kernel

theorem witness_HangsAndUnitResets_1 :
  let t := 10
  let p := 3
  let r : GooseNode := {}
  let s := State.reset.withRegs 3 [(.GOOSE_AUTO_BREAK, 0)]
  let w := (s.found 10).gooseWait 3 0
  s.alive p ∧ s.reg .GOOSE_AUTO_BREAK p = 0 ∧ (s.found t).gooseWait p 0 = w ∧ s.chip.gooseRec p 0 = r := by decide +kernel

theorem witness_HangsAndUnitResets_2 :
  let t := 10
  let p := 3
  let src := 0xFF001
  let tag := 9
  let n := 2
  let z := 513
  let h : Nat × Nat × Nat := (5, 0, 2)
  let l : List (Nat × Nat × Nat) := [(129, 4, 1)]
  let s := State.reset.withPart 3 fun q => { q with requests := [{ dst := 0xFF004, msg := { type := 0x80, tag := 5 }, sentAt := 2, ref := 0 }], goose := [(2, { stuck := 3 })] }
  s.alive p ∧ s.freshAt t p src tag ∧ n < 128 ∧ l.length < 64 ∧ (s.found t).gooseHead p n = some h ∧ (s.chip.gooseRec p n).stuck ≠ 0 ∧ (s.found t).gooseWait p n = (3, z) ∧ (z ≠ s.chip.nodeId p n ∧ l.all (fun e => e.1 != z) = true) := by decide +kernel

theorem witness_HangsAndUnitResets_3 :
  let t := 100000000000
  let p := 3
  let tag := 7
  let a := 5
  let i : QId := .compute 1 3
  let s := ((tensorState []).fetched (.compute 1 3) (mioDesc 0x10 [0, 1, 2] 0 1 1 1 0)).modChip (fun c => { c with cmds := c.cmds.map fun y => { y with started := some 5 } })
  let y := { firstCmd (.compute 1 3) (mioDesc 0x10 [0, 1, 2] 0 1 1 1 0) with started := some 5 }
  s.alive p ∧ i.part = some p ∧ (s.found t).cmdOf i tag = some y ∧ y.started = some a ∧ (s.found t).kept y = false ∧ a + (s.found t).limitOf y + 1000000 ≤ max s.chip.now t ∧ i.toMule = false ∧ y.isMio = true := by decide +kernel

theorem witness_HangsAndUnitResets_4 :
  let t := 100000000000
  let p := 3
  let tag := 7
  let a := 5
  let i : QId := .mule 1 3
  let s := ((tensorState []).fetched (.mule 1 3) (muleDesc 0x25 20 0 1 0 7 0 1)).modChip (fun c => { c with cmds := c.cmds.map fun y => { y with started := some 5 } })
  let y := { firstCmd (.mule 1 3) (muleDesc 0x25 20 0 1 0 7 0 1) with started := some 5 }
  s.alive p ∧ i.part = some p ∧ (s.found t).cmdOf i tag = some y ∧ y.started = some a ∧ (s.found t).kept y = false ∧ a + (s.found t).limitOf y + 1000000 ≤ max s.chip.now t ∧ i.toMule = true := by decide +kernel

theorem witness_HangsAndUnitResets_5 :
  let p := 3
  let k := 2
  let s := coreState {}
  s.alive p ∧ k < 4 ∧ bit (s.reg .PARTITION_CORES_VACANT p) k = false := by decide +kernel

theorem witness_HangsAndUnitResets_6 :
  let p := 3
  let k := 2
  let s := State.reset
  s.alive p ∧ k < 8 := by decide +kernel

theorem witness_HangsAndUnitResets_7 :
  let p := 3
  let s := State.reset
  s.alive p := by decide +kernel

theorem witness_HangsAndUnitResets_8 :
  let t := 10
  let p := 3
  let b := 31
  let s := State.reset
  p < 16 ∧ b < 32 ∧ (s.found t).outOfService p = false ∧ bit (s.reg .PARTITION_BANKS_VACANT p) b = false := by decide +kernel

theorem witness_HangsAndUnitResets_9 :
  let t := 10
  let p := 3
  let k := 3
  let s := coreState {}
  p < 16 ∧ k < 4 ∧ (s.found t).outOfService p = false ∧ bit (s.reg .PARTITION_CORES_VACANT p) k = false := by decide +kernel

theorem witness_PartitionResets_1 :
  let p := 3
  let s := coreState {}
  s.alive p := by decide +kernel

theorem witness_PartitionResets_2 :
  let t := 10
  let p := 3
  let cause := 5
  let s := coreState {}
  s.alive p ∧ (cause = 2 ∨ cause = 3 ∨ cause = 4 ∨ cause = 5 ∨ cause = 9) ∧ (((SMap.get [] s.chip.faults p).filter fun a => max s.chip.now t < a + 600000000000).length < 2) := by decide +kernel

theorem witness_PartitionResets_3 :
  let t := 10
  let p := 3
  let cause := 5
  let s := (coreState {}).modChip fun c => { c with faults := [(3, [1, 2])] }
  s.alive p ∧ (cause = 2 ∨ cause = 3 ∨ cause = 4 ∨ cause = 5 ∨ cause = 9) ∧ (2 ≤ ((SMap.get [] s.chip.faults p).filter fun a => max s.chip.now t < a + 600000000000).length) := by decide +kernel

theorem witness_PartitionResets_4 :
  let t := 100
  let p := 3
  let s := State.reset.modChip fun c => ((c.partState 3 2 2).setReg .RING_BYPASS 0 0 8)
  p < 16 ∧ s.reg .RESET_PART_STATE 0 p = 2 ∧ (s.reg .BOOT_BOOT_STAGE 0 = 0 ∨ s.reg .BOOT_BOOT_STAGE 0 = 5) ∧ s.reg .THERMAL_TRIPPED 0 ≠ 1 ∧ (s.chip.part p).bist = false ∧ (s.found t).railsHold = true := by decide +kernel

theorem witness_PartitionResets_5 :
  let t := 4000000000
  let p := 3
  let s := State.reset.modChip fun c => ((c.partState 3 2 2).setReg .RING_BYPASS 0 0 8)
  p < 16 ∧ s.reg .RESET_PART_STATE 0 p = 2 ∧ (s.reg .BOOT_BOOT_STAGE 0 = 0 ∨ s.reg .BOOT_BOOT_STAGE 0 = 5) ∧ s.reg .PARTITION_LAST_RESET_AT p + 3000000000 ≤ max s.chip.now t ∧ (s.chip.part p).bist = false ∧ (s.chip.part p).bistEnd ≤ s.reg .PARTITION_LAST_RESET_AT p ∧ (((SMap.get [] s.chip.faults p).filter fun a => max s.chip.now t < a + 600000000000).length < 2) := by decide +kernel

theorem witness_PartitionResets_6 :
  let t := 10
  let i := 0
  let p := 3
  let s := hostState.modChip fun c => { (c.partState 3 3 0) with mram := { c.mram with partsOut := [3] } }
  s.reaches t i .RESET 0 ∧ p < 16 ∧ s.reg .DEVICE_HOST_CFG 0 ≠ 3 ∧ s.reg .RESET_PART_STATE 0 p = 3 ∧ s.chip.g9Out = false := by decide +kernel

theorem witness_DeviceResetsAndCluster_1 :
  let kind := 1
  let s := readyState
  (kind = 1 ∨ kind = 2) ∧ s.chip.g9Out = false := by decide +kernel

theorem witness_DeviceResetsAndCluster_2 :
  let t := 10
  let i := 0
  let p := 3
  let s := (hostState.withRegs 0 [(.RESET_DEVICE_STATE, 2)]).modChip fun c => { c with outPowered := true }
  s.reaches t i .RESET 0 ∧ s.chip.g9Out = true ∧ s.chip.outPowered = true ∧ p < 16 := by decide +kernel

theorem witness_DeviceResetsAndCluster_3 :
  let s := State.reset.withRegs 0 [(.DEVICE_ROLE, 1), (.BOOT_BLOB_DEFAULTED, 0)]
  s.chip.isManager = false ∧ s.chip.leadPart < 16 ∧ s.chip.leadRuns = true ∧ SMap.find? s.chip.beats 64 = none ∧ s.reg .BOOT_BLOB_DEFAULTED 0 = 0 ∧ ((s.chip.part s.chip.leadPart).link.tx.all (fun e => decide (e.2 < 2 ^ 40)) = true) := by decide +kernel

theorem witness_DeviceResetsAndCluster_4 :
  let p := 0
  let n := 2
  let s := State.reset.modChip fun c => { c with down := [2] }
  s.alive p ∧ p = s.chip.leadPart ∧ n < 32 := by decide +kernel

theorem witness_DeviceResetsAndCluster_5 :
  let t := 50000010
  let n := 2
  let a := 5
  let s := State.reset.modChip fun c => { c with beats := [(2, 5)] }
  s.chip.isManager = true ∧ n < 64 ∧ s.chip.leadPart < 16 ∧ s.chip.leadRuns = true ∧ SMap.find? s.chip.beats n = some a ∧ a + 50000000 ≤ max s.chip.now t ∧ s.chip.down.contains n = false := by decide +kernel

theorem witness_DeviceResetsAndCluster_6 :
  let t := 10
  let p := 0
  let src := 0xFF020
  let tag := 9
  let news := 0
  let s := State.reset
  s.alive p ∧ p = s.chip.leadPart ∧ s.freshAt t p src tag ∧ s.chip.isManager = true ∧ news ≠ 1 := by decide +kernel

theorem witness_DeviceResetsAndCluster_7 :
  let t := 50000010
  let s := State.reset.withRegs 0 [(.DEVICE_ROLE, 2), (.DEVICE_CLUSTER_INDEX, 1)]
  s.reg .DEVICE_ROLE 0 = 2 ∧ s.chip.leadRuns = true ∧ SMap.get 0 s.chip.beats s.chip.mgr + 50000000 ≤ max s.chip.now t := by decide +kernel

theorem witness_HenRecorder_1 :
  let t := 10
  let p := 3
  let code := 0x1234
  let l := [7, 8]
  let s := State.reset
  s.chip.hen.kept.length < 4096 ∧ s.chip.hen.queue = [] ∧ p < 16 ∧ bit (s.reg .TRACE_TRIG_SRC p) 3 = false ∧ 0 < code ∧ code < 0x4000 ∧ (∀ r, (s.found t).henNewest p = some r → r.takes code (max s.chip.now t) (s.reg .HEN_FLOOD_WINDOW 0 * 1000) (((l ++ [0, 0, 0, 0]).take 4).map (trunc 32)) false = false) := by decide +kernel

theorem witness_HenRecorder_2 :
  let t := 10
  let p := 3
  let code := 0x1234
  let l := [7, 8]
  let r : FixedRec := { code := 0x1234, part := 3, kept := true, time := 2, p := [7, 8, 0, 0], last := 2 }
  let s := (State.reset.withRegs 0 [(.HEN_FLOOD_WINDOW, 100)]).modChip fun c => { c with hen := { c.hen with kept := [{ code := 0x1234, part := 3, kept := true, time := 2, p := [7, 8, 0, 0], last := 2 }] } }
  s.chip.hen.queue = [] ∧ p < 16 ∧ bit (s.reg .TRACE_TRIG_SRC p) 3 = false ∧ 0 < code ∧ code < 0x4000 ∧ (s.found t).henNewest p = some r ∧ r ∈ s.chip.hen.kept ∧ r.takes code (max s.chip.now t) (s.reg .HEN_FLOOD_WINDOW 0 * 1000) (((l ++ [0, 0, 0, 0]).take 4).map (trunc 32)) false = true := by decide +kernel

theorem witness_HenRecorder_3 :
  let t := 10
  let i := 0
  let s := hostState.withRegs 0 [(.HEN_HOST_BUF_ADDR, 0x100000), (.HEN_HOST_BUF_LEN, 0x801000)]
  s.reaches t i .HEN 0 ∧ s.chip.hen.flush = none ∧ (s.found t).flushPort.isSome = true := by decide +kernel

theorem witness_HenRecorder_4 :
  let f : Flush := { reason := 3, dest := 1, port := 0, seq := 1, start := 5, next := 0, oldest := 0 }
  let s := State.reset.modChip fun c => { c with hen := { c.hen with flush := some { reason := 3, dest := 1, port := 0, seq := 1, start := 5, next := 0, oldest := 0 } } }
  s.chip.hen.flush = some f ∧ s.chip.hen.again = none := by decide +kernel

theorem witness_HenRecorder_5 :
  let t := 10
  let f : Flush := { reason := 3, dest := 1, port := 0, seq := 1, start := 5, next := 0, oldest := 0 }
  let s := State.reset.modChip fun c => { c with hen := { c.hen with flush := some { reason := 3, dest := 1, port := 0, seq := 1, start := 5, next := 0, oldest := 0 } } }
  s.chip.hen.flush = some f ∧ s.chip.hen.again = none ∧ (f.dest ≠ 0 ∨ (s.found t).bufClash f.port = false) := by decide +kernel

theorem witness_HenRecorder_6 :
  let t := 10
  let i := 0
  let n := 0
  let f : FlushImage := { reason := 4, done := true, truncated := false, seq := 1, blocks := 0, kept := 0, start := 1, stop := 2, next := 0, oldest := 0, lost := 0, truncBytes := 0, data := [1, 2, 3] }
  let s := (hostState.withRegs 0 [(.HEN_HOST_BUF_ADDR, 0x100000), (.HEN_HOST_BUF_LEN, 0x801000)]).modChip fun c => { c with mram := { c.mram with slot0 := some { reason := 4, done := true, truncated := false, seq := 1, blocks := 0, kept := 0, start := 1, stop := 2, next := 0, oldest := 0, lost := 0, truncBytes := 0, data := [1, 2, 3] } } }
  s.reaches t i .HEN 0 ∧ (s.found t).flushPort = some n ∧ s.chip.mram.slot0 = some f ∧ f.data.length + 64 ≤ 4194304 ∧ s.reg .HEN_HOST_BUF_ADDR 0 + 8388608 < 2 ^ 64 := by decide +kernel

theorem witness_HenRecorder_7 :
  let t := 10
  let i := 0
  let s := hostState
  s.reaches t i .HEN 0 ∧ s.chip.hen.queue = [] := by decide +kernel

theorem witness_HenRecorder_8 :
  let t := 10
  let i := 0
  let v := 1
  let s := hostState
  s.reaches t i .HEN 0 ∧ s.chip.hen.kept.length < 4096 ∧ s.chip.hen.queue = [] ∧ v % 2 = 1 ∧ (∀ r, (s.found t).henNewest 0xFF = some r → r.code ≠ 0x3FFF) := by decide +kernel

theorem witness_HenRecorder_9 :
  let t := 10
  let i := 0
  let l := [0, 0, 0, 0, 0, 0, 0, 0]
  let s := hostState
  (s.found t).pageShut .HEN = false ∧ (s.found t).mayReach i .HEN 0 = true ∧ s.reg .HEN_RD_ADDR 0 % 8 = 0 ∧ ((List.range 8).map (fun k => (s.found t).henByte (s.reg .HEN_RD_ADDR 0 + k)) = l.map some) := by decide +kernel

theorem witness_SuppliesHeatAndClocks_1 :
  let w := 1500
  let d := 2
  let s := State.reset.withRegs 0 [(.POWER_POWER_LIMIT, 1000)]
  d < 4 ∧ s.reg .LOOPS_DVFS_PIN 0 d ≠ 1 ∧ (s.chip.die d).throttled = false ∧ s.reg .POWER_POWER_LIMIT 0 < w ∧ ((Chip.dieParts d).any (fun p => !s.chip.bypassed p) = true) := by decide +kernel

theorem witness_SuppliesHeatAndClocks_2 :
  let r := 6
  let s := State.reset.modChip fun c => { c with rails := [] }
  r ≤ 9 ∧ s.chip.rails.contains r = false := by decide +kernel

theorem witness_SuppliesHeatAndClocks_3 :
  let t := 10
  let r := 8
  let d := 3
  let s := State.reset
  4 ≤ r ∧ r ≤ 8 ∧ d < 4 ∧ s.reg .THERMAL_TRIPPED 0 ≠ 1 ∧ s.chip.g9Out = false ∧ s.reg .RESET_DEVICE_STATE 0 ≠ 1 ∧ (s.chip.devFaults.all (fun a => a + 3600000000000 ≤ max s.chip.now t) = true) := by decide +kernel

theorem witness_SuppliesHeatAndClocks_5 :
  let s := hostState
  s.reg .POWER_PF_WARN 0 ≠ 1 := by decide +kernel

theorem witness_SuppliesHeatAndClocks_6 :
  let s := hostState.withRegs 0 [(.POWER_PF_WARN, 1), (.POWER_PF_HOLD, 1)]
  s.reg .POWER_PF_HOLD 0 ≠ 0 := by decide +kernel

theorem witness_SuppliesHeatAndClocks_7 :
  let d := 2
  let n := 3
  let s := State.reset
  d < 4 ∧ 1 ≤ n ∧ n ≤ 5 ∧ SMap.find? (s.chip.die d).stages n = none ∧ ((s.chip.die d).stages.all (fun e => e.1 ≤ 6) = true) := by decide +kernel

theorem witness_SuppliesHeatAndClocks_8 :
  let d := 2
  let s := (State.reset.modChip fun c => (c.modDie 2 fun x => { x with stages := [(1, 3), (2, 4)] }).setReg .POWER_STAGE 0 2 2)
  d < 4 ∧ ((s.chip.die d).stages.all (fun e => e.1 ≤ 6) = true) := by decide +kernel

theorem witness_SuppliesHeatAndClocks_9 :
  let d := 9
  let l : List Int := [40, 42]
  let a : Int := 40
  let b : List Int := [42]
  let s := State.reset
  d < 32 ∧ l.length = Chip.sensorsOf d ∧ (((List.range l.length).filter fun i => (Chip.judge (SMap.get [] s.chip.sensors d) l).getD i 0 ≠ 2).map (fun i => l.getD i 0) = a :: b) ∧ b.foldl max a < 115 := by decide +kernel

theorem witness_SuppliesHeatAndClocks_10 :
  let t := 10000010
  let d := 2
  let a := 5
  let s := State.reset.modChip fun c => { (c.modDie 2 fun x => { x with throttled := true }) with cool := [(2, 5)] }
  d < 4 ∧ SMap.find? s.chip.cool d = some a ∧ a + 10000000 ≤ max s.chip.now t ∧ (s.chip.die d).throttled = true := by decide +kernel

theorem witness_SuppliesHeatAndClocks_11 :
  let d := 2
  let w := 1700
  let s := State.reset.modChip fun c => c.modDie 2 fun x => { x with want := some 1700 }
  d < 4 ∧ (s.chip.die d).want = some w := by decide +kernel

theorem witness_SuppliesHeatAndClocks_12 :
  let d := 2
  let s := State.reset.modChip fun c => c.modDie 2 fun x => { x with want := some 1700 }
  d < 4 ∧ (s.chip.die d).want.isSome = true := by decide +kernel

theorem witness_SuppliesHeatAndClocks_13 :
  let s := State.reset
  s.chip.refLost = false := by decide +kernel

theorem witness_BringUp_1 :
  let t := 10
  let i := 0
  let x : Blob := {}
  let l : List Nat := [0x42, 0x4C, 0x4F, 0x42, 1, 0, 0, 0, 32, 0, 0, 0] ++ bytesOf 4 (crc32c ([0x42, 0x4C, 0x4F, 0x42, 1, 0, 0, 0, 32, 0, 0, 0] ++ List.replicate 20 0)) ++ List.replicate 16 0
  let s := (hostState.withRegs 0 [(.BOOT_BLOB_ADDR, 0x1000), (.BOOT_BLOB_LEN, 32)]).modChip fun c => c.writeHost 0 0x1000 l
  s.reaches t i .BOOT 0 ∧ s.chip.hostBytes i (s.reg .BOOT_BLOB_ADDR 0) (min (s.reg .BOOT_BLOB_LEN 0) 0x200000) = l ∧ blobOf l = some x := by decide +kernel

theorem witness_BringUp_2 :
  let t := 10
  let i := 0
  let s := hostState
  s.reaches t i .BOOT 0 ∧ blobOf (s.chip.hostBytes i (s.reg .BOOT_BLOB_ADDR 0) (min (s.reg .BOOT_BLOB_LEN 0) 0x200000)) = none := by decide +kernel

theorem witness_BringUp_3 :
  let t := 10
  let i := 0
  let n := 32
  let l := List.replicate 32 0
  let s := hostState.withRegs 0 [(.BOOT_BLOB_LEN, 32)]
  s.reaches t i .BOOT 0 ∧ min (s.reg .BOOT_BLOB_LEN 0) 0x200000 = n ∧ s.chip.hostBytes i (s.reg .BOOT_BLOB_ADDR 0) n = l ∧ 32 ≤ n ∧ ofBytes ((l.drop 8).take 4) ≤ n ∧ blobOf l = none := by decide +kernel

theorem witness_BringUp_4 :
  let t := 10
  let i := 0
  let s := hostState.withRegs 0 [(.BOOT_FW_WAITING, 1)]
  s.reaches t i .BOOT 0 ∧ s.reg .BOOT_FW_WAITING 0 = 1 := by decide +kernel

theorem witness_BringUp_5 :
  let i := 0
  let s := (hostState.withRegs 0 [(.BOOT_BOOT_STAGE, 2), (.BOOT_FW_ADDR, 0x1000), (.BOOT_FW_LEN, 512)]).modChip fun c => { (c.writeHost 0 0x1000 [0x47, 0x39, 0x46, 0x57, 1, 0, 0, 0, 9]) with fwFrom := some 0 }
  let l : List Nat := [0x47, 0x39, 0x46, 0x57, 1, 0, 0, 0, 9] ++ List.replicate 503 0
  s.reg .BOOT_BOOT_STAGE 0 = 2 ∧ s.chip.fwFrom = some i ∧ s.chip.hostBytes i (s.reg .BOOT_FW_ADDR 0) (s.reg .BOOT_FW_LEN 0) = l ∧ Chip.fwShape l = true := by decide +kernel

theorem witness_BringUp_6 :
  let i := 0
  let s := (hostState.withRegs 0 [(.BOOT_BOOT_STAGE, 2)]).modChip fun c => { c with fwFrom := some 0 }
  s.reg .BOOT_BOOT_STAGE 0 = 2 ∧ s.chip.fwFrom = some i := by decide +kernel

theorem witness_BringUp_7 :
  let cfg := 2
  let src := 1
  let s := State.reset
  cfg < 4 ∧ src < 2 ∧ s.chip.mram.g9Out = false := by decide +kernel

theorem witness_BringUp_8 :
  let t := 10
  let p := 3
  let k := 2
  let cores := 1
  let mules := 2
  let banks := 0
  let s := State.reset.modChip fun c => c.partState 3 2 2
  p < 16 ∧ k < 8 ∧ s.reg .RESET_PART_STATE 0 p = 2 ∧ s.chip.g9Out = false ∧ (s.found t).bistCalm p = true ∧ cores < 16 ∧ mules < 15 ∧ banks < 2 ^ 32 := by decide +kernel

theorem witness_TileHeaders_2 :
  SMap.sorted ({ data := [(3, 7), (9, 1)] } : Tile).data = true := by decide +kernel

theorem witness_RecordLayouts_3 :
  (firstCmd (.compute 1 3) (mioDesc 0x10 [] 0 1 1 1 0)).q = .compute 1 3 ∧ State.reset.chip.reg .CTXQ_DEFAULT_TIMEOUT (16 * 1 + 3) ≠ 0 := by decide +kernel

theorem witness_ClusterCompletes_1 :
  let t := 10
  let p := 3
  let x := 1
  let d := mioDesc 0x10 [0, 1, 2] 0 1 1 1 0
  let y := firstCmd (.compute 1 3) d
  let s := (tensorState [(oneTile 11 2 1 1, [(0, 3)]), (oneTile 12 2 1 1, [(0, 5)]), (oneTile 13 7 1 1, [])] []).fetched (.compute 1 3) d
  let o : MOps := ((s.found t).operands 3 1 d).1
  let a : Tensor := o.a.getD { first := 0, gen := 0, format := 0, rows := 0, cols := 0 }
  let b : Tensor := o.b.getD { first := 0, gen := 0, format := 0, rows := 0, cols := 0 }
  let w : Tensor := o.c.getD { first := 0, gen := 0, format := 0, rows := 0, cols := 0 }
  d.opcode = 0x10 ∧ s.clusterTakes t p x d y o ([a, b] ++ o.d.toList) [(w, o.keeps)] ∧ o.a = some a ∧ o.b = some b ∧ o.c = some w ∧ o.sound ([a, b] ++ o.d.toList) [w] = true ∧ rateOf a.format b.format ≠ none ∧ (o.d.all (fun z => z.casts o.m o.n && 3 ≤ z.format && z.format ≤ 7 && !z.sparse) = true) ∧ a.is o.m o.k = true ∧ b.is o.k o.n = true ∧ w.is o.m o.n = true ∧ a.sparse = false ∧ (w.format = 7 → a.isInt = true) ∧ b.sparse = false := by decide +kernel

theorem witness_ClusterCompletes_2 :
  let t := 10
  let p := 3
  let x := 1
  let d := mioDesc 0x11 [0, 1, 2] 0 1 1 4 0
  let y := firstCmd (.compute 1 3) d
  let s := (tensorState [(oneTile 11 2 1 4, [(0, 3), (1, 4), (2, 5), (3, 6)]), ({ oneTile 12 2 4 1 with sparse := true, meta_ := 14, metaGen := 1 }, [(0, 7), (64, 9)]), (oneTile 13 7 1 1, [])] [(14, Chip.tensorTile 1 (oneTile 14 0x10 2 1) 0 [(64, 1)]), (12, Chip.tensorTile 1 (oneTile 12 2 2 1) 0 [(0, 7), (64, 9)])]).fetched (.compute 1 3) d
  let o : MOps := ((s.found t).operands 3 1 d).1
  let a : Tensor := o.a.getD { first := 0, gen := 0, format := 0, rows := 0, cols := 0 }
  let b : Tensor := o.b.getD { first := 0, gen := 0, format := 0, rows := 0, cols := 0 }
  let w : Tensor := o.c.getD { first := 0, gen := 0, format := 0, rows := 0, cols := 0 }
  d.opcode = 0x11 ∧ s.clusterTakes t p x d y o ([a, b] ++ o.d.toList) [(w, o.keeps)] ∧ o.a = some a ∧ o.b = some b ∧ o.c = some w ∧ o.sound ([a, b] ++ o.d.toList) [w] = true ∧ rateOf a.format b.format ≠ none ∧ (o.d.all (fun z => z.casts o.m o.n && 3 ≤ z.format && z.format ≤ 7 && !z.sparse) = true) ∧ a.is o.m o.k = true ∧ b.is o.k o.n = true ∧ w.is o.m o.n = true ∧ a.sparse = false ∧ (w.format = 7 → a.isInt = true) ∧ b.sparse = true ∧ b.blocked = false ∧ o.k % 4 = 0 ∧ ((List.range (o.k / 4)).all (fun g => (List.range o.n).all fun j => (s.found t).elem p b.indices (2 * g) j < (s.found t).elem p b.indices (2 * g + 1) j) = true) := by decide +kernel

theorem witness_ClusterCompletes_3 :
  let t := 10
  let p := 3
  let x := 1
  let d := mioDesc 0x12 [0, 1, 2] 1 1 1 1 0
  let y := firstCmd (.compute 1 3) d
  let s := (tensorState [({ oneTile 11 2 1 1 with blocked := true, meta_ := 14, metaGen := 1 }, [(0, 3)]), (oneTile 12 2 1 1, [(0, 5)]), (oneTile 13 7 1 1, [])] [(14, ({ gen := 1, ctx := 1, format := 0x11, data := [(0, 1)] } : Tile).sealed)]).fetched (.compute 1 3) d
  let o : MOps := ((s.found t).operands 3 1 d).1
  let a : Tensor := o.a.getD { first := 0, gen := 0, format := 0, rows := 0, cols := 0 }
  let b : Tensor := o.b.getD { first := 0, gen := 0, format := 0, rows := 0, cols := 0 }
  let w : Tensor := o.c.getD { first := 0, gen := 0, format := 0, rows := 0, cols := 0 }
  let z : Tensor := (if bit o.mode 0 then a else b)
  d.opcode = 0x12 ∧ s.clusterTakes t p x d y o ([a, b] ++ o.d.toList) [(w, o.keeps)] ∧ o.a = some a ∧ o.b = some b ∧ o.c = some w ∧ o.sound ([a, b] ++ o.d.toList) [w] = true ∧ rateOf a.format b.format ≠ none ∧ (o.d.all (fun z => z.casts o.m o.n && 3 ≤ z.format && z.format ≤ 7 && !z.sparse) = true) ∧ a.is o.m o.k = true ∧ b.is o.k o.n = true ∧ w.is o.m o.n = true ∧ a.sparse = false ∧ (w.format = 7 → a.isInt = true) ∧ b.sparse = false ∧ o.mode < 2 ∧ ((if bit o.mode 0 then a else b) = z) ∧ z.blocked = true ∧ (s.found t).failsOf p x (Tensor.bitUses z.meta_ z.metaGen 0x11 z.count) = [] := by decide +kernel

theorem witness_ClusterCompletes_4 :
  let t := 10
  let p := 3
  let x := 1
  let d := mioDesc 0x13 [0, 0xFFFF, 1, 2, 3] 0 1 2 1 1
  let y := firstCmd (.compute 1 3) d
  let s := (tensorState [(oneTile 11 6 1 2, [(2, 128), (3, 63), (7, 64)]), (oneTile 13 7 1 1, []), (oneTile 14 6 1 1, []), (oneTile 15 7 2 2, [])] []).fetched (.compute 1 3) d
  let o : MOps := ((s.found t).operands 3 1 d).1
  let a : Tensor := o.a.getD { first := 0, gen := 0, format := 0, rows := 0, cols := 0 }
  let w : Tensor := o.c.getD { first := 0, gen := 0, format := 0, rows := 0, cols := 0 }
  let z : Tensor := o.d.getD { first := 0, gen := 0, format := 0, rows := 0, cols := 0 }
  let u : Tensor := o.aux.getD { first := 0, gen := 0, format := 0, rows := 0, cols := 0 }
  d.opcode = 0x13 ∧ s.clusterTakes t p x d y o [a] [(w, o.keeps), (z, o.keeps), (u, bit o.mode 3)] ∧ o.a = some a ∧ o.c = some w ∧ o.d = some z ∧ o.aux = some u ∧ o.sound [a] [w, z, u] = true ∧ apart [w, z, u] = true ∧ a.sparse = false ∧ a.is o.m o.n = true ∧ (a.format = 5 ∨ a.format = 6) ∧ w.is o.m o.param = true ∧ w.format = 7 ∧ z.is o.m o.param = true ∧ z.format = 6 ∧ u.is o.n 2 = true ∧ u.format = 7 ∧ 1 ≤ o.param ∧ o.param ≤ 8 ∧ o.param ≤ o.n ∧ 1 ≤ o.k ∧ o.k ≤ o.m ∧ bits o.mode 2 1 ≠ 3 ∧ o.mode < 16 := by decide +kernel

theorem witness_ClusterCompletes_5 :
  let t := 10
  let p := 3
  let x := 1
  let d := mioDesc 0x14 [0, 0xFFFF, 1, 2] 0 1 2 0 1
  let y := firstCmd (.compute 1 3) d
  let s := (tensorState [(oneTile 11 6 1 2, [(2, 128), (3, 63), (7, 64)]), (oneTile 13 6 1 1, []), (oneTile 14 7 1 1, [])] []).fetched (.compute 1 3) d
  let o : MOps := ((s.found t).operands 3 1 d).1
  let a : Tensor := o.a.getD { first := 0, gen := 0, format := 0, rows := 0, cols := 0 }
  let w : Tensor := o.c.getD { first := 0, gen := 0, format := 0, rows := 0, cols := 0 }
  let z : Tensor := o.d.getD { first := 0, gen := 0, format := 0, rows := 0, cols := 0 }
  d.opcode = 0x14 ∧ s.clusterTakes t p x d y o [a] [(w, o.keeps), (z, o.keeps)] ∧ o.a = some a ∧ o.c = some w ∧ o.d = some z ∧ o.sound [a] [w, z] = true ∧ apart [w, z] = true ∧ a.sparse = false ∧ a.is o.m o.n = true ∧ w.is o.m o.param = true ∧ z.is o.m o.param = true ∧ z.format = 7 ∧ 1 ≤ o.param ∧ o.param ≤ 1024 ∧ o.param ≤ o.n ∧ o.mode < 2 := by decide +kernel

theorem witness_ClusterCompletes_6 :
  let t := 10
  let p := 3
  let x := 1
  let d := mioDesc 0x15 [0, 0xFFFF, 1] 0 1 1 0 0
  let y := firstCmd (.compute 1 3) d
  let s := (tensorState [(oneTile 11 6 1 1, [(2, 128), (3, 63)]), (oneTile 13 6 1 1, [])] []).fetched (.compute 1 3) d
  let o : MOps := ((s.found t).operands 3 1 d).1
  let a : Tensor := o.a.getD { first := 0, gen := 0, format := 0, rows := 0, cols := 0 }
  let w : Tensor := o.c.getD { first := 0, gen := 0, format := 0, rows := 0, cols := 0 }
  d.opcode = 0x15 ∧ s.clusterTakes t p x d y o ([a] ++ o.d.toList) [(w, o.keeps)] ∧ o.a = some a ∧ o.c = some w ∧ o.sound ([a] ++ o.d.toList) [w] = true ∧ (o.d.all (fun z => (z.is 1 o.n || z.is o.m o.n) && !z.sparse) = true) ∧ a.sparse = false ∧ a.is o.m o.n = true ∧ w.is o.m o.n = true ∧ o.mode < 2 := by decide +kernel

theorem witness_ClusterCompletes_7 :
  let t := 10
  let p := 3
  let x := 1
  let d := mioDesc 0x16 [0, 0xFFFF, 1] 0 1 2 0 0
  let y := firstCmd (.compute 1 3) d
  let s := (tensorState [(oneTile 11 7 1 2, [(0, 3), (4, 5)]), (oneTile 13 7 1 2, [])] []).fetched (.compute 1 3) d
  let o : MOps := ((s.found t).operands 3 1 d).1
  let a : Tensor := o.a.getD { first := 0, gen := 0, format := 0, rows := 0, cols := 0 }
  let w : Tensor := o.c.getD { first := 0, gen := 0, format := 0, rows := 0, cols := 0 }
  d.opcode = 0x16 ∧ s.clusterTakes t p x d y o [a] [(w, o.keeps)] ∧ o.a = some a ∧ o.c = some w ∧ o.sound [a] [w] = true ∧ a.sparse = false ∧ a.is o.m o.n = true ∧ w.is o.m o.n = true ∧ (a.format = 6 ∨ a.format = 7) ∧ w.format = a.format ∧ o.mode < 2 := by decide +kernel

theorem witness_ClusterCompletes_8 :
  let t := 10
  let p := 3
  let x := 1
  let d := mioDesc 0x17 [0, 0xFFFF, 1] 0 2 2 0 0
  let y := firstCmd (.compute 1 3) d
  let s := (tensorState [(oneTile 11 7 2 1, [(0, 1), (128, 1)]), (oneTile 13 7 2 1, [])] []).fetched (.compute 1 3) d
  let o : MOps := ((s.found t).operands 3 1 d).1
  let a : Tensor := o.a.getD { first := 0, gen := 0, format := 0, rows := 0, cols := 0 }
  let w : Tensor := o.c.getD { first := 0, gen := 0, format := 0, rows := 0, cols := 0 }
  d.opcode = 0x17 ∧ s.clusterTakes t p x d y o ([a] ++ o.d.toList) [(w, bit o.mode 0)] ∧ o.a = some a ∧ o.c = some w ∧ o.sound ([a] ++ o.d.toList) [w] = true ∧ (o.d.all (fun z => z.is o.m 1 && z.format == 6 && !z.sparse) = true) ∧ (w.format = if o.d.isSome then 6 else 7) ∧ a.sparse = false ∧ a.is o.m 1 = true ∧ a.format = 7 ∧ w.is o.n 1 = true ∧ o.mode < 2 := by decide +kernel

theorem witness_ClusterCompletes_9 :
  let t := 10
  let p := 3
  let x := 1
  let d := mioDesc 0x18 [0, 1, 2, 3, 4] 0 1 1 1 0
  let y := firstCmd (.compute 1 3) d
  let s := (tensorState [(oneTile 11 6 1 1, [(3, 64)]), (oneTile 12 6 1 1, [(2, 128), (3, 63)]), (oneTile 13 6 1 1, []), (oneTile 14 7 1 1, []), (oneTile 15 7 2 1, [(128, 1)])] []).fetched (.compute 1 3) d
  let o : MOps := ((s.found t).operands 3 1 d).1
  let a : Tensor := o.a.getD { first := 0, gen := 0, format := 0, rows := 0, cols := 0 }
  let b : Tensor := o.b.getD { first := 0, gen := 0, format := 0, rows := 0, cols := 0 }
  let w : Tensor := o.c.getD { first := 0, gen := 0, format := 0, rows := 0, cols := 0 }
  let z : Tensor := o.d.getD { first := 0, gen := 0, format := 0, rows := 0, cols := 0 }
  let u : Tensor := o.aux.getD { first := 0, gen := 0, format := 0, rows := 0, cols := 0 }
  d.opcode = 0x18 ∧ s.clusterTakes t p x d y o [a, b, z, u] [(w, o.keeps)] ∧ o.a = some a ∧ o.b = some b ∧ o.c = some w ∧ o.d = some z ∧ o.aux = some u ∧ o.sound [a, b, z, u] [w] = true ∧ ([a, b, z, u].all (fun e => !e.sparse) = true) ∧ a.is o.k 1 = true ∧ b.is o.n 1 = true ∧ z.is o.k 1 = true ∧ z.format = 7 ∧ u.is (o.m + 1) 1 = true ∧ u.format = 7 ∧ w.is o.m 1 = true ∧ w.format = 6 ∧ (((s.found t).liveRows p o).all (fun r => 0 ≤ (s.found t).ival p u r 0 && (s.found t).ival p u r 0 ≤ (s.found t).ival p u (r + 1) 0 && (s.found t).ival p u (r + 1) 0 ≤ (o.k : Int)) = true) := by decide +kernel

theorem witness_ClusterCompletes_10 :
  let t := 10
  let p := 3
  let x := 1
  let d := mioDesc 0x19 [0, 1, 2] 0 1 1 0 0
  let y := firstCmd (.compute 1 3) d
  let s := (tensorState [(oneTile 11 7 2 1, [(0, 3), (128, 5)]), (oneTile 12 7 1 1, [(0, 1)]), (oneTile 13 7 1 1, [])] []).fetched (.compute 1 3) d
  let o : MOps := ((s.found t).operands 3 1 d).1
  let a : Tensor := o.a.getD { first := 0, gen := 0, format := 0, rows := 0, cols := 0 }
  let b : Tensor := o.b.getD { first := 0, gen := 0, format := 0, rows := 0, cols := 0 }
  let w : Tensor := o.c.getD { first := 0, gen := 0, format := 0, rows := 0, cols := 0 }
  d.opcode = 0x19 ∧ s.clusterTakes t p x d y o [a, b] [(w, o.keeps)] ∧ o.a = some a ∧ o.b = some b ∧ o.c = some w ∧ o.sound [a, b] [w] = true ∧ a.sparse = false ∧ b.sparse = false ∧ a.cols = o.n ∧ b.is o.m 1 = true ∧ b.format = 7 ∧ w.is o.m o.n = true := by decide +kernel

theorem witness_ClusterCompletes_11 :
  let t := 10
  let p := 3
  let x := 1
  let d := mioDesc 0x1A [0, 1, 2] 1 1 1 0 0
  let y := firstCmd (.compute 1 3) d
  let s := (tensorState [(oneTile 11 7 1 1, [(0, 3)]), (oneTile 12 7 1 1, [(0, 1)]), (oneTile 13 7 2 1, [])] []).fetched (.compute 1 3) d
  let o : MOps := ((s.found t).operands 3 1 d).1
  let a : Tensor := o.a.getD { first := 0, gen := 0, format := 0, rows := 0, cols := 0 }
  let b : Tensor := o.b.getD { first := 0, gen := 0, format := 0, rows := 0, cols := 0 }
  let w : Tensor := o.c.getD { first := 0, gen := 0, format := 0, rows := 0, cols := 0 }
  d.opcode = 0x1A ∧ s.clusterTakes t p x d y o [a, b] [(w, true)] ∧ o.a = some a ∧ o.b = some b ∧ o.c = some w ∧ o.sound [a, b] [w] = true ∧ a.sparse = false ∧ b.sparse = false ∧ a.is o.m o.n = true ∧ b.is o.m 1 = true ∧ b.format = 7 ∧ w.cols = o.n ∧ o.mode < 2 := by decide +kernel

theorem witness_ClusterCompletes_12 :
  let t := 10
  let p := 3
  let x := 1
  let d := mioDesc 0x1B [0, 1, 2] 1 1 1 0 0
  let y := firstCmd (.compute 1 3) d
  let s := (tensorState [(oneTile 11 6 1 1, [(2, 128), (3, 63)]), (oneTile 12 6 1 1, [(3, 64)]), (oneTile 13 6 1 1, [])] []).fetched (.compute 1 3) d
  let o : MOps := ((s.found t).operands 3 1 d).1
  let a : Tensor := o.a.getD { first := 0, gen := 0, format := 0, rows := 0, cols := 0 }
  let w : Tensor := o.c.getD { first := 0, gen := 0, format := 0, rows := 0, cols := 0 }
  let l : List (Option Tensor) := (if 3 ∈ usedHandles 0x1B o.mode then [o.b, o.d] else if 1 ∈ usedHandles 0x1B o.mode then [o.b] else [])
  d.opcode = 0x1B ∧ s.clusterTakes t p x d y o ([a] ++ l.filterMap id) [(w, o.keeps)] ∧ o.a = some a ∧ o.c = some w ∧ (l = (if 3 ∈ usedHandles 0x1B o.mode then [o.b, o.d] else if 1 ∈ usedHandles 0x1B o.mode then [o.b] else [])) ∧ o.sound ([a] ++ l.filterMap id) [w] = true ∧ (l.all (fun e => e.any fun z => z.casts o.m o.n && !z.sparse) = true) ∧ o.mode < 0x0E ∧ a.sparse = false ∧ a.is o.m o.n = true ∧ w.is o.m o.n = true := by decide +kernel

theorem witness_ClusterCompletes_13 :
  let t := 10
  let p := 3
  let x := 1
  let d := mioDesc 0x1C [0, 0xFFFF, 1] 0 1 2 0 0
  let y := firstCmd (.compute 1 3) d
  let s := (tensorState [(oneTile 11 7 1 2, [(0, 3), (4, 5)]), (oneTile 13 7 1 1, [])] []).fetched (.compute 1 3) d
  let o : MOps := ((s.found t).operands 3 1 d).1
  let a : Tensor := o.a.getD { first := 0, gen := 0, format := 0, rows := 0, cols := 0 }
  let w : Tensor := o.c.getD { first := 0, gen := 0, format := 0, rows := 0, cols := 0 }
  d.opcode = 0x1C ∧ s.clusterTakes t p x d y o [a] [(w, o.keeps && !bit o.mode 2)] ∧ o.a = some a ∧ o.c = some w ∧ o.sound [a] [w] = true ∧ a.sparse = false ∧ a.is o.m o.n = true ∧ ((if bit o.mode 2 then w.is 1 o.n else w.is o.m 1) = true) ∧ (o.mode % 4 = 3 → w.format = 7) ∧ o.mode < 16 := by decide +kernel

end
end

section
/-! SUPPORT. The open pairs of the host ports: every write of a host port, and every command, keeps them as R347 has them. -/

namespace Sys2Proof.Machine

open Sys2Proof

/-- What R345 and R12 ask of the write that opens a pair: 4 or 8 bytes, aligned, over an RWP field, its word within its size. -/
def HostPair.sound (x : HostPair) : Prop :=
  (x.size = 4 ∨ x.size = 8) ∧ x.off % x.size = 0 ∧ x.word < 2 ^ (8 * x.size) ∧
    RegFile.touchesPair (gElems x.page) x.off (8 * x.size) = true

theorem pairsSound_iff (l : List HostPair) :
    pairsSound l ↔ (l.map fun x => (x.port, x.page, x.inst)).Nodup ∧ ∀ x ∈ l, x.sound := Iff.rfl

theorem pairsSound_nil : pairsSound [] := ⟨List.nodup_nil, by simp⟩

theorem pairsSound_dropPair {ps : List HostPair} (port : Nat) (g : Page) (inst : Nat) (h : pairsSound ps) :
    pairsSound (Chip.dropPair ps port g inst) :=
  ⟨h.1.sublist (List.filter_sublist.map _), fun x hx => h.2 x (List.mem_of_mem_filter hx)⟩

theorem openPair_dropPair (ps : List HostPair) (port : Nat) (g : Page) (inst : Nat) :
    Chip.openPair (Chip.dropPair ps port g inst) port g inst = none := by
  simp only [Chip.openPair, Chip.dropPair, List.find?_eq_none, List.mem_filter]
  rintro x ⟨-, other⟩ found
  simp [found] at other

/-- A sound pair of a port that has none open on the page may be opened. -/
theorem pairsSound_append {ps : List HostPair} {x : HostPair} (h : pairsSound ps)
    (none_ : Chip.openPair ps x.port x.page x.inst = none) (hx : x.sound) : pairsSound (ps ++ [x]) := by
  refine (pairsSound_iff _).2 ⟨?_, ?_⟩
  · have apart : ∀ y ∈ ps, y.port = x.port → y.page = x.page → ¬y.inst = x.inst := by
      simpa [Chip.openPair, and_assoc] using none_
    simpa [List.nodup_append] using ⟨h.1, apart⟩
  · simpa [or_imp, forall_and] using ⟨h.2, hx⟩

/-- Either answer of a branch keeps the pairs sound. -/
theorem pairsSound_ite {p : Prop} [Decidable p] {a b : Chip × List HostPair} (ha : pairsSound a.2) (hb : pairsSound b.2) :
    pairsSound (if p then a else b).2 := by
  split
  · exact ha
  · exact hb

namespace Chip

/-- A write that completes no pair, on a page where the port has none open: the pair that it may open is sound. -/
theorem plain_pairsSound (c : Chip) {ps : List HostPair} {port : Nat} {g : Page} {inst off size v : Nat} (h : pairsSound ps)
    (none_ : openPair ps port g inst = none) (hs : size = 4 ∨ size = 8) (ha : off % size = 0) (hv : v < 2 ^ (8 * size)) :
    pairsSound (hostWriteCore.plain c ps port g inst off size v).2.1 := by
  unfold hostWriteCore.plain
  split
  case isTrue touches => exact pairsSound_append h none_ ⟨hs, ha, hv, touches⟩
  case isFalse => exact h

theorem hostWriteCore_pairsSound (c : Chip) {ps : List HostPair} (port : Nat) (g : Page) (inst : Nat) {off size v : Nat}
    (h : pairsSound ps) (hs : size = 4 ∨ size = 8) (ha : off % size = 0) (hv : v < 2 ^ (8 * size)) :
    pairsSound (c.hostWriteCore ps port g inst off size v).2.1 := by
  have dropped := pairsSound_dropPair port g inst h
  unfold hostWriteCore
  split
  case isTrue shut => exact h
  split
  case h_1 bypassed => exact h
  split
  case isTrue unowned => exact h
  dsimp only
  split
  case h_1 some_ =>
    split
    case isTrue shadow => split <;> exact dropped
    case isFalse => exact plain_pairsSound _ dropped (openPair_dropPair ps port g inst) hs ha hv
  case h_2 none_ =>
    split
    case isTrue shadow => exact h
    case isFalse => exact plain_pairsSound _ h none_ hs ha hv

/-- The write that a page takes is always aligned and of 4 or 8 bytes: any other size or alignment is taken as 4 bytes (R345). -/
theorem pageWrite_pairsSound (c : Chip) {ps : List HostPair} (port : Nat) (g : Page) (inst off size v : Nat) (h : pairsSound ps) :
    pairsSound (c.pageWrite ps port g inst off size v).2 := by
  unfold pageWrite
  dsimp only
  cases bad : !((size == 4 || size == 8) && off % size == 0)
  case true =>
    exact hostWriteCore_pairsSound _ _ _ _ h (.inl rfl) (by simp) (Nat.mod_lt _ (by decide))
  case false =>
    simp only [Bool.not_eq_false', Bool.and_eq_true, Bool.or_eq_true, beq_iff_eq] at bad
    obtain ⟨hs, ha⟩ := bad
    refine hostWriteCore_pairsSound _ _ _ _ h hs ?_ (Nat.mod_lt _ (by positivity))
    obtain rfl | rfl := hs <;> simp only [Bool.false_eq_true, if_false] <;> omega

theorem blockWrite_pairsSound (c : Chip) {ps : List HostPair} (port x p off : Nat) (ide : Bool) (size v : Nat) (h : pairsSound ps) :
    pairsSound (c.blockWrite ps port x p off ide size v).2 := by
  have page := c.pageWrite_pairsSound port .CTXQ (16 * x + p) off size v h
  have windows : ∀ a b d : Chip, pairsSound (if 0x8000 ≤ off ∧ off < 0x10000 then (a, ps)
      else if 0x10000 ≤ off ∧ off < 0x18000 then (b, ps) else (d, ps)).2 :=
    fun _ _ _ => pairsSound_ite h (pairsSound_ite h h)
  unfold blockWrite
  exact pairsSound_ite h <| pairsSound_ite h <| pairsSound_ite h <| pairsSound_ite h <| pairsSound_ite h <| pairsSound_ite h <|
    pairsSound_ite (pairsSound_ite h page) (pairsSound_ite h (windows _ _ _))

theorem hostWrite_pairsSound (c : Chip) {ps : List HostPair} (port : Nat) (a : HostAddr) (size v : Nat) (h : pairsSound ps) :
    pairsSound (c.hostWrite ps port a size v).2 := by
  cases a with
  | bar0 a =>
    unfold hostWrite
    dsimp only
    split
    · exact c.pageWrite_pairsSound _ _ _ _ _ _ h
    · split <;> exact h
  | bar2 x a ide => exact c.blockWrite_pairsSound _ _ _ _ _ _ _ h

theorem hostWriteAt_pairsSound (c : Chip) {ps : List HostPair} (port : Nat) (a : HostAddr) (off v : Nat) (h : pairsSound ps) :
    pairsSound (c.hostWriteAt ps port a off v).2 := by
  cases a with
  | bar0 a => exact c.hostWrite_pairsSound _ _ _ _ h
  | bar2 x a ide => exact pairsSound_ite (c.hostWrite_pairsSound _ _ _ _ h) h

theorem queueWrite_pairsSound (c : Chip) {ps : List HostPair} (port : Nat) (i : QId) (ide : Bool) (f : QField) (size v : Nat)
    (h : pairsSound ps) : pairsSound (c.queueWrite ps port i ide f size v).2 := by
  cases i with
  | route p | sched p => exact c.pageWrite_pairsSound _ _ _ _ _ _ h
  | context k => exact pairsSound_ite (c.pageWrite_pairsSound _ _ _ _ _ _ h) h
  | compute x p | mule x p => exact c.blockWrite_pairsSound _ _ _ _ _ _ _ h
  | core | fw => exact h

theorem pairExpiry_pairsSound (c : Chip) {ps : List HostPair} (port : Nat) (g : Page) (inst : Nat) (h : pairsSound ps) :
    pairsSound (c.pairExpiry ps port g inst).2 := by
  unfold pairExpiry
  split
  · exact pairsSound_ite (pairsSound_dropPair port g inst h) h
  · exact h

theorem hostPairExpiry_pairsSound (c : Chip) {ps : List HostPair} (port : Nat) (a : HostAddr) (h : pairsSound ps) :
    pairsSound (c.hostPairExpiry ps port a).2 := by
  cases a with
  | bar0 a =>
    unfold hostPairExpiry
    dsimp only
    split
    · exact c.pairExpiry_pairsSound _ _ _ h
    · exact h
  | bar2 => exact h

theorem writePage_pairsSound (c : Chip) {ps : List HostPair} (port : Nat) (g : Page) (inst : Nat) (f : Chip → Chip) (h : pairsSound ps) :
    pairsSound (c.writePage ps port g inst f).2 := by
  obtain e | e := c.writePage_cases ps port g inst f <;> rw [e]
  · exact h
  · exact pairsSound_dropPair _ _ _ h

end Chip

theorem State.run_pairsSound {s : State} (t : Nat) (f : Chip → Chip) (h : pairsSound s.pairs) : pairsSound (s.run t f).pairs := by
  rwa [State.run_pairs]

theorem State.runPairs_pairsSound {s : State} {t : Nat} {f : Chip → List HostPair → Chip × List HostPair}
    (h : pairsSound (f (s.found t) s.pairs).2) : pairsSound (s.runPairs t f).pairs := by
  rwa [State.runPairs_pairs]

/-- Every command leaves the open pairs alone, writes to a page, or discards them. -/
theorem exec_pairsSound (i : Instr) (s : State) (h : pairsSound s.pairs) :
    ∃ s', exec i s = .next s' ∧ pairsSound s'.pairs := by
  cases i with
  | pageCommit | snapshot | intStatusClear => exact ⟨_, rfl, State.runPairs_pairsSound (Chip.hostWriteAt_pairsSound _ _ _ _ _ h)⟩
  | pairComplete | registerWrite => exact ⟨_, rfl, State.runPairs_pairsSound (Chip.hostWrite_pairsSound _ _ _ _ _ h)⟩
  | pairExpiry => exact ⟨_, rfl, State.runPairs_pairsSound (Chip.hostPairExpiry_pairsSound _ _ _ h)⟩
  | doorbell | qBaseWrite | cqBaseWrite | qEnableWrite | cqHeadWrite =>
    exact ⟨_, rfl, State.runPairs_pairsSound (Chip.queueWrite_pairsSound _ _ _ _ _ _ _ h)⟩
  | heartbeat => exact ⟨_, rfl, State.runPairs_pairsSound (Chip.pageWrite_pairsSound _ _ _ _ _ _ _ h)⟩
  | flushNow | mramCopy | clear | note | blobWrite | fwGo | partReinstate | deviceReinstate | setTime | arm | traceStop | trigNow
  | snapNow => exact ⟨_, rfl, State.runPairs_pairsSound (Chip.writePage_pairsSound _ _ _ _ _ h)⟩
  | vauxLoss => exact ⟨_, rfl, State.runPairs_pairsSound pairsSound_nil⟩
  | coldBoot t fresh =>
    refine ⟨_, rfl, State.runPairs_pairsSound ?_⟩
    cases fresh
    case false => exact h
    case true => exact pairsSound_nil
  | _ => exact ⟨_, rfl, State.run_pairsSound _ _ h⟩

/-- Settles O5, by the command at the front of the queue: what it does to the open pairs is a write of a page, a dropped pair, or
nothing. -/
theorem openPairsStaySound : Obligations.OpenPairsStaySound := by
  unfold Obligations.OpenPairsStaySound
  intro s s' h stepped
  cases waiting : s.pending with
  | nil =>
    rw [step_nil s waiting] at stepped
    cases stepped
    exact h
  | cons i r =>
    rw [step_cons s i r waiting] at stepped
    obtain ⟨s'', ran, sound⟩ := exec_pairsSound i { s with pending := r } h
    cases ran.symm.trans stepped
    exact sound

end Sys2Proof.Machine
end

section
/-! SUPPORT. The values after reset, and the states that refute two of the statements about registers and queues. -/

namespace Sys2Proof.Machine

open Sys2Proof

/-- Settles O3: nothing is listed after reset, and a field that is not listed holds the reset value of its row. -/
theorem resetValues : Obligations.ResetValues :=
  ⟨⟨fun _ _ _ => rfl, fun _ _ => rfl⟩, fun _ => ⟨rfl, rfl⟩, rfl, rfl, rfl, rfl, rfl, rfl, rfl⟩

/-- The state after reset, but for the two bits of BOUNDARY of the FAIL page of partition 3: the register file lists a 4 for them. -/
def wideBoundary : State :=
  { chip := { regs := { vals := [(Reg.key .COMMON_BOUNDARY 3 Page.FAIL.ctorIdx, 4)] } } }

theorem wideBoundary_reaches_fail : wideBoundary.reaches 0 0 .FAIL 3 := by decide +kernel

/-- The commit writes BOUNDARY as well; of the 4 its upper bit stays, so that the value is clamped to 3 and counted in CLAMPS. -/
theorem wideBoundary_commit_counts_clamp :
    (wideBoundary.runPairs 0 fun c ps => c.hostWriteAt ps 0 (.bar0 0x130D000) 0x20 (setBit 0 31 true)).reg .FAIL_CLAMPS 3 = 1 := by
  decide +kernel

/-- Refutes O44, in its clause about an explicit commit: no premise says that the values of the page fit their fields. On a page whose
BOUNDARY is listed wider than its two bits the write that commits clamps it, and CLAMPS, a field of the FAIL page with nothing pending,
counts that instead of keeping its value. -/
theorem not_registerWrites : ¬ Obligations.RegisterWrites := by
  unfold Obligations.RegisterWrites
  rintro ⟨-, commits, -⟩
  obtain ⟨s', ran, value, -⟩ :=
    commits 0 0 0x130D000 0 3 0 .FAIL_CLAMPS wideBoundary wideBoundary_reaches_fail (by decide) (by decide +kernel) rfl
  cases ran
  exact absurd (wideBoundary_commit_counts_clamp.symm.trans value) (by decide +kernel)

/-- The Mule queue of context 20,736, which no G9 has, in partition 0: the key of its completion tail is that of MULE_CHECK_FAILS of
partition 0. -/
def strayQueue : QId := .mule 20736 0

/-- A command fetched from that queue through port 0. -/
def strayCmd : Cmd := { q := strayQueue, d := { opcode := 0x20, tag := 7 }, port := some 0 }

/-- A block that has fetched this command, with a host on port 0 that takes records. -/
def strayState : State :=
  { chip := { regs := { vals := [(Reg.key .HOSTPORT_LINK_UP 0 0, 1)] }, hostPorts := [(0, { busMaster := true })],
              cmds := [strayCmd], cmdSeq := 1 } }

/-- A failed tile check is counted before the record is written, and the count moves the tail on: the record comes one place late. -/
theorem strayState_record_misplaced :
    ¬ strayState.recorded (strayState.run 0 fun c => c.commandComplete strayQueue 7 [0x02] 0) 0 strayQueue strayCmd
      (Chip.worst [0x02]) 0 := by
  decide +kernel

/-- Refutes O45, in its clause about COMMAND_COMPLETE: the clause takes a queue of any context number, without the bound of 64 that its
neighbour for Mule queues has. The completion tail of context 20,736 has the key of the counter of failed tile checks, so the two are one
register. -/
theorem not_queueRegisters : ¬ Obligations.QueueRegisters := by
  unfold Obligations.QueueRegisters
  rintro ⟨-, -, -, -, -, completes, -⟩
  obtain ⟨s', ran, recorded, -⟩ :=
    completes 0 7 0 strayQueue strayCmd [0x02] strayState rfl (by decide +kernel) (by decide +kernel)
  cases ran
  exact strayState_record_misplaced recorded

end Sys2Proof.Machine
end

section
/-! SUPPORT. The state that refutes the statement about the events of a host port. -/

namespace Sys2Proof.Machine

open Sys2Proof

/-- A number that no port has and ACTIVE_PORT, one bit wide, cannot show: the key of Q_ENABLE of its context queue is that of FAILOVERS. -/
def strayPort : Nat := 339968

/-- The state after reset, in dual active/standby mode, with one failover counted; ACTIVE_PORT lists the stray number. -/
def strayActive : State :=
  { chip := { regs := { vals := [(Reg.key .DEVICE_HOST_CFG 0 0, 2), (Reg.key .DEVICE_ACTIVE_PORT 0 0, strayPort),
                                 (Reg.key .DEVICE_FAILOVERS 0 0, 1)] } } }

theorem strayActive_port_isStandby : (strayActive.found 0).isStandby 0 = true := by decide +kernel

/-- Stopping the queue clears the count, so that after the failover it is 1 and not 2. -/
theorem strayActive_takeover_failovers : (strayActive.run 0 fun c => c.takeover 0).reg .DEVICE_FAILOVERS 0 = 1 := by
  decide +kernel

/-- Refutes O43, in its clause about TAKEOVER: the clause bounds the port that takes over but not the active port `a`, and no premise
says that ACTIVE_PORT fits its one bit. The failover first stops the context queue of port `a`; where `a` is the stray number that write
falls on FAILOVERS, and the count of failovers is lost instead of going up by one. -/
theorem not_hostPortEvents : ¬ Obligations.HostPortEvents := by
  unfold Obligations.HostPortEvents
  rintro ⟨-, -, -, -, -, -, -, takes, -⟩
  obtain ⟨s', ran, -, counted, -⟩ := takes 0 0 strayPort strayActive (by decide) strayActive_port_isStandby rfl rfl
  cases ran
  exact absurd (strayActive_takeover_failovers.symm.trans counted) (by decide +kernel)

end Sys2Proof.Machine
end

section
/-! SUPPORT. A command that acts on one agent: what the step leaves of the agent's record and what leaves the block, read from the
agent's own work; and the agent's registers after an event is counted. -/

namespace Sys2Proof.Machine

open Sys2Proof

namespace RegFile

/-- Counting events in one field leaves the other fields alone, also on another page of the same kind. -/
theorem get_count_far (f : RegFile) {r r' : Reg} {i i' : Nat} (n : Nat) (h : r ≠ r') (hi : i < 4096) (hi' : i' < 4096) :
    (f.count r i 0 n).get r' i' 0 = f.get r' i' 0 :=
  get_set_far f _ h hi hi' (by decide) (by decide)

/-- A 64-bit counter after one event (R13). -/
theorem get_count_one (f : RegFile) {r : Reg} (i : Nat) (h : r.width = 64) :
    (f.count r i 0 1).get r i 0 = countUp (f.get r i 0) := by
  rw [get_count, if_pos rfl, h, trunc, Nat.mod_eq_of_lt (by omega)]

end RegFile

namespace AC

/-! Registers after an update -/

theorem reg_setReg (c : AC) (r r' : Reg) (v : Nat) : (c.setReg r v).reg r' = if r = r' then trunc r.width v else c.reg r' := by
  simp [reg]

theorem reg_count_other (c : AC) {r r' : Reg} (h : r ≠ r') : (c.count r).reg r' = c.reg r' := by
  simp [reg, h]

/-- A 64-bit counter of an agent after one event. -/
theorem reg_count_one (c : AC) {r : Reg} (h : r.width = 64) : (c.count r).reg r = countUp (c.reg r) :=
  RegFile.get_count_one _ 0 h

end AC

/-! What an agent starts from -/

@[simp] theorem State.unit_a (s : State) (t : Nat) (u : UnitId) : (s.unit t u).a = s.chip.agent u := rfl
@[simp] theorem State.unit_u (s : State) (t : Nat) (u : UnitId) : (s.unit t u).u = u := rfl
@[simp] theorem State.unit_out (s : State) (t : Nat) (u : UnitId) : (s.unit t u).out = [] := rfl
@[simp] theorem State.unit_reg (s : State) (t : Nat) (u : UnitId) (r : Reg) : (s.unit t u).reg r = s.ureg u r := rfl

/-! What the step leaves -/

/-- The record of an agent after its own work. -/
theorem State.agent_run_atAgent (s : State) (t : Nat) {u : UnitId} (f : Chip → AC → AC) (h : u.profile ≠ .partition) :
    (s.run t fun c => c.atAgent u (f c)).chip.agent u = (f (s.chip.started t) (s.unit t u)).a := by
  rw [State.run_chip, Chip.run_started, Chip.atAgent, if_neg h, Chip.agent_onAgent]
  rfl

/-- An agent's own work is all that leaves the block. -/
theorem State.out_run_atAgent (s : State) (t : Nat) {u : UnitId} (f : Chip → AC → AC) (h : u.profile ≠ .partition) :
    (s.run t fun c => c.atAgent u (f c)).chip.out = (f (s.chip.started t) (s.unit t u)).out := by
  rw [State.run_chip, Chip.run_started, Chip.atAgent, if_neg h, Chip.out_onAgent]
  exact List.append_nil _

theorem State.ureg_run_atAgent (s : State) (t : Nat) {u : UnitId} (f : Chip → AC → AC) (h : u.profile ≠ .partition) (q : Reg) :
    (s.run t fun c => c.atAgent u (f c)).ureg u q = (f (s.chip.started t) (s.unit t u)).reg q := by
  rw [State.ureg, State.agent_run_atAgent s t f h]
  rfl

theorem State.upreg_run_atAgent (s : State) (t : Nat) {u : UnitId} (f : Chip → AC → AC) (h : u.profile ≠ .partition)
    (q : Reg) (k : Nat) :
    (s.run t fun c => c.atAgent u (f c)).upreg u q k = (f (s.chip.started t) (s.unit t u)).preg q k := by
  rw [State.upreg, State.agent_run_atAgent s t f h]
  rfl

theorem State.port_run_atAgent (s : State) (t : Nat) {u : UnitId} (f : Chip → AC → AC) (h : u.profile ≠ .partition) (k : Nat) :
    ((s.run t fun c => c.atAgent u (f c)).unit t u).port k = (f (s.chip.started t) (s.unit t u)).port k := by
  rw [AC.port, State.unit_a, State.agent_run_atAgent s t f h]
  rfl

/-- The record of an agent after a notice or an answer that it takes. -/
theorem State.agent_run_onMsg {s : State} {t : Nat} {e : Env} {r : AC.Right} (k : Nat) (f : AC → AC) (h : s.takes t e r) :
    (s.run t fun c => c.onMsg e k r f).chip.agent e.unit = (f ((s.unit t e.unit).met e k)).a := by
  obtain ⟨hp, hport, hgood, hallowed⟩ := h
  rw [State.run_chip, Chip.run_started, Chip.onMsg_ok (s.chip.started t) e k r f hp (by omega) hgood hallowed, Chip.agent_onAgent]
  rfl

theorem State.ureg_run_onMsg {s : State} {t : Nat} {e : Env} {r : AC.Right} (k : Nat) (f : AC → AC) (h : s.takes t e r) (q : Reg) :
    (s.run t fun c => c.onMsg e k r f).ureg e.unit q = (f ((s.unit t e.unit).met e k)).reg q := by
  rw [State.ureg, State.agent_run_onMsg k f h]
  rfl

/-- A message that is heard leaves the registers as they are that are not its own to move. -/
theorem AC.met_reg (c : AC) (e : Env) (k : Nat) {r : Reg} (h : AC.metMoves r = false) : (c.met e k).reg r = c.reg r :=
  AC.met_get c e k r h 0 (by decide)

theorem metMoves_of_notMem {r : Reg} (h : r ∉ messageRegs) : AC.metMoves r = false := by
  simp only [messageRegs, List.mem_cons, not_or] at h
  obtain ⟨hnext, hreserved, hmode, -⟩ := h
  simp [AC.metMoves, hnext, hreserved, hmode]

/-- A message moves what the message's own effect moves, beside the registers of every message. -/
theorem State.keepsBut_run_onMsg {s : State} {t : Nat} {e : Env} {r : AC.Right} (k : Nat) {f : AC → AC} {moved : List Reg}
    (h : s.takes t e r)
    (keeps : ∀ q, q ∉ moved → (f ((s.unit t e.unit).met e k)).reg q = ((s.unit t e.unit).met e k).reg q) :
    s.keepsBut (s.run t fun c => c.onMsg e k r f) e.unit (messageRegs ++ moved) := by
  intro q hq
  obtain ⟨hmsg, hmoved⟩ : q ∉ messageRegs ∧ q ∉ moved := by simpa using hq
  rw [State.ureg_run_onMsg k f h, keeps q hmoved, AC.met_reg _ e k (metMoves_of_notMem hmsg), State.unit_reg]

end Sys2Proof.Machine
end

section
/-! SUPPORT. The rate L of LOOSE traffic: what an echo and a quiet spell leave of it (R65, R75). -/

namespace Sys2Proof.Machine

open Sys2Proof

namespace AC

/-! An echo -/

/-- An echo that finds no halving within the last 8,192 ticks halves L. -/
theorem gotEcho_halves (c : AC) (unpinned : c.reg .ALOOSE_PIN = 0)
    (due : (c.a.lastHalving.all fun h => h + 8192 ≤ c.now) = true) :
    c.gotEcho = (((c.count .ALOOSE_ECHOES_RX).setReg .ALOOSE_RATE (max (c.reg .ALOOSE_FLOOR) (c.reg .ALOOSE_RATE / 2))).count
      .ALOOSE_HALVINGS).mod fun a => { a with lastHalving := some c.now, lastRise := c.now } := by
  simp only [reg] at unpinned
  cases last : c.a.lastHalving <;> simp_all [gotEcho, reg]

/-- Under PIN an echo is only counted. -/
theorem gotEcho_pinned (c : AC) (pinned : c.reg .ALOOSE_PIN ≠ 0) : c.gotEcho = c.count .ALOOSE_ECHOES_RX := by
  simp only [reg] at pinned
  simp [gotEcho, reg, pinned]

section
variable {c : AC} (unpinned : c.reg .ALOOSE_PIN = 0) (due : (c.a.lastHalving.all fun h => h + 8192 ≤ c.now) = true)
include unpinned due

theorem gotEcho_reg (r : Reg) :
    c.gotEcho.reg r = (((c.count .ALOOSE_ECHOES_RX).setReg .ALOOSE_RATE (max (c.reg .ALOOSE_FLOOR) (c.reg .ALOOSE_RATE / 2))).count
      .ALOOSE_HALVINGS).reg r := by
  rw [gotEcho_halves c unpinned due]
  rfl

theorem gotEcho_rate : c.gotEcho.reg .ALOOSE_RATE = trunc 20 (max (c.reg .ALOOSE_FLOOR) (c.reg .ALOOSE_RATE / 2)) := by
  rw [gotEcho_reg unpinned due, reg_count_other _ (by decide), reg_setReg, if_pos rfl]
  rfl

theorem gotEcho_echoes : c.gotEcho.reg .ALOOSE_ECHOES_RX = countUp (c.reg .ALOOSE_ECHOES_RX) := by
  rw [gotEcho_reg unpinned due, reg_count_other _ (by decide), reg_setReg, if_neg (by decide),
    reg_count_one _ rfl]

theorem gotEcho_halvings : c.gotEcho.reg .ALOOSE_HALVINGS = countUp (c.reg .ALOOSE_HALVINGS) := by
  rw [gotEcho_reg unpinned due, reg_count_one _ rfl, reg_setReg, if_neg (by decide),
    reg_count_other _ (by decide)]

theorem gotEcho_lastHalving : c.gotEcho.a.lastHalving = some c.now := by
  rw [gotEcho_halves c unpinned due]
  rfl

theorem gotEcho_reg_other {r : Reg} (h : r ∉ [Reg.ALOOSE_RATE, .ALOOSE_ECHOES_RX, .ALOOSE_HALVINGS]) : c.gotEcho.reg r = c.reg r := by
  obtain ⟨rate, echoes, halvings⟩ : r ≠ .ALOOSE_RATE ∧ r ≠ .ALOOSE_ECHOES_RX ∧ r ≠ .ALOOSE_HALVINGS := by simpa using h
  rw [gotEcho_reg unpinned due, reg_count_other _ halvings.symm, reg_setReg, if_neg rate.symm,
    reg_count_other _ echoes.symm]

end

/-! A quiet spell -/

theorem looseRise_due (c : AC) (due : c.a.lastRise + 16384 ≤ c.now) :
    c.looseRise = (c.setReg .ALOOSE_RATE (min (c.reg .ALOOSE_CEILING) (c.reg .ALOOSE_RATE + c.reg .ALOOSE_STEP))).mod
      fun a => { a with lastRise := c.now } := if_pos due

theorem looseRise_reg {c : AC} (due : c.a.lastRise + 16384 ≤ c.now) (r : Reg) :
    c.looseRise.reg r =
      if .ALOOSE_RATE = r then trunc 20 (min (c.reg .ALOOSE_CEILING) (c.reg .ALOOSE_RATE + c.reg .ALOOSE_STEP)) else c.reg r := by
  rw [looseRise_due c due]
  exact reg_setReg c .ALOOSE_RATE r _

end AC

/-- Settles O11: the message's own effect is `gotEcho`, whose two outcomes `gotEcho_halves` and `gotEcho_pinned` say, on registers that
the message has left as they were; a quiet spell ends in `looseRise`. -/
theorem looseRate : Obligations.LooseRate := by
  unfold Obligations.LooseRate
  refine ⟨?halves, ?pinned, ?rises⟩
  case halves =>
    intro t e marks job s taken unpinned due
    have met_reg : ∀ r, AC.metMoves r = false → ((s.unit t e.unit).met e 0x51).reg r = s.ureg e.unit r :=
      fun r h => AC.met_reg _ e 0x51 h
    have pin := (met_reg .ALOOSE_PIN rfl).trans unpinned
    have late : (((s.unit t e.unit).met e 0x51).a.lastHalving.all fun h => h + 8192 ≤ ((s.unit t e.unit).met e 0x51).now) = true := by
      rw [AC.met_lastHalving, AC.met_now]
      exact due
    refine ⟨_, rfl, ?_, ?_, ?_, ?_, State.keepsBut_run_onMsg 0x51 taken fun r h => AC.gotEcho_reg_other pin late h⟩
    · rw [State.ureg_run_onMsg 0x51 _ taken, AC.gotEcho_rate pin late, met_reg _ rfl, met_reg _ rfl]
    · rw [State.ureg_run_onMsg 0x51 _ taken, AC.gotEcho_echoes pin late, met_reg _ rfl]
    · rw [State.ureg_run_onMsg 0x51 _ taken, AC.gotEcho_halvings pin late, met_reg _ rfl]
    · rw [State.agent_run_onMsg 0x51 _ taken, AC.gotEcho_lastHalving pin late, AC.met_now]
  case pinned =>
    intro t e marks job s taken pinned
    have met_reg : ∀ r, AC.metMoves r = false → ((s.unit t e.unit).met e 0x51).reg r = s.ureg e.unit r :=
      fun r h => AC.met_reg _ e 0x51 h
    have counts := AC.gotEcho_pinned ((s.unit t e.unit).met e 0x51) (by rwa [met_reg _ rfl])
    refine ⟨_, rfl, ?_, State.keepsBut_run_onMsg 0x51 taken fun r h => ?_⟩
    · rw [State.ureg_run_onMsg 0x51 _ taken, counts, AC.reg_count_one _ rfl, met_reg _ rfl]
    · rw [counts, AC.reg_count_other _ fun same => h (by simp [same])]
  case rises =>
    intro t u s agent due
    refine ⟨_, rfl, ?_, ?_, fun r h => ?_⟩
    · rw [State.ureg_run_atAgent s t (fun _ => AC.looseRise) agent, AC.looseRise_reg due, if_pos rfl]
      rfl
    · rw [State.agent_run_atAgent s t (fun _ => AC.looseRise) agent, AC.looseRise_due _ due]
      rfl
    · rw [State.ureg_run_atAgent s t (fun _ => AC.looseRise) agent, AC.looseRise_reg due, if_neg fun same => h (by simp [← same])]
      rfl

end Sys2Proof.Machine
end

section
/-! SUPPORT. Flows and the runtime's operations on them (R59 to R61, R85, R90). -/

namespace Sys2Proof.Machine

open Sys2Proof

/-- The first element that passes is still found after the elements that pass are replaced by one that passes. -/
theorem find?_mapIf {α : Type} {p : α → Bool} {l : List α} {x y : α} (found : l.find? p = some x) (hy : p y = true) :
    (mapIf p (fun _ => y) l).find? p = some y := by
  induction l with
  | nil => cases found
  | cons z r ih =>
    cases hz : p z with
    | true => simp [mapIf, hz, hy]
    | false =>
      simp only [List.find?_cons, hz] at found
      simpa [mapIf, hz] using ih found

theorem mem_addOnce {α : Type} [DecidableEq α] (l : List α) (x : α) : x ∈ addOnce l x := by
  unfold addOnce
  split
  · assumption
  · simp

namespace AC

/-- A flow entry that is found under a source and a flow is of that source and flow. -/
theorem flow_key {l : List Flow} {src flow : Nat} {f : Flow} (found : l.find? (fun x => x.src = src && x.flow = flow) = some f) :
    f.src = src ∧ f.flow = flow := by
  simpa using List.find?_some found

theorem setFlow_flows (c : AC) (f : Flow) :
    (c.setFlow f).a.flows = mapIf (fun x => x.src = f.src && x.flow = f.flow) (fun _ => f) c.a.flows := rfl

@[simp] theorem setFlow_out (c : AC) (f : Flow) : (c.setFlow f).out = c.out := rfl
@[simp] theorem setFlow_preg (c : AC) (f : Flow) (r : Reg) (k : Nat) : (c.setFlow f).preg r k = c.preg r k := rfl

/-- A flow's entry that is replaced is found under its source and flow. -/
theorem find?_setFlow (c : AC) {src flow : Nat} {f g : Flow}
    (found : c.a.flows.find? (fun x => x.src = src && x.flow = flow) = some f) (hsrc : g.src = src) (hflow : g.flow = flow) :
    (c.setFlow g).a.flows.find? (fun x => x.src = src && x.flow = flow) = some g := by
  subst hsrc hflow
  exact find?_mapIf found (by simp)

/-- A flow that has not had all the chunks that it expects goes on. -/
theorem tryComplete_short (c : AC) {src flow n : Nat} {f : Flow}
    (found : c.a.flows.find? (fun x => x.src = src && x.flow = flow) = some f) (expects : expected f = some n) (short : f.count < n) :
    c.tryComplete src flow = c := by
  simp only [tryComplete, found, expects]
  exact if_neg (Nat.not_le.2 short)

theorem postWait_new (c : AC) {src flow : Nat} (unknown : c.a.flows.find? (fun x => x.src = src && x.flow = flow) = none)
    (room : c.flowFull = false) :
    c.postWait src flow = c.mod fun a =>
      { a with flows := a.flows ++ [{ src := src, flow := flow, progress := c.now, waited := true }],
               ended := a.ended.filter (· ≠ (src, flow)) } := by
  simp only [postWait, unknown, room]
  rfl

theorem queueChunk_open (c : AC) {k : Chunk} (resolved : k.addr = none) (admits : k.mcast = true ∨ c.isFenced k.dst = false) :
    c.queueChunk k = c.mod fun a => { a with chunks := a.chunks ++ [k] } := by
  simp only [queueChunk, resolved]
  refine if_neg ?_
  obtain mcast | clear := admits <;> simp [*]

/-- A total lowered to more than has come is noted, and the flow goes on. -/
theorem lowerTotal_short (c : AC) {src flow total : Nat} {f : Flow}
    (found : c.a.flows.find? (fun x => x.src = src && x.flow = flow) = some f) (short : f.count < total) :
    c.lowerTotal src flow total = c.setFlow { f with lowered := some total } := by
  obtain ⟨hsrc, hflow⟩ := flow_key found
  simp only [lowerTotal, found]
  exact tryComplete_short _ (find?_setFlow c found hsrc hflow) rfl short

theorem flowTimeout_due (c : AC) {src flow : Nat} {f : Flow}
    (found : c.a.flows.find? (fun x => x.src = src && x.flow = flow) = some f) (waited : f.waited = true)
    (due : f.progress + c.reg .ACONTROL_FLOW_TIMEOUT * 131072 ≤ c.now) : c.flowTimeout src flow = c.endFlow f 0x01 := by
  simp only [flowTimeout, found]
  exact if_pos ⟨waited, due⟩

/-- A flow that ends TIMEOUT is released and kept as ended, and the event is counted. -/
theorem endFlow_timeout_a (c : AC) (f : Flow) :
    (c.endFlow f 0x01).a = { c.a with
      flows := c.a.flows.filter fun x => !(x.src = f.src && x.flow = f.flow),
      ended := addOnce c.a.ended (f.src, f.flow),
      regs := c.a.regs.count .AFLOWS_DONE_TIMEOUT 0 0 1 } := rfl

theorem endFlow_timeout_out (c : AC) (f : Flow) :
    (c.endFlow f 0x01).out = .flowDone c.u f.src f.flow f.count 0x01 :: c.out := rfl

theorem endFlow_timeout_reg (c : AC) (f : Flow) (r : Reg) : (c.endFlow f 0x01).reg r = (c.count .AFLOWS_DONE_TIMEOUT).reg r := rfl

theorem readNotice_cons (c : AC) {m : Msg} {r : List Msg} (waiting : c.a.notices = m :: r) :
    c.readNotice = (c.mod fun a => { a with notices := r }).emit (.notice c.u m) := by
  simp only [readNotice, waiting]

end AC

/-- Settles O10: each operation's own effect is said by a lemma about the agent at work, and the step leaves exactly that. -/
theorem runtimeOperations : Obligations.RuntimeOperations := by
  unfold Obligations.RuntimeOperations
  refine ⟨?wait, ?chunk, ?total, ?timeout, ?notice⟩
  case wait =>
    intro t u src flow s agent unknown room
    refine ⟨_, rfl, ?_⟩
    rw [State.agent_run_atAgent s t (fun _ a => a.postWait src flow) agent, AC.postWait_new _ unknown room]
    rfl
  case chunk =>
    intro t u k s agent resolved admits
    refine ⟨_, rfl, ?_, ?_⟩
    · rw [State.agent_run_atAgent s t (fun _ a => a.queueChunk k) agent, AC.queueChunk_open _ resolved admits]
      rfl
    · rw [State.out_run_atAgent s t (fun _ a => a.queueChunk k) agent, AC.queueChunk_open _ resolved admits]
      rfl
  case total =>
    intro t u src flow total f s agent found short
    refine ⟨_, rfl, ?_, ?_⟩
    · rw [State.agent_run_atAgent s t (fun _ a => a.lowerTotal src flow total) agent, AC.lowerTotal_short _ found short]
      rfl
    · rw [State.out_run_atAgent s t (fun _ a => a.lowerTotal src flow total) agent, AC.lowerTotal_short _ found short]
      rfl
  case timeout =>
    intro t u src flow f s agent found waited due
    have ends := AC.flowTimeout_due (s.unit t u) found waited due
    have left := State.agent_run_atAgent s t (fun _ a => a.flowTimeout src flow) agent
    have reads := State.ureg_run_atAgent s t (fun _ a => a.flowTimeout src flow) agent
    simp only [ends, AC.endFlow_timeout_a, AC.endFlow_timeout_reg] at left reads
    refine ⟨_, rfl, ?_, ?_, ?_, ?_, fun r h => ?_⟩
    · rw [State.out_run_atAgent s t (fun _ a => a.flowTimeout src flow) agent, ends]
      rfl
    · rw [left]
      rfl
    · rw [left]
      exact mem_addOnce _ _
    · rw [reads, AC.reg_count_one _ rfl]
      rfl
    · rw [reads, AC.reg_count_other _ fun same => h (by simp [same])]
      rfl
  case notice =>
    intro t u m r s agent waiting
    refine ⟨_, rfl, ?_, ?_⟩
    · rw [State.agent_run_atAgent s t (fun _ => AC.readNotice) agent, AC.readNotice_cons _ waiting]
      rfl
    · rw [State.out_run_atAgent s t (fun _ => AC.readNotice) agent, AC.readNotice_cons _ waiting]
      rfl

end Sys2Proof.Machine
end

section
/-! SUPPORT. Ports of an agent: what counting at a port, a change of a port and the sending of a packet leave of the rest (R53, R54,
R325). -/

namespace Sys2Proof.Machine

open Sys2Proof

namespace AC

/-! Counting at a port, changing a port -/

theorem sameBut_modPort (c : AC) (k : Nat) (f : AgentPort → AgentPort) : sameBut c.a (c.modPort k f).a := by
  rw [modPort_a]
  exact sameBut_ports _ _

theorem pcountN_of_counts (c : AC) (r : Reg) (k n : Nat) (h : c.u.profile ≠ .circuit) :
    c.pcountN r k n = { c with a := { c.a with regs := c.a.regs.count r k 0 n } } := by
  simp [pcountN, h]

/-- Counting at a port leaves every other field alone, of this port or of another. -/
theorem pcountN_preg_other (c : AC) {r r' : Reg} {k k' : Nat} (n : Nat) (h : r ≠ r') (hk : k < 4096) (hk' : k' < 4096) :
    (c.pcountN r k n).preg r' k' = c.preg r' k' := by
  unfold pcountN
  split
  · rfl
  · exact RegFile.get_count_far _ n h hk hk'

/-- A 64-bit counter of a port after one event. -/
theorem pcount_preg_one (c : AC) {r : Reg} (k : Nat) (h : c.u.profile ≠ .circuit) (wide : r.width = 64) :
    (c.pcount r k).preg r k = countUp (c.preg r k) := by
  rw [pcount, pcountN_of_counts c r k 1 h]
  exact RegFile.get_count_one _ k wide

@[simp] theorem pcountN_port (c : AC) (r : Reg) (k n q : Nat) : (c.pcountN r k n).port q = c.port q := by
  obtain ⟨f, h⟩ := pcountN_a c r k n
  simp [port, h]

@[simp] theorem modPort_preg (c : AC) (k : Nat) (f : AgentPort → AgentPort) (r : Reg) (q : Nat) :
    (c.modPort k f).preg r q = c.preg r q := rfl

@[simp] theorem emit_port (c : AC) (e : Emission) (q : Nat) : (c.emit e).port q = c.port q := rfl

@[simp] theorem emit_preg (c : AC) (e : Emission) (r : Reg) (q : Nat) : (c.emit e).preg r q = c.preg r q := rfl

end AC

end Sys2Proof.Machine
end

section
/-! SUPPORT. A frame at an agent's port: the port once the link checks have passed, and what becomes of the packet (R53, R59, R60, R76,
R325). -/

namespace Sys2Proof.Machine

open Sys2Proof

/-! The choice of an output looks at the 64 ports of a switch alone (R117). -/

theorem pairOf_congr {up up' : Nat → Bool} {base k : Nat} (first : up (base + k) = up' (base + k))
    (second : up (base + 1 - k) = up' (base + 1 - k)) : pairOf up base k = pairOf up' base k := by
  simp only [pairOf, first, second]

theorem leafRotate_congr {up up' : Nat → Bool} (agree : ∀ q < 64, up q = up' q) (p s : Nat) {k : Nat} (hk : k < 2) (n : Nat) :
    ∀ i, leafRotate up p s k n i = leafRotate up' p s k n i := by
  induction n with
  | zero => exact fun i => rfl
  | succ n ih =>
    intro i
    have pair : pairOf up (32 + 2 * ((s + i) % 16)) k = pairOf up' (32 + 2 * ((s + i) % 16)) k :=
      pairOf_congr (agree _ (by omega)) (agree _ (by omega))
    simp only [leafRotate, ih, pair]

theorem leafOut_congr {up up' : Nat → Bool} (agree : ∀ q < 64, up q = up' q) {p : Nat} (hp : p < 64) (src dst : Nat) :
    leafOut up p src dst = leafOut up' p src dst := by
  have pair : pairOf up (p - p % 2) (p % 2) = pairOf up' (p - p % 2) (p % 2) :=
    pairOf_congr (agree _ (by omega)) (agree _ (by omega))
  have rotation := leafRotate_congr agree p ((src + dst) % 16) (Nat.mod_lt ((src + dst) / 16) (by decide : 0 < 2)) 16 0
  simp only [leafOut, agree p hp, pair, rotation]

namespace AC

/-- The agent once a frame has passed the checks of its link at port `k`: the link end moves on and the port counts the frame. -/
def arrived (c : AC) (k : Nat) (f : Frame) (l : LinkEnd) : AC :=
  (((c.pcountN .APORT_FEC_CORRECTED k f.corrected).modPort k fun s => { s with link := l }).pcount .APORT_RX_PACKETS k).pcountN
    .APORT_RX_BYTES k (64 + f.pkt.len)

/-- A frame that passes the checks of the link has its packet received. -/
theorem frame_ok (c : AC) {k : Nat} {f : Frame} {l : LinkEnd} (line : Bool → Option Nat) (framed : c.u.profile ≠ .circuit)
    (enabled : (c.port k).disabled = false) (passes : linkCheck (c.port k).link c.now false f = .ok l) :
    c.frame k f line = (c.arrived k f l).receivePacket f.pkt k line := by
  have takes : c.takesFrames k = true := by simp [takesFrames, enabled, framed]
  simp only [frame, takes, pcountN_port, pcountN_now, passes]
  rfl

section
variable (c : AC) (k : Nat) (f : Frame) (l : LinkEnd)

@[simp] theorem arrived_u : (c.arrived k f l).u = c.u := by simp [arrived, pcount]
@[simp] theorem arrived_now : (c.arrived k f l).now = c.now := by simp [arrived, pcount]
@[simp] theorem arrived_out : (c.arrived k f l).out = c.out := by simp [arrived, pcount]

theorem arrived_sameBut : sameBut c.a (c.arrived k f l).a :=
  sameBut_trans (sameBut_pcountN c _ k _) <| sameBut_trans (sameBut_modPort _ k _) <|
    sameBut_trans (sameBut_pcountN _ .APORT_RX_PACKETS k 1) (sameBut_pcountN _ _ k _)

@[simp] theorem arrived_flows : (c.arrived k f l).a.flows = c.a.flows := by rw [arrived_sameBut c k f l]
@[simp] theorem arrived_ended : (c.arrived k f l).a.ended = c.a.ended := by rw [arrived_sameBut c k f l]
@[simp] theorem arrived_fences : (c.arrived k f l).a.fences = c.a.fences := by rw [arrived_sameBut c k f l]
@[simp] theorem arrived_banks : (c.arrived k f l).a.banks = c.a.banks := by rw [arrived_sameBut c k f l]
@[simp] theorem arrived_flipAt : (c.arrived k f l).a.flipAt = c.a.flipAt := by rw [arrived_sameBut c k f l]
@[simp] theorem arrived_staticUntil : (c.arrived k f l).a.staticUntil = c.a.staticUntil := by rw [arrived_sameBut c k f l]

/-- Of a port, a frame that arrives changes the link end alone. -/
theorem arrived_port_next (q : Nat) : ((c.arrived k f l).port q).next = (c.port q).next := by
  obtain rfl | other := eq_or_ne k q
  · simp [arrived, pcount]
  · simp [arrived, pcount, port_modPort_other _ _ other]

end

/-- The fields of a PORT page that a frame which has arrived moves. -/
def arrivalMoves (r : Reg) : Bool := r == .APORT_FEC_CORRECTED || r == .APORT_RX_PACKETS || r == .APORT_RX_BYTES

section
variable {c : AC} {k : Nat} {f : Frame} {l : LinkEnd} (hk : k < 4096)
include hk

theorem arrived_preg {r : Reg} {q : Nat} (hq : q < 4096) (h : arrivalMoves r = false) :
    (c.arrived k f l).preg r q = c.preg r q := by
  obtain ⟨⟨corrected, packets⟩, bytes⟩ : (r ≠ .APORT_FEC_CORRECTED ∧ r ≠ .APORT_RX_PACKETS) ∧ r ≠ .APORT_RX_BYTES := by
    simpa [arrivalMoves] using h
  rw [arrived, pcountN_preg_other _ _ bytes.symm hk hq, pcount, pcountN_preg_other _ _ packets.symm hk hq, modPort_preg,
    pcountN_preg_other _ _ corrected.symm hk hq]

theorem arrived_reg {r : Reg} (h : arrivalMoves r = false) : (c.arrived k f l).reg r = c.reg r := arrived_preg hk (by decide) h

theorem arrived_packets (framed : c.u.profile ≠ .circuit) :
    (c.arrived k f l).preg .APORT_RX_PACKETS k = countUp (c.preg .APORT_RX_PACKETS k) := by
  rw [arrived, pcountN_preg_other _ _ (by decide) hk hk, pcount_preg_one _ k (by simpa using framed) rfl, modPort_preg,
    pcountN_preg_other _ _ (by decide) hk hk]

theorem arrived_lookup (dst : Nat) : (c.arrived k f l).lookup dst = c.lookup dst := by
  have bank : (c.arrived k f l).bank = c.bank := by
    simp [bank, arrived_reg hk (r := .ABANKS_STATIC_IN_USE) rfl, arrived_reg hk (r := .ABANKS_ACTIVE_BANK) rfl]
  unfold lookup bankByte
  rw [bank, arrived_banks, arrived_u]

/-- The output that a leaf chooses does not depend on what the frame has counted. -/
theorem arrived_outputOf {z m e : Nat} (leaf : c.u = .leaf z m) (he : e < 64) (src dst : Nat) :
    (c.arrived k f l).outputOf e src dst = c.outputOf e src dst := by
  have ups : ∀ q < 64, (c.arrived k f l).up q = c.up q := fun q hq => by
    rw [up, arrived_preg hk (by omega) rfl, up]
  simp only [outputOf, arrived_u, leaf, leafOut_congr ups he]

end

theorem arrived_isFenced (c : AC) (k : Nat) (f : Frame) (l : LinkEnd) (fid : Nat) :
    (c.arrived k f l).isFenced fid = c.isFenced fid := by
  unfold isFenced fenceOf slot
  rw [arrived_fences, arrived_now]

theorem arrived_isStale (c : AC) (k : Nat) (f : Frame) (l : LinkEnd) (fid ep : Nat) :
    (c.arrived k f l).isStale fid ep = c.isStale fid ep := by
  unfold isStale fenceOf
  rw [arrived_fences]

theorem arrived_freeNext (c : AC) (k : Nat) (f : Frame) (l : LinkEnd) (q : Nat) :
    (c.arrived k f l).freeNext q = c.freeNext q := by
  unfold freeNext slot
  rw [arrived_port_next, arrived_now]

/-! A chunk at its endpoint -/

/-- A data packet for this endpoint passes the checks of R76. -/
theorem receivePacket_own (c : AC) {p : Packet} (k : Nat) (line : Bool → Option Nat) (endpoint : c.u.profile = .endpoint)
    (data : p.cls < 2) (length : p.len ≤ 12288) (good : badAddr p = false) (single : p.mcast = false)
    (own : p.dst = c.reg .AIDENT_FID) : c.receivePacket p k line = c.takeChunk p := by
  have sound : ¬(p.cls = 3 ∨ 12288 < p.len) := by omega
  have managed : p.cls ≠ clsMgmt := by simp only [clsMgmt]; omega
  simp [receivePacket, sound, good, endpoint, single, own, managed]

/-- A flow's entry once one more of its chunks has come (R59, R60). -/
def counted (f : Flow) (p : Packet) (now : Nat) : Flow :=
  { f with count := f.count + 1, viol := f.viol || p.viol, progress := now }

/-- A chunk of a known flow that does not complete it counts in the flow and is delivered. -/
theorem takeChunk_counts (c : AC) {p : Packet} {f : Flow} (unmarked : p.mark = false) (live : (p.src, p.flow) ∉ c.a.ended)
    (found : c.a.flows.find? (fun x => x.src = p.src && x.flow = p.flow) = some f) (declared : f.decl = some p.total)
    (full : f.lowered = none) (inside : p.seq < p.total) (more : f.count + 1 < p.total) :
    c.takeChunk p = (c.setFlow (counted f p c.now)).emit (.deliver c.u p) := by
  obtain ⟨hsrc, hflow⟩ := flow_key found
  have sound : ¬p.total ≤ p.seq := Nat.not_le.2 inside
  have again := find?_setFlow c (g := counted f p c.now) found hsrc hflow
  have expects : expected (counted f p c.now) = some p.total := by simp [expected, counted, full, declared]
  have goesOn : c.takeChunk p = ((c.setFlow (counted f p c.now)).emit (.deliver c.u p)).tryComplete p.src p.flow := by
    simp [takeChunk, unmarked, live, found, declared, sound, counted]
  rw [goesOn, tryComplete_short ((c.setFlow _).emit _) again expects more]

/-! A SCHED packet at a switch -/

/-- A SCHED packet that passes the checks of R76 at a switch and has an entry goes to the output that the entry names. -/
theorem receivePacket_sched (c : AC) {p : Packet} {e : Nat} (k : Nat) (line : Bool → Option Nat) (switch : c.u.profile = .switch)
    (sched : p.cls = 0) (length : p.len ≤ 12288) (good : badAddr p = false) (single : p.mcast = false)
    (hops : p.hops ≠ c.reg .ACONTROL_HOP_LIMIT) (unfenced : c.isFenced p.dst = false)
    (current : c.isStale p.dst p.fenceEpoch = false) (entry : c.lookup p.dst = some e) :
    c.receivePacket p k line =
      c.toOutput { p with hops := p.hops + 1 } (c.outputOf e p.src p.dst).1 (c.outputOf e p.src p.dst).2 (some k) := by
  have sound : ¬12288 < p.len := Nat.not_lt.2 length
  simp [receivePacket, sched, sound, good, switch, hops, single, unfenced, current, entry, clsMgmt]

/-- A SCHED packet takes the next slot of an output that has nothing assigned for it. -/
theorem toOutput_free (c : AC) {p : Packet} {q : Nat} (named : Nat) (inPort : Option Nat) (sched : p.cls = 0)
    (free : c.freeNext q = true) : c.toOutput p (some q) named inPort = c.assign q p named inPort := by
  cases waiting : (c.port q).next with
  | none => simp [toOutput, sched, waiting, clsSched]
  | some x =>
    have past : x.slot ≠ c.slot + 1 := by simpa [freeNext, waiting] using free
    simp [toOutput, sched, waiting, past, clsSched]

end AC

end Sys2Proof.Machine
end

section
/-! SUPPORT. The start of a slot at an output: one packet sent, and which packet the output serves (R49, R53, R54). -/

namespace Sys2Proof.Machine

open Sys2Proof

namespace AC

/-! One packet sent -/

section
variable (c : AC) (p : Packet)

@[simp] theorem noteSent_u : (c.noteSent p).u = c.u := by
  unfold noteSent
  split
  · split <;> rfl
  · rfl

@[simp] theorem noteSent_now : (c.noteSent p).now = c.now := by
  unfold noteSent
  split
  · split <;> rfl
  · rfl

@[simp] theorem noteSent_out : (c.noteSent p).out = c.out := by
  unfold noteSent
  split
  · split <;> rfl
  · rfl

theorem noteSent_a : ∃ r, (c.noteSent p).a = { c.a with timeReq := r } := by
  unfold noteSent
  split
  · split
    · exact ⟨_, rfl⟩
    · exact ⟨c.a.timeReq, rfl⟩
  · exact ⟨c.a.timeReq, rfl⟩

@[simp] theorem noteSent_port (q : Nat) : (c.noteSent p).port q = c.port q := by
  obtain ⟨r, h⟩ := noteSent_a c p
  simp [port, h]

@[simp] theorem noteSent_preg (r : Reg) (q : Nat) : (c.noteSent p).preg r q = c.preg r q := by
  obtain ⟨r, h⟩ := noteSent_a c p
  simp [preg, h]

end

section
variable {c : AC} {k : Nat} {p : Packet} (able : (c.port k).link.spent (txIndex (c.port k).link p) = false)
include able

/-- A packet whose index has a COUNTER left leaves the port in the current slot. -/
theorem transmit_out : (c.transmit k p).out = .packet c.u k c.slot (c.stamp p) :: c.out := by
  simp [transmit, able, pcount, slot]

/-- Sending leaves what is assigned to the port. -/
theorem transmit_next : ((c.transmit k p).port k).next = (c.port k).next := by
  simp [transmit, able, pcount]

theorem transmit_mgmtQ : ((c.transmit k p).port k).mgmtQ = (c.port k).mgmtQ := by
  simp [transmit, able, pcount]

theorem transmit_packets (framed : c.u.profile ≠ .circuit) (hk : k < 4096) :
    (c.transmit k p).preg .APORT_TX_PACKETS k = countUp (c.preg .APORT_TX_PACKETS k) := by
  simp only [transmit, able, Bool.false_eq_true, if_false]
  rw [emit_preg, pcountN_preg_other _ _ (by decide) hk hk, pcount_preg_one _ k (by simpa using framed) rfl, modPort_preg, noteSent_preg]

end

/-! The figures of a slot -/

section
variable (c : AC) (k depth : Nat)

@[simp] theorem slotFigures_out : (c.slotFigures k depth).out = c.out := by
  unfold slotFigures
  dsimp only
  split <;> simp [pcount]

@[simp] theorem slotFigures_next : ((c.slotFigures k depth).port k).next = (c.port k).next := by
  unfold slotFigures
  dsimp only
  split <;> simp [pcount]

@[simp] theorem slotFigures_mgmtQ : ((c.slotFigures k depth).port k).mgmtQ = (c.port k).mgmtQ := by
  unfold slotFigures
  dsimp only
  split <;> simp [pcount]

theorem slotFigures_packets (hk : k < 4096) : (c.slotFigures k depth).preg .APORT_TX_PACKETS k = c.preg .APORT_TX_PACKETS k := by
  have far : ∀ (d : AC) (r : Reg) (n : Nat), r ≠ .APORT_TX_PACKETS →
      (d.pcountN r k n).preg .APORT_TX_PACKETS k = d.preg .APORT_TX_PACKETS k :=
    fun d r n h => pcountN_preg_other d n h hk hk
  unfold slotFigures
  dsimp only
  split <;> simp [pcount, far]

end

/-! What the output serves -/

/-- Outside a management slot an output that is up sends the packet assigned to the slot. -/
theorem serve_assigned (c : AC) (line : Nat → LineOut) {k : Nat} (x : Assigned) (isUp : c.up k = true) (slot : c.slot % 64 ≠ 63) :
    c.serve line k (some x) = c.transmit k x.pkt := by
  simp [serve, isUp, slot]

/-- In a management slot with nothing assigned an output that is up sends the one management packet that waits (log 19). -/
theorem serve_management (c : AC) (line : Nat → LineOut) {k : Nat} {p : Packet} (isUp : c.up k = true) (slot : c.slot % 64 = 63)
    (waiting : (c.port k).mgmtQ = [p]) (fits : p.len ≤ 12288) :
    c.serve line k none = (c.modPort k fun s => { s with mgmtQ := [] }).transmit k p := by
  have inSlot : fitting 12352 [p] = ([p], []) := by rw [fitting, if_pos (by omega), fitting]
  simp [serve, isUp, slot, waiting, inSlot]

/-- The agent as its output at port `k` begins to serve the slot: nothing of the slot or of an earlier one stays assigned. -/
def opened (c : AC) (k : Nat) : AC := c.modPort k fun s => { s with lastStart := some c.slot, next := none }

/-- The agent once its output at port `k` has served the slot with what was assigned to it. -/
def served (c : AC) (line : Nat → LineOut) (k : Nat) : AC :=
  ((c.opened k).serve line k (c.port k).next).slotFigures k (c.port k).looseQ.length

/-- A slot that an output has not served yet is served; only the start of the quiet slots may be noted beside that (R78). -/
theorem slotStart_due (c : AC) (line : Nat → LineOut) {k : Nat} (due : c.slotDue k = true)
    (noRetry : ¬(c.slot % 64 = 63 ∧ k = c.reg .ATIME_PARENT_PORT)) (current : ∀ x, (c.port k).next = some x → x.slot = c.slot) :
    ∃ q, c.slotStart line k = (c.served line k).mod fun a => { a with quietFrom := q } := by
  have whole : c.slotStart line k =
      if c.inFlight k ≠ 0 then (c.served line k).mod fun a => { a with quietFrom := (c.served line k).now }
      else c.served line k := by
    cases assigned : (c.port k).next with
    | none => simp [slotStart, due, noRetry, served, opened, modPort, assigned]
    | some x => simp [slotStart, due, noRetry, served, opened, modPort, assigned, current x assigned]
  rw [whole]
  generalize c.served line k = d
  split
  · exact ⟨_, rfl⟩
  · exact ⟨d.a.quietFrom, rfl⟩

section
variable {c : AC} {line : Nat → LineOut} {k : Nat} (due : c.slotDue k = true)
  (noRetry : ¬(c.slot % 64 = 63 ∧ k = c.reg .ATIME_PARENT_PORT)) (current : ∀ x, (c.port k).next = some x → x.slot = c.slot)
include due noRetry current

theorem slotStart_out : (c.slotStart line k).out = (c.served line k).out := by
  obtain ⟨q, h⟩ := slotStart_due c line due noRetry current
  rw [h, mod_out]

theorem slotStart_port (j : Nat) : (c.slotStart line k).port j = (c.served line k).port j := by
  obtain ⟨q, h⟩ := slotStart_due c line due noRetry current
  rw [h, port, mod_a, port]

theorem slotStart_preg (r : Reg) (j : Nat) : (c.slotStart line k).preg r j = (c.served line k).preg r j := by
  obtain ⟨q, h⟩ := slotStart_due c line due noRetry current
  rw [h, preg, mod_a, preg]

end

@[simp] theorem opened_next (c : AC) (k : Nat) : ((c.opened k).port k).next = none := by simp [opened]
@[simp] theorem opened_link (c : AC) (k : Nat) : ((c.opened k).port k).link = (c.port k).link := by simp [opened]
@[simp] theorem opened_mgmtQ (c : AC) (k : Nat) : ((c.opened k).port k).mgmtQ = (c.port k).mgmtQ := by simp [opened]

theorem served_assigned (c : AC) (line : Nat → LineOut) {k : Nat} {x : Assigned} (isUp : c.up k = true) (slot : c.slot % 64 ≠ 63)
    (assigned : (c.port k).next = some x) :
    c.served line k = ((c.opened k).transmit k x.pkt).slotFigures k (c.port k).looseQ.length := by
  rw [served, assigned, serve_assigned (c.opened k) line x isUp slot]

theorem served_management (c : AC) (line : Nat → LineOut) {k : Nat} {p : Packet} (isUp : c.up k = true) (slot : c.slot % 64 = 63)
    (idle : (c.port k).next = none) (waiting : (c.port k).mgmtQ = [p]) (fits : p.len ≤ 12288) :
    c.served line k =
      (((c.opened k).modPort k fun s => { s with mgmtQ := [] }).transmit k p).slotFigures k (c.port k).looseQ.length := by
  rw [served, idle, serve_management (c.opened k) line isUp slot ((opened_mgmtQ c k).trans waiting) fits]

end AC

end Sys2Proof.Machine
end

section
/-! SUPPORT. The traffic of a link: what a frame or the start of a slot leaves of an agent in each case of O12. -/

namespace Sys2Proof.Machine

open Sys2Proof

namespace AC

/-! A frame -/

/-- A frame that carries a chunk of a known flow for this endpoint: the flow counts it, and it is delivered. -/
theorem frame_delivers (c : AC) {k : Nat} {f : Frame} {l : LinkEnd} {fl : Flow} (line : Bool → Option Nat)
    (endpoint : c.u.profile = .endpoint) (hk : k < 4096) (enabled : (c.port k).disabled = false)
    (passes : linkCheck (c.port k).link c.now false f = .ok l) (data : f.pkt.cls < 2) (length : f.pkt.len ≤ 12288)
    (good : badAddr f.pkt = false) (single : f.pkt.mcast = false) (own : f.pkt.dst = c.reg .AIDENT_FID) (unmarked : f.pkt.mark = false)
    (live : (f.pkt.src, f.pkt.flow) ∉ c.a.ended)
    (found : c.a.flows.find? (fun x => x.src = f.pkt.src && x.flow = f.pkt.flow) = some fl) (declared : fl.decl = some f.pkt.total)
    (full : fl.lowered = none) (inside : f.pkt.seq < f.pkt.total) (more : fl.count + 1 < f.pkt.total) :
    c.frame k f line = ((c.arrived k f l).setFlow (counted fl f.pkt c.now)).emit (.deliver c.u f.pkt) := by
  have ownThere : f.pkt.dst = (c.arrived k f l).reg .AIDENT_FID := own.trans (arrived_reg hk rfl).symm
  rw [frame_ok c line (by simp [endpoint]) enabled passes,
    receivePacket_own _ k line (by rwa [arrived_u]) data length good single ownThere,
    takeChunk_counts _ unmarked (by rwa [arrived_ended]) (by rwa [arrived_flows]) declared full inside more, arrived_now, arrived_u]

/-- A frame that carries a SCHED packet through a leaf: the packet takes the next slot of the output that its entry names. -/
theorem frame_assigns (c : AC) {z m k e q : Nat} {f : Frame} {l : LinkEnd} (line : Bool → Option Nat) (leaf : c.u = .leaf z m)
    (hk : k < 4096) (enabled : (c.port k).disabled = false) (passes : linkCheck (c.port k).link c.now false f = .ok l)
    (sched : f.pkt.cls = 0) (length : f.pkt.len ≤ 12288) (good : badAddr f.pkt = false) (single : f.pkt.mcast = false)
    (hops : f.pkt.hops ≠ c.reg .ACONTROL_HOP_LIMIT) (unfenced : c.isFenced f.pkt.dst = false)
    (fresh : c.isStale f.pkt.dst f.pkt.fenceEpoch = false) (entry : c.lookup f.pkt.dst = some e)
    (output : (c.outputOf e f.pkt.src f.pkt.dst).1 = some q) (free : c.freeNext q = true) :
    c.frame k f line = (c.arrived k f l).assign q { f.pkt with hops := f.pkt.hops + 1 } (c.outputOf e f.pkt.src f.pkt.dst).2 (some k) := by
  have switch : c.u.profile = .switch := by rw [leaf]; rfl
  have hopsThere : f.pkt.hops ≠ (c.arrived k f l).reg .ACONTROL_HOP_LIMIT := by rwa [arrived_reg hk rfl]
  rw [frame_ok c line (by simp [switch]) enabled passes,
    receivePacket_sched _ k line (by rwa [arrived_u]) sched length good single hopsThere (by rwa [arrived_isFenced])
      (by rwa [arrived_isStale]) ((arrived_lookup hk _).trans entry),
    arrived_outputOf hk leaf (lookup_lt c _ e entry), output]
  exact toOutput_free _ _ _ sched (by rwa [arrived_freeNext])

/-! The start of a slot -/

theorem slotDue_of {c : AC} {k : Nat} (start : c.now % 128 = 0) (unserved : (c.port k).lastStart ≠ some (c.now / 128)) :
    c.slotDue k = true := by
  simp [slotDue, start, slot, unserved]

section
variable (c : AC) (line : Nat → LineOut) {k : Nat} {x : Assigned} (due : c.slotDue k = true) (data : c.slot % 64 ≠ 63)
  (isUp : c.up k = true) (assigned : (c.port k).next = some x) (current : x.slot = c.slot)
  (able : (c.port k).link.spent (txIndex (c.port k).link x.pkt) = false)
include due data isUp assigned current able

/-- The packet assigned to the slot leaves, and nothing stays assigned. -/
theorem slotStart_assigned :
    (c.slotStart line k).out = .packet c.u k c.slot (c.stamp x.pkt) :: c.out ∧ ((c.slotStart line k).port k).next = none := by
  have noRetry : ¬(c.slot % 64 = 63 ∧ k = c.reg .ATIME_PARENT_PORT) := fun h => data h.1
  have only : ∀ y, (c.port k).next = some y → y.slot = c.slot := fun y h => by rwa [← Option.some.inj (assigned.symm.trans h)]
  have ableThere : ((c.opened k).port k).link.spent (txIndex ((c.opened k).port k).link x.pkt) = false := by rwa [opened_link]
  rw [slotStart_out due noRetry only, slotStart_port due noRetry only, served_assigned c line isUp data assigned, slotFigures_out,
    slotFigures_next, transmit_out ableThere, transmit_next ableThere, opened_next]
  exact ⟨rfl, rfl⟩

theorem slotStart_assigned_packets (framed : c.u.profile ≠ .circuit) (hk : k < 4096) :
    (c.slotStart line k).preg .APORT_TX_PACKETS k = countUp (c.preg .APORT_TX_PACKETS k) := by
  have noRetry : ¬(c.slot % 64 = 63 ∧ k = c.reg .ATIME_PARENT_PORT) := fun h => data h.1
  have only : ∀ y, (c.port k).next = some y → y.slot = c.slot := fun y h => by rwa [← Option.some.inj (assigned.symm.trans h)]
  have ableThere : ((c.opened k).port k).link.spent (txIndex ((c.opened k).port k).link x.pkt) = false := by rwa [opened_link]
  rw [slotStart_preg due noRetry only, served_assigned c line isUp data assigned, slotFigures_packets _ _ _ hk,
    transmit_packets ableThere framed hk]
  rfl

end

/-- In a management slot with nothing assigned, the one management packet that waits leaves its queue empty. -/
theorem slotStart_management (c : AC) (line : Nat → LineOut) {k : Nat} {p : Packet} (due : c.slotDue k = true)
    (management : c.slot % 64 = 63) (child : k ≠ c.reg .ATIME_PARENT_PORT) (isUp : c.up k = true) (idle : (c.port k).next = none)
    (waiting : (c.port k).mgmtQ = [p]) (fits : p.len ≤ 12288)
    (able : (c.port k).link.spent (txIndex (c.port k).link p) = false) :
    (c.slotStart line k).out = .packet c.u k c.slot (c.stamp p) :: c.out ∧ ((c.slotStart line k).port k).mgmtQ = [] := by
  have noRetry : ¬(c.slot % 64 = 63 ∧ k = c.reg .ATIME_PARENT_PORT) := fun h => child h.2
  have only : ∀ y, (c.port k).next = some y → y.slot = c.slot := fun y h => by cases idle.symm.trans h
  have link : (((c.opened k).modPort k fun s => { s with mgmtQ := [] }).port k).link = (c.port k).link := by simp
  have ableThere := able
  rw [← link] at ableThere
  rw [slotStart_out due noRetry only, slotStart_port due noRetry only, served_management c line isUp management idle waiting fits,
    slotFigures_out, slotFigures_mgmtQ, transmit_out ableThere, transmit_mgmtQ ableThere, port_modPort]
  exact ⟨rfl, rfl⟩

end AC

/-! The two commands -/

/-- What a frame has an agent do, in a block that knows the lines of the groups. -/
def frameWork (u : UnitId) (k : Nat) (f : Frame) (c : Chip) (a : AC) : AC := a.frame k f (c.linePort u f.pkt.group f.pkt.axis)

/-- What the start of a slot has an agent do. -/
def slotWork (u : UnitId) (k : Nat) (c : Chip) (a : AC) : AC := a.slotStart (c.lineOut u) k

theorem exec_linkFrameReceive (t : Nat) {u : UnitId} (k : Nat) (f : Frame) (s : State) (agent : u.profile ≠ .partition) :
    exec (.linkFrameReceive t u k f) s = .next (s.run t fun c => c.atAgent u (frameWork u k f c)) := by
  cases u with
  | part p => exact absurd rfl agent
  | endpoint | leaf | spine | ocs => rfl

theorem exec_slotStart (t : Nat) (u : UnitId) (k : Nat) (s : State) :
    exec (.slotStart t u k) s = .next (s.run t fun c => c.atAgent u (slotWork u k c)) := rfl

/-- Settles O12: a frame that has passed the checks of its link finds the agent as it was but for the port's link end and counts, and a
slot start serves what was assigned to the slot or the management packet that waits. -/
theorem linkTraffic : Obligations.LinkTraffic := by
  unfold Obligations.LinkTraffic
  refine ⟨?delivered, ?forwarded, ?assigned, ?management⟩
  case delivered =>
    intro t z n k f l fl s hk enabled passes data length good single own unmarked live found declared full inside more
    have agent : (UnitId.endpoint z n).profile ≠ .partition := nofun
    have framed : (s.unit t (.endpoint z n)).u.profile ≠ .circuit := nofun
    have does : frameWork (.endpoint z n) k f (s.chip.started t) (s.unit t (.endpoint z n)) = _ :=
      AC.frame_delivers _ _ rfl (by omega) enabled passes data length good single own unmarked live found declared full inside more
    refine ⟨_, exec_linkFrameReceive t k f s agent, ?_, ?_, ?_⟩
    · rw [State.agent_run_atAgent s t _ agent, does, AC.emit_a, AC.setFlow_flows, AC.arrived_flows]
      rfl
    · rw [State.out_run_atAgent s t _ agent, does, AC.emit_out, AC.setFlow_out, AC.arrived_out]
      rfl
    · rw [State.upreg_run_atAgent s t _ agent, does, AC.emit_preg, AC.setFlow_preg, AC.arrived_packets (by omega) framed]
      rfl
  case forwarded =>
    intro t z m k e q f l s hk enabled passes sched length good single hops unfenced fresh entry output free
    have agent : (UnitId.leaf z m).profile ≠ .partition := nofun
    have framed : (s.unit t (.leaf z m)).u.profile ≠ .circuit := nofun
    have does : frameWork (.leaf z m) k f (s.chip.started t) (s.unit t (.leaf z m)) = _ :=
      AC.frame_assigns _ _ rfl (by omega) enabled passes sched length good single hops unfenced fresh entry output free
    refine ⟨_, exec_linkFrameReceive t k f s agent, ?_, ?_, ?_⟩
    · rw [State.port_run_atAgent s t _ agent, does, AC.assign, AC.port_modPort, AC.slot, AC.arrived_now]
      rfl
    · rw [State.upreg_run_atAgent s t _ agent, does, AC.assign, AC.modPort_preg, AC.arrived_packets (by omega) framed]
      rfl
    · rw [State.out_run_atAgent s t _ agent, does, AC.assign, AC.modPort_out, AC.arrived_out]
      rfl
  case assigned =>
    intro t u k x s kind hk start unserved data isUp assigned current able
    have agent : u.profile ≠ .partition := by rcases kind with h | h <;> simp [h]
    have framed : u.profile ≠ .circuit := by rcases kind with h | h <;> simp [h]
    have due := AC.slotDue_of start unserved
    have up : (s.unit t u).up k = true := beq_iff_eq.2 isUp
    obtain ⟨leaves, cleared⟩ := AC.slotStart_assigned _ ((s.chip.started t).lineOut u) due data up assigned current able
    refine ⟨_, exec_slotStart t u k s, ?_, ?_, ?_⟩
    · rw [State.out_run_atAgent s t _ agent, current]
      exact leaves
    · rw [State.port_run_atAgent s t _ agent]
      exact cleared
    · rw [State.upreg_run_atAgent s t _ agent]
      exact AC.slotStart_assigned_packets _ _ due data up assigned current able framed (by omega)
  case management =>
    intro t u k p s kind hk start unserved management child isUp idle waiting fits able
    have agent : u.profile ≠ .partition := by rcases kind with h | h <;> simp [h]
    obtain ⟨leaves, emptied⟩ := AC.slotStart_management (s.unit t u) ((s.chip.started t).lineOut u) (AC.slotDue_of start unserved)
      management child (beq_iff_eq.2 isUp) idle waiting fits able
    refine ⟨_, exec_slotStart t u k s, ?_, ?_⟩
    · rw [State.out_run_atAgent s t _ agent]
      exact leaves
    · rw [State.port_run_atAgent s t _ agent]
      exact emptied

end Sys2Proof.Machine
end

section
/-! SUPPORT. A request that an agent takes: what the step leaves of the agent, the answer it keeps, and an agent's registers after the
shared operations (R73, R95). -/

namespace Sys2Proof.Machine

open Sys2Proof

namespace AC

/-! Registers after a shared operation -/

theorem send_reg (c : AC) (d : Nat) (m : Msg) {r : Reg} (h : sendMoves r = false) : (c.send d m).reg r = c.reg r :=
  send_get c d m r h

theorem event_reg (c : AC) (k : Nat) (l : List Nat) {r : Reg} (h : sendMoves r = false) (status : r ≠ .ACOMMON_INT_STATUS) :
    (c.event k l).reg r = c.reg r :=
  event_get c k l r h status

theorem answer_reg (c : AC) (e : Env) (k st : Nat) (b : List Nat) {r : Reg} (h : sendMoves r = false) :
    (c.answer e k st b).reg r = c.reg r :=
  reply_get c e.src e.tag k st b r h

/-- The answer to a request is kept for a repetition of it (R95). -/
theorem answer_kept (c : AC) (e : Env) (k st : Nat) (b : List Nat) :
    ∃ till, (⟨e.src, e.tag, { type := k + 1, status := st, tag := e.tag, body := b }, till⟩ : Stored) ∈
      (c.answer e k st b).a.stored :=
  ⟨_, reply_kept c e.src e.tag k st b⟩

theorem refuse_kept (c : AC) (e : Env) (k st : Nat) :
    ∃ till, (⟨e.src, e.tag, { type := k + 1, status := st, tag := e.tag, body := [] }, till⟩ : Stored) ∈
      (c.refuse e k st).a.stored :=
  answer_kept (c.count .ABANKS_REFUSALS) e k st []

theorem refuse_reg (c : AC) (e : Env) (k st : Nat) {r : Reg} (h : sendMoves r = false) (other : r ≠ .ABANKS_REFUSALS) :
    (c.refuse e k st).reg r = c.reg r := by
  rw [refuse, answer_reg _ _ _ _ _ h, reg_count_other _ other.symm]

theorem refuse_refusals (c : AC) (e : Env) (k st : Nat) :
    (c.refuse e k st).reg .ABANKS_REFUSALS = countUp (c.reg .ABANKS_REFUSALS) := by
  rw [refuse, answer_reg _ _ _ _ _ rfl, reg_count_one _ rfl]

end AC

theorem sendMoves_of_notMem {r : Reg} (h : r ∉ messageRegs) : AC.sendMoves r = false := by
  simp only [messageRegs, List.mem_cons, not_or] at h
  obtain ⟨-, -, -, noRoute, noExit, deflections, -⟩ := h
  simp [AC.sendMoves, noRoute, noExit, deflections]

/-- The fields that sending may move, as the statements list them. -/
theorem sendMoves_iff (r : Reg) : AC.sendMoves r = false ↔ r ∉ [Reg.ACONTROL_NO_ROUTE, .ACONTROL_NO_EXIT, .APORT_DEFLECTIONS] := by
  simp [AC.sendMoves, and_assoc]

/-! What the step leaves of a request -/

section
variable {s : State} {t : Nat} {e : Env} {r : AC.Right} (k : Nat)

/-- The record of an agent after a request that it takes. -/
theorem State.agent_run_onReq (f : AC → AC) (h : s.takesNew t e r) :
    (s.run t fun c => c.onReq e k r f).chip.agent e.unit = (f ((s.unit t e.unit).met e k)).a := by
  obtain ⟨⟨hp, hport, hgood, hallowed⟩, fresh⟩ := h
  rw [State.run_chip, Chip.run_started,
    Chip.onReq_ok (s.chip.started t) e k r f hp (by omega) hgood hallowed fresh, Chip.agent_onAgent]
  rfl

theorem State.ureg_run_onReq (f : AC → AC) (h : s.takesNew t e r) (q : Reg) :
    (s.run t fun c => c.onReq e k r f).ureg e.unit q = (f ((s.unit t e.unit).met e k)).reg q := by
  rw [State.ureg, State.agent_run_onReq k f h]
  rfl

/-- What an agent's own work keeps as an answer is on its way. -/
theorem State.uanswered_run_onReq {f : AC → AC} {type status : Nat} {body : List Nat} (h : s.takesNew t e r)
    (kept : ∃ till, (⟨e.src, e.tag, { type := type + 1, status := status, tag := e.tag, body := body }, till⟩ : Stored) ∈
      (f ((s.unit t e.unit).met e k)).a.stored) :
    (s.run t fun c => c.onReq e k r f).uanswered e type status body := by
  rw [State.uanswered, State.agent_run_onReq k f h]
  exact kept

/-- A request moves what its own effect moves, beside the registers of every message and its answer. -/
theorem State.keepsBut_run_onReq {f : AC → AC} {moved : List Reg} (h : s.takesNew t e r)
    (keeps : ∀ q, AC.sendMoves q = false → q ∉ moved →
      (f ((s.unit t e.unit).met e k)).reg q = ((s.unit t e.unit).met e k).reg q) :
    s.keepsBut (s.run t fun c => c.onReq e k r f) e.unit (messageRegs ++ moved) := by
  intro q hq
  obtain ⟨hmsg, hmoved⟩ : q ∉ messageRegs ∧ q ∉ moved := by simpa using hq
  rw [State.ureg_run_onReq k f h, keeps q (sendMoves_of_notMem hmsg) hmoved, AC.met_reg _ e k (metMoves_of_notMem hmsg),
    State.unit_reg]

/-- A request whose own effect moves no register but those of every message. -/
theorem State.keepsBut_run_onReq_nil {f : AC → AC} (h : s.takesNew t e r)
    (keeps : ∀ q, AC.sendMoves q = false → (f ((s.unit t e.unit).met e k)).reg q = ((s.unit t e.unit).met e k).reg q) :
    s.keepsBut (s.run t fun c => c.onReq e k r f) e.unit messageRegs := by
  simpa using State.keepsBut_run_onReq k (moved := []) h fun q hq _ => keeps q hq

theorem State.keepsBut_run_onMsg_nil {f : AC → AC} (h : s.takes t e r)
    (keeps : ∀ q, (f ((s.unit t e.unit).met e k)).reg q = ((s.unit t e.unit).met e k).reg q) :
    s.keepsBut (s.run t fun c => c.onMsg e k r f) e.unit messageRegs := by
  simpa using State.keepsBut_run_onMsg k (moved := []) h fun q _ => keeps q

end

/-- What an agent finds once a message has been heard: its registers but those of every message, and its time. -/
theorem State.met_ureg (s : State) (t : Nat) (e : Env) (k : Nat) {r : Reg} (h : AC.metMoves r = false) :
    ((s.unit t e.unit).met e k).reg r = s.ureg e.unit r := by
  rw [AC.met_reg _ e k h, State.unit_reg]

/-- An agent's own work moves the registers that it names. -/
theorem State.keepsBut_run_atAgent {s : State} {t : Nat} {u : UnitId} (f : Chip → AC → AC) {moved : List Reg}
    (h : u.profile ≠ .partition)
    (keeps : ∀ q, q ∉ moved → (f (s.chip.started t) (s.unit t u)).reg q = (s.unit t u).reg q) :
    s.keepsBut (s.run t fun c => c.atAgent u (f c)) u moved := by
  intro q hq
  rw [State.ureg_run_atAgent s t f h, keeps q hq, State.unit_reg]

end Sys2Proof.Machine
end

section
/-! SUPPORT. The order of epochs (R77), at a PREPARE and at a FENCE. -/

namespace Sys2Proof.Machine

open Sys2Proof

theorem epochNewer_iff {a b : Nat} (ha : a < 65536) (hb : b < 65536) :
    epochNewer a b = true ↔ 1 ≤ ((a : Int) - b) % 65536 ∧ ((a : Int) - b) % 65536 ≤ 32767 := by
  simp only [epochNewer, Bool.and_eq_true, decide_eq_true_eq]
  omega

theorem epochNewer_opposite (b : Nat) : epochNewer ((b + 32768) % 65536) b = false := by
  simp only [epochNewer, Bool.and_eq_false_iff, decide_eq_false_iff_not]
  omega

/-- An epoch is not newer than itself. -/
theorem epochNewer_self (a : Nat) : epochNewer a a = false := by
  simp only [epochNewer, Bool.and_eq_false_iff, decide_eq_false_iff_not]
  omega

namespace AC

/-- A PREPARE that repeats none and whose epoch is not newer than the active one is refused. -/
theorem doPrepare_stale (c : AC) {e : Env} {ep : Nat} (copy : Bool) (chunks crc : Nat)
    (first : ∀ l, c.a.shadowLoad = some l → l.src = e.src → l.tag ≠ e.tag)
    (stale : epochNewer ep (c.reg .ABANKS_ACTIVE_EPOCH) = false) :
    c.doPrepare e ep copy chunks crc = c.refuse e 0x20 0x0C := by
  unfold doPrepare
  cases opened : c.a.shadowLoad with
  | none => simp [stale]
  | some l => simpa [stale] using fun h k => absurd k (first l opened h)

/-! Fences -/

/-- Only the fence epochs that an endpoint keeps may change (R85). -/
theorem noteEpoch_eq (c : AC) (job f : Nat) : ∃ m, c.noteEpoch job f = c.mod fun a => { a with jobEpochs := m } := by
  unfold noteEpoch
  split
  · exact ⟨c.a.jobEpochs, rfl⟩
  · split
    · split
      · exact ⟨_, rfl⟩
      · exact ⟨c.a.jobEpochs, rfl⟩
    · split
      · exact ⟨_, rfl⟩
      · exact ⟨c.a.jobEpochs, rfl⟩

@[simp] theorem noteEpoch_fences (c : AC) (job f : Nat) : (c.noteEpoch job f).a.fences = c.a.fences := by
  obtain ⟨m, h⟩ := noteEpoch_eq c job f
  rw [h, mod_a]

@[simp] theorem noteEpoch_notices (c : AC) (job f : Nat) : (c.noteEpoch job f).a.notices = c.a.notices := by
  obtain ⟨m, h⟩ := noteEpoch_eq c job f
  rw [h, mod_a]

@[simp] theorem noteEpoch_reg (c : AC) (job f : Nat) (r : Reg) : (c.noteEpoch job f).reg r = c.reg r := by
  obtain ⟨m, h⟩ := noteEpoch_eq c job f
  rw [h]
  rfl

@[simp] theorem noteEpoch_now (c : AC) (job f : Nat) : (c.noteEpoch job f).now = c.now := by
  obtain ⟨m, h⟩ := noteEpoch_eq c job f
  rw [h, mod_now]

@[simp] theorem noteEpoch_fenceOf (c : AC) (job f fid : Nat) : (c.noteEpoch job f).fenceOf fid = c.fenceOf fid := by
  rw [fenceOf, noteEpoch_fences, fenceOf]

@[simp] theorem met_fenceOf (c : AC) (e : Env) (k fid : Nat) : (c.met e k).fenceOf fid = c.fenceOf fid := by
  rw [fenceOf, met_fences, fenceOf]

@[simp] theorem answer_fences (c : AC) (e : Env) (k st : Nat) (b : List Nat) : (c.answer e k st b).a.fences = c.a.fences :=
  reply_fences c e.src e.tag k st b

/-- The entry that a FENCE leaves: the new epoch, acting as before where the fence was not lifted (R83). -/
def renewed (c : AC) (fid job f : Nat) (y : FenceEntry) : FenceEntry :=
  { fid := fid, job := job, f := f, effSlot := if y.lifted then c.slot + 1 else y.effSlot }

theorem doFence_stale (c : AC) (e : Env) {fid f : Nat} (job : Nat) {x : FenceEntry} (table : c.u.profile ≠ .circuit)
    (found : c.fenceOf fid = some x) (stale : epochNewer f x.f = false) :
    c.doFence e fid job f = ((c.noteEpoch job f).count .AFENCE_FENCE_STALE).answer e 0x30 0x0C := by
  simp [doFence, table, found, stale]

theorem doFence_newer (c : AC) (e : Env) {fid f : Nat} (job : Nat) {x : FenceEntry} (table : c.u.profile ≠ .circuit)
    (found : c.fenceOf fid = some x) (newer : epochNewer f x.f = true) :
    c.doFence e fid job f = ((c.noteEpoch job f).mod fun a =>
      { a with fences := mapIf (fun y => y.fid = fid) (c.renewed fid job f) a.fences }).answer e 0x30 0x00 := by
  simp only [doFence, table, if_false, noteEpoch_fenceOf, found, newer, if_true, slot, noteEpoch_now]
  rfl

end AC

/-- The first entry of a FID is found in its changed form where the change keeps the FID. -/
theorem find?_fid_mapIf {l : List FenceEntry} {fid : Nat} {x : FenceEntry} {g : FenceEntry → FenceEntry}
    (found : (l.find? fun y => y.fid = fid) = some x) (keeps : ∀ y, (g y).fid = fid) :
    ((mapIf (fun y => y.fid = fid) g l).find? fun y => y.fid = fid) = some (g x) := by
  induction l with
  | nil => cases found
  | cons z r ih =>
    by_cases h : z.fid = fid
    · obtain rfl : z = x := by simpa [h] using found
      simp [mapIf, h, keeps]
    · simpa [mapIf, h] using ih (by simpa [h] using found)

/-- Settles O4: the order itself is arithmetic; the refused PREPARE and FENCE are `doPrepare_stale` and `doFence_stale`, and the FENCE of a
newer epoch is `doFence_newer`. -/
theorem epochOrder : Obligations.EpochOrder := by
  unfold Obligations.EpochOrder
  refine ⟨fun a b => epochNewer_iff, fun b _ => epochNewer_opposite b, ?prepare, ?stale, ?newer⟩
  case prepare =>
    intro t e ep chunks crc b s taken mode stale first
    have own := AC.doPrepare_stale ((s.unit t e.unit).met e 0x20) b chunks crc (e := e) (ep := ep)
      (by rwa [AC.met_shadowLoad]) (by rwa [State.met_ureg s t e 0x20 rfl])
    refine ⟨_, rfl, State.uanswered_run_onReq 0x20 taken ?_, ?_⟩
    · rw [own]
      exact AC.refuse_kept _ e 0x20 0x0C
    · rw [State.ureg_run_onReq 0x20 _ taken, own, AC.refuse_reg _ _ _ _ rfl (by decide), State.met_ureg s t e 0x20 rfl]
  case stale =>
    intro t e fid job f x s taken table found stale
    have own := AC.doFence_stale ((s.unit t e.unit).met e 0x30) e job (x := x) (fid := fid) (f := f)
      (by simpa using table) (by simpa using found) stale
    refine ⟨_, rfl, State.uanswered_run_onReq 0x30 taken ?_, ?_⟩
    · rw [own]
      exact AC.answer_kept _ e 0x30 0x0C []
    · rw [State.agent_run_onReq 0x30 _ taken, own]
      simp
  case newer =>
    intro t e fid job f x s taken table found newer
    have own := AC.doFence_newer ((s.unit t e.unit).met e 0x30) e job (x := x) (fid := fid) (f := f)
      (by simpa using table) (by simpa using found) newer
    refine ⟨_, rfl, State.uanswered_run_onReq 0x30 taken ?_, ?_⟩
    · rw [own]
      exact AC.answer_kept _ e 0x30 0x00 []
    · rw [AC.fenceOf, State.unit_a, State.agent_run_onReq 0x30 _ taken, own]
      simp only [AC.answer_fences, AC.mod_a, AC.noteEpoch_fences, AC.met_fences, State.unit_a]
      exact congrArg (Option.map fun y : FenceEntry => (y.f, y.lifted))
        (find?_fid_mapIf (g := ((s.unit t e.unit).met e 0x30).renewed fid job f) found fun _ => rfl)

end Sys2Proof.Machine
end

section
/-! SUPPORT. A command of one agent: the block keeps everything but that agent's record, the time and the output. -/

namespace Sys2Proof.Machine

open Sys2Proof

/-- The step of a command that works at one agent alone: the record and the output are the agent's, the time is the command's. -/
theorem State.run_atAgent (s : State) (t : Nat) {u : UnitId} (f : Chip → AC → AC) (h : u.profile ≠ .partition) :
    s.run t (fun c => c.atAgent u (f c)) =
      { s with chip := { s.chip.setAgent u ((s.run t fun c => c.atAgent u (f c)).chip.agent u) with
                         now := (s.run t fun c => c.atAgent u (f c)).chip.now,
                         out := (s.run t fun c => c.atAgent u (f c)).chip.out } } := by
  rw [State.agent_run_atAgent s t f h, State.run, Chip.run_started, Chip.atAgent, if_neg h]
  rfl

/-- A command that acts on an agent alone is that agent's own work. -/
theorem exec_of_agentOf {i : Instr} {u : UnitId} (h : agentOf i = some u) (s : State) :
    ∃ (t : Nat) (f : Chip → AC → AC), exec i s = .next (s.run t fun c => c.atAgent u (f c)) := by
  cases i <;> cases h <;> exact ⟨_, _, rfl⟩

/-- Settles O7: every command that `agentOf` names is the work of that agent (`exec_of_agentOf`), and such a step is `State.run_atAgent`. -/
theorem agentsActAlone : Obligations.AgentsActAlone := by
  unfold Obligations.AgentsActAlone
  intro i u s s' named agent ran
  obtain ⟨t, f, answers⟩ := exec_of_agentOf named s
  cases answers.symm.trans ran
  exact State.run_atAgent s t f agent

end Sys2Proof.Machine
end

section
/-! SUPPORT. The states that refute four statements: values that their fields or the bounds of a queue or a port number do not allow, which
no premise of the statement excludes. -/

namespace Sys2Proof.Machine

open Sys2Proof

/-- A message from the partition that the endpoint below is assigned to, FID 5. -/
def assignedEnv : Env := { unit := .endpoint 0 0, src := 5 }

/-- An endpoint agent of FID 5's zone with the register file `f` beside. -/
def assignedState (f : RegFile) : State :=
  { chip := { agents := [(assignedEnv.unit.code, { regs := { f with vals := f.vals ++ [(Reg.key .AIDENT_PARTITION_FID 0 0, 5)] } })] } }

/-! INT_ENABLE wider than its field (O14) -/

/-- The agent whose INT_ENABLE lists 2^16, one more than its 16 bits hold. -/
def wideEnable : State := assignedState { vals := [(Reg.key .ACOMMON_INT_ENABLE 0 0, 65536)] }

theorem wideEnable_takes_write : wideEnable.takesNew 0 assignedEnv .control := by decide +kernel

/-- The upper bit stays beside the 0 that is written, and the sum is clamped to the field's largest value. -/
theorem wideEnable_write_zero_clamps :
    (wideEnable.run 0 fun c => c.onReq assignedEnv 0x04 .control fun a => a.doWrite assignedEnv 0x1C [0]).ureg assignedEnv.unit
      .ACOMMON_INT_ENABLE = 65535 := by
  decide +kernel

/-- Refutes O14, in its clause about a WRITE to INT_ENABLE: no premise says that the register's value fits its 16 bits. Where it lists
2^16, a WRITE of 0 leaves 65,535. -/
theorem not_agentRegisters : ¬ Obligations.AgentRegisters := by
  unfold Obligations.AgentRegisters
  rintro ⟨-, writes, -⟩
  obtain ⟨s', ran, enabled, -⟩ := writes 0 assignedEnv 0 wideEnable wideEnable_takes_write (by decide +kernel)
  cases ran
  exact absurd (wideEnable_write_zero_clamps.symm.trans enabled) (by decide)

/-! A value that waits for NEXT_VALID (O19) -/

/-- The agent with a 0 that waits for NEXT_VALID until the next step; NEXT_VALID is read-only, so that no write makes a value wait. -/
def pendingValid : State := assignedState { pend := [(Reg.key .ASLOTS_NEXT_VALID 0 0, ⟨0, .step, 0, false⟩)] }

/-- A whole list without entries for the window of frame 1. -/
def emptyList : Segment :=
  { windowFrame := 1, frames := 1, template := 0, segment := 0, segments := 1, totalEntries := 0, step := 0, job := 0, listCrc := 0,
    entries := [] }

theorem pendingValid_takes_list : pendingValid.takesNew 0 assignedEnv .control := by decide +kernel

/-- The accepted list begins a step, and the waiting 0 takes the place of the 1 that the list has set. -/
theorem pendingValid_list_invalid :
    (pendingValid.run 0 fun c => c.onReq assignedEnv 0x42 .control fun a => a.doSlotList assignedEnv emptyList).ureg assignedEnv.unit
      .ASLOTS_NEXT_VALID = 0 := by
  decide +kernel

/-- Refutes O19, in its clause about a list that is accepted: no premise says that no value waits for NEXT_VALID. A 0 that waits for the
next step is applied when the list's step begins, after the list has set NEXT_VALID. -/
theorem not_slotLists : ¬ Obligations.SlotLists := by
  unfold Obligations.SlotLists
  rintro ⟨accepts, -⟩
  obtain ⟨s', ran, -, shown, -⟩ := accepts 0 assignedEnv emptyList pendingValid pendingValid_takes_list rfl (by decide +kernel)
    (by decide +kernel) (by decide +kernel) rfl (by decide +kernel) (by decide +kernel) (by decide +kernel)
  cases ran
  exact absurd (pendingValid_list_invalid.symm.trans shown) (by decide)

/-! A load of a stray route queue (O29) -/

/-- The route queue of partition 626,688, which no G9 has: the key of its completion tail is that of LAST_STATUS of partition 0. -/
def strayRoute : QId := .route 626688

/-- A load command of that queue, and an outstanding TEMPLATE_LIST, the last answer the load waits for. -/
def strayLoad : LoadRun :=
  { q := strayRoute, tag := 7, ctx := 0, addr := 0, port := 0, startAt := 0, begin_ := false, fromFrame := 0, partial_ := false,
    imageId := 0, imageVer := 0, keyGen := 0, digest := 0, sections := [], waits := some [0] }

def strayLoadAsk : Request := { dst := 9, msg := { type := 0x44 }, ref := refKey refTmpl 0, sentAt := 0 }

/-- A block with this load, its command fetched through port 0, where a host takes records. -/
def strayLoadState : State :=
  { chip := { regs := { vals := [(Reg.key .HOSTPORT_LINK_UP 0 0, 1)] }, hostPorts := [(0, { busMaster := true })],
              parts := [(0, { requests := [strayLoadAsk], loads := [strayLoad] })],
              cmds := [{ q := strayRoute, d := { opcode := 0x20, tag := 7 }, port := some 0 }], cmdSeq := 1 } }

/-- The record of the load's completion moves the tail on, and with it LAST_STATUS. -/
theorem strayLoad_moves_status :
    (strayLoadState.run 0 fun c => c.atPart 0 fun c => c.templateAck 0 9 0 0x00).reg .IMAGE_LAST_STATUS 0 = 1 := by
  decide +kernel

/-- Refutes O29, in its clause about the last acknowledged template: no premise bounds the queue whose command the load is. The completion
tail of route queue 626,688 and LAST_STATUS of partition 0 are one register, so that the completion record makes the status 1. -/
theorem not_partitionAnswers : ¬ Obligations.PartitionAnswers := by
  unfold Obligations.PartitionAnswers
  rintro ⟨-, acknowledged, -⟩
  obtain ⟨s', ran, -, status, -⟩ := acknowledged 0 0 9 0 0 strayLoadAsk strayLoad strayLoadState (by decide +kernel) (by decide +kernel)
    rfl (by decide) rfl rfl rfl rfl
  cases ran
  exact absurd (strayLoad_moves_status.symm.trans status) (by decide)

/-! A schedule command of a stray port (O33) -/

/-- A port that no G9 has: the key of its LINK_UP is that of MSGLOG_NEXT of partition 0. -/
def strayLink : Nat := 475136

/-- SET_TEMPLATE_SEQ of job 0 with the sequence of template 0 alone. -/
def seqDesc : Desc := { opcode := 0x41, ops := 65536 }

/-- This command, fetched through the stray port. -/
def seqCmd : Cmd := { q := .sched 0, d := seqDesc, port := some strayLink }

/-- A job of one endpoint with one template. -/
def seqJob : Job :=
  { job := 0, ctx := 0, slice := 0, order := 0, frames := 1, first := 0, endpoints := [7],
    tmpls := [{ num := 0, holes := [], entries := [] }] }

/-- A zone of that endpoint and job, with one message logged: the stray port reads as up. -/
def seqState : State :=
  { chip := { regs := { vals := [(Reg.key .TRACE_MSGLOG_NEXT 0 0, 1)] }, hostPorts := [(strayLink, { busMaster := true })],
              parts := [(0, { topo := { units := [((UnitId.endpoint 0 0).code, { unit := .endpoint 0 0, fid := 7 })] },
                              jobs := [seqJob] })],
              cmds := [seqCmd], cmdSeq := 1 } }

/-- The writes to the endpoint are logged, so that the port reads as down when the record is due, and the record is lost. -/
theorem seqState_record_lost :
    ¬ seqState.recorded (seqState.run 0 fun c => c.runCmd (.sched 0) seqDesc fun c => c.setTemplateSeq 0 0 seqDesc) 0 (.sched 0) seqCmd
      0x00 0 := by
  decide +kernel

/-- Refutes O33, in its clause about SET_TEMPLATE_SEQ: no premise bounds the port through which the command came. LINK_UP of port 475,136
and MSGLOG_NEXT of partition 0 are one register; the messages that carry the sequence move it, and the record is lost. -/
theorem not_windowLists : ¬ Obligations.WindowLists := by
  unfold Obligations.WindowLists
  rintro ⟨-, -, -, -, -, -, -, -, -, sets, -⟩
  obtain ⟨s', ran, -, recorded⟩ := sets 0 0 seqDesc seqCmd seqJob seqState (by decide +kernel) (by decide +kernel) (by decide)
    (by decide) (by decide +kernel)
  cases ran
  exact seqState_record_lost recorded

end Sys2Proof.Machine
end

section
/-! SUPPORT. An agent's registers through its own updates, and the loads of its table banks (R78, R79, R126). -/

namespace Sys2Proof.Machine

open Sys2Proof

namespace AC

/-! Registers through an update -/

theorem setReg_reg (c : AC) (r q : Reg) (v : Nat) : (c.setReg r v).reg q = if q = r then trunc r.width v else c.reg q := by
  rw [reg_setReg]
  exact if_congr eq_comm rfl rfl

theorem count_reg (c : AC) (r q : Reg) :
    (c.count r).reg q = if q = r then trunc r.width (min (c.reg r + 1) (2 ^ r.width - 1)) else c.reg q := by
  rw [count, countN, ← setReg_reg]
  rfl

/-- A change of the record that leaves the register file alone. -/
theorem mod_reg (c : AC) {f : Agent → Agent} (q : Reg) (h : (f c.a).regs = c.a.regs) : (c.mod f).reg q = c.reg q :=
  congrArg (fun x : RegFile => x.get q 0 0) h

/-! Table banks -/

/-- Only the bytes of the banks differ. -/
def banksBut (c d : AC) : Prop := ∃ b, d = c.mod fun a => { a with banks := b }

theorem banksBut_refl (c : AC) : banksBut c c := ⟨c.a.banks, rfl⟩

theorem banksBut_trans {c d f : AC} : banksBut c d → banksBut d f → banksBut c f := by
  rintro ⟨b, rfl⟩ ⟨b', rfl⟩
  exact ⟨b', rfl⟩

theorem banksBut_foldl {α : Type} (g : AC → α → AC) (h : ∀ c x, banksBut c (g c x)) (l : List α) (c : AC) :
    banksBut c (l.foldl g c) := by
  induction l generalizing c with
  | nil => exact banksBut_refl c
  | cons x r ih => exact banksBut_trans (h c x) (ih (g c x))

theorem copyBank_banksBut (c : AC) (src dst : Nat) : banksBut c (c.copyBank src dst) :=
  banksBut_trans ⟨_, rfl⟩ (banksBut_foldl _ (fun _ _ => ⟨_, rfl⟩) _ (c.emptyBank dst))

theorem writeBank_banksBut (c : AC) (b off : Nat) (l : List Nat) : banksBut c (c.writeBank b off l) := by
  induction l generalizing c off with
  | nil => exact banksBut_refl c
  | cons v r ih =>
    refine banksBut_trans ?_ (ih _ (off + 1))
    split
    · exact ⟨_, rfl⟩
    · exact banksBut_refl c

/-- The load that a PREPARE opens. -/
def newLoad (c : AC) (e : Env) (ep chunks crc : Nat) : Load :=
  { src := e.src, tag := e.tag, epoch := ep, chunks := chunks, crc := crc, lastWrite := c.now }

/-- A PREPARE for a newer epoch, with no load open, in STEADY or ROLLED_BACK opens the shadow load. -/
theorem doPrepare_opens (c : AC) {e : Env} {ep chunks : Nat} (copy : Bool) (crc : Nat) (closed : c.a.shadowLoad = none)
    (newer : epochNewer ep (c.reg .ABANKS_ACTIVE_EPOCH) = true) (state : c.state = 0 ∨ c.state = 6) (some_ : 0 < chunks) :
    ∃ b, c.doPrepare e ep copy chunks crc =
      ((((c.setReg .ABANKS_SHADOW_EPOCH ep).setReg .ABANKS_SHADOW_VALID 1).setReg .ABANKS_SHADOW_COMPLETE 0).setReg .ABANKS_STATE 1).mod
        fun a => { a with banks := b, shadowLoad := some (c.newLoad e ep chunks crc), resumed := none } := by
  obtain ⟨b, filled⟩ : banksBut c (if copy then c.copyBank (c.reg .ABANKS_ACTIVE_BANK) (1 - c.reg .ABANKS_ACTIVE_BANK)
      else c.emptyBank (1 - c.reg .ABANKS_ACTIVE_BANK)) := by
    split
    · exact copyBank_banksBut c _ _
    · exact ⟨_, rfl⟩
  have early : ¬(3 ≤ c.state ∧ c.state ≤ 5) := by omega
  have shut : ¬((c.state = 1 ∨ c.state = 2) ∧ (!epochNewer ep (c.reg .ABANKS_SHADOW_EPOCH)) = true) := by omega
  refine ⟨b, ?_⟩
  simp only [doPrepare, closed, newer, early, shut, filled, Nat.ne_of_gt some_, Bool.not_true, Bool.false_eq_true, if_false]
  rfl

/-- STATIC_IN_USE is all that following MODE and STATIC_VALID moves. -/
theorem syncStatic_eq (c : AC) : c.syncStatic = c ∨ ∃ v, c.syncStatic = c.setReg .ABANKS_STATIC_IN_USE v := by
  unfold syncStatic
  split
  · exact .inl rfl
  · exact .inr ⟨_, rfl⟩

theorem syncStatic_reg (c : AC) {q : Reg} (h : q ≠ .ABANKS_STATIC_IN_USE) : c.syncStatic.reg q = c.reg q := by
  obtain same | ⟨v, set⟩ := syncStatic_eq c
  · rw [same]
  · rw [set, setReg_reg, if_neg h]

@[simp] theorem syncStatic_now (c : AC) : c.syncStatic.now = c.now := by
  obtain same | ⟨v, set⟩ := syncStatic_eq c
  · rw [same]
  · rw [set, setReg_now]

/-- A PREPARE with STATIC for the active epoch, with no static load open, opens it. -/
theorem doPrepareStatic_opens (c : AC) {e : Env} {ep chunks : Nat} (crc : Nat) (closed : c.a.staticLoad = none)
    (active : ep = c.reg .ABANKS_ACTIVE_EPOCH) (some_ : 0 < chunks) :
    c.doPrepareStatic e ep chunks crc =
      ((((((c.setReg .ABANKS_STATIC_EPOCH ep).setReg .ABANKS_STATIC_LOADING 1).setReg .ABANKS_STATIC_VALID 0).emptyBank 2).syncStatic).mod
        fun a => { a with staticLoad := some (c.newLoad e ep chunks crc) }) := by
  simp [doPrepareStatic, closed, active, Nat.ne_of_gt some_, newLoad, emptyBank]

theorem length_addOnce_le {α : Type} [DecidableEq α] (l : List α) (x : α) : (addOnce l x).length ≤ l.length + 1 := by
  unfold addOnce
  split
  · omega
  · simp

/-- The chunk of a load's epoch that has been seen. -/
def chunkSeen (c : AC) (l : Load) (region off : Nat) : Load := { l with seen := addOnce l.seen (region, off), lastWrite := c.now }

/-- A TABLE_WRITE of the open shadow load that is not its last chunk. -/
theorem doTableWrite_fills (c : AC) {e : Env} {ep : Nat} (region off : Nat) (data : List Nat) {l : Load}
    (noStatic : c.a.staticLoad = none) (isOpen : c.a.shadowLoad = some l) (same : l.epoch = ep) (more : l.seen.length + 1 < l.chunks) :
    ∃ b, c.doTableWrite e ep region off data =
      (c.mod fun a => { a with banks := b, shadowLoad := some (c.chunkSeen l region off) }).answer e 0x22 0x00 := by
  obtain ⟨b, written⟩ := writeBank_banksBut c (1 - c.reg .ABANKS_ACTIVE_BANK) (regionBase region + off) data
  have notLast : ¬ l.chunks ≤ (addOnce l.seen (region, off)).length := by
    have := length_addOnce_le l.seen (region, off)
    omega
  subst same
  refine ⟨b, ?_⟩
  simp only [doTableWrite, noStatic, isOpen, written, notLast, decide_true, Bool.false_eq_true, if_false, if_true]
  rfl

/-- A static load that has been silent for CONTROL_TIMEOUT ends. -/
theorem staticTimeout_ends (c : AC) {l : Load} (isOpen : c.a.staticLoad = some l)
    (silent : l.lastWrite + c.reg .ACONTROL_CONTROL_TIMEOUT * 1000 ≤ c.now) :
    c.staticTimeout = ((c.mod fun a => { a with staticLoad := none }).setReg .ABANKS_STATIC_LOADING 0).setReg .ABANKS_STATIC_VALID 0 := by
  simp [staticTimeout, isOpen, silent]

/-- ABANDON of the shadow's epoch outside COMMITTED. -/
theorem doAbandon_ends (c : AC) {e : Env} {ep : Nat} (newer : epochNewer ep (c.reg .ABANKS_ACTIVE_EPOCH) = true)
    (shadow : ep = c.reg .ABANKS_SHADOW_EPOCH) (state : c.state ≠ 5) :
    c.doAbandon e ep =
      ((((((c.setReg .ABANKS_SHADOW_VALID 0).setReg .ABANKS_SHADOW_COMPLETE 0).setReg .ABANKS_STATE 0).mod
        fun a => { a with shadowLoad := none, drainReq := none }).count .ABANKS_ABANDONS).answer e 0x2A 0x00) := by
  simp [doAbandon, newer, ← shadow, state]

end AC

/-- Settles O15: what each command does with a load is an equation above (`doPrepare_opens` to `doAbandon_ends`). -/
theorem bankLoading : Obligations.BankLoading := by
  unfold Obligations.BankLoading
  refine ⟨?prepare, ?static, ?write, ?timeout, ?abandon⟩
  case prepare =>
    intro t e ep chunks crc copy s taken closed newer state some_
    obtain ⟨b, own⟩ := AC.doPrepare_opens ((s.unit t e.unit).met e 0x20) (e := e) (ep := ep) copy crc (by simpa using closed)
      (by rwa [State.met_ureg s t e 0x20 rfl]) (by rwa [AC.state, State.met_ureg s t e 0x20 rfl]) some_
    refine ⟨_, rfl, ?_, ?_, ?_, ?_, ?load, State.keepsBut_run_onReq 0x20 taken fun q _ other => ?keeps⟩
    case load => rw [State.agent_run_onReq 0x20 _ taken, own, AC.mod_a, AC.newLoad, AC.met_now]
    case keeps =>
      simp only [List.mem_cons, List.not_mem_nil, or_false, not_or] at other
      rw [own, AC.mod_reg _ _ rfl]
      simp [AC.setReg_reg, other]
    all_goals
      rw [State.ureg_run_onReq 0x20 _ taken, own, AC.mod_reg _ _ rfl]
      simp only [AC.setReg_reg, reduceCtorEq, if_true, if_false]
      rfl
  case static =>
    intro t e ep chunks crc s taken closed active some_
    have own := AC.doPrepareStatic_opens ((s.unit t e.unit).met e 0x20) (e := e) (ep := ep) crc (by simpa using closed)
      (by rwa [State.met_ureg s t e 0x20 rfl]) some_
    refine ⟨_, rfl, ?_, ?_, ?_, ?load, State.keepsBut_run_onReq 0x20 taken fun q _ other => ?keeps⟩
    case load => rw [State.agent_run_onReq 0x20 _ taken, own, AC.mod_a, AC.newLoad, AC.met_now]
    case keeps =>
      simp only [List.mem_cons, List.not_mem_nil, or_false, not_or] at other
      obtain ⟨loading, valid, epoch, inUse⟩ := other
      rw [own, AC.mod_reg _ _ rfl, AC.syncStatic_reg _ inUse, AC.emptyBank, AC.mod_reg _ _ rfl]
      simp [AC.setReg_reg, loading, valid, epoch]
    all_goals
      rw [State.ureg_run_onReq 0x20 _ taken, own, AC.mod_reg _ _ rfl, AC.syncStatic_reg _ (by decide), AC.emptyBank, AC.mod_reg _ _ rfl]
      simp only [AC.setReg_reg, reduceCtorEq, if_true, if_false]
      rfl
  case write =>
    intro t e ep region off data l s taken noStatic isOpen same more
    obtain ⟨b, own⟩ := AC.doTableWrite_fills ((s.unit t e.unit).met e 0x22) (e := e) region off data (by simpa using noStatic)
      (by simpa using isOpen) same more
    refine ⟨_, rfl, ?_, State.uanswered_run_onReq 0x22 taken ?_, State.keepsBut_run_onReq_nil 0x22 taken fun q away => ?_⟩
    · rw [State.agent_run_onReq 0x22 _ taken, own]
      simp [AC.answer, AC.chunkSeen]
    · rw [own]
      exact AC.answer_kept _ e 0x22 0x00 []
    · rw [own, AC.answer_reg _ _ _ _ _ away, AC.mod_reg _ _ rfl]
  case timeout =>
    intro t u l s agent isOpen silent
    have own := AC.staticTimeout_ends (s.unit t u) isOpen silent
    refine ⟨_, rfl, ?none_, ?_, ?_, ?silent, State.keepsBut_run_atAgent _ agent fun q other => ?keeps⟩
    case none_ => rw [State.agent_run_atAgent s t _ agent, own]; rfl
    case silent => rw [State.out_run_atAgent s t _ agent, own]; rfl
    case keeps =>
      simp only [List.mem_cons, List.not_mem_nil, or_false, not_or] at other
      rw [own, AC.setReg_reg, if_neg other.1, AC.setReg_reg, if_neg other.2, AC.mod_reg _ _ rfl]
    all_goals
      rw [State.ureg_run_atAgent s t _ agent, own]
      simp only [AC.setReg_reg, reduceCtorEq, if_true, if_false]
      rfl
  case abandon =>
    intro t e ep s taken newer shadow state
    have own := AC.doAbandon_ends ((s.unit t e.unit).met e 0x2A) (e := e) (ep := ep) (by rwa [State.met_ureg s t e 0x2A rfl])
      (by rwa [State.met_ureg s t e 0x2A rfl]) (by rwa [AC.state, State.met_ureg s t e 0x2A rfl])
    refine ⟨_, rfl, ?_, ?_, ?_, ?counted, State.uanswered_run_onReq 0x2A taken ?answered,
      State.keepsBut_run_onReq 0x2A taken fun q away other => ?keeps⟩
    case counted =>
      rw [State.ureg_run_onReq 0x2A _ taken, own, AC.answer_reg _ _ _ _ _ rfl, AC.reg_count_one _ rfl, AC.mod_reg _ _ rfl]
      simp only [AC.setReg_reg, reduceCtorEq, if_false]
      rw [State.met_ureg s t e 0x2A rfl]
    case answered =>
      rw [own]
      exact AC.answer_kept _ e 0x2A 0x00 []
    case keeps =>
      simp only [List.mem_cons, List.not_mem_nil, or_false, not_or] at other
      obtain ⟨state, valid, complete, abandons⟩ := other
      rw [own, AC.answer_reg _ _ _ _ _ away, AC.count_reg, if_neg abandons, AC.mod_reg _ _ rfl]
      simp [AC.setReg_reg, state, valid, complete]
    all_goals
      rw [State.ureg_run_onReq 0x2A _ taken, own, AC.answer_reg _ _ _ _ _ rfl, AC.reg_count_other _ (by decide), AC.mod_reg _ _ rfl]
      simp only [AC.setReg_reg, reduceCtorEq, if_true, if_false]
      rfl

end Sys2Proof.Machine
end

section
/-! SUPPORT. Events and faults of an agent: the bits that they latch, and the registers that they leave (R94, R96). -/

namespace Sys2Proof.Machine

open Sys2Proof

theorem bit_eq_testBit (v n : Nat) : bit v n = v.testBit n := by
  rw [bit, Nat.testBit_eq_decide_div_mod_eq, Nat.shiftRight_eq_div_pow]
  rfl

theorem bit_trunc_or {w n : Nat} (x k : Nat) (h : n < w) : bit (trunc w (x ||| 2 ^ k)) n = (bit x n || decide (k = n)) := by
  simp [bit_eq_testBit, trunc, Nat.testBit_mod_two_pow, h, Nat.testBit_two_pow]

namespace AC

/-- The bits of INT_STATUS after an event: its own is set, the others are as before. -/
theorem event_bit (c : AC) (k : Nat) (l : List Nat) {n : Nat} (h : n < 16) :
    bit ((c.event k l).reg .ACOMMON_INT_STATUS) n = (bit (c.reg .ACOMMON_INT_STATUS) n || decide (k % 256 - 1 = n)) := by
  rw [reg, event_latched, bit_trunc_or _ _ h, reg]

/-! A fault in outage -/

/-- The agent in static fallback, before the event that reports it. -/
def fallen (c : AC) (cause : Nat) : AC :=
  let d := (c.setReg .ACONTROL_MODE 2).setReg .ACONTROL_CAUSE cause
  if d.u.profile ≠ .endpoint ∧ d.reg .ABANKS_STATIC_VALID = 1 then d.setReg .ABANKS_STATIC_IN_USE 1 else d

theorem fault_outage (c : AC) (cause : Nat) (h : c.reg .ACONTROL_MODE = 1) : c.fault cause = (c.fallen cause).event 0x2005 [cause] := by
  rw [fault, if_pos h]
  rfl

theorem fault_idle (c : AC) (cause : Nat) (h : c.reg .ACONTROL_MODE ≠ 1) : c.fault cause = c := if_neg h

/-- Of an agent's record, only registers change as it falls back. -/
theorem fallen_a (c : AC) (cause : Nat) : ∃ f, (c.fallen cause).a = { c.a with regs := f } := by
  unfold fallen
  simp only
  split
  · exact ⟨_, rfl⟩
  · exact ⟨_, rfl⟩

theorem fallen_reg (c : AC) (cause : Nat) {q : Reg} (h : q ∉ [Reg.ACONTROL_MODE, .ACONTROL_CAUSE, .ABANKS_STATIC_IN_USE]) :
    (c.fallen cause).reg q = c.reg q := by
  simp only [List.mem_cons, List.not_mem_nil, or_false, not_or] at h
  unfold fallen
  simp only
  split <;> simp [setReg_reg, h]

theorem fallen_mode (c : AC) (cause : Nat) : (c.fallen cause).reg .ACONTROL_MODE = 2 := by
  unfold fallen
  simp only
  split <;> (simp only [setReg_reg, reduceCtorEq, if_true, if_false]; rfl)

theorem fallen_cause (c : AC) (cause : Nat) : (c.fallen cause).reg .ACONTROL_CAUSE = trunc (Reg.width .ACONTROL_CAUSE) cause := by
  unfold fallen
  simp only
  split <;> simp only [setReg_reg, reduceCtorEq, if_true, if_false]

/-- What a fault may move of an agent's registers, beside the counters of sending. -/
def faultRegs : List Reg := [.ACONTROL_MODE, .ACONTROL_CAUSE, .ABANKS_STATIC_IN_USE, .ACOMMON_INT_STATUS]

theorem fault_reg (c : AC) (cause : Nat) {q : Reg} (away : sendMoves q = false) (h : q ∉ faultRegs) :
    (c.fault cause).reg q = c.reg q := by
  by_cases outage : c.reg .ACONTROL_MODE = 1
  · simp only [faultRegs, List.mem_cons, List.not_mem_nil, or_false, not_or] at h
    obtain ⟨mode, cause_, inUse, status⟩ := h
    rw [fault_outage c cause outage, event_reg _ _ _ away status, fallen_reg c cause (by simp [mode, cause_, inUse])]
  · rw [fault_idle c cause outage]

/-- A latched bit stays latched through a fault. -/
theorem fault_bit (c : AC) (cause : Nat) {n : Nat} (small : n < 16) (h : bit (c.reg .ACOMMON_INT_STATUS) n = true) :
    bit ((c.fault cause).reg .ACOMMON_INT_STATUS) n = true := by
  by_cases outage : c.reg .ACONTROL_MODE = 1
  · rw [fault_outage c cause outage, event_bit _ _ _ small, fallen_reg c cause (by decide), h, Bool.true_or]
  · rwa [fault_idle c cause outage]

@[simp] theorem fault_drainReq (c : AC) (cause : Nat) : (c.fault cause).a.drainReq = c.a.drainReq := by
  by_cases outage : c.reg .ACONTROL_MODE = 1
  · obtain ⟨f, h⟩ := fallen_a c cause
    rw [fault_outage c cause outage, event_drainReq, h]
  · rw [fault_idle c cause outage]

end AC

end Sys2Proof.Machine
end

section
/-! SUPPORT. An agent drains its traffic, resumes and rolls back (R78, R81, R82). -/

namespace Sys2Proof.Machine

open Sys2Proof

namespace AC

/-- DRAIN of the shadow's newer epoch, in PREPARED or ROLLED_BACK and with no drain under way. -/
theorem doDrain_begins (c : AC) {e : Env} {ep : Nat} (classes : Nat) (idle : c.a.drainReq = none)
    (newer : epochNewer ep (c.reg .ABANKS_ACTIVE_EPOCH) = true) (shadow : ep = c.reg .ABANKS_SHADOW_EPOCH)
    (state : c.state = 2 ∨ c.state = 6) :
    c.doDrain e ep classes = ((c.setReg .ABANKS_STATE 3).setReg .ABANKS_DRAIN_CLASSES (classes % 4)).mod
      fun a => { a with drainReq := some (e.src, e.tag), drainAt := c.now } := by
  have ready : ¬(c.state ≠ 2 ∧ c.state ≠ 6) := by omega
  simp only [doDrain, idle, newer, ← shadow, ready, reduceCtorEq, if_false, Bool.not_true, Bool.false_eq_true, ne_eq, not_true_eq_false,
    or_self]
  rfl

/-- The registers of the end of a drain; its answer moves none of them. -/
theorem endDrain_reg (c : AC) (status : Nat) {q : Reg} (away : sendMoves q = false) :
    (c.endDrain status).reg q = ((c.setReg .ABANKS_STATE 4).setReg .ABANKS_LAST_DRAIN (c.now - c.a.drainAt)).reg q := by
  unfold endDrain
  simp only
  split
  · exact reply_get _ _ _ _ _ _ q away
  · rfl

@[simp] theorem endDrain_drainReq (c : AC) (status : Nat) : (c.endDrain status).a.drainReq = none := by
  unfold endDrain
  simp only
  split
  · rw [reply_drainReq]
    rfl
  · rfl

theorem drainQuiet_ends (c : AC) (state : c.state = 3) (none_ : c.inFlightAll = 0)
    (sinceDrain : c.a.drainAt + (c.maxD + 1) * 128 ≤ c.now) (sincePacket : c.a.quietFrom + (c.maxD + 1) * 128 ≤ c.now) :
    c.drainQuiet = c.endDrain 0x00 := by
  have quiet : c.quiet = true := by
    simp only [AC.quiet, none_, decide_true, Bool.true_and, decide_eq_true_eq]
    omega
  rw [drainQuiet, if_pos ⟨state, quiet⟩]

theorem drainTimeout_ends (c : AC) (state : c.state = 3) (due : c.a.drainAt + c.reg .ACONTROL_DRAIN_TIMEOUT * 1000 ≤ c.now) :
    c.drainTimeout = c.endDrain 0x01 := by
  rw [drainTimeout, if_pos ⟨state, due⟩]

/-- RESUME of the active epoch in COMMITTED. -/
theorem doResume_ends (c : AC) {e : Env} (state : c.state = 5) :
    c.doResume e (c.reg .ABANKS_ACTIVE_EPOCH) = ((c.setReg .ABANKS_STATE 0).mod
      fun a => { a with resumed := some (c.reg .ABANKS_ACTIVE_EPOCH) }).answer e 0x28 0x00 := by
  simp [doResume, state]

theorem resumeWaitExpiry_ends (c : AC) (state : c.state = 5)
    (due : c.a.commitAt + c.reg .ACONTROL_RESUME_WAIT * 1000000 ≤ c.now) :
    c.resumeWaitExpiry = ((c.setReg .ABANKS_STATE 0).mod
      fun a => { a with resumed := some (c.reg .ABANKS_ACTIVE_EPOCH) }).event 0x2004 [c.reg .ABANKS_ACTIVE_EPOCH, 1] := by
  rw [resumeWaitExpiry, if_pos ⟨state, due⟩]

/-- The agent rolled back, before it reports that. -/
def rolledBack (c : AC) : AC := ((c.setReg .ABANKS_STATE 6).count .ABANKS_ROLLBACKS).mod fun a => { a with drainReq := none }

/-- The event that reports a rollback, after the ROLLBACK notice. -/
def rollbackEvent (c : AC) : AC :=
  let d := c.rolledBack.send (c.rolledBack.reg .AIDENT_PARTITION_FID) { type := 0x2F, body := c.rolledBack.report }
  d.event 0x2004 [d.reg .ABANKS_SHADOW_EPOCH, 0]

theorem commitWaitExpiry_ends (c : AC) (state : c.state = 3 ∨ c.state = 4) (due : c.commitDeadline ≤ c.now) :
    c.commitWaitExpiry = c.rollbackEvent.fault 3 := by
  rw [commitWaitExpiry, if_pos ⟨state, due⟩]
  rfl

/-- The registers of a rollback, with its notice, its event and the fault that it is in outage. -/
theorem rollback_reg (c : AC) {q : Reg} (away : sendMoves q = false) (h : q ∉ faultRegs) :
    (c.rollbackEvent.fault 3).reg q = ((c.setReg .ABANKS_STATE 6).count .ABANKS_ROLLBACKS).reg q := by
  have status : q ≠ .ACOMMON_INT_STATUS := fun same => h (by simp [same, faultRegs])
  rw [fault_reg _ 3 away h, rollbackEvent, event_reg _ _ _ away status, send_reg _ _ _ away, rolledBack, mod_reg _ _ rfl]

/-- What EPOCH_REPORT tells is the same once the query has been heard, unless that ends outage. -/
theorem met_report (c : AC) (e : Env) (k : Nat)
    (h : ¬(e.src = c.reg .AIDENT_PARTITION_FID ∧ e.src ≠ nullFid ∧ c.reg .ACONTROL_MODE = 1)) : (c.met e k).report = c.report := by
  have mode : (c.met e k).reg .ACONTROL_MODE = c.reg .ACONTROL_MODE := by
    rw [reg, met_mode, if_neg fun ⟨src, named, _, outage⟩ => h ⟨src, named, outage⟩, reg]
  have inFlight : (c.met e k).inFlight = c.inFlight := by
    funext p
    simp only [AC.inFlight, port, met_ports, met_reg c e k (r := .ABANKS_DRAIN_CLASSES) rfl]
  simp only [report, state, mode, inFlightAll, inFlight, met_ports, met_reg c e k (r := .ABANKS_ACTIVE_EPOCH) rfl,
    met_reg c e k (r := .ABANKS_SHADOW_EPOCH) rfl,
    met_reg c e k (r := .ABANKS_STATE) rfl, met_reg c e k (r := .ABANKS_SHADOW_VALID) rfl,
    met_reg c e k (r := .ABANKS_SHADOW_COMPLETE) rfl, met_reg c e k (r := .ABANKS_STATIC_IN_USE) rfl,
    met_reg c e k (r := .ABANKS_STATIC_EPOCH) rfl]

end AC

/-- The registers that keep their value through a drain's end: those that sending may move are named beside. -/
theorem sendMoves_of_notMem_after {q : Reg} {l : List Reg}
    (h : q ∉ l ++ [.ACONTROL_NO_ROUTE, .ACONTROL_NO_EXIT, .APORT_DEFLECTIONS]) : q ∉ l ∧ AC.sendMoves q = false := by
  rw [List.mem_append, not_or] at h
  exact ⟨h.1, (sendMoves_iff q).2 h.2⟩

/-- The registers of an agent that ends its drain. -/
theorem State.keepsBut_endDrain {s : State} {t : Nat} {u : UnitId} (f : Chip → AC → AC) (status : Nat)
    (agent : u.profile ≠ .partition) (own : f (s.chip.started t) (s.unit t u) = (s.unit t u).endDrain status) :
    s.keepsBut (s.run t fun c => c.atAgent u (f c)) u
      [.ABANKS_STATE, .ABANKS_LAST_DRAIN, .ACONTROL_NO_ROUTE, .ACONTROL_NO_EXIT, .APORT_DEFLECTIONS] := by
  refine State.keepsBut_run_atAgent f agent fun q other => ?_
  obtain ⟨others, away⟩ := sendMoves_of_notMem_after (l := [.ABANKS_STATE, .ABANKS_LAST_DRAIN]) other
  simp only [List.mem_cons, List.not_mem_nil, or_false, not_or] at others
  rw [own, AC.endDrain_reg _ _ away]
  simp [AC.setReg_reg, others]

/-- Settles O16: a drain's two ends are one `endDrain`; a rollback is `rollbackEvent`, which a fault in outage does not undo. -/
theorem bankDrainAndResume : Obligations.BankDrainAndResume := by
  unfold Obligations.BankDrainAndResume
  refine ⟨?drain, ?quiet, ?timeout, ?resume, ?resumeWait, ?commitWait, ?query⟩
  case drain =>
    intro t e ep classes s taken idle newer shadow state
    have own := AC.doDrain_begins ((s.unit t e.unit).met e 0x24) (e := e) (ep := ep) classes (by simpa using idle)
      (by rwa [State.met_ureg s t e 0x24 rfl]) (by rwa [State.met_ureg s t e 0x24 rfl]) (by rwa [AC.state, State.met_ureg s t e 0x24 rfl])
    refine ⟨_, rfl, ?_, ?classes, ?_, ?_, State.keepsBut_run_onReq 0x24 taken fun q _ other => ?_⟩
    case classes =>
      rw [State.ureg_run_onReq 0x24 _ taken, own, AC.mod_reg _ _ rfl, AC.setReg_reg, if_pos rfl]
      exact Nat.mod_mod classes 4
    · rw [State.ureg_run_onReq 0x24 _ taken, own, AC.mod_reg _ _ rfl]
      simp only [AC.setReg_reg, reduceCtorEq, if_true, if_false]
      rfl
    · rw [State.agent_run_onReq 0x24 _ taken, own, AC.mod_a]
    · rw [State.agent_run_onReq 0x24 _ taken, own, AC.mod_a, AC.met_now]
    · simp only [List.mem_cons, List.not_mem_nil, or_false, not_or] at other
      rw [own, AC.mod_reg _ _ rfl]
      simp [AC.setReg_reg, other]
  case quiet =>
    intro t u s agent state none_ sinceDrain sincePacket
    have own := AC.drainQuiet_ends (s.unit t u) state none_ sinceDrain sincePacket
    refine ⟨_, rfl, ?_, ?_, ?_, State.keepsBut_endDrain _ 0x00 agent own⟩
    · rw [State.ureg_run_atAgent s t _ agent, own, AC.endDrain_reg _ _ rfl]
      simp only [AC.setReg_reg, reduceCtorEq, if_true, if_false]
      rfl
    · rw [State.ureg_run_atAgent s t _ agent, own, AC.endDrain_reg _ _ rfl, AC.setReg_reg, if_pos rfl]
      rfl
    · rw [State.agent_run_atAgent s t _ agent, own, AC.endDrain_drainReq]
  case timeout =>
    intro t u s agent state due
    have own := AC.drainTimeout_ends (s.unit t u) state due
    refine ⟨_, rfl, ?_, ?_, State.keepsBut_endDrain _ 0x01 agent own⟩
    · rw [State.ureg_run_atAgent s t _ agent, own, AC.endDrain_reg _ _ rfl]
      simp only [AC.setReg_reg, reduceCtorEq, if_true, if_false]
      rfl
    · rw [State.agent_run_atAgent s t _ agent, own, AC.endDrain_drainReq]
  case resume =>
    intro t e s taken state
    have own := AC.doResume_ends ((s.unit t e.unit).met e 0x28) (e := e) (by rwa [AC.state, State.met_ureg s t e 0x28 rfl])
    rw [State.met_ureg s t e 0x28 rfl] at own
    refine ⟨_, rfl, ?_, ?_, State.uanswered_run_onReq 0x28 taken ?_, State.keepsBut_run_onReq 0x28 taken fun q away other => ?_⟩
    · rw [State.ureg_run_onReq 0x28 _ taken, own, AC.answer_reg _ _ _ _ _ rfl, AC.mod_reg _ _ rfl, AC.setReg_reg, if_pos rfl]
      rfl
    · rw [State.agent_run_onReq 0x28 _ taken, own, AC.answer, AC.reply_resumed, AC.mod_a]
    · rw [own]
      exact AC.answer_kept _ e 0x28 0x00 []
    · rw [own, AC.answer_reg _ _ _ _ _ away, AC.mod_reg _ _ rfl, AC.setReg_reg, if_neg (by simpa using other)]
  case resumeWait =>
    intro t u s agent state due
    have own := AC.resumeWaitExpiry_ends (s.unit t u) state due
    refine ⟨_, rfl, ?_, ?_, ?_, State.keepsBut_run_atAgent _ agent fun q other => ?_⟩
    · rw [State.ureg_run_atAgent s t _ agent, own, AC.event_reg _ _ _ rfl (by decide), AC.mod_reg _ _ rfl, AC.setReg_reg, if_pos rfl]
      rfl
    · rw [State.agent_run_atAgent s t _ agent, own, AC.event_resumed, AC.mod_a, State.unit_reg]
    · rw [State.ureg_run_atAgent s t _ agent, own, AC.event_bit _ _ _ (by decide)]
      exact Bool.or_true _
    · obtain ⟨others, away⟩ := sendMoves_of_notMem_after (l := [.ABANKS_STATE, .ACOMMON_INT_STATUS]) other
      simp only [List.mem_cons, List.not_mem_nil, or_false, not_or] at others
      rw [own, AC.event_reg _ _ _ away others.2, AC.mod_reg _ _ rfl, AC.setReg_reg, if_neg others.1]
  case commitWait =>
    intro t u s agent state due
    have own := AC.commitWaitExpiry_ends (s.unit t u) state due
    refine ⟨_, rfl, ?_, ?_, ?_, ?_, ?_⟩
    · rw [State.ureg_run_atAgent s t _ agent, own, AC.rollback_reg _ rfl (by decide), AC.reg_count_other _ (by decide), AC.setReg_reg,
        if_pos rfl]
      rfl
    · rw [State.ureg_run_atAgent s t _ agent, own, AC.rollback_reg _ rfl (by decide), AC.reg_count_one _ rfl, AC.setReg_reg,
        if_neg (by decide), State.unit_reg]
    · rw [State.ureg_run_atAgent s t _ agent, own]
      refine AC.fault_bit _ 3 (by decide) ?_
      rw [AC.rollbackEvent, AC.event_bit _ _ _ (by decide)]
      exact Bool.or_true _
    · rw [State.agent_run_atAgent s t _ agent, own, AC.fault_drainReq, AC.rollbackEvent, AC.event_drainReq, AC.send_drainReq]
      rfl
    · rw [State.ureg_run_atAgent s t _ agent, own, AC.rollback_reg _ rfl (by decide), AC.reg_count_other _ (by decide), AC.setReg_reg,
        if_neg (by decide), State.unit_reg]
  case query =>
    intro t e s taken same
    refine ⟨_, rfl, State.uanswered_run_onReq 0x2C taken ?_, State.keepsBut_run_onReq_nil 0x2C taken fun q away => ?_⟩
    · rw [AC.met_report (s.unit t e.unit) e 0x2C same]
      exact AC.answer_kept _ e 0x2C 0x00 _
    · exact AC.answer_reg _ e 0x2C 0x00 _ away

end Sys2Proof.Machine
end

section
/-! SUPPORT. COMMIT at an agent: the swap before the commit-wait deadline, and the refusal from it on (R80). -/

namespace Sys2Proof.Machine

open Sys2Proof

namespace AC

/-- A field of a PORT page does not meet a field of an agent's own page whose place in the order of fields is before it. -/
theorem setPReg_reg_before (c : AC) {r q : Reg} (p v : Nat) (h : q.ctorIdx < r.ctorIdx) : (c.setPReg r p v).reg q = c.reg q := by
  refine RegFile.get_set_key _ v fun same => ?_
  simp only [Reg.key] at same
  omega

/-- Taking the delays of the links moves only fields of the PORT pages. -/
theorem recomputeD_reg (c : AC) {q : Reg} (h : q.ctorIdx < Reg.ctorIdx .APORT_DELAY_SLOTS) : c.recomputeD.reg q = c.reg q := by
  unfold recomputeD
  generalize c.a.ports.map Prod.fst = l
  induction l generalizing c with
  | nil => rfl
  | cons p r ih =>
    rw [List.foldl_cons, ih]
    split
    · rfl
    · exact setPReg_reg_before c p _ h

@[simp] theorem noteCleared_reg (c : AC) (old new : Nat) (q : Reg) : (c.noteCleared old new).reg q = c.reg q := by
  unfold noteCleared
  simp only
  split
  · rfl
  · exact mod_reg _ _ rfl

/-- The agent with its epochs and its banks swapped, in COMMITTED. -/
def swapped (c : AC) (ep : Nat) : AC :=
  let d := (c.setReg .ABANKS_ACTIVE_EPOCH ep).setReg .ABANKS_SHADOW_EPOCH (c.reg .ABANKS_ACTIVE_EPOCH)
  ((d.setReg .ABANKS_ACTIVE_BANK (1 - d.reg .ABANKS_ACTIVE_BANK)).setReg .ABANKS_STATE 5).mod
    fun a => { a with flipAt := (c.slot + 1) * 128, commitAt := c.now, drainReq := none }

/-- The agent once its COMMIT is done, but for the answer. -/
def committed (c : AC) (ep : Nat) : AC :=
  let new := (c.swapped ep).reg .ABANKS_ACTIVE_BANK
  (((c.swapped ep).noteCleared (1 - new) new).count .ABANKS_COMMITS).recomputeD

section
variable {c : AC} {e : Env} {ep : Nat} (mode : c.reg .ACONTROL_MODE ≠ 2) (newer : epochNewer ep (c.reg .ABANKS_ACTIVE_EPOCH) = true)
  (shadow : ep = c.reg .ABANKS_SHADOW_EPOCH) (state : c.state = 3 ∨ c.state = 4)
include mode newer shadow state

/-- COMMIT of the shadow's newer epoch in DRAINING or DRAINED depends on the deadline alone. -/
theorem doCommit_drained :
    c.doCommit e ep = if c.commitDeadline ≤ c.now then c.refuse e 0x26 0x0A else (c.committed ep).answer e 0x26 0x00 := by
  have fresh : ¬(ep = c.reg .ABANKS_ACTIVE_EPOCH ∧ (c.state = 5 ∨ c.a.resumed = some ep)) := by
    rintro ⟨same, -⟩
    rw [same, epochNewer_self] at newer
    cases newer
  have known : ¬((!epochNewer ep (c.reg .ABANKS_ACTIVE_EPOCH)) = true ∨ ep ≠ c.reg .ABANKS_SHADOW_EPOCH) := by simp [newer, ← shadow]
  have notBack : c.state ≠ 6 := by omega
  have drained : ¬(c.state ≠ 3 ∧ c.state ≠ 4) := by omega
  simp only [doCommit, mode, fresh, known, notBack, drained, if_false]
  rfl

end

/-- Hearing a message leads into no static fallback. -/
theorem met_mode_ne (c : AC) (e : Env) (k : Nat) (h : c.reg .ACONTROL_MODE ≠ 2) : (c.met e k).reg .ACONTROL_MODE ≠ 2 := by
  rw [reg, met_mode]
  split
  · decide
  · exact h

@[simp] theorem met_commitDeadline (c : AC) (e : Env) (k : Nat) : (c.met e k).commitDeadline = c.commitDeadline := by
  rw [AC.commitDeadline, met_drainAt, met_reg c e k rfl, AC.commitDeadline]

/-- The registers after a COMMIT that are not of the PORT pages. -/
theorem committed_reg (c : AC) (ep : Nat) {q : Reg} (h : q.ctorIdx < Reg.ctorIdx .APORT_DELAY_SLOTS) :
    (c.committed ep).reg q = ((c.swapped ep).count .ABANKS_COMMITS).reg q := by
  rw [committed, recomputeD_reg _ h, count_reg, count_reg, noteCleared_reg, noteCleared_reg]

end AC

/-- Settles O17: such a COMMIT depends on the deadline alone (`doCommit_drained`), and what the swap moves is `committed_reg`. -/
theorem commitDeadline : Obligations.CommitDeadline := by
  unfold Obligations.CommitDeadline
  refine ⟨?commits, ?refused, ?default⟩
  case commits =>
    intro t e ep s taken mode newer shadow state early small
    have own : ((s.unit t e.unit).met e 0x26).doCommit e ep = (((s.unit t e.unit).met e 0x26).committed ep).answer e 0x26 0x00 := by
      rw [AC.doCommit_drained (AC.met_mode_ne (s.unit t e.unit) e 0x26 mode) (by rwa [State.met_ureg s t e 0x26 rfl])
        (by rwa [State.met_ureg s t e 0x26 rfl]) (by rwa [AC.state, State.met_ureg s t e 0x26 rfl]), AC.met_commitDeadline, AC.met_now]
      exact if_neg (Nat.not_le.2 early)
    have bank : trunc (Reg.width .ABANKS_ACTIVE_BANK) (1 - s.ureg e.unit .ABANKS_ACTIVE_BANK) = 1 - s.ureg e.unit .ABANKS_ACTIVE_BANK :=
      Nat.mod_eq_of_lt (Nat.lt_succ_of_le (Nat.sub_le _ _))
    refine ⟨_, rfl, ?_, ?_, Eq.trans ?_ bank, ?_, ?commits, State.uanswered_run_onReq 0x26 taken ?answered⟩
    case commits =>
      rw [State.ureg_run_onReq 0x26 _ taken, own, AC.answer_reg _ _ _ _ _ rfl, AC.committed_reg _ _ (by decide), AC.reg_count_one _ rfl,
        AC.swapped, AC.mod_reg _ _ rfl]
      simp only [AC.setReg_reg, reduceCtorEq, if_false]
      rw [State.met_ureg s t e 0x26 rfl]
    case answered =>
      rw [own]
      exact AC.answer_kept _ e 0x26 0x00 []
    all_goals
      rw [State.ureg_run_onReq 0x26 _ taken, own, AC.answer_reg _ _ _ _ _ rfl, AC.committed_reg _ _ (by decide),
        AC.reg_count_other _ (by decide), AC.swapped, AC.mod_reg _ _ rfl]
      simp only [AC.setReg_reg, reduceCtorEq, if_true, if_false, State.met_ureg s t e 0x26 (r := .ABANKS_ACTIVE_BANK) rfl,
        State.met_ureg s t e 0x26 (r := .ABANKS_ACTIVE_EPOCH) rfl] <;> rfl
  case refused =>
    intro t e ep s taken mode newer shadow state late
    have own : ((s.unit t e.unit).met e 0x26).doCommit e ep = ((s.unit t e.unit).met e 0x26).refuse e 0x26 0x0A := by
      rw [AC.doCommit_drained (AC.met_mode_ne (s.unit t e.unit) e 0x26 mode) (by rwa [State.met_ureg s t e 0x26 rfl])
        (by rwa [State.met_ureg s t e 0x26 rfl]) (by rwa [AC.state, State.met_ureg s t e 0x26 rfl]), AC.met_commitDeadline, AC.met_now]
      exact if_pos late
    refine ⟨_, rfl, State.uanswered_run_onReq 0x26 taken ?_, ?_, State.keepsBut_run_onReq 0x26 taken fun q away other => ?_⟩
    · rw [own]
      exact AC.refuse_kept _ e 0x26 0x0A
    · rw [State.ureg_run_onReq 0x26 _ taken, own, AC.refuse_refusals, State.met_ureg s t e 0x26 rfl]
    · rw [own, AC.refuse_reg _ _ _ _ away (by simpa using other)]
  case default =>
    intro u
    have wait : State.reset.ureg u .ACONTROL_COMMIT_WAIT = 50 := rfl
    rw [wait]

end Sys2Proof.Machine
end

section
/-! SUPPORT. FENCE and UNFENCE at an agent, and the notices for its runtime (R83, R85, R285). -/

namespace Sys2Proof.Machine

open Sys2Proof

namespace AC

/-- The entry that a FENCE of a FID without one adds. -/
def newFence (c : AC) (fid job f : Nat) : FenceEntry := { fid := fid, job := job, f := f, effSlot := c.slot + 1 }

theorem doFence_adds (c : AC) (e : Env) {fid : Nat} (job f : Nat) (table : c.u.profile ≠ .circuit) (unknown : c.fenceOf fid = none)
    (room : c.a.fences.length < 4096) :
    c.doFence e fid job f = ((c.noteEpoch job f).mod fun a =>
      { a with fences := a.fences ++ [c.newFence fid job f] }).answer e 0x30 0x00 := by
  simp only [doFence, table, if_false, noteEpoch_fenceOf, unknown, noteEpoch_fences, room, if_true]
  rfl

/-- The entry that an UNFENCE lifts. -/
def lifted (c : AC) (y : FenceEntry) : FenceEntry := { y with lifted := true, liftTime := c.now }

@[simp] theorem met_lifted (c : AC) (e : Env) (k : Nat) : (c.met e k).lifted = c.lifted := by
  funext y
  simp [lifted]

theorem doUnfence_lifts (c : AC) (e : Env) {fid f : Nat} {x : FenceEntry} (table : c.u.profile ≠ .circuit)
    (found : c.fenceOf fid = some x) (acts : x.lifted = false) (same : x.f = f) :
    c.doUnfence e fid f = (c.mod fun a => { a with fences := mapIf (fun y => y.fid = fid) c.lifted a.fences }).answer e 0x32 0x00 := by
  have lifts : (!x.lifted) = true ∧ x.f = f := ⟨by rw [acts, Bool.not_false], same⟩
  simp only [doUnfence, table, if_false, found]
  exact if_pos (by simpa using lifts)

theorem doPeerReset_other (c : AC) {fid : Nat} (job reason step time : Nat) (other : fid ≠ c.reg .AIDENT_FID) :
    c.doPeerReset fid job reason step time =
      c.mod fun a => { a with notices := a.notices ++ [{ type := 0x37, body := [fid, job, reason, step, time] }] } := if_neg other

end AC

/-- Settles O18: `doFence_adds` and `doUnfence_lifts` change the table, and the notices are handed on as they come. -/
theorem agentFences : Obligations.AgentFences := by
  unfold Obligations.AgentFences
  refine ⟨?fence, ?unfence, ?notice, ?peer⟩
  case fence =>
    intro t e fid job f s taken table unknown room
    have own := AC.doFence_adds ((s.unit t e.unit).met e 0x30) e (fid := fid) job f (by simpa using table) (by simpa using unknown)
      (by simpa using room)
    refine ⟨_, rfl, ?_, State.uanswered_run_onReq 0x30 taken ?_, State.keepsBut_run_onReq_nil 0x30 taken fun q away => ?_⟩
    · rw [State.agent_run_onReq 0x30 _ taken, own, AC.answer_fences, AC.mod_a, AC.noteEpoch_fences, AC.met_fences, AC.newFence, AC.slot,
        AC.met_now, State.unit_a]
    · rw [own]
      exact AC.answer_kept _ e 0x30 0x00 []
    · rw [own, AC.answer_reg _ _ _ _ _ away, AC.mod_reg _ _ rfl, AC.noteEpoch_reg]
  case unfence =>
    intro t e fid job f x s taken table found acts same
    have own := AC.doUnfence_lifts ((s.unit t e.unit).met e 0x32) e (fid := fid) (f := f) (by simpa using table) (by simpa using found)
      acts same
    refine ⟨_, rfl, ?_, State.uanswered_run_onReq 0x32 taken ?_, State.keepsBut_run_onReq_nil 0x32 taken fun q away => ?_⟩
    · rw [State.agent_run_onReq 0x32 _ taken, own, AC.answer_fences, AC.mod_a, AC.met_fences, State.unit_a]
      rw [AC.met_lifted]
      rfl
    · rw [own]
      exact AC.answer_kept _ e 0x32 0x00 []
    · rw [own, AC.answer_reg _ _ _ _ _ away, AC.mod_reg _ _ rfl]
  case notice =>
    intro t e job f fids s taken
    refine ⟨_, rfl, ?_, State.keepsBut_run_onMsg_nil 0x35 taken fun q => ?_⟩
    · rw [State.agent_run_onMsg 0x35 _ taken]
      simp [AC.doFencedNotice]
    · rw [AC.doFencedNotice, AC.mod_reg _ _ rfl, AC.noteEpoch_reg]
  case peer =>
    intro t e fid job reason step time s taken other
    have own := AC.doPeerReset_other ((s.unit t e.unit).met e 0x37) job reason step time
      (by rwa [State.met_ureg s t e 0x37 rfl])
    refine ⟨_, rfl, ?_, State.keepsBut_run_onMsg_nil 0x37 taken fun q => ?_⟩
    · rw [State.agent_run_onMsg 0x37 _ taken, own, AC.mod_a, AC.met_notices, State.unit_a]
    · rw [own, AC.mod_reg _ _ rfl]

end Sys2Proof.Machine
end

section
/-! SUPPORT. Outage, internal errors and holdover of an agent (R92 to R96). -/

namespace Sys2Proof.Machine

open Sys2Proof

namespace AC

/-- A message from PARTITION_FID is the last one heard from it (R93). -/
theorem heard_lastPartMsg (c : AC) (e : Env) (k : Nat) (src : e.src = c.reg .AIDENT_PARTITION_FID) (named : e.src ≠ nullFid) :
    (c.heard e k).a.lastPartMsg = c.now := by
  rw [heard, if_pos ⟨src, named⟩]
  simp only
  split <;> rfl

theorem met_lastPartMsg (c : AC) (e : Env) (k : Nat) (src : e.src = c.reg .AIDENT_PARTITION_FID) (named : e.src ≠ nullFid) :
    (c.met e k).a.lastPartMsg = c.now := by
  have logged : (c.logMsg e k).reg .AIDENT_PARTITION_FID = c.reg .AIDENT_PARTITION_FID := by
    rw [logMsg, setReg_reg, if_neg (by decide), mod_reg _ _ rfl]
  unfold met
  simp only
  split
  · exact heard_lastPartMsg _ e k (by rw [src, reg_count_other _ (by decide), logged]) named
  · exact heard_lastPartMsg _ e k (by rw [src, logged]) named

theorem doHold_outage (c : AC) (h : c.reg .ACONTROL_MODE = 0) : c.doHold = c.setReg .ACONTROL_MODE 1 := if_pos h

theorem controlTimeout_holds (c : AC) (named : c.reg .AIDENT_PARTITION_FID ≠ nullFid)
    (due : c.a.lastPartMsg + c.reg .ACONTROL_CONTROL_TIMEOUT * 1000 ≤ c.now) : c.controlTimeout = c.doHold := if_pos ⟨named, due⟩

theorem holdoverEntry_enters (c : AC) {x : Nat} (last : c.a.lastExchange = some x) (locked : c.reg .ATIME_STATE = 1)
    (due : x + 3000000 ≤ c.now) :
    c.holdoverEntry = ((c.setReg .ATIME_STATE 2).event 0x2006 [c.reg .ATIME_OFFSET]).fault 2 := by
  simp only [holdoverEntry, last, locked, due, and_self, if_true]

end AC

/-- A message whose own effect moves no register but those that every message may move. -/
theorem State.keepsBut_run_onMsg_within {s : State} {t : Nat} {e : Env} {r : AC.Right} (k : Nat) {f : AC → AC} (h : s.takes t e r)
    (keeps : ∀ q, q ∉ messageRegs → (f ((s.unit t e.unit).met e k)).reg q = ((s.unit t e.unit).met e k).reg q) :
    s.keepsBut (s.run t fun c => c.onMsg e k r f) e.unit messageRegs := by
  intro q hq
  rw [State.ureg_run_onMsg k f h, keeps q hq, State.met_ureg s t e k (metMoves_of_notMem hq)]

/-- Settles O20: MODE after a message is `met_mode`; a fault matters in outage alone (`fault_outage`, `fault_idle`). -/
theorem outageAndFaults : Obligations.OutageAndFaults := by
  unfold Obligations.OutageAndFaults
  refine ⟨?hold, ?beat, ?timeout, ?inOutage, ?outside, ?holdover⟩
  case hold =>
    intro t e s taken normal
    have own := AC.doHold_outage ((s.unit t e.unit).met e 0x47) (by rw [AC.reg, AC.met_mode, if_neg (by simp)]; exact normal)
    refine ⟨_, rfl, ?_, State.keepsBut_run_onMsg_within 0x47 taken fun q other => ?_⟩
    · rw [State.ureg_run_onMsg 0x47 _ taken, own, AC.setReg_reg, if_pos rfl]
      rfl
    · have mode : q ≠ .ACONTROL_MODE := fun same => other (by rw [same]; decide)
      rw [own, AC.setReg_reg, if_neg mode]
  case beat =>
    intro t e s taken src outage
    have named : e.src ≠ nullFid := by
      obtain ⟨-, -, -, allowed⟩ := taken
      simp only [AC.allowed, Bool.and_eq_true, bne_iff_ne, State.unit_reg] at allowed
      rw [src]
      exact allowed.1
    refine ⟨_, rfl, ?_, ?_, State.keepsBut_run_onMsg_nil 0x49 taken fun q => rfl⟩
    · rw [State.ureg_run_onMsg 0x49 _ taken, AC.reg, AC.met_mode]
      exact if_pos ⟨src, named, by decide, outage⟩
    · rw [State.agent_run_onMsg 0x49 _ taken, AC.met_lastPartMsg (s.unit t e.unit) e 0x49 src named]
  case timeout =>
    intro t u s agent named due normal
    have own := AC.controlTimeout_holds (s.unit t u) named due
    rw [AC.doHold_outage (s.unit t u) normal] at own
    refine ⟨_, rfl, ?_, State.keepsBut_run_atAgent _ agent fun q other => ?_⟩
    · rw [State.ureg_run_atAgent s t _ agent, own, AC.setReg_reg, if_pos rfl]
      rfl
    · rw [own, AC.setReg_reg, if_neg (by simpa using other)]
  case inOutage =>
    intro t u code s agent outage
    have still : ((s.unit t u).event 0x200C [code]).reg .ACONTROL_MODE = 1 := by rwa [AC.event_reg _ _ _ rfl (by decide)]
    refine ⟨_, rfl, ?_, ?_, ?_, ?_⟩
    · rw [State.ureg_run_atAgent s t _ agent, AC.internalError, AC.fault_outage _ 4 still, AC.event_reg _ _ _ rfl (by decide),
        AC.fallen_mode]
    · rw [State.ureg_run_atAgent s t _ agent, AC.internalError, AC.fault_outage _ 4 still, AC.event_reg _ _ _ rfl (by decide),
        AC.fallen_cause]
      rfl
    · rw [State.ureg_run_atAgent s t _ agent, AC.internalError]
      refine AC.fault_bit _ 4 (by decide) ?_
      rw [AC.event_bit _ _ _ (by decide)]
      exact Bool.or_true _
    · rw [State.ureg_run_atAgent s t _ agent, AC.internalError, AC.fault_outage _ 4 still, AC.event_bit _ _ _ (by decide)]
      exact Bool.or_true _
  case outside =>
    intro t u code s agent normal
    have own : (s.unit t u).internalError code = (s.unit t u).event 0x200C [code] :=
      AC.fault_idle _ 4 (by rwa [AC.event_reg _ _ _ rfl (by decide)])
    refine ⟨_, rfl, ?_, State.keepsBut_run_atAgent _ agent fun q other => ?_⟩
    · rw [State.ureg_run_atAgent s t _ agent, own, AC.event_bit _ _ _ (by decide)]
      exact Bool.or_true _
    · obtain ⟨status, away⟩ := sendMoves_of_notMem_after (l := [.ACOMMON_INT_STATUS]) other
      rw [own, AC.event_reg _ _ _ away (by simpa using status)]
  case holdover =>
    intro t u x s agent last locked due
    have own := AC.holdoverEntry_enters (s.unit t u) last locked due
    refine ⟨_, rfl, ?_, ?_⟩
    · rw [State.ureg_run_atAgent s t _ agent, own, AC.fault_reg _ 2 rfl (by decide), AC.event_reg _ _ _ rfl (by decide), AC.setReg_reg,
        if_pos rfl]
      rfl
    · rw [State.ureg_run_atAgent s t _ agent, own]
      refine AC.fault_bit _ 2 (by decide) ?_
      rw [AC.event_bit _ _ _ (by decide)]
      exact Bool.or_true _

end Sys2Proof.Machine
end

section
/-! SUPPORT. Messages that an agent queues for the partner on a port, and the time exchange (R91, R92). -/

namespace Sys2Proof.Machine

open Sys2Proof

namespace AC

/-- A message for the partner of a port. -/
def partnerPacket (c : AC) (p : Nat) (m : Msg) : Packet :=
  { dst := c.preg .APORT_PARTNER_FID p, src := c.reg .AIDENT_FID, cls := clsMgmt, len := 16 + bodyLen m, sendTime := c.now, msg := some m }

/-- A message for the partner joins the management queue of its port, where that has room and, at a switch, the port is up. -/
theorem sendOnPort_queues (c : AC) (p : Nat) (m : Msg) (up : c.u.profile = .switch → c.up p = true)
    (room : (c.port p).mgmtQ.length < 16) :
    c.sendOnPort p m = c.modPort p fun s => { s with mgmtQ := s.mgmtQ ++ [c.partnerPacket p m] } := by
  have fits : c.hasRoom p clsMgmt = true := by simp [hasRoom, room]
  by_cases switch : c.u.profile = .switch
  · simp only [sendOnPort, switch, up switch, toOutput, fits, if_true]
    rfl
  · simp only [sendOnPort, switch, if_false]
    rfl

/-- A change of the record that leaves the ports alone. -/
theorem mod_port (c : AC) {f : Agent → Agent} (q : Nat) (h : (f c.a).ports = c.a.ports) : (c.mod f).port q = c.port q :=
  congrArg (fun x : SMap AgentPort => SMap.get ({} : AgentPort) x q) h

/-- The request that a time exchange opens. -/
def openTime (c : AC) (retry : Bool) : TimeReq := { t1 := c.now, tag := c.a.nextTag, at_ := c.now, retry := retry }

theorem timeExchange_asks (c : AC) (due : (c.a.exchangeAt.all fun a => a + 1000000 ≤ c.now) = true)
    (up : c.u.profile = .switch → c.up (c.reg .ATIME_PARENT_PORT) = true)
    (room : (c.port (c.reg .ATIME_PARENT_PORT)).mgmtQ.length < 16) :
    c.timeExchange = (c.modPort (c.reg .ATIME_PARENT_PORT) fun s => { s with mgmtQ := s.mgmtQ ++
        [c.partnerPacket (c.reg .ATIME_PARENT_PORT) { type := 0x60, tag := c.a.nextTag, body := [c.now] }] }).mod fun a =>
      { a with timeReq := some (c.openTime false), timeRetry := false, nextTag := (a.nextTag + 1) % 2 ^ 32, exchangeAt := some c.now } := by
  have asked : c.timeExchange = (c.askTime false).mod fun a => { a with exchangeAt := some c.now } := by
    cases last : c.a.exchangeAt with
    | none => simp only [timeExchange, last, if_true]
    | some a =>
      rw [last, Option.all_some] at due
      simp only [timeExchange, last]
      exact if_pos due
  rw [asked, askTime, sendOnPort_queues c _ _ up room]
  rfl

/-! An answer to the open request -/

/-- The offset of the four times of an exchange (R91). -/
def timeOffset (c : AC) (t1 t2 t3 : Nat) : Int := (((t2 : Int) - t1) - ((c.now : Int) - t3)) / 2

/-- The offset is stepped, not slewed. -/
def steps (c : AC) (o : Int) : Bool := 1000 < o.natAbs || c.reg .ATIME_STATE = 4

/-- The agent with the request closed and its clock corrected. -/
def clockSet (c : AC) (o : Int) (step : Bool) : AC :=
  (c.mod fun a => { a with timeReq := none, lastExchange := some c.now }).correct o step

/-- The registers that tell of an exchange. -/
def exchangeNoted (c : AC) (o delay : Int) (step : Bool) : AC :=
  let d := (((c.setReg .ATIME_OFFSET (toField 32 o)).setReg .ATIME_PATH_DELAY (toField 16 delay)).setReg .ATIME_STATE 1).count
    .ATIME_EXCHANGES
  if step then d.count .ATIME_TIME_STEPS else d

/-- An offset out of bound is counted and reported (R92). -/
def boundChecked (c : AC) (o : Int) : AC :=
  if 20 < o.natAbs then (c.count .ATIME_OUT_OF_BOUND).event 0x2007 [toField 32 o] else c

theorem timeResp_answers (c : AC) {r : TimeReq} (t2 t3 : Nat) (isOpen : c.a.timeReq = some r) :
    ∃ delay, c.timeResp 0 r.t1 t2 t3 = ((c.clockSet (c.timeOffset r.t1 t2 t3) (c.steps (c.timeOffset r.t1 t2 t3))).exchangeNoted
      (c.timeOffset r.t1 t2 t3) delay (c.steps (c.timeOffset r.t1 t2 t3))).boundChecked (c.timeOffset r.t1 t2 t3) := by
  refine ⟨(((c.now : Int) - r.t1) - ((t3 : Int) - t2)) / 2, ?_⟩
  simp only [timeResp, isOpen, ne_eq, not_true_eq_false, if_false]
  rfl

theorem event_sameBut (c : AC) (k : Nat) (l : List Nat) : sameBut c.a (c.event k l).a := by
  unfold event
  simp only
  split
  · refine sameBut_trans ?_ (send_sameBut _ _ _)
    exact sameBut_regs c.a _
  · exact sameBut_regs c.a _

theorem boundChecked_sameBut (c : AC) (o : Int) : sameBut c.a (c.boundChecked o).a := by
  unfold boundChecked
  split
  · refine sameBut_trans ?_ (event_sameBut _ _ _)
    exact sameBut_regs c.a _
  · exact sameBut_refl c.a

theorem exchangeNoted_sameBut (c : AC) (o delay : Int) (step : Bool) : sameBut c.a (c.exchangeNoted o delay step).a := by
  unfold exchangeNoted
  simp only
  split <;> (simp only [count_a, setReg_a]; exact sameBut_regs _ _)

theorem boundChecked_reg (c : AC) (o : Int) {q : Reg} (away : sendMoves q = false) (h : q ≠ .ATIME_OUT_OF_BOUND)
    (status : q ≠ .ACOMMON_INT_STATUS) : (c.boundChecked o).reg q = c.reg q := by
  unfold boundChecked
  split
  · rw [event_reg _ _ _ away status, reg_count_other _ h.symm]
  · rfl

theorem clockSet_reg (c : AC) (o : Int) (step : Bool) (q : Reg) : (c.clockSet o step).reg q = c.reg q := by
  cases step <;> rfl

theorem clockSet_timeReq (c : AC) (o : Int) (step : Bool) : (c.clockSet o step).a.timeReq = none := by
  cases step <;> rfl

/-- What the clock reads depends on neither registers nor ports. -/
theorem clockOf_sameBut (u : UnitId) {a b : Agent} (ticks : Int) (h : sameBut a b) : clockOf u b ticks = clockOf u a ticks := by
  rw [h]
  rfl

/-- At once after a correction the clock reads the stepped time, or what it read before. -/
theorem clockOf_clockSet (c : AC) (o : Int) (step : Bool) :
    clockOf c.u (c.clockSet o step).a c.ticks = if step then ((c.now : Int) + o).toNat else c.now := by
  have none_ : ∀ left : Int, slewed c.u left (c.ticks - c.ticks).toNat = 0 := by
    intro left
    simp [slewed]
  cases step with
  | true =>
    simp only [clockOf, clockSet, correct, mod_now, mod_ticks, if_true, none_]
    omega
  | false =>
    simp only [clockOf, clockSet, correct, mod_now, mod_ticks, mod_a, Bool.false_eq_true, if_false, none_]
    omega

/-- The registers of an answered exchange. -/
theorem exchangeNoted_reg (c : AC) (o delay : Int) (step : Bool) {q : Reg} (h : q ≠ .ATIME_TIME_STEPS) :
    (c.exchangeNoted o delay step).reg q =
      ((((c.setReg .ATIME_OFFSET (toField 32 o)).setReg .ATIME_PATH_DELAY (toField 16 delay)).setReg .ATIME_STATE 1).count
        .ATIME_EXCHANGES).reg q := by
  cases step with
  | true => exact reg_count_other _ h.symm
  | false => rfl

theorem exchangeNoted_steps (c : AC) (o delay : Int) (step : Bool) :
    (c.exchangeNoted o delay step).reg .ATIME_TIME_STEPS =
      if step then countUp (c.reg .ATIME_TIME_STEPS) else c.reg .ATIME_TIME_STEPS := by
  have before : ((((c.setReg .ATIME_OFFSET (toField 32 o)).setReg .ATIME_PATH_DELAY (toField 16 delay)).setReg .ATIME_STATE 1).count
      .ATIME_EXCHANGES).reg .ATIME_TIME_STEPS = c.reg .ATIME_TIME_STEPS := by
    rw [reg_count_other _ (by decide)]
    simp only [setReg_reg, reduceCtorEq, if_false]
  cases step with
  | true => exact (reg_count_one _ rfl).trans (congrArg countUp before)
  | false => exact before

@[simp] theorem met_ticks (c : AC) (e : Env) (k : Nat) : (c.met e k).ticks = c.ticks := by
  have heard_ticks : ∀ d : AC, (d.heard e k).ticks = d.ticks := by
    intro d
    unfold heard
    split
    · simp only
      split <;> rfl
    · rfl
  unfold met
  simp only
  split
  · exact heard_ticks _
  · exact heard_ticks _

@[simp] theorem met_timeOffset (c : AC) (e : Env) (k t1 t2 t3 : Nat) : (c.met e k).timeOffset t1 t2 t3 = c.timeOffset t1 t2 t3 := by
  rw [timeOffset, met_now, timeOffset]

@[simp] theorem met_steps (c : AC) (e : Env) (k : Nat) (o : Int) : (c.met e k).steps o = c.steps o := by
  rw [steps, met_reg c e k rfl, steps]

/-! An answer that does not come -/

theorem timeRespTimeout_fails (c : AC) {x : TimeReq} (isOpen : c.a.timeReq = some x)
    (due : x.at_ + c.reg .ACONTROL_MSG_TIMEOUT * 1000 ≤ c.now) : c.timeRespTimeout = c.exchangeFailed x := by
  simp only [timeRespTimeout, isOpen, due, if_true]

end AC

theorem trunc_toField (w : Nat) (o : Int) : trunc w (toField w o) = toField w o := by
  have := Int.emod_lt_of_pos o (b := (2 : Int) ^ w) (by positivity)
  refine Nat.mod_eq_of_lt ?_
  have := Int.emod_nonneg o (b := (2 : Int) ^ w) (by positivity)
  unfold toField
  zify
  rwa [Int.toNat_of_nonneg this]

/-- What an agent's clock reads once a message that it takes has had its effect. -/
theorem State.now_run_onMsg {s : State} {t : Nat} {e : Env} {r : AC.Right} (k : Nat) (f : AC → AC) (h : s.takes t e r) :
    ((s.run t fun c => c.onMsg e k r f).unit t e.unit).now =
      AC.clockOf e.unit (f ((s.unit t e.unit).met e k)).a (s.unit t e.unit).ticks := by
  have time : ((s.run t fun c => c.onMsg e k r f).chip.started t).ticks = (s.unit t e.unit).ticks := by
    obtain ⟨hp, hport, hgood, hallowed⟩ := h
    rw [State.run_chip, Chip.run_started, Chip.onMsg_ok (s.chip.started t) e k r f hp (by omega) hgood hallowed]
    simp only [Chip.ticks, Chip.started_now, Chip.started_stepped, Chip.onAgent_now, Chip.onAgent_stepped, Nat.max_assoc, Nat.max_self]
    rfl
  rw [← State.agent_run_onMsg k f h, ← time]
  rfl

theorem execTimeReq_agent (t : Nat) (e : Env) (t1 : Nat) (s : State) (agent : e.unit.profile ≠ .partition) :
    exec (.timeReq t e t1) s = .next (s.run t fun c => c.onReq e 0x60 .partner fun a => a.answer e 0x60 0x00 [t1, a.now, a.now]) := by
  obtain ⟨unit, port, src, tag, good, ctx, status, sendTime⟩ := e
  cases unit with
  | part p => exact absurd rfl agent
  | _ => rfl

/-- Settles O21: the exchange of `timeExchange_asks`, the clock of `clockOf_clockSet` and the registers of `exchangeNoted`. -/
theorem agentTime : Obligations.AgentTime := by
  unfold Obligations.AgentTime
  refine ⟨?asks, ?answers, ?locks, ?fails⟩
  case asks =>
    intro t u s agent due up room
    have own := AC.timeExchange_asks (s.unit t u) due (fun switch => beq_iff_eq.2 (up switch)) room
    refine ⟨_, rfl, ?_, ?_, ?_, State.keepsBut_run_atAgent _ agent fun q _ => ?_⟩
    · rw [State.agent_run_atAgent s t _ agent, own]
      rfl
    · rw [State.agent_run_atAgent s t _ agent, own]
      rfl
    · rw [State.port_run_atAgent s t _ agent, own, AC.mod_port _ _ rfl, State.unit_reg, AC.port_modPort, List.length_append]
      rfl
    · rw [own, AC.mod_reg _ _ rfl]
      rfl
  case answers =>
    intro t e t1 s taken
    have agent : e.unit.profile ≠ .partition := by
      obtain ⟨⟨agent, -⟩, -⟩ := taken
      exact agent
    refine ⟨_, execTimeReq_agent t e t1 s agent, ?_, State.keepsBut_run_onReq_nil 0x60 taken fun q away => ?_⟩
    · refine State.uanswered_run_onReq 0x60 taken ?_
      rw [AC.met_now]
      exact AC.answer_kept _ e 0x60 0x00 _
    · exact AC.answer_reg _ e 0x60 0x00 _ away
  case locks =>
    intro t e t2 t3 r o s taken ok isOpen offset
    obtain ⟨delay, own⟩ := AC.timeResp_answers ((s.unit t e.unit).met e 0x61) t2 t3 (by simpa using isOpen)
    rw [AC.met_timeOffset (s.unit t e.unit) e 0x61 r.t1 t2 t3, AC.timeOffset, ← offset, AC.met_steps] at own
    have step : (s.unit t e.unit).steps o = true ↔ 1000 < o.natAbs ∨ s.ureg e.unit .ATIME_STATE = 4 := by
      rw [AC.steps, Bool.or_eq_true, decide_eq_true_eq, decide_eq_true_eq, State.unit_reg]
    have kept := AC.sameBut_trans
      (AC.exchangeNoted_sameBut (((s.unit t e.unit).met e 0x61).clockSet o ((s.unit t e.unit).steps o)) o delay ((s.unit t e.unit).steps o))
      (AC.boundChecked_sameBut _ o)
    refine ⟨_, rfl, ?state, ?offset, ?exchanges, ?closed, ?stepped, ?clock⟩
    case closed =>
      rw [State.agent_run_onMsg 0x61 _ taken, ok, own, kept]
      exact AC.clockSet_timeReq _ _ _
    case clock =>
      have read := AC.clockOf_clockSet ((s.unit t e.unit).met e 0x61) o ((s.unit t e.unit).steps o)
      rw [AC.met_u, AC.met_ticks, AC.met_now, State.unit_u] at read
      rw [State.now_run_onMsg 0x61 _ taken, ok, own, AC.clockOf_sameBut _ _ kept, read]
      exact if_congr step rfl rfl
    case stepped =>
      rw [State.ureg_run_onMsg 0x61 _ taken, ok, own, AC.boundChecked_reg _ _ rfl (by decide) (by decide), AC.exchangeNoted_steps,
        AC.clockSet_reg, State.met_ureg s t e 0x61 rfl]
      exact if_congr step rfl rfl
    case exchanges =>
      rw [State.ureg_run_onMsg 0x61 _ taken, ok, own, AC.boundChecked_reg _ _ rfl (by decide) (by decide),
        AC.exchangeNoted_reg _ _ _ _ (by decide), AC.reg_count_one _ rfl]
      simp only [AC.setReg_reg, reduceCtorEq, if_false]
      rw [AC.clockSet_reg, State.met_ureg s t e 0x61 rfl]
    case offset =>
      rw [State.ureg_run_onMsg 0x61 _ taken, ok, own, AC.boundChecked_reg _ _ rfl (by decide) (by decide),
        AC.exchangeNoted_reg _ _ _ _ (by decide), AC.reg_count_other _ (by decide)]
      simp only [AC.setReg_reg, reduceCtorEq, if_true, if_false]
      exact trunc_toField 32 o
    case state =>
      rw [State.ureg_run_onMsg 0x61 _ taken, ok, own, AC.boundChecked_reg _ _ rfl (by decide) (by decide),
        AC.exchangeNoted_reg _ _ _ _ (by decide), AC.reg_count_other _ (by decide), AC.setReg_reg, if_pos rfl]
      rfl
  case fails =>
    intro t u x s agent isOpen due
    have own := AC.timeRespTimeout_fails (s.unit t u) isOpen due
    refine ⟨_, rfl, ?_, ?_, ?_, State.keepsBut_run_atAgent _ agent fun q other => ?_⟩
    · rw [State.ureg_run_atAgent s t _ agent, own, AC.exchangeFailed, AC.mod_reg _ _ rfl, AC.reg_count_one _ rfl, State.unit_reg]
    · rw [State.agent_run_atAgent s t _ agent, own]
      rfl
    · rw [State.agent_run_atAgent s t _ agent, own]
      rfl
    · rw [own, AC.exchangeFailed, AC.mod_reg _ _ rfl, AC.reg_count_other _ (by simpa [eq_comm] using other)]

end Sys2Proof.Machine
end

section
/-! SUPPORT. An agent's requests and stored answers, its telemetry and its reset (R95, R102, R173). -/

namespace Sys2Proof.Machine

open Sys2Proof

namespace AC

@[simp] theorem emit_reg (c : AC) (e : Emission) (r : Reg) : (c.emit e).reg r = c.reg r := rfl

/-! Requests -/

/-- The request of a TAG, sent once more. -/
def sentAgain (c : AC) (x : Request) : Request := { x with sentAt := c.now, retries := x.retries + 1 }

section
variable {c : AC} {tag : Nat} {r : Request} (found : c.a.requests.find? (fun x => x.msg.tag = tag) = some r)
  (due : r.sentAt + c.reg .ACONTROL_MSG_TIMEOUT * 1000 ≤ c.now)
include found due

theorem retransmit_again (more : r.retries < c.reg .ACONTROL_MSG_RETRIES) :
    c.retransmit tag = (c.mod fun a =>
      { a with requests := mapIf (fun x => x.msg.tag = tag) c.sentAgain a.requests }).send r.dst r.msg := by
  simp only [retransmit, found, Nat.not_lt.2 due, more, if_false, if_true]
  rfl

theorem retransmit_givesUp (spent : c.reg .ACONTROL_MSG_RETRIES ≤ r.retries) :
    c.retransmit tag = ((c.mod fun a => { a with requests := a.requests.filter fun x => x.msg.tag ≠ tag }).count
      .ACONTROL_MSG_FAILED).emit (.runtime c.u "request" [r.msg.type, tag, 0x01]) := by
  simp only [retransmit, found, Nat.not_lt.2 due, Nat.not_lt.2 spent, if_false]
  rfl

end

/-! Telemetry -/

/-- Only what sending may move differs, of time, output and registers. -/
def sentBut (c d : AC) : Prop := d.now = c.now ∧ d.out = c.out ∧ ∀ q, sendMoves q = false → d.reg q = c.reg q

theorem sentBut_send (c : AC) (d : Nat) (m : Msg) : sentBut c (c.send d m) :=
  ⟨send_now c d m, send_out c d m, fun _ away => send_reg c d m away⟩

theorem sentBut_trans {c d f : AC} : sentBut c d → sentBut d f → sentBut c f := by
  rintro ⟨now, out, regs⟩ ⟨now', out', regs'⟩
  exact ⟨now'.trans now, out'.trans out, fun q away => (regs' q away).trans (regs q away)⟩

theorem sentBut_foldl_modPort (g : AC → Nat → AgentPort → AgentPort) (l : List Nat) (c : AC) :
    sentBut c (l.foldl (fun c p => c.modPort p (g c p)) c) := by
  induction l generalizing c with
  | nil => exact ⟨rfl, rfl, fun _ _ => rfl⟩
  | cons p r ih => exact ih (c.modPort p (g c p))

/-- Telemetry that is due is sent and begins a new period. -/
theorem telemetry_due (c : AC) (named : c.reg .AIDENT_PARTITION_FID ≠ nullFid)
    (due : c.a.telemAt + c.reg .ACONTROL_TELEM_PERIOD * 1000 ≤ c.now) :
    ∃ d, sentBut c d ∧ c.telemetry = d.mod fun a => { a with telemAt := d.now } := by
  have sends : ¬(c.now < c.a.telemAt + c.reg .ACONTROL_TELEM_PERIOD * 1000 ∨ c.reg .AIDENT_PARTITION_FID = nullFid) := by
    rintro (early | same)
    · omega
    · exact named same
  rw [telemetry, if_neg sends]
  refine ⟨_, sentBut_trans ?_ (sentBut_foldl_modPort _ _ _), rfl⟩
  split
  · exact sentBut_send c _ _
  · exact sentBut_trans (sentBut_send c _ _) (sentBut_send _ _ _)

end AC

/-! Commands that a partition's unit takes for itself -/

theorem execMsgRetransmit_agent (t : Nat) (u : UnitId) (tag : Nat) (s : State) (agent : u.profile ≠ .partition) :
    exec (.msgRetransmit t u tag) s = .next (s.run t fun c => c.atAgent u fun a => a.retransmit tag) := by
  cases u with
  | part p => exact absurd rfl agent
  | _ => rfl

theorem execResponseStoreExpiry_agent (t : Nat) (u : UnitId) (src tag : Nat) (s : State) (agent : u.profile ≠ .partition) :
    exec (.responseStoreExpiry t u src tag) s = .next (s.run t fun c => c.atAgent u fun a => a.storeExpiry src tag) := by
  cases u with
  | part p => exact absurd rfl agent
  | _ => rfl

/-- What leaves the block for a message that an agent takes. -/
theorem State.out_run_onMsg {s : State} {t : Nat} {e : Env} {r : AC.Right} (k : Nat) (f : AC → AC) (h : s.takes t e r) :
    (s.run t fun c => c.onMsg e k r f).chip.out = (f ((s.unit t e.unit).met e k)).out := by
  obtain ⟨hp, hport, hgood, hallowed⟩ := h
  rw [State.run_chip, Chip.run_started, Chip.onMsg_ok (s.chip.started t) e k r f hp (by omega) hgood hallowed, Chip.out_onAgent]
  exact List.append_nil _

/-- The record of an agent after its reset. -/
theorem State.agent_run_agentReset (s : State) (t : Nat) {u : UnitId} (agent : u.profile ≠ .partition) :
    (s.run t fun c => c.agentReset u).chip.agent u = { skew := -(s.unit t u).ticks, slewFrom := (s.unit t u).ticks } := by
  rw [State.run_chip, Chip.run_started, Chip.agentReset, if_neg agent, Chip.agent_setAgent_same]
  rfl

/-- Settles O22: a due request is sent again or given up; a new telemetry period begins with what sending may move (`sentBut`). -/
theorem agentRequests : Obligations.AgentRequests := by
  unfold Obligations.AgentRequests
  refine ⟨?again, ?givesUp, ?expiry, ?telemetry, ?demand, ?demandAck, ?reset⟩
  case again =>
    intro t u tag r s agent found due more
    have own := AC.retransmit_again (c := s.unit t u) found due more
    refine ⟨_, execMsgRetransmit_agent t u tag s agent, ?_, State.keepsBut_run_atAgent _ agent fun q other => ?_⟩
    · rw [State.agent_run_atAgent s t _ agent, own, AC.send_requests]
      rfl
    · rw [own, AC.send_reg _ _ _ ((sendMoves_iff q).2 other), AC.mod_reg _ _ rfl]
  case givesUp =>
    intro t u tag r s agent found due spent
    have own := AC.retransmit_givesUp (c := s.unit t u) found due spent
    refine ⟨_, execMsgRetransmit_agent t u tag s agent, ?_, ?_, ?_⟩
    · rw [State.agent_run_atAgent s t _ agent, own]
      rfl
    · rw [State.ureg_run_atAgent s t _ agent, own, AC.emit_reg, AC.reg_count_one _ rfl, AC.mod_reg _ _ rfl, State.unit_reg]
    · rw [State.out_run_atAgent s t _ agent, own]
      rfl
  case expiry =>
    intro t u src tag s agent
    refine ⟨_, execResponseStoreExpiry_agent t u src tag s agent, ?_⟩
    rw [State.agent_run_atAgent s t _ agent]
    rfl
  case telemetry =>
    intro t u s agent named due
    obtain ⟨d, ⟨now, out, regs⟩, own⟩ := AC.telemetry_due (s.unit t u) named due
    refine ⟨_, rfl, ?_, ?_, State.keepsBut_run_atAgent _ agent fun q other => ?_⟩
    · rw [State.agent_run_atAgent s t _ agent, own, AC.mod_a, now]
    · rw [State.out_run_atAgent s t _ agent, own, AC.mod_out, out, State.unit_out]
    · rw [own, AC.mod_reg _ _ rfl, regs q ((sendMoves_iff q).2 other)]
  case demand =>
    intro t u body s agent
    refine ⟨_, rfl, ?_, State.keepsBut_run_atAgent _ agent fun q other => ?_⟩
    · rw [State.agent_run_atAgent s t _ agent, AC.demandSend, AC.ask, AC.send_requests]
      rfl
    · rw [AC.demandSend, AC.ask, AC.send_reg _ _ _ ((sendMoves_iff q).2 other), AC.mod_reg _ _ rfl]
  case demandAck =>
    intro t e body s taken
    refine ⟨_, rfl, ?_, ?_, State.keepsBut_run_onMsg_nil 0x41 taken fun q => rfl⟩
    · rw [State.agent_run_onMsg 0x41 _ taken, AC.demandAck, AC.emit_a, AC.mod_a, AC.met_requests, State.unit_a]
    · rw [State.out_run_onMsg 0x41 _ taken, AC.demandAck, AC.emit_out, AC.mod_out, AC.mod_u, AC.met_out, AC.met_u]
      rfl
  case reset =>
    intro t u s agent
    have record := State.agent_run_agentReset s t agent
    refine ⟨_, rfl, record, ?_, ?_⟩
    · rw [State.ureg, record]
      rfl
    · rw [State.ureg, record]
      rfl

end Sys2Proof.Machine
end

section
/-! SUPPORT. Port events at an agent, the identity of a partner, and the periodic IDENT (R95, R96, R99). -/

namespace Sys2Proof.Machine

open Sys2Proof

namespace AC

/-! The PORT pages and the links through sending, events and faults -/

theorem enqueueMgmt_link (c : AC) (q k : Nat) (p : Packet) (mgmt : p.cls = clsMgmt) :
    ((c.enqueue q p).port k).link = (c.port k).link := by
  rw [enqueue, if_pos mgmt]
  by_cases same : q = k
  · rw [same, port_modPort]
  · rw [port_modPort_other _ _ same]

theorem assign_link (c : AC) (q k : Nat) (p : Packet) (named : Nat) (inPort : Option Nat) :
    ((c.assign q p named inPort).port k).link = (c.port k).link := by
  rw [assign]
  by_cases same : q = k
  · rw [same, port_modPort]
  · rw [port_modPort_other _ _ same]

/-- Sending leaves the links as they are. -/
theorem send_link (c : AC) (d : Nat) (m : Msg) (k : Nat) : ((c.send d m).port k).link = (c.port k).link := by
  unfold send
  simp only
  split
  · split
    · rfl
    · split
      · exact enqueueMgmt_link c _ k _ rfl
      · split
        · rw [assign_link, pcount, pcountN_port]
        · rfl
  · exact enqueueMgmt_link c 0 k _ rfl

/-- Sending moves no field of a PORT page but the count of deflections. -/
theorem send_preg (c : AC) (d : Nat) (m : Msg) {r : Reg} {k : Nat} (hk : k < 4096) (away : sendMoves r = false) :
    (c.send d m).preg r k = c.preg r k := by
  simp only [sendMoves, Bool.or_eq_false_iff, beq_eq_false_iff_ne, ne_eq] at away
  obtain ⟨⟨noRoute, noExit⟩, deflections⟩ := away
  unfold send
  simp only
  split
  · split
    · exact RegFile.get_count_far _ 1 (Ne.symm noRoute) (by decide) hk
    · next dest found =>
      have small := outputOf_lt c dest (c.reg .AIDENT_FID) d (lookup_lt c d dest found)
      split
      · rw [enqueue, if_pos rfl, modPort_preg]
      · split
        · rw [assign, modPort_preg, pcount, pcountN_preg_other c 1 (Ne.symm deflections) small hk]
        · exact RegFile.get_count_far _ 1 (Ne.symm noExit) (by decide) hk
  · rw [enqueue, if_pos rfl, modPort_preg]

theorem setReg_preg (c : AC) {q r : Reg} (v : Nat) {k : Nat} (hk : k < 4096) (h : q ≠ r) : (c.setReg q v).preg r k = c.preg r k :=
  RegFile.get_set_far _ v h (by decide) hk (by decide) (by decide)

theorem event_preg (c : AC) (code : Nat) (l : List Nat) {r : Reg} {k : Nat} (hk : k < 4096) (away : sendMoves r = false)
    (status : r ≠ .ACOMMON_INT_STATUS) : (c.event code l).preg r k = c.preg r k := by
  unfold event
  simp only
  split
  · rw [send_preg _ _ _ hk away, setReg_preg c _ hk status.symm]
  · exact setReg_preg c _ hk status.symm

theorem event_link (c : AC) (code : Nat) (l : List Nat) (k : Nat) : ((c.event code l).port k).link = (c.port k).link := by
  unfold event
  simp only
  split
  · rw [send_link]
    rfl
  · rfl

theorem fault_preg (c : AC) (cause : Nat) {r : Reg} {k : Nat} (hk : k < 4096) (away : sendMoves r = false) (h : r ∉ faultRegs) :
    (c.fault cause).preg r k = c.preg r k := by
  simp only [faultRegs, List.mem_cons, List.not_mem_nil, or_false, not_or] at h
  obtain ⟨mode, cause_, inUse, status⟩ := h
  by_cases outage : c.reg .ACONTROL_MODE = 1
  · rw [fault_outage c cause outage, event_preg _ _ _ hk away status, fallen]
    split
    · rw [setReg_preg _ _ hk (Ne.symm inUse), setReg_preg _ _ hk (Ne.symm cause_), setReg_preg _ _ hk (Ne.symm mode)]
    · rw [setReg_preg _ _ hk (Ne.symm cause_), setReg_preg _ _ hk (Ne.symm mode)]
  · rw [fault_idle c cause outage]

theorem fault_link (c : AC) (cause k : Nat) : ((c.fault cause).port k).link = (c.port k).link := by
  by_cases outage : c.reg .ACONTROL_MODE = 1
  · obtain ⟨f, record⟩ := fallen_a c cause
    rw [fault_outage c cause outage, event_link, port, record]
    rfl
  · rw [fault_idle c cause outage]

/-! A port that changes -/

/-- What the agent reports of a port that has gone up or down. -/
def portReport (c : AC) (k : Nat) (up : Bool) : AC :=
  (c.setPReg .APORT_UP k (ofBool up)).event (if up then 0x2002 else 0x2001) [k]

theorem setUp_changes (c : AC) {k : Nat} {up : Bool} (h : c.up k ≠ up) : c.setUp k up = (c.portReport k up).fault 1 := if_neg h

section
variable {c : AC} {k : Nat} {up : Bool} (h : c.up k ≠ up)
include h

theorem setUp_up (hk : k < 4096) : (c.setUp k up).preg .APORT_UP k = ofBool up := by
  rw [setUp_changes c h, fault_preg _ 1 hk rfl (by decide), portReport, event_preg _ _ _ hk rfl (by decide)]
  refine (RegFile.get_set_same _ _ _ _ _).trans ?_
  cases up <;> rfl

theorem setUp_latched : bit ((c.setUp k up).reg .ACOMMON_INT_STATUS) (ofBool up) = true := by
  rw [setUp_changes c h]
  refine fault_bit _ 1 (by cases up <;> decide) ?_
  rw [portReport, event_bit _ _ _ (by cases up <;> decide)]
  cases up <;> exact Bool.or_true _

theorem setUp_link (j : Nat) : ((c.setUp k up).port j).link = (c.port j).link := by
  rw [setUp_changes c h, fault_link, portReport, event_link]
  rfl

end

theorem portUp_enabled (c : AC) {k : Nat} (enabled : (c.port k).disabled = false) :
    c.portUp k = (c.modPort k fun s => { s with link := { s.link with keyed := true } }).setUp k true := by
  rw [portUp, if_neg]
  rw [port_modPort, enabled]
  decide

/-! The partner's identity -/

theorem gotIdentity_reg (c : AC) {p : Nat} (b : IdBlock) (hp : p < 4096) {q : Reg} (fid : q ≠ .APORT_PARTNER_FID)
    (port : q ≠ .APORT_PARTNER_PORT) : (c.gotIdentity p b).reg q = c.reg q := by
  refine (RegFile.get_set_far _ b.port port.symm hp (by decide) (by decide) (by decide)).trans ?_
  exact RegFile.get_set_far _ b.fid fid.symm hp (by decide) (by decide) (by decide)

theorem gotIdentity_fid (c : AC) {p : Nat} (b : IdBlock) : (c.gotIdentity p b).preg .APORT_PARTNER_FID p = trunc 20 b.fid := by
  refine (RegFile.get_set _ .APORT_PARTNER_PORT .APORT_PARTNER_FID p 0 b.port).trans ?_
  rw [if_neg (by decide)]
  exact RegFile.get_set_same _ _ _ _ _

theorem gotIdentity_port (c : AC) {p : Nat} (b : IdBlock) : (c.gotIdentity p b).preg .APORT_PARTNER_PORT p = trunc 9 b.port :=
  RegFile.get_set_same _ _ _ _ _

/-! The periodic IDENT -/

/-- The IDENT of an agent on one of its ports (R95). -/
def identMsg (c : AC) (k : Nat) : Msg :=
  { type := 0x10, body := [trunc 16 (Config.makerOf c.u.code), c.u.profile.code + 4 * k, trunc 32 (Config.partNoOf c.u.code),
    trunc 64 (Config.serialOf c.u.code), c.reg .AIDENT_FID, c.reg .AIDENT_PARTITION_FID, 0x00020000,
    trunc 32 (Config.cableTagOf c.u.code k)] }

section
variable {c : AC} {k : Nat} (manages : c.u.profile = .circuit → k = 0) (up : c.up k = true)
  (due : ((c.port k).identAt.all fun a => a + 1000000 ≤ c.now) = true)
include manages up due

theorem identPeriod_due :
    c.identPeriod k = (c.modPort k fun s => { s with identAt := some c.now }).sendOnPort k (c.identMsg k) := by
  have own : (decide (c.u.profile = .circuit) && decide (k ≠ 0)) = false := by simpa using manages
  cases last : (c.port k).identAt with
  | none =>
    simp only [identPeriod, last, up, own, Bool.not_true, Bool.or_false, Bool.false_eq_true, if_false]
    rfl
  | some a =>
    rw [last, Option.all_some] at due
    simp only [identPeriod, last, up, own, due, Bool.not_true, Bool.or_false, Bool.false_eq_true, if_false]
    rfl

theorem identPeriod_mgmtQ (room : (c.port k).mgmtQ.length < 16) :
    ((c.identPeriod k).port k).mgmtQ = (c.port k).mgmtQ ++ [c.partnerPacket k (c.identMsg k)] := by
  have queued := sendOnPort_queues (c.modPort k fun s => { s with identAt := some c.now }) k (c.identMsg k) (fun _ => up)
    (by rwa [port_modPort])
  rw [identPeriod_due manages up due, queued, port_modPort, port_modPort]
  rfl

end

end AC

theorem State.upreg_run_onMsg {s : State} {t : Nat} {e : Env} {r : AC.Right} (k : Nat) (f : AC → AC) (h : s.takes t e r) (q : Reg)
    (p : Nat) : (s.run t fun c => c.onMsg e k r f).upreg e.unit q p = (f ((s.unit t e.unit).met e k)).preg q p := by
  rw [State.upreg, State.agent_run_onMsg k f h]
  rfl

theorem exec_portDown (t : Nat) (u : UnitId) (k : Nat) (s : State) :
    exec (.portDown t u k) s = .next (s.run t fun c => c.atAgent u fun a => a.portDown k) := rfl

theorem exec_portUp (t : Nat) (u : UnitId) (k : Nat) (s : State) :
    exec (.portUp t u k) s = .next (s.run t fun c => c.atAgent u fun a => a.portUp k) := rfl

/-- Settles O13: a port that changes is `setUp`, whose report and fault leave the port's page and link (`setUp_up`, `setUp_link`). -/
theorem portsAndPartners : Obligations.PortsAndPartners := by
  unfold Obligations.PortsAndPartners
  refine ⟨?down, ?up, ?ident, ?period⟩
  case down =>
    intro t u k s agent hk isUp
    have before : (s.unit t u).up k = true := beq_iff_eq.2 isUp
    have changes : ((s.unit t u).modPort k fun x => { x with link := { x.link with keyed := false } }).up k ≠ false := by
      rw [AC.up, AC.modPort_preg, ← AC.up, before]
      decide
    refine ⟨_, exec_portDown t u k s, ?_, ?_, ?_⟩
    · rw [State.upreg_run_atAgent s t _ agent, AC.portDown, AC.setUp_up changes (by omega)]
      rfl
    · rw [State.ureg_run_atAgent s t _ agent, AC.portDown]
      exact AC.setUp_latched changes
    · rw [State.port_run_atAgent s t _ agent, AC.portDown, AC.setUp_link changes, AC.port_modPort]
  case up =>
    intro t u k s agent hk isDown enabled
    have changes : ((s.unit t u).modPort k fun x => { x with link := { x.link with keyed := true } }).up k ≠ true := by
      rw [AC.up, AC.modPort_preg]
      exact fun h => isDown (beq_iff_eq.1 h)
    have own := AC.portUp_enabled (s.unit t u) enabled
    refine ⟨_, exec_portUp t u k s, ?_, ?_, ?_⟩
    · rw [State.upreg_run_atAgent s t _ agent, own, AC.setUp_up changes (by omega)]
      rfl
    · rw [State.ureg_run_atAgent s t _ agent, own]
      exact AC.setUp_latched changes
    · rw [State.port_run_atAgent s t _ agent, own, AC.setUp_link changes, AC.port_modPort]
  case ident =>
    intro t e b s taken
    have hp : e.port < 4096 := by
      obtain ⟨-, hport, -⟩ := taken
      omega
    refine ⟨_, rfl, ?_, ?_, State.keepsBut_run_onMsg 0x10 taken fun q other => ?_⟩
    · rw [State.upreg_run_onMsg 0x10 _ taken, AC.gotIdentity_fid]
    · rw [State.upreg_run_onMsg 0x10 _ taken, AC.gotIdentity_port]
    · simp only [List.mem_cons, List.not_mem_nil, or_false, not_or] at other
      exact AC.gotIdentity_reg _ b hp other.1 other.2
  case period =>
    intro t u k s agent manages isUp due room
    have own := AC.identPeriod_mgmtQ (c := s.unit t u) manages (beq_iff_eq.2 isUp) due room
    refine ⟨_, rfl, ?_, ?_⟩
    · rw [State.port_run_atAgent s t _ agent, own, List.length_append]
      rfl
    · rw [State.port_run_atAgent s t _ agent, own, List.getLast?_concat]
      rfl

end Sys2Proof.Machine
end

section
/-! SUPPORT. What a record of Hen, a capture trigger and the message log leave of the block (R390, R394 to R397, R429 to R432). -/

namespace Sys2Proof.Machine

open Sys2Proof

/-- A register of Hen's pages or of a partition's capture. -/
def logReg (r : Reg) : Bool := r.desc.page == .HEN || r.desc.page == .TRACE

namespace Chip

/-- Only what is recorded differs: of a partition its capture and its message log, of the registers those of Hen and of capture. -/
def logsBut (c d : Chip) : Prop :=
  (∀ q, d.part q = { c.part q with trace := (d.part q).trace, msgLog := (d.part q).msgLog }) ∧
    ∀ r i, logReg r = false → i < 4096 → d.reg r i = c.reg r i

namespace logsBut

theorem refl (c : Chip) : logsBut c c := ⟨fun _ => rfl, fun _ _ _ _ => rfl⟩

theorem trans {c d f : Chip} (h : logsBut c d) (k : logsBut d f) : logsBut c f := by
  obtain ⟨parts, regs⟩ := h
  obtain ⟨parts', regs'⟩ := k
  refine ⟨fun q => ?_, fun r i other small => (regs' r i other small).trans (regs r i other small)⟩
  rw [parts' q, parts q]

section
variable {c d : Chip} (h : logsBut c d)
include h

/-- A step that leaves partitions and registers alone. -/
theorem same {f : Chip} (parts : f.parts = d.parts) (regs : f.regs = d.regs) : logsBut c f :=
  h.trans ⟨fun q => by rw [part, parts, ← part], fun r i _ _ => by rw [reg, regs, ← reg]⟩

theorem setReg {r : Reg} {i : Nat} (x v : Nat) (log : logReg r = true) (hi : i < 4096) (hx : x < 64) : logsBut c (d.setReg r i x v) := by
  refine h.trans ⟨fun _ => rfl, fun r' j other small => reg_setReg_far d v ?_ hi small hx (by decide)⟩
  rintro rfl
  rw [log] at other
  cases other

theorem countN {r : Reg} {i : Nat} (n : Nat) (log : logReg r = true) (hi : i < 4096) : logsBut c (d.countN r i n) :=
  h.setReg 0 (min (d.reg r i + n) (2 ^ r.width - 1)) log hi (by decide)

theorem count {r : Reg} {i : Nat} (log : logReg r = true) (hi : i < 4096) : logsBut c (d.count r i) := h.countN 1 log hi

theorem modPart (p : Nat) {f : Part → Part} (keeps : ∀ x, f x = { x with trace := (f x).trace, msgLog := (f x).msgLog }) :
    logsBut c (d.modPart p f) := by
  refine h.trans ⟨fun q => ?_, fun _ _ _ _ => rfl⟩
  rw [part_modPart]
  split
  · next same =>
    subst same
    exact keeps _
  · rfl

theorem modHen (f : Hen → Hen) : logsBut c (d.modHen f) := h.same rfl rfl

theorem emit (e : Emission) : logsBut c (d.emit e) := h.same rfl rfl

theorem ite {p : Prop} [Decidable p] {f : Chip} (k : logsBut c f) : logsBut c (if p then d else f) := by
  split
  · exact h
  · exact k

/-! Hen -/

theorem henPublish (next : Nat) : logsBut c (d.henPublish next) :=
  ((h.setReg 0 next rfl (by decide) (by decide)).setReg 0 _ rfl (by decide) (by decide)).setReg 0 _ rfl (by decide) (by decide)

theorem henRing (x : HenRec) : logsBut c (d.henRing x) := by
  unfold Chip.henRing
  refine ite (h.count rfl (by decide)) ?_
  have stored := (h.modHen fun g => { g with ring := henDrop d.henFree x.units d.hen.ring ++ [(d.reg .HEN_NEXT, x)] }).henPublish
    ((d.reg .HEN_NEXT + x.units) % henUnits)
  cases x with
  | fixed r => exact stored.count rfl (by decide)
  | var => exact (stored.modHen _).count rfl (by decide)

theorem henStore (src : Nat) (r : FixedRec) : logsBut c (henFixed.store d src r) := by
  unfold henFixed.store
  refine ite ?_ ((h.modHen _).henRing _)
  exact (((h.modHen _).modHen _).henPublish _).count rfl (by decide)

theorem henFixed (src code part : Nat) (params : List Nat) (hidden : Bool) : logsBut c (d.henFixed src code part params hidden) := by
  have taken := h.modHen fun g => { g with queue := g.queue.drop (64 * (d.now / 1000 - g.queueAt)), queueAt := d.now / 1000 }
  unfold Chip.henFixed
  refine ite ((taken.count rfl (by decide)).modHen _) ?_
  have queued := taken.modHen fun g => { g with queue := g.queue ++ [src] }
  simp only
  split
  · refine ite ((queued.modHen _).count rfl (by decide)) (queued.henStore _ _)
  · exact queued.henStore _ _

theorem modMsgLog (p : Nat) (g : Part → List LogEntry) : logsBut c (d.modPart p fun x => { x with msgLog := g x }) :=
  h.modPart p fun _ => rfl

/-! Capture -/

variable {p : Nat} (hp : p < 4096) (nat : Bool)
include hp

omit hp in
theorem setStream (p : Nat) (x : Stream) : logsBut c (d.setStream p nat x) := h.modPart p fun _ => rfl

theorem publish (before : Nat) : logsBut c (d.publish p nat before) := by
  have offsets : ∀ m n : Nat, logsBut c (if nat then (d.setReg .TRACE_NAT_FIRST p 0 m).setReg .TRACE_NAT_NEXT p 0 n
      else (d.setReg .TRACE_CMP_FIRST p 0 m).setReg .TRACE_CMP_NEXT p 0 n) := fun m n =>
    ite ((h.setReg 0 m rfl hp (by decide)).setReg 0 n rfl hp (by decide)) ((h.setReg 0 m rfl hp (by decide)).setReg 0 n rfl hp (by decide))
  unfold Chip.publish
  exact ite (offsets _ _) ((offsets _ _).countN _ rfl hp)

theorem drainStream : logsBut c (d.drainStream p nat) := by
  unfold Chip.drainStream
  exact ite h ((h.setStream nat p _).publish hp nat _)

theorem putRaw (marker : Bool) (b : List Nat) : logsBut c (d.putRaw p nat marker b) := by
  have put := fun x : Stream => (h.setStream nat p x).publish hp nat (d.stream p nat).written
  unfold Chip.putRaw
  exact ite (ite ((put _).countN _ rfl hp) ((put _).count rfl hp)) (ite ((put _).count rfl hp) (put _))

theorem timebase : logsBut c (d.timebase p nat) := (h.putRaw hp nat true _).setStream nat p _

theorem putRecord (marker : Bool) (b : List Nat) : logsBut c (d.putRecord p nat marker b) := by
  unfold Chip.putRecord
  refine ite h ?_
  have based := ite (p := ((d.drainStream p nat).stream p nat).high ≠ (d.drainStream p nat).now >>> 44 ∨
    65536 ≤ ((d.drainStream p nat).stream p nat).sinceBase) ((h.drainStream hp nat).timebase hp nat) (h.drainStream hp nat)
  simp only
  split
  · refine ite (based.putRaw hp nat marker b) (ite ((based.putRaw hp nat marker b).setStream nat p _) ?_)
    exact ((based.putRaw hp nat marker b).putRaw hp nat true _).setStream nat p _
  · exact based.putRaw hp nat marker b

theorem endDrop : logsBut c (d.endDrop p nat) := by
  unfold Chip.endDrop
  simp only
  split
  · exact h
  · exact (((h.setStream nat p _).putRaw hp nat true _).count rfl hp).timebase hp nat

theorem triggerStream (tail : Nat) : logsBut c (d.triggerStream p nat tail) := by
  unfold Chip.triggerStream
  have dropped := ((h.drainStream hp nat).endDrop hp nat).putRecord hp nat true
    (traceRec ((d.drainStream p nat).endDrop p nat).now 5 0 p tail)
  refine ite h (ite ?_ dropped)
  exact (ite (dropped.putRaw hp nat true _) dropped).setStream nat p _

omit nat in
theorem triggerCore (src job layer op : Nat) : logsBut c (d.triggerCore p src job layer op).1 := by
  unfold Chip.triggerCore
  split
  · exact h
  · split
    · have marked := (h.triggerStream hp true (traceTail src 0 job layer op)).triggerStream hp false (traceTail src 0 job layer op)
      have shown := ((marked.count (r := .TRACE_TRIGGERS) rfl hp).setReg 0
        ((d.triggerStream p true (traceTail src 0 job layer op)).triggerStream p false (traceTail src 0 job layer op)).now
        (r := .TRACE_TRIG_AT) rfl hp (by decide)).setReg 0 2 (r := .TRACE_STATE) rfl hp (by decide)
      exact ite (shown.emit _) shown
    · exact h.count rfl hp
    · exact h.count rfl hp
    · exact h

omit nat in
/-- A partition's record, with the trigger that it sets off (R396). -/
theorem henPart (code : Nat) (params : List Nat) (hidden : Bool) : logsBut c (d.henPart p code params hidden) := by
  have recorded := h.henFixed p code p params hidden
  have triggered := recorded.triggerCore hp 3 0 0 0
  unfold Chip.henPart
  exact ite (ite (triggered.henFixed p 0x1802 p [3] false) triggered) recorded

omit nat in
theorem logMsg (far type tag sendTime : Nat) (sent hide : Bool) : logsBut c (d.logMsg p far type tag sendTime sent hide) := by
  refine logsBut.setReg ?_ 0 _ rfl hp (by decide)
  exact h.modMsgLog p _

end

end logsBut

end Chip

end Sys2Proof.Machine
end

section
/-! SUPPORT. Violations, port events and telemetry that a partition takes from its agents (R96, R120, R254, R299). -/

namespace Sys2Proof.Machine

open Sys2Proof

namespace Chip

namespace logsBut

variable {c d : Chip} (h : logsBut c d) (q : Nat)
include h

theorem topo : (d.part q).topo = (c.part q).topo := by rw [h.1 q]
theorem jobs : (d.part q).jobs = (c.part q).jobs := by rw [h.1 q]
theorem violCounts : (d.part q).violCounts = (c.part q).violCounts := by rw [h.1 q]
theorem violBlocked : (d.part q).violBlocked = (c.part q).violBlocked := by rw [h.1 q]
theorem telemAt : (d.part q).telemAt = (c.part q).telemAt := by rw [h.1 q]
theorem health : (d.part q).health = (c.part q).health := by rw [h.1 q]
theorem unitOf (fid : Nat) : d.unitOf q fid = c.unitOf q fid := by rw [Chip.unitOf, h.topo q, Chip.unitOf]

end logsBut

/-! Violations -/

/-- The partition with a violation logged and counted. -/
def violated (c : Chip) (p src : Nat) : Chip := (c.logMsg p src 0x53 0 c.now false false).count .FAIL_VIOLATIONS_RX p

/-- The partition with the output of a link blocked, after its `n`-th violation in a window. -/
def blocked (c : Chip) (p k l n : Nat) : Chip :=
  ((c.modPart p fun s => { s with violCounts := SMap.set 0 s.violCounts k n }).modPart p fun s =>
    { s with violBlocked := s.violBlocked ++ [l] }).count .FAIL_VIOL_BLOCKS p

theorem blocked_violBlocked (c : Chip) (p k l n : Nat) : ((c.blocked p k l n).part p).violBlocked = (c.part p).violBlocked ++ [l] := by
  rw [blocked, count, countN_get_part, part_modPart_same, part_modPart_same]

theorem blocked_reg_other (c : Chip) (p k l n : Nat) {r : Reg} (h : r ≠ .FAIL_VIOL_BLOCKS) : (c.blocked p k l n).reg r p = c.reg r p := by
  rw [blocked, count, reg_countN, if_neg h.symm]
  rfl

/-- A 64-bit counter of the block after one event. -/
theorem reg_count_one (c : Chip) {r : Reg} (i : Nat) (h : r.width = 64) : (c.count r i).reg r i = countUp (c.reg r i) :=
  RegFile.get_count_one _ i h

theorem blocked_blocks (c : Chip) (p k l n : Nat) :
    (c.blocked p k l n).reg .FAIL_VIOL_BLOCKS p = countUp (c.reg .FAIL_VIOL_BLOCKS p) := by
  rw [blocked, reg_count_one _ p rfl]
  rfl

theorem logMsg_logsBut (c : Chip) {p : Nat} (hp : p < 4096) (far type tag sendTime : Nat) (sent hide : Bool) :
    logsBut c (c.logMsg p far type tag sendTime sent hide) :=
  (logsBut.refl c).logMsg hp far type tag sendTime sent hide

/-- What a violation that is counted leaves of what decides on it. -/
theorem violated_kept (c : Chip) {p : Nat} (hp : p < 4096) (src : Nat) :
    (c.violated p src).unitOf p src = c.unitOf p src ∧ ((c.violated p src).part p).jobs = (c.part p).jobs ∧
      ((c.violated p src).part p).violCounts = (c.part p).violCounts ∧
      ((c.violated p src).part p).violBlocked = (c.part p).violBlocked ∧
      ∀ r, logReg r = false → r ≠ .FAIL_VIOLATIONS_RX → (c.violated p src).reg r p = c.reg r p := by
  have logged := logMsg_logsBut c hp src 0x53 0 c.now false false
  refine ⟨logged.unitOf p src, logged.jobs p, logged.violCounts p, logged.violBlocked p, fun r other ne => ?_⟩
  rw [violated, count, reg_countN, if_neg ne.symm]
  exact logged.2 r p other hp

section
variable {c : Chip} {p src slot port l n : Nat} {u : TopoUnit} (hp : p < 4096) (found : c.unitOf p src = some u)
  (spine : u.unit = .spine p n) (link : l = lamOf false n port) (noJobs : (c.part p).jobs = [])
  (reached : SMap.get 0 (c.part p).violCounts (slot / 1024 * 2304 + l) + 1 = c.reg .FAIL_VIOL_THRESH p)
  (fresh : l ∉ (c.part p).violBlocked)
include hp found spine link noJobs reached fresh

theorem violation_blocks :
    c.violation p src slot port = ((c.violated p src).blocked p (slot / 1024 * 2304 + l) l (c.reg .FAIL_VIOL_THRESH p)).henPart p 0x3705
      [l, trunc 32 (slot / 1024), c.reg .FAIL_VIOL_THRESH p] := by
  obtain ⟨unit, jobs, counts, blocked, regs⟩ := c.violated_kept hp src
  have thresh := regs .FAIL_VIOL_THRESH rfl (by decide)
  rw [← jobs] at noJobs
  rw [← unit] at found
  rw [← counts, ← thresh] at reached
  rw [← blocked] at fresh
  rw [← thresh]
  unfold violated at found noJobs reached fresh ⊢
  simp only [violation, found, spine, ← link, noJobs, List.findSome?_nil, Option.getD_none]
  rw [reached]
  refine if_pos ⟨rfl, ?_⟩
  rw [part_modPart_same, Bool.not_eq_true', decide_eq_false_iff_not]
  exact fresh

/-- The block of a link's output, and its counts. -/
theorem violation_blocked :
    ((c.violation p src slot port).part p).violBlocked = (c.part p).violBlocked ++ [l] ∧
      (c.violation p src slot port).reg .FAIL_VIOLATIONS_RX p = countUp (c.reg .FAIL_VIOLATIONS_RX p) ∧
      (c.violation p src slot port).reg .FAIL_VIOL_BLOCKS p = countUp (c.reg .FAIL_VIOL_BLOCKS p) := by
  have recorded := logsBut.henPart (logsBut.refl ((c.violated p src).blocked p (slot / 1024 * 2304 + l) l (c.reg .FAIL_VIOL_THRESH p)))
    hp 0x3705 [l, trunc 32 (slot / 1024), c.reg .FAIL_VIOL_THRESH p] false
  have logged := logMsg_logsBut c hp src 0x53 0 c.now false false
  obtain ⟨-, -, -, -, regs⟩ := c.violated_kept hp src
  rw [violation_blocks hp found spine link noJobs reached fresh]
  refine ⟨?_, ?_, ?_⟩
  · rw [recorded.violBlocked p, blocked_violBlocked, ← logged.violBlocked p]
    rfl
  · rw [recorded.2 _ p rfl hp, blocked_reg_other _ _ _ _ _ (by decide), violated, reg_count_one _ p rfl, logged.2 _ p rfl hp]
  · rw [recorded.2 _ p rfl hp, blocked_blocks, regs _ rfl (by decide)]

end

/-! Telemetry -/

/-- The record of a port with one more telemetry record added (R254). -/
def withRecord (h : PortHealth) (r : List Nat) : PortHealth :=
  { h with recs := h.recs + 1, depth := max h.depth (r.getD 1 0), means := h.means + r.getD 2 0,
           sums := (List.range 7).map fun i => h.sums.getD i 0 + r.getD (3 + i) 0 }

theorem telemetry_one (c : Chip) {p src : Nat} {u : TopoUnit} (r : List Nat) (hp : p < 4096) (found : c.unitOf p src = some u) :
    SMap.get 0 ((c.telemetry p src [r]).part p).telemAt u.unit.code = c.now ∧
      SMap.get {} ((c.telemetry p src [r]).part p).health (linkKey u.unit (r.getD 0 0)) =
        withRecord (SMap.get {} (c.part p).health (linkKey u.unit (r.getD 0 0))) r := by
  have logged := logMsg_logsBut c hp src 0x55 0 c.now false false
  rw [← logged.unitOf p src] at found
  rw [← logged.health p]
  simp only [telemetry, found, List.foldl_cons, List.foldl_nil, modHealth, part_modPart_same]
  refine ⟨SMap.get_set_same _ _ _ _, SMap.get_set_same _ _ _ _⟩

end Chip

end Sys2Proof.Machine
end

section
/-! SUPPORT. What follows a port event leaves the links of the topology database as the event has marked them (R120, R134, R139). -/

namespace Sys2Proof.Machine

open Sys2Proof

namespace Chip

/-- Every zone's links are as before. -/
def linksSame (c d : Chip) : Prop := ∀ q, (d.part q).topo.links = (c.part q).topo.links

theorem logsBut.linksSame {c d : Chip} (h : logsBut c d) : Chip.linksSame c d := fun q => congrArg TopoDb.links (h.topo q)

namespace linksSame

theorem refl (c : Chip) : linksSame c c := fun _ => rfl

theorem trans {c d f : Chip} (h : linksSame c d) (k : linksSame d f) : linksSame c f := fun q => (k q).trans (h q)

theorem foldl {α : Type} {g : Chip → α → Chip} (h : ∀ c x, linksSame c (g c x)) (l : List α) (c : Chip) :
    linksSame c (l.foldl g c) := by
  induction l generalizing c with
  | nil => exact refl c
  | cons x r ih => exact (h c x).trans (ih (g c x))

section
variable {c d : Chip} (h : linksSame c d)
include h

theorem same {f : Chip} (parts : f.parts = d.parts) : linksSame c f := h.trans fun q => by rw [part, parts, ← part]

theorem setReg (r : Reg) (i x v : Nat) : linksSame c (d.setReg r i x v) := h.same rfl

theorem count (r : Reg) (i : Nat) : linksSame c (d.count r i) := h.same rfl

theorem modPart (p : Nat) {f : Part → Part} (keeps : ∀ x, (f x).topo.links = x.topo.links) : linksSame c (d.modPart p f) := by
  refine h.trans fun q => ?_
  rw [part_modPart]
  split
  · next same =>
    subst same
    exact keeps _
  · rfl

theorem ite {p : Prop} [Decidable p] {f : Chip} (k : linksSame c f) : linksSame c (if p then d else f) := by
  split
  · exact h
  · exact k

theorem modTxn (p : Nat) (f : Txn → Txn) : linksSame c (d.modTxn p f) := h.modPart p fun _ => rfl

theorem modEngines (p : Nat) (f : Engines → Engines) : linksSame c (d.modEngines p f) := h.modPart p fun _ => rfl

/-! Reports to other partitions -/

theorem peerOut (p dst : Nat) (kind : String) (args : List Nat) : linksSame c (d.peerOut p dst kind args) := by
  unfold Chip.peerOut
  exact ite h (h.same rfl)

theorem tellLead (p : Nat) (args : List Nat) : linksSame c (d.tellLead p args) := by
  unfold Chip.tellLead
  exact ite (h.trans (foldl (fun f _ => (refl f).peerOut p _ _ _) _ _)) (h.peerOut p _ _ _)

/-! GENERATE begins again -/

theorem kickAuto (p : Nat) : linksSame c (d.kickAuto p) := by
  unfold Chip.kickAuto
  refine ite h (ite (h.modPart p ?_) (h.modPart p ?_))
  · exact fun _ => rfl
  · exact fun _ => rfl

theorem dealUnit (p : Nat) (u : WorkUnit) : linksSame c (d.dealUnit p u) := by
  have dealt := h.modEngines p fun g => { g with dealt := g.dealt + 1 }
  have overflowed := (dealt.modEngines p fun g => { g with overflow := g.overflow ++ [u] }).count .SCHED_OVERFLOW_UNITS p
  unfold Chip.dealUnit
  simp only
  split
  · exact ite (dealt.modEngines p _) overflowed
  · exact overflowed

theorem redealLent (p : Nat) : linksSame c (d.redealLent p) := by
  unfold Chip.redealLent
  exact ((h.modEngines p _).trans (foldl (fun f u => (refl f).dealUnit p u) _ _)).setReg _ _ _ _

theorem clampedLoops (written applied : Nat) : linksSame c (d.clamped .LOOPS 0 written applied) := by
  unfold Chip.clamped Chip.henDev
  simp only
  refine linksSame.trans ?_ ((logsBut.refl _).henFixed _ _ _ _ _).linksSame
  split
  · next r _ => exact same (h.count r 0) rfl
  · exact same h rfl

theorem lendNow (p : Nat) : linksSame c (d.lendNow p) := by
  unfold Chip.lendNow
  have floored := fun x y => ite (p := d.reg .ROUTE_ROUTE_GROUPS p < d.reg .LOOPS_LEND_FLOOR) (h.clampedLoops x y) h
  exact (ite (floored _ _) ((floored _ _).count _ _)).setReg _ _ _ _

theorem startGenerate (p : Nat) : linksSame c (d.startGenerate p) := by
  unfold Chip.startGenerate
  refine linksSame.redealLent (linksSame.modTxn (linksSame.lendNow ?_ p) p _) p
  refine linksSame.modPart ((h.modTxn p _).setReg _ _ _ _) p ?_
  exact fun _ => rfl

theorem restartGenerate (p : Nat) : linksSame c (d.restartGenerate p) := by
  have zone : ∀ (f : Chip) (z e : Nat) (g : Txn → Txn),
      linksSame f ((((f.modTxn z g).setReg .ROUTE_TXN_EPOCH z 0 e).count .ROUTE_GEN_RESTARTS z).startGenerate z) := fun f z e g =>
    ((((refl f).modTxn z g).setReg _ _ _ _).count _ _).startGenerate z
  unfold Chip.restartGenerate
  simp only
  split
  · exact h
  · split
    · split
      · refine linksSame.trans (linksSame.modPart h _ ?_) (foldl ?_ _ _)
        · exact fun _ => rfl
        · exact fun f z => zone f z _ _
      · exact h.trans (zone d p _ _)
    · exact h.trans (zone d p _ _)

theorem linkEvent (p : Nat) : linksSame c (d.linkEvent p) := by
  unfold Chip.linkEvent
  split
  · exact ite (h.restartGenerate p) (h.kickAuto p)
  · exact h.kickAuto p

end

end linksSame

end Chip

end Sys2Proof.Machine
end

section
/-! SUPPORT. A port event marks both ends of its link (R120). -/

namespace Sys2Proof.Machine

open Sys2Proof

namespace Chip

/-- A port of spine 15 is the cut, or the mending, of a management circuit, which the lead partition hears of (R145). -/
def ringNoted (c : Chip) (p : Nat) (u : UnitId) (port : Nat) (up : Bool) : Chip :=
  match u with
  | .spine _ 15 => (match c.mgmtCircuit p port with
    | some k => (c.modTopo p fun t =>
        { t with mgmtDown := if up then t.mgmtDown.filter (· ≠ k) else addOnce t.mgmtDown k }).tellLead p [3, k.1, k.2, ofBool up]
    | none => c)
  | _ => c

/-- The leads of slices hear of a pair or a circuit that has become usable or unusable (R120). -/
def pairTold (c : Chip) (p : Nat) (before : List Nat) (u : UnitId) (port : Nat) (up : Bool) : Chip :=
  match pairCode u port with
  | none => c
  | some k =>
    if pairUp before p k = pairUp (c.liveLinks p) p k then c
    else
      let own := c.slices.filter fun (s : Slice) => c.podOf p ∈ s.pods c.grid
      let leads := (own.map fun (s : Slice) => s.lead).eraseDups.filter fun f => f ≠ c.partFid p
      leads.foldl (fun c f => c.peerOut p f "PEER_REPORT" [2, c.podOf p, k, ofBool up]) c

theorem portReported_eq (c : Chip) (p : Nat) (u : UnitId) (port : Nat) (up : Bool) :
    c.portReported p u port up =
      ((((c.linkMoved p (linkKey u port) up).ringNoted p u port up).pairTold p (c.liveLinks p) u port up).linkEvent p) := rfl

theorem ringNoted_linksSame (c : Chip) (p : Nat) (u : UnitId) (port : Nat) (up : Bool) : linksSame c (c.ringNoted p u port up) := by
  unfold ringNoted
  split
  · split
    · refine linksSame.tellLead (linksSame.modPart (linksSame.refl c) p ?_) p _
      exact fun _ => rfl
    · exact linksSame.refl c
  · exact linksSame.refl c

theorem pairTold_linksSame (c : Chip) (p : Nat) (before : List Nat) (u : UnitId) (port : Nat) (up : Bool) :
    linksSame c (c.pairTold p before u port up) := by
  unfold pairTold
  split
  · exact linksSame.refl c
  · exact linksSame.ite (linksSame.refl c) (linksSame.foldl (fun f _ => (linksSame.refl f).peerOut p _ _ _) _ c)

/-- What is told of a port event and begun for it leaves the links as marked. -/
theorem portReported_linksSame (c : Chip) (p : Nat) (u : UnitId) (port : Nat) (up : Bool) :
    linksSame (c.linkMoved p (linkKey u port) up) (c.portReported p u port up) := by
  rw [portReported_eq]
  exact ((ringNoted_linksSame _ p u port up).trans (pairTold_linksSame _ p _ u port up)).linkEvent p

/-- The link at a port, as its event marks it, and its far end. -/
theorem linkMoved_links (c : Chip) {p key : Nat} (up : Bool) {z : TopoLink} {f : UnitId}
    (link : SMap.find? (c.part p).topo.links key = some z) (far : z.far = some f) :
    ((c.linkMoved p key up).part p).topo.links = (c.part p).topo.links.map fun (e : Nat × TopoLink) =>
      if e.1 = key || e.1 = linkKey f z.farPort then (e.1, { e.2 with up := up }) else e := by
  unfold linkMoved
  simp only [link, far, modTopo, part_modPart_same, Option.some.injEq]

/-- The port event of an agent, recorded and counted at its port. -/
def portNoted (c : Chip) (p src k : Nat) (u : UnitId) : Chip :=
  ((c.logMsg p src 0x57 0 c.now false false).henPart p 0x2001 [k]).modHealth p (linkKey u k) fun h => { h with ups := h.ups + 1 }

theorem portNoted_linksSame (c : Chip) {p : Nat} (hp : p < 4096) (src k : Nat) (u : UnitId) : linksSame c (c.portNoted p src k u) :=
  linksSame.modPart (((logMsg_logsBut c hp src 0x57 0 c.now false false).henPart hp 0x2001 [k] false).linksSame) p fun _ => rfl

/-- A port of a spine is reported down. -/
theorem event_spineDown (c : Chip) {p src k n : Nat} {u : TopoUnit} (hp : p < 4096) (found : c.unitOf p src = some u)
    (spine : u.unit = .spine p n) : c.event p src 0x2001 [k] = (c.portNoted p src k u.unit).portReported p u.unit k false := by
  have logged := (logMsg_logsBut c hp src 0x57 0 c.now false false).henPart hp 0x2001 [k] false
  rw [← logged.unitOf p src] at found
  unfold portNoted
  simp only [event, found, spine]
  rfl

end Chip

/-- What a partition out of bypass does in a step. -/
theorem State.chip_run_atPart {s : State} {p : Nat} (t : Nat) (f : Chip → Chip) (h : s.alive p) :
    (s.run t fun c => c.atPart p f).chip = f (s.chip.started t) := by
  rw [State.run_chip, Chip.run_started, Chip.atPart_of_in (s.chip.started t) f h.2]

/-- Settles O34: what is recorded (`logsBut`) leaves violations, telemetry and links alone, and what a port event sets off leaves the links
as `linkMoved` has marked them (`portReported_linksSame`). -/
theorem agentReports : Obligations.AgentReports := by
  unfold Obligations.AgentReports
  refine ⟨?violation, ?event, ?telemetry⟩
  case violation =>
    intro t p src slot k l u n s alive found spine _ link noJobs reached fresh
    have small : p < 4096 := by
      obtain ⟨number, -⟩ := alive
      omega
    obtain ⟨blocked, received, blocks⟩ := Chip.violation_blocked (c := s.chip.started t) (src := src) (slot := slot) (port := k)
      (n := n) small found spine link noJobs reached fresh
    refine ⟨_, rfl, ?_, ?_, ?_⟩
    · rw [State.chip_run_atPart t _ alive, blocked, Chip.started_get_part]
    · rw [State.reg, State.chip_run_atPart t _ alive, received]
      rfl
    · rw [State.reg, State.chip_run_atPart t _ alive, blocks]
      rfl
  case event =>
    intro t p src k u n z f s alive found spine link far
    have small : p < 4096 := by
      obtain ⟨number, -⟩ := alive
      omega
    refine ⟨_, rfl, ?_⟩
    rw [State.chip_run_atPart t _ alive, Chip.event_spineDown (s.chip.started t) small found spine, Chip.portReported_linksSame,
      Chip.linkMoved_links _ _ (by rw [Chip.portNoted_linksSame (s.chip.started t) small]; exact link) far,
      Chip.portNoted_linksSame (s.chip.started t) small]
    rfl
  case telemetry =>
    intro t p src r u s alive found
    have small : p < 4096 := by
      obtain ⟨number, -⟩ := alive
      omega
    obtain ⟨heard, record⟩ := Chip.telemetry_one (s.chip.started t) (src := src) r small found
    refine ⟨_, rfl, ?_, ?_⟩
    · rw [State.chip_run_atPart t _ alive, heard]
      rfl
    · rw [State.chip_run_atPart t _ alive, record]
      rfl

end Sys2Proof.Machine
end

section
/-! SUPPORT. The states that refute two of the statements about discovery: a port that PORT_STATE has disabled, and a command of a queue that no
G9 has. -/

namespace Sys2Proof.Machine

open Sys2Proof

/-! A disabled port (O23) -/

/-- An agent whose port 0 is disabled. -/
def shutPort : State := { chip := { agents := [((UnitId.leaf 0 0).code, { ports := [(0, { disabled := true })] })] } }

/-- A disabled port passes identity blocks and directed blocks alone (R102). -/
theorem shutPort_returns_nothing :
    (shutPort.run 0 fun c => c.atAgent (.leaf 0 0) fun a => a.echoBlock 0 0).chip.out = [] := by
  decide +kernel

/-- Refutes O23, in its clause about an echo block: no premise says that the port it comes by is enabled. A port that PORT_STATE has disabled
passes identity blocks and directed blocks and nothing else (R102), so that the echo block is not returned. -/
theorem not_linkLevelBlocks : ¬ Obligations.LinkLevelBlocks := by
  unfold Obligations.LinkLevelBlocks
  rintro ⟨-, -, -, -, echoes⟩
  obtain ⟨s', ran, returned, -⟩ := echoes 0 (.leaf 0 0) 0 0 shutPort (by decide)
  cases ran
  exact absurd (shutPort_returns_nothing.symm.trans returned) (by decide)

/-! A DISCOVER of a stray route queue (O25) -/

/-- The route queue of partition 2,191,360, which no G9 has: the key of its completion tail is that of the supply stage of die 0. -/
def strayDiscoverQueue : QId := .route 2191360

/-- The DISCOVER that waits for the run of zone 0, fetched from that queue through port 0. -/
def strayDiscover : Cmd := { q := strayDiscoverQueue, d := { opcode := 0x70, tag := 7 }, port := some 0 }

/-- A run of zone 0 whose waiting time is over. -/
def endedRun : Run := { t0 := 0, wait := 0, plan := {} }

/-- A block with this run, on whose end the stray command waits, at supply stage 3, with a host on port 0 that takes records. -/
def strayDiscoverState : State :=
  { chip := { regs := { vals := [(Reg.key .HOSTPORT_LINK_UP 0 0, 1), (Reg.key .POWER_STAGE 0 0, 3)] },
              hostPorts := [(0, { busMaster := true })],
              parts := [(0, { topo := { run := some endedRun }, discCmd := some (strayDiscoverQueue, 7, [0]) })],
              cmds := [strayDiscover], cmdSeq := 1 } }

/-- The record of the DISCOVER moves the tail on, and with it the stage from 3 to 4, from which on no transaction opens (R134). -/
theorem strayDiscover_opens_nothing :
    ((strayDiscoverState.run 0 fun c => c.atPart 0 fun c => (c.discoveryCompare 0).restartOn 0).chip.part 0).txn = none := by
  decide +kernel

/-- Refutes O25, in its clause about the comparison: no premise bounds the queue of the command that the end of the run completes. The
completion tail of route queue 2,191,360 and the supply stage of die 0 are one register; the completion record makes the stage 4, and the
zone's transaction does not open. -/
theorem not_discoveryExchanges : ¬ Obligations.DiscoveryExchanges := by
  unfold Obligations.DiscoveryExchanges
  rintro ⟨-, -, compares, -⟩
  obtain ⟨s', ran, -, -, opened, -⟩ := compares 0 0 endedRun strayDiscoverState (by decide) (by decide +kernel) rfl (by decide) rfl rfl
    (by decide +kernel) (by decide +kernel)
  cases ran
  rw [strayDiscover_opens_nothing] at opened
  cases opened

end Sys2Proof.Machine
end

section
/-! SUPPORT. A command of a queue starts and completes: the place and the bytes of its record in host memory, and what the completion leaves of
host memory, the partitions and the cabling plan (R349, R350, R353). -/

namespace Sys2Proof.Machine

open Sys2Proof

theorem bytesOf_lt (n v : Nat) : ∀ b ∈ bytesOf n v, b < 256 := by
  induction n generalizing v with
  | zero => simp [bytesOf]
  | succ n ih =>
    intro b hb
    rcases List.mem_cons.1 hb with rfl | hb
    · exact Nat.mod_lt _ (by decide)
    · exact ih _ b hb

namespace Chip

/-! Ranges of host memory -/

theorem hostBytes_writeHost (c : Chip) (port a : Nat) {l : List Nat} (bytes : ∀ b ∈ l, b < 256) (small : l.length ≤ 2 ^ 64) :
    (c.writeHost port a l).hostBytes port a l.length = l := by
  unfold hostBytes
  refine List.ext_getElem (by simp) fun k hk hl => ?_
  rw [List.getElem_map, List.getElem_range, hostByte_writeHost port l c a k small hl,
    Nat.mod_eq_of_lt (bytes _ (List.getElem_mem hl))]

/-- A range that shares no byte with what is written reads as before. -/
theorem hostBytes_writeHost_apart (c : Chip) {port a q b n : Nat} {l : List Nat}
    (apart : ∀ j < n, ∀ k < l.length, hostKey port (a + k) ≠ hostKey q (b + j)) :
    (c.writeHost port a l).hostBytes q b n = c.hostBytes q b n :=
  List.map_congr_left fun j hj => hostByte_writeHost_other port q (b + j) l c a (apart j (List.mem_range.1 hj))

theorem hostBytes_congr {c d : Chip} (h : d.hostMem = c.hostMem) (port a n : Nat) : d.hostBytes port a n = c.hostBytes port a n := by
  simp only [hostBytes, hostByte, h]

theorem writeHost_plan (port : Nat) (l : List Nat) : ∀ (c : Chip) (a : Nat), (c.writeHost port a l).plan = c.plan := by
  induction l with
  | nil => exact fun _ _ => rfl
  | cons v r ih => exact fun c a => ih (c.setHostByte port a v) (a + 1)

/-! What a completion leaves -/

/-- Host memory, the partitions and the cabling plan in force are as before. -/
def storeSame (c d : Chip) : Prop := d.hostMem = c.hostMem ∧ d.parts = c.parts ∧ d.plan = c.plan

namespace storeSame

theorem refl (c : Chip) : storeSame c c := ⟨rfl, rfl, rfl⟩

theorem trans {c d f : Chip} (h : storeSame c d) (k : storeSame d f) : storeSame c f := by
  obtain ⟨mem, parts, plan⟩ := h
  obtain ⟨mem', parts', plan'⟩ := k
  exact ⟨mem'.trans mem, parts'.trans parts, plan'.trans plan⟩

theorem foldl {α : Type} {g : Chip → α → Chip} (h : ∀ c x, storeSame c (g c x)) (l : List α) (c : Chip) :
    storeSame c (l.foldl g c) := by
  induction l generalizing c with
  | nil => exact refl c
  | cons x r ih => exact (h c x).trans (ih (g c x))

theorem part {c d : Chip} (h : storeSame c d) (q : Nat) : d.part q = c.part q := by
  obtain ⟨-, parts, -⟩ := h
  rw [Chip.part, parts, ← Chip.part]

section
variable {c d : Chip} (h : storeSame c d)
include h

theorem setReg (r : Reg) (i x v : Nat) : storeSame c (d.setReg r i x v) := h

theorem ite {p : Prop} [Decidable p] {f : Chip} (k : storeSame c f) : storeSame c (if p then d else f) := by
  split
  · exact h
  · exact k

/-! Interrupts -/

theorem msix (port fn vector : Nat) : storeSame c (d.msix port fn vector) := by
  unfold Chip.msix
  refine ite ?_ (ite h ?_)
  · exact h
  · exact h

theorem msixPage (g : Page) (inst : Nat) : storeSame c (d.msixPage g inst) := by
  have sent : ∀ v (l : List Nat), storeSame c (l.foldl (fun c port => c.msix port 0 v) d) := fun v l =>
    h.trans (foldl (fun f port => (refl f).msix port 0 v) l d)
  unfold Chip.msixPage
  simp only
  split
  · exact sent _ _
  · exact sent _ _
  · exact h

theorem raise (g : Page) (inst b : Nat) : storeSame c (d.raise g inst b) := by
  have latched : ∀ x y : Nat, storeSame c (if b = 31 then d.setReg .COMMON_CQ_WRITTEN inst g.ctorIdx x
      else d.setReg .COMMON_INT_STATUS inst g.ctorIdx y) := fun _ _ =>
    ite (h.setReg _ _ _ _) (h.setReg _ _ _ _)
  unfold Chip.raise
  exact ite ((latched _ _).msixPage g inst) (latched _ _)

theorem msixCtx (x p : Nat) : storeSame c (d.msixCtx x p) := by
  unfold Chip.msixCtx
  exact ite (ite (h.msix _ _ _) (h.msix _ _ _)) h

theorem raiseCtx (x p b : Nat) : storeSame c (d.raiseCtx x p b) := by
  have latched : ∀ v : Nat, storeSame c (d.setReg .CTXQ_CTX_INT_STATUS (16 * x + p) 0 v) := fun _ => h.setReg _ _ _ _
  unfold Chip.raiseCtx
  exact ite ((latched _).msixCtx x p) (latched _)

theorem raiseDone (i : QId) (e : Desc) : storeSame c (d.raiseDone i e) := by
  unfold Chip.raiseDone
  refine ite ?_ h
  cases i with
  | compute x p => exact h.raiseCtx x p 0
  | mule x p => exact h.raiseCtx x p 1
  | _ => exact h.raise _ _ 31

/-! Counting and fetching -/

theorem countFor (x : Nat) (r : Reg) (inst n idx : Nat) : storeSame c (d.countFor x r inst n idx) := by
  unfold Chip.countFor
  refine ite ?_ ?_
  · exact h
  · exact h

theorem countDone (i : QId) (status : Nat) : storeSame c (d.countDone i status) := by
  cases i with
  | compute x p => exact ite ((h.countFor x _ _ 1 0).countFor x _ _ 1 0) (h.countFor x _ _ 1 0)
  | mule x p => exact ite ((h.countFor x _ _ 1 0).countFor x _ _ 1 0) (h.countFor x _ _ 1 0)
  | _ => exact h

theorem setQ (i : QId) (f : QField) (v : Nat) : storeSame c (d.setQ i f v) := by
  unfold Chip.setQ
  exact ite (h.setReg _ _ _ _) h

theorem fetchOne (i : QId) : storeSame c (d.fetchOne i) := by
  unfold Chip.fetchOne
  refine setQ (setQ ?_ i .head _) i .idle 0
  exact h

omit h in
theorem fetch (i : QId) (n : Nat) (d : Chip) : storeSame d (d.fetch i n) := by
  induction n generalizing d with
  | zero => exact refl d
  | succ n ih =>
    unfold Chip.fetch
    exact ite (((refl d).fetchOne i).trans (ih _)) (refl d)

end

end storeSame

/-- A command whose record is not lost writes the record at the completion tail, and nothing else of host memory. -/
theorem completeDesc_storeSame (c : Chip) {i : QId} {d : Desc} (status detail : Nat) (ringed : i.ringed = true)
    (up : c.recordLost (c.recordPort i d.tag) = false) :
    storeSame (c.writeHost (c.recordPort i d.tag) (c.q i .cqBase + 16 * c.q i .cqTail) (c.recordBytes i d status detail))
      (c.completeDesc i d status detail) := by
  unfold completeDesc
  simp only [ringed, up, Bool.not_true, Bool.false_eq_true, if_false]
  refine storeSame.trans ?_ (storeSame.fetch i i.ahead _)
  refine storeSame.ite (storeSame.setQ ?_ i .idle 1) ?_
  all_goals
    refine storeSame.trans (storeSame.countDone (storeSame.raiseDone (storeSame.setQ ?_ i .cqTail _) i d) i status) ⟨rfl, rfl, rfl⟩
    exact storeSame.ite ⟨rfl, rfl, rfl⟩ ⟨rfl, rfl, rfl⟩

/-! The record -/

theorem length_recordBytes (c : Chip) (i : QId) (d : Desc) (status detail : Nat) : (c.recordBytes i d status detail).length = 16 := by
  simp [recordBytes, length_bytesOf]

theorem recordBytes_lt (c : Chip) (i : QId) (d : Desc) (status detail : Nat) : ∀ b ∈ c.recordBytes i d status detail, b < 256 := by
  have phase : c.phaseOf i < 256 := by
    unfold phaseOf
    omega
  have bytes : status % 256 < 256 ∧ d.opcode % 256 < 256 ∧ d.ctx % 256 < 256 :=
    ⟨Nat.mod_lt _ (by decide), Nat.mod_lt _ (by decide), Nat.mod_lt _ (by decide)⟩
  intro b hb
  simp only [recordBytes, List.mem_append, List.mem_cons, List.not_mem_nil, or_false] at hb
  rcases hb with ((hb | rfl | rfl | rfl | rfl) | hb) | hb
  · exact bytesOf_lt _ _ b hb
  · exact bytes.1
  · exact phase
  · exact bytes.2.1
  · exact bytes.2.2
  · exact bytesOf_lt _ _ b hb
  · exact bytesOf_lt _ _ b hb

/-- What gives the record of a command its place and its bytes is as before. -/
def deskSame (c d : Chip) : Prop :=
  d.regs = c.regs ∧ d.hostPorts = c.hostPorts ∧ d.ctxs = c.ctxs ∧ d.phase = c.phase ∧ d.now = c.now ∧ d.cmds = c.cmds

theorem writeHost_deskSame (port : Nat) (l : List Nat) : ∀ (c : Chip) (a : Nat), deskSame c (c.writeHost port a l) := by
  induction l with
  | nil => exact fun _ _ => ⟨rfl, rfl, rfl, rfl, rfl, rfl⟩
  | cons v r ih => exact fun c a => ih (c.setHostByte port a v) (a + 1)

/-- A fetched command is marked as started. -/
def begun (c : Chip) (x : Cmd) : Chip :=
  { c with cmds := mapIf (fun y => y.seq = x.seq) (fun y => { y with started := some c.now }) c.cmds }

theorem cmdOf_tag {c : Chip} {i : QId} {tag : Nat} {x : Cmd} (found : c.cmdOf i tag = some x) : x.d.tag = tag := by
  have named := List.find?_some found
  rw [Bool.and_eq_true, decide_eq_true_eq, decide_eq_true_eq] at named
  obtain ⟨-, tag⟩ := named
  exact tag

theorem start_begun {c : Chip} {i : QId} {d : Desc} {x : Cmd} (found : c.cmdOf i d.tag = some x) : c.start i d = c.begun x := by
  simp only [start, found, begun]

/-- A command that has started is found under its TAG as before. -/
theorem cmdOf_begun {c : Chip} {i : QId} {tag : Nat} {x : Cmd} (found : c.cmdOf i tag = some x) :
    (c.begun x).cmdOf i tag = some { x with started := some c.now } := by
  have kept : ∀ y : Cmd, (fun z : Cmd => decide (z.q = i) && decide (z.d.tag = tag))
      (if y.seq = x.seq then { y with started := some c.now } else y) = (decide (y.q = i) && decide (y.d.tag = tag)) := by
    intro y
    split <;> rfl
  unfold cmdOf at found
  simp only [cmdOf, begun, mapIf, decide_eq_true_eq, List.find?_map, Function.comp_def, kept, found, Option.map_some, if_true]

end Chip

/-! The command of a queue in a step -/

section
variable {s : State} {t : Nat} {i : QId} {d : Desc} {x : Cmd} (h : s.mayRun t i d x)
include h

/-- A command that may run has its effect on the block in which it is marked as started. -/
theorem State.chip_run_runCmd {e : Desc} (zone : i.part.isSome = true) (tag : e.tag = d.tag) (f : Chip → Chip) :
    (s.run t fun c => c.runCmd i e f).chip = f ((s.found t).begun x) := by
  obtain ⟨-, free, found, notKept, -⟩ := h
  rw [← tag] at found
  show (s.found t).runCmd i e f = _
  unfold Chip.runCmd
  cases i with
  | context port => cases zone
  | _ => simp only [free, found, notKept, Bool.or_self, Bool.false_and, Bool.false_eq_true, if_false, Chip.start_begun found]

/-- A command completes after work that leaves alone what gives the record its place and its bytes. -/
theorem State.complete_storeSame {c : Chip} (ringed : i.ringed = true) (status detail : Nat)
    (same : Chip.deskSame ((s.found t).begun x) c) :
    Chip.storeSame (c.writeHost (x.port.getD ((s.found t).queuePort i)) ((s.found t).q i .cqBase + 16 * (s.found t).q i .cqTail)
      ((s.found t).recordBytes i x.d status detail)) (c.complete i d.tag status detail) := by
  obtain ⟨-, -, found, -, up⟩ := h
  obtain ⟨regs, ports, ctxs, phase, now, cmds⟩ := same
  have queued : c.cmdOf i d.tag = some { x with started := some (s.found t).now } := by
    rw [Chip.cmdOf, cmds, ← Chip.cmdOf, Chip.cmdOf_begun found]
  have queuePort : c.queuePort i = (s.found t).queuePort i := by
    cases i <;> simp only [Chip.queuePort, Chip.ownerPort, Chip.reg, Chip.ctx, regs, ctxs] <;> rfl
  have port : c.recordPort i x.d.tag = x.port.getD ((s.found t).queuePort i) := by
    rw [Chip.cmdOf_tag found]
    simp only [Chip.recordPort, queued, queuePort]
  have ring : ∀ f, c.q i f = (s.found t).q i f := fun f => by
    rw [Chip.q, Chip.reg, regs]
    rfl
  have lost : c.recordLost (c.recordPort i x.d.tag) = false := by
    rw [port, ← up, Chip.recordLost, Chip.reg, regs, Chip.hostPort, ports]
    rfl
  have bytes : c.recordBytes i x.d status detail = (s.found t).recordBytes i x.d status detail := by
    rw [Chip.recordBytes, Chip.phaseOf, phase, now]
    rfl
  have written := Chip.completeDesc_storeSame c status detail ringed lost
  rw [port, ring, ring, bytes] at written
  simpa only [Chip.complete, queued] using written

section
variable {c : Chip} {s' : State} {status detail : Nat} (ringed : i.ringed = true) (same : Chip.deskSame ((s.found t).begun x) c)
  (done : s'.chip = c.complete i d.tag status detail)
include ringed same done

theorem State.recorded_complete : s.recorded s' t i x status detail := by
  obtain ⟨written, -⟩ := State.complete_storeSame h ringed status detail same
  have record := Chip.hostBytes_writeHost c (x.port.getD ((s.found t).queuePort i))
    ((s.found t).q i .cqBase + 16 * (s.found t).q i .cqTail) ((s.found t).recordBytes_lt i x.d status detail)
    (by rw [Chip.length_recordBytes]; decide)
  rw [Chip.length_recordBytes] at record
  rw [State.recorded, done, Chip.hostBytes_congr written, record]

theorem State.part_complete (q : Nat) : s'.chip.part q = c.part q := by
  rw [done, (State.complete_storeSame h ringed status detail same).part q, Chip.part, Chip.writeHost_parts, ← Chip.part]

theorem State.plan_complete : s'.chip.plan = c.plan := by
  obtain ⟨-, -, plan⟩ := State.complete_storeSame h ringed status detail same
  rw [done, plan, Chip.writeHost_plan]

/-- A range of host memory that shares no byte with the record reads as before the completion. -/
theorem State.hostBytes_complete {port a n : Nat}
    (apart : ∀ j < n, ∀ k < 16, Chip.hostKey (x.port.getD ((s.found t).queuePort i))
      ((s.found t).q i .cqBase + 16 * (s.found t).q i .cqTail + k) ≠ Chip.hostKey port (a + j)) :
    s'.chip.hostBytes port a n = c.hostBytes port a n := by
  obtain ⟨written, -⟩ := State.complete_storeSame h ringed status detail same
  rw [done, Chip.hostBytes_congr written, Chip.hostBytes_writeHost_apart]
  rwa [Chip.length_recordBytes]

end

end

end Sys2Proof.Machine
end

section
/-! SUPPORT. The commands of discovery: a run that begins, the leases that READ_TOPOLOGY writes, and what RECYCLE takes off the retired lists
(R42, R106, R111, R114, R115). -/

namespace Sys2Proof.Machine

open Sys2Proof

namespace Chip

/-! DISCOVER -/

/-- A zone's command that waits for runs, its last comparison, and when, at which stage and by which plan its run goes. -/
def runHead (c : Chip) (z : Nat) : Option (QId × Nat × List Nat) × Option Nat × Option (Nat × Nat × Plan) :=
  ((c.part z).discCmd, (c.part z).topo.tc, (c.part z).topo.run.map fun r => (r.t0, r.stage, r.plan))

theorem runHead_modTopo (c : Chip) (p z : Nat) {f : TopoDb → TopoDb} (tc : ∀ x, (f x).tc = x.tc)
    (run : ∀ x, ((f x).run.map fun r => (r.t0, r.stage, r.plan)) = x.run.map fun r => (r.t0, r.stage, r.plan)) :
    (c.modTopo p f).runHead z = c.runHead z := by
  unfold runHead
  rw [modTopo, part_modPart]
  split
  · next same => rw [same, tc, run]
  · rfl

theorem runHead_launch (c : Chip) (p z : Nat) (x : Exchange) : (c.launch p x).1.runHead z = c.runHead z :=
  runHead_modTopo c p z (f := fun t => { t with nextTag := (t.nextTag + 1) % 2 ^ 32 }) (fun _ => rfl) fun _ => rfl

theorem runHead_modRun (c : Chip) (p z : Nat) {f : Run → Run}
    (keeps : ∀ r, ((f r).t0, (f r).stage, (f r).plan) = (r.t0, r.stage, r.plan)) : (c.modRun p f).runHead z = c.runHead z := by
  refine runHead_modTopo c p z (f := fun t => { t with run := t.run.map f }) (fun _ => rfl) fun x => ?_
  simp only [Option.map_map, Function.comp_def, keeps]

/-- Sending what a run wants to know leaves what the run is. -/
theorem runHead_pump (p z n : Nat) : ∀ c : Chip, (c.pump p n).runHead z = c.runHead z := by
  induction n with
  | zero => exact fun _ => rfl
  | succ n ih =>
    intro c
    unfold pump
    split
    · rfl
    · split
      · rfl
      · split
        · rfl
        · rw [ih, runHead_modRun, runHead_launch]
          exact fun _ => rfl

theorem runHead_startRun (c : Chip) (p z : Nat) :
    (c.startRun p).runHead z = if p = z then ((c.part z).discCmd, none, some (c.now, 0, c.plan)) else c.runHead z := by
  rw [startRun, runHead_pump, runHead, modTopo, part_modPart]
  split
  · next same => rw [same]; rfl
  · rfl

theorem mask_names_one : ∀ z < 16, bits (2 ^ z) 15 0 ≠ 0 ∧ bit (2 ^ z) 16 = false ∧ allParts.filter (bit (2 ^ z)) = [z] := by
  decide +kernel

/-- DISCOVER of one zone of the port that is not in bypass begins the zone's run. -/
theorem discover_one (c : Chip) (p tag : Nat) {z : Nat} {d : Desc} (hz : z < 16) (mask : d.at 0x10 4 = 2 ^ z)
    (owned : c.ownerPort z = c.ownerPort p) (free : c.bypassed z = false) :
    c.discover p tag d = (c.modPart p fun s => { s with discCmd := some (.route p, tag, [z]) }).startRun z := by
  obtain ⟨named, plain, one⟩ := mask_names_one z hz
  have zones : (allParts.filter fun z => c.ownerPort z = c.ownerPort p && !c.bypassed z).filter (bit (2 ^ z)) = [z] := by
    rw [List.filter_comm, one]
    simp [owned, free]
  simp only [discover, mask, named, plain, zones, if_false, Bool.false_eq_true, List.isEmpty_cons, List.foldl_cons, List.foldl_nil]

/-! LOAD_PLAN -/

theorem loadPlan_parses (c : Chip) (p tag : Nat) {d : Desc} {pl : Plan}
    (parses : planOf (c.hostBytes (c.ownerPort p) (d.at 0x10 8) (d.at 0x18 4)) = some pl) :
    ∃ f, deskSame c f ∧ f.plan = pl ∧ c.loadPlan p tag d = f.complete (.route p) tag 0x00 := by
  refine ⟨{ c with plan := pl, planMram := if bit (d.at 0x1C 4) 0 then pl else c.planMram }, ⟨rfl, rfl, rfl, rfl, rfl, rfl⟩, rfl, ?_⟩
  simp only [loadPlan, parses]

/-! READ_TOPOLOGY -/

/-- One more entry goes into what the host gave room for, unless one before it did not fit. -/
def fitEntry (room : Nat) (a : List Nat × Bool) (e : List Nat) : List Nat × Bool :=
  if a.2 && a.1.length + e.length ≤ room then (a.1 ++ e, true) else (a.1, false)

/-- Entries that fit go in whole. -/
theorem foldl_fitEntry (room : Nat) (l : List (List Nat)) : ∀ b : List Nat, b.length + l.flatten.length ≤ room →
    l.foldl (fitEntry room) (b, true) = (b ++ l.flatten, true) := by
  induction l with
  | nil => simp
  | cons e r ih =>
    intro b fits
    rw [List.flatten_cons, List.length_append] at fits
    have one : fitEntry room (b, true) e = (b ++ e, true) := by
      simp only [fitEntry, Bool.true_and, decide_eq_true_eq]
      exact if_pos (by omega)
    rw [List.foldl_cons, one, ih (b ++ e) (by rw [List.length_append]; omega), List.flatten_cons, List.append_assoc]

/-- READ_TOPOLOGY of the leases where all of them fit. -/
theorem readTopology_leases (c : Chip) (p tag : Nat) {d : Desc} (leases : d.at 0x1C 1 = 3)
    (fits : (c.leaseEntries p).flatten.length ≤ d.at 0x18 4) :
    c.readTopology p tag d =
      (c.writeHost (c.ownerPort p) (d.at 0x10 8) (c.leaseEntries p).flatten).complete (.route p) tag 0x00 := by
  have whole := foldl_fitEntry (d.at 0x18 4) (c.leaseEntries p) [] (by simpa using fits)
  unfold fitEntry at whole
  simp only [readTopology, leases, show ¬ (3 ≤ 2) by decide, if_false, whole, List.nil_append, if_true]

theorem leaseEntries_lt (c : Chip) (p : Nat) : ∀ b ∈ (c.leaseEntries p).flatten, b < 256 := by
  intro b hb
  obtain ⟨l, entry, hb⟩ := List.mem_flatten.1 hb
  obtain ⟨s, -, rfl⟩ := List.mem_map.1 entry
  rcases List.mem_append.1 hb with hb | hb
  · exact bytesOf_lt 4 _ b hb
  · exact bytesOf_lt 4 _ b hb

/-- The shares of a zone come first among its leases. -/
theorem leaseEntries_shares (c : Chip) (p : Nat) :
    (c.leaseEntries p).flatten.take 24 =
      [UnitId.endpoint p 0, .leaf p 0, .ocs 0].flatMap fun u => bytesOf 4 (c.shareOf p u).1 ++ bytesOf 4 (c.shareOf p u).2 := by
  rw [leaseEntries]
  simp only [List.map_append, List.flatten_append, List.append_assoc]
  refine List.take_left' ?_
  simp [length_bytesOf]

/-! RECYCLE -/

theorem peerOut_out (c : Chip) (p dst : Nat) (kind : String) (args : List Nat) :
    ∃ o, c.peerOut p dst kind args = { c with out := o } := by
  unfold peerOut
  split
  · exact ⟨c.out, rfl⟩
  · exact ⟨_, rfl⟩

/-- Notices to other partitions change nothing of the block but its output. -/
theorem foldl_peerOut_out (p : Nat) (dst : Chip → Nat → Nat) (kind : String) (args : List Nat) (l : List Nat) :
    ∀ c : Chip, ∃ o, l.foldl (fun c q => c.peerOut p (dst c q) kind args) c = { c with out := o } := by
  induction l with
  | nil => exact fun c => ⟨c.out, rfl⟩
  | cons q r ih =>
    intro c
    obtain ⟨o, first⟩ := c.peerOut_out p (dst c q) kind args
    obtain ⟨o', rest⟩ := ih { c with out := o }
    exact ⟨o', by rw [List.foldl_cons, first, rest]⟩

/-- A FID comes off the retired list of a zone. -/
def unretire (v : Nat) (c : Chip) (z : Nat) : Chip :=
  c.modTopo z fun t => { t with retired := t.retired.filter (· ≠ v % 2 ^ 20) }

/-- Every unit of a zone has its FID. -/
def allServed (c : Chip) (z : Nat) : Bool := (c.part z).topo.units.all fun e => e.2.state ≠ 3

theorem serveNoFid_served (c : Chip) {z : Nat} (served : c.allServed z = true) : c.serveNoFid z = c := by
  have none_ : (c.part z).topo.units.filter (fun e => e.2.state = 3) = [] := by
    rw [List.filter_eq_nil_iff]
    simpa [allServed] using served
  rw [serveNoFid, none_]
  rfl

theorem allServed_unretire (v : Nat) (c : Chip) (z y : Nat) : (unretire v c z).allServed y = c.allServed y := by
  unfold allServed
  rw [unretire, modTopo, part_modPart]
  split
  · next same => rw [same]
  · rfl

theorem takeRecycled_fid (v : Nat) (c : Chip) {z : Nat} (served : c.allServed z = true) : c.takeRecycled z [(0, v)] = unretire v c z :=
  serveNoFid_served (unretire v c z) ((allServed_unretire v c z z).trans served)

theorem foldl_takeRecycled (v : Nat) (l : List Nat) : ∀ c : Chip, (∀ z ∈ l, c.allServed z = true) →
    l.foldl (fun c z => c.takeRecycled z [(0, v)]) c = l.foldl (unretire v) c := by
  induction l with
  | nil => exact fun _ _ => rfl
  | cons z r ih =>
    intro c served
    rw [List.foldl_cons, List.foldl_cons, takeRecycled_fid v c (served z List.mem_cons_self)]
    exact ih _ fun y hy => (allServed_unretire v c z y).trans (served y (List.mem_cons_of_mem z hy))

theorem foldl_unretire_desk (c : Chip) (v : Nat) (l : List Nat) : ∀ d : Chip, deskSame c d → deskSame c (l.foldl (unretire v) d) := by
  induction l with
  | nil => exact fun _ same => same
  | cons z r ih => exact fun d same => ih (unretire v d z) same

theorem foldl_unretire_retired (v z : Nat) (l : List Nat) : ∀ c : Chip, ((l.foldl (unretire v) c).part z).topo.retired =
    if z ∈ l then (c.part z).topo.retired.filter (· ≠ v % 2 ^ 20) else (c.part z).topo.retired := by
  induction l with
  | nil => exact fun _ => rfl
  | cons y r ih =>
    intro c
    have one : ((unretire v c y).part z).topo.retired =
        if y = z then (c.part z).topo.retired.filter (· ≠ v % 2 ^ 20) else (c.part z).topo.retired := by
      rw [unretire, modTopo, part_modPart]
      split
      · next same => rw [same]
      · rfl
    rw [List.foldl_cons, ih, one]
    by_cases same : y = z
    · simp [same]
    · simp [same, Ne.symm same]

/-- A recycled FID comes off the retired list of every zone, and the other partitions are told. -/
theorem recycleAll_fid (c : Chip) (p v : Nat) (served : ∀ z ∈ allParts, c.allServed z = true) :
    ∃ o, c.recycleAll p 0 v = allParts.foldl (unretire v) { c with out := o } := by
  obtain ⟨o, own⟩ := foldl_peerOut_out p partFid "RECYCLED" [0, v] (allParts.filter fun q => q ≠ p) c
  obtain ⟨o', far⟩ := foldl_peerOut_out p (fun _ g => 0xFF000 + 16 * g) "RECYCLED" [0, v]
    (c.clusters.filter fun g => g ≠ c.clusterIndex) { c with out := o }
  refine ⟨o', ?_⟩
  unfold recycleAll
  simp only [own]
  refine (congrArg (fun d => allParts.foldl (fun c z => takeRecycled c z [(0, v)]) d) far).trans ?_
  exact foldl_takeRecycled v allParts { c with out := o' } served

theorem recycle_manager (c : Chip) (p tag : Nat) {d : Desc} (fid : d.at 0x10 1 = 0) (manages : c.isManager = true) :
    c.recycle p tag d = (c.recycleAll p 0 (d.at 0x14 4)).complete (.route p) tag 0x00 := by
  simp only [recycle, manages, fid, if_true]

/-- A worker keeps its RECYCLE outstanding. -/
theorem recycle_worker (c : Chip) (p : Nat) (d : Desc) (works : c.isManager = false) :
    (c.recycle p d.tag d).part p = { c.part p with forwards := (c.part p).forwards ++ [(.route p, d.tag)] } := by
  obtain ⟨o, told⟩ := (c.modPart p fun s => { s with forwards := s.forwards ++ [(.route p, d.tag)] }).peerOut_out p c.mgrFid "RECYCLE"
    [d.tag, d.at 0x10 1, d.at 0x14 4]
  simp only [recycle, works, Bool.false_eq_true, if_false, told]
  exact part_modPart_same c p fun s => { s with forwards := s.forwards ++ [(.route p, d.tag)] }

end Chip

/-- Settles O24: what each command does to the zones is said by a lemma about its own work (`runHead_startRun`, `readTopology_leases`,
`recycleAll_fid`); none of them moves what places the record (`deskSame`), so that the completion writes it as the statement says
(`recorded_complete`). -/
theorem discoveryCommands : Obligations.DiscoveryCommands := by
  unfold Obligations.DiscoveryCommands
  refine ⟨?discover, ?plan, ?read, ?manager, ?worker⟩
  case discover =>
    intro t p z d x s runs hz mask owned alive
    obtain ⟨-, free⟩ := alive
    have run := State.chip_run_runCmd runs (e := { d with opcode := 0x70 }) rfl rfl fun c => c.discover p d.tag d
    rw [Chip.discover_one ((s.found t).begun x) p d.tag hz mask owned free] at run
    have zone := (congrArg (Chip.runHead · z) run).trans (Chip.runHead_startRun _ z z)
    have own := (congrArg (Chip.runHead · p) run).trans (Chip.runHead_startRun _ z p)
    rw [if_pos rfl] at zone
    simp only [Chip.runHead, Prod.mk.injEq] at zone
    obtain ⟨-, tc, head⟩ := zone
    have waits := congrArg Prod.fst own
    refine ⟨_, rfl, head, ?_, tc⟩
    refine waits.trans ?_
    split
    · rw [Chip.part_modPart_same]
    · rw [Chip.runHead, Chip.part_modPart_same]
  case plan =>
    intro t p d x pl s runs parses
    have run := State.chip_run_runCmd runs (e := { d with opcode := 0x71 }) rfl rfl fun c => c.loadPlan p d.tag d
    obtain ⟨f, desk, plan, ends⟩ := Chip.loadPlan_parses ((s.found t).begun x) p d.tag parses
    rw [ends] at run
    exact ⟨_, rfl, (State.plan_complete runs rfl desk run).trans plan, State.recorded_complete runs rfl desk run⟩
  case read =>
    intro t p d x l s runs leases all fits port apart
    subst all
    obtain ⟨small, ring, apart⟩ := apart
    have run := State.chip_run_runCmd runs (e := { d with opcode := 0x72 }) rfl rfl fun c => c.readTopology p d.tag d
    rw [Chip.readTopology_leases ((s.found t).begun x) p d.tag leases fits] at run
    have desk := Chip.writeHost_deskSame ((s.found t).ownerPort p) ((s.found t).leaseEntries p).flatten ((s.found t).begun x) (d.at 0x10 8)
    refine ⟨_, rfl, ?_, Chip.leaseEntries_shares (s.found t) p, State.recorded_complete runs rfl desk run⟩
    refine (State.hostBytes_complete runs rfl desk run fun j hj k hk same => ?_).trans
      (Chip.hostBytes_writeHost ((s.found t).begun x) _ _ (Chip.leaseEntries_lt (s.found t) p) (by omega))
    obtain ⟨-, same⟩ := Chip.hostKey_inj same
    rw [Nat.mod_eq_of_lt (by omega), Nat.mod_eq_of_lt (by omega)] at same
    omega
  case manager =>
    intro t p d x s runs kind manages served
    have run := State.chip_run_runCmd runs (e := { d with opcode := 0x73 }) rfl rfl fun c => c.recycle p d.tag d
    obtain ⟨o, recycled⟩ := Chip.recycleAll_fid ((s.found t).begun x) p (d.at 0x14 4) served
    rw [Chip.recycle_manager ((s.found t).begun x) p d.tag kind manages, recycled] at run
    have desk := Chip.foldl_unretire_desk ((s.found t).begun x) (d.at 0x14 4) Chip.allParts { (s.found t).begun x with out := o }
      ⟨rfl, rfl, rfl, rfl, rfl, rfl⟩
    refine ⟨_, rfl, List.map_congr_left fun z hz => ?_, State.recorded_complete runs rfl desk run⟩
    rw [State.part_complete runs rfl desk run z, Chip.foldl_unretire_retired, if_pos hz]
    rfl
  case worker =>
    intro t p d x s runs works
    have run := State.chip_run_runCmd runs (e := { d with opcode := 0x73 }) rfl rfl fun c => c.recycle p d.tag d
    have own := (congrArg (Chip.part · p) run).trans (Chip.recycle_worker ((s.found t).begun x) p d works)
    exact ⟨_, rfl, congrArg Part.forwards own, congrArg (fun q => q.topo.retired) own⟩

end Sys2Proof.Machine
end

section
/-! SUPPORT. A record of Hen, and the capture that it triggers, take no time (R396, R429). -/

namespace Sys2Proof.Machine

open Sys2Proof

namespace Chip

/-- Either branch is at the same time. -/
theorem now_ite {x : Prop} [Decidable x] {c d : Chip} {n : Nat} (hc : c.now = n) (hd : d.now = n) : (if x then c else d).now = n := by
  split
  · exact hc
  · exact hd

/-! Capture -/

@[simp] theorem publish_now (c : Chip) (p : Nat) (nat : Bool) (before : Nat) : (c.publish p nat before).now = c.now := by
  have offsets : ∀ x : Nat × Nat, (if nat then (c.setReg .TRACE_NAT_FIRST p 0 x.1).setReg .TRACE_NAT_NEXT p 0 x.2
      else (c.setReg .TRACE_CMP_FIRST p 0 x.1).setReg .TRACE_CMP_NEXT p 0 x.2).now = c.now := fun _ => now_ite rfl rfl
  unfold publish
  exact now_ite (offsets (_, _)) (offsets (_, _))

@[simp] theorem setStream_now (c : Chip) (p : Nat) (nat : Bool) (x : Stream) : (c.setStream p nat x).now = c.now := rfl

@[simp] theorem drainStream_now (c : Chip) (p : Nat) (nat : Bool) : (c.drainStream p nat).now = c.now := by
  unfold drainStream
  dsimp only
  split <;> simp

@[simp] theorem putRaw_now (c : Chip) (p : Nat) (nat marker : Bool) (b : List Nat) : (c.putRaw p nat marker b).now = c.now := by
  have put := fun x => publish_now (c.setStream p nat x) p nat (c.stream p nat).written
  unfold putRaw
  exact now_ite (now_ite (put _) (put _)) (now_ite (put _) (put _))

@[simp] theorem timebase_now (c : Chip) (p : Nat) (nat : Bool) : (c.timebase p nat).now = c.now := by
  simp [timebase]

@[simp] theorem putRecord_now (c : Chip) (p : Nat) (nat marker : Bool) (b : List Nat) :
    (c.putRecord p nat marker b).now = c.now := by
  unfold putRecord
  refine now_ite rfl ?_
  have based : (if ((c.drainStream p nat).stream p nat).high ≠ (c.drainStream p nat).now >>> 44 ∨
      65536 ≤ ((c.drainStream p nat).stream p nat).sinceBase then (c.drainStream p nat).timebase p nat
      else c.drainStream p nat).now = c.now := now_ite (by simp) (by simp)
  have put := (putRaw_now _ p nat marker b).trans based
  dsimp only
  split
  · exact now_ite put (now_ite put ((putRaw_now _ _ _ _ _).trans put))
  · exact put

@[simp] theorem endDrop_now (c : Chip) (p : Nat) (nat : Bool) : (c.endDrop p nat).now = c.now := by
  unfold endDrop
  dsimp only
  split <;> simp [count]

@[simp] theorem triggerStream_now (c : Chip) (p : Nat) (nat : Bool) (tail : Nat) : (c.triggerStream p nat tail).now = c.now := by
  unfold triggerStream
  exact now_ite rfl (now_ite ((setStream_now _ _ _ _).trans (now_ite (by simp) (by simp))) (by simp))

@[simp] theorem triggerCore_now (c : Chip) (p src job layer op : Nat) : (c.triggerCore p src job layer op).1.now = c.now := by
  unfold triggerCore
  split
  · rfl
  · split
    · dsimp only
      split <;> simp [count]
    all_goals rfl

/-! Hen -/

@[simp] theorem henRing_now (c : Chip) (x : HenRec) : (c.henRing x).now = c.now := by
  unfold henRing
  split
  · rfl
  · cases x <;> rfl

@[simp] theorem henStore_now (c : Chip) (src : Nat) (r : FixedRec) : (henFixed.store c src r).now = c.now := by
  unfold henFixed.store
  dsimp only
  split
  · rfl
  · rw [henRing_now]
    rfl

@[simp] theorem henFixed_now (c : Chip) (src code part : Nat) (params : List Nat) (hidden : Bool) :
    (c.henFixed src code part params hidden).now = c.now := by
  unfold henFixed
  refine now_ite rfl ?_
  dsimp only
  split
  · exact now_ite rfl (henStore_now _ _ _)
  · exact henStore_now _ _ _

@[simp] theorem henPart_now (c : Chip) (p code : Nat) (params : List Nat) (hidden : Bool) :
    (c.henPart p code params hidden).now = c.now := by
  unfold henPart
  exact now_ite (now_ite (by simp) (by simp)) (by simp)

end Chip

end Sys2Proof.Machine
end

section
/-! SUPPORT. What the work of a zone leaves of its route transactions: messages, records, engines and templates leave all of them alone
(R95, R121 to R123, R140). -/

namespace Sys2Proof.Machine

open Sys2Proof

/-- A register of a ROUTE page outside the block of its queue's registers (R141, R349). -/
def routeReg (r : Reg) : Bool := r.desc.page == .ROUTE && !(0x140 ≤ r.desc.off && r.desc.off < 0x180)

/-- A partition but for its control port's link and its log: sending changes these alone. -/
def Part.desk (s : Part) : Part := { s with link := {}, lanesUp := false, portDown := false, msgLog := [] }

/-- What a partition holds of its zone's routes: all but its requests, its capture, its engines' work, its jobs, the exchanges of discovery
with the management circuits, and what it has sent to shadow banks. -/
def Part.routes (s : Part) : Part :=
  { s.desk with requests := [], nextTag := 0, trace := {}, engines := {}, jobs := [], shadowMirrors := [], shadowOf := [], shadowMap := {},
                topo := { s.topo with mgmtDown := [], nextTag := 0, exchanges := [] } }

/-- No register of the routes is one that Hen or a capture writes. -/
theorem logReg_of_routeReg {r : Reg} (h : routeReg r = true) : logReg r = false := by
  rw [routeReg, Bool.and_eq_true, beq_iff_eq] at h
  obtain ⟨page, -⟩ := h
  rw [logReg, page]
  rfl

namespace Chip

/-- Work of zone `p`: `g` of its partition is as before, the routes of the other zones are, and so are the registers of the routes. No time
goes by. -/
def keeps {β : Type} (g : Part → β) (p : Nat) (c d : Chip) : Prop :=
  d.now = c.now ∧ g (d.part p) = g (c.part p) ∧ (∀ q, q ≠ p → (d.part q).routes = (c.part q).routes) ∧
    (p < 4096 → ∀ r i, routeReg r = true → i < 4096 → d.reg r i = c.reg r i)

namespace keeps

variable {β γ : Type} {g : Part → β} {p : Nat}

theorem refl (c : Chip) : keeps g p c c := ⟨rfl, rfl, fun _ _ => rfl, fun _ _ _ _ _ => rfl⟩

theorem trans {c d f : Chip} (h : keeps g p c d) (k : keeps g p d f) : keeps g p c f := by
  obtain ⟨now, own, others, regs⟩ := h
  obtain ⟨now', own', others', regs'⟩ := k
  exact ⟨now'.trans now, own'.trans own, fun q hq => (others' q hq).trans (others q hq),
    fun hp r i hr hi => (regs' hp r i hr hi).trans (regs hp r i hr hi)⟩

/-- What is kept of a partition may be said in less detail. -/
theorem map {c d : Chip} (k : β → γ) (h : keeps g p c d) : keeps (fun s => k (g s)) p c d := by
  obtain ⟨now, own, others, regs⟩ := h
  exact ⟨now, congrArg k own, others, regs⟩

theorem foldl {α : Type} {f : Chip → α → Chip} (h : ∀ c x, keeps g p c (f c x)) (l : List α) (c : Chip) :
    keeps g p c (l.foldl f c) := by
  induction l generalizing c with
  | nil => exact refl c
  | cons x r ih => exact (h c x).trans (ih (f c x))

/-- The routes of every zone are kept. -/
theorem part {c d : Chip} (h : keeps Part.routes p c d) (q : Nat) : (d.part q).routes = (c.part q).routes := by
  obtain ⟨-, own, others, -⟩ := h
  by_cases same : q = p
  · rw [same, own]
  · exact others q same

section
variable {c d : Chip} (h : keeps Part.routes p c d) (q : Nat)
include h

theorem txn : (d.part q).txn = (c.part q).txn := by
  have same := congrArg Part.txn (h.part q)
  exact same

theorem domain : (d.part q).domain = (c.part q).domain := by
  have same := congrArg Part.domain (h.part q)
  exact same

theorem autoAt : (d.part q).autoAt = (c.part q).autoAt := by
  have same := congrArg Part.autoAt (h.part q)
  exact same

theorem staticLoad : (d.part q).staticLoad = (c.part q).staticLoad := by
  have same := congrArg Part.staticLoad (h.part q)
  exact same

theorem staticCmd : (d.part q).staticCmd = (c.part q).staticCmd := by
  have same := congrArg Part.staticCmd (h.part q)
  exact same

theorem queryCmd : (d.part q).queryCmd = (c.part q).queryCmd := by
  have same := congrArg Part.queryCmd (h.part q)
  exact same

theorem clearRun : (d.part q).clearRun = (c.part q).clearRun := by
  have same := congrArg Part.clearRun (h.part q)
  exact same

theorem bankCmd : (d.part q).bankCmd = (c.part q).bankCmd := by
  have same := congrArg Part.bankCmd (h.part q)
  exact same

theorem links : (d.part q).topo.links = (c.part q).topo.links := by
  have same := congrArg (fun s => s.topo.links) (h.part q)
  exact same

end

theorem reg {c d : Chip} (h : keeps g p c d) (hp : p < 4096) {r : Reg} (route : routeReg r = true) {i : Nat} (hi : i < 4096) :
    d.reg r i = c.reg r i := by
  obtain ⟨-, -, -, regs⟩ := h
  exact regs hp r i route hi

section
variable {c d : Chip} (h : keeps g p c d)
include h

/-- A step that leaves time, partitions and registers alone. -/
theorem same {f : Chip} (now : f.now = d.now) (parts : f.parts = d.parts) (regs : f.regs = d.regs) : keeps g p c f :=
  h.trans ⟨now, by rw [Chip.part, parts, ← Chip.part], fun q _ => by rw [Chip.part, parts, ← Chip.part],
    fun _ r i _ _ => by rw [Chip.reg, regs, ← Chip.reg]⟩

theorem setReg {r : Reg} {i : Nat} (x v : Nat) (other : routeReg r = false) (hi : p < 4096 → i < 4096) (hx : x < 64) :
    keeps g p c (d.setReg r i x v) := by
  refine h.trans ⟨rfl, rfl, fun _ _ => rfl, fun hp r' j route small => reg_setReg_far d v ?_ (hi hp) small hx (by decide)⟩
  rintro rfl
  rw [route] at other
  cases other

theorem countN {r : Reg} {i : Nat} (x n : Nat) (other : routeReg r = false) (hi : p < 4096 → i < 4096) (hx : x < 64) :
    keeps g p c (d.countN r i n x) := h.setReg x (min (d.reg r i x + n) (2 ^ r.width - 1)) other hi hx

theorem count {r : Reg} {i : Nat} (other : routeReg r = false) (hi : p < 4096 → i < 4096) : keeps g p c (d.count r i) :=
  h.countN 0 1 other hi (by decide)

theorem modPart {f : Part → Part} (blind : ∀ x, g (f x) = g x) : keeps g p c (d.modPart p f) :=
  h.trans ⟨rfl, by rw [part_modPart_same, blind], fun q hq => by rw [part_modPart, if_neg hq.symm], fun _ _ _ _ _ => rfl⟩

theorem modCtx (x : Nat) (f : Ctx → Ctx) : keeps g p c (d.modCtx x f) := h.same rfl rfl rfl

theorem emit (e : Emission) : keeps g p c (d.emit e) := h.same rfl rfl rfl

theorem ite {x : Prop} [Decidable x] {f : Chip} (k : keeps g p c f) : keeps g p c (if x then d else f) := by
  split
  · exact h
  · exact k

theorem peerOut (q dst : Nat) (kind : String) (args : List Nat) : keeps g p c (d.peerOut q dst kind args) := by
  unfold Chip.peerOut
  exact ite h (h.emit _)

theorem tellLead (q : Nat) (args : List Nat) : keeps g p c (d.tellLead q args) := by
  unfold Chip.tellLead
  exact ite (h.trans (foldl (fun f _ => (refl f).peerOut q _ _ _) _ _)) (h.peerOut q _ _ _)

end

/-! Messages -/

section
variable {c d : Chip} (h : keeps Part.desk p c d)
include h

theorem modMsgLog (l : Part → List LogEntry) : keeps Part.desk p c (d.modPart p fun s => { s with msgLog := l s }) :=
  h.modPart fun _ => rfl

theorem logMsg (far type tag sendTime : Nat) (sent hide : Bool) : keeps Part.desk p c (d.logMsg p far type tag sendTime sent hide) := by
  unfold Chip.logMsg
  exact (h.modMsgLog _).setReg 0 _ rfl id (by decide)

theorem controlPortDown : keeps Part.desk p c (d.controlPortDown p) := by
  unfold Chip.controlPortDown
  refine setReg (h.modPart ?_) 0 0 rfl id (by decide)
  exact fun _ => rfl

theorem psend (dst : Nat) (m : Msg) (x : Nat) : keeps Part.desk p c (d.psend p dst m x) := by
  unfold Chip.psend
  refine ite h (ite h.controlPortDown ?_)
  refine emit (modPart (h.logMsg _ _ _ _ _ _) ?_) _
  exact fun _ => rfl

end

/-- Only the link and the log of the zone's partition differ, so that the routes are kept. -/
theorem of_desk {c d : Chip} (h : keeps Part.desk p c d) : keeps Part.routes p c d := by
  refine h.map fun s => s.routes

section
variable {c d : Chip} (h : keeps Part.routes p c d)
include h

theorem pask (dst type : Nat) (body : List Nat) (ref x : Nat) : keeps Part.routes p c (d.pask p dst type body ref x) := by
  unfold Chip.pask
  refine trans (h.modPart ?_) (of_desk ((refl _).psend dst _ x))
  exact fun _ => rfl

/-! Records, counts and templates -/

/-- What is recorded leaves the routes alone. -/
theorem logs {f : Chip} (k : logsBut d f) (now : f.now = d.now) : keeps Part.routes p c f := by
  obtain ⟨parts, regs⟩ := k
  have same : ∀ q, (f.part q).routes = (d.part q).routes := fun q => by
    rw [parts q]
    rfl
  exact h.trans ⟨now, same p, fun q _ => same q, fun _ r i route small => regs r i (logReg_of_routeReg route) small⟩

theorem henAny (hp : p < 4096) (code x : Nat) : keeps Part.routes p c (d.henAny p code x) :=
  (h.same (f := { d with freeCtr := d.freeCtr + 4 }) rfl rfl rfl).logs ((logsBut.refl _).henPart hp _ _ _) (henPart_now _ _ _ _ _)

theorem countFor (x : Nat) {r : Reg} {i : Nat} (n idx : Nat) (other : routeReg r = false) (hi : p < 4096 → i < 4096) (hx : idx < 64) :
    keeps Part.routes p c (d.countFor x r i n idx) := by
  unfold Chip.countFor
  exact ite (h.modCtx x _) (h.countN idx n other hi hx)

theorem jcount (job : Nat) {r : Reg} (n : Nat) (other : routeReg r = false) : keeps Part.routes p c (d.jcount p job r n) :=
  h.countFor _ n 0 other id (by decide)

theorem modJob (job : Nat) (f : Job → Job) : keeps Part.routes p c (d.modJob p job f) := h.modPart fun _ => rfl

omit h in
theorem replaceStatic (hp : p < 4096) (v : PathView) (d : Chip) : keeps Part.routes p d (d.replaceStatic p v) := by
  unfold Chip.replaceStatic
  refine foldl (fun f j => foldl (fun f t => ?_) _ f) _ d
  have moved := (refl f).modJob (p := p) j.job
  refine ite (moved _) (henAny (jcount (moved _) _ _ rfl) hp _ _)

/-! Engines -/

theorem modEngines (f : Engines → Engines) : keeps Part.routes p c (d.modEngines p f) := h.modPart fun _ => rfl

theorem publishEngines : keeps Part.routes p c (d.publishEngines p) := h.setReg 0 _ rfl id (by decide)

theorem dealUnit (u : WorkUnit) : keeps Part.routes p c (d.dealUnit p u) := by
  have dealt := h.modEngines fun g => { g with dealt := g.dealt + 1 }
  have overflowed := count (r := .SCHED_OVERFLOW_UNITS) (dealt.modEngines fun g => { g with overflow := g.overflow ++ [u] }) rfl id
  unfold Chip.dealUnit
  simp only
  split
  · exact ite (dealt.modEngines _) overflowed
  · exact overflowed

theorem redealLent : keeps Part.routes p c (d.redealLent p) :=
  ((h.modEngines _).trans (foldl (fun f u => (refl f).dealUnit u) _ _)).publishEngines

theorem clampedLoops (written applied : Nat) : keeps Part.routes p c (d.clamped .LOOPS 0 written applied) := by
  have recorded : ∀ f : Chip, keeps Part.routes p c f → ∀ ps, keeps Part.routes p c (f.drawn.drawn.henDev 0x3C01 ps) := fun f k ps =>
    (k.same (f := f.drawn.drawn) rfl rfl rfl).logs ((logsBut.refl _).henFixed _ _ _ _ _) (henFixed_now _ _ _ _ _ _)
  unfold Chip.clamped
  refine recorded _ ?_ _
  exact h.count (r := .LOOPS_CLAMPS) rfl fun _ => by decide

theorem lendNow (hp : p < 64) : keeps Part.routes p c (d.lendNow p) := by
  unfold Chip.lendNow
  have floored := fun x y => ite (x := d.reg .ROUTE_ROUTE_GROUPS p < d.reg .LOOPS_LEND_FLOOR) (h.clampedLoops x y) h
  exact setReg (i := 0) (ite (floored _ _) ((floored _ _).count (i := 0) rfl fun _ => by decide)) p _ rfl (fun _ => by decide) hp

theorem dropTxnAsks : keeps Part.routes p c (d.dropTxnAsks p) := h.modPart fun _ => rfl

end

end keeps

end Chip

end Sys2Proof.Machine
end

section
/-! SUPPORT. The route commands: a transaction that opens in a zone, and what a command asks the zone's agents (R127, R129, R139, R140). -/

namespace Sys2Proof.Machine

open Sys2Proof

/-- Epoch, stage and request of a zone's transaction, and its automatic delay. -/
def Part.opening (s : Part) : Option (Nat × Nat × TxnReq) × Option Nat := (s.txn.map fun x => (x.epoch, x.stage, x.req), s.autoAt)

namespace Chip

/-! Opening -/

/-- A change of the transaction that leaves its epoch, its stage and its request alone. -/
theorem keeps.modOpening {p : Nat} {c d : Chip} (h : keeps Part.opening p c d) {f : Txn → Txn}
    (blind : ∀ x, ((f x).epoch, (f x).stage, (f x).req) = (x.epoch, x.stage, x.req)) : keeps Part.opening p c (d.modTxn p f) := by
  refine h.modPart fun x => ?_
  simp only [Part.opening, Option.map_map, Function.comp_def, blind]

/-- GENERATE changes the transaction as it begins, and once more as its engines are lent. -/
theorem startGenerate_eq (c : Chip) (p : Nat) : ∃ f g : Txn → Txn,
    (∀ x, ((f x).epoch, (f x).stage, (f x).req) = (x.epoch, 1, x.req)) ∧
      (∀ x, ((g x).epoch, (g x).stage, (g x).req) = (x.epoch, x.stage, x.req)) ∧
      c.startGenerate p =
        (((((c.modTxn p f).setReg .ROUTE_TXN_STAGE p 0 1).dropTxnAsks p).lendNow p).modTxn p g).redealLent p := by
  unfold startGenerate
  refine ⟨_, _, ?begins, ?blind, rfl⟩
  case begins => exact fun _ => rfl
  case blind => exact fun _ => rfl

/-- GENERATE begins in the zone with stage 1; the other registers of its routes are as before. -/
theorem startGenerate_opens (c : Chip) {p : Nat} (hp : p < 64) :
    ((c.startGenerate p).part p).opening = ((c.part p).txn.map fun x => (x.epoch, 1, x.req), (c.part p).autoAt) ∧
      ∀ r, routeReg r = true → (c.startGenerate p).reg r p = (c.setReg .ROUTE_TXN_STAGE p 0 1).reg r p := by
  obtain ⟨f, g, begins, blind, eq⟩ := c.startGenerate_eq p
  have lent := (((keeps.refl ((c.modTxn p f).setReg .ROUTE_TXN_STAGE p 0 1)).dropTxnAsks).lendNow hp).map Part.opening
  have dealt := (lent.modOpening blind).trans ((keeps.refl _).redealLent.map Part.opening)
  rw [← eq] at dealt
  obtain ⟨-, own, -, regs⟩ := dealt
  refine ⟨own.trans ?_, fun r route => regs (by omega) r p route (by omega)⟩
  show ((c.modPart p fun s => { s with txn := s.txn.map f }).part p).opening = _
  rw [part_modPart_same, Part.opening]
  simp only [Option.map_map, Function.comp_def, begins]

/-- The zone's transaction as it opens, before it is recorded. -/
def opened (c : Chip) (p : Nat) (r : TxnReq) (domain refused : Bool) (e : Nat) : Chip :=
  let x : Txn := { req := r, epoch := e, openAt := c.now, domain := domain, refused := refused,
                   drainTimeout := c.reg .ROUTE_DRAIN_TIMEOUT p, commitWait := c.reg .ROUTE_COMMIT_WAIT p,
                   resumeWait := c.reg .ROUTE_RESUME_WAIT p, classes := c.reg .ROUTE_DRAIN_CLASSES p }
  let c := c.modPart p fun s => { s with txn := some x, autoAt := none }
  let c := ((c.setReg .ROUTE_TXN_EPOCH p 0 e).setReg .ROUTE_COORDINATED p 0 (ofBool domain)).setReg .ROUTE_AUTO_OPEN p 0 (ofBool r.auto)
  if r.auto then c.count .ROUTE_AUTO_TXNS p else c

theorem openZone_eq (c : Chip) (p : Nat) (r : TxnReq) (domain refused : Bool) (e : Nat) :
    c.openZone p r domain refused e = ((c.opened p r domain refused e).henAny p 0x3201).startGenerate p := rfl

theorem opened_part (c : Chip) (p : Nat) (r : TxnReq) (domain refused : Bool) (e : Nat) :
    ∃ x : Txn, (c.opened p r domain refused e).part p = { c.part p with txn := some x, autoAt := none } ∧ x.epoch = e ∧ x.req = r := by
  unfold opened
  dsimp only
  split <;> simp only [count, countN_get_part, setReg_get_part, part_modPart_same] <;> exact ⟨_, rfl, rfl, rfl⟩

/-- A zone's transaction opens at its epoch with GENERATE. -/
theorem openZone_opens (c : Chip) {p : Nat} (r : TxnReq) (domain refused : Bool) (e : Nat) (hp : p < 64) :
    ((c.openZone p r domain refused e).part p).opening = (some (e, 1, r), none) ∧
      ∀ q, routeReg q = true → (c.openZone p r domain refused e).reg q p =
        if .ROUTE_TXN_STAGE = q then 1 else (c.opened p r domain refused e).reg q p := by
  obtain ⟨x, part, epoch, req⟩ := c.opened_part p r domain refused e
  have recorded := (keeps.refl (p := p) (c.opened p r domain refused e)).henAny (by omega) 0x3201 64
  obtain ⟨begun, regs⟩ := ((c.opened p r domain refused e).henAny p 0x3201).startGenerate_opens hp
  rw [openZone_eq]
  refine ⟨begun.trans ?_, fun q route => ?_⟩
  · rw [recorded.txn p, part, Option.map_some, epoch, req]
    exact congrArg (some (e, 1, r), ·) ((recorded.autoAt p).trans (congrArg Part.autoAt part))
  · rw [regs q route, reg_setReg, recorded.reg (by omega) route (by omega)]
    rfl

/-- What the registers say of a transaction that opens. -/
theorem opened_reg (c : Chip) (p : Nat) (r : TxnReq) (domain refused : Bool) (e : Nat) :
    (c.opened p r domain refused e).reg .ROUTE_TXN_EPOCH p = trunc 16 e ∧
      (c.opened p r domain refused e).reg .ROUTE_ZONE_EPOCH p = c.reg .ROUTE_ZONE_EPOCH p ∧
      (c.opened p r domain refused e).reg .ROUTE_AUTO_OPEN p = ofBool r.auto ∧
      (c.opened p r domain refused e).reg .ROUTE_AUTO_TXNS p =
        if r.auto then countUp (c.reg .ROUTE_AUTO_TXNS p) else c.reg .ROUTE_AUTO_TXNS p := by
  have modPart_reg : ∀ (d : Chip) (f : Part → Part) (q : Reg), (d.modPart p f).reg q p = d.reg q p := fun _ _ _ => rfl
  have counted : ∀ d : Chip, (d.count .ROUTE_AUTO_TXNS p).reg .ROUTE_AUTO_TXNS p = countUp (d.reg .ROUTE_AUTO_TXNS p) :=
    fun d => reg_count_one d p rfl
  have uncounted : ∀ (d : Chip) {q : Reg}, .ROUTE_AUTO_TXNS ≠ q → (d.count .ROUTE_AUTO_TXNS p).reg q p = d.reg q p :=
    fun d q other => (reg_count d _ q p).trans (if_neg other)
  unfold opened
  cases r.auto
  all_goals
    simp only [Bool.false_eq_true, if_true, if_false, counted, uncounted, reg_setReg, modPart_reg, ne_eq, reduceCtorEq,
      not_false_eq_true, true_and, and_true]
    exact ⟨rfl, rfl⟩

/-- A transaction of one zone that may open opens there. -/
theorem openTxn_one (c : Chip) (lead : Nat) {z : Nat} {r : TxnReq} (one : r.zones = [z]) (free : (c.part z).txn = none)
    (settled : (c.part z).restarting = false) (serves : c.outOfService z = false) (supplied : c.stageOf z < 4) :
    c.openTxn lead r = c.openZone z r false false (nextEpoch (c.reg .ROUTE_ZONE_EPOCH z)) := by
  have whole : { r with zones := [z] } = r := by rw [← one]
  have low : ¬ 4 ≤ c.stageOf z := by omega
  simp [openTxn, one, serves, free, settled, low, whole]

/-! Messages -/

/-- A request of a partition is outstanding from then on. -/
theorem pask_requests (c : Chip) (p dst type : Nat) (body : List Nat) (ref x : Nat) :
    ((c.pask p dst type body ref x).part p).requests = (c.part p).requests ++
      [{ dst := dst, msg := { type := type, tag := (c.part p).nextTag, body := body }, sentAt := c.now, ref := ref }] := by
  obtain ⟨-, own, -, -⟩ := (keeps.refl (p := p) (c.modPart p fun s => { s with
    nextTag := (s.nextTag + 1) % 2 ^ 32,
    requests := s.requests ++ [{ dst := dst, msg := { type := type, tag := (c.part p).nextTag, body := body }, sentAt := c.now, ref := ref }] })).psend
      dst { type := type, tag := (c.part p).nextTag, body := body } x
  refine (congrArg Part.requests own).trans ?_
  rw [part_modPart_same]
  rfl

/-- What has just been asked is not settled. -/
theorem settled_pask (c : Chip) (p dst type : Nat) (body : List Nat) (ref x : Nat) :
    (c.pask p dst type body ref x).settled p ref = false := by
  simp [settled, pask_requests]

theorem keeps.sendStatic {z : Nat} (c : Chip) (u : TopoUnit) : keeps Part.routes z c (c.sendStatic z u) := by
  unfold Chip.sendStatic
  exact ((keeps.refl c).pask _ _ _ _ _).trans (keeps.foldl (fun f k => (keeps.refl f).pask _ _ _ _ _) _ _)

/-! Completion -/

namespace keeps

section
variable {p : Nat} {c d : Chip} (h : keeps Part.routes p c d)
include h

theorem msix {port : Nat} (fn v : Nat) (hport : port < 4096) : keeps Part.routes p c (d.msix port fn v) := by
  unfold Chip.msix
  refine ite ?_ (ite h (emit (h.count (r := .HOSTPORT_MSIX_SENT) rfl fun _ => hport) _))
  exact h.same rfl rfl rfl

theorem msixRoute : keeps Part.routes p c (d.msixPage .ROUTE p) := by
  have sent : ∀ (l : List Nat) (f : Chip), (∀ port ∈ l, port < 4096) → keeps Part.routes p f (l.foldl (fun c port => c.msix port 0
      (256 + 16 * p + 8)) f) := by
    intro l
    induction l with
    | nil => exact fun f _ => refl f
    | cons port r ih =>
      exact fun f small => ((refl f).msix 0 _ (small port List.mem_cons_self)).trans (ih _ fun q hq => small q (List.mem_cons_of_mem _ hq))
  refine h.trans (sent _ _ fun port hport => ?_)
  have listed := List.mem_of_mem_filter hport
  simp only [List.mem_cons, List.not_mem_nil, or_false] at listed
  omega

theorem raiseRoute : keeps Part.routes p c (d.raise .ROUTE p 31) := by
  have latched := h.setReg (r := .COMMON_CQ_WRITTEN) (i := p) (Page.ctorIdx .ROUTE) 1 rfl id (by decide)
  unfold Chip.raise
  exact ite latched.msixRoute latched

theorem setQ (f : QField) (v : Nat) : keeps Part.routes p c (d.setQ (.route p) f v) :=
  h.setReg 0 v (by cases f <;> rfl) id (by decide)

theorem fetchOne : keeps Part.routes p c (d.fetchOne (.route p)) := by
  unfold Chip.fetchOne
  refine setQ (setQ (h.same ?_ ?_ ?_) .head _) .idle 0
  all_goals rfl

theorem raiseDone (e : Desc) : keeps Part.routes p c (d.raiseDone (.route p) e) := by
  unfold Chip.raiseDone
  exact ite h.raiseRoute h

theorem fetchNext : keeps Part.routes p c (d.fetch (.route p) (QId.route p).ahead) := ite h.fetchOne h

theorem writeHost (port a : Nat) (l : List Nat) : keeps Part.routes p c (d.writeHost port a l) := by
  obtain ⟨regs, -, -, -, now, -⟩ := writeHost_deskSame port l d a
  exact h.same now (writeHost_parts port l d a) regs

theorem setPhase (l : SMap Nat) : keeps Part.routes p c { d with phase := l } := h.same rfl rfl rfl

theorem setCmds (l : List Cmd) : keeps Part.routes p c { d with cmds := l } := h.same rfl rfl rfl

/-- A record that is not lost is written, and the next descriptor fetched. -/
theorem completeDesc (e : Desc) (status detail : Nat) (up : d.recordLost (d.recordPort (.route p) e.tag) = false) :
    keeps Part.routes p c (d.completeDesc (.route p) e status detail) := by
  unfold Chip.completeDesc
  simp only [QId.ringed, up, Bool.not_true, Bool.false_eq_true, if_false]
  refine fetchNext (ite (setQ (setCmds ?_ _) .idle 1) (setCmds ?_ _))
  all_goals
    refine raiseDone (setQ ?_ .cqTail _) e
    exact ite ((h.writeHost _ _ _).setPhase _) (h.writeHost _ _ _)

end

end keeps

end Chip

/-- A route command completes after work that leaves alone what gives the record its place and its bytes: the routes stay as that work left
them. -/
theorem State.complete_keeps {s : State} {t p : Nat} {d : Desc} {x : Cmd} (h : s.mayRun t (.route p) d x) {c : Chip} (status detail : Nat)
    (same : Chip.deskSame ((s.found t).begun x) c) : Chip.keeps Part.routes p c (c.complete (.route p) d.tag status detail) := by
  obtain ⟨-, -, found, -, up⟩ := h
  obtain ⟨regs, ports, ctxs, -, -, cmds⟩ := same
  have queued : c.cmdOf (.route p) d.tag = some { x with started := some (s.found t).now } := by
    rw [Chip.cmdOf, cmds, ← Chip.cmdOf, Chip.cmdOf_begun found]
  have port : c.recordPort (.route p) x.d.tag = x.port.getD ((s.found t).queuePort (.route p)) := by
    rw [Chip.cmdOf_tag found, Chip.recordPort, queued]
    simp only [Chip.queuePort, Chip.ownerPort, Chip.reg, regs]
    rfl
  have lost : c.recordLost (c.recordPort (.route p) x.d.tag) = false := by
    rw [port, ← up, Chip.recordLost, Chip.reg, regs, Chip.hostPort, ports]
    rfl
  simpa only [Chip.complete, queued] using (Chip.keeps.refl c).completeDesc x.d status detail lost

end Sys2Proof.Machine
end

section
/-! SUPPORT. The statement about the route commands. -/

namespace Sys2Proof.Machine

open Sys2Proof

namespace Chip

/-- An exchange outside a run is one more of the zone's. -/
theorem keeps.direct {p : Nat} {c d : Chip} (h : keeps Part.routes p c d) (x : Exchange) : keeps Part.routes p c (d.direct p x) := by
  unfold Chip.direct Chip.launch Chip.modTopo
  refine modPart (emit (modPart h ?_) _) ?_
  all_goals exact fun _ => rfl

/-- The request that follows a change which leaves the requests alone. -/
theorem pask_modPart_requests (c : Chip) (q z dst type : Nat) (body : List Nat) (ref : Nat) {f : Part → Part}
    (blind : ∀ x, ((f x).requests, (f x).nextTag) = (x.requests, x.nextTag)) :
    (((c.modPart q f).pask z dst type body ref).part z).requests = (c.part z).requests ++
      [{ dst := dst, msg := { type := type, tag := (c.part z).nextTag, body := body }, sentAt := c.now, ref := ref }] := by
  have same : ∀ y, (((c.modPart q f).part y).requests, ((c.modPart q f).part y).nextTag) = ((c.part y).requests, (c.part y).nextTag) := by
    intro y
    rw [part_modPart]
    split
    · next same => rw [blind, same]
    · rfl
  obtain ⟨requests, tag⟩ := Prod.mk.inj (same z)
  rw [pask_requests, requests, tag]
  rfl

/-! RELOAD_STATIC -/

/-- A static load begins with every agent of the zone still to load. -/
theorem startStatic_load (c : Chip) (z : Nat) :
    ((c.startStatic z).part z).staticLoad =
      some { epoch := c.reg .ROUTE_ZONE_EPOCH z, left := (c.zoneAgents z).map fun u => u.unit.code } := by
  unfold startStatic
  refine ((keeps.foldl (fun f u => keeps.sendStatic (z := z) f u) _ _).staticLoad z).trans ?_
  rw [part_modPart_same]

theorem startStatic_cmd (c : Chip) (z q : Nat) : ((c.startStatic z).part q).staticCmd = (c.part q).staticCmd := by
  unfold startStatic
  refine ((keeps.foldl (fun f u => keeps.sendStatic (z := z) f u) _ _).staticCmd q).trans ?_
  rw [part_modPart]
  split
  · next same => rw [same]
  · rfl

/-- A load that has just begun does not end while the zone has an agent. -/
theorem startStatic_open (c : Chip) {z : Nat} (agents : c.zoneAgents z ≠ []) : (c.startStatic z).staticEnded z = c.startStatic z := by
  simp [staticEnded, c.startStatic_load z, agents]

/-- A change that leaves discovery alone leaves the agents of every zone. -/
theorem zoneAgents_modPart (c : Chip) (p z : Nat) {f : Part → Part} (topo : ∀ x, (f x).topo = x.topo) :
    (c.modPart p f).zoneAgents z = c.zoneAgents z := by
  rw [zoneAgents, part_modPart]
  split
  · next same => rw [topo, same, zoneAgents]
  · rfl

/-- Work in one zone that takes part. -/
theorem inZones_one (c : Chip) (p tag : Nat) {z : Nat} (f : List Nat → Chip → Chip) (free : c.bypassed z = false) :
    c.inZones p tag [z] f = f [z] c := by
  simp [inZones, free]

theorem reloadStatic_one (c : Chip) (p tag : Nat) {z : Nat} {d : Desc} (zones : c.zonesOf p (d.at 0x10 2) = [z])
    (free : c.bypassed z = false) (agents : c.zoneAgents z ≠ []) :
    c.reloadStatic p tag d = (c.modPart p fun s => { s with staticCmd := some (.route p, tag, [z], []) }).startStatic z := by
  rw [reloadStatic, zones, inZones_one c p tag _ free]
  dsimp only
  rw [zones]
  refine startStatic_open _ ?_
  rw [zoneAgents_modPart]
  · exact agents
  · exact fun _ => rfl

/-! QUERY_EPOCHS -/

/-- QUERY_EPOCHS does not end while a report is outstanding. -/
theorem queryEnded_open (c : Chip) {z : Nat} (open_ : c.settled z (refKey refReport 0) = false) : c.queryEnded z = c := by
  unfold queryEnded
  split
  · rfl
  · exact if_pos (by rw [open_]; rfl)

/-- A query of one agent waits for its report. -/
theorem queryEpochs_one (c : Chip) (p tag : Nat) {z : Nat} {d : Desc} {u : TopoUnit} (named : d.at 0x1C 1 = z) (hz : z < 16)
    (zones : c.zonesOf p (2 ^ z) = [z]) (free : c.bypassed z = false) (idle : (c.part z).queryCmd = none)
    (agents : c.zoneAgents z = [u]) :
    c.queryEpochs p tag d = (c.modPart z fun s => { s with
      queryCmd := some (.route p, tag, d.at 0x10 8, d.at 0x18 4),
      reports := if s.restarting then s.reports else [] }).pask z u.fid 0x2C [] (refKey refReport 0) := by
  subst named
  have small : ¬ 16 ≤ d.at 0x1C 1 := by omega
  simp only [queryEpochs, Nat.mod_eq_of_lt hz, zones, free, idle, small, List.contains_cons, beq_self_eq_true, Bool.true_or, Bool.not_true,
    Bool.false_eq_true, or_self, if_false, Option.isSome_none]
  have asked : ∀ f : Part → Part, (∀ x, (f x).topo = x.topo) → (c.modPart (d.at 0x1C 1) f).queryAll (d.at 0x1C 1) =
      (c.modPart (d.at 0x1C 1) f).pask (d.at 0x1C 1) u.fid 0x2C [] (refKey refReport 0) := fun f topo => by
    rw [queryAll, zoneAgents_modPart c _ _ topo, agents]
    rfl
  rw [asked]
  · exact queryEnded_open _ (settled_pask _ _ _ _ _ _ _)
  · exact fun _ => rfl

/-! SET_LINK -/

theorem setLink_unit (c : Chip) (p tag : Nat) {d : Desc} {u : TopoUnit} (named : c.unitOfPos p (d.at 0x10 4) = some u) :
    c.setLink p tag d = ((c.modTopo p fun t => { t with
      links := t.links.map fun (e : Nat × TopoLink) => if e.1 = linkKey u.unit (d.at 0x14 2) then
        (e.1, { e.2 with disabled := !bit (d.at 0x16 1) 0, off := !bit (d.at 0x16 1) 0 }) else e }).sendPortState p u.unit (d.at 0x14 2)
          (bit (d.at 0x16 1) 0) (some (.route p, tag))).kickAuto p := by
  rw [setLink, named]

/-- PORT_STATE to a unit without a way ends the command; to any other it is one more exchange of the zone. -/
theorem sendPortState_keeps {s : State} {t p : Nat} {d : Desc} {x : Cmd} (runs : s.mayRun t (.route p) d x) {c : Chip}
    (same : deskSame ((s.found t).begun x) c) (u : UnitId) (port : Nat) (on : Bool) :
    keeps Part.routes p c (c.sendPortState p u port on (some (.route p, d.tag))) := by
  unfold sendPortState
  split
  · exact State.complete_keeps runs 0x0B 0 same
  · exact (keeps.refl c).direct _

/-- An event of R139 starts the delay of a zone without a transaction. -/
theorem kickAuto_delay (c : Chip) {p : Nat} (auto : c.reg .ROUTE_AUTO p = 1) (free : (c.part p).txn = none) :
    (c.kickAuto p).part p = { c.part p with autoAt := some (c.now + c.reg .ROUTE_AUTO_DELAY p * 1000), autoTries := 0 } := by
  simp only [kickAuto, auto, free, ne_eq, not_true_eq_false, if_false, Option.isSome_none, Bool.false_eq_true, part_modPart_same]

/-! CLEAR_FALLBACK -/

/-- CLEAR_FALLBACK waits while an agent of its zone has not answered. -/
theorem clearOn_open (c : Chip) {p z : Nat} {r : ClearRun} (run : (c.part p).clearRun = some r) (zones : r.zones = [z])
    (open_ : c.settled z (refKey refClear p) = false) : c.clearOn p = c := by
  simp [clearOn, run, zones, open_]

/-- CLEAR_FALLBACK of a zone with one agent waits for its report. -/
theorem startClear_one (c : Chip) (p : Nat) {z : Nat} (cmd : Option (QId × Nat)) {u : TopoUnit} (agents : c.zoneAgents z = [u]) :
    c.startClear p [z] cmd = (c.modPart p fun s => { s with clearRun := some { cmd := cmd, zones := [z] } }).pask z u.fid 0x2C []
      (refKey refClear p) := by
  rw [startClear, List.foldl_cons, List.foldl_nil, zoneAgents_modPart, agents]
  · refine clearOn_open _ (r := { cmd := cmd, zones := [z] }) ?run rfl (settled_pask _ _ _ _ _ _ _)
    case run =>
      refine (((keeps.refl _).pask u.fid 0x2C [] (refKey refClear p) 64).clearRun p).trans ?_
      rw [part_modPart_same]
  · exact fun _ => rfl

theorem clearFallback_one (c : Chip) (p tag : Nat) {z : Nat} {d : Desc} {u : TopoUnit} (zones : c.zonesOf p (d.at 0x10 2) = [z])
    (free : c.bypassed z = false) (agents : c.zoneAgents z = [u]) :
    c.clearFallback p tag d = (c.modPart p fun s => { s with clearRun := some { cmd := some (.route p, tag), zones := [z] } }).pask z
      u.fid 0x2C [] (refKey refClear p) := by
  rw [clearFallback, zones, inZones_one c p tag _ free]
  exact startClear_one c p _ agents

/-! READ_BANK -/

/-- A bank read with bytes left asks for the next words. -/
theorem bankOn_asks (c : Chip) {p : Nat} {b : BankRead} (reads : (c.part p).bankCmd = some b) (left : 0 < b.left) :
    c.bankOn p = c.pask p b.fid 0x02 [b.addr, min 3068 (ceilDiv b.left 4)] (refKey refBank 0) := by
  have more : b.left ≠ 0 := by omega
  simp [bankOn, reads, more]

/-- READ_BANK of the routing tables of a bank asks for its first words. -/
theorem readBank_table (c : Chip) (p tag : Nat) {b : Nat} {d : Desc} {u : TopoUnit} (named : c.unitOf p (d.at 0x1C 4 % 2 ^ 20) = some u)
    (banks : d.at 0x20 1 ≤ 2) (region : d.at 0x21 1 = 0) (more : 0 < d.at 0x18 4)
    (place : b = if d.at 0x20 1 = 2 then 2 else if d.at 0x20 1 = 0 then (c.agent u.unit).regs.get .ABANKS_ACTIVE_BANK 0 0
      else 1 - (c.agent u.unit).regs.get .ABANKS_ACTIVE_BANK 0 0) :
    c.readBank p tag d = (c.modPart p fun s => { s with
      bankCmd := some { q := .route p, tag := tag, fid := u.fid, addr := 0x800000 + b * 0x200000 + d.at 0x24 4, host := d.at 0x10 8,
                        left := d.at 0x18 4 } }).pask p u.fid 0x02 [0x800000 + b * 0x200000 + d.at 0x24 4, min 3068 (ceilDiv (d.at 0x18 4) 4)]
          (refKey refBank 0) := by
  have known : ¬ (2 < d.at 0x20 1 ∨ 3 < d.at 0x21 1) := by omega
  simp only [readBank, named, known, if_false]
  rw [region, ← place, if_pos rfl, Nat.add_zero, bankOn_asks _ (by rw [part_modPart_same]) more]

end Chip

/-- Settles O26: what each command leaves of the zone is said by a lemma about its own work (`openTxn_one` and `openZone_opens`,
`reloadStatic_one`, `queryEpochs_one`, `sendPortState_keeps`, `startClear_one`, `bankOn_asks`); what a request sends leaves the routes alone
(`keeps`). -/
theorem routeCommands : Obligations.RouteCommands := by
  unfold Obligations.RouteCommands
  refine ⟨?recommit, ?static, ?query, ?link, ?clear, ?bank⟩
  case recommit =>
    intro t p z d x s runs hz zones free settled serves supplied
    have run := State.chip_run_runCmd runs (e := { d with opcode := 0x60 }) rfl rfl fun c => c.recommit p d.tag d
    let r : TxnReq := { zones := [z], full := bit (d.at 0x12 2) 0,
                        classes := if bit (d.at 0x12 2) 1 then some (bits (d.at 0x12 2) 3 2) else none,
                        thenStatic := bit (d.at 0x12 2) 4, cmd := some (.route p, d.tag) }
    have opens : ((s.found t).begun x).recommit p d.tag d =
        ((s.found t).begun x).openZone z r false false (nextEpoch (s.reg .ROUTE_ZONE_EPOCH z)) := by
      have zones' : ((s.found t).begun x).zonesOf p (d.at 0x10 2) = [z] := zones
      rw [Chip.recommit, zones']
      exact Chip.openTxn_one _ p (r := r) rfl free settled serves supplied
    rw [opens] at run
    obtain ⟨opening, regs⟩ := Chip.openZone_opens ((s.found t).begun x) (p := z) r false false
      (nextEpoch (s.reg .ROUTE_ZONE_EPOCH z)) (by omega)
    obtain ⟨epoch, zone, -, -⟩ := Chip.opened_reg ((s.found t).begun x) z r false false (nextEpoch (s.reg .ROUTE_ZONE_EPOCH z))
    rw [← run] at opening regs
    have txn := congrArg (fun o => o.1.map fun y : Nat × Nat × TxnReq => (y.1, y.2.1, y.2.2.full, y.2.2.cmd)) opening
    refine ⟨_, rfl, ?_, regs _ rfl, (regs _ rfl).trans epoch, (regs _ rfl).trans zone⟩
    simpa only [Part.opening, Option.map_map, Function.comp_def, Option.map_some] using txn
  case static =>
    intro t p z d x s runs hp zones alive agents
    obtain ⟨-, free⟩ := alive
    have run := State.chip_run_runCmd runs (e := { d with opcode := 0x61 }) rfl rfl fun c => c.reloadStatic p d.tag d
    rw [Chip.reloadStatic_one ((s.found t).begun x) p d.tag zones free agents] at run
    refine ⟨_, rfl, ?_, ?_⟩
    · refine (congrArg (fun c => (Chip.part c z).staticLoad) run).trans ((Chip.startStatic_load _ z).trans ?_)
      rw [Chip.zoneAgents_modPart]
      · rfl
      · exact fun _ => rfl
    · refine (congrArg (fun c => (Chip.part c p).staticCmd) run).trans ((Chip.startStatic_cmd _ z p).trans ?_)
      rw [Chip.part_modPart_same]
  case query =>
    intro t p z d x u s runs named hz zones alive idle agents
    obtain ⟨-, free⟩ := alive
    have run := State.chip_run_runCmd runs (e := { d with opcode := 0x62 }) rfl rfl fun c => c.queryEpochs p d.tag d
    rw [Chip.queryEpochs_one ((s.found t).begun x) p d.tag named hz zones free idle agents] at run
    refine ⟨_, rfl, ?_, ?_⟩
    · refine (congrArg (fun c => (Chip.part c z).queryCmd) run).trans
        ((((Chip.keeps.refl _).pask u.fid 0x2C [] (refKey refReport 0) 64).queryCmd z).trans ?_)
      rw [Chip.part_modPart_same]
    · refine (congrArg (fun c => (Chip.part c z).requests) run).trans (Chip.pask_modPart_requests _ z z _ _ _ _ ?_)
      exact fun _ => rfl
  case link =>
    intro t p d x u s runs named auto free
    have run := State.chip_run_runCmd runs (e := { d with opcode := 0x63 }) rfl rfl fun c => c.setLink p d.tag d
    rw [Chip.setLink_unit ((s.found t).begun x) p d.tag named] at run
    have sent := Chip.sendPortState_keeps runs (c := ((s.found t).begun x).modTopo p fun t => { t with
      links := t.links.map fun (e : Nat × TopoLink) => if e.1 = linkKey u.unit (d.at 0x14 2) then
        (e.1, { e.2 with disabled := !bit (d.at 0x16 1) 0, off := !bit (d.at 0x16 1) 0 }) else e }) ⟨rfl, rfl, rfl, rfl, rfl, rfl⟩
      u.unit (d.at 0x14 2) (bit (d.at 0x16 1) 0)
    have ⟨now, _, _, regs⟩ := sent
    have small : p < 1024 := by
      obtain ⟨inst, -⟩ := runs
      exact inst
    have delayed := Chip.kickAuto_delay _ ((regs (by omega) .ROUTE_AUTO p rfl (by omega)).trans auto) ((sent.txn p).trans (by
      rw [Chip.modTopo, Chip.part_modPart_same]
      exact free))
    rw [← run] at delayed
    refine ⟨_, rfl, ?_, ?_⟩
    · rw [delayed]
      refine (sent.links p).trans ?_
      rw [Chip.modTopo, Chip.part_modPart_same]
      rfl
    · rw [delayed, now, regs (by omega) .ROUTE_AUTO_DELAY p rfl (by omega)]
      rfl
  case clear =>
    intro t p z d x u s runs zones alive agents
    obtain ⟨-, free⟩ := alive
    have run := State.chip_run_runCmd runs (e := { d with opcode := 0x64 }) rfl rfl fun c => c.clearFallback p d.tag d
    have one : ((s.found t).begun x).clearFallback p d.tag d = _ := Chip.clearFallback_one ((s.found t).begun x) p d.tag zones free agents
    rw [one] at run
    refine ⟨_, rfl, ?_, ?_⟩
    · refine (congrArg (fun c => (Chip.part c p).clearRun) run).trans
        ((((Chip.keeps.refl _).pask u.fid 0x2C [] (refKey refClear p) 64).clearRun p).trans ?_)
      rw [Chip.part_modPart_same]
    · refine (congrArg (fun c => (Chip.part c z).requests) run).trans (Chip.pask_modPart_requests _ p z _ _ _ _ ?_)
      exact fun _ => rfl
  case bank =>
    intro t p b d x u s runs named banks region more place
    have run := State.chip_run_runCmd runs (e := { d with opcode := 0x65 }) rfl rfl fun c => c.readBank p d.tag d
    rw [Chip.readBank_table ((s.found t).begun x) p d.tag named banks region more place] at run
    refine ⟨_, rfl, ?_, ?_⟩
    · refine (congrArg (fun c => (Chip.part c p).bankCmd) run).trans
        ((((Chip.keeps.refl _).pask u.fid 0x02 _ (refKey refBank 0) 64).bankCmd p).trans ?_)
      rw [Chip.part_modPart_same]
    · refine (congrArg (fun c => (Chip.part c p).requests) run).trans (Chip.pask_modPart_requests _ p p _ _ _ _ ?_)
      exact fun _ => rfl

end Sys2Proof.Machine
end

section
/-! SUPPORT. An answer of an agent ends the act that it answers, and the stage goes on waiting for the others (R124, R130, R134). -/

namespace Sys2Proof.Machine

open Sys2Proof

/-- The acts of which an answer that is OK says no more than that they are done. -/
def TxnAct.plain : TxnAct → Bool
  | .ctlCommit | .drain _ _ | .resume _ | .abandon _ => true
  | _ => false

/-- The transaction without what an agent had still to answer. -/
def Txn.without (x : Txn) (code : Nat) : Txn := { x with scripts := SMap.erase x.scripts code }

/-- The zone waits for its agents, or for the lead. -/
def Txn.waits (x : Txn) : Bool := !x.scripts.isEmpty || !x.polls.isEmpty || x.held

theorem Txn.waits_of_scripts {x : Txn} (h : x.scripts ≠ []) : x.waits = true := by simp [Txn.waits, h]

namespace Chip

/-! An answer arrives -/

/-- The answer of an agent is logged, and the request that it answers is outstanding no longer. -/
def taken (c : Chip) (p src tag type : Nat) : Chip := (c.logMsg p src (type + 1) tag c.now false false).unask p src tag

theorem answered_asked (c : Chip) {p src tag type : Nat} {r : Request} (asked : c.asked p src tag type = some r)
    (k : Request → Chip → Chip) : c.answered p src tag type k = k r (c.taken p src tag type) := by
  have same : (c.logMsg p src (type + 1) tag c.now false false).asked p src tag type = some r := by
    rw [← asked, Chip.asked, logMsg, setReg_get_part, part_modPart_same, Chip.asked]
  simp only [answered, same]
  rfl

theorem taken_part (c : Chip) (p src tag type : Nat) : (c.taken p src tag type).part p =
    { c.part p with msgLog := ((c.taken p src tag type).part p).msgLog,
                    requests := (c.part p).requests.filter fun r => !(r.dst = src && r.msg.tag = tag) } := by
  rw [taken, unask, part_modPart_same, logMsg, setReg_get_part, part_modPart_same]

section
variable (c : Chip) (p src tag type : Nat)

theorem taken_requests : ((c.taken p src tag type).part p).requests =
    (c.part p).requests.filter fun r => !(r.dst = src && r.msg.tag = tag) := by
  rw [taken_part]

theorem taken_txn : ((c.taken p src tag type).part p).txn = (c.part p).txn := by
  rw [taken_part]

theorem taken_unitOf (fid : Nat) : (c.taken p src tag type).unitOf p fid = c.unitOf p fid := by
  rw [unitOf, taken_part, unitOf]

theorem taken_unitAt (code : Nat) : (c.taken p src tag type).unitAt p code = c.unitAt p code := by
  rw [unitAt, taken_part, unitAt]

end

/-! What follows in a zone that waits -/

theorem part_modTxn (c : Chip) (p : Nat) (f : Txn → Txn) : (c.modTxn p f).part p = { c.part p with txn := (c.part p).txn.map f } :=
  part_modPart_same c p _

/-- A zone that waits goes no further. -/
theorem advance_waits (n : Nat) (c : Chip) {p : Nat} {x : Txn} (txn : (c.part p).txn = some x) (waits : x.waits = true) :
    advance n c p = c := by
  cases n with
  | zero => rw [advance]
  | succ n =>
    rw [Txn.waits] at waits
    simp only [advance, txn, waits, if_true]

theorem goOn_waits (c : Chip) {p : Nat} {x : Txn} (txn : (c.part p).txn = some x) (waits : x.waits = true) : c.goOn p = c :=
  advance_waits 12 c txn waits

/-- The last act of an agent is done, while others have still to answer. -/
theorem popAct_waits (c : Chip) {p code : Nat} {x : Txn} {a : TxnAct} (txn : (c.part p).txn = some x)
    (script : SMap.get [] x.scripts code = [a]) (others : SMap.erase x.scripts code ≠ []) :
    c.popAct p code = c.modTxn p fun x => x.without code := by
  have popped : c.setScript p code [] = c.modTxn p fun x => x.without code := rfl
  simp only [popAct, txn, script, List.drop_one, List.tail_cons, popped]
  refine goOn_waits _ (x := x.without code) ?_ (Txn.waits_of_scripts others)
  rw [part_modTxn, txn]
  rfl

/-- The agents' answer belongs to the act that is out. -/
theorem txnAnswer_act (c : Chip) {p src type st : Nat} {u : TopoUnit} {x : Txn} {a : TxnAct} (body : List Nat)
    (unit : c.unitOf p src = some u) (txn : (c.part p).txn = some x) (script : SMap.get [] x.scripts u.unit.code = [a])
    (kind : a.type = type) : c.txnAnswer p src type st body = c.actAnswer p u.unit.code a st body := by
  simp [txnAnswer, unit, actOut, txn, script, kind, Option.filter_some]

theorem actAnswer_plain (c : Chip) {p code : Nat} {x : Txn} {v : TopoUnit} {a : TxnAct} (body : List Nat)
    (txn : (c.part p).txn = some x) (unit : c.unitAt p code = some v) (plain : a.plain = true) :
    c.actAnswer p code a 0x00 body = c.popAct p code := by
  cases a with
  | ctlCommit | drain | resume | abandon => simp [actAnswer, txn, unit]
  | _ => cases plain

/-- A partition that neither resynchronises nor has admissions to undo or to look at again has nothing to send. -/
theorem restartOn_idle (c : Chip) {p : Nat} (synced : (c.part p).resync = false) (whole : (c.part p).cutDue = false)
    (none_ : c.heldAdmits = []) : c.restartOn p = c := by
  have held : c.heldOn = c := by
    rw [heldOn, none_, List.foldl_nil, ← none_]
  simp [restartOn, whole, held, resyncOn, synced]

end Chip

end Sys2Proof.Machine
end

section
/-! SUPPORT. The statement about the answers of agents. -/

namespace Sys2Proof.Machine

open Sys2Proof

namespace Chip

/-- The partition neither resynchronises nor has admissions to undo or to look at again. -/
def idle (c : Chip) (p : Nat) : Prop := (c.part p).resync = false ∧ (c.part p).cutDue = false ∧ c.heldAdmits = []

theorem idle.restartOn {c : Chip} {p : Nat} (h : c.idle p) : c.restartOn p = c := by
  obtain ⟨synced, whole, none_⟩ := h
  exact restartOn_idle c synced whole none_

/-- What only the transaction is changed by leaves nothing to send. -/
theorem idle.modTxn {c : Chip} {p : Nat} (h : c.idle p) (f : Txn → Txn) : (c.modTxn p f).idle p := by
  obtain ⟨synced, whole, none_⟩ := h
  refine ⟨?_, ?_, none_⟩
  · rw [part_modTxn, synced]
  · rw [part_modTxn, whole]

theorem idle.taken {c : Chip} {p : Nat} (h : c.idle p) (src tag type : Nat) : (c.taken p src tag type).idle p := by
  obtain ⟨synced, whole, none_⟩ := h
  refine ⟨?_, ?_, none_⟩
  · rw [taken_part, synced]
  · rw [taken_part, whole]

/-- An agent whose shadow mirror holds the tables of the epoch that it has reached uses those tables. -/
theorem agentAt_part (c : Chip) {p code e : Nat} (sent : SMap.find? (c.part p).shadowOf code = some e) :
    (c.agentAt p code e).part p = { c.part p with
      agentEpoch := SMap.set 0 (c.part p).agentEpoch code e,
      mirrors := SMap.set [] (c.part p).mirrors code (SMap.get [] (c.part p).shadowMirrors code),
      shadowOf := SMap.erase (c.part p).shadowOf code } := by
  rw [agentAt, part_modPart_same, if_pos sent]

theorem idle.agentAt {c : Chip} {p code e : Nat} (h : c.idle p) (sent : SMap.find? (c.part p).shadowOf code = some e) :
    (c.agentAt p code e).idle p := by
  obtain ⟨synced, whole, none_⟩ := h
  refine ⟨?_, ?_, none_⟩
  · rw [agentAt_part c sent, synced]
  · rw [agentAt_part c sent, whole]

section
variable {c : Chip} {p src tag type : Nat} {u v : TopoUnit} {x : Txn} {a : TxnAct} (unit : c.unitOf p src = some u)
  (known : c.unitAt p u.unit.code = some v) (txn : (c.part p).txn = some x) (script : SMap.get [] x.scripts u.unit.code = [a])
  (others : SMap.erase x.scripts u.unit.code ≠ []) (kind : a.type = type)
include unit known txn script others kind

/-- An answer that says no more than that its act is done ends it. -/
theorem taken_plain (plain : a.plain = true) : (c.taken p src tag type).txnAnswer p src type 0x00 [] =
    (c.taken p src tag type).modTxn p fun x => x.without u.unit.code := by
  have here := (c.taken_txn p src tag type).trans txn
  rw [txnAnswer_act _ _ ((c.taken_unitOf p src tag type src).trans unit) here script kind,
    actAnswer_plain _ _ here ((c.taken_unitAt p src tag type _).trans known) plain, popAct_waits _ here script others]

/-- A partition with nothing to send has nothing to send after such an answer. -/
theorem taken_plain_restartOn (plain : a.plain = true) (idle : c.idle p) :
    ((c.taken p src tag type).txnAnswer p src type 0x00 []).restartOn p =
      (c.taken p src tag type).modTxn p fun x => x.without u.unit.code := by
  rw [taken_plain unit known txn script others kind plain]
  exact ((idle.taken src tag type).modTxn _).restartOn

end

/-- The transaction after an answer that ends an act. -/
theorem taken_without {c : Chip} {p src tag type code : Nat} {x : Txn} (txn : (c.part p).txn = some x) :
    (((c.taken p src tag type).modTxn p fun x => x.without code).part p).txn = some (x.without code) := by
  rw [part_modTxn, taken_txn, txn]
  rfl

section
variable {c : Chip} {p src tag : Nat} {u v : TopoUnit} {x : Txn} (unit : c.unitOf p src = some u)
  (known : c.unitAt p u.unit.code = some v) (txn : (c.part p).txn = some x) (others : SMap.erase x.scripts u.unit.code ≠ [])
include unit known txn others

/-- An agent that has the tables awaits no more chunks. -/
theorem taken_prepare {e : Nat} {full : Bool} (script : SMap.get [] x.scripts u.unit.code = [.prepare e full]) :
    (c.taken p src tag 0x20).txnAnswer p src 0x20 0x00 [] =
      ((c.taken p src tag 0x20).modPart p fun s => { s with
        requests := s.requests.filter fun r => !(r.dst = v.fid && r.ref = refKey refTxn 1) }).modTxn p fun x =>
          x.without u.unit.code := by
  have here := (c.taken_txn p src tag 0x20).trans txn
  rw [txnAnswer_act _ _ ((c.taken_unitOf p src tag 0x20 src).trans unit) here script (type := 0x20) rfl]
  simp only [actAnswer, here, (c.taken_unitAt p src tag 0x20 _).trans known, if_true]
  refine popAct_waits _ ?_ script others
  rw [part_modPart_same]
  exact here

/-- An agent that has committed is at E. -/
theorem taken_commit {e : Nat} (script : SMap.get [] x.scripts u.unit.code = [.commit e])
    (sent : SMap.find? (c.part p).shadowOf u.unit.code = some e) :
    (c.taken p src tag 0x26).txnAnswer p src 0x26 0x00 [] =
      ((c.taken p src tag 0x26).agentAt p u.unit.code e).modTxn p fun x => x.without u.unit.code := by
  have here := (c.taken_txn p src tag 0x26).trans txn
  rw [txnAnswer_act _ _ ((c.taken_unitOf p src tag 0x26 src).trans unit) here script (type := 0x26) rfl]
  simp only [actAnswer, here, (c.taken_unitAt p src tag 0x26 _).trans known, if_true]
  refine popAct_waits _ ?_ script others
  rw [agentAt_part]
  · exact here
  · rw [taken_part]
    exact sent

end

end Chip

/-- Settles O27: an answer is taken (`answered_asked`) and ends the agent's last act (`taken_plain`, `taken_prepare`, `taken_commit`), after
which the zone waits for the others (`popAct_waits`) and its partition has nothing to send (`restartOn_idle`). -/
theorem transactionAnswers : Obligations.TransactionAnswers := by
  unfold Obligations.TransactionAnswers
  refine ⟨?prepare, ?drain, ?commit, ?resume, ?abandon, ?ctl⟩
  case prepare =>
    intro t p src tag r u v x s e full alive asked ref unit known txn script others
    have done := State.chip_run_atPart t (fun c => c.prepareAck p src tag 0x00) alive
    have other : r.ref ≠ refKey refStatic 0 := by rw [ref]; decide
    rw [Chip.prepareAck, Chip.answered_asked (s.chip.started t) asked, if_neg other,
      Chip.taken_prepare (c := s.chip.started t) unit known txn others script] at done
    have part := (congrArg (Chip.part · p) done).trans (Chip.part_modTxn _ p _)
    refine ⟨_, rfl, (congrArg Part.txn part).trans ?_, (congrArg Part.requests part).trans ?_⟩
    · rw [Chip.part_modPart_same, Chip.taken_txn]
      exact congrArg (Option.map _) txn
    · rw [Chip.part_modPart_same, Chip.taken_requests]
      rfl
  case drain =>
    intro t p src tag r u v x s e k alive asked ref unit known txn script others
    have done := State.chip_run_atPart t (fun c => c.plainAck p src tag 0x24 0x00) alive
    rw [Chip.plainAck, Chip.answered_asked (s.chip.started t) asked,
      Chip.taken_plain (type := 0x24) (c := s.chip.started t) unit known txn script others rfl rfl] at done
    exact ⟨_, rfl, (congrArg (fun c => (Chip.part c p).txn) done).trans (Chip.taken_without txn)⟩
  case commit =>
    intro t p src tag r u v x s e alive asked ref unit known txn script others synced whole none_ sent
    have done := State.chip_run_atPart t (fun c => (c.plainAck p src tag 0x26 0x00).restartOn p) alive
    have idle : (s.chip.started t).idle p := ⟨synced, whole, none_⟩
    have here : SMap.find? (((s.chip.started t).taken p src tag 0x26).part p).shadowOf u.unit.code = some e := by
      rw [Chip.taken_part]
      exact sent
    rw [Chip.plainAck, Chip.answered_asked (s.chip.started t) asked,
      Chip.taken_commit (c := s.chip.started t) unit known txn others script sent,
      (((idle.taken src tag 0x26).agentAt here).modTxn _).restartOn] at done
    have part := (congrArg (Chip.part · p) done).trans (Chip.part_modTxn _ p _)
    rw [Chip.agentAt_part _ here, Chip.taken_part] at part
    refine ⟨_, rfl, (congrArg Part.txn part).trans (congrArg (Option.map _) txn), ?_, ?_⟩
    · exact (congrArg (fun y => SMap.get 0 y.agentEpoch u.unit.code) part).trans (SMap.get_set_same _ _ _ _)
    · exact (congrArg (fun y => SMap.get [] y.mirrors u.unit.code) part).trans (SMap.get_set_same _ _ _ _)
  case resume =>
    intro t p src tag r u v x s e alive asked ref unit known txn script others synced whole none_
    have done := State.chip_run_atPart t (fun c => (c.plainAck p src tag 0x28 0x00).restartOn p) alive
    rw [Chip.plainAck, Chip.answered_asked (s.chip.started t) asked,
      Chip.taken_plain_restartOn (type := 0x28) (c := s.chip.started t) unit known txn script others rfl rfl ⟨synced, whole, none_⟩] at done
    exact ⟨_, rfl, (congrArg (fun c => (Chip.part c p).txn) done).trans (Chip.taken_without txn)⟩
  case abandon =>
    intro t p src tag r u v x s e alive asked ref unit known txn script others synced whole none_
    have done := State.chip_run_atPart t (fun c => (c.plainAck p src tag 0x2A 0x00).restartOn p) alive
    rw [Chip.plainAck, Chip.answered_asked (s.chip.started t) asked,
      Chip.taken_plain_restartOn (type := 0x2A) (c := s.chip.started t) unit known txn script others rfl rfl ⟨synced, whole, none_⟩] at done
    exact ⟨_, rfl, (congrArg (fun c => (Chip.part c p).txn) done).trans (Chip.taken_without txn)⟩
  case ctl =>
    intro t p src tag r u v x s alive asked ref unit known txn script others synced whole none_
    have done := State.chip_run_atPart t (fun c => (c.writeAck p src tag 0x00).restartOn p) alive
    have kind : r.ref / 2 ^ 48 = 3 := by rw [ref]; decide
    rw [Chip.writeAck, Chip.answered_asked (s.chip.started t) asked, kind] at done
    have ended := done.trans
      (Chip.taken_plain_restartOn (c := s.chip.started t) (type := 0x04) unit known txn script others rfl rfl ⟨synced, whole, none_⟩)
    refine ⟨_, rfl, (congrArg (fun c => (Chip.part c p).txn) ended).trans (Chip.taken_without txn), ?_⟩
    have part := (congrArg (Chip.part · p) ended).trans (Chip.part_modTxn _ p _)
    exact (congrArg Part.requests part).trans (Chip.taken_requests _ p src tag 0x04)

end Sys2Proof.Machine
end

section
/-! SUPPORT. A step of a stage goes out to a zone's agents, and the zone then waits for them (R124, R130). -/

namespace Sys2Proof.Machine

open Sys2Proof

theorem SMap.insert_ne_nil {α : Type} (m : SMap α) (k : Nat) (v : α) : SMap.insert m k v ≠ [] := by
  intro none_
  have here := SMap.find?_insert m k k v
  rw [none_, if_pos rfl] at here
  cases here

/-- A transaction but for the count of the chunks sent: what sending leaves alone. -/
def Txn.sent (x : Txn) : Txn := { x with chunks := 0, changed := false }

/-- Epoch, stage, time of DRAIN, abandonment and link map of a transaction. -/
def Txn.head (x : Txn) : Nat × Nat × Option Nat × Option Nat × EpochMap := (x.epoch, x.stage, x.drainAt, x.abandoning, x.map)

def Part.sent (s : Part) : Option Txn × Option Domain := (s.txn.map Txn.sent, s.domain)

def Part.head (s : Part) : Option (Nat × Nat × Option Nat × Option Nat × EpochMap) × Option Domain := (s.txn.map Txn.head, s.domain)

/-- The transaction with an agent's script replaced. -/
def Txn.scripted (x : Txn) (code : Nat) (l : List TxnAct) : Txn :=
  { x with scripts := if l.isEmpty then SMap.erase x.scripts code else SMap.insert x.scripts code l }

/-- A step has an act for some agent, and none for no agent. -/
def begins (b : SMap (List TxnAct)) : Prop := b ≠ [] ∧ ∀ e ∈ b, e.2 ≠ []

/-- The zone waits, or has a step to begin. -/
def Txn.ready (x : Txn) : Prop := x.waits = true ∨ ∃ b r, x.steps = b :: r ∧ begins b

namespace Chip

namespace keeps

variable {p : Nat} {c d : Chip}

/-- What sending leaves alone holds the head of the transaction. -/
theorem head_of_sent (h : keeps Part.sent p c d) : keeps Part.head p c d := by
  have heads := h.map fun o => (o.1.map Txn.head, o.2)
  simp only [Part.sent, Option.map_map] at heads
  exact heads

theorem sent_of_routes (h : keeps Part.routes p c d) : keeps Part.sent p c d := h.map Part.sent

theorem head_of_routes (h : keeps Part.routes p c d) : keeps Part.head p c d := h.map Part.head

theorem modSent (h : keeps Part.sent p c d) {f : Txn → Txn} (blind : ∀ x, (f x).sent = x.sent) :
    keeps Part.sent p c (d.modTxn p f) := by
  refine h.modPart fun x => ?_
  simp only [Part.sent, Option.map_map, Function.comp_def, blind]

theorem modHead (h : keeps Part.head p c d) {f : Txn → Txn} (blind : ∀ x, (f x).head = x.head) :
    keeps Part.head p c (d.modTxn p f) := by
  refine h.modPart fun x => ?_
  simp only [Part.head, Option.map_map, Function.comp_def, blind]

/-- The transaction is as before but for what sending changes. -/
theorem sent_txn (h : keeps Part.sent p c d) {x : Txn} (txn : (c.part p).txn = some x) :
    ∃ y, (d.part p).txn = some y ∧ y.sent = x.sent := by
  obtain ⟨-, own, -, -⟩ := h
  have same := congrArg Prod.fst own
  simp only [Part.sent, txn, Option.map_some, Option.map_eq_some_iff] at same
  exact same

theorem sendPrepare (code : Nat) (u : TopoUnit) (x : Txn) (e : Nat) (full : Bool) :
    keeps Part.sent p c (c.sendPrepare p code u x e full) := by
  unfold Chip.sendPrepare
  have told := fun body => ((refl c).pask (p := p) u.fid 0x20 body (refKey refTxn 0) 64).sent_of_routes
  refine trans (modPart (modSent (told _) ?_) ?_) (sent_of_routes (foldl (fun f k => (refl f).pask _ _ _ _ _) _ _))
  · exact fun _ => rfl
  · exact fun _ => rfl

/-- An act other than PREPARE leaves the routes alone. -/
theorem sendAct_plain (code : Nat) {a : TxnAct} (plain : ∀ e full, a ≠ .prepare e full) :
    keeps Part.routes p c (c.sendAct p code a) := by
  unfold Chip.sendAct
  split
  · cases a with
    | prepare e full => exact absurd rfl (plain e full)
    | _ => exact (refl c).pask _ _ _ _ _
  · exact refl c

theorem sendAct (code : Nat) (a : TxnAct) : keeps Part.sent p c (c.sendAct p code a) := by
  by_cases plain : ∀ e full, a ≠ .prepare e full
  · exact (sendAct_plain code plain).sent_of_routes
  · push Not at plain
    obtain ⟨e, full, rfl⟩ := plain
    unfold Chip.sendAct
    split
    · exact sendPrepare _ _ _ _ _
    · exact refl c

end keeps

/-! Scripts -/

theorem setScript_eq (c : Chip) (p code : Nat) {l : List TxnAct} {a : TxnAct} (first : l.head? = some a) :
    c.setScript p code l = (c.modTxn p fun x => x.scripted code l).sendAct p code a := by
  simp only [setScript, first]
  rfl

/-- A script is put in its place, and sending its first message changes no more than sending does. -/
theorem setScript_sent (c : Chip) (p code : Nat) (l : List TxnAct) :
    keeps Part.sent p (c.modTxn p fun x => x.scripted code l) (c.setScript p code l) := by
  cases l with
  | nil => exact keeps.refl _
  | cons a r =>
    rw [setScript_eq c p code (a := a) rfl]
    exact keeps.sendAct code a

theorem setScript_head (c : Chip) (p code : Nat) (l : List TxnAct) : keeps Part.head p c (c.setScript p code l) := by
  refine ((keeps.refl c).modHead ?_).trans (c.setScript_sent p code l).head_of_sent
  exact fun _ => rfl

/-- An agent asked for its epochs has that to answer. -/
theorem setScript_query (c : Chip) {p code : Nat} {x : Txn} (txn : (c.part p).txn = some x) :
    ((c.setScript p code [.query]).part p).txn = some { x with scripts := SMap.insert x.scripts code [.query] } := by
  rw [setScript_eq c p code (a := .query) rfl, (keeps.sendAct_plain code fun _ _ other => by cases other).txn p, part_modTxn, txn]
  rfl

/-- A zone with a script at an agent waits. -/
theorem setScript_waits (c : Chip) {p code : Nat} {l : List TxnAct} {x : Txn} (acts : l ≠ []) (txn : (c.part p).txn = some x) :
    ∃ y, ((c.setScript p code l).part p).txn = some y ∧ y.waits = true := by
  have placed : ((c.modTxn p fun x => x.scripted code l).part p).txn = some (x.scripted code l) := by
    rw [part_modTxn, txn]
    rfl
  obtain ⟨y, txn', same⟩ := (c.setScript_sent p code l).sent_txn placed
  refine ⟨y, txn', (congrArg Txn.waits same).trans (Txn.waits_of_scripts ?_)⟩
  show (if l.isEmpty then SMap.erase x.scripts code else SMap.insert x.scripts code l) ≠ []
  rw [if_neg (by simpa using acts)]
  exact SMap.insert_ne_nil _ _ _

/-! Steps -/

/-- Something is to do at some agent whenever there are agents and something is to do at each. -/
theorem begins_stepOf {l : List Nat} {f : Nat → List TxnAct} (agents : l ≠ []) (acts : ∀ a, f a ≠ []) : begins (stepOf l f) := by
  have put : ∀ (l : List Nat) (a : Nat), stepOf (l ++ [a]) f = SMap.insert (stepOf l f) a (f a) := fun l a => by
    simp [stepOf, acts a]
  constructor
  · obtain ⟨init, a, rfl⟩ := (List.eq_nil_or_concat l).resolve_left agents
    rw [List.concat_eq_append, put]
    exact SMap.insert_ne_nil _ _ _
  · clear agents
    induction l using List.reverseRecOn with
    | nil => exact fun _ none_ => nomatch none_
    | append_singleton init a ih =>
      rw [put]
      intro e there
      obtain rfl | there := SMap.mem_insert_key _ _ _ there
      · exact acts a
      · exact ih e there

theorem startStep_head (c : Chip) (p : Nat) (b : SMap (List TxnAct)) (r : List (SMap (List TxnAct))) :
    keeps Part.head p c (c.startStep p b r) := by
  unfold startStep
  refine ((keeps.refl c).modHead ?_).trans (keeps.foldl (fun f (e : Nat × List TxnAct) => f.setScript_head p e.1 e.2) _ _)
  exact fun _ => rfl

/-- A zone has a transaction wherever its head is known. -/
theorem keeps.head_txn {p : Nat} {c d : Chip} (h : keeps Part.head p c d) {x : Txn} (txn : (c.part p).txn = some x) :
    ∃ y, (d.part p).txn = some y ∧ y.head = x.head := by
  obtain ⟨-, own, -, -⟩ := h
  have same := congrArg Prod.fst own
  simp only [Part.head, txn, Option.map_some, Option.map_eq_some_iff] at same
  exact same

/-- A zone waits once a step has begun. -/
theorem startStep_waits (c : Chip) {p : Nat} {b : SMap (List TxnAct)} (r : List (SMap (List TxnAct))) {x : Txn}
    (txn : (c.part p).txn = some x) (some_ : begins b) : ∃ y, ((c.startStep p b r).part p).txn = some y ∧ y.waits = true := by
  obtain ⟨nonempty, acts⟩ := some_
  obtain ⟨init, e, rfl⟩ := (List.eq_nil_or_concat b).resolve_left nonempty
  rw [List.concat_eq_append] at acts ⊢
  have before := c.startStep_head p init r
  obtain ⟨y, txn', -⟩ := before.head_txn txn
  unfold startStep at txn' ⊢
  rw [List.foldl_append]
  exact setScript_waits _ (acts e (by simp)) txn'

/-- A zone that has a step to begin begins it, and waits. -/
theorem advance_ready (n : Nat) (c : Chip) {p : Nat} {x : Txn} (txn : (c.part p).txn = some x) (ready : x.ready) :
    keeps Part.head p c (advance (n + 1) c p) ∧ ∃ y, ((advance (n + 1) c p).part p).txn = some y ∧ y.waits = true := by
  by_cases waits : x.waits = true
  · rw [advance_waits _ _ txn waits]
    exact ⟨keeps.refl c, x, txn, waits⟩
  · obtain ⟨b, r, steps, some_⟩ := ready.resolve_left waits
    obtain ⟨y, txn', waits'⟩ := c.startStep_waits r txn some_
    have begun : advance (n + 1) c p = c.startStep p b r := by
      rw [Txn.waits] at waits
      simp only [advance, txn, waits, Bool.false_eq_true, if_false, steps]
      exact advance_waits n _ txn' waits'
    rw [begun]
    exact ⟨c.startStep_head p b r, y, txn', waits'⟩

end Chip

end Sys2Proof.Machine
end

section
/-! SUPPORT. A stage begins in a zone, and in every zone of a domain transaction (R130, R132). -/

namespace Sys2Proof.Machine

open Sys2Proof

namespace Chip

/-! A stage in a zone -/

/-- A stage begins in its own zone only. -/
theorem startStage_part_other (c : Chip) {p q : Nat} (n cls : Nat) (other : q ≠ p) : (c.startStage p n cls).part q = c.part q := by
  unfold startStage
  split
  · rfl
  · rw [setReg_get_part]
    exact (part_modPart c p q _).trans (if_neg other.symm)

theorem startStage_now (c : Chip) (p n cls : Nat) : (c.startStage p n cls).now = c.now := by
  unfold startStage
  split <;> rfl

theorem prepareScript_ne_nil (c : Chip) (p : Nat) (x : Txn) (code : Nat) : c.prepareScript p x code ≠ [] := by
  unfold prepareScript
  simp

/-- PREPARE is the step of stage 2. -/
theorem startStage_prepare (c : Chip) {p : Nat} {x : Txn} (txn : (c.part p).txn = some x) (agents : x.agents ≠ []) :
    (c.startStage p 2 0).reg .ROUTE_TXN_STAGE p = 2 ∧ (∀ r, .ROUTE_TXN_STAGE ≠ r → (c.startStage p 2 0).reg r p = c.reg r p) ∧
      ∃ y, ((c.startStage p 2 0).part p).txn = some y ∧ y.ready ∧ y.head = (x.epoch, 2, x.drainAt, x.abandoning, x.map) := by
  simp only [startStage, txn]
  refine ⟨?_, fun r other => ?_, ?_⟩
  · rw [reg_setReg, if_pos rfl]
    rfl
  · rw [reg_setReg, if_neg other]
    rfl
  · rw [setReg_get_part, part_modTxn, txn]
    exact ⟨_, rfl, .inr ⟨_, _, rfl, begins_stepOf agents (c.prepareScript_ne_nil p x)⟩, rfl⟩

/-- DRAIN is the step of stage 3. -/
theorem startStage_drain (c : Chip) {p : Nat} (cls : Nat) {x : Txn} (txn : (c.part p).txn = some x) (agents : x.agents ≠ []) :
    ∃ y, (c.startStage p 3 cls).part p = { c.part p with txn := some y } ∧ y.ready ∧ y.agents = x.agents ∧
      y.head = (x.epoch, 3, some c.now, x.abandoning, x.map) := by
  simp only [startStage, txn]
  rw [setReg_get_part, part_modTxn, txn]
  refine ⟨_, rfl, .inr ⟨_, _, rfl, begins_stepOf agents fun a => ?_⟩, rfl, rfl⟩
  simp

/-! Abandonment in a zone -/

/-- A zone whose transaction is abandoned asks its agents, and waits. -/
theorem abandonZone_waits (c : Chip) {p st : Nat} (fresh : Bool) (asked : List Nat) {x : Txn} (hp : p < 4096)
    (txn : (c.part p).txn = some x) (agents : x.agents ≠ []) :
    ∃ y, ((c.abandonZone p st fresh asked).part p).txn = some y ∧ y.waits = true ∧
      y.head = (x.epoch, x.stage, x.drainAt, some st, x.map) := by
  simp only [abandonZone, txn]
  have acts : begins (stepOf x.agents fun a => if a ∈ asked then [TxnAct.query, .abandon x.epoch] else [.abandon x.epoch]) :=
    begins_stepOf agents fun a => by split <;> simp
  have dropped : (((c.dropTxnAsks p).modTxn p fun x => { x with abandoning := some st, fresh := fresh, held := false, polls := [] }).part p).txn =
      some { x with abandoning := some st, fresh := fresh, held := false, polls := [] } := by
    rw [part_modTxn, ((keeps.refl c).dropTxnAsks).txn p, txn]
    rfl
  obtain ⟨y, begun, waits⟩ := startStep_waits _ [] dropped acts
  obtain ⟨z, begun', head⟩ := (startStep_head _ p _ []).head_txn dropped
  obtain rfl : y = z := Option.some.inj (begun.symm.trans begun')
  exact ⟨y, ((keeps.replaceStatic hp _ _).txn p).trans begun, waits, head⟩

/-! A stage in every zone of a domain transaction -/

/-- A domain transaction at the lead partition of which every zone has a lane and an agent. -/
def together (c : Chip) (lead t : Nat) (d : Domain) : Prop :=
  c.now = t ∧ (c.part lead).domain = some d ∧
    ∀ z ∈ d.req.zones, (c.part z).portDown = false ∧ ∃ x, (c.part z).txn = some x ∧ x.agents ≠ []

/-- The zone has begun DRAIN at time `t`. -/
def drains (t : Nat) (c : Chip) (z : Nat) : Prop :=
  ∃ x, (c.part z).txn = some x ∧ x.ready ∧ x.stage = 3 ∧ x.drainAt = some t

/-- DRAIN that begins in one zone changes nothing of the others. -/
theorem together_startStage {c : Chip} {lead t z : Nat} {d : Domain} (h : c.together lead t d) (there : z ∈ d.req.zones) (cls : Nat) :
    (c.startStage z 3 cls).together lead t d ∧ drains t (c.startStage z 3 cls) z ∧
      ∀ q, drains t c q → drains t (c.startStage z 3 cls) q := by
  obtain ⟨now, dom, zones⟩ := h
  obtain ⟨-, x, txn, agents⟩ := zones z there
  obtain ⟨y, part, ready, agents', head⟩ := c.startStage_drain cls txn agents
  have others := fun q => c.startStage_part_other (p := z) (q := q) 3 cls
  have own : drains t (c.startStage z 3 cls) z := ⟨y, congrArg Part.txn part, ready, congrArg (·.2.1) head,
    (congrArg (·.2.2.1) head).trans (congrArg some now)⟩
  refine ⟨⟨(c.startStage_now z 3 cls).trans now, ?_, fun q hq => ?_⟩, own, fun q before => ?_⟩
  · by_cases same : lead = z
    · subst same
      exact (congrArg Part.domain part).trans dom
    · rw [others lead same, dom]
  · by_cases same : q = z
    · subst same
      exact ⟨(congrArg Part.portDown part).trans (zones q hq).1, y, congrArg Part.txn part, agents'.symm ▸ agents⟩
    · rw [others q same]
      exact zones q hq
  · by_cases same : q = z
    · rw [same]
      exact own
    · rw [drains, others q same]
      exact before

theorem peerOut_parts (c : Chip) (p dst : Nat) (kind : String) (args : List Nat) : (c.peerOut p dst kind args).parts = c.parts := by
  unfold peerOut
  split <;> rfl

theorem peerOut_now (c : Chip) (p dst : Nat) (kind : String) (args : List Nat) : (c.peerOut p dst kind args).now = c.now := by
  unfold peerOut
  split <;> rfl

/-- What every element does to the state, a fold has done when it ends. -/
theorem foldl_done {α β : Type} {f : β → α → β} {kept : β → Prop} {done : β → α → Prop} {b : β} (start : kept b) (l : List α)
    (step : ∀ b, ∀ a ∈ l, kept b → kept (f b a) ∧ done (f b a) a ∧ ∀ q, done b q → done (f b a) q) :
    kept (l.foldl f b) ∧ ∀ a ∈ l, done (l.foldl f b) a := by
  induction l using List.reverseRecOn with
  | nil => exact ⟨start, fun _ none_ => absurd none_ List.not_mem_nil⟩
  | append_singleton init a ih =>
    obtain ⟨kept', earlier⟩ := ih fun b q hq => step b q (List.mem_append_left _ hq)
    obtain ⟨last, own, before⟩ := step _ a (by simp) kept'
    rw [List.foldl_concat]
    refine ⟨last, fun q hq => ?_⟩
    obtain hq | hq := List.mem_append.1 hq
    · exact before q (earlier q hq)
    · rw [List.mem_singleton.1 hq]
      exact own

/-- DRAIN begins in a zone that the lead has told, as in one that it has not to tell. -/
theorem together_told {b f : Chip} {lead t z : Nat} {d : Domain} (h : b.together lead t d) (there : z ∈ d.req.zones) (cls : Nat)
    (now : f.now = b.now) (parts : f.parts = b.parts) :
    (f.startStage z 3 cls).together lead t d ∧ drains t (f.startStage z 3 cls) z ∧
      ∀ q, drains t b q → drains t (f.startStage z 3 cls) q := by
  have same : ∀ q, f.part q = b.part q := fun q => by rw [part, parts, ← part]
  have told : f.together lead t d := by
    simp only [together, same, now]
    exact h
  obtain ⟨kept, own, before⟩ := together_startStage told there cls
  refine ⟨kept, own, fun q hq => before q ?_⟩
  rw [drains, same]
  exact hq

/-- The lead has every zone begin DRAIN. -/
theorem domainStage_drains {c : Chip} {lead t : Nat} {d : Domain} (h : c.together lead t d) (e : Domain) (zones : e.req = d.req) :
    (c.domainStage e 3).together lead t d ∧ ∀ z ∈ d.req.zones, drains t (c.domainStage e 3) z := by
  unfold domainStage
  rw [zones]
  refine foldl_done (kept := fun c : Chip => c.together lead t d) h d.req.zones fun b z hz kept => ?_
  have up : ¬ (b.part z).portDown = true := by
    obtain ⟨-, -, zones⟩ := kept
    simp [(zones z hz).1]
  simp only [up]
  refine together_told kept hz _ (now_ite rfl (peerOut_now _ _ _ _ _)) ?_
  split
  · rfl
  · exact peerOut_parts _ _ _ _ _

/-- A zone that has begun DRAIN sends it, and changes nothing of what the others or the lead have. -/
theorem advance_draining (n : Nat) {c : Chip} {lead t z : Nat} {d : Domain} (dom : (c.part lead).domain = some d)
    (zones : ∀ q ∈ d.req.zones, drains t c q) (there : z ∈ d.req.zones) :
    ((advance (n + 1) c z).part lead).domain = some d ∧ ∀ q ∈ d.req.zones, drains t (advance (n + 1) c z) q := by
  obtain ⟨x, txn, ready, stage, drainAt⟩ := zones z there
  obtain ⟨kept, y, txn', waits⟩ := advance_ready n c txn ready
  obtain ⟨y', txn'', head⟩ := kept.head_txn txn
  obtain rfl : y = y' := Option.some.inj (txn'.symm.trans txn'')
  obtain ⟨-, own, others, -⟩ := kept
  constructor
  · by_cases same : lead = z
    · subst same
      exact (congrArg Prod.snd own).trans dom
    · exact (congrArg Part.domain (others lead same)).trans dom
  · intro q hq
    by_cases same : q = z
    · subst same
      exact ⟨y, txn', .inl waits, (congrArg (·.2.1) head).trans stage, (congrArg (·.2.2.1) head).trans drainAt⟩
    · obtain ⟨w, before, rest⟩ := zones q hq
      exact ⟨w, (congrArg Part.txn (others q same)).trans before, rest⟩

end Chip

end Sys2Proof.Machine
end

section
/-! SUPPORT. The statement about reports, rollbacks, deadlines and delays of a route transaction. -/

namespace Sys2Proof.Machine

open Sys2Proof

namespace Chip

/-! GENERATE ends (R130) -/

namespace keeps

variable {p : Nat}

theorem modMgmtDown {c d : Chip} (h : keeps Part.routes p c d) (k : List (Nat × Nat) → List (Nat × Nat)) :
    keeps Part.routes p c (d.modPart p fun s => { s with topo := { s.topo with mgmtDown := k s.topo.mgmtDown } }) := by
  refine h.modPart ?_
  exact fun _ => rfl

theorem checkPairs (hp : p < 4096) (c : Chip) : keeps Part.routes p c (c.checkPairs p) := by
  unfold Chip.checkPairs
  refine foldl (fun f e => ?_) _ c
  dsimp only
  have named := (refl f).modMgmtDown (p := p) fun l => addOnce l (f.podOf p, e.1)
  have unnamed := (refl f).modMgmtDown (p := p) fun l => l.filter fun x => decide (x ≠ (f.podOf p, e.1))
  exact ite ((named.henAny hp _ _).tellLead _ _) (ite unnamed (refl f))

theorem checkRings (hp : p < 4096) (c : Chip) : keeps Part.routes p c (c.checkRings p) := by
  unfold Chip.checkRings
  exact foldl (fun f e => ite ((refl f).henAny hp _ _) (refl f)) _ c

end keeps

/-- GENERATE's work is done: the agents of the zone's transaction are those of the zone that it has not lost, and PREPARE is the next
stage. -/
theorem generateDone_eq (c : Chip) {p : Nat} {x : Txn} (hp : p < 4096) (txn : (c.part p).txn = some x) (stage : x.stage = 1)
    (free : x.held = false) (own : x.domain = false) : ∃ d : Chip,
      c.generateDone p = ((d.startStage p 2 0).publishEngines p).goOn p ∧
        d.reg .ROUTE_LAST_GEN_TICKS p = min (c.now - x.genAt) (2 ^ 32 - 1) ∧
        ∃ y, (d.part p).txn = some y ∧ y.epoch = x.epoch ∧ y.map = x.map ∧
          y.agents = ((c.zoneAgents p).map fun u => u.unit.code).filter fun a => !(a ∈ x.lost) := by
  have checked : keeps Part.routes p c ((if x.req.afterRun then c.checkPairs p else c).checkRings p) :=
    ((keeps.checkPairs hp c).ite (keeps.refl c)).trans (keeps.checkRings hp _)
  have moved := fun v d => (keeps.replaceStatic hp v d)
  simp only [generateDone, txn, stage, free, own, ne_eq, not_true, Bool.false_eq_true, or_self, if_false]
  generalize (if x.req.afterRun then c.checkPairs p else c).checkRings p = c' at checked ⊢
  have here : (c'.part p).txn = some x := (checked.txn p).trans txn
  have ⟨now, _⟩ := checked
  refine ⟨_, rfl, ?_, ?_⟩
  · refine ((moved _ _).reg hp rfl hp).trans ?_
    rw [now]
    exact (reg_setReg c' _ _ p 0 _).trans ((if_pos rfl).trans (Nat.mod_eq_of_lt (by
      show min (c.now - x.genAt) (2 ^ 32 - 1) < 2 ^ 32
      omega)))
  · rw [part_modTxn, (moved _ _).txn p, part_modTxn, setReg_get_part, here]
    exact ⟨_, rfl, rfl, rfl, rfl⟩

/-- PREPARE goes out as stage 2 begins, and the zone waits. -/
theorem prepare_goOn (c : Chip) {p : Nat} {x : Txn} (hp : p < 4096) (txn : (c.part p).txn = some x) (agents : x.agents ≠ []) :
    ∃ y, ((((c.startStage p 2 0).publishEngines p).goOn p).part p).txn = some y ∧
      y.head = (x.epoch, 2, x.drainAt, x.abandoning, x.map) ∧
      (((c.startStage p 2 0).publishEngines p).goOn p).reg .ROUTE_TXN_STAGE p = 2 ∧
      (((c.startStage p 2 0).publishEngines p).goOn p).reg .ROUTE_LAST_GEN_TICKS p = c.reg .ROUTE_LAST_GEN_TICKS p := by
  obtain ⟨begun, others, y, txn', ready, head⟩ := c.startStage_prepare txn agents
  have shown := (keeps.refl (p := p) (c.startStage p 2 0)).publishEngines
  obtain ⟨sent, -⟩ := advance_ready 11 _ ((shown.txn p).trans txn') ready
  have kept := shown.head_of_routes.trans sent
  obtain ⟨z, txn'', same⟩ := kept.head_txn txn'
  exact ⟨z, txn'', same.trans head, (kept.reg hp rfl hp).trans begun, (kept.reg hp rfl hp).trans (others _ (by decide))⟩

/-! Reports (R137) -/

/-- An agent known to be at an epoch: no more than its mirrors and its epoch are set. -/
theorem agentAt_epoch (c : Chip) (p code e : Nat) : ∃ m o, (c.agentAt p code e).part p = { c.part p with
    agentEpoch := SMap.set 0 (c.part p).agentEpoch code e, mirrors := m, shadowOf := o } := by
  rw [agentAt, part_modPart_same]
  dsimp only
  split <;> exact ⟨_, _, rfl⟩

/-- A zone that resolves nothing has no resolution to decide. -/
theorem decide_none (c : Chip) {p : Nat} (none_ : (c.part p).resolve = []) : c.decide_ p = c := by
  simp [decide_, none_]

theorem queryEnded_none (c : Chip) {p : Nat} (none_ : (c.part p).queryCmd = none) : c.queryEnded p = c := by
  simp only [queryEnded, none_]

/-- Nothing follows a report in a zone that neither resolves, nor is asked for its epochs, nor has anything to send. -/
theorem reported_idle (c : Chip) {p : Nat} (decided : (c.part p).resolve = []) (unasked : (c.part p).queryCmd = none) (idle : c.idle p) :
    ((c.decide_ p).queryEnded p).restartOn p = c := by
  rw [decide_none c decided, queryEnded_none c unasked, idle.restartOn]

/-- A report that was asked for is kept. -/
theorem epochReport_part (c : Chip) {p src tag : Nat} (rep : List Nat) {r : Request} {u : TopoUnit}
    (asked : c.asked p src tag 0x2C = some r) (ref : r.ref = refKey refReport 0) (unit : c.unitOf p src = some u)
    (decided : (c.part p).resolve = []) (unasked : (c.part p).queryCmd = none) (idle : c.idle p) :
    (((c.epochReport p src tag 0x00 rep).restartOn p).part p).reports =
        SMap.insert ((c.taken p src tag 0x2C).part p).reports u.unit.code rep ∧
      (((c.epochReport p src tag 0x00 rep).restartOn p).part p).agentEpoch =
        SMap.set 0 ((c.taken p src tag 0x2C).part p).agentEpoch u.unit.code (rep.getD 0 0) ∧
      (((c.epochReport p src tag 0x00 rep).restartOn p).part p).requests = ((c.taken p src tag 0x2C).part p).requests := by
  obtain ⟨synced, whole, none_⟩ := idle.taken src tag 0x2C
  obtain ⟨m, o, at_⟩ := (c.taken p src tag 0x2C).agentAt_epoch p u.unit.code (rep.getD 0 0)
  have part := c.taken_part p src tag 0x2C
  have decided' := (congrArg Part.resolve part).trans decided
  have unasked' := (congrArg Part.queryCmd part).trans unasked
  rw [epochReport, answered_asked c asked]
  simp only [(c.taken_unitOf p src tag 0x2C src).trans unit, ref, if_true]
  clear part
  generalize c.taken p src tag 0x2C = d at *
  rw [reported_idle]
  · rw [part_modPart_same, part_modPart_same, at_]
    exact ⟨rfl, rfl, rfl⟩
  · rw [part_modPart_same, part_modPart_same, at_]
    exact decided'
  · rw [part_modPart_same, part_modPart_same, at_]
    exact unasked'
  · refine ⟨?_, ?_, ?_⟩
    · rw [part_modPart_same, part_modPart_same, at_]
      exact synced
    · rw [part_modPart_same, part_modPart_same, at_]
      exact whole
    · rw [modPart_heldAdmits, modPart_heldAdmits, agentAt, modPart_heldAdmits, none_]

/-! Rollbacks (R134) -/

/-- An agent that may still be recovered is asked for its epochs. -/
theorem recover_query (c : Chip) {p code : Nat} {x : Txn} (hp : p < 4096) (txn : (c.part p).txn = some x)
    (few : SMap.get 0 x.recov code < 3) :
    ((c.recover p code).part p).txn = some { x with
        recov := SMap.insert x.recov code (SMap.get 0 x.recov code + 1), polls := SMap.erase x.polls code,
        scripts := SMap.insert x.scripts code [.query] } ∧
      (c.recover p code).reg .ROUTE_AGENT_ROLLBACKS p = countUp (c.reg .ROUTE_AGENT_ROLLBACKS p) := by
  have more : ¬ 3 ≤ SMap.get 0 x.recov code := by omega
  simp only [recover, txn, more, if_false]
  constructor
  · refine setScript_query (x := { x with
      recov := SMap.insert x.recov code (SMap.get 0 x.recov code + 1), polls := SMap.erase x.polls code }) _ ?_
    rw [count, countN_get_part, part_modTxn, txn]
    rfl
  · rw [(setScript_head _ p code [.query]).reg hp rfl hp, reg_count_one _ p rfl]
    rfl

theorem logMsg_part (c : Chip) (p far type tag sendTime : Nat) (sent hide : Bool) : ∃ l,
    (c.logMsg p far type tag sendTime sent hide).part p = { c.part p with msgLog := l } := by
  rw [logMsg, setReg_get_part, part_modPart_same]
  exact ⟨_, rfl⟩

/-- A rollback after the first COMMIT. -/
theorem rollback_query (c : Chip) {p src : Nat} {rep : List Nat} {x : Txn} {u : TopoUnit}
    (txn : (c.part p).txn = some x) (unit : c.unitOf p src = some u) (sent : x.commitSent = true) (whole : x.abandoning = none)
    (atE : rep.getD 1 0 = x.epoch) (silent : SMap.find? x.scripts u.unit.code = none) :
    c.rollback p src rep = (c.logMsg p src 0x2F 0 c.now false false).recover p u.unit.code := by
  obtain ⟨l, part⟩ := c.logMsg_part p src 0x2F 0 c.now false false
  have txn' : ((c.logMsg p src 0x2F 0 c.now false false).part p).txn = some x := (congrArg Part.txn part).trans txn
  have unit' : (c.logMsg p src 0x2F 0 c.now false false).unitOf p src = some u := by
    rw [unitOf, part]
    exact unit
  simp only [rollback, txn', unit', sent, whole, atE, silent, Option.isNone_none, and_self, if_true]

/-! The commit deadline (R132) and the queries of agents that were silent at COMMIT (R133) -/

/-- The commit deadline of a zone's own transaction abandons it. -/
theorem commitDeadlinePassed_abandons (c : Chip) {p : Nat} {x : Txn} (hp : p < 4096) (txn : (c.part p).txn = some x)
    (stage : x.stage = 3) (unsent : x.commitSent = false) (whole : x.abandoning = none) (own : x.domain = false) (agents : x.agents ≠ [])
    (passed : commitDeadline x ≤ c.now) :
    ∃ y, ((c.commitDeadlinePassed p).part p).txn = some y ∧ y.head = (x.epoch, 3, x.drainAt, some 1, x.map) := by
  obtain ⟨y, begun, waits, head⟩ := c.abandonZone_waits (st := 1) ((1 = 0x0C || 1 = 0x0B) && !x.refused) [] hp txn agents
  have abandoned : c.abandon p 1 [] = c.abandonZone p 1 ((1 = 0x0C || 1 = 0x0B) && !x.refused) [] := by
    simp only [abandon, txn, own, Bool.false_eq_true, if_false]
  have gone : c.commitDeadlinePassed p = c.abandonZone p 1 ((1 = 0x0C || 1 = 0x0B) && !x.refused) [] := by
    simp only [commitDeadlinePassed, txn, stage, unsent, whole, passed, Bool.not_false, Option.isNone_none, and_self, if_true, abandoned]
    exact goOn_waits _ begun waits
  rw [gone]
  exact ⟨y, begun, head.trans (by rw [stage])⟩

/-- The one agent whose query is due is asked. -/
theorem commitPoll_one (c : Chip) {p code due : Nat} {x : Txn} (txn : (c.part p).txn = some x) (polls : x.polls = [(code, due)])
    (passed : due ≤ c.now) (silent : SMap.find? x.scripts code = none) : c.commitPoll p = c.setScript p code [.query] := by
  simp [commitPoll, txn, polls, passed, silent]

/-! The next stage of a domain transaction (R130) -/

/-- The lead begins DRAIN everywhere when every zone has sent its tables. -/
theorem stageReport_drains (c : Chip) {p : Nat} {d : Domain} (dom : (c.part p).domain = some d) (stage : d.stage = 2) (all : d.wait = [])
    (zones : ∀ z ∈ d.req.zones, (c.part z).portDown = false ∧ ∃ x, (c.part z).txn = some x ∧ x.agents ≠ []) :
    ((c.stageReport p 2).part p).domain = some { d with stage := 3, wait := d.req.zones } ∧
      ∀ z ∈ d.req.zones, drains c.now (c.stageReport p 2) z := by
  let e : Domain := { d with stage := 3, wait := d.req.zones }
  have begun : (c.modPart p fun s => { s with domain := some e }).together p c.now e := by
    refine ⟨rfl, by rw [part_modPart_same], fun z hz => ?_⟩
    rw [part_modPart]
    split
    · next same =>
      subst same
      exact zones p hz
    · exact zones z hz
  obtain ⟨⟨-, dom', -⟩, drains'⟩ := domainStage_drains begun d rfl
  have next : c.stageReport p 2 =
      d.req.zones.foldl (fun c z => advance 12 c z) ((c.modPart p fun s => { s with domain := some e }).domainStage d 3) := by
    simp only [stageReport, dom]
    rw [if_neg (by simp [stage, all])]
    simp only [advance.goOn]
    simp [stage, e]
  rw [next]
  refine List.foldlRecOn (motive := fun f : Chip => (f.part p).domain = some e ∧ ∀ z ∈ d.req.zones, drains c.now f z) d.req.zones _
    ⟨dom', drains'⟩ fun f kept z hz => ?_
  obtain ⟨dom, zones⟩ := kept
  exact advance_draining 11 dom zones hz

/-! The automatic delay (R139) -/

/-- An automatic transaction opens when its delay has passed. -/
theorem autoExpiry_opens (c : Chip) {p d : Nat} (delay : (c.part p).autoAt = some d) (passed : d ≤ c.now) (auto : c.reg .ROUTE_AUTO p = 1)
    (free : (c.part p).txn = none) (settled : (c.part p).restarting = false) (serves : c.outOfService p = false) (supplied : c.stageOf p < 4) :
    c.autoExpiry p = (c.modPart p fun s => { s with autoAt := none }).openZone p { zones := [p], auto := true } false false
      (nextEpoch (c.reg .ROUTE_ZONE_EPOCH p)) := by
  have due : ¬ c.now < d := by omega
  have on : (c.modPart p fun s => { s with autoAt := none }).reg .ROUTE_AUTO p = 1 := auto
  simp only [autoExpiry, delay, due, if_false, on, if_true]
  refine openTxn_one _ p rfl ?_ ?_ serves supplied
  · rw [part_modPart_same, free]
  · rw [part_modPart_same, settled]

end Chip

/-- Settles O28: an event is answered by a stage, a step or an opening of the zone, of which a lemma says what it leaves
(`generateDone_eq`, `setScript_query`, `domainStage_drains`, `abandonZone_waits`, `openZone_opens`); a step that begins keeps the head of
the transaction and leaves the zone waiting (`advance_ready`). -/
theorem transactionEvents : Obligations.TransactionEvents := by
  unfold Obligations.TransactionEvents
  refine ⟨?generate, ?report, ?rollback, ?stage, ?deadline, ?poll, ?auto⟩
  case generate =>
    intro t p x s alive txn stage free own agents
    have run := State.chip_run_atPart t (fun c => c.generateDone p) alive
    have hp : p < 4096 := by
      obtain ⟨small, -⟩ := alive
      omega
    obtain ⟨d, done, ticks, y, txn', epoch, map, left⟩ := Chip.generateDone_eq (s.chip.started t) hp txn stage free own
    have some_ : (((s.chip.started t).zoneAgents p).filter fun u => u.unit.code ∉ x.lost) ≠ [] := agents
    have agents' : y.agents ≠ [] := by
      rw [left, List.filter_map, ne_eq, List.map_eq_nil_iff]
      simpa [Function.comp_def] using some_
    obtain ⟨z, txn'', head, begun, ticks'⟩ := d.prepare_goOn hp txn' agents'
    rw [← done, ← run] at txn'' begun ticks'
    refine ⟨_, rfl, ?_, begun, ticks'.trans ticks⟩
    rw [txn'', Option.map_some]
    have : (z.epoch, z.stage, z.map) = (y.epoch, 2, y.map) := congrArg (fun h => (h.1, h.2.1, h.2.2.2.2)) head
    rw [this, epoch, map]
  case report =>
    intro t p src tag rep r u s alive asked ref unit decided unasked synced whole none_
    have run := State.chip_run_atPart t (fun c => (c.epochReport p src tag 0x00 rep).restartOn p) alive
    obtain ⟨reports, epochs, requests⟩ :=
      Chip.epochReport_part (s.chip.started t) rep asked ref unit decided unasked ⟨synced, whole, none_⟩
    rw [← run] at reports epochs requests
    refine ⟨_, rfl, ?_, ?_, requests.trans (Chip.taken_requests _ p src tag 0x2C)⟩
    · rw [reports, SMap.find?_insert, if_pos rfl]
    · rw [epochs, SMap.get_set_same]
  case rollback =>
    intro t p src rep x u s alive txn unit sent whole atE silent few
    have run := State.chip_run_atPart t (fun c => c.rollback p src rep) alive
    have hp : p < 4096 := by
      obtain ⟨small, -⟩ := alive
      omega
    rw [Chip.rollback_query (s.chip.started t) txn unit sent whole atE silent] at run
    have logged := (Chip.keeps.refl (p := p) (s.chip.started t)).logMsg src 0x2F 0 (s.chip.started t).now false false
    obtain ⟨asked, counted⟩ := Chip.recover_query _ hp ((logged.of_desk.txn p).trans txn) few
    rw [← run] at asked counted
    refine ⟨_, rfl, asked, counted.trans ?_⟩
    rw [logged.reg hp rfl hp]
    rfl
  case stage =>
    intro t p d s alive lead dom stage all up zones
    have run := State.chip_run_atPart t (fun c => c.stageReport p 2) alive
    obtain ⟨dom', begun⟩ := Chip.stageReport_drains (s.chip.started t) dom stage all fun z hz => ⟨up z hz, by
      have txn := zones z hz
      simp only [Option.any_eq_true, Bool.and_eq_true, Bool.not_eq_true', List.isEmpty_eq_false_iff] at txn
      obtain ⟨x, txn, -, agents⟩ := txn
      exact ⟨x, txn, agents⟩⟩
    rw [← run] at dom' begun
    refine ⟨_, rfl, dom', fun z hz => ?_⟩
    obtain ⟨y, txn, -, stage, drainAt⟩ := begun z hz
    rw [txn, Option.map_some, stage, drainAt]
    rfl
  case deadline =>
    intro t p x s alive txn stage unsent whole own agents passed
    have run := State.chip_run_atPart t (fun c => c.commitDeadlinePassed p) alive
    have hp : p < 4096 := by
      obtain ⟨small, -⟩ := alive
      omega
    obtain ⟨y, txn', head⟩ := Chip.commitDeadlinePassed_abandons (s.chip.started t) hp txn stage unsent whole own agents passed
    rw [← run] at txn'
    refine ⟨_, rfl, ?_⟩
    rw [txn', Option.map_some]
    exact congrArg (fun h => some (h.1, h.2.1, h.2.2.2.1)) head
  case poll =>
    intro t p code due x s alive txn polls passed silent
    have run := State.chip_run_atPart t (fun c => c.commitPoll p) alive
    rw [Chip.commitPoll_one (s.chip.started t) txn polls passed silent] at run
    exact ⟨_, rfl, (congrArg (fun c => (Chip.part c p).txn) run).trans (Chip.setScript_query _ txn)⟩
  case auto =>
    intro t p d s hp alive delay passed auto free settled serves supplied
    have run := State.chip_run_atPart t (fun c => c.autoExpiry p) alive
    rw [Chip.autoExpiry_opens (s.chip.started t) delay passed auto free settled serves supplied] at run
    let c := (s.chip.started t).modPart p fun s => { s with autoAt := none }
    let r : TxnReq := { zones := [p], auto := true }
    obtain ⟨opening, regs⟩ := Chip.openZone_opens c (p := p) r false false (nextEpoch (s.reg .ROUTE_ZONE_EPOCH p)) (by omega)
    obtain ⟨-, -, open_, counted⟩ := Chip.opened_reg c p r false false (nextEpoch (s.reg .ROUTE_ZONE_EPOCH p))
    have run : _ = c.openZone p r false false (nextEpoch (s.reg .ROUTE_ZONE_EPOCH p)) := run
    rw [← run] at opening regs
    have txn := congrArg (fun o => o.1.map fun y : Nat × Nat × TxnReq => (y.1, y.2.1, y.2.2.auto)) opening
    refine ⟨_, rfl, ?_, congrArg Prod.snd opening, (regs _ rfl).trans counted, (regs _ rfl).trans open_⟩
    simpa only [Part.opening, Option.map_map, Function.comp_def, Option.map_some] using txn

end Sys2Proof.Machine
end

section
/-! SUPPORT. What leaves the slices of the block alone: records of Hen, capture, completions, residency that ends, notices over the peer channel
and a transaction that opens (R95, R129, R330, R353, R398, R429). -/

namespace Sys2Proof.Machine

open Sys2Proof

namespace Chip

/-- The slices, the contexts and the spill regions of capture are as before. -/
def aside (c d : Chip) : Prop :=
  d.slices = c.slices ∧ d.ctxs = c.ctxs ∧ ∀ q, (d.part q).trace.spill = (c.part q).trace.spill

namespace aside

theorem refl (c : Chip) : aside c c := ⟨rfl, rfl, fun _ => rfl⟩

theorem trans {c d f : Chip} (h : aside c d) (k : aside d f) : aside c f := by
  obtain ⟨slices, ctxs, spill⟩ := h
  obtain ⟨slices', ctxs', spill'⟩ := k
  exact ⟨slices'.trans slices, ctxs'.trans ctxs, fun q => (spill' q).trans (spill q)⟩

theorem foldl {α : Type} {g : Chip → α → Chip} (h : ∀ c x, aside c (g c x)) (l : List α) (c : Chip) : aside c (l.foldl g c) := by
  induction l generalizing c with
  | nil => exact refl c
  | cons x r ih => exact (h c x).trans (ih (g c x))

section
variable {c d : Chip} (h : aside c d)
include h

theorem slices : d.slices = c.slices := by
  obtain ⟨slices, -, -⟩ := h
  exact slices

theorem residentIn (x p : Nat) : d.residentIn x p = c.residentIn x p := by
  obtain ⟨-, ctxs, -⟩ := h
  rw [Chip.residentIn, ctx, ctxs, ← ctx, ← Chip.residentIn]

theorem setReg (r : Reg) (i x v : Nat) : aside c (d.setReg r i x v) := h

theorem countN (r : Reg) (i n : Nat) : aside c (d.countN r i n) := h

theorem count (r : Reg) (i : Nat) : aside c (d.count r i) := h

theorem emit (e : Emission) : aside c (d.emit e) := h

theorem modHen (f : Hen → Hen) : aside c (d.modHen f) := h

theorem modPart (p : Nat) {f : Part → Part} (keeps : ∀ x, (f x).trace.spill = x.trace.spill) : aside c (d.modPart p f) := by
  refine h.trans ⟨rfl, rfl, fun q => ?_⟩
  rw [part_modPart]
  split
  · next same => rw [keeps, same]
  · rfl

theorem ite {p : Prop} [Decidable p] {f : Chip} (k : aside c f) : aside c (if p then d else f) := by
  split
  · exact h
  · exact k

theorem peerOut (p dst : Nat) (kind : String) (args : List Nat) : aside c (d.peerOut p dst kind args) := by
  unfold Chip.peerOut
  exact ite h (h.emit _)

theorem sliceAsk (p dst num : Nat) (args : List Nat) : aside c (d.sliceAsk p dst num args) := by
  unfold Chip.sliceAsk
  refine peerOut (h.modPart p fun x => ?_) _ _ _ _
  rfl

/-! Capture -/

section
variable (p : Nat) (nat : Bool)

theorem setStream (x : Stream) : aside c (d.setStream p nat x) :=
  h.modPart p fun s => by cases nat <;> rfl

theorem publish (before : Nat) : aside c (d.publish p nat before) := by
  unfold Chip.publish
  refine ite ?_ (countN ?_ _ _ _)
  all_goals exact ite ((h.setReg _ _ _ _).setReg _ _ _ _) ((h.setReg _ _ _ _).setReg _ _ _ _)

theorem drainStream : aside c (d.drainStream p nat) := by
  unfold Chip.drainStream
  exact ite h ((h.setStream p nat _).publish p nat _)

theorem putRaw (marker : Bool) (b : List Nat) : aside c (d.putRaw p nat marker b) := by
  have put := fun x : Stream => (h.setStream p nat x).publish p nat (d.stream p nat).written
  unfold Chip.putRaw
  exact ite (ite ((put _).countN _ _ _) ((put _).count _ _)) (ite ((put _).count _ _) (put _))

theorem timebase : aside c (d.timebase p nat) := (h.putRaw p nat true _).setStream p nat _

theorem putRecord (marker : Bool) (b : List Nat) : aside c (d.putRecord p nat marker b) := by
  unfold Chip.putRecord
  refine ite h ?_
  have based := ite (p := ((d.drainStream p nat).stream p nat).high ≠ (d.drainStream p nat).now >>> 44 ∨
    65536 ≤ ((d.drainStream p nat).stream p nat).sinceBase) ((h.drainStream p nat).timebase p nat) (h.drainStream p nat)
  simp only
  split
  · refine ite (based.putRaw p nat marker b) (ite ((based.putRaw p nat marker b).setStream p nat _) ?_)
    exact ((based.putRaw p nat marker b).putRaw p nat true _).setStream p nat _
  · exact based.putRaw p nat marker b

theorem endDrop : aside c (d.endDrop p nat) := by
  unfold Chip.endDrop
  simp only
  split
  · exact h
  · exact (((h.setStream p nat _).putRaw p nat true _).count _ _).timebase p nat

theorem triggerStream (tail : Nat) : aside c (d.triggerStream p nat tail) := by
  have dropped := ((h.drainStream p nat).endDrop p nat).putRecord p nat true
    (traceRec ((d.drainStream p nat).endDrop p nat).now 5 0 p tail)
  unfold Chip.triggerStream
  exact ite h (ite ((ite (dropped.putRaw p nat true _) dropped).setStream p nat _) dropped)

omit nat in
theorem traceMarker (kind unit rest : Nat) : aside c (d.traceMarker p kind unit rest) := by
  unfold Chip.traceMarker
  exact (h.putRecord p true true _).putRecord p false true _

omit nat in
theorem triggerCore (src job layer op : Nat) : aside c (d.triggerCore p src job layer op).1 := by
  unfold Chip.triggerCore
  split
  · exact h
  · split
    · have marked := (h.triggerStream p true (traceTail src 0 job layer op)).triggerStream p false (traceTail src 0 job layer op)
      exact ite (emit (setReg (setReg (marked.count _ _) _ _ _ _) _ _ _ _) _) (setReg (setReg (marked.count _ _) _ _ _ _) _ _ _ _)
    · exact h.count _ _
    · exact h.count _ _
    · exact h

omit nat in
theorem suspend (why : Nat) : aside c (d.suspend p why) := by
  have marked := ite (p := (d.part p).trace.suspended = 0) (h.traceMarker p 6 0 (traceTail (2 * why) 0 0 0 0)) h
  unfold Chip.suspend
  refine ite (setReg (marked.modPart p fun _ => ?_) _ _ _ _) (marked.modPart p fun _ => ?_)
  all_goals rfl

omit nat in
theorem unsuspend (why : Nat) : aside c (d.unsuspend p why) := by
  have ended : ∀ left, aside c (d.modPart p fun s => { s with trace := { s.trace with suspended := left } }) := fun left =>
    h.modPart p fun _ => rfl
  unfold Chip.unsuspend
  exact ite h (ite (ended _) (traceMarker (ite ((ended _).setReg _ _ _ _) (ended _)) p _ _ _))

end

/-! Hen -/

theorem henPublish (next : Nat) : aside c (d.henPublish next) := h

theorem henRing (x : HenRec) : aside c (d.henRing x) := by
  unfold Chip.henRing
  refine ite (h.count _ _) ?_
  have stored := (h.modHen fun g => { g with ring := henDrop d.henFree x.units d.hen.ring ++ [(d.reg .HEN_NEXT, x)] }).henPublish
    ((d.reg .HEN_NEXT + x.units) % henUnits)
  cases x with
  | fixed r => exact stored.count _ _
  | var => exact (stored.modHen _).count _ _

theorem henStore (src : Nat) (r : FixedRec) : aside c (henFixed.store d src r) := by
  unfold henFixed.store
  exact ite (count (henPublish (modHen (h.modHen _) _) _) _ _) ((h.modHen _).henRing _)

theorem henFixed (src code part : Nat) (params : List Nat) (hidden : Bool) : aside c (d.henFixed src code part params hidden) := by
  have taken := h.modHen fun g => { g with queue := g.queue.drop (64 * (d.now / 1000 - g.queueAt)), queueAt := d.now / 1000 }
  unfold Chip.henFixed
  refine ite ((taken.count _ _).modHen _) ?_
  have queued := taken.modHen fun g => { g with queue := g.queue ++ [src] }
  simp only
  split
  · exact ite ((queued.modHen _).count _ _) (queued.henStore _ _)
  · exact queued.henStore _ _

theorem henPart (p code : Nat) (params : List Nat) (hidden : Bool) : aside c (d.henPart p code params hidden) := by
  have recorded := h.henFixed p code p params hidden
  have triggered := recorded.triggerCore p 3 0 0 0
  unfold Chip.henPart
  exact ite (ite (triggered.henFixed p 0x1802 p [3] false) triggered) recorded

end

end aside

/-- Either branch has the same slices. -/
theorem slices_ite {x : Prop} [Decidable x] {c d : Chip} {l : List Slice} (hc : c.slices = l) (hd : d.slices = l) :
    (if x then c else d).slices = l := by
  split
  · exact hc
  · exact hd

/-- What every step of a series leaves as it is, the whole series does. -/
theorem foldl_keeps {α β : Type} (f : Chip → β) {g : Chip → α → Chip} (h : ∀ c x, f (g c x) = f c) (l : List α) (c : Chip) :
    f (l.foldl g c) = f c := by
  induction l generalizing c with
  | nil => rfl
  | cons x r ih => exact (ih (g c x)).trans (h c x)

theorem henCtx_slices (c : Chip) (x p code : Nat) (params : List Nat) : (c.henCtx x p code params).slices = c.slices :=
  ((aside.refl c).henPart p code params _).slices

/-! Completion -/

theorem writeHost_slices (port : Nat) (l : List Nat) : ∀ (c : Chip) (a : Nat), (c.writeHost port a l).slices = c.slices := by
  induction l with
  | nil => exact fun _ _ => rfl
  | cons v r ih => exact fun c a => ih (c.setHostByte port a v) (a + 1)

theorem msix_slices (c : Chip) (port fn vector : Nat) : (c.msix port fn vector).slices = c.slices := by
  unfold msix
  exact slices_ite rfl (slices_ite rfl rfl)

theorem msixPage_slices (c : Chip) (g : Page) (inst : Nat) : (c.msixPage g inst).slices = c.slices := by
  have sent : ∀ v (l : List Nat), (l.foldl (fun c port => c.msix port 0 v) c).slices = c.slices := fun v l =>
    foldl_keeps slices (fun c port => c.msix_slices port 0 v) l c
  unfold msixPage
  simp only
  split
  · exact sent _ _
  · exact sent _ _
  · rfl

theorem raise_slices (c : Chip) (g : Page) (inst b : Nat) : (c.raise g inst b).slices = c.slices := by
  have latched : ∀ x y : Nat, (if b = 31 then c.setReg .COMMON_CQ_WRITTEN inst g.ctorIdx x
      else c.setReg .COMMON_INT_STATUS inst g.ctorIdx y).slices = c.slices := fun _ _ => slices_ite rfl rfl
  unfold raise
  exact slices_ite ((msixPage_slices _ g inst).trans (latched _ _)) (latched _ _)

theorem raiseCtx_slices (c : Chip) (x p b : Nat) : (c.raiseCtx x p b).slices = c.slices := by
  have sent : ∀ d : Chip, (d.msixCtx x p).slices = d.slices := fun d => by
    unfold msixCtx
    exact slices_ite (slices_ite (d.msix_slices _ _ _) (d.msix_slices _ _ _)) rfl
  unfold raiseCtx
  exact slices_ite (sent _) rfl

theorem raiseDone_slices (c : Chip) (i : QId) (d : Desc) : (c.raiseDone i d).slices = c.slices := by
  unfold raiseDone
  refine slices_ite ?_ rfl
  cases i with
  | compute x p => exact c.raiseCtx_slices x p 0
  | mule x p => exact c.raiseCtx_slices x p 1
  | _ => exact c.raise_slices _ _ 31

theorem countFor_slices (c : Chip) (x : Nat) (r : Reg) (inst n idx : Nat) : (c.countFor x r inst n idx).slices = c.slices := by
  unfold countFor
  exact slices_ite rfl rfl

theorem countDone_slices (c : Chip) (i : QId) (status : Nat) : (c.countDone i status).slices = c.slices := by
  have counted : ∀ (x k : Nat) (r r' : Reg), (if status = 1 then (c.countFor x r k 1).countFor x r' k 1 else c.countFor x r k 1).slices =
      c.slices := fun x k r r' =>
    slices_ite ((countFor_slices _ _ _ _ _ _).trans (countFor_slices _ _ _ _ _ _)) (countFor_slices _ _ _ _ _ _)
  cases i with
  | compute x p => exact counted _ _ _ _
  | mule x p => exact counted _ _ _ _
  | _ => rfl

theorem setQ_slices (c : Chip) (i : QId) (f : QField) (v : Nat) : (c.setQ i f v).slices = c.slices := by
  unfold setQ
  exact slices_ite rfl rfl

theorem fetch_slices (i : QId) (n : Nat) : ∀ c : Chip, (c.fetch i n).slices = c.slices := by
  induction n with
  | zero => exact fun _ => rfl
  | succ n ih =>
    intro c
    have one : (c.fetchOne i).slices = c.slices := by
      unfold fetchOne
      exact (setQ_slices _ _ _ _).trans (setQ_slices _ _ _ _)
    unfold fetch
    exact slices_ite ((ih _).trans one) rfl

theorem completeCore_slices (c : Chip) (x p k seq : Nat) (bytes : Nat → List Nat) : (c.completeCore x p k seq bytes).slices = c.slices := by
  have put : ∀ (d : Chip) (first off : Nat) (b : List Nat), (d.putData p first off b).slices = d.slices := fun d first off b => by
    unfold putData
    refine foldl_keeps slices (fun _ _ => ?_) _ d
    rfl
  unfold completeCore
  exact (put _ _ _ _).trans (slices_ite rfl rfl)

theorem completeFw_slices (c : Chip) (x p job tag status : Nat) : (c.completeFw x p job tag status).slices = c.slices := by
  unfold completeFw
  split
  · rfl
  · split
    · rfl
    · exact slices_ite ((henCtx_slices _ _ _ _ _).trans (countFor_slices _ _ _ _ _ _)) rfl

theorem completeDesc_slices (c : Chip) (i : QId) (d : Desc) (status detail : Nat) :
    (c.completeDesc i d status detail).slices = c.slices := by
  have ended : ∀ (f : Chip) (l : List Cmd), ({ f.countDone i status with cmds := l } : Chip).slices = f.slices := fun f _ =>
    f.countDone_slices i status
  unfold completeDesc
  refine (fetch_slices i _ _).trans (slices_ite ((setQ_slices _ _ _ _).trans ((ended _ _).trans ?_)) ((ended _ _).trans ?_))
  all_goals
    refine slices_ite ?_ (slices_ite rfl ?_)
    · cases i with
      | core x p k y => exact completeCore_slices c _ _ _ _ _
      | fw x p job => exact completeFw_slices c _ _ _ _ _
      | _ => rfl
    · refine (raiseDone_slices _ i d).trans ((setQ_slices _ _ _ _).trans (slices_ite ?_ ?_))
      all_goals exact writeHost_slices _ _ c _

theorem complete_slices (c : Chip) (i : QId) (tag status detail : Nat) : (c.complete i tag status detail).slices = c.slices := by
  unfold complete
  split
  · exact c.completeDesc_slices _ _ _ _
  · rfl

theorem completeAll_slices (c : Chip) (l : List (QId × Nat)) (status detail : Nat) : (c.completeAll l status detail).slices = c.slices := by
  unfold completeAll
  exact foldl_keeps slices (fun c k => c.complete_slices k.1 k.2 status detail) l c

/-! Residency ends -/

theorem zeroHost_slices (c : Chip) (port a n : Nat) : (c.zeroHost port a n).slices = c.slices := rfl

theorem scrub_slices (c : Chip) (x p : Nat) : (c.scrub x p).slices = c.slices := by
  unfold scrub
  split
  · rfl
  · simp only [countFor_slices, modCtx_slices, setReg_slices, modPart_slices, clearCtxWork]

theorem publishConf_aside (c : Chip) : aside c c.publishConf := by
  unfold publishConf
  refine aside.foldl (fun d i => ?_) _ c
  have shown := fun v w => ((aside.refl d).setReg .CONTEXT_CONF_RESIDENT i 0 v).setReg .CONTEXT_DEBUG_LOCK i 0 w
  exact aside.ite (shown _ _) ((shown _ _).setReg _ _ _ _)

theorem confChanged_aside (c : Chip) (p : Nat) (was : Bool) : aside c (c.confChanged p was) := by
  have shown := c.publishConf_aside
  unfold confChanged
  exact aside.ite (shown.suspend p 1) (aside.ite (shown.unsuspend p 1) shown)

theorem endResidency_slices (c : Chip) (x p : Nat) : (c.endResidency x p).slices = c.slices := by
  have left : ∀ f : Ctx → Ctx, (if c.isConf x then { c.modCtx x f with confReleased := (c.modCtx x f).now } else c.modCtx x f).slices =
      c.slices := fun f => slices_ite rfl rfl
  have cleared : ∀ d : Chip, ((d.publishMemory p).clearBlock x p).slices = d.slices := fun d => by
    simp only [clearBlock, modPart_slices, zeroHost_slices, publishMemory, setReg_slices]
  unfold endResidency
  rw [cleared, (confChanged_aside _ _ _).slices, left]

/-! A transaction opens -/

theorem dealUnit_slices (c : Chip) (p : Nat) (u : WorkUnit) : (c.dealUnit p u).slices = c.slices := by
  unfold dealUnit
  dsimp only
  split
  · exact slices_ite (modPart_slices _ _ _) rfl
  · rfl

theorem lendNow_slices (c : Chip) (p : Nat) : (c.lendNow p).slices = c.slices := by
  have clamped : ∀ v w : Nat, (c.clamped .LOOPS 0 v w).slices = c.slices := fun v w => by
    unfold clamped
    exact ((aside.refl (c.count .LOOPS_CLAMPS).drawn.drawn).henFixed _ _ _ _ _).slices
  have floored : ∀ v w : Nat, (if c.reg .ROUTE_ROUTE_GROUPS p < c.reg .LOOPS_LEND_FLOOR then c.clamped .LOOPS 0 v w else c).slices =
      c.slices := fun v w => slices_ite (clamped v w) rfl
  unfold lendNow
  dsimp only
  rw [setReg_slices]
  exact slices_ite (floored _ _) ((countN_slices _ _ _ _ _).trans (floored _ _))

theorem startGenerate_slices (c : Chip) (p : Nat) : (c.startGenerate p).slices = c.slices := by
  obtain ⟨f, g, -, -, eq⟩ := c.startGenerate_eq p
  have dealt : ∀ d : Chip, (d.redealLent p).slices = d.slices := fun d => by
    unfold redealLent
    dsimp only
    rw [publishEngines, setReg_slices, foldl_keeps slices fun c u => c.dealUnit_slices p u, modEngines, modPart_slices]
  rw [eq, dealt, modTxn, modPart_slices, lendNow_slices, dropTxnAsks, modPart_slices, setReg_slices, modTxn, modPart_slices]

theorem openZone_slices (c : Chip) (p : Nat) (r : TxnReq) (domain refused : Bool) (e : Nat) :
    (c.openZone p r domain refused e).slices = c.slices := by
  have recorded : ∀ d : Chip, (d.henAny p 0x3201).slices = d.slices := fun d => by
    unfold henAny
    exact henCtx_slices _ _ _ _ _
  rw [openZone_eq, startGenerate_slices, recorded]
  unfold opened
  exact slices_ite (countN_slices _ _ _ _ _) rfl

end Chip

end Sys2Proof.Machine
end

section
/-! SUPPORT. What the operations that slices share leave of them: a slice that changes, a stage that begins at the other G9s, a transaction that is
asked for, the undoing of an admission and what it gives back (R129, R157, R158). -/

namespace Sys2Proof.Machine

open Sys2Proof

/-- The first element that passes, after the elements that pass have changed into ones that pass. -/
theorem find?_mapIf_map {α : Type} {p : α → Bool} {f : α → α} (pass : ∀ x, p x = true → p (f x) = true) (l : List α) :
    (mapIf p f l).find? p = (l.find? p).map f := by
  induction l with
  | nil => rfl
  | cons x r ih =>
    unfold mapIf at ih
    cases hx : p x with
    | true => simp [mapIf, hx, pass x hx]
    | false => simpa [mapIf, hx] using ih

/-- The elements that do not pass, after those that pass have changed into ones that pass. -/
theorem filter_not_mapIf {α : Type} {p : α → Bool} {f : α → α} (pass : ∀ x, p x = true → p (f x) = true) (l : List α) :
    ((mapIf p f l).filter fun x => !p x) = l.filter fun x => !p x := by
  induction l with
  | nil => rfl
  | cons x r ih =>
    unfold mapIf at ih
    cases hx : p x with
    | true => simp [mapIf, hx, pass x hx, ih]
    | false => simp [mapIf, hx, ih]

namespace Chip

/-! A slice changes -/

theorem sliceOf_num {c : Chip} {n : Nat} {y : Slice} (found : c.sliceOf n = some y) : y.num = n := by
  have named := List.find?_some (p := fun z : Slice => decide (z.num = n)) found
  exact of_decide_eq_true named

theorem sliceOf_congr {c d : Chip} (h : d.slices = c.slices) (n : Nat) : d.sliceOf n = c.sliceOf n := by
  rw [sliceOf, h, ← sliceOf]

theorem sliceOf_modSlice (c : Chip) {n : Nat} {f : Slice → Slice} (num : ∀ y, y.num = n → (f y).num = n) :
    (c.modSlice n f).sliceOf n = (c.sliceOf n).map f :=
  find?_mapIf_map (p := fun z : Slice => decide (z.num = n)) (fun y hy => decide_eq_true (num y (of_decide_eq_true hy))) c.slices

/-- A change that an observation does not see. -/
theorem map_modSlice {β : Type} (h : Slice → β) (c : Chip) (n : Nat) {f : Slice → Slice} (blind : ∀ y, h (f y) = h y) :
    (c.modSlice n f).slices.map h = c.slices.map h := by
  unfold modSlice mapIf
  rw [List.map_map]
  refine List.map_congr_left fun y _ => ?_
  simp only [Function.comp_apply]
  split
  · exact blind y
  · rfl

/-! A stage begins at the other G9s -/

theorem stageFar_awaits {c : Chip} {n : Nat} {y : Slice} (stage : Nat) (found : c.sliceOf n = some y) (own : y.master = none) :
    ∃ o, c.stageFar n stage = { c.modSlice n fun z => { z with waits := c.farG9s z } with out := o } := by
  have told := foldl_peerOut_out y.coordinator (fun _ g => leadOf g) "SLICE" [stage, n, y.leadPod, y.hopLimit, y.firstFrame] (c.farG9s y)
    (c.modSlice n fun z => { z with waits := c.farG9s z })
  simp only [stageFar, found, own, Option.isSome_none, Bool.false_eq_true, if_false, if_true]
  exact told

theorem stageFar_slices (c : Chip) (n stage : Nat) : (c.stageFar n stage false).slices = c.slices := by
  unfold stageFar
  split
  · rfl
  · refine slices_ite rfl ?_
    exact (aside.foldl (fun d g => (aside.refl d).peerOut _ _ _ _) _ _).slices

theorem sliceOf_stageFar {c : Chip} {n : Nat} {y : Slice} (stage : Nat) (found : c.sliceOf n = some y) (own : y.master = none) :
    (c.stageFar n stage).sliceOf n = some { y with waits := c.farG9s y } := by
  obtain ⟨o, eq⟩ := stageFar_awaits stage found own
  rw [eq]
  refine (c.sliceOf_modSlice (f := fun z => { z with waits := c.farG9s z }) fun _ h => h).trans ?_
  rw [found, Option.map_some]

/-! A transaction for a slice -/

/-- The outcome of a slice's transaction reaches the slice, unless its next one waits. -/
theorem txnReport_slices (c : Chip) {r : TxnReq} {n : Nat} (st : Nat) (cmd : r.cmd = none) (run : r.afterRun = false)
    (slice : r.slice = some n) : (c.txnReport r st).slices = c.slices ∨
      (c.txnReport r st).slices = (c.modSlice n fun y => { y with txnStatus := some st }).slices := by
  simp only [txnReport, cmd, run, slice, completeOpt, Bool.false_eq_true, if_false]
  split
  · exact .inl rfl
  · exact .inr rfl

theorem openTxn_slices (c : Chip) (lead : Nat) {r : TxnReq} {n : Nat} (auto : r.auto = false) (cmd : r.cmd = none)
    (run : r.afterRun = false) (slice : r.slice = some n) : (c.openTxn lead r).slices = c.slices ∨
      ∃ st, (c.openTxn lead r).slices = (c.modSlice n fun y => { y with txnStatus := some st }).slices := by
  have told : ∀ zs st, (c.txnReport { r with zones := zs } st).slices = c.slices ∨
      ∃ st', (c.txnReport { r with zones := zs } st).slices = (c.modSlice n fun y => { y with txnStatus := some st' }).slices := fun zs st =>
    (c.txnReport_slices (r := { r with zones := zs }) st cmd run slice).imp_right fun same => ⟨st, same⟩
  unfold openTxn
  simp only [auto, Bool.false_eq_true, if_false]
  split
  · exact told _ _
  · split
    · exact told _ _
    · refine .inl (slices_ite rfl ?_)
      split
      · exact openZone_slices _ _ _ _ _ _
      · exact foldl_keeps slices (fun d z => d.openZone_slices z _ _ _ _) _ _

/-- A slice's transaction changes nothing of the slices but what that slice knows of it. -/
theorem sliceTxn_slices (c : Chip) (n : Nat) (zones : List Nat) :
    ∃ st, (c.sliceTxn n zones).slices = (c.modSlice n fun y => { y with txnWanted := true, txnStatus := st }).slices := by
  have twice : ∀ st, ((c.modSlice n fun y => { y with txnWanted := true, txnStatus := none }).modSlice n
      fun y => { y with txnStatus := st }).slices = (c.modSlice n fun y => { y with txnWanted := true, txnStatus := st }).slices := by
    intro st
    simp only [modSlice, mapIf, List.map_map]
    refine List.map_congr_left fun y _ => ?_
    by_cases hy : y.num = n <;> simp [hy]
  have opened : ∀ lead, ∃ st, ((c.modSlice n fun y => { y with txnWanted := true, txnStatus := none }).openTxn lead
      { zones := zones, classes := some 0, slice := some n }).slices =
        (c.modSlice n fun y => { y with txnWanted := true, txnStatus := st }).slices := fun lead => by
    rcases openTxn_slices (c.modSlice n fun y => { y with txnWanted := true, txnStatus := none }) lead (n := n)
      (r := { zones := zones, classes := some 0, slice := some n }) rfl rfl rfl rfl with same | ⟨st, told⟩
    · exact ⟨none, same⟩
    · exact ⟨some st, told.trans (twice _)⟩
  unfold sliceTxn
  simp only
  split
  · exact ⟨some 0x00, twice _⟩
  · exact opened _

theorem sliceOf_sliceTxn {c : Chip} {n : Nat} {y : Slice} (zones : List Nat) (found : c.sliceOf n = some y) :
    ∃ st, (c.sliceTxn n zones).sliceOf n = some { y with txnWanted := true, txnStatus := st } := by
  obtain ⟨st, slices⟩ := c.sliceTxn_slices n zones
  refine ⟨st, (sliceOf_congr slices n).trans ?_⟩
  refine (c.sliceOf_modSlice (f := fun z => { z with txnWanted := true, txnStatus := st }) fun _ h => h).trans ?_
  rw [found, Option.map_some]

/-! Undoing -/

/-- A slice whose admission is undone. -/
def undone (y : Slice) (status reason detail : Nat) : Slice :=
  { y with undo := true, failedAt := y.stage, status := status, reason := reason, detail := detail, failure := none, waits := [] }

theorem sliceOf_undone {c : Chip} {n : Nat} {y : Slice} (status reason detail : Nat) (found : c.sliceOf n = some y) :
    (c.modSlice n fun _ => undone y status reason detail).sliceOf n = some (undone y status reason detail) := by
  have num := sliceOf_num found
  refine (c.sliceOf_modSlice (f := fun _ => undone y status reason detail) fun _ _ => num).trans ?_
  rw [found, Option.map_some]

theorem sliceOf_undoJoins {c : Chip} {n : Nat} {y : Slice} (found : c.sliceOf n = some y) :
    ∃ st, (c.undoJoins n).sliceOf n = some { y with undo := true, stage := 3, txnWanted := true, txnStatus := st } := by
  have begun := c.sliceOf_modSlice (n := n) (f := fun z => { z with undo := true, stage := 3 }) fun _ h => h
  rw [found, Option.map_some] at begun
  simp only [undoJoins, found]
  exact sliceOf_sliceTxn _ begun

/-- An admission that fails in TRAIN keeps its reason while its joins go dark. -/
theorem undo_train {c : Chip} {n : Nat} {y : Slice} (status reason detail : Nat) (found : c.sliceOf n = some y) (stage : y.stage = 4)
    (going : y.undo = false) (own : y.master = none) :
    ∃ z, (c.undo n status reason detail).sliceOf n = some z ∧
      (z.undo, z.failedAt, z.status, z.reason, z.detail) = (true, 4, status, reason, detail) := by
  have far := sliceOf_stageFar 9 (sliceOf_undone status reason detail found) (own : (undone y status reason detail).master = none)
  have eq : c.undo n status reason detail =
      ((c.modSlice n fun _ => undone y status reason detail).stageFar n 9).undoJoins n := by
    simp only [undo, found, going, own, stage, undone, Option.isSome_none, Bool.or_self, Bool.false_eq_true, if_false,
      show ¬ 5 ≤ 4 by decide, show 3 ≤ 4 by decide, if_true]
  obtain ⟨st, dark⟩ := sliceOf_undoJoins far
  rw [eq]
  exact ⟨_, dark, by simp only [undone, stage]⟩

/-! What is given back -/

/-- Number, job and state of a slice. -/
def heading (z : Slice) : Nat × Nat × Nat := (z.num, z.job, z.state)

theorem dropCircuits_slices (c : Chip) (s : Slice) : (c.dropCircuits s).slices = c.slices := by
  unfold dropCircuits
  extract_lets side
  have dropped : ∀ (d : Chip) (plane pod port : Nat), (side d plane pod port).slices = d.slices := by
    intro d plane pod port
    simp only [side]
    split <;> rfl
  exact foldl_keeps slices (fun d x => (dropped _ _ _ _).trans (dropped d _ _ _)) _ c

theorem admitFailed_slices (c : Chip) (s : Slice) (stage status : Nat) : (c.admitFailed s stage status).slices = c.slices := by
  have told : ∀ (d : Chip) (b : List Nat), (d.tellOutcome s status b).slices = d.slices := fun d b => by
    unfold tellOutcome
    split
    · exact ((aside.refl d).peerOut _ _ _ _).slices
    · rw [completeAll_slices, writeHost_slices]
  unfold admitFailed
  rw [told, henCtx_slices]

theorem freeNumber_slices (c : Chip) (p n : Nat) : (c.freeNumber p n).slices = c.slices := by
  unfold freeNumber
  exact slices_ite rfl ((aside.refl c).peerOut _ _ _ _).slices

/-- The slice is gone, and the others are the slices that they were. -/
theorem releaseSlice_headings (c : Chip) (s : Slice) :
    (c.releaseSlice s).slices.map heading = (c.slices.filter fun z => z.num ≠ s.num).map heading := by
  have others : ∀ l : List Slice, (l.filter fun z => z.num ≠ s.num).map heading = (l.map heading).filter fun e => e.1 ≠ s.num := fun l => by
    rw [List.filter_map]
    rfl
  have freed : ∀ d : Chip, (if s.master.isSome || 4095 < s.num then d else d.freeNumber s.coordinator s.num).slices = d.slices :=
    fun d => slices_ite rfl (d.freeNumber_slices _ _)
  unfold releaseSlice
  simp only
  rw [others, freed, others]
  refine congrArg (List.filter _) (foldl_keeps (fun d : Chip => d.slices.map heading) (fun d p => ?_) _ c)
  split
  · exact map_modSlice heading d _ fun _ => rfl
  · rw [endResidency_slices, scrub_slices]

theorem undoEnd_headings (c : Chip) (s : Slice) :
    (c.undoEnd s).slices.map heading = (c.slices.filter fun z => z.num ≠ s.num).map heading := by
  rw [undoEnd, releaseSlice_headings, admitFailed_slices, dropCircuits_slices, stageFar_slices]

/-- An admission that fails in RESERVE leaves nothing behind. -/
theorem undo_reserve {c : Chip} {n : Nat} {y : Slice} (status reason detail : Nat) (found : c.sliceOf n = some y) (stage : y.stage = 2)
    (going : y.undo = false) (own : y.master = none) :
    (c.undo n status reason detail).slices.map heading = (c.slices.filter fun z => z.num ≠ n).map heading := by
  have num := sliceOf_num found
  have eq : c.undo n status reason detail =
      (c.modSlice n fun _ => undone y status reason detail).undoEnd (undone y status reason detail) := by
    simp only [undo, found, going, own, stage, undone, Option.isSome_none, Bool.or_self, Bool.false_eq_true, if_false,
      show ¬ 5 ≤ 2 by decide, show ¬ 3 ≤ 2 by decide]
  have others := filter_not_mapIf (p := fun z : Slice => decide (z.num = n)) (f := fun _ => undone y status reason detail)
    (fun _ _ => decide_eq_true num) c.slices
  simp only [← decide_not] at others
  rw [eq, undoEnd_headings, show (undone y status reason detail).num = n from num]
  exact congrArg (List.map heading) others

end Chip

end Sys2Proof.Machine
end

section
/-! SUPPORT. Residency begins in the zones of a slice: where one share fits, the shares given in other partitions leave it room (R309, R328, R364). -/

namespace Sys2Proof.SMap

/-- What an observation of the entries shows, after a write that it does not see. -/
theorem mem_filterMap_insert {α β : Type} {g : α → Option β} {d v : α} {m : SMap α} {k : Nat} (unseen : g v = g (get d m k))
    (empty : g d = none) (b : β) : b ∈ (insert m k v).filterMap (fun e => g e.2) ↔ b ∈ m.filterMap fun e => g e.2 := by
  have listed : ∀ m : SMap α, g (get d m k) = some b → b ∈ m.filterMap fun e => g e.2 := by
    intro m
    induction m with
    | nil => simp [get, empty]
    | cons e r ih =>
      obtain ⟨a, w⟩ := e
      by_cases same : a = k
      · simp only [get, find?, same, if_true, Option.getD_some, List.mem_filterMap]
        exact fun h => ⟨_, List.mem_cons_self, h⟩
      · simp only [get, find?, same, if_false] at ih ⊢
        intro h
        simp only [List.filterMap_cons]
        split
        · exact ih h
        · exact List.mem_cons_of_mem _ (ih h)
  have front : ∀ r : SMap α, b ∈ ((k, v) :: r : SMap α).filterMap (fun e => g e.2) ↔ g v = some b ∨ b ∈ r.filterMap fun e => g e.2 := by
    intro r
    simp only [List.mem_filterMap, List.mem_cons, exists_eq_or_imp]
  induction m with
  | nil =>
    rw [insert, front, unseen, get_nil, empty]
    simp
  | cons e r ih =>
    obtain ⟨a, w⟩ := e
    unfold insert
    split
    · rw [front, unseen]
      exact or_iff_right_of_imp (listed _)
    · split
      · next same =>
        subst same
        rw [front, unseen]
        simp [get, find?, List.mem_filterMap]
      · next _ other =>
        simp only [get, find?, Ne.symm other, if_false] at unseen ih
        simp only [List.mem_filterMap, List.mem_cons, exists_eq_or_imp] at ih ⊢
        exact or_congr_right (ih unseen)

end Sys2Proof.SMap

namespace Sys2Proof.Machine

open Sys2Proof

theorem mem_insertFirst {α : Type} (le : α → α → Bool) (x y : α) (l : List α) : y ∈ sortBy.insertFirst le x l ↔ y = x ∨ y ∈ l := by
  induction l with
  | nil => simp [sortBy.insertFirst]
  | cons z r ih =>
    unfold sortBy.insertFirst
    split
    · rw [List.mem_cons]
    · rw [List.mem_cons, ih, List.mem_cons]
      tauto

theorem mem_sortBy {α : Type} (le : α → α → Bool) (y : α) (l : List α) : y ∈ sortBy le l ↔ y ∈ l := by
  induction l with
  | nil => rfl
  | cons x r ih => rw [sortBy, mem_insertFirst, ih, List.mem_cons]

/-- A place for a run exists by what runs there are, in whatever order and however often they are listed. -/
theorem firstFit_isSome_congr {l r : List (Nat × Nat)} (same : ∀ e, e ∈ l ↔ e ∈ r) (lo hi n : Nat) :
    (firstFit l lo hi n).isSome = (firstFit r lo hi n).isSome := by
  have fits : ∀ m : List (Nat × Nat), (firstFit m lo hi n).isSome = true ↔
      ∃ s, (s = lo ∨ ∃ e ∈ m, e.1 + e.2 = s) ∧ lo ≤ s ∧ s + n ≤ hi ∧ ∀ e ∈ m, s + n ≤ e.1 ∨ e.1 + e.2 ≤ s := by
    intro m
    simp only [firstFit, List.find?_isSome, mem_sortBy, List.mem_cons, List.mem_map, Bool.and_eq_true, decide_eq_true_eq, List.all_eq_true,
      Bool.or_eq_true, and_assoc]
  rw [Bool.eq_iff_iff, fits, fits]
  simp only [same]

namespace Chip

/-! Room for a share -/

theorem fitShare_isSome (c : Chip) (p sram lp : Nat) : (c.fitShare p sram lp).isSome =
    ((firstFit (c.sramRuns p) 0 (c.sramTop p) (512 * sram)).isSome && (firstFit (c.lpRuns p) lpBase 0x2F8000 (512 * lp)).isSome) := by
  unfold fitShare
  cases firstFit (c.sramRuns p) 0 (c.sramTop p) (512 * sram) with
  | none => rfl
  | some a =>
    cases firstFit (c.lpRuns p) lpBase 0x2F8000 (512 * lp) with
    | none => rfl
    | some b => rfl

theorem fitShare_isSome_congr {c d : Chip} {p : Nat} (shares : ∀ s, s ∈ d.sharesIn p ↔ s ∈ c.sharesIn p) (top : d.sramTop p = c.sramTop p)
    (spill : (d.part p).trace.spill = (c.part p).trace.spill) (sram lp : Nat) :
    (d.fitShare p sram lp).isSome = (c.fitShare p sram lp).isSome := by
  have sramRuns : ∀ e, e ∈ d.sramRuns p ↔ e ∈ c.sramRuns p := by
    intro e
    simp only [Chip.sramRuns, List.mem_map, shares]
  have lpRuns : ∀ e, e ∈ d.lpRuns p ↔ e ∈ c.lpRuns p := by
    intro e
    simp only [Chip.lpRuns, List.mem_append, List.mem_map, shares, spill]
  rw [fitShare_isSome, fitShare_isSome, top, firstFit_isSome_congr sramRuns, firstFit_isSome_congr lpRuns]

/-- A context that changes without a change of its share in a partition. -/
theorem mem_sharesIn_modCtx (c : Chip) {x p : Nat} {f : Ctx → Ctx} (kept : SMap.find? (f (c.ctx x)).shares p = SMap.find? (c.ctx x).shares p)
    (held : (f (c.ctx x)).shares ≠ []) (s : Share) : s ∈ (c.modCtx x f).sharesIn p ↔ s ∈ c.sharesIn p := by
  have listed : f (c.ctx x) ≠ {} := fun h => held (congrArg Ctx.shares h)
  simp only [sharesIn, modCtx, SMap.set, if_neg listed]
  exact SMap.mem_filterMap_insert (g := fun k : Ctx => SMap.find? k.shares p) (d := {}) kept rfl s

/-! What leaves room for a share -/

/-- Slices, contexts and spill regions are as before, and so is the top of the SRAM that every partition leaves to contexts. -/
def roomSame (c d : Chip) : Prop := aside c d ∧ ∀ q < 4096, d.sramTop q = c.sramTop q

/-- A register that bounds the SRAM left to contexts. -/
def topReg (r : Reg) : Bool := r == .MEMORY_DEVICE_SRAM || r == .SCHED_XMAP_LIMIT

namespace roomSame

theorem refl (c : Chip) : roomSame c c := ⟨aside.refl c, fun _ _ => rfl⟩

theorem trans {c d f : Chip} (h : roomSame c d) (k : roomSame d f) : roomSame c f := by
  obtain ⟨kept, top⟩ := h
  obtain ⟨kept', top'⟩ := k
  exact ⟨kept.trans kept', fun q hq => (top' q hq).trans (top q hq)⟩

section
variable {c d : Chip} (h : roomSame c d)
include h

theorem fitShare {p : Nat} (hp : p < 4096) (sram lp : Nat) : (d.fitShare p sram lp).isSome = (c.fitShare p sram lp).isSome := by
  obtain ⟨⟨-, ctxs, spill⟩, top⟩ := h
  exact fitShare_isSome_congr (fun s => by rw [sharesIn, ctxs, ← sharesIn]) (top p hp) (spill p) sram lp

theorem ite {x : Prop} [Decidable x] {f : Chip} (k : roomSame c f) : roomSame c (if x then d else f) := by
  split
  · exact h
  · exact k

theorem setReg {r : Reg} {i : Nat} (x v : Nat) (other : topReg r = false) (hi : i < 4096) (hx : x < 64) : roomSame c (d.setReg r i x v) := by
  rw [topReg, Bool.or_eq_false_iff, beq_eq_false_iff_ne, beq_eq_false_iff_ne] at other
  obtain ⟨sram, limit⟩ := other
  refine h.trans ⟨(aside.refl d).setReg r i x v, fun q hq => ?_⟩
  rw [sramTop, reg_setReg_far d v sram hi hq hx (by decide), reg_setReg_far d v limit hi hq hx (by decide), ← sramTop]

theorem modPart (p : Nat) {f : Part → Part} (keeps : ∀ x, (f x).trace.spill = x.trace.spill) : roomSame c (d.modPart p f) :=
  h.trans ⟨(aside.refl d).modPart p keeps, fun _ _ => rfl⟩

theorem onAgent (u : UnitId) (f : AC → AC) : roomSame c (d.onAgent u f) := h

/-- What is recorded leaves the room. -/
theorem logs {f : Chip} (k : logsBut d f) (kept : aside d f) : roomSame c f := by
  obtain ⟨-, regs⟩ := k
  refine h.trans ⟨kept, fun q hq => ?_⟩
  rw [sramTop, regs .MEMORY_DEVICE_SRAM q rfl hq, regs .SCHED_XMAP_LIMIT q rfl hq, ← sramTop]

variable {p : Nat} (hp : p < 4096)
include hp

theorem traceMarker (kind unit rest : Nat) : roomSame c (d.traceMarker p kind unit rest) := by
  have logged : logsBut d (d.traceMarker p kind unit rest) := by
    unfold Chip.traceMarker
    exact ((logsBut.refl d).putRecord hp true true _).putRecord hp false true _
  exact h.logs logged ((aside.refl d).traceMarker p kind unit rest)

theorem suspend (why : Nat) : roomSame c (d.suspend p why) := by
  have marked := ite (x := (d.part p).trace.suspended = 0) (h.traceMarker hp 6 0 (traceTail (2 * why) 0 0 0 0)) h
  unfold Chip.suspend
  refine ite (setReg (marked.modPart p fun _ => ?_) 0 4 rfl hp (by decide)) (marked.modPart p fun _ => ?_)
  all_goals rfl

theorem unsuspend (why : Nat) : roomSame c (d.unsuspend p why) := by
  have ended : ∀ left, roomSame c (d.modPart p fun s => { s with trace := { s.trace with suspended := left } }) := fun left =>
    h.modPart p fun _ => rfl
  unfold Chip.unsuspend
  exact ite h (ite (ended _) (traceMarker (ite ((ended _).setReg 0 _ rfl hp (by decide)) (ended _)) hp _ _ _))

theorem confChanged (was : Bool) : roomSame c (d.confChanged p was) := by
  have page : ∀ f : Chip, roomSame c f → ∀ i < 2, ∀ n lock, roomSame c
      (if n = 0 then (f.setReg .CONTEXT_CONF_RESIDENT i 0 n).setReg .CONTEXT_DEBUG_LOCK i 0 lock
        else ((f.setReg .CONTEXT_CONF_RESIDENT i 0 n).setReg .CONTEXT_DEBUG_LOCK i 0 lock).setReg .CONTEXT_COARSE i 0 1) := by
    intro f k i hi n lock
    have shown := (k.setReg (r := .CONTEXT_CONF_RESIDENT) (i := i) 0 n rfl (by omega) (by decide)).setReg (r := .CONTEXT_DEBUG_LOCK) (i := i)
      0 lock rfl (by omega) (by decide)
    exact ite shown (shown.setReg 0 1 rfl (by omega) (by decide))
  have shown : roomSame c d.publishConf := page _ (page d h 0 (by decide) _ _) 1 (by decide) _ _
  unfold Chip.confChanged
  exact ite (shown.suspend hp 1) (ite (shown.unsuspend hp 1) shown)

theorem publishMemory : roomSame c (d.publishMemory p) := by
  unfold Chip.publishMemory
  exact (h.setReg 0 _ rfl hp (by decide)).setReg 0 _ rfl hp (by decide)

theorem rekey : roomSame c ((d.rekeyPart p).rekeyPeer p) := by
  unfold Chip.rekeyPart rekeyPeer
  refine onAgent (setReg (setReg (setReg (setReg (h.modPart p fun _ => ?_) 0 _ rfl hp (by decide)) 0 _ rfl hp (by decide)) 0 _ rfl hp
    (by decide)) 0 _ rfl hp (by decide)) _ _
  rfl

end

end roomSame

/-! Residency begins -/

section
variable {c : Chip} {p : Nat} (hp : p < 4096) (x sram lp : Nat)
include hp

/-- The context's new share is all that the room of other partitions sees of its residency. -/
theorem makeResident_share {s : Share} (fits : c.fitShare p sram lp = some s) :
    ∃ d f, roomSame c d ∧ (∀ k, (f k).shares = SMap.insert k.shares p s) ∧ roomSame (d.modCtx x f) (c.makeResident x p sram lp) := by
  have keyed := roomSame.ite (x := 1 + x ∈ (c.part p).link.revoked) ((roomSame.refl c).rekey hp) (roomSame.refl c)
  unfold makeResident
  simp only [fits]
  refine ⟨_, _, keyed.modPart p ?blind, ?share, roomSame.publishMemory (roomSame.confChanged (roomSame.refl _) hp _) hp⟩
  case blind => exact fun _ => rfl
  case share => exact fun _ => rfl

theorem makeResident_slices : (c.makeResident x p sram lp).slices = c.slices := by
  cases fits : c.fitShare p sram lp with
  | none => simp only [makeResident, fits]
  | some s =>
    obtain ⟨d, f, ⟨before, -⟩, -, after, -⟩ := makeResident_share hp x sram lp fits
    rw [after.slices, modCtx_slices, before.slices]

/-- The context is resident where it was, and in the partition where a share fits. -/
theorem residentIn_makeResident (q : Nat) :
    (c.makeResident x p sram lp).residentIn x q = (c.residentIn x q || (p = q && (c.fitShare p sram lp).isSome)) := by
  cases fits : c.fitShare p sram lp with
  | none => simp [makeResident, fits]
  | some s =>
    obtain ⟨d, f, ⟨before, -⟩, shares, after, -⟩ := makeResident_share hp x sram lp fits
    rw [after.residentIn, ← before.residentIn]
    simp only [residentIn, ctx_modCtx_same, shares, SMap.find?_insert]
    by_cases same : p = q <;> simp [same]

theorem fitShare_makeResident_other {q : Nat} (hq : q < 4096) (other : p ≠ q) (sram' lp' : Nat) :
    ((c.makeResident x p sram lp).fitShare q sram' lp').isSome = (c.fitShare q sram' lp').isSome := by
  cases fits : c.fitShare p sram lp with
  | none => simp only [makeResident, fits]
  | some s =>
    obtain ⟨d, f, before, shares, after⟩ := makeResident_share hp x sram lp fits
    rw [after.fitShare hq, ← before.fitShare hq]
    refine fitShare_isSome_congr (mem_sharesIn_modCtx d ?_ ?_) ?_ ?_ _ _
    · rw [shares, SMap.find?_insert, if_neg other]
    · rw [shares]
      intro none_
      have found := SMap.find?_insert (d.ctx x).shares p p s
      rw [none_, if_pos rfl] at found
      cases found
    · rfl
    · rfl

end

/-- A context is resident in every partition of a list where it was or where a share fits. -/
theorem foldl_makeResident_resident (x sram lp : Nat) {q : Nat} (hq : q < 4096) (l : List Nat) : ∀ c : Chip, (∀ p ∈ l, p < 4096) →
    (c.residentIn x q = true ∨ q ∈ l ∧ (c.fitShare q sram lp).isSome = true) →
    (l.foldl (fun c p => c.makeResident x p sram lp) c).residentIn x q = true := by
  induction l with
  | nil =>
    rintro c - (there | ⟨listed, -⟩)
    · exact there
    · cases listed
  | cons p r ih =>
    intro c small start
    have hp := small p List.mem_cons_self
    refine ih _ (fun y hy => small y (List.mem_cons_of_mem p hy)) ?_
    rw [residentIn_makeResident hp]
    rcases start with there | ⟨listed, fits⟩
    · exact .inl (by rw [there, Bool.true_or])
    · by_cases same : p = q
      · subst same
        exact .inl (by simp [fits])
      · rw [fitShare_makeResident_other hp x sram lp hq same, fits]
        exact .inr ⟨(List.mem_cons.1 listed).resolve_left fun h => same h.symm, rfl⟩

end Chip

end Sys2Proof.Machine
end

section
/-! SUPPORT. ADMIT reserves a slice here or goes on to the manager's lead (R156, R157, R162, R164). -/

namespace Sys2Proof.Machine

open Sys2Proof

namespace Chip

/-! RESERVE -/

theorem sliceZones_lt {c : Chip} {s : Slice} {z : Nat} (member : z ∈ c.sliceZones s) : z < 16 := by
  unfold sliceZones at member
  rw [mem_sortBy, List.mem_eraseDups, List.mem_filterMap] at member
  obtain ⟨pod, -, zone⟩ := member
  unfold partOfPod at zone
  split at zone
  · cases zone
    omega
  · cases zone

/-- What stands of a slice from RESERVE on: number, job, context, stage and the commands that wait for it. -/
def held (z : Slice) : (Nat × Nat × Nat × Nat) × List (QId × Nat) := ((z.num, z.job, z.ctx, z.stage), z.cmds)

theorem foldl_makeResident_slices (x sram lp : Nat) (l : List Nat) : ∀ c : Chip, (∀ p ∈ l, p < 4096) →
    (l.foldl (fun c p => c.makeResident x p sram lp) c).slices = c.slices := by
  induction l with
  | nil => exact fun _ _ => rfl
  | cons p r ih =>
    exact fun c small => (ih _ fun y hy => small y (List.mem_cons_of_mem p hy)).trans
      (makeResident_slices (small p List.mem_cons_self) x sram lp)

/-- The zones where a slice begins its context's residency are partitions of the block. -/
theorem newZones_lt (c : Chip) (s : Slice) : ∀ z ∈ (c.sliceZones s).filter fun z => !c.residentIn s.ctx z, z < 4096 := fun z hz => by
  have small := sliceZones_lt (List.mem_of_mem_filter hz)
  omega

theorem hold_held (c : Chip) (s : Slice) : (c.hold s).slices.map held = c.slices.map held ++ [held { s with stage := 2 }] := by
  have kept := foldl_makeResident_slices s.ctx 1 64 _ c (c.newZones_lt s)
  unfold hold
  simp only [List.map_append, kept]
  rfl

/-- The context is resident in every zone of the slice where it was or where a share fits. -/
theorem hold_resident {c : Chip} {s : Slice} {z : Nat} (member : z ∈ c.sliceZones s)
    (room : c.residentIn s.ctx z = true ∨ (c.fitShare z 1 64).isSome = true) : (c.hold s).residentIn s.ctx z = true := by
  have small := sliceZones_lt member
  refine foldl_makeResident_resident s.ctx 1 64 (by omega) _ c (c.newZones_lt s) ?_
  cases there : c.residentIn s.ctx z with
  | true => exact .inl rfl
  | false =>
    rw [there] at room
    exact .inr ⟨List.mem_filter.2 ⟨member, by simp [there]⟩, room.resolve_left (by decide)⟩

/-- The requests to the other G9s change nothing of the slices but what they wait for. -/
theorem reserveFar_held (c : Chip) (n : Nat) :
    (c.reserveFar n).slices.map held = c.slices.map held ∧ ∀ x z, (c.reserveFar n).residentIn x z = c.residentIn x z := by
  unfold reserveFar
  split
  · exact ⟨rfl, fun _ _ => rfl⟩
  · next y _ =>
    have asked := aside.foldl (g := fun (d : Chip) g => d.sliceAsk y.coordinator (leadOf g) n (reserveArgs y))
      (fun d g => (aside.refl d).sliceAsk _ _ _ _) (c.farG9s y) (c.modSlice n fun z => { z with waits := c.farG9s z })
    exact ⟨(congrArg (List.map held) asked.slices).trans (map_modSlice held c n fun _ => rfl), asked.residentIn⟩

/-- RESERVE goes on at the other G9s, or waits for a number of the manager: the slices stand as they were held. -/
theorem reserveOn_held (f : Chip) (n p job : Nat) (g : Chip) (eq : g = if f.isManager then f.reserveFar n
      else (f.modSlice n fun y => { y with waits := [f.mgr] }).sliceAsk p f.mgrFid n [0, n, job]) :
    g.slices.map held = f.slices.map held ∧ ∀ x z, g.residentIn x z = f.residentIn x z := by
  rw [eq]
  split
  · exact f.reserveFar_held n
  · have asked := (aside.refl (f.modSlice n fun y => { y with waits := [f.mgr] })).sliceAsk p f.mgrFid n [0, n, job]
    exact ⟨(congrArg (List.map held) asked.slices).trans (map_modSlice held f n fun _ => rfl), asked.residentIn⟩

/-- RESERVE at the manager: the slice stands with the lowest free number, and its context is resident wherever there is room. -/
theorem reserve_held {c : Chip} (s : Slice) (want : Nat) (manages : c.isManager = true) :
    (c.reserve s want).slices.map held = c.slices.map held ++
        [(((lowestNum (c.slices.map (fun x => x.num) ++ c.sliceNums.map fun e => e.1)).getD 1, s.job, s.ctx, 2), s.cmds)] ∧
      ∀ z ∈ c.sliceZones s, (c.residentIn s.ctx z = true ∨ (c.fitShare z 1 64).isSome = true) →
        (c.reserve s want).residentIn s.ctx z = true := by
  unfold reserve
  extract_lets n pod y f
  have num : n = (lowestNum (c.slices.map (fun x => x.num) ++ c.sliceNums.map fun e => e.1)).getD 1 := if_pos manages
  obtain ⟨slices, resident⟩ := reserveOn_held f n y.coordinator y.job _ rfl
  refine ⟨slices.trans ((c.hold_held _).trans ?_), fun z member room => (resident _ _).trans ?_⟩
  · rw [← num]
    rfl
  · exact hold_resident (s := { y with hopLimit := c.hopApplied y }) member room

/-- An admission that nothing speaks against finds room for its context in every zone. -/
theorem room_of_admitFails {c : Chip} {s : Slice} {port : Option Nat} (passes : c.admitFails s port = []) {z : Nat}
    (member : z ∈ c.sliceZones s) : c.residentIn s.ctx z = true ∨ (c.fitShare z 1 64).isSome = true := by
  have accepted : c.ctxRefused s = false := by
    simp only [admitFails, List.append_eq_nil_iff] at passes
    obtain ⟨⟨⟨⟨-, refused⟩, -⟩, -⟩, -⟩ := passes
    cases h : c.ctxRefused s with
    | false => rfl
    | true => simp [h] at refused
  have listed : (c.sliceZones s).isEmpty = false := by
    rw [List.isEmpty_eq_false_iff]
    exact List.ne_nil_of_mem member
  simp only [ctxRefused, listed, Bool.not_false, Bool.true_and, Bool.or_eq_false_iff, List.any_eq_false] at accepted
  obtain ⟨-, zones⟩ := accepted
  have one := zones z member
  simp only [residencyRefused, Bool.and_eq_true, Bool.or_eq_true, not_and, not_or, Bool.not_eq_true', Bool.not_eq_true] at one
  cases there : c.residentIn s.ctx z with
  | true => exact .inl rfl
  | false =>
    obtain ⟨⟨-, fits⟩, -⟩ := one there
    exact .inr (by simpa using fits)

/-! ADMIT -/

/-- CHECK and RESERVE of a slice whose zones are at rest and that nothing speaks against. -/
theorem admitRun_reserves {c : Chip} {s : Slice} {port : Option Nat} (want : Nat)
    (rest : ((c.sliceZones s).any fun z => (c.part z).txn.isSome || (c.part z).topo.run.isSome || (c.part z).restarting) = false)
    (passes : c.admitFails s port = []) : c.admitRun s port want = (c.reserve s want, true) := by
  simp only [admitRun, rest, passes, Bool.false_eq_true, if_false, List.map_nil, List.find?_nil]

section
variable {c : Chip} {p : Nat} {d : Desc} {b : List Nat} {y : Slice} (lead : c.leadPart = p)
  (read : c.hostBytes (c.queuePort (.route p)) (d.at 0x10 8) (d.at 0x18 4) = b)
  (fresh : (c.part p).forwards.contains ((.route p : QId), d.tag) = false) (known : (sliceReqOf b).kinds.any (· = 3) = false)
  (asked : c.sliceAsked p b = y) (good : c.badRequest (sliceReqOf b) (d.at 0x18 4) (d.at 0x28 4) y = false)
include lead read fresh known asked good

/-- A sound request for a box of this cluster is checked and reserved here; a worker hands one for a pod of another G9 to the manager. -/
theorem admitSlice_sound : ∃ s t, s = { y with cmds := [(.route p, d.tag)], resultAddr := d.at 0x20 8, startAt := t } ∧
    c.admitSlice p d.tag d = if !c.isManager && (y.pods c.grid).any fun pod => pod / 16 ≠ c.clusterIndex then
        if c.unowned y (c.queuePort (.route p)) then c.admitFailed s 1 0x08
        else (c.modPart p fun x => { x with forwards := x.forwards ++ [(.route p, d.tag)] }).peerOut p c.mgrFid "ADMIT"
          ([d.tag, d.at 0x28 4] ++ b)
      else (c.admitRun s (some (c.queuePort (.route p))) (sliceReqOf b).leadPod).1 := by
  subst read asked
  unfold admitSlice
  extract_lets i port b r fetched asked s f
  have plain : f = c := if_neg (by rw [show r.kinds.any (· = 3) = false from known]; decide)
  refine ⟨s, fetched, rfl, ?_⟩
  rw [if_neg (not_not.2 lead.symm), plain, if_neg (by rw [show (c.part p).forwards.contains (i, d.tag) = false from fresh]; decide),
    if_neg (by rw [show c.badRequest r (d.at 0x18 4) (d.at 0x28 4) s = false from good]; decide)]
  rfl

/-- A sound request for zones at rest that nothing speaks against is reserved here. -/
theorem admitSlice_reserves (here : (!c.isManager && (y.pods c.grid).any fun pod => pod / 16 ≠ c.clusterIndex) = false)
    (rest : ((c.sliceZones y).any fun z => (c.part z).txn.isSome || (c.part z).topo.run.isSome || (c.part z).restarting) = false)
    (passes : c.admitFails y (some (c.queuePort (.route p))) = []) :
    ∃ t, c.admitSlice p d.tag d =
      c.reserve { y with cmds := [(.route p, d.tag)], resultAddr := d.at 0x20 8, startAt := t } (sliceReqOf b).leadPod := by
  obtain ⟨s, t, same, sound⟩ := admitSlice_sound lead read fresh known asked good
  have resting : ((c.sliceZones s).any fun z => (c.part z).txn.isSome || (c.part z).topo.run.isSome || (c.part z).restarting) = false := by
    rw [same]
    exact rest
  have clear : c.admitFails s (some (c.queuePort (.route p))) = [] := by
    rw [same]
    exact passes
  refine ⟨t, ?_⟩
  rw [sound, if_neg (by rw [here]; decide), admitRun_reserves _ resting clear, same]

/-- A worker hands a sound request for a pod of another G9 to the manager. -/
theorem admitSlice_forwards (works : c.isManager = false) (far : ((y.pods c.grid).any fun pod => pod / 16 ≠ c.clusterIndex) = true)
    (owned : c.unowned y (c.queuePort (.route p)) = false) :
    c.admitSlice p d.tag d = (c.modPart p fun x => { x with forwards := x.forwards ++ [(.route p, d.tag)] }).peerOut p c.mgrFid "ADMIT"
      ([d.tag, d.at 0x28 4] ++ b) := by
  obtain ⟨s, t, -, sound⟩ := admitSlice_sound lead read fresh known asked good
  rw [sound, if_pos (by rw [works, far]; rfl), if_neg (by rw [owned]; decide)]

end

/-- A command that starts changes nothing of what an admission fails for. -/
theorem admitFails_begun (c : Chip) (x : Cmd) (s : Slice) (port : Option Nat) : (c.begun x).admitFails s port = c.admitFails s port := by
  have link : ∀ plane axis a b n held, (c.begun x).linkCircuits plane axis a b n held = c.linkCircuits plane axis a b n held := by
    intro plane axis a b n
    induction n with
    | zero => exact fun _ => rfl
    | succ n ih =>
      intro held
      simp only [linkCircuits, ih]
      rfl
  have picked : (c.begun x).pickCircuits s = c.pickCircuits s := by
    simp only [pickCircuits, link]
    rfl
  unfold admitFails
  rw [picked]
  rfl

end Chip

end Sys2Proof.Machine
end

section
/-! SUPPORT. The statement about admission: the stages go on, and what fails in time is undone (R157 to R159). -/

namespace Sys2Proof.Machine

open Sys2Proof

namespace Chip

/-- LIGHT has ended well everywhere: the other G9s and this one begin TRAIN. -/
theorem admitNext_train {c : Chip} {n : Nat} (delays : List Nat) {y : Slice} (found : c.sliceOf n = some y) (serves : c.sliceOut y = none)
    (fine : y.failure = none) (own : y.master = none) (ended : y.waits = []) (state : y.state = 0) (going : y.undo = false)
    (stage : y.stage = 3) (wanted : y.txnWanted = true) (good : y.txnStatus = some 0x00) :
    (c.admitNext n delays).sliceOf n =
      some { y with stage := 4, state := 1, txnWanted := false, stageAt := c.now, waits := c.farG9s y } := by
  have far : c.farEnded y = true := by simp [farEnded, ended]
  have eq : c.admitNext n delays = (c.stageFar n 4).beginTrain n := by
    simp [admitNext, found, serves, fine, own, state, going, stage, wanted, good, far, txnGood]
  obtain ⟨o, awaits⟩ := stageFar_awaits 4 found own
  have now : (c.stageFar n 4).now = c.now := by
    rw [awaits]
    rfl
  have trained := (c.stageFar n 4).sliceOf_modSlice (n := n)
    (f := fun z => { z with stage := 4, state := 1, txnWanted := false, stageAt := (c.stageFar n 4).now }) fun _ h => h
  rw [eq]
  refine trained.trans ?_
  rw [sliceOf_stageFar 4 found own, Option.map_some, now]

theorem reserveExpiry_undo {c : Chip} {n : Nat} {y : Slice} (found : c.sliceOf n = some y) (stage : y.stage = 2) (going : y.undo = false)
    (own : y.master = none) (late : y.reservedAt + 1000000000 ≤ c.now) : c.reserveExpiry n = c.undo n 0x01 0 0 := by
  simp [reserveExpiry, found, stage, going, own, late]

theorem trainTimeout_undo {c : Chip} {n i : Nat} {y : Slice} {k : Circuit} (found : c.sliceOf n = some y) (circuit : y.circuits[i]? = some k)
    (stage : y.stage = 4) (going : y.undo = false) (own : y.master = none) (late : y.startAt + 252000000 ≤ c.now) :
    c.trainTimeout n i = c.undo n 0x0B 4 k.portA := by
  have passed : ¬ c.now < y.startAt + (if (y.pods c.grid).all fun pod => pod / 16 = c.clusterIndex then 237000000 else 252000000) := by
    split <;> omega
  simp only [trainTimeout, found, circuit, stage, going, own, passed, ne_eq, not_true_eq_false, decide_false, Bool.or_self, Bool.false_eq_true,
    if_false]

theorem outcomePoll_asks {c : Chip} {p n : Nat} {y : Slice} (found : c.sliceOf n = some y) (open_ : y.state ≠ 2) (far : p ≠ y.coordinator)
    (own : y.master = none) : c.outcomePoll p n = c.peerOut p (c.partFid y.coordinator) "OUTCOME" [n] := by
  simp [outcomePoll, found, open_, far, own]

/-- A notice leaves on the lanes of a control port that is up, unless the block is under a default blob. -/
theorem peerOut_up {c : Chip} {p dst : Nat} (kind : String) (args : List Nat) (up : (c.part p).portDown = false)
    (blob : c.reg .BOOT_BLOB_DEFAULTED ≠ 1) : c.peerOut p dst kind args = c.emit (.peer p dst kind args) := by
  simp [peerOut, up, blob]

/-- A notice to a partition of the same G9 leaves on the sender's own lanes. -/
theorem peerOut_own {c : Chip} {p q : Nat} (kind : String) (args : List Nat) (hq : q < 16) (up : (c.part p).portDown = false) :
    c.peerOut p (c.partFid q) kind args = c.emit (.peer p (c.partFid q) kind args) := by
  have own : (c.partOfFid (c.partFid q)).isNone = false := by
    unfold partOfFid
    rw [if_pos (by unfold partFid; omega)]
    rfl
  simp [peerOut, up, own]

end Chip

/-- Settles O30: ADMIT here is CHECK and RESERVE (`admitSlice_sound`), after which the slice stands and its context is resident wherever
there was room (`reserve_held`, `room_of_admitFails`); a stage that ends goes on (`admitNext_train`), and one that fails is undone
(`undo_reserve`, `undo_train`). -/
theorem sliceAdmission : Obligations.SliceAdmission := by
  unfold Obligations.SliceAdmission
  refine ⟨?reserve, ?forward, ?train, ?expiry, ?untrained, ?poll⟩
  case reserve =>
    intro t p d x y b s runs lead read fresh manages known asked good near rest passes
    have run := State.chip_run_runCmd runs (e := { d with opcode := 0x50 }) rfl rfl fun c => c.admitSlice p d.tag d
    have clear := (Chip.admitFails_begun (s.found t) x y (some ((s.found t).queuePort (.route p)))).trans passes
    obtain ⟨at_, reserves⟩ := Chip.admitSlice_reserves (c := (s.found t).begun x) lead read fresh known asked good
      (by rw [show ((s.found t).begun x).isManager = true from manages]; rfl) rest clear
    obtain ⟨slices, resident⟩ := Chip.reserve_held (c := (s.found t).begun x)
      { y with cmds := [(.route p, d.tag)], resultAddr := d.at 0x20 8, startAt := at_ } (sliceReqOf b).leadPod manages
    rw [← reserves, ← run] at slices resident
    have firsts := congrArg (List.map Prod.fst) slices
    have seconds := congrArg (List.map Prod.snd) slices
    simp only [List.map_append, List.map_map] at firsts seconds
    exact ⟨_, rfl, firsts, seconds, fun q hq => resident q hq (Chip.room_of_admitFails clear hq)⟩
  case forward =>
    intro t p d x y b s runs lead read fresh works known asked good far owned up blob
    have run := State.chip_run_runCmd runs (e := { d with opcode := 0x50 }) rfl rfl fun c => c.admitSlice p d.tag d
    rw [Chip.admitSlice_forwards (c := (s.found t).begun x) lead read fresh known asked good works far owned, Chip.peerOut_up] at run
    · refine ⟨_, rfl, ?_, ?_, (congrArg Chip.slices run).trans rfl⟩
      · rw [run]
        exact List.mem_cons_self
      · rw [run, Chip.emit_get_part, Chip.part_modPart_same]
        rfl
    · rw [Chip.part_modPart_same]
      exact up
    · exact blob
  case train =>
    intro t n delays y s found serves fine own ended state going stage wanted good
    exact ⟨_, rfl, Chip.admitNext_train (c := s.found t) delays found serves fine own ended state going stage wanted good⟩
  case expiry =>
    intro t n y s found stage going _ own late
    have run : (s.run t fun c => c.reserveExpiry n).chip = (s.found t).undo n 0x01 0 0 :=
      Chip.reserveExpiry_undo (c := s.found t) found stage going own late
    have left := Chip.undo_reserve (c := s.found t) 0x01 0 0 found stage going own
    rw [← run] at left
    exact ⟨_, rfl, left⟩
  case untrained =>
    intro t n i y k s found circuit stage going own late
    have run : (s.run t fun c => c.trainTimeout n i).chip = (s.found t).undo n 0x0B 4 k.portA :=
      Chip.trainTimeout_undo (c := s.found t) found circuit stage going own late
    obtain ⟨z, there, fields⟩ := Chip.undo_train (c := s.found t) 0x0B 4 k.portA found stage going own
    rw [← run] at there
    refine ⟨_, rfl, ?_⟩
    rw [there, Option.map_some]
    exact congrArg some fields
  case poll =>
    intro t p n y s alive found open_ far small own up
    have run := State.chip_run_atPart t (fun c => c.outcomePoll p n) alive
    rw [Chip.outcomePoll_asks (c := s.chip.started t) found open_ far own, Chip.peerOut_own (c := s.chip.started t) _ _ small up] at run
    exact ⟨_, rfl, congrArg Chip.out run, (congrArg Chip.slices run).trans rfl⟩

end Sys2Proof.Machine
end

section
/-! SUPPORT. The state that refutes the statement about the life of a slice: a command that came through a port that no G9 has. -/

namespace Sys2Proof.Machine

open Sys2Proof

/-- A port that no G9 has: the key of its LINK_UP is that of the count of Hen's fixed records. -/
def strayRolePort : Nat := 872448

/-- MOVE_LEAD of slice 0 to pod 0. -/
def roleDesc : Desc := { opcode := 0x53 }

/-- This command, fetched through the stray port. -/
def roleCmd : Cmd := { q := .route 0, d := roleDesc, port := some strayRolePort }

/-- A slice of pod 0 alone. -/
def roleSlice : Slice :=
  { num := 0, job := 0, ctx := 0, order := 0, origin := [0, 0, 0], kinds := [0, 0, 0], extents := [1, 1, 1], width := 0, width15 := 0,
    endpoints := [], windowFrames := 1, firstFrame := 0, startAt := 0, coordinator := 0 }

/-- A block with that slice and one record in Hen: the stray port reads as up. -/
def roleState : State :=
  { chip := { regs := { vals := [(Reg.key .HEN_RECORDS_FIXED 0 0, 1)] }, hostPorts := [(strayRolePort, { busMaster := true })],
              slices := [roleSlice], cmds := [roleCmd], cmdSeq := 1 } }

/-- Event 0x3305 makes the count of records 2, so that the port reads as down when the completion record is due, and the record is lost. -/
theorem roleState_record_lost :
    ¬ roleState.recorded (roleState.run 0 fun c => c.runCmd (.route 0) roleDesc fun c => c.moveLead 0 0 roleDesc) 0 (.route 0) roleCmd
      0x00 0 := by
  decide +kernel

/-- Refutes O31, in its clause about MOVE_LEAD: no premise bounds the port through which the command came. LINK_UP of port 872,448 and the
count of Hen's fixed records are one register; the event of the moved lead role counts there, and the completion record is lost. -/
theorem not_sliceLife : ¬ Obligations.SliceLife := by
  unfold Obligations.SliceLife
  rintro ⟨-, -, -, -, moves⟩
  obtain ⟨s', ran, -, recorded⟩ := moves 0 0 roleDesc roleCmd roleSlice roleState (by decide +kernel) (by decide +kernel)
    (by decide +kernel) (by decide +kernel)
  cases ran
  exact roleState_record_lost recorded

end Sys2Proof.Machine
end

section
/-! SUPPORT. The states that refute the statements about the commands of the cluster and about resets of units: a port that no G9 has, and a
context number that no queue has. -/

namespace Sys2Proof.Machine

open Sys2Proof

/-! A command of the cluster of a stray port (O36) -/

/-- A port that no G9 has: the key of its LINK_UP is that of the first counter of the counter sets of partition 0. -/
def eventPort : Nat := 552960

/-- SCAN of a tensor without rows, whose entry is the first of the tensor table. -/
def scanDesc : Desc := { opcode := 0x16, ops := 0xFFFF * 2 ^ 80 }

/-- This command, fetched through the stray port. -/
def scanCmd : Cmd := { q := .compute 0 0, d := scanDesc, port := some eventPort }

/-- The tile of the tensor table: an entry of format INT32 with no rows. -/
def scanTable : Tile := ({ ctx := 0, format := 0x22, shape := 0x7FF, data := [(8, 7)] } : Tile).sealed

/-- Context 0 in partition 0 with that table. Counter set 0 counts commands and has counted one: the stray port reads as up. -/
def scanState : State :=
  { chip := { regs := { vals := [(Reg.key .MIOBOR_TTAB_TILES 0 0, 1), (Reg.key .MIOBOR_TTAB_VALID 0 0, 1), (Reg.key .PCOUNTERS_EN 0 0, 1),
                                 (Reg.key .PCOUNTERS_EV 0 0, 1), (Reg.key .PCOUNTERS_COUNT 0 0, 1)] }
              hostPorts := [(eventPort, { busMaster := true })]
              ctxs := [(0, { state := 2, shares := [(0, { sramFirst := 0, sramTiles := 64, lpFirst := 0x100000, lpTiles := 64 })] })]
              parts := [(0, { tiles := [(0, scanTable)] })]
              cmds := [scanCmd], cmdSeq := 1 } }

/-- What SCAN does here: it reads no tile of a tensor and writes none. -/
def emptyScan : MJob := { reads := [[]], outs := [{ t := { first := 0, gen := 0, format := 7, rows := 0, cols := 0, meta_ := 0 }, rows := [] }] }

theorem scanState_clusterFree : scanState.clusterFree 0 0 0 scanDesc scanCmd := by decide +kernel

theorem scanState_computes : scanState.computes 0 0 scanDesc emptyScan := by decide +kernel

/-- The command is counted before its record is due: the port then reads as down, and the record is lost. -/
theorem scanState_record_lost :
    ¬ scanState.recorded (scanState.run 0 fun c => c.miobor (.compute 0 0) { scanDesc with opcode := 0x16 }) 0 (.compute 0 0) scanCmd 0x00 0 := by
  decide +kernel

/-- Refutes O36, in its clause about SCAN: no premise bounds the port through which the command came. LINK_UP of port 552,960 and the first
counter of the counter sets of partition 0 are one register; the set counts the command, and the completion record is lost. -/
theorem not_clusterCommands : ¬ Obligations.ClusterCommands := by
  unfold Obligations.ClusterCommands
  rintro ⟨-, -, -, -, -, -, scans, -⟩
  obtain ⟨s', ran, -, recorded⟩ := scans 0 0 0 scanDesc scanCmd emptyScan scanState rfl rfl scanState_clusterFree scanState_computes
  cases ran
  exact scanState_record_lost recorded

/-! A command of a stray context (O50) -/

/-- The compute queue of context 43,008, which no G9 has, in partition 0: the key of its COMPUTE_DONE is that of MIOBOR_RESETS. -/
def strayCompute : QId := .compute 43008 0

/-- A command of the cluster fetched from that queue. -/
def abortedState : State :=
  { chip := { cmds := [{ q := strayCompute, d := { opcode := 0x16 } }], cmdSeq := 1 } }

/-- The command that the reset ends counts as done, and with it as a reset. -/
theorem abortedState_resets :
    (abortedState.run 0 fun c => c.atPart 0 fun c => c.mioReset 0 (some 1)).reg .PARTITION_MIOBOR_RESETS 0 = 2 := by
  decide +kernel

/-- Refutes O50, in its clause about MIOBOR_RESET: no premise bounds the queues of the commands that the reset ends. COMPUTE_DONE of context
43,008 and MIOBOR_RESETS of partition 0 are one register, so that one reset with one command of that context counts twice. -/
theorem not_hangsAndUnitResets : ¬ Obligations.HangsAndUnitResets := by
  unfold Obligations.HangsAndUnitResets
  rintro ⟨-, -, -, -, -, -, resets, -⟩
  obtain ⟨s', ran, -, -, -, counted⟩ := resets 0 0 false abortedState (by decide +kernel)
  cases ran
  exact absurd (abortedState_resets.symm.trans counted) (by decide +kernel)

end Sys2Proof.Machine
end

section
/-! SUPPORT. Windows of a job (R173, R179): what a window shows of its vectors and of its gather point, and the work that leaves it as it is. -/

namespace Sys2Proof.Machine

open Sys2Proof

/-- What is seen of a window: its vectors and their step, whether it has been gathered, the sources missing, and whether it is closed. -/
abbrev Win.Seen := List Vector × Option Nat × Bool × List Nat × Bool

/-- What is seen of a window. -/
def Win.seen (x : Win) : Win.Seen := (x.vectors, x.step, x.gathered, x.missing, x.closed)

/-- A change of a window keeps its place, its frame and whether it is the lead's. -/
def Win.stays (f : Win → Win) : Prop := ∀ x, (f x).frame = x.frame ∧ (f x).lead = x.lead

/-- A change of a window that does not show. -/
def Win.quiet (f : Win → Win) : Prop := Win.stays f ∧ ∀ x, (f x).seen = x.seen

/-- Settings and identity of a partition from which a window's mode, its times and its endpoints follow (R179, R187, R202). -/
def windowReg (r : Reg) : Bool :=
  [Reg.SCHED_SPEC_DEFAULT, .SCHED_ORDERED_DEFAULT, .SCHED_SPILL_DEFAULT, .SCHED_LIST_LEAD, .SCHED_DELIVERY_ALLOW, .SCHED_ORDERED_ALLOW,
   .DEVICE_CLUSTER_INDEX].contains r

namespace Job

variable (j : Job)

theorem win_frame (w : Nat) (lead : Bool) : (j.win w lead).frame = w := by
  unfold win
  cases found : j.wins.find? fun x => x.frame = w && x.lead = lead with
  | none => rfl
  | some x =>
    have placed := List.find?_some found
    simp only [Bool.and_eq_true, decide_eq_true_eq] at placed
    exact placed.1

theorem win_lead (w : Nat) (lead : Bool) : (j.win w lead).lead = lead := by
  unfold win
  cases found : j.wins.find? fun x => x.frame = w && x.lead = lead with
  | none => rfl
  | some x =>
    have placed := List.find?_some found
    simp only [Bool.and_eq_true, decide_eq_true_eq] at placed
    exact placed.2

/-- The window that was put back is the one found at its place. -/
theorem win_setWin_same (x : Win) : (j.setWin x).win x.frame x.lead = x := by
  have others : (j.wins.filter fun y => !(y.frame = x.frame && y.lead = x.lead)).find? (fun y => y.frame = x.frame && y.lead = x.lead) = none := by
    rw [List.find?_eq_none]
    intro y member placed
    rw [List.mem_filter, placed] at member
    exact Bool.noConfusion member.2
  unfold win setWin
  rw [List.find?_append, others, Option.none_or]
  simp

/-- Windows at other places are as before. -/
theorem win_setWin_other {x : Win} {w : Nat} {lead : Bool} (other : ¬(x.frame = w ∧ x.lead = lead)) : (j.setWin x).win w lead = j.win w lead := by
  have kept : (fun y : Win => decide ((!(decide (y.frame = x.frame) && decide (y.lead = x.lead))) = true ∧
      (decide (y.frame = w) && decide (y.lead = lead)) = true)) = fun y => decide (y.frame = w) && decide (y.lead = lead) := by
    funext y
    by_cases placed : y.frame = w ∧ y.lead = lead
    · obtain ⟨rfl, rfl⟩ := placed
      have apart : (decide (y.frame = x.frame) && decide (y.lead = x.lead)) = false := by
        rw [← Bool.decide_and, decide_eq_false_iff_not]
        exact fun same => other ⟨same.1.symm, same.2.symm⟩
      simp [apart]
    · have elsewhere : (decide (y.frame = w) && decide (y.lead = lead)) = false := by
        rw [← Bool.decide_and, decide_eq_false_iff_not]
        exact placed
      simp [elsewhere]
  have last : [x].find? (fun y => decide (y.frame = w) && decide (y.lead = lead)) = none := by
    rw [List.find?_singleton, ← Bool.decide_and, decide_eq_false other]
    rfl
  unfold win setWin
  rw [List.find?_append, List.find?_filter, kept, last, Option.or_none]
  rfl

/-- A window that is changed is the one found at its place. -/
theorem win_setWin_noted {f : Win → Win} {w : Nat} {lead : Bool} (now : Nat) (stays : Win.stays f) :
    (j.setWin ((f (j.win w lead)).noted now)).win w lead = (f (j.win w lead)).noted now := by
  obtain ⟨frame, isLead⟩ := stays (j.win w lead)
  rw [j.win_frame] at frame
  rw [j.win_lead] at isLead
  have put := j.win_setWin_same ((f (j.win w lead)).noted now)
  rw [show ((f (j.win w lead)).noted now).frame = w from frame, show ((f (j.win w lead)).noted now).lead = lead from isLead] at put
  exact put

end Job

theorem Win.noted_items (x : Win) (now : Nat) : (x.noted now).items = x.items := rfl

theorem Win.noted_seen (x : Win) (now : Nat) : (x.noted now).seen = x.seen := rfl

/-- A change of one window leaves a window at another place, and where it does not show leaves what is seen of every window. -/
theorem Job.seen_setWin (j : Job) {f : Win → Win} {w w' : Nat} {lead' : Bool} (now : Nat) (quiet : Win.stays f)
    (same : w' = w → lead' = false → (f (j.win w false)).seen = (j.win w false).seen) :
    ((j.setWin ((f (j.win w' lead')).noted now)).win w false).seen = (j.win w false).seen := by
  obtain ⟨frame, lead⟩ := quiet (j.win w' lead')
  rw [j.win_frame] at frame
  rw [j.win_lead] at lead
  by_cases here : w' = w ∧ lead' = false
  · obtain ⟨rfl, rfl⟩ := here
    rw [j.win_setWin_noted now quiet, Win.noted_seen, same rfl rfl]
  · rw [j.win_setWin_other (x := (f (j.win w' lead')).noted now) fun there => here ⟨frame.symm.trans there.1, lead.symm.trans there.2⟩]

namespace Chip

/-- What is seen of a job's window in a zone; none where the zone has no such job. -/
def winSeen (c : Chip) (p job w : Nat) : Option Win.Seen :=
  (c.jobOf p job).map fun j => (j.win w false).seen

/-! Jobs -/

theorem jobOf_job {c : Chip} {p job : Nat} {j : Job} (found : c.jobOf p job = some j) : j.job = job :=
  of_decide_eq_true (List.find?_some (p := fun k : Job => decide (k.job = job)) found)

theorem jobOf_congr {c d : Chip} {p : Nat} (h : (d.part p).jobs = (c.part p).jobs) (job : Nat) : d.jobOf p job = c.jobOf p job := by
  rw [jobOf, h, ← jobOf]

theorem winSeen_congr {c d : Chip} {p : Nat} (h : (d.part p).jobs = (c.part p).jobs) (job w : Nat) : d.winSeen p job w = c.winSeen p job w := by
  rw [winSeen, jobOf_congr h, ← winSeen]

theorem jobOf_modJob (c : Chip) {p job : Nat} {f : Job → Job} (num : ∀ k, k.job = job → (f k).job = job) :
    (c.modJob p job f).jobOf p job = (c.jobOf p job).map f := by
  unfold jobOf modJob
  rw [part_modPart_same]
  exact find?_mapIf_map (p := fun k : Job => decide (k.job = job)) (fun k hk => decide_eq_true (num k (of_decide_eq_true hk))) _

theorem jobOf_modJob_other (c : Chip) {p job job' : Nat} {f : Job → Job} (num : ∀ k, k.job = job → (f k).job = job) (other : job ≠ job') :
    (c.modJob p job f).jobOf p job' = c.jobOf p job' := by
  unfold jobOf modJob mapIf
  rw [part_modPart_same, List.find?_map]
  have unseen : ((fun k : Job => decide (k.job = job')) ∘ fun k => if decide (k.job = job) = true then f k else k) =
      fun k => decide (k.job = job') := by
    funext k
    by_cases mine : k.job = job
    · simp [mine, num k mine]
    · simp [mine]
  rw [unseen]
  cases found : (c.part p).jobs.find? fun k => decide (k.job = job') with
  | none => rfl
  | some k =>
    have named : k.job = job' := of_decide_eq_true (List.find?_some (p := fun k : Job => decide (k.job = job')) found)
    simp [named, other.symm]

/-- A change of a job that shows in none of its windows at a frame. -/
theorem winSeen_modJob (c : Chip) {p job job' w : Nat} {f : Job → Job} (num : ∀ k, k.job = job' → (f k).job = job')
    (same : ∀ k, c.jobOf p job' = some k → ((f k).win w false).seen = (k.win w false).seen) :
    (c.modJob p job' f).winSeen p job w = c.winSeen p job w := by
  unfold winSeen
  by_cases mine : job' = job
  · subst mine
    rw [c.jobOf_modJob num, Option.map_map]
    cases found : c.jobOf p job' with
    | none => rfl
    | some k => exact congrArg some (same k found)
  · rw [c.jobOf_modJob_other num mine]

theorem winSeen_modWin (c : Chip) {p job job' w w' : Nat} {lead' : Bool} {f : Win → Win} (stays : Win.stays f)
    (same : job' = job → w' = w → lead' = false → ∀ x, (f x).seen = x.seen) :
    (c.modWin p job' w' lead' f).winSeen p job w = c.winSeen p job w := by
  by_cases mine : job' = job
  · exact c.winSeen_modJob (fun _ num => num) fun k _ => k.seen_setWin _ stays fun here lead => same mine here lead _
  · unfold winSeen modWin
    rw [c.jobOf_modJob_other (f := fun j => j.setWin ((f (j.win w' lead')).noted c.now)) (fun _ num => num) mine]

/-- A job that is there has the window that is seen. -/
theorem winSeen_some {c : Chip} {p job w : Nat} {j : Job} (found : c.jobOf p job = some j) : c.winSeen p job w = some (j.win w false).seen := by
  rw [winSeen, found, Option.map_some]

theorem seen_winOf {c : Chip} {p job w : Nat} {v : Win.Seen} (seen : c.winSeen p job w = some v) :
    (c.winOf p job w false).seen = v := by
  unfold winSeen at seen
  unfold winOf
  cases found : c.jobOf p job with
  | none =>
    rw [found] at seen
    cases seen
  | some j =>
    rw [found, Option.map_some, Option.some.injEq] at seen
    exact seen

theorem jobOf_of_seen {c : Chip} {p job w : Nat} {v : Win.Seen} (seen : c.winSeen p job w = some v) :
    ∃ j, c.jobOf p job = some j := by
  unfold winSeen at seen
  cases found : c.jobOf p job with
  | none =>
    rw [found] at seen
    cases seen
  | some j => exact ⟨j, rfl⟩

/-! Work that leaves a window as it is seen -/

/-- What a zone's windows rest on: the time, the other G9s, the cabling plan, and of the partition its topology and its fences. -/
def ground (c : Chip) (p : Nat) : (Nat × List Nat × List Nat × Plan) × TopoDb × List FenceRec :=
  ((c.now, c.clusters, c.down, c.plan), (c.part p).topo, (c.part p).fences)

/-- Work of zone `p` that does not show in the window of a job at frame `w`: the window is seen as before, and so is all that its mode, its
times and its endpoints rest on. -/
def unshown (p job w : Nat) (c d : Chip) : Prop :=
  d.ground p = c.ground p ∧ (∀ r i, windowReg r = true → i < 4096 → d.reg r i = c.reg r i) ∧ d.winSeen p job w = c.winSeen p job w

end Chip

end Sys2Proof.Machine
end

section
/-! SUPPORT. What placing a window's items does to what is seen of the windows of a zone: nothing (R178 to R190, R196, R241, R249). -/

namespace Sys2Proof.Machine

open Sys2Proof

/-- What the windows of a zone rest on, of its partition. -/
def Part.scene (s : Part) : List Job × TopoDb × List FenceRec := (s.jobs, s.topo, s.fences)

theorem Win.quiet.foldl {α : Type} {f : Win → α → Win} (h : ∀ e, Win.quiet fun x => f x e) (l : List α) : Win.quiet fun x => l.foldl f x := by
  induction l with
  | nil => exact ⟨fun _ => ⟨rfl, rfl⟩, fun _ => rfl⟩
  | cons e r ih =>
    obtain ⟨stays, seen⟩ := h e
    obtain ⟨stays', seen'⟩ := ih
    exact ⟨fun x => ⟨(stays' (f x e)).1.trans (stays x).1, (stays' (f x e)).2.trans (stays x).2⟩, fun x => (seen' (f x e)).trans (seen x)⟩

theorem takeRun_quiet (src dst : Nat) (r : Placed) : Win.quiet fun x => Chip.takeRun x src dst r := by
  have same : ∀ x, (Chip.takeRun x src dst r).frame = x.frame ∧ (Chip.takeRun x src dst r).lead = x.lead ∧
      (Chip.takeRun x src dst r).seen = x.seen := by
    intro x
    unfold Chip.takeRun
    simp only
    split
    · exact ⟨rfl, rfl, rfl⟩
    · exact ⟨rfl, rfl, rfl⟩
  exact ⟨fun x => ⟨(same x).1, (same x).2.1⟩, fun x => (same x).2.2⟩

namespace Chip

namespace unshown

variable {p job w : Nat}

theorem refl (c : Chip) : unshown p job w c c := ⟨rfl, fun _ _ _ _ => rfl, rfl⟩

theorem trans {c d f : Chip} (h : unshown p job w c d) (k : unshown p job w d f) : unshown p job w c f := by
  obtain ⟨ground, regs, seen⟩ := h
  obtain ⟨ground', regs', seen'⟩ := k
  exact ⟨ground'.trans ground, fun r i hr hi => (regs' r i hr hi).trans (regs r i hr hi), seen'.trans seen⟩

theorem foldl_mem {α : Type} {f : Chip → α → Chip} {l : List α} (h : ∀ x ∈ l, ∀ c, unshown p job w c (f c x)) (c : Chip) :
    unshown p job w c (l.foldl f c) := by
  induction l generalizing c with
  | nil => exact refl c
  | cons x r ih =>
    exact (h x List.mem_cons_self c).trans (ih (fun y hy => h y (List.mem_cons_of_mem x hy)) (f c x))

theorem foldl {α : Type} {f : Chip → α → Chip} (h : ∀ c x, unshown p job w c (f c x)) (l : List α) (c : Chip) :
    unshown p job w c (l.foldl f c) := foldl_mem (fun x _ c => h c x) c

/-- The same where a fold carries more than the block. -/
theorem foldl_fst {α β : Type} {f : Chip × β → α → Chip × β} (h : ∀ a x, unshown p job w a.1 (f a x).1) (l : List α) (a : Chip × β) :
    unshown p job w a.1 (l.foldl f a).1 := by
  induction l generalizing a with
  | nil => exact refl a.1
  | cons x r ih => exact (h a x).trans (ih (f a x))

theorem seen {c d : Chip} (h : unshown p job w c d) : d.winSeen p job w = c.winSeen p job w := h.2.2

section
variable {c d : Chip} (h : unshown p job w c d)
include h

/-- A step that leaves time, partitions, registers and the other G9s alone. -/
theorem same {f : Chip} (now : f.now = d.now) (clusters : f.clusters = d.clusters) (down : f.down = d.down) (plan : f.plan = d.plan)
    (parts : f.parts = d.parts) (regs : f.regs = d.regs) : unshown p job w c f := by
  have part : ∀ q, f.part q = d.part q := fun q => by rw [Chip.part, parts, ← Chip.part]
  refine h.trans ⟨?_, fun r i _ _ => ?_, winSeen_congr (congrArg Part.jobs (part p)) job w⟩
  · simp only [ground, now, clusters, down, plan, part]
  · rw [Chip.reg, regs, ← Chip.reg]

theorem setReg {r : Reg} {i : Nat} (x v : Nat) (other : windowReg r = false) (hi : i < 4096) (hx : x < 64) :
    unshown p job w c (d.setReg r i x v) := by
  refine h.trans ⟨rfl, fun r' j window small => reg_setReg_far d v ?_ hi small hx (by decide), rfl⟩
  rintro rfl
  rw [window] at other
  cases other

theorem countN {r : Reg} {i : Nat} (x n : Nat) (other : windowReg r = false) (hi : i < 4096) (hx : x < 64) :
    unshown p job w c (d.countN r i n x) := h.setReg x (min (d.reg r i x + n) (2 ^ r.width - 1)) other hi hx

theorem modPart {f : Part → Part} (blind : ∀ s, (f s).scene = s.scene) : unshown p job w c (d.modPart p f) := by
  have scene := blind (d.part p)
  simp only [Part.scene, Prod.mk.injEq] at scene
  obtain ⟨jobs, topo, fences⟩ := scene
  refine h.trans ⟨?_, fun _ _ _ _ => rfl, winSeen_congr (by rw [part_modPart_same, jobs]) job w⟩
  unfold ground
  rw [part_modPart_same, topo, fences]
  rfl

theorem modMsgLog (l : Part → List LogEntry) : unshown p job w c (d.modPart p fun s => { s with msgLog := l s }) := h.modPart fun _ => rfl

theorem modCtx (x : Nat) (f : Ctx → Ctx) : unshown p job w c (d.modCtx x f) := h.same rfl rfl rfl rfl rfl rfl

theorem emit (e : Emission) : unshown p job w c (d.emit e) := h.same rfl rfl rfl rfl rfl rfl

theorem ite {x : Prop} [Decidable x] {f : Chip} (k : unshown p job w c f) : unshown p job w c (if x then d else f) := by
  split
  · exact h
  · exact k

/-! Jobs and windows -/

theorem modJob {job' : Nat} {f : Job → Job} (num : ∀ k, k.job = job' → (f k).job = job')
    (blind : ∀ k, d.jobOf p job' = some k → ((f k).win w false).seen = (k.win w false).seen) : unshown p job w c (d.modJob p job' f) := by
  refine h.trans ⟨?_, fun _ _ _ _ => rfl, d.winSeen_modJob num blind⟩
  unfold ground Chip.modJob
  rw [part_modPart_same]
  rfl

theorem modWin_when (job' w' : Nat) (lead : Bool) {f : Win → Win} (stays : Win.stays f)
    (blind : job' = job → w' = w → lead = false → ∀ x, (f x).seen = x.seen) : unshown p job w c (d.modWin p job' w' lead f) := by
  refine h.trans ⟨?_, fun _ _ _ _ => rfl, d.winSeen_modWin stays blind⟩
  unfold ground Chip.modWin Chip.modJob
  rw [part_modPart_same]
  rfl

theorem modWin (job' w' : Nat) (lead : Bool) {f : Win → Win} (quiet : Win.quiet f) : unshown p job w c (d.modWin p job' w' lead f) :=
  h.modWin_when job' w' lead quiet.1 fun _ _ _ => quiet.2

theorem putItem (job' w' : Nat) (lead : Bool) (i : Item) : unshown p job w c (d.putItem p job' w' lead i) :=
  h.modWin job' w' lead ⟨fun _ => ⟨rfl, rfl⟩, fun _ => rfl⟩

theorem addItems (job' w' : Nat) (lead : Bool) (l : List Item) : unshown p job w c (d.addItems p job' w' lead l).1 := by
  unfold Chip.addItems
  simp only
  exact h.modWin job' w' lead ⟨fun _ => ⟨rfl, rfl⟩, fun _ => rfl⟩

/-! Counters -/

theorem countFor (hp : p < 4096) (x : Nat) {r : Reg} (n : Nat) {idx : Nat} (other : windowReg r = false) (hx : idx < 64) :
    unshown p job w c (d.countFor x r p n idx) := by
  unfold Chip.countFor
  exact ite (h.modCtx x _) (h.countN idx n other hp hx)

theorem count (hp : p < 4096) {r : Reg} (other : windowReg r = false) : unshown p job w c (d.count r p) := h.countN 0 1 other hp (by decide)

theorem jcount (hp : p < 4096) (job' : Nat) {r : Reg} (n : Nat) (other : windowReg r = false) : unshown p job w c (d.jcount p job' r n) :=
  h.countFor hp _ n other (by decide)

theorem pevent (hp : p < 4096) (code x job' layer op n : Nat) : unshown p job w c (d.pevent p code x job' layer op n) := by
  unfold Chip.pevent
  refine ite h (h.trans (foldl_mem (fun s member f => foldl_mem (fun i inSet f => ?_) f) d))
  have set := List.mem_range.mp (List.mem_filter.mp member).1
  have counter := List.mem_range.mp (List.mem_filter.mp inSet).1
  exact (refl f).countFor hp x n rfl (by omega)

theorem itemEvent (hp : p < 4096) (job' code : Nat) (i : Item) (n : Nat) : unshown p job w c (d.itemEvent p job' code i n) := by
  unfold Chip.itemEvent
  exact ite (h.pevent hp ..) (h.pevent hp ..)

/-! Claims and engines -/

theorem mark (l slot : Nat) (b : Bool) : unshown p job w c (d.mark p l slot b) := by
  unfold Chip.mark
  exact ite h (h.modPart fun _ => rfl)

theorem markRun (w' : Nat) (lead : Bool) (r : Placed) (b : Bool) : unshown p job w c (d.markRun p w' lead r b) := by
  unfold Chip.markRun
  split
  · refine h.trans (foldl (fun f e => modPart (refl f) ?_) _ d)
    exact fun _ => rfl
  · exact h.trans (foldl (fun f (e : Nat × Nat) => (refl f).mark e.1 e.2 b) _ d)

theorem claimRun (hp : p < 4096) (job' w' : Nat) (lead : Bool) (i : Item) (r : Placed) : unshown p job w c (d.claimRun p job' w' lead i r) := by
  have counted := ((h.markRun w' lead r true).jcount hp job' (r := .SCHED_CLAIM_ATTEMPTS) (hopWords w' r r.hops.length) rfl).jcount hp job'
    (r := .SCHED_CLAIMS) 1 rfl
  exact ((counted.jcount hp job' (r := .SCHED_RUNS) 1 rfl).itemEvent hp job' 0x20 i _).itemEvent hp job' 0x21 i 1

theorem releaseItem (job' w' : Nat) (lead : Bool) (i : Item) : unshown p job w c (d.releaseItem p job' w' lead i) :=
  (h.trans (foldl (fun f r => (refl f).markRun w' lead r false) _ d)).putItem job' w' lead _

theorem modEngines (f : Engines → Engines) : unshown p job w c (d.modEngines p f) := h.modPart fun _ => rfl

theorem dealUnit (hp : p < 4096) (u : WorkUnit) : unshown p job w c (d.dealUnit p u) := by
  have dealt := h.modEngines fun g => { g with dealt := g.dealt + 1 }
  have overflowed := (dealt.modEngines fun g => { g with overflow := g.overflow ++ [u] }).count hp (r := .SCHED_OVERFLOW_UNITS) rfl
  unfold Chip.dealUnit
  simp only
  split
  · exact ite (dealt.modEngines _) overflowed
  · exact overflowed

theorem dealItems (hp : p < 4096) (job' w' : Nat) (lead : Bool) (items : List Item) : unshown p job w c (d.dealItems p job' w' lead items) :=
  h.trans (foldl (fun f _ => foldl (fun f _ => (refl f).dealUnit hp _) _ f) _ d)

end

/-! Windows -/

theorem openWin (hp : p < 4096) (job' w' : Nat) (d : Chip) : unshown p job w d (d.openWin p job' w') := by
  have opened := (refl (p := p) (job := job) (w := w) d).modWin job' w' false (f := fun x => { x with halfEngines := d.halved p })
    ⟨fun _ => ⟨rfl, rfl⟩, fun _ => rfl⟩
  unfold Chip.openWin
  split
  · exact refl d
  · refine ite (refl d) ?_
    simp only
    split
    · exact opened
    · exact ite (opened.addItems ..) ((opened.addItems ..).dealItems hp ..)

/-- A round of ordered mode claims runs and puts items back. -/
theorem orderedRound (hp : p < 4096) (job' w' : Nat) (lead : Bool) (l : List Item) (d : Chip) :
    unshown p job w d (d.orderedRound p job' w' lead l) := by
  unfold Chip.orderedRound
  split
  · exact refl d
  · refine foldl_fst (fun a i => ?_) l (d, [])
    have put := fun k => (refl (p := p) (job := job) (w := w) a.1).putItem job' w' lead k
    split
    · exact (put _).jcount hp job' 1 rfl
    · simp only
      split
      · exact put _
      · split
        · exact put _
        · split
          · exact refl _
          · exact ((refl _).claimRun hp job' w' lead _ _).putItem job' w' lead _

theorem orderedClass (hp : p < 4096) (job' w' : Nat) (lead : Bool) (cls n : Nat) (d : Chip) :
    unshown p job w d (d.orderedClass p job' w' lead cls n) := by
  induction n generalizing d with
  | zero => exact refl d
  | succ n ih =>
    unfold Chip.orderedClass
    exact ite (refl d) ((orderedRound hp job' w' lead _ d).trans (ih _))

theorem orderedPlace (hp : p < 4096) (job' w' : Nat) (lead : Bool) (cls : Nat) (d : Chip) :
    unshown p job w d (d.orderedPlace p job' w' lead cls) := orderedClass hp job' w' lead cls _ d

theorem resolve (hp : p < 4096) (job' w' : Nat) (v : Vector) (d : Chip) : unshown p job w d (d.resolve p job' w' v).1 := by
  unfold Chip.resolve
  split
  · exact refl d
  · refine addItems (modWin (jcount (jcount (modWin (trans (modWin (refl d) _ _ _ ?_) (foldl (fun f i => ?_) _ _)) _ _ _ ?_) hp _ _ rfl) hp _ _ rfl)
      _ _ _ ?_) _ _ _ _
    case refine_2 =>
      have released := ((refl (p := p) (job := job) (w := w) f).releaseItem job' w' false i).modWin job' w' false
        (f := fun x => { x with items := x.items.filter fun y => y.id ≠ i.id }) ⟨fun _ => ⟨rfl, rfl⟩, fun _ => rfl⟩
      exact ite (((refl f).putItem job' w' false _).jcount hp job' _ rfl)
        (ite (released.jcount hp job' _ rfl) ((released.jcount hp job' _ rfl).itemEvent hp job' _ _ _))
    all_goals exact ⟨fun _ => ⟨rfl, rfl⟩, fun _ => rfl⟩

theorem dropCarried (hp : p < 4096) (job' w' step : Nat) (d : Chip) : unshown p job w d (d.dropCarried p job' w' step) := by
  unfold Chip.dropCarried
  simp only
  split
  · exact refl d
  · refine ite (refl d) (modWin (foldl (fun f i => ?_) _ d) job' w' false ⟨fun _ => ⟨rfl, rfl⟩, fun _ => rfl⟩)
    exact (((refl f).releaseItem job' w' false i).jcount hp job' _ rfl).itemEvent hp job' _ i _

theorem spillChunks (hp : p < 4096) (job' w' : Nat) (i : Item) (n : Nat) (d : Chip) : unshown p job w d (d.spillChunks p job' w' i n) := by
  have loose : ∀ f, unshown p job w d f → unshown p job w d ((f.jcount p job' .SCHED_SPILL_LOOSE n).itemEvent p job' 0x27 i n) := fun f k =>
    (k.jcount hp job' n rfl).itemEvent hp job' 0x27 i n
  unfold Chip.spillChunks
  refine ite (refl d) ?_
  split
  · exact refl d
  · next j _ =>
    have spilled := (refl (p := p) (job := job) (w := w) d).modWin job' w' false
      (f := fun x => { x with spilled := x.spilled + n, spanCut := x.spanCut + (if x.span < j.frames then n else 0) })
      ⟨fun _ => ⟨rfl, rfl⟩, fun _ => rfl⟩
    have next := (spilled.jcount hp job' (r := .SCHED_SPILL_NEXT) n rfl).itemEvent hp job' 0x26 i n
    refine ite (ite ?_ (loose _ next)) (loose _ spilled)
    have carried := modWin (addItems (next.trans (openWin hp job' (w' + j.frames) _)) job' (w' + j.frames) false
      [{ i with cls := 4, want := n, owed := n, runs := [], at_ := 0, ended := false, degraded := false }]) job' (w' + j.frames) false
      (f := fun y => { y with carriedStep := some i.step }) ⟨fun _ => ⟨rfl, rfl⟩, fun _ => rfl⟩
    exact ite carried (carried.dealItems hp _ _ _ _)

theorem lateVector (hp : p < 4096) (job' w' : Nat) (v : Vector) (d : Chip) : unshown p job w d (d.lateVector p job' w' v) :=
  foldl (fun f _ => spillChunks hp job' w' _ _ f) _ d

theorem spillCross (job' w' : Nat) (l : List Item) (d : Chip) : unshown p job w d (d.spillCross p job' w' l) :=
  (refl d).modWin job' w' false ⟨fun _ => ⟨rfl, rfl⟩, fun _ => rfl⟩

/-! Messages -/

theorem logMsg (hp : p < 4096) (far type tag sendTime : Nat) (sent hide : Bool) (d : Chip) :
    unshown p job w d (d.logMsg p far type tag sendTime sent hide) := by
  unfold Chip.logMsg
  exact setReg (modMsgLog (refl d) _) 0 _ rfl hp (by decide)

theorem psend (hp : p < 4096) (dst : Nat) (m : Msg) (x : Nat) (d : Chip) : unshown p job w d (d.psend p dst m x) := by
  unfold Chip.psend
  refine ite (refl d) (ite ?_ ?_)
  · unfold Chip.controlPortDown
    refine setReg (modPart (refl d) ?_) 0 0 rfl hp (by decide)
    exact fun _ => rfl
  · refine emit (modPart (logMsg hp ..) ?_) _
    exact fun _ => rfl

theorem pask (hp : p < 4096) (dst type : Nat) (body : List Nat) (ref x : Nat) (d : Chip) :
    unshown p job w d (d.pask p dst type body ref x) := by
  unfold Chip.pask
  refine trans (modPart (refl d) ?_) (psend hp dst _ x _)
  exact fun _ => rfl

/-! Cross-pod placement -/

theorem mergeCross (job' w' : Nat) (words : List (List Nat)) (final : Bool) (d : Chip) :
    unshown p job w d (d.mergeCross p job' w' words final) := by
  have merged := Win.quiet.foldl (fun (e : List Nat) => takeRun_quiet (e.getD 0 0) (e.getD 2 0)
    { frame := bits (e.getD 1 0) 13 10, first := bits (e.getD 1 0) 9 0, len := bits (e.getD 1 0) 19 14, hops := [] }) words
  have joined := (refl (p := p) (job := job) (w := w) d).modWin job' w' false merged
  unfold Chip.mergeCross
  simp only
  split
  · exact joined.modWin job' w' false ⟨fun _ => ⟨rfl, rfl⟩, fun _ => rfl⟩
  · exact joined

theorem crossReturn (job' w' pod : Nat) (d : Chip) : unshown p job w d (d.crossReturn p job' w' pod).1 := by
  unfold Chip.crossReturn
  simp only
  split
  · exact refl d
  · exact (refl d).modWin job' w' true ⟨fun _ => ⟨rfl, rfl⟩, fun _ => rfl⟩

theorem crossSend (hp : p < 4096) (job' w' pod : Nat) (d : Chip) : unshown p job w d (d.crossSend p job' w' pod) := by
  have returned := crossReturn (p := p) (job := job) (w := w) job' w' pod d
  unfold Chip.crossSend
  split
  · exact refl d
  · exact ite (refl d) (ite (returned.trans (mergeCross ..)) (returned.trans (foldl (fun f _ => pask hp _ _ _ _ _ f) _ _)))

theorem crossOrdered (hp : p < 4096) (job' w' : Nat) (d : Chip) : unshown p job w d (d.crossOrdered p job' w') := by
  unfold Chip.crossOrdered
  split
  · exact refl d
  · exact ite ((foldl (fun f k => orderedPlace hp job' w' true k f) [2, 4, 5] d).trans (foldl (fun f z => crossSend hp job' w' z f) _ _)) (refl d)

theorem crossTake (hp : p < 4096) (b : CrossBody) (d : Chip) : unshown p job w d (d.crossTake p b) := by
  unfold Chip.crossTake
  split
  · exact refl d
  · extract_lets w' items x tol near act specs got stays c₁ spills new fresh c₂ r c₃ c₄
    have compared : unshown p job w d c₁ := by
      refine foldl (fun f i => ?_) specs d
      have released := ((refl (p := p) (job := job) (w := w) f).releaseItem b.job w' true i).modWin b.job w' true
        (f := fun x => { x with items := x.items.filter fun y => y.id ≠ i.id }) ⟨fun _ => ⟨rfl, rfl⟩, fun _ => rfl⟩
      exact ite (((refl f).putItem ..).jcount hp b.job _ rfl)
        (ite (released.jcount hp b.job _ rfl) ((released.jcount hp b.job _ rfl).itemEvent hp b.job _ _ _))
    have added : unshown p job w d r.1 := ((compared.jcount hp b.job _ rfl).jcount hp b.job _ rfl).addItems ..
    have dealt : unshown p job w d c₃ := ite added (added.dealItems hp ..)
    have final : unshown p job w d c₄ := ite (dealt.modWin b.job w' true
      (f := fun x => { x with finals := addOnce x.finals b.pod }) ⟨fun _ => ⟨rfl, rfl⟩, fun _ => rfl⟩) dealt
    exact (final.trans (crossOrdered hp ..)).trans (crossSend hp ..)

theorem sendCross (hp : p < 4096) (job' w' : Nat) (items : List Item) (spec final carry : Bool) (d : Chip) :
    unshown p job w d (d.sendCross p job' w' items spec final carry) := by
  have quiet : ∀ f : Win → Win, (∀ x, (f x).frame = x.frame ∧ (f x).lead = x.lead ∧ (f x).seen = x.seen) → Win.quiet f :=
    fun f h => ⟨fun x => ⟨(h x).1, (h x).2.1⟩, fun x => (h x).2.2⟩
  unfold Chip.sendCross
  split
  · exact refl d
  · split
    · exact refl d
    · refine ite (modWin (refl d) _ _ _ ?_) (ite (refl d) (ite (modWin (ite (jcount (refl d) hp _ _ rfl) (refl d)) _ _ _ ?_)
        (ite (trans ?sent (crossTake hp _ _)) (trans ?sent (foldl (fun f _ => pask hp _ _ _ _ _ f) _ _)))))
      case sent => exact modWin (jcount (refl d) hp _ _ rfl) _ _ _ (quiet _ fun _ => ⟨rfl, rfl, rfl⟩)
      all_goals exact quiet _ fun _ => ⟨rfl, rfl, rfl⟩

end unshown

end Chip

end Sys2Proof.Machine
end

section
/-! SUPPORT. The gather point of a window: history, analysis and advice leave it as it is seen, and what its sources are fixed by (R177, R179,
R187, R241, R249, R251). -/

namespace Sys2Proof.Machine

open Sys2Proof

namespace Chip

namespace unshown

variable {p job w : Nat}

theorem setTile (n : Nat) (t : Tile) (d : Chip) : unshown p job w d (d.setTile p n t) := modPart (refl d) fun _ => rfl

theorem setEntry (x h : Nat) (b : List Nat) (d : Chip) : unshown p job w d (d.setEntry p x h b) := by
  unfold Chip.setEntry
  simp only
  split
  · refine trans (modPart (refl d) ?_) (setTile ..)
    exact fun _ => rfl
  · exact setTile ..

theorem rewriteTensor (x h : Nat) (val : Nat → Nat → Nat) (d : Chip) : unshown p job w d (d.rewriteTensor p x h val) := by
  unfold Chip.rewriteTensor
  split
  · exact refl d
  · exact (foldl (fun f i => setTile _ _ f) _ d).trans (setEntry ..)

theorem publishLearn (hp : p < 4096) (d : Chip) : unshown p job w d (d.publishLearn p) := by
  unfold Chip.publishLearn
  refine foldl_mem (fun k member f => ?_) d
  have slot : k < 64 := lt_trans (List.mem_range.mp member) (by decide)
  have put : ∀ {r f g} v, unshown p job w f g → windowReg r = false → unshown p job w f (g.setReg r p k v) := fun v h other =>
    h.setReg k v other hp slot
  split
  · exact put _ (put _ (put _ (put _ (put _ (put _ (refl f) rfl) rfl) rfl) rfl) rfl) rfl
  · exact put _ (put _ (put _ (put _ (put _ (put _ (refl f) rfl) rfl) rfl) rfl) rfl) rfl

theorem emptyHistory (hp : p < 4096) (job' : Nat) (d : Chip) : unshown p job w d (d.emptyHistory p job') := by
  unfold Chip.emptyHistory
  split
  · exact refl d
  · extract_lets pol c
    have rewritten : unshown p job w d c := ite (refl d) (rewriteTensor ..)
    refine trans (modJob rewritten ?_ ?_) (publishLearn hp _)
    · exact fun _ num => num
    · exact fun _ _ => rfl

theorem turnPolicy (hp : p < 4096) (job' w' : Nat) (d : Chip) : unshown p job w d (d.turnPolicy p job' w') := by
  unfold Chip.turnPolicy
  split
  · exact refl d
  · next j found =>
    extract_lets past j' pol c
    have turned : unshown p job w d c := by
      refine modJob (refl d) (fun _ _ => ?_) fun k there => ?_
      · exact (jobOf_job found : j.job = job')
      rw [found, Option.some.injEq] at there
      rw [← there]
      rfl
    exact ite (refl d) (ite (turned.trans (emptyHistory hp ..)) (turned.trans (publishLearn hp _)))

theorem writeHistory (hp : p < 4096) (job' w' : Nat) (d : Chip) : unshown p job w d (d.writeHistory p job' w') := by
  unfold Chip.writeHistory
  extract_lets c
  have turned : unshown p job w d c := turnPolicy hp job' w' d
  split
  · exact turned
  · extract_lets pol x slot rows cut c₁ was fresh c₂ c₃ vacant filled
    have written : unshown p job w d c₃ := ((turned.jcount hp job' _ rfl).trans (rewriteTensor ..)).trans (rewriteTensor ..)
    refine ite turned (trans (modJob written ?_ ?_) (publishLearn hp _))
    · exact fun _ num => num
    · exact fun _ _ => rfl

theorem modAdvice (job' : Nat) (f : Advice → Advice) (d : Chip) : unshown p job w d (d.modAdvice p job' f) :=
  (refl d).modJob (fun _ num => num) fun _ _ => rfl

theorem startAnalysis (hp : p < 4096) (job' step : Nat) (asked : Bool) (d : Chip) :
    unshown p job w d (d.startAnalysis p job' step asked) := by
  unfold Chip.startAnalysis
  extract_lets no
  have refused : unshown p job w d (no d) := ite ((refl d).jcount hp job' 1 rfl) (refl d)
  split
  · exact refused
  · exact ite refused ((modAdvice ..).setReg 0 _ rfl hp (by decide))

theorem analysisTrigger (hp : p < 4096) (job' step : Nat) (d : Chip) : unshown p job w d (d.analysisTrigger p job' step) := by
  unfold Chip.analysisTrigger
  split
  · exact refl d
  · simp only
    split
    · exact modAdvice ..
    · exact ite (startAnalysis hp ..) (refl d)

theorem regionWrite (x off : Nat) (b : List Nat) (d : Chip) : unshown p job w d (d.regionWrite p x off b) := by
  unfold Chip.regionWrite
  split
  · exact refl d
  · exact (foldl (fun f e => setTile _ _ f) _ d).trans (foldl (fun f i => setTile _ _ f) _ _)

end unshown

/-- A record leaves every window as it is. -/
theorem winSeen_henAny (d : Chip) {p : Nat} (hp : p < 4096) (code x q job w : Nat) : (d.henAny p code x).winSeen q job w = d.winSeen q job w := by
  have recorded : logsBut { d with freeCtr := d.freeCtr + 4 } (d.henAny p code x) := (logsBut.refl _).henPart hp _ _ _
  exact winSeen_congr (recorded.jobs q) job w

theorem winSeen_adviceEffect (d : Chip) {p : Nat} (hp : p < 4096) (job' step job w : Nat) :
    (d.adviceEffect p job' step).winSeen p job w = d.winSeen p job w := by
  unfold adviceEffect
  split
  · rfl
  · extract_lets pol accepted eff c old a c₁ c₂ c₃ c₄
    have taken : unshown p job w d c := unshown.ite ((unshown.modAdvice ..).trans (unshown.regionWrite ..)) (unshown.refl d)
    have written : unshown p job w c c₂ := (unshown.regionWrite ..).trans ((unshown.regionWrite ..).trans (unshown.modAdvice ..))
    have applied : c₃.winSeen p job w = c₂.winSeen p job w :=
      (winSeen_henAny _ hp ..).trans ((unshown.refl c₂).jcount hp job' 1 rfl).seen
    have told : unshown p job w c₃ c₄ := by
      unfold c₄
      split
      · exact unshown.foldl (fun f pod => unshown.ite (unshown.refl f) (unshown.pask hp ..)) _ _
      · exact unshown.refl c₃
    split
    · calc (c₄.emptyHistory p job').winSeen p job w
        _ = c₄.winSeen p job w := (unshown.emptyHistory hp ..).seen
        _ = c₃.winSeen p job w := told.seen
        _ = c₂.winSeen p job w := applied
        _ = c.winSeen p job w := written.seen
        _ = d.winSeen p job w := taken.seen
    · exact taken.seen

end Chip

end Sys2Proof.Machine
end

section
/-! SUPPORT. What a gather point fixes (R177, R179, R187). -/

namespace Sys2Proof.Machine

open Sys2Proof

namespace Chip

namespace unshown

variable {p job w : Nat} {c d : Chip}

/-! What a window's times, mode and endpoints rest on is as before. -/

section
variable (h : unshown p job w c d)
include h

theorem now : d.now = c.now := congrArg (fun g => g.1.1) h.1

theorem reg {r : Reg} {i : Nat} (window : windowReg r = true) (hi : i < 4096) : d.reg r i = c.reg r i := h.2.1 r i window hi

theorem clusterIndex : d.clusterIndex = c.clusterIndex := h.reg rfl (by decide)

theorem podOf (q : Nat) : d.podOf q = c.podOf q := by rw [Chip.podOf, h.clusterIndex, ← Chip.podOf]

theorem placeOf (fid : Nat) : d.placeOf p fid = c.placeOf p fid := by
  have clusters : d.clusters = c.clusters := congrArg (fun g => g.1.2.1) h.1
  have down : d.down = c.down := congrArg (fun g => g.1.2.2.1) h.1
  have plan : d.plan = c.plan := congrArg (fun g => g.1.2.2.2) h.1
  have topo : (d.part p).topo = (c.part p).topo := congrArg (fun g => g.2.1) h.1
  have named : d.named p fid = c.named p fid := by
    simp only [Chip.named, Chip.partFidPod, Chip.unitOf, Chip.unitPod, Chip.peerOf, Chip.ocsAttach, h.clusterIndex, h.podOf, clusters, down, plan,
      topo]
  rw [Chip.placeOf, named, ← Chip.placeOf]

theorem zoneEps (j : Job) : d.zoneEps p j = c.zoneEps p j := by simp only [Chip.zoneEps, h.placeOf, h.podOf]

theorem fencedFor (job' fid : Nat) : d.fencedFor p job' fid = c.fencedFor p job' fid := by
  have fences : (d.part p).fences = (c.part p).fences := congrArg (fun g => g.2.2) h.1
  rw [Chip.fencedFor, fences, ← Chip.fencedFor]

variable (hp : p < 4096)
include hp

theorem modeOf (j : Job) (w' : Nat) : d.modeOf p j w' = c.modeOf p j w' := by
  simp only [Chip.modeOf, h.reg (r := .SCHED_SPEC_DEFAULT) rfl hp, h.reg (r := .SCHED_ORDERED_DEFAULT) rfl hp,
    h.reg (r := .SCHED_SPILL_DEFAULT) rfl hp]

theorem sdOf (w' : Nat) : d.sdOf p w' = c.sdOf p w' := by
  simp only [Chip.sdOf, h.reg (r := .SCHED_LIST_LEAD) rfl hp, h.reg (r := .SCHED_DELIVERY_ALLOW) rfl hp]

theorem gatherOf (j : Job) (w' : Nat) : d.gatherOf p j w' = c.gatherOf p j w' := by
  simp only [Chip.gatherOf, Chip.pcOf, h.sdOf hp, h.modeOf hp, h.reg (r := .SCHED_ORDERED_ALLOW) rfl hp]

end

end unshown

/-- What is seen of a window after it is changed. -/
theorem winSeen_modWin_same (c : Chip) {p job w : Nat} {f : Win → Win} {j : Job} (found : c.jobOf p job = some j) (stays : Win.stays f) :
    (c.modWin p job w false f).winSeen p job w = some (f (j.win w false)).seen := by
  have there : (c.modWin p job w false f).jobOf p job = some (j.setWin ((f (j.win w false)).noted c.now)) := by
    unfold modWin
    rw [c.jobOf_modJob (f := fun j => j.setWin ((f (j.win w false)).noted c.now)) (fun _ num => num), found, Option.map_some]
  rw [winSeen_some there, j.win_setWin_noted _ stays, Win.noted_seen]

/-- The same after work that does not show in the window, of a change that acts on what is seen. -/
theorem unshown.winSeen_modWin {c d : Chip} {p job w : Nat} (h : unshown p job w c d) {j : Job} (found : c.jobOf p job = some j)
    {f : Win → Win} (stays : Win.stays f) {g : Win.Seen → Win.Seen} (acts : ∀ x, (f x).seen = g x.seen) :
    (d.modWin p job w false f).winSeen p job w = some (g (j.win w false).seen) := by
  have seen := h.seen.trans (winSeen_some found)
  obtain ⟨k, there⟩ := jobOf_of_seen seen
  rw [winSeen_some there, Option.some.injEq] at seen
  rw [winSeen_modWin_same d there stays, acts, seen]

/-- The sources that a gather point finds without a vector. -/
def missingAt (c : Chip) (p job w : Nat) (j : Job) : List (Nat × Nat) :=
  (c.zoneEps p j).filter fun e => !((j.win w false).vectors.any fun v => v.src = e.1) && !c.fencedFor p job e.1

/-- A gather point fixes the sources of a window whose template has holes. -/
theorem winSeen_gather (c : Chip) {p job w : Nat} (hp : p < 4096) {j : Job} (found : c.jobOf p job = some j) (holes : j.holesOf w ≠ [])
    (fresh : (j.win w false).gathered = false) :
    (c.gather p job w).winSeen p job w =
      some ((j.win w false).vectors, (j.win w false).step, true, (c.missingAt p job w j).map Prod.fst, (j.win w false).closed) := by
  unfold gather
  split
  · next none => rw [found] at none; cases none
  next j' there =>
  obtain rfl : j = j' := by rw [found, Option.some.injEq] at there; exact there
  extract_lets c₁ x hol early c₂ ordered a c₃ miss flow c₄ c₅ y cross carry c₆ c₇ c₈ last lead c₉
  have opened : unshown p job w c c₁ := unshown.openWin hp job w c
  obtain ⟨vectors, -, gathered, -, -⟩ : x.vectors = (j.win w false).vectors ∧ x.step = (j.win w false).step ∧
      x.gathered = (j.win w false).gathered ∧ x.missing = (j.win w false).missing ∧ x.closed = (j.win w false).closed := by
    simpa only [Win.seen, Prod.mk.injEq] using seen_winOf (opened.seen.trans (winSeen_some found))
  rw [if_neg (by rw [gathered, fresh]; exact Bool.false_ne_true)]
  have released : unshown p job w c c₂ := opened.trans (unshown.foldl (fun f i => (unshown.refl f).releaseItem ..) _ _)
  have placed : unshown p job w c c₃ := by
    refine released.trans (unshown.ite (unshown.trans (d := a) ?_ ?_) (unshown.refl c₂))
    · exact unshown.foldl (fun f v => unshown.ite (unshown.refl f) (unshown.resolve hp ..)) _ _
    · exact unshown.foldl (fun f k => unshown.orderedPlace hp ..) _ _
  have missing : miss = c.missingAt p job w j := by
    have present : hol = true := by
      rw [Bool.not_eq_true', List.isEmpty_eq_false_iff]
      exact holes
    simp only [miss, present, if_true, vectors, placed.zoneEps, placed.fencedFor, missingAt]
  have counted : unshown p job w c (c₄.jcount p job .SCHED_VECTORS_MISSING miss.length) :=
    (unshown.ite (placed.same (f := c₃.drawn) rfl rfl rfl rfl rfl rfl) placed).jcount hp job _ rfl
  have fixed : c₅.winSeen p job w =
      some ((j.win w false).vectors, (j.win w false).step, true, (c.missingAt p job w j).map Prod.fst, (j.win w false).closed) := by
    rw [← missing]
    refine counted.winSeen_modWin (g := fun s => (s.1, s.2.1, true, miss.map Prod.fst, s.2.2.2.2)) found ?_ ?_
    · exact fun _ => ⟨rfl, rfl⟩
    · exact fun _ => rfl
  have sent : unshown p job w c₅ c₇ :=
    (unshown.ite (unshown.refl c₅) (unshown.sendCross hp ..)).trans (unshown.sendCross hp ..)
  have written : unshown p job w c₅ c₈ := sent.trans (unshown.writeHistory hp job w c₇)
  have led : unshown p job w c₅ c₉ :=
    (written.modWin_when job w true (f := fun z => { z with gathered := true }) (fun _ => ⟨rfl, rfl⟩) fun _ _ no => Bool.noConfusion no).trans
      (unshown.crossOrdered hp ..)
  split
  · rw [winSeen_adviceEffect _ hp, (unshown.analysisTrigger hp job last c₉).seen, led.seen, fixed]
  · rw [written.seen, fixed]

end Chip

end Sys2Proof.Machine
end

section
/-! SUPPORT. A demand vector that a partition takes (R173, R174). -/

namespace Sys2Proof.Machine

open Sys2Proof

namespace Chip

theorem logsBut.demandCheck {c d : Chip} (h : logsBut c d) (now : d.now = c.now) (p src tag : Nat) (b : DemandBody) :
    d.demandCheck p src tag b = c.demandCheck p src tag b := by
  have jobs : d.jobOf p b.job = c.jobOf p b.job := jobOf_congr (h.jobs p) b.job
  have frame : d.fullFrame b.window = c.fullFrame b.window := by rw [Chip.fullFrame, now, ← Chip.fullFrame]
  have ring : ∀ f, d.inRing f = c.inRing f := fun f => by rw [Chip.inRing, now, ← Chip.inRing]
  unfold Chip.demandCheck
  rw [jobs, frame, h.unitOf]
  simp only [ring]

theorem controlPortDown_stored (c : Chip) (p : Nat) : ((c.controlPortDown p).part p).stored = (c.part p).stored := by
  have down : ((c.modPart p fun s => { s with lanesUp := false, portDown := true, link := {} }).part p).stored = (c.part p).stored := by
    rw [part_modPart_same]
  exact down

theorem logMsg_stored (c : Chip) {p : Nat} (hp : p < 4096) (far type tag sendTime : Nat) (sent hide : Bool) :
    ((c.logMsg p far type tag sendTime sent hide).part p).stored = (c.part p).stored := by
  rw [(c.logMsg_logsBut hp far type tag sendTime sent hide).1 p]

theorem psend_stored (c : Chip) {p : Nat} (hp : p < 4096) (dst : Nat) (m : Msg) (x : Nat) : ((c.psend p dst m x).part p).stored = (c.part p).stored := by
  unfold psend
  split
  · rfl
  · extract_lets i logged sent
    split
    · exact c.controlPortDown_stored p
    · have kept : (sent.part p).stored = (logged.part p).stored := by rw [part_modPart_same]
      exact kept.trans (c.logMsg_stored hp ..)

/-- An answer of a partition is kept for a repetition of the request. -/
theorem preply_stored (c : Chip) {p : Nat} (hp : p < 4096) (src tag type status : Nat) (body : List Nat) (x : Nat) :
    ∃ till, (⟨src, tag, { type := type + 1, status := status, tag := tag, body := body }, till⟩ : Stored) ∈
      ((c.preply p src tag type status body x).part p).stored := by
  refine ⟨c.now + peerKeep, ?_⟩
  unfold preply
  rw [psend_stored _ hp, part_modPart_same]
  exact List.mem_append_right _ List.mem_cons_self

theorem unshown.preply {p job w : Nat} (hp : p < 4096) (src tag type status : Nat) (body : List Nat) (x : Nat) (d : Chip) :
    unshown p job w d (d.preply p src tag type status body x) := by
  unfold Chip.preply
  refine trans (modPart (refl d) ?_) (psend hp ..)
  exact fun _ => rfl

/-- The vector that is taken of a demand. -/
def takenVector (c : Chip) (p src tag : Nat) (b : DemandBody) : Vector :=
  { src := src, pos := match c.placeOf p src with | some (_, n) => n | none => 0, tag := tag, step := b.step, op := b.op, layer := b.layer,
    entries := b.entries, fenced := false }

/-- A vector that passes its checks before the gather point joins its window, and is answered with OK. -/
theorem demand_taken (c : Chip) {p : Nat} (hp : p < 4096) {src tag : Nat} {b : DemandBody} {j : Job} {w : Nat} (frame : c.fullFrame b.window = w)
    (fresh : (c.part p).stored.find? (fun r => r.src = src && r.tag = tag && c.now < r.till) = none)
    (good : c.demandCheck p src tag b = 0) (found : c.jobOf p b.job = some j) (ungathered : (j.win w false).gathered = false)
    (early : (c.now : Int) ≤ c.gatherOf p j w) (unclosed : (j.win w false).closed = false) (inTime : (c.now : Int) ≤ c.sdOf p w)
    (unfenced : (c.part p).fences = []) :
    (c.demand p src tag b).winSeen p b.job w =
        some ((j.win w false).vectors ++ [c.takenVector p src tag b], some b.step, false, (j.win w false).missing, false) ∧
      ∃ till, (⟨src, tag, { type := 0x41, status := 0x00, tag := tag, body := [b.entries.length, 0, 0] }, till⟩ : Stored) ∈
        ((c.demand p src tag b).part p).stored := by
  unfold demand prequest
  extract_lets x c₀
  have logged : logsBut c c₀ := c.logMsg_logsBut hp ..
  have heard : unshown p b.job w c c₀ := unshown.logMsg hp ..
  rw [show (c₀.part p).stored = (c.part p).stored from c.logMsg_stored hp .., heard.now, fresh]
  dsimp -zeta -zetaHave only
  extract_lets k _ _ _ w' c₁ pos y out keep gone v c₂ c₃ r c₄ cross
  rw [show k = 0 from (logged.demandCheck heard.now ..).trans good, if_neg (by decide), jobOf_congr (logged.jobs p), found]
  dsimp -zeta -zetaHave only
  have same : w' = w := by rw [← frame, fullFrame, ← heard.now, ← fullFrame]
  clear_value w'
  subst same
  have opened : unshown p b.job w' c c₁ := (heard.jcount hp b.job 1 rfl).trans (unshown.openWin hp ..)
  obtain ⟨-, -, gathered, -, closed⟩ : y.vectors = (j.win w' false).vectors ∧ y.step = (j.win w' false).step ∧
      y.gathered = (j.win w' false).gathered ∧ y.missing = (j.win w' false).missing ∧ y.closed = (j.win w' false).closed := by
    simpa only [Win.seen, Prod.mk.injEq] using seen_winOf (opened.seen.trans (winSeen_some found))
  have onTime : ¬((c₁.modeOf p j w').2.1 = true ∧ (y.gathered = true ∨ c₁.gatherOf p j w' < (c₁.now : Int)) ∨ y.closed = true ∨
      c₁.sdOf p w' < (c₁.now : Int)) := by
    rw [gathered, ungathered, closed, unclosed, opened.gatherOf hp, opened.sdOf hp, opened.now]
    rintro (⟨-, no | late⟩ | no | late)
    · cases no
    · omega
    · cases no
    · omega
  rw [if_neg onTime]
  have noFence : ∀ fid, c₁.fencedFor p b.job fid = false := fun fid => by
    rw [opened.fencedFor, fencedFor, unfenced]
    rfl
  have whole : out = false := noFence src
  have all : keep = b.entries := by
    unfold keep
    rw [whole, if_neg Bool.false_ne_true, List.filter_eq_self]
    intro e _
    rw [noFence]
    rfl
  have vector : v = c.takenVector p src tag b := by
    unfold v pos
    rw [whole, all, opened.placeOf]
    rfl
  have noneGone : gone = 0 := by
    unfold gone
    rw [all, Nat.sub_self]
  have dropped : unshown p b.job w' c c₂ := (opened.jcount hp b.job gone rfl).trans (unshown.dropCarried hp ..)
  have joined : c₃.winSeen p b.job w' =
      some ((j.win w' false).vectors ++ [v], some b.step, (j.win w' false).gathered, (j.win w' false).missing, (j.win w' false).closed) := by
    refine dropped.winSeen_modWin (g := fun s => (s.1 ++ [v], some b.step, s.2.2)) found ?_ ?_
    · exact fun _ => ⟨rfl, rfl⟩
    · exact fun _ => rfl
  rw [vector, ungathered, unclosed] at joined
  extract_lets c₅
  have dealt : unshown p b.job w' c₃ c₄ := (unshown.resolve hp ..).trans ((unshown.refl _).dealItems hp ..)
  have placed : unshown p b.job w' c₃ c₅ :=
    unshown.ite (unshown.refl c₃) (unshown.ite (unshown.lateVector hp ..) (unshown.ite (dealt.trans (unshown.spillCross ..))
      (unshown.ite dealt (dealt.trans (unshown.sendCross hp ..)))))
  rw [whole, all, noneGone, if_neg (by decide)]
  exact ⟨(unshown.preply hp ..).seen.trans (placed.seen.trans joined), preply_stored _ hp ..⟩

end Chip

end Sys2Proof.Machine
end

section
/-! SUPPORT. The ring of frames (R170), and the engines that look for work and pass on (R185, R200). -/

namespace Sys2Proof.Machine

open Sys2Proof

theorem SMap.find?_eraseRange {α : Type} (m : SMap α) (lo hi k : Nat) :
    SMap.find? (SMap.eraseRange m lo hi) k = if lo ≤ k ∧ k < hi then none else SMap.find? m k := by
  induction m with
  | nil => simp [SMap.eraseRange]
  | cons e r ih =>
    obtain ⟨a, v⟩ := e
    unfold SMap.eraseRange at ih ⊢
    by_cases gone : lo ≤ a ∧ a < hi
    · rw [List.filter_cons_of_neg (by simpa using gone), ih]
      by_cases here : a = k
      · subst here
        rw [if_pos gone, if_pos gone]
      · simp only [SMap.find?, if_neg here]
    · rw [List.filter_cons_of_pos (by simpa [imp_iff_not_or] using gone)]
      by_cases here : a = k
      · subst here
        simp only [SMap.find?, if_true, if_neg gone]
      · simp only [SMap.find?, if_neg here, ih]

theorem SMap.get_eraseRange {α : Type} (d : α) (m : SMap α) (lo hi k : Nat) :
    SMap.get d (SMap.eraseRange m lo hi) k = if lo ≤ k ∧ k < hi then d else SMap.get d m k := by
  unfold SMap.get
  rw [SMap.find?_eraseRange]
  split
  · rfl
  · rfl

namespace Chip

/-- The words of a frame lie between the first words of it and of the next. -/
theorem occKey_bounds {l w : Nat} (f : Nat) (hl : l < 2304) (hw : w < 16) : occKey f 0 0 ≤ occKey f l w ∧ occKey f l w < occKey (f + 1) 0 0 := by
  unfold occKey
  omega

theorem occKey_mono {f g : Nat} (h : f ≤ g) : occKey f 0 0 ≤ occKey g 0 0 := by
  unfold occKey
  omega

/-- Without jobs a frame's base is only its management slots. -/
theorem baseFrame_of_no_jobs (c : Chip) {p : Nat} (jobless : (c.part p).jobs = []) (f : Nat) : c.baseFrame p f = c := by
  unfold baseFrame
  simp only [jobless, List.foldl_nil]

/-- A frame that enters the ring of a zone without jobs has only its management slots taken. -/
theorem frameEntersRing_new (c : Chip) {p l w : Nat} (hl : l < 2304) (hw : w < 16) (jobless : (c.part p).jobs = [])
    (unfilled : (c.part p).ringEnd ≤ c.now / 131072 + 39) :
    SMap.get occNew ((c.frameEntersRing p).part p).occ (occKey (c.now / 131072 + 39) l w) = occNew ∧
      ((c.frameEntersRing p).part p).ringEnd = c.now / 131072 + 40 := by
  unfold frameEntersRing fillRing
  extract_lets cur from_ new d
  have noJobs : (d.part p).jobs = [] := by
    rw [part_modPart_same]
    exact jobless
  have based : ∀ l : List Nat, l.foldl (fun c f => c.baseFrame p f) d = d := by
    intro l
    induction l with
    | nil => rfl
    | cons f r ih => rw [List.foldl_cons, d.baseFrame_of_no_jobs noJobs, ih]
  rw [based, part_modPart_same]
  have inside := occKey_bounds (cur + 39) hl hw
  have from_le : occKey from_ 0 0 ≤ occKey (cur + 39) 0 0 := occKey_mono (max_le (by omega) unfilled)
  exact ⟨by rw [SMap.get_eraseRange, if_pos ⟨from_le.trans inside.1, inside.2⟩], max_eq_right (by omega)⟩

/-- A ring that is filled keeps the claims of its frames. -/
theorem frameEntersRing_filled (c : Chip) {p f : Nat} (l w : Nat) (full : (c.part p).ringEnd = c.now / 131072 + 40) (here : c.now / 131072 ≤ f) :
    SMap.get occNew ((c.frameEntersRing p).part p).occ (occKey f l w) = SMap.get occNew (c.part p).occ (occKey f l w) ∧
      ((c.frameEntersRing p).part p).ringEnd = (c.part p).ringEnd := by
  unfold frameEntersRing fillRing
  extract_lets cur from_ new d
  have start : from_ = cur + 40 := by
    unfold from_
    rw [full]
    exact max_eq_right (by omega)
  have nothing : new = [] := by
    rw [List.filter_eq_nil_iff]
    intro g member
    obtain ⟨i, small, rfl⟩ := List.mem_map.mp member
    have := List.mem_range.mp small
    rw [decide_eq_true_eq, start]
    omega
  have outside : ¬occKey f l w < occKey cur 0 0 := by
    have := occKey_mono here
    unfold occKey at this ⊢
    omega
  rw [nothing, List.foldl_nil, part_modPart_same, start]
  refine ⟨?_, by rw [full]; exact max_self _⟩
  rw [SMap.get_eraseRange, if_neg (fun h => absurd (h.1.trans_lt h.2) (lt_irrefl _)), SMap.get_eraseRange, if_neg fun h => outside h.2]

/-! Engines -/

theorem engines_modEngines (c : Chip) (p : Nat) (f : Engines → Engines) : ((c.modEngines p f).part p).engines = f (c.part p).engines := by
  rw [modEngines, part_modPart_same]

theorem deque_setDeque (c : Chip) (p e : Nat) (l : List WorkUnit) : (c.setDeque p e l).deque p e = l := by
  rw [deque, setDeque, engines_modEngines, SMap.get_set_same]

/-- An idle engine takes up to 32 units of the overflow queue. -/
theorem engineIdle_spare (c : Chip) {p e : Nat} (works : e ∈ c.working p) (idle : c.deque p e = []) (spare : (c.part p).engines.overflow ≠ []) :
    (c.engineIdle p e).deque p e = (c.part p).engines.overflow.take 32 ∧
      ((c.engineIdle p e).part p).engines.overflow = (c.part p).engines.overflow.drop 32 := by
  have taken : c.engineIdle p e =
      (c.setDeque p e ((c.part p).engines.overflow.take 32)).modEngines p fun g => { g with overflow := (c.part p).engines.overflow.drop 32 } := by
    unfold engineIdle
    simp [works, idle, spare]
  rw [taken]
  refine ⟨?_, by rw [engines_modEngines]⟩
  rw [deque, engines_modEngines]
  exact c.deque_setDeque p e _

/-- After its quantum the context served gives the engines to the next. -/
theorem quantumExpiry_passes (c : Chip) {p x y : Nat} (serves : (c.part p).engines.ctx = some x)
    (spent : (c.part p).engines.since + c.reg .SCHED_QUANTUM p * 131072 ≤ c.now) (waits : y ∈ c.ctxWork p) (other : y ≠ x) :
    ((c.quantumExpiry p).part p).engines.ctx = nextCtx (c.ctxWork p) x ∧ ((c.quantumExpiry p).part p).engines.since = c.now := by
  have anyWaits : (c.ctxWork p).any (fun y => y ≠ x) = true := List.any_eq_true.mpr ⟨y, waits, decide_eq_true other⟩
  have passed : c.quantumExpiry p = c.modEngines p fun g => { g with ctx := nextCtx (c.ctxWork p) x, since := c.now } := by
    unfold quantumExpiry
    dsimp only
    rw [serves]
    dsimp only
    rw [if_pos ⟨spent, anyWaits⟩]
  rw [passed, engines_modEngines]
  exact ⟨rfl, rfl⟩

/-- At the placement cut of free mode a window's sources are fixed. -/
theorem winSeen_placementCut (c : Chip) {p job w : Nat} (hp : p < 4096) {j : Job} (found : c.jobOf p job = some j)
    (free : (c.modeOf p j w).2.1 = false) (grid : j.onGrid w = true) (due : c.pcOf p w ≤ (c.now : Int)) (runs : j.stopped = false)
    (holes : j.holesOf w ≠ []) (fresh : (j.win w false).gathered = false) :
    (c.placementCut p job w).winSeen p job w =
      some ((j.win w false).vectors, (j.win w false).step, true, (c.missingAt p job w j).map Prod.fst, (j.win w false).closed) := by
  unfold placementCut
  rw [found]
  dsimp only
  rw [free, runs, if_pos ⟨rfl, grid, due, rfl⟩]
  exact c.winSeen_gather hp found holes fresh

/-- At the gather point of ordered mode a window's sources are fixed. -/
theorem winSeen_gatherPoint (c : Chip) {p job w : Nat} (hp : p < 4096) {j : Job} (found : c.jobOf p job = some j)
    (ordered : (c.modeOf p j w).2.1 = true) (grid : j.onGrid w = true) (due : c.gatherOf p j w ≤ (c.now : Int)) (runs : j.stopped = false)
    (holes : j.holesOf w ≠ []) (fresh : (j.win w false).gathered = false) :
    (c.gatherPoint p job w).winSeen p job w =
      some ((j.win w false).vectors, (j.win w false).step, true, (c.missingAt p job w j).map Prod.fst, (j.win w false).closed) := by
  unfold gatherPoint
  rw [found]
  dsimp only
  rw [ordered, runs, if_pos ⟨rfl, grid, due, rfl⟩]
  exact c.winSeen_gather hp found holes fresh

end Chip

end Sys2Proof.Machine
end

section
/-! SUPPORT. The paths of items rest on what a zone knows of its routes, not on the work of its engines (R118, R180). -/

namespace Sys2Proof.Machine

open Sys2Proof

/-- A partition without its engines' work. -/
def Part.idle (s : Part) : Part := { s with engines := {} }

namespace Chip

/-- Only the work of the slot engines differs. -/
def enginesBut (c d : Chip) : Prop := d = { c with parts := d.parts } ∧ ∀ z, (d.part z).idle = (c.part z).idle

theorem enginesBut_modEngines (c : Chip) (p : Nat) (f : Engines → Engines) : enginesBut c (c.modEngines p f) := by
  refine ⟨rfl, fun z => ?_⟩
  unfold modEngines
  rw [part_modPart]
  split
  · next same =>
    subst same
    rfl
  · rfl

namespace enginesBut

variable {c d : Chip} (h : enginesBut c d)
include h

/-- What does not look at partitions is as before. -/
theorem rest {β : Type} (f : Chip → β) : f d = f { c with parts := d.parts } := congrArg f h.1

/-- What does not look at the engines of a partition is as before. -/
theorem idle {β : Type} (f : Part → β) (z : Nat) : f (d.part z).idle = f (c.part z).idle := congrArg f (h.2 z)

theorem reg (r : Reg) (i : Nat) : d.reg r i = c.reg r i := h.rest (fun c => c.reg r i)
theorem podOf (p : Nat) : d.podOf p = c.podOf p := h.rest (fun c => c.podOf p)
theorem partOfPod (pod : Nat) : d.partOfPod pod = c.partOfPod pod := h.rest (fun c => c.partOfPod pod)
theorem grid : d.grid = c.grid := h.rest Chip.grid
theorem sliceOf (n : Nat) : d.sliceOf n = c.sliceOf n := h.rest (fun c => c.sliceOf n)
theorem unlocked : d.unlocked = c.unlocked := h.rest Chip.unlocked
theorem joining (t i j : Nat) : d.joining t i j = c.joining t i j := h.rest (fun c => c.joining t i j)
theorem circuitPort (t i j k : Nat) : d.circuitPort t i j k = c.circuitPort t i j k := h.rest (fun c => c.circuitPort t i j k)
theorem acrossCircuit (t pod q : Nat) : d.acrossCircuit t pod q = c.acrossCircuit t pod q := h.rest (fun c => c.acrossCircuit t pod q)
theorem bypassed (z : Nat) : d.bypassed z = c.bypassed z := h.rest (fun c => c.bypassed z)
theorem down : d.down = c.down := h.rest Chip.down
theorem inRing (f : Nat) : d.inRing f = c.inRing f := h.rest (fun c => c.inRing f)

theorem topo (z : Nat) : (d.part z).topo = (c.part z).topo := h.idle Part.topo z
theorem jobs (z : Nat) : (d.part z).jobs = (c.part z).jobs := h.idle Part.jobs z
theorem occ (z : Nat) : (d.part z).occ = (c.part z).occ := h.idle Part.occ z
theorem badWords (z : Nat) : (d.part z).badWords = (c.part z).badWords := h.idle Part.badWords z
theorem txn (z : Nat) : (d.part z).txn = (c.part z).txn := h.idle Part.txn z
theorem lastResume (z : Nat) : (d.part z).lastResume = (c.part z).lastResume := h.idle Part.lastResume z
theorem violBlocked (z : Nat) : (d.part z).violBlocked = (c.part z).violBlocked := h.idle Part.violBlocked z
theorem flagged (z : Nat) : (d.part z).flagged = (c.part z).flagged := h.idle Part.flagged z
theorem epochLinks (z : Nat) : (d.part z).epochLinks = (c.part z).epochLinks := h.idle Part.epochLinks z

/-! Names -/

theorem named (p fid : Nat) : d.named p fid = c.named p fid := by
  have fids : d.partFidPod fid = c.partFidPod fid := h.rest (fun c => c.partFidPod fid)
  have pods : ∀ u, d.unitPod u = c.unitPod u := fun u => h.rest (fun c => c.unitPod u)
  simp only [Chip.named, Chip.unitOf, Chip.peerOf, h.topo, fids, pods]

/-! Usable links -/

theorem peerPairOk (p pod t l : Nat) : d.peerPairOk p pod t l = c.peerPairOk p pod t l := by
  rw [Chip.peerPairOk, h.topo, ← Chip.peerPairOk]

theorem circuitOk (p : Nat) (m : List Nat) (pod plane port : Nat) : d.circuitOk p m pod plane port = c.circuitOk p m pod plane port := by
  simp only [Chip.circuitOk, h.podOf, h.topo]

theorem pathOk (p : Nat) (m : List Nat) (s : Slice) (plane n : Nat) (cur dst : List Nat) :
    d.pathOk p m s plane n cur dst = c.pathOk p m s plane n cur dst := by
  induction n generalizing cur with
  | zero => rfl
  | succ n ih => simp only [Chip.pathOk, h.grid, h.circuitOk, ih]

theorem unusable (p : Nat) (m : List Nat) (j l : Nat) : d.unusable p m j l = c.unusable p m j l := by
  simp only [Chip.unusable, h.podOf, h.joining, h.grid, h.pathOk, h.peerPairOk]

theorem nowDown (z : Nat) (u : UnitId) (q : Nat) : d.nowDown z u q = c.nowDown z u q := by simp only [Chip.nowDown, h.topo]

theorem linkBlocked (p pl : Nat) : d.linkBlocked p pl = c.linkBlocked p pl := by
  simp only [Chip.linkBlocked, h.partOfPod, h.down, h.topo, h.bypassed, h.violBlocked, h.reg, h.flagged, h.nowDown]

theorem draining (z : Nat) : d.draining z = c.draining z := by simp only [Chip.draining, h.txn]

theorem inTransaction (z w : Nat) : d.inTransaction z w = c.inTransaction z w := by
  simp only [Chip.inTransaction, h.draining, h.lastResume]

/-! Paths -/

theorem epochView : d.epochView = c.epochView := by
  have mirrors : ∀ z, (d.part z).mirrors = (c.part z).mirrors := fun z => h.idle Part.mirrors z
  have epochDown : ∀ z, (d.part z).epochDown = (c.part z).epochDown := fun z => h.idle Part.epochDown z
  have epochSlices : ∀ z, (d.part z).epochSlices = (c.part z).epochSlices := fun z => h.idle Part.epochSlices z
  simp only [Chip.epochView, mirrors, h.epochLinks, epochDown, epochSlices]

theorem asOf (p : Nat) (m : EpochMap) : enginesBut (c.asOf p m) (d.asOf p m) := by
  refine ⟨congrArg (fun c' => { c' with slices := c'.slices.filter fun s => s.num ∈ m.slices, parts := (d.asOf p m).parts }) h.1, fun z => ?_⟩
  have known : ∀ e : Chip, ((e.asOf p m).part z).idle =
      if p = z then { (e.part p).idle with topo := { (e.part p).idle.topo with peerDown := m.down } } else (e.part z).idle := by
    intro e
    have there := part_modPart e p z fun s => { s with topo := { s.topo with peerDown := m.down } }
    have same : ((e.asOf p m).part z).idle = ((e.modPart p fun s => { s with topo := { s.topo with peerDown := m.down } }).part z).idle := rfl
    rw [same, there]
    split
    · rfl
    · rfl
  rw [known, known, h.2, h.2]

variable (p : Nat) (v : PathView)

theorem entryAt (pod : Nat) (isLeaf : Bool) (n dst : Nat) : d.entryAt p v pod isLeaf n dst = c.entryAt p v pod isLeaf n dst := by
  simp only [Chip.entryAt, h.partOfPod, h.named, (h.asOf p (v.map p)).circuitPort]

theorem upAt (pod : Nat) (isLeaf : Bool) (n q : Nat) : d.upAt p v pod isLeaf n q = c.upAt p v pod isLeaf n q := by
  simp only [Chip.upAt, h.partOfPod, (h.asOf p (v.map p)).circuitOk, (h.asOf p (v.map p)).peerPairOk]

theorem delayOf (pod l : Nat) : d.delayOf p pod l = c.delayOf p pod l := by simp only [Chip.delayOf, h.partOfPod, h.topo]

theorem walk (src dst n pod : Nat) (isLeaf : Bool) (k off : Nat) (acc : List (Nat × Nat)) :
    d.walk p v src dst n pod isLeaf k off acc = c.walk p v src dst n pod isLeaf k off acc := by
  induction n generalizing pod isLeaf k off acc with
  | zero => rfl
  | succ n ih =>
    have ups : ∀ b, d.upAt p v pod b k = c.upAt p v pod b k := fun b => funext (h.upAt p v pod b k)
    simp only [Chip.walk, h.entryAt, ups, h.delayOf, h.acrossCircuit, ih]

theorem pathOf (pod pos src dst : Nat) : d.pathOf p v pod pos src dst = c.pathOf p v pod pos src dst := by
  simp only [Chip.pathOf, h.delayOf, h.walk]

theorem fanOut (pod s k group off : Nat) : d.fanOut p v pod s k group off = c.fanOut p v pod s k group off := by
  simp only [Chip.fanOut, h.partOfPod, h.upAt, h.delayOf]

theorem alongLine (sl : Slice) (axis : Nat) (plus : Bool) (s k group n pod off : Nat) :
    d.alongLine p v sl axis plus s k group n pod off = c.alongLine p v sl axis plus s k group n pod off := by
  induction n generalizing pod off with
  | zero => rfl
  | succ n ih => simp only [Chip.alongLine, h.grid, h.delayOf, h.fanOut, ih]

theorem treeOf (sl : Slice) (pod pos src group : Nat) : d.treeOf p v sl pod pos src group = c.treeOf p v sl pod pos src group := by
  simp only [Chip.treeOf, h.delayOf, h.upAt, h.grid, h.fanOut, h.alongLine]

omit v in
/-- An item's path rests on the routes alone. -/
theorem itemPath (w : Nat) (sl : Option Slice) (i : Item) : d.itemPath p w sl i = c.itemPath p w sl i := by
  simp only [Chip.itemPath, h.podOf, h.epochView, h.treeOf, h.pathOf, h.partOfPod, h.named, h.unusable, h.epochLinks, h.inTransaction, h.linkBlocked]

/-! Claims -/

omit v in
theorem occupied (l slot : Nat) : d.occupied p l slot = c.occupied p l slot := by
  simp only [Chip.occupied, Chip.occVacant, h.inRing, h.reg, h.occ]

end enginesBut

end Chip

end Sys2Proof.Machine
end

section
/-! SUPPORT. The claims of a run, and an item that is placed in one (R171, R181, R182). -/

namespace Sys2Proof.Machine

open Sys2Proof

theorem setBit_true (v n : Nat) : setBit v n true = (v >>> (n + 1)) <<< (n + 1) ||| (2 ^ n ||| v % 2 ^ n) := by
  have low : v % 2 ^ n < 2 ^ n := Nat.mod_lt v (by positivity)
  have sum : 2 ^ n + v % 2 ^ n < 2 ^ (n + 1) := by
    rw [pow_succ]
    omega
  have one : (ofBool true % 2 ^ (n + 1 - n)) <<< n = 2 ^ n := by
    rw [Nat.add_sub_cancel_left, Nat.shiftLeft_eq]
    exact one_mul _
  have both := Nat.two_pow_add_eq_or_of_lt low 1
  rw [mul_one] at both
  rw [setBit, setBits, one, Nat.add_assoc, Nat.shiftLeft_add_eq_or_of_lt sum, both]

/-- Setting a bit sets that bit alone. -/
theorem bit_setBit_true (v n m : Nat) : bit (setBit v n true) m = (decide (n = m) || bit v m) := by
  rw [bit_eq_testBit, bit_eq_testBit, setBit_true, Nat.testBit_or, Nat.testBit_or, Nat.testBit_shiftLeft, Nat.testBit_shiftRight,
    Nat.testBit_two_pow, Nat.testBit_mod_two_pow]
  rcases lt_trichotomy m n with below | rfl | above
  · simp [below, below.ne', show ¬n + 1 ≤ m by omega]
  · simp
  · simp [above.ne, show n + 1 ≤ m from above, show ¬m < n by omega]

/-- A window with an item put back. -/
def Win.withItem (i : Item) (x : Win) : Win := { x with items := mapIf (fun y => y.id = i.id) (fun _ => i) x.items }

theorem Win.withItem_stays (i : Item) : Win.stays (Win.withItem i) := fun _ => ⟨rfl, rfl⟩

/-- An item that has one run of all its chunks. -/
def Item.placedAt (i : Item) (f k : Nat) (path : List (Nat × Nat)) : Item :=
  { i with runs := [{ frame := f, first := k, len := i.want, hops := path }], at_ := f * 1024 + k + i.want }

namespace Chip

/-- A slot of a link is claimed in the zone's map. -/
def claimed (c : Chip) (p l slot : Nat) : Bool :=
  bit (SMap.get occNew (c.part p).occ (occKey (slot / 1024) l (slot % 1024 / 64))) (slot % 64)

theorem occupied_of_claimed {c : Chip} {p l slot : Nat} (h : c.claimed p l slot = true) : c.occupied p l slot = true := by
  rw [claimed] at h
  rw [occupied, h, Bool.or_true]

theorem claimed_congr {c d : Chip} {p : Nat} (h : (d.part p).occ = (c.part p).occ) (l slot : Nat) : d.claimed p l slot = c.claimed p l slot := by
  rw [claimed, h, ← claimed]

/-- Words of bad parity read as all ones (R171). -/
def badFull (c : Chip) (p : Nat) : Prop := ∀ b ∈ (c.part p).badWords, SMap.get occNew (c.part p).occ b = 2 ^ 64 - 1

theorem mark_badFull {c : Chip} {p : Nat} (full : c.badFull p) (l slot : Nat) (v : Bool) : (c.mark p l slot v).badFull p := by
  unfold mark
  extract_lets k
  split
  · exact full
  · next free =>
    rw [Bool.or_eq_true, decide_eq_true_eq, decide_eq_true_eq, not_or] at free
    intro b bad
    rw [part_modPart_same] at bad ⊢
    have other : k ≠ b := by
      rintro rfl
      exact free.2 bad
    exact (SMap.get_set_other _ _ _ other).trans (full b bad)

/-- A claim takes no other claim back. -/
theorem mark_keeps {c : Chip} {p l slot : Nat} (held : c.claimed p l slot = true) (l' slot' : Nat) :
    (c.mark p l' slot' true).claimed p l slot = true := by
  unfold mark
  extract_lets k
  split
  · exact held
  · unfold claimed at held ⊢
    rw [part_modPart_same]
    dsimp only
    rw [SMap.get_set]
    split
    · next same => rw [bit_setBit_true, same, held, Bool.or_true]
    · exact held

theorem mark_claims {c : Chip} {p : Nat} (full : c.badFull p) (l slot : Nat) : slot % 64 = 63 ∨ (c.mark p l slot true).claimed p l slot = true := by
  have small : slot % 64 < 64 := Nat.mod_lt _ (by decide)
  unfold mark
  extract_lets k
  split
  · next kept =>
    rw [Bool.or_eq_true, decide_eq_true_eq, decide_eq_true_eq] at kept
    refine kept.imp_right fun bad => ?_
    rw [claimed, full _ bad, bit_eq_testBit, Nat.testBit_two_pow_sub_one, decide_eq_true small]
  · right
    rw [claimed, part_modPart_same]
    dsimp only
    rw [SMap.get_set_same, bit_setBit_true, decide_eq_true rfl, Bool.true_or]

theorem markAll_keeps {c : Chip} {p l slot : Nat} (held : c.claimed p l slot = true) (m : List (Nat × Nat)) :
    (c.markAll p m true).claimed p l slot = true := by
  induction m generalizing c with
  | nil => exact held
  | cons e r ih => exact ih (mark_keeps held e.1 e.2)

/-- Every slot that is marked is a management slot or claimed. -/
theorem markAll_claims {c : Chip} {p : Nat} (full : c.badFull p) {m : List (Nat × Nat)} {e : Nat × Nat} (member : e ∈ m) :
    e.2 % 64 = 63 ∨ (c.markAll p m true).claimed p e.1 e.2 = true := by
  induction m generalizing c with
  | nil => cases member
  | cons x r ih =>
    rcases List.mem_cons.mp member with rfl | later
    · exact (mark_claims full e.1 e.2).imp_right fun held => markAll_keeps held r
    · exact ih (mark_badFull full x.1 x.2 true) later

theorem mark_jobs (c : Chip) (p l slot : Nat) (v : Bool) : ((c.mark p l slot v).part p).jobs = (c.part p).jobs := by
  unfold mark
  extract_lets k
  split
  · rfl
  · rw [part_modPart_same]

theorem markAll_jobs (c : Chip) (p : Nat) (m : List (Nat × Nat)) (v : Bool) : ((c.markAll p m v).part p).jobs = (c.part p).jobs := by
  induction m generalizing c with
  | nil => rfl
  | cons e r ih => exact (ih _).trans (c.mark_jobs p e.1 e.2 v)

/-! What is counted leaves the partitions alone. -/

theorem foldl_parts {α : Type} {f : Chip → α → Chip} (h : ∀ c x, (f c x).parts = c.parts) (l : List α) (c : Chip) :
    (l.foldl f c).parts = c.parts := by
  induction l generalizing c with
  | nil => rfl
  | cons x r ih => exact (ih (f c x)).trans (h c x)

theorem countFor_parts (c : Chip) (x : Nat) (r : Reg) (i n idx : Nat) : (c.countFor x r i n idx).parts = c.parts := by
  unfold countFor
  split
  · rfl
  · rfl

theorem pevent_parts (c : Chip) (p code x job layer op n : Nat) : (c.pevent p code x job layer op n).parts = c.parts := by
  unfold pevent
  split
  · rfl
  · exact foldl_parts (fun c _ => foldl_parts (fun c _ => c.countFor_parts ..) _ c) _ c

theorem jcount_parts (c : Chip) (p job : Nat) (r : Reg) (n : Nat) : (c.jcount p job r n).parts = c.parts := c.countFor_parts ..

theorem itemEvent_parts (c : Chip) (p job code : Nat) (i : Item) (n : Nat) : (c.itemEvent p job code i n).parts = c.parts := by
  unfold itemEvent
  extract_lets x
  split
  · exact c.pevent_parts ..
  · exact c.pevent_parts ..

theorem claimRun_parts (c : Chip) (p job w : Nat) (lead : Bool) (i : Item) (r : Placed) :
    (c.claimRun p job w lead i r).parts = (c.markRun p w lead r true).parts := by
  unfold claimRun
  extract_lets words d
  have counted : d.parts = (c.markRun p w lead r true).parts := (jcount_parts ..).trans (jcount_parts ..)
  exact (itemEvent_parts ..).trans ((itemEvent_parts ..).trans ((jcount_parts ..).trans counted))

theorem part_claimRun (c : Chip) (p job w : Nat) (i : Item) (r : Placed) :
    (c.claimRun p job w false i r).part p = (c.markAll p ((runSlots w r).map fun e => (e.1 - podLam (c.podOf p) 0, e.2)) true).part p := by
  rw [part, claimRun_parts, ← part]
  rfl

theorem jobOf_claimRun (c : Chip) (p job w : Nat) (i : Item) (r : Placed) (job' : Nat) :
    (c.claimRun p job w false i r).jobOf p job' = c.jobOf p job' := jobOf_congr (by rw [part_claimRun, markAll_jobs]) job'

/-! Items put back -/

theorem putItem_occ (c : Chip) (p job w : Nat) (lead : Bool) (i : Item) : ((c.putItem p job w lead i).part p).occ = (c.part p).occ := by
  unfold putItem modWin modJob
  rw [part_modPart_same]

/-- An item that is put back is found in its window. -/
theorem putItem_found {c : Chip} {p job w : Nat} {lead : Bool} {j : Job} {i i' : Item} {n : Nat} (found : c.jobOf p job = some j)
    (there : (j.win w lead).items.find? (fun y => y.id = n) = some i) (num : i'.id = n) :
    ∃ k, (c.putItem p job w lead i').jobOf p job = some k ∧ (k.win w lead).items.find? (fun y => y.id = n) = some i' := by
  subst num
  refine ⟨j.setWin ((Win.withItem i' (j.win w lead)).noted c.now), ?_, ?_⟩
  · have put : c.putItem p job w lead i' = c.modJob p job fun j => j.setWin ((Win.withItem i' (j.win w lead)).noted c.now) := rfl
    rw [put, c.jobOf_modJob (f := fun j => j.setWin ((Win.withItem i' (j.win w lead)).noted c.now)) (fun _ num => num), found, Option.map_some]
  · rw [j.win_setWin_noted c.now (Win.withItem_stays i'), Win.noted_items]
    exact find?_mapIf (p := fun y : Item => decide (y.id = i'.id)) there (decide_eq_true rfl)

end Chip

end Sys2Proof.Machine
end

section
/-! SUPPORT. A unit of one item that an engine places in one run (R181, R182). -/

namespace Sys2Proof.Machine

open Sys2Proof

namespace Chip

/-- Without bad words and races no hop of a run fails. -/
theorem failingHop_none (c : Chip) (p w : Nat) (lead : Bool) (r : Placed) : c.failingHop p w lead r {} = none := by
  unfold failingHop
  rw [List.findSome?_eq_none_iff]
  intro e _
  rfl

/-- A run that is claimed, and its item put back. -/
def placedOnce (c : Chip) (p job w : Nat) (i : Item) (r : Placed) : Chip := (c.claimRun p job w false i r).putItem p job w false i

/-- The search of an item whose chunks fit in one run ends with that run. -/
theorem placeRuns_once (c : Chip) {p job w f k : Nat} {j : Job} {i : Item} {path : List (Nat × Nat)} (n : Nat) (found : c.jobOf p job = some j)
    (there : (j.win w false).items.find? (fun y => y.id = i.id) = some i)
    (noRuns : i.runs = []) (wants : 0 < i.want) (short : listLen (j.win w false) i.src < 16384)
    (proposed : proposeRun (c.hopsClear p j (j.win w false) path) (holesFor j (j.win w false) i.cross) i.at_ i.want = some (f, k, i.want)) :
    c.placeRuns p job w false path (n + 2) i {} =
      (c.placedOnce p job w (i.placedAt f k path) { frame := f, first := k, len := i.want, hops := path },
        { i.placedAt f k path with ended := true }, {}) := by
  have need : i.want - i.placed = i.want := by rw [Item.placed, noRuns]; rfl
  have room : ¬(i.want = 0 ∨ 16384 ≤ listLen (j.win w false) i.src) := by omega
  have one : { i with runs := i.runs ++ [{ frame := f, first := k, len := i.want, hops := path }], at_ := f * 1024 + k + i.want } =
      i.placedAt f k path := by
    rw [noRuns]
    rfl
  have done : (i.placedAt f k path).want - (i.placedAt f k path).placed = 0 := Nat.sub_self i.want
  unfold placeRuns
  rw [found]
  dsimp only
  rw [need, if_neg room, proposed]
  dsimp only
  rw [failingHop_none]
  dsimp only
  rw [one]
  obtain ⟨k', put, -⟩ := putItem_found (i' := i.placedAt f k path) ((jobOf_claimRun ..).trans found) there rfl
  unfold placeRuns
  rw [put]
  dsimp only
  rw [done, if_pos (Or.inl rfl)]
  rfl

/-- An item whose path is open, placed in one run. -/
theorem placeItem_once (c : Chip) {p job w f k : Nat} {j : Job} {i : Item} {path : List (Nat × Nat)} (found : c.jobOf p job = some j)
    (there : (j.win w false).items.find? (fun y => y.id = i.id) = some i) (unended : i.ended = false)
    (noRuns : i.runs = []) (wants : 0 < i.want) (short : listLen (j.win w false) i.src < 16384) (locked : c.unlocked = false)
    (leads : c.itemPath p w (c.sliceOf j.slice) i = some path)
    (proposed : proposeRun (c.hopsClear p j (j.win w false) path) (holesFor j (j.win w false) i.cross) i.at_ i.want = some (f, k, i.want)) :
    c.placeItem p job w false i {} =
      ((c.placedOnce p job w (i.placedAt f k path) { frame := f, first := k, len := i.want, hops := path }).putItem p job w false
        { i.placedAt f k path with ended := true }, {}) := by
  obtain ⟨n, fuel⟩ : ∃ n, i.want + 1 = n + 2 := ⟨i.want - 1, by omega⟩
  unfold placeItem
  rw [unended, if_neg Bool.false_ne_true, found]
  dsimp only
  rw [locked, if_neg Bool.false_ne_true, leads]
  dsimp only
  rw [show i.want + ([] : List (Nat × Nat × Nat)).length + ([] : List (Nat × Nat)).length + 1 = n + 2 from fuel,
    c.placeRuns_once n found there noRuns wants short proposed, if_neg fun h => Bool.false_ne_true h.1]

end Chip

end Sys2Proof.Machine
end

section
/-! SUPPORT. An engine's work on the first unit of its deque (R181 to R184, R200). -/

namespace Sys2Proof.Machine

open Sys2Proof

namespace Chip

/-- Which slots of a path are clear for a window of the zone rests on the zone's map, not on the engines. -/
theorem enginesBut.hopsClear {c d : Chip} (h : enginesBut c d) (p : Nat) (j : Job) {x : Win} (zone : x.lead = false) (path : List (Nat × Nat)) :
    d.hopsClear p j x path = c.hopsClear p j x path := by
  unfold Chip.hopsClear
  rw [zone]
  dsimp only
  rw [if_neg Bool.false_ne_true, if_neg Bool.false_ne_true]
  simp only [h.podOf, h.occupied]

theorem serve_same (c : Chip) {p x : Nat} (serves : (c.part p).engines.ctx = some x) (work : x ∈ c.ctxWork p) : c.serve p = c := by
  unfold serve
  dsimp only
  rw [serves]
  exact if_pos work

theorem winOf_of_job {c : Chip} {p job : Nat} {j : Job} (found : c.jobOf p job = some j) (w : Nat) (lead : Bool) :
    c.winOf p job w lead = j.win w lead := by
  rw [winOf, found]

/-- The partition after an engine has placed the one item of its unit. -/
theorem part_placeUnit (c : Chip) {p e n x job w : Nat} {i : Item} {j : Job} (works : e ∈ c.working p)
    (serves : (c.part p).engines.ctx = some x) (work : x ∈ c.ctxWork p)
    (first : (c.deque p e).find? (fun y => c.unitCtx p y = some x && c.unitReady p y && !c.txnWait p y.job y.frame y.lead) =
      some { job := job, frame := w, lead := false, items := [n] })
    (found : c.jobOf p job = some j) (there : (j.win w false).items.find? (fun y => y.id = n) = some i) {d : Chip}
    (placed : (c.setDeque p e ((c.deque p e).erase { job := job, frame := w, lead := false, items := [n] })).placeItem p job w false i {} = (d, {})) :
    (c.placeUnit p e {}).part p = d.part p := by
  unfold placeUnit
  rw [c.serve_same serves work]
  extract_lets c₀ u
  have unit : u = some { job := job, frame := w, lead := false, items := [n] } := by
    unfold u c₀
    rw [if_pos works, serves]
    exact first
  rw [unit]
  dsimp -zeta -zetaHave only
  extract_lets c₁ r c₂ c₃
  have kept : ∀ l, ((c.setDeque p e l).part p).jobs = (c.part p).jobs := fun l => (enginesBut_modEngines c p _).jobs p
  have window : c₁.winOf p job w false = j.win w false := winOf_of_job ((jobOf_congr (kept _) job).trans found) w false
  have done : r = (d, {}) := by
    unfold r
    rw [List.foldl_cons, List.foldl_nil, window, there]
    exact placed
  have clean : c₂ = d := by
    unfold c₂
    rw [done]
    rfl
  have timed : c₃.part p = c₂.part p := by
    unfold c₃
    split
    · exact setReg_get_part ..
    · rfl
  rw [if_neg Bool.false_ne_true, timed, clean]

/-- An engine that places the one item of its unit in one run: the item ends with that run, whose slots are claimed. -/
theorem placeUnit_claims (c : Chip) {p e f k x job w : Nat} {i : Item} {j : Job} {path : List (Nat × Nat)} (works : e ∈ c.working p)
    (serves : (c.part p).engines.ctx = some x) (work : x ∈ c.ctxWork p)
    (first : (c.deque p e).find? (fun y => c.unitCtx p y = some x && c.unitReady p y && !c.txnWait p y.job y.frame y.lead) =
      some { job := job, frame := w, lead := false, items := [i.id] })
    (found : c.jobOf p job = some j) (there : (j.win w false).items.find? (fun y => y.id = i.id) = some i) (unended : i.ended = false)
    (noRuns : i.runs = []) (locked : c.unlocked = false) (leads : c.itemPath p w (c.sliceOf j.slice) i = some path) (wants : 0 < i.want)
    (short : listLen (j.win w false) i.src < 16384)
    (proposed : proposeRun (c.hopsClear p j (j.win w false) path) (holesFor j (j.win w false) i.cross) i.at_ i.want = some (f, k, i.want))
    (full : c.badFull p) :
    ((c.placeUnit p e {}).winOf p job w false).items.find? (fun y => y.id = i.id) = some { i.placedAt f k path with ended := true } ∧
      ∀ y ∈ runSlots w { frame := f, first := k, len := i.want, hops := path },
        y.2 % 64 = 63 ∨ (c.placeUnit p e {}).occupied p (y.1 - podLam (c.podOf p) 0) y.2 = true := by
  generalize rest : (c.deque p e).erase { job := job, frame := w, lead := false, items := [i.id] } = l
  have beside : enginesBut c (c.setDeque p e l) := enginesBut_modEngines c p _
  have here : (c.setDeque p e l).jobOf p job = some j := (jobOf_congr (beside.jobs p) job).trans found
  have once := (c.setDeque p e l).placeItem_once (f := f) (k := k) (path := path) here there unended noRuns wants short
    (beside.unlocked.trans locked) (by rw [beside.sliceOf, beside.itemPath, leads])
    (by rw [beside.hopsClear p j (j.win_lead w false), proposed])
  rw [← rest] at once
  have after := c.part_placeUnit works serves work first found there once
  rw [rest] at after
  obtain ⟨j₁, found₁, there₁⟩ := putItem_found (i' := i.placedAt f k path) ((jobOf_claimRun ..).trans here) there rfl
  obtain ⟨j₂, found₂, there₂⟩ := putItem_found (i' := { i.placedAt f k path with ended := true }) found₁ there₁ rfl
  refine ⟨?_, fun y slot => ?_⟩
  · rw [winOf_of_job ((jobOf_congr (congrArg Part.jobs after) job).trans found₂)]
    exact there₂
  · have fullHere : (c.setDeque p e l).badFull p := by
      unfold badFull
      rw [beside.badWords, beside.occ]
      exact full
    have taken := markAll_claims fullHere (List.mem_map_of_mem (f := fun (z : Nat × Nat) => (z.1 - podLam ((c.setDeque p e l).podOf p) 0, z.2)) slot)
    refine taken.imp_right fun held => occupied_of_claimed ?_
    rw [← beside.podOf, ← held]
    refine claimed_congr ?_ _ _
    rw [after, putItem_occ, placedOnce, putItem_occ, part_claimRun]

end Chip

end Sys2Proof.Machine
end

section
/-! SUPPORT. A window's demand, its gather point and its placement (R170 to R200). -/

namespace Sys2Proof.Machine

open Sys2Proof

/-- Settles O32: the work of a gather point and of a demand does not show in the window beyond what it sets (`unshown`), the ring is filled
frame by frame, and a unit's path and clear slots do not rest on the engines (`enginesBut`). -/
theorem windowPlacement : Obligations.WindowPlacement := by
  have zone : ∀ {p : Nat} {s : State}, s.alive p → p < 4096 := fun alive => lt_trans alive.1 (by decide)
  unfold Obligations.WindowPlacement
  refine ⟨?demand, ?newFrame, ?keptFrame, ?cut, ?gather, ?unit, ?idle, ?quantum⟩
  case demand =>
    intro t p src tag b j s alive fresh good found ungathered early unclosed inTime unfenced
    rw [Chip.winOf_of_job found] at ungathered unclosed ⊢
    obtain ⟨seen, answered⟩ := Chip.demand_taken (s.chip.started t) (zone alive) rfl fresh good found
      ungathered early unclosed inTime unfenced
    refine ⟨_, rfl, ?_⟩
    rw [State.panswered, State.chip_run_atPart t _ alive]
    have window := Chip.seen_winOf seen
    simp only [Win.seen, Prod.mk.injEq] at window
    obtain ⟨vectors, step, -⟩ := window
    exact ⟨(congrArg (List.map fun v : Vector => (v.src, v.tag, v.step, v.entries)) vectors).trans List.map_append, step, answered⟩
  case newFrame =>
    intro t p l w s alive hl hw jobless unfilled
    refine ⟨_, rfl, ?_⟩
    rw [State.chip_run_atPart t _ alive]
    exact (s.chip.started t).frameEntersRing_new hl hw jobless unfilled
  case keptFrame =>
    intro t p f l w s alive _ _ full here
    refine ⟨_, rfl, ?_⟩
    rw [State.chip_run_atPart t _ alive]
    exact (s.chip.started t).frameEntersRing_filled l w full here
  case cut =>
    intro t p job w j s alive found free grid due runs holes fresh
    refine ⟨_, rfl, ?_⟩
    rw [State.chip_run_atPart t _ alive]
    have window := Chip.seen_winOf ((s.chip.started t).winSeen_placementCut (zone alive) found free grid due runs holes fresh)
    simp only [Win.seen, Prod.mk.injEq] at window
    obtain ⟨-, -, gathered, missing, -⟩ := window
    exact ⟨gathered, missing⟩
  case gather =>
    intro t p job w j s alive found ordered grid due runs holes fresh
    refine ⟨_, rfl, ?_⟩
    rw [State.chip_run_atPart t _ alive]
    have window := Chip.seen_winOf ((s.chip.started t).winSeen_gatherPoint (zone alive) found ordered grid due runs holes fresh)
    simp only [Win.seen, Prod.mk.injEq] at window
    obtain ⟨-, -, gathered, missing, -⟩ := window
    exact ⟨gathered, missing⟩
  case unit =>
    intro t p e n f k x job w i j path s alive works serves work first found there named unended noRuns locked leads wants short proposed full
    subst named
    refine ⟨_, rfl, ?_⟩
    rw [State.chip_run_atPart t _ alive]
    exact (s.chip.started t).placeUnit_claims works serves work first found there unended noRuns locked leads wants short proposed full
  case idle =>
    intro t p e s alive works idle spare
    refine ⟨_, rfl, ?_⟩
    rw [State.chip_run_atPart t _ alive]
    exact (s.chip.started t).engineIdle_spare works idle spare
  case quantum =>
    intro t p x y s alive serves spent waits other
    refine ⟨_, rfl, ?_⟩
    rw [State.chip_run_atPart t _ alive]
    exact (s.chip.started t).quantumExpiry_passes serves spent waits other

end Sys2Proof.Machine
end

section
/-! SUPPORT. The bytes of a tile's header, and the CRC-32C that a sealed tile carries (R214). -/

namespace Sys2Proof

theorem ofBytes_bytesOf (n v : Nat) : ofBytes (bytesOf n v) = v % 2 ^ (8 * n) := by
  induction n generalizing v with
  | zero => simp [bytesOf, ofBytes, Nat.mod_one]
  | succ n ih =>
    rw [bytesOf, ofBytes, ih, Nat.mod_mod, show 2 ^ (8 * (n + 1)) = 256 * 2 ^ (8 * n) by ring, Nat.mod_mul]

theorem forced_eq {α : Type} (n : Nat) (f : Nat → α) : forced n f = f n := by
  cases n <;> rfl

namespace SMap

variable {α : Type}

/-- A key below every listed key reads the default. -/
theorem get_of_below (d : α) {m : SMap α} {k : Nat} (below : ∀ e ∈ m, k < e.1) : get d m k = d := by
  induction m with
  | nil => rfl
  | cons e r ih =>
    rw [List.forall_mem_cons] at below
    obtain ⟨first, rest⟩ := below
    rw [get, find?, if_neg (by omega), ← get]
    exact ih rest

end SMap

namespace Machine

/-- The CRC over a sparse byte list is the CRC over the bytes that it stands for. -/
theorem AC.crcSparse_eq (n : Nat) : ∀ (i : Nat) (m : SMap Nat) (c : Nat), (∀ e ∈ m, i ≤ e.1) → (m.Pairwise fun a b => a.1 < b.1) →
    AC.crcSparse n i m c = ((List.range' i n).map (SMap.get 0 m)).foldl crcByte c ^^^ 0xFFFFFFFF := by
  induction n with
  | zero => intro i m c _ _; cases m <;> rfl
  | succ n ih =>
    intro i m c above rising
    rw [List.range'_succ, List.map_cons, List.foldl_cons]
    cases m with
    | nil => rw [AC.crcSparse, forced_eq, ih _ _ _ (by simp) rising, SMap.get_nil]
    | cons e r =>
      obtain ⟨k, v⟩ := e
      have sorted := List.pairwise_cons.1 rising
      rw [List.forall_mem_cons] at above
      obtain ⟨first, -⟩ := above
      rw [AC.crcSparse]
      by_cases here : k = i
      · subst here
        have later : (List.range' (k + 1) n).map (SMap.get 0 ((k, v) :: r)) = (List.range' (k + 1) n).map (SMap.get 0 r) := by
          refine List.map_congr_left fun j hj => ?_
          have := (List.mem_range'_1.1 hj).1
          rw [SMap.get, SMap.find?, if_neg (by omega), ← SMap.get]
        rw [if_pos rfl, forced_eq, ih _ _ _ sorted.1 sorted.2, later, SMap.get, SMap.find?, if_pos rfl, Option.getD_some]
      · have next : ∀ e ∈ (k, v) :: r, i < e.1 :=
          List.forall_mem_cons.2 ⟨by omega, fun e he => lt_trans (by omega : i < k) (sorted.1 e he)⟩
        rw [if_neg here, forced_eq, ih _ _ _ next rising, SMap.get_of_below 0 next]

namespace Tile

variable (t : Tile)

theorem header_drop : t.header.drop 4 = t.head := rfl

/-- The CRC that a header should carry is that of the bytes after it and of the payload. -/
theorem goodCrc_eq (rising : SMap.sorted t.data = true) :
    t.goodCrc = crc32c (t.head ++ (List.range 2048).map t.byte) := by
  rw [goodCrc, AC.crcSparse_eq 2048 0 _ _ (fun _ _ => Nat.zero_le _) ((SMap.sorted_iff _).1 rising), crc32c, List.foldl_append,
    List.range_eq_range']
  rfl

end Tile

/-- Settles O56: the header's fields are read off its bytes, and the sparse payload's CRC is that of its 2,048 bytes. -/
theorem tileHeaders : Obligations.TileHeaders := by
  unfold Obligations.TileHeaders
  refine ⟨fun t => ?_, fun t rising => ⟨?_, rfl⟩⟩
  · refine ⟨rfl, ?_, ?_, rfl, rfl, ?_, ?_⟩
    · exact ofBytes_bytesOf 4 t.crc
    · exact ofBytes_bytesOf 4 t.gen
    · exact ofBytes_bytesOf 2 t.shape
    · exact ofBytes_bytesOf 4 t.index
  · rw [Tile.header_drop]
    exact t.goodCrc_eq rising

end Machine

end Sys2Proof
end

section
/-! SUPPORT. What a function of the block that ignores registers, partitions, the recorder and what leaves the block sees of a record of Hen and of
the capture that it triggers: nothing (R394 to R397, R429 to R432). -/

namespace Sys2Proof.Machine

open Sys2Proof

/-- A function of the block that ignores its registers, its partitions, its recorder and what leaves it. -/
structure Chip.Unlogged {β : Type} (f : Chip → β) : Prop where
  setReg : ∀ c r i x v, f (Chip.setReg c r i x v) = f c
  modPart : ∀ c p g, f (Chip.modPart c p g) = f c
  modHen : ∀ c g, f (Chip.modHen c g) = f c
  emit : ∀ c e, f (Chip.emit c e) = f c

namespace Chip.Unlogged

variable {β : Type} {f : Chip → β}

theorem ite {x : Prop} [Decidable x] {c d : Chip} {y : β} (hc : f c = y) (hd : f d = y) : f (if x then c else d) = y := by
  split
  · exact hc
  · exact hd

variable (b : Unlogged f) (c : Chip)
include b

theorem countN (r : Reg) (i n : Nat) : f (c.countN r i n) = f c := b.setReg c r i 0 (min (c.reg r i + n) (2 ^ r.width - 1))

theorem count (r : Reg) (i : Nat) : f (c.count r i) = f c := b.countN c r i 1

/-! Capture -/

variable (p : Nat) (nat : Bool)

theorem setStream (x : Stream) : f (c.setStream p nat x) = f c := b.modPart _ _ _

theorem publish (before : Nat) : f (c.publish p nat before) = f c := by
  have offsets : ∀ m n : Nat, f (if nat then (c.setReg .TRACE_NAT_FIRST p 0 m).setReg .TRACE_NAT_NEXT p 0 n
      else (c.setReg .TRACE_CMP_FIRST p 0 m).setReg .TRACE_CMP_NEXT p 0 n) = f c := fun m n =>
    ite ((b.setReg _ _ _ _ _).trans (b.setReg _ _ _ _ _)) ((b.setReg _ _ _ _ _).trans (b.setReg _ _ _ _ _))
  unfold Chip.publish
  exact ite (offsets _ _) ((b.countN _ _ _ _).trans (offsets _ _))

theorem drainStream : f (c.drainStream p nat) = f c := by
  unfold Chip.drainStream
  exact ite rfl ((b.publish _ p nat _).trans (b.setStream c p nat _))

theorem putRaw (marker : Bool) (l : List Nat) : f (c.putRaw p nat marker l) = f c := by
  have put := fun x => (b.publish (c.setStream p nat x) p nat (c.stream p nat).written).trans (b.setStream c p nat x)
  unfold Chip.putRaw
  exact ite (ite ((b.countN _ _ _ _).trans (put _)) ((b.count _ _ _).trans (put _))) (ite ((b.count _ _ _).trans (put _)) (put _))

theorem timebase : f (c.timebase p nat) = f c := (b.setStream _ p nat _).trans (b.putRaw c p nat true _)

theorem putRecord (marker : Bool) (l : List Nat) : f (c.putRecord p nat marker l) = f c := by
  have drained := b.drainStream c p nat
  have based := ite (x := ((c.drainStream p nat).stream p nat).high ≠ (c.drainStream p nat).now >>> 44 ∨
    65536 ≤ ((c.drainStream p nat).stream p nat).sinceBase) ((b.timebase _ p nat).trans drained) drained
  have put := (b.putRaw _ p nat marker l).trans based
  unfold Chip.putRecord
  refine ite rfl ?_
  dsimp only
  split
  · exact ite put (ite ((b.setStream _ p nat _).trans put) ((b.setStream _ p nat _).trans ((b.putRaw _ p nat true _).trans put)))
  · exact put

theorem endDrop : f (c.endDrop p nat) = f c := by
  unfold Chip.endDrop
  dsimp only
  split
  · rfl
  · exact (b.timebase _ p nat).trans ((b.count _ _ _).trans ((b.putRaw _ p nat true _).trans (b.setStream c p nat _)))

theorem triggerStream (tail : Nat) : f (c.triggerStream p nat tail) = f c := by
  have dropped := (b.putRecord ((c.drainStream p nat).endDrop p nat) p nat true
    (traceRec ((c.drainStream p nat).endDrop p nat).now 5 0 p tail)).trans ((b.endDrop _ p nat).trans (b.drainStream c p nat))
  unfold Chip.triggerStream
  exact ite rfl (ite ((b.setStream _ p nat _).trans (ite ((b.putRaw _ p nat true _).trans dropped) dropped)) dropped)

omit nat in
theorem triggerCore (src job layer op : Nat) : f (c.triggerCore p src job layer op).1 = f c := by
  unfold Chip.triggerCore
  split
  · rfl
  · split
    · have marked := (b.triggerStream (c.triggerStream p true (traceTail src 0 job layer op)) p false (traceTail src 0 job layer op)).trans
        (b.triggerStream c p true _)
      have shown := fun v => ((b.setReg (((c.triggerStream p true (traceTail src 0 job layer op)).triggerStream p false
        (traceTail src 0 job layer op)).count .TRACE_TRIGGERS p |>.setReg .TRACE_TRIG_AT p 0 v) .TRACE_STATE p 0 2).trans
          ((b.setReg _ .TRACE_TRIG_AT p 0 v).trans (b.count _ .TRACE_TRIGGERS p))).trans marked
      exact ite ((b.emit _ _).trans (shown _)) (shown _)
    · exact b.count _ _ _
    · exact b.count _ _ _
    · rfl

/-! Hen -/

omit p nat

theorem henPublish (next : Nat) : f (c.henPublish next) = f c :=
  (b.setReg _ _ _ _ _).trans ((b.setReg _ _ _ _ _).trans (b.setReg _ _ _ _ _))

theorem henRing (x : HenRec) : f (c.henRing x) = f c := by
  unfold Chip.henRing
  refine ite (b.count _ _ _) ?_
  cases x with
  | fixed r => exact (b.count _ _ _).trans ((b.henPublish _ _).trans (b.modHen _ _))
  | var => exact (b.count _ _ _).trans ((b.modHen _ _).trans ((b.henPublish _ _).trans (b.modHen _ _)))

theorem henStore (src : Nat) (r : FixedRec) : f (henFixed.store c src r) = f c := by
  unfold henFixed.store
  exact ite ((b.count _ _ _).trans ((b.henPublish _ _).trans ((b.modHen _ _).trans (b.modHen _ _)))) ((b.henRing _ _).trans (b.modHen _ _))

theorem henFixed (src code part : Nat) (params : List Nat) (hidden : Bool) : f (c.henFixed src code part params hidden) = f c := by
  have taken : f c.henTake = f c := by
    unfold Chip.henTake
    exact b.modHen _ _
  have queued := (b.modHen c.henTake fun g => { g with queue := g.queue ++ [src] }).trans taken
  unfold Chip.henFixed
  refine ite ((b.modHen _ _).trans ((b.count _ _ _).trans taken)) ?_
  dsimp only
  split
  · exact ite ((b.count _ _ _).trans ((b.modHen _ _).trans queued)) ((b.henStore _ _ _).trans queued)
  · exact (b.henStore _ _ _).trans queued

theorem henPart (p code : Nat) (params : List Nat) (hidden : Bool) : f (c.henPart p code params hidden) = f c := by
  have recorded := b.henFixed c p code p params hidden
  have triggered := (b.triggerCore (c.henFixed p code p params hidden) p 3 0 0 0).trans recorded
  unfold Chip.henPart
  exact ite (ite ((b.henFixed _ _ _ _ _ _).trans triggered) triggered) recorded

end Chip.Unlogged

/-- Host memory, the commands of the queues and the contexts are none of what recording changes. -/
theorem Chip.unlogged_store : Chip.Unlogged fun c => (c.hostMem, c.cmds, c.ctxs) where
  setReg _ _ _ _ _ := rfl
  modPart _ _ _ := rfl
  modHen _ _ := rfl
  emit _ _ := rfl

end Sys2Proof.Machine
end

section
/-! SUPPORT. What the work of the Mules and of the cluster leaves of the block before the completion record: tiles and host memory outside what the
work is given, the commands of the queues, the ports of the contexts, and the registers of other pages (R217, R353, R373). -/

namespace Sys2Proof.Machine

open Sys2Proof

/-- The pages whose registers the work of a Mule or of the cluster may change before its record: their own, the counter sets, that of the triples that
no manifest lists, and those of what is recorded. -/
def workPages : List Page := [.HEN, .TRACE, .PCOUNTERS, .IMAGE, .MULE, .MIOBOR]

theorem logReg_of_workPages {r : Reg} (other : r.desc.page ∉ workPages) : logReg r = false := by
  rw [Bool.eq_false_iff]
  intro log
  simp only [logReg, Bool.or_eq_true, beq_iff_eq] at log
  rcases log with page | page <;> exact other (page ▸ by decide)

namespace Chip

/-- Every tile outside `T`, by partition and number, and every byte of host memory outside `H`, by port and address, is as before. -/
def spares (T H : Nat → Nat → Prop) (c d : Chip) : Prop :=
  (∀ q n, ¬T q n → d.tile q n = c.tile q n) ∧ ∀ k a, a < 2 ^ 64 → ¬H k a → d.hostByte k a = c.hostByte k a

/-- Work within `T` and `H`: beside them only what it counts and records has changed, in registers of the pages `P`. -/
def workBut (P : List Page) (T H : Nat → Nat → Prop) (c d : Chip) : Prop :=
  spares T H c d ∧ d.cmds = c.cmds ∧ (∀ x, (d.ctx x).port = (c.ctx x).port) ∧
    ∀ r i, r.desc.page ∉ P → i < 4096 → d.reg r i = c.reg r i

variable {P : List Page} {T H : Nat → Nat → Prop}

theorem spares_of_same {c d : Chip} (mem : d.hostMem = c.hostMem) (tiles : ∀ q, (d.part q).tiles = (c.part q).tiles) : spares T H c d :=
  ⟨fun q n _ => by rw [tile, tiles, ← tile], fun k a _ _ => by rw [hostByte, mem, ← hostByte]⟩

theorem spares.trans {c d f : Chip} (h : spares T H c d) (k : spares T H d f) : spares T H c f :=
  ⟨fun q n out => (k.1 q n out).trans (h.1 q n out), fun q a small out => (k.2 q a small out).trans (h.2 q a small out)⟩

/-- Either branch spares them. -/
theorem spares_ite {x : Prop} [Decidable x] {c d f : Chip} (h : spares T H c d) (k : spares T H c f) : spares T H c (if x then d else f) := by
  split
  · exact h
  · exact k

namespace workBut

theorem refl (c : Chip) : workBut P T H c c := ⟨spares_of_same rfl fun _ => rfl, rfl, fun _ => rfl, fun _ _ _ _ => rfl⟩

theorem trans {c d f : Chip} (h : workBut P T H c d) (k : workBut P T H d f) : workBut P T H c f := by
  obtain ⟨memory, cmds, ports, regs⟩ := h
  obtain ⟨memory', cmds', ports', regs'⟩ := k
  exact ⟨memory.trans memory', cmds'.trans cmds, fun x => (ports' x).trans (ports x),
    fun r i other small => (regs' r i other small).trans (regs r i other small)⟩

theorem foldl_mem {α : Type} {f : Chip → α → Chip} {l : List α} (h : ∀ x ∈ l, ∀ c, workBut P T H c (f c x)) (c : Chip) :
    workBut P T H c (l.foldl f c) := by
  induction l generalizing c with
  | nil => exact refl c
  | cons x r ih => exact (h x List.mem_cons_self c).trans (ih (fun y hy => h y (List.mem_cons_of_mem x hy)) (f c x))

section
variable {c d : Chip} (h : workBut P T H c d)
include h

/-- A step that leaves alone all that is looked at. -/
theorem same {f : Chip} (mem : f.hostMem = d.hostMem) (parts : f.parts = d.parts) (cmds : f.cmds = d.cmds) (ctxs : f.ctxs = d.ctxs)
    (regs : f.regs = d.regs) : workBut P T H c f := by
  refine h.trans ⟨spares_of_same mem fun q => ?_, cmds, fun x => ?_, fun r i _ _ => ?_⟩
  · rw [part, parts, ← part]
  · rw [ctx, ctxs, ← ctx]
  · rw [reg, regs, ← reg]

theorem ite {x : Prop} [Decidable x] {f : Chip} (k : workBut P T H c f) : workBut P T H c (if x then d else f) := by
  split
  · exact h
  · exact k

theorem setReg {r : Reg} {i : Nat} (x v : Nat) (work : r.desc.page ∈ P) (hi : i < 4096) (hx : x < 64) :
    workBut P T H c (d.setReg r i x v) := by
  refine h.trans ⟨spares_of_same rfl fun _ => rfl, rfl, fun _ => rfl, fun r' j other small => ?_⟩
  refine reg_setReg_far d v ?_ hi small hx (by decide)
  rintro rfl
  exact other work

theorem countN {r : Reg} {i : Nat} (x n : Nat) (work : r.desc.page ∈ P) (hi : i < 4096) (hx : x < 64) : workBut P T H c (d.countN r i n x) :=
  h.setReg x (min (d.reg r i x + n) (2 ^ r.width - 1)) work hi hx

theorem modPart (p : Nat) {f : Part → Part} (keeps : ∀ x, (f x).tiles = x.tiles) : workBut P T H c (d.modPart p f) := by
  refine h.trans ⟨spares_of_same rfl fun q => ?_, rfl, fun _ => rfl, fun _ _ _ _ => rfl⟩
  rw [part_modPart]
  split
  · next here => rw [keeps, here]
  · rfl

theorem drawn : workBut P T H c d.drawn := h.same rfl rfl rfl rfl rfl

/-! Counting -/

variable {p : Nat} (hp : p < 4096)
include hp

theorem countFor (x : Nat) {r : Reg} (n : Nat) {idx : Nat} (work : r.desc.page ∈ P) (hx : idx < 64) :
    workBut P T H c (d.countFor x r p n idx) := by
  have banked : ∀ g : Ctx → Ctx, (∀ k, (g k).port = k.port) → workBut P T H c (d.modCtx x g) := fun g keeps => by
    refine h.trans ⟨spares_of_same rfl fun _ => rfl, rfl, fun y => ?_, fun _ _ _ _ => rfl⟩
    simp only [ctx, Chip.modCtx, SMap.get_set]
    split
    · next here => rw [keeps, here]
    · rfl
  unfold Chip.countFor
  refine ite (banked _ fun k => ?_) (h.countN idx n work hp hx)
  show (bankAt d.now k).port = k.port
  unfold bankAt
  split <;> rfl

theorem pevent (sets : Page.PCOUNTERS ∈ P) (code x job layer op n : Nat) : workBut P T H c (d.pevent p code x job layer op n) := by
  unfold Chip.pevent
  refine ite h (h.trans (foldl_mem (fun s member f => foldl_mem (fun i inSet f => ?_) f) d))
  have set := List.mem_range.mp (List.mem_filter.mp member).1
  have counter := List.mem_range.mp (List.mem_filter.mp inSet).1
  exact (refl f).countFor hp x n sets (by omega)

/-- An amount of a command's work, in its counter and in the counter sets that select its event. -/
theorem tally (sets : Page.PCOUNTERS ∈ P) (e : Desc) {r : Reg} (code n : Nat) (work : r.desc.page ∈ P) :
    workBut P T H c ((d.countFor e.ctx r p n).pevent p code e.ctx e.job e.layer e.operator n) :=
  (h.countFor hp e.ctx n work (by decide)).pevent hp sets ..

end

/-! Tiles and host memory -/

section
variable {c d : Chip} (h : workBut P T H c d)
include h

theorem setTile {p n : Nat} (t : Tile) (inside : T p n) : workBut P T H c (d.setTile p n t) := by
  refine h.trans ⟨⟨fun q m out => ?_, fun _ _ _ _ => rfl⟩, rfl, fun _ => rfl, fun _ _ _ _ => rfl⟩
  refine tile_setTile_other d t ?_
  by_contra both
  rw [not_or, not_not, not_not] at both
  obtain ⟨rfl, rfl⟩ := both
  exact out inside

theorem writeHost {port b : Nat} {l : List Nat} (inside : ∀ j < l.length, H port ((b + j) % 2 ^ 64)) :
    workBut P T H c (d.writeHost port b l) := by
  obtain ⟨regs, -, ctxs, -, -, cmds⟩ := writeHost_deskSame port l d b
  refine h.trans ⟨⟨fun q n _ => ?_, fun k a small out => ?_⟩, cmds, fun x => ?_, fun r i _ _ => ?_⟩
  · rw [tile, part, writeHost_parts, ← part, ← tile]
  · refine hostByte_writeHost_other port k a l d b fun j hj key => ?_
    obtain ⟨rfl, place⟩ := hostKey_inj key
    rw [Nat.mod_eq_of_lt small] at place
    exact out (place ▸ inside j hj)
  · rw [ctx, ctxs, ← ctx]
  · rw [reg, regs, ← reg]

end

/-! What is recorded -/

section
variable {c d : Chip} (h : workBut workPages T H c d) {p : Nat} (hp : p < 4096)
include h hp

theorem henPart (code : Nat) (params : List Nat) (hidden : Bool) : workBut workPages T H c (d.henPart p code params hidden) := by
  obtain ⟨parts, regs⟩ := (logsBut.refl d).henPart hp code params hidden
  have store := unlogged_store.henPart d p code params hidden
  simp only [Prod.mk.injEq] at store
  obtain ⟨mem, cmds, ctxs⟩ := store
  refine h.trans ⟨spares_of_same mem fun q => ?_, cmds, fun x => ?_, fun r i other small => regs r i (logReg_of_workPages other) small⟩
  · rw [parts q]
  · rw [ctx, ctxs, ← ctx]

theorem henCtx (x code : Nat) (params : List Nat) : workBut workPages T H c (d.henCtx x p code params) := h.henPart hp code params _

theorem henAny (code x : Nat) : workBut workPages T H c (d.henAny p code x) :=
  (h.same (f := { d with freeCtr := d.freeCtr + 4 }) rfl rfl rfl rfl rfl).henCtx hp x code _

theorem noteTriple (x : Nat) (e : Desc) : workBut workPages T H c (d.noteTriple p x e) := by
  unfold Chip.noteTriple
  refine ite h (henCtx (countFor (h.modPart p ?_) hp x 1 (by decide) (by decide)) hp x _ _)
  exact fun _ => rfl

end

end workBut

end Chip

end Sys2Proof.Machine
end

section
/-! SUPPORT. The completion record of a compute or Mule command after such work: it lies where it would have lain before, and nothing else of the
memories changes (R350, R353, R358). -/

namespace Sys2Proof

/-- A compute or Mule queue of a context and a partition that exist. -/
def QId.ofUnit (i : QId) : Prop := ∃ x p, x < 64 ∧ p < 16 ∧ (i = .compute x p ∨ i = .mule x p)

namespace QId.ofUnit

open Sys2Proof.Machine

variable {i : QId} (unit : i.ofUnit)
include unit

theorem ringed : i.ringed = true := by
  obtain ⟨x, p, -, -, rfl | rfl⟩ := unit <;> rfl

theorem inst_lt : i.inst < 4096 := by
  obtain ⟨x, p, hx, hp, rfl | rfl⟩ := unit <;> simp only [QId.inst] <;> omega

/-- The registers of its rings are on the page of the context's queues. -/
theorem page_reg (f : QField) : (i.reg f).desc.page = .CTXQ := by
  obtain ⟨x, p, -, -, rfl | rfl⟩ := unit <;> cases f <;> rfl

theorem idle_ne {f : QField} (other : f = .cqBase ∨ f = .cqTail) : i.reg .idle ≠ i.reg f := by
  obtain ⟨x, p, -, -, rfl | rfl⟩ := unit <;> rcases other with rfl | rfl <;> exact Reg.noConfusion

theorem queuePort (c : Chip) : c.queuePort i = (c.ctx i.ctx).port := by
  obtain ⟨x, p, -, -, rfl | rfl⟩ := unit <;> rfl

end QId.ofUnit

end Sys2Proof

namespace Sys2Proof.Machine

open Sys2Proof

namespace Chip

/-- The next completion record of a queue, whose command has the TAG, lies in `H` (R353). -/
def recordFits (H : Nat → Nat → Prop) (c : Chip) (i : QId) (tag : Nat) : Prop :=
  ∀ j < 16, H (c.recordPort i tag) ((c.q i .cqBase + 16 * c.q i .cqTail + j) % 2 ^ 64)

/-- The memories outside `T` and `H` are as before, and so is the place of the next completion record of a queue. -/
def deskBut (T H : Nat → Nat → Prop) (i : QId) (tag : Nat) (c d : Chip) : Prop :=
  spares T H c d ∧ d.recordPort i tag = c.recordPort i tag ∧ d.q i .cqBase = c.q i .cqBase ∧ d.q i .cqTail = c.q i .cqTail

variable {T H : Nat → Nat → Prop} {i : QId} {tag : Nat}

theorem deskBut.refl (c : Chip) : deskBut T H i tag c c := ⟨spares_of_same rfl fun _ => rfl, rfl, rfl, rfl⟩

theorem deskBut.trans {c d f : Chip} (h : deskBut T H i tag c d) (k : deskBut T H i tag d f) : deskBut T H i tag c f := by
  obtain ⟨memory, port, base, tail⟩ := h
  obtain ⟨memory', port', base', tail'⟩ := k
  exact ⟨memory.trans memory', port'.trans port, base'.trans base, tail'.trans tail⟩

/-- A command whose record is lost writes nothing to host memory. -/
theorem completeDesc_lost (c : Chip) {e : Desc} (status detail : Nat) (ringed : i.ringed = true)
    (down : c.recordLost (c.recordPort i e.tag) = true) : storeSame c (c.completeDesc i e status detail) := by
  unfold completeDesc
  simp only [ringed, down, Bool.not_true, Bool.false_eq_true, if_false, if_true]
  have counted := (storeSame.refl c).trans (d := c.count .HOSTPORT_CQ_LOST (c.reg .DEVICE_ACTIVE_PORT)) ⟨rfl, rfl, rfl⟩
  refine storeSame.trans (storeSame.ite (storeSame.setQ ?_ i .idle 1) ?_) (storeSame.fetch i i.ahead _)
  all_goals exact (counted.countDone i status).trans ⟨rfl, rfl, rfl⟩

/-- A command that nothing has fetched, taken as fetched and started now. -/
def arrived (c : Chip) (i : QId) (e : Desc) : Cmd :=
  { q := i, d := e, seq := c.cmdSeq, fetched := c.now, started := some c.now, port := some (c.queuePort i) }

theorem start_arrived {c : Chip} {e : Desc} (found : c.cmdOf i e.tag = none) (ringed : i.ringed = true) :
    c.start i e = ({ c with cmds := c.cmds ++ [c.arrived i e], cmdSeq := c.cmdSeq + 1 } : Chip).setReg (i.reg .idle) i.inst 0 0 := by
  simp only [start, found, setQ, ringed, if_true, arrived]

theorem cmdOf_arrived {c : Chip} {e : Desc} (found : c.cmdOf i e.tag = none) (ringed : i.ringed = true) :
    (c.start i e).cmdOf i e.tag = some (c.arrived i e) := by
  rw [start_arrived found ringed]
  rw [cmdOf] at found
  rw [cmdOf, setReg_cmds, List.find?_append, found, Option.none_or]
  simp [arrived]

section
variable (unit : i.ofUnit)
include unit

theorem workBut.desk {c d : Chip} (h : workBut workPages T H c d) : deskBut T H i tag c d := by
  obtain ⟨memory, cmds, ports, regs⟩ := h
  have ring : ∀ f, d.q i f = c.q i f := fun f => regs _ _ (by rw [unit.page_reg]; decide) unit.inst_lt
  refine ⟨memory, ?_, ring _, ring _⟩
  simp only [recordPort, cmdOf, cmds, unit.queuePort, ports]

/-- A command starts: its queue's record stays where it was. -/
theorem start_desk (c : Chip) (e : Desc) : deskBut T H i e.tag c (c.start i e) := by
  cases found : c.cmdOf i e.tag with
  | some x =>
    rw [start_begun found]
    refine ⟨spares_of_same rfl fun _ => rfl, ?_, rfl, rfl⟩
    simp only [recordPort, found, cmdOf_begun found]
    rfl
  | none =>
    have ring : ∀ f, (f = .cqBase ∨ f = .cqTail) → (c.start i e).q i f = c.q i f := fun f other => by
      rw [start_arrived found unit.ringed]
      exact (RegFile.get_set _ _ _ _ _ _).trans (if_neg (unit.idle_ne other))
    refine ⟨?_, ?_, ring _ (.inl rfl), ring _ (.inr rfl)⟩
    · rw [start_arrived found unit.ringed]
      exact spares_of_same rfl fun _ => rfl
    · rw [recordPort, cmdOf_arrived found unit.ringed, recordPort, found]
      rfl

/-- A command completes after work within `T` and `H`: the memories outside them, and outside its record, are as before. -/
theorem deskBut.completeDesc {c d : Chip} {e : Desc} (h : deskBut T H i e.tag c d) (fits : c.recordFits H i e.tag) (status detail : Nat) :
    spares T H c (d.completeDesc i e status detail) := by
  obtain ⟨memory, port, base, tail⟩ := h
  refine memory.trans ?_
  cases lost : d.recordLost (d.recordPort i e.tag) with
  | true =>
    have same := completeDesc_lost d status detail unit.ringed lost
    exact spares_of_same same.1 fun q => by rw [same.part]
  | false =>
    have same := completeDesc_storeSame d status detail unit.ringed lost
    have written : workBut workPages T H d
        (d.writeHost (d.recordPort i e.tag) (d.q i .cqBase + 16 * d.q i .cqTail) (d.recordBytes i e status detail)) := by
      refine (workBut.refl d).writeHost fun j hj => ?_
      rw [length_recordBytes] at hj
      rw [port, base, tail]
      exact fits j hj
    exact written.1.trans (spares_of_same same.1 fun q => by rw [same.part])

end

end Chip

end Sys2Proof.Machine
end

section
/-! SUPPORT. What a Mule command writes: its destination tiles, its host range and its record (R373, R381). -/

namespace Sys2Proof.Machine

open Sys2Proof

/-- The destination tiles of a Mule command in partition `p` lie in `T`, and what it writes to the host of `port` in `H`. -/
def MuOps.within (o : MuOps) (T H : Nat → Nat → Prop) (p port : Nat) : Prop :=
  (o.writesTiles = true → ∀ j < o.count, T p (o.dst + j)) ∧
    (o.op = 0x22 → ∀ j < o.count * o.hostSize, H port ((o.dst + j) % 2 ^ 64))

theorem Tile.length_header (t : Tile) : t.header.length = 16 := rfl

/-- The bytes that a Mule sends to the host for one tile. -/
def MuOps.hostBody (o : MuOps) (t : Tile) : List Nat := (if o.withHdr then t.header else []) ++ (List.range 2048).map t.byte

theorem MuOps.length_hostBody {o : MuOps} (toHost : o.op = 0x22) (t : Tile) : (o.hostBody t).length = o.hostSize := by
  have notFrom : o.op ≠ 0x21 := by omega
  rw [hostBody, hostSize, if_neg notFrom, if_pos toHost, List.length_append, List.length_map, List.length_range]
  cases o.withHdr with
  | false => rfl
  | true => exact congrArg (· + 2048) t.length_header

namespace Chip

variable {T H : Nat → Nat → Prop}

/-- One tile of a Mule command whose COUNT goes past the share: taken or left, as a free value has it, with the number of those taken. -/
def muleTaken (c0 : Chip) (p x port : Nat) (o : MuOps) (a : Chip × Nat) (j : Nat) : Chip × Nat :=
  if a.1.freeVal 1 == 1 then (match c0.muleStep a.1.drawn p x port o j with | .inl c => (c, a.2 + 1) | .inr _ => (a.1.drawn, a.2))
  else (a.1.drawn, a.2)

/-- The block after a Mule has written the tile at place `j`, where its command writes tiles. -/
def muleWritten (c0 c : Chip) (p x port : Nat) (o : MuOps) (j : Nat) : Chip :=
  if o.writesTiles then
    let c := c.setTile p (o.dst + j) (c0.muleTile c p x port o j)
    if o.overlaps then { c with freeCtr := c.freeCtr + 2048 } else c
  else c

namespace workBut

theorem muleWritten {c d : Chip} (h : workBut workPages T H c d) {p port : Nat} {o : MuOps}
    (tiles : o.writesTiles = true → ∀ j < o.count, T p (o.dst + j)) (c0 : Chip) (x : Nat) {j : Nat} (inRun : j < o.count) :
    workBut workPages T H c (c0.muleWritten d p x port o j) := by
  unfold Chip.muleWritten
  split
  · next writes =>
    have put := h.setTile (c0.muleTile d p x port o j) (tiles writes j inRun)
    refine ite ?_ put
    exact put.same rfl rfl rfl rfl rfl
  · exact h

variable {c d : Chip} (h : workBut workPages T H c d) {p port : Nat} {o : MuOps} (within : o.within T H p port)
include h within

/-- One tile of a Mule command. -/
theorem muleStep (c0 : Chip) (x : Nat) {j : Nat} (inRun : j < o.count) {f : Chip} (done : c0.muleStep d p x port o j = .inl f) :
    workBut workPages T H c f := by
  obtain ⟨tiles, host⟩ := within
  have moved := h.muleWritten (port := port) tiles c0 x inRun
  unfold Chip.muleStep at done
  split at done
  · cases done
  · split at done
    · cases done
    · dsimp only at done
      split at done
      · next toHost =>
        have room : o.hostSize * j + o.hostSize ≤ o.count * o.hostSize := by
          rw [← Nat.mul_succ, Nat.mul_comm]
          exact Nat.mul_le_mul_right _ inRun
        have size := MuOps.length_hostBody toHost (c0.tile p (o.src + j))
        cases done
        refine moved.writeHost (l := o.hostBody (c0.tile p (o.src + j))) fun k hk => ?_
        rw [Nat.add_assoc]
        exact host toHost _ (by omega)
      · cases done
        exact moved

theorem muleRun (c0 : Chip) (x : Nat) (n j : Nat) (inRun : j + n ≤ o.count) : workBut workPages T H c (c0.muleRun p x port o n j d).1 := by
  induction n generalizing j d with
  | zero => exact h
  | succ n ih =>
    unfold Chip.muleRun
    split
    · next f done => exact ih (h.muleStep within c0 x (by omega) done) (j + 1) (by omega)
    · exact h

/-- Of a series of tiles within COUNT, those that are taken. -/
theorem muleSome (c0 : Chip) (x : Nat) (l : List Nat) (a : Chip × Nat) (inRun : ∀ j ∈ l, j < o.count) (source : a.1 = d) :
    workBut workPages T H c (l.foldl (c0.muleTaken p x port o) a).1 := by
  induction l generalizing a d with
  | nil => exact source ▸ h
  | cons j r ih =>
    subst source
    refine ih ?_ (c0.muleTaken p x port o a j) (fun m hm => inRun m (List.mem_cons_of_mem j hm)) rfl
    unfold muleTaken
    split
    · split
      · next f done => exact h.drawn.muleStep within c0 x (inRun j List.mem_cons_self) done
      · exact h.drawn
    · exact h.drawn

end workBut

namespace workBut

variable {c d : Chip} (h : workBut workPages T H c d) {p : Nat} (hp : p < 4096)
include h hp

theorem muleMoved (e : Desc) (o : MuOps) (done : Nat) : workBut workPages T H c (d.muleMoved p e o done) := by
  have tiles := fun n => h.tally hp (by decide) e (r := .MULE_TILES_MOVED) 0x31 n (by decide)
  unfold Chip.muleMoved
  refine (tiles _).tally hp (by decide) e 0x32 _ ?_
  split <;> decide

end workBut

/-! Its end -/

section
variable {i : QId} (unit : i.ofUnit) {p : Nat} (hp : p < 4096) {c d : Chip} {e : Desc} (h : deskBut T H i e.tag c d)
  (fits : c.recordFits H i e.tag)
include unit hp h fits

theorem deskBut.muleEnd (status detail : Nat) : spares T H c (d.muleEnd i p e status detail) := by
  have counted := (workBut.refl (P := workPages) (T := T) (H := H) d).tally hp (by decide) e (r := .MULE_COMMANDS) 0x30 1 (by decide)
  unfold Chip.muleEnd
  exact (h.trans ((counted.ite (counted.countFor hp _ 1 (by decide) (by decide))).desk unit)).completeDesc unit fits status detail

theorem deskBut.muleFailed (g : TileFail) (done : Nat) : spares T H c (d.muleFailed i p e g done) := by
  have counted := (workBut.refl (P := workPages) (T := T) (H := H) d).tally hp (by decide) e (r := .MULE_CHECK_FAILS) 0x10 1 (by decide)
  unfold Chip.muleFailed
  exact (h.trans ((counted.henCtx hp _ _ _).desk unit)).muleEnd unit hp fits _ _

/-- COUNT past the end of the share (R381): of the tiles within COUNT, some. -/
theorem deskBut.muleOpen {port : Nat} {o : MuOps} (within : o.within T H p port) : spares T H c (d.muleOpen i p port e o) := by
  unfold Chip.muleOpen
  dsimp only
  refine (h.trans (workBut.desk unit ?_)).muleEnd unit hp fits _ _
  refine (((workBut.refl d).muleSome within d e.ctx _ (d, 0) (fun j hj => ?_) rfl).muleMoved hp e o _).drawn.drawn
  exact lt_of_lt_of_le (List.mem_range.1 hj) (min_le_left _ _)

/-- A Mule command, whatever becomes of it. -/
theorem deskBut.muleExec (within : (MuOps.ofDesc e).within T H p (d.ctx e.ctx).port) : spares T H c (d.muleExec i p e) := by
  have same := workBut.refl (P := workPages) (T := T) (H := H) d
  have free := h.trans (same.drawn.drawn.desk unit)
  have ran := fun n => h.trans (((same.muleRun within d e.ctx (MuOps.ofDesc e).count 0 (by omega)).muleMoved hp e (MuOps.ofDesc e) n).desk unit)
  unfold Chip.muleExec
  dsimp only
  split
  · exact free.muleEnd unit hp fits _ _
  · split
    · exact (h.trans ((same.henAny hp _ _).desk unit)).muleEnd unit hp fits _ _
    · split
      · exact free.muleEnd unit hp fits _ _
      · split
        · exact h.muleOpen unit hp fits within
        · split
          · exact (ran _).muleFailed unit hp fits _ _
          · exact (ran _).muleEnd unit hp fits _ _

end

end Chip

end Sys2Proof.Machine
end

section
/-! SUPPORT. What a command of the cluster writes: tiles of its own partition and its record (R217, R218, R353). -/

namespace Sys2Proof.Machine

open Sys2Proof

/-! The counters of a job -/

theorem macReg_page (format : Nat) (sparse : Bool) : (macReg format sparse).1.desc.page = .MIOBOR := by
  unfold macReg
  split <;> rfl

/-- Every counter is one of the cluster's. -/
def MioCounts.ofCluster (l : MioCounts) : Prop := ∀ e ∈ l, e.1.desc.page = .MIOBOR

theorem mioCounters_ofCluster : MioCounts.ofCluster mioCounters := by
  unfold MioCounts.ofCluster mioCounters
  decide

/-- The counter of products of a job is one of the cluster's. -/
def MJob.countsMacs (j : MJob) : Prop := ∀ m ∈ j.macs, m.1.desc.page = .MIOBOR

theorem MJob.countsMacs_none {j : MJob} (none_ : j.macs = none) : j.countsMacs := by
  unfold countsMacs
  rw [none_]
  exact fun _ member => nomatch member

theorem MJob.counts_ofCluster {j : MJob} (macs : j.countsMacs) (uses : List TileUse) (table : Nat) : (j.counts uses table).ofCluster := by
  intro e member
  unfold MJob.counts at member
  rcases List.mem_append.1 member with mac | other
  · obtain ⟨m, inMacs, rfl⟩ := List.mem_map.1 mac
    exact macs m (Option.mem_toList.1 inMacs)
  · simp only [List.mem_cons, List.not_mem_nil, or_false] at other
    rcases other with rfl | rfl | rfl | rfl | rfl | rfl | rfl | rfl | rfl | rfl <;> rfl

namespace Chip

variable {c : Chip} {p : Nat} {o : MOps} {j : MJob}

/-- Of a job that is given only where its operands pass, what is given. -/
theorem eq_of_guarded {bad : Bool} {x y : MJob} (given : (if bad = true then none else some x) = some y) : x = y := by
  cases bad with
  | false => exact Option.some.inj given
  | true => cases given

theorem matJob_macs (job : c.matJob p o = some j) : j.countsMacs := by
  unfold matJob at job
  split at job
  · next a b t _ _ _ =>
    cases rate : rateOf a.format b.format with
    | none =>
      dsimp only at job
      rw [rate] at job
      cases job
    | some r =>
      dsimp only at job
      rw [rate] at job
      rw [← eq_of_guarded job]
      rintro m ⟨⟩
      exact macReg_page _ _
  · cases job

/-- The vector and the scalar commands count no products. -/
theorem mioJob_macs (job : c.mioJob p o = some j) : j.countsMacs := by
  unfold mioJob at job
  split at job
  case h_11 => exact matJob_macs job
  all_goals
    refine MJob.countsMacs_none ?_
    delta gateJob topkJob softmaxJob scanJob histJob spmvJob gatherJob scatterJob eltJob reduceJob at job
    dsimp only at job
    split at job
    · rw [← eq_of_guarded job]
    · cases job

/-! Counting and writing -/

variable {P : List Page} {T H : Nat → Nat → Prop}

namespace workBut

section
variable {c d : Chip} (h : workBut P T H c d) {p : Nat}
include h

section
variable (hp : p < 4096) (own : Page.MIOBOR ∈ P) (sets : Page.PCOUNTERS ∈ P)
include hp own sets

theorem mioAdd (e : Desc) {r : Reg} (code n : Nat) (cluster : r.desc.page = .MIOBOR) : workBut P T H c (d.mioAdd p e r code n) :=
  h.tally hp sets e code n (cluster ▸ own)

theorem mioCount (e : Desc) (whole : Bool) {l : MioCounts} (ofCluster : l.ofCluster) (free : Nat → Nat) :
    workBut P T H c (d.mioCount p e whole l free) := by
  unfold Chip.mioCount
  refine h.trans (foldl_mem (fun x member f => ?_) d)
  exact (refl f).mioAdd hp own sets e _ _ (ofCluster x.1 (List.fst_mem_of_mem_zipIdx member))

end

variable (own : ∀ n, T p n)
include own

theorem writeOut (x : Nat) (w : MOut) : workBut P T H c (d.writeOut p x w) :=
  h.trans (foldl_mem (fun _ _ f => (refl f).setTile _ (own _)) d)

theorem writeFree (x : Nat) (w : MOut) (tiles : List Nat) (v : Nat → Nat → Nat) : workBut P T H c (d.writeFree p x w tiles v) :=
  h.trans (foldl_mem (fun _ _ f => ite (refl f) ((refl f).setTile _ (own _))) d)

theorem mioPartial (x : Nat) (outs : List MOut) (stop : Nat) (key : List Nat) : workBut P T H c (d.mioPartial p x outs stop key) :=
  h.trans (foldl_mem (fun _ _ f => (refl f).writeFree own ..) d)

end

section
variable {c d : Chip} (h : workBut workPages T H c d) {p : Nat} (hp : p < 4096)
include h hp

theorem tileFailed (x tag : Nat) (g : TileFail) : workBut workPages T H c (d.tileFailed p x tag g) :=
  henCtx (setReg (setReg (h.countFor hp x (r := .MIOBOR_TILE_FAILS) (idx := 0) 1 (by decide) (by decide)) 0 g.tile
    (r := .MIOBOR_LAST_FAIL_TILE) (by decide) hp (by decide)) 0 tag (r := .MIOBOR_LAST_FAIL_TAG) (by decide) hp (by decide)) hp x _ _

/-- The event of a check that failed. -/
theorem checkEvent (e : Desc) : workBut workPages T H c (d.pevent p 0x10 e.ctx e.job e.layer e.operator 1) :=
  h.pevent hp (by decide) ..

theorem mioTake (x : Nat) : workBut workPages T H c (d.mioTake p x) := by
  have taken : workBut workPages T H c (d.modPart p fun s => { s with mioCtx := some x, mioSince := d.now }) := h.modPart p fun _ => rfl
  have shown := fun {f : Chip} (k : workBut workPages T H c f) => k.setReg (r := .MIOBOR_CURRENT_CTX) 0 x (by decide) hp (by decide)
  unfold Chip.mioTake
  split
  · exact ite (shown h) (shown (taken.countFor hp x 1 (by decide) (by decide)))
  · exact shown taken

end

end workBut

/-! The end of a command -/

/-- What a command of the cluster counts at its end, before its record. -/
def mioTallied (c : Chip) (p : Nat) (e : Desc) (status cycles : Nat) : Chip :=
  let c := c.mioAdd p e .MIOBOR_COMMANDS 1 1
  let c := if status = 0 then c else c.countFor e.ctx .MIOBOR_CMD_FAILED p 1
  (c.mioAdd p e .MIOBOR_BUSY_CYCLES 0x11 cycles).setReg .MIOBOR_LAST_CMD_CYCLES p 0 cycles

theorem mioEnd_eq (c : Chip) (i : QId) (p : Nat) (e : Desc) (status cycles : Nat) :
    c.mioEnd i p e status cycles =
      if ((c.mioTallied p e status cycles).completeDesc i e status 0).mioWaiting p e.ctx
      then (c.mioTallied p e status cycles).completeDesc i e status 0
      else ((c.mioTallied p e status cycles).completeDesc i e status 0).setReg .MIOBOR_CURRENT_CTX p 0 0xFF := rfl

theorem workBut.mioTallied {c d : Chip} (h : workBut P T H c d) {p : Nat} (hp : p < 4096) (own : Page.MIOBOR ∈ P)
    (sets : Page.PCOUNTERS ∈ P) (e : Desc) (status cycles : Nat) : workBut P T H c (d.mioTallied p e status cycles) := by
  have counted := h.mioAdd hp own sets e (r := .MIOBOR_COMMANDS) 1 1 rfl
  have failed := counted.countFor hp e.ctx (r := .MIOBOR_CMD_FAILED) (idx := 0) 1 own (by decide)
  unfold Chip.mioTallied
  exact setReg (mioAdd (ite counted failed) hp own sets e _ _ rfl) 0 cycles own hp (by decide)

/-- What a command that ends before its time leaves in its outputs and counts, before its end. -/
def mioSpoiled (c : Chip) (p : Nat) (e : Desc) (l : MioPlan) (stop : Nat) (key : List Nat) : Chip :=
  (c.mioPartial p e.ctx l.outs stop key).mioCount p e false l.counts fun k => Config.mioValue (key ++ [2, k])

theorem mioBroken_eq (c : Chip) (i : QId) (p : Nat) (e : Desc) (l : MioPlan) (stop status : Nat) (key : List Nat) :
    c.mioBroken i p e l stop status key =
      (c.mioSpoiled p e l stop key).mioEnd i p e status (trunc 32 (Config.mioValue (key ++ [5]))) := rfl

theorem workBut.mioSpoiled {c d : Chip} (h : workBut P T H c d) {p : Nat} (hp : p < 4096) (own : Page.MIOBOR ∈ P)
    (sets : Page.PCOUNTERS ∈ P) (tiles : ∀ n, T p n) (e : Desc) {l : MioPlan} (ofCluster : l.counts.ofCluster) (stop : Nat) (key : List Nat) :
    workBut P T H c (d.mioSpoiled p e l stop key) :=
  (h.mioPartial tiles e.ctx l.outs stop key).mioCount hp own sets e false ofCluster _

section
variable {i : QId} (unit : i.ofUnit) {p : Nat} (hp : p < 4096) {c d : Chip} {e : Desc} (h : deskBut T H i e.tag c d)
  (fits : c.recordFits H i e.tag)
include unit hp h fits

theorem deskBut.mioEnd (status cycles : Nat) : spares T H c (d.mioEnd i p e status cycles) := by
  have ended := (h.trans (((workBut.refl d).mioTallied hp (by decide) (by decide) e status cycles).desk unit)).completeDesc unit fits status 0
  rw [mioEnd_eq]
  split
  · exact ended
  · exact ended.trans (spares_of_same rfl fun _ => rfl)

variable (own : ∀ n, T p n)
include own

theorem deskBut.mioBroken {l : MioPlan} (ofCluster : l.counts.ofCluster) (stop status : Nat) (key : List Nat) :
    spares T H c (d.mioBroken i p e l stop status key) :=
  (h.trans (((workBut.refl d).mioSpoiled hp (by decide) (by decide) own e ofCluster stop key).desk unit)).mioEnd unit hp fits status _

theorem deskBut.mioFailed {l : MioPlan} (ofCluster : l.counts.ofCluster) (fails : List TileFail) (key : List Nat) :
    spares T H c (d.mioFailed i p e l fails key) := by
  unfold Chip.mioFailed
  split
  · exact h.1
  · exact (h.trans ((((workBut.refl d).tileFailed hp e.ctx e.tag _).checkEvent hp e).desk unit)).mioBroken unit hp fits own ofCluster _ _ _

theorem deskBut.mioOpen (o : MOps) : spares T H c (d.mioOpen i p e o) :=
  (h.trans ((((workBut.refl d).drawn.countFor hp e.ctx _ (by decide) (by decide))).desk unit)).mioBroken unit hp fits own mioCounters_ofCluster _ _ _

theorem deskBut.mioDone {j : MJob} (macs : j.countsMacs) (uses : List TileUse) (table : Nat) (key : List Nat) :
    spares T H c (d.mioDone i p e j uses table key) := by
  have written : workBut workPages T H d (j.outs.foldl (fun c w => c.writeOut p e.ctx w) d) :=
    workBut.foldl_mem (fun w _ f => (workBut.refl f).writeOut own e.ctx w) d
  exact (h.trans ((written.mioCount hp (by decide) (by decide) e true (MJob.counts_ofCluster macs uses table) _).desk unit)).mioEnd unit hp fits 0 _

/-- A command of the cluster, whatever becomes of it. -/
theorem deskBut.mioExec : spares T H c (d.mioExec i p e) := by
  unfold Chip.mioExec
  refine spares_ite ?_ (spares_ite (h.mioOpen unit hp fits own _) (spares_ite ?_ ?_))
  · exact (h.trans ((((workBut.refl d).tileFailed hp e.ctx e.tag _).checkEvent hp e).desk unit)).mioEnd unit hp fits _ _
  · refine h.mioFailed unit hp fits own ?_ _ _
    exact List.forall_mem_singleton.2 rfl
  · split
    · exact h.mioOpen unit hp fits own _
    · next job =>
      have counts := MJob.counts_ofCluster (mioJob_macs job)
      have failed := fun outs uses table fails key =>
        h.mioFailed unit hp fits own (l := { outs := outs, counts := MJob.counts _ uses table }) (counts uses table) fails key
      refine spares_ite (failed ..) (spares_ite (h.mioOpen unit hp fits own _) (spares_ite (failed ..) ?_))
      exact h.mioDone unit hp fits own (mioJob_macs job) _ _ _

end

end Chip

end Sys2Proof.Machine
end

section
/-! SUPPORT. The statement about what the Mules and the cluster write: a command of a unit's queue runs, waits or is turned away, and in each case
leaves the memories outside what it is given. -/

namespace Sys2Proof.Machine

open Sys2Proof

/-- The tiles, by partition and number, that a Mule command of partition `p` writes. -/
def MuOps.destination (o : MuOps) (p q n : Nat) : Prop := o.writesTiles = true ∧ q = p ∧ o.dst ≤ n ∧ n < o.dst + o.count

/-- Every byte of host memory, by port and address, but one. -/
def allBut (k a k' a' : Nat) : Prop := ¬(k' = k ∧ a' = a)

theorem exec_of_muleOf {i : Instr} {q : QId} {d : Desc} (named : muleOf i = some (q, d)) (s : State) :
    ∃ t, exec i s = .next (s.run t fun c => c.mule q d) := by
  unfold muleOf at named
  split at named
  all_goals cases named
  all_goals exact ⟨_, rfl⟩

theorem exec_of_clusterOf {i : Instr} {q : QId} {tag : Nat} (named : clusterOf i = some (q, tag)) (s : State) :
    ∃ t d, exec i s = .next (s.run t fun c => c.miobor q d) ∧ d.tag = tag := by
  unfold clusterOf at named
  split at named
  all_goals cases named
  all_goals exact ⟨_, _, rfl, rfl⟩

namespace Chip

variable {T H : Nat → Nat → Prop}

theorem start_ctxs (c : Chip) {i : QId} (unit : i.ofUnit) (e : Desc) : (c.start i e).ctxs = c.ctxs := by
  cases found : c.cmdOf i e.tag with
  | some x =>
    rw [start_begun found]
    rfl
  | none =>
    rw [start_arrived found unit.ringed]
    rfl

section
variable {p : Nat} (hp : p < 16) {i : QId} (unit : i.ofUnit) (queue : i.part = some p) {c : Chip} {e : Desc}
  (fits : c.recordFits H i e.tag)
include hp unit queue fits

/-- A command of a unit's queue spares what its own work spares (R349, R350). -/
theorem spares_runTimed {f : Chip → Chip}
    (work : ∀ d, deskBut T H i e.tag c d → (∀ y, (d.ctx y).port = (c.ctx y).port) → spares T H c (f d)) :
    spares T H c (c.runTimed i e f) := by
  have started := start_desk (T := T) (H := H) unit c e
  have noted := (workBut.refl (T := T) (H := H) (c.start i e)).noteTriple (by omega : p < 4096) i.ctx e
  have eq : c.runTimed i e f = c.runCmd i e fun d => f (d.noteTriple p i.ctx e) := by
    obtain ⟨x, p', -, -, rfl | rfl⟩ := unit
    all_goals
      cases queue
      rfl
  rw [eq]
  rcases c.runCmd_cases i e fun d => f (d.noteTriple p i.ctx e) with waits | refused | runs
  · rw [waits]
    exact spares_of_same rfl fun _ => rfl
  · rw [refused]
    exact started.completeDesc unit fits _ _
  · rw [runs]
    refine work _ (started.trans (noted.desk unit)) fun y => ?_
    obtain ⟨-, -, ports, -⟩ := noted
    rw [ports, ctx, start_ctxs c unit, ← ctx]

end

section
variable {x p : Nat} (hx : x < 64) (hp : p < 16) {c : Chip} {e : Desc}
include hx hp

/-- A Mule command keeps to its destination tiles, its host range and its record (R373, R381). -/
theorem spares_mule (fits : c.recordFits H (.mule x p) e.tag) (within : (MuOps.ofDesc e).within T H p (c.ctx x).port) :
    spares T H c (c.mule (.mule x p) e) := by
  have unit : (QId.mule x p).ofUnit := ⟨x, p, hx, hp, .inr rfl⟩
  have execs : ∀ d, deskBut T H (.mule x p) e.tag c d → (∀ y, (d.ctx y).port = (c.ctx y).port) →
      spares T H c (d.muleExec (.mule x p) p { e with ctx := x }) := fun d desk ports =>
    deskBut.muleExec unit (by omega) (e := { e with ctx := x }) desk fits (by rw [ports]; exact within)
  have runs := spares_runTimed hp unit rfl (e := { e with ctx := x }) fits execs
  unfold Chip.mule
  dsimp only [QId.part, QId.toMule, QId.ctx]
  refine spares_ite (spares_of_same rfl fun _ => rfl) ?_
  split
  · refine spares_ite (spares_ite (spares_of_same rfl fun _ => rfl) ?_) runs
    exact execs _ (start_desk unit c { e with ctx := x }) fun y => by rw [ctx, start_ctxs c unit, ← ctx]
  · exact runs

/-- A command of the cluster keeps to its own partition's tiles and its record (R217, R353). -/
theorem spares_miobor (fits : c.recordFits H (.compute x p) e.tag) (own : ∀ n, T p n) : spares T H c (c.miobor (.compute x p) e) := by
  have unit : (QId.compute x p).ofUnit := ⟨x, p, hx, hp, .inl rfl⟩
  have same : spares T H c c := spares_of_same rfl fun _ => rfl
  have taken : ∀ d, deskBut T H (.compute x p) e.tag c d → deskBut T H (.compute x p) e.tag c (d.mioTake p x) := fun d desk =>
    desk.trans (((workBut.refl d).mioTake (by omega) x).desk unit)
  have run := fun f => spares_runTimed (T := T) hp unit rfl (e := { e with ctx := x }) fits (f := f)
  unfold Chip.miobor
  dsimp only [QId.part, QId.toMule, QId.ctx]
  refine spares_ite same (spares_ite (run _ fun d desk _ => ?vacant) (spares_ite same
    (spares_ite (run _ fun d desk _ => ?held) (run _ fun d desk _ => ?runs))))
  case vacant => exact deskBut.mioEnd unit (by omega) (e := { e with ctx := x }) desk fits _ _
  case held => exact (taken d desk).1
  case runs => exact deskBut.mioExec unit (by omega) (e := { e with ctx := x }) (taken d desk) fits own

end

end Chip

/-- An address apart from the next record, which lies below the end of host memory, is none of the record's. -/
theorem State.recordFits_of_off {s : State} {i : QId} {tag k a : Nat} (off : s.offRecord i tag k a)
    (small : s.chip.q i .cqBase + 16 * s.chip.q i .cqTail + 16 ≤ 2 ^ 64) (t : Nat) :
    (s.found t).recordFits (allBut k a) i tag := by
  intro j hj
  show ¬(s.chip.recordPort i tag = k ∧ (s.chip.q i .cqBase + 16 * s.chip.q i .cqTail + j) % 2 ^ 64 = a)
  rw [Nat.mod_eq_of_lt (by omega)]
  rintro ⟨port, rfl⟩
  rcases off with other | before | after
  · exact other port.symm
  · omega
  · omega

/-- Settles O8: each command keeps to the tiles and the host bytes that it is given, and those are its destination, its host range and its
record. -/
theorem moversAndClusterWriteTheirOwn : Obligations.MoversAndClusterWriteTheirOwn := by
  unfold Obligations.MoversAndClusterWriteTheirOwn
  refine ⟨?tiles, ?host, ?cluster⟩
  case tiles =>
    intro i d p x s s' named hp hx ran r n apart
    obtain ⟨t, eq⟩ := exec_of_muleOf named s
    rw [ran] at eq
    cases eq
    have spared := Chip.spares_mule (c := s.found t) (e := d) hx hp
      (T := (MuOps.ofDesc d).destination p) (H := fun _ _ => True) (fun _ _ => trivial)
      ⟨fun writes j hj => ⟨writes, rfl, by omega, by omega⟩, fun _ _ _ => trivial⟩
    refine spared.1 r n ?_
    rintro ⟨writes, rfl, above, below⟩
    rcases apart with noTile | other | before | after
    · rw [writes] at noTile
      cases noTile
    · exact other rfl
    · omega
    · omega
  case host =>
    intro i d p x k a s s' named hp hx small ran recordFits off rangeFits apart
    obtain ⟨t, eq⟩ := exec_of_muleOf named s
    rw [ran] at eq
    cases eq
    have spared := Chip.spares_mule (c := s.found t) (e := d) hx hp
      (T := fun _ _ => True) (H := allBut k a)
      (State.recordFits_of_off off recordFits t) ⟨fun _ _ _ => trivial, fun toHost j hj => ?_⟩
    · exact spared.2 k a small (not_not.2 ⟨rfl, rfl⟩)
    · rw [Nat.mod_eq_of_lt (by omega)]
      rintro ⟨port, rfl⟩
      rcases apart with notHost | other | before | after
      · exact notHost toHost
      · exact other port.symm
      · omega
      · omega
  case cluster =>
    intro i tag p x k a s s' named hp hx small ran recordFits off
    obtain ⟨t, d, eq, rfl⟩ := exec_of_clusterOf named s
    rw [ran] at eq
    cases eq
    have spared := Chip.spares_miobor (c := s.found t) (e := d) hx hp
      (T := fun q _ => q = p) (H := allBut k a) (State.recordFits_of_off off recordFits t) fun _ => rfl
    exact ⟨spared.2 k a small (not_not.2 ⟨rfl, rfl⟩), fun r n other => spared.1 r n other⟩

end Sys2Proof.Machine
end

section
/-! SUPPORT. The states that refute the statements about the limit of a command of the cluster (R233) and about its completion (R353): ports that no G9
has. -/

namespace Sys2Proof.Machine

open Sys2Proof

/-! The limit of a command (O37) -/

namespace Chip

/-- The block as a command past its limit is about to end: its context has the cluster, and the limit has its record. -/
def overdue (c : Chip) (p x tag : Nat) : Chip := (c.mioTake p x).henCtx x p 0x1403 [tag]

theorem mioTimeout_ends {c : Chip} {p x tag : Nat} {y : Cmd} (found : c.cmdOf (.compute x p) tag = some y) (mio : y.isMio = true)
    (first : c.mioBehind (.compute x p) y.d = false) (turn : c.mioTurn p x = true) (due : y.started.getD y.fetched + c.limitOf y ≤ c.now) :
    c.mioTimeout (.compute x p) tag = (c.overdue p x tag).drawn.mioBroken (.compute x p) p y.d
      ((c.overdue p x tag).mioPlan p { y.d with ctx := x }) 0x100000000 0x01 (c.overdue p x tag).freeKey := by
  have inTime : decide (c.now < y.started.getD y.fetched + c.limitOf y) = false := decide_eq_false (Nat.not_lt.2 due)
  unfold mioTimeout
  simp only [QId.part, QId.ctx, found, mio, first, turn, inTime, Bool.not_true, Bool.or_self, Bool.false_eq_true, if_false]
  rfl

theorem mioPlan_ofCluster (c : Chip) (p : Nat) (d : Desc) : (c.mioPlan p d).counts.ofCluster := by
  unfold mioPlan
  dsimp only
  split
  · next job =>
    split
    · exact mioCounters_ofCluster
    · exact MJob.counts_ofCluster (mioJob_macs job) _ _
  · exact mioCounters_ofCluster

/-- A command of the cluster whose record is lost at its end writes nothing to host memory. -/
theorem mioEnd_lost {c : Chip} {i : QId} {p : Nat} {e : Desc} {status cycles : Nat} (ringed : i.ringed = true)
    (down : (c.mioTallied p e status cycles).recordLost ((c.mioTallied p e status cycles).recordPort i e.tag) = true) :
    (c.mioEnd i p e status cycles).hostMem = (c.mioTallied p e status cycles).hostMem := by
  obtain ⟨mem, -⟩ := completeDesc_lost (c.mioTallied p e status cycles) status 0 ringed down
  rw [mioEnd_eq]
  split
  · exact mem
  · exact mem

end Chip

/-- A port that no G9 has: the key of its LINK_UP is that of KEPT_USED of Hen. -/
def keptPort : Nat := 798720

/-- A SCAN fetched through this port. -/
def overdueCmd : Cmd := { scanCmd with port := some keptPort }

/-- Hen has kept one record: the stray port reads as up. -/
def overdueState : State :=
  { chip := { regs := { vals := [(Reg.key .HEN_KEPT_USED 0 0, 1)] }
              hostPorts := [(keptPort, { busMaster := true })]
              hen := { kept := [{ code := 0x0401, part := 0xFF, kept := true, time := 0, p := [0, 0, 0, 0], last := 0 }] }
              cmds := [overdueCmd], cmdSeq := 1 } }

/-- The command is the first of its context, which has its turn, and the limit of the default code has passed. -/
theorem overdueState_due : (overdueState.found (2 ^ 30)).cmdOf (.compute 0 0) 0 = some overdueCmd ∧ overdueCmd.isMio = true ∧
    (overdueState.found (2 ^ 30)).mioBehind (.compute 0 0) overdueCmd.d = false ∧ (overdueState.found (2 ^ 30)).mioTurn 0 0 = true ∧
    overdueCmd.started.getD overdueCmd.fetched + (overdueState.found (2 ^ 30)).limitOf overdueCmd ≤ (overdueState.found (2 ^ 30)).now := by
  decide +kernel

theorem overdueState_up : (overdueState.found (2 ^ 30)).recordLost keptPort = false := by decide +kernel

/-- The record of the limit is the second that Hen keeps. -/
theorem overdueState_keeps : ((overdueState.found (2 ^ 30)).overdue 0 0 0).reg .HEN_KEPT_USED = 2 ∧
    ((overdueState.found (2 ^ 30)).overdue 0 0 0).hostMem = [] ∧ ((overdueState.found (2 ^ 30)).overdue 0 0 0).cmds = [overdueCmd] := by
  decide +kernel

/-- What the end of the command counts leaves that number, and the port down: no byte of host memory is written. -/
theorem overdueState_unwritten (a : Nat) (small : a < 2 ^ 64) :
    ((overdueState.found (2 ^ 30)).mioTimeout (.compute 0 0) 0).hostByte keptPort a = 0 := by
  obtain ⟨found, mio, first, turn, due⟩ := overdueState_due
  obtain ⟨kept, empty, cmds⟩ := overdueState_keeps
  rw [Chip.mioTimeout_ends found mio first turn due, Chip.mioBroken_eq]
  set c := (overdueState.found (2 ^ 30)).overdue 0 0 0
  have counts := c.mioPlan_ofCluster 0 { overdueCmd.d with ctx := 0 }
  have spoiled := (Chip.workBut.refl (P := [.MIOBOR, .PCOUNTERS]) (T := fun _ _ => True) (H := fun _ _ => False) c).drawn.mioSpoiled (p := 0)
    (by decide) (by decide) (by decide) (fun _ => trivial) overdueCmd.d counts 0x100000000 c.freeKey
  obtain ⟨⟨-, host⟩, sameCmds, -, regs⟩ := spoiled.mioTallied (p := 0) (by decide) (by decide) (by decide) overdueCmd.d 0x01
    (trunc 32 (Config.mioValue (c.freeKey ++ [5])))
  rw [Chip.hostByte, Chip.mioEnd_lost rfl ?down, ← Chip.hostByte, host _ _ small id, Chip.hostByte, empty]
  · rfl
  case down =>
    have port : ∀ d : Chip, d.cmds = c.cmds → d.recordPort (.compute 0 0) overdueCmd.d.tag = keptPort := fun d same => by
      rw [Chip.recordPort, Chip.cmdOf, same, cmds]
      rfl
    have key : ∀ d : Chip, d.reg .HOSTPORT_LINK_UP keptPort = d.reg .HEN_KEPT_USED := fun _ => rfl
    rw [port _ sameCmds, Chip.recordLost, key, regs _ _ (by decide) (by decide), kept]
    rfl

/-- Refutes O37, in its clause about the limit: no premise bounds the port through which the command came. LINK_UP of port 798,720 and KEPT_USED of Hen
are one register; the record of event 0x1403 is the second that Hen keeps, and the completion record is lost. -/
theorem not_clusterTime : ¬ Obligations.ClusterTime := by
  unfold Obligations.ClusterTime
  rintro ⟨limit, -⟩
  obtain ⟨found, mio, first, turn, due⟩ := overdueState_due
  obtain ⟨s', ran, recorded, -⟩ := limit (2 ^ 30) 0 0 0 overdueCmd overdueState found rfl mio first turn due overdueState_up
  cases ran
  have status : some (((overdueState.found (2 ^ 30)).mioTimeout (.compute 0 0) 0).hostByte keptPort 4) = some (0x01 % 256) :=
    congrArg (·[4]?) recorded
  rw [overdueState_unwritten 4 (by decide)] at status
  exact absurd status (by decide)

/-! The completion of a command (O58) -/

/-- The operands of the SCAN of O36's stray port. -/
def scanOps : MOps := ((scanState.found 0).operands 0 0 scanDesc).1

/-- Its tensor: of format INT32, without rows. -/
def scanTensor : Tensor := { first := 0, gen := 0, format := 7, rows := 0, cols := 0, meta_ := 0 }

theorem scanState_takes : scanState.clusterTakes 0 0 0 scanDesc scanCmd scanOps [scanTensor] [(scanTensor, scanOps.keeps)] := by decide +kernel

theorem scanOps_fit : scanOps.a = some scanTensor ∧ scanOps.c = some scanTensor ∧ scanOps.sound [scanTensor] [scanTensor] = true ∧
    scanTensor.is scanOps.m scanOps.n = true ∧ scanOps.mode < 2 := by decide +kernel

/-- Refutes O58, in its clause about SCAN: no premise bounds the port through which the command came. The state is that of O36: the command is
counted before its record is due, the stray port then reads as down, and the record is lost. -/
theorem not_clusterCompletes : ¬ Obligations.ClusterCompletes := by
  unfold Obligations.ClusterCompletes
  rintro ⟨-, -, -, -, -, -, scans, -⟩
  obtain ⟨input, output, sound, shape, mode⟩ := scanOps_fit
  obtain ⟨s', ran, j, -, -, recorded⟩ := scans 0 0 0 scanDesc scanCmd scanOps scanTensor scanTensor scanState rfl scanState_takes input output sound
    rfl shape shape (.inr rfl) rfl mode
  cases ran
  exact scanState_record_lost recorded

end Sys2Proof.Machine
end

section
/-! SUPPORT. The work of a zone that leaves its jobs alone, and the time at which its links were last evaluated (R241, R250, R254). -/

namespace Sys2Proof.Machine

open Sys2Proof

/-- What learned functions hold in a zone: its jobs, with the forecasts and the advice of each, and when its links were last evaluated. -/
def Part.learned (s : Part) : List Job × Nat := (s.jobs, s.lhAt)

namespace Chip

/-- Work of zone `p` that `g` does not see in what learned functions hold there. -/
def unlearned {β : Type} (g : List Job × Nat → β) (p : Nat) (c d : Chip) : Prop := g (d.part p).learned = g (c.part p).learned

namespace unlearned

variable {β : Type} {g : List Job × Nat → β} {p : Nat}

theorem refl (c : Chip) : unlearned g p c c := rfl

theorem trans {c d f : Chip} (h : unlearned g p c d) (k : unlearned g p d f) : unlearned g p c f := Eq.trans k h

theorem foldl {α : Type} {f : Chip → α → Chip} (h : ∀ c x, unlearned g p c (f c x)) (l : List α) (c : Chip) :
    unlearned g p c (l.foldl f c) := by
  induction l generalizing c with
  | nil => exact refl c
  | cons x r ih => exact (h c x).trans (ih (f c x))

/-- The same where a fold carries more than the block. -/
theorem foldl_fst {α γ : Type} {f : Chip × γ → α → Chip × γ} (h : ∀ a x, unlearned g p a.1 (f a x).1) (l : List α) (a : Chip × γ) :
    unlearned g p a.1 (l.foldl f a).1 := by
  induction l generalizing a with
  | nil => exact refl a.1
  | cons x r ih => exact (h a x).trans (ih (f a x))

theorem jobOf {c d : Chip} (h : unlearned Prod.fst p c d) (job : Nat) : d.jobOf p job = c.jobOf p job := jobOf_congr h job

section
variable {c d : Chip} (h : unlearned g p c d)
include h

/-- A step that leaves the partitions alone. -/
theorem same {f : Chip} (parts : f.parts = d.parts) : unlearned g p c f := h.trans (by rw [unlearned, part, parts, ← part])

theorem modPart {f : Part → Part} (blind : ∀ s, (f s).learned = s.learned) : unlearned g p c (d.modPart p f) :=
  h.trans (by rw [unlearned, part_modPart_same, blind])

theorem ite {x : Prop} [Decidable x] {f : Chip} (k : unlearned g p c f) : unlearned g p c (if x then d else f) := by
  split
  · exact h
  · exact k

theorem setReg (r : Reg) (i x v : Nat) : unlearned g p c (d.setReg r i x v) := h.same rfl

theorem count (r : Reg) (i : Nat) : unlearned g p c (d.count r i) := h.same rfl

theorem emit (e : Emission) : unlearned g p c (d.emit e) := h.same rfl

theorem drawn : unlearned g p c d.drawn := h.same rfl

/-! Counts and records -/

theorem countFor (x : Nat) (r : Reg) (i n idx : Nat) : unlearned g p c (d.countFor x r i n idx) := h.same (d.countFor_parts ..)

theorem jcount (q job : Nat) (r : Reg) (n : Nat) : unlearned g p c (d.jcount q job r n) := h.same (d.jcount_parts ..)

theorem itemEvent (q job code : Nat) (i : Item) (n : Nat) : unlearned g p c (d.itemEvent q job code i n) := h.same (d.itemEvent_parts ..)

theorem logs {f : Chip} (k : logsBut d f) : unlearned g p c f := h.trans (by rw [unlearned, k.1 p]; rfl)

theorem henPart (hp : p < 4096) (code : Nat) (params : List Nat) (hidden : Bool) : unlearned g p c (d.henPart p code params hidden) :=
  h.logs ((logsBut.refl d).henPart hp ..)

theorem henJob (hp : p < 4096) (job code : Nat) (params : List Nat) : unlearned g p c (d.henJob p job code params) := h.henPart hp ..

/-- What leaves host memory, partitions and the plan alone. -/
theorem stored {f : Chip} (k : storeSame d f) : unlearned g p c f := h.same k.2.1

/-! Tiles -/

theorem setTile (n : Nat) (t : Tile) : unlearned g p c (d.setTile p n t) := h.modPart fun _ => rfl

theorem setEntry (x k : Nat) (b : List Nat) : unlearned g p c (d.setEntry p x k b) := by
  unfold Chip.setEntry
  simp only
  split
  · refine (h.modPart ?_).setTile _ _
    exact fun _ => rfl
  · exact h.setTile ..

theorem rewriteTensor (x k : Nat) (val : Nat → Nat → Nat) : unlearned g p c (d.rewriteTensor p x k val) := by
  unfold Chip.rewriteTensor
  split
  · exact h
  · exact (h.trans (foldl (fun f _ => (refl f).setTile ..) _ d)).setEntry ..

theorem regionWrite (x off : Nat) (b : List Nat) : unlearned g p c (d.regionWrite p x off b) := by
  unfold Chip.regionWrite
  split
  · exact h
  · exact (h.trans (foldl (fun f _ => (refl f).setTile ..) _ d)).trans (foldl (fun f _ => (refl f).setTile ..) _ _)

theorem writeScratch (x : Nat) (pol : Policy) (m : Analyse.Mat) : unlearned g p c (d.writeScratch p x pol m) := by
  unfold Chip.writeScratch
  refine (h.trans (foldl (fun f _ => (refl f).setTile ..) _ d)).trans (foldl (fun f k => ?_) _ _)
  exact same ((refl f).setTile ..) rfl

/-! Messages -/

theorem modMsgLog (l : Part → List LogEntry) : unlearned g p c (d.modPart p fun s => { s with msgLog := l s }) := h.modPart fun _ => rfl

theorem logMsg (far type tag sendTime : Nat) (sent hide : Bool) : unlearned g p c (d.logMsg p far type tag sendTime sent hide) := by
  unfold Chip.logMsg
  exact setReg (h.modMsgLog _) ..

theorem controlPortDown : unlearned g p c (d.controlPortDown p) := by
  unfold Chip.controlPortDown
  refine setReg (h.modPart ?_) ..
  exact fun _ => rfl

theorem psend (dst : Nat) (m : Msg) (x : Nat) : unlearned g p c (d.psend p dst m x) := by
  unfold Chip.psend
  refine ite h (ite h.controlPortDown ?_)
  refine emit (modPart (h.logMsg ..) ?_) _
  exact fun _ => rfl

theorem pask (dst type : Nat) (body : List Nat) (ref x : Nat) : unlearned g p c (d.pask p dst type body ref x) := by
  unfold Chip.pask
  refine psend (h.modPart ?_) dst _ x
  exact fun _ => rfl

theorem preply (src tag type status : Nat) (body : List Nat) (x : Nat) : unlearned g p c (d.preply p src tag type status body x) := by
  unfold Chip.preply
  refine psend (h.modPart ?_) src _ x
  exact fun _ => rfl

/-! Claims and engines -/

theorem mark (l slot : Nat) (b : Bool) : unlearned g p c (d.mark p l slot b) := by
  unfold Chip.mark
  exact ite h (h.modPart fun _ => rfl)

theorem markRun (w : Nat) (lead : Bool) (r : Placed) (b : Bool) : unlearned g p c (d.markRun p w lead r b) := by
  unfold Chip.markRun
  refine ite (h.trans (foldl (fun f _ => modPart (refl f) ?_) _ d)) (h.trans (foldl (fun f (e : Nat × Nat) => (refl f).mark e.1 e.2 b) _ d))
  exact fun _ => rfl

theorem claimRun (job w : Nat) (lead : Bool) (i : Item) (r : Placed) : unlearned g p c (d.claimRun p job w lead i r) :=
  (h.markRun w lead r true).same (d.claimRun_parts ..)

theorem dealUnit (u : WorkUnit) : unlearned g p c (d.dealUnit p u) := by
  have engines : ∀ {f : Chip}, unlearned g p c f → ∀ k, unlearned g p c (f.modEngines p k) := fun m _ => m.modPart fun _ => rfl
  have overflowed := fun k k' => (engines (engines h k) k').count .SCHED_OVERFLOW_UNITS p
  unfold Chip.dealUnit
  simp only
  split
  · exact ite (engines (engines h _) _) (overflowed _ _)
  · exact overflowed _ _

theorem dealItems (job w : Nat) (lead : Bool) (items : List Item) : unlearned g p c (d.dealItems p job w lead items) :=
  h.trans (foldl (fun f _ => foldl (fun f _ => (refl f).dealUnit _) _ f) _ d)

end

end unlearned

end Chip

end Sys2Proof.Machine
end

section
/-! SUPPORT. Placing a window's items leaves the invocations of its job and whether the window has a forecast (R178 to R197, R243 to R245). -/

namespace Sys2Proof.Machine

open Sys2Proof

/-- A change of a window that leaves its place and whether it has a forecast. -/
def Win.placing (f : Win → Win) : Prop := Win.stays f ∧ ∀ x, (f x).spec = x.spec

theorem Win.placing.foldl {α : Type} {f : Win → α → Win} (h : ∀ e, Win.placing fun x => f x e) (l : List α) :
    Win.placing fun x => l.foldl f x := by
  induction l with
  | nil => exact ⟨fun _ => ⟨rfl, rfl⟩, fun _ => rfl⟩
  | cons e r ih =>
    obtain ⟨stays, spec⟩ := h e
    obtain ⟨stays', spec'⟩ := ih
    exact ⟨fun x => ⟨(stays' (f x e)).1.trans (stays x).1, (stays' (f x e)).2.trans (stays x).2⟩, fun x => (spec' (f x e)).trans (spec x)⟩

theorem takeRun_placing (src dst : Nat) (r : Placed) : Win.placing fun x => Chip.takeRun x src dst r := by
  refine ⟨(takeRun_quiet src dst r).1, fun x => ?_⟩
  unfold Chip.takeRun
  simp only
  split
  · rfl
  · rfl

/-- A change of one window that places leaves every window's forecast. -/
theorem Job.spec_setWin (j : Job) {f : Win → Win} {w w' : Nat} {lead : Bool} (now : Nat) (placing : Win.placing f) :
    ((j.setWin ((f (j.win w' lead)).noted now)).win w false).spec = (j.win w false).spec := by
  obtain ⟨stays, spec⟩ := placing
  obtain ⟨frame, isLead⟩ := stays (j.win w' lead)
  rw [j.win_frame] at frame
  rw [j.win_lead] at isLead
  by_cases here : w' = w ∧ lead = false
  · obtain ⟨rfl, rfl⟩ := here
    rw [j.win_setWin_noted now stays]
    exact spec _
  · rw [j.win_setWin_other (x := (f (j.win w' lead)).noted now) fun there => here ⟨frame.symm.trans there.1, isLead.symm.trans there.2⟩]

/-- What the forecasts of a job show at a window: the job's invocations, and whether the window has a forecast. -/
def Job.forecasts (w : Nat) (j : Job) : List Invocation × Bool := (j.inv, (j.win w false).spec)

/-- The same of a zone's job, where the zone has it. -/
def forecastsOf (job w : Nat) (x : List Job × Nat) : Option (List Invocation × Bool) :=
  (x.1.find? fun j => j.job = job).map (Job.forecasts w)

namespace Chip

/-- What is seen of a job that is there. -/
theorem forecastsOf_some {c : Chip} {p job w : Nat} {j : Job} (found : c.jobOf p job = some j) :
    forecastsOf job w (c.part p).learned = some (j.forecasts w) :=
  congrArg (Option.map (Job.forecasts w)) found

/-- A job whose forecasts are seen is there. -/
theorem jobOf_of_forecasts {c : Chip} {p job w : Nat} {v : List Invocation × Bool}
    (seen : forecastsOf job w (c.part p).learned = some v) : ∃ k, c.jobOf p job = some k ∧ k.inv = v.1 ∧ (k.win w false).spec = v.2 := by
  obtain ⟨k, found, shows⟩ := Option.map_eq_some_iff.1 seen
  exact ⟨k, found, congrArg Prod.fst shows, congrArg Prod.snd shows⟩

/-- A change of a window in the zone's job. -/
theorem forecastsOf_modWin (c : Chip) {p job w : Nat} {j : Job} {f : Win → Win} (found : c.jobOf p job = some j) (stays : Win.stays f) :
    forecastsOf job w ((c.modWin p job w false f).part p).learned = some (j.inv, (f (j.win w false)).spec) := by
  have changed : (c.modWin p job w false f).jobOf p job = some (j.setWin ((f (j.win w false)).noted c.now)) := by
    unfold modWin
    rw [c.jobOf_modJob (f := fun j => j.setWin ((f (j.win w false)).noted c.now)) (fun _ num => num), found, Option.map_some]
  rw [forecastsOf_some changed, Job.forecasts, j.win_setWin_noted c.now stays]
  rfl

namespace unlearned

variable {p job w : Nat}

section
variable {c d : Chip} (h : unlearned (forecastsOf job w) p c d)
include h

theorem modWin (job' w' : Nat) (lead : Bool) {f : Win → Win} (placing : Win.placing f) :
    unlearned (forecastsOf job w) p c (d.modWin p job' w' lead f) := by
  refine h.trans ?_
  show ((d.modWin p job' w' lead f).jobOf p job).map (Job.forecasts w) = (d.jobOf p job).map (Job.forecasts w)
  unfold Chip.modWin
  by_cases mine : job' = job
  · subst mine
    rw [d.jobOf_modJob (f := fun j => j.setWin ((f (j.win w' lead)).noted d.now)) (fun _ num => num), Option.map_map]
    refine congrArg (fun k => Option.map k _) (funext fun j => ?_)
    exact congrArg (Prod.mk j.inv) (j.spec_setWin d.now placing)
  · rw [d.jobOf_modJob_other (f := fun j => j.setWin ((f (j.win w' lead)).noted d.now)) (fun _ num => num) mine]

theorem putItem (job' w' : Nat) (lead : Bool) (i : Item) : unlearned (forecastsOf job w) p c (d.putItem p job' w' lead i) :=
  h.modWin job' w' lead ⟨fun _ => ⟨rfl, rfl⟩, fun _ => rfl⟩

theorem addItems (job' w' : Nat) (lead : Bool) (l : List Item) : unlearned (forecastsOf job w) p c (d.addItems p job' w' lead l).1 :=
  h.modWin job' w' lead ⟨fun _ => ⟨rfl, rfl⟩, fun _ => rfl⟩

theorem releaseItem (job' w' : Nat) (lead : Bool) (i : Item) : unlearned (forecastsOf job w) p c (d.releaseItem p job' w' lead i) :=
  (h.trans (foldl (fun f _ => (refl f).markRun ..) _ d)).putItem job' w' lead _

end

theorem openWin (job' w' : Nat) (d : Chip) : unlearned (forecastsOf job w) p d (d.openWin p job' w') := by
  have opened := (refl (g := forecastsOf job w) (p := p) d).modWin job' w' false (f := fun x => { x with halfEngines := d.halved p })
    ⟨fun _ => ⟨rfl, rfl⟩, fun _ => rfl⟩
  unfold Chip.openWin
  split
  · exact refl d
  · refine ite (refl d) ?_
    simp only
    split
    · exact opened
    · exact ite (opened.addItems ..) ((opened.addItems ..).dealItems ..)

/-! Ordered mode -/

theorem orderedRound (job' w' : Nat) (lead : Bool) (l : List Item) (d : Chip) :
    unlearned (forecastsOf job w) p d (d.orderedRound p job' w' lead l) := by
  unfold Chip.orderedRound
  split
  · exact refl d
  · refine foldl_fst (fun a i => ?_) l (d, [])
    have put := fun k => (refl (g := forecastsOf job w) (p := p) a.1).putItem job' w' lead k
    split
    · exact (put _).jcount ..
    · simp only
      split
      · exact put _
      · split
        · exact put _
        · split
          · exact refl _
          · exact ((refl _).claimRun ..).putItem job' w' lead _

theorem orderedPlace (job' w' : Nat) (lead : Bool) (cls : Nat) (d : Chip) :
    unlearned (forecastsOf job w) p d (d.orderedPlace p job' w' lead cls) := by
  have rounds : ∀ n d, unlearned (forecastsOf job w) p d (d.orderedClass p job' w' lead cls n) := by
    intro n
    induction n with
    | zero => exact refl
    | succ n ih =>
      intro d
      unfold Chip.orderedClass
      exact ite (refl d) ((orderedRound job' w' lead _ d).trans (ih _))
  exact rounds _ d

/-! Cross-pod placement -/

theorem mergeCross (job' w' : Nat) (words : List (List Nat)) (final : Bool) (d : Chip) :
    unlearned (forecastsOf job w) p d (d.mergeCross p job' w' words final) := by
  have joined := (refl (g := forecastsOf job w) (p := p) d).modWin job' w' false
    (Win.placing.foldl (fun (e : List Nat) => takeRun_placing (e.getD 0 0) (e.getD 2 0)
      { frame := bits (e.getD 1 0) 13 10, first := bits (e.getD 1 0) 9 0, len := bits (e.getD 1 0) 19 14, hops := [] }) words)
  unfold Chip.mergeCross
  simp only
  split
  · exact joined.modWin job' w' false ⟨fun _ => ⟨rfl, rfl⟩, fun _ => rfl⟩
  · exact joined

theorem crossReturn (job' w' pod : Nat) (d : Chip) : unlearned (forecastsOf job w) p d (d.crossReturn p job' w' pod).1 := by
  unfold Chip.crossReturn
  simp only
  split
  · exact refl d
  · exact (refl d).modWin job' w' true ⟨fun _ => ⟨rfl, rfl⟩, fun _ => rfl⟩

theorem crossSend (job' w' pod : Nat) (d : Chip) : unlearned (forecastsOf job w) p d (d.crossSend p job' w' pod) := by
  have returned := crossReturn (p := p) (job := job) (w := w) job' w' pod d
  unfold Chip.crossSend
  split
  · exact refl d
  · exact ite (refl d) (ite (returned.trans (mergeCross ..)) (returned.trans (foldl (fun f _ => (refl f).pask ..) _ _)))

theorem crossOrdered (job' w' : Nat) (d : Chip) : unlearned (forecastsOf job w) p d (d.crossOrdered p job' w') := by
  unfold Chip.crossOrdered
  split
  · exact refl d
  · exact ite ((foldl (fun f k => orderedPlace job' w' true k f) [2, 4, 5] d).trans (foldl (fun f z => crossSend job' w' z f) _ _)) (refl d)

theorem crossTake (b : CrossBody) (d : Chip) : unlearned (forecastsOf job w) p d (d.crossTake p b) := by
  unfold Chip.crossTake
  split
  · exact refl d
  · extract_lets w' items x tol near act specs got stays c₁ spills new fresh c₂ r c₃ c₄
    have compared : unlearned (forecastsOf job w) p d c₁ := by
      refine foldl (fun f i => ?_) specs d
      have released := ((refl (g := forecastsOf job w) (p := p) f).releaseItem b.job w' true i).modWin b.job w' true
        (f := fun x => { x with items := x.items.filter fun y => y.id ≠ i.id }) ⟨fun _ => ⟨rfl, rfl⟩, fun _ => rfl⟩
      exact ite (((refl f).putItem ..).jcount ..) (ite (released.jcount ..) ((released.jcount ..).itemEvent ..))
    have added : unlearned (forecastsOf job w) p d r.1 := ((compared.jcount ..).jcount ..).addItems ..
    have dealt : unlearned (forecastsOf job w) p d c₃ := ite added (added.dealItems ..)
    have final : unlearned (forecastsOf job w) p d c₄ := ite (dealt.modWin b.job w' true
      (f := fun x => { x with finals := addOnce x.finals b.pod }) ⟨fun _ => ⟨rfl, rfl⟩, fun _ => rfl⟩) dealt
    exact (final.trans (crossOrdered ..)).trans (crossSend ..)

theorem sendCross (job' w' : Nat) (items : List Item) (spec final carry : Bool) (d : Chip) :
    unlearned (forecastsOf job w) p d (d.sendCross p job' w' items spec final carry) := by
  have changed : ∀ {e : Chip}, unlearned (forecastsOf job w) p d e → ∀ f : Win → Win,
      (∀ x, (f x).frame = x.frame ∧ (f x).lead = x.lead ∧ (f x).spec = x.spec) →
        unlearned (forecastsOf job w) p d (e.modWin p job' w' false f) :=
    fun k f same => k.modWin job' w' false ⟨fun x => ⟨(same x).1, (same x).2.1⟩, fun x => (same x).2.2⟩
  unfold Chip.sendCross
  split
  · exact refl d
  · split
    · exact refl d
    · refine ite (changed (refl d) _ ?_) (ite (refl d) (ite (changed (ite ((refl d).jcount ..) (refl d)) _ ?_)
        (ite (trans ?sent (crossTake ..)) (trans ?sent (foldl (fun f _ => (refl f).pask ..) _ _)))))
      case sent => exact changed ((refl d).jcount ..) _ fun _ => ⟨rfl, rfl, rfl⟩
      all_goals exact fun _ => ⟨rfl, rfl, rfl⟩

end unlearned

/-- A forecast that is used gives its window one, and leaves the invocations of its job. -/
theorem fcUse_forecasts (c : Chip) {p job : Nat} (w : Nat) {j : Job} (k : Job) (named : k.job = job) (found : c.jobOf p job = some j)
    (fc conf : Tensor) (width : Nat) :
    forecastsOf job w ((c.fcUse p k w fc conf width).part p).learned = some (j.inv, true) := by
  subst named
  unfold fcUse
  extract_lets c₁ eps thr taken r c₂ a c₃ cross
  have read : unlearned (forecastsOf k.job w) p c r.1 := by
    refine (unlearned.openWin k.job w c).trans (unlearned.foldl_fst (fun a e => ?_) eps (c₁, [], false))
    have dropped := fun n => (unlearned.refl (g := forecastsOf k.job w) (p := p) a.1).jcount p k.job .LEARN_FC_ENTRIES_DROPPED n
    simp only
    split
    · exact (dropped _).jcount ..
    · split
      · exact (dropped _).jcount ..
      · exact dropped _
  obtain ⟨i, there, inv, -⟩ := jobOf_of_forecasts (Eq.trans read (forecastsOf_some found))
  have used : forecastsOf k.job w (c₂.part p).learned = some (j.inv, true) := by
    refine (forecastsOf_modWin _ there ?_).trans (congrArg (fun l => some (l, true)) inv)
    exact fun _ => ⟨rfl, rfl⟩
  have added : unlearned (forecastsOf k.job w) p c₂ a.1 := (unlearned.refl c₂).addItems ..
  have placed : unlearned (forecastsOf k.job w) p c₂ c₃ :=
    unlearned.ite (added.trans (unlearned.orderedPlace ..)) (added.dealItems ..)
  split
  · exact Eq.trans placed used
  · exact Eq.trans (placed.trans (unlearned.sendCross ..)) used

end Chip

end Sys2Proof.Machine
end

section
/-! SUPPORT. A forecast's invocation: its start, its deadline, and its publication (R242 to R244). -/

namespace Sys2Proof.Machine

open Sys2Proof

/-- A job with a further invocation; its latest 64 are kept. -/
def Job.invoked (v : Invocation) (j : Job) : Job := { j with inv := lastN 64 (j.inv ++ [v]) }

namespace Chip

theorem countFor_cmds (c : Chip) (x : Nat) (r : Reg) (i n idx : Nat) : (c.countFor x r i n idx).cmds = c.cmds := by
  unfold countFor
  split
  · rfl
  · rfl

theorem jcount_cmds (c : Chip) (p job : Nat) (r : Reg) (n : Nat) : (c.jcount p job r n).cmds = c.cmds := c.countFor_cmds ..

/-! The start -/

/-- The commands of a model, queued in order for firmware's queue of a context. -/
def issued (c : Chip) (i : QId) (x : Nat) (l : List Desc) : Chip :=
  l.foldl (fun c d =>
    let y : Cmd := { q := i, d := { d with ctx := x }, seq := c.cmdSeq, fetched := c.now }
    { c with cmds := c.cmds ++ [y], cmdSeq := c.cmdSeq + 1 }) c

theorem issued_parts (c : Chip) (i : QId) (x : Nat) (l : List Desc) : (c.issued i x l).parts = c.parts := by
  refine foldl_parts (fun _ _ => ?_) l c
  rfl

theorem issued_cmds (c : Chip) (i : QId) (x : Nat) (l : List Desc) :
    (c.issued i x l).cmds.map (fun y => (y.q.code, y.d)) =
      c.cmds.map (fun y => (y.q.code, y.d)) ++ l.map fun d => (i.code, { d with ctx := x }) := by
  unfold issued
  induction l generalizing c with
  | nil => simp
  | cons d r ih => rw [List.foldl_cons, ih, List.map_append, List.append_assoc]; rfl

section
variable (c : Chip) {p job w : Nat} {j : Job} {l : List Desc} (found : c.jobOf p job = some j) (spec : (c.modeOf p j w).1 = true)
  (history : (c.policyAt p j w).histMin ≤ j.filledAt w) (present : c.reg .PARTITION_MIOBOR_VACANT p = 0) (supplied : c.stageOf p = 0)
  (running : j.stopped = false) (free : c.haltSeq j.ctx p = none) (grid : j.onGrid w = true) (holes : (j.holesOf w).isEmpty = false)
  (due : w * 131072 ≤ c.now + c.reg .LEARN_FC_LEAD p * 1000) (ended : c.fcPending p j = false)
  (fresh : (j.inv.any fun v => w ≤ v.window) = false) (model : c.fcModel p j w = some l) (early : (c.now : Int) ≤ c.fcDeadline p j w)
include found spec history present supplied running free grid holes due ended fresh model early

/-- An invocation whose conditions hold before its deadline is issued. -/
theorem forecastStart_issues :
    c.forecastStart p job w =
      ((c.modJob p job (Job.invoked { window := w, total := l.length })).jcount p job .LEARN_FC_STARTED 1).issued (.fw j.ctx p job) j.ctx l := by
  have inTime : ¬ c.fcDeadline p j w < (c.now : Int) := by omega
  unfold forecastStart
  rw [found]
  simp only [spec, history, present, supplied, running, free, grid, holes, due, ended, fresh, model, inTime, if_false, decide_true,
    beq_self_eq_true, Bool.not_true, Bool.not_false, Bool.and_self, Bool.or_self, Option.isNone_none, Bool.false_eq_true]
  rfl

/-- The job then holds the invocation, and the model's commands follow those already fetched. -/
theorem forecastStart_queues :
    (c.forecastStart p job w).jobOf p job = some { j with inv := lastN 64 (j.inv ++ [{ window := w, total := l.length }]) } ∧
      (c.forecastStart p job w).cmds.map (fun y => (y.q.code, y.d)) =
        c.cmds.map (fun y => (y.q.code, y.d)) ++ l.map fun d => ((QId.fw j.ctx p job).code, { d with ctx := j.ctx }) := by
  rw [c.forecastStart_issues found spec history present supplied running free grid holes due ended fresh model early]
  constructor
  · have kept := ((unlearned.refl (g := Prod.fst) (p := p) (c.modJob p job (Job.invoked { window := w, total := l.length }))).jcount p job
      .LEARN_FC_STARTED 1).same (issued_parts _ (.fw j.ctx p job) j.ctx l)
    rw [kept.jobOf, c.jobOf_modJob (f := Job.invoked _) (fun _ num => num), found]
    rfl
  · rw [issued_cmds, jcount_cmds]
    rfl

end

/-! The latest invocation -/

/-- A job after its latest invocation has changed. -/
theorem jobOf_modInv (c : Chip) {p job : Nat} {j : Job} {v : Invocation} (found : c.jobOf p job = some j) (latest : j.inv.getLast? = some v)
    (f : Invocation → Invocation) : (c.modInv p job f).jobOf p job = some { j with inv := j.inv.dropLast ++ [f v] } := by
  unfold modInv
  rw [c.jobOf_modJob ?num, found, Option.map_some, latest]
  intro k num
  split
  · exact num
  · exact num

/-- At its deadline an invocation that has not ended is late, and its commands that have not started are not issued. -/
theorem forecastDeadline_late (c : Chip) {p job w : Nat} {j : Job} {v : Invocation} (found : c.jobOf p job = some j)
    (latest : j.inv.getLast? = some v) (here : v.window = w) (unpublished : v.published = false) (sound : v.failed = false)
    (first : v.late = false) (passed : c.fcDeadline p j w ≤ (c.now : Int)) :
    (c.forecastDeadline p job w).jobOf p job = some { j with inv := j.inv.dropLast ++ [{ v with late := true }] } ∧
      (c.forecastDeadline p job w).cmds = c.cmds.filter fun y => !(y.q = QId.fw j.ctx p job && y.started.isNone) := by
  have open_ : (decide (v.window ≠ w) || v.published || v.failed || v.late || decide ((c.now : Int) < c.fcDeadline p j w)) = false := by
    simp [here, unpublished, sound, first, passed]
  unfold forecastDeadline
  simp only [found, latest, open_, Bool.false_eq_true, if_false]
  constructor
  · rw [((unlearned.refl (g := Prod.fst) _).jcount ..).jobOf]
    exact jobOf_modInv { c with cmds := c.cmds.filter fun y => !(y.q = QId.fw j.ctx p job && y.started.isNone) } found latest
      fun v => { v with late := true }
  · exact jcount_cmds ..

/-- Before the deadline, a forecast whose commands have ended and whose tensors pass their checks is published. -/
theorem forecastPublish_publishes (c : Chip) {p job w : Nat} {j : Job} {v : Invocation} {a b : Tensor} (found : c.jobOf p job = some j)
    (latest : j.inv.getLast? = some v) (here : v.window = w) (unpublished : v.published = false) (sound : v.failed = false)
    (first : v.late = false) (done : v.total ≤ v.done) (inTime : (c.now : Int) < c.fcDeadline p j w)
    (forecast : c.fcTensor p j.ctx (c.policyAt p j w).fc 7 512 (c.policyAt p j w).fcWidth = some a)
    (confidence : c.fcTensor p j.ctx (c.policyAt p j w).fcConf 6 512 1 = some b) :
    forecastsOf job w ((c.forecastPublish p job w).part p).learned = some (j.inv.dropLast ++ [{ v with published := true }], true) := by
  have open_ : (decide (v.window ≠ w) || v.published || v.failed || v.late || decide (v.done < v.total) ||
      decide (c.fcDeadline p j w ≤ (c.now : Int))) = false := by simp [here, unpublished, sound, first, done, inTime]
  unfold forecastPublish
  simp only [found, latest, open_, forecast, confidence, Bool.false_eq_true, if_false]
  refine fcUse_forecasts (j := { j with inv := j.inv.dropLast ++ [{ v with published := true }] }) _ w j (jobOf_job found) ?_ a b _
  rw [((unlearned.refl (g := Prod.fst) _).jcount ..).jobOf]
  exact jobOf_modInv c found latest fun v => { v with published := true }

end Chip

end Sys2Proof.Machine
end

section
/-! SUPPORT. The analysis of a job's placement and the reset of its history (R249 to R251). -/

namespace Sys2Proof.Machine

open Sys2Proof

namespace Chip

theorem jobOf_modAdvice (c : Chip) (p job : Nat) (f : Advice → Advice) :
    (c.modAdvice p job f).jobOf p job = (c.jobOf p job).map fun j => { j with advice := f j.advice } :=
  c.jobOf_modJob (f := fun j => { j with advice := f j.advice }) fun _ num => num

/-! Analysis -/

/-- A request of a port that may write starts the analysis on the slice's lead. -/
theorem analyseReq_starts (c : Chip) {i p job : Nat} {j : Job} {k : Slice} (right : c.mayWrite i .LEARN p = true)
    (found : c.jobOf p job = some j) (slice : c.sliceOf j.slice = some k) (leads : c.leads p k = true)
    (asked : (c.policyOf p job).analysis = true) (runs : j.stopped = false) (idle : j.advice.running = none) (open_ : j.advice.state ≠ 2) :
    ((c.analyseReq i p job).jobOf p job).bind (fun j => j.advice.running.map fun a => (a.step, a.startAt)) = some (j.lastStep.getD 0, c.now) ∧
      (c.analyseReq i p job).reg .LEARN_ANALYSING p = trunc 16 job := by
  have unaccepted : (j.advice.state == 2) = false := beq_false_of_ne open_
  unfold analyseReq startAnalysis
  simp only [right, found, slice, leads, asked, runs, idle, unaccepted, Option.isSome_none, Bool.not_true, Bool.or_self, Bool.false_eq_true,
    if_false]
  constructor
  · rw [((unlearned.refl (g := Prod.fst) _).setReg ..).jobOf, jobOf_modAdvice, found]
    rfl
  · exact (reg_setReg ..).trans (if_pos rfl)

/-- The advice of a job whose analysis has ended with a result: STATE is 2 where the lead applies it without asking. -/
def Advice.advised (pol : Policy) (f : Found) (seq eff : Nat) (a : Advice) : Advice :=
  { a with seq := seq, state := if pol.apply = 1 then 2 else 1, bins := f.bins, repl := f.repl, effective := eff }

/-- The advice record is written, and the job holds what it says. -/
theorem writeAdvice_job (c : Chip) {p : Nat} (hp : p < 4096) (j : Job) (pol : Policy) (a : Analysis) (f : Found) :
    ∃ eff, (c.writeAdvice p j pol a f).jobOf p j.job =
      (c.jobOf p j.job).map fun k => { k with advice := Advice.advised pol f (trunc 32 (j.advice.seq + 1)) eff k.advice } := by
  unfold writeAdvice
  extract_lets x b32 old c₁ seq state eff n head mid reps c₂ c₃
  have withdrawn : unlearned Prod.fst p c c₁ := unlearned.ite (((unlearned.refl c).regionWrite ..).jcount ..) (unlearned.refl c)
  have written : unlearned Prod.fst p c c₂ := (((withdrawn.regionWrite ..).regionWrite ..).regionWrite ..).regionWrite ..
  have told := (((unlearned.refl (g := Prod.fst) (p := p) c₃).jcount p j.job .LEARN_ADVICE_ISSUED 1).henJob hp j.job 0x3503
    [j.job, seq, b32 f.cutOld, b32 f.cutNew]).stored ((storeSame.refl _).raiseCtx x p 2)
  refine ⟨eff, ?_⟩
  rw [told.jobOf, jobOf_modAdvice, written.jobOf]
  rfl

/-- An analysis that ends with a result of gain, COACT as it was, leaves its advice in the job. -/
theorem analysisDone_advises (c : Chip) {p job : Nat} (hp : p < 4096) {j : Job} {a : Analysis} {f : Found} {pol : Policy} {t : Tensor}
    (found : c.jobOf p job = some j) (runs : j.advice.running = some a) (present : c.reg .PARTITION_MIOBOR_VACANT p ≠ 1)
    (policy : c.policyOf p job = pol) (coact : c.regionTensor p j.ctx pol.coact 7 pol.experts pol.experts = t)
    (coactSound : c.regionCheck p j.ctx t = true) (currentSound : c.regionCheck p j.ctx (c.rawRun p j.ctx pol.current pol.experts) = true)
    (unchanged : c.tilesOf p t = a.coact)
    (result : (Analyse.run pol (fun i k => ofField 32 (c.elem p t i k)) fun i => c.regionByte p j.ctx (pol.current + i)).2 = some f)
    (supplied : c.stageOf p = 0) (gains : (f.gains pol.minGain || f.repl != j.advice.repl) = true) :
    ∃ eff, (c.analysisDone p job).jobOf p job =
      some { j with advice := Advice.advised pol f (trunc 32 (j.advice.seq + 1)) eff { j.advice with running := none } } := by
  subst policy coact
  have powered : ¬ 1 ≤ c.stageOf p := by omega
  have same : (c.tilesOf p (c.regionTensor p j.ctx (c.policyOf p job).coact 7 (c.policyOf p job).experts (c.policyOf p job).experts) !=
      a.coact) = false := by rw [unchanged, bne_self_eq_false]
  unfold analysisDone
  simp only [found, runs, present, powered, coactSound, currentSound, same, result, gains, Bool.not_true, Bool.or_self, Bool.false_eq_true,
    if_false, if_true]
  have ended : ∀ m, (((c.writeScratch p j.ctx (c.policyOf p job) m).endAnalysis p job).jcount p job .LEARN_ANALYSES 1).jobOf p job =
      some { j with advice := { j.advice with running := none } } := fun m => by
    rw [((unlearned.refl (g := Prod.fst) _).jcount ..).jobOf, endAnalysis, ((unlearned.refl (g := Prod.fst) _).setReg ..).jobOf, jobOf_modAdvice,
      ((unlearned.refl (g := Prod.fst) _).writeScratch ..).jobOf, found]
    rfl
  obtain ⟨eff, advised⟩ := writeAdvice_job _ hp j (c.policyOf p job) a f
  rw [jobOf_job found, ended] at advised
  exact ⟨eff, advised⟩

/-! History -/

theorem unlearned.publishLearn {β : Type} {g : List Job × Nat → β} {p : Nat} {c d : Chip} (h : unlearned g p c d) :
    unlearned g p c (d.publishLearn p) := by
  unfold Chip.publishLearn
  refine h.trans (foldl (fun f k => ?_) _ d)
  split
  · exact refl f
  · exact refl f

/-- A job whose history is emptied has no window of it left. -/
theorem emptyHistory_job (c : Chip) {p job : Nat} {j : Job} (found : c.jobOf p job = some j) :
    (c.emptyHistory p job).jobOf p job = some { j with filled := 0, empty_ := true } := by
  unfold emptyHistory
  split
  · next none => rw [found] at none; cases none
  next k there =>
  extract_lets pol d
  have rewritten : unlearned Prod.fst p c d := unlearned.ite (unlearned.refl c) ((unlearned.refl c).rewriteTensor ..)
  rw [((unlearned.refl (g := Prod.fst) _).publishLearn).jobOf,
    d.jobOf_modJob (f := fun k => { k with filled := 0, empty_ := true }) (fun _ num => num), rewritten.jobOf, found]
  rfl

/-- A fresh HIST_RESET empties the job's history and is answered with OK. -/
theorem histReset_empties (c : Chip) {p src tag job : Nat} (hp : p < 4096) {j : Job}
    (fresh : (c.part p).stored.find? (fun r => r.src = src && r.tag = tag && c.now < r.till) = none) (found : c.jobOf p job = some j) :
    (c.histReset p src tag job).jobOf p job = some { j with filled := 0, empty_ := true } ∧
      ∃ till, (⟨src, tag, { type := 0x85, status := 0x00, tag := tag, body := [] }, till⟩ : Stored) ∈
        ((c.histReset p src tag job).part p).stored := by
  have logged : ∀ hide, ((c.logMsg p src 0x84 tag c.now false hide).part p).stored.find?
      (fun r => r.src = src && r.tag = tag && (c.logMsg p src 0x84 tag c.now false hide).now < r.till) = none := fun hide => by
    rw [c.logMsg_stored hp]
    exact fresh
  unfold histReset prequest
  simp only [found, logged]
  refine ⟨?_, preply_stored _ hp ..⟩
  rw [((unlearned.refl (g := Prod.fst) _).preply ..).jobOf]
  refine emptyHistory_job _ ?_
  rw [((unlearned.refl (g := Prod.fst) _).logMsg ..).jobOf, found]

end Chip

end Sys2Proof.Machine
end

section
/-! SUPPORT. The evaluation of a zone's links: it leaves the time of the evaluation alone, and then every port begins a new period (R254 to R256). -/

namespace Sys2Proof.Machine

open Sys2Proof

/-- A port's record as a period begins: its score stands. -/
def PortHealth.renewed (h : PortHealth) : PortHealth := { h with recs := 0, sums := [], depth := 0, means := 0, delays := 0, ups := 0 }

namespace Chip

namespace unlearned

variable {β : Type} {g : List Job × Nat → β} {p : Nat}

section
variable {c d : Chip} (h : unlearned g p c d)
include h

/-! The cluster's counts -/

theorem mioTake (x : Nat) : unlearned g p c (d.mioTake p x) := by
  have taken : unlearned g p c (d.modPart p fun s => { s with mioCtx := some x, mioSince := d.now }) := h.modPart fun _ => rfl
  unfold Chip.mioTake
  split
  · exact ite (h.setReg ..) ((taken.countFor ..).setReg ..)
  · exact taken.setReg ..

theorem mioAdd (e : Desc) (r : Reg) (code n : Nat) : unlearned g p c (d.mioAdd p e r code n) :=
  (h.countFor e.ctx r p n 0).same (pevent_parts ..)

theorem mioCount (e : Desc) (whole : Bool) (l : MioCounts) (open_ : Nat → Nat) : unlearned g p c (d.mioCount p e whole l open_) :=
  h.trans (foldl (fun f _ => (refl f).mioAdd ..) _ d)

/-! A port -/

theorem modTopo (f : TopoDb → TopoDb) : unlearned g p c (d.modTopo p f) := h.modPart fun _ => rfl

theorem kickAuto : unlearned g p c (d.kickAuto p) := by
  unfold Chip.kickAuto
  refine ite h (ite (h.modPart ?_) (h.modPart ?_))
  · exact fun _ => rfl
  · exact fun _ => rfl

theorem sendPortState (u : UnitId) (port : Nat) (enable : Bool) : unlearned g p c (d.sendPortState p u port enable none) := by
  unfold Chip.sendPortState
  split
  · exact h
  · exact ((h.modTopo _).emit _).modTopo _

theorem raise (e : Page) (i b : Nat) : unlearned g p c (d.raise e i b) := h.stored ((storeSame.refl d).raise ..)

theorem lhFlag (hp : p < 4096) (key score : Nat) (u : UnitId) (port : Nat) : unlearned g p c (d.lhFlag p key score u port) := by
  have flagged : unlearned g p c (d.modPart p fun s => { s with flagged := addOnce s.flagged key }) := h.modPart fun _ => rfl
  have told := fun ps => ((flagged.count .LEARN_LH_FLAGS_SET p).henPart hp 0x3505 ps false).raise .LEARN p 0
  have disabled : ∀ {f : Chip}, unlearned g p c f → unlearned g p c (f.modPart p fun s => { s with lhDisabled := addOnce s.lhDisabled key }) :=
    fun k => k.modPart fun _ => rfl
  unfold Chip.lhFlag
  exact ite (((((disabled (told _)).modTopo _).count ..).sendPortState ..).kickAuto) (told _)

theorem lhPort (hp : p < 4096) (key : Nat) : unlearned g p c (d.lhPort p key) := by
  unfold Chip.lhPort
  extract_lets k score scored e u port n on
  have evaluated : unlearned g p c e := by
    refine count (h.modPart ?_) ..
    exact fun _ => rfl
  refine ite (evaluated.lhFlag hp ..) (ite ?_ evaluated)
  refine raise (henPart (count (evaluated.modPart ?_) ..) hp ..) ..
  exact fun _ => rfl

end

end unlearned

/-- The evaluation is timed, gives scores where the cluster serves, and then every port's record begins anew. -/
theorem linkHealthEval_renews (c : Chip) {p : Nat} (hp : p < 4096) (due : (c.part p).lhAt + c.reg .LEARN_LH_PERIOD p * 1000000 ≤ c.now)
    (supplied : c.stageOf p = 0) (runs : c.reg .MIOBOR_STATE p ≠ 3) :
    ∃ d : Chip, (d.part p).lhAt = c.now ∧ (c.reg .PARTITION_MIOBOR_VACANT p = 1 → (d.part p).health = (c.part p).health) ∧
      (c.linkHealthEval p).part p = { d.part p with health := (d.part p).health.map fun e => (e.1, e.2.renewed) } := by
  have open_ : (decide (c.now < (c.part p).lhAt + c.reg .LEARN_LH_PERIOD p * 1000000) || decide (1 ≤ c.stageOf p) ||
      c.reg .MIOBOR_STATE p == 3) = false := by simp [due, supplied, runs]
  unfold linkHealthEval
  extract_lets at_ timed seen e taken added n counted scored
  rw [if_neg (by rw [open_]; exact Bool.false_ne_true)]
  have begun : (timed.part p).lhAt = c.now := by rw [part_modPart_same]
  refine ⟨scored, ?timed, fun vacant => ?unscored, part_modPart_same ..⟩
  case timed =>
    have took : unlearned Prod.snd p timed taken := (((unlearned.refl timed).mioTake 64).setReg ..).mioCount ..
    have drew : unlearned Prod.snd p timed added := (took.mioAdd ..).drawn
    have ran : unlearned Prod.snd p timed counted := (drew.drawn.mioAdd ..).setReg ..
    have evaluated : unlearned Prod.snd p timed scored :=
      unlearned.ite (unlearned.refl timed) (ran.trans (unlearned.foldl (fun f k => (unlearned.refl f).lhPort hp k) seen counted))
    exact Eq.trans evaluated begun
  case unscored =>
    have untouched : scored = timed := if_pos vacant
    rw [untouched, part_modPart_same]

end Chip

end Sys2Proof.Machine
end

section
/-! SUPPORT. Forecasts, analyses, histories and scores of ports (R239 to R256). -/

namespace Sys2Proof.Machine

open Sys2Proof

/-- Settles O35: each command's own effect is a lemma above, and work that learned functions do not see (`unlearned`) leaves it: placing a
forecast's items (`fcUse_forecasts`), writing the advice record, and the scores of ports. -/
theorem learnedFunctions : Obligations.LearnedFunctions := by
  have zone : ∀ {p : Nat} {s : State}, s.alive p → p < 4096 := fun alive => lt_trans alive.1 (by decide)
  unfold Obligations.LearnedFunctions
  refine ⟨?start, ?deadline, ?publish, ?request, ?done, ?history, ?health⟩
  case start =>
    intro t p job w j l s alive found spec history present supplied runs free grid holes due ended fresh model early
    refine ⟨_, rfl, ?_⟩
    rw [State.chip_run_atPart t _ alive]
    exact (s.chip.started t).forecastStart_queues found spec history present supplied runs free grid holes due ended fresh model early
  case deadline =>
    intro t p job w j v s alive found latest here unpublished sound first passed
    refine ⟨_, rfl, ?_⟩
    rw [State.chip_run_atPart t _ alive]
    exact (s.chip.started t).forecastDeadline_late found latest here unpublished sound first passed
  case publish =>
    intro t p job w j v a b s alive found latest here unpublished sound first done inTime forecast confidence
    refine ⟨_, rfl, ?_⟩
    rw [State.chip_run_atPart t _ alive]
    obtain ⟨k, there, inv, spec⟩ := Chip.jobOf_of_forecasts ((s.chip.started t).forecastPublish_publishes found latest here unpublished sound
      first done inTime forecast confidence)
    rw [there, Option.bind_some, inv, List.getLast?_concat, Chip.winOf_of_job there]
    exact ⟨rfl, spec⟩
  case request =>
    intro t i p job j k s alive right found slice leads asked runs idle open_
    refine ⟨_, rfl, ?_⟩
    rw [State.reg, State.chip_run_atPart t _ alive]
    exact (s.chip.started t).analyseReq_starts right found slice leads asked runs idle open_
  case done =>
    intro t p job j a f s alive found runs present coactSound currentSound unchanged result supplied gains
    refine ⟨_, rfl, ?_⟩
    rw [State.chip_run_atPart t _ alive]
    obtain ⟨eff, advised⟩ := (s.chip.started t).analysisDone_advises (zone alive) found runs present rfl rfl coactSound currentSound unchanged
      result supplied gains
    rw [advised]
    exact ⟨rfl, rfl⟩
  case history =>
    intro t p src tag job j s alive fresh found
    refine ⟨_, rfl, ?_⟩
    rw [State.panswered, State.chip_run_atPart t _ alive]
    obtain ⟨emptied, answered⟩ := (s.chip.started t).histReset_empties (zone alive) fresh found
    rw [emptied]
    exact ⟨rfl, answered⟩
  case health =>
    intro t p s alive due supplied runs
    refine ⟨_, rfl, ?_⟩
    rw [State.chip_run_atPart t _ alive]
    obtain ⟨d, timed, unscored, renews⟩ := (s.chip.started t).linkHealthEval_renews (zone alive) due supplied runs
    rw [renews]
    refine ⟨timed, ?_, fun vacant => ?_⟩
    · rw [List.map_map, List.map_map]
      rfl
    · have scores : (d.part p).health = (s.chip.part p).health := unscored vacant
      rw [List.map_map, scores]
      rfl

end Sys2Proof.Machine
end

section
/-! SUPPORT. The fence commands: an endpoint that is not fenced opens the batch of its job, a lift begins with its endpoint, and the records of a
job's fences (R289, R297, R304). -/

namespace Sys2Proof.Machine

open Sys2Proof

/-- The record of a fence that QUERY_FENCES writes. -/
def FenceRec.bytes (f : FenceRec) : List Nat := bytesOf 4 f.fid ++ bytesOf 2 f.f ++ [if f.lifted then 2 else 1, f.reason % 256]

theorem FenceRec.length_bytes (f : FenceRec) : f.bytes.length = 8 := by simp [bytes, length_bytesOf]

theorem FenceRec.bytes_lt (f : FenceRec) : ∀ b ∈ f.bytes, b < 256 := by
  have mark : (if f.lifted then 2 else 1) < 256 := by split <;> decide
  intro b hb
  simp only [bytes, List.mem_append, List.mem_cons, List.not_mem_nil, or_false] at hb
  rcases hb with (hb | hb) | rfl | rfl
  · exact bytesOf_lt 4 _ b hb
  · exact bytesOf_lt 2 _ b hb
  · exact mark
  · exact Nat.mod_lt _ (by decide)

namespace Chip

/-! FENCE_EP -/

/-- A request for the fence of an endpoint of no job opens the batch of these endpoints. -/
theorem fenceRequest_opens (c : Chip) {z : Nat} {a : FenceAsk} (jobless : a.job = 0xFFFF) (free : c.fenceHeld z a.job a.fid = false)
    (closed : ((c.part z).batches.any fun b => b.job = a.job) = false) :
    c.fenceRequest z a = c.modPart z fun s => { s with batches := s.batches ++ [{ job := a.job, openAt := c.now, asks := [a] }] } := by
  rw [fenceRequest, if_pos (.inl jobless)]
  simp only [batchAdd, free, modPart, closed, Bool.false_eq_true, if_false]

/-- FENCE_EP of an endpoint that no fence and no batch holds: the command waits for the order, and the request opens its batch. -/
theorem fenceEp_part (c : Chip) (p tag : Nat) {d : Desc} {z fid : Nat} {u : TopoUnit} (target : d.at 0x10 4 % 2 ^ 20 = fid)
    (zone : c.zoneOfFid fid = some (z, u)) (owned : c.ownerPort z = c.ownerPort p) (jobless : c.jobWith z fid = none)
    (free : c.fenceHeld z 0xFFFF fid = false) (closed : ((c.part z).batches.any fun b => b.job = 0xFFFF) = false) :
    (c.fenceEp p tag d).part z =
      { c.part z with
        fenceCmds := (c.part z).fenceCmds ++ [(.route p, tag, fid)]
        toRetire := if bit (d.at 0x14 2) 0 then addOnce (c.part z).toRetire fid else (c.part z).toRetire
        batches := (c.part z).batches ++
          [{ job := 0xFFFF, openAt := c.now, asks := [{ job := 0xFFFF, slice := 0, fid := fid, reason := 4, detect := c.now }] }] } := by
  have unfenced : ((c.part z).fences.any fun f => f.job = 0xFFFF && f.fid = fid && !f.lifted) = false := by
    rw [fenceHeld, Bool.or_eq_false_iff] at free
    obtain ⟨unfenced, -⟩ := free
    exact unfenced
  simp only [fenceEp, target, zone, owned, jobless, unfenced, ne_eq, not_true_eq_false, Bool.false_eq_true, if_false]
  rw [fenceRequest_opens _ rfl ?free ?closed, part_modPart_same, part_modPart_same]
  · rfl
  case free => rwa [fenceHeld, part_modPart_same]
  case closed => rwa [part_modPart_same]

/-! UNFENCE_EP -/

/-- UNFENCE_EP of a fenced endpoint that no other lift concerns: a lift at stage 0, and the endpoint's agent is asked. -/
theorem unfenceEp_asks (c : Chip) (p tag : Nat) {d : Desc} {z fid : Nat} {u : TopoUnit} {f : FenceRec} (target : d.at 0x10 4 % 2 ^ 20 = fid)
    (zone : c.zoneOfFid fid = some (z, u)) (fenced : ((c.part z).fences.find? fun f => f.fid = fid && !f.lifted) = some f)
    (owned : c.ownerPort z = c.ownerPort p) (positioned : fid ∉ (c.part z).topo.retired)
    (idle : ((c.part z).lifts.any fun l => l.fid = fid) = false) (jobless : c.jobOf z f.job = none) :
    c.unfenceEp p tag d = (c.modPart z fun s => { s with
      lifts := s.lifts ++ [{ job := f.job, slice := 0, fid := fid, f := f.f, stage := 0, cmd := some (.route p, tag) }] }).pask z fid 0x02
        [0x110, 1] (refKey refLift fid) := by
  simp only [unfenceEp, target, zone, fenced, owned, positioned, idle, jobless, ne_eq, not_true_eq_false, or_self, Bool.false_eq_true,
    if_false]

theorem keeps.lifts {p : Nat} {c d : Chip} (h : keeps Part.routes p c d) (q : Nat) : (d.part q).lifts = (c.part q).lifts := by
  have same := congrArg Part.lifts (h.part q)
  exact same

/-! QUERY_FENCES -/

/-- The fences that QUERY_FENCES tells of. -/
def toldFences (c : Chip) (p job : Nat) : List FenceRec := (c.part p).fences.filter fun f => f.job = job && !c.confJob p f.job

/-- Where the host gave room for every record, QUERY_FENCES writes them all and completes OK. -/
theorem queryFences_fits (c : Chip) (p tag : Nat) {d : Desc}
    (fits : ((c.toldFences p (d.at 0x1C 2)).flatMap FenceRec.bytes).length ≤ d.at 0x18 4) :
    c.queryFences p tag d = (c.writeHost (c.ownerPort p) (d.at 0x10 8)
      ((c.toldFences p (d.at 0x1C 2)).flatMap FenceRec.bytes)).complete (.route p) tag 0x00 := by
  have room : ((c.toldFences p (d.at 0x1C 2)).map FenceRec.bytes).length ≤ d.at 0x18 4 / 8 := by
    simp only [List.length_flatMap, FenceRec.length_bytes, List.map_const', List.sum_replicate, smul_eq_mul] at fits
    rw [List.length_map]
    omega
  have written : c.queryFences p tag d = (c.writeHost (c.ownerPort p) (d.at 0x10 8)
      (((c.toldFences p (d.at 0x1C 2)).map FenceRec.bytes).take (d.at 0x18 4 / 8)).flatten).complete (.route p) tag
        (if d.at 0x18 4 / 8 < ((c.toldFences p (d.at 0x1C 2)).map FenceRec.bytes).length then 0x0B else 0x00) := rfl
  rw [written, List.take_of_length_le room, if_neg (by omega), List.flatMap_def]

end Chip

/-- Settles O40: each command's own effect is a lemma above; the message that asks the endpoint's agent leaves the lifts (`keeps.lifts`), and the
completion of QUERY_FENCES leaves the records, which lie apart from its own (`hostBytes_complete`). -/
theorem fenceCommands : Obligations.FenceCommands := by
  unfold Obligations.FenceCommands
  refine ⟨?fence, ?unfence, ?query⟩
  case fence =>
    intro t p z d x u s runs zone owned jobless free closed
    have run := State.chip_run_runCmd runs (e := { d with opcode := 0x58 }) rfl rfl fun c => c.fenceEp p d.tag d
    have own := (congrArg (Chip.part · z) run).trans
      (((s.found t).begun x).fenceEp_part p d.tag rfl zone owned jobless free closed)
    exact ⟨_, rfl, congrArg Part.batches own, congrArg Part.fenceCmds own, congrArg Part.toRetire own⟩
  case unfence =>
    intro t p z d x u f s runs zone fenced owned positioned idle jobless
    have run := State.chip_run_runCmd runs (e := { d with opcode := 0x59 }) rfl rfl fun c => c.unfenceEp p d.tag d
    rw [((s.found t).begun x).unfenceEp_asks p d.tag rfl zone fenced owned positioned idle jobless] at run
    refine ⟨_, rfl, ?lifts, ?requests⟩
    case lifts =>
      refine (congrArg (fun c => (Chip.part c z).lifts) run).trans (((Chip.keeps.refl _).pask _ _ _ _ _).lifts z |>.trans ?_)
      rw [Chip.part_modPart_same]
      rfl
    case requests =>
      have asked := (congrArg (fun c => (Chip.part c z).requests) run).trans (Chip.pask_modPart_requests _ z z _ _ _ _ fun _ => rfl)
      exact (congrArg (List.map fun r => (r.dst, r.msg.type, r.msg.body)) asked).trans List.map_append
  case query =>
    intro t p d x l s runs told fits apart
    subst told
    obtain ⟨small, ring, apart⟩ := apart
    have run := State.chip_run_runCmd runs (e := { d with opcode := 0x5A }) rfl rfl fun c => c.queryFences p d.tag d
    rw [((s.found t).begun x).queryFences_fits p d.tag fits] at run
    have desk := Chip.writeHost_deskSame ((s.found t).ownerPort p) (((s.found t).toldFences p (d.at 0x1C 2)).flatMap FenceRec.bytes)
      ((s.found t).begun x) (d.at 0x10 8)
    have bytes : ∀ b ∈ ((s.found t).toldFences p (d.at 0x1C 2)).flatMap FenceRec.bytes, b < 256 := fun b hb => by
      obtain ⟨f, -, hb⟩ := List.mem_flatMap.1 hb
      exact f.bytes_lt b hb
    refine ⟨_, rfl, ?_, State.recorded_complete runs rfl desk run⟩
    refine (State.hostBytes_complete runs rfl desk run fun j hj k hk same => ?_).trans
      (Chip.hostBytes_writeHost ((s.found t).begun x) _ _ bytes (Nat.le_of_add_left_le small.le))
    obtain ⟨-, same⟩ := Chip.hostKey_inj same
    rw [Nat.mod_eq_of_lt (by omega), Nat.mod_eq_of_lt (by omega)] at same
    omega

end Sys2Proof.Machine
end

section
/-! SUPPORT. The state that refutes the statement about the resets of a partition: a context that was created through a port that no G9 has. -/

namespace Sys2Proof.Machine

open Sys2Proof

/-- A port that no G9 has: the key of its SCRUB_BYTES is that of PART_STATE of partition 0. -/
def scrubPort : Nat := 1024000

/-- Partition 0 is in reset. Context 0, of the stray port, holds one tile of it and is in teardown, at the stage that scrubs. -/
def scrubState : State :=
  { chip := { regs := { vals := [(Reg.key .RESET_PART_STATE 0 0, 2)] }
              ctxs := [(0, { state := 3, stage := 5, port := scrubPort,
                             shares := [(0, { sramFirst := 0, sramTiles := 0, lpFirst := 0x100000, lpTiles := 1 })] })] } }

theorem scrubState_mayBeReady : scrubState.reg .THERMAL_TRIPPED 0 ≠ 1 ∧ (scrubState.chip.part 0).bist = false ∧
    (scrubState.found 0).railsHold = true := by decide +kernel

/-- The bytes of the scrubbed tile, header and payload, are counted in the state that the partition has just taken. -/
theorem scrubState_ready_state : (scrubState.run 0 fun c => c.readyOn 0).reg .RESET_PART_STATE 0 0 = 2064 := by decide +kernel

/-- Refutes O51, in its clause about a partition that reports ready: no premise bounds the ports of the contexts that are resident there. SCRUB_BYTES
of port 1,024,000 and PART_STATE of partition 0 are one register; the partition takes state 0, scrubs what the context in teardown left there (R330),
and its state then reads 2,064 and not 0. -/
theorem not_partitionResets : ¬ Obligations.PartitionResets := by
  unfold Obligations.PartitionResets
  rintro ⟨-, -, -, readies, -⟩
  obtain ⟨s', ran, -, -, ⟨state, -⟩, -⟩ := readies 0 0 scrubState (by decide) (by decide +kernel) (.inl (by decide +kernel))
    scrubState_mayBeReady
  cases ran
  exact absurd (scrubState_ready_state.symm.trans state) (by decide +kernel)

end Sys2Proof.Machine
end

section
/-! SUPPORT. What a step does with the queue of waiting commands, and the open pairs at reset. -/

namespace Sys2Proof.Machine

open Sys2Proof

/-- Settles O1, by the two equations of a step. -/
theorem stepRunsTheFront : Obligations.StepRunsTheFront :=
  ⟨fun i r s waiting => step_cons s i r waiting, fun s idle => step_nil s idle⟩

/-- Every command is work on the chip, or on the chip and the open pairs; neither reaches the waiting commands. -/
theorem exec_pending (i : Instr) (s : State) : ∃ s', exec i s = .next s' ∧ s'.pending = s.pending := by
  cases i with
  | pageCommit | snapshot | intStatusClear | pairComplete | registerWrite | pairExpiry | doorbell | qBaseWrite | cqBaseWrite
  | qEnableWrite | cqHeadWrite | heartbeat | flushNow | mramCopy | clear | note | blobWrite | fwGo | partReinstate
  | deviceReinstate | setTime | arm | traceStop | trigNow | snapNow | vauxLoss | coldBoot =>
    exact ⟨_, rfl, State.runPairs_pending _ _ _⟩
  | _ => exact ⟨_, rfl, State.run_pending _ _ _⟩

/-- Settles O2, case by case. -/
theorem commandsAnswer : Obligations.CommandsAnswer :=
  exec_pending

/-- Settles O6: after reset no pair is open. -/
theorem openPairsAtReset : Obligations.OpenPairsAtReset :=
  pairsSound_nil

end Sys2Proof.Machine
end

section
/-! SUPPORT. The states that refute five statements about captures, the Mules, the supplies, keys and readings, and contexts: a record that fills its
ring, and numbers of ports and zones that no G9 has, whose registers are those of another page. -/

-- The kernel evaluates the states below one after another; in parallel each evaluation would hold a thread of its own.
set_option Elab.async false

namespace Sys2Proof.Machine

open Sys2Proof

/-! A record that fills the ring (O49) -/

/-- A native stream whose ring holds 16 bytes and is empty. -/
def shortStream : Stream := { on := true, cap := 16 }

/-- A record of R394 is 16 bytes long. -/
def wholeRecord : List Nat := List.replicate 16 0

/-- The state after reset, with that stream in partition 0; CAPTURE is STOP_FULL. -/
def shortState : State := { chip := { parts := [(0, { trace := { nat := shortStream } })] } }

/-- The record uses up the capacity, and with it the stream stops (R395). -/
theorem shortState_record_stops :
    ((shortState.run 0 fun c => c.atPart 0 fun c => c.traceRecord 0 (.native wholeRecord)).chip.stream 0 true).stopped = true := by
  decide +kernel

/-- Refutes O49, in its clause about TRACE_RECORD: the clause lets the record fill the ring to its capacity, and then says that nothing but the
ring, the bytes written and the count since the last TIMEBASE changes. STOP_FULL stops the stream when the capacity is used (R395). -/
theorem not_capture : ¬ Obligations.Capture := by
  unfold Obligations.Capture
  rintro ⟨-, -, -, -, -, -, records, -⟩
  obtain ⟨s', ran, stream, -⟩ := records 0 0 shortStream wholeRecord shortState (by decide +kernel) rfl (by decide +kernel)
    (by decide +kernel) (by decide +kernel) (by decide +kernel) (by decide +kernel)
  cases ran
  exact absurd (shortState_record_stops.symm.trans (congrArg Stream.stopped stream)) (by decide)

/-! A Mule command of a stray port (O47) -/

/-- A port that no G9 has: the key of its LINK_UP is that of MULE_COMMANDS of partition 0. -/
def mulePort : Nat := (Reg.MULE_COMMANDS.ctorIdx - Reg.HOSTPORT_LINK_UP.ctorIdx) * 4096

/-- FILL of one tile, tile 0. -/
def fillDesc : Desc := { opcode := 0x24, ops := 2 ^ 128 }

/-- This command, fetched through the stray port. -/
def fillCmd : Cmd := { q := .mule 0 0, d := fillDesc, port := some mulePort }

/-- Context 0 holds tile 0 of partition 0, and its Mule has executed one command: the stray port reads as up. -/
def fillState : State :=
  { chip := { regs := { vals := [(Reg.key .HOSTPORT_LINK_UP mulePort 0, 1)] }
              hostPorts := [(mulePort, { busMaster := true })]
              ctxs := [(0, { state := 2, shares := [(0, { sramFirst := 0, sramTiles := 64, lpFirst := 0x100000, lpTiles := 64 })] })]
              parts := [(0, { tiles := [(0, { ctx := 0 })] })]
              cmds := [fillCmd], cmdSeq := 1 } }

theorem fillState_muleRuns : fillState.muleRuns 0 0 0 fillDesc fillCmd (MuOps.ofDesc fillDesc) := by decide +kernel

/-- The command is counted before its record is due: the port then reads as down, and the record is lost. -/
theorem fillState_record_lost :
    ¬ fillState.recorded (fillState.run 0 fun c => c.mule (.mule 0 0) { fillDesc with opcode := 0x24 }) 0 (.mule 0 0) fillCmd 0x00 1 := by
  decide +kernel

/-- Refutes O47, in its clause about FILL: no premise bounds the port through which the command came. LINK_UP of port 208,896 and the count of the
commands of the Mule of partition 0 are one register; the command is counted, and its completion record is lost. -/
theorem not_muleCommands : ¬ Obligations.MuleCommands := by
  unfold Obligations.MuleCommands
  rintro ⟨-, -, -, -, fills, -⟩
  obtain ⟨s', ran, recorded, -⟩ := fills 0 0 0 fillDesc fillCmd _ fillState rfl fillState_muleRuns
  cases ran
  exact fillState_record_lost recorded

/-! A zone that no G9 has (O54) -/

/-- A zone that no G9 has: the key of its TXN_STAGE is that of PF_WARN. -/
def heldZone : Nat := (Reg.POWER_PF_WARN.ctorIdx - Reg.ROUTE_TXN_STAGE.ctorIdx) * 4096

/-- PF_WARN_N is asserted. The die of partition 0 is at stage 4 by itself, every other partition is in reset. Partition 0 was interrupted and has the
stray zone, of one endpoint, to resolve. -/
def warnedState : State :=
  { chip := { regs := { vals := [(Reg.key .RING_BYPASS 0 0, 14), (Reg.key .RING_BYPASS 1 0, 15), (Reg.key .RING_BYPASS 2 0, 15),
                (Reg.key .RING_BYPASS 3 0, 15), (Reg.key .POWER_STAGE 0 0, 4), (Reg.key .POWER_PF_WARN 0 0, 1), (Reg.key .POWER_PF_HOLD 0 0, 1)] }
              parts := [(0, { restarting := true, resolve := [heldZone] }),
                        (heldZone, { topo := { units := [((UnitId.endpoint 0 0).code, { unit := .endpoint 0 0, fid := 7 })] } })] } }

/-- The stage ends with PF_HOLD, and partition 0 goes on with its resolution: the stray zone enters stage 6 of a transaction. -/
theorem warnedState_release_warns : (warnedState.run 0 fun c => c.pfRelease).reg .POWER_PF_WARN 0 = 6 := by decide +kernel

/-- Refutes O54, in its clause about the release of PF_WARN_N: no premise bounds the zones that a partition resolves after an interruption. TXN_STAGE of
this zone and PF_WARN are one register; the resolution that the release resumes writes 6 there. -/
theorem not_suppliesHeatAndClocks : ¬ Obligations.SuppliesHeatAndClocks := by
  unfold Obligations.SuppliesHeatAndClocks
  rintro ⟨-, -, -, -, -, releases, -⟩
  obtain ⟨s', ran, released, -⟩ := releases 0 warnedState (by decide +kernel)
  cases ran
  exact absurd (warnedState_release_warns.symm.trans released) (by decide)

/-! An SPDM request through a port that no G9 has (O42) -/

/-- A port that no G9 has: the key of its SPDM_REQUESTS is that of HOST_CFG. -/
def spdmPort : Nat := (Reg.DEVICE_HOST_CFG.ctorIdx - Reg.CONTEXT_SPDM_REQUESTS.ctorIdx) * 4096

/-- The stray port answers SPDM requests, and HOST_CFG is 0. -/
def spdmState : State :=
  { chip := { regs := { vals := [(Reg.key .CONTEXT_IDENTITY_OK spdmPort 0, 1), (Reg.key .DEVICE_HOST_CFG 0 0, 0)] } } }

theorem spdmState_measurement : (spdmState.found 0).measurement spdmPort 0 4 = some [0] := by decide +kernel

/-- The request is counted before the configuration is measured: the answer carries a HOST_CFG of 1. -/
theorem spdmState_response :
    (spdmState.run 0 fun c => c.spdmRequest spdmPort 0 (.measure 4 0)).chip.out =
      [.response "MEASUREMENTS" [spdmPort, 0, 4, Config.ecdsaSign 1 0, 2]] := by
  have counted : ((spdmState.found 0).count .CONTEXT_SPDM_REQUESTS spdmPort).measurement spdmPort 0 4 = some [2] := by decide +kernel
  have ready : (((spdmState.found 0).count .CONTEXT_SPDM_REQUESTS spdmPort).reg .CONTEXT_IDENTITY_OK spdmPort == 0) = false := by
    decide +kernel
  change ((spdmState.found 0).spdmRequest spdmPort 0 (.measure 4 0)).out = _
  simp only [Chip.spdmRequest, ready, counted]
  rfl

/-- Refutes O42, in its clause about a measurement: no premise bounds the port of the request. SPDM_REQUESTS of this port and HOST_CFG are one
register; the request counts there, and the measured configuration (index 4) is no longer the one that was offered. -/
theorem not_linkKeysAndReadings : ¬ Obligations.LinkKeysAndReadings := by
  unfold Obligations.LinkKeysAndReadings
  rintro ⟨-, -, -, -, measures, -⟩
  obtain ⟨s', ran, answered⟩ := measures 0 spdmPort 0 4 0 [0] spdmState (by decide +kernel) spdmState_measurement
  cases ran
  rw [spdmState_response] at answered
  simp at answered

/-! SET_RESIDENT through a port that no G9 has (O41) -/

/-- A port that no G9 has: the key of its LINK_UP is that of SRAM_FREE of partition 0. -/
def residentPort : Nat := (Reg.MEMORY_SRAM_FREE.ctorIdx - Reg.HOSTPORT_LINK_UP.ctorIdx) * 4096

/-- SET_RESIDENT of context 0 in partition 0, with the smallest shares. -/
def residentDesc : Desc := { opcode := 0x91, ops := 2 ^ 16 + 2 ^ 32 + 64 * 2 ^ 64 }

/-- This command, fetched through the stray port. -/
def residentCmd : Cmd := { q := .context 0, d := residentDesc, port := some residentPort }

/-- Context 0 is created, and the lanes of partition 0's control port are up. SRAM_FREE reads 1: the stray port reads as up. -/
def residentState : State :=
  { chip := { regs := { vals := [(Reg.key .HOSTPORT_LINK_UP residentPort 0, 1)] }
              hostPorts := [(residentPort, { busMaster := true })]
              ctxs := [(0, { state := 1 })]
              parts := [(0, { lanesUp := true })]
              cmds := [residentCmd], cmdSeq := 1 } }

theorem residentState_mayRun : residentState.mayRun 0 (.context 0) residentDesc residentCmd := by decide +kernel

/-- The new shares are taken from the free tiles before the record is due: the port then reads as down, and the record is lost. -/
theorem residentState_record_lost :
    ¬ residentState.recorded (residentState.run 0 fun c => c.runCmd (.context 0) { residentDesc with opcode := 0x91 } fun c =>
      c.setResident 0 residentDesc) 0 (.context 0) residentCmd 0x00 0 := by
  decide +kernel

/-- Refutes O41, in its clause about SET_RESIDENT: no premise bounds the port through which the command came. LINK_UP of this port and SRAM_FREE of
partition 0 are one register; the residency moves it, and the completion record is lost. -/
theorem not_contextCommands : ¬ Obligations.ContextCommands := by
  unfold Obligations.ContextCommands
  rintro ⟨-, residents, -⟩
  obtain ⟨s', ran, -, recorded⟩ := residents 0 0 0 residentDesc residentCmd residentState residentState_mayRun (by decide +kernel)
    (by decide +kernel) (by decide +kernel) (by decide +kernel) (by decide +kernel) (by decide +kernel) (by decide +kernel)
    (by decide +kernel) (by decide +kernel) (by decide +kernel) (by decide +kernel)
  cases ran
  exact residentState_record_lost recorded

end Sys2Proof.Machine
end

section
/-! SUPPORT. The layouts of completion records and of Hen's fixed records (R353, R430): each field is the bytes of a number at its offset. -/

namespace Sys2Proof.Machine

open Sys2Proof

/-- Bytes that are those of a number read as this number, cut to their width. -/
theorem ofBytes_of_eq_bytesOf {l : List Nat} (n v : Nat) (h : l = bytesOf n v) : ofBytes l = v % 2 ^ (8 * n) :=
  h ▸ ofBytes_bytesOf n v

theorem Chip.phaseOf_le_one (c : Chip) (i : QId) : c.phaseOf i ≤ 1 := Nat.sub_le 1 _

/-- The stamp of a completion record is 32 bits of Bellwether, from bit 10 on (R353). -/
theorem bits_41_10 (v : Nat) : bits v 41 10 = v / 2 ^ 10 % 2 ^ 32 := by
  rw [bits, Nat.shiftRight_eq_div_pow]

/-- The parameters of a fixed record stand in four bytes each from byte 12 on (R430). -/
theorem FixedRec.bytes_param (r : FixedRec) (k : Nat) (hk : k < 4) : (r.bytes.drop (12 + 4 * k)).take 4 = bytesOf 4 (r.p.getD k 0) := by
  match k, hk with
  | 0, _ | 1, _ | 2, _ | 3, _ => rfl

/-- Settles O57: every field of a record is cut out of it as the bytes of its value; the limit of a command is a case of its timeout code. -/
theorem recordLayouts : Obligations.RecordLayouts := by
  unfold Obligations.RecordLayouts
  refine ⟨?completion, ?fixed, ?limit⟩
  case completion =>
    intro c i d status detail
    refine ⟨c.length_recordBytes i d status detail, ofBytes_of_eq_bytesOf 4 d.tag rfl, rfl, rfl, c.phaseOf_le_one i, rfl, rfl,
      ofBytes_of_eq_bytesOf 4 detail rfl, ?_⟩
    have stamp : (c.recordBytes i d status detail).drop 12 = bytesOf 4 (bits c.now 41 10) := rfl
    rw [ofBytes_of_eq_bytesOf 4 _ stamp, bits_41_10]
    exact Nat.mod_mod _ _
  case fixed =>
    intro r
    exact ⟨rfl, ofBytes_of_eq_bytesOf 2 r.code rfl, rfl, rfl, ofBytes_of_eq_bytesOf 8 r.time rfl,
      fun k hk => ofBytes_of_eq_bytesOf 4 _ (r.bytes_param k hk), ofBytes_of_eq_bytesOf 4 r.rep rfl⟩
  case limit =>
    intro c y x p compute
    refine ⟨fun given => ?_, fun none_ set => ?_⟩
    · simp [Chip.limitOf, timeoutTicks, given.ne']
    · simp [Chip.limitOf, timeoutTicks, none_, compute, set]

end Sys2Proof.Machine
end

section
/-! SUPPORT. What a function of the block sees of a record of Hen and of capture that ignores partitions, the recorder, what leaves the block and
some registers: nothing, where the registers of recording are among them (R389, R394 to R397, R429 to R432). -/

namespace Sys2Proof.Machine

open Sys2Proof

/-- The registers of Hen that a record may move. -/
def henRegs : List Reg :=
  [.HEN_NEXT, .HEN_OLDEST, .HEN_KEPT_USED, .HEN_LOST, .HEN_LOST_FLUSH, .HEN_RECORDS_FIXED, .HEN_RECORDS_VAR, .HEN_REPEATS]

/-- The registers of a partition's capture that its streams and triggers may move. -/
def streamRegs : List Reg :=
  [.TRACE_NAT_FIRST, .TRACE_NAT_NEXT, .TRACE_CMP_FIRST, .TRACE_CMP_NEXT, .TRACE_SPILL_BYTES, .TRACE_NATIVE_BYTES, .TRACE_RECORDS,
   .TRACE_DROPPED_RECORDS, .TRACE_DROP_MARKERS, .TRACE_GAP_RECORDS, .TRACE_TRIGGERS, .TRACE_TRIG_AT, .TRACE_STATE, .TRACE_TRIGGERS_IGNORED]

/-- A function of the block that ignores the registers of `R`, its streams of capture, its recorder and its cross-triggers. -/
structure Chip.Blind {β : Type} (R : Reg → Nat → Prop) (f : Chip → β) : Prop where
  setReg : ∀ c r i v, R r i → f (Chip.setReg c r i 0 v) = f c
  setStream : ∀ c p nat x, f (Chip.setStream c p nat x) = f c
  modHen : ∀ c g, f (Chip.modHen c g) = f c
  emit : ∀ c p, f (Chip.emit c (.board "cross-trigger" [p])) = f c

/-- A register other than those of `R` is such a function. -/
theorem Chip.blind_reg {R : Reg → Nat → Prop} {r : Reg} {i x : Nat} (other : ∀ r' j, R r' j → r' ≠ r ∧ j < 4096) (hi : i < 4096) (hx : x < 64) :
    Chip.Blind R fun c => c.reg r i x where
  setReg c _ _ v one :=
    have ⟨differs, small⟩ := other _ _ one
    Chip.reg_setReg_far c v differs small hi (by decide) hx
  setStream _ _ _ _ := rfl
  modHen _ _ := rfl
  emit _ _ := rfl

/-- A part of the block that is neither a register nor a stream is one, whatever the registers. -/
abbrev Chip.BlindRest {β : Type} (f : Chip → β) : Prop := Chip.Blind (fun _ _ => True) f

namespace Chip.Blind

variable {β : Type} {R : Reg → Nat → Prop} {f : Chip → β}

theorem ite {x : Prop} [Decidable x] {c d : Chip} {y : β} (hc : f c = y) (hd : f d = y) : f (if x then c else d) = y :=
  Unlogged.ite hc hd

/-- Steps that leave it alone, one for each element of a list. -/
theorem foldl {α : Type} {g : Chip → α → Chip} {l : List α} (step : ∀ a ∈ l, ∀ c, f (g c a) = f c) (c : Chip) : f (l.foldl g c) = f c := by
  induction l generalizing c with
  | nil => rfl
  | cons a r ih => exact (ih (fun y hy => step y (List.mem_cons_of_mem a hy)) (g c a)).trans (step a List.mem_cons_self c)

variable (b : Blind R f) (c : Chip)
include b

theorem countN (r : Reg) (i n : Nat) (one : R r i) : f (c.countN r i n) = f c :=
  b.setReg c r i (min (c.reg r i + n) (2 ^ r.width - 1)) one

theorem count (r : Reg) (i : Nat) (one : R r i) : f (c.count r i) = f c := b.countN c r i 1 one

/-! Hen -/

section
variable (hen : ∀ r ∈ henRegs, R r 0)
include hen

theorem henPublish (next : Nat) : f (c.henPublish next) = f c :=
  (b.setReg _ _ _ _ (hen _ (by decide))).trans ((b.setReg _ _ _ _ (hen _ (by decide))).trans (b.setReg _ _ _ _ (hen _ (by decide))))

theorem henRing (x : HenRec) : f (c.henRing x) = f c := by
  unfold Chip.henRing
  refine ite (b.count _ _ _ (hen _ (by decide))) ?_
  cases x with
  | fixed r => exact (b.count _ _ _ (hen _ (by decide))).trans ((b.henPublish _ hen _).trans (b.modHen _ _))
  | var => exact (b.count _ _ _ (hen _ (by decide))).trans ((b.modHen _ _).trans ((b.henPublish _ hen _).trans (b.modHen _ _)))

theorem henStore (src : Nat) (r : FixedRec) : f (henFixed.store c src r) = f c := by
  unfold henFixed.store
  exact ite ((b.count _ _ _ (hen _ (by decide))).trans ((b.henPublish _ hen _).trans ((b.modHen _ _).trans (b.modHen _ _))))
    ((b.henRing _ hen _).trans (b.modHen _ _))

theorem henFixed (src code part : Nat) (params : List Nat) (hidden : Bool) : f (c.henFixed src code part params hidden) = f c := by
  have taken : f c.henTake = f c := by
    unfold Chip.henTake
    exact b.modHen _ _
  have queued := (b.modHen c.henTake fun g => { g with queue := g.queue ++ [src] }).trans taken
  unfold Chip.henFixed
  refine ite ((b.modHen _ _).trans ((b.count _ _ _ (hen _ (by decide))).trans taken)) ?_
  dsimp only
  split
  · exact ite ((b.count _ _ _ (hen _ (by decide))).trans ((b.modHen _ _).trans queued)) ((b.henStore _ hen _ _).trans queued)
  · exact (b.henStore _ hen _ _).trans queued

theorem henDev (code : Nat) (params : List Nat) (src : Nat) : f (c.henDev code params src) = f c := b.henFixed c hen src code 0xFF params false

theorem henVar (src code part : Nat) (hidden : Bool) (body : List Nat) : f (c.henVar src code part hidden body) = f c :=
  (b.henRing _ hen _).trans (b.modHen _ _)

end

/-! Capture -/

section
variable {p : Nat} (cap : ∀ r ∈ streamRegs, R r p) (nat : Bool)

include cap

theorem publish (before : Nat) : f (c.publish p nat before) = f c := by
  have offsets : ∀ m n : Nat, f (if nat then (c.setReg .TRACE_NAT_FIRST p 0 m).setReg .TRACE_NAT_NEXT p 0 n
      else (c.setReg .TRACE_CMP_FIRST p 0 m).setReg .TRACE_CMP_NEXT p 0 n) = f c := fun m n =>
    ite ((b.setReg _ _ _ _ (cap _ (by decide))).trans (b.setReg _ _ _ _ (cap _ (by decide))))
      ((b.setReg _ _ _ _ (cap _ (by decide))).trans (b.setReg _ _ _ _ (cap _ (by decide))))
  unfold Chip.publish
  exact ite (offsets _ _) ((b.countN _ _ _ _ (cap _ (by decide))).trans (offsets _ _))

theorem drainStream : f (c.drainStream p nat) = f c := by
  unfold Chip.drainStream
  exact ite rfl ((b.publish _ cap nat _).trans (b.setStream c p nat _))

theorem putRaw (marker : Bool) (l : List Nat) : f (c.putRaw p nat marker l) = f c := by
  have put := fun x => (b.publish (c.setStream p nat x) cap nat (c.stream p nat).written).trans (b.setStream c p nat x)
  unfold Chip.putRaw
  exact ite (ite ((b.countN _ _ _ _ (cap _ (by decide))).trans (put _)) ((b.count _ _ _ (cap _ (by decide))).trans (put _)))
    (ite ((b.count _ _ _ (cap _ (by decide))).trans (put _)) (put _))

theorem timebase : f (c.timebase p nat) = f c := (b.setStream _ p nat _).trans (b.putRaw c cap nat true _)

theorem putRecord (marker : Bool) (l : List Nat) : f (c.putRecord p nat marker l) = f c := by
  have drained := b.drainStream c cap nat
  have based := ite (x := ((c.drainStream p nat).stream p nat).high ≠ (c.drainStream p nat).now >>> 44 ∨
    65536 ≤ ((c.drainStream p nat).stream p nat).sinceBase) ((b.timebase _ cap nat).trans drained) drained
  have put := (b.putRaw _ cap nat marker l).trans based
  unfold Chip.putRecord
  refine ite rfl ?_
  dsimp only
  split
  · exact ite put (ite ((b.setStream _ p nat _).trans put) ((b.setStream _ p nat _).trans ((b.putRaw _ cap nat true _).trans put)))
  · exact put

theorem endDrop : f (c.endDrop p nat) = f c := by
  unfold Chip.endDrop
  dsimp only
  split
  · rfl
  · exact (b.timebase _ cap nat).trans ((b.count _ _ _ (cap _ (by decide))).trans ((b.putRaw _ cap nat true _).trans (b.setStream c p nat _)))

theorem triggerStream (tail : Nat) : f (c.triggerStream p nat tail) = f c := by
  have dropped := (b.putRecord ((c.drainStream p nat).endDrop p nat) cap nat true
    (traceRec ((c.drainStream p nat).endDrop p nat).now 5 0 p tail)).trans ((b.endDrop _ cap nat).trans (b.drainStream c cap nat))
  unfold Chip.triggerStream
  exact ite rfl (ite ((b.setStream _ p nat _).trans (ite ((b.putRaw _ cap nat true _).trans dropped) dropped)) dropped)

omit nat in
theorem triggerCore (src job layer op : Nat) : f (c.triggerCore p src job layer op).1 = f c := by
  unfold Chip.triggerCore
  split
  · rfl
  · split
    · have marked := (b.triggerStream (c.triggerStream p true (traceTail src 0 job layer op)) cap false
        (traceTail src 0 job layer op)).trans (b.triggerStream c cap true _)
      have shown : ∀ (d : Chip) (v : Nat), f (((d.count .TRACE_TRIGGERS p).setReg .TRACE_TRIG_AT p 0 v).setReg .TRACE_STATE p 0 2) = f d :=
        fun d v => (b.setReg _ _ p 2 (cap _ (by decide))).trans ((b.setReg _ _ p v (cap _ (by decide))).trans (b.count d _ p (cap _ (by decide))))
      dsimp only
      exact ite ((b.emit _ _).trans ((shown _ _).trans marked)) ((shown _ _).trans marked)
    · exact b.count c .TRACE_TRIGGERS_IGNORED p (cap _ (by decide))
    · exact b.count c .TRACE_TRIGGERS_IGNORED p (cap _ (by decide))
    · rfl

omit nat in
theorem traceMarker (kind unit rest : Nat) : f (c.traceMarker p kind unit rest) = f c := by
  unfold Chip.traceMarker
  exact (b.putRecord _ cap false true _).trans (b.putRecord c cap true true _)

/-! Both -/

omit nat

variable (hen : ∀ r ∈ henRegs, R r 0)
include hen

theorem henPart (code : Nat) (params : List Nat) (hidden : Bool) : f (c.henPart p code params hidden) = f c := by
  have recorded := b.henFixed c hen p code p params hidden
  have triggered := (b.triggerCore (c.henFixed p code p params hidden) cap 3 0 0 0).trans recorded
  unfold Chip.henPart
  exact ite (ite ((b.henFixed _ hen _ _ _ _ _).trans triggered) triggered) recorded

theorem henCtx (x code : Nat) (params : List Nat) : f (c.henCtx x p code params) = f c := b.henPart c cap hen code params _

theorem trigger (src job layer op : Nat) : f (c.trigger p src job layer op) = f c := by
  have taken := b.triggerCore c cap src job layer op
  unfold Chip.trigger
  exact ite ((b.henPart _ cap hen _ _ _).trans taken) taken

end

end Chip.Blind

/-! Registers -/

/-- The registers that a record of Hen may move. -/
def HenAt (r : Reg) (i : Nat) : Prop := r ∈ henRegs ∧ i = 0

/-- The registers that a record of a partition may move. -/
def RecordAt (p : Nat) (r : Reg) (i : Nat) : Prop := HenAt r i ∨ r ∈ streamRegs ∧ i = p

theorem RecordAt.hen {p : Nat} : ∀ r ∈ henRegs, RecordAt p r 0 := fun _ one => .inl ⟨one, rfl⟩

theorem RecordAt.stream {p : Nat} : ∀ r ∈ streamRegs, RecordAt p r p := fun _ one => .inr ⟨one, rfl⟩

namespace Chip

variable {r : Reg} {i x : Nat} (hi : i < 4096) (hx : x < 64)
include hi hx

theorem blind_henAt (other : r ∉ henRegs) : Blind HenAt fun c => c.reg r i x :=
  blind_reg (fun _ _ one => ⟨fun same => other (same ▸ one.1), by rw [one.2]; decide⟩) hi hx

theorem blind_recordAt {p : Nat} (hp : p < 4096) (other : r ∉ henRegs ++ streamRegs) : Blind (RecordAt p) fun c => c.reg r i x := by
  refine blind_reg (fun r' j one => ?_) hi hx
  have differs : ∀ {l : List Reg}, l ⊆ henRegs ++ streamRegs → r' ∈ l → r' ≠ r := fun part one same => other (part (same ▸ one))
  obtain ⟨one, rfl⟩ | ⟨one, rfl⟩ := one
  · exact ⟨differs (List.subset_append_left _ _) one, by decide⟩
  · exact ⟨differs (List.subset_append_right _ _) one, hp⟩

end Chip

end Sys2Proof.Machine
end

section
/-! SUPPORT. The commands of time, capture, snapshots, the recorder and the supplies, seen from the pages of other blocks and from memory, agents,
contexts, slices and queues: nothing (R384 to R389, R394 to R406, R429, R440, R451 to R463). -/

namespace Sys2Proof.Machine

open Sys2Proof

/-- The pages that those commands write. -/
def nearPages : List Page :=
  [.TIME, .HEN, .TRACE, .COUNTERS, .COMMON, .HOSTPORT, .RING, .LOOPS, .POWER, .THERMAL, .BOOT]

/-- A register that those commands may write. -/
def NearReg (r : Reg) (i : Nat) : Prop := r.desc.page ∈ nearPages ∧ i < 4096

theorem nearReg_hen : ∀ r ∈ henRegs, NearReg r 0 := fun r recorded => ⟨(by decide : ∀ r ∈ henRegs, r.desc.page ∈ nearPages) r recorded, by decide⟩

theorem nearReg_stream {p : Nat} (hp : p < 16) : ∀ r ∈ streamRegs, NearReg r p :=
  fun r captured => ⟨(by decide : ∀ r ∈ streamRegs, r.desc.page ∈ nearPages) r captured, by omega⟩

theorem RegFile.snapshot_vals (f : RegFile) (es : List (Reg × Nat)) (inst : Nat) : (f.snapshot es inst).vals = f.vals := by
  unfold RegFile.snapshot
  generalize es.filter (fun e => e.1.desc.counter) = l
  induction l generalizing f with
  | nil => rfl
  | cons e r ih => exact ih _

namespace Chip

theorem reg_snapshotPage (c : Chip) (g : Page) (i : Nat) (r : Reg) (n x : Nat) : (c.snapshotPage g i).reg r n x = c.reg r n x := by
  unfold reg RegFile.get
  rw [show (c.snapshotPage g i).regs.vals = c.regs.vals from RegFile.snapshot_vals _ _ _]

/-- What those commands leave: memory, agents, contexts, slices, the commands in their queues, and a register. -/
def farView (r : Reg) (n x : Nat) (c : Chip) : SMap (BitVec 8) × SMap Agent × SMap Ctx × List Slice × List Cmd × Nat :=
  (c.hostMem, c.agents, c.ctxs, c.slices, c.cmds, c.reg r n x)

/-! An edge of PPS_IN, taken apart (R388, R462) -/

/-- The edge comes at a good distance from the one before. -/
def ppsGood (c : Chip) : Bool :=
  match c.time.ppsLast with
  | none => true
  | some l => (999000000 ≤ c.now - l && c.now - l ≤ 1001000000) || 1500000000 ≤ c.now - l

/-- The edge's distance from a whole second, in ticks. -/
def ppsError (c : Chip) : Int :=
  let r := c.now % 1000000000
  if r < 500000000 then r else (r : Int) - 1000000000

/-- The edge is counted and measured, and the master's rate follows it. -/
def ppsMeasured (c : Chip) : Chip :=
  let c := (c.count .TIME_PPS_EDGES).setReg .TIME_PPS_ERR 0 0 (satField 32 c.ppsError)
  if c.isManager && c.reg .TIME_PPS_IN_EN == 1 then c.slew else c

/-- A time that waits for an edge is loaded. -/
def ppsStepped (c : Chip) : Chip :=
  match c.time.setAtPps with
  | [] => c
  | [v] => c.timeStep ((v : Int) - c.now)
  | l => (c.drawn).timeStep ((l.getD (c.freeVal 32 % l.length) 0 : Int) - c.now)

theorem ppsEdge_eq (c : Chip) :
    c.ppsEdge = if !c.ppsGood then c.count .BOOT_PPS_REJECTED
      else c.ppsMeasured.ppsStepped.modTime fun k => { k with ppsLast := some c.ppsMeasured.ppsStepped.now, ppsLost := false, setAtPps := [] } := by
  unfold ppsEdge ppsGood ppsStepped ppsMeasured ppsError
  rfl

theorem farView_emit {r : Reg} {n x : Nat} (c : Chip) (e : Emission) : farView r n x (c.emit e) = farView r n x c := rfl

theorem farView_of {r : Reg} {n x : Nat} {c d : Chip} (mem : d.hostMem = c.hostMem) (agents : d.agents = c.agents) (ctxs : d.ctxs = c.ctxs)
    (slices : d.slices = c.slices) (cmds : d.cmds = c.cmds) (regs : d.regs = c.regs) : farView r n x d = farView r n x c := by
  unfold farView reg
  rw [mem, agents, ctxs, slices, cmds, regs]

/-- A register of a page of another block. -/
def FarReg (r : Reg) (n x : Nat) : Prop := r.desc.page ∈ farPages ∧ n < 4096 ∧ x < 64

section
variable {r : Reg} {n x : Nat} (far : FarReg r n x)
include far

theorem farView_setReg (c : Chip) (r' : Reg) (i y v : Nat) (page : r'.desc.page ∈ nearPages) (hi : i < 4096) (hy : y < 64) :
    farView r n x (c.setReg r' i y v) = farView r n x c := by
  obtain ⟨far, hn, hx⟩ := far
  unfold farView
  rw [reg_setReg_far c v (fun same => ?_) hi hn hy hx]
  · rfl
  · subst same
    exact absurd far ((by decide : ∀ g ∈ nearPages, g ∉ farPages) _ page)

theorem farView_blind : Blind NearReg (farView r n x) where
  setReg c r' i v near := farView_setReg far c r' i 0 v near.1 near.2 (by decide)
  setStream _ _ _ _ := rfl
  modHen _ _ := rfl
  emit _ _ := rfl

theorem farView_count (c : Chip) (r' : Reg) (i : Nat) (page : r'.desc.page ∈ nearPages) (hi : i < 4096) :
    farView r n x (c.count r' i) = farView r n x c := (farView_blind far).count c r' i ⟨page, hi⟩

theorem farView_henDev (c : Chip) (code : Nat) (l : List Nat) (src : Nat) : farView r n x (c.henDev code l src) = farView r n x c :=
  (farView_blind far).henDev c nearReg_hen code l src

theorem farView_henDevAny (c : Chip) (code : Nat) : farView r n x (c.henDevAny code) = farView r n x c :=
  (farView_henDev far _ code _ 19).trans rfl

/-! Time -/

omit far in
theorem farView_modTime (c : Chip) (f : TimeKeep → TimeKeep) : farView r n x (c.modTime f) = farView r n x c := rfl

omit far in
theorem farView_clock (c : Chip) (t : Nat) (k : Int) : farView r n x { c with now := t, stepped := k } = farView r n x c := rfl

theorem farView_timeStep (c : Chip) (d : Int) : farView r n x (c.timeStep d) = farView r n x c := by
  unfold timeStep
  simp (disch := decide) only [farView_clock, farView_modTime, farView_henDev far, farView_setReg far, farView_count far]

theorem farView_publishTime (c : Chip) : farView r n x c.publishTime = farView r n x c := by
  unfold publishTime
  dsimp only
  split <;> simp (disch := decide) only [farView_setReg far, apply_ite (farView r n x), ite_self]

theorem farView_slew (c : Chip) : farView r n x c.slew = farView r n x c :=
  farView_setReg far c.drawn .TIME_RATE_ADJ 0 0 _ (by decide) (by decide) (by decide)

theorem farView_timeSet (c : Chip) (rc sp rp sc : Nat) : farView r n x (c.timeSet rc sp rp sc) = farView r n x c := by
  unfold timeSet
  dsimp only
  split
  · exact farView_publishTime far c
  · split <;> simp (disch := decide) only [farView_modTime, farView_publishTime far, farView_timeStep far, farView_slew far,
      farView_setReg far, farView_count far, apply_ite (farView r n x), ite_self]

theorem farView_timeLeg (c : Chip) {p : Nat} (hp : p < 16) (src delay t1 t2 : Nat) :
    farView r n x (c.timeLeg p src delay t1 t2) = farView r n x c := by
  have logged : farView r n x (c.logMsg p src 0x89 0 c.now false false) = farView r n x c :=
    farView_setReg far (c.modPart p _) .TRACE_MSGLOG_NEXT p 0 _ (by decide) (by omega) (by decide)
  unfold timeLeg
  dsimp only
  split
  · exact logged
  · simp only [farView_modTime, logged, apply_ite (farView r n x), ite_self]

theorem farView_holdover (c : Chip) : farView r n x c.holdover = farView r n x c := by
  unfold holdover
  simp (disch := decide) only [farView_henDevAny far, farView_setReg far, apply_ite (farView r n x), ite_self]

theorem farView_setTimeApplied (c : Chip) : farView r n x c.setTimeApplied = farView r n x c := by
  unfold setTimeApplied
  simp only [farView_modTime, farView_timeStep far, apply_ite (farView r n x), ite_self]

theorem farView_ppsEdge (c : Chip) : farView r n x c.ppsEdge = farView r n x c := by
  have drawn : ∀ d : Chip, farView r n x d.drawn = farView r n x d := fun _ => rfl
  have measured : farView r n x c.ppsMeasured = farView r n x c := by
    unfold ppsMeasured
    simp (disch := decide) only [farView_slew far, farView_setReg far, farView_count far, apply_ite (farView r n x), ite_self]
  have stepped : ∀ d : Chip, farView r n x d.ppsStepped = farView r n x d := fun d => by
    unfold ppsStepped
    split <;> simp only [farView_timeStep far, drawn]
  rw [ppsEdge_eq, apply_ite (farView r n x), farView_count far _ _ _ (by decide) (by decide), farView_modTime, stepped, measured, ite_self]

theorem farView_ppsMissing (c : Chip) : farView r n x c.ppsMissing = farView r n x c := by
  unfold ppsMissing
  simp (disch := decide) only [farView_modTime, farView_henDevAny far, farView_count far, apply_ite (farView r n x), ite_self]

omit far in
theorem farView_ppsOut (c : Chip) : farView r n x c.ppsOut = farView r n x c := Blind.ite rfl rfl

/-! Capture -/

section
variable {p : Nat} (hp : p < 16)
include hp

theorem farView_trigger (c : Chip) (src : Nat) : farView r n x (c.trigger p src) = farView r n x c :=
  (farView_blind far).trigger c (nearReg_stream hp) nearReg_hen src 0 0 0

theorem farView_drainStream (c : Chip) (nat : Bool) : farView r n x (c.drainStream p nat) = farView r n x c :=
  (farView_blind far).drainStream c (nearReg_stream hp) nat

theorem farView_traceMarker (c : Chip) (kind unit rest : Nat) : farView r n x (c.traceMarker p kind unit rest) = farView r n x c :=
  (farView_blind far).traceMarker c (nearReg_stream hp) kind unit rest

theorem farView_traceReg (c : Chip) (r' : Reg) (v : Nat) (page : r'.desc.page = .TRACE) :
    farView r n x (c.setReg r' p 0 v) = farView r n x c :=
  farView_setReg far c r' p 0 v (page ▸ by decide) (by omega) (by decide)

theorem farView_arm (c : Chip) : farView r n x (c.arm p) = farView r n x c := by
  have b := farView_blind far
  have modPart : ∀ (d : Chip) g, farView r n x (d.modPart p g) = farView r n x d := fun _ _ => rfl
  have setStream : ∀ (d : Chip) nat g, farView r n x (d.setStream p nat g) = farView r n x d := fun d => b.setStream d p
  have timebase : ∀ (d : Chip) nat, farView r n x (d.timebase p nat) = farView r n x d := fun d => b.timebase d (nearReg_stream hp)
  have publish : ∀ (d : Chip) nat m, farView r n x (d.publish p nat m) = farView r n x d := fun d => b.publish d (nearReg_stream hp)
  unfold arm
  simp (disch := decide) only [List.foldl, modPart, setStream, timebase, publish, farView_traceMarker far hp, farView_traceReg far hp,
    apply_ite (farView r n x), ite_self]

theorem farView_captureDone (c : Chip) : farView r n x (c.captureDone p) = farView r n x c := by
  have henPart : ∀ (d : Chip) l, farView r n x (d.henPart p 0x1803 l) = farView r n x d := fun d l =>
    (farView_blind far).henPart d (nearReg_stream hp) nearReg_hen 0x1803 l false
  unfold captureDone
  simp (disch := decide) only [henPart, farView_drainStream far hp, farView_traceReg far hp, apply_ite (farView r n x), ite_self]

theorem farView_traceStop (c : Chip) : farView r n x (c.traceStop p) = farView r n x c := by
  have setStream : ∀ (d : Chip) nat g, farView r n x (d.setStream p nat g) = farView r n x d := fun d => (farView_blind far).setStream d p
  unfold traceStop
  simp only [List.foldl, setStream, farView_captureDone far hp, farView_traceMarker far hp, apply_ite (farView r n x), ite_self]

theorem farView_trigTime (c : Chip) : farView r n x (c.trigTime p) = farView r n x c :=
  Blind.ite (farView_trigger far hp c 2) rfl

theorem farView_coreTrigger (c : Chip) : farView r n x (c.coreTrigger p) = farView r n x c :=
  Blind.ite rfl (farView_trigger far hp c 5)

theorem farView_traceRecord (c : Chip) (i : TraceItem) : farView r n x (c.traceRecord p i) = farView r n x c := by
  have b := farView_blind far
  cases i with
  | native l => exact b.putRecord c (nearReg_stream hp) true false l
  | command isEnd unit opcode second job layer op =>
    have put := b.putRecord c (nearReg_stream hp) false false
      (traceRec c.now (ofBool isEnd) unit p (traceTail opcode second job layer op))
    exact Blind.ite ((b.trigger _ (nearReg_stream hp) nearReg_hen 4 job layer op).trans put) put

theorem farView_dropRunEnd (c : Chip) : farView r n x (c.dropRunEnd p) = farView r n x c := by
  have endDrop : ∀ (d : Chip) nat, farView r n x (d.endDrop p nat) = farView r n x d := fun d =>
    (farView_blind far).endDrop d (nearReg_stream hp)
  unfold dropRunEnd
  simp only [List.foldl, endDrop, farView_drainStream far hp, apply_ite (farView r n x), ite_self]

theorem farView_traceRead (c : Chip) (port : Nat) : farView r n x (c.traceRead port p) = farView r n x c := by
  unfold traceRead
  refine (farView_emit _ _).trans ((farView_traceReg far hp _ _ _ rfl).trans ?_)
  rfl

end

/-! Hen -/

theorem farView_henClear (c : Chip) : farView r n x c.henClear = farView r n x c :=
  (farView_henDev far _ _ _ _).trans (((farView_blind far).henPublish _ nearReg_hen _).trans ((farView_blind far).modHen _ _))

theorem farView_henRead (c : Chip) (port : Nat) : farView r n x (c.henRead port) = farView r n x c := by
  unfold henRead
  refine (farView_emit _ _).trans ((farView_setReg far _ _ _ _ _ (by decide) (by decide) (by decide)).trans ?_)
  rfl

theorem farView_henRecord (c : Chip) (src code : Nat) (hidden isVar : Bool) (body : List Nat) :
    farView r n x (c.henRecord src code hidden isVar body) = farView r n x c := by
  have b := farView_blind far
  unfold henRecord
  refine Blind.ite rfl (Blind.ite (b.henVar c nearReg_hen _ _ _ _ _) ?_)
  split
  · next small => exact b.henPart c (nearReg_stream small) nearReg_hen _ _ _
  · exact b.henFixed c nearReg_hen _ _ _ _ _

/-! Snapshots -/

theorem farView_msix (c : Chip) {port : Nat} (hp : port < 2) (fn vector : Nat) : farView r n x (c.msix port fn vector) = farView r n x c := by
  unfold msix
  refine Blind.ite rfl (Blind.ite rfl ((farView_emit _ _).trans (farView_count far _ _ _ (by decide) (by omega))))

theorem farView_msixPage (c : Chip) (g : Page) (i : Nat) : farView r n x (c.msixPage g i) = farView r n x c := by
  have sent : ∀ (v : Nat), farView r n x (([0, 1].filter fun port => c.mayReach port g i).foldl (fun c port => c.msix port 0 v) c) =
      farView r n x c := fun v => Blind.foldl (f := farView r n x) (fun port member d => by
    refine farView_msix far d ?_ 0 v
    have := List.mem_of_mem_filter member
    simp only [List.mem_cons, List.not_mem_nil, or_false] at this
    omega) c
  unfold msixPage
  dsimp only
  split
  · exact sent _
  · exact sent _
  · rfl

theorem farView_raise_counters (c : Chip) : farView r n x (c.raise .COUNTERS 0 0) = farView r n x c := by
  unfold raise
  simp (disch := decide) only [farView_msixPage far, farView_setReg far, apply_ite (farView r n x), ite_self]

theorem farView_deviceSnapshot (c : Chip) : farView r n x c.deviceSnapshot = farView r n x c := by
  have copied : ∀ (d : Chip) (e : Page × Nat), farView r n x (d.snapshotPage e.1 e.2) = farView r n x d := fun d e => by
    unfold farView
    rw [reg_snapshotPage]
    rfl
  unfold deviceSnapshot
  dsimp only
  simp (disch := decide) only [farView_raise_counters far, farView_count far, farView_setReg far]
  exact Blind.foldl (f := farView r n x) (fun e _ d => copied d e) c

theorem farView_snapReached (c : Chip) : farView r n x c.snapReached = farView r n x c := by
  unfold snapReached
  simp (disch := decide) only [farView_deviceSnapshot far, farView_setReg far, apply_ite (farView r n x), ite_self]

/-! Supplies and clocks -/

theorem farView_setReading (c : Chip) (r' : Reg) (y v : Nat) (page : r'.desc.page ∈ nearPages) (hy : y < 64) :
    farView r n x (c.setReading r' y v) = farView r n x c := by
  unfold setReading
  exact (farView_setReg far _ r' 0 y v page (by decide) hy).trans rfl

omit far in
theorem farView_modDie (c : Chip) (d : Nat) (g : DiePower → DiePower) : farView r n x (c.modDie d g) = farView r n x c := rfl

theorem farView_publishLimit (c : Chip) {d : Nat} (hd : d < 4) : farView r n x (c.publishLimit d) = farView r n x c :=
  farView_setReg far c _ 0 d _ (by decide) (by decide) (by omega)

theorem farView_clockTo (c : Chip) {d : Nat} (hd : d < 4) (mhz : Nat) : farView r n x (c.clockTo d mhz) = farView r n x c := by
  unfold clockTo
  refine Blind.ite rfl ?_
  refine (Blind.foldl (f := farView r n x) (fun p _ e => ?_) _).trans ((farView_count far _ _ _ (by decide) (by decide)).trans
    (farView_setReading far c _ d mhz (by decide) (by omega)))
  exact Blind.ite rfl (rfl)

theorem farView_follow (c : Chip) {d : Nat} (hd : d < 4) : farView r n x (c.follow d) = farView r n x c := by
  unfold follow
  simp only [farView_modDie, farView_clockTo far _ hd, farView_publishLimit far _ hd, apply_ite (farView r n x), ite_self]

theorem farView_dvfsTick (c : Chip) (watts : Nat) : farView r n x (c.dvfsTick watts) = farView r n x c := by
  unfold dvfsTick
  refine (Blind.foldl (f := farView r n x) (fun d member e => ?_) _).trans
    (farView_setReading far c .POWER_POWER_W 0 watts (by decide) (by decide))
  have hd : d < 4 := List.mem_range.mp (List.mem_of_mem_filter member)
  simp only [farView_follow far _ hd, farView_modDie, apply_ite (farView r n x), ite_self]

theorem farView_avsAck (c : Chip) {d : Nat} (hd : d < 4) : farView r n x (c.avsAck d) = farView r n x c := by
  unfold avsAck
  dsimp only
  rw [farView_follow far _ hd, farView_publishLimit far _ hd, farView_modDie]
  split
  · rfl
  · rw [farView_clockTo far _ hd, farView_setReading far c _ _ _ (by decide) (by omega)]

theorem farView_avsTimeout (c : Chip) {d : Nat} (hd : d < 4) : farView r n x (c.avsTimeout d) = farView r n x c := by
  unfold avsTimeout
  simp (disch := decide) only [farView_publishLimit far _ hd, farView_clockTo far _ hd, farView_henDevAny far, farView_modDie,
    farView_count far, apply_ite (farView r n x), ite_self]

theorem farView_clockGuard (c : Chip) {d : Nat} (hd : d < 4) (on : Bool) : farView r n x (c.clockGuard d on) = farView r n x c := by
  unfold clockGuard
  simp (disch := decide) only [farView_follow far _ hd, farView_publishLimit far _ hd, farView_henDevAny far, farView_count far,
    farView_setReg far, farView_modDie]

theorem farView_throttleRelease (c : Chip) {d : Nat} (hd : d < 4) : farView r n x (c.throttleRelease d) = farView r n x c := by
  unfold throttleRelease
  split
  · exact Blind.ite (farView_clockGuard far c hd false) rfl
  · rfl

theorem farView_railGood (c : Chip) (rail mv : Nat) : farView r n x (c.railGood rail mv) = farView r n x c := by
  unfold railGood
  dsimp only
  split
  · rfl
  · next small =>
    have read := farView_setReading far c .POWER_RAIL_MV rail mv (by decide) (by omega)
    refine Blind.ite read (Blind.ite ?_ ((farView_of rfl rfl rfl rfl rfl rfl).trans read))
    exact (farView_henDev far _ _ _ _).trans ((farView_count far _ _ _ (by decide) (by decide)).trans ((farView_of rfl rfl rfl rfl rfl rfl).trans read))

theorem farView_refLoss (c : Chip) : farView r n x c.refLoss = farView r n x c :=
  Blind.ite rfl ((farView_henDev far _ _ _ _).trans (farView_count far _ _ _ (by decide) (by decide)))

theorem farView_refBack (c : Chip) : farView r n x c.refBack = farView r n x c :=
  Blind.ite (farView_henDev far _ _ _ _) rfl

theorem farView_smbusTimeout (c : Chip) : farView r n x c.smbusTimeout = farView r n x c :=
  (farView_emit _ _).trans (farView_count far _ _ _ (by decide) (by decide))

end

end Chip

end Sys2Proof.Machine
end

section
/-! SUPPORT. How those commands reach the block, and the statement that they stay local. -/

namespace Sys2Proof.Machine

open Sys2Proof

namespace Chip

theorem pagePart_lt {g : Page} {inst p : Nat} (hi : inst < 16) (own : pagePart g inst = some p) : p < 16 := by
  unfold pagePart at own
  split at own
  · cases own
    exact hi
  · split at own
    · cases own
      exact Nat.mod_lt _ (by decide)
    · cases own

section
variable {r : Reg} {n x : Nat} (far : FarReg r n x)
include far

omit far in
theorem farView_atPart {f : Chip → Chip} (h : ∀ c, farView r n x (f c) = farView r n x c) (c : Chip) (p : Nat) :
    farView r n x (c.atPart p f) = farView r n x c := Blind.ite rfl (h c)

theorem farView_onPage {f : Chip → Chip} (h : ∀ c, farView r n x (f c) = farView r n x c) (c : Chip) {port inst : Nat} (hp : port < 2)
    (g : Page) (hi : inst < 16) : farView r n x (c.onPage port g inst f) = farView r n x c := by
  unfold onPage
  split
  · rfl
  · split
    · next p stopped =>
      have := pagePart_lt hi (Option.filter_eq_some_iff.mp stopped).1
      exact farView_count far c _ _ (by decide) (by omega)
    · exact Blind.ite (h c) (farView_count far c _ _ (by decide) (by omega))

theorem farView_readPage {f : Chip → Chip} (h : ∀ c, farView r n x (f c) = farView r n x c) (c : Chip) {port inst : Nat} (hp : port < 2)
    (g : Page) (size : Nat) (hi : inst < 16) : farView r n x (c.readPage port g inst size f) = farView r n x c := by
  unfold readPage
  dsimp only
  split
  · rfl
  · split
    · next p stopped =>
      have := pagePart_lt hi (Option.filter_eq_some_iff.mp stopped).1
      exact (farView_emit _ _).trans (farView_count far c _ _ (by decide) (by omega))
    · exact Blind.ite (h c) ((farView_emit _ _).trans (farView_count far c _ _ (by decide) (by omega)))

theorem farView_writePage {f : Chip → Chip} (h : ∀ c, farView r n x (f c) = farView r n x c) (c : Chip) (ps : List HostPair)
    {port inst : Nat} (hp : port < 2) (g : Page) (hi : inst < 16) :
    farView r n x (c.writePage ps port g inst f).1 = farView r n x c := by
  obtain same | counted := c.writePage_cases ps port g inst f
  · rw [same]
    exact farView_onPage far h c hp g hi
  · rw [counted]
    exact (farView_onPage far h _ hp g hi).trans (farView_count far c _ _ (by decide) (by omega))

end

end Chip

open Chip in
/-- A local command leaves what it is far from. -/
theorem exec_farView {i : Instr} {s s' : State} {r : Reg} {n x : Nat} (near : isLocal i = true) (ran : exec i s = .next s')
    (far : FarReg r n x) : farView r n x s'.chip = farView r n x s.chip := by
  have work : ∀ {t : Nat} {f : Chip → Chip}, s.run t f = s' → (∀ c, farView r n x (f c) = farView r n x c) →
      farView r n x s'.chip = farView r n x s.chip := fun done h => done ▸ h _
  have write : ∀ {t : Nat} {port inst : Nat} {g : Page} {f : Chip → Chip}, s.runPairs t (fun c ps => c.writePage ps port g inst f) = s' →
      port < 2 → inst < 16 → (∀ c, farView r n x (f c) = farView r n x c) → farView r n x s'.chip = farView r n x s.chip :=
    fun done hp hi h => done ▸ farView_writePage far h _ _ hp _ hi
  cases i with
  | timeSet => exact work (Host.Outcome.next.inj ran) fun c => farView_timeSet far c _ _ _ _
  | g9Holdover => exact work (Host.Outcome.next.inj ran) (farView_holdover far)
  | ppsInEdge => exact work (Host.Outcome.next.inj ran) (farView_ppsEdge far)
  | ppsMissing => exact work (Host.Outcome.next.inj ran) (farView_ppsMissing far)
  | ppsOutPulse => exact work (Host.Outcome.next.inj ran) farView_ppsOut
  | snapTimeReached => exact work (Host.Outcome.next.inj ran) (farView_snapReached far)
  | henRecord => exact work (Host.Outcome.next.inj ran) fun c => farView_henRecord far c _ _ _ _ _
  | timeRefLoss => exact work (Host.Outcome.next.inj ran) (farView_refLoss far)
  | timeRefRestore => exact work (Host.Outcome.next.inj ran) (farView_refBack far)
  | smbusClockTimeout => exact work (Host.Outcome.next.inj ran) (farView_smbusTimeout far)
  | railGood => exact work (Host.Outcome.next.inj ran) fun c => farView_railGood far c _ _
  | dvfsTick => exact work (Host.Outcome.next.inj ran) fun c => farView_dvfsTick far c _
  | setTime t port =>
    exact write (Host.Outcome.next.inj ran) (of_decide_eq_true near) (by decide) (farView_setTimeApplied far)
  | snapNow t port =>
    exact write (Host.Outcome.next.inj ran) (of_decide_eq_true near) (by decide) (farView_deviceSnapshot far)
  | clear t port =>
    exact write (Host.Outcome.next.inj ran) (of_decide_eq_true near) (by decide) (farView_henClear far)
  | note t port v =>
    exact write (Host.Outcome.next.inj ran) (of_decide_eq_true near) (by decide) fun c =>
      Blind.ite (farView_henDev far _ _ _ _) rfl
  | henRdData t port =>
    exact work (Host.Outcome.next.inj ran) fun c =>
      farView_readPage far (farView_henRead far · port) c (of_decide_eq_true near) _ _ (by decide)
  | arm t port p =>
    obtain ⟨hp, hi⟩ := of_decide_eq_true near
    exact write (Host.Outcome.next.inj ran) hp hi (farView_arm far hi)
  | traceStop t port p =>
    obtain ⟨hp, hi⟩ := of_decide_eq_true near
    exact write (Host.Outcome.next.inj ran) hp hi (farView_traceStop far hi)
  | trigNow t port p =>
    obtain ⟨hp, hi⟩ := of_decide_eq_true near
    exact write (Host.Outcome.next.inj ran) hp hi (farView_trigger far hi · 0)
  | traceRdData t port p =>
    obtain ⟨hp, hi⟩ := of_decide_eq_true near
    exact work (Host.Outcome.next.inj ran) fun c => farView_readPage far (farView_traceRead far hi · port) c hp _ _ hi
  | timeLeg t p =>
    exact work (Host.Outcome.next.inj ran) (farView_atPart (farView_timeLeg far · (of_decide_eq_true near) _ _ _ _) · p)
  | trigTimeReached t p => exact work (Host.Outcome.next.inj ran) (farView_atPart (farView_trigTime far (of_decide_eq_true near)) · p)
  | coreTrigger t p => exact work (Host.Outcome.next.inj ran) (farView_atPart (farView_coreTrigger far (of_decide_eq_true near)) · p)
  | deviceCrossTrigger t p =>
    exact work (Host.Outcome.next.inj ran) (farView_atPart (farView_trigger far (of_decide_eq_true near) · 1) · p)
  | traceRecord t p =>
    exact work (Host.Outcome.next.inj ran) (farView_atPart (farView_traceRecord far (of_decide_eq_true near) · _) · p)
  | dropRunEnd t p => exact work (Host.Outcome.next.inj ran) (farView_atPart (farView_dropRunEnd far (of_decide_eq_true near)) · p)
  | captureDone t p => exact work (Host.Outcome.next.inj ran) (farView_atPart (farView_captureDone far (of_decide_eq_true near)) · p)
  | avsAck t d => exact work (Host.Outcome.next.inj ran) (farView_avsAck far · (of_decide_eq_true near))
  | avsTimeout t d => exact work (Host.Outcome.next.inj ran) (farView_avsTimeout far · (of_decide_eq_true near))
  | throttleRelease t d => exact work (Host.Outcome.next.inj ran) (farView_throttleRelease far · (of_decide_eq_true near))
  | _ => exact Bool.noConfusion near

/-- Settles O9: what a local command is far from is read off the view that every such command leaves. -/
theorem localCommandsStayLocal : Obligations.LocalCommandsStayLocal := by
  unfold Obligations.LocalCommandsStayLocal
  intro i s s' near ran
  have view := fun r n x far => exec_farView (r := r) (n := n) (x := x) near ran far
  simp only [Chip.farView, Prod.mk.injEq] at view
  obtain ⟨mem, agents, ctxs, slices, cmds, -⟩ := view .RESET_PART_STATE 0 0 ⟨by decide, by decide, by decide⟩
  refine ⟨mem, agents, ctxs, slices, cmds, fun r n x far hn hx => ?_⟩
  obtain ⟨-, -, -, -, -, reg⟩ := view r n x ⟨far, hn, hx⟩
  exact reg

end Sys2Proof.Machine
end

section
/-! SUPPORT. How a port's write and read reach a page, and what one fixed record does to Hen (R339, R345, R347, R429 to R432). -/

namespace Sys2Proof.Machine

open Sys2Proof

/-- A command that works on the block does so on the block as it finds it. -/
theorem State.run_found (s : State) (t : Nat) (f : Chip → Chip) : (s.run t f).chip = f (s.found t) := rfl

theorem State.run_found_atPart {s : State} {p : Nat} (t : Nat) (f : Chip → Chip) (alive : s.alive p) :
    (s.run t fun c => c.atPart p f).chip = f (s.found t) := State.chip_run_atPart t f alive

/-- A write that reaches its page does the page's work on the block as the command finds it, and nothing else. -/
theorem State.runPairs_reached {s : State} {t i n : Nat} {g : Page} (reached : s.reaches t i g n) (f : Chip → Chip) :
    (s.runPairs t fun c ps => c.writePage ps i g n f).chip = f (s.found t) := by
  obtain ⟨-, -, answers, open_, allowed, unpaired⟩ := reached
  rw [State.runPairs_chip]
  show ((s.found t).writePage s.pairs i g n f).1 = _
  simp [Chip.writePage, Chip.onPage, answers, open_, allowed, unpaired]

namespace Chip

/-- A read that may reach its page is answered by the page. -/
theorem readPage_reached {c : Chip} {port n : Nat} {g : Page} (answers : c.pageShut g = false) (open_ : (pagePart g n).filter c.bypassed = none)
    (allowed : c.mayReach port g n = true) (size : Nat) (f : Chip → Chip) : c.readPage port g n size f = f c := by
  simp [readPage, answers, open_, allowed]

/-- The bytes of a read, where each is known. -/
theorem known_bytes {f : Nat → Nat} {g : Nat → Option Nat} (agrees : ∀ i b, g i = some b → f i = b) {is l : List Nat}
    (known : is.map g = l.map some) : is.map f = l := by
  induction is generalizing l with
  | nil => exact (List.map_eq_nil_iff.mp known.symm).symm
  | cons i r ih =>
    cases l with
    | nil => cases known
    | cons b l =>
      obtain ⟨head, tail⟩ := List.cons.inj known
      rw [List.map_cons, ih tail, agrees i b head]

/-! A fixed record -/

/-- The parameters of a fixed record, zero where it is hidden. -/
def henParams (l : List Nat) (hidden : Bool) : List Nat := if hidden then [0, 0, 0, 0] else ((l ++ [0, 0, 0, 0]).take 4).map (trunc 32)

/-- The recorder with a source in its input queue. -/
def henQueued (c : Chip) (src : Nat) : Chip := c.henTake.modHen fun h => { h with queue := h.queue ++ [src] }

/-- A record that does not merge into one before it. -/
def henFresh (c : Chip) (src code part : Nat) (l : List Nat) (hidden : Bool) : FixedRec :=
  { code := code, part := part, hidden := hidden, lostBefore := src ∈ c.hen.lossy, time := c.now, p := henParams l hidden, last := c.now }

/-- How long after a record one like it merges into it. -/
def floodWindow (c : Chip) : Nat := c.reg .HEN_FLOOD_WINDOW * 1000

section
variable {c : Chip} (quiet : c.hen.queue = [])
include quiet

/-- With an empty input queue no record is lost before it is looked at. -/
theorem henFixed_quiet (src code part : Nat) (l : List Nat) (hidden : Bool) :
    c.henFixed src code part l hidden =
      match c.henNewest part with
      | some r =>
        if r.takes code c.now c.floodWindow (henParams l hidden) hidden then
          ((c.henQueued src).henReplace r (r.merged c.now)).count .HEN_REPEATS
        else henFixed.store (c.henQueued src) src (c.henFresh src code part l hidden)
      | none => henFixed.store (c.henQueued src) src (c.henFresh src code part l hidden) := by
  have few : ¬256 ≤ (c.henTake.hen.queue.filter (· = src)).length := by
    simp [henTake, modHen, quiet]
  unfold henFixed
  simp only [if_neg few]
  rfl

theorem henFixed_fresh {src code part : Nat} {l : List Nat} {hidden : Bool}
    (differs : ∀ r, c.henNewest part = some r → r.takes code c.now c.floodWindow (henParams l hidden) hidden = false) :
    c.henFixed src code part l hidden = henFixed.store (c.henQueued src) src (c.henFresh src code part l hidden) := by
  rw [henFixed_quiet quiet]
  split
  · next r newest => rw [differs r newest, if_neg Bool.false_ne_true]
  · rfl

theorem henFixed_repeat {src code part : Nat} {l : List Nat} {hidden : Bool} {r : FixedRec} (newest : c.henNewest part = some r)
    (same : r.takes code c.now c.floodWindow (henParams l hidden) hidden = true) :
    c.henFixed src code part l hidden = ((c.henQueued src).henReplace r (r.merged c.now)).count .HEN_REPEATS := by
  rw [henFixed_quiet quiet, newest]
  exact if_pos same

end

/-- A record is kept while there is room. -/
theorem henStore_room {c : Chip} (room : c.hen.kept.length < 4096) (src : Nat) (r : FixedRec) :
    (henFixed.store c src r).hen.kept = c.hen.kept ++ [{ r with kept := true }] ∧ (henFixed.store c src r).hen.ring = c.hen.ring ∧
      (henFixed.store c src r).reg .HEN_RECORDS_FIXED = countUp (c.reg .HEN_RECORDS_FIXED) := by
  have room' : (c.modHen fun h => { h with lossy := h.lossy.erase src }).hen.kept.length < 4096 := room
  unfold henFixed.store
  simp only [if_pos room']
  refine ⟨rfl, rfl, ?_⟩
  rw [reg_count_one _ _ rfl]
  simp [henPublish, modHen, reg_setReg]
  rfl

/-- A record that takes one like it stands in its place among the kept ones. -/
theorem henReplace_kept {c : Chip} {old : FixedRec} (new : FixedRec) (kept : old ∈ c.hen.kept) :
    new ∈ (c.henReplace old new).hen.kept ∧ (c.henReplace old new).hen.kept.length = c.hen.kept.length :=
  ⟨List.mem_map.mpr ⟨old, kept, if_pos (decide_eq_true rfl)⟩, List.length_map _⟩

/-- A record of a code that triggers no capture. -/
theorem henPart_untriggered {c : Chip} {p : Nat} (hp : p < 16) (untriggered : bit (c.reg .TRACE_TRIG_SRC p) 3 = false) (code : Nat)
    (l : List Nat) (hidden : Bool) : c.henPart p code l hidden = c.henFixed p code p l hidden := by
  have source : (c.henFixed p code p l hidden).reg .TRACE_TRIG_SRC p = c.reg .TRACE_TRIG_SRC p :=
    (blind_henAt (by omega) (by decide) (by decide)).henFixed c (fun _ one => ⟨one, rfl⟩) p code p l hidden
  unfold henPart
  simp only [source, untriggered, Bool.false_and, Bool.false_eq_true, if_false]

theorem henRecord_fixed (c : Chip) {p code : Nat} (hp : p < 16) (named : 0 < code ∧ code < 0x4000) (l : List Nat) :
    c.henRecord p code false false l = c.henPart p code l false := by
  obtain ⟨some_, small⟩ := named
  simp [henRecord, hp, show code ≠ 0 by omega, show ¬0x4000 ≤ code by omega]

end Chip

end Sys2Proof.Machine
end

section
/-! SUPPORT. A flush of Hen from its start to its end, and the copy of an MRAM slot (R433 to R435). -/

namespace Sys2Proof.Machine

open Sys2Proof

namespace Chip

/-- The flush under way and the one asked for after it. -/
def flushing (c : Chip) : Option Flush × Option Nat := (c.hen.flush, c.hen.again)

theorem flushing_setReg (c : Chip) (r : Reg) (i x v : Nat) : (c.setReg r i x v).flushing = c.flushing := rfl

theorem flushing_count (c : Chip) (r : Reg) (i : Nat) : (c.count r i).flushing = c.flushing := rfl

theorem flushing_modHen (c : Chip) {g : Hen → Hen} (keeps : ∀ h, (g h).flush = h.flush ∧ (g h).again = h.again) :
    (c.modHen g).flushing = c.flushing :=
  Prod.ext (keeps c.hen).1 (keeps c.hen).2

theorem henPublish_flushing (c : Chip) (next : Nat) : (c.henPublish next).flushing = c.flushing := by
  unfold henPublish
  simp only [flushing_setReg]

theorem henRing_flushing (c : Chip) (r : FixedRec) : (c.henRing (.fixed r)).flushing = c.flushing := by
  unfold henRing
  split
  · exact flushing_count _ _ _
  · simp only [flushing_count, henPublish_flushing]
    exact flushing_modHen c fun _ => ⟨rfl, rfl⟩

theorem henStore_flushing (c : Chip) (src : Nat) (r : FixedRec) : (henFixed.store c src r).flushing = c.flushing := by
  unfold henFixed.store
  dsimp only
  split
  · simp only [flushing_count, henPublish_flushing]
    exact (flushing_modHen _ fun _ => ⟨rfl, rfl⟩).trans (flushing_modHen c fun _ => ⟨rfl, rfl⟩)
  · exact (henRing_flushing _ _).trans (flushing_modHen c fun _ => ⟨rfl, rfl⟩)

/-- A fixed record leaves both. -/
theorem henFixed_flushing (c : Chip) (src code part : Nat) (l : List Nat) (hidden : Bool) :
    (c.henFixed src code part l hidden).flushing = c.flushing := by
  have taken : c.henTake.flushing = c.flushing := flushing_modHen c fun _ => ⟨rfl, rfl⟩
  have queued : (c.henTake.modHen fun h => { h with queue := h.queue ++ [src] }).flushing = c.flushing :=
    (flushing_modHen _ fun _ => ⟨rfl, rfl⟩).trans taken
  have stored := fun r => (henStore_flushing (c.henTake.modHen fun h => { h with queue := h.queue ++ [src] }) src r).trans queued
  have replaced : ∀ (d : Chip) old new, (d.henReplace old new).flushing = d.flushing := fun d _ _ => flushing_modHen d fun _ => ⟨rfl, rfl⟩
  unfold henFixed
  refine Blind.ite (f := flushing) ?_ ?_
  · exact (flushing_modHen _ fun _ => ⟨rfl, rfl⟩).trans ((flushing_count c.henTake .HEN_LOST 0).trans taken)
  · dsimp only
    split
    · exact Blind.ite (f := flushing) ((flushing_count _ _ _).trans ((replaced _ _ _).trans queued)) (stored _)
    · exact stored _

theorem writeHost_hen (port : Nat) (l : List Nat) : ∀ (c : Chip) (a : Nat), (c.writeHost port a l).hen = c.hen := by
  induction l with
  | nil => exact fun _ _ => rfl
  | cons v r ih => exact fun c a => ih (c.setHostByte port a v) (a + 1)

theorem reg_writeHost (c : Chip) (port a : Nat) (l : List Nat) (r : Reg) (i x : Nat) : (c.writeHost port a l).reg r i x = c.reg r i x := by
  obtain ⟨regs, -⟩ := writeHost_deskSame port l c a
  rw [reg, regs, ← reg]

/-- Hen's record about itself leaves the registers that no record moves. -/
theorem reg_henDev (c : Chip) (code : Nat) (l : List Nat) (src : Nat) {r : Reg} (other : r ∉ henRegs) {i x : Nat} (hi : i < 4096)
    (hx : x < 64) : (c.henDev code l src).reg r i x = c.reg r i x :=
  (blind_henAt hi hx other).henDev c (fun _ one => ⟨one, rfl⟩) code l src

/-! The beginning -/

/-- The registers that show a flush that has begun. -/
def flushShown (c : Chip) (reason dest seq : Nat) : Chip :=
  ((((((c.setReg .HEN_FLUSHING 0 0 1).setReg .HEN_LAST_REASON 0 0 reason).setReg .HEN_LAST_DEST 0 0 dest).setReg .HEN_LAST_DONE 0 0 0).setReg
    .HEN_FLUSH_SEQ 0 0 seq).count .HEN_FLUSHES)

theorem flushShown_regs (c : Chip) (reason dest seq : Nat) :
    (c.flushShown reason dest seq).reg .HEN_FLUSHING = 1 ∧ (c.flushShown reason dest seq).reg .HEN_LAST_REASON = trunc 3 reason ∧
      (c.flushShown reason dest seq).reg .HEN_LAST_DEST = trunc 1 dest ∧ (c.flushShown reason dest seq).reg .HEN_FLUSH_SEQ = trunc 32 seq ∧
      (c.flushShown reason dest seq).reg .HEN_FLUSHES = countUp (c.reg .HEN_FLUSHES) := by
  refine ⟨?_, ?_, ?_, ?_, ?_⟩
  all_goals unfold flushShown
  case refine_5 => rw [reg_count_one _ _ rfl]; simp [reg_setReg]
  all_goals simp [reg_setReg]; rfl

/-- A flush to the host: a record of it, the flush itself, its registers, and its header in the host's memory. -/
theorem flushBegin_host {c : Chip} {n : Nat} (port : c.flushPort = some n) (reason : Nat) :
    ∃ (l b : List Nat) (f : Flush) (a : Nat), c.flushBegin reason none =
      (((c.henDev 0x0405 l).modHen fun h => { h with flush := some f }).flushShown reason 0
        (trunc 32 (c.reg .HEN_FLUSH_SEQ + 1))).writeHost f.port a b := by
  unfold flushBegin
  simp only [port, Option.isNone_some, Bool.false_and, Bool.false_eq_true, if_false, Option.isSome_some, if_true]
  exact ⟨_, _, _, _, rfl⟩

theorem flushStart_host {c : Chip} {n : Nat} (idle : c.hen.flush = none) (port : c.flushPort = some n) (reason : Nat) :
    (c.flushStart reason).hen.flush.isSome = true ∧ (c.flushStart reason).reg .HEN_FLUSHING = 1 ∧
      (c.flushStart reason).reg .HEN_LAST_REASON = trunc 3 reason ∧ (c.flushStart reason).reg .HEN_LAST_DEST = 0 ∧
      (c.flushStart reason).reg .HEN_FLUSH_SEQ = trunc 32 (c.reg .HEN_FLUSH_SEQ + 1) ∧
      (c.flushStart reason).reg .HEN_FLUSHES = countUp (c.reg .HEN_FLUSHES) := by
  have start : c.flushStart reason = c.flushBegin reason none := by simp [flushStart, idle]
  obtain ⟨l, b, f, a, begun⟩ := flushBegin_host port reason
  rw [start, begun]
  simp only [reg_writeHost, writeHost_hen]
  obtain ⟨flushing, why, dest, seq, flushes⟩ := flushShown_regs ((c.henDev 0x0405 l).modHen fun h => { h with flush := some f }) reason 0
    (trunc 32 (c.reg .HEN_FLUSH_SEQ + 1))
  refine ⟨rfl, flushing, why, dest, seq.trans (Nat.mod_mod _ _), flushes.trans (congrArg countUp ?_)⟩
  exact reg_henDev c 0x0405 l 19 (by decide) (by decide) (by decide)

/-! The end -/

/-- A flush that is over, with what its header reports. -/
def flushEnded (c : Chip) (done ticks bytes left : Nat) : Chip :=
  let c := c.modHen fun h => { h with flush := none, lostSince := 0 }
  let c := ((c.setReg .HEN_FLUSHING 0 0 0).setReg .HEN_LAST_DONE 0 0 done).setReg .HEN_LAST_FLUSH_TICKS 0 0 ticks
  (c.countN .HEN_FLUSH_BYTES 0 bytes).countN .HEN_MRAM_TRUNCATED 0 left

theorem flushEnded_regs (c : Chip) (done ticks bytes left : Nat) :
    (c.flushEnded done ticks bytes left).reg .HEN_FLUSHING = 0 ∧ (c.flushEnded done ticks bytes left).reg .HEN_LAST_DONE = trunc 1 done := by
  constructor <;> simp [flushEnded, reg_setReg, reg_countN] <;> rfl

/-- The end of a flush: the image is written, to the host or to MRAM, a record tells of it, and the flush asked for meanwhile begins. -/
theorem flushDone_eq {c : Chip} {f : Flush} (under : c.hen.flush = some f) :
    ∃ (w : Chip) (done ticks bytes left : Nat) (l : List Nat), w.hen = c.hen ∧
      ((f.dest ≠ 0 ∨ c.bufClash f.port = false) → done = 1) ∧
      c.flushDone = match ((w.flushEnded done ticks bytes left).henDev 0x0406 l).hen.again with
        | none => (w.flushEnded done ticks bytes left).henDev 0x0406 l
        | some r => (((w.flushEnded done ticks bytes left).henDev 0x0406 l).modHen fun h => { h with again := none }).flushBegin r
            (some f.next) := by
  unfold flushDone
  simp only [under]
  refine ⟨_, _, _, _, _, _, ?_, ?_, rfl⟩
  · split
    · exact (writeHost_hen _ _ _ _).trans (Blind.ite (f := hen) rfl rfl)
    · exact Blind.ite (f := hen) rfl rfl
  · rintro (mram | apart)
    · simp [mram]
    · simp [apart]

/-- A flush that no other follows leaves none under way. -/
theorem flushDone_single {c : Chip} {f : Flush} (under : c.hen.flush = some f) (single : c.hen.again = none) :
    c.flushDone.hen.flush = none ∧ c.flushDone.reg .HEN_FLUSHING = 0 ∧
      ((f.dest ≠ 0 ∨ c.bufClash f.port = false) → c.flushDone.reg .HEN_LAST_DONE = 1) := by
  obtain ⟨w, done, ticks, bytes, left, l, kept, sound, ended⟩ := flushDone_eq under
  have after : ((w.flushEnded done ticks bytes left).henDev 0x0406 l).flushing = (none, none) := by
    refine (henFixed_flushing _ _ _ _ _ _).trans (congrArg (Prod.mk none) ?_)
    show w.hen.again = none
    rw [kept, single]
  obtain ⟨idle, last⟩ := Prod.mk.inj after
  obtain ⟨flushing, shown⟩ := w.flushEnded_regs done ticks bytes left
  rw [ended, last]
  refine ⟨idle, (reg_henDev _ _ _ _ (by decide) (by decide) (by decide)).trans flushing, fun apart => ?_⟩
  exact (reg_henDev _ _ _ _ (by decide) (by decide) (by decide)).trans (shown.trans (congrArg (trunc 1) (sound apart)))

end Chip

end Sys2Proof.Machine
end

section
/-! SUPPORT. MRAM_COPY, CLEAR, NOTE and RD_DATA, and the recorder's commands as the statements give them (R429 to R440). -/

namespace Sys2Proof.Machine

open Sys2Proof

namespace Chip

theorem length_flushHeader (c : Chip) (f : FlushImage) (dest : Nat) : (c.flushHeader f dest).length = 64 := by
  simp [flushHeader, length_bytesOf]

/-- Bytes written read back, each as a byte, whatever else is written after them elsewhere. -/
theorem hostBytes_writeHost_prefix (c : Chip) (port a : Nat) {l : List Nat} {n : Nat} (within : n ≤ l.length) (small : l.length ≤ 2 ^ 64) :
    (c.writeHost port a l).hostBytes port a n = (l.take n).map (· % 256) := by
  refine List.ext_getElem (by simp [hostBytes, within]) fun k hk hl => ?_
  have hk : k < l.length := by simp [hostBytes] at hk; omega
  simp [hostBytes, hostByte_writeHost port l c a k small hk]

/-- `n` bytes of a slot are at most `n`, and begin with the header and the data of the image it holds. -/
theorem length_slotImage (c : Chip) (k n : Nat) : (c.slotImage k n).length ≤ n := by
  unfold slotImage
  split
  · simp
  · simp
    omega

theorem slotImage_image {c : Chip} {f : FlushImage} (held : c.mram.slot0 = some f) {n : Nat} (fits : f.data.length + 64 ≤ n) :
    ∃ l, c.slotImage 0 n = (c.flushHeader f 1 ++ f.data) ++ l := by
  have whole : (c.flushHeader f 1 ++ f.data).take n = c.flushHeader f 1 ++ f.data :=
    List.take_of_length_le (by rw [List.length_append, length_flushHeader]; omega)
  simp only [slotImage, if_true, held, whole]
  exact ⟨_, rfl⟩

theorem mramCopy_host {c : Chip} {n : Nat} {f : FlushImage} (port : c.flushPort = some n) (held : c.mram.slot0 = some f)
    (fits : f.data.length + 64 ≤ 4194304) (inside : c.reg .HEN_HOST_BUF_ADDR + 8388608 < 2 ^ 64) :
    c.mramCopy.hostBytes n (c.reg .HEN_HOST_BUF_ADDR) (64 + f.data.length) = (c.flushHeader f 1 ++ f.data).map (· % 256) := by
  have image : (c.flushHeader f 1 ++ f.data).length = 64 + f.data.length := by rw [List.length_append, length_flushHeader]
  have first := c.length_slotImage 0 4194304
  have second := c.length_slotImage 1 4194304
  obtain ⟨l, held⟩ := slotImage_image held fits
  simp only [mramCopy, port]
  rw [hostBytes_writeHost_apart, hostBytes_writeHost_prefix, held, ← image, List.take_left]
  · rw [held, List.length_append]
    omega
  · omega
  · intro j hj k hk same
    obtain ⟨-, same⟩ := hostKey_inj same
    omega

theorem henClear_areas {c : Chip} (quiet : c.hen.queue = []) : c.henClear.hen.kept.map (·.code) = [0x0407] ∧ c.henClear.hen.ring = [] := by
  let d := (c.modHen fun h => { h with kept := [], ring := [] }).henPublish (c.reg .HEN_NEXT)
  have stored : c.henClear = henFixed.store (d.henQueued 19) 19 (d.henFresh 19 0x0407 0xFF [] false) :=
    henFixed_fresh (c := d) quiet fun r newest => nomatch newest
  obtain ⟨kept, ring, -⟩ := henStore_room (c := d.henQueued 19) (by decide : 0 < 4096) 19 (d.henFresh 19 0x0407 0xFF [] false)
  rw [stored, kept, ring]
  exact ⟨rfl, rfl⟩

theorem henRead_known {c : Chip} {port : Nat} {l : List Nat} (aligned : c.reg .HEN_RD_ADDR % 8 = 0)
    (known : (List.range 8).map (fun k => c.henByte (c.reg .HEN_RD_ADDR + k)) = l.map some) :
    (c.henRead port).reg .HEN_RD_ADDR = trunc 23 (c.reg .HEN_RD_ADDR + 8) ∧ (c.henRead port).out = .readReturn port (ofBytes l) :: c.out := by
  unfold henRead
  simp only [aligned, if_true]
  rw [known_bytes (fun i b known => by rw [known]) known]
  exact ⟨(reg_setReg _ _ _ _ _ _).trans (if_pos rfl), rfl⟩

end Chip

/-- Settles O53: each command of the recorder by the lemma about its work. -/
theorem henRecorder : Obligations.HenRecorder := by
  unfold Obligations.HenRecorder
  refine ⟨?arrives, ?repeats, ?begins, ?ends, ?done, ?copied, ?cleared, ?noted, ?read⟩
  case arrives =>
    intro t p code l s ⟨room, quiet⟩ ⟨hp, untriggered⟩ named differs
    refine ⟨_, rfl, ?_⟩
    have ran : (s.run t fun c => c.henRecord p code false false l).chip = _ :=
      ((s.found t).henRecord_fixed hp named l).trans (((s.found t).henPart_untriggered hp untriggered _ _ _).trans
        (Chip.henFixed_fresh (c := s.found t) quiet differs))
    obtain ⟨kept, -, counted⟩ := Chip.henStore_room (c := (s.found t).henQueued p) room p ((s.found t).henFresh p code p l false)
    show (s.run t fun c => c.henRecord p code false false l).chip.hen.kept = _ ∧
      (s.run t fun c => c.henRecord p code false false l).chip.reg .HEN_RECORDS_FIXED = _
    rw [ran]
    exact ⟨kept, counted⟩
  case repeats =>
    intro t p code l r s quiet ⟨hp, untriggered⟩ named ⟨newest, kept⟩ same
    refine ⟨_, rfl, ?_⟩
    have ran : (s.run t fun c => c.henRecord p code false false l).chip = _ :=
      ((s.found t).henRecord_fixed hp named l).trans (((s.found t).henPart_untriggered hp untriggered _ _ _).trans
        (Chip.henFixed_repeat (c := s.found t) quiet newest same))
    obtain ⟨merged, length⟩ := Chip.henReplace_kept (c := (s.found t).henQueued p) (r.merged (max s.chip.now t)) kept
    show _ ∈ (s.run t fun c => c.henRecord p code false false l).chip.hen.kept ∧
      (s.run t fun c => c.henRecord p code false false l).chip.hen.kept.length = _ ∧
      (s.run t fun c => c.henRecord p code false false l).chip.reg .HEN_REPEATS = _
    rw [ran]
    exact ⟨merged, length, Chip.reg_count_one _ _ rfl⟩
  case begins =>
    intro t i s reached ⟨idle, port⟩
    obtain ⟨n, port⟩ := Option.isSome_iff_exists.mp port
    refine ⟨_, rfl, ?_⟩
    show (s.runPairs t fun c ps => c.writePage ps i .HEN 0 fun c => c.flushStart 3).chip.hen.flush.isSome = true ∧ _
    unfold State.reg
    rw [State.runPairs_reached reached]
    exact Chip.flushStart_host (c := s.found t) idle port 3
  case ends =>
    intro t f s ⟨under, single⟩
    obtain ⟨idle, shown, -⟩ := Chip.flushDone_single (c := s.found t) under single
    exact ⟨_, rfl, idle, shown⟩
  case done =>
    intro t f s ⟨under, single⟩ apart
    obtain ⟨-, -, done⟩ := Chip.flushDone_single (c := s.found t) under single
    exact ⟨_, rfl, done apart⟩
  case copied =>
    intro t i n f s reached port ⟨held, fits⟩ inside
    refine ⟨_, rfl, ?_⟩
    rw [State.runPairs_reached reached]
    exact Chip.mramCopy_host (c := s.found t) port held fits inside
  case cleared =>
    intro t i s reached quiet
    refine ⟨_, rfl, ?_⟩
    rw [State.runPairs_reached reached]
    exact Chip.henClear_areas (c := s.found t) quiet
  case noted =>
    intro t i v s reached ⟨room, quiet⟩ odd other
    refine ⟨_, rfl, ?_⟩
    rw [State.runPairs_reached reached, if_pos (show bit v 0 = true by simpa [bit] using odd)]
    have stored : (s.found t).henNote = _ := Chip.henFixed_fresh (c := s.found t) quiet (src := 19) (code := 0x3FFF) (part := 0xFF)
      fun r newest => by simp [FixedRec.takes, other r newest]
    obtain ⟨kept, -⟩ := Chip.henStore_room (c := (s.found t).henQueued 19) room 19 _
    rw [stored]
    exact kept
  case read =>
    intro t i l s ⟨answers, allowed⟩ aligned known
    refine ⟨_, rfl, ?_⟩
    have ran : (s.run t fun c => c.readPage i .HEN 0 8 fun c => c.henRead i).chip = (s.found t).henRead i :=
      Chip.readPage_reached answers rfl allowed 8 (Chip.henRead · i)
    show (s.run t fun c => c.readPage i .HEN 0 8 fun c => c.henRead i).chip.reg .HEN_RD_ADDR = _ ∧ _
    rw [ran]
    exact Chip.henRead_known (c := s.found t) aligned known

end Sys2Proof.Machine
end

section
/-! SUPPORT. The time commands: a set of three legs, a step, an edge of PPS_IN, and a clock region that restarts (R384 to R389). -/

namespace Sys2Proof.Machine

open Sys2Proof

namespace Chip

/-! What stays -/

/-- The clock and the time keeping. -/
def clock (c : Chip) : Nat × TimeKeep := (c.now, c.time)

theorem clock_blind : BlindRest clock := ⟨fun _ _ _ _ _ => rfl, fun _ _ _ _ => rfl, fun _ _ => rfl, fun _ _ => rfl⟩

theorem modTime_now (c : Chip) (f : TimeKeep → TimeKeep) : (c.modTime f).now = c.now := rfl

theorem modTime_time (c : Chip) (f : TimeKeep → TimeKeep) : (c.modTime f).time = f c.time := rfl

theorem modTime_reg (c : Chip) (f : TimeKeep → TimeKeep) (r : Reg) : (c.modTime f).reg r = c.reg r := rfl

theorem henDev_clock (c : Chip) (code : Nat) (l : List Nat) : (c.henDev code l).clock = c.clock :=
  clock_blind.henDev c (fun _ _ => trivial) code l 19

/-- What a device's record leaves: the clock, the time keeping, and the registers that no record moves. -/
theorem henDevAny_clock (c : Chip) (code : Nat) : (c.henDevAny code).clock = c.clock :=
  (henDev_clock _ code _).trans rfl

theorem reg_henDevAny (c : Chip) (code : Nat) {r : Reg} (other : r ∉ henRegs) : (c.henDevAny code).reg r = c.reg r :=
  (reg_henDev _ code _ 19 other (by decide) (by decide)).trans rfl

/-! Steps (R386) -/

/-- A time moved by a step. -/
def movedTime (d : Int) (v : Nat) : Nat := ((v : Int) + d).toNat

/-- The time keeping moved by a step. -/
def movedKeep (d : Int) (k : TimeKeep) : TimeKeep :=
  { k with thetas := [], ppsLast := k.ppsLast.map (movedTime d), tried := k.tried.map (movedTime d), lastSet := movedTime d k.lastSet
           leg1 := k.leg1.map fun e => (e.1, e.2.1 + 16 * d, movedTime d e.2.2) }

theorem timeStep_clock (c : Chip) (d : Int) : (c.timeStep d).clock = (movedTime d c.now, movedKeep d c.time) := by
  obtain ⟨now, time⟩ := Prod.mk.inj (henDev_clock ((c.count .TIME_TIME_STEPS).setReg .TIME_LAST_STEP 0 0 (satField 32 d)) 0x0301 [satField 32 d])
  unfold timeStep
  show (movedTime d (henDev _ _ _).now, movedKeep d (henDev _ _ _).time) = _
  rw [now, time]
  rfl

theorem timeStep_reg (c : Chip) (d : Int) {r : Reg} (other : r ∉ henRegs) :
    (c.timeStep d).reg r = ((c.count .TIME_TIME_STEPS).setReg .TIME_LAST_STEP 0 0 (satField 32 d)).reg r := by
  have logged := reg_henDev ((c.count .TIME_TIME_STEPS).setReg .TIME_LAST_STEP 0 0 (satField 32 d)) 0x0301 [satField 32 d] 19 other
    (i := 0) (x := 0) (by decide) (by decide)
  unfold timeStep
  dsimp only
  generalize henDev _ 0x0301 [satField 32 d] = e at logged ⊢
  exact logged

theorem timeStep_steps (c : Chip) (d : Int) : (c.timeStep d).reg .TIME_TIME_STEPS = countUp (c.reg .TIME_TIME_STEPS) := by
  rw [timeStep_reg c d (by decide), reg_setReg, if_neg (by decide), reg_count_one _ _ rfl]

/-- A step moves no register but those of the steps. -/
theorem timeStep_reg_other (c : Chip) (d : Int) {r : Reg} (other : r ∉ .TIME_TIME_STEPS :: .TIME_LAST_STEP :: henRegs) :
    (c.timeStep d).reg r = c.reg r := by
  simp only [List.mem_cons, not_or] at other
  obtain ⟨steps, last, hen⟩ := other
  rw [timeStep_reg c d hen, reg_setReg, if_neg (Ne.symm last), reg_count, if_neg (Ne.symm steps)]

theorem slew_reg_other (c : Chip) {r : Reg} (other : r ≠ .TIME_RATE_ADJ) : c.slew.reg r = c.reg r := by
  unfold slew
  rw [reg_setReg, if_neg other.symm]
  rfl

theorem slew_clock (c : Chip) : c.slew.clock = c.clock := rfl

/-! What is published of time (R404), and the partition that takes the legs (R384) -/

section
variable {β : Type} {f : Chip → β}

/-- What the registers of time leave, the publication of time leaves. -/
theorem publishTime_keeps (keeps : ∀ (c : Chip) r v, r.desc.page = .TIME → f (c.setReg r 0 0 v) = f c) (c : Chip) : f c.publishTime = f c := by
  unfold publishTime
  dsimp only
  split <;> simp (disch := decide) only [keeps, apply_ite f, ite_self]

end

/-- A register of time that is not published, or not of a child, stays. -/
theorem publishTime_reg (c : Chip) (child : c.isManager = false) {r : Reg}
    (other : r ∉ [.TIME_MASTER, .TIME_NO_PARENT, .TIME_PARENT, .TIME_LEG_PARTITION]) : c.publishTime.reg r = c.reg r := by
  have still : ∀ v, (c.setReg .TIME_MASTER 0 0 v).isManager = false := fun v =>
    (congrArg (· == 0) (reg_setReg c .TIME_MASTER .DEVICE_ROLE 0 0 v)).trans child
  simp only [List.mem_cons, List.not_mem_nil, or_false, not_or] at other
  obtain ⟨master, none, parent, leg⟩ := other
  unfold publishTime
  simp only [still, Bool.false_eq_true, if_false]
  split <;> simp only [reg_setReg, Ne.symm master, Ne.symm none, Ne.symm parent, Ne.symm leg, if_false]

/-- A partition may take the legs toward a parent. -/
def legOk (c : Chip) (g port z : Nat) : Bool :=
  c.inService z && !c.bypassed z && c.parentCircuit z g port && (!c.down.contains g && !c.farOut.contains (16 * g + z))

theorem legPart_eq (c : Chip) :
    c.legPart = (c.parentOf c.clusterIndex).bind fun e =>
      if c.legOk e.1 e.2 c.leadPart then some c.leadPart else allParts.find? (c.legOk e.1 e.2) := by
  unfold legPart
  cases c.parentOf c.clusterIndex <;> rfl

/-- The partition of the legs does not rest on the registers of time. -/
theorem legPart_setReg {c : Chip} (lead : c.leadPart < 16) {r : Reg} (time : r.desc.page = .TIME) (v : Nat) :
    (c.setReg r 0 0 v).legPart = c.legPart := by
  have reg : ∀ r' i, r'.desc.page ≠ .TIME → i < 4096 → (c.setReg r 0 0 v).reg r' i = c.reg r' i := fun r' i other hi =>
    reg_setReg_far c v (fun same => other (same ▸ time)) (by decide) hi (by decide) (by decide)
  have index : (c.setReg r 0 0 v).clusterIndex = c.clusterIndex := reg _ _ (by decide) (by decide)
  have parent : ∀ g, (c.setReg r 0 0 v).parentOf g = c.parentOf g := fun g => by
    simp only [parentOf, ringG9s, index]
    rfl
  have ok : ∀ g port z, z < 16 → (c.setReg r 0 0 v).legOk g port z = c.legOk g port z := fun g port z hz => by
    simp only [legOk, inService, bypassed, parentCircuit, podOf, index, reg .DEVICE_IN_SERVICE 0 (by decide) (by decide),
      reg .RING_BYPASS (z / 4) (by decide) (by omega)]
    rfl
  have same : (c.setReg r 0 0 v).leadPart = c.leadPart := reg _ _ (by decide) (by decide)
  rw [legPart_eq, legPart_eq, index, parent, same]
  refine Option.bind_congr fun e _ => ?_
  have searched : allParts.find? ((c.setReg r 0 0 v).legOk e.1 e.2) = allParts.find? (c.legOk e.1 e.2) :=
    List.find?_congr fun z member => ok _ _ z (List.mem_range.mp member)
  rw [ok _ _ _ lead, searched]

theorem publishTime_legPart {c : Chip} (lead : c.leadPart < 16) : c.publishTime.legPart = c.legPart := by
  have same : ∀ (d : Chip) r v, r.desc.page = .TIME → (d.setReg r 0 0 v).leadPart = d.leadPart := fun d r v time =>
    reg_setReg_far d v (fun same => absurd time (same ▸ by decide)) (by decide) (by decide) (by decide) (by decide)
  have kept := publishTime_keeps (f := fun d => if d.leadPart < 16 then d.legPart else none) (fun d r v time => by
    rw [same d r v time]
    split
    · next small => exact legPart_setReg small time v
    · rfl) c
  rwa [publishTime_keeps same, if_pos lead, if_pos lead] at kept

/-! A set of three legs (R384) -/

/-- The samples of legs 1 and 3 that a set may use. -/
def legsTaken (c : Chip) (rc : Nat) : Option (Int × Int) :=
  c.legPart.bind fun p =>
    match SMap.find? c.time.leg1 p, SMap.find? c.time.leg3 p with
    | some a, some b => if [a.2, b.2, rc].foldl max 0 ≤ [a.2, b.2, rc].foldl min a.2 + 500000 then some (a.1, b.1) else none
    | _, _ => none

/-- The block with a mean offset shown. -/
def meanShown (c : Chip) (mean : Int) : Chip :=
  let c := c.setReg .TIME_OFFSET 0 0 (satField 32 mean)
  if c.reg .TIME_STATE == 1 && decide (32 < mean.natAbs) then c.count .TIME_OUT_OF_BOUND else c

theorem meanShown_spec (c : Chip) (mean : Int) :
    (c.meanShown mean).reg .TIME_STATE = c.reg .TIME_STATE ∧ (c.meanShown mean).reg .TIME_LEG_SETS = c.reg .TIME_LEG_SETS ∧
      (c.meanShown mean).reg .TIME_OFFSET = satField 32 mean ∧ (c.meanShown mean).now = c.now := by
  have width : trunc (Reg.width .TIME_OFFSET) (satField 32 mean) = satField 32 mean := trunc_toField 32 _
  unfold meanShown
  dsimp only
  split
  · simp [width]
    rfl
  · simp [width]

/-- The block corrected by a mean offset: a step, at the first set or where it is far off, else a slower rate. -/
def corrected (c : Chip) (first : Bool) (mean : Int) : Chip :=
  if first || decide (16000 < mean.natAbs) then c.timeStep (-sixteenth mean) else c.slew

theorem corrected_reg (c : Chip) (first : Bool) (mean : Int) {r : Reg}
    (other : r ∉ .TIME_RATE_ADJ :: .TIME_TIME_STEPS :: .TIME_LAST_STEP :: henRegs) : (c.corrected first mean).reg r = c.reg r := by
  obtain ⟨rate, steps⟩ := not_or.mp (mt List.mem_cons.mpr other)
  exact Blind.ite (f := fun d => d.reg r) (timeStep_reg_other c _ steps) (slew_reg_other c rate)

theorem corrected_now (c : Chip) (first : Bool) (mean : Int) :
    (c.corrected first mean).now = if first = true ∨ 16000 < mean.natAbs then ((c.now : Int) - sixteenth mean).toNat else c.now := by
  unfold corrected
  simp only [Bool.or_eq_true, decide_eq_true_eq]
  split
  · exact congrArg Prod.fst (timeStep_clock c _)
  · rfl

/-- A block that a set has corrected. -/
def setEnded (c : Chip) : Chip := (c.setReg .TIME_STATE 0 0 1).modTime fun k => { k with lastSet := c.now }

/-- The block with a set's offset among the last sixteen. -/
def offsetKept (c : Chip) (theta : Int) : Chip :=
  (c.count .TIME_LEG_SETS).modTime fun k => { k with thetas := lastN 16 (k.thetas ++ [theta]) }

/-- What a set's offset does. -/
def offsetTaken (c : Chip) (theta : Int) : Chip :=
  let d := c.offsetKept theta
  let mean := meanOf d.time.thetas
  ((d.meanShown mean).corrected (c.reg .TIME_STATE == 4) mean).setEnded

/-- The block that has tried a set. -/
def setTried (c : Chip) : Chip := c.publishTime.modTime fun k => { k with tried := some c.publishTime.now }

theorem timeSet_eq (c : Chip) (rc sp rp sc : Nat) :
    c.timeSet rc sp rp sc =
      if c.publishTime.isManager || c.publishTime.time.tried.any (fun a => c.publishTime.now < a + 1000000) then c.publishTime
      else match c.setTried.legsTaken rc with
        | none => c.setTried.count .TIME_LEG_FAILS
        | some (a, b) => c.setTried.offsetTaken (a + 8 * (((rc : Int) - sp) - ((rp : Int) - sc)) - b) := by
  unfold timeSet
  rfl

theorem offsetTaken_spec {c : Chip} {theta m : Int} (mean : meanOf (lastN 16 (c.time.thetas ++ [theta])) = m) :
    (c.offsetTaken theta).reg .TIME_STATE = 1 ∧ (c.offsetTaken theta).reg .TIME_LEG_SETS = countUp (c.reg .TIME_LEG_SETS) ∧
      (c.offsetTaken theta).reg .TIME_OFFSET = satField 32 m ∧ (c.offsetTaken theta).time.lastSet = (c.offsetTaken theta).now ∧
      (c.offsetTaken theta).now = if c.reg .TIME_STATE = 4 ∨ 16000 < m.natAbs then ((c.now : Int) - sixteenth m).toNat else c.now := by
  have counted : (c.offsetKept theta).reg .TIME_LEG_SETS = countUp (c.reg .TIME_LEG_SETS) := reg_count_one c 0 rfl
  obtain ⟨-, sets, offset, now⟩ := (c.offsetKept theta).meanShown_spec m
  have taken : c.offsetTaken theta = (((c.offsetKept theta).meanShown m).corrected (c.reg .TIME_STATE == 4) m).setEnded := mean ▸ rfl
  have final : ∀ (d : Chip) r, r ≠ .TIME_STATE → d.setEnded.reg r = d.reg r := fun d r other =>
    (reg_setReg d .TIME_STATE r 0 0 1).trans (if_neg other.symm)
  rw [taken]
  refine ⟨reg_setReg _ .TIME_STATE .TIME_STATE 0 0 1, ?_, ?_, rfl, ?_⟩
  · rw [final _ _ (by decide), corrected_reg _ _ _ (by decide), sets, counted]
  · rw [final _ _ (by decide), corrected_reg _ _ _ (by decide), offset]
  · have moved := corrected_now ((c.offsetKept theta).meanShown m) (c.reg .TIME_STATE == 4) m
    simp only [beq_iff_eq, now] at moved
    exact moved

end Chip

end Sys2Proof.Machine
end

section
/-! SUPPORT. An edge of PPS_IN, a clock region that restarts, and the time commands as the statements give them (R384 to R389). -/

namespace Sys2Proof.Machine

open Sys2Proof

namespace Chip

/-! An edge of PPS_IN (R388) -/

/-- A measured edge leaves the clock, is counted, and shows its error. -/
theorem ppsMeasured_clock (c : Chip) : c.ppsMeasured.clock = c.clock := by
  unfold ppsMeasured
  dsimp only
  split
  · rw [slew_clock, clock_blind.setReg _ _ _ _ trivial, clock_blind.count _ _ _ trivial]
  · rw [clock_blind.setReg _ _ _ _ trivial, clock_blind.count _ _ _ trivial]

theorem ppsMeasured_regs (c : Chip) :
    c.ppsMeasured.reg .TIME_PPS_EDGES = countUp (c.reg .TIME_PPS_EDGES) ∧ c.ppsMeasured.reg .TIME_PPS_ERR = satField 32 c.ppsError := by
  let d := (c.count .TIME_PPS_EDGES).setReg .TIME_PPS_ERR 0 0 (satField 32 c.ppsError)
  have measured : ∀ r, r ≠ .TIME_RATE_ADJ → c.ppsMeasured.reg r = d.reg r := fun r other =>
    (apply_ite (fun e : Chip => e.reg r) _ d.slew d).trans (ite_eq_right_iff.mpr fun _ => slew_reg_other d other)
  rw [measured _ (by decide), measured _ (by decide)]
  refine ⟨?_, (reg_setReg _ _ _ _ _ _).trans ((if_pos rfl).trans (trunc_toField 32 _))⟩
  exact (reg_setReg _ _ _ _ _ _).trans ((if_neg (by decide)).trans (reg_count_one c 0 rfl))

theorem ppsEdge_good {c : Chip} (good : c.ppsGood = true) :
    c.ppsEdge = c.ppsMeasured.ppsStepped.modTime fun k => { k with ppsLast := some c.ppsMeasured.ppsStepped.now, ppsLost := false, setAtPps := [] } := by
  rw [ppsEdge_eq, good]
  rfl

theorem ppsStepped_none {c : Chip} (unset : c.time.setAtPps = []) : c.ppsStepped = c := by
  unfold ppsStepped
  rw [unset]

theorem ppsStepped_one {c : Chip} {v : Nat} (waits : c.time.setAtPps = [v]) : c.ppsStepped.now = v := by
  have stepped : c.ppsStepped = c.timeStep ((v : Int) - c.now) := by
    unfold ppsStepped
    rw [waits]
  rw [stepped]
  refine (congrArg Prod.fst (timeStep_clock c _)).trans ?_
  unfold movedTime
  omega

/-- An edge is good after none, about a second after another, or where one is missing between. -/
theorem ppsGood_of {c : Chip}
    (regular : ∀ l, c.time.ppsLast = some l → (999000000 ≤ c.now - l ∧ c.now - l ≤ 1001000000) ∨ 1500000000 ≤ c.now - l) : c.ppsGood = true := by
  unfold ppsGood
  split
  · rfl
  · next l last => simpa using regular l last

theorem ppsEdge_measured {c : Chip} (good : c.ppsGood = true) (unset : c.time.setAtPps = []) :
    c.ppsEdge.reg .TIME_PPS_EDGES = countUp (c.reg .TIME_PPS_EDGES) ∧ c.ppsEdge.reg .TIME_PPS_ERR = satField 32 c.ppsError ∧
      c.ppsEdge.time.ppsLast = some c.now ∧ c.ppsEdge.now = c.now := by
  obtain ⟨now, time⟩ := Prod.mk.inj c.ppsMeasured_clock
  obtain ⟨edges, err⟩ := c.ppsMeasured_regs
  rw [ppsEdge_good good, ppsStepped_none (time ▸ unset), now, modTime_reg, modTime_reg, modTime_time, modTime_now]
  exact ⟨edges, err, rfl, now⟩

theorem ppsEdge_loaded {c : Chip} {v : Nat} (good : c.ppsGood = true) (waits : c.time.setAtPps = [v]) :
    c.ppsEdge.now = v ∧ c.ppsEdge.time.setAtPps = [] := by
  obtain ⟨-, time⟩ := Prod.mk.inj c.ppsMeasured_clock
  rw [ppsEdge_good good, modTime_now, modTime_time]
  exact ⟨ppsStepped_one (time ▸ waits), rfl⟩

theorem ppsEdge_rejected {c : Chip} {l : Nat} (last : c.time.ppsLast = some l) (early : c.now < l + 999000000) :
    c.ppsEdge.reg .BOOT_PPS_REJECTED = countUp (c.reg .BOOT_PPS_REJECTED) ∧ c.ppsEdge.reg .TIME_PPS_EDGES = c.reg .TIME_PPS_EDGES ∧
      c.ppsEdge.time = c.time := by
  have poor : c.ppsGood = false := by
    simp only [ppsGood, last, Bool.or_eq_false_iff, Bool.and_eq_false_iff, decide_eq_false_iff_not]
    omega
  have counted : c.ppsEdge = c.count .BOOT_PPS_REJECTED := by rw [ppsEdge_eq, poor]; rfl
  rw [counted]
  exact ⟨reg_count_one c 0 rfl, (reg_count c .BOOT_PPS_REJECTED .TIME_PPS_EDGES 0).trans (if_neg (by decide)), rfl⟩

/-! A clock region that restarts (R389) -/

/-- A stop of a region is the same part of the block whatever is recorded. -/
theorem stops_blind (p : Nat) : BlindRest fun c => (c.part p).stops where
  setReg _ _ _ _ _ := rfl
  setStream c q nat x := by
    unfold setStream
    rw [part_modPart]
    split
    · next same => rw [same]
    · rfl
  modHen _ _ := rfl
  emit _ _ := rfl

/-- Where zero is written, a register whose reset value is zero reads zero or what it read before. -/
theorem reg_set_zero (c : Chip) (r : Reg) (i : Nat) {r' : Reg} (j x : Nat) (reset : r'.desc.reset = 0) :
    (c.setReg r i 0 0).reg r' j x = 0 ∨ (c.setReg r i 0 0).reg r' j x = c.reg r' j x := by
  by_cases same : r.key i 0 = r'.key j x
  · left
    show SMap.get r'.desc.reset (SMap.set r.desc.reset c.regs.vals (r.key i 0) (trunc r.width 0)) (r'.key j x) = 0
    rw [show trunc r.width 0 = 0 from Nat.zero_mod _, same, reset, SMap.get, SMap.set]
    split <;> simp [SMap.find?_erase, SMap.find?_insert]
  · exact .inr (SMap.get_set_ne _ _ _ _ same)

/-- Writing zero puts no partition at a higher stage. -/
theorem stageOf_set_zero (c : Chip) (r : Reg) (i p : Nat) : (c.setReg r i 0 0).stageOf p ≤ c.stageOf p := by
  have hold := c.reg_set_zero r i 0 0 (r' := .POWER_PF_HOLD) rfl
  have stage := c.reg_set_zero r i 0 (p / 4) (r' := .POWER_STAGE) rfl
  unfold stageOf
  dsimp only
  split <;> split <;> omega

/-- The block with the cluster idle, where its region restarts. -/
def regionIdle (c : Chip) (p r : Nat) : Chip := if r = 0x01 then c.setReg .MIOBOR_STATE p 0 0 else c

theorem regionIdle_free {c : Chip} {p r : Nat} (free : c.regionHeld p r = false) : (c.regionIdle p r).regionHeld p r = false := by
  unfold regionIdle
  split
  · next cluster =>
    subst cluster
    have low : ¬1 ≤ c.stageOf p := of_decide_eq_false free
    have := c.stageOf_set_zero .MIOBOR_STATE p p
    exact decide_eq_false (by omega)
  · exact free

/-- A region that restarts: its stop is gone, and its gap is recorded. -/
theorem Blind.restartRegion {β : Type} {R : Reg → Nat → Prop} {f : Chip → β} (b : Blind R f) (drawn : ∀ d, f (drawn d) = f d) {c : Chip}
    {p r : Nat} {e : Nat × Option Nat} (cap : ∀ r ∈ streamRegs, R r p) (hen : ∀ r ∈ henRegs, R r 0)
    (stopped : SMap.find? (c.part p).stops r = some e) :
    f (c.restartRegion p r) = f (c.modPart p fun s => { s with stops := SMap.erase s.stops r }) := by
  obtain ⟨start, cause⟩ := e
  unfold Chip.restartRegion
  simp only [stopped]
  rw [b.count _ _ _ (cap _ (by decide)), b.traceMarker _ cap, b.henPart _ cap hen]
  exact Blind.ite (drawn _) rfl

theorem restartRegion_stops (c : Chip) (p r : Nat) : SMap.find? ((c.restartRegion p r).part p).stops r = none := by
  cases stopped : SMap.find? (c.part p).stops r with
  | none => simp only [Chip.restartRegion, stopped]
  | some e =>
    rw [(stops_blind p).restartRegion (fun _ => rfl) (fun _ _ => trivial) (fun _ _ => trivial) stopped, part_modPart_same, SMap.find?_erase,
      if_pos rfl]

theorem restartRegion_reg (c : Chip) {p : Nat} (hp : p < 16) (r : Nat) {r' : Reg} (other : r' ∉ henRegs ++ streamRegs) :
    (c.restartRegion p r).reg r' p = c.reg r' p := by
  have b := blind_recordAt (i := p) (x := 0) (by omega) (by decide) (p := p) (by omega) other
  cases stopped : SMap.find? (c.part p).stops r with
  | none => simp only [Chip.restartRegion, stopped]
  | some e => exact b.restartRegion (fun _ => rfl) RecordAt.stream RecordAt.hen stopped

theorem regionBack_free {c : Chip} {p r : Nat} (shared : r ≠ 0x50) (core : r < 0x20 ∨ 0x24 ≤ r)
    (stopped : (SMap.find? (c.part p).stops r).isSome = true) (free : c.regionHeld p r = false) :
    SMap.find? ((c.regionBack p r).part p).stops r = none ∧ (r = 0x01 → p < 16 → (c.regionBack p r).reg .MIOBOR_STATE p = 0) := by
  have back : c.regionBack p r = if 0x10 ≤ r ∧ r < 0x18 then
      (((((c.regionIdle p r).restartRegion p r).publishEngines p).count .ENGINES_BIST_RUNS p).setReg .ENGINES_LAST_BIST_AT p 0
        ((c.regionIdle p r).restartRegion p r).now) else (c.regionIdle p r).restartRegion p r := by
    have held := regionIdle_free free
    unfold regionIdle at held ⊢
    unfold regionBack
    simp only [shared, if_false, Option.isNone_eq_false_iff.mpr stopped, Bool.false_eq_true, held, show ¬(0x20 ≤ r ∧ r < 0x24) by omega]
  rw [back]
  constructor
  · have still := (c.regionIdle p r).restartRegion_stops p r
    generalize (c.regionIdle p r).restartRegion p r = d at still ⊢
    split
    · simpa only [publishEngines, count, setReg_get_part, countN_get_part] using still
    · exact still
  · rintro rfl hp
    rw [if_neg (by decide), restartRegion_reg _ hp _ (by decide)]
    exact reg_setReg c .MIOBOR_STATE .MIOBOR_STATE p 0 0

/-! The commands -/

/-- The legs of a set lie within the time allowed. -/
theorem legsTaken_some {c : Chip} {rc p : Nat} {a b : Int × Nat} (part : c.legPart = some p) (first : SMap.find? c.time.leg1 p = some a)
    (third : SMap.find? c.time.leg3 p = some b) (close : max (max a.2 b.2) rc ≤ min (min a.2 b.2) rc + 500000) :
    c.legsTaken rc = some (a.1, b.1) := by
  have spread : [a.2, b.2, rc].foldl max 0 ≤ [a.2, b.2, rc].foldl min a.2 + 500000 := by
    simpa only [List.foldl, Nat.zero_max, Nat.min_self] using close
  unfold legsTaken
  rw [part, Option.bind_some, first, third]
  exact if_pos spread

section
variable {c : Chip} (child : c.isManager = false)
include child

omit child in
theorem legPart_modTime (f : TimeKeep → TimeKeep) : (c.modTime f).legPart = c.legPart := rfl

theorem timeSet_spec {rc sp rp sc p : Nat} {a b : Int × Nat} {m : Int} (lead : c.leadPart < 16)
    (waited : c.time.tried.any (fun a => decide (c.now < a + 1000000)) = false) (part : c.legPart = some p)
    (first : SMap.find? c.time.leg1 p = some a) (third : SMap.find? c.time.leg3 p = some b)
    (close : max (max a.2 b.2) rc ≤ min (min a.2 b.2) rc + 500000)
    (mean : meanOf (lastN 16 (c.time.thetas ++ [a.1 + 8 * (((rc : Int) - sp) - ((rp : Int) - sc)) - b.1])) = m) :
    (c.timeSet rc sp rp sc).reg .TIME_STATE = 1 ∧ (c.timeSet rc sp rp sc).reg .TIME_LEG_SETS = countUp (c.reg .TIME_LEG_SETS) ∧
      (c.timeSet rc sp rp sc).reg .TIME_OFFSET = satField 32 m ∧ (c.timeSet rc sp rp sc).time.lastSet = (c.timeSet rc sp rp sc).now ∧
      (c.timeSet rc sp rp sc).now = if c.reg .TIME_STATE = 4 ∨ 16000 < m.natAbs then ((c.now : Int) - sixteenth m).toNat else c.now := by
  have role : c.publishTime.isManager = false :=
    (congrArg (· == 0) (c.publishTime_reg child (r := .DEVICE_ROLE) (by decide))).trans child
  obtain ⟨now, time⟩ := Prod.mk.inj (publishTime_keeps (f := clock) (fun _ _ _ _ => rfl) c)
  have tried : c.setTried.time = { c.time with tried := some c.now } := by
    show { c.publishTime.time with tried := some c.publishTime.now } = _
    rw [now, time]
  have legs : c.setTried.legsTaken rc = some (a.1, b.1) :=
    legsTaken_some ((legPart_modTime _).trans ((publishTime_legPart lead).trans part)) (by rw [tried]; exact first) (by rw [tried]; exact third) close
  have taken : c.timeSet rc sp rp sc = c.setTried.offsetTaken (a.1 + 8 * (((rc : Int) - sp) - ((rp : Int) - sc)) - b.1) := by
    rw [timeSet_eq, role, time, now, waited, legs]
    rfl
  have state : c.setTried.reg .TIME_STATE = c.reg .TIME_STATE :=
    (modTime_reg c.publishTime _ _).trans (c.publishTime_reg child (by decide))
  have sets : c.setTried.reg .TIME_LEG_SETS = c.reg .TIME_LEG_SETS :=
    (modTime_reg c.publishTime _ _).trans (c.publishTime_reg child (by decide))
  have current : c.setTried.now = c.now := (modTime_now c.publishTime _).trans now
  have spec := offsetTaken_spec (c := c.setTried) (m := m) (by rw [tried]; exact mean)
  rwa [state, sets, current, ← taken] at spec

theorem holdover_state (locked : c.reg .TIME_STATE = 1) (late : c.time.lastSet + 3000000 ≤ c.now) : c.holdover.reg .TIME_STATE = 2 := by
  have held : c.holdover = (c.setReg .TIME_STATE 0 0 2).henDevAny 0x0302 := by
    simp [holdover, child, locked, Nat.not_lt.mpr late]
  rw [held, reg_henDevAny _ _ (by decide), reg_setReg]
  rfl

end

theorem parentOf_congr {c d : Chip} (clusters : d.clusters = c.clusters) (mgr : d.mgr = c.mgr) (index : d.clusterIndex = c.clusterIndex) :
    d.parentOf = c.parentOf := by
  unfold parentOf ringG9s
  rw [clusters, mgr, index]

theorem timeLeg_kept {c : Chip} {p g k : Nat} (delay t1 t2 : Nat) (parent : c.parentOf c.clusterIndex = some (g, k)) (hp : p < 16) :
    SMap.find? (c.timeLeg p (0xFF000 + 16 * g + p) delay t1 t2).time.leg3 p = some (16 * ((t2 : Int) - t1) - delay, t2) := by
  let d := c.logMsg p (0xFF000 + 16 * g + p) 0x89 0 c.now false false
  have same : d.parentOf d.clusterIndex = c.parentOf c.clusterIndex := by
    obtain ⟨-, regs⟩ := c.logMsg_logsBut (p := p) (by omega) (0xFF000 + 16 * g + p) 0x89 0 c.now false false
    have index : d.clusterIndex = c.clusterIndex := regs .DEVICE_CLUSTER_INDEX 0 rfl (by decide)
    have parents : d.parentOf = c.parentOf := parentOf_congr rfl rfl index
    rw [parents, index]
  unfold timeLeg
  simp only [d, same, parent, ne_eq, not_true, if_false]
  rw [show ∀ (e : Chip) h, (e.modTime h).time = h e.time from fun _ _ => rfl, SMap.find?_insert, if_pos rfl]

theorem setTimeApplied_now {c : Chip} (manager : c.isManager = true) (now : c.reg .TIME_SET_AT_PPS ≠ 1) :
    c.setTimeApplied.now = c.reg .TIME_SET_TIME_LO + c.reg .TIME_SET_TIME_HI * 2 ^ 32 ∧
      c.setTimeApplied.reg .TIME_TIME_STEPS = countUp (c.reg .TIME_TIME_STEPS) := by
  have stepped : c.setTimeApplied = c.timeStep ((c.reg .TIME_SET_TIME_LO + c.reg .TIME_SET_TIME_HI * 2 ^ 32 : Nat) - c.now) := by
    simp only [setTimeApplied, manager, now, Bool.not_true, Bool.false_eq_true, if_false]
  rw [stepped]
  refine ⟨(congrArg Prod.fst (timeStep_clock c _)).trans ?_, timeStep_steps c _⟩
  unfold movedTime
  omega

theorem setTimeApplied_kept {c : Chip} (manager : c.isManager = true) (waits : c.reg .TIME_SET_AT_PPS = 1) :
    c.setTimeApplied = c.modTime fun k =>
      { k with setAtPps := k.setAtPps ++ [c.reg .TIME_SET_TIME_LO + c.reg .TIME_SET_TIME_HI * 2 ^ 32] } := by
  simp only [setTimeApplied, manager, waits, Bool.not_true, Bool.false_eq_true, if_false, if_true]

theorem ppsMissing_manager {c : Chip} (manager : c.isManager = true) (steered : c.reg .TIME_PPS_IN_EN ≠ 0) (seen : c.time.ppsLost = false)
    (late : c.time.ppsLast.getD 0 + 1500000000 ≤ c.now) :
    c.ppsMissing.reg .TIME_PPS_MISSED = countUp (c.reg .TIME_PPS_MISSED) ∧ c.ppsMissing.time.ppsLost = true := by
  have missed : c.ppsMissing = ((c.count .TIME_PPS_MISSED).henDevAny 0x0304).modTime fun k => { k with ppsLost := true } := by
    simp [ppsMissing, manager, steered, seen, Nat.not_lt.mpr late]
  rw [missed, modTime_reg, modTime_time, reg_henDevAny _ _ (by decide)]
  exact ⟨reg_count_one c 0 rfl, rfl⟩

end Chip

/-- Settles O48: each time command by the lemma about its work. -/
theorem clusterTimeAndPps : Obligations.ClusterTimeAndPps := by
  unfold Obligations.ClusterTimeAndPps
  refine ⟨?set, ?leg, ?holdover, ?loaded, ?kept, ?measured, ?stepped, ?rejected, ?missed, ?pulse, ?restarted⟩
  case set =>
    intro t rc sp rp sc p a b m s ⟨child, lead⟩ waited part ⟨first, third⟩ close mean
    refine ⟨_, rfl, ?_⟩
    obtain ⟨state, sets, offset, last, now⟩ := Chip.timeSet_spec (c := s.found t) child lead waited part first third close mean
    unfold State.reg
    rw [State.run_found]
    exact ⟨state, sets, offset, last, now⟩
  case leg =>
    intro t p src delay t1 t2 g k s alive parent source
    subst source
    refine ⟨_, rfl, ?_⟩
    rw [State.run_found_atPart t _ alive]
    exact Chip.timeLeg_kept (c := s.found t) delay t1 t2 parent alive.1
  case holdover =>
    intro t s child locked late
    exact ⟨_, rfl, Chip.holdover_state (c := s.found t) child locked late⟩
  case loaded =>
    intro t i s reached manager now
    refine ⟨_, rfl, ?_⟩
    unfold State.reg
    rw [State.runPairs_reached reached]
    exact Chip.setTimeApplied_now (c := s.found t) manager now
  case kept =>
    intro t i s reached manager waits
    refine ⟨_, rfl, ?_⟩
    rw [State.runPairs_reached reached, Chip.setTimeApplied_kept (c := s.found t) manager waits]
    exact ⟨rfl, rfl⟩
  case measured =>
    intro t s regular unset
    have good : (s.found t).ppsGood = true := Chip.ppsGood_of fun l last => .inl (regular l last)
    exact ⟨_, rfl, Chip.ppsEdge_measured (c := s.found t) good unset⟩
  case stepped =>
    intro t v s first waits
    have good : (s.found t).ppsGood = true := Chip.ppsGood_of fun l last => nomatch first.symm.trans last
    have loaded := Chip.ppsEdge_loaded (c := s.found t) good waits
    exact ⟨_, rfl, loaded⟩
  case rejected =>
    intro t l s last early
    exact ⟨_, rfl, Chip.ppsEdge_rejected (c := s.found t) last early⟩
  case missed =>
    intro t s manager steered seen late
    exact ⟨_, rfl, Chip.ppsMissing_manager (c := s.found t) manager steered seen late⟩
  case pulse =>
    intro t s enabled second
    have pulsed : (s.found t).ppsOut = (s.found t).emit _ := if_pos ⟨enabled, second⟩
    refine ⟨_, rfl, ?_⟩
    show (s.found t).ppsOut.out = _
    rw [pulsed]
    rfl
  case restarted =>
    intro t p r s ⟨shared, core⟩ stopped free
    exact ⟨_, rfl, Chip.regionBack_free (c := s.found t) shared core stopped free⟩

end Sys2Proof.Machine
end

section
/-! SUPPORT. What giving a core to a program leaves of the block (R368, R399). -/

namespace Sys2Proof.Machine

open Sys2Proof

/-- The registers that a record, or a change of a core's program, may move beside those of the core. -/
def SwitchAt (p : Nat) (r : Reg) (i : Nat) : Prop := RecordAt p r i ∨ r = .CORES_CTX_SWITCHES ∧ i = p

theorem SwitchAt.stream {p : Nat} : ∀ r ∈ streamRegs, SwitchAt p r p := fun r one => .inl (.stream r one)

theorem SwitchAt.hen {p : Nat} : ∀ r ∈ henRegs, SwitchAt p r 0 := fun r one => .inl (.hen r one)

namespace Chip

/-- A function of the block that ignores which program has core `k`, what is recorded of it, and the partition but for its programs
and its sections. -/
structure CoreBlind {β : Type} (p k : Nat) (f : Chip → β) : Prop where
  blind : Blind (SwitchAt p) f
  core : ∀ c r v, r = .CORES_STATE ∨ r = .CORES_RUN_CTX → f (Chip.setReg c r p k v) = f c
  modPart : ∀ c g, (∀ s, (g s).progs = s.progs ∧ (g s).sections = s.sections) → f (Chip.modPart c p g) = f c
  free : ∀ c n, f { c with freeCtr := n } = f c

namespace CoreBlind

variable {β : Type} {p k : Nat} {f : Chip → β} (b : CoreBlind p k f) (c : Chip)
include b

theorem henAny (code x : Nat) : f (c.henAny p code x) = f c :=
  (b.blind.henCtx _ SwitchAt.stream SwitchAt.hen x code _).trans (b.free c _)

theorem stopRegion (r : Nat) (cause : Option Nat) : f (c.stopRegion p r cause) = f c :=
  Blind.ite rfl (b.modPart c _ fun _ => ⟨rfl, rfl⟩)

theorem haltCore (x : Nat) : f (c.haltCore p k x) = f c :=
  (b.henAny _ _ _).trans ((b.stopRegion _ _ _).trans ((b.core _ _ _ (.inl rfl)).trans (b.modPart c _ fun _ => ⟨rfl, rfl⟩)))

end CoreBlind

/-- The block with a core given to a context's program. -/
def coreGiven (c : Chip) (p k x : Nat) : Chip :=
  let c := if c.reg .CORES_RUN_CTX p k = x then c else c.count .CORES_CTX_SWITCHES p
  let c := (c.setReg .CORES_RUN_CTX p k x).setReg .CORES_STATE p k 1
  c.modPart p fun s => { s with coreSince := SMap.set 0 s.coreSince k c.now }

theorem coreNext_eq (c : Chip) (p k y : Nat) :
    c.coreNext p k y =
      if c.reg .CORES_STATE p k = 3 || bit (c.reg .PARTITION_CORES_VACANT p) k || (SMap.find? (c.part p).stops (0x20 + k)).isSome then c
      else match mioNext ((List.range 64).filter fun x => c.runnable p x k) y with
        | some x => if ((c.coreGiven p k x).part p).haltWait.contains k then (c.coreGiven p k x).haltCore p k x else c.coreGiven p k x
        | none =>
          match (List.range 64).find? fun x => (c.prog p x k).state == 2 && c.residentIn x p with
          | some x => (c.setReg .CORES_RUN_CTX p k x).setReg .CORES_STATE p k 2
          | none => (c.setReg .CORES_RUN_CTX p k 0xFF).setReg .CORES_STATE p k 0 := by
  unfold coreNext
  rfl

namespace CoreBlind

variable {β : Type} {p k : Nat} {f : Chip → β} (b : CoreBlind p k f) (c : Chip)
include b

theorem coreGiven (x : Nat) : f (c.coreGiven p k x) = f c := by
  have timed := fun d : Chip => b.modPart d (fun s => { s with coreSince := SMap.set 0 s.coreSince k d.now }) fun _ => ⟨rfl, rfl⟩
  unfold Chip.coreGiven
  refine (timed _).trans ((b.core _ _ _ (.inl rfl)).trans ((b.core _ _ _ (.inr rfl)).trans ?_))
  exact Blind.ite rfl (b.blind.count c _ _ (.inr ⟨rfl, rfl⟩))

theorem coreNext (y : Nat) : f (c.coreNext p k y) = f c := by
  have idle := fun x v => (b.core (c.setReg .CORES_RUN_CTX p k x) .CORES_STATE v (.inl rfl)).trans (b.core c .CORES_RUN_CTX x (.inr rfl))
  rw [coreNext_eq]
  refine Blind.ite rfl ?_
  split
  · exact Blind.ite ((b.haltCore _ _).trans (b.coreGiven c _)) (b.coreGiven c _)
  · split
    · exact idle _ _
    · exact idle _ _

theorem coreWake : f (c.coreWake p k) = f c := Blind.ite rfl (b.coreNext c _)

/-- A program that leaves its core: only the program changes. -/
theorem endProg (x state exit : Nat) :
    f (c.endProg p x k state exit) = f (c.modProg p x k fun g => { g with state := state, exit := exit, waitTill := none }) :=
  Blind.ite (b.coreNext _ _) rfl

end CoreBlind

/-! Functions of the block that ignore it -/

/-- A field of the partition that no capture moves is one. -/
theorem partField_blind {β : Type} (p k : Nat) {g : Part → β} (trace : ∀ s (t : Trace), g { s with trace := t } = g s)
    (keeps : ∀ s s' : Part, s'.progs = s.progs ∧ s'.sections = s.sections → g s' = g s) : CoreBlind p k fun c => g (c.part p) where
  blind := {
    setReg := fun _ _ _ _ _ => rfl
    setStream := fun c q nat x => by
      unfold setStream
      rw [part_modPart]
      split
      · next same => rw [same]; exact trace _ _
      · rfl
    modHen := fun _ _ => rfl
    emit := fun _ _ => rfl }
  core _ _ _ _ := rfl
  modPart c f kept := by rw [part_modPart_same]; exact keeps _ _ (kept _)
  free _ _ := rfl

theorem progs_blind (p k : Nat) : CoreBlind p k fun c => (c.part p).progs :=
  partField_blind p k (g := fun s => s.progs) (fun _ _ => rfl) fun _ _ kept => kept.1

theorem sections_blind (p k : Nat) : CoreBlind p k fun c => (c.part p).sections :=
  partField_blind p k (g := fun s => s.sections) (fun _ _ => rfl) fun _ _ kept => kept.2

/-- A register of the partition that no record and no change of a core's program moves. -/
theorem coreReg_blind {p k : Nat} (hp : p < 16) (hk : k < 4) {r : Reg}
    (other : r ∉ .CORES_STATE :: .CORES_RUN_CTX :: .CORES_CTX_SWITCHES :: (henRegs ++ streamRegs)) : CoreBlind p k fun c => c.reg r p := by
  simp only [List.mem_cons, not_or] at other
  obtain ⟨state, run, switches, rec⟩ := other
  refine ⟨⟨fun c r' i v moved => ?_, fun _ _ _ _ => rfl, fun _ _ => rfl, fun _ _ => rfl⟩, ?_, fun _ _ _ => rfl, fun _ _ => rfl⟩
  · obtain moved | ⟨rfl, rfl⟩ := moved
    · exact (blind_recordAt (i := p) (x := 0) (by omega) (by decide) (by omega) rec).setReg c r' i v moved
    · exact reg_setReg_far c v (Ne.symm switches) (by omega) (by omega) (by decide) (by decide)
  · rintro c r' v (rfl | rfl)
    · exact reg_setReg_far c v (Ne.symm state) (by omega) (by omega) (by omega) (by decide)
    · exact reg_setReg_far c v (Ne.symm run) (by omega) (by omega) (by omega) (by decide)

end Chip

end Sys2Proof.Machine
end

section
/-! SUPPORT. The programs of the control cores: what each issue, wait, yield, exit, fault, start and stop does (R367 to R372, R378, R417). -/

namespace Sys2Proof.Machine

open Sys2Proof

namespace Chip

/-! Programs -/

theorem prog_congr {c d : Chip} {p : Nat} (same : (d.part p).progs = (c.part p).progs) (x k : Nat) : d.prog p x k = c.prog p x k := by
  rw [prog, same, prog]

theorem prog_emit (c : Chip) (e : Emission) (p x k : Nat) : (c.emit e).prog p x k = c.prog p x k := rfl

theorem prog_setReg (c : Chip) (r : Reg) (i e v p x k : Nat) : (c.setReg r i e v).prog p x k = c.prog p x k := rfl

theorem prog_count (c : Chip) (r : Reg) (i p x k : Nat) : (c.count r i).prog p x k = c.prog p x k := rfl

theorem prog_modProg_same (c : Chip) (p x k : Nat) (f : Prog → Prog) : (c.modProg p x k f).prog p x k = f (c.prog p x k) := by
  rw [prog, modProg, part_modPart_same, SMap.get_set_same, prog]

theorem prog_modProg_other (c : Chip) (p k : Nat) {x y : Nat} (f : Prog → Prog) (other : y ≠ x) :
    (c.modProg p y k f).prog p x k = c.prog p x k := by
  rw [prog, modProg, part_modPart_same, SMap.get_set_other _ _ _ (by omega), prog]

theorem prog_coreNext (c : Chip) (p x k y : Nat) : (c.coreNext p k y).prog p x k = c.prog p x k :=
  prog_congr ((progs_blind p k).coreNext c y) x k

theorem prog_coreWake (c : Chip) (p x k : Nat) : (c.coreWake p k).prog p x k = c.prog p x k :=
  prog_congr ((progs_blind p k).coreWake c) x k

theorem prog_endProg (c : Chip) (p x k state exit : Nat) :
    (c.endProg p x k state exit).prog p x k = { c.prog p x k with state := state, exit := exit, waitTill := none } :=
  (prog_congr ((progs_blind p k).endProg c x state exit) x k).trans (prog_modProg_same c p x k _)

/-! The program on a core -/

/-- A core's program runs: it has the core, and the core works. -/
theorem coreCtx_some {c : Chip} {p k x : Nat} (on : c.coreCtx p k = some x) :
    x < 64 ∧ (c.prog p x k).state = 2 ∧ c.reg .CORES_RUN_CTX p k = x := by
  unfold coreCtx at on
  dsimp only at on
  split at on
  · next runs =>
    obtain rfl := Option.some.inj on
    exact ⟨runs.1, runs.2, rfl⟩
  · cases on

theorem onCore_runs {c : Chip} {p k x : Nat} (on : c.coreCtx p k = some x) (works : c.reg .CORES_STATE p k = 1) (f : Nat → Chip) :
    c.onCore p k f = f x := by
  rw [onCore, on]
  exact if_pos works

/-- A core whose program acts stays away from no one: it is neither vacant, stopped nor asked to halt. -/
structure CoreFree (c : Chip) (p k : Nat) : Prop where
  works : c.reg .CORES_STATE p k = 1
  present : bit (c.reg .PARTITION_CORES_VACANT p) k = false
  clocked : SMap.find? (c.part p).stops (0x20 + k) = none
  wanted : (c.part p).haltWait.contains k = false

theorem mem_of_mioNext {l : List Nat} {x y : Nat} (next : mioNext l x = some y) : y ∈ l := by
  unfold mioNext at next
  split at next
  · next z found =>
    obtain rfl := Option.some.inj next
    exact List.mem_of_find?_eq_some found
  · exact List.mem_of_head? next

theorem coreGiven_spec (c : Chip) (p k : Nat) {y : Nat} (hy : y < 64) :
    (c.coreGiven p k y).reg .CORES_RUN_CTX p k = y ∧ (c.coreGiven p k y).reg .CORES_STATE p k = 1 ∧
      SMap.get 0 ((c.coreGiven p k y).part p).coreSince k = c.now ∧ ((c.coreGiven p k y).part p).haltWait = (c.part p).haltWait := by
  unfold coreGiven
  generalize counted : (if c.reg .CORES_RUN_CTX p k = y then c else c.count .CORES_CTX_SWITCHES p) = d
  have kept : d.now = c.now ∧ d.part p = c.part p := by
    subst counted
    split <;> exact ⟨rfl, rfl⟩
  obtain ⟨now, part⟩ := kept
  dsimp only
  have ctx : trunc (Reg.width .CORES_RUN_CTX) y = y := Nat.mod_eq_of_lt (by change y < 2 ^ 8; omega)
  refine ⟨?_, ?_, ?_, ?_⟩
  · show ((d.setReg .CORES_RUN_CTX p k y).setReg .CORES_STATE p k 1).reg .CORES_RUN_CTX p k = y
    simp [ctx]
  · show ((d.setReg .CORES_RUN_CTX p k y).setReg .CORES_STATE p k 1).reg .CORES_STATE p k = 1
    simp
    rfl
  · rw [part_modPart_same]
    exact (SMap.get_set_same _ _ _ _).trans now
  · rw [part_modPart_same, ← part]
    rfl

/-- The core goes to the next program that can go on (R368). -/
theorem coreNext_given {c : Chip} {p k x y : Nat} (free : c.CoreFree p k)
    (next : mioNext ((List.range 64).filter fun z => c.runnable p z k) x = some y) :
    (c.coreNext p k x).reg .CORES_RUN_CTX p k = y ∧ (c.coreNext p k x).reg .CORES_STATE p k = 1 ∧
      SMap.get 0 ((c.coreNext p k x).part p).coreSince k = c.now := by
  obtain ⟨works, present, clocked, wanted⟩ := free
  obtain ⟨run, state, since, halt⟩ := c.coreGiven_spec p k (List.mem_range.mp (List.mem_of_mem_filter (mem_of_mioNext next)))
  have given : c.coreNext p k x = c.coreGiven p k y := by
    rw [coreNext_eq, if_neg (by simp [works, present, clocked]), next]
    exact if_neg (by rw [halt, wanted]; exact Bool.false_ne_true)
  rw [given]
  exact ⟨run, state, since⟩

/-! Issues (R372) -/

theorem pevent_cmds (c : Chip) (p code x job layer op n : Nat) : (c.pevent p code x job layer op n).cmds = c.cmds := by
  unfold pevent
  refine Unlogged.ite (f := cmds) rfl (Blind.foldl (f := cmds) (fun s _ d => Blind.foldl (f := cmds) (fun i _ e => ?_) d) c)
  exact countFor_cmds _ _ _ _ _ _

/-- A descriptor that passes every check joins the commands, and the program is told 0. -/
theorem g9Issue_sound {c : Chip} {p k x a n : Nat} (on : c.coreCtx p k = some x) (works : c.reg .CORES_STATE p k = 1)
    (aligned : a % 64 = 0) (above : 0x1000000 ≤ a) (below : a < 0x1800000) (stream : n < 2) (live : (c.ctx x).state ≠ 3)
    (served : n = 1 ∨ c.reg .PARTITION_MIOBOR_VACANT p ≠ 1) (few : c.outstanding p x k < 16)
    (room : c.outstanding p x k + unread (c.prog p x k) + 1 ≤ 2 ^ (c.prog p x k).log2) :
    ∃ y : Cmd, y.q = .core x p k (decide (n = 1)) ∧
      y.d = { descOf (c.dataBytes p (c.prog p x k).data (a - 0x1000000) 64) with ctx := x } ∧
      (c.g9Issue p k a n).cmds = c.cmds ++ [y] ∧ (c.g9Issue p k a n).out.head? = some (.core p k 0) := by
  have vacant : (decide (n = 0) && decide (c.reg .PARTITION_MIOBOR_VACANT p = 1)) = false := by
    obtain named | present := served
    · simp [named]
    · simp [present]
  have own : ¬(decide (a % 64 ≠ 0) || decide (a < 0x1000000) || decide (0x1800000 ≤ a) || decide (2 ≤ n)) = true := by
    simp only [Bool.or_eq_true, decide_eq_true_eq]
    omega
  have full : (decide (16 ≤ c.outstanding p x k) ||
      decide (2 ^ (c.prog p x k).log2 < c.outstanding p x k + unread (c.prog p x k) + 1)) = false := by
    simp only [Bool.or_eq_false_iff, decide_eq_false_iff_not]
    omega
  rw [g9Issue, onCore_runs on works]
  dsimp only
  rw [if_neg own, if_neg live, if_neg (by rw [vacant]; exact Bool.false_ne_true), if_neg (by rw [full]; exact Bool.false_ne_true)]
  exact ⟨_, rfl, rfl, (pevent_cmds _ _ _ _ _ _ _ _).trans (countFor_cmds _ _ _ _ _ _), rfl⟩

/-! Waits (R371) -/

theorem g9Wait_at_once {c : Chip} {p k x a : Nat} (on : c.coreCtx p k = some x) (works : c.reg .CORES_STATE p k = 1)
    (ready : unread (c.prog p x k) ≠ 0 ∨ a = 0) : c.g9Wait p k a = c.emit (.core p k (unread (c.prog p x k))) := by
  rw [g9Wait, onCore_runs on works]
  exact if_pos (by simpa using ready)

theorem g9Wait_prog {c : Chip} {p k x a : Nat} (on : c.coreCtx p k = some x) (works : c.reg .CORES_STATE p k = 1)
    (empty : unread (c.prog p x k) = 0) (time : a ≠ 0) : (c.g9Wait p k a).prog p x k = { c.prog p x k with waitTill := some (c.now + a) } := by
  rw [g9Wait, onCore_runs on works]
  dsimp only
  rw [if_neg (by simp [empty, time]), prog_coreNext, prog_modProg_same]

/-- What a program was told stays told while its core is given away. -/
theorem told_blind (p k v q j : Nat) : CoreBlind q j fun c => Emission.core p k v ∈ c.out where
  blind := {
    setReg := fun _ _ _ _ _ => rfl
    setStream := fun _ _ _ _ => rfl
    modHen := fun _ _ => rfl
    emit := fun c q => propext (by simp [Chip.emit]) }
  core _ _ _ _ := rfl
  modPart _ _ _ := rfl
  free _ _ := rfl

theorem g9Wake_spec {c : Chip} {p k x b : Nat} (runs : (c.prog p x k).state = 2) (waits : (c.prog p x k).waitTill = some b)
    (due : unread (c.prog p x k) ≠ 0 ∨ b ≤ c.now) :
    (c.g9Wake p x k).prog p x k = { c.prog p x k with waitTill := none } ∧ .core p k (unread (c.prog p x k)) ∈ (c.g9Wake p x k).out := by
  have woken : c.g9Wake p x k =
      ((c.modProg p x k fun g => { g with waitTill := none }).emit (.core p k (unread (c.prog p x k)))).coreWake p k := by
    unfold g9Wake
    dsimp only
    rw [waits]
    refine if_neg ?_
    simp only [runs, ne_eq, not_true, decide_false, Bool.false_or, Bool.and_eq_true, decide_eq_true_eq]
    omega
  rw [woken]
  refine ⟨by rw [prog_coreWake, prog_emit, prog_modProg_same], ?_⟩
  rw [(told_blind p k (unread (c.prog p x k)) p k).coreWake]
  exact List.mem_cons_self

/-! Faults (R369) -/

/-- A function of the block that no interrupt of a context moves. -/
theorem raiseCtx_keeps {β : Type} {f : Chip → β} {x p : Nat} (status : ∀ c v, f (setReg c .CTXQ_CTX_INT_STATUS (16 * x + p) 0 v) = f c)
    (sent : ∀ c port, port < 2 → f (count c .HOSTPORT_MSIX_SENT port) = f c) (emit : ∀ c e, f (emit c e) = f c)
    (masked : ∀ c port g, f (modHostPort c port g) = f c) (c : Chip) (b : Nat) : f (c.raiseCtx x p b) = f c := by
  have small : ∀ (d : Chip) port, d.portUsed port = true → port < 2 := fun d port used => by
    unfold portUsed at used
    split at used <;> simp at used <;> omega
  have msix : ∀ (d : Chip) port fn v, port < 2 → f (d.msix port fn v) = f d := fun d port fn v hp =>
    Blind.ite (masked _ _ _) (Blind.ite rfl ((emit _ _).trans (sent d port hp)))
  have msixCtx : ∀ d : Chip, f (d.msixCtx x p) = f d := fun d => by
    unfold Chip.msixCtx
    dsimp only
    split
    · next used => exact Blind.ite (msix _ _ _ _ (small d _ used.2)) (msix _ _ _ _ (small d _ used.2))
    · rfl
  unfold raiseCtx
  exact Blind.ite ((msixCtx _).trans (status c _)) (status c _)

/-- The block with a program's fault shown, counted and recorded. -/
def faultShown (c : Chip) (p k x cause pc tval : Nat) : Chip :=
  let c := (c.setReg .CORES_LAST_FAULT_CTX p 0 x).setReg .CORES_LAST_FAULT_CORE p 0 k
  let c := ((c.setReg .CORES_LAST_FAULT_CAUSE p 0 cause).setReg .CORES_LAST_FAULT_PC p 0 pc).setReg .CORES_LAST_FAULT_TVAL p 0 tval
  (c.countFor x .CORES_PROG_FAULTS p 1).henCtx x p 0x1501 [x, k, cause, pc]

theorem progFault_runs {c : Chip} {p k x cause pc tval : Nat} (on : c.coreCtx p k = some x) (works : c.reg .CORES_STATE p k = 1) :
    c.progFault p k cause pc tval = ((c.faultShown p k x cause pc tval).endProg p x k 3 0).raiseCtx x p 4 := by
  rw [progFault, onCore_runs on works]
  rfl

theorem progFault_prog {c : Chip} {p k x : Nat} (cause pc tval : Nat) (on : c.coreCtx p k = some x) (works : c.reg .CORES_STATE p k = 1) :
    (c.progFault p k cause pc tval).prog p x k = { c.prog p x k with state := 3, exit := 0, waitTill := none } := by
  have raised : ∀ d : Chip, ((d.raiseCtx x p 4).part p).progs = (d.part p).progs := fun d =>
    raiseCtx_keeps (f := fun d => (d.part p).progs) (fun _ _ => rfl) (fun _ _ _ => rfl) (fun _ _ => rfl) (fun _ _ _ => rfl) d 4
  have shown : ((c.faultShown p k x cause pc tval).part p).progs = (c.part p).progs := by
    refine ((progs_blind p k).blind.henCtx _ SwitchAt.stream SwitchAt.hen x 0x1501 _).trans ?_
    rw [part, countFor_parts]
    rfl
  rw [progFault_runs on works, prog_congr (raised _), prog_endProg, prog_congr shown]

/-- A register of the partition that neither a record, a change of a core's program nor an interrupt moves. -/
theorem faulted_reg {p k x : Nat} (hp : p < 16) (hk : k < 4) (hx : x < 64) (c : Chip) (cause pc tval : Nat) {r : Reg}
    (shown : r ∈ [.CORES_LAST_FAULT_CTX, .CORES_LAST_FAULT_CORE, .CORES_LAST_FAULT_CAUSE, .CORES_LAST_FAULT_PC, .CORES_LAST_FAULT_TVAL]) :
    (((c.faultShown p k x cause pc tval).endProg p x k 3 0).raiseCtx x p 4).reg r p =
      ((((((c.setReg .CORES_LAST_FAULT_CTX p 0 x).setReg .CORES_LAST_FAULT_CORE p 0 k).setReg .CORES_LAST_FAULT_CAUSE p 0 cause).setReg
        .CORES_LAST_FAULT_PC p 0 pc).setReg .CORES_LAST_FAULT_TVAL p 0 tval)).reg r p := by
  have apart : ∀ r' ∈ [Reg.CTXQ_CTX_INT_STATUS, .HOSTPORT_MSIX_SENT, .CORES_PROG_FAULTS], r' ≠ r := fun r' one same =>
    (by decide : ∀ a ∈ [Reg.CTXQ_CTX_INT_STATUS, .HOSTPORT_MSIX_SENT, .CORES_PROG_FAULTS], a ∉ [Reg.CORES_LAST_FAULT_CTX,
      .CORES_LAST_FAULT_CORE, .CORES_LAST_FAULT_CAUSE, .CORES_LAST_FAULT_PC, .CORES_LAST_FAULT_TVAL]) r' one (same ▸ shown)
  have b := coreReg_blind hp hk (r := r) fun one =>
    (by decide : ∀ a ∈ [Reg.CORES_LAST_FAULT_CTX, .CORES_LAST_FAULT_CORE, .CORES_LAST_FAULT_CAUSE, .CORES_LAST_FAULT_PC,
      .CORES_LAST_FAULT_TVAL], a ∉ .CORES_STATE :: .CORES_RUN_CTX :: .CORES_CTX_SWITCHES :: (henRegs ++ streamRegs)) r shown one
  refine (raiseCtx_keeps (f := fun d => d.reg r p)
    (fun d v => reg_setReg_far d v (apart _ (by decide)) (by omega) (by omega) (by decide) (by decide))
    (fun d port hport => reg_setReg_far d _ (apart _ (by decide)) (by omega) (by omega) (by decide) (by decide))
    (fun _ _ => rfl) (fun _ _ _ => rfl) _ 4).trans ((b.endProg _ x 3 0).trans ?_)
  refine (b.blind.henCtx _ SwitchAt.stream SwitchAt.hen x 0x1501 _).trans ?_
  unfold countFor
  refine Blind.ite (f := fun d => d.reg r p) rfl ((reg_countN _ _ _ _ _ _).trans (if_neg (apart _ (by decide))))

/-! The ring of a program, starts and stops (R370, R378) -/

theorem g9cqWrite_ring {c : Chip} {p k x v : Nat} (on : c.coreCtx p k = some x) (works : c.reg .CORES_STATE p k = 1)
    (size : 4 ≤ v % 16 ∧ v % 16 ≤ 10) (settled : c.outstanding p x k = 0) :
    (c.g9cqWrite p k 0x800 v).prog p x k =
      { c.prog p x k with base := v / 64 * 64, log2 := v % 16, head := 0, tail := 0, phase := 1 } := by
  rw [g9cqWrite, onCore_runs on works, if_pos rfl]
  dsimp only
  rw [prog_modProg_same, if_pos size, if_pos settled]

theorem setBitsOf_pow {k : Nat} (hk : k < 4) : setBitsOf 4 (2 ^ k) = [k] :=
  (by decide : ∀ k < 4, setBitsOf 4 (2 ^ k) = [k]) k hk

theorem stopProg_prog {c : Chip} {p x k : Nat} (runs : (c.prog p x k).state = 2) :
    (c.stopProg p x k).prog p x k = { c.prog p x k with state := 1, exit := 0, waitTill := none } := by
  rw [stopProg, if_pos runs, prog_endProg]

theorem loadData_progs (c : Chip) (p first : Nat) (data : List Nat) (tiles : Nat) :
    ((c.loadData p first data tiles).part p).progs = (c.part p).progs :=
  Blind.foldl (f := fun d => (d.part p).progs) (fun _ _ d => by rw [setTile, part_modPart_same]) c

theorem startProg_measured {c : Chip} {p x k : Nat} {y : Section} {n text data bss stack : Nat} {b : List Nat}
    (code : c.codeOf p x k = some y) (body : y.body = .code n text data bss stack b) (resident : c.residentIn x p = true)
    (present : bit (c.reg .PARTITION_CORES_VACANT p) k = false) (idle : (c.prog p x k).state ≠ 2) (sound : c.codeMeasured p y = true) :
    (c.startProg p x k).prog p x k = { state := 2, data := y.sram + ceilDiv y.len 2048 } := by
  unfold startProg
  simp only [code, resident, present, idle, sound, body, Bool.not_true, Bool.or_self, decide_false, Bool.false_eq_true, if_false]
  rw [prog_coreWake, prog_count, prog_modProg_same]

theorem startProg_dropped {c : Chip} {p x k : Nat} {y : Section} (code : c.codeOf p x k = some y) (resident : c.residentIn x p = true)
    (present : bit (c.reg .PARTITION_CORES_VACANT p) k = false) (idle : (c.prog p x k).state ≠ 2) (poor : c.codeMeasured p y = false) :
    ((c.startProg p x k).part p).sections =
      (c.part p).sections.filter fun z => !(z.ctx = y.ctx && z.typ = y.typ && z.num = y.num && z.job = y.job) := by
  have dropped : c.startProg p x k = c.dropSection p y := by
    unfold startProg
    simp only [code, resident, present, idle, poor, Bool.not_true, Bool.or_self, decide_false, Bool.false_eq_true, if_false,
      Bool.not_false, if_true]
  rw [dropped, dropSection]
  refine ((sections_blind p k).blind.henCtx _ SwitchAt.stream SwitchAt.hen y.ctx 0x3603 _).trans ?_
  rw [part_modPart_same]

/-! Resets of a core (R417) -/

/-- A context's program becomes FAULTED by a reset of its core. -/
def resetFaulted (c : Chip) (p k x : Nat) : Chip :=
  let c := c.modProg p x k fun g => { g with state := 3, waitTill := none }
  ((c.setReg .CORES_LAST_FAULT_CTX p 0 x).setReg .CORES_LAST_FAULT_CORE p 0 k).setReg .CORES_LAST_FAULT_CAUSE p 0 (2 ^ 64 - 1)

theorem resetFaulted_prog (c : Chip) (p k x y : Nat) :
    ((c.resetFaulted p k y).prog p x k).state = if y = x then 3 else (c.prog p x k).state := by
  simp only [resetFaulted, prog_setReg]
  split
  · next same =>
    subst same
    rw [prog_modProg_same]
  · next other => rw [prog_modProg_other c p k _ other]

/-- Every program of a list is FAULTED once all of them are. -/
theorem resetFaulted_foldl (p k x : Nat) (l : List Nat) (c : Chip) (faulted : x ∈ l ∨ (c.prog p x k).state = 3) :
    ((l.foldl (fun c y => c.resetFaulted p k y) c).prog p x k).state = 3 := by
  induction l generalizing c with
  | nil => exact faulted.resolve_left (List.not_mem_nil)
  | cons y r ih =>
    rw [List.foldl_cons]
    apply ih
    rw [resetFaulted_prog]
    split
    · exact .inr rfl
    · next other => exact faulted.imp_left fun member => (List.mem_cons.mp member).resolve_left (Ne.symm other)

/-- The block with a core's programs FAULTED, its commands to end, and its halts and stops forgotten. -/
def coreCleared (c : Chip) (p k : Nat) : Chip :=
  let c := ((List.range 64).filter fun x => (c.prog p x k).state = 2).foldl (fun c x => c.resetFaulted p k x) c
  let own := fun (y : Cmd) => match y.q with | .core _ z j _ => z == p && j == k | _ => false
  let c := { c with cmds := mapIf own (fun y => { y with abortAt := some (c.now + 100000) }) c.cmds }
  c.modPart p fun s => { s with halts := SMap.erase s.halts k, haltWait := s.haltWait.erase k, stops := SMap.erase s.stops (0x20 + k) }

theorem coreReset_eq (c : Chip) (p k : Nat) (cause : Option Nat) :
    c.coreReset p k cause = ((((c.coreCleared p k).setReg .CORES_STATE p k 0).setReg .CORES_RUN_CTX p k 0xFF).stopRegion p (0x20 + k) cause).count
      .PARTITION_CORE_RESETS p := by
  unfold coreReset
  rfl

theorem coreReset_prog {c : Chip} {p k x : Nat} (hx : x < 64) (runs : (c.prog p x k).state = 2) (cause : Option Nat) :
    ((c.coreReset p k cause).prog p x k).state = 3 := by
  have stopped : ∀ d : Chip, (d.stopRegion p (0x20 + k) cause).prog p x k = d.prog p x k := fun d =>
    prog_congr ((progs_blind p k).stopRegion d (0x20 + k) cause) x k
  have faulted := resetFaulted_foldl p k x ((List.range 64).filter fun x => (c.prog p x k).state = 2) c
    (.inl (List.mem_filter.mpr ⟨List.mem_range.mpr hx, decide_eq_true runs⟩))
  rw [coreReset_eq, prog_count, stopped, prog_setReg, prog_setReg, coreCleared]
  rw [prog, part_modPart_same]
  exact faulted

/-- A reset core runs nothing. -/
theorem coreReset_idle {p k : Nat} (hp : p < 16) (hk : k < 4) (c : Chip) (cause : Option Nat) :
    (c.coreReset p k cause).reg .CORES_STATE p k = 0 ∧ (c.coreReset p k cause).reg .CORES_RUN_CTX p k = 0xFF := by
  have counted : ∀ (d : Chip) r, r ≠ .PARTITION_CORE_RESETS → ((d.stopRegion p (0x20 + k) cause).count .PARTITION_CORE_RESETS p).reg r p k = d.reg r p k :=
    fun d r other => (reg_setReg_far _ _ (Ne.symm other) (by omega) (by omega) (by decide) (by omega)).trans
      (Blind.ite (f := fun d => d.reg r p k) rfl rfl)
  rw [coreReset_eq, counted _ _ (by decide), counted _ _ (by decide)]
  simp
  exact ⟨rfl, rfl⟩

theorem coreReset_watchdogs {p k : Nat} (hp : p < 16) (hk : k < 4) (c : Chip) (cause : Option Nat) :
    (c.coreReset p k cause).reg .PARTITION_WATCHDOGS p = c.reg .PARTITION_WATCHDOGS p := by
  have b := coreReg_blind hp hk (r := .PARTITION_WATCHDOGS) (by decide)
  have faulted : ∀ d y, (resetFaulted d p k y).reg .PARTITION_WATCHDOGS p = d.reg .PARTITION_WATCHDOGS p := fun d y => by
    simp [resetFaulted, modProg]
  have cleared : (c.coreCleared p k).reg .PARTITION_WATCHDOGS p = c.reg .PARTITION_WATCHDOGS p := by
    unfold coreCleared
    exact Blind.foldl (f := fun d => d.reg .PARTITION_WATCHDOGS p) (fun y _ d => faulted d y) c
  rw [coreReset_eq, reg_count, if_neg (by decide), b.stopRegion, b.core _ _ _ (.inr rfl), b.core _ _ _ (.inl rfl), cleared]

theorem coreWatchdog_reset {c : Chip} {p k : Nat} (present : bit (c.reg .PARTITION_CORES_VACANT p) k = false)
    (clocked : SMap.find? (c.part p).stops (0x20 + k) = none)
    (few : ((SMap.get [] (c.part p).coreResets k).filter fun a => c.now < a + 60000000000).length < 2) :
    ∃ l, c.coreWatchdog p k =
      ((c.count .PARTITION_WATCHDOGS p).modPart p fun s => { s with coreResets := SMap.set [] s.coreResets k l }).coreReset p k none := by
  unfold coreWatchdog
  rw [if_neg (by simp [present, clocked])]
  exact ⟨_, if_neg (Nat.not_le.mpr few)⟩

end Chip

/-- Settles O46: each command of the cores by the lemma about its work. -/
theorem programsOnCores : Obligations.ProgramsOnCores := by
  unfold Obligations.ProgramsOnCores State.reg
  refine ⟨?issue, ?atOnce, ?waits, ?wakes, ?yield, ?quantum, ?exit, ?fault, ?ring, ?start, ?stop, ?watchdog, ?parity⟩
  case issue =>
    intro t p k x a n g s ⟨alive, hk, on, works⟩ ⟨aligned, above, below⟩ stream live served prog few room
    subst prog
    obtain ⟨y, queue, desc, cmds, told⟩ := Chip.g9Issue_sound (c := s.found t) on works aligned above below stream live served few room
    refine ⟨_, rfl, ?_⟩
    rw [State.run_found_atPart t _ alive, cmds, List.map_append, List.map_singleton, queue, desc]
    exact ⟨rfl, told⟩
  case atOnce =>
    intro t p k x a g s ⟨alive, hk, on, works⟩ prog ready
    subst prog
    refine ⟨_, rfl, ?_⟩
    rw [State.run_found_atPart t _ alive, Chip.g9Wait_at_once on works ready]
    rfl
  case waits =>
    intro t p k x a g s ⟨alive, hk, on, works⟩ prog ⟨empty, time⟩
    subst prog
    refine ⟨_, rfl, ?_⟩
    rw [State.run_found_atPart t _ alive]
    exact Chip.g9Wait_prog on works empty time
  case wakes =>
    intro t p k x b g s alive _ prog ⟨runs, waits⟩ due
    subst prog
    refine ⟨_, rfl, ?_⟩
    rw [State.run_found_atPart t _ alive]
    exact Chip.g9Wake_spec runs waits due
  case yield =>
    intro t p k x y s ⟨alive, hk, on, works⟩ present clocked wanted next
    refine ⟨_, rfl, ?_⟩
    rw [State.run_found_atPart t _ alive, Chip.g9Yield, Chip.onCore_runs on works]
    exact Chip.coreNext_given (c := s.found t) ⟨works, present, clocked, wanted⟩ next
  case quantum =>
    intro t p k x y s ⟨alive, hk, on, works⟩ spent present clocked wanted next
    refine ⟨_, rfl, ?_⟩
    have ends : (s.found t).quantumEnds p k = (s.found t).g9Yield p k := if_neg (Nat.not_lt.mpr spent)
    rw [State.run_found_atPart t _ alive, ends, Chip.g9Yield, Chip.onCore_runs on works]
    exact Chip.coreNext_given (c := s.found t) ⟨works, present, clocked, wanted⟩ next
  case exit =>
    intro t p k x a s ⟨alive, hk, on, works⟩
    refine ⟨_, rfl, ?_⟩
    rw [State.run_found_atPart t _ alive, Chip.progExit, Chip.onCore_runs on works]
    exact Chip.prog_endProg _ p x k 1 a
  case fault =>
    intro t p k x cause pc tval s ⟨alive, hk, on, works⟩
    obtain ⟨hx, -, -⟩ := Chip.coreCtx_some on
    refine ⟨_, rfl, ?_⟩
    rw [State.run_found_atPart t _ alive]
    refine ⟨Chip.progFault_prog cause pc tval on works, ?_⟩
    rw [Chip.progFault_runs on works]
    have faulted := fun r => Chip.faulted_reg alive.1 hk hx (s.found t) cause pc tval (r := r)
    have ctx : trunc (Reg.width .CORES_LAST_FAULT_CTX) x = x := Nat.mod_eq_of_lt (by change x < 2 ^ 6; omega)
    have core : trunc (Reg.width .CORES_LAST_FAULT_CORE) k = k := Nat.mod_eq_of_lt (by change k < 2 ^ 2; omega)
    rw [faulted _ (by decide), faulted _ (by decide), faulted _ (by decide), faulted _ (by decide), faulted _ (by decide)]
    simp [ctx, core]
    exact ⟨rfl, rfl, rfl⟩
  case ring =>
    intro t p k x v s ⟨alive, hk, on, works⟩ size settled
    refine ⟨_, rfl, ?_⟩
    rw [State.run_found_atPart t _ alive]
    exact Chip.g9cqWrite_ring on works size settled
  case start =>
    intro t p k x y n text data bss stack b s alive ⟨hk, hx⟩ code body resident present idle
    refine ⟨_, rfl, ?_⟩
    have started : (s.found t).ctlOp p x (2 ^ k) 1 = (s.found t).startProg p x k := by
      rw [Chip.ctlOp, Chip.setBitsOf_pow hk]
      rfl
    rw [State.run_found_atPart t _ alive, started]
    split
    · next sound => exact Chip.startProg_measured code body resident present idle sound
    · next poor => exact Chip.startProg_dropped code resident present idle (Bool.eq_false_iff.mpr poor)
  case stop =>
    intro t p k x s alive ⟨hk, hx⟩ runs
    refine ⟨_, rfl, ?_⟩
    have stopped : (s.found t).ctlOp p x (2 ^ k) 2 = (s.found t).stopProg p x k := by
      rw [Chip.ctlOp, Chip.setBitsOf_pow hk]
      rfl
    rw [State.run_found_atPart t _ alive, stopped]
    exact Chip.stopProg_prog runs
  case watchdog =>
    intro t p k x s ⟨alive, hk, on, works⟩ present clocked few
    obtain ⟨hx, runs, -⟩ := Chip.coreCtx_some on
    obtain ⟨l, reset⟩ := Chip.coreWatchdog_reset (c := s.found t) present clocked few
    refine ⟨_, rfl, ?_⟩
    rw [State.run_found_atPart t _ alive, reset]
    obtain ⟨state, run⟩ := Chip.coreReset_idle alive.1 hk (((s.found t).count .PARTITION_WATCHDOGS p).modPart p fun s =>
      { s with coreResets := SMap.set [] s.coreResets k l }) none
    refine ⟨Chip.coreReset_prog hx ?_ none, state, run, (Chip.coreReset_watchdogs alive.1 hk _ none).trans ?_⟩
    · rw [Chip.prog, Chip.part_modPart_same]
      exact runs
    · rw [Chip.modPart_reg]
      exact Chip.reg_count_one _ p rfl
  case parity =>
    intro t p k s alive
    refine ⟨_, rfl, ?_⟩
    rw [State.run_found_atPart t _ alive]
    exact Chip.reg_count_one _ p rfl

end Sys2Proof.Machine
end

section
/-! SUPPORT. The configuration blob, the firmware image, a cold boot and BIST (R317, R467 to R470, R477). -/

namespace Sys2Proof.Machine

open Sys2Proof

namespace Chip

/-! The blob and the image (R317, R468, R477) -/

/-- The bytes that BLOB_WRITE reads. -/
def blobRead (c : Chip) (port : Nat) : List Nat := c.hostBytes port (c.reg .BOOT_BLOB_ADDR) (min (c.reg .BOOT_BLOB_LEN) 0x200000)

theorem blobWrite_passed {c : Chip} {port : Nat} {x : Blob} (good : blobOf (c.blobRead port) = some x) :
    (c.blobWrite port).reg .BOOT_BLOB_STATUS = 0 ∧ (c.blobWrite port).mram.blob = c.blobRead port := by
  unfold blobRead at good
  unfold blobWrite
  dsimp only
  rw [good]
  exact ⟨reg_setReg c .BOOT_BLOB_STATUS .BOOT_BLOB_STATUS 0 0 0, rfl⟩

/-- A blob that does not pass: nothing is stored. -/
theorem blobWrite_refused {c : Chip} {port : Nat} (bad : blobOf (c.blobRead port) = none) :
    ((c.blobWrite port).reg .BOOT_BLOB_STATUS = 0x08 ∨ (c.blobWrite port).reg .BOOT_BLOB_STATUS = 0x01) ∧ (c.blobWrite port).mram = c.mram := by
  unfold blobRead at bad
  unfold blobWrite
  dsimp only
  rw [bad]
  dsimp only
  split
  · rw [reg_setReg, if_pos rfl]
    split
    · exact ⟨.inl rfl, rfl⟩
    · exact ⟨.inr rfl, rfl⟩
  · exact ⟨.inl (reg_setReg c .BOOT_BLOB_STATUS .BOOT_BLOB_STATUS 0 0 8), rfl⟩

theorem blobWrite_whole {c : Chip} {port : Nat} (bad : blobOf (c.blobRead port) = none) (header : 32 ≤ min (c.reg .BOOT_BLOB_LEN) 0x200000)
    (whole : ofBytes (((c.blobRead port).drop 8).take 4) ≤ min (c.reg .BOOT_BLOB_LEN) 0x200000) :
    (c.blobWrite port).reg .BOOT_BLOB_STATUS = 0x08 := by
  unfold blobRead at bad whole
  unfold blobWrite
  dsimp only
  rw [bad]
  dsimp only
  rw [if_neg]
  · exact reg_setReg c .BOOT_BLOB_STATUS .BOOT_BLOB_STATUS 0 0 8
  · simp only [Bool.or_eq_true, decide_eq_true_eq]
    omega

/-- The image that the ROM verifies is that of the port that FW_GO named. -/
def fwPushed (c : Chip) (port : Nat) : List Nat := c.hostBytes port (c.reg .BOOT_FW_ADDR) (c.reg .BOOT_FW_LEN)

theorem fwFrom_blind : BlindRest fwFrom := ⟨fun _ _ _ _ _ => rfl, fun _ _ _ _ => rfl, fun _ _ => rfl, fun _ _ => rfl⟩

section
variable {c : Chip} {port : Nat} (stage : c.reg .BOOT_BOOT_STAGE = 2) (named : c.fwFrom = some port) (m : List Nat)
include stage named

/-- An image that passes goes on to BIST. -/
theorem fwVerified_taken (shape : fwShape (c.fwPushed port) = true) :
    ∃ d : Chip, d.fwFrom = none ∧ d.fwVersion = ofBytes (((c.fwPushed port).drop 8).take 4) ∧
      c.fwVerified true m = ((d.setReg .BOOT_FW_WAITING 0 0 0).setReg .BOOT_FW_FROM_MRAM 0 0 0).setReg .BOOT_BOOT_STAGE 0 0 4 := by
  unfold fwPushed at shape
  unfold fwVerified
  simp only [stage, named, shape, Bool.and_self, if_true, Option.isNone_some, show ¬(2 = 5) by decide, and_false, if_false, ne_eq,
    not_true, Bool.false_eq_true, false_and, or_self]
  exact ⟨_, rfl, rfl, rfl⟩

theorem fwVerified_passed (shape : fwShape (c.fwPushed port) = true) :
    (c.fwVerified true m).reg .BOOT_BOOT_STAGE = 4 ∧ (c.fwVerified true m).reg .BOOT_FW_WAITING = 0 ∧
      (c.fwVerified true m).reg .BOOT_FW_FROM_MRAM = 0 ∧ (c.fwVerified true m).fwFrom = none ∧
      (c.fwVerified true m).fwVersion = ofBytes (((c.fwPushed port).drop 8).take 4) := by
  obtain ⟨d, done, version, taken⟩ := fwVerified_taken stage named m shape
  rw [taken]
  simp only [reg_setReg]
  exact ⟨rfl, rfl, rfl, done, version⟩

theorem fwVerified_failed :
    (c.fwVerified false m).reg .BOOT_BOOT_STAGE = 2 ∧ (c.fwVerified false m).reg .BOOT_FW_WAITING = 1 ∧ (c.fwVerified false m).fwFrom = none ∧
      (c.fwVerified false m).reg .BOOT_FW_REJECTS = countUp (c.reg .BOOT_FW_REJECTS) := by
  let d : Chip := { c with fwFrom := none }
  have rejected : c.fwVerified false m = ((d.count .BOOT_FW_REJECTS).henDevAny 0x0202).setReg .BOOT_FW_WAITING 0 0 1 := by
    simp [fwVerified, stage, named, d]
  have counted := reg_count_one d 0 (r := .BOOT_FW_REJECTS) rfl
  have unmoved : (d.count .BOOT_FW_REJECTS).reg .BOOT_BOOT_STAGE = 2 := (reg_count d _ _ 0).trans stage
  have named : ((d.count .BOOT_FW_REJECTS).henDevAny 0x0202).fwFrom = none :=
    (fwFrom_blind.henDev _ (fun _ _ => trivial) 0x0202 _ 19).trans rfl
  rw [rejected, reg_setReg, reg_setReg, reg_setReg, reg_henDevAny _ _ (r := .BOOT_BOOT_STAGE) (by decide),
    reg_henDevAny _ _ (r := .BOOT_FW_REJECTS) (by decide), counted, unmoved]
  exact ⟨rfl, rfl, named, rfl⟩

end

end Chip

end Sys2Proof.Machine
end

section
/-! SUPPORT. A cold boot and BIST, seen from the registers and the work that they must leave or set (R469, R470). -/

namespace Sys2Proof.Machine

open Sys2Proof

namespace Chip

/-- A blob that passes names a lead. -/
theorem blobOf_lead {l : List Nat} {b : Blob} (read : blobOf l = some b) : b.lead < 16 := by
  unfold blobOf at read
  extract_lets g len body crc at read
  split at read
  · cases read
  · split at read
    · cases read
    · next ranges =>
      obtain rfl := Option.some.inj read
      have := mt (fun low => Or.inr (Or.inr (Or.inl low))) ranges
      exact Nat.lt_succ_of_le (Nat.not_lt.mp this)

/-- The registers of the DEVICE page that a blob sets. -/
def blobRegs : List Reg := [.DEVICE_ROLE, .DEVICE_CLUSTER_INDEX, .DEVICE_LEAD, .DEVICE_DEVICE_PORT, .DEVICE_OWNER]

/-- What a blob leaves: memory, agents, contexts, slices, commands, a register of another page, and what MRAM holds. -/
def bootView (r : Reg) (n x : Nat) (c : Chip) : (SMap (BitVec 8) × SMap Agent × SMap Ctx × List Slice × List Cmd × Nat) × Mram :=
  (farView r n x c, c.mram)

/-- A field of the LOOPS page takes a word of a blob, clamped to its range. -/
def loopPut (c : Chip) (r : Reg) (idx v : Nat) : Chip :=
  if (RegFile.clampReg r v).2 then (c.setReg r 0 idx (RegFile.clampReg r v).1).clamped .LOOPS 0 v (RegFile.clampReg r v).1
  else c.setReg r 0 idx (RegFile.clampReg r v).1

theorem applyLoops_eq (c : Chip) (l : List Nat) :
    c.applyLoops l =
      if l.isEmpty then c
      else
        let w := fun (i : Nat) => l.getD i 0
        let c := (List.range 4).foldl (fun c d => ((c.loopPut .LOOPS_DVFS_CEIL d (bits (w d) 26 16)).loopPut .LOOPS_DVFS_FLOOR d
          (bits (w d) 10 0)).loopPut .LOOPS_DVFS_PIN d (bits (w d) 31 31)) c
        let c := ((c.loopPut .LOOPS_SPAN_CEIL 0 (bits (w 4) 12 8)).loopPut .LOOPS_SPAN_FLOOR 0 (bits (w 4) 4 0)).loopPut .LOOPS_SPAN_PIN 0
          (bits (w 4) 31 31)
        ((c.loopPut .LOOPS_LEND_FLOOR 0 (bits (w 5) 3 0)).loopPut .LOOPS_LEND_PIN 0 (bits (w 5) 31 31)).settlePage .LOOPS 0 := by
  unfold applyLoops
  rfl

section
variable {r : Reg} {n x : Nat} (far : FarReg r n x)
include far

theorem bootView_setReg (c : Chip) (r' : Reg) (i y v : Nat) (page : r'.desc.page ∈ nearPages) (hi : i < 4096) (hy : y < 64) :
    bootView r n x (c.setReg r' i y v) = bootView r n x c := Prod.ext (farView_setReg far c r' i y v page hi hy) rfl

theorem bootView_blind : Blind NearReg (bootView r n x) where
  setReg c r' i v near := bootView_setReg far c r' i 0 v near.1 near.2 (by decide)
  setStream _ _ _ _ := rfl
  modHen _ _ := rfl
  emit _ _ := rfl

theorem bootView_count (c : Chip) (r' : Reg) (page : r'.desc.page ∈ nearPages) : bootView r n x (c.count r' 0) = bootView r n x c :=
  (bootView_blind far).count c r' 0 ⟨page, by decide⟩

omit far in
theorem bootView_free (c : Chip) (k : Nat) : bootView r n x { c with freeCtr := k } = bootView r n x c := rfl

theorem bootView_henAny (c : Chip) {p : Nat} (hp : p < 16) (code ctx : Nat) : bootView r n x (c.henAny p code ctx) = bootView r n x c :=
  ((bootView_blind far).henCtx _ (nearReg_stream hp) nearReg_hen ctx code _).trans rfl

theorem bootView_henDevAny (c : Chip) (code : Nat) : bootView r n x (c.henDevAny code) = bootView r n x c :=
  ((bootView_blind far).henDev _ nearReg_hen code _ 19).trans rfl

theorem bootView_publishTime (c : Chip) : bootView r n x c.publishTime = bootView r n x c :=
  publishTime_keeps (fun d r' v time => bootView_setReg far d r' 0 0 v (time ▸ by decide) (by decide) (by decide)) c

theorem bootView_clamped (c : Chip) (written applied : Nat) : bootView r n x (c.clamped .LOOPS 0 written applied) = bootView r n x c :=
  ((bootView_blind far).henDev _ nearReg_hen 0x3C01 _ 19).trans ((bootView_free _ _).trans ((bootView_free _ _).trans
    (bootView_count far c .LOOPS_CLAMPS (by decide))))

theorem bootView_settlePage (c : Chip) : bootView r n x (c.settlePage .LOOPS 0) = bootView r n x c := by
  have settled : ∀ (d : Chip) (e : Reg × Reg × Bool), e ∈ dependents .LOOPS → ∀ i < 64,
      bootView r n x (d.settleOne .LOOPS 0 e i) = bootView r n x d := fun d e member i hi => by
    have page : e.1.desc.page ∈ nearPages := (by decide : ∀ e ∈ dependents .LOOPS, e.1.desc.page ∈ nearPages) e member
    exact Blind.ite rfl ((bootView_clamped far _ _ _).trans (bootView_setReg far d e.1 0 i _ page (by decide) hi))
  have short : ∀ e ∈ dependents .LOOPS, e.1.desc.count ≤ 64 := by decide
  unfold settlePage
  refine Blind.foldl (f := bootView r n x) (fun e member d => Blind.foldl (f := bootView r n x) (fun i within f => ?_) d) c
  exact settled f e member i (lt_of_lt_of_le (List.mem_range.mp within) (short e member))

theorem bootView_loopPut (c : Chip) (r' : Reg) (y v : Nat) (page : r'.desc.page ∈ nearPages) (hy : y < 64) :
    bootView r n x (c.loopPut r' y v) = bootView r n x c :=
  Blind.ite ((bootView_clamped far _ _ _).trans (bootView_setReg far c r' 0 y _ page (by decide) hy))
    (bootView_setReg far c r' 0 y _ page (by decide) hy)

theorem bootView_applyLoops (c : Chip) (l : List Nat) : bootView r n x (c.applyLoops l) = bootView r n x c := by
  rw [applyLoops_eq]
  refine Blind.ite rfl ?_
  simp (disch := decide) only [bootView_settlePage far, bootView_loopPut far]
  refine Blind.foldl (f := bootView r n x) (fun d member e => ?_) c
  have hd : d < 64 := lt_trans (List.mem_range.mp member) (by decide)
  rw [bootView_loopPut far _ _ _ _ (by decide) hd, bootView_loopPut far _ _ _ _ (by decide) hd, bootView_loopPut far _ _ _ _ (by decide) hd]

/-! A blob takes effect (R467, R468) -/

variable (kept : r ∉ blobRegs)
include kept

theorem bootView_device (c : Chip) (r' : Reg) (v : Nat) (one : r' ∈ blobRegs) : bootView r n x (c.setReg r' 0 0 v) = bootView r n x c := by
  obtain ⟨-, hn, hx⟩ := far
  have other : r' ≠ r := fun same => kept (same ▸ one)
  unfold bootView farView
  rw [reg_setReg_far c v other (by decide) hn (by decide) hx]
  rfl

theorem bootView_publishLead (c : Chip) {p : Nat} (hp : p < 16) : bootView r n x (c.publishLead p) = bootView r n x c :=
  Blind.ite rfl ((bootView_henAny far _ hp 0x3B02 64).trans (bootView_device far kept c .DEVICE_LEAD _ (by decide)))

theorem bootView_applyBlob (c : Chip) {b : Blob} (lead : b.lead < 16) (defaulted : Bool) :
    bootView r n x (c.applyBlob b defaulted) = bootView r n x c := by
  unfold applyBlob
  dsimp only
  have planned : ∀ (d : Chip) m, bootView r n x { d with plan := m } = bootView r n x d := fun _ _ => rfl
  rw [planned, apply_ite (bootView r n x), bootView_henAny far _ lead, ite_self, bootView_publishLead far kept _ lead, bootView_applyLoops far]
  simp (disch := decide) only [bootView_setReg far, bootView_device far kept]
  rfl

theorem bootView_readBlob (c : Chip) : bootView r n x c.readBlob = bootView r n x c := by
  unfold readBlob
  split
  · next b read => exact bootView_applyBlob far kept c (blobOf_lead read) false
  · exact (bootView_henDevAny far _ _).trans (bootView_applyBlob far kept c (by decide) true)

/-! A cold boot (R469) -/

/-- What a cold boot reads after the straps: identity, state record and blob. -/
def bootRead (c : Chip) (identity : Bool) : Chip :=
  let c := if identity then c else c.henDevAny 0x0201
  (c.setReg .BOOT_STATE_VALID 0 0 (ofBool c.mram.state)).readBlob.publishTime

theorem bootView_bootRead (c : Chip) (identity : Bool) : bootView r n x (c.bootRead identity) = bootView r n x c := by
  unfold bootRead
  dsimp only
  rw [bootView_publishTime far, bootView_readBlob far kept, bootView_setReg far _ _ _ _ _ (by decide) (by decide) (by decide)]
  exact Blind.ite rfl (bootView_henDevAny far c _)

end

/-- The block after a power-on with the straps sampled and the identity checked. -/
def strapped (c : Chip) (cfg src : Nat) (identity : Bool) : Chip :=
  [0, 1].foldl (fun c i => c.setReg .CONTEXT_IDENTITY_OK i 0 (ofBool identity)) (c.powerOn.setStraps cfg src)

theorem coldBoot_eq (c : Chip) (cfg src : Nat) (identity : Bool) :
    c.coldBoot true cfg src identity =
      if ((c.strapped cfg src identity).bootRead identity).mram.g9Out then ((c.strapped cfg src identity).bootRead identity).holdOut
      else (((c.strapped cfg src identity).bootRead identity).setReg .BOOT_BOOT_STAGE 0 0 2).setReg .BOOT_FW_WAITING 0 0 (1 - src % 2) := by
  unfold coldBoot bootRead strapped
  simp only [Bool.not_true, Bool.false_and, Bool.false_eq_true, if_false, if_true, Bool.true_and]

/-- The commands, the contexts, and what MRAM holds. -/
def workView (c : Chip) : List Cmd × SMap Ctx × Mram := (c.cmds, c.ctxs, c.mram)

theorem workView_setReg (c : Chip) (r : Reg) (i x v : Nat) : (c.setReg r i x v).workView = c.workView := rfl

/-- After a power-on no command and no context is left, and MRAM is as it was. -/
theorem powerOn_work (c : Chip) : c.powerOn.workView = ([], [], c.mram) := by
  unfold powerOn
  dsimp only
  rw [publishTime_keeps (f := workView) (fun _ _ _ _ => rfl), workView_setReg, workView_setReg, workView_setReg]
  refine (Blind.foldl (f := workView) (fun p _ d => ?_) _).trans rfl
  unfold partState
  split <;> simp only [workView_setReg]

theorem powerOn_state (c : Chip) : c.powerOn.reg .RESET_DEVICE_STATE = 1 := by
  unfold powerOn
  refine (publishTime_keeps (f := fun d => d.reg .RESET_DEVICE_STATE) (fun d r v time =>
    reg_setReg_far d v (fun same => absurd time (same ▸ by decide)) (by decide) (by decide) (by decide) (by decide)) _).trans ?_
  simp only [reg_setReg]
  rfl

theorem strapped_spec (c : Chip) {cfg src : Nat} (hcfg : cfg < 4) (hsrc : src < 2) (identity : Bool) :
    let d := c.strapped cfg src identity
    d.reg .DEVICE_HOST_CFG = cfg ∧ d.reg .DEVICE_BOOT_SRC = src ∧ d.reg .CONTEXT_IDENTITY_OK = ofBool identity ∧
      d.reg .RESET_DEVICE_STATE = 1 ∧ d.workView = ([], [], c.mram) := by
  have far : ∀ (e : Chip) v r, r ≠ .CONTEXT_IDENTITY_OK → (e.setReg .CONTEXT_IDENTITY_OK 1 0 v).reg r = e.reg r := fun e v r other =>
    reg_setReg_far e v (Ne.symm other) (by decide) (by decide) (by decide) (by decide)
  have one : ∀ (e : Chip) v, (e.setReg .CONTEXT_IDENTITY_OK 1 0 v).reg .CONTEXT_IDENTITY_OK = e.reg .CONTEXT_IDENTITY_OK := fun e v =>
    RegFile.get_set_key _ _ (by decide)
  have config : trunc (Reg.width .DEVICE_HOST_CFG) cfg = cfg := Nat.mod_eq_of_lt hcfg
  have source : trunc (Reg.width .DEVICE_BOOT_SRC) src = src := Nat.mod_eq_of_lt hsrc
  have good : trunc (Reg.width .CONTEXT_IDENTITY_OK) (ofBool identity) = ofBool identity := by cases identity <;> rfl
  refine ⟨?_, ?_, ?_, ?_, ?_⟩
  · simp [strapped, setStraps, far, config]
  · simp [strapped, setStraps, far, source]
  · simp [strapped, setStraps, one, good]
  · simp [strapped, setStraps, far, powerOn_state]
  · simp only [strapped, setStraps, List.foldl, workView_setReg, powerOn_work]

theorem coldBoot_spec (c : Chip) {cfg src : Nat} (hcfg : cfg < 4) (hsrc : src < 2) (identity : Bool) (inUse : c.mram.g9Out = false) :
    let d := c.coldBoot true cfg src identity
    d.reg .DEVICE_HOST_CFG = cfg ∧ d.reg .DEVICE_BOOT_SRC = src ∧ d.reg .CONTEXT_IDENTITY_OK = ofBool identity ∧ d.reg .BOOT_BOOT_STAGE = 2 ∧
      d.reg .BOOT_FW_WAITING = 1 - src ∧ d.reg .RESET_DEVICE_STATE = 1 ∧ d.cmds = [] ∧ d.ctxs = [] := by
  obtain ⟨config, source, checked, state, work⟩ := c.strapped_spec hcfg hsrc identity
  have read := fun r (page : r.desc.page ∈ farPages) (kept : r ∉ blobRegs) =>
    bootView_bootRead (r := r) (n := 0) (x := 0) ⟨page, by decide, by decide⟩ kept (c.strapped cfg src identity) identity
  rw [coldBoot_eq]
  generalize (c.strapped cfg src identity).bootRead identity = e at read ⊢
  generalize c.strapped cfg src identity = d at config source checked state work read
  simp only [bootView, farView, Prod.mk.injEq] at read
  simp only [workView, Prod.mk.injEq] at work
  obtain ⟨cmds, ctxs, mram⟩ := work
  have reg : ∀ r, r.desc.page ∈ farPages → r ∉ blobRegs → e.reg r = d.reg r := fun r page kept => by
    obtain ⟨⟨-, -, -, -, -, same⟩, -⟩ := read r page kept
    exact same
  obtain ⟨⟨-, -, ctxs', -, cmds', -⟩, mram'⟩ := read .DEVICE_HOST_CFG (by decide) (by decide)
  have waits : trunc (Reg.width .BOOT_FW_WAITING) (1 - src % 2) = 1 - src := by
    rw [Nat.mod_eq_of_lt hsrc]
    exact Nat.mod_eq_of_lt (by change 1 - src < 2; omega)
  rw [mram', mram, inUse]
  simp only [Bool.false_eq_true, if_false, reg_setReg]
  refine ⟨?_, ?_, ?_, rfl, waits, ?_, cmds'.trans cmds, ctxs'.trans ctxs⟩
  · exact (reg .DEVICE_HOST_CFG (by decide) (by decide)).trans config
  · exact (reg .DEVICE_BOOT_SRC (by decide) (by decide)).trans source
  · exact (reg .CONTEXT_IDENTITY_OK (by decide) (by decide)).trans checked
  · exact (reg .RESET_DEVICE_STATE (by decide) (by decide)).trans state

/-! BIST (R470) -/

section
variable {r : Reg} {n x : Nat} (far : FarReg r n x)
include far

theorem farView_publishLead (kept : r ∉ blobRegs) (c : Chip) {p : Nat} (hp : p < 16) : farView r n x (c.publishLead p) = farView r n x c :=
  congrArg Prod.fst (bootView_publishLead far kept c hp)

theorem farView_publishEngines (other : r ≠ .SCHED_ENGINES_WORKING) (c : Chip) {p : Nat} (hp : p < 16) :
    farView r n x (c.publishEngines p) = farView r n x c := by
  obtain ⟨-, hn, hx⟩ := far
  unfold publishEngines farView
  rw [reg_setReg_far c _ (Ne.symm other) (by omega) hn (by decide) hx]
  rfl

theorem farView_bistOver (c : Chip) : farView r n x c.bistOver = farView r n x c := by
  have marked : ∀ (d : Chip) p, farView r n x (if d.reg .RESET_PART_STATE 0 p = 2 then d.modPart p fun s => { s with bistEnd := d.now } else d) =
      farView r n x d := fun d p => Blind.ite rfl rfl
  have stated : ∀ (d : Chip) m, farView r n x { d with mram := m } = farView r n x d := fun _ _ => rfl
  unfold bistOver
  dsimp only
  split
  · rw [stated, farView_setReg far _ _ _ _ _ (by decide) (by decide) (by decide)]
    exact Blind.foldl (f := farView r n x) (fun p _ d => marked d p) c
  · rfl

end

/-- The engines that BIST found, by group. -/
def physShown (c : Chip) (p : Nat) (phys : List Nat) : Chip :=
  (List.range 8).foldl (fun c g => c.setReg .ENGINES_PHYS_OK p g (phys.getD g 0)) c

theorem physShown_reg (c : Chip) (p : Nat) (phys : List Nat) {k : Nat} (hk : k < 8) :
    (c.physShown p phys).reg .ENGINES_PHYS_OK p k = trunc 34 (phys.getD k 0) := by
  have one : ∀ (l : List Nat) (d : Chip), k ∈ l ∨ d.reg .ENGINES_PHYS_OK p k = trunc 34 (phys.getD k 0) →
      (l.foldl (fun c g => c.setReg .ENGINES_PHYS_OK p g (phys.getD g 0)) d).reg .ENGINES_PHYS_OK p k = trunc 34 (phys.getD k 0) := by
    intro l
    induction l with
    | nil => exact fun d shown => shown.resolve_left List.not_mem_nil
    | cons g r ih =>
      intro d shown
      refine ih _ ?_
      by_cases same : g = k
      · subst same
        exact .inr (RegFile.get_set_same _ _ _ _ _)
      · refine (shown.imp (fun member => (List.mem_cons.mp member).resolve_left (Ne.symm same)) fun before => ?_)
        exact (RegFile.get_set_key _ _ (by simp only [Reg.key]; omega)).trans before
  exact one _ c (.inl (List.mem_range.mpr hk))

/-- The block with what BIST found of a partition's units. -/
def unitsShown (c : Chip) (p vac spares cores : Nat) (miobor : Bool) (mules banks : Nat) (bad : Bool) (failed : Nat) : Chip :=
  let c := (c.setReg .PARTITION_ENGINES_VACANT p 0 vac).setReg .PARTITION_SPARES p 0 spares
  let c := (c.setReg .PARTITION_CORES_VACANT p 0 cores).setReg .PARTITION_MIOBOR_VACANT p 0 (ofBool miobor)
  let c := (c.setReg .PARTITION_MULES_VACANT p 0 mules).setReg .PARTITION_BANKS_VACANT p 0 banks
  let c := (c.setReg .PARTITION_DEGRADED p 0 (ofBool bad)).setReg .ENGINES_LAST_BIST_AT p 0 c.now
  (c.count .ENGINES_BIST_RUNS p).countN .ENGINES_BIST_ENGINE_FAILS p failed

theorem bistMap_eq (c : Chip) {p : Nat} (hp : p < 16) (phys : List Nat) (cores : Nat) (miobor : Bool) (mules banks : Nat) :
    ∃ (d : Chip) (vac spares : Nat) (bad : Bool) (failed : Nat),
      (∀ r x, r.desc.page ∈ farPages → x < 64 → d.reg r p x = (c.physShown p phys).reg r p x) ∧
        c.bistMap p phys cores miobor mules banks = d.unitsShown p vac spares cores miobor mules banks bad failed := by
  refine ⟨_, _, _, _, _, fun r x page hx => ?_, by unfold bistMap; rfl⟩
  have b := farView_blind (r := r) (n := p) (x := x) ⟨page, by omega, hx⟩
  have logged := fun (l : List Nat) (e : Chip) => Blind.foldl (f := farView r p x) (g := fun c f => c.henPart p 0x1A01 [f]) (l := l)
    (fun f _ d => b.henPart d (nearReg_stream hp) nearReg_hen 0x1A01 [f] false) e
  exact congrArg (fun v => v.2.2.2.2.2) (logged _ ((c.physShown p phys).modPart p _))

theorem unitsShown_spec (c : Chip) {p cores mules banks : Nat} (hp : p < 16) (vac spares : Nat) (miobor bad : Bool) (failed : Nat)
    (hcores : cores < 16) (hmules : mules < 15) (hbanks : banks < 2 ^ 32) :
    let d := c.unitsShown p vac spares cores miobor mules banks bad failed
    d.reg .PARTITION_CORES_VACANT p = cores ∧ d.reg .PARTITION_MIOBOR_VACANT p = ofBool miobor ∧ d.reg .PARTITION_MULES_VACANT p = mules ∧
      d.reg .PARTITION_BANKS_VACANT p = banks ∧ (∀ k < 8, d.reg .ENGINES_PHYS_OK p k = c.reg .ENGINES_PHYS_OK p k) ∧
      d.reg .ENGINES_BIST_RUNS p = countUp (c.reg .ENGINES_BIST_RUNS p) := by
  have cores' : trunc (Reg.width .PARTITION_CORES_VACANT) cores = cores := Nat.mod_eq_of_lt hcores
  have miobor' : trunc (Reg.width .PARTITION_MIOBOR_VACANT) (ofBool miobor) = ofBool miobor := by cases miobor <;> rfl
  have mules' : trunc (Reg.width .PARTITION_MULES_VACANT) mules = mules := Nat.mod_eq_of_lt (by change mules < 2 ^ 4; omega)
  have banks' : trunc (Reg.width .PARTITION_BANKS_VACANT) banks = banks := Nat.mod_eq_of_lt hbanks
  refine ⟨?_, ?_, ?_, ?_, fun k hk => ?_, ?_⟩
  · simp [unitsShown, cores']
  · simp [unitsShown, miobor']
  · simp [unitsShown, mules']
  · simp [unitsShown, banks']
  · have far : ∀ (e : Chip) r v, r ≠ .ENGINES_PHYS_OK → (e.setReg r p 0 v).reg .ENGINES_PHYS_OK p k = e.reg .ENGINES_PHYS_OK p k :=
      fun e r v other => reg_setReg_far e v other (by omega) (by omega) (by decide) (by omega)
    have counted : ∀ (e : Chip) r m, r ≠ .ENGINES_PHYS_OK → (e.countN r p m).reg .ENGINES_PHYS_OK p k = e.reg .ENGINES_PHYS_OK p k :=
      fun e r m other => far e r _ other
    simp (disch := decide) only [unitsShown, count, far, counted]
  · unfold unitsShown
    dsimp only
    rw [reg_countN, if_neg (by decide), reg_count_one _ p rfl]
    simp

theorem bistDone_mapped {c : Chip} {p cores mules banks : Nat} {phys : List Nat} {miobor : Bool} (resets : c.reg .RESET_PART_STATE 0 p = 2)
    (inUse : c.g9Out = false) (calm : c.bistCalm p = true) (working : mules < 15) :
    c.bistDone p phys cores miobor mules banks =
      ((((((c.bistMap p phys cores miobor mules banks).modPart p fun s => { s with bist := false, bistEnd := c.now }).partState p 2
        6).publishLead p).publishEngines p).bistOver) := by
  unfold bistDone
  simp only [resets, inUse, calm, show ¬mules % 16 = 15 by omega, show ¬(2 = 3) by decide, decide_true, Bool.true_or, Bool.not_true,
    Bool.or_self, Bool.false_eq_true, if_false]

theorem partState_modPart (c : Chip) (p st stage : Nat) (g : Part → Part) (r : Reg) (n x : Nat) :
    ((c.modPart p g).partState p st stage).reg r n x = (c.partState p st stage).reg r n x := rfl

/-- What the end of a partition's BIST leaves in a register that the units found do not show. -/
theorem bistDone_reg {c : Chip} {p cores mules banks : Nat} {phys : List Nat} {miobor : Bool} (hp : p < 16)
    (resets : c.reg .RESET_PART_STATE 0 p = 2) (inUse : c.g9Out = false) (calm : c.bistCalm p = true) (working : mules < 15) {r : Reg}
    {n x : Nat} (far : FarReg r n x) (other : r ∉ .SCHED_ENGINES_WORKING :: blobRegs) :
    (c.bistDone p phys cores miobor mules banks).reg r n x = ((c.bistMap p phys cores miobor mules banks).partState p 2 6).reg r n x := by
  obtain ⟨engines, blob⟩ := not_or.mp (mt List.mem_cons.mpr other)
  rw [bistDone_mapped resets inUse calm working]
  generalize c.bistMap p phys cores miobor mules banks = d
  have view := fun e : Chip => (farView_bistOver far _).trans ((farView_publishEngines far engines _ hp).trans (farView_publishLead far blob e hp))
  simp only [farView, Prod.mk.injEq] at view
  obtain ⟨-, -, -, -, -, same⟩ := view ((d.modPart p fun s => { s with bist := false, bistEnd := c.now }).partState p 2 6)
  rw [same, partState_modPart]

theorem deviceReady_waits {c : Chip} {p : Nat} (hp : p < 16) (resets : c.reg .RESET_PART_STATE 0 p = 2) : c.deviceReady = c := by
  refine if_pos ?_
  have waits : allParts.all (fun q => decide (c.reg .RESET_PART_STATE 0 q ≠ 2)) = false :=
    List.all_eq_false.mpr ⟨p, List.mem_range.mpr hp, by simp [resets]⟩
  rw [waits]
  exact Bool.or_true _

theorem bistDone_spec {c : Chip} {p cores mules banks k : Nat} {phys : List Nat} {miobor : Bool} (hp : p < 16) (hk : k < 8)
    (resets : c.reg .RESET_PART_STATE 0 p = 2) (inUse : c.g9Out = false) (calm : c.bistCalm p = true) (hcores : cores < 16)
    (hmules : mules < 15) (hbanks : banks < 2 ^ 32) :
    let d := (c.bistDone p phys cores miobor mules banks).deviceReady
    d.reg .RESET_PART_STATE 0 p = 2 ∧ d.reg .RESET_STAGE 0 p = 6 ∧ d.reg .PARTITION_CORES_VACANT p = cores ∧
      d.reg .PARTITION_MIOBOR_VACANT p = ofBool miobor ∧ d.reg .PARTITION_MULES_VACANT p = mules ∧ d.reg .PARTITION_BANKS_VACANT p = banks ∧
      d.reg .ENGINES_PHYS_OK p k = trunc 34 (phys.getD k 0) ∧ d.reg .ENGINES_BIST_RUNS p = countUp (c.reg .ENGINES_BIST_RUNS p) := by
  have read := fun (r : Reg) (n x : Nat) => bistDone_reg (phys := phys) (miobor := miobor) (cores := cores) (banks := banks) hp resets inUse calm
    hmules (r := r) (n := n) (x := x)
  have state := (read .RESET_PART_STATE 0 p ⟨by decide, by decide, by omega⟩ (by decide)).trans
    (show ((c.bistMap p phys cores miobor mules banks).partState p 2 6).reg .RESET_PART_STATE 0 p = 2 by simp [partState]; rfl)
  have stage := (read .RESET_STAGE 0 p ⟨by decide, by decide, by omega⟩ (by decide)).trans
    (show ((c.bistMap p phys cores miobor mules banks).partState p 2 6).reg .RESET_STAGE 0 p = 6 by simp [partState]; rfl)
  rw [deviceReady_waits hp state]
  obtain ⟨d, vac, spares, bad, failed, before, mapped⟩ := bistMap_eq c hp phys cores miobor mules banks
  obtain ⟨cores', miobor', mules', banks', physical, runs⟩ := unitsShown_spec d hp vac spares miobor bad failed hcores hmules hbanks
  have units : ∀ (r : Reg) x, r.desc.page ∈ farPages → r.desc.page ≠ .RESET → r ∉ .SCHED_ENGINES_WORKING :: blobRegs → x < 64 →
      (c.bistDone p phys cores miobor mules banks).reg r p x =
        (d.unitsShown p vac spares cores miobor mules banks bad failed).reg r p x := fun r x page apart other hx => by
    rw [read r p x ⟨page, by omega, hx⟩ other, mapped, partState]
    have stage' : Reg.RESET_STAGE ≠ r := fun same => apart (same ▸ rfl)
    have state' : Reg.RESET_PART_STATE ≠ r := fun same => apart (same ▸ rfl)
    rw [reg_setReg_far _ _ stage' (by decide) (by omega) (by omega) hx, reg_setReg_far _ _ state' (by decide) (by omega) (by omega) hx]
  refine ⟨state, stage, ?_, ?_, ?_, ?_, ?_, ?_⟩
  · exact (units _ 0 (by decide) (by decide) (by decide) (by decide)).trans cores'
  · exact (units _ 0 (by decide) (by decide) (by decide) (by decide)).trans miobor'
  · exact (units _ 0 (by decide) (by decide) (by decide) (by decide)).trans mules'
  · exact (units _ 0 (by decide) (by decide) (by decide) (by decide)).trans banks'
  · exact (units _ k (by decide) (by decide) (by decide) (by omega)).trans ((physical k hk).trans
      ((before _ k (by decide) (by omega)).trans (c.physShown_reg p phys hk)))
  · refine (units _ 0 (by decide) (by decide) (by decide) (by decide)).trans (runs.trans (congrArg countUp ?_))
    refine (before _ 0 (by decide) (by decide)).trans ?_
    exact Blind.foldl (f := fun e => e.reg .ENGINES_BIST_RUNS p) (fun g member e =>
      reg_setReg_far e _ (by decide) (by omega) (by omega) (lt_trans (List.mem_range.mp member) (by decide)) (by decide)) c

end Chip

/-- A command that works on the block and on the open pairs apart does its work on the block as it finds it. -/
theorem State.runPairs_both (s : State) (t : Nat) (f : Chip → Chip) (g : List HostPair → List HostPair) :
    (s.runPairs t fun c ps => (f c, g ps)).chip = f (s.found t) := rfl

/-- Settles O55: each step of bring-up by the lemma about its work. -/
theorem bringUp : Obligations.BringUp := by
  unfold Obligations.BringUp State.reg
  refine ⟨?passed, ?refused, ?whole, ?named, ?verified, ?rejected, ?booted, ?tested⟩
  case passed =>
    intro t i l x s reached read good
    subst read
    refine ⟨_, rfl, ?_⟩
    rw [State.runPairs_reached reached]
    exact Chip.blobWrite_passed (c := s.found t) good
  case refused =>
    intro t i s reached bad
    refine ⟨_, rfl, ?_⟩
    rw [State.runPairs_reached reached]
    exact Chip.blobWrite_refused (c := s.found t) bad
  case whole =>
    intro t i n l s reached ⟨size, read⟩ ⟨header, whole, bad⟩
    subst size
    subst read
    refine ⟨_, rfl, ?_⟩
    rw [State.runPairs_reached reached]
    obtain ⟨-, kept⟩ := Chip.blobWrite_refused (c := s.found t) bad
    exact ⟨Chip.blobWrite_whole (c := s.found t) bad header whole, kept⟩
  case named =>
    intro t i s reached waits
    refine ⟨_, rfl, ?_⟩
    have taken : (s.found t).fwGo i = { s.found t with fwFrom := some i } := if_pos waits
    rw [State.runPairs_reached reached, taken]
  case verified =>
    intro t i l m s stage from_ ⟨read, shape⟩
    subst read
    refine ⟨_, rfl, ?_⟩
    rw [State.run_found]
    exact Chip.fwVerified_passed (c := s.found t) stage from_ m shape
  case rejected =>
    intro t i m s stage from_
    refine ⟨_, rfl, ?_⟩
    rw [State.run_found]
    exact Chip.fwVerified_failed (c := s.found t) stage from_ m
  case booted =>
    intro t cfg src b s ⟨hcfg, hsrc⟩ inUse
    obtain ⟨config, source, checked, stage, waits, state, cmds, ctxs⟩ := (s.found t).coldBoot_spec hcfg hsrc b inUse
    refine ⟨_, rfl, ?_⟩
    rw [State.runPairs_both]
    exact ⟨config, source, checked, stage, waits, state, rfl, cmds, ctxs⟩
  case tested =>
    intro t p cores mules banks k phys b s ⟨hp, hk⟩ ⟨resets, inUse⟩ calm ⟨hcores, hmules, hbanks⟩
    refine ⟨_, rfl, ?_⟩
    rw [State.run_found]
    exact Chip.bistDone_spec (c := s.found t) hp hk resets inUse calm hcores hmules hbanks

end Sys2Proof.Machine
end

section
/-! SUPPORT. A device reset, seen from the count of the host's resets, and a lead partition that no G9 has (R420, R426). -/

namespace Sys2Proof

/-- The entries that a test on keys keeps read as before. -/
theorem SMap.get_filter_key {α : Type} (d : α) (m : SMap α) {keep : Nat → Bool} {k : Nat} (kept : keep k = true) :
    SMap.get d (m.filter fun e => keep e.1) k = SMap.get d m k := by
  unfold SMap.get
  congr 1
  induction m with
  | nil => rfl
  | cons e r ih =>
    obtain ⟨a, v⟩ := e
    by_cases here : a = k
    · subst here
      simp [kept, SMap.find?]
    · rw [List.filter_cons]
      split <;> simp [SMap.find?, here, ih]

namespace Machine

/-- Two fields at places of one key are one: what is written to the first is read in the second. -/
theorem RegFile.get_set_alias (f : RegFile) {r r' : Reg} {i i' x x' : Nat} (v : Nat) (one : r.key i x = r'.key i' x')
    (reset : r.desc.reset = r'.desc.reset) : (f.set r i x v).get r' i' x' = trunc r.width v := by
  rw [RegFile.get, RegFile.set, ← one, ← reset, SMap.get_set_same]

namespace Chip

/-! The dossier (R421) -/

/-- The registers that a dossier may move. -/
def DossierAt (r : Reg) (i : Nat) : Prop := r ∈ .HEN_DOSSIERS :: .HEN_DOSSIERS_TRUNCATED :: henRegs ∧ i = 0

theorem dossier_keeps {β : Type} {f : Chip → β} (b : Blind DossierAt f) (free : ∀ d k, f { d with freeCtr := k } = f d) (c : Chip)
    (code part cause bound : Nat) (hidden : Bool) : f (c.dossier code part cause bound hidden) = f c := by
  have hen : ∀ r ∈ henRegs, DossierAt r 0 := fun r one => ⟨List.mem_cons_of_mem _ (List.mem_cons_of_mem _ one), rfl⟩
  have recorded : ∀ d k src body, f ((henVar { d with freeCtr := k } src code part hidden body).count .HEN_DOSSIERS) = f d := fun d k src body =>
    (b.count _ _ 0 ⟨by decide, rfl⟩).trans ((b.henVar _ hen src code part hidden body).trans (free d k))
  have drawn : ∀ d : Chip, f d.drawn = f d := fun d => free d _
  have four := (drawn _).trans ((drawn _).trans ((drawn _).trans (drawn c)))
  unfold dossier
  exact Blind.ite ((b.count _ _ 0 ⟨by decide, rfl⟩).trans ((recorded _ _ _ _).trans four)) ((recorded _ _ _ _).trans four)

/-- A register at a place whose key is none of a dossier's stays, even past the last page that there is. -/
theorem dossier_reg {r : Reg} {i : Nat} (apart : ∀ r' ∈ .HEN_DOSSIERS :: .HEN_DOSSIERS_TRUNCATED :: henRegs, r'.key 0 0 ≠ r.key i 0) (c : Chip)
    (code part cause bound : Nat) (hidden : Bool) : (c.dossier code part cause bound hidden).reg r i = c.reg r i := by
  refine dossier_keeps (f := fun d => d.reg r i) ⟨fun d r' j v one => ?_, fun _ _ _ _ => rfl, fun _ _ => rfl, fun _ _ => rfl⟩
    (fun _ _ => rfl) c code part cause bound hidden
  obtain ⟨one, rfl⟩ := one
  exact RegFile.get_set_key _ _ (apart r' one)

/-- What the lead needs of a partition to send, and the standby. -/
def laneView (p : Nat) (c : Chip) : LinkEnd × Bool × Nat := ((c.part p).link, (c.part p).portDown, c.standby)

theorem dossier_lanes (p : Nat) (c : Chip) (code part cause bound : Nat) (hidden : Bool) :
    laneView p (c.dossier code part cause bound hidden) = laneView p c := by
  refine dossier_keeps ⟨fun _ _ _ _ _ => rfl, fun d q nat x => ?_, fun _ _ => rfl, fun _ _ => rfl⟩ (fun _ _ => rfl) c code part cause bound hidden
  unfold setStream laneView
  rw [part_modPart]
  split
  · next same => subst same; rfl
  · rfl

/-! The G9's own state goes out (R426) -/

/-- A partition whose index has no COUNTER left loses its control port instead of sending (R327). -/
theorem psend_spent {c : Chip} {p dst : Nat} {m : Msg} (lanes : (c.part p).portDown = false) (blob : c.reg .BOOT_BLOB_DEFAULTED = 0)
    (spine : 0x85 < m.type) (spent : (c.part p).link.spent 0 = true) : c.psend p dst m = c.controlPortDown p := by
  have other : ¬((0x40 ≤ m.type ∧ m.type ≤ 0x45) ∨ (0x80 ≤ m.type ∧ m.type ≤ 0x85)) := by omega
  unfold psend
  rw [if_neg (by rw [lanes, blob]; rintro (no | ⟨no, -⟩) <;> cases no)]
  dsimp only
  rw [if_neg other, if_pos spent]

theorem sendOwnState_spent {c : Chip} {p : Nat} (lead : c.leadPart = p) (passed : c.bypassed p = false) (keyed : c.reg .LINKSEC_KEYED p = 1)
    (blob : c.reg .BOOT_BLOB_DEFAULTED = 0) (manager : c.reg .DEVICE_ROLE = 0) (standby : c.standby ≠ 0xFF)
    (lanes : (c.part p).portDown = false) (spent : (c.part p).link.spent 0 = true) (st cause : Nat) :
    ∃ d : Chip, c.sendOwnState st cause = d.setReg .LINKSEC_KEYED p 0 0 := by
  have up : c.peerUp = true := by rw [peerUp, lead, passed, keyed, blob]; rfl
  have governs : c.isManager = true := by rw [isManager, manager]; rfl
  have asked : c.sendOwnState st cause = c.pask p (leadFidOf c.standby) 0x8C [c.clusterIndex, st, cause, c.now] := by
    rw [← lead]
    simp only [sendOwnState, up, governs, Bool.not_true, Bool.false_eq_true, if_false, if_true, standby, sendState]
  rw [asked]
  exact ⟨_, psend_spent (by rw [part_modPart_same]; exact lanes) blob (show 0x85 < 0x8C by decide) (by rw [part_modPart_same]; exact spent)⟩

/-! The flush (R433) -/

section
variable {r : Reg} (other : r.desc.page ≠ .HEN) (c : Chip)
include other

theorem reg_setReg_hen (r' : Reg) (v : Nat) (hen : r'.desc.page = .HEN) : (c.setReg r' 0 0 v).reg r = c.reg r := by
  rw [reg_setReg, if_neg]
  rintro rfl
  exact other hen

theorem reg_countN_hen (r' : Reg) (n : Nat) (hen : r'.desc.page = .HEN) : (c.countN r' 0 n).reg r = c.reg r := reg_setReg_hen other c r' _ hen

theorem reg_flushEnded (done ticks bytes left : Nat) : (c.flushEnded done ticks bytes left).reg r = c.reg r := by
  unfold flushEnded
  simp (disch := decide) only [reg_countN_hen other, reg_setReg_hen other]
  rfl

theorem reg_flushRecord (code : Nat) (l : List Nat) : (c.henDev code l).reg r = c.reg r :=
  reg_henDev c code l 19 (fun one => other ((by decide : ∀ r ∈ henRegs, r.desc.page = .HEN) r one)) (by decide) (by decide)

theorem reg_flushBegin (reason : Nat) (from_ : Option Nat) : (c.flushBegin reason from_).reg r = c.reg r := by
  have changed : ∀ (d : Chip) (g : Hen → Hen), (d.modHen g).reg r = d.reg r := fun _ _ => rfl
  have placed : ∀ (d : Chip) (k : Nat) (f : FlushImage), (d.setSlot k f).reg r = d.reg r := fun _ _ _ => rfl
  unfold flushBegin
  dsimp only
  split
  · rfl
  · generalize (if c.flushPort.isSome then 0 else 1) = d
    rw [apply_ite fun e : Chip => e.reg r, reg_writeHost, placed, ite_self]
    simp (disch := decide) only [count, reg_countN_hen other, reg_setReg_hen other, changed, reg_flushRecord other]

theorem reg_flushDone : c.flushDone.reg r = c.reg r := by
  have ended : ∀ (w : Chip) (done ticks bytes left : Nat) (l : List Nat) (f : Flush), w.reg r = c.reg r →
      (match ((w.flushEnded done ticks bytes left).henDev 0x0406 l).hen.again with
        | none => (w.flushEnded done ticks bytes left).henDev 0x0406 l
        | some r => (((w.flushEnded done ticks bytes left).henDev 0x0406 l).modHen fun h => { h with again := none }).flushBegin r
            (some f.next)).reg r = c.reg r := fun w done ticks bytes left l f before => by
    have recorded := (reg_flushRecord other _ 0x0406 l).trans ((reg_flushEnded other w done ticks bytes left).trans before)
    split
    · exact recorded
    · exact (reg_flushBegin other _ _ _).trans recorded
  have drawn : ∀ (x : Bool) (n : Nat), Chip.reg (if x then { c with freeCtr := n } else c) r = c.reg r := fun x n => by cases x <;> rfl
  unfold flushDone
  split
  · rfl
  · next f under =>
    refine ended _ _ _ _ _ _ f ?_
    split
    · exact (reg_writeHost _ _ _ _ _ _ _).trans (drawn _ _)
    · exact drawn _ _

theorem reg_flushed (reason : Nat) : (c.flushStart reason).flushSettle.reg r = c.reg r := by
  have started : (c.flushStart reason).reg r = c.reg r := Blind.ite (f := fun d => d.reg r) rfl (reg_flushBegin other c reason none)
  have settled : ∀ d : Chip, Chip.reg (match d.hen.flush with | some f => if f.dest = 0 then d.flushDone else d | none => d) r = d.reg r :=
    fun d => by
      split
      · exact Blind.ite (f := fun d => d.reg r) (reg_flushDone other d) rfl
      · rfl
  exact (settled _).trans ((settled _).trans started)

end

/-! The reset itself (R331, R420) -/

/-- A partition as a device reset asserts its reset, those of `out` apart. -/
def partAsserted (c : Chip) (cause : Nat) (out : List Nat) (p : Nat) : Chip :=
  let c := c.setReg .RING_BYPASS (p / 4) 0 (setBit (c.reg .RING_BYPASS (p / 4)) (p % 4) true)
  let c := c.setReg .DEVICE_IN_SERVICE 0 0 (setBit (c.reg .DEVICE_IN_SERVICE) p false)
  if out.contains p then c
  else ((c.partState p 2 2).setReg .PARTITION_LAST_CAUSE p 0 cause).setReg .PARTITION_LAST_RESET_AT p 0 c.now

theorem wipe_eq (c : Chip) (cause : Nat) :
    ∃ w : Chip, w.regs.vals = c.regs.vals.filter (fun e => keptKey e.1) ∧
      c.wipe cause =
        let d := [0, 1].foldl (fun c i => c.setReg .CONTEXT_FW_VER i 0 c.fwVersion)
          (allParts.foldl (fun d p => d.partAsserted cause (allParts.filter c.outOfService) p) ([0, 1].foldl (fun c hp => c.portReset hp) w))
        if (c.ctxs.filter fun e => e.2.state ≠ 0).length = 0 then d else d.henDevAny 0x3804 := by
  unfold wipe
  exact ⟨_, rfl, rfl⟩

section
variable {r : Reg} (page : r.desc.page = .RESET)
include page

theorem reg_setReg_apart (c : Chip) {r' : Reg} {i : Nat} (v : Nat) (other : r'.desc.page ≠ .RESET) (hi : i < 4096) :
    (c.setReg r' i 0 v).reg r = c.reg r :=
  reg_setReg_far c v (fun same => other (same ▸ page)) hi (by decide) (by decide) (by decide)

omit page in
theorem reg_partState_apart (states : r ≠ .RESET_PART_STATE ∧ r ≠ .RESET_STAGE) (c : Chip) {p : Nat} (hp : p < 16) (st stage : Nat) :
    (c.partState p st stage).reg r = c.reg r := by
  obtain ⟨state, shown⟩ := states
  unfold partState
  rw [reg_setReg_far _ _ (Ne.symm shown) (by decide) (by decide) (by omega) (by decide)]
  exact reg_setReg_far c _ (Ne.symm state) (by decide) (by decide) (by omega) (by decide)

theorem reg_portReset (c : Chip) {hp : Nat} (small : hp < 4096) : (c.portReset hp).reg r = c.reg r := by
  unfold portReset
  dsimp only
  rw [reg_setReg_apart page _ _ (by decide) small, reg_setReg_apart page _ _ (by decide) small, reg_setReg_apart page _ _ (by decide) small]
  rfl

theorem reg_partAsserted (states : r ≠ .RESET_PART_STATE ∧ r ≠ .RESET_STAGE) (c : Chip) (cause : Nat) (out : List Nat) {p : Nat} (hp : p < 16) :
    (c.partAsserted cause out p).reg r = c.reg r := by
  have bypassed : ∀ v w, ((c.setReg .RING_BYPASS (p / 4) 0 v).setReg .DEVICE_IN_SERVICE 0 0 w).reg r = c.reg r := fun v w => by
    rw [reg_setReg_apart page _ _ (by decide) (by decide), reg_setReg_apart page _ _ (by decide) (by omega)]
  unfold partAsserted
  dsimp only
  split
  · exact bypassed _ _
  · rw [reg_setReg_apart page _ _ (by decide) (by omega), reg_setReg_apart page _ _ (by decide) (by omega), reg_partState_apart states _ hp]
    exact bypassed _ _

/-- A field of the RESET page that tells of no partition outlives the reset. -/
theorem reg_wipe (states : r ≠ .RESET_PART_STATE ∧ r ≠ .RESET_STAGE) (kept : keptKey (r.key 0 0) = true) (c : Chip) (cause : Nat) :
    (c.wipe cause).reg r = c.reg r := by
  have recorded : ∀ d : Chip, (d.henDevAny 0x3804).reg r = d.reg r := fun d =>
    reg_henDevAny _ _ fun one => absurd page ((by decide : ∀ r ∈ henRegs, r.desc.page ≠ .RESET) r one)
  have two : ∀ i ∈ [0, 1], i < 4096 := by decide
  obtain ⟨w, filtered, wiped⟩ := wipe_eq c cause
  have first : w.reg r = c.reg r := by rw [reg, RegFile.get, filtered, SMap.get_filter_key _ _ kept, ← RegFile.get, ← reg]
  rw [wiped, apply_ite fun d : Chip => d.reg r, recorded, ite_self, ← first]
  refine (Blind.foldl (f := fun d => d.reg r) (fun i one d => reg_setReg_apart page d _ (by decide) (two i one)) _).trans ?_
  refine (Blind.foldl (f := fun d => d.reg r) (fun p one d => reg_partAsserted page states d _ _ (List.mem_range.mp one)) _).trans ?_
  exact Blind.foldl (f := fun d => d.reg r) (fun hp one d => reg_portReset page d (two hp one)) _

end

theorem kept_resets : keptKey (Reg.RESET_DEVICE_RESETS_HOST.key 0 0) = true := by decide

/-- The blob is read again and the time tree is built: the count of the host's resets stays. -/
theorem resets_booted (c : Chip) : (c.readBlob.publishTime).reg .RESET_DEVICE_RESETS_HOST = c.reg .RESET_DEVICE_RESETS_HOST := by
  have far : FarReg .RESET_DEVICE_RESETS_HOST 0 0 := ⟨by decide, by decide, by decide⟩
  have kept := (bootView_publishTime far c.readBlob).trans (bootView_readBlob far (by decide) c)
  simp only [bootView, farView, Prod.mk.injEq] at kept
  obtain ⟨⟨-, -, -, -, -, same⟩, -⟩ := kept
  exact same

/-- After the G9's own state has gone out, a device reset leaves the count of the host's resets. -/
theorem resets_deviceDown (c : Chip) (kind cause bound : Nat) :
    (c.deviceDown kind cause bound).reg .RESET_DEVICE_RESETS_HOST =
      ((c.dossier 0x4002 0xFF cause bound (allParts.any c.locked)).sendOwnState 0 cause).reg .RESET_DEVICE_RESETS_HOST := by
  have verified : ∀ (d : Chip) v, Chip.reg { d with verifyDue := v } .RESET_DEVICE_RESETS_HOST = d.reg .RESET_DEVICE_RESETS_HOST := fun _ _ => rfl
  unfold deviceDown
  dsimp only
  rw [resets_booted, verified]
  simp only [reg_setReg, reduceCtorEq, if_false]
  rw [reg_wipe rfl (by decide) kept_resets, reg_flushed (by decide), reg_flushRecord (by decide)]

theorem resets_deviceReset {c : Chip} (inUse : c.g9Out = false) {kind : Nat} (one : kind = 1 ∨ kind = 2) (cfg src : Nat) :
    (c.deviceReset kind 1 cfg src).reg .RESET_DEVICE_RESETS_HOST =
      ((c.count .RESET_DEVICE_RESETS_HOST).deviceDown kind 1 2000000).reg .RESET_DEVICE_RESETS_HOST := by
  have strapped : ∀ d : Chip, (d.setStraps cfg src).reg .RESET_DEVICE_RESETS_HOST = d.reg .RESET_DEVICE_RESETS_HOST := fun d => by
    simp [setStraps]
  have called : ¬(decide (1 ≠ 1) || !(kind = 1 || kind = 2) || c.g9Out) = true := by
    rcases one with rfl | rfl <;> simp [inUse]
  unfold deviceReset
  rw [if_neg (by decide), if_neg called]
  dsimp only
  generalize (c.count .RESET_DEVICE_RESETS_HOST).deviceDown kind 1 2000000 = d
  exact Blind.ite (f := fun d => d.reg .RESET_DEVICE_RESETS_HOST) (strapped d) rfl

end Chip

/-! A lead partition that no G9 has (O52) -/

/-- A partition that no G9 has: its KEYED is at the key of RESETS_HOST. -/
def farLead : Nat := (Reg.RESET_DEVICE_RESETS_HOST.ctorIdx - Reg.LINKSEC_KEYED.ctorIdx) * 4096

/-- The manager, with that partition for its lead and a standby; the index of its control port has no COUNTER left. -/
def farLeadState : State :=
  { chip := { regs := { vals := [(Reg.key .DEVICE_LEAD 0 0, farLead)] }
              standby := 0
              parts := [(farLead, { link := { tx := [(0, 2 ^ 40)] } })] } }

/-- The block of this state when the reset begins: the host's reset is counted, and a dossier of it is captured. -/
def farLeadReported (hidden : Bool) : Chip :=
  ((farLeadState.found 0).count .RESET_DEVICE_RESETS_HOST).dossier 0x4002 0xFF 1 2000000 hidden

theorem farLeadReported_reg (hidden : Bool) {r : Reg} {i : Nat}
    (apart : ∀ r' ∈ .HEN_DOSSIERS :: .HEN_DOSSIERS_TRUNCATED :: henRegs, r'.key 0 0 ≠ r.key i 0) :
    (farLeadReported hidden).reg r i = ((farLeadState.found 0).count .RESET_DEVICE_RESETS_HOST).reg r i :=
  Chip.dossier_reg apart _ _ _ _ _ _

/-- The own state does not go out: the port goes down, and its KEYED is cleared. -/
theorem farLeadReported_sent (hidden : Bool) :
    ((farLeadReported hidden).sendOwnState 0 1).reg .RESET_DEVICE_RESETS_HOST = 0 := by
  have lead : (farLeadReported hidden).leadPart = farLead := (farLeadReported_reg hidden (by decide)).trans (by decide)
  have passed : (farLeadReported hidden).bypassed farLead = false := by
    rw [Chip.bypassed, farLeadReported_reg hidden (by decide)]
    decide
  have keyed : (farLeadReported hidden).reg .LINKSEC_KEYED farLead = 1 := (farLeadReported_reg hidden (by decide)).trans (by decide)
  have blob : (farLeadReported hidden).reg .BOOT_BLOB_DEFAULTED = 0 := (farLeadReported_reg hidden (by decide)).trans (by decide)
  have manager : (farLeadReported hidden).reg .DEVICE_ROLE = 0 := (farLeadReported_reg hidden (by decide)).trans (by decide)
  have lanes : Chip.laneView farLead (farLeadReported hidden) = ({ tx := [(0, 2 ^ 40)] }, false, 0) :=
    (Chip.dossier_lanes _ _ _ _ _ _ _).trans (by decide)
  simp only [Chip.laneView, Prod.mk.injEq] at lanes
  obtain ⟨link, up, standby⟩ := lanes
  obtain ⟨d, sent⟩ := Chip.sendOwnState_spent lead passed keyed blob manager (by rw [standby]; decide) up (by rw [link]; decide) 0 1
  rw [sent]
  exact RegFile.get_set_alias _ _ (by decide) (by decide)

theorem farLead_resets (cfg src : Nat) : ((farLeadState.found 0).deviceReset 1 1 cfg src).reg .RESET_DEVICE_RESETS_HOST = 0 := by
  rw [Chip.resets_deviceReset (by decide) (.inl rfl), Chip.resets_deviceDown]
  exact farLeadReported_sent _

/-- Refutes O52, in its clause about a device reset: no premise bounds the lead partition, whose number is read. KEYED of this lead and RESETS_HOST
are one register; the reset counts there, and the port of the lead, which has no COUNTER left, then goes down and clears it. -/
theorem not_deviceResetsAndCluster : ¬ Obligations.DeviceResetsAndCluster := by
  unfold Obligations.DeviceResetsAndCluster
  rintro ⟨resets, -⟩
  obtain ⟨s', ran, -, -, counted, -⟩ := resets 0 1 0 0 farLeadState (.inl rfl) (by decide)
  cases ran
  have before : countUp (farLeadState.reg .RESET_DEVICE_RESETS_HOST 0) = 1 := by decide
  rw [before] at counted
  exact absurd ((farLead_resets 0 0).symm.trans counted) (by decide)

end Machine
end Sys2Proof
end
